-- ==== Sys2Proof/Syntax.lean ====
section
/-! DEFINITION. The commands of the block: one constructor per row of spec/opcode_table.json, with the operands it carries.
Host memory that the block reads for a command, and what modules, clients, the peer head and sensors answer, are operands. -/
namespace Sys2Proof

/-- Kinds of SGL descriptor (R73, R78; 05_rdma_transport.md R103): a data block in host memory, a keyed data block, one with the Invalidate Key
subtype, and in-capsule data. -/
inductive SglKind | block | keyed | keyedInv | capsule
  deriving DecidableEq, Repr

/-- An SGL descriptor: kind, address, length, key (R73, R78). -/
structure Sgl where
  kind : SglKind
  addr : Nat
  len : Nat
  key : Nat
  deriving DecidableEq, Repr

/-- An NVMe submission entry as it arrives on queue context `q`: command identifier, namespace, command dwords 2, 3 and 10 to
15, SGL descriptors (`prp` set for a PRP-addressed host-side command) and the data the capsule carries. -/
structure Sqe where
  q : Nat
  cid : Nat
  nsid : Nat
  cdw2 : Nat
  cdw3 : Nat
  cdw10 : Nat
  cdw11 : Nat
  cdw12 : Nat
  cdw13 : Nat
  cdw14 : Nat
  cdw15 : Nat
  sgl : List Sgl
  prp : Bool
  data : List (BitVec 8)
  deriving DecidableEq, Repr

/-- How a RoCEv2 packet arrived (05_rdma_transport.md R102, R105): Ethernet port (0-15, plus 16 times the sub-port of a port in breakout),
destination address, whether its ICRC holds, and its ECN CE mark. -/
structure NetIn where
  port : Nat
  gid : List (BitVec 8)
  icrcOk : Bool
  ce : Bool
  deriving DecidableEq, Repr

/-- How a PTP message arrived (02_fabric_time.md R27): port and sub-port, domainNumber, transport (0 IEEE 802.3, 1 UDP/IPv4, 2 UDP/IPv6), the
delay mechanism that its offset was measured with (0 delay request-response, 1 peer-to-peer) and the identity of the port that sent it. -/
structure PtpIn where
  port : Nat
  sub : Nat
  domain : Nat
  transport : Nat
  mech : Nat
  source : Nat
  deriving DecidableEq, Repr

/-- The header of a received message of the pair transaction layer (15_pair_operation.md R360): SEQ, whether ACK is valid, ACK,
MORE. -/
structure PtlHdr where
  seq : Nat
  ackV : Bool
  ack : Nat
  more : Bool
  deriving DecidableEq, Repr

/-- The parameters of a connection management REQ or REP (05_rdma_transport.md R104): the other side's QPN and starting PSN, path MTU
code (0 is 1,024, 1 is 2,048, 2 is 4,096 bytes), responder resources, ACK timeout exponent, retry and RNR retry counts, the
receives asked for (the submission queue size), the private data's record format, the replication session that a privileged pair
names, and the memory key that a target's REP carries; `v6`: the packets are IPv6. -/
structure CmParams where
  qpn : Nat
  psn : Nat
  mtu : Nat
  resources : Nat
  timeout : Nat
  retry : Nat
  rnr : Nat
  recvs : Nat
  recfmt : Nat
  session : Option Nat
  landKey : Nat
  v6 : Bool
  deriving DecidableEq, Repr

/-- What an uncorrectable memory error hits, by the rows of 16_memory_cache.md R403: a record of the brine or its mirror (journal and lowest
sequence affected), a changed or a clean metadata page, a word of the tide table (resource by its order in R37, its number, slot), a job's
state in the engine area, an open row, the first packet of a queue pair in a miss buffer, a connection context, an entry of the stream
cache, a landing area, or a whole stack, channel or DIMM. -/
inductive MemHit
  | brine (journal jseq : Nat)
  | changedPage
  | cleanPage
  | tideWord (rsrc idx slot : Nat)
  | engineJob (job : Nat)
  | stripeRow (row : Nat)
  | missPacket (qp : Nat)
  | context (qp : Nat)
  | cacheEntry (nsid grain : Nat)
  | landing
  | whole (journal jseq : Nat)
  deriving DecidableEq, Repr

/-- Verdicts on a firmware image that the sequencer reaches with fuses and logic of its own (21_startup_security.md R493): KEY hashes to a fused
hash that is not revoked, SIG verifies, every page read succeeds. -/
structure SlotCheck where
  keyOk : Bool
  sigOk : Bool
  readOk : Bool
  deriving DecidableEq, Repr

/-- What the sequencer finds at a start-up (21_startup_security.md R486): the HEAD_ID level, the content that Holteb placed in system flash
(address and bytes; taken at the first power-on reset only), the two settings copies of the SPI NOR, the stacks and channels that train, the DDR
capacity, the DIMM unit that breaks a population rule, the rails' readings, the rails that were missing with their readings, and the verdicts on
the images in the slots. -/
structure BootIn where
  head : Nat
  flash : List (Nat × Bytes)
  setA : Bytes
  setB : Bytes
  hbm : Nat
  channels : Nat
  ddrGib : Nat
  popErr : Option Nat
  rails : List Nat
  missing : List (Nat × Nat)
  slotA : SlotCheck
  slotB : SlotCheck
  deriving DecidableEq, Repr

/-- What loading the pool finds on media (11_flash_translation.md R284; 06_brine_write_path.md R153, R154): the rows of the journals, the stored
key pages and slots whose unwrap fails, whether a copy of the dump header can be read, the dump records (index, copy) that cannot, and whether the
chain of index pages stops early. -/
structure PoolIn where
  rows : List Bytes
  badPages : List Nat
  badSlots : List Nat
  dumpOk : Bool
  badRecs : List (Nat × Nat)
  scan : Bool
  deriving DecidableEq, Repr

/-- A command: the rows of the table, in its order. `ring slot` names a control ring packet by the slot it stands in. What
the parties outside the block send or answer comes as operands (DESIGN CHOICE, log 5). -/
inductive Instr
  /-- REGISTER_WRITE (R8): A write to a register that has no row of its own sets or clears fields according to the access type of each field. -/
  | registerWrite (bar off size value : Nat)
  /-- REG64_LO_READ (R7): A 32-bit read of a _LO half returns the low half and latches the matching _HI value until the next _HI read. -/
  | reg64LoRead (bar off : Nat)
  /-- REG64_HI_READ (R7): A 32-bit read of a _HI half returns the latched value and clears the latch, or returns the current high half when no latch is pending. -/
  | reg64HiRead (bar off : Nat)
  /-- REG64_LO_WRITE (R7): A 32-bit write of a _LO half is held pending and changes nothing by itself; a later _LO write replaces it. -/
  | reg64LoWrite (bar off value : Nat)
  /-- REG64_HI_WRITE (R7): A 32-bit write of a _HI half commits the written high half with the pending low half, or with the current low half when none is pending. -/
  | reg64HiWrite (bar off value : Nat)
  /-- MISALIGNED_ACCESS (R17): A BAR access of any size or alignment other than those allowed: a read completes with Unsupported Request, and a write is dropped and recorded as an event. -/
  | misalignedAccess (bar off size value : Nat) (write : Bool)
  /-- GATED_REGISTER_ACCESS (R19): An access to a register of a switched-off power domain: a read returns 0, and a write is dropped and recorded naming the domain. -/
  | gatedRegisterAccess (off size value : Nat) (write : Bool)
  /-- HOST_DOORBELL_WRITE (R76): A write to a host-side queue doorbell updates the SQ tail and/or the CQ head, or drops an invalid value and posts an Invalid Doorbell Write Value event. -/
  | hostDoorbellWrite (offset size value : Nat) (entries : List Bytes)
  /-- POWER_ON_RESET (R484): The always-on supply reaches its good level; the device resets everything and starts the start-up sequence. -/
  | powerOnReset (b : BootIn)
  /-- RESET_PIN (R484): RESET_N is held low for at least 1 µs, which requests a warm reset of cause 0x04. -/
  | resetPin
  /-- WARM_RESET (R485): A warm reset takes effect once held flash operations and the dump have ended; it resets the non-always-on blocks and reruns start-up from the calibration step. -/
  | warmReset (b : BootIn)
  /-- HOST_PCIE_RESET (R485): A host PCIe fundamental reset resets only the host endpoint, the ring windows and the host-side queues. -/
  | hostPcieReset
  /-- FIRMWARE_READY (R486): The firmware sets CTL_STATUS.READY and begins media port training, module discovery and pairing. -/
  | firmwareReady
  /-- POOL_LOAD (R486): The head loads persistent keys, rebuilds both journals and replays the dump, then reaches READY_IO. -/
  | poolLoad (p : PoolIn)
  /-- WATCHDOG_FW (R484): CTL_FW_BEAT stops advancing for 100 ms, which causes a warm reset of cause 0x01. -/
  | watchdogFw
  /-- WATCHDOG_BOOT (R484): CTL_STATUS.READY is not set within READY_S of control core release, which causes a warm reset of cause 0x02. -/
  | watchdogBoot
  /-- FW_BEAT_TICK (R469): Every 1 ms of firmware run, CTL_FW_BEAT advances by one. -/
  | fwBeatTick
  /-- SYNC_RX (R30): A PTP Sync message yields an offset measurement, updates the error estimate and may move the fabric-time state machine. -/
  | syncRx (m : PtpIn) (offset : Int)
  /-- ANNOUNCE_RX (R28): A PTP Announce message from the selected master keeps the reference current, or finds or returns the reference. -/
  | announceRx (m : PtpIn) (rank : List Nat) (tenMhz : Bool)
  /-- REFERENCE_LOST (R31): No Announce arrives within 3 intervals, or a required timing input is absent too long; the state machine moves on and a backup port may be taken. -/
  | referenceLost (cause : Nat)
  /-- PPS_IN_EDGE (R28): A rising edge on PPS_IN supplies phase to the servo in SRC_MODE 2. -/
  | ppsInEdge (tenMhz : Bool)
  /-- PEER_DELAY_TIMER (R27): Every 1 s the device runs peer-delay measurement on every Ethernet port that is up. -/
  | peerDelayTimer (delays : List (Nat × Nat × Bool))
  /-- SLEW_END (R34): An offset correction by slewing ends. -/
  | slewEnd
  /-- STEP_APPLIED (R34): A time step is applied once no deadline command remains admitted; reservations are laid out again and passed events fire late. -/
  | stepApplied
  /-- HOLDOVER_EXCEEDED (R31): The holdover estimate passes 2,000 ns, so admission stops and the state becomes UNQUALIFIED. -/
  | holdoverExceeded
  /-- PPS_OUT_EDGE (R29): PPS_OUT rises at each fabric-time second boundary. -/
  | ppsOutEdge
  /-- SLOT_ADVANCE (R39): The current tide slot advances every 8 µs; on a bucket change a far bucket enters the near window. -/
  | slotAdvance
  /-- DEADLINE_MISSED (R64): An admitted command whose deadline has passed without delivery is stopped, its bookings are released and it completes with 0xC1. -/
  | deadlineMissed (cmd cause rsrc : Nat)
  /-- TIMED_EVENT_FIRE (R40): Fabric time reaches the instant of an armed timed event, and the event fires. -/
  | timedEventFire
  /-- FAR_INSTANT_ARM (R40): The firmware arms in hardware an accepted instant that has come within the horizon. -/
  | farInstantArm
  /-- HARVEST_BUDGET_SWITCH (R294): A pending change of H, or the armed switch to H_URGENT, takes effect at its slot. -/
  | harvestBudgetSwitch
  /-- GET_LOG_PAGE (R307): NVMe Get Log Page returns SMART, Holteb health or other logs. -/
  | getLogPage (e : Sqe)
  /-- IDENTIFY (R72): NVMe Identify returns controller or namespace data. -/
  | identify (e : Sqe)
  /-- ABORT (R72): NVMe Abort aborts a command that has not yet passed the range-lock stage. -/
  | abort (e : Sqe)
  /-- SET_FEATURES (R72): NVMe Set Features sets a feature value. -/
  | setFeatures (e : Sqe)
  /-- GET_FEATURES (R72): NVMe Get Features returns a feature value. -/
  | getFeatures (e : Sqe)
  /-- ASYNCHRONOUS_EVENT_REQUEST (R72): NVMe Asynchronous Event Request is held until an event is posted on it. -/
  | asynchronousEventRequest (e : Sqe)
  /-- KEEP_ALIVE (R72): NVMe Keep Alive on a fabric admin queue. -/
  | keepAlive (e : Sqe)
  /-- CONNECT (R73): A Fabrics Connect creates a queue context, or fails with Connect Invalid Parameters when none is free. -/
  | connect (e : Sqe)
  /-- PROPERTY_GET (R72): A Fabrics Property Get returns a controller property. -/
  | propertyGet (e : Sqe)
  /-- PROPERTY_SET (R72): A Fabrics Property Set sets a controller property. -/
  | propertySet (e : Sqe)
  /-- DISCONNECT (R72): A Fabrics Disconnect ends a queue. -/
  | disconnect (e : Sqe)
  /-- FORMAT_NVM (R92): NVMe Format NVM deallocates a volume's grains under its SES, and may replace its key and change its LBA format. -/
  | formatNvm (e : Sqe)
  /-- FORMAT_COMPLETE (R92): A running format finishes, and its Format NVM command completes. -/
  | formatComplete (nsid : Nat)
  /-- SANITIZE (R94): NVMe Sanitize starts a Block Erase or Crypto Erase of the whole pool, or exits failure mode. -/
  | sanitize (e : Sqe)
  /-- SANITIZE_PROGRESS (R96): Each further 1/256 of sanitize work completes, and a progress record is written. -/
  | sanitizeProgress (failed : List Nat)
  /-- SANITIZE_COMPLETE (R97): The sanitize ends with success or with failure mode, and the SSTAT value is set. -/
  | sanitizeComplete
  /-- FLUSH (R144): NVMe Flush takes the BRN_JSEQ value s of each journal it names. -/
  | flush (e : Sqe)
  /-- FLUSH_COMPLETE (R144): A Flush completes when the durable mark of its journal reaches s. -/
  | flushComplete (cmd : Nat)
  /-- WRITE (R85): An NVMe Write is decoded, admitted or passed as best-effort, locked, fetched into the brine, mirrored and completed. -/
  | write (e : Sqe)
  /-- READ (R50): An NVMe Read is decoded, admitted or passed as best-effort, and served from the brine, the stream cache or media. -/
  | read (e : Sqe)
  /-- WRITE_ZEROES (R90): NVMe Write Zeroes maps grains to the zero grain and merges zeros into partial grains. -/
  | writeZeroes (e : Sqe)
  /-- DATASET_MANAGEMENT (R88): An NVMe Dataset Management deallocate removes references to grains, securely when SDEAL is set. -/
  | datasetManagement (e : Sqe)
  /-- VERIFY (R72): An NVMe Verify checks that the named blocks can be read. -/
  | verify (e : Sqe)
  /-- RANGE_LOCK_GRANT (R82): A command stalled at the range-lock stage proceeds once the entries it overlaps are released. -/
  | rangeLockGrant (cmd : Nat)
  /-- ORD_RELEASE (R80): A command held by an ORD barrier starts once the commands it waits for have completed. -/
  | ordRelease (cmd : Nat)
  /-- CREATE_HOST_QUEUE (R74): Ixydo opcode 0x40 creates a host-side queue context. -/
  | createHostQueue (ring slot : Nat)
  /-- DELETE_HOST_QUEUE (R74): Ixydo opcode 0x41 deletes a host-side queue, aborting commands not yet past the range lock. -/
  | deleteHostQueue (ring slot : Nat)
  /-- CM_REQ_RX (R104): A connection management REQ arrives on QP1 for a client queue pair. -/
  | cmReqRx (n : NetIn) (m : CmParams)
  /-- CM_REP_RX (R104): A connection management REP arrives for a privileged queue pair the device opened. -/
  | cmRepRx (n : NetIn) (qpn : Nat) (m : CmParams)
  /-- CM_RTU_RX (R104): A connection management RTU arrives and the queue pair is established. -/
  | cmRtuRx (n : NetIn) (qpn : Nat)
  /-- CM_REJ_RX (R104): A connection management REJ arrives. -/
  | cmRejRx (n : NetIn) (qpn : Nat)
  /-- CM_MRA_RX (R104): A connection management MRA arrives. -/
  | cmMraRx (n : NetIn) (qpn : Nat)
  /-- CM_DREQ_RX (R104): A connection management DREQ arrives to disconnect a queue pair. -/
  | cmDreqRx (n : NetIn) (qpn remote : Nat)
  /-- CM_DREP_RX (R104): A connection management DREP arrives. -/
  | cmDrepRx (n : NetIn) (qpn : Nat)
  /-- SEND_RX (R110): A SEND request packet arrives and is classified by PSN as expected, ahead, duplicate or ambiguous. -/
  | sendRx (n : NetIn) (qpn psn : Nat) (invalidate first last : Bool) (payload : Bytes)
  /-- RDMA_WRITE_RX (R123): An RDMA WRITE packet arrives on a privileged queue pair, and its first packet is checked against the memory key. -/
  | rdmaWriteRx (n : NetIn) (qpn psn : Nat) (first last imm : Bool) (va key len : Nat) (payload : Bytes)
  /-- ACK_RX (R113): An acknowledgement arrives for the device as requester and reloads the retry count. -/
  | ackRx (n : NetIn) (qpn psn : Nat)
  /-- SEQ_NAK_RX (R113): A NAK sequence error arrives, and a client queue pair retransmits from the named PSN. -/
  | seqNakRx (n : NetIn) (qpn psn : Nat)
  /-- RNR_NAK_RX (R113): An RNR NAK arrives, and the device waits the time given before it retries. -/
  | rnrNakRx (n : NetIn) (qpn psn timer : Nat)
  /-- FATAL_NAK_RX (R116): A fatal NAK arrives, and the queue pair fails. -/
  | fatalNakRx (n : NetIn) (qpn : Nat)
  /-- READ_RESPONSE_RX (R114): An RDMA READ response arrives and is written into the brine, discarded or re-requested according to its PSN. -/
  | readResponseRx (n : NetIn) (qpn psn : Nat) (last : Bool) (payload : Bytes)
  /-- ACK_TIMEOUT (R113): The ACK timer of a client queue pair expires, and the device retransmits from the oldest unacknowledged packet. -/
  | ackTimeout (qpn : Nat)
  /-- PRIV_ACK_TIMEOUT (R115): A privileged queue pair's backoff timeout expires; it retransmits, or fails after RETRY_LIMIT. -/
  | privAckTimeout (qpn : Nat)
  /-- RNR_WAIT_EXPIRY (R113): The wait that an RNR NAK set ends, and the request is retried. -/
  | rnrWaitExpiry (qpn : Nat)
  /-- CONTEXT_FETCH_DONE (R107): A connection context fetch from DDR completes, and the packets waiting in the miss buffer are processed. -/
  | contextFetchDone (qpn : Nat)
  /-- CNP_RX (R118): A CNP arrives and cuts the queue pair's current rate. -/
  | cnpRx (n : NetIn) (qpn : Nat)
  /-- ALPHA_UPDATE_TIMER (R118): After K_US with no CNP, the factor α decays. -/
  | alphaUpdateTimer (qpn : Nat)
  /-- RATE_INCREASE_TIMER (R118): The increase timer expires, and the rate recovery stage advances. -/
  | rateIncreaseTimer (qpn : Nat)
  /-- BYTE_COUNTER_EXPIRY (R118): B_MIB mebibytes are sent since the last stage, and the rate recovery stage advances. -/
  | byteCounterExpiry (qpn : Nat)
  /-- PFC_PAUSE_RX (R120): A priority flow control pause frame arrives and pauses or resumes a priority. -/
  | pfcPauseRx (port prio : Nat) (pause : Bool)
  /-- PFC_STORM (R120): The ROCE_PRIO queue stays paused for STORM_MS; queued packets are discarded and further pauses are ignored. -/
  | pfcStorm (port : Nat) (ended : Bool)
  /-- ETH_PORT_DOWN (R116): An Ethernet port goes down, and its queue pairs fail. -/
  | ethPortDown (port : Nat)
  /-- REGISTER_MEMORY_KEY (R124): Ixydo opcode 0x42 registers a memory key for a landing region. -/
  | registerMemoryKey (ring slot : Nat)
  /-- REVOKE_MEMORY_KEY (R125): Ixydo opcode 0x43 moves a key to REVOKING. -/
  | revokeMemoryKey (ring slot : Nat)
  /-- REVOKE_COMPLETE (R125): No write that passed the key check remains unfinished, so the revocation replies and frees the index. -/
  | revokeComplete (index : Nat)
  /-- REVOKE_LIMIT_EXPIRY (R125): A write still unfinished 100 ms after revocation fails its queue pair. -/
  | revokeLimitExpiry (index : Nat)
  /-- BRINE_RESERVE_GRANT (R136): A waiting best-effort entry takes its pages and records once room exists. -/
  | brineReserveGrant
  /-- MIRROR_BACKLOG_RELEASE (R141): The mirror backlog falls below BRN_MIRROR_BACKLOG, and held RDMA READs are issued. -/
  | mirrorBacklogRelease
  /-- MIRROR_RX (R139): The peer receives a brine mirror record, writes it into its mirror, and acknowledges it or frees pages. -/
  | mirrorRx (h : PtlHdr) (payload : Bytes)
  /-- PAIR_ACK_RX (R362): An ACK of the pair transaction layer arrives and retires acknowledged messages. -/
  | pairAckRx (chan ack : Nat)
  /-- DRAIN_TAKE (R147): The drain takes the next entry in journal order and dispatches its engine work. -/
  | drainTake (journal : Nat)
  /-- REMIRROR_DONE (R143): Re-mirroring to a returned peer finishes, and ALONE returns to 0. -/
  | remirrorDone
  /-- ACCEPT_BRINE_LOSS (R155): Ixydo opcode 0x44 accepts the lost writes and lets the volumes be served. -/
  | acceptBrineLoss (ring slot : Nat)
  /-- ENGINE_SEGMENT_DONE (R220): An engine core finishes a segment or job, and its output passes on. -/
  | engineSegmentDone (job : Nat)
  /-- ENGINE_JOB_WATCHDOG (R181): The 4 µs job watchdog expires, and the job is reissued on another core. -/
  | engineJobWatchdog (job : Nat)
  /-- ENGINE_CORE_FAULT (R181): A core parity or ECC error is detected, and its job is reissued. -/
  | engineCoreFault (unit : Nat) (hard : Bool)
  /-- CONTEXT_SAVE_DONE (R222): A background save of an evicted stream context completes. -/
  | contextSaveDone (engine cluster : Nat)
  /-- CREATE_DEDUP_DOMAIN (R182): Ixydo opcode 0x60 creates a dedup domain and generates its fingerprint key. -/
  | createDedupDomain (ring slot : Nat) (entropyOk : Bool)
  /-- DELETE_DEDUP_DOMAIN (R183): Ixydo opcode 0x61 frees a domain's partition and filter and erases its key slot. -/
  | deleteDedupDomain (ring slot : Nat)
  /-- GET_DEDUP_DOMAIN (R183): Ixydo opcode 0x62 returns a domain's settings and counts. -/
  | getDedupDomain (ring slot : Nat)
  /-- SET_VOLUME_DOMAIN (R184): Ixydo opcode 0x63 moves an empty volume into a dedup domain. -/
  | setVolumeDomain (ring slot : Nat)
  /-- COMPRESS_JOB (R197): Ixydo opcode 0x68 compresses host data as an offload job. -/
  | compressJob (ring slot : Nat) (src ctx : Bytes)
  /-- DECOMPRESS_JOB (R197): Ixydo opcode 0x69 decompresses host data as an offload job. -/
  | decompressJob (ring slot : Nat) (src ctx : Bytes)
  /-- SET_CODEC_GENERATION (R193): Ixydo opcode 0x6A records a new codec generation in both journals. -/
  | setCodecGeneration (ring slot : Nat)
  /-- CIPHER_JOB (R226): Ixydo opcode 0x64 runs an XTS or GCM offload job. -/
  | cipherJob (ring slot : Nat) (src aad ctx : Bytes)
  /-- DIGEST_JOB (R227): Ixydo opcode 0x65 runs a SHA-2 or HMAC offload job. -/
  | digestJob (ring slot : Nat) (src ctx : Bytes)
  /-- RELOAD_KEYS (R234): Ixydo opcode 0x66 derives the DK again, reloads persistent keys after an alarm, and returns the head to service. -/
  | reloadKeys (ring slot : Nat) (badPages badSlots : List Nat) (entropyOk : Bool)
  /-- KEY_PAGE_CFG_WRITE (R212): A write to CIP_KP_CFG is taken only while the page is EMPTY or LOADING. -/
  | keyPageCfgWrite (page value : Nat)
  /-- KEY_PAGE_KEY_WRITE (R213): A write to a key word or to the salt of a page moves an EMPTY page to LOADING, and is dropped on a LIVE page. -/
  | keyPageKeyWrite (page word value : Nat)
  /-- KEY_PAGE_COMMIT (R213): CIP_KP_CMD COMMIT checks the loaded key and makes the page LIVE, or zeroizes it with an ERR code. -/
  | keyPageCommit (page : Nat)
  /-- KEY_PAGE_GENERATE (R213): CIP_KP_CMD GENERATE fills the page from the DRBG and commits it. -/
  | keyPageGenerate (page : Nat) (entropyOk : Bool)
  /-- KEY_PAGE_ERASE (R213): CIP_KP_CMD ERASE zeroizes a LIVE or ERASED page and removes its stored copy. -/
  | keyPageErase (page : Nat)
  /-- KEY_SLOT_KEY_WRITE (R218): A write to a key slot word follows the key page state machine. -/
  | keySlotKeyWrite (slot word value : Nat)
  /-- KEY_SLOT_COMMIT (R219): DIG_KS_CMD COMMIT precomputes the HMAC inner and outer states and zeroizes the key words. -/
  | keySlotCommit (slot : Nat)
  /-- KEY_SLOT_GENERATE (R218): DIG_KS_CMD GENERATE creates a key of KEYLEN bytes and commits it. -/
  | keySlotGenerate (slot : Nat) (entropyOk : Bool)
  /-- KEY_SLOT_ERASE (R218): DIG_KS_CMD ERASE zeroizes a slot and removes its stored copy. -/
  | keySlotErase (slot : Nat)
  /-- FORCED_ALARM (R231): A write of CIP_ALARM_CTL with CONFIRM 0x4B45 and FORCE 1 asserts the FORCED alarm. -/
  | forcedAlarm (value : Nat)
  /-- ALARM_ASSERT (R232): A supply, clock, temperature, tamper or forced alarm source asserts; key inputs are gated, the alarm paths fire, and all keys are zeroized. -/
  | alarmAssert (source : Nat) (holds : Bool)
  /-- GET_UNIT (R258): Ixydo opcode 0x20 returns a unit descriptor and its member list. -/
  | getUnit (ring slot : Nat)
  /-- CREATE_PAN (R259): Ixydo opcode 0x21 creates a pan from a member list in host memory. -/
  | createPan (ring slot : Nat) (mlist : Bytes)
  /-- DELETE_PAN (R260): Ixydo opcode 0x22 deletes a pan and frees its members as spares. -/
  | deletePan (ring slot : Nat)
  /-- BUILD_DEFAULT_LAYOUT (R246): Ixydo opcode 0x23 builds the default die, module and ROOT pans. -/
  | buildDefaultLayout (ring slot : Nat)
  /-- SET_UNIT_SERVICE (R262): Ixydo opcode 0x24 takes a die, module or media port out of service or back into it. -/
  | setUnitService (ring slot : Nat)
  /-- REPLACE_MEMBER (R263): Ixydo opcode 0x25 names a substitute for a failed position. -/
  | replaceMember (ring slot : Nat)
  /-- DIE_COMMAND_TIMEOUT (R249): A die command gets no completion within DIE_TMO_MS; it is reissued once, or the die is declared FAILED on a second miss. -/
  | dieCommandTimeout (port tag : Nat)
  /-- BOOKED_READ_TIMEOUT (R250): A booked die read has no data by the end of slot e + L_die + 2, and is reissued as a reconstruction or a proxy read. -/
  | bookedReadTimeout (job : Nat)
  /-- REBUILD_POSITION_END (R248): The rebuild of a SUBST position ends; SUBST clears and FAILED_CNT falls. -/
  | rebuildPositionEnd (pan pos : Nat)
  /-- UNIT_STATE_RECORD_RX (R257): A unit state record from the peer is applied and written into the own journal. -/
  | unitStateRecordRx (h : PtlHdr) (payload : Bytes)
  /-- GRANT_REQUEST_RX (R274): The arbiter receives a grant request and grants the next stripe block. -/
  | grantRequestRx (h : PtlHdr) (journal stream : Nat)
  /-- GRANT_RX (R364): A grant from the head 0 arbiter arrives, and the requesting head records it in its journal. -/
  | grantRx (h : PtlHdr) (payload : Bytes)
  /-- MODULE_CPL_RX (R321): A module completion record arrives, and the device acts on its status. -/
  | moduleCplRx (port : Nat) (rec_ : Bytes) (found : List Bytes)
  /-- HARVEST_START (R297): The device picks a victim stripe block and places a harvest start record. -/
  | harvestStart (journal top : Nat)
  /-- HARVEST_COPY (R297): Once the start record is programmed, the valid frames of the victim are copied into the destination stream. -/
  | harvestCopy (top blk : Nat)
  /-- HARVEST_COMMIT (R297): Once a batch of copies is programmed, a harvest commit record moves the PLOCs. -/
  | harvestCommit (top blk : Nat)
  /-- HARVEST_ERASE (R297): Once the LAST commit is programmed and no read is in flight, the victim is erased. -/
  | harvestErase (top blk : Nat)
  /-- SET_HARVEST_BUDGET (R310): Ixydo opcode 0x5A arms new H_BASE and H_URGENT values. -/
  | setHarvestBudget (ring slot : Nat)
  /-- HEALTH_RECORD_TIMER (R308): Every 10 minutes, the head fields of the health log are written to system flash. -/
  | healthRecordTimer
  /-- TEMP_BIN_TICK (R308): Once a minute, the temperature bin of the hottest sensor is incremented. -/
  | tempBinTick
  /-- MEDIA_PORT_UP (R329): A media port reaches DL_Up, and the module behind it is discovered. -/
  | mediaPortUp (port width rate : Nat) (mismatch : Bool)
  /-- MEDIA_PORT_DOWN (R334): A media port goes to DL_Down; the port fails and the module is proxied through the peer. -/
  | mediaPortDown (port : Nat)
  /-- MODULE_EVENT_RX (R332): An EVENT MLP reports a die failure, a fatal fault, a temperature limit or a loss of power. -/
  | moduleEventRx (port code die : Nat)
  /-- MODULE_RDATA_RX (R317): An RDATA MLP carries read or record data for a command. -/
  | moduleRdataRx (port tag off : Nat) (data : Bytes)
  /-- MODULE_STATUS_POLL (R332): Every POLL_MS, STATUS is sent to each module. -/
  | moduleStatusPoll
  /-- MODULE_PRESENCE_LOST (R332): MPRSNT_N deasserts, and the module fails with cause 0x04. -/
  | modulePresenceLost (port : Nat)
  /-- MODULE_BUSY_RETRY (R322): 1 µs after a BUSY completion, the command is reissued. -/
  | moduleBusyRetry (port tag : Nat)
  /-- GET_MODULE_INFO (R335): Ixydo opcode 0x26 returns a module record, a die record or a reservation. -/
  | getModuleInfo (ring slot : Nat)
  /-- PROXY_CMD_RX (R334): A PROXY_CMD from the peer is issued on the own media port. -/
  | proxyCmdRx (h : PtlHdr) (payload : Bytes)
  /-- PROXY_CPL_RX (R361): A PROXY_CPL returns the completion and data of a proxied command. -/
  | proxyCplRx (h : PtlHdr) (payload : Bytes) (found : List Bytes)
  /-- SET_VOLUME_GROUP (R355): Ixydo opcode 0x88 puts a volume into a consistency group or takes it out. -/
  | setVolumeGroup (ring slot : Nat)
  /-- CREATE_SNAPSHOT (R355): Ixydo opcode 0x89 arms a snapshot cut at an instant. -/
  | createSnapshot (ring slot : Nat)
  /-- DELETE_SNAPSHOT (R346): Ixydo opcode 0x8A deletes a snapshot and lowers the share counts of its pages. -/
  | deleteSnapshot (ring slot : Nat)
  /-- LIST_SNAPSHOTS (R355): Ixydo opcode 0x8B lists the snapshots of a volume. -/
  | listSnapshots (ring slot : Nat)
  /-- CLONE_SNAPSHOT (R341): Ixydo opcode 0x8C clones a snapshot epoch into a new writable volume. -/
  | cloneSnapshot (ring slot : Nat)
  /-- GET_SNAPSHOT_SPACE (R345): Ixydo opcode 0x8D starts a scan of a volume's map to report space. -/
  | getSnapshotSpace (ring slot : Nat)
  /-- SNAPSHOT_SPACE_SCAN_DONE (R345): The space scan ends, and the final reply carries the four counts. -/
  | snapshotSpaceScanDone (ring slot : Nat)
  /-- CREATE_REPL_SESSION (R355): Ixydo opcode 0x90 creates a replication session as source or target. -/
  | createReplSession (ring slot : Nat)
  /-- START_REPLICATION (R353): Ixydo opcode 0x91 cuts a snapshot and starts sending a delta. -/
  | startReplication (ring slot : Nat)
  /-- GET_REPL_SESSION (R355): Ixydo opcode 0x92 returns the state of a session. -/
  | getReplSession (ring slot : Nat)
  /-- DELETE_REPL_SESSION (R353): Ixydo opcode 0x93 closes a session and releases the snapshots it holds. -/
  | deleteReplSession (ring slot : Nat)
  /-- REPL_DATA_RX (R351): The target receives a DATA message and applies, discards or asks again for it. -/
  | replDataRx (session : Nat)
  /-- REPL_COMMIT_RX (R351): The target receives COMMIT, places a replica snapshot and acknowledges COMMITTED. -/
  | replCommitRx (session : Nat)
  /-- REPL_ACK_RX (R353): The source receives an ACK that advances, resends or commits the delta. -/
  | replAckRx (session : Nat)
  /-- REPL_OPEN_RX (R350): The target receives OPEN and checks the salt. -/
  | replOpenRx (session : Nat)
  /-- REPL_RESUME_RX (R354): A RESUME message restarts sending after the highest acknowledged message. -/
  | replResumeRx (session : Nat)
  /-- REPL_RECONNECT_TIMER (R353): The 30 s reconnect timer of a SUSPENDED session expires, and the session connects again. -/
  | replReconnectTimer (session : Nat)
  /-- CUT_ARM_RX (R343): A cut arm message from the peer arms a group cut on this head. -/
  | cutArmRx (h : PtlHdr) (payload : Bytes)
  /-- CUT_CANCEL_RX (R344): A cut cancel message from the peer deletes the epochs of a missed cut. -/
  | cutCancelRx (h : PtlHdr) (payload : Bytes)
  /-- ICL_LINK_UP (R365): The ICL trains to x16 or x8, and HELLO exchange begins. -/
  | iclLinkUp (width rate rtt : Nat)
  /-- ICL_LINK_DOWN (R359): The ICL goes down, and the transfer key is discarded. -/
  | iclLinkDown
  /-- ICL_RETRAIN (R359): The ICL retrains, changes width or recovers, and the booked ICL transfers it delays miss under cause 0x04. -/
  | iclRetrain (kind width : Nat)
  /-- HELLO_TIMER (R365): Every 1 ms, HELLO is sent until a HELLO has been received. -/
  | helloTimer
  /-- HELLO_RX (R366): A HELLO from the peer is checked and pairing is accepted or refused. -/
  | helloRx (payload : Bytes) (sigOk : Bool)
  /-- HEARTBEAT_TIMER (R370): Every 10 µs, a HEARTBEAT is sent to the peer. -/
  | heartbeatTimer
  /-- HEARTBEAT_RX (R372): A HEARTBEAT arrives; it renews the lease and returns a SUSPECT head to PAIRED. -/
  | heartbeatRx (payload : Bytes)
  /-- PEER_SUSPECT (R372): 50 µs without a heartbeat makes the head SUSPECT, and it stops sending heartbeats. -/
  | peerSuspect
  /-- LEASE_EXPIRY (R371): 100 µs without a heartbeat ends the lease, and deliveries are gated. -/
  | leaseExpiry
  /-- PEER_LOST (R372): 180 µs without a heartbeat declares the peer lost and starts an election. -/
  | peerLost
  /-- ELECTION_POLL (R374): Every 5 µs during an election, RESERVE READ is sent to the lead module. -/
  | electionPoll
  /-- ELECTION_LEAD_TIMEOUT (R374): The lead module gives no CPL within 100 µs, so the head stays ELECTING and records an event. -/
  | electionLeadTimeout
  /-- ELECTION_RETRY (R374): Every 1 ms while ELECTING without an answer, the election is retried. -/
  | electionRetry
  /-- LEAVE_RX (R372): A LEAVE message declares the peer lost at once. -/
  | leaveRx
  /-- ALARM_NOTICE_RX (R453): An alarm notice from the peer sets PEER_ALARM, and a KEY_ERASE notice declares the peer lost. -/
  | alarmNoticeRx (h : PtlHdr) (payload : Bytes)
  /-- JOURNAL_RX (R368): A JOURNAL message is applied to the shadow in sequence order. -/
  | journalRx (h : PtlHdr) (payload : Bytes)
  /-- PAIR_NAK_RX (R362): A NAK arrives and the sender sends again from the message after ACK. -/
  | pairNakRx (chan ack : Nat)
  /-- PAIR_RESEND_TIMER (R362): 20 µs without progress causes a resend from the oldest unacknowledged message. -/
  | pairResendTimer (chan : Nat)
  /-- PAIR_RESERVED_TYPE_RX (R361): A message of reserved type, or an unsequenced one with MORE set, is discarded and counted. -/
  | pairReservedTypeRx
  /-- CONFIG_RECORD_RX (R216): A configuration record from the peer is applied, including persistent key commits and erases. -/
  | configRecordRx (h : PtlHdr) (payload : Bytes)
  /-- KEY_TRANSFER_RX (R364): The PWK arrives wrapped under the transfer key. -/
  | keyTransferRx (h : PtlHdr) (payload : Bytes)
  /-- LEAD_SELECTION_RX (R373): A lead selection from head 0 is acknowledged and the new lead is used. -/
  | leadSelectionRx (h : PtlHdr) (payload : Bytes)
  /-- GROUP_MOVE_STEP_RX (R382): A group move step arrives from the peer. -/
  | groupMoveStepRx (h : PtlHdr) (payload : Bytes)
  /-- SANITIZE_NOTICE_RX (R95): A sanitize notice from the peer makes this head refuse I/O with Sanitize In Progress. -/
  | sanitizeNoticeRx (h : PtlHdr) (payload : Bytes)
  /-- MOVE_ANA_GROUP (R382): Ixydo opcode 0x81 starts a planned move of an ANA group to the peer. -/
  | moveAnaGroup (ring slot : Nat)
  /-- MOVE_DRAIN_DONE (R382): Every entry of the moving group is durable, so the move record is placed and sent to the peer. -/
  | moveDrainDone (grp : Nat)
  /-- MOVE_TIMEOUT (R382): The wait of step 2 passes 2.1 s, and the group stays with its owner. -/
  | moveTimeout (grp : Nat)
  /-- SET_HOME_HEAD (R386): Ixydo opcode 0x82 sets the home head of a group. -/
  | setHomeHead (ring slot : Nat)
  /-- LEAVE_PAIR (R386): Ixydo opcode 0x83 moves every owned group to the peer and sends LEAVE. -/
  | leavePair (ring slot : Nat)
  /-- REJOIN_PAIR (R384): Ixydo opcode 0x84 starts the rejoin of a returning head. -/
  | rejoinPair (ring slot : Nat)
  /-- GET_PAIR_STATUS (R386): Ixydo opcode 0x80 returns the pair state. -/
  | getPairStatus (ring slot : Nat)
  /-- SOLO_WAIT_EXPIRY (R383): SOLO_WAIT_S passes without a HELLO, so the head registers and runs an election. -/
  | soloWaitExpiry
  /-- REJOIN_SYNC_DONE (R384): The returner's shadow tips reach the survivor's durable marks, and release, registration and hand-back follow. -/
  | rejoinSyncDone (rows : List Bytes)
  /-- PATROL_SCRUB (R391): The patrol scrub reads memory and writes back corrected words. -/
  | patrolScrub (found : List (Nat × Nat × Nat × Nat))
  /-- MEMORY_UE (R403): An uncorrectable HBM or DDR error is handled according to the area it falls in. -/
  | memoryUe (unit space addr : Nat) (hit : MemHit)
  /-- LLC_WAY_OFF_WRITE (R402): A write of LLC_WAY_OFF_s.REQ starts powering way groups down or up. -/
  | llcWayOffWrite (slice value : Nat)
  /-- LLC_WAY_CLEAN_DONE (R402): The ways are invalidated and powered down, and BUSY clears. -/
  | llcWayCleanDone (slice : Nat)
  /-- DMA_ARM (R409): A write of ARM arms the shadow set, which starts at once when the channel is idle. -/
  | dmaArm (ch : Nat)
  /-- DMA_ABORT (R417): A write of ABORT disarms the shadow set and stops the active transfer with code 9. -/
  | dmaAbort (ch : Nat)
  /-- DMA_SHADOW_WRITE (R410): A write to the shadow set is taken, or is dropped with SHADOW_WR_DROP while ARMED. -/
  | dmaShadowWrite (ch off size value : Nat)
  /-- DMA_CHUNK_DONE (R413): A chunk becomes visible; DONE advances and HALF or END may be set. -/
  | dmaChunkDone (ch off : Nat) (data : Bytes)
  /-- DMA_FAULT (R416): A host, memory or peer fault stops a transfer with an error code and halts the channel. -/
  | dmaFault (ch code : Nat)
  /-- DMA_ERR_CLEAR (R416): Writing 1 to ERR clears HALTED, and an armed shadow then starts. -/
  | dmaErrClear (ch value : Nat)
  /-- DMA_WIN_CFG_WRITE (R408): A write of DMA_WIN_CFG_n opens or closes a peer window. -/
  | dmaWinCfgWrite (n value : Nat)
  /-- WINDOW_WRITE_RX (R408): A window write message from the peer is checked against the window and written. -/
  | windowWriteRx (h : PtlHdr) (payload : Bytes)
  /-- WINDOW_READ_RX (R408): A window read request from the peer is checked and answered with data. -/
  | windowReadRx (h : PtlHdr) (payload : Bytes)
  /-- WINDOW_READ_REPLY_RX (R408): A window read reply delivers peer data to a channel, or fails the transfer with code 8. -/
  | windowReadReplyRx (h : PtlHdr) (payload : Bytes)
  /-- SFL_PROGRAM (R427): SFL_Bb_CMD PROGRAM writes the page buffer to a page of bank b. -/
  | sflProgram (bank : Nat)
  /-- SFL_ERASE (R427): SFL_Bb_CMD ERASE erases a block of bank b. -/
  | sflErase (bank : Nat)
  /-- SFL_OP_DONE (R427): A system flash program or erase ends, and DONE and ERR are set. -/
  | sflOpDone (bank : Nat) (ok : Bool)
  /-- SFL_APERTURE_READ (R425): A host read through the flash aperture returns data, or faults on a busy bank. -/
  | sflApertureRead (off size level : Nat)
  /-- READ_SYSTEM_FLASH (R433): Ixydo opcode 0xD0 reads system flash and waits for a busy bank. -/
  | readSystemFlash (ring slot : Nat) (levels : List Nat)
  /-- EVR_ALLOWANCE_REFILL (R443): At each fabric-time second, class allowances are refilled and SUMMARY records are appended. -/
  | evrAllowanceRefill
  /-- EVR_FLUSH_TIMER (R445): FLUSH_MS passes since the oldest unflushed record, and a flush starts. -/
  | evrFlushTimer
  /-- EVR_FLUSH_DONE (R446): A flush ends when its last page is programmed, and a pending flush may start. -/
  | evrFlushDone
  /-- EVR_FREEZE_EXPIRY (R449): FREEZE_MAX passes, and the frozen view thaws. -/
  | evrFreezeExpiry
  /-- AEN_WINDOW_EXPIRY (R454): The AEN_MS coalescing window ends, and a held asynchronous event may be posted. -/
  | aenWindowExpiry (ctrl typ info : Nat)
  /-- READ_EVENTS (R450): Ixydo opcode 0xA0 returns event records from a sequence onward. -/
  | readEvents (ring slot : Nat)
  /-- FREEZE_EVENTS (R451): Ixydo opcode 0xA1 freezes or thaws the recorder view. -/
  | freezeEvents (ring slot : Nat)
  /-- OPEN_LOG_EPOCH (R451): Ixydo opcode 0xA2 opens a new log epoch. -/
  | openLogEpoch (ring slot : Nat)
  /-- RING_DOORBELL (R458): A write of CTL_RING_DB posts command entries, or is dropped. -/
  | ringDoorbell (ring value : Nat) (entries : List Bytes)
  /-- RING_ENABLE (R470): A write of EN = 1 enables a ring and zeroes its indices. -/
  | ringEnable (ring value : Nat)
  /-- RING_DISABLE (R470): A write of EN = 0 moves a RUNNING ring to DRAINING. -/
  | ringDisable (ring value : Nat)
  /-- RING_DRAIN_DONE (R470): A DRAINING ring owns no entry and every reply is visible, so it becomes DISABLED. -/
  | ringDrainDone (ring : Nat)
  /-- RPL_HEAD_WRITE (R459): A write of CTL_RING_RPL_HEAD frees reply entries and releases a held reply. -/
  | rplHeadWrite (ring value : Nat)
  /-- NOP (R477): Ixydo opcode 0x01 replies OK with CTL_FW_BEAT. -/
  | nop (ring slot : Nat)
  /-- CREATE_POOL (R474): Ixydo opcode 0x08 creates the pool, its PWK, its journals and its anchors. -/
  | createPool (ring slot : Nat) (entropyOk : Bool)
  /-- CREATE_VOLUME (R475): Ixydo opcode 0x45 creates a volume. -/
  | createVolume (ring slot : Nat)
  /-- DELETE_VOLUME (R476): Ixydo opcode 0x46 deletes a detached volume and its snapshots. -/
  | deleteVolume (ring slot : Nat)
  /-- ATTACH_VOLUME (R476): Ixydo opcode 0x47 attaches or detaches a volume. -/
  | attachVolume (ring slot : Nat)
  /-- GET_IDENTITY (R499): Ixydo opcode 0x00 returns the identity block, the certificate and the platform ID. -/
  | getIdentity (ring slot : Nat)
  /-- RESET_HEAD (R499): Ixydo opcode 0x02 replies, then causes a warm reset of cause 0x03 10 ms later. -/
  | resetHead (ring slot : Nat)
  /-- FW_DOWNLOAD (R496): Ixydo opcode 0xC0 writes an image chunk into the target slot. -/
  | fwDownload (ring slot : Nat) (data : Bytes)
  /-- FW_ACTIVATE (R496): Ixydo opcode 0xC1 verifies the target slot and writes a TRIAL record. -/
  | fwActivate (ring slot : Nat) (check : SlotCheck)
  /-- FW_COMMIT (R496): Ixydo opcode 0xC2 commits the running trial slot and burns SVN bits. -/
  | fwCommit (ring slot : Nat)
  /-- FW_STATUS (R496): Ixydo opcode 0xC3 returns the slot states. -/
  | fwStatus (ring slot : Nat)
  /-- RECOVERY_GO (R497): A write of BOOT_RCV_CTL.GO in STAGE 8 loads, verifies and starts a recovery image. -/
  | recoveryGo (image : Bytes) (check : SlotCheck)
  /-- FIELD_CHALLENGE (R501): Ixydo opcode 0xE0 returns a nonce and the unique ID. -/
  | fieldChallenge (ring slot : Nat)
  /-- FIELD_UNLOCK (R501): Ixydo opcode 0xE1 checks a proof and opens a field access session. -/
  | fieldUnlock (ring slot : Nat)
  /-- FIELD_LOCK (R501): Ixydo opcode 0xE2 ends the session. -/
  | fieldLock (ring slot : Nat)
  /-- FIELD_PROVISION (R501): Ixydo opcode 0xE3 burns the fuses of an unlock method. -/
  | fieldProvision (ring slot : Nat)
  /-- FIELD_SESSION_EXPIRY (R501): SESSION_MIN minutes pass, and the session ends. -/
  | fieldSessionExpiry
  /-- NONCE_EXPIRY (R501): 60 s after FIELD_CHALLENGE, the nonce is no longer valid. -/
  | nonceExpiry
  /-- SET_POWER_DOMAIN (R506): Ixydo opcode 0xA3 switches a power domain off or on. -/
  | setPowerDomain (ring slot : Nat)
  /-- POWER_DOMAIN_READY (R505): A domain switched on has its settings applied again and its READY bit set. -/
  | powerDomainReady (domain : Nat)
  /-- GET_POWER_STATUS (R517): Ixydo opcode 0xA4 returns domains, rails, sensors and power. -/
  | getPowerStatus (ring slot : Nat)
  /-- GET_CABLES (R517): Ixydo opcode 0xA5 returns cable delays and lengths. -/
  | getCables (ring slot : Nat)
  /-- RAIL_SAMPLE (R512): Every 1 µs the rails are sampled, and WARN, CRIT or key-erase levels are judged. -/
  | railSample (values : List Nat) (power : Nat)
  /-- TEMP_SAMPLE (R513): The temperature sensors are judged against the WARN, THROTTLE, CRIT and key-erase levels. -/
  | tempSample (values : List Int)
  /-- PFAIL_ASSERT (R511): PFAIL_N asserts, which starts the brine dump and the event flush and ends any field session. -/
  | pfailAssert
  /-- DUMP_COMPLETE (R511): The dump headers are written and the flush has ended, so DUMP_DONE is driven high. -/
  | dumpComplete
  /-- REFCLK_LOSS (R515): A reference clock is lost or off frequency, and the blocks it feeds go down. -/
  | refclkLoss (clock : Nat) (holds : Bool)
  /-- SET_VOLUME_ADMISSION (R68): Ixydo opcode 0x58 sets a volume's deadline mode, client allowance, budget and in-flight limit. -/
  | setVolumeAdmission (ring slot : Nat)
  /-- GET_VOLUME_ADMISSION (R68): Ixydo opcode 0x59 returns a volume's admission settings and its admitted commands in flight. -/
  | getVolumeAdmission (ring slot : Nat)
  /-- ETH_PORT_UP (R27): An Ethernet port or sub-port comes up, so it takes part in peer-delay measurement, PTP port choice and connections. -/
  | ethPortUp (port line : Nat)
  /-- REPL_CONNECT_TIMEOUT (R353): A connection attempt of a replication session gets no answer in time, and the session moves from CONNECTING to SUSPENDED. -/
  | replConnectTimeout (session : Nat)
  /-- RDMA_READ_REQUEST_RX (R103): An RDMA READ or atomic request arrives for the device as responder and is answered with a NAK invalid request, failing the queue pair. -/
  | rdmaReadRequestRx (n : NetIn) (qpn psn : Nat)
  /-- LLC_REHASH_DONE (R402): The whole-LLC invalidation and rehash after a slice group domain switch ends within 20 µs, and LLC_STATUS.REHASH clears. -/
  | llcRehashDone
  deriving DecidableEq, Repr

end Sys2Proof
end

