-- ==== Sys2Proof/Decode.lean ====
section
/-! DEFINITION. The decoder over the table's words. No row of spec/opcode_table.json gives bits: commands reach the block as bus accesses,
messages, packets and events, not as words. -/
namespace Sys2Proof

/-- The command that a word spells by the table's bits: none, since no row has bits. -/
def decodeTableWord (_nbits _w : Nat) : Option Instr := none

end Sys2Proof
end

