-- ==== Sys2Proof/Config.lean ====
section
/-! DEFINITION. What an implementation fixes and what the spec leaves open: constants without a body, so that no proof can
see their values. The published functions that the spec names and does not restate (AES, SHA-2, HMAC, ECDSA, key
wrap) stand here too, as functions of their operands. -/
namespace Sys2Proof

namespace Config

/-- A value that nothing fixes: the n-th one drawn. The step reads and advances the counter State.free. (DESIGN CHOICE, log 3) -/
opaque freeValue : Nat → DWord
/-- The device unique ID, 16 bytes read from fuses (21_startup_security.md R499, R503). -/
opaque uniqueId : Nat → Byte
/-- Output bytes of the DRBG (09_cipher_digest.md R210): byte i of the n-th draw. -/
opaque drbg : Nat → Nat → Byte
/-- AES-256-XTS encryption of one data unit: key bytes, tweak, plaintext (R208). -/
opaque xtsEncrypt : Bytes → Nat → Bytes → Bytes
/-- AES-256-XTS decryption of one data unit (R208). -/
opaque xtsDecrypt : Bytes → Nat → Bytes → Bytes
/-- AES-256-GCM: key, IV, additional data, text; the ciphertext (R208). -/
opaque gcmEncrypt : Bytes → Bytes → Bytes → Bytes → Bytes
/-- AES-256-GCM decryption (R208). -/
opaque gcmDecrypt : Bytes → Bytes → Bytes → Bytes → Bytes
/-- The AES-256-GCM tag: key, IV, additional data, ciphertext (R208). -/
opaque gcmTag : Bytes → Bytes → Bytes → Bytes → Bytes
/-- A byte of a SHA-2 digest: algorithm, message, place (R208). -/
opaque sha2Byte : Nat → Bytes → Nat → Byte
/-- The bytes of a SHA-2 digest (09_cipher_digest.md R208, R225): 0 SHA-224, 1 SHA-256, 2 SHA-384, 3 SHA-512. -/
def digestLen (alg : Nat) : Nat :=
  match alg with
  | 0 => 28
  | 1 => 32
  | 2 => 48
  | _ => 64
/-- A SHA-2 digest: algorithm, message (R208). -/
def sha2 (alg : Nat) (msg : Bytes) : Bytes := (List.range (digestLen alg)).map (sha2Byte alg msg)
/-- The hash function of the match finder (08_compression.md R190: it is fixed by the codec generation, which is all that is said of it):
generation, hash bits, bytes. -/
opaque lzHash : Nat → Nat → Bytes → Nat
/-- AES-256 key wrap (R208, R211): wrapping key, content. -/
opaque keyWrap : Bytes → Bytes → Bytes
/-- AES-256 key unwrap: wrapping key, wrapped content; none where the integrity check fails (R208, R223). -/
opaque keyUnwrap : Bytes → Bytes → Option Bytes
/-- The device key, a function of the fuses (R211). -/
opaque deviceKey : Bytes
/-- The state of a digest or GHASH pass after more bytes: algorithm, state so far, bytes (R225). -/
opaque absorb : Nat → Bytes → Bytes → Bytes
/-- The digest or tag that ends a pass: algorithm, state (R225, R217). -/
opaque absorbEnd : Nat → Bytes → Bytes
/-- The ECDH P-384 public key of an ephemeral secret, 97 bytes (15_pair_operation.md R365). -/
opaque ecdhPublic : Bytes → Bytes
/-- The transfer key: the key derivation of the ECDH secret of the own ephemeral secret and the peer's public key (R365). -/
opaque transferKey : Bytes → Bytes → Bytes
/-- The ECDSA P-384 signature of the device identity key over some bytes, 96 bytes (R365). -/
opaque identitySign : Bytes → Bytes
/-- CAUSE of a core, cluster or engine that fails: R249 of 10_media_units_pans.md lists none for these units; unit ID. -/
opaque engineCause : Nat → Nat
/-- Cause of a LEAVE that a LEAVE_PAIR packet sends (15_pair_operation.md R360; the spec gives none). (DESIGN CHOICE, log 53) -/
opaque leaveCause : Nat
/-- A byte of a system flash page whose content is undefined (18_system_flash.md R428, R432): draw, byte. -/
opaque freeByte : Nat → Nat → Byte
/-- Place of a copy of the dump area as a root record carries it (11_flash_translation.md R283; how the device chooses it is not stated). (DESIGN CHOICE, log 90) -/
opaque dumpArea : Nat → Nat
/-- TYPE of the record that carries the bitmap of retired blocks (18_system_flash.md R429, R430; the spec gives none). -/
opaque bbtType : Nat
/-- Bytes of an NVMe identify or log page that the spec leaves to the NVMe standard: structure, offset. (DESIGN CHOICE, log 8) -/
opaque standardByte : Nat → Nat → Byte
/-- A byte of a checkpoint image of a page whose layout the spec does not give: table, page, s0, offset (11_flash_translation.md R282).
(DESIGN CHOICE, log 19) -/
opaque tableByte : Nat → Nat → Nat → Nat → Byte
/-- PAGE_JSEQ of a checkpoint image of a page that the model keeps no last change of: table, page, s0 (R282). (DESIGN CHOICE, log 19) -/
opaque pageJseq : Nat → Nat → Nat → Nat

/-- The slice among `n` powered ones that the hash of bits [47:7] of an address chooses: space, address bits [47:7], `n`; used modulo `n`
(16_memory_cache.md R397; the hash is not stated). -/
opaque llcHash : Nat → Nat → Nat → Nat
/-- The set of a line in its slice: space, address bits [47:7]; used modulo 2,048 (R397; not stated). -/
opaque llcSet : Nat → Nat → Nat
/-- What the parity and ECC of the last-level cache find when a lookup meets a line (16_memory_cache.md R401). -/
inductive LlcFault
  | clean
  | corrected
  | tagParity
  | uncorrectable
  deriving DecidableEq, Repr, Inhabited
/-- The error that the `n`-th lookup to meet a line finds (R401; errors come from outside the spec). -/
opaque llcFault : Nat → LlcFault
/-- Where a metadata structure lies, as its space (1 HBM, 2 DDR) and address: kind, number (16_memory_cache.md R392, R393 fix the areas and no place
within them). (DESIGN CHOICE, log 135) -/
opaque metaAt : Nat → Nat → Nat × Nat
/-- The place of a word of the tide table among its 266,931,648 words: resource, index, near slot or far bucket; used modulo their number
(02_fabric_time.md R39; the order is not stated). (DESIGN CHOICE, log 135) -/
opaque tideWord : Nat → Nat → Nat → Nat
/-- The Do Not Retry bit of a completion for which the spec gives none: status code type, status code (04_host_queues.md R100). (DESIGN CHOICE, log 7) -/
opaque dnr : Nat → Nat → Bool
/-- A byte of a stored grain that no pan can decode, where a partial write merges over it: stored grain number, byte (06_brine_write_path.md
R145; the spec states no content). -/
opaque lostByte : Nat → Nat → Byte

end Config
end Sys2Proof
end

