-- ==== Sys2Proof/Machine/Bits.lean ====
section
/-! DEFINITION. Byte order, bit fields, serial-number arithmetic, CRC and Galois-field helpers (00_scope.md R4, R10;
06_brine_write_path.md R138; 07_data_reduction.md R164; 10_media_units_pans.md R242). -/
namespace Sys2Proof.Machine

/-- The `n` little-endian bytes of `v` (R4). -/
def leBytes : Nat → Nat → Bytes
  | 0, _ => []
  | n + 1, v => BitVec.ofNat 8 v :: leBytes n (v / 256)

/-- The number that little-endian bytes spell (R4). -/
def leNat : Bytes → Nat
  | [] => 0
  | b :: bs => b.toNat + 256 * leNat bs

/-- `len` bytes of `bs` from offset `off`, zero where `bs` ends early. -/
def slice (bs : Bytes) (off len : Nat) : Bytes :=
  let t := (bs.drop off).take len
  t ++ List.replicate (len - t.length) 0

/-- The little-endian number of `len` bytes at offset `off`. (DESIGN CHOICE, log 15) -/
def leAt (bs : Bytes) (off len : Nat) : Nat := leNat ((bs.drop off).take len)

/-- All bytes are zero. -/
def allZero (bs : Bytes) : Bool := bs.all (· == 0)

/-- Bits [hi:lo] of a number. -/
def bits (v hi lo : Nat) : Nat := (v / 2 ^ lo) % 2 ^ (hi + 1 - lo)

/-- Bit `i` of a number. -/
def bit (v i : Nat) : Bool := v.testBit i

/-- One bit as a number. -/
def b2n (b : Bool) : Nat := if b then 1 else 0

/-- `v` with bits [hi:lo] replaced by `x`. -/
def putBits (v hi lo x : Nat) : Nat :=
  v - bits v hi lo * 2 ^ lo + (x % 2 ^ (hi + 1 - lo)) * 2 ^ lo

/-- Serial-number comparison of R10: `b` is after `a` among `n`-bit numbers. -/
def serialAfter (n a b : Nat) : Bool :=
  let d := (b + 2 ^ n - a % 2 ^ n) % 2 ^ n
  decide (1 ≤ d) && decide (d ≤ 2 ^ (n - 1) - 1)

/-- Rounding up division. -/
def ceilDiv (a b : Nat) : Nat := if b = 0 then 0 else (a + b - 1) / b

/-- One bit of a reflected CRC with polynomial `poly`. -/
def crcBit (poly c : Nat) : Nat := if c % 2 = 1 then (c / 2) ^^^ poly else c / 2

/-- Eight bits of a reflected CRC. -/
def crcByte (poly c : Nat) (b : Byte) : Nat :=
  let p := crcBit poly
  p (p (p (p (p (p (p (p (c ^^^ b.toNat))))))))

/-- A reflected 32-bit CRC with initial value and final exclusive-or 0xFFFF_FFFF. -/
def crcRefl (poly : Nat) (bs : Bytes) : Nat :=
  (bs.foldl (crcByte poly) 0xFFFFFFFF) ^^^ 0xFFFFFFFF

/-- CRC-32 of IEEE 802.3 (R164). -/
def crc32 (bs : Bytes) : Nat := crcRefl 0xEDB88320 bs

/-- CRC-32C (R138). -/
def crc32c (bs : Bytes) : Nat := crcRefl 0x82F63B78 bs

/-- CRC-64 of the 64b Guard protection information (04_host_queues.md R91; polynomial AD93D23594C93659h of the NVM Command Set
specification, reflected; PRESUMED, log 121). -/
def crc64 (bs : Bytes) : Nat := (bs.foldl (crcByte 0x9A6C9329AC4BC9B5) (2 ^ 64 - 1)) ^^^ (2 ^ 64 - 1)

/-- Multiplication by x in GF(2^8) with polynomial 0x11D. -/
def gfDouble (a : Nat) : Nat := if a ≥ 128 then (2 * a) ^^^ 0x11D else 2 * a

/-- Multiplication in GF(2^8) with polynomial 0x11D, over the low `n` bits of `b`. -/
def gfMulN : Nat → Nat → Nat → Nat
  | 0, _, _ => 0
  | n + 1, a, b => (if b % 2 = 1 then a else 0) ^^^ gfMulN n (gfDouble a) (b / 2)

/-- Multiplication in GF(2^8) with polynomial 0x11D. -/
def gfMul (a b : Nat) : Nat := gfMulN 8 a b

/-- The multiplicative inverse in GF(2^8): a^254. -/
def gfInv (a : Nat) : Nat :=
  let a2 := gfMul a a; let a4 := gfMul a2 a2; let a8 := gfMul a4 a4; let a16 := gfMul a8 a8
  let a32 := gfMul a16 a16; let a64 := gfMul a32 a32; let a128 := gfMul a64 a64
  gfMul a2 (gfMul a4 (gfMul a8 (gfMul a16 (gfMul a32 (gfMul a64 a128)))))

/-- The largest of a list of numbers, 0 for none. -/
def maxOf (l : List Nat) : Nat := l.foldl Nat.max 0

/-- The sum of a list of numbers. -/
def sumOf (l : List Nat) : Nat := l.foldl (· + ·) 0

/-- The number of elements that satisfy `p`. -/
def countOf {α : Type} (p : α → Bool) (l : List α) : Nat := (l.filter p).length

/-- `l` with `f` applied where `p` holds. -/
def mapIf {α : Type} (p : α → Bool) (f : α → α) (l : List α) : List α :=
  l.map fun a => if p a then f a else a

/-- `l` with the element of key `k` replaced by `a`, or `a` added at the end. -/
def putKey {α : Type} (key : α → Nat) (a : α) (l : List α) : List α :=
  if l.any (fun b => key b == key a) then l.map fun b => if key b == key a then a else b else l ++ [a]

/-- `l` without the elements of key `k`. -/
def dropKey {α : Type} (key : α → Nat) (k : Nat) (l : List α) : List α := l.filter fun b => key b != k

/-- The first element of key `k`. -/
def findKey {α : Type} (key : α → Nat) (k : Nat) (l : List α) : Option α := l.find? fun b => key b == k

/-- The integer square root, by `fuel` bits from the top. -/
def isqrtN : Nat → Nat → Nat → Nat
  | 0, _, r => r
  | n + 1, v, r => if (r + 2 ^ n) * (r + 2 ^ n) ≤ v then isqrtN n v (r + 2 ^ n) else isqrtN n v r

/-- The integer square root of a number below 2^128, rounded down. -/
def isqrt (v : Nat) : Nat := isqrtN 64 v 0

/-! ### Decoding of parity columns (10_media_units_pans.md R241) -/

/-- c(j, i) of R241. -/
def parityCoef (j i : Nat) : Nat := gfInv (j ^^^ (i + 3))

/-- The row of the generator matrix of logical column `x` with `d` data columns: a unit vector, or the coefficients of parity
column x - d. -/
def genRow (d x : Nat) : List Nat :=
  (List.range d).map fun i => if x < d then (if i = x then 1 else 0) else parityCoef (x - d) i

/-- a + k * b, element by element. -/
def gfAxpy (k : Nat) (a b : List Nat) : List Nat := List.zipWith (fun x y => x ^^^ gfMul k y) a b

/-- One step of Gauss-Jordan elimination at column `c` over the rows `m`. -/
def gfStep (m : List (List Nat)) (c : Nat) : List (List Nat) :=
  match (m.drop c).findIdx? fun r => r.getD c 0 != 0 with
  | none => m
  | some k =>
    let p := m.getD (c + k) []
    let m := (m.set (c + k) (m.getD c [])).set c p
    let inv := gfInv (p.getD c 0)
    let p := p.map (gfMul inv)
    let m := m.set c p
    (List.range m.length).map fun i =>
      let r := m.getD i []
      if i = c then r else gfAxpy (r.getD c 0) r p

/-- The coefficients with which the columns `xs` (as many as data columns) give column `t`: the solution of the transposed system. -/
def decodeCoefs (d : Nat) (xs : List Nat) (t : Nat) : List Nat :=
  let rows := xs.map (genRow d)
  let target := genRow d t
  let aug := (List.range d).map fun i => rows.map (fun r => r.getD i 0) ++ [target.getD i 0]
  let res := (List.range d).foldl gfStep aug
  res.map fun r => r.getD d 0

/-- Column `t` computed byte by byte from the columns `xs` with their bytes (R241). -/
def decodeColumn (d : Nat) (xs : List (Nat × Bytes)) (t : Nat) : Bytes :=
  let ks := decodeCoefs d (xs.map Prod.fst) t
  let n := maxOf (xs.map fun x => x.2.length)
  (List.range n).map fun i =>
    let v := (ks.zip xs).foldl (fun a p => a ^^^ gfMul p.1 ((p.2.2.getD i 0).toNat)) 0
    BitVec.ofNat 8 v

end Sys2Proof.Machine
end

