-- ==== Sys2Proof/Machine/Regs.lean ====
section
/-! DEFINITION. Every register and counter of the register tables, by the name the spec gives it: offset, width, reset
value and access masks. A register of BAR4 has its offset above 0x1_0000_0000. -/
namespace Sys2Proof.Machine

/-- A register: its offset, its width in bits, its reset value, the bits that a write sets (RW), and the bits that a
write of 1 clears (W1C), per R8. Every other bit is read only, write only or reserved. -/
structure Reg where
  addr : Nat
  width : Nat
  reset : DWord
  rw : DWord
  w1c : DWord
  deriving DecidableEq, Repr

/-- A register bank: one register, or an array of up to two dimensions. -/
structure RegBank where
  base : Nat
  width : Nat
  stride : Nat
  count : Nat
  stride2 : Nat
  count2 : Nat
  reset : DWord
  rw : DWord
  w1c : DWord
  deriving DecidableEq, Repr

/-- Element (i, j) of a bank. -/
def RegBank.at (b : RegBank) (i j : Nat) : Reg :=
  ⟨b.base + b.stride * i + b.stride2 * j, b.width, b.reset, b.rw, b.w1c⟩

/-- The element of a bank that holds offset `a` as its first byte, if any. -/
def RegBank.find (b : RegBank) (a : Nat) : Option Reg :=
  if a < b.base then none
  else
    let d := a - b.base
    let i := if b.stride = 0 then 0 else d / b.stride
    let r := d - b.stride * i
    let j := if b.stride2 = 0 then 0 else r / b.stride2
    if i < b.count ∧ j < b.count2 ∧ b.stride * i + b.stride2 * j = d then some (b.at i j) else none

namespace Bank

/-- TOP_DEVICE_ID (00_scope.md R2). -/
def TOP_DEVICE_ID : RegBank := ⟨0x0, 32, 0, 1, 0, 1, 0x88162001, 0x0, 0x0⟩
/-- TOP_HEAD_INFO (01_architecture.md R20). -/
def TOP_HEAD_INFO : RegBank := ⟨0x4, 32, 0, 1, 0, 1, 0x0, 0x0, 0x0⟩
/-- TIDE_TIME (02_fabric_time.md R42). -/
def TIDE_TIME : RegBank := ⟨0x400000, 64, 0, 1, 0, 1, 0x0, 0x0, 0x0⟩
/-- TIDE_CFG (02_fabric_time.md R42). -/
def TIDE_CFG : RegBank := ⟨0x400008, 32, 0, 1, 0, 1, 0x100000, 0xFFFFFF3F, 0x0⟩
/-- TIDE_STATUS (02_fabric_time.md R42). -/
def TIDE_STATUS : RegBank := ⟨0x40000C, 32, 0, 1, 0, 1, 0x0, 0x0, 0x0⟩
/-- TIDE_ERR_EST (02_fabric_time.md R42). -/
def TIDE_ERR_EST : RegBank := ⟨0x400010, 32, 0, 1, 0, 1, 0xFFFFFFFF, 0x0, 0x0⟩
/-- TIDE_HOLD_CFG (02_fabric_time.md R42). -/
def TIDE_HOLD_CFG : RegBank := ⟨0x400014, 32, 0, 1, 0, 1, 0xC807D0, 0xFFFFFFFF, 0x0⟩
/-- TIDE_DIE_SHARE (02_fabric_time.md R42). -/
def TIDE_DIE_SHARE : RegBank := ⟨0x400018, 32, 0, 1, 0, 1, 0x80, 0x1FF, 0x0⟩
/-- TIDE_SLOT_NOW (02_fabric_time.md R42). -/
def TIDE_SLOT_NOW : RegBank := ⟨0x40001C, 32, 0, 1, 0, 1, 0x0, 0x0, 0x0⟩
/-- TIDE_STEP_CNT (02_fabric_time.md R42). -/
def TIDE_STEP_CNT : RegBank := ⟨0x400020, 64, 0, 1, 0, 1, 0x0, 0x0, 0x0⟩
/-- TIDE_HOLDOVER_CNT (02_fabric_time.md R42). -/
def TIDE_HOLDOVER_CNT : RegBank := ⟨0x400028, 64, 0, 1, 0, 1, 0x0, 0x0, 0x0⟩
/-- SLU_ADMIT_CFG (03_sluice.md R70). -/
def SLU_ADMIT_CFG : RegBank := ⟨0x600000, 32, 0, 1, 0, 1, 0x108000, 0xFFFFFF01, 0x0⟩
/-- SLU_ICL_PROXY_RSV (03_sluice.md R70). -/
def SLU_ICL_PROXY_RSV : RegBank := ⟨0x600004, 32, 0, 1, 0, 1, 0xF618, 0x1FFFFF, 0x0⟩
/-- SLU_STATUS (03_sluice.md R70). -/
def SLU_STATUS : RegBank := ⟨0x600008, 32, 0, 1, 0, 1, 0x0, 0x0, 0x0⟩
/-- SLU_INFLIGHT (03_sluice.md R70). -/
def SLU_INFLIGHT : RegBank := ⟨0x60000C, 32, 0, 1, 0, 1, 0x0, 0x0, 0x0⟩
/-- HQ_CFG (04_host_queues.md R101). -/
def HQ_CFG : RegBank := ⟨0x800000, 32, 0, 1, 0, 1, 0x0, 0x3, 0x0⟩
/-- HQ_LOCK_CFG (04_host_queues.md R101). -/
def HQ_LOCK_CFG : RegBank := ⟨0x800004, 32, 0, 1, 0, 1, 0x2000, 0xFFFF, 0x0⟩
/-- HQ_LOCK_STATUS (04_host_queues.md R101). -/
def HQ_LOCK_STATUS : RegBank := ⟨0x800008, 32, 0, 1, 0, 1, 0x0, 0x0, 0x0⟩
/-- HQ_QCTX_STATUS (04_host_queues.md R101). -/
def HQ_QCTX_STATUS : RegBank := ⟨0x80000C, 32, 0, 1, 0, 1, 0x0, 0x0, 0x0⟩
/-- XPT_CFG (05_rdma_transport.md R127). -/
def XPT_CFG : RegBank := ⟨0xA00000, 32, 0, 1, 0, 1, 0x79AC2C00, 0xFFFFFC00, 0x0⟩
/-- XPT_RC_CFG (05_rdma_transport.md R127). -/
def XPT_RC_CFG : RegBank := ⟨0xA00004, 32, 0, 1, 0, 1, 0x10604000, 0xFFFFC000, 0x0⟩
/-- XPT_PRIV_CFG (05_rdma_transport.md R127). -/
def XPT_PRIV_CFG : RegBank := ⟨0xA00008, 32, 0, 1, 0, 1, 0xFA80A0, 0xFFFFFFF0, 0x0⟩
/-- XPT_CC_CFG0 (05_rdma_transport.md R127). -/
def XPT_CC_CFG0 : RegBank := ⟨0xA0000C, 32, 0, 1, 0, 1, 0x8037012C, 0xFFFFFFFF, 0x0⟩
/-- XPT_CC_CFG1 (05_rdma_transport.md R127). -/
def XPT_CC_CFG1 : RegBank := ⟨0xA00010, 32, 0, 1, 0, 1, 0x280190, 0xFFFFFFFF, 0x0⟩
/-- XPT_CC_CFG2 (05_rdma_transport.md R127). -/
def XPT_CC_CFG2 : RegBank := ⟨0xA00014, 32, 0, 1, 0, 1, 0x40506432, 0xFFFFFFFF, 0x0⟩
/-- XPT_PFC_CFG (05_rdma_transport.md R127). -/
def XPT_PFC_CFG : RegBank := ⟨0xA00018, 32, 0, 1, 0, 1, 0x640000, 0xFFFF0000, 0x0⟩
/-- XPT_CTX_STATUS (05_rdma_transport.md R127). -/
def XPT_CTX_STATUS : RegBank := ⟨0xA0001C, 32, 0, 1, 0, 1, 0x0, 0x0, 0x0⟩
/-- XPT_MKEY_STATUS (05_rdma_transport.md R127). -/
def XPT_MKEY_STATUS : RegBank := ⟨0xA00020, 32, 0, 1, 0, 1, 0x0, 0x0, 0x0⟩
/-- XPT_MKEY_REVOKING (05_rdma_transport.md R127). -/
def XPT_MKEY_REVOKING : RegBank := ⟨0xA00024, 32, 0, 1, 0, 1, 0x0, 0x0, 0x0⟩
/-- BRN_CFG (06_brine_write_path.md R156). -/
def BRN_CFG : RegBank := ⟨0xC00000, 32, 0, 1, 0, 1, 0xC0000000, 0xFF000001, 0x0⟩
/-- BRN_LIMIT (06_brine_write_path.md R156). -/
def BRN_LIMIT : RegBank := ⟨0xC00004, 32, 0, 1, 0, 1, 0x400000, 0x7FFFFF, 0x0⟩
/-- BRN_DL_RSV (06_brine_write_path.md R156). -/
def BRN_DL_RSV : RegBank := ⟨0xC00008, 32, 0, 1, 0, 1, 0x40000, 0x7FFFFF, 0x0⟩
/-- BRN_MIRROR_BACKLOG (06_brine_write_path.md R156). -/
def BRN_MIRROR_BACKLOG : RegBank := ⟨0xC0000C, 32, 0, 1, 0, 1, 0x100, 0xFFFF, 0x0⟩
/-- BRN_STATUS (06_brine_write_path.md R156). -/
def BRN_STATUS : RegBank := ⟨0xC00010, 32, 0, 1, 0, 1, 0x0, 0x0, 0x0⟩
/-- BRN_FREE (06_brine_write_path.md R156). -/
def BRN_FREE : RegBank := ⟨0xC00014, 32, 0, 1, 0, 1, 0x400000, 0x0, 0x0⟩
/-- BRN_DUMP_EST (06_brine_write_path.md R156). -/
def BRN_DUMP_EST : RegBank := ⟨0xC00018, 32, 0, 1, 0, 1, 0x0, 0x0, 0x0⟩
/-- BRN_JSEQ (06_brine_write_path.md R156). -/
def BRN_JSEQ : RegBank := ⟨0xC00020, 64, 0, 1, 0, 1, 0x0, 0x0, 0x0⟩
/-- BRN_DURABLE (06_brine_write_path.md R156). -/
def BRN_DURABLE : RegBank := ⟨0xC00028, 64, 0, 1, 0, 1, 0x0, 0x0, 0x0⟩
/-- BRN_LOST_FROM (06_brine_write_path.md R156). -/
def BRN_LOST_FROM : RegBank := ⟨0xC00030, 64, 0, 1, 0, 1, 0x0, 0x0, 0x0⟩
/-- RED_CFG (07_data_reduction.md R186). -/
def RED_CFG : RegBank := ⟨0xE00000, 32, 0, 1, 0, 1, 0x1, 0x1, 0x0⟩
/-- RED_STATUS (07_data_reduction.md R186). -/
def RED_STATUS : RegBank := ⟨0xE00004, 32, 0, 1, 0, 1, 0x0, 0x0, 0x0⟩
/-- RED_INDEX_USED (07_data_reduction.md R186). -/
def RED_INDEX_USED : RegBank := ⟨0xE00008, 64, 0, 1, 0, 1, 0x0, 0x0, 0x0⟩
/-- CMP_CFG (08_compression.md R206). -/
def CMP_CFG : RegBank := ⟨0x1000000, 32, 0, 1, 0, 1, 0x4000, 0xFF01, 0x0⟩
/-- CMP_GEN (08_compression.md R206). -/
def CMP_GEN : RegBank := ⟨0x1000004, 32, 0, 1, 0, 1, 0x20300, 0x0, 0x0⟩
/-- CMP_STATUS (08_compression.md R206). -/
def CMP_STATUS : RegBank := ⟨0x1000008, 32, 0, 1, 0, 1, 0x0, 0x0, 0x0⟩
/-- CIP_KP_CFG (09_cipher_digest.md R212). -/
def CIP_KP_CFG : RegBank := ⟨0x2000000, 32, 4096, 4096, 0, 1, 0x0, 0xCF, 0x0⟩
/-- CIP_KP_CMD (09_cipher_digest.md R212). -/
def CIP_KP_CMD : RegBank := ⟨0x2000004, 32, 4096, 4096, 0, 1, 0x0, 0x0, 0x0⟩
/-- CIP_KP_STATUS (09_cipher_digest.md R212). -/
def CIP_KP_STATUS : RegBank := ⟨0x2000008, 32, 4096, 4096, 0, 1, 0x0, 0x0, 0x0⟩
/-- CIP_KP_SALT (09_cipher_digest.md R212). -/
def CIP_KP_SALT : RegBank := ⟨0x200000C, 32, 4096, 4096, 0, 1, 0x0, 0x0, 0x0⟩
/-- CIP_KP_INVOC (09_cipher_digest.md R212). -/
def CIP_KP_INVOC : RegBank := ⟨0x2000010, 64, 4096, 4096, 0, 1, 0x0, 0x0, 0x0⟩
/-- CIP_KP_KEY (09_cipher_digest.md R212). -/
def CIP_KP_KEY : RegBank := ⟨0x2000100, 32, 4096, 4096, 4, 16, 0x0, 0x0, 0x0⟩
/-- DIG_KS_CFG (09_cipher_digest.md R218). -/
def DIG_KS_CFG : RegBank := ⟨0x1410000, 32, 256, 256, 0, 1, 0x1, 0xC3, 0x0⟩
/-- DIG_KS_KEYLEN (09_cipher_digest.md R218). -/
def DIG_KS_KEYLEN : RegBank := ⟨0x141000C, 32, 256, 256, 0, 1, 0x20, 0xFF, 0x0⟩
/-- DIG_KS_KEY (09_cipher_digest.md R218). -/
def DIG_KS_KEY : RegBank := ⟨0x1410040, 32, 256, 256, 4, 32, 0x0, 0x0, 0x0⟩
/-- CIP_CFG (09_cipher_digest.md R235). -/
def CIP_CFG : RegBank := ⟨0x2000C00, 32, 0, 1, 0, 1, 0x4000, 0xFF01, 0x0⟩
/-- CIP_STATUS (09_cipher_digest.md R235). -/
def CIP_STATUS : RegBank := ⟨0x2000C04, 32, 0, 1, 0, 1, 0x0, 0x0, 0x0⟩
/-- CIP_ALARM (09_cipher_digest.md R235). -/
def CIP_ALARM : RegBank := ⟨0x2000C08, 32, 0, 1, 0, 1, 0x0, 0x0, 0x1F⟩
/-- CIP_ALARM_CTL (09_cipher_digest.md R235). -/
def CIP_ALARM_CTL : RegBank := ⟨0x2000C0C, 32, 0, 1, 0, 1, 0x0, 0x0, 0x0⟩
/-- DIG_STATUS (09_cipher_digest.md R235). -/
def DIG_STATUS : RegBank := ⟨0x1400004, 32, 0, 1, 0, 1, 0x0, 0x0, 0x0⟩
/-- MED_CFG (10_media_units_pans.md R265). -/
def MED_CFG : RegBank := ⟨0x1600000, 32, 0, 1, 0, 1, 0x10C001, 0xFFFF01, 0x0⟩
/-- MED_FAULT_CFG (10_media_units_pans.md R265). -/
def MED_FAULT_CFG : RegBank := ⟨0x1600004, 32, 0, 1, 0, 1, 0x141000, 0xFFFFFF00, 0x0⟩
/-- MED_STATUS (10_media_units_pans.md R265). -/
def MED_STATUS : RegBank := ⟨0x1600008, 32, 0, 1, 0, 1, 0x0, 0x0, 0x0⟩
/-- MED_PAN_STATUS (10_media_units_pans.md R265). -/
def MED_PAN_STATUS : RegBank := ⟨0x160000C, 32, 0, 1, 0, 1, 0x0, 0x0, 0x0⟩
/-- MED_PROXY (10_media_units_pans.md R265). -/
def MED_PROXY : RegBank := ⟨0x1600010, 32, 0, 1, 0, 1, 0x0, 0x0, 0x0⟩
/-- MED_UDT_STATUS (10_media_units_pans.md R265). -/
def MED_UDT_STATUS : RegBank := ⟨0x1600014, 32, 0, 1, 0, 1, 0x0, 0x0, 0x0⟩
/-- FTL_STREAM_CFG (11_flash_translation.md R289). -/
def FTL_STREAM_CFG : RegBank := ⟨0x1800000, 32, 0, 1, 0, 1, 0x4, 0xFFFF, 0x0⟩
/-- FTL_SLC_CFG (11_flash_translation.md R289). -/
def FTL_SLC_CFG : RegBank := ⟨0x1800004, 32, 0, 1, 0, 1, 0xD1A, 0xFFFF, 0x0⟩
/-- FTL_CKPT_CFG (11_flash_translation.md R289). -/
def FTL_CKPT_CFG : RegBank := ⟨0x1800008, 32, 0, 1, 0, 1, 0x18, 0x3F, 0x0⟩
/-- FTL_RETRY_CFG (11_flash_translation.md R289). -/
def FTL_RETRY_CFG : RegBank := ⟨0x180000C, 32, 0, 1, 0, 1, 0x17, 0x1F, 0x0⟩
/-- FTL_STATUS (11_flash_translation.md R289). -/
def FTL_STATUS : RegBank := ⟨0x1800010, 32, 0, 1, 0, 1, 0x0, 0x0, 0x0⟩
/-- FTL_SLC_TARGET (11_flash_translation.md R289). -/
def FTL_SLC_TARGET : RegBank := ⟨0x1800014, 32, 0, 1, 0, 1, 0x0, 0x0, 0x0⟩
/-- FTL_SLC_USED (11_flash_translation.md R289). -/
def FTL_SLC_USED : RegBank := ⟨0x1800018, 32, 0, 1, 0, 1, 0x0, 0x0, 0x0⟩
/-- FTL_CKPT_S0 (11_flash_translation.md R289). -/
def FTL_CKPT_S0 : RegBank := ⟨0x1800020, 64, 0, 1, 0, 1, 0x0, 0x0, 0x0⟩
/-- FTL_HARV_H (12_harvest_health.md R312). -/
def FTL_HARV_H : RegBank := ⟨0x1800400, 32, 0, 1, 0, 1, 0x3E801F4, 0x0, 0x0⟩
/-- FTL_HARV_NOW (12_harvest_health.md R312). -/
def FTL_HARV_NOW : RegBank := ⟨0x1800404, 32, 0, 1, 0, 1, 0x1F4, 0x0, 0x0⟩
/-- FTL_FREE_CFG (12_harvest_health.md R312). -/
def FTL_FREE_CFG : RegBank := ⟨0x1800408, 32, 0, 1, 0, 1, 0x201004, 0xFFFFFF, 0x0⟩
/-- FTL_HLTH_CFG (12_harvest_health.md R312). -/
def FTL_HLTH_CFG : RegBank := ⟨0x180040C, 32, 0, 1, 0, 1, 0x50C, 0xFFF, 0x0⟩
/-- FTL_HARV_STATUS (12_harvest_health.md R312). -/
def FTL_HARV_STATUS : RegBank := ⟨0x1800410, 32, 0, 1, 0, 1, 0x0, 0x0, 0x0⟩
/-- FTL_FREE_BLOCKS (12_harvest_health.md R312). -/
def FTL_FREE_BLOCKS : RegBank := ⟨0x1800414, 32, 0, 1, 0, 1, 0x0, 0x0, 0x0⟩
/-- FTL_SCRUB_PENDING (12_harvest_health.md R312). -/
def FTL_SCRUB_PENDING : RegBank := ⟨0x1800418, 32, 0, 1, 0, 1, 0x0, 0x0, 0x0⟩
/-- FTL_RO_PANS (12_harvest_health.md R312). -/
def FTL_RO_PANS : RegBank := ⟨0x180041C, 32, 0, 1, 0, 1, 0x0, 0x0, 0x0⟩
/-- LNK_CFG (13_media_link.md R336). -/
def LNK_CFG : RegBank := ⟨0x1A00000, 32, 0, 1, 0, 1, 0x6401, 0xFF01, 0x0⟩
/-- LNK_UP (13_media_link.md R336). -/
def LNK_UP : RegBank := ⟨0x1A00004, 32, 0, 1, 0, 1, 0x0, 0x0, 0x0⟩
/-- LNK_HELD (13_media_link.md R336). -/
def LNK_HELD : RegBank := ⟨0x1A00008, 32, 0, 1, 0, 1, 0x0, 0x0, 0x0⟩
/-- LNK_PORT_STATUS (13_media_link.md R336). -/
def LNK_PORT_STATUS : RegBank := ⟨0x1A00100, 32, 4, 32, 0, 1, 0x0, 0x0, 0x0⟩
/-- LNK_MOD_PWR (13_media_link.md R336). -/
def LNK_MOD_PWR : RegBank := ⟨0x1A00180, 32, 4, 32, 0, 1, 0x0, 0x0, 0x0⟩
/-- SNAP_STATUS (14_snapshots_replication.md R357). -/
def SNAP_STATUS : RegBank := ⟨0x1800600, 32, 0, 1, 0, 1, 0x0, 0x0, 0x0⟩
/-- PAIR_CFG (15_pair_operation.md R387). -/
def PAIR_CFG : RegBank := ⟨0x1C00000, 32, 0, 1, 0, 1, 0x3C0000, 0xFFFF0001, 0x0⟩
/-- PAIR_STATUS (15_pair_operation.md R387). -/
def PAIR_STATUS : RegBank := ⟨0x1C00004, 32, 0, 1, 0, 1, 0x0, 0x0, 0x0⟩
/-- PAIR_SHADOW_TIP (15_pair_operation.md R387). -/
def PAIR_SHADOW_TIP : RegBank := ⟨0x1C00008, 64, 0, 1, 0, 1, 0x0, 0x0, 0x0⟩
/-- PAIR_PEER_FW (15_pair_operation.md R387). -/
def PAIR_PEER_FW : RegBank := ⟨0x1C00010, 32, 0, 1, 0, 1, 0x0, 0x0, 0x0⟩
/-- MEM_HBM_SPLIT (16_memory_cache.md R405). -/
def MEM_HBM_SPLIT : RegBank := ⟨0x1E00000, 32, 0, 1, 0, 1, 0x1802, 0xFFFF, 0x0⟩
/-- MEM_DDR_SPLIT (16_memory_cache.md R405). -/
def MEM_DDR_SPLIT : RegBank := ⟨0x1E00004, 32, 0, 1, 0, 1, 0x402004, 0xFFFFFF, 0x0⟩
/-- MEM_BW_CFG (16_memory_cache.md R405). -/
def MEM_BW_CFG : RegBank := ⟨0x1E00008, 32, 0, 1, 0, 1, 0x60, 0xFF, 0x0⟩
/-- MEM_STATUS (16_memory_cache.md R405). -/
def MEM_STATUS : RegBank := ⟨0x1E0000C, 32, 0, 1, 0, 1, 0x0, 0x0, 0x0⟩
/-- LLC_STATUS (16_memory_cache.md R405). -/
def LLC_STATUS : RegBank := ⟨0x1E80000, 32, 0, 1, 0, 1, 0xFFF, 0x0, 0x0⟩
/-- LLC_WAY_OFF (16_memory_cache.md R405). -/
def LLC_WAY_OFF : RegBank := ⟨0x1E80100, 32, 4, 48, 0, 1, 0x0, 0xF, 0x0⟩
/-- DMA_CH_SHADOW_SRC (17_dma.md R419). -/
def DMA_CH_SHADOW_SRC : RegBank := ⟨0x1F10020, 64, 256, 64, 0, 1, 0x0, 0xFFFFFFFFFFFFFFFF, 0x0⟩
/-- DMA_CH_SHADOW_DST (17_dma.md R419). -/
def DMA_CH_SHADOW_DST : RegBank := ⟨0x1F10028, 64, 256, 64, 0, 1, 0x0, 0xFFFFFFFFFFFFFFFF, 0x0⟩
/-- DMA_CH_SHADOW_LEN (17_dma.md R419). -/
def DMA_CH_SHADOW_LEN : RegBank := ⟨0x1F10030, 32, 256, 64, 0, 1, 0x0, 0xFFFFFFFF, 0x0⟩
/-- DMA_CH_SHADOW_MODE (17_dma.md R419). -/
def DMA_CH_SHADOW_MODE : RegBank := ⟨0x1F10034, 32, 256, 64, 0, 1, 0x0, 0x7FF07EF, 0x0⟩
/-- DMA_CH_DONE (17_dma.md R419). -/
def DMA_CH_DONE : RegBank := ⟨0x1F10018, 32, 256, 64, 0, 1, 0x0, 0x0, 0x0⟩
/-- DMA_CH_CTL (17_dma.md R419). -/
def DMA_CH_CTL : RegBank := ⟨0x1F10038, 32, 256, 64, 0, 1, 0x0, 0x0, 0x0⟩
/-- DMA_CH_STATUS (17_dma.md R419). -/
def DMA_CH_STATUS : RegBank := ⟨0x1F1003C, 32, 256, 64, 0, 1, 0x0, 0x0, 0x1F⟩
/-- DMA_WIN_CFG (17_dma.md R419). -/
def DMA_WIN_CFG : RegBank := ⟨0x1F00100, 32, 16, 16, 0, 1, 0x0, 0xC00FFFFF, 0x0⟩
/-- SFL_STATUS (18_system_flash.md R434). -/
def SFL_STATUS : RegBank := ⟨0x3000000, 32, 0, 1, 0, 1, 0x0, 0x0, 0x700⟩
/-- SFL_WIN_BASE (18_system_flash.md R434). -/
def SFL_WIN_BASE : RegBank := ⟨0x3000004, 32, 0, 1, 0, 1, 0x0, 0xFFF00000, 0x0⟩
/-- SFL_B_ADDR (18_system_flash.md R434). -/
def SFL_B_ADDR : RegBank := ⟨0x3000100, 32, 16, 8, 0, 1, 0x0, 0xFFFFF000, 0x0⟩
/-- SFL_B_CMD (18_system_flash.md R434). -/
def SFL_B_CMD : RegBank := ⟨0x3000104, 32, 16, 8, 0, 1, 0x0, 0x0, 0x0⟩
/-- SFL_B_STATUS (18_system_flash.md R434). -/
def SFL_B_STATUS : RegBank := ⟨0x3000108, 32, 16, 8, 0, 1, 0x0, 0x0, 0x2⟩
/-- SFL_LAST_HELD (18_system_flash.md R434). -/
def SFL_LAST_HELD : RegBank := ⟨0x300010C, 32, 16, 8, 0, 1, 0x0, 0x0, 0x80000000⟩
/-- EVR_CFG (19_event_recorder.md R455). -/
def EVR_CFG : RegBank := ⟨0x3200000, 32, 0, 1, 0, 1, 0x34640114, 0xFFFFFFFF, 0x0⟩
/-- EVR_STATUS (19_event_recorder.md R455). -/
def EVR_STATUS : RegBank := ⟨0x3200004, 32, 0, 1, 0, 1, 0x0, 0x0, 0x0⟩
/-- EVR_SEQ (19_event_recorder.md R455). -/
def EVR_SEQ : RegBank := ⟨0x3200008, 32, 0, 1, 0, 1, 0x0, 0x0, 0x0⟩
/-- EVR_OLDEST (19_event_recorder.md R455). -/
def EVR_OLDEST : RegBank := ⟨0x320000C, 32, 0, 1, 0, 1, 0x0, 0x0, 0x0⟩
/-- EVR_EPOCH (19_event_recorder.md R455). -/
def EVR_EPOCH : RegBank := ⟨0x3200010, 32, 0, 1, 0, 1, 0x0, 0x0, 0x0⟩
/-- EVR_UNFLUSHED (19_event_recorder.md R455). -/
def EVR_UNFLUSHED : RegBank := ⟨0x3200014, 32, 0, 1, 0, 1, 0x0, 0x0, 0x0⟩
/-- EVR_ALARM (19_event_recorder.md R455). -/
def EVR_ALARM : RegBank := ⟨0x3200020, 32, 0, 1, 0, 1, 0x0, 0x0, 0x7FF⟩
/-- EVR_ALARM_MASK (19_event_recorder.md R455). -/
def EVR_ALARM_MASK : RegBank := ⟨0x3200024, 32, 0, 1, 0, 1, 0x0, 0x7FF, 0x0⟩
/-- EVR_RATE (19_event_recorder.md R455). -/
def EVR_RATE : RegBank := ⟨0x3200100, 32, 4, 21, 0, 1, 0x7D000C8, 0xFFFFFFFF, 0x0⟩
/-- CTL_RING_CMD_BASE (20_control_packets.md R481). -/
def CTL_RING_CMD_BASE : RegBank := ⟨0x100000000, 64, 16384, 4, 0, 1, 0x0, 0xFFFFFFFFFFFFFFFF, 0x0⟩
/-- CTL_RING_RPL_BASE (20_control_packets.md R481). -/
def CTL_RING_RPL_BASE : RegBank := ⟨0x100000008, 64, 16384, 4, 0, 1, 0x0, 0xFFFFFFFFFFFFFFFF, 0x0⟩
/-- CTL_RING_DATA_BASE (20_control_packets.md R481). -/
def CTL_RING_DATA_BASE : RegBank := ⟨0x100000010, 64, 16384, 4, 0, 1, 0x0, 0xFFFFFFFFFFFFFFFF, 0x0⟩
/-- CTL_RING_TAIL_ADDR (20_control_packets.md R481). -/
def CTL_RING_TAIL_ADDR : RegBank := ⟨0x100000018, 64, 16384, 4, 0, 1, 0x0, 0xFFFFFFFFFFFFFFFF, 0x0⟩
/-- CTL_RING_CFG (20_control_packets.md R481). -/
def CTL_RING_CFG : RegBank := ⟨0x100000020, 32, 16384, 4, 0, 1, 0x0, 0xC00007FF, 0x0⟩
/-- CTL_RING_STATUS (20_control_packets.md R481). -/
def CTL_RING_STATUS : RegBank := ⟨0x100000024, 32, 16384, 4, 0, 1, 0x0, 0x0, 0x0⟩
/-- CTL_RING_DB (20_control_packets.md R481). -/
def CTL_RING_DB : RegBank := ⟨0x100000028, 32, 16384, 4, 0, 1, 0x0, 0x0, 0x0⟩
/-- CTL_RING_RPL_HEAD (20_control_packets.md R481). -/
def CTL_RING_RPL_HEAD : RegBank := ⟨0x10000002C, 32, 16384, 4, 0, 1, 0x0, 0xFF, 0x0⟩
/-- CTL_STATUS (20_control_packets.md R482). -/
def CTL_STATUS : RegBank := ⟨0x3400000, 32, 0, 1, 0, 1, 0x0, 0x0, 0x0⟩
/-- CTL_FW_BEAT (20_control_packets.md R482). -/
def CTL_FW_BEAT : RegBank := ⟨0x3400008, 64, 0, 1, 0, 1, 0x0, 0x0, 0x0⟩
/-- BOOT_STATUS (21_startup_security.md R503). -/
def BOOT_STATUS : RegBank := ⟨0x100000, 32, 0, 1, 0, 1, 0x0, 0x0, 0x0⟩
/-- BOOT_RESET_CAUSE (21_startup_security.md R503). -/
def BOOT_RESET_CAUSE : RegBank := ⟨0x100004, 32, 0, 1, 0, 1, 0x0, 0x0, 0x0⟩
/-- BOOT_FW_VER (21_startup_security.md R503). -/
def BOOT_FW_VER : RegBank := ⟨0x100008, 32, 0, 1, 0, 1, 0x0, 0x0, 0x0⟩
/-- BOOT_WDT_CFG (21_startup_security.md R503). -/
def BOOT_WDT_CFG : RegBank := ⟨0x10000C, 32, 0, 1, 0, 1, 0xA, 0xFF, 0x0⟩
/-- BOOT_FIELD_STATUS (21_startup_security.md R503). -/
def BOOT_FIELD_STATUS : RegBank := ⟨0x100010, 32, 0, 1, 0, 1, 0x0, 0x0, 0x0⟩
/-- BOOT_FIELD_CFG (21_startup_security.md R503). -/
def BOOT_FIELD_CFG : RegBank := ⟨0x100014, 32, 0, 1, 0, 1, 0x3C, 0xFFFF, 0x0⟩
/-- BOOT_UID (21_startup_security.md R503). -/
def BOOT_UID : RegBank := ⟨0x100020, 32, 4, 4, 0, 1, 0x0, 0x0, 0x0⟩
/-- BOOT_RCV_ADDR (21_startup_security.md R503). -/
def BOOT_RCV_ADDR : RegBank := ⟨0x100040, 64, 0, 1, 0, 1, 0x0, 0xFFFFFFFFFFFFFFFF, 0x0⟩
/-- BOOT_RCV_LEN (21_startup_security.md R503). -/
def BOOT_RCV_LEN : RegBank := ⟨0x100048, 32, 0, 1, 0, 1, 0x0, 0xFFFFFFFF, 0x0⟩
/-- BOOT_RCV_CTL (21_startup_security.md R503). -/
def BOOT_RCV_CTL : RegBank := ⟨0x10004C, 32, 0, 1, 0, 1, 0x0, 0x0, 0x0⟩
/-- PWR_DOM_ON (22_power_electrical.md R522). -/
def PWR_DOM_ON : RegBank := ⟨0x200000, 32, 4, 3, 0, 1, 0xFFFFFFFF, 0x0, 0x0⟩
/-- PWR_DOM_READY (22_power_electrical.md R522). -/
def PWR_DOM_READY : RegBank := ⟨0x200010, 32, 4, 3, 0, 1, 0xFFFFFFFF, 0x0, 0x0⟩
/-- PWR_STATUS (22_power_electrical.md R522). -/
def PWR_STATUS : RegBank := ⟨0x200020, 32, 0, 1, 0, 1, 0x0, 0x0, 0x0⟩
/-- PWR_RAIL (22_power_electrical.md R522). -/
def PWR_RAIL : RegBank := ⟨0x200100, 32, 4, 9, 0, 1, 0x0, 0x0, 0x0⟩
/-- PWR_TEMP (22_power_electrical.md R522). -/
def PWR_TEMP : RegBank := ⟨0x200200, 32, 4, 64, 0, 1, 0x0, 0x0, 0x0⟩
/-- PWR_TOTAL (22_power_electrical.md R522). -/
def PWR_TOTAL : RegBank := ⟨0x200024, 32, 0, 1, 0, 1, 0x0, 0x0, 0x0⟩
/-- PWR_CABLE_CFG (22_power_electrical.md R522). -/
def PWR_CABLE_CFG : RegBank := ⟨0x200028, 32, 0, 1, 0, 1, 0xB3AE0004, 0xFFFF00FF, 0x0⟩
/-- PWR_CABLE (22_power_electrical.md R522). -/
def PWR_CABLE : RegBank := ⟨0x200300, 32, 4, 17, 0, 1, 0x0, 0x0, 0x0⟩
/-- DIG_CFG (09_cipher_digest.md R235). -/
def DIG_CFG : RegBank := ⟨0x1400000, 32, 0, 1, 0, 1, 0x4000, 0xFF01, 0x0⟩
/-- DIG_KS_CMD (09_cipher_digest.md R218). -/
def DIG_KS_CMD : RegBank := ⟨0x1410004, 32, 256, 256, 0, 1, 0x0, 0x0, 0x0⟩
/-- DIG_KS_STATUS (09_cipher_digest.md R218). -/
def DIG_KS_STATUS : RegBank := ⟨0x1410008, 32, 256, 256, 0, 1, 0x0, 0x0, 0x0⟩
/-- DMA_WIN_BASE (17_dma.md R419). -/
def DMA_WIN_BASE : RegBank := ⟨0x1F00108, 64, 16, 16, 0, 1, 0x0, 0xFFFFFFFFFFFFFFFF, 0x0⟩
/-- DMA_CH_ACTIVE_SRC (17_dma.md R419). -/
def DMA_CH_ACTIVE_SRC : RegBank := ⟨0x1F10000, 64, 256, 64, 0, 1, 0x0, 0x0, 0x0⟩
/-- DMA_CH_ACTIVE_DST (17_dma.md R419). -/
def DMA_CH_ACTIVE_DST : RegBank := ⟨0x1F10008, 64, 256, 64, 0, 1, 0x0, 0x0, 0x0⟩
/-- DMA_CH_ACTIVE_LEN (17_dma.md R419). -/
def DMA_CH_ACTIVE_LEN : RegBank := ⟨0x1F10010, 32, 256, 64, 0, 1, 0x0, 0x0, 0x0⟩
/-- DMA_CH_ACTIVE_MODE (17_dma.md R419). -/
def DMA_CH_ACTIVE_MODE : RegBank := ⟨0x1F10014, 32, 256, 64, 0, 1, 0x0, 0x0, 0x0⟩
/-- SLU_ADMIT_CNT: counts commands admitted (03_sluice.md R70). -/
def SLU_ADMIT_CNT : RegBank := ⟨0x600010, 64, 0, 1, 0, 1, 0x0, 0x0, 0x0⟩
/-- SLU_REJECT_CNT: counts commands rejected with 0xC0 (03_sluice.md R70). -/
def SLU_REJECT_CNT : RegBank := ⟨0x600018, 64, 0, 1, 0, 1, 0x0, 0x0, 0x0⟩
/-- SLU_MISS_CNT: counts commands completed with 0xC1 (03_sluice.md R70). -/
def SLU_MISS_CNT : RegBank := ⟨0x600020, 64, 0, 1, 0, 1, 0x0, 0x0, 0x0⟩
/-- SLU_TIME_REJ_CNT: counts commands completed with 0xC4 (03_sluice.md R70). -/
def SLU_TIME_REJ_CNT : RegBank := ⟨0x600028, 64, 0, 1, 0, 1, 0x0, 0x0, 0x0⟩
/-- SLU_BE_CNT: counts best-effort commands passed (03_sluice.md R70). -/
def SLU_BE_CNT : RegBank := ⟨0x600030, 64, 0, 1, 0, 1, 0x0, 0x0, 0x0⟩
/-- HQ_CMD_CNT: counts I/O commands decoded (04_host_queues.md R101). -/
def HQ_CMD_CNT : RegBank := ⟨0x800010, 64, 0, 1, 0, 1, 0x0, 0x0, 0x0⟩
/-- HQ_LEN_ERR_CNT: counts completions with Data SGL Length Invalid (04_host_queues.md R101). -/
def HQ_LEN_ERR_CNT : RegBank := ⟨0x800018, 64, 0, 1, 0, 1, 0x0, 0x0, 0x0⟩
/-- HQ_LOCK_STALL_CNT: counts commands stalled under R82 (04_host_queues.md R101). -/
def HQ_LOCK_STALL_CNT : RegBank := ⟨0x800020, 64, 0, 1, 0, 1, 0x0, 0x0, 0x0⟩
/-- HQ_ORD_WAIT_CNT: counts commands held under R80 (04_host_queues.md R101). -/
def HQ_ORD_WAIT_CNT : RegBank := ⟨0x800028, 64, 0, 1, 0, 1, 0x0, 0x0, 0x0⟩
/-- HQ_DB_DROP_CNT: counts doorbell writes dropped under R18 (04_host_queues.md R101). -/
def HQ_DB_DROP_CNT : RegBank := ⟨0x800030, 64, 0, 1, 0, 1, 0x0, 0x0, 0x0⟩
/-- HQ_DB_INVALID_CNT: counts doorbell values dropped under R76 (04_host_queues.md R101). -/
def HQ_DB_INVALID_CNT : RegBank := ⟨0x800038, 64, 0, 1, 0, 1, 0x0, 0x0, 0x0⟩
/-- XPT_RX_PKT_CNT: RoCEv2 packets received (05_rdma_transport.md R128). -/
def XPT_RX_PKT_CNT : RegBank := ⟨0xA00100, 64, 0, 1, 0, 1, 0x0, 0x0, 0x0⟩
/-- XPT_TX_PKT_CNT: RoCEv2 packets sent (05_rdma_transport.md R128). -/
def XPT_TX_PKT_CNT : RegBank := ⟨0xA00108, 64, 0, 1, 0, 1, 0x0, 0x0, 0x0⟩
/-- XPT_CTX_MISS_CNT: Context fetches, per R107 (05_rdma_transport.md R128). -/
def XPT_CTX_MISS_CNT : RegBank := ⟨0xA00110, 64, 0, 1, 0, 1, 0x0, 0x0, 0x0⟩
/-- XPT_CTX_EVICT_CNT: Context write-backs, per R108 (05_rdma_transport.md R128). -/
def XPT_CTX_EVICT_CNT : RegBank := ⟨0xA00118, 64, 0, 1, 0, 1, 0x0, 0x0, 0x0⟩
/-- XPT_DUP_PKT_CNT: Duplicates discarded, per R111 (05_rdma_transport.md R128). -/
def XPT_DUP_PKT_CNT : RegBank := ⟨0xA00120, 64, 0, 1, 0, 1, 0x0, 0x0, 0x0⟩
/-- XPT_PSN_AMBIG_CNT: Ambiguous PSNs dropped, per R110 (05_rdma_transport.md R128). -/
def XPT_PSN_AMBIG_CNT : RegBank := ⟨0xA00128, 64, 0, 1, 0, 1, 0x0, 0x0, 0x0⟩
/-- XPT_SEQ_NAK_TX_CNT: NAK sequence errors sent (05_rdma_transport.md R128). -/
def XPT_SEQ_NAK_TX_CNT : RegBank := ⟨0xA00130, 64, 0, 1, 0, 1, 0x0, 0x0, 0x0⟩
/-- XPT_SEQ_NAK_RX_CNT: NAK sequence errors received (05_rdma_transport.md R128). -/
def XPT_SEQ_NAK_RX_CNT : RegBank := ⟨0xA00138, 64, 0, 1, 0, 1, 0x0, 0x0, 0x0⟩
/-- XPT_RETX_CNT: Retransmissions started (05_rdma_transport.md R128). -/
def XPT_RETX_CNT : RegBank := ⟨0xA00140, 64, 0, 1, 0, 1, 0x0, 0x0, 0x0⟩
/-- XPT_TIMEOUT_CNT: ACK timeouts (05_rdma_transport.md R128). -/
def XPT_TIMEOUT_CNT : RegBank := ⟨0xA00148, 64, 0, 1, 0, 1, 0x0, 0x0, 0x0⟩
/-- XPT_RNR_NAK_TX_CNT: RNR NAKs sent (05_rdma_transport.md R128). -/
def XPT_RNR_NAK_TX_CNT : RegBank := ⟨0xA00150, 64, 0, 1, 0, 1, 0x0, 0x0, 0x0⟩
/-- XPT_INV_REQ_NAK_TX_CNT: NAK invalid requests sent (05_rdma_transport.md R128). -/
def XPT_INV_REQ_NAK_TX_CNT : RegBank := ⟨0xA00158, 64, 0, 1, 0, 1, 0x0, 0x0, 0x0⟩
/-- XPT_RACC_NAK_TX_CNT: NAK remote access errors sent (05_rdma_transport.md R128). -/
def XPT_RACC_NAK_TX_CNT : RegBank := ⟨0xA00160, 64, 0, 1, 0, 1, 0x0, 0x0, 0x0⟩
/-- XPT_QP_FAIL_CNT: Queue pairs failed, per R116 (05_rdma_transport.md R128). -/
def XPT_QP_FAIL_CNT : RegBank := ⟨0xA00168, 64, 0, 1, 0, 1, 0x0, 0x0, 0x0⟩
/-- XPT_ICRC_ERR_CNT: Packets dropped for ICRC (05_rdma_transport.md R128). -/
def XPT_ICRC_ERR_CNT : RegBank := ⟨0xA00170, 64, 0, 1, 0, 1, 0x0, 0x0, 0x0⟩
/-- XPT_ECN_CE_RX_CNT: CE-marked packets received (05_rdma_transport.md R128). -/
def XPT_ECN_CE_RX_CNT : RegBank := ⟨0xA00178, 64, 0, 1, 0, 1, 0x0, 0x0, 0x0⟩
/-- XPT_CNP_TX_CNT: Congestion notification packets sent (05_rdma_transport.md R128). -/
def XPT_CNP_TX_CNT : RegBank := ⟨0xA00180, 64, 0, 1, 0, 1, 0x0, 0x0, 0x0⟩
/-- XPT_CNP_RX_CNT: Congestion notification packets received (05_rdma_transport.md R128). -/
def XPT_CNP_RX_CNT : RegBank := ⟨0xA00188, 64, 0, 1, 0, 1, 0x0, 0x0, 0x0⟩
/-- XPT_PFC_STORM_CNT: Pause storms, per R120 (05_rdma_transport.md R128). -/
def XPT_PFC_STORM_CNT : RegBank := ⟨0xA00190, 64, 0, 1, 0, 1, 0x0, 0x0, 0x0⟩
/-- XPT_RD_RESP_DISCARD_CNT: RDMA READ responses discarded, per R114 (05_rdma_transport.md R128). -/
def XPT_RD_RESP_DISCARD_CNT : RegBank := ⟨0xA00198, 64, 0, 1, 0, 1, 0x0, 0x0, 0x0⟩
/-- BRN_ENTRY_CNT: Sequences assigned (06_brine_write_path.md R157). -/
def BRN_ENTRY_CNT : RegBank := ⟨0xC00100, 64, 0, 1, 0, 1, 0x0, 0x0, 0x0⟩
/-- BRN_DISCARD_CNT: Entries freed without a sequence, per R134 (06_brine_write_path.md R157). -/
def BRN_DISCARD_CNT : RegBank := ⟨0xC00108, 64, 0, 1, 0, 1, 0x0, 0x0, 0x0⟩
/-- BRN_WAIT_CNT: Best-effort reservations that waited, per R136 (06_brine_write_path.md R157). -/
def BRN_WAIT_CNT : RegBank := ⟨0xC00110, 64, 0, 1, 0, 1, 0x0, 0x0, 0x0⟩
/-- BRN_BACKLOG_HOLD_CNT: RDMA READs held by R141 (06_brine_write_path.md R157). -/
def BRN_BACKLOG_HOLD_CNT : RegBank := ⟨0xC00118, 64, 0, 1, 0, 1, 0x0, 0x0, 0x0⟩
/-- BRN_MIRROR_BYTE_CNT: Mirror bytes sent, headers included (06_brine_write_path.md R157). -/
def BRN_MIRROR_BYTE_CNT : RegBank := ⟨0xC00120, 64, 0, 1, 0, 1, 0x0, 0x0, 0x0⟩
/-- BRN_MIRROR_RESEND_CNT: Records resent under R139 (06_brine_write_path.md R157). -/
def BRN_MIRROR_RESEND_CNT : RegBank := ⟨0xC00128, 64, 0, 1, 0, 1, 0x0, 0x0, 0x0⟩
/-- BRN_BRINE_READ_CNT: Reads served from the brine, per R146 (06_brine_write_path.md R157). -/
def BRN_BRINE_READ_CNT : RegBank := ⟨0xC00130, 64, 0, 1, 0, 1, 0x0, 0x0, 0x0⟩
/-- BRN_DUMP_CNT: Dumps begun (06_brine_write_path.md R157). -/
def BRN_DUMP_CNT : RegBank := ⟨0xC00138, 64, 0, 1, 0, 1, 0x0, 0x0, 0x0⟩
/-- BRN_REPLAY_REC_CNT: Records restored, per R153 (06_brine_write_path.md R157). -/
def BRN_REPLAY_REC_CNT : RegBank := ⟨0xC00140, 64, 0, 1, 0, 1, 0x0, 0x0, 0x0⟩
/-- RED_GRAIN_CNT: Grain records classified (07_data_reduction.md R187). -/
def RED_GRAIN_CNT : RegBank := ⟨0xE00100, 64, 0, 1, 0, 1, 0x0, 0x0, 0x0⟩
/-- RED_ZERO_CNT: Zero grains detected, per R159 (07_data_reduction.md R187). -/
def RED_ZERO_CNT : RegBank := ⟨0xE00108, 64, 0, 1, 0, 1, 0x0, 0x0, 0x0⟩
/-- RED_FP_CNT: Fingerprints computed (07_data_reduction.md R187). -/
def RED_FP_CNT : RegBank := ⟨0xE00110, 64, 0, 1, 0, 1, 0x0, 0x0, 0x0⟩
/-- RED_TAG_MATCH_CNT: Bucket reads caused by tag matches (07_data_reduction.md R187). -/
def RED_TAG_MATCH_CNT : RegBank := ⟨0xE00118, 64, 0, 1, 0, 1, 0x0, 0x0, 0x0⟩
/-- RED_FALSE_MATCH_CNT: Tag matches with unequal FP_HI (07_data_reduction.md R187). -/
def RED_FALSE_MATCH_CNT : RegBank := ⟨0xE00120, 64, 0, 1, 0, 1, 0x0, 0x0, 0x0⟩
/-- RED_DUP_CNT: References added to existing grains (07_data_reduction.md R187). -/
def RED_DUP_CNT : RegBank := ⟨0xE00128, 64, 0, 1, 0, 1, 0x0, 0x0, 0x0⟩
/-- RED_NEW_CNT: New grains stored (07_data_reduction.md R187). -/
def RED_NEW_CNT : RegBank := ⟨0xE00130, 64, 0, 1, 0, 1, 0x0, 0x0, 0x0⟩
/-- RED_EVICT_CNT: Entries replaced, per R169 (07_data_reduction.md R187). -/
def RED_EVICT_CNT : RegBank := ⟨0xE00138, 64, 0, 1, 0, 1, 0x0, 0x0, 0x0⟩
/-- RED_REF_FULL_CNT: Grains that reached the reference bound, per R172 (07_data_reduction.md R187). -/
def RED_REF_FULL_CNT : RegBank := ⟨0xE00140, 64, 0, 1, 0, 1, 0x0, 0x0, 0x0⟩
/-- RED_CONFIRM_FAIL_CNT: CRC confirmation failures, per R167 (07_data_reduction.md R187). -/
def RED_CONFIRM_FAIL_CNT : RegBank := ⟨0xE00148, 64, 0, 1, 0, 1, 0x0, 0x0, 0x0⟩
/-- RED_REISSUE_CNT: Engine jobs reissued, per R181 (07_data_reduction.md R187). -/
def RED_REISSUE_CNT : RegBank := ⟨0xE00150, 64, 0, 1, 0, 1, 0x0, 0x0, 0x0⟩
/-- RED_SEAL_CNT: Rows closed at a seal point, per R178 (07_data_reduction.md R187). -/
def RED_SEAL_CNT : RegBank := ⟨0xE00158, 64, 0, 1, 0, 1, 0x0, 0x0, 0x0⟩
/-- RED_PAD_CRUMB_CNT: Pad crumbs written, per R177 and R178 (07_data_reduction.md R187). -/
def RED_PAD_CRUMB_CNT : RegBank := ⟨0xE00160, 64, 0, 1, 0, 1, 0x0, 0x0, 0x0⟩
/-- CMP_GRAIN_CNT: Inline grains compressed (08_compression.md R207). -/
def CMP_GRAIN_CNT : RegBank := ⟨0x1000100, 64, 0, 1, 0, 1, 0x0, 0x0, 0x0⟩
/-- CMP_STORED_CNT: Frames stored as MODE 2, per R175 (08_compression.md R207). -/
def CMP_STORED_CNT : RegBank := ⟨0x1000108, 64, 0, 1, 0, 1, 0x0, 0x0, 0x0⟩
/-- CMP_IN_BYTE_CNT: Inline input bytes (08_compression.md R207). -/
def CMP_IN_BYTE_CNT : RegBank := ⟨0x1000110, 64, 0, 1, 0, 1, 0x0, 0x0, 0x0⟩
/-- CMP_OUT_BYTE_CNT: Inline DEFLATE body bytes (08_compression.md R207). -/
def CMP_OUT_BYTE_CNT : RegBank := ⟨0x1000118, 64, 0, 1, 0, 1, 0x0, 0x0, 0x0⟩
/-- DCMP_GRAIN_CNT: Inline frames decompressed (08_compression.md R207). -/
def DCMP_GRAIN_CNT : RegBank := ⟨0x1000120, 64, 0, 1, 0, 1, 0x0, 0x0, 0x0⟩
/-- DCMP_CHECK_FAIL_CNT: Inline frames failing R196 (08_compression.md R207). -/
def DCMP_CHECK_FAIL_CNT : RegBank := ⟨0x1000128, 64, 0, 1, 0, 1, 0x0, 0x0, 0x0⟩
/-- OFF_CJOB_CNT: Compress jobs completed OK (08_compression.md R207). -/
def OFF_CJOB_CNT : RegBank := ⟨0x1000130, 64, 0, 1, 0, 1, 0x0, 0x0, 0x0⟩
/-- OFF_DJOB_CNT: Decompress jobs completed OK (08_compression.md R207). -/
def OFF_DJOB_CNT : RegBank := ⟨0x1000138, 64, 0, 1, 0, 1, 0x0, 0x0, 0x0⟩
/-- OFF_ERR_CNT: Offload jobs ended with a status of R204 (08_compression.md R207). -/
def OFF_ERR_CNT : RegBank := ⟨0x1000140, 64, 0, 1, 0, 1, 0x0, 0x0, 0x0⟩
/-- OFF_REISSUE_CNT: Offload segments reissued, per R205 (08_compression.md R207). -/
def OFF_REISSUE_CNT : RegBank := ⟨0x1000148, 64, 0, 1, 0, 1, 0x0, 0x0, 0x0⟩
/-- CIP_SEG_CNT: Segments completed (09_cipher_digest.md R236). -/
def CIP_SEG_CNT : RegBank := ⟨0x2000D00, 64, 0, 1, 0, 1, 0x0, 0x0, 0x0⟩
/-- CIP_BYTE_CNT: Bytes processed (09_cipher_digest.md R236). -/
def CIP_BYTE_CNT : RegBank := ⟨0x2000D08, 64, 0, 1, 0, 1, 0x0, 0x0, 0x0⟩
/-- CIP_SAVE_CNT: Contexts saved, per R222 (09_cipher_digest.md R236). -/
def CIP_SAVE_CNT : RegBank := ⟨0x2000D10, 64, 0, 1, 0, 1, 0x0, 0x0, 0x0⟩
/-- CIP_RESTORE_CNT: Contexts restored (09_cipher_digest.md R236). -/
def CIP_RESTORE_CNT : RegBank := ⟨0x2000D18, 64, 0, 1, 0, 1, 0x0, 0x0, 0x0⟩
/-- CIP_AUTH_FAIL_CNT: GCM tag failures (cipher); wrapped context unwrap failures (digest) (09_cipher_digest.md R236). -/
def CIP_AUTH_FAIL_CNT : RegBank := ⟨0x2000D20, 64, 0, 1, 0, 1, 0x0, 0x0, 0x0⟩
/-- CIP_REISSUE_CNT: Segments reissued, per R230 (09_cipher_digest.md R236). -/
def CIP_REISSUE_CNT : RegBank := ⟨0x2000D28, 64, 0, 1, 0, 1, 0x0, 0x0, 0x0⟩
/-- CIP_ALARM_CNT: Alarms, per R231 (09_cipher_digest.md R236). -/
def CIP_ALARM_CNT : RegBank := ⟨0x2000D30, 64, 0, 1, 0, 1, 0x0, 0x0, 0x0⟩
/-- CIP_JOB_ERR_CNT: Offload jobs ended with a status of R229 (09_cipher_digest.md R236). -/
def CIP_JOB_ERR_CNT : RegBank := ⟨0x2000D38, 64, 0, 1, 0, 1, 0x0, 0x0, 0x0⟩
/-- MED_RECON_CNT: Crumb ranges reconstructed, per R251 (10_media_units_pans.md R266). -/
def MED_RECON_CNT : RegBank := ⟨0x1600100, 64, 0, 1, 0, 1, 0x0, 0x0, 0x0⟩
/-- MED_RECON_UP_CNT: Reconstructions escalated to an enclosing pan (10_media_units_pans.md R266). -/
def MED_RECON_UP_CNT : RegBank := ⟨0x1600108, 64, 0, 1, 0, 1, 0x0, 0x0, 0x0⟩
/-- MED_RECON_FAIL_CNT: Grains that no pan could decode (10_media_units_pans.md R266). -/
def MED_RECON_FAIL_CNT : RegBank := ⟨0x1600110, 64, 0, 1, 0, 1, 0x0, 0x0, 0x0⟩
/-- MED_SLOW_REISSUE_CNT: Reads reissued under R250 (10_media_units_pans.md R266). -/
def MED_SLOW_REISSUE_CNT : RegBank := ⟨0x1600118, 64, 0, 1, 0, 1, 0x0, 0x0, 0x0⟩
/-- MED_LEAF_FAIL_CNT: Shared leaves declared FAILED by this head (10_media_units_pans.md R266). -/
def MED_LEAF_FAIL_CNT : RegBank := ⟨0x1600120, 64, 0, 1, 0, 1, 0x0, 0x0, 0x0⟩
/-- MED_SUBST_CNT: Substitutes assigned (10_media_units_pans.md R266). -/
def MED_SUBST_CNT : RegBank := ⟨0x1600128, 64, 0, 1, 0, 1, 0x0, 0x0, 0x0⟩
/-- MED_REBUILD_BYTE_CNT: Bytes rebuilt by this head (10_media_units_pans.md R266). -/
def MED_REBUILD_BYTE_CNT : RegBank := ⟨0x1600130, 64, 0, 1, 0, 1, 0x0, 0x0, 0x0⟩
/-- MED_PROXY_CMD_CNT: Module commands sent through the peer head (10_media_units_pans.md R266). -/
def MED_PROXY_CMD_CNT : RegBank := ⟨0x1600138, 64, 0, 1, 0, 1, 0x0, 0x0, 0x0⟩
/-- FTL_GRANT_CNT: Grant records written (11_flash_translation.md R290). -/
def FTL_GRANT_CNT : RegBank := ⟨0x1800100, 64, 0, 1, 0, 1, 0x0, 0x0, 0x0⟩
/-- FTL_ROW_CLOSE_CNT: Rows reaching PROGRAMMED (11_flash_translation.md R290). -/
def FTL_ROW_CLOSE_CNT : RegBank := ⟨0x1800108, 64, 0, 1, 0, 1, 0x0, 0x0, 0x0⟩
/-- FTL_ROW_VOID_CNT: Rows voided, per R277 (11_flash_translation.md R290). -/
def FTL_ROW_VOID_CNT : RegBank := ⟨0x1800110, 64, 0, 1, 0, 1, 0x0, 0x0, 0x0⟩
/-- FTL_MAP_MEDIA_CNT: Map pages read from media, per R269 (11_flash_translation.md R290). -/
def FTL_MAP_MEDIA_CNT : RegBank := ⟨0x1800118, 64, 0, 1, 0, 1, 0x0, 0x0, 0x0⟩
/-- FTL_CKPT_CNT: Checkpoint roots written (11_flash_translation.md R290). -/
def FTL_CKPT_CNT : RegBank := ⟨0x1800120, 64, 0, 1, 0, 1, 0x0, 0x0, 0x0⟩
/-- FTL_UNC_CNT: Reads uncorrectable after the ladder (11_flash_translation.md R290). -/
def FTL_UNC_CNT : RegBank := ⟨0x1800128, 64, 0, 1, 0, 1, 0x0, 0x0, 0x0⟩
/-- FTL_RESUME_KEEP_CNT: Columns kept on read-back, per R278 (11_flash_translation.md R290). -/
def FTL_RESUME_KEEP_CNT : RegBank := ⟨0x1800130, 64, 0, 1, 0, 1, 0x0, 0x0, 0x0⟩
/-- FTL_HARV_VICTIM_CNT: Harvest start records placed (12_harvest_health.md R313). -/
def FTL_HARV_VICTIM_CNT : RegBank := ⟨0x1800500, 64, 0, 1, 0, 1, 0x0, 0x0, 0x0⟩
/-- FTL_HARV_CRUMB_CNT: Crumbs copied under R297 (12_harvest_health.md R313). -/
def FTL_HARV_CRUMB_CNT : RegBank := ⟨0x1800508, 64, 0, 1, 0, 1, 0x0, 0x0, 0x0⟩
/-- FTL_HARV_COMMIT_CNT: Commit items that took effect (12_harvest_health.md R313). -/
def FTL_HARV_COMMIT_CNT : RegBank := ⟨0x1800510, 64, 0, 1, 0, 1, 0x0, 0x0, 0x0⟩
/-- FTL_HARV_SKIP_CNT: Commit items without effect (12_harvest_health.md R313). -/
def FTL_HARV_SKIP_CNT : RegBank := ⟨0x1800518, 64, 0, 1, 0, 1, 0x0, 0x0, 0x0⟩
/-- FTL_ERASE_CNT: Stripe blocks erased (12_harvest_health.md R313). -/
def FTL_ERASE_CNT : RegBank := ⟨0x1800520, 64, 0, 1, 0, 1, 0x0, 0x0, 0x0⟩
/-- FTL_SCRUB_CNT: SCRUB blocks erased, per R302 (12_harvest_health.md R313). -/
def FTL_SCRUB_CNT : RegBank := ⟨0x1800528, 64, 0, 1, 0, 1, 0x0, 0x0, 0x0⟩
/-- FTL_REFRESH_CNT: REFRESH victims harvested (12_harvest_health.md R313). -/
def FTL_REFRESH_CNT : RegBank := ⟨0x1800530, 64, 0, 1, 0, 1, 0x0, 0x0, 0x0⟩
/-- FTL_RETIRE_CNT: Physical blocks retired by this head (12_harvest_health.md R313). -/
def FTL_RETIRE_CNT : RegBank := ⟨0x1800538, 64, 0, 1, 0, 1, 0x0, 0x0, 0x0⟩
/-- FTL_ORPHAN_CNT: Blocks flagged SCRUB by R299 (12_harvest_health.md R313). -/
def FTL_ORPHAN_CNT : RegBank := ⟨0x1800540, 64, 0, 1, 0, 1, 0x0, 0x0, 0x0⟩
/-- FTL_SDEAL_GRAIN_CNT: Grains given the effect of R301 (12_harvest_health.md R313). -/
def FTL_SDEAL_GRAIN_CNT : RegBank := ⟨0x1800548, 64, 0, 1, 0, 1, 0x0, 0x0, 0x0⟩
/-- LNK_CMD_CNT: Commands sent on own ports (13_media_link.md R337). -/
def LNK_CMD_CNT : RegBank := ⟨0x1A00200, 64, 0, 1, 0, 1, 0x0, 0x0, 0x0⟩
/-- LNK_CPL_ERR_CNT: CPLs with a status other than OK or ERASED_PAGE (13_media_link.md R337). -/
def LNK_CPL_ERR_CNT : RegBank := ⟨0x1A00208, 64, 0, 1, 0, 1, 0x0, 0x0, 0x0⟩
/-- LNK_REPLAY_CNT: Data-link replays, per R315 (13_media_link.md R337). -/
def LNK_REPLAY_CNT : RegBank := ⟨0x1A00210, 64, 0, 1, 0, 1, 0x0, 0x0, 0x0⟩
/-- LNK_LINK_DOWN_CNT: Transitions to DL_Down (13_media_link.md R337). -/
def LNK_LINK_DOWN_CNT : RegBank := ⟨0x1A00218, 64, 0, 1, 0, 1, 0x0, 0x0, 0x0⟩
/-- LNK_FENCED_CNT: CPLs with FENCED (13_media_link.md R337). -/
def LNK_FENCED_CNT : RegBank := ⟨0x1A00220, 64, 0, 1, 0, 1, 0x0, 0x0, 0x0⟩
/-- LNK_BUSY_CNT: CPLs with BUSY (13_media_link.md R337). -/
def LNK_BUSY_CNT : RegBank := ⟨0x1A00228, 64, 0, 1, 0, 1, 0x0, 0x0, 0x0⟩
/-- LNK_EVENT_RX_CNT: EVENT MLPs received (13_media_link.md R337). -/
def LNK_EVENT_RX_CNT : RegBank := ⟨0x1A00230, 64, 0, 1, 0, 1, 0x0, 0x0, 0x0⟩
/-- LNK_LOST_CPL_CNT: Programs resolved by read-back, per R334 (13_media_link.md R337). -/
def LNK_LOST_CPL_CNT : RegBank := ⟨0x1A00238, 64, 0, 1, 0, 1, 0x0, 0x0, 0x0⟩
/-- SNAP_CUT_CNT: Snapshot records placed (14_snapshots_replication.md R357). -/
def SNAP_CUT_CNT : RegBank := ⟨0x1800700, 64, 0, 1, 0, 1, 0x0, 0x0, 0x0⟩
/-- SNAP_MISS_CNT: Cuts ended with CUT_MISSED (14_snapshots_replication.md R357). -/
def SNAP_MISS_CNT : RegBank := ⟨0x1800708, 64, 0, 1, 0, 1, 0x0, 0x0, 0x0⟩
/-- SNAP_COW_PAGE_CNT: Map pages copied under R340 (14_snapshots_replication.md R357). -/
def SNAP_COW_PAGE_CNT : RegBank := ⟨0x1800710, 64, 0, 1, 0, 1, 0x0, 0x0, 0x0⟩
/-- REPL_MSG_TX_CNT: Replication messages sent (14_snapshots_replication.md R357). -/
def REPL_MSG_TX_CNT : RegBank := ⟨0x1800718, 64, 0, 1, 0, 1, 0x0, 0x0, 0x0⟩
/-- REPL_BYTE_TX_CNT: Replication bytes sent, headers and tags included (14_snapshots_replication.md R357). -/
def REPL_BYTE_TX_CNT : RegBank := ⟨0x1800720, 64, 0, 1, 0, 1, 0x0, 0x0, 0x0⟩
/-- REPL_MSG_RX_CNT: Messages applied as target (14_snapshots_replication.md R357). -/
def REPL_MSG_RX_CNT : RegBank := ⟨0x1800728, 64, 0, 1, 0, 1, 0x0, 0x0, 0x0⟩
/-- REPL_AUTH_FAIL_CNT: Messages failing their GCM tag (14_snapshots_replication.md R357). -/
def REPL_AUTH_FAIL_CNT : RegBank := ⟨0x1800730, 64, 0, 1, 0, 1, 0x0, 0x0, 0x0⟩
/-- REPL_SUSPEND_CNT: Entries into SUSPENDED (14_snapshots_replication.md R357). -/
def REPL_SUSPEND_CNT : RegBank := ⟨0x1800738, 64, 0, 1, 0, 1, 0x0, 0x0, 0x0⟩
/-- REPL_SKIP_CNT: Period cuts skipped, per R353 (14_snapshots_replication.md R357). -/
def REPL_SKIP_CNT : RegBank := ⟨0x1800740, 64, 0, 1, 0, 1, 0x0, 0x0, 0x0⟩
/-- PAIR_HB_TX_CNT: Heartbeats sent (15_pair_operation.md R388). -/
def PAIR_HB_TX_CNT : RegBank := ⟨0x1C00100, 64, 0, 1, 0, 1, 0x0, 0x0, 0x0⟩
/-- PAIR_SUSPECT_CNT: Entries into SUSPECT (15_pair_operation.md R388). -/
def PAIR_SUSPECT_CNT : RegBank := ⟨0x1C00108, 64, 0, 1, 0, 1, 0x0, 0x0, 0x0⟩
/-- PAIR_ELECT_WIN_CNT: Elections won (15_pair_operation.md R388). -/
def PAIR_ELECT_WIN_CNT : RegBank := ⟨0x1C00110, 64, 0, 1, 0, 1, 0x0, 0x0, 0x0⟩
/-- PAIR_ELECT_LOSS_CNT: Entries into FENCED (15_pair_operation.md R388). -/
def PAIR_ELECT_LOSS_CNT : RegBank := ⟨0x1C00118, 64, 0, 1, 0, 1, 0x0, 0x0, 0x0⟩
/-- PAIR_RESEND_CNT: Messages sent again under R362 (15_pair_operation.md R388). -/
def PAIR_RESEND_CNT : RegBank := ⟨0x1C00120, 64, 0, 1, 0, 1, 0x0, 0x0, 0x0⟩
/-- PAIR_JOURNAL_RX_CNT: JOURNAL messages applied (15_pair_operation.md R388). -/
def PAIR_JOURNAL_RX_CNT : RegBank := ⟨0x1C00128, 64, 0, 1, 0, 1, 0x0, 0x0, 0x0⟩
/-- PAIR_PROXY_RX_CNT: PROXY_CMD messages served for the peer (15_pair_operation.md R388). -/
def PAIR_PROXY_RX_CNT : RegBank := ⟨0x1C00130, 64, 0, 1, 0, 1, 0x0, 0x0, 0x0⟩
/-- PAIR_MOVE_CNT: Group moves completed (15_pair_operation.md R388). -/
def PAIR_MOVE_CNT : RegBank := ⟨0x1C00138, 64, 0, 1, 0, 1, 0x0, 0x0, 0x0⟩
/-- PAIR_DISCARD_CNT: Messages of reserved types, and unsequenced messages with MORE set, discarded, per R361 and R363 (15_pair_operation.md R388). -/
def PAIR_DISCARD_CNT : RegBank := ⟨0x1C00140, 64, 0, 1, 0, 1, 0x0, 0x0, 0x0⟩
/-- MEM_HBM_CE_CNT: Corrected HBM errors (16_memory_cache.md R406). -/
def MEM_HBM_CE_CNT : RegBank := ⟨0x1E00100, 64, 0, 1, 0, 1, 0x0, 0x0, 0x0⟩
/-- MEM_HBM_UE_CNT: Uncorrectable HBM errors (16_memory_cache.md R406). -/
def MEM_HBM_UE_CNT : RegBank := ⟨0x1E00108, 64, 0, 1, 0, 1, 0x0, 0x0, 0x0⟩
/-- MEM_DDR_CE_CNT: Corrected DDR errors (16_memory_cache.md R406). -/
def MEM_DDR_CE_CNT : RegBank := ⟨0x1E00110, 64, 0, 1, 0, 1, 0x0, 0x0, 0x0⟩
/-- MEM_DDR_UE_CNT: Uncorrectable DDR errors (16_memory_cache.md R406). -/
def MEM_DDR_UE_CNT : RegBank := ⟨0x1E00118, 64, 0, 1, 0, 1, 0x0, 0x0, 0x0⟩
/-- MEM_PAGE_REREAD_CNT: Metadata pages read again or rebuilt, per R403 (16_memory_cache.md R406). -/
def MEM_PAGE_REREAD_CNT : RegBank := ⟨0x1E00120, 64, 0, 1, 0, 1, 0x0, 0x0, 0x0⟩
/-- MEM_CACHE_HIT_BOOK_CNT: Grains booked as stream cache hits, per R396 (16_memory_cache.md R406). -/
def MEM_CACHE_HIT_BOOK_CNT : RegBank := ⟨0x1E00128, 64, 0, 1, 0, 1, 0x0, 0x0, 0x0⟩
/-- LLC_HIT_CNT: Lookups that hit (16_memory_cache.md R406). -/
def LLC_HIT_CNT : RegBank := ⟨0x1E80200, 64, 0, 1, 0, 1, 0x0, 0x0, 0x0⟩
/-- LLC_MISS_CNT: Lookups that missed (16_memory_cache.md R406). -/
def LLC_MISS_CNT : RegBank := ⟨0x1E80208, 64, 0, 1, 0, 1, 0x0, 0x0, 0x0⟩
/-- LLC_TAG_PAR_CNT: Tag parity errors (16_memory_cache.md R406). -/
def LLC_TAG_PAR_CNT : RegBank := ⟨0x1E80210, 64, 0, 1, 0, 1, 0x0, 0x0, 0x0⟩
/-- LLC_DATA_CE_CNT: Corrected data errors (16_memory_cache.md R406). -/
def LLC_DATA_CE_CNT : RegBank := ⟨0x1E80218, 64, 0, 1, 0, 1, 0x0, 0x0, 0x0⟩
/-- LLC_DATA_UE_CNT: Uncorrectable data errors (16_memory_cache.md R406). -/
def LLC_DATA_UE_CNT : RegBank := ⟨0x1E80220, 64, 0, 1, 0, 1, 0x0, 0x0, 0x0⟩
/-- SFL_PROG_CNT: Pages programmed with OK (18_system_flash.md R435). -/
def SFL_PROG_CNT : RegBank := ⟨0x3000200, 64, 0, 1, 0, 1, 0x0, 0x0, 0x0⟩
/-- SFL_ERASE_CNT: Blocks erased with OK (18_system_flash.md R435). -/
def SFL_ERASE_CNT : RegBank := ⟨0x3000208, 64, 0, 1, 0, 1, 0x0, 0x0, 0x0⟩
/-- SFL_UNC_CNT: Uncorrectable page reads (18_system_flash.md R435). -/
def SFL_UNC_CNT : RegBank := ⟨0x3000210, 64, 0, 1, 0, 1, 0x0, 0x0, 0x0⟩
/-- SFL_BUS_FAULT_CNT: Reads of a busy bank (18_system_flash.md R435). -/
def SFL_BUS_FAULT_CNT : RegBank := ⟨0x3000218, 64, 0, 1, 0, 1, 0x0, 0x0, 0x0⟩
/-- SFL_RETIRE_CNT: Blocks retired, per R429 (18_system_flash.md R435). -/
def SFL_RETIRE_CNT : RegBank := ⟨0x3000220, 64, 0, 1, 0, 1, 0x0, 0x0, 0x0⟩
/-- SFL_HOLD_CNT: Resets held under R431 (18_system_flash.md R435). -/
def SFL_HOLD_CNT : RegBank := ⟨0x3000228, 64, 0, 1, 0, 1, 0x0, 0x0, 0x0⟩
/-- EVR_REC_CNT: Records appended (19_event_recorder.md R456). -/
def EVR_REC_CNT : RegBank := ⟨0x3200200, 64, 0, 1, 0, 1, 0x0, 0x0, 0x0⟩
/-- EVR_FOLD_CNT: Occurrences folded, per R442 (19_event_recorder.md R456). -/
def EVR_FOLD_CNT : RegBank := ⟨0x3200208, 64, 0, 1, 0, 1, 0x0, 0x0, 0x0⟩
/-- EVR_SAT_LOST_CNT: Folds past saturation (19_event_recorder.md R456). -/
def EVR_SAT_LOST_CNT : RegBank := ⟨0x3200210, 64, 0, 1, 0, 1, 0x0, 0x0, 0x0⟩
/-- EVR_RESERVE_DROP_CNT: Records dropped under R444 (19_event_recorder.md R456). -/
def EVR_RESERVE_DROP_CNT : RegBank := ⟨0x3200218, 64, 0, 1, 0, 1, 0x0, 0x0, 0x0⟩
/-- EVR_FROZEN_DROP_CNT: Records dropped while frozen (19_event_recorder.md R456). -/
def EVR_FROZEN_DROP_CNT : RegBank := ⟨0x3200220, 64, 0, 1, 0, 1, 0x0, 0x0, 0x0⟩
/-- EVR_PAGE_CNT: Flash pages written (19_event_recorder.md R456). -/
def EVR_PAGE_CNT : RegBank := ⟨0x3200228, 64, 0, 1, 0, 1, 0x0, 0x0, 0x0⟩
/-- CTL_PKT_CNT: Packets fetched (20_control_packets.md R483). -/
def CTL_PKT_CNT : RegBank := ⟨0x3400100, 64, 0, 1, 0, 1, 0x0, 0x0, 0x0⟩
/-- CTL_FAIL_CNT: Final replies with a status other than OK (20_control_packets.md R483). -/
def CTL_FAIL_CNT : RegBank := ⟨0x3400108, 64, 0, 1, 0, 1, 0x0, 0x0, 0x0⟩
/-- CTL_DB_DROP_CNT: Doorbell writes dropped, per R458 (20_control_packets.md R483). -/
def CTL_DB_DROP_CNT : RegBank := ⟨0x3400110, 64, 0, 1, 0, 1, 0x0, 0x0, 0x0⟩
/-- CTL_RPL_HOLD_CNT: Replies held for reply space, per R459 (20_control_packets.md R483). -/
def CTL_RPL_HOLD_CNT : RegBank := ⟨0x3400118, 64, 0, 1, 0, 1, 0x0, 0x0, 0x0⟩
/-- BOOT_WDT_CNT: Resets of causes 0x01 and 0x02 (21_startup_security.md R504). -/
def BOOT_WDT_CNT : RegBank := ⟨0x100100, 64, 0, 1, 0, 1, 0x0, 0x0, 0x0⟩
/-- BOOT_TRIAL_FAIL_CNT: Trial slots marked FAILED, per R495 (21_startup_security.md R504). -/
def BOOT_TRIAL_FAIL_CNT : RegBank := ⟨0x100108, 64, 0, 1, 0, 1, 0x0, 0x0, 0x0⟩
/-- BOOT_AUTH_FAIL_CNT: Unlock proofs that failed, per R502 (21_startup_security.md R504). -/
def BOOT_AUTH_FAIL_CNT : RegBank := ⟨0x100110, 64, 0, 1, 0, 1, 0x0, 0x0, 0x0⟩
/-- PWR_SWITCH_CNT: Domain switches, on or off (22_power_electrical.md R523). -/
def PWR_SWITCH_CNT : RegBank := ⟨0x200400, 64, 0, 1, 0, 1, 0x0, 0x0, 0x0⟩
/-- PWR_RAIL_WARN_CNT: WARN crossings of any rail (22_power_electrical.md R523). -/
def PWR_RAIL_WARN_CNT : RegBank := ⟨0x200408, 64, 0, 1, 0, 1, 0x0, 0x0, 0x0⟩
/-- PWR_TEMP_WARN_CNT: WARN crossings of any sensor (22_power_electrical.md R523). -/
def PWR_TEMP_WARN_CNT : RegBank := ⟨0x200410, 64, 0, 1, 0, 1, 0x0, 0x0, 0x0⟩
/-- PWR_THROTTLE_CNT: Entries into THROTTLE (22_power_electrical.md R523). -/
def PWR_THROTTLE_CNT : RegBank := ⟨0x200418, 64, 0, 1, 0, 1, 0x0, 0x0, 0x0⟩
/-- PWR_PFAIL_CNT: PFAIL_N assertions (22_power_electrical.md R523). -/
def PWR_PFAIL_CNT : RegBank := ⟨0x200420, 64, 0, 1, 0, 1, 0x0, 0x0, 0x0⟩
/-- XPT_P_RX_PKT_CNT: per-port copy (05_rdma_transport.md R128). -/
def XPT_P_RX_PKT_CNT : RegBank := ⟨0xA10000, 64, 256, 16, 0, 1, 0x0, 0x0, 0x0⟩
/-- XPT_P_TX_PKT_CNT: per-port copy (05_rdma_transport.md R128). -/
def XPT_P_TX_PKT_CNT : RegBank := ⟨0xA10008, 64, 256, 16, 0, 1, 0x0, 0x0, 0x0⟩
/-- XPT_P_CTX_MISS_CNT: per-port copy (05_rdma_transport.md R128). -/
def XPT_P_CTX_MISS_CNT : RegBank := ⟨0xA10010, 64, 256, 16, 0, 1, 0x0, 0x0, 0x0⟩
/-- XPT_P_CTX_EVICT_CNT: per-port copy (05_rdma_transport.md R128). -/
def XPT_P_CTX_EVICT_CNT : RegBank := ⟨0xA10018, 64, 256, 16, 0, 1, 0x0, 0x0, 0x0⟩
/-- XPT_P_DUP_PKT_CNT: per-port copy (05_rdma_transport.md R128). -/
def XPT_P_DUP_PKT_CNT : RegBank := ⟨0xA10020, 64, 256, 16, 0, 1, 0x0, 0x0, 0x0⟩
/-- XPT_P_PSN_AMBIG_CNT: per-port copy (05_rdma_transport.md R128). -/
def XPT_P_PSN_AMBIG_CNT : RegBank := ⟨0xA10028, 64, 256, 16, 0, 1, 0x0, 0x0, 0x0⟩
/-- XPT_P_SEQ_NAK_TX_CNT: per-port copy (05_rdma_transport.md R128). -/
def XPT_P_SEQ_NAK_TX_CNT : RegBank := ⟨0xA10030, 64, 256, 16, 0, 1, 0x0, 0x0, 0x0⟩
/-- XPT_P_SEQ_NAK_RX_CNT: per-port copy (05_rdma_transport.md R128). -/
def XPT_P_SEQ_NAK_RX_CNT : RegBank := ⟨0xA10038, 64, 256, 16, 0, 1, 0x0, 0x0, 0x0⟩
/-- XPT_P_RETX_CNT: per-port copy (05_rdma_transport.md R128). -/
def XPT_P_RETX_CNT : RegBank := ⟨0xA10040, 64, 256, 16, 0, 1, 0x0, 0x0, 0x0⟩
/-- XPT_P_TIMEOUT_CNT: per-port copy (05_rdma_transport.md R128). -/
def XPT_P_TIMEOUT_CNT : RegBank := ⟨0xA10048, 64, 256, 16, 0, 1, 0x0, 0x0, 0x0⟩
/-- XPT_P_RNR_NAK_TX_CNT: per-port copy (05_rdma_transport.md R128). -/
def XPT_P_RNR_NAK_TX_CNT : RegBank := ⟨0xA10050, 64, 256, 16, 0, 1, 0x0, 0x0, 0x0⟩
/-- XPT_P_INV_REQ_NAK_TX_CNT: per-port copy (05_rdma_transport.md R128). -/
def XPT_P_INV_REQ_NAK_TX_CNT : RegBank := ⟨0xA10058, 64, 256, 16, 0, 1, 0x0, 0x0, 0x0⟩
/-- XPT_P_RACC_NAK_TX_CNT: per-port copy (05_rdma_transport.md R128). -/
def XPT_P_RACC_NAK_TX_CNT : RegBank := ⟨0xA10060, 64, 256, 16, 0, 1, 0x0, 0x0, 0x0⟩
/-- XPT_P_QP_FAIL_CNT: per-port copy (05_rdma_transport.md R128). -/
def XPT_P_QP_FAIL_CNT : RegBank := ⟨0xA10068, 64, 256, 16, 0, 1, 0x0, 0x0, 0x0⟩
/-- XPT_P_ICRC_ERR_CNT: per-port copy (05_rdma_transport.md R128). -/
def XPT_P_ICRC_ERR_CNT : RegBank := ⟨0xA10070, 64, 256, 16, 0, 1, 0x0, 0x0, 0x0⟩
/-- XPT_P_ECN_CE_RX_CNT: per-port copy (05_rdma_transport.md R128). -/
def XPT_P_ECN_CE_RX_CNT : RegBank := ⟨0xA10078, 64, 256, 16, 0, 1, 0x0, 0x0, 0x0⟩
/-- XPT_P_CNP_TX_CNT: per-port copy (05_rdma_transport.md R128). -/
def XPT_P_CNP_TX_CNT : RegBank := ⟨0xA10080, 64, 256, 16, 0, 1, 0x0, 0x0, 0x0⟩
/-- XPT_P_CNP_RX_CNT: per-port copy (05_rdma_transport.md R128). -/
def XPT_P_CNP_RX_CNT : RegBank := ⟨0xA10088, 64, 256, 16, 0, 1, 0x0, 0x0, 0x0⟩
/-- XPT_P_PFC_STORM_CNT: per-port copy (05_rdma_transport.md R128). -/
def XPT_P_PFC_STORM_CNT : RegBank := ⟨0xA10090, 64, 256, 16, 0, 1, 0x0, 0x0, 0x0⟩
/-- XPT_P_RD_RESP_DISCARD_CNT: per-port copy (05_rdma_transport.md R128). -/
def XPT_P_RD_RESP_DISCARD_CNT : RegBank := ⟨0xA10098, 64, 256, 16, 0, 1, 0x0, 0x0, 0x0⟩
/-- DIG_SEG_CNT: digest: Segments completed (09_cipher_digest.md R236). -/
def DIG_SEG_CNT : RegBank := ⟨0x1400100, 64, 0, 1, 0, 1, 0x0, 0x0, 0x0⟩
/-- DIG_BYTE_CNT: digest: Bytes processed (09_cipher_digest.md R236). -/
def DIG_BYTE_CNT : RegBank := ⟨0x1400108, 64, 0, 1, 0, 1, 0x0, 0x0, 0x0⟩
/-- DIG_SAVE_CNT: digest: Contexts saved, per R222 (09_cipher_digest.md R236). -/
def DIG_SAVE_CNT : RegBank := ⟨0x1400110, 64, 0, 1, 0, 1, 0x0, 0x0, 0x0⟩
/-- DIG_RESTORE_CNT: digest: Contexts restored (09_cipher_digest.md R236). -/
def DIG_RESTORE_CNT : RegBank := ⟨0x1400118, 64, 0, 1, 0, 1, 0x0, 0x0, 0x0⟩
/-- DIG_AUTH_FAIL_CNT: digest: GCM tag failures (cipher); wrapped context unwrap failures (digest) (09_cipher_digest.md R236). -/
def DIG_AUTH_FAIL_CNT : RegBank := ⟨0x1400120, 64, 0, 1, 0, 1, 0x0, 0x0, 0x0⟩
/-- DIG_REISSUE_CNT: digest: Segments reissued, per R230 (09_cipher_digest.md R236). -/
def DIG_REISSUE_CNT : RegBank := ⟨0x1400128, 64, 0, 1, 0, 1, 0x0, 0x0, 0x0⟩
/-- DIG_ALARM_CNT: digest: Alarms, per R231 (09_cipher_digest.md R236). -/
def DIG_ALARM_CNT : RegBank := ⟨0x1400130, 64, 0, 1, 0, 1, 0x0, 0x0, 0x0⟩
/-- DIG_JOB_ERR_CNT: digest: Offload jobs ended with a status of R229 (09_cipher_digest.md R236). -/
def DIG_JOB_ERR_CNT : RegBank := ⟨0x1400138, 64, 0, 1, 0, 1, 0x0, 0x0, 0x0⟩
/-- SLU_REJ_CNT_N: rejections by reason n = 1..11 (03_sluice.md R70). -/
def SLU_REJ_CNT_N : RegBank := ⟨0x600100, 64, 8, 12, 0, 1, 0x0, 0x0, 0x0⟩
/-- SLU_MISS_CNT_N: misses by cause n = 1..9 (03_sluice.md R70). -/
def SLU_MISS_CNT_N : RegBank := ⟨0x600200, 64, 8, 10, 0, 1, 0x0, 0x0, 0x0⟩
/-- FTL_RETRY_LVL_CNT: reads that succeeded at level n = 1..8 (11_flash_translation.md R290). -/
def FTL_RETRY_LVL_CNT : RegBank := ⟨0x1800200, 64, 8, 9, 0, 1, 0x0, 0x0, 0x0⟩
/-- SFL_RETRY_LVL_CNT: page reads that succeeded at set n = 1..8 (18_system_flash.md R435). -/
def SFL_RETRY_LVL_CNT : RegBank := ⟨0x3000300, 64, 8, 9, 0, 1, 0x0, 0x0, 0x0⟩
/-- EVR_DROP_CNT: records of class c = 0x01..0x14 dropped (19_event_recorder.md R456). -/
def EVR_DROP_CNT : RegBank := ⟨0x3200400, 64, 8, 21, 0, 1, 0x0, 0x0, 0x0⟩
/-- DMA_XFER_CNT: transfers ended with END (17_dma.md R420). -/
def DMA_XFER_CNT : RegBank := ⟨0x1F00000, 64, 0, 1, 0, 1, 0x0, 0x0, 0x0⟩
/-- DMA_BYTE_CNT: bytes moved (17_dma.md R420). -/
def DMA_BYTE_CNT : RegBank := ⟨0x1F00008, 64, 0, 1, 0, 1, 0x0, 0x0, 0x0⟩
/-- DMA_ERR_CNT: transfers ended with ERR (17_dma.md R420). -/
def DMA_ERR_CNT : RegBank := ⟨0x1F00010, 64, 0, 1, 0, 1, 0x0, 0x0, 0x0⟩

end Bank

namespace R

/-- TOP_DEVICE_ID. -/
def TOP_DEVICE_ID : Reg := Bank.TOP_DEVICE_ID.at 0 0
/-- TOP_HEAD_INFO. -/
def TOP_HEAD_INFO : Reg := Bank.TOP_HEAD_INFO.at 0 0
/-- TIDE_TIME. -/
def TIDE_TIME : Reg := Bank.TIDE_TIME.at 0 0
/-- TIDE_CFG. -/
def TIDE_CFG : Reg := Bank.TIDE_CFG.at 0 0
/-- TIDE_STATUS. -/
def TIDE_STATUS : Reg := Bank.TIDE_STATUS.at 0 0
/-- TIDE_ERR_EST. -/
def TIDE_ERR_EST : Reg := Bank.TIDE_ERR_EST.at 0 0
/-- TIDE_HOLD_CFG. -/
def TIDE_HOLD_CFG : Reg := Bank.TIDE_HOLD_CFG.at 0 0
/-- TIDE_DIE_SHARE. -/
def TIDE_DIE_SHARE : Reg := Bank.TIDE_DIE_SHARE.at 0 0
/-- TIDE_SLOT_NOW. -/
def TIDE_SLOT_NOW : Reg := Bank.TIDE_SLOT_NOW.at 0 0
/-- TIDE_STEP_CNT. -/
def TIDE_STEP_CNT : Reg := Bank.TIDE_STEP_CNT.at 0 0
/-- TIDE_HOLDOVER_CNT. -/
def TIDE_HOLDOVER_CNT : Reg := Bank.TIDE_HOLDOVER_CNT.at 0 0
/-- SLU_ADMIT_CFG. -/
def SLU_ADMIT_CFG : Reg := Bank.SLU_ADMIT_CFG.at 0 0
/-- SLU_ICL_PROXY_RSV. -/
def SLU_ICL_PROXY_RSV : Reg := Bank.SLU_ICL_PROXY_RSV.at 0 0
/-- SLU_STATUS. -/
def SLU_STATUS : Reg := Bank.SLU_STATUS.at 0 0
/-- SLU_INFLIGHT. -/
def SLU_INFLIGHT : Reg := Bank.SLU_INFLIGHT.at 0 0
/-- HQ_CFG. -/
def HQ_CFG : Reg := Bank.HQ_CFG.at 0 0
/-- HQ_LOCK_CFG. -/
def HQ_LOCK_CFG : Reg := Bank.HQ_LOCK_CFG.at 0 0
/-- HQ_LOCK_STATUS. -/
def HQ_LOCK_STATUS : Reg := Bank.HQ_LOCK_STATUS.at 0 0
/-- HQ_QCTX_STATUS. -/
def HQ_QCTX_STATUS : Reg := Bank.HQ_QCTX_STATUS.at 0 0
/-- XPT_CFG. -/
def XPT_CFG : Reg := Bank.XPT_CFG.at 0 0
/-- XPT_RC_CFG. -/
def XPT_RC_CFG : Reg := Bank.XPT_RC_CFG.at 0 0
/-- XPT_PRIV_CFG. -/
def XPT_PRIV_CFG : Reg := Bank.XPT_PRIV_CFG.at 0 0
/-- XPT_CC_CFG0. -/
def XPT_CC_CFG0 : Reg := Bank.XPT_CC_CFG0.at 0 0
/-- XPT_CC_CFG1. -/
def XPT_CC_CFG1 : Reg := Bank.XPT_CC_CFG1.at 0 0
/-- XPT_CC_CFG2. -/
def XPT_CC_CFG2 : Reg := Bank.XPT_CC_CFG2.at 0 0
/-- XPT_PFC_CFG. -/
def XPT_PFC_CFG : Reg := Bank.XPT_PFC_CFG.at 0 0
/-- XPT_CTX_STATUS. -/
def XPT_CTX_STATUS : Reg := Bank.XPT_CTX_STATUS.at 0 0
/-- XPT_MKEY_STATUS. -/
def XPT_MKEY_STATUS : Reg := Bank.XPT_MKEY_STATUS.at 0 0
/-- XPT_MKEY_REVOKING. -/
def XPT_MKEY_REVOKING : Reg := Bank.XPT_MKEY_REVOKING.at 0 0
/-- BRN_CFG. -/
def BRN_CFG : Reg := Bank.BRN_CFG.at 0 0
/-- BRN_LIMIT. -/
def BRN_LIMIT : Reg := Bank.BRN_LIMIT.at 0 0
/-- BRN_DL_RSV. -/
def BRN_DL_RSV : Reg := Bank.BRN_DL_RSV.at 0 0
/-- BRN_MIRROR_BACKLOG. -/
def BRN_MIRROR_BACKLOG : Reg := Bank.BRN_MIRROR_BACKLOG.at 0 0
/-- BRN_STATUS. -/
def BRN_STATUS : Reg := Bank.BRN_STATUS.at 0 0
/-- BRN_FREE. -/
def BRN_FREE : Reg := Bank.BRN_FREE.at 0 0
/-- BRN_DUMP_EST. -/
def BRN_DUMP_EST : Reg := Bank.BRN_DUMP_EST.at 0 0
/-- BRN_JSEQ. -/
def BRN_JSEQ : Reg := Bank.BRN_JSEQ.at 0 0
/-- BRN_DURABLE. -/
def BRN_DURABLE : Reg := Bank.BRN_DURABLE.at 0 0
/-- BRN_LOST_FROM. -/
def BRN_LOST_FROM : Reg := Bank.BRN_LOST_FROM.at 0 0
/-- RED_CFG. -/
def RED_CFG : Reg := Bank.RED_CFG.at 0 0
/-- RED_STATUS. -/
def RED_STATUS : Reg := Bank.RED_STATUS.at 0 0
/-- RED_INDEX_USED. -/
def RED_INDEX_USED : Reg := Bank.RED_INDEX_USED.at 0 0
/-- CMP_CFG. -/
def CMP_CFG : Reg := Bank.CMP_CFG.at 0 0
/-- CMP_GEN. -/
def CMP_GEN : Reg := Bank.CMP_GEN.at 0 0
/-- CMP_STATUS. -/
def CMP_STATUS : Reg := Bank.CMP_STATUS.at 0 0
/-- CIP_KP_CFG of index `i`. -/
def CIP_KP_CFG (i : Nat) : Reg := Bank.CIP_KP_CFG.at i 0
/-- CIP_KP_CMD of index `i`. -/
def CIP_KP_CMD (i : Nat) : Reg := Bank.CIP_KP_CMD.at i 0
/-- CIP_KP_STATUS of index `i`. -/
def CIP_KP_STATUS (i : Nat) : Reg := Bank.CIP_KP_STATUS.at i 0
/-- CIP_KP_SALT of index `i`. -/
def CIP_KP_SALT (i : Nat) : Reg := Bank.CIP_KP_SALT.at i 0
/-- CIP_KP_INVOC of index `i`. -/
def CIP_KP_INVOC (i : Nat) : Reg := Bank.CIP_KP_INVOC.at i 0
/-- CIP_KP_KEY of index `i`, word `j`. -/
def CIP_KP_KEY (i j : Nat) : Reg := Bank.CIP_KP_KEY.at i j
/-- DIG_KS_CFG of index `i`. -/
def DIG_KS_CFG (i : Nat) : Reg := Bank.DIG_KS_CFG.at i 0
/-- DIG_KS_KEYLEN of index `i`. -/
def DIG_KS_KEYLEN (i : Nat) : Reg := Bank.DIG_KS_KEYLEN.at i 0
/-- DIG_KS_KEY of index `i`, word `j`. -/
def DIG_KS_KEY (i j : Nat) : Reg := Bank.DIG_KS_KEY.at i j
/-- CIP_CFG. -/
def CIP_CFG : Reg := Bank.CIP_CFG.at 0 0
/-- CIP_STATUS. -/
def CIP_STATUS : Reg := Bank.CIP_STATUS.at 0 0
/-- CIP_ALARM. -/
def CIP_ALARM : Reg := Bank.CIP_ALARM.at 0 0
/-- CIP_ALARM_CTL. -/
def CIP_ALARM_CTL : Reg := Bank.CIP_ALARM_CTL.at 0 0
/-- DIG_STATUS. -/
def DIG_STATUS : Reg := Bank.DIG_STATUS.at 0 0
/-- MED_CFG. -/
def MED_CFG : Reg := Bank.MED_CFG.at 0 0
/-- MED_FAULT_CFG. -/
def MED_FAULT_CFG : Reg := Bank.MED_FAULT_CFG.at 0 0
/-- MED_STATUS. -/
def MED_STATUS : Reg := Bank.MED_STATUS.at 0 0
/-- MED_PAN_STATUS. -/
def MED_PAN_STATUS : Reg := Bank.MED_PAN_STATUS.at 0 0
/-- MED_PROXY. -/
def MED_PROXY : Reg := Bank.MED_PROXY.at 0 0
/-- MED_UDT_STATUS. -/
def MED_UDT_STATUS : Reg := Bank.MED_UDT_STATUS.at 0 0
/-- FTL_STREAM_CFG. -/
def FTL_STREAM_CFG : Reg := Bank.FTL_STREAM_CFG.at 0 0
/-- FTL_SLC_CFG. -/
def FTL_SLC_CFG : Reg := Bank.FTL_SLC_CFG.at 0 0
/-- FTL_CKPT_CFG. -/
def FTL_CKPT_CFG : Reg := Bank.FTL_CKPT_CFG.at 0 0
/-- FTL_RETRY_CFG. -/
def FTL_RETRY_CFG : Reg := Bank.FTL_RETRY_CFG.at 0 0
/-- FTL_STATUS. -/
def FTL_STATUS : Reg := Bank.FTL_STATUS.at 0 0
/-- FTL_SLC_TARGET. -/
def FTL_SLC_TARGET : Reg := Bank.FTL_SLC_TARGET.at 0 0
/-- FTL_SLC_USED. -/
def FTL_SLC_USED : Reg := Bank.FTL_SLC_USED.at 0 0
/-- FTL_CKPT_S0. -/
def FTL_CKPT_S0 : Reg := Bank.FTL_CKPT_S0.at 0 0
/-- FTL_HARV_H. -/
def FTL_HARV_H : Reg := Bank.FTL_HARV_H.at 0 0
/-- FTL_HARV_NOW. -/
def FTL_HARV_NOW : Reg := Bank.FTL_HARV_NOW.at 0 0
/-- FTL_FREE_CFG. -/
def FTL_FREE_CFG : Reg := Bank.FTL_FREE_CFG.at 0 0
/-- FTL_HLTH_CFG. -/
def FTL_HLTH_CFG : Reg := Bank.FTL_HLTH_CFG.at 0 0
/-- FTL_HARV_STATUS. -/
def FTL_HARV_STATUS : Reg := Bank.FTL_HARV_STATUS.at 0 0
/-- FTL_FREE_BLOCKS. -/
def FTL_FREE_BLOCKS : Reg := Bank.FTL_FREE_BLOCKS.at 0 0
/-- FTL_SCRUB_PENDING. -/
def FTL_SCRUB_PENDING : Reg := Bank.FTL_SCRUB_PENDING.at 0 0
/-- FTL_RO_PANS. -/
def FTL_RO_PANS : Reg := Bank.FTL_RO_PANS.at 0 0
/-- LNK_CFG. -/
def LNK_CFG : Reg := Bank.LNK_CFG.at 0 0
/-- LNK_UP. -/
def LNK_UP : Reg := Bank.LNK_UP.at 0 0
/-- LNK_HELD. -/
def LNK_HELD : Reg := Bank.LNK_HELD.at 0 0
/-- LNK_PORT_STATUS of index `i`. -/
def LNK_PORT_STATUS (i : Nat) : Reg := Bank.LNK_PORT_STATUS.at i 0
/-- LNK_MOD_PWR of index `i`. -/
def LNK_MOD_PWR (i : Nat) : Reg := Bank.LNK_MOD_PWR.at i 0
/-- SNAP_STATUS. -/
def SNAP_STATUS : Reg := Bank.SNAP_STATUS.at 0 0
/-- PAIR_CFG. -/
def PAIR_CFG : Reg := Bank.PAIR_CFG.at 0 0
/-- PAIR_STATUS. -/
def PAIR_STATUS : Reg := Bank.PAIR_STATUS.at 0 0
/-- PAIR_SHADOW_TIP. -/
def PAIR_SHADOW_TIP : Reg := Bank.PAIR_SHADOW_TIP.at 0 0
/-- PAIR_PEER_FW. -/
def PAIR_PEER_FW : Reg := Bank.PAIR_PEER_FW.at 0 0
/-- MEM_HBM_SPLIT. -/
def MEM_HBM_SPLIT : Reg := Bank.MEM_HBM_SPLIT.at 0 0
/-- MEM_DDR_SPLIT. -/
def MEM_DDR_SPLIT : Reg := Bank.MEM_DDR_SPLIT.at 0 0
/-- MEM_BW_CFG. -/
def MEM_BW_CFG : Reg := Bank.MEM_BW_CFG.at 0 0
/-- MEM_STATUS. -/
def MEM_STATUS : Reg := Bank.MEM_STATUS.at 0 0
/-- LLC_STATUS. -/
def LLC_STATUS : Reg := Bank.LLC_STATUS.at 0 0
/-- LLC_WAY_OFF of index `i`. -/
def LLC_WAY_OFF (i : Nat) : Reg := Bank.LLC_WAY_OFF.at i 0
/-- DMA_CH_SHADOW_SRC of index `i`. -/
def DMA_CH_SHADOW_SRC (i : Nat) : Reg := Bank.DMA_CH_SHADOW_SRC.at i 0
/-- DMA_CH_SHADOW_DST of index `i`. -/
def DMA_CH_SHADOW_DST (i : Nat) : Reg := Bank.DMA_CH_SHADOW_DST.at i 0
/-- DMA_CH_SHADOW_LEN of index `i`. -/
def DMA_CH_SHADOW_LEN (i : Nat) : Reg := Bank.DMA_CH_SHADOW_LEN.at i 0
/-- DMA_CH_SHADOW_MODE of index `i`. -/
def DMA_CH_SHADOW_MODE (i : Nat) : Reg := Bank.DMA_CH_SHADOW_MODE.at i 0
/-- DMA_CH_DONE of index `i`. -/
def DMA_CH_DONE (i : Nat) : Reg := Bank.DMA_CH_DONE.at i 0
/-- DMA_CH_CTL of index `i`. -/
def DMA_CH_CTL (i : Nat) : Reg := Bank.DMA_CH_CTL.at i 0
/-- DMA_CH_STATUS of index `i`. -/
def DMA_CH_STATUS (i : Nat) : Reg := Bank.DMA_CH_STATUS.at i 0
/-- DMA_WIN_CFG of index `i`. -/
def DMA_WIN_CFG (i : Nat) : Reg := Bank.DMA_WIN_CFG.at i 0
/-- SFL_STATUS. -/
def SFL_STATUS : Reg := Bank.SFL_STATUS.at 0 0
/-- SFL_WIN_BASE. -/
def SFL_WIN_BASE : Reg := Bank.SFL_WIN_BASE.at 0 0
/-- SFL_B_ADDR of index `i`. -/
def SFL_B_ADDR (i : Nat) : Reg := Bank.SFL_B_ADDR.at i 0
/-- SFL_B_CMD of index `i`. -/
def SFL_B_CMD (i : Nat) : Reg := Bank.SFL_B_CMD.at i 0
/-- SFL_B_STATUS of index `i`. -/
def SFL_B_STATUS (i : Nat) : Reg := Bank.SFL_B_STATUS.at i 0
/-- SFL_LAST_HELD of index `i`. -/
def SFL_LAST_HELD (i : Nat) : Reg := Bank.SFL_LAST_HELD.at i 0
/-- EVR_CFG. -/
def EVR_CFG : Reg := Bank.EVR_CFG.at 0 0
/-- EVR_STATUS. -/
def EVR_STATUS : Reg := Bank.EVR_STATUS.at 0 0
/-- EVR_SEQ. -/
def EVR_SEQ : Reg := Bank.EVR_SEQ.at 0 0
/-- EVR_OLDEST. -/
def EVR_OLDEST : Reg := Bank.EVR_OLDEST.at 0 0
/-- EVR_EPOCH. -/
def EVR_EPOCH : Reg := Bank.EVR_EPOCH.at 0 0
/-- EVR_UNFLUSHED. -/
def EVR_UNFLUSHED : Reg := Bank.EVR_UNFLUSHED.at 0 0
/-- EVR_ALARM. -/
def EVR_ALARM : Reg := Bank.EVR_ALARM.at 0 0
/-- EVR_ALARM_MASK. -/
def EVR_ALARM_MASK : Reg := Bank.EVR_ALARM_MASK.at 0 0
/-- EVR_RATE of index `i`. -/
def EVR_RATE (i : Nat) : Reg := Bank.EVR_RATE.at i 0
/-- CTL_RING_CMD_BASE of index `i`. -/
def CTL_RING_CMD_BASE (i : Nat) : Reg := Bank.CTL_RING_CMD_BASE.at i 0
/-- CTL_RING_RPL_BASE of index `i`. -/
def CTL_RING_RPL_BASE (i : Nat) : Reg := Bank.CTL_RING_RPL_BASE.at i 0
/-- CTL_RING_DATA_BASE of index `i`. -/
def CTL_RING_DATA_BASE (i : Nat) : Reg := Bank.CTL_RING_DATA_BASE.at i 0
/-- CTL_RING_TAIL_ADDR of index `i`. -/
def CTL_RING_TAIL_ADDR (i : Nat) : Reg := Bank.CTL_RING_TAIL_ADDR.at i 0
/-- CTL_RING_CFG of index `i`. -/
def CTL_RING_CFG (i : Nat) : Reg := Bank.CTL_RING_CFG.at i 0
/-- CTL_RING_STATUS of index `i`. -/
def CTL_RING_STATUS (i : Nat) : Reg := Bank.CTL_RING_STATUS.at i 0
/-- CTL_RING_DB of index `i`. -/
def CTL_RING_DB (i : Nat) : Reg := Bank.CTL_RING_DB.at i 0
/-- CTL_RING_RPL_HEAD of index `i`. -/
def CTL_RING_RPL_HEAD (i : Nat) : Reg := Bank.CTL_RING_RPL_HEAD.at i 0
/-- CTL_STATUS. -/
def CTL_STATUS : Reg := Bank.CTL_STATUS.at 0 0
/-- CTL_FW_BEAT. -/
def CTL_FW_BEAT : Reg := Bank.CTL_FW_BEAT.at 0 0
/-- BOOT_STATUS. -/
def BOOT_STATUS : Reg := Bank.BOOT_STATUS.at 0 0
/-- BOOT_RESET_CAUSE. -/
def BOOT_RESET_CAUSE : Reg := Bank.BOOT_RESET_CAUSE.at 0 0
/-- BOOT_FW_VER. -/
def BOOT_FW_VER : Reg := Bank.BOOT_FW_VER.at 0 0
/-- BOOT_WDT_CFG. -/
def BOOT_WDT_CFG : Reg := Bank.BOOT_WDT_CFG.at 0 0
/-- BOOT_FIELD_STATUS. -/
def BOOT_FIELD_STATUS : Reg := Bank.BOOT_FIELD_STATUS.at 0 0
/-- BOOT_FIELD_CFG. -/
def BOOT_FIELD_CFG : Reg := Bank.BOOT_FIELD_CFG.at 0 0
/-- BOOT_UID of index `i`. -/
def BOOT_UID (i : Nat) : Reg := Bank.BOOT_UID.at i 0
/-- BOOT_RCV_ADDR. -/
def BOOT_RCV_ADDR : Reg := Bank.BOOT_RCV_ADDR.at 0 0
/-- BOOT_RCV_LEN. -/
def BOOT_RCV_LEN : Reg := Bank.BOOT_RCV_LEN.at 0 0
/-- BOOT_RCV_CTL. -/
def BOOT_RCV_CTL : Reg := Bank.BOOT_RCV_CTL.at 0 0
/-- PWR_DOM_ON of index `i`. -/
def PWR_DOM_ON (i : Nat) : Reg := Bank.PWR_DOM_ON.at i 0
/-- PWR_DOM_READY of index `i`. -/
def PWR_DOM_READY (i : Nat) : Reg := Bank.PWR_DOM_READY.at i 0
/-- PWR_STATUS. -/
def PWR_STATUS : Reg := Bank.PWR_STATUS.at 0 0
/-- PWR_RAIL of index `i`. -/
def PWR_RAIL (i : Nat) : Reg := Bank.PWR_RAIL.at i 0
/-- PWR_TEMP of index `i`. -/
def PWR_TEMP (i : Nat) : Reg := Bank.PWR_TEMP.at i 0
/-- PWR_TOTAL. -/
def PWR_TOTAL : Reg := Bank.PWR_TOTAL.at 0 0
/-- PWR_CABLE_CFG. -/
def PWR_CABLE_CFG : Reg := Bank.PWR_CABLE_CFG.at 0 0
/-- PWR_CABLE of index `i`. -/
def PWR_CABLE (i : Nat) : Reg := Bank.PWR_CABLE.at i 0
/-- DIG_CFG. -/
def DIG_CFG : Reg := Bank.DIG_CFG.at 0 0
/-- DIG_KS_CMD of index `i`. -/
def DIG_KS_CMD (i : Nat) : Reg := Bank.DIG_KS_CMD.at i 0
/-- DIG_KS_STATUS of index `i`. -/
def DIG_KS_STATUS (i : Nat) : Reg := Bank.DIG_KS_STATUS.at i 0
/-- DMA_WIN_BASE of index `i`. -/
def DMA_WIN_BASE (i : Nat) : Reg := Bank.DMA_WIN_BASE.at i 0
/-- DMA_CH_ACTIVE_SRC of index `i`. -/
def DMA_CH_ACTIVE_SRC (i : Nat) : Reg := Bank.DMA_CH_ACTIVE_SRC.at i 0
/-- DMA_CH_ACTIVE_DST of index `i`. -/
def DMA_CH_ACTIVE_DST (i : Nat) : Reg := Bank.DMA_CH_ACTIVE_DST.at i 0
/-- DMA_CH_ACTIVE_LEN of index `i`. -/
def DMA_CH_ACTIVE_LEN (i : Nat) : Reg := Bank.DMA_CH_ACTIVE_LEN.at i 0
/-- DMA_CH_ACTIVE_MODE of index `i`. -/
def DMA_CH_ACTIVE_MODE (i : Nat) : Reg := Bank.DMA_CH_ACTIVE_MODE.at i 0
/-- SLU_ADMIT_CNT. -/
def SLU_ADMIT_CNT : Reg := Bank.SLU_ADMIT_CNT.at 0 0
/-- SLU_REJECT_CNT. -/
def SLU_REJECT_CNT : Reg := Bank.SLU_REJECT_CNT.at 0 0
/-- SLU_MISS_CNT. -/
def SLU_MISS_CNT : Reg := Bank.SLU_MISS_CNT.at 0 0
/-- SLU_TIME_REJ_CNT. -/
def SLU_TIME_REJ_CNT : Reg := Bank.SLU_TIME_REJ_CNT.at 0 0
/-- SLU_BE_CNT. -/
def SLU_BE_CNT : Reg := Bank.SLU_BE_CNT.at 0 0
/-- HQ_CMD_CNT. -/
def HQ_CMD_CNT : Reg := Bank.HQ_CMD_CNT.at 0 0
/-- HQ_LEN_ERR_CNT. -/
def HQ_LEN_ERR_CNT : Reg := Bank.HQ_LEN_ERR_CNT.at 0 0
/-- HQ_LOCK_STALL_CNT. -/
def HQ_LOCK_STALL_CNT : Reg := Bank.HQ_LOCK_STALL_CNT.at 0 0
/-- HQ_ORD_WAIT_CNT. -/
def HQ_ORD_WAIT_CNT : Reg := Bank.HQ_ORD_WAIT_CNT.at 0 0
/-- HQ_DB_DROP_CNT. -/
def HQ_DB_DROP_CNT : Reg := Bank.HQ_DB_DROP_CNT.at 0 0
/-- HQ_DB_INVALID_CNT. -/
def HQ_DB_INVALID_CNT : Reg := Bank.HQ_DB_INVALID_CNT.at 0 0
/-- XPT_RX_PKT_CNT. -/
def XPT_RX_PKT_CNT : Reg := Bank.XPT_RX_PKT_CNT.at 0 0
/-- XPT_TX_PKT_CNT. -/
def XPT_TX_PKT_CNT : Reg := Bank.XPT_TX_PKT_CNT.at 0 0
/-- XPT_CTX_MISS_CNT. -/
def XPT_CTX_MISS_CNT : Reg := Bank.XPT_CTX_MISS_CNT.at 0 0
/-- XPT_CTX_EVICT_CNT. -/
def XPT_CTX_EVICT_CNT : Reg := Bank.XPT_CTX_EVICT_CNT.at 0 0
/-- XPT_DUP_PKT_CNT. -/
def XPT_DUP_PKT_CNT : Reg := Bank.XPT_DUP_PKT_CNT.at 0 0
/-- XPT_PSN_AMBIG_CNT. -/
def XPT_PSN_AMBIG_CNT : Reg := Bank.XPT_PSN_AMBIG_CNT.at 0 0
/-- XPT_SEQ_NAK_TX_CNT. -/
def XPT_SEQ_NAK_TX_CNT : Reg := Bank.XPT_SEQ_NAK_TX_CNT.at 0 0
/-- XPT_SEQ_NAK_RX_CNT. -/
def XPT_SEQ_NAK_RX_CNT : Reg := Bank.XPT_SEQ_NAK_RX_CNT.at 0 0
/-- XPT_RETX_CNT. -/
def XPT_RETX_CNT : Reg := Bank.XPT_RETX_CNT.at 0 0
/-- XPT_TIMEOUT_CNT. -/
def XPT_TIMEOUT_CNT : Reg := Bank.XPT_TIMEOUT_CNT.at 0 0
/-- XPT_RNR_NAK_TX_CNT. -/
def XPT_RNR_NAK_TX_CNT : Reg := Bank.XPT_RNR_NAK_TX_CNT.at 0 0
/-- XPT_INV_REQ_NAK_TX_CNT. -/
def XPT_INV_REQ_NAK_TX_CNT : Reg := Bank.XPT_INV_REQ_NAK_TX_CNT.at 0 0
/-- XPT_RACC_NAK_TX_CNT. -/
def XPT_RACC_NAK_TX_CNT : Reg := Bank.XPT_RACC_NAK_TX_CNT.at 0 0
/-- XPT_QP_FAIL_CNT. -/
def XPT_QP_FAIL_CNT : Reg := Bank.XPT_QP_FAIL_CNT.at 0 0
/-- XPT_ICRC_ERR_CNT. -/
def XPT_ICRC_ERR_CNT : Reg := Bank.XPT_ICRC_ERR_CNT.at 0 0
/-- XPT_ECN_CE_RX_CNT. -/
def XPT_ECN_CE_RX_CNT : Reg := Bank.XPT_ECN_CE_RX_CNT.at 0 0
/-- XPT_CNP_TX_CNT. -/
def XPT_CNP_TX_CNT : Reg := Bank.XPT_CNP_TX_CNT.at 0 0
/-- XPT_CNP_RX_CNT. -/
def XPT_CNP_RX_CNT : Reg := Bank.XPT_CNP_RX_CNT.at 0 0
/-- XPT_PFC_STORM_CNT. -/
def XPT_PFC_STORM_CNT : Reg := Bank.XPT_PFC_STORM_CNT.at 0 0
/-- XPT_RD_RESP_DISCARD_CNT. -/
def XPT_RD_RESP_DISCARD_CNT : Reg := Bank.XPT_RD_RESP_DISCARD_CNT.at 0 0
/-- BRN_ENTRY_CNT. -/
def BRN_ENTRY_CNT : Reg := Bank.BRN_ENTRY_CNT.at 0 0
/-- BRN_DISCARD_CNT. -/
def BRN_DISCARD_CNT : Reg := Bank.BRN_DISCARD_CNT.at 0 0
/-- BRN_WAIT_CNT. -/
def BRN_WAIT_CNT : Reg := Bank.BRN_WAIT_CNT.at 0 0
/-- BRN_BACKLOG_HOLD_CNT. -/
def BRN_BACKLOG_HOLD_CNT : Reg := Bank.BRN_BACKLOG_HOLD_CNT.at 0 0
/-- BRN_MIRROR_BYTE_CNT. -/
def BRN_MIRROR_BYTE_CNT : Reg := Bank.BRN_MIRROR_BYTE_CNT.at 0 0
/-- BRN_MIRROR_RESEND_CNT. -/
def BRN_MIRROR_RESEND_CNT : Reg := Bank.BRN_MIRROR_RESEND_CNT.at 0 0
/-- BRN_BRINE_READ_CNT. -/
def BRN_BRINE_READ_CNT : Reg := Bank.BRN_BRINE_READ_CNT.at 0 0
/-- BRN_DUMP_CNT. -/
def BRN_DUMP_CNT : Reg := Bank.BRN_DUMP_CNT.at 0 0
/-- BRN_REPLAY_REC_CNT. -/
def BRN_REPLAY_REC_CNT : Reg := Bank.BRN_REPLAY_REC_CNT.at 0 0
/-- RED_GRAIN_CNT. -/
def RED_GRAIN_CNT : Reg := Bank.RED_GRAIN_CNT.at 0 0
/-- RED_ZERO_CNT. -/
def RED_ZERO_CNT : Reg := Bank.RED_ZERO_CNT.at 0 0
/-- RED_FP_CNT. -/
def RED_FP_CNT : Reg := Bank.RED_FP_CNT.at 0 0
/-- RED_TAG_MATCH_CNT. -/
def RED_TAG_MATCH_CNT : Reg := Bank.RED_TAG_MATCH_CNT.at 0 0
/-- RED_FALSE_MATCH_CNT. -/
def RED_FALSE_MATCH_CNT : Reg := Bank.RED_FALSE_MATCH_CNT.at 0 0
/-- RED_DUP_CNT. -/
def RED_DUP_CNT : Reg := Bank.RED_DUP_CNT.at 0 0
/-- RED_NEW_CNT. -/
def RED_NEW_CNT : Reg := Bank.RED_NEW_CNT.at 0 0
/-- RED_EVICT_CNT. -/
def RED_EVICT_CNT : Reg := Bank.RED_EVICT_CNT.at 0 0
/-- RED_REF_FULL_CNT. -/
def RED_REF_FULL_CNT : Reg := Bank.RED_REF_FULL_CNT.at 0 0
/-- RED_CONFIRM_FAIL_CNT. -/
def RED_CONFIRM_FAIL_CNT : Reg := Bank.RED_CONFIRM_FAIL_CNT.at 0 0
/-- RED_REISSUE_CNT. -/
def RED_REISSUE_CNT : Reg := Bank.RED_REISSUE_CNT.at 0 0
/-- RED_SEAL_CNT. -/
def RED_SEAL_CNT : Reg := Bank.RED_SEAL_CNT.at 0 0
/-- RED_PAD_CRUMB_CNT. -/
def RED_PAD_CRUMB_CNT : Reg := Bank.RED_PAD_CRUMB_CNT.at 0 0
/-- CMP_GRAIN_CNT. -/
def CMP_GRAIN_CNT : Reg := Bank.CMP_GRAIN_CNT.at 0 0
/-- CMP_STORED_CNT. -/
def CMP_STORED_CNT : Reg := Bank.CMP_STORED_CNT.at 0 0
/-- CMP_IN_BYTE_CNT. -/
def CMP_IN_BYTE_CNT : Reg := Bank.CMP_IN_BYTE_CNT.at 0 0
/-- CMP_OUT_BYTE_CNT. -/
def CMP_OUT_BYTE_CNT : Reg := Bank.CMP_OUT_BYTE_CNT.at 0 0
/-- DCMP_GRAIN_CNT. -/
def DCMP_GRAIN_CNT : Reg := Bank.DCMP_GRAIN_CNT.at 0 0
/-- DCMP_CHECK_FAIL_CNT. -/
def DCMP_CHECK_FAIL_CNT : Reg := Bank.DCMP_CHECK_FAIL_CNT.at 0 0
/-- OFF_CJOB_CNT. -/
def OFF_CJOB_CNT : Reg := Bank.OFF_CJOB_CNT.at 0 0
/-- OFF_DJOB_CNT. -/
def OFF_DJOB_CNT : Reg := Bank.OFF_DJOB_CNT.at 0 0
/-- OFF_ERR_CNT. -/
def OFF_ERR_CNT : Reg := Bank.OFF_ERR_CNT.at 0 0
/-- OFF_REISSUE_CNT. -/
def OFF_REISSUE_CNT : Reg := Bank.OFF_REISSUE_CNT.at 0 0
/-- CIP_SEG_CNT. -/
def CIP_SEG_CNT : Reg := Bank.CIP_SEG_CNT.at 0 0
/-- CIP_BYTE_CNT. -/
def CIP_BYTE_CNT : Reg := Bank.CIP_BYTE_CNT.at 0 0
/-- CIP_SAVE_CNT. -/
def CIP_SAVE_CNT : Reg := Bank.CIP_SAVE_CNT.at 0 0
/-- CIP_RESTORE_CNT. -/
def CIP_RESTORE_CNT : Reg := Bank.CIP_RESTORE_CNT.at 0 0
/-- CIP_AUTH_FAIL_CNT. -/
def CIP_AUTH_FAIL_CNT : Reg := Bank.CIP_AUTH_FAIL_CNT.at 0 0
/-- CIP_REISSUE_CNT. -/
def CIP_REISSUE_CNT : Reg := Bank.CIP_REISSUE_CNT.at 0 0
/-- CIP_ALARM_CNT. -/
def CIP_ALARM_CNT : Reg := Bank.CIP_ALARM_CNT.at 0 0
/-- CIP_JOB_ERR_CNT. -/
def CIP_JOB_ERR_CNT : Reg := Bank.CIP_JOB_ERR_CNT.at 0 0
/-- MED_RECON_CNT. -/
def MED_RECON_CNT : Reg := Bank.MED_RECON_CNT.at 0 0
/-- MED_RECON_UP_CNT. -/
def MED_RECON_UP_CNT : Reg := Bank.MED_RECON_UP_CNT.at 0 0
/-- MED_RECON_FAIL_CNT. -/
def MED_RECON_FAIL_CNT : Reg := Bank.MED_RECON_FAIL_CNT.at 0 0
/-- MED_SLOW_REISSUE_CNT. -/
def MED_SLOW_REISSUE_CNT : Reg := Bank.MED_SLOW_REISSUE_CNT.at 0 0
/-- MED_LEAF_FAIL_CNT. -/
def MED_LEAF_FAIL_CNT : Reg := Bank.MED_LEAF_FAIL_CNT.at 0 0
/-- MED_SUBST_CNT. -/
def MED_SUBST_CNT : Reg := Bank.MED_SUBST_CNT.at 0 0
/-- MED_REBUILD_BYTE_CNT. -/
def MED_REBUILD_BYTE_CNT : Reg := Bank.MED_REBUILD_BYTE_CNT.at 0 0
/-- MED_PROXY_CMD_CNT. -/
def MED_PROXY_CMD_CNT : Reg := Bank.MED_PROXY_CMD_CNT.at 0 0
/-- FTL_GRANT_CNT. -/
def FTL_GRANT_CNT : Reg := Bank.FTL_GRANT_CNT.at 0 0
/-- FTL_ROW_CLOSE_CNT. -/
def FTL_ROW_CLOSE_CNT : Reg := Bank.FTL_ROW_CLOSE_CNT.at 0 0
/-- FTL_ROW_VOID_CNT. -/
def FTL_ROW_VOID_CNT : Reg := Bank.FTL_ROW_VOID_CNT.at 0 0
/-- FTL_MAP_MEDIA_CNT. -/
def FTL_MAP_MEDIA_CNT : Reg := Bank.FTL_MAP_MEDIA_CNT.at 0 0
/-- FTL_CKPT_CNT. -/
def FTL_CKPT_CNT : Reg := Bank.FTL_CKPT_CNT.at 0 0
/-- FTL_UNC_CNT. -/
def FTL_UNC_CNT : Reg := Bank.FTL_UNC_CNT.at 0 0
/-- FTL_RESUME_KEEP_CNT. -/
def FTL_RESUME_KEEP_CNT : Reg := Bank.FTL_RESUME_KEEP_CNT.at 0 0
/-- FTL_HARV_VICTIM_CNT. -/
def FTL_HARV_VICTIM_CNT : Reg := Bank.FTL_HARV_VICTIM_CNT.at 0 0
/-- FTL_HARV_CRUMB_CNT. -/
def FTL_HARV_CRUMB_CNT : Reg := Bank.FTL_HARV_CRUMB_CNT.at 0 0
/-- FTL_HARV_COMMIT_CNT. -/
def FTL_HARV_COMMIT_CNT : Reg := Bank.FTL_HARV_COMMIT_CNT.at 0 0
/-- FTL_HARV_SKIP_CNT. -/
def FTL_HARV_SKIP_CNT : Reg := Bank.FTL_HARV_SKIP_CNT.at 0 0
/-- FTL_ERASE_CNT. -/
def FTL_ERASE_CNT : Reg := Bank.FTL_ERASE_CNT.at 0 0
/-- FTL_SCRUB_CNT. -/
def FTL_SCRUB_CNT : Reg := Bank.FTL_SCRUB_CNT.at 0 0
/-- FTL_REFRESH_CNT. -/
def FTL_REFRESH_CNT : Reg := Bank.FTL_REFRESH_CNT.at 0 0
/-- FTL_RETIRE_CNT. -/
def FTL_RETIRE_CNT : Reg := Bank.FTL_RETIRE_CNT.at 0 0
/-- FTL_ORPHAN_CNT. -/
def FTL_ORPHAN_CNT : Reg := Bank.FTL_ORPHAN_CNT.at 0 0
/-- FTL_SDEAL_GRAIN_CNT. -/
def FTL_SDEAL_GRAIN_CNT : Reg := Bank.FTL_SDEAL_GRAIN_CNT.at 0 0
/-- LNK_CMD_CNT. -/
def LNK_CMD_CNT : Reg := Bank.LNK_CMD_CNT.at 0 0
/-- LNK_CPL_ERR_CNT. -/
def LNK_CPL_ERR_CNT : Reg := Bank.LNK_CPL_ERR_CNT.at 0 0
/-- LNK_REPLAY_CNT. -/
def LNK_REPLAY_CNT : Reg := Bank.LNK_REPLAY_CNT.at 0 0
/-- LNK_LINK_DOWN_CNT. -/
def LNK_LINK_DOWN_CNT : Reg := Bank.LNK_LINK_DOWN_CNT.at 0 0
/-- LNK_FENCED_CNT. -/
def LNK_FENCED_CNT : Reg := Bank.LNK_FENCED_CNT.at 0 0
/-- LNK_BUSY_CNT. -/
def LNK_BUSY_CNT : Reg := Bank.LNK_BUSY_CNT.at 0 0
/-- LNK_EVENT_RX_CNT. -/
def LNK_EVENT_RX_CNT : Reg := Bank.LNK_EVENT_RX_CNT.at 0 0
/-- LNK_LOST_CPL_CNT. -/
def LNK_LOST_CPL_CNT : Reg := Bank.LNK_LOST_CPL_CNT.at 0 0
/-- SNAP_CUT_CNT. -/
def SNAP_CUT_CNT : Reg := Bank.SNAP_CUT_CNT.at 0 0
/-- SNAP_MISS_CNT. -/
def SNAP_MISS_CNT : Reg := Bank.SNAP_MISS_CNT.at 0 0
/-- SNAP_COW_PAGE_CNT. -/
def SNAP_COW_PAGE_CNT : Reg := Bank.SNAP_COW_PAGE_CNT.at 0 0
/-- REPL_MSG_TX_CNT. -/
def REPL_MSG_TX_CNT : Reg := Bank.REPL_MSG_TX_CNT.at 0 0
/-- REPL_BYTE_TX_CNT. -/
def REPL_BYTE_TX_CNT : Reg := Bank.REPL_BYTE_TX_CNT.at 0 0
/-- REPL_MSG_RX_CNT. -/
def REPL_MSG_RX_CNT : Reg := Bank.REPL_MSG_RX_CNT.at 0 0
/-- REPL_AUTH_FAIL_CNT. -/
def REPL_AUTH_FAIL_CNT : Reg := Bank.REPL_AUTH_FAIL_CNT.at 0 0
/-- REPL_SUSPEND_CNT. -/
def REPL_SUSPEND_CNT : Reg := Bank.REPL_SUSPEND_CNT.at 0 0
/-- REPL_SKIP_CNT. -/
def REPL_SKIP_CNT : Reg := Bank.REPL_SKIP_CNT.at 0 0
/-- PAIR_HB_TX_CNT. -/
def PAIR_HB_TX_CNT : Reg := Bank.PAIR_HB_TX_CNT.at 0 0
/-- PAIR_SUSPECT_CNT. -/
def PAIR_SUSPECT_CNT : Reg := Bank.PAIR_SUSPECT_CNT.at 0 0
/-- PAIR_ELECT_WIN_CNT. -/
def PAIR_ELECT_WIN_CNT : Reg := Bank.PAIR_ELECT_WIN_CNT.at 0 0
/-- PAIR_ELECT_LOSS_CNT. -/
def PAIR_ELECT_LOSS_CNT : Reg := Bank.PAIR_ELECT_LOSS_CNT.at 0 0
/-- PAIR_RESEND_CNT. -/
def PAIR_RESEND_CNT : Reg := Bank.PAIR_RESEND_CNT.at 0 0
/-- PAIR_JOURNAL_RX_CNT. -/
def PAIR_JOURNAL_RX_CNT : Reg := Bank.PAIR_JOURNAL_RX_CNT.at 0 0
/-- PAIR_PROXY_RX_CNT. -/
def PAIR_PROXY_RX_CNT : Reg := Bank.PAIR_PROXY_RX_CNT.at 0 0
/-- PAIR_MOVE_CNT. -/
def PAIR_MOVE_CNT : Reg := Bank.PAIR_MOVE_CNT.at 0 0
/-- PAIR_DISCARD_CNT. -/
def PAIR_DISCARD_CNT : Reg := Bank.PAIR_DISCARD_CNT.at 0 0
/-- MEM_HBM_CE_CNT. -/
def MEM_HBM_CE_CNT : Reg := Bank.MEM_HBM_CE_CNT.at 0 0
/-- MEM_HBM_UE_CNT. -/
def MEM_HBM_UE_CNT : Reg := Bank.MEM_HBM_UE_CNT.at 0 0
/-- MEM_DDR_CE_CNT. -/
def MEM_DDR_CE_CNT : Reg := Bank.MEM_DDR_CE_CNT.at 0 0
/-- MEM_DDR_UE_CNT. -/
def MEM_DDR_UE_CNT : Reg := Bank.MEM_DDR_UE_CNT.at 0 0
/-- MEM_PAGE_REREAD_CNT. -/
def MEM_PAGE_REREAD_CNT : Reg := Bank.MEM_PAGE_REREAD_CNT.at 0 0
/-- MEM_CACHE_HIT_BOOK_CNT. -/
def MEM_CACHE_HIT_BOOK_CNT : Reg := Bank.MEM_CACHE_HIT_BOOK_CNT.at 0 0
/-- LLC_HIT_CNT. -/
def LLC_HIT_CNT : Reg := Bank.LLC_HIT_CNT.at 0 0
/-- LLC_MISS_CNT. -/
def LLC_MISS_CNT : Reg := Bank.LLC_MISS_CNT.at 0 0
/-- LLC_TAG_PAR_CNT. -/
def LLC_TAG_PAR_CNT : Reg := Bank.LLC_TAG_PAR_CNT.at 0 0
/-- LLC_DATA_CE_CNT. -/
def LLC_DATA_CE_CNT : Reg := Bank.LLC_DATA_CE_CNT.at 0 0
/-- LLC_DATA_UE_CNT. -/
def LLC_DATA_UE_CNT : Reg := Bank.LLC_DATA_UE_CNT.at 0 0
/-- SFL_PROG_CNT. -/
def SFL_PROG_CNT : Reg := Bank.SFL_PROG_CNT.at 0 0
/-- SFL_ERASE_CNT. -/
def SFL_ERASE_CNT : Reg := Bank.SFL_ERASE_CNT.at 0 0
/-- SFL_UNC_CNT. -/
def SFL_UNC_CNT : Reg := Bank.SFL_UNC_CNT.at 0 0
/-- SFL_BUS_FAULT_CNT. -/
def SFL_BUS_FAULT_CNT : Reg := Bank.SFL_BUS_FAULT_CNT.at 0 0
/-- SFL_RETIRE_CNT. -/
def SFL_RETIRE_CNT : Reg := Bank.SFL_RETIRE_CNT.at 0 0
/-- SFL_HOLD_CNT. -/
def SFL_HOLD_CNT : Reg := Bank.SFL_HOLD_CNT.at 0 0
/-- EVR_REC_CNT. -/
def EVR_REC_CNT : Reg := Bank.EVR_REC_CNT.at 0 0
/-- EVR_FOLD_CNT. -/
def EVR_FOLD_CNT : Reg := Bank.EVR_FOLD_CNT.at 0 0
/-- EVR_SAT_LOST_CNT. -/
def EVR_SAT_LOST_CNT : Reg := Bank.EVR_SAT_LOST_CNT.at 0 0
/-- EVR_RESERVE_DROP_CNT. -/
def EVR_RESERVE_DROP_CNT : Reg := Bank.EVR_RESERVE_DROP_CNT.at 0 0
/-- EVR_FROZEN_DROP_CNT. -/
def EVR_FROZEN_DROP_CNT : Reg := Bank.EVR_FROZEN_DROP_CNT.at 0 0
/-- EVR_PAGE_CNT. -/
def EVR_PAGE_CNT : Reg := Bank.EVR_PAGE_CNT.at 0 0
/-- CTL_PKT_CNT. -/
def CTL_PKT_CNT : Reg := Bank.CTL_PKT_CNT.at 0 0
/-- CTL_FAIL_CNT. -/
def CTL_FAIL_CNT : Reg := Bank.CTL_FAIL_CNT.at 0 0
/-- CTL_DB_DROP_CNT. -/
def CTL_DB_DROP_CNT : Reg := Bank.CTL_DB_DROP_CNT.at 0 0
/-- CTL_RPL_HOLD_CNT. -/
def CTL_RPL_HOLD_CNT : Reg := Bank.CTL_RPL_HOLD_CNT.at 0 0
/-- BOOT_WDT_CNT. -/
def BOOT_WDT_CNT : Reg := Bank.BOOT_WDT_CNT.at 0 0
/-- BOOT_TRIAL_FAIL_CNT. -/
def BOOT_TRIAL_FAIL_CNT : Reg := Bank.BOOT_TRIAL_FAIL_CNT.at 0 0
/-- BOOT_AUTH_FAIL_CNT. -/
def BOOT_AUTH_FAIL_CNT : Reg := Bank.BOOT_AUTH_FAIL_CNT.at 0 0
/-- PWR_SWITCH_CNT. -/
def PWR_SWITCH_CNT : Reg := Bank.PWR_SWITCH_CNT.at 0 0
/-- PWR_RAIL_WARN_CNT. -/
def PWR_RAIL_WARN_CNT : Reg := Bank.PWR_RAIL_WARN_CNT.at 0 0
/-- PWR_TEMP_WARN_CNT. -/
def PWR_TEMP_WARN_CNT : Reg := Bank.PWR_TEMP_WARN_CNT.at 0 0
/-- PWR_THROTTLE_CNT. -/
def PWR_THROTTLE_CNT : Reg := Bank.PWR_THROTTLE_CNT.at 0 0
/-- PWR_PFAIL_CNT. -/
def PWR_PFAIL_CNT : Reg := Bank.PWR_PFAIL_CNT.at 0 0
/-- XPT_P_RX_PKT_CNT of index `i`. -/
def XPT_P_RX_PKT_CNT (i : Nat) : Reg := Bank.XPT_P_RX_PKT_CNT.at i 0
/-- XPT_P_TX_PKT_CNT of index `i`. -/
def XPT_P_TX_PKT_CNT (i : Nat) : Reg := Bank.XPT_P_TX_PKT_CNT.at i 0
/-- XPT_P_CTX_MISS_CNT of index `i`. -/
def XPT_P_CTX_MISS_CNT (i : Nat) : Reg := Bank.XPT_P_CTX_MISS_CNT.at i 0
/-- XPT_P_CTX_EVICT_CNT of index `i`. -/
def XPT_P_CTX_EVICT_CNT (i : Nat) : Reg := Bank.XPT_P_CTX_EVICT_CNT.at i 0
/-- XPT_P_DUP_PKT_CNT of index `i`. -/
def XPT_P_DUP_PKT_CNT (i : Nat) : Reg := Bank.XPT_P_DUP_PKT_CNT.at i 0
/-- XPT_P_PSN_AMBIG_CNT of index `i`. -/
def XPT_P_PSN_AMBIG_CNT (i : Nat) : Reg := Bank.XPT_P_PSN_AMBIG_CNT.at i 0
/-- XPT_P_SEQ_NAK_TX_CNT of index `i`. -/
def XPT_P_SEQ_NAK_TX_CNT (i : Nat) : Reg := Bank.XPT_P_SEQ_NAK_TX_CNT.at i 0
/-- XPT_P_SEQ_NAK_RX_CNT of index `i`. -/
def XPT_P_SEQ_NAK_RX_CNT (i : Nat) : Reg := Bank.XPT_P_SEQ_NAK_RX_CNT.at i 0
/-- XPT_P_RETX_CNT of index `i`. -/
def XPT_P_RETX_CNT (i : Nat) : Reg := Bank.XPT_P_RETX_CNT.at i 0
/-- XPT_P_TIMEOUT_CNT of index `i`. -/
def XPT_P_TIMEOUT_CNT (i : Nat) : Reg := Bank.XPT_P_TIMEOUT_CNT.at i 0
/-- XPT_P_RNR_NAK_TX_CNT of index `i`. -/
def XPT_P_RNR_NAK_TX_CNT (i : Nat) : Reg := Bank.XPT_P_RNR_NAK_TX_CNT.at i 0
/-- XPT_P_INV_REQ_NAK_TX_CNT of index `i`. -/
def XPT_P_INV_REQ_NAK_TX_CNT (i : Nat) : Reg := Bank.XPT_P_INV_REQ_NAK_TX_CNT.at i 0
/-- XPT_P_RACC_NAK_TX_CNT of index `i`. -/
def XPT_P_RACC_NAK_TX_CNT (i : Nat) : Reg := Bank.XPT_P_RACC_NAK_TX_CNT.at i 0
/-- XPT_P_QP_FAIL_CNT of index `i`. -/
def XPT_P_QP_FAIL_CNT (i : Nat) : Reg := Bank.XPT_P_QP_FAIL_CNT.at i 0
/-- XPT_P_ICRC_ERR_CNT of index `i`. -/
def XPT_P_ICRC_ERR_CNT (i : Nat) : Reg := Bank.XPT_P_ICRC_ERR_CNT.at i 0
/-- XPT_P_ECN_CE_RX_CNT of index `i`. -/
def XPT_P_ECN_CE_RX_CNT (i : Nat) : Reg := Bank.XPT_P_ECN_CE_RX_CNT.at i 0
/-- XPT_P_CNP_TX_CNT of index `i`. -/
def XPT_P_CNP_TX_CNT (i : Nat) : Reg := Bank.XPT_P_CNP_TX_CNT.at i 0
/-- XPT_P_CNP_RX_CNT of index `i`. -/
def XPT_P_CNP_RX_CNT (i : Nat) : Reg := Bank.XPT_P_CNP_RX_CNT.at i 0
/-- XPT_P_PFC_STORM_CNT of index `i`. -/
def XPT_P_PFC_STORM_CNT (i : Nat) : Reg := Bank.XPT_P_PFC_STORM_CNT.at i 0
/-- XPT_P_RD_RESP_DISCARD_CNT of index `i`. -/
def XPT_P_RD_RESP_DISCARD_CNT (i : Nat) : Reg := Bank.XPT_P_RD_RESP_DISCARD_CNT.at i 0
/-- DIG_SEG_CNT. -/
def DIG_SEG_CNT : Reg := Bank.DIG_SEG_CNT.at 0 0
/-- DIG_BYTE_CNT. -/
def DIG_BYTE_CNT : Reg := Bank.DIG_BYTE_CNT.at 0 0
/-- DIG_SAVE_CNT. -/
def DIG_SAVE_CNT : Reg := Bank.DIG_SAVE_CNT.at 0 0
/-- DIG_RESTORE_CNT. -/
def DIG_RESTORE_CNT : Reg := Bank.DIG_RESTORE_CNT.at 0 0
/-- DIG_AUTH_FAIL_CNT. -/
def DIG_AUTH_FAIL_CNT : Reg := Bank.DIG_AUTH_FAIL_CNT.at 0 0
/-- DIG_REISSUE_CNT. -/
def DIG_REISSUE_CNT : Reg := Bank.DIG_REISSUE_CNT.at 0 0
/-- DIG_ALARM_CNT. -/
def DIG_ALARM_CNT : Reg := Bank.DIG_ALARM_CNT.at 0 0
/-- DIG_JOB_ERR_CNT. -/
def DIG_JOB_ERR_CNT : Reg := Bank.DIG_JOB_ERR_CNT.at 0 0
/-- SLU_REJ_CNT_N of index `i`. -/
def SLU_REJ_CNT_N (i : Nat) : Reg := Bank.SLU_REJ_CNT_N.at i 0
/-- SLU_MISS_CNT_N of index `i`. -/
def SLU_MISS_CNT_N (i : Nat) : Reg := Bank.SLU_MISS_CNT_N.at i 0
/-- FTL_RETRY_LVL_CNT of index `i`. -/
def FTL_RETRY_LVL_CNT (i : Nat) : Reg := Bank.FTL_RETRY_LVL_CNT.at i 0
/-- SFL_RETRY_LVL_CNT of index `i`. -/
def SFL_RETRY_LVL_CNT (i : Nat) : Reg := Bank.SFL_RETRY_LVL_CNT.at i 0
/-- EVR_DROP_CNT of index `i`. -/
def EVR_DROP_CNT (i : Nat) : Reg := Bank.EVR_DROP_CNT.at i 0
/-- DMA_XFER_CNT. -/
def DMA_XFER_CNT : Reg := Bank.DMA_XFER_CNT.at 0 0
/-- DMA_BYTE_CNT. -/
def DMA_BYTE_CNT : Reg := Bank.DMA_BYTE_CNT.at 0 0
/-- DMA_ERR_CNT. -/
def DMA_ERR_CNT : Reg := Bank.DMA_ERR_CNT.at 0 0

end R

/-- Register banks, part 0. -/
def regBanks0 : List RegBank :=
  [Bank.TOP_DEVICE_ID, Bank.TOP_HEAD_INFO, Bank.TIDE_TIME, Bank.TIDE_CFG, Bank.TIDE_STATUS, Bank.TIDE_ERR_EST, Bank.TIDE_HOLD_CFG, Bank.TIDE_DIE_SHARE, Bank.TIDE_SLOT_NOW, Bank.TIDE_STEP_CNT, Bank.TIDE_HOLDOVER_CNT, Bank.SLU_ADMIT_CFG, Bank.SLU_ICL_PROXY_RSV, Bank.SLU_STATUS, Bank.SLU_INFLIGHT, Bank.HQ_CFG, Bank.HQ_LOCK_CFG, Bank.HQ_LOCK_STATUS, Bank.HQ_QCTX_STATUS, Bank.XPT_CFG, Bank.XPT_RC_CFG, Bank.XPT_PRIV_CFG, Bank.XPT_CC_CFG0, Bank.XPT_CC_CFG1, Bank.XPT_CC_CFG2]
/-- Register banks, part 1. -/
def regBanks1 : List RegBank :=
  [Bank.XPT_PFC_CFG, Bank.XPT_CTX_STATUS, Bank.XPT_MKEY_STATUS, Bank.XPT_MKEY_REVOKING, Bank.BRN_CFG, Bank.BRN_LIMIT, Bank.BRN_DL_RSV, Bank.BRN_MIRROR_BACKLOG, Bank.BRN_STATUS, Bank.BRN_FREE, Bank.BRN_DUMP_EST, Bank.BRN_JSEQ, Bank.BRN_DURABLE, Bank.BRN_LOST_FROM, Bank.RED_CFG, Bank.RED_STATUS, Bank.RED_INDEX_USED, Bank.CMP_CFG, Bank.CMP_GEN, Bank.CMP_STATUS, Bank.CIP_KP_CFG, Bank.CIP_KP_CMD, Bank.CIP_KP_STATUS, Bank.CIP_KP_SALT, Bank.CIP_KP_INVOC]
/-- Register banks, part 2. -/
def regBanks2 : List RegBank :=
  [Bank.CIP_KP_KEY, Bank.DIG_KS_CFG, Bank.DIG_KS_KEYLEN, Bank.DIG_KS_KEY, Bank.CIP_CFG, Bank.CIP_STATUS, Bank.CIP_ALARM, Bank.CIP_ALARM_CTL, Bank.DIG_STATUS, Bank.MED_CFG, Bank.MED_FAULT_CFG, Bank.MED_STATUS, Bank.MED_PAN_STATUS, Bank.MED_PROXY, Bank.MED_UDT_STATUS, Bank.FTL_STREAM_CFG, Bank.FTL_SLC_CFG, Bank.FTL_CKPT_CFG, Bank.FTL_RETRY_CFG, Bank.FTL_STATUS, Bank.FTL_SLC_TARGET, Bank.FTL_SLC_USED, Bank.FTL_CKPT_S0, Bank.FTL_HARV_H, Bank.FTL_HARV_NOW]
/-- Register banks, part 3. -/
def regBanks3 : List RegBank :=
  [Bank.FTL_FREE_CFG, Bank.FTL_HLTH_CFG, Bank.FTL_HARV_STATUS, Bank.FTL_FREE_BLOCKS, Bank.FTL_SCRUB_PENDING, Bank.FTL_RO_PANS, Bank.LNK_CFG, Bank.LNK_UP, Bank.LNK_HELD, Bank.LNK_PORT_STATUS, Bank.LNK_MOD_PWR, Bank.SNAP_STATUS, Bank.PAIR_CFG, Bank.PAIR_STATUS, Bank.PAIR_SHADOW_TIP, Bank.PAIR_PEER_FW, Bank.MEM_HBM_SPLIT, Bank.MEM_DDR_SPLIT, Bank.MEM_BW_CFG, Bank.MEM_STATUS, Bank.LLC_STATUS, Bank.LLC_WAY_OFF, Bank.DMA_CH_SHADOW_SRC, Bank.DMA_CH_SHADOW_DST, Bank.DMA_CH_SHADOW_LEN]
/-- Register banks, part 4. -/
def regBanks4 : List RegBank :=
  [Bank.DMA_CH_SHADOW_MODE, Bank.DMA_CH_DONE, Bank.DMA_CH_CTL, Bank.DMA_CH_STATUS, Bank.DMA_WIN_CFG, Bank.SFL_STATUS, Bank.SFL_WIN_BASE, Bank.SFL_B_ADDR, Bank.SFL_B_CMD, Bank.SFL_B_STATUS, Bank.SFL_LAST_HELD, Bank.EVR_CFG, Bank.EVR_STATUS, Bank.EVR_SEQ, Bank.EVR_OLDEST, Bank.EVR_EPOCH, Bank.EVR_UNFLUSHED, Bank.EVR_ALARM, Bank.EVR_ALARM_MASK, Bank.EVR_RATE, Bank.CTL_RING_CMD_BASE, Bank.CTL_RING_RPL_BASE, Bank.CTL_RING_DATA_BASE, Bank.CTL_RING_TAIL_ADDR, Bank.CTL_RING_CFG]
/-- Register banks, part 5. -/
def regBanks5 : List RegBank :=
  [Bank.CTL_RING_STATUS, Bank.CTL_RING_DB, Bank.CTL_RING_RPL_HEAD, Bank.CTL_STATUS, Bank.CTL_FW_BEAT, Bank.BOOT_STATUS, Bank.BOOT_RESET_CAUSE, Bank.BOOT_FW_VER, Bank.BOOT_WDT_CFG, Bank.BOOT_FIELD_STATUS, Bank.BOOT_FIELD_CFG, Bank.BOOT_UID, Bank.BOOT_RCV_ADDR, Bank.BOOT_RCV_LEN, Bank.BOOT_RCV_CTL, Bank.PWR_DOM_ON, Bank.PWR_DOM_READY, Bank.PWR_STATUS, Bank.PWR_RAIL, Bank.PWR_TEMP, Bank.PWR_TOTAL, Bank.PWR_CABLE_CFG, Bank.PWR_CABLE, Bank.DIG_CFG, Bank.DIG_KS_CMD]
/-- Register banks, part 6. -/
def regBanks6 : List RegBank :=
  [Bank.DIG_KS_STATUS, Bank.DMA_WIN_BASE, Bank.DMA_CH_ACTIVE_SRC, Bank.DMA_CH_ACTIVE_DST, Bank.DMA_CH_ACTIVE_LEN, Bank.DMA_CH_ACTIVE_MODE, Bank.SLU_ADMIT_CNT, Bank.SLU_REJECT_CNT, Bank.SLU_MISS_CNT, Bank.SLU_TIME_REJ_CNT, Bank.SLU_BE_CNT, Bank.HQ_CMD_CNT, Bank.HQ_LEN_ERR_CNT, Bank.HQ_LOCK_STALL_CNT, Bank.HQ_ORD_WAIT_CNT, Bank.HQ_DB_DROP_CNT, Bank.HQ_DB_INVALID_CNT, Bank.XPT_RX_PKT_CNT, Bank.XPT_TX_PKT_CNT, Bank.XPT_CTX_MISS_CNT, Bank.XPT_CTX_EVICT_CNT, Bank.XPT_DUP_PKT_CNT, Bank.XPT_PSN_AMBIG_CNT, Bank.XPT_SEQ_NAK_TX_CNT, Bank.XPT_SEQ_NAK_RX_CNT]
/-- Register banks, part 7. -/
def regBanks7 : List RegBank :=
  [Bank.XPT_RETX_CNT, Bank.XPT_TIMEOUT_CNT, Bank.XPT_RNR_NAK_TX_CNT, Bank.XPT_INV_REQ_NAK_TX_CNT, Bank.XPT_RACC_NAK_TX_CNT, Bank.XPT_QP_FAIL_CNT, Bank.XPT_ICRC_ERR_CNT, Bank.XPT_ECN_CE_RX_CNT, Bank.XPT_CNP_TX_CNT, Bank.XPT_CNP_RX_CNT, Bank.XPT_PFC_STORM_CNT, Bank.XPT_RD_RESP_DISCARD_CNT, Bank.BRN_ENTRY_CNT, Bank.BRN_DISCARD_CNT, Bank.BRN_WAIT_CNT, Bank.BRN_BACKLOG_HOLD_CNT, Bank.BRN_MIRROR_BYTE_CNT, Bank.BRN_MIRROR_RESEND_CNT, Bank.BRN_BRINE_READ_CNT, Bank.BRN_DUMP_CNT, Bank.BRN_REPLAY_REC_CNT, Bank.RED_GRAIN_CNT, Bank.RED_ZERO_CNT, Bank.RED_FP_CNT, Bank.RED_TAG_MATCH_CNT]
/-- Register banks, part 8. -/
def regBanks8 : List RegBank :=
  [Bank.RED_FALSE_MATCH_CNT, Bank.RED_DUP_CNT, Bank.RED_NEW_CNT, Bank.RED_EVICT_CNT, Bank.RED_REF_FULL_CNT, Bank.RED_CONFIRM_FAIL_CNT, Bank.RED_REISSUE_CNT, Bank.RED_SEAL_CNT, Bank.RED_PAD_CRUMB_CNT, Bank.CMP_GRAIN_CNT, Bank.CMP_STORED_CNT, Bank.CMP_IN_BYTE_CNT, Bank.CMP_OUT_BYTE_CNT, Bank.DCMP_GRAIN_CNT, Bank.DCMP_CHECK_FAIL_CNT, Bank.OFF_CJOB_CNT, Bank.OFF_DJOB_CNT, Bank.OFF_ERR_CNT, Bank.OFF_REISSUE_CNT, Bank.CIP_SEG_CNT, Bank.CIP_BYTE_CNT, Bank.CIP_SAVE_CNT, Bank.CIP_RESTORE_CNT, Bank.CIP_AUTH_FAIL_CNT, Bank.CIP_REISSUE_CNT]
/-- Register banks, part 9. -/
def regBanks9 : List RegBank :=
  [Bank.CIP_ALARM_CNT, Bank.CIP_JOB_ERR_CNT, Bank.MED_RECON_CNT, Bank.MED_RECON_UP_CNT, Bank.MED_RECON_FAIL_CNT, Bank.MED_SLOW_REISSUE_CNT, Bank.MED_LEAF_FAIL_CNT, Bank.MED_SUBST_CNT, Bank.MED_REBUILD_BYTE_CNT, Bank.MED_PROXY_CMD_CNT, Bank.FTL_GRANT_CNT, Bank.FTL_ROW_CLOSE_CNT, Bank.FTL_ROW_VOID_CNT, Bank.FTL_MAP_MEDIA_CNT, Bank.FTL_CKPT_CNT, Bank.FTL_UNC_CNT, Bank.FTL_RESUME_KEEP_CNT, Bank.FTL_HARV_VICTIM_CNT, Bank.FTL_HARV_CRUMB_CNT, Bank.FTL_HARV_COMMIT_CNT, Bank.FTL_HARV_SKIP_CNT, Bank.FTL_ERASE_CNT, Bank.FTL_SCRUB_CNT, Bank.FTL_REFRESH_CNT, Bank.FTL_RETIRE_CNT]
/-- Register banks, part 10. -/
def regBanks10 : List RegBank :=
  [Bank.FTL_ORPHAN_CNT, Bank.FTL_SDEAL_GRAIN_CNT, Bank.LNK_CMD_CNT, Bank.LNK_CPL_ERR_CNT, Bank.LNK_REPLAY_CNT, Bank.LNK_LINK_DOWN_CNT, Bank.LNK_FENCED_CNT, Bank.LNK_BUSY_CNT, Bank.LNK_EVENT_RX_CNT, Bank.LNK_LOST_CPL_CNT, Bank.SNAP_CUT_CNT, Bank.SNAP_MISS_CNT, Bank.SNAP_COW_PAGE_CNT, Bank.REPL_MSG_TX_CNT, Bank.REPL_BYTE_TX_CNT, Bank.REPL_MSG_RX_CNT, Bank.REPL_AUTH_FAIL_CNT, Bank.REPL_SUSPEND_CNT, Bank.REPL_SKIP_CNT, Bank.PAIR_HB_TX_CNT, Bank.PAIR_SUSPECT_CNT, Bank.PAIR_ELECT_WIN_CNT, Bank.PAIR_ELECT_LOSS_CNT, Bank.PAIR_RESEND_CNT, Bank.PAIR_JOURNAL_RX_CNT]
/-- Register banks, part 11. -/
def regBanks11 : List RegBank :=
  [Bank.PAIR_PROXY_RX_CNT, Bank.PAIR_MOVE_CNT, Bank.PAIR_DISCARD_CNT, Bank.MEM_HBM_CE_CNT, Bank.MEM_HBM_UE_CNT, Bank.MEM_DDR_CE_CNT, Bank.MEM_DDR_UE_CNT, Bank.MEM_PAGE_REREAD_CNT, Bank.MEM_CACHE_HIT_BOOK_CNT, Bank.LLC_HIT_CNT, Bank.LLC_MISS_CNT, Bank.LLC_TAG_PAR_CNT, Bank.LLC_DATA_CE_CNT, Bank.LLC_DATA_UE_CNT, Bank.SFL_PROG_CNT, Bank.SFL_ERASE_CNT, Bank.SFL_UNC_CNT, Bank.SFL_BUS_FAULT_CNT, Bank.SFL_RETIRE_CNT, Bank.SFL_HOLD_CNT, Bank.EVR_REC_CNT, Bank.EVR_FOLD_CNT, Bank.EVR_SAT_LOST_CNT, Bank.EVR_RESERVE_DROP_CNT, Bank.EVR_FROZEN_DROP_CNT]
/-- Register banks, part 12. -/
def regBanks12 : List RegBank :=
  [Bank.EVR_PAGE_CNT, Bank.CTL_PKT_CNT, Bank.CTL_FAIL_CNT, Bank.CTL_DB_DROP_CNT, Bank.CTL_RPL_HOLD_CNT, Bank.BOOT_WDT_CNT, Bank.BOOT_TRIAL_FAIL_CNT, Bank.BOOT_AUTH_FAIL_CNT, Bank.PWR_SWITCH_CNT, Bank.PWR_RAIL_WARN_CNT, Bank.PWR_TEMP_WARN_CNT, Bank.PWR_THROTTLE_CNT, Bank.PWR_PFAIL_CNT, Bank.XPT_P_RX_PKT_CNT, Bank.XPT_P_TX_PKT_CNT, Bank.XPT_P_CTX_MISS_CNT, Bank.XPT_P_CTX_EVICT_CNT, Bank.XPT_P_DUP_PKT_CNT, Bank.XPT_P_PSN_AMBIG_CNT, Bank.XPT_P_SEQ_NAK_TX_CNT, Bank.XPT_P_SEQ_NAK_RX_CNT, Bank.XPT_P_RETX_CNT, Bank.XPT_P_TIMEOUT_CNT, Bank.XPT_P_RNR_NAK_TX_CNT, Bank.XPT_P_INV_REQ_NAK_TX_CNT]
/-- Register banks, part 13. -/
def regBanks13 : List RegBank :=
  [Bank.XPT_P_RACC_NAK_TX_CNT, Bank.XPT_P_QP_FAIL_CNT, Bank.XPT_P_ICRC_ERR_CNT, Bank.XPT_P_ECN_CE_RX_CNT, Bank.XPT_P_CNP_TX_CNT, Bank.XPT_P_CNP_RX_CNT, Bank.XPT_P_PFC_STORM_CNT, Bank.XPT_P_RD_RESP_DISCARD_CNT, Bank.DIG_SEG_CNT, Bank.DIG_BYTE_CNT, Bank.DIG_SAVE_CNT, Bank.DIG_RESTORE_CNT, Bank.DIG_AUTH_FAIL_CNT, Bank.DIG_REISSUE_CNT, Bank.DIG_ALARM_CNT, Bank.DIG_JOB_ERR_CNT, Bank.SLU_REJ_CNT_N, Bank.SLU_MISS_CNT_N, Bank.FTL_RETRY_LVL_CNT, Bank.SFL_RETRY_LVL_CNT, Bank.EVR_DROP_CNT, Bank.DMA_XFER_CNT, Bank.DMA_BYTE_CNT, Bank.DMA_ERR_CNT]
/-- Every register bank of the block (01_architecture.md R16). -/
def regBanks : List RegBank :=
  regBanks0 ++ regBanks1 ++ regBanks2 ++ regBanks3 ++ regBanks4 ++ regBanks5 ++ regBanks6 ++ regBanks7 ++ regBanks8 ++ regBanks9 ++ regBanks10 ++ regBanks11 ++ regBanks12 ++ regBanks13

/-- The register whose first byte is at offset `a`, if any register decodes there (R5, R16). -/
def regAt (a : Nat) : Option Reg := regBanks.findSome? (RegBank.find · a)

end Sys2Proof.Machine
end

