-- ==== Sys2Proof/Machine/Types.lean ====
section
/-! DEFINITION. The types of the pieces of state, by chapter of the spec. -/
namespace Sys2Proof.Machine

/-! ### Outputs -/

/-- Output pins and wires that the block drives (22_power_electrical.md R519). -/
inductive Pin | dumpDone | alertN | ppsOut
  deriving DecidableEq, Repr

/-- How the packets that the device sends over IP are marked (05_rdma_transport.md R102, R105): priority, DSCP, ECT(0), UDP source port. -/
structure NetHdr where
  prio : Nat
  dscp : Nat
  ect : Bool
  sport : Nat
  deriving DecidableEq, Repr

/-- What a RoCEv2 packet is (05_rdma_transport.md R103, R110, R113, R117, R123). -/
inductive EthKind | send | sendInv | write | writeImm | readReq | ack | seqNak | rnrNak | invalidNak | accessNak | cnp
  deriving DecidableEq, Repr

/-- RoCEv2 packets of one message: kind, destination queue pair, first PSN, the number that the kind carries (message number of an ACK, timer code of
an RNR NAK, immediate data, key that a SEND invalidates), remote address, key and length, and payload. -/
structure RocePkt where
  kind : EthKind
  qpn : Nat
  psn : Nat
  num : Nat
  addr : Nat
  key : Nat
  len : Nat
  data : Bytes
  deriving DecidableEq, Repr

/-- Connection management messages that the device sends (05_rdma_transport.md R104). -/
inductive CmKind | req | rep | rtu | rej | dreq | drep
  deriving DecidableEq, Repr

/-- A connection management message (05_rdma_transport.md R104): the queue pair it is to, that of the device, the device's starting PSN, path MTU in bytes,
responder resources, initiator depth, ACK timeout exponent, retry and RNR retry counts, private data record format, and for a privileged pair both
session numbers, the key of the landing region and the address of the remote array. -/
structure CmMsg where
  kind : CmKind
  dest : Nat
  own : Nat
  psn : Nat
  mtu : Nat
  resources : Nat
  depth : Nat
  timeout : Nat
  retry : Nat
  rnr : Nat
  recfmt : Nat
  session : Option (Nat × Nat)
  landKey : Nat
  gid : Bytes
  deriving DecidableEq, Repr

/-- What the block sends out. The MODEL's own record of its outputs, oldest first. -/
inductive Out
  /-- a BAR read completes with a value (R7, R17) -/
  | busRead (bar offset size value : Nat)
  /-- a BAR read completes with Unsupported Request (R17) -/
  | unsupported (bar offset size : Nat)
  /-- a BAR read completes with Completer Abort (18_system_flash.md R425) -/
  | abort (bar offset size : Nat)
  /-- an NVMe completion: queue context, command, status code type, status code, do-not-retry, result dwords -/
  | cqe (qctx cid sct sc : Nat) (dnr : Bool) (dw0 dw1 : Nat)
  /-- data of an NVMe command, delivered to the client or the host -/
  | nvmeData (qctx cid : Nat) (data : Bytes)
  /-- read data for a client buffer: queue context, command, address, key, data -/
  | clientWrite (qctx cmd addr key : Nat) (data : Bytes)
  /-- an NVMe asynchronous event posted on a controller: type, information, log page -/
  | aen (ctrl typ info lid : Nat)
  /-- an Ixydo status reply (20_control_packets.md R463) -/
  | reply (ring tag status dataLen : Nat) (result : Bytes)
  /-- completion data written to a packet's data slot (R464) -/
  | slotData (ring slot : Nat) (data : Bytes)
  /-- a tail word (R459) -/
  | tailWord (ring count : Nat)
  /-- an MSI-X message -/
  | msix (vec : Nat)
  /-- an output pin driven to a level -/
  | pin (p : Pin) (high : Bool)
  /-- RoCEv2 packets of one message sent on an Ethernet port, with their marking -/
  | roce (port : Nat) (net : NetHdr) (pkt : RocePkt)
  /-- a connection management message sent on QP1 of an Ethernet port -/
  | cm (port : Nat) (net : NetHdr) (m : CmMsg)
  /-- a priority flow control frame: XOFF or XON of a priority -/
  | pfc (port prio : Nat) (xoff : Bool)
  /-- a peer-delay request of PTP (02_fabric_time.md R27) -/
  | ptpDelay (port : Nat)
  /-- a message of the pair transaction layer (15_pair_operation.md R360) -/
  | ptl (typ flags seq ack chan : Nat) (payload : Bytes)
  /-- a media link packet on a media port: its header and payload (13_media_link.md R316) -/
  | mlp (port : Nat) (packet : Bytes)
  /-- an encrypted record of a dump copy, by its index, or the header that ends the copy, written to that copy's dump area
  (06_brine_write_path.md R148, R149) -/
  | dumpWrite (copy : Nat) (idx : Option Nat) (data : Bytes)
  /-- bytes of a remote writer placed in host memory with the PCIe Relaxed Ordering attribute (05_rdma_transport.md R121) -/
  | hostPlace (addr : Nat) (data : Bytes)
  /-- bytes written to host memory -/
  | hostWrite (addr : Nat) (data : Bytes)
  /-- bytes asked of host memory -/
  | hostRead (addr len : Nat)
  deriving DecidableEq, Repr

/-! ### Event recorder (19_event_recorder.md) -/

/-- An event record (R436): its header fields and the words of its payload items. -/
structure EvRec where
  seq : Nat
  cls : Nat
  code : Nat
  sev : Nat
  unit : Nat
  rept : Nat
  time : Nat
  sat : Bool
  held : Bool
  late : Bool
  timeInvalid : Bool
  items : List DWord
  deriving DecidableEq, Repr

/-- The drops of one class since the last refill (R443): how many, and the code and unit of the first. -/
structure EvDrop where
  cls : Nat
  count : Nat
  firstCode : Nat
  firstUnit : Nat
  deriving DecidableEq, Repr

/-- A coalescing entry of R454: one pair of event type and information of one controller. -/
structure AenSlot where
  ctrl : Nat
  typ : Nat
  info : Nat
  lid : Nat
  windowOpen : Bool
  unread : Bool
  waiting : Bool
  deriving DecidableEq, Repr

/-- The event recorder. `awaiting` holds the records not yet in flash, the first `flushRecs` of them in the running
flush; `awaitBytes` and `flushBytes` count them with their fill records (R437, R444, R446). `pageFill` is how much of
the page being laid out is used. `area` is the circular area, each record with its block pair; `slices` are the retained
slices (R448), each with the bytes it took; `nextPage` is the next page of the circular area. -/
structure Evr where
  seq : Nat
  awaiting : List EvRec
  awaitBytes : Nat
  pageFill : Nat
  flushing : Bool
  flushRecs : Nat
  flushBytes : Nat
  flushPend : Bool
  lastSevFlush : Option Nat
  area : List (Nat × EvRec)
  nextPage : Nat
  epoch : Nat
  sliceOpen : Bool
  slices : List (Nat × List EvRec)
  allow : List Nat
  drops : List EvDrop
  lastRefill : Nat
  frozen : Bool
  heldRecs : List EvRec
  heldBytes : Nat
  frozenDrops : List Nat
  maxSev : Nat
  noticeCnt : Nat
  aen : List AenSlot
  deriving DecidableEq, Repr

/-! ### Control rings (20_control_packets.md) -/

/-- States of a control ring (R481). -/
inductive RingState | disabled | running | draining
  deriving DecidableEq, Repr

/-- A command entry the device owns: its slot, its place in posting order and its 64 bytes. -/
structure Entry where
  slot : Nat
  no : Nat
  bytes : Bytes
  deriving DecidableEq, Repr

/-- A status reply not yet written (R459, R463). -/
structure RingReply where
  slot : Nat
  tag : Nat
  status : Nat
  result : Bytes
  data : Bytes
  final : Bool
  deriving DecidableEq, Repr

/-- A control ring. `posted` are entries posted and not fetched, `fetched` packets that have not started, `running`
packets that have started; `held` are replies held for want of reply space. -/
structure Ring where
  state : RingState
  cmdHead : Nat
  postedTail : Nat
  rplTail : Nat
  replyCount : Nat
  nextNo : Nat
  posted : List Entry
  fetched : List Entry
  running : List Entry
  held : List RingReply
  deriving DecidableEq, Repr

/-- Where a packet that is still running came from: ring, slot, tag and place in posting order. -/
structure PktRef where
  ring : Nat
  slot : Nat
  tag : Nat
  no : Nat
  deriving DecidableEq, Repr

/-- A packet whose reply waits until the peer has applied its configuration record: the sequence of the CONTROL message, the packet and
the result bytes (R475). -/
structure CfgWait where
  seq : Nat
  pkt : PktRef
  result : Bytes
  deriving DecidableEq, Repr

/-- The control block: `cfgWaits` are the replies that wait for the peer,
`detaches` the volumes whose detach waits for their commands (R476), `ready` is CTL_STATUS.READY, `beat` is CTL_FW_BEAT. -/
structure Ctl where
  rings : List Ring
  ready : Bool
  beat : Nat
  cfgWaits : List CfgWait
  detaches : List (Nat × PktRef)
  deriving DecidableEq, Repr

/-! ### Host command queues (04_host_queues.md) -/

/-- Kinds of queue context (R73, R74). -/
inductive QKind | fabAdmin | fabIo | hostAdmin | hostIo
  deriving DecidableEq, Repr

/-- A queue context in use (R73). `sqHead` is the submission queue head, `phase` the phase tag of the next completion entry (R71), `inv` the
key that the response of a command invalidates, by command identifier (05_rdma_transport.md R103). -/
structure QCtx where
  idx : Nat
  kind : QKind
  ctrl : Nat
  qid : Nat
  size : Nat
  sqBase : Nat
  cqBase : Nat
  vec : Nat
  qp : Nat
  sqTail : Nat
  cqHead : Nat
  cqTail : Nat
  deleting : Option PktRef
  sqHead : Nat
  phase : Bool
  inv : List (Nat × Nat)
  deriving DecidableEq, Repr

/-- An NVMe controller: properties and features by number, Asynchronous Event Requests held, events waiting for one. -/
structure Controller where
  id : Nat
  host : Bool
  props : List (Nat × Nat)
  feats : List (Nat × Nat)
  aers : List Nat
  backlog : List (Nat × Nat × Nat)
  kato : Bool
  deriving DecidableEq, Repr

/-- Where an I/O command stands. -/
inductive Stage | ordWait | lockWait | brineWait | fetch | staged | media | flushWait | draining | erasing
  deriving DecidableEq, Repr

/-- An I/O command in flight: its number, queue context, command identifier, opcode, volume, first logical block, number
of blocks, its flags, the range-lock entries it holds (first and last grain), its deadline when admitted, the brine
entries it made and the journal sequences it waits for. `bytes` counts the data fetched or delivered, `order` is when it
stalled, `sgl` its data pointer, `hostData` what a host-side command's buffers hold, `got` the grains a read
has collected, `missed` the result dword of a write that missed its deadline with its sequence assigned (03_sluice.md R64), `bookEnd` the slot that
the plan of an admitted command ends in (R56). `stall` orders the commands that stalled, `stallOn` names those whose range-lock entries it
stalls on (R82); `pi` and `tag` are PRINFO and the application tag with its mask (R79). -/
structure Cmd where
  id : Nat
  qctx : Nat
  cid : Nat
  opc : Nat
  nsid : Nat
  slba : Nat
  nlb : Nat
  fua : Bool
  ord : Bool
  sdeal : Bool
  deac : Bool
  stage : Stage
  ranges : List (Nat × Nat)
  locked : Bool
  deadline : Option Nat
  waits : List (Nat × Nat)
  entries : List Nat
  host : Bool
  bytes : Nat
  need : Nat
  seqNo : Nat
  sgl : List Sgl
  hostData : Bytes
  got : List (Nat × Bytes)
  missed : Option Nat
  bookEnd : Nat
  stall : Nat
  stallOn : List Nat
  pi : Nat
  tag : Nat
  deriving DecidableEq, Repr

/-- A format in progress (R92, R93): the system flash progress record, and whether its deallocation has been staged. -/
structure FormatRec where
  nsid : Nat
  lbaf : Nat
  ses : Nat
  cmd : Option (Nat × Nat)
  staged : Bool
  deriving DecidableEq, Repr

/-- Sanitize status (R94-R97): SSTAT as the log page codes it. -/
inductive SanState | never | done | running | failed
  deriving DecidableEq, Repr

/-- The sanitize progress record of the system flash (R96) and the failure mode of R97. `issued` says that the erases of the present
1/256 of a Block Erase have been issued. -/
structure Sanitize where
  state : SanState
  act : Nat
  ause : Bool
  prog : Nat
  failMode : Bool
  cmd : Option (Nat × Nat)
  peer : Bool
  dieFailed : Bool
  issued : Bool
  deriving DecidableEq, Repr

/-- The state of the queue block. `nextCmd` numbers commands; `locks` lists range-lock entries: command, volume, first and
last grain, deadline write. `warned` are the Critical Warning bits that stand (12_harvest_health.md R307). -/
structure Hq where
  ctxs : List QCtx
  ctrls : List Controller
  cmds : List Cmd
  nextCmd : Nat
  formats : List FormatRec
  san : Sanitize
  warned : Nat
  deriving DecidableEq, Repr
/-! ### Fabric time (02_fabric_time.md) -/

/-- The fabric-time states, coded as TIDE_STATUS.STATE (R42). -/
inductive TideSt | freerun | acquiring | locked | holdover | unqualified
  deriving DecidableEq, Repr

/-- What a timed event does when it fires (R40). -/
inductive TimedKind
  /-- a snapshot cut: SNAP_ID, scope (0 volume, 1 group) and object -/
  | cut (snap scope obj : Nat)
  /-- a replication period of a session -/
  | replPeriod (session : Nat)
  /-- the instant of a START_REPLICATION -/
  | replStart (session : Nat)
  /-- a new harvest budget -/
  | budget (base urgent : Nat)
  deriving DecidableEq, Repr

/-- A timed event entry (R40): its instant, the order it was armed in (accepted in, until it is armed), whether it is armed in hardware, what it does. -/
structure Timed where
  instant : Nat
  order : Nat
  armed : Bool
  kind : TimedKind
  deriving DecidableEq, Repr

/-- A kind of booked resource (R37), with the stream cache of 16_memory_cache.md R396 and the volume budget of 03_sluice.md R67, which
is kept as a calendar of its own. -/
inductive Rsrc | egress | icl | mport | die | comp | decomp | digest | cipher | erasure | classifier | cache | volume
  deriving DecidableEq, Repr

/-- A stage of a plan (03_sluice.md R50, R51): the amounts it books on resources, the latency after its end, and the bytes it takes
from the volume's budget (R67). -/
structure PStage where
  items : List (Rsrc × Nat × Nat)
  lat : Nat
  vol : Nat
  deriving DecidableEq, Repr

/-- A booking: resource and its number, slot, amount, the command, its deadline, and the capacity that applied when it was
made (R37, R39). `far` marks a booking held against its bucket's total; its slot is then the bucket's first. -/
structure Booking where
  rsrc : Rsrc
  idx : Nat
  slot : Nat
  far : Bool
  amount : Nat
  cmd : Nat
  deadline : Nat
  cap : Nat
  deriving DecidableEq, Repr

/-- The PTP master that is selected: its port identity, and the data set by which the best master clock algorithm ranks it, the first difference
deciding and less being better: priority 1, class, accuracy, variance, priority 2, grandmaster, steps removed, sender (R27; PRESUMED, log 108). -/
structure PtpMaster where
  source : Nat
  rank : List Nat
  deriving DecidableEq, Repr

/-- The tide block. `time` is fabric time in ns. `window` holds the last offsets, newest first; `goodEst`, `goodSpread`
and `badEst` count the consecutive Sync intervals of R31. `slew` is an offset being slewed out, `stepPend` a step that
waits, `acqCorr` marks the correction decided in ACQUIRING. `holdA`, `holdC` are the values sampled on entry to HOLDOVER, `holdSec` the
fabric time of that entry; `lastPps` is the second of the last PPS_OUT edge, `master` the
selected master. -/
structure Tide where
  time : Nat
  state : TideSt
  est : Nat
  window : List Int
  goodEst : Nat
  goodSpread : Nat
  badEst : Nat
  lockedOnce : Bool
  slew : Option Int
  stepPend : Option Int
  acqCorr : Bool
  holdE0 : Nat
  holdA : Nat
  holdC : Nat
  holdSec : Nat
  refPtp : Bool
  refPps : Bool
  ref10m : Bool
  activePort : Nat
  ppsLevel : Bool
  table : List Booking
  timed : List Timed
  nextOrder : Nat
  lastPps : Nat
  master : Option PtpMaster
  deriving DecidableEq, Repr
/-! ### Volumes and the pool (20_control_packets.md, 07_data_reduction.md, 14_snapshots_replication.md) -/

/-- A volume: its LBA format, whether it is attached, ANA group, key page of its grains, dedup domain, size in logical blocks,
admission settings (R67, R68), consistency group, snapshot it was cloned from, and the key generation in use. -/
structure Volume where
  nsid : Nat
  lbaf : Nat
  attached : Bool
  ana : Nat
  homeKey : Nat
  domain : Nat
  nsze : Nat
  mode : Nat
  flags : Nat
  clientAllow : Nat
  budget : Nat
  maxInflight : Nat
  cgroup : Nat
  deriving DecidableEq, Repr

/-- An ANA group that differs from its reset state (R98, R385): owner head, home head, whether it is moving (Change), and whether its
writes enter the journal that its owner adopted (15_pair_operation.md R377). -/
structure AnaGroup where
  id : Nat
  owner : Nat
  home : Nat
  change : Bool
  adopted : Bool
  deriving DecidableEq, Repr

/-- A dedup domain (R161): key slot, key page, index bits k, ANA group. -/
structure Domain where
  id : Nat
  slot : Nat
  keyPage : Nat
  k : Nat
  ana : Nat
  deriving DecidableEq, Repr

/-- What a volume was, with its dedup domain, for the entries of a journal up to a sequence: a configuration record placed after that entry has
changed it (07_data_reduction.md R179, R180). -/
structure VolPast where
  journal : Nat
  jseq : Nat
  vol : Volume
  dom : Option Domain
  deriving DecidableEq, Repr

/-- The pool as this head has it loaded. `gen` is the codec generation in force; `past` are the earlier states of volumes that entries which are
not durable may still need, oldest first. -/
structure Pool where
  loaded : Bool
  id : Bytes
  mdKey : Nat
  volumes : List Volume
  groups : List AnaGroup
  domains : List Domain
  gen : Nat
  past : List VolPast
  deriving DecidableEq, Repr
/-! ### RDMA transport (05_rdma_transport.md) -/

/-- States of a queue pair: a connection being set up, established, failed or ended (R104, R116). -/
inductive QpSt | connecting | connected | failed
  deriving DecidableEq, Repr

/-- What the device sends as requester (R103). -/
inductive SendKind | send | sendInv | write | writeImm | read
  deriving DecidableEq, Repr

/-- A message sent as requester and not yet acknowledged (R113, R114): its first PSN, its packets, its payload, the command it belongs
to (0 none), its remote address and key, its length, the bytes acknowledged or, of an RDMA READ, received, and its immediate data. -/
structure SendOp where
  kind : SendKind
  psn : Nat
  pkts : Nat
  data : Bytes
  cmd : Nat
  addr : Nat
  key : Nat
  len : Nat
  got : Nat
  imm : Nat
  deriving DecidableEq, Repr

/-- What arrives for a queue pair: request packets (an RDMA READ or atomic request among them), responses, a notification of congestion, and the
expiry of its ACK timer or of an RNR wait, which fetch the context like a packet (R108). -/
inductive PktKind | send | sendInv | write | writeImm | readReq | ack | seqNak | rnrNak | fatalNak | readResp | cnp | ackTimer | rnrTimer
  deriving DecidableEq, Repr

/-- A packet for a queue pair: kind, PSN, CE mark, first and last packet of its message, RETH address, key and length of a first RDMA WRITE
packet (`len` is the timer code of an RNR NAK), payload. -/
structure XPkt where
  kind : PktKind
  psn : Nat
  ce : Bool
  first : Bool
  last : Bool
  va : Nat
  key : Nat
  len : Nat
  payload : Bytes
  deriving DecidableEq, Repr

/-- A connection context (R106): index (QPN is the index + 0x10), Ethernet port, privileged, protection domain, path MTU, initiator
depth, ACK timeout exponent, negotiated retry counts, remote QPN, line rate in Mb/s, responder side (expected PSN, message number,
whether the NAK of R110 is out, the message being received, the open RDMA WRITE: key index, base, length, bytes placed, and the
capsules that hold a receive), requester side (next PSN, oldest first messages, retries used, RNR retries used, consecutive timeouts,
RNR wait), congestion state (RC, RT in Mb/s, alpha in 2^-30, stage, bytes since the last stage, time of the last CNP sent), and
whether it is cached and has been used recently (R108), the packets that wait for its fetch, and the
replication session of a privileged one; `v6` is its address family (03_sluice.md R54). -/
structure Qp where
  idx : Nat
  port : Nat
  st : QpSt
  priv : Bool
  pd : Nat
  mtu : Nat
  ord : Nat
  tmo : Nat
  retryMax : Nat
  rnrMax : Nat
  remote : Nat
  line : Nat
  epsn : Nat
  msn : Nat
  naked : Bool
  inMsg : Bytes
  wKey : Option (Nat × Nat × Nat × Nat)
  capsules : Nat
  recvs : Nat
  spsn : Nat
  ops : List SendOp
  held : List SendOp
  retries : Nat
  rnrs : Nat
  backoff : Nat
  rnrWait : Bool
  rc : Nat
  rt : Nat
  alpha : Nat
  stage : Nat
  sent : Nat
  lastCnp : Option Nat
  cached : Bool
  used : Bool
  missed : List XPkt
  session : Option Nat
  v6 : Bool
  fetching : Bool
  deriving DecidableEq, Repr

/-- A memory key (R122): index, tag, REVOKING, space, base, length, protection domain, writes that finished since the revocation, queue
pairs failed by it, and the packet that revokes it. -/
structure MemKey where
  idx : Nat
  tag : Nat
  revoking : Bool
  space : Nat
  base : Nat
  len : Nat
  pd : Nat
  done : Nat
  failed : Nat
  pkt : Option PktRef
  deriving DecidableEq, Repr

/-- Packets in a port's transmit queue (R120): priority, queue pair, how many, and what they are. -/
structure TxPkt where
  prio : Nat
  qp : Option Nat
  n : Nat
  what : Out
  deriving DecidableEq, Repr

/-- An Ethernet port (R102, R107, R120), 0-15 plus 16 times the sub-port of a port in breakout: up, line rate in Mb/s, the priorities paused, the
priority whose pauses it ignores after a storm, whether it sent XOFF for its miss buffer, the bytes waiting there, and its queue of packets
of paused priorities, oldest first. -/
structure EthPort where
  port : Nat
  up : Bool
  line : Nat
  paused : List Nat
  ignoring : Option Nat
  xoff : Bool
  waiting : Nat
  queue : List TxPkt
  deriving DecidableEq, Repr

/-- The transport block. `tags` holds the tag last used with each key index. -/
structure Xpt where
  qps : List Qp
  ports : List EthPort
  keys : List MemKey
  tags : List (Nat × Nat)
  deriving DecidableEq, Repr
/-! ### Reduction and the engines (07_data_reduction.md, 08_compression.md, 09_cipher_digest.md) -/

/-- An entry of the dedup index with its filter tag (R165, R166): domain, bucket, slot, tag, FP_HI, SGN, INS_JSEQ. -/
structure IdxEnt where
  dom : Nat
  bucket : Nat
  slot : Nat
  tag : Nat
  fpHi : Nat
  sgn : Nat
  jseq : Nat
  deriving DecidableEq, Repr

/-- Where a grain record of a draining entry stands. -/
inductive DStage | merge | digest | decide | compress | cipher | ready
  deriving DecidableEq, Repr

/-- A grain record in the reduction pipeline: entry, record index, journal, sequence, volume, grain, its stage, completed content,
fingerprint, decision (0 zero, 1 duplicate, 2 new), SGN, stream, frame, the codec generation at its decision
(08_compression.md R193), and of a new grain its CRC and key page (R164, R171). -/
structure DRec where
  ent : Nat
  idx : Nat
  journal : Nat
  jseq : Nat
  nsid : Nat
  grain : Nat
  stage : DStage
  kind : Nat
  content : Bytes
  fp : Bytes
  decision : Nat
  sgn : Nat
  stream : Nat
  frame : Bytes
  gen : Nat
  crc : Nat
  keyPage : Nat
  deriving DecidableEq, Repr

/-- What an engine job is for: a grain of the drain, a grain of a read, or an offload job. -/
inductive JobWhy
  /-- a grain record of a draining entry -/
  | drain (ent idx : Nat)
  /-- the frame that a read job has collected -/
  | read (job : Nat)
  /-- an offload job -/
  | offload (job : Nat)
  deriving DecidableEq, Repr

/-- An engine job in flight: number, engine (unit index of R23), the core its present segment runs on (none while it waits for one, R221), how
often it was reissued, purpose, input, segments left (R205, R220), the stream of its context (R222), and, after a fault, the core that it lost
with the cores it must not have again (R181, R230). -/
structure Job where
  id : Nat
  engine : Nat
  core : Option Nat
  reissues : Nat
  why : JobWhy
  input : Bytes
  segs : Nat
  stream : Nat
  lost : Option (Nat × List Nat)
  deriving DecidableEq, Repr

/-- The reduction block: the index, the records in the pipeline in journal order, engine jobs in the order in which they became ready,
fingerprints of new grains not yet shipped to the peer (SGN, FP), and of each engine the share of its dispatches that its offload segments have
saved up (R205). -/
structure Red where
  index : List IdxEnt
  recs : List DRec
  jobs : List Job
  nextJob : Nat
  fps : List (Nat × Bytes)
  credit : List (Nat × Nat)
  deriving DecidableEq, Repr
/-! ### Keys and offload jobs (08_compression.md, 09_cipher_digest.md) -/

/-- States of a key page or key slot, coded as STATE (R212). -/
inductive KeySt | empty | loading | live | erased
  deriving DecidableEq, Repr

/-- A key page that differs from its reset state (R212, R213, R217): number, CIP_KP_CFG, state, KEY_GEN, ERR, K1, K2, SALT, NEXT, the
end of the block of invocation values reserved, and whether an ERASE is in progress (BUSY). -/
structure KeyPage where
  no : Nat
  cfg : Nat
  state : KeySt
  gen : Nat
  err : Nat
  key1 : Bytes
  key2 : Bytes
  salt : Nat
  next : Nat
  resEnd : Nat
  busy : Bool
  deriving DecidableEq, Repr

/-- A key slot that differs from its reset state (R218, R219): number, DIG_KS_CFG, DIG_KS_KEYLEN, state, KEY_GEN, ERR, the key words
loaded, the key blocks behind the inner and the outer state, and whether an ERASE is in progress (BUSY). -/
structure KeySlot where
  no : Nat
  cfg : Nat
  len : Nat
  state : KeySt
  gen : Nat
  err : Nat
  key : Bytes
  inner : Bytes
  outer : Bytes
  busy : Bool
  deriving DecidableEq, Repr

/-- The resident or saved context of a stream of the cipher (engine 3) or digest (engine 2) engine (R222): the stream, its engine and
cluster, and whether it is saved. -/
structure EngCtx where
  stream : Nat
  engine : Nat
  cluster : Nat
  saved : Bool
  deriving DecidableEq, Repr

/-- An offload job in flight (R197, R226, R227): number, packet, opcode, parameter bytes of the packet, input, additional data, GCM tag
or the context area as the host holds it, the KEY_GEN it is bound to, the invocation value used, segments left and the engine it uses. -/
structure OffJob where
  id : Nat
  pkt : PktRef
  opc : Nat
  params : Bytes
  src : Bytes
  aad : Bytes
  ctx : Bytes
  keyGen : Nat
  invoc : Nat
  deriving DecidableEq, Repr

/-- The key block. `dk` and `dck` say that the device key and the context key are in their registers; `pwk`, `pwkStored` are the pool
wrapping key and its copy in system flash, wrapped under the device key; `dumpKey` is the register, `dumpStored` the KEYS record with the
DUMP_EPOCH it carries and the wrapped dump key;
`pageStore` and `slotStore` are the persistent keys of the pool configuration; `asserted` are the alarm sources that assert now. -/
structure Keys where
  pages : List KeyPage
  slots : List KeySlot
  pageStore : List KeyPage
  slotStore : List KeySlot
  dk : Bool
  dck : Option Bytes
  pwk : Option Bytes
  pwkStored : Option Bytes
  dumpKey : Option Bytes
  dumpStored : Option (Nat × Bytes)
  asserted : Nat
  tamper : Bool
  erased : Bool
  wasSolo : Bool
  ctxs : List EngCtx
  offs : List OffJob
  nextOff : Nat
  deriving DecidableEq, Repr
/-! ### Media units and pans (10_media_units_pans.md) -/

/-- Unit states (R247). -/
inductive UnitSt | absent | online | degraded | rebuilding | offline | failed | readOnly
  deriving DecidableEq, Repr

/-- A member entry (R239): the unit, and whether the position is being rebuilt onto it. -/
structure Member where
  unit : Nat
  subst : Bool
  deriving DecidableEq, Repr

/-- The descriptor of one unit with its member list (R238, R239). Fields that are computed are left out. -/
structure UnitD where
  id : Nat
  state : UnitSt
  parent : Nat
  pos : Nat
  scheme : Nat
  m : Nat
  members : List Member
  root : Bool
  rebuildDone : Nat
  rebuildTotal : Nat
  stateTime : Nat
  cause : Nat
  deriving DecidableEq, Repr

/-- The rebuild of a position onto its substitute (R254): pan, position, substitute, top pan position, and the rows still to rebuild in ascending
order. -/
structure Rebuild where
  pan : Nat
  pos : Nat
  unit : Nat
  top : Nat
  rows : List Nat
  deriving DecidableEq, Repr

/-- The media block: units that are not in their discovery state, the misses in succession per die (R249), the
uncorrectable pages of the present second per die, the substitute module of each failed module (R253), the pans whose failed leaves found
no spare (R254), and the rebuilds that run (R254). -/
structure Med where
  units : List UnitD
  misses : List (Nat × Nat)
  unc : List (Nat × List (Nat × Nat))
  substMod : List (Nat × Nat)
  noSpare : List Nat
  rebuilds : List Rebuild
  deriving DecidableEq, Repr
/-! ### Mapping, placement, harvest (11_flash_translation.md, 12_harvest_health.md) -/

/-- An entry of a volume's map (R267): grain, stored grain number (0 the zero grain), WSTAMP. -/
structure MapEnt where
  grain : Nat
  sgn : Nat
  wstamp : Nat
  deriving DecidableEq, Repr

/-- A map page image (R267, R268, R340): its number in the model, the page it is, its entries that are not of the zero grain by
themselves, how many maps share it and whether it changed since the last completed checkpoint
(R269), and the last entry that changed it (R282). -/
structure MapImg where
  id : Nat
  page : Nat
  ents : List MapEnt
  share : Nat
  dirty : Bool
  jseq : Nat
  deriving DecidableEq, Repr

/-- A map: of a volume (`snap` none) or of a snapshot epoch (R338). `pages` gives the image of each map page that exists. -/
structure VolMap where
  nsid : Nat
  snap : Option Nat
  pages : List (Nat × Nat)
  deriving DecidableEq, Repr

/-- An entry of the stored grain table (R171). -/
structure Grain where
  sgn : Nat
  refcnt : Nat
  pi : Bool
  full : Bool
  pinned : Bool
  len16 : Nat
  domain : Nat
  keyPage : Nat
  tweak : Nat
  crc : Nat
  islot : Option (Nat × Nat)
  ploc : Nat
  grp : Nat
  deriving DecidableEq, Repr

/-- States of a stripe block (R291). -/
inductive BlkSt | free | opened | full | victim | erasePending | bad
  deriving DecidableEq, Repr

/-- A stripe block that is not in its initial state: top pan position and logical block, owner journal, stream (0 HOT to 3
COLD, 4 metadata), mode and flags, content list, next row to open, the highest JSEQ of a record in it, the dies whose
program failed in it (R304), the dies whose erase is still due, whether its grant is recorded, whether it was open when
its journal was replayed, so that its rows past the replayed ones are read before they are programmed (R278), and the JSEQ of
the start record of its harvest where an applied record gave it (R299). -/
structure Blk where
  top : Nat
  blk : Nat
  state : BlkSt
  owner : Nat
  stream : Nat
  slc : Bool
  scrub : Bool
  refresh : Bool
  retire : Bool
  retireDies : List Nat
  content : List Nat
  nextRow : Nat
  closedRows : Nat
  maxJseq : Nat
  eraseLeft : List Nat
  recorded : Bool
  resume : Bool
  started : Nat
  deriving DecidableEq, Repr

/-- An item of an entry record (R280). -/
structure JItem where
  grain : Nat
  kind : Nat
  stream : Nat
  sgn : Nat
  recIdx : Nat
  ploc : Nat
  len16 : Nat
  crc : Nat
  deriving DecidableEq, Repr

/-- A journal record, or one part of an entry record (R279, R280): type, flags, JSEQ, SUB, volume, its items and its body, PART and PARTS. -/
structure JRec where
  typ : Nat
  flags : Nat
  jseq : Nat
  sub : Nat
  nsid : Nat
  items : List JItem
  body : Bytes
  part : Nat := 0
  parts : Nat := 1
  deriving DecidableEq, Repr

/-- What a row holds, in order: a grain frame (SGN, length in crumbs, sequence of its entry, record index, its encrypted bytes), a
journal record, a checkpoint image (table, page, s0, its plain bytes), pad crumbs, a frame that harvest copied from a PLOC, with its
bytes as stored. -/
inductive RowItem
  | frame (sgn crumbs jseq recIdx : Nat) (bytes : Bytes)
  | record (r : JRec) (crumbs : Nat)
  | image (table page s0 : Nat) (bytes : Bytes)
  | pad (crumbs : Nat)
  | copy (sgn crumbs old : Nat) (bytes : Bytes)
  deriving DecidableEq, Repr

/-- States of an open row (R275). -/
inductive RowSt | empty | filling | closed | programmed | void
  deriving DecidableEq, Repr

/-- A row (R275): its number in the model, journal, stream, top pan and row, how many crumbs are packed, its items, the dies
whose programs were issued and those still outstanding, and INDEX_SEQ of its index page once it is closed (R281). -/
structure Row where
  id : Nat
  journal : Nat
  stream : Nat
  top : Nat
  row : Nat
  fill : Nat
  items : List RowItem
  state : RowSt
  sealed : Bool
  issued : List Nat
  outstanding : List Nat
  indexSeq : Nat
  deriving DecidableEq, Repr

/-- A checkpoint that runs (R282): its s0, the PLOC of its directory image, the place of the next index page when it began, and its images that have been packed:
table, page, top pan, stripe block. -/
structure Ckpt where
  s0 : Nat
  dirPloc : Nat
  index : Nat
  imgs : List (Nat × Nat × Nat × Nat)
  deriving DecidableEq, Repr

/-- A journal held by this head (R11, R132, R144, R279): head role, last sequence assigned, durable mark, SUB of the next
device-added record, index pages written, the program unit of the index dies that is next (counted over the dies' index blocks in leaf
order, R281), the round-robin position of R274, the S0 and number of its latest root,
the checkpoints that run in order, the directory of the latest root (table, page, top pan, stripe block), its root record, and the anchor
block and page that each anchor die fills next (R283). `gen` is the codec generation of its entries, `genPast` the earlier ones, each with the
last sequence it holds for (08_compression.md R193). -/
structure Journal where
  role : Nat
  jseq : Nat
  durable : Nat
  sub : Nat
  indexSeq : Nat
  indexAt : Nat
  lastTop : Nat
  tip : Nat
  rootS0 : Nat
  ckptNum : Nat
  ckpts : List Ckpt
  dir : List (Nat × Nat × Nat × Nat)
  root : Bytes
  anchors : List (Nat × Nat × Nat)
  gen : Nat
  genPast : List (Nat × Nat)
  deriving DecidableEq, Repr

/-- A harvest in progress (R297): victim, class, step (1 start, 2 copy, 3 commit, 4 erase), copies made
(SGN, old and new PLOC) not yet committed, the
journal, and JSEQ and SUB of its latest record. -/
structure Harvest where
  top : Nat
  blk : Nat
  cls : Nat
  step : Nat
  copies : List (Nat × Nat × Nat)
  journal : Nat
  mark : Nat × Nat
  deriving DecidableEq, Repr

/-- Wear and retirement of one die (R303-R305, R309). `erased` are the erases of its physical blocks in
both modes: block, count; `retries` the reads of the last hour: fabric time and level. -/
structure DieWear where
  die : Nat
  native : Nat
  slc : Nat
  erased : List (Nat × Nat)
  spareLeft : Nat
  spareInit : Nat
  progFail : Nat
  eraseFail : Nat
  remap : List (Nat × Nat)
  retries : List (Nat × Nat)
  deriving DecidableEq, Repr

/-- The head's health record and the pool's health counts (R307, R308). `tempSeen` says that the sensors have been read, `ioSeen` that an I/O
command was outstanding in the present minute. -/
structure Health where
  dataRead : Nat
  dataWritten : Nat
  hostReads : Nat
  hostWrites : Nat
  busyMin : Nat
  powerCycles : Nat
  powerMin : Nat
  unsafeOff : Nat
  mediaErrs : Nat
  warnMin : Nat
  critMin : Nat
  engineFail : Nat
  confirmFail : Nat
  progFail : Nat
  eraseFail : Nat
  retired : Nat
  uncRead : Nat
  recon : Nat
  grainLost : Nat
  dieFail : Nat
  moduleFail : Nat
  retryHist : List Nat
  tempMax : Int
  tempMin : Int
  tempBins : List Nat
  noDump : Bool
  tempSeen : Bool
  ioSeen : Bool
  deriving DecidableEq, Repr

/-- A part of a read: a run of crumbs in one program unit (R271). `level` is the level of the ladder (R288), `tried` how many levels were
tried; in reconstruction `pan` is the pan that decodes, `mem` its member being rebuilt, `off` the crumb offset in that member's
data and `srcs` the members read with what they gave (R251). -/
structure RPart where
  die : Nat
  blk : Nat
  pu : Nat
  crumb : Nat
  crumbs : Nat
  row : Nat
  level : Nat
  tried : Nat
  recon : Bool
  pan : Nat
  mem : Nat
  off : Nat
  srcs : List (Nat × Option Bytes)
  got : Option Bytes
  lost : Bool
  deriving DecidableEq, Repr

/-- What a read of media is for. -/
inductive ReadFor
  /-- a grain of a command: command number, grain -/
  | cmd (id grain : Nat)
  /-- the merge of a partial grain of a brine entry: entry, record -/
  | merge (ent rec_ : Nat)
  /-- a frame that harvest copies: victim's top pan and block -/
  | harvest (top blk : Nat)
  /-- a dedup confirmation: entry, record -/
  | confirm (ent rec_ : Nat)
  /-- a grain sent to a replication target: session -/
  | repl (session grain : Nat)
  /-- the column that a substitute takes in a row: pan, position, row (10_media_units_pans.md R254) -/
  | rebuild (pan pos row : Nat)
  /-- a metadata page that was dropped: the command and the grain that wait for it, if any; its table and number (11_flash_translation.md R269) -/
  | page (who : Option (Nat × Nat)) (tab num : Nat)
  deriving DecidableEq, Repr

/-- A read of one stored grain from media (R50, R251, R288). `again` marks the second decode, after a failed check (R176). -/
structure ReadJob where
  id : Nat
  why : ReadFor
  sgn : Nat
  booked : Bool
  again : Bool
  parts : List RPart
  deriving DecidableEq, Repr

/-- The mapping and harvest block. `packQ` holds what waits for a granted block: journal, stream, item; `grantReq` the
requests for a grant not yet answered, `grantWait` those the arbiter holds (journal, stream). `touched` lists the stored grain table pages that
changed since their last image was taken, `touchedIdx` the index partition pages (domain and page; R282); `paged` the metadata pages that are not in memory and `recent` those looked up recently, each
as (0, map page image) or (1, stored grain table page) (R269). -/
structure Ftl where
  maps : List VolMap
  imgs : List MapImg
  nextImg : Nat
  grains : List Grain
  touched : List Nat
  touchedIdx : List Nat
  paged : List (Nat × Nat)
  recent : List (Nat × Nat)
  blocks : List Blk
  rows : List Row
  nextRow : Nat
  packQ : List (Nat × Nat × RowItem)
  grantReq : List (Nat × Nat)
  grantWait : List (Nat × Nat)
  journals : List Journal
  harvests : List Harvest
  hBase : Nat
  hUrgent : Nat
  hNow : Nat
  hPending : Option (Nat × Nat)
  urgent : Bool
  budgetArmed : Bool
  poolRo : Bool
  indexScan : Bool
  wear : List DieWear
  health : Health
  reads : List ReadJob
  nextRead : Nat
  hints : List (Nat × Nat × Nat)
  deriving DecidableEq, Repr
/-! ### Brine (06_brine_write_path.md) -/

/-- States of a brine entry (R134). FREE entries are not listed. -/
inductive EntSt | reserved | filling | loc | staged | draining | released
  deriving DecidableEq, Repr

/-- A grain record of an entry (R130): grain, block mask, kind (1 data, 2 zeros, 3 unmap), brine page indices for the blocks in
the mask, and their data: one byte string of 4,096 bytes per block in the mask, its protection information after it when the
volume is of LBA format 1. `merged` holds all four blocks once the
merge of R145 has been done. -/
structure BRec where
  grain : Nat
  mask : Nat
  kind : Nat
  pages : List Nat
  data : List Bytes
  merged : Option (List Bytes)
  deriving DecidableEq, Repr

/-- A brine entry: its number, the command that made it (none after the command has ended), journal (head role), volume, records,
state, journal sequence, entry time, FUA, deadline, whether a host-side command made it, the grain runs of
its chain still to stage, secure deallocate, and whether its record is packed. -/
structure BEnt where
  id : Nat
  cmd : Option Nat
  journal : Nat
  nsid : Nat
  recs : List BRec
  state : EntSt
  jseq : Nat
  time : Nat
  fua : Bool
  deadline : Bool
  host : Bool
  chain : List (Nat × Nat)
  sdeal : Bool
  ord : Bool
  placed : Bool
  deriving DecidableEq, Repr

/-- A record in the mirror of the peer's brine (R139): journal, sequence, the fields of its header and its payload. -/
structure MRec where
  journal : Nat
  jseq : Nat
  nsid : Nat
  grain : Nat
  kind : Nat
  flags : Nat
  mask : Nat
  recIdx : Nat
  recCnt : Nat
  pages : List Nat
  time : Nat
  payload : Bytes
  deriving DecidableEq, Repr

/-- The dump on the modules (R148, R149): the bytes of its header, and its encrypted records, each with both copies. -/
structure Dump where
  header : Bytes
  recs : List (Bytes × Bytes)
  deriving DecidableEq, Repr

/-- A Flush that waits for durable marks (R144): command, journal and sequence pairs still to reach. -/
structure FlushWait where
  cmd : Nat
  marks : List (Nat × Nat)
  deriving DecidableEq, Repr

/-- The brine block. `waiting` are the entries that wait for a reservation, oldest first (R136); `heldReads` the entries whose
RDMA READ the mirror backlog holds (R141). `dump` is the dump on the modules, `dumpRun` the one being
written, `dumped` says that it has been written since the last reset. `lost` are the journals whose loss is not accepted, with the first lost
sequence (R154); `expect` the same of a reset without a dump. `seals` the entries, by journal and sequence, at which a Flush sealed (R178). -/
structure Brn where
  ents : List BEnt
  nextEnt : Nat
  waiting : List Nat
  heldReads : List Nat
  mirror : List MRec
  flushes : List FlushWait
  alone : Bool
  remirror : Bool
  replaying : Bool
  lost : List (Nat × Nat)
  aboveHi : Bool
  dump : Option Dump
  dumpEpoch : Nat
  dumpRun : Option Dump
  dumped : Bool
  expect : List (Nat × Nat)
  seals : List (Nat × Nat)
  deriving DecidableEq, Repr
/-! ### Media link (13_media_link.md) -/

/-- Reservation state of a port of a module (R321). -/
inductive RsvSt | none | registered | fenced
  deriving DecidableEq, Repr

/-- Why a module command was issued, and so what its completion does. -/
inductive Purpose
  /-- discovery of R329: module record, the try it is -/
  | modRecord (tries : Nat)
  /-- discovery of R329: die record of a position, the try it is -/
  | dieRecord (pos tries : Nat)
  /-- discovery, election or poll of a reservation: RESERVE READ -/
  | rsvRead
  /-- REGISTER of R383 -/
  | register
  /-- PREEMPT of R374 -/
  | preempt
  /-- RELEASE of R384 -/
  | release
  /-- STATUS of R332 -/
  | status
  /-- a crumb read of a read job: the part, and 0 for the part itself or 1 + the source of its reconstruction -/
  | read (job part src : Nat)
  /-- the index page of a closing row (R281) -/
  | index (row : Nat)
  /-- the erase of an index block before it is filled again (R281) -/
  | indexErase
  /-- a column program of an open row -/
  | program (row : Nat)
  /-- the read-back of a program whose completion was lost (R334) -/
  | readBack (row : Nat) (isIndex : Bool)
  /-- the same of a program of a root record, and of one of a rebuild (R334) -/
  | rootBack (journal : Nat)
  | rebuildBack (pan pos : Nat)
  /-- an erase of a stripe block -/
  | erase (top blk : Nat)
  /-- an erase or a program of an anchor block of a journal (11_flash_translation.md R283) -/
  | anchor (journal : Nat)
  /-- a program of a substitute: pan, position (10_media_units_pans.md R254) -/
  | rebuild (pan pos : Nat)
  /-- an erase of a Block Erase (04_host_queues.md R94) -/
  | sanErase
  /-- a command served for the peer (R334) -/
  | proxied (tag : Nat)
  deriving DecidableEq, Repr

/-- A module command in flight (R318): the module's port, tag, die position, opcode, flags, parameters, data, the purpose,
whether it has been reissued once, whether it goes through the peer head, the RDATA received, whether it
waits out a BUSY, and whether it has been sent (R323 lets four per die be outstanding). -/
structure ModCmd where
  port : Nat
  tag : Nat
  die : Nat
  opc : Nat
  flags : Nat
  params : Bytes
  data : Bytes
  why : Purpose
  reissued : Bool
  viaPeer : Bool
  rdata : Bytes
  busyWait : Bool
  sent : Bool
  deriving DecidableEq, Repr

/-- What the device knows of the module on one media port (R329-R332). -/
structure Module where
  port : Nat
  present : Bool
  up : Bool
  heldReason : Nat
  record : Bytes
  dies : List (Nat × Bytes)
  ownRsv : RsvSt
  otherRsv : RsvSt
  ownEpoch : Nat
  otherEpoch : Nat
  temp : Nat
  power : Nat
  failedDies : Nat
  proxied : Bool
  discovered : Bool
  deriving DecidableEq, Repr

/-- The media link: modules by port, commands in flight, the next tag per port is `nextTag`. -/
structure Lnk where
  mods : List Module
  cmds : List ModCmd
  nextTag : Nat
  deriving DecidableEq, Repr
/-! ### Snapshots and replication (14_snapshots_replication.md) -/

/-- A snapshot epoch of one volume (R338, R339): SNAP_ID, volume, cut instant and the journal sequence of its record. Its map is the map
of the volume and SNAP_ID in `Ftl.maps`. -/
structure Epoch where
  id : Nat
  nsid : Nat
  instant : Nat
  jseq : Nat
  deriving DecidableEq, Repr

/-- A cut that is armed or waits for the peer head's part (R343, R344): SNAP_ID, scope (0 volume, 1 group), volume or group, instant, the
packet that asked for it, whether the peer asked, whether this head's part is placed, and whether the peer head's is. -/
structure Cut where
  snap : Nat
  scope : Nat
  obj : Nat
  instant : Nat
  pkt : Option PktRef
  fromPeer : Bool
  placed : Bool
  peerPlaced : Bool
  deriving DecidableEq, Repr

/-- States of a replication session, coded as STATE (R353, R355). -/
inductive SessSt | connecting | idle | sending | suspended | failed
  deriving DecidableEq, Repr

/-- A COMMITTED that a target owes until its replica snapshot's record is held by both heads (R351): the control message that carries the record,
the MSG_SEQ of the COMMIT, the snapshot, and the replica snapshot before it, held until then (R347). -/
structure Owed where
  ctl : Nat
  seq : Nat
  snap : Nat
  prev : Nat
  deriving DecidableEq, Repr

/-- A replication session (R347-R355): its creation parameters, state and cause; base, sending and replica snapshots (0 none); its own
and the other array's queue pair and whether each is established; the landing key of the target and the one the source was given;
messages: the next to send or to apply, how many are acknowledged, whether an ACK RESEND is being counted and how often, whether
OPEN was exchanged; the delta's place: next item, the items of the message being built, whether COMMIT has been sent; and the other
side's salt. -/
structure Session where
  no : Nat
  role : Nat
  scope : Nat
  obj : Nat
  keyPage : Nat
  port : Nat
  dscp : Nat
  period : Nat
  gid : Bytes
  remote : Nat
  pd : Nat
  state : SessSt
  cause : Nat
  base : Nat
  sending : Nat
  replica : Nat
  ownQp : Option Nat
  ownUp : Bool
  otherQp : Option Nat
  otherUp : Bool
  landKey : Nat
  remoteKey : Nat
  next : Nat
  acked : Nat
  resends : Nat
  opened : Bool
  item : Nat
  built : List (Nat × Nat × Bytes)
  building : Option (Nat × Nat)
  commitSent : Bool
  sent : List (Nat × Nat)
  cutJseq : Nat
  arrived : List Bytes
  owed : Option Owed
  deriving DecidableEq, Repr

/-- A space scan of GET_SNAPSHOT_SPACE that runs (R345): packet, volume, SNAP_ID and the four counts as of its start, in crumbs. -/
structure SpaceScan where
  pkt : PktRef
  nsid : Nat
  snap : Nat
  counts : List Nat
  deriving DecidableEq, Repr

/-- What happens to a map at a place of the journal (R339, R341, R345, R346): an epoch takes the live map; a clone takes an epoch's map;
a map is dropped, securely or not; a space scan takes its counts. -/
inductive MapAct
  | take (nsid snap : Nat)
  | clone (src snap new : Nat)
  | drop (nsid : Nat) (snap : Option Nat) (secure : Bool)
  | scan (nsid : Nat) (pkt : PktRef)
  deriving DecidableEq, Repr

/-- An act on a map that waits until every entry of its volumes up to a sequence of a journal has been decided. -/
structure MapOp where
  journal : Nat
  jseq : Nat
  act : MapAct
  deriving DecidableEq, Repr

/-- The snapshot and replication block. `ops` are the acts on maps that wait for their place, in journal order; `gone` the deleted volumes
whose last entries have not drained. -/
structure Snap where
  ops : List MapOp
  gone : List Volume
  nextId : Nat
  epochs : List Epoch
  cuts : List Cut
  sessions : List Session
  scans : List SpaceScan
  deriving DecidableEq, Repr

/-! ### Pair (15_pair_operation.md) -/

/-- Pair states, coded as PAIR_STATUS.STATE (R387). -/
inductive PairSt | down | pairWait | sync | paired | suspect | electing | solo | fenced | roleConflict
  deriving DecidableEq, Repr

/-- A message of the pair transaction layer that has been sent and not acknowledged (R362). -/
structure PtlMsg where
  seq : Nat
  typ : Nat
  more : Bool
  payload : Bytes
  deriving DecidableEq, Repr

/-- A sequenced channel: the number of the next message to send, the messages held, the number expected next, whether the
NAK for the present gap is sent, and the fragments of the chain being joined (R362, R363). -/
structure PtlChan where
  next : Nat
  held : List PtlMsg
  expect : Nat
  naked : Bool
  joined : Bytes
  deriving DecidableEq, Repr

/-- What the peer's HELLO said (R365). -/
structure Hello where
  role : Nat
  pairState : Nat
  part : Nat
  step : Nat
  fwMajor : Nat
  fwMinor : Nat
  genMin : Nat
  genMax : Nat
  genNow : Nat
  flags : Nat
  poolId : Bytes
  uid : Bytes
  deriving DecidableEq, Repr

/-- A planned move of an ANA group (R382): group, step, whether this head is the old owner, the packet that asked, the place of the move
record (JSEQ and SUB) in its journal, and whether the move hands back an adopted journal (R384). -/
structure Move where
  grp : Nat
  step : Nat
  out : Bool
  pkt : Option PktRef
  record : Nat × Nat
  back : Bool
  deriving DecidableEq, Repr

/-- An election (R374): the lead module's port, whether the lead is won, and per module the epoch asked for. -/
structure Election where
  lead : Nat
  leadWon : Bool
  waiting : Bool
  asked : List (Nat × Nat)
  deriving DecidableEq, Repr

/-- A part of a journal record that the shadow holds back (R368): journal, JSEQ, SUB, part, parts, its bytes with their header, and the
fingerprints of its new grains. -/
structure ShadowRec where
  journal : Nat
  jseq : Nat
  sub : Nat
  part : Nat
  parts : Nat
  bytes : Bytes
  fps : Bytes
  deriving DecidableEq, Repr

/-- The pair block. `icl` is ICL_WIDTH, `lease` the lease of R371, `gated` the deliveries that wait for it; `adopted` says that this head
holds the peer's journal. `ecdh` is the ephemeral secret behind PUB, `transferKey` the key derived from it (R365). `leadPend` is a lead
proposed and not yet acknowledged, with its SEQ (R373); `peerProxy` the ports whose commands this head serves for the peer. `rejoinStep` is
the step of R384, of the returner or of the survivor; `waitSolo` says that this head rejoins once the peer is SOLO; `lastHello` is the last HELLO received. -/
structure Pair where
  state : PairSt
  refuse : Nat
  lead : Nat
  leadPend : Option (Nat × Nat)
  peerProxy : List Nat
  icl : Nat
  lease : Bool
  adopted : Bool
  chans : List PtlChan
  helloSeen : Bool
  hello : Option Hello
  lastHello : Option Hello
  ecdh : Bytes
  transferKey : Option Bytes
  gated : List Out
  election : Option Election
  moves : List Move
  rejoin : Option PktRef
  rejoinStep : Nat
  leaving : Option PktRef
  shadowHeld : List ShadowRec
  peerDurable : Nat
  peerShadow : Nat
  peerState : Nat
  soloWaitOver : Bool
  autoRejoin : Bool
  waitSolo : Bool
  deriving DecidableEq, Repr
/-! ### Memory and last-level cache (16_memory_cache.md) -/

/-- An entry of the stream cache (R395): volume, grain, content, used since the last sweep, the commands that pin it. -/
structure CacheEnt where
  nsid : Nat
  grain : Nat
  content : Bytes
  used : Bool
  pins : List Nat
  deriving DecidableEq, Repr

/-- A slice of the last-level cache whose ways are not all on (R402): way groups now off, those asked to be off, whether it is BUSY. -/
structure LlcSlice where
  idx : Nat
  off : Nat
  req : Nat
  busy : Bool
  deriving DecidableEq, Repr

/-- A fill under way (R398, R400): the age that the line is inserted at, the requesters that wait for it, the writes that wait in the slice. -/
structure LlcFill where
  age : Nat
  readers : List Nat
  writes : Nat
  deriving DecidableEq, Repr

/-- A line of the last-level cache (R397, R400): space and address bits [47:7] of what it holds, its place, its age, the fill it waits for.
`content` numbers the write of the line in memory whose outcome it holds: the MODEL's own name of the content (log 135). -/
structure LlcLine where
  space : Nat
  line : Nat
  slice : Nat
  set : Nat
  way : Nat
  age : Nat
  content : Nat
  fill : Option LlcFill
  deriving DecidableEq, Repr

/-- The last-level cache (R397-R401): its lines; how often each metadata line of memory has been written, as (space, line, count); the readers of
the fill that ended last with the content that each received; how many lookups have met a line; the counts of R406. `looks` is the MODEL's own
counter (log 136). -/
structure Llc where
  lines : List LlcLine
  mem : List (Nat × Nat × Nat)
  got : List (Nat × Nat)
  looks : Nat
  hits : Nat
  misses : Nat
  tagPar : Nat
  dataCe : Nat
  dataUe : Nat
  deriving DecidableEq, Repr

/-- The memory block: stacks and channels trained, installed DDR in GiB, POP_ERR, the splits sampled at pool load (LOCK), whether an
invalidation and rehash of the last-level cache runs, its slices, the stream cache, the poisoned 32-byte words of the landing areas (space 0
HBM or 1 DDR, address), and the landing areas of HBM and DDR as byte memories. -/
structure Mem where
  hbmUp : Nat
  chUp : Nat
  ddrGib : Nat
  popErr : Bool
  lock : Bool
  hbmSplit : Nat
  ddrSplit : Nat
  rehash : Bool
  slices : List LlcSlice
  cache : List CacheEnt
  poison : List (Nat × Nat)
  hbm : List Host.Cell
  ddr : List Host.Cell
  deriving DecidableEq, Repr
/-! ### Data mover (17_dma.md) -/

/-- A running transfer of a data mover channel (R409-R413): the channel, the active set, how far chunks have been issued, how many bytes from
the start are known visible, the chunks visible beyond them, and whether the first half has been reported. -/
structure DmaXfer where
  ch : Nat
  src : Nat
  dst : Nat
  len : Nat
  mode : Nat
  issued : Nat
  done : Nat
  vis : List Nat
  half : Bool
  deriving DecidableEq, Repr
/-! ### System flash (18_system_flash.md) -/

/-- An operation that a bank runs (R427): the bank, 1 PROGRAM or 2 ERASE, flash address bits [31:12], the bytes of a PROGRAM. -/
structure SflOp where
  bank : Nat
  op : Nat
  page : Nat
  data : Bytes
  deriving DecidableEq, Repr

/-- A record log (R430): its PART, the number of its latest record, the next of its 512 pages, and the page that holds the current record
of each TYPE. -/
structure SflLog where
  part : Nat
  seq : Nat
  next : Nat
  cur : List (Nat × Nat)
  deriving DecidableEq, Repr

/-- The system flash: its bytes (an unlisted one is erased, 0xFF), the pages programmed since their erase, the pages of undefined content with
the draw that stands for it, the failed programs of a block since its erase, the retired blocks, the page buffers (the buffer of bank b from
4,096 b on), the running operations, the record logs, and the health fields that the current HEALTH record holds. -/
structure Sfl where
  mem : List Host.Cell
  programmed : List Nat
  undef : List (Nat × Nat)
  progFails : List (Nat × Nat)
  retired : List Nat
  buf : List Host.Cell
  ops : List SflOp
  logs : List SflLog
  health : Option Health
  deriving DecidableEq, Repr
/-! ### Start-up and field access (21_startup_security.md) -/

/-- The slot record of R494 that is current in the COMMIT log: states 0 EMPTY to 6 FAILED. -/
structure SlotRec where
  pref : Nat
  stA : Nat
  stB : Nat
  tries : Nat
  verA : Nat
  verB : Nat
  deriving DecidableEq, Repr

/-- The boot block. `stage` is BOOT_STATUS.STAGE; `resetReq` a warm reset asked for and not yet taken; `pwd` and `fkey` the
fused secrets of R500; `fails`, `lastFail` the count and time of R502; `dlNext` the download offset reached (R496);
`recovery` says that a recovery image runs, `factory` that Holteb's content of the system flash has been placed. -/
structure Boot where
  stage : Nat
  failA : Nat
  failB : Nat
  cfgSrc : Nat
  unidentified : Bool
  trial : Bool
  slot : Nat
  cause : Nat
  fwVer : Nat
  resetReq : Option Nat
  slots : SlotRec
  svn : Nat
  dlNext : Nat
  dlActive : Bool
  sessionOpen : Bool
  scope : Nat
  nonce : Option Bytes
  fails : Nat
  lastFail : Nat
  pwd : Option Bytes
  fkey : Option Bytes
  gids : List (Nat × Nat × Nat × Bytes)
  macs : List (Nat × Nat × Bytes)
  platformId : Bytes
  settings : List (Nat × Nat)
  recovery : Bool
  factory : Bool
  deriving DecidableEq, Repr
/-! ### Power and monitors (22_power_electrical.md) -/

/-- The monitor of one rail (R508, R512): its last samples in mV, at most four, newest first; its levels crossed; and for how many samples in
succession the mean has lain within the next lower level of each. -/
structure RailMon where
  idx : Nat
  last : List Nat
  warn : Bool
  crit : Bool
  erase : Bool
  calmWarn : Nat
  calmCrit : Nat
  calmErase : Nat
  deriving DecidableEq, Repr

/-- The levels crossed of one temperature sensor (R513). -/
structure TempMon where
  idx : Nat
  warn : Bool
  thr : Bool
  crit : Bool
  erase : Bool
  deriving DecidableEq, Repr

/-- The power block. `off` lists domains that are switched off, `notReady` those on and not READY, `waiting` the packets that switch one
on. `rails` and `temps` are the latest readings, in mV and units of 0.25 °C; `totalMw` the package power. `pfail` says that PFAIL_N has
asserted since the last reset, `dumping` that the dump runs, `dumpDone` is the level of the pin, `holding` the hold of R514, `critical` a
critical condition since the last reset; `cables` the cable measurements (port, ps, cm), `clockLost` the reference clocks lost (R515). -/
structure Pwr where
  off : List Nat
  notReady : List Nat
  waiting : List (Nat × PktRef)
  rails : List Nat
  railMon : List RailMon
  temps : List Int
  tempMon : List TempMon
  throttle : Bool
  totalMw : Nat
  pfail : Bool
  dumping : Bool
  dumpDone : Bool
  holding : Bool
  cables : List (Nat × Nat × Nat)
  clockLost : List Nat
  critical : Bool
  deriving DecidableEq, Repr

end Sys2Proof.Machine
end

