-- ==== Sys2Proof/Machine/State.lean ====
section
/-! DEFINITION. The state of the block, why a command can stop, and the state after power-on reset. -/
namespace Sys2Proof.Machine

/-- Why the machine stops with a fault. No rule of the spec stops the block, so no meaning raises one (safe). -/
inductive Fault
  /-- Reserved for an access to an address that does not exist; the spec answers every such access, so nobody raises it (safe). -/
  | noSuchAddress (addr : Nat)
  deriving DecidableEq, Repr

/-- Why a command has no meaning. -/
inductive Refusal
  /-- A command whose meaning is not written; raised by a refused arm of `exec` only (safe). -/
  | notModelled (mnemonic : String)
  deriving DecidableEq, Repr

/-- A sparse store of register values: offset and value, offsets rising, no value equal to the register's reset value. -/
abbrev RegStore := List (Nat × DWord)

/-- The state of one head. -/
structure State where
  /-- the registers whose home is the register file (R2-R9) -/
  regs : RegStore
  /-- latched high halves of 64-bit registers, by register offset (00_scope.md R7) -/
  latch : List (Nat × Nat)
  /-- pending low halves of 64-bit registers, by register offset (R7) -/
  lowPend : List (Nat × Nat)
  /-- the HEAD_ID level sampled at power-on reset (R3, R20) -/
  role : Nat
  /-- fabric time and the tide table (02_fabric_time.md) -/
  tide : Tide
  /-- NVMe queues and commands (04_host_queues.md) -/
  hq : Hq
  /-- the RDMA transport (05_rdma_transport.md) -/
  xpt : Xpt
  /-- the brine (06_brine_write_path.md) -/
  brn : Brn
  /-- reduction and engine jobs (07_data_reduction.md) -/
  red : Red
  /-- keys, engine contexts, offload jobs (08_compression.md, 09_cipher_digest.md) -/
  keys : Keys
  /-- units and pans (10_media_units_pans.md) -/
  med : Med
  /-- map, placement, harvest, health (11_flash_translation.md, 12_harvest_health.md) -/
  ftl : Ftl
  /-- media ports and modules (13_media_link.md) -/
  lnk : Lnk
  /-- snapshots and replication (14_snapshots_replication.md) -/
  snap : Snap
  /-- the pair (15_pair_operation.md) -/
  pair : Pair
  /-- memories, stream cache, power of the last-level cache (16_memory_cache.md) -/
  mem : Mem
  /-- the last-level cache (16_memory_cache.md R397-R401) -/
  llc : Llc
  /-- the transfers that the data mover's channels run (17_dma.md) -/
  dma : List DmaXfer
  /-- the system flash (18_system_flash.md) -/
  sfl : Sfl
  /-- the event recorder (19_event_recorder.md) -/
  evr : Evr
  /-- control rings (20_control_packets.md) -/
  ctl : Ctl
  /-- the pool, its volumes, groups and domains (20_control_packets.md) -/
  pool : Pool
  /-- start-up, firmware slots, field access (21_startup_security.md) -/
  boot : Boot
  /-- power domains, monitors, pins (22_power_electrical.md) -/
  pwr : Pwr
  /-- what the block has sent, oldest first: the MODEL's own record -/
  out : List Out
  /-- how many free values have been drawn: the MODEL's own counter (DESIGN CHOICE: starts at 0) -/
  free : Nat
  /-- the commands that wait, first in first out -/
  pending : List Instr
  deriving DecidableEq, Repr

/-- The event recorder with empty event areas: the series then starts at 1 (R441), every allowance at BURST (R443). -/
def Evr.reset : Evr :=
  { seq := 0, awaiting := [], awaitBytes := 0, pageFill := 0, flushing := false, flushRecs := 0, flushBytes := 0,
    flushPend := false, lastSevFlush := none, area := [], nextPage := 0, epoch := 0, sliceOpen := false, slices := [],
    allow := List.replicate 21 2000, drops := [], lastRefill := 0, frozen := false, heldRecs := [], heldBytes := 0,
    frozenDrops := [], maxSev := 0, noticeCnt := 0, aen := [] }

/-- A ring that is DISABLED with every index 0 (R470, R481). -/
def Ring.reset : Ring :=
  { state := .disabled, cmdHead := 0, postedTail := 0, rplTail := 0, replyCount := 0, nextNo := 0, posted := [],
    fetched := [], running := [], held := [] }

/-- The control block (R482). -/
def Ctl.reset : Ctl := { rings := List.replicate 4 Ring.reset, ready := false, beat := 0, cfgWaits := [], detaches := [] }

/-- No sanitize has run (R96). -/
def Sanitize.reset : Sanitize :=
  { state := .never, act := 0, ause := false, prog := 0, failMode := false, cmd := none, peer := false, dieFailed := false,
    issued := false }

/-- The queue block with no context (R101). (DESIGN CHOICE, log 1) -/
def Hq.reset : Hq :=
  { ctxs := [], ctrls := [], cmds := [], nextCmd := 1, formats := [], san := Sanitize.reset, warned := 0 }

/-- A channel on which nothing has been sent: the first SEQ is 1. DESIGN CHOICE (log 9). -/
def PtlChan.reset : PtlChan := { next := 1, held := [], expect := 1, naked := false, joined := [] }

/-- The pair block: DOWN (R387). -/
def Pair.reset : Pair :=
  { state := .down, refuse := 0, lead := 0, leadPend := none, peerProxy := [], icl := 0, lease := false, adopted := false,
    chans := List.replicate 3 PtlChan.reset, helloSeen := false, hello := none, lastHello := none, ecdh := [], transferKey := none, gated := [],
    election := none, moves := [], rejoin := none, rejoinStep := 0, leaving := none, shadowHeld := [], peerDurable := 0, peerShadow := 0,
    peerState := 0, soloWaitOver := false, autoRejoin := false, waitSolo := false }

/-- Fabric time starts at 0 in FREERUN, the estimate all ones (R30, R31). -/
def Tide.reset : Tide :=
  { time := 0, state := .freerun, est := 0xFFFFFFFF, window := [], goodEst := 0, goodSpread := 0, badEst := 0,
    lockedOnce := false, slew := none, stepPend := none, acqCorr := false, holdE0 := 0, holdA := 0, holdC := 0,
    holdSec := 0, refPtp := false, refPps := false, ref10m := false, activePort := 0, ppsLevel := false, table := [],
    timed := [], nextOrder := 0, lastPps := 0, master := none }

/-- No pool is loaded. -/
def Pool.reset : Pool :=
  { loaded := false, id := [], mdKey := 0, volumes := [], groups := [], domains := [], gen := 0, past := [] }

/-- The brine is empty (R156). -/
def Brn.reset : Brn :=
  { ents := [], nextEnt := 1, waiting := [], heldReads := [], mirror := [], flushes := [], alone := false,
    remirror := false, replaying := false, lost := [], aboveHi := false, dump := none, dumpEpoch := 0,
    dumpRun := none, dumped := false, expect := [], seals := [] }

/-- No unit differs from its discovery state. -/
def Med.reset : Med := { units := [], misses := [], unc := [], substMod := [], noSpare := [], rebuilds := [] }

/-- No module has been seen. -/
def Lnk.reset : Lnk := { mods := [], cmds := [], nextTag := 0 }

/-- The health record of a new device. The extreme temperatures read 0 until the first reading (DESIGN CHOICE, log 12). -/
def Health.reset : Health :=
  { dataRead := 0, dataWritten := 0, hostReads := 0, hostWrites := 0, busyMin := 0, powerCycles := 0, powerMin := 0,
    unsafeOff := 0, mediaErrs := 0, warnMin := 0, critMin := 0, engineFail := 0, confirmFail := 0, progFail := 0,
    eraseFail := 0, retired := 0, uncRead := 0, recon := 0, grainLost := 0, dieFail := 0, moduleFail := 0,
    retryHist := List.replicate 9 0, tempMax := 0, tempMin := 0, tempBins := List.replicate 64 0, noDump := false,
    tempSeen := false, ioSeen := false }

/-- The mapping block before a pool is loaded; H is 500 and 1,000 ns (R312). -/
def Ftl.reset : Ftl :=
  { maps := [], imgs := [], nextImg := 1, grains := [], touched := [], touchedIdx := [], paged := [], recent := [], blocks := [], rows := [], nextRow := 1, packQ := [], grantReq := [], grantWait := [], journals := [], harvests := [],
    hBase := 500, hUrgent := 1000, hNow := 500, hPending := none, urgent := false, budgetArmed := false, poolRo := false,
    indexScan := false, wear := [], health := Health.reset, reads := [], nextRead := 1, hints := [] }

/-- The boot block of a device as it leaves Holteb: slot A COMMITTED, slot B EMPTY (R494), nothing provisioned. -/
def Boot.reset : Boot :=
  { stage := 0, failA := 0, failB := 0, cfgSrc := 0, unidentified := false, trial := false, slot := 0, cause := 0,
    fwVer := 0, resetReq := none, slots := ⟨0, 4, 0, 0, 0, 0⟩, svn := 0, dlNext := 0, dlActive := false,
    sessionOpen := false, scope := 0, nonce := none, fails := 0, lastFail := 0, pwd := none, fkey := none, gids := [],
    macs := [], platformId := [], settings := [], recovery := false, factory := false }

/-- Every domain on and ready, no reading taken (R505, R522). -/
def Pwr.reset : Pwr :=
  { off := [], notReady := [], waiting := [], rails := List.replicate 9 0, railMon := [],
    temps := List.replicate 64 0, tempMon := [], throttle := false, totalMw := 0, pfail := false,
    dumping := false, dumpDone := false, holding := false, cables := [], clockLost := [], critical := false }

/-- The reduction block: an empty index, nothing in flight. -/
def Red.reset : Red := { index := [], recs := [], jobs := [], nextJob := 1, fps := [], credit := [] }

/-- The transport block: no context, no key, every port down (R127). -/
def Xpt.reset : Xpt := { qps := [], ports := [], keys := [], tags := [] }

/-- No key is held; nothing is stored. -/
def Keys.reset : Keys :=
  { pages := [], slots := [], pageStore := [], slotStore := [], dk := false, dck := none, pwk := none, pwkStored := none,
    dumpKey := none, dumpStored := none, asserted := 0, tamper := false, erased := false, wasSolo := false, ctxs := [],
    offs := [], nextOff := 1 }

/-- No snapshot, no session; SNAP_IDs start at 1 (R338). -/
def Snap.reset : Snap := { ops := [], gone := [], nextId := 1, epochs := [], cuts := [], sessions := [], scans := [] }

/-- No memory is trained; every way is powered (R405). A landing byte that nothing has written reads as 0 (DESIGN CHOICE, log 24). -/
def Mem.reset : Mem :=
  { hbmUp := 0, chUp := 0, ddrGib := 0, popErr := false, lock := false, hbmSplit := 0, ddrSplit := 0, rehash := false,
    slices := [], cache := [], poison := [], hbm := [], ddr := [] }

/-- An empty last-level cache (R404). The count of lookups starts at 0 (DESIGN CHOICE, log 136). -/
def Llc.reset : Llc :=
  { lines := [], mem := [], got := [], looks := 0, hits := 0, misses := 0, tagPar := 0, dataCe := 0, dataUe := 0 }

/-- An erased system flash that nothing has been written to; page buffers of zeros (DESIGN CHOICE, log 55). -/
def Sfl.reset : Sfl :=
  { mem := [], programmed := [], undef := [], progFails := [], retired := [], buf := [], ops := [], logs := [], health := none }


/-- The state right after power-on reset, before the start-up sequence has run: every register at the value of its Reset
column, every table empty. (DESIGN CHOICE, log 2) -/
def State.reset : State where
  regs := []
  latch := []
  lowPend := []
  role := 0
  tide := Tide.reset
  hq := Hq.reset
  xpt := Xpt.reset
  brn := Brn.reset
  red := Red.reset
  keys := Keys.reset
  med := Med.reset
  ftl := Ftl.reset
  lnk := Lnk.reset
  snap := Snap.reset
  pair := Pair.reset
  mem := Mem.reset
  llc := Llc.reset
  dma := []
  sfl := Sfl.reset
  evr := Evr.reset
  ctl := Ctl.reset
  pool := Pool.reset
  boot := Boot.reset
  pwr := Pwr.reset
  out := []
  free := 0
  pending := []

end Sys2Proof.Machine
end

