-- ==== Sys2Proof/Machine/Llc.lean ====
section
/-! DEFINITION. The last-level cache: lookups, fills, writes, ages and errors (16_memory_cache.md R397-R401). -/
namespace Sys2Proof.Machine

/-! ### Places (R397, R402) -/

/-- A slice: with every way on where nothing else is recorded. -/
def State.llcSlice (s : State) (i : Nat) : LlcSlice := (findKey LlcSlice.idx i s.mem.slices).getD ⟨i, 0, 0, false⟩

/-- The slices whose power domain is on. -/
def State.slicesOn (s : State) : List Nat := (List.range 48).filter fun i => !s.pwr.off.contains (51 + i / 4)

/-- The ways that take part in replacement: powered, and not asked to be off (R402). -/
def LlcSlice.ways (x : LlcSlice) : List Nat :=
  (List.range 16).filter fun w => !x.off.testBit (w / 4) && !(x.busy && x.req.testBit (w / 4))

/-- The slice and the set of a line. -/
def State.llcPlace (s : State) (space line : Nat) : Nat × Nat :=
  let n := s.slicesOn
  (n.getD (Config.llcHash space line n.length % n.length) 0, Config.llcSet space line % 2048)

/-! ### Lines

The operations act on the cache `c` of a state `s`, which gives the power of its slices and ways. -/

/-- A line that the cache holds or is filling. -/
def Llc.line? (c : Llc) (space line : Nat) : Option LlcLine := c.lines.find? fun x => x.space == space && x.line == line

/-- A line takes the place of what the cache held of it. -/
def Llc.put (c : Llc) (x : LlcLine) : Llc := { c with lines := x :: c.lines.filter fun y => !(y.space == x.space && y.line == x.line) }

/-- A line is invalid. -/
def Llc.drop (c : Llc) (space line : Nat) : Llc := { c with lines := c.lines.filter fun y => !(y.space == space && y.line == line) }

/-- The content of a line in memory, as the number of writes it has had. -/
def Llc.held (c : Llc) (space line : Nat) : Nat := ((c.mem.find? fun m => m.1 == space && m.2.1 == line).map fun m => m.2.2).getD 0

/-- Writes of a line reach memory (R398). -/
def Llc.store (c : Llc) (space line n : Nat) : Llc :=
  if n = 0 then c
  else { c with mem := (space, line, c.held space line + n) :: c.mem.filter fun m => !(m.1 == space && m.2.1 == line) }

/-! ### Replacement (R400) -/

/-- The victim among the ways of a set that take part: the lowest way that is invalid, else the lowest at age 3, where no line is at 3 after all
lines have aged until one is. With it go the lines as they have aged. A line whose fill is under way is neither. Where every way is filling none
can go (DESIGN CHOICE, log 137). -/
def llcVictim (ways : List Nat) (held : List LlcLine) : Option Nat × List LlcLine :=
  match ways.find? fun w => held.all fun x => x.way != w with
  | some w => (some w, held)
  | none =>
    let can (x : LlcLine) : Bool := x.fill.isNone && ways.contains x.way
    let top := (held.filter can).foldl (fun a x => Nat.max a x.age) 0
    let aged := held.map fun (x : LlcLine) => if x.fill.isNone then { x with age := Nat.min 3 (x.age + (3 - top)) } else x
    if held.any can then (ways.find? fun w => aged.any fun x => x.way == w && can x && x.age == 3, aged) else (none, held)

/-- A fill begins (R399, R400): the line waits in the way of the victim; a normal fill inserts at age 1, a streaming one at 3. -/
def Llc.begin (c : Llc) (s : State) (space line reader : Nat) (stream : Bool) : Llc :=
  let p := s.llcPlace space line
  let here (x : LlcLine) : Bool := x.slice == p.1 && x.set == p.2
  match llcVictim (s.llcSlice p.1).ways (c.lines.filter here) with
  | (some w, held) =>
    let x : LlcLine :=
      { space := space, line := line, slice := p.1, set := p.2, way := w, age := 0, content := 0,
        fill := some ⟨if stream then 3 else 1, [reader], 0⟩ }
    { c with lines := x :: (held.filter (fun y => y.way != w) ++ c.lines.filter fun y => !here y) }
  | (none, _) => c

/-! ### Lookups (R398-R401) -/

/-- A lookup meets a valid line, and the line where it stays (R401): a corrected error leaves it, rewritten; a tag parity error or an
uncorrectable data error invalidates it. -/
def Llc.check (c : Llc) (x : LlcLine) : Llc × Option LlcLine :=
  let d := { c with looks := c.looks + 1 }
  match Config.llcFault c.looks with
  | .clean => (d, some x)
  | .corrected => ({ d with dataCe := d.dataCe + 1 }, some x)
  | .tagParity => ({ d with tagPar := d.tagPar + 1 }.drop x.space x.line, none)
  | .uncorrectable => ({ d with dataUe := d.dataUe + 1 }.drop x.space x.line, none)

/-- A lookup that hits (R400). -/
def Llc.hit (c : Llc) (x : LlcLine) : Llc := { c with hits := c.hits + 1 }.put { x with age := 0 }

/-- A lookup that misses. -/
def Llc.miss (c : Llc) : Llc := { c with misses := c.misses + 1 }

/-- A requester asks for a line (R398-R401). While the cache is rehashed every lookup misses, and nothing is filled (R402; DESIGN CHOICE, log 137).
A lookup of a line whose fill is under way waits for it. -/
def Llc.ask (c : Llc) (s : State) (space line reader : Nat) (stream : Bool) : Llc :=
  if s.mem.rehash then c.miss
  else
    match c.line? space line with
    | none => c.miss.begin s space line reader stream
    | some x =>
      match x.fill with
      | some f => c.miss.put { x with fill := some { f with readers := f.readers ++ [reader] } }
      | none =>
        match c.check x with
        | (c, some x) => c.hit x
        | (c, none) => c.miss.begin s space line reader stream

/-- The whole line has arrived (R398, R399): those that waited receive it as memory held it, and then the writes that waited update the line and
memory. -/
def Llc.arrive (c : Llc) (space line : Nat) : Llc :=
  match c.line? space line with
  | none => c
  | some x =>
    match x.fill with
    | none => c
    | some f =>
      let n := c.held space line
      { c.store space line f.writes with got := f.readers.map fun r => (r, n) }.put { x with age := f.age, content := n + f.writes, fill := none }

/-- A requester that is held until the line has arrived (R399). -/
def Llc.read (c : Llc) (s : State) (space line : Nat) (stream : Bool) : Llc := (c.ask s space line 0 stream).arrive space line

/-- A write of a line (R398): a hit updates the line and memory together; a miss goes to memory alone; one whose fill is under way waits. -/
def Llc.write (c : Llc) (space line : Nat) : Llc :=
  match c.line? space line with
  | none => c.miss.store space line 1
  | some x =>
    match x.fill with
    | some f => c.miss.put { x with fill := some { f with writes := f.writes + 1 } }
    | none =>
      match c.check x with
      | (c, some x) => (c.store space line 1).hit { x with content := c.held space line + 1 }
      | (c, none) => c.miss.store space line 1

/-- Lines leave (R402): fills of theirs complete, and they go; memory holds what they held. -/
def Llc.leave (c : Llc) (out : LlcLine → Bool) : Llc :=
  let c := (c.lines.filter fun x => out x && x.fill.isSome).foldl (fun (c : Llc) x => c.arrive x.space x.line) c
  { c with lines := c.lines.filter fun x => !out x }

/-! ### The cache of a state -/

/-- Requesters ask for lines of a space, and their fills begin. -/
def State.llcAsk (s : State) (space : Nat) (lines : List Nat) (reader : Nat) : State :=
  { s with llc := lines.foldl (fun (c : Llc) l => c.ask s space l reader false) s.llc }

/-- Lines of a space have arrived. -/
def State.llcArrive (s : State) (space : Nat) (lines : List Nat) : State :=
  { s with llc := lines.foldl (fun (c : Llc) l => c.arrive space l) s.llc }

/-- A run of lines is read, by a requester that each holds until it has arrived. -/
def State.llcRead (s : State) (space line n : Nat) (stream : Bool) : State :=
  { s with llc := (List.range n).foldl (fun (c : Llc) i => c.read s space (line + i) stream) s.llc }

/-- Lines of a space are written. -/
def State.llcWrite (s : State) (space : Nat) (lines : List Nat) : State :=
  { s with llc := lines.foldl (fun (c : Llc) l => c.write space l) s.llc }

/-- Lines leave the cache. -/
def State.llcLeave (s : State) (out : LlcLine → Bool) : State := { s with llc := s.llc.leave out }

/-! ### What is looked up (R397; log 135) -/

/-- Kinds of metadata structures in memory. -/
inductive MetaKind
  | mapPage
  | grainTable
  | indexPart
  | filterPart
  | contentList
  deriving DecidableEq, Repr

/-- The number of a kind, for `Config.metaAt`. -/
def MetaKind.code : MetaKind → Nat
  | .mapPage => 0
  | .grainTable => 1
  | .indexPart => 2
  | .filterPart => 3
  | .contentList => 4

/-- The space and the line of a byte of a structure. -/
def metaLine (k : MetaKind) (n off : Nat) : Nat × Nat :=
  let a := Config.metaAt k.code n
  (a.1, (a.2 + off) / 128)

/-- A lookup of a byte of a structure. -/
def State.metaRead (s : State) (k : MetaKind) (n off : Nat) : State := s.llcRead (metaLine k n off).1 (metaLine k n off).2 1 false

/-- A write within a line of a structure. -/
def State.metaWrite (s : State) (k : MetaKind) (n off : Nat) : State := s.llcWrite (metaLine k n off).1 [(metaLine k n off).2]

/-- A streaming read of a run of lines of a structure (R400). -/
def State.metaScan (s : State) (k : MetaKind) (n off lines : Nat) : State := s.llcRead (metaLine k n off).1 (metaLine k n off).2 lines true

/-- The line of a unit's descriptor (10_media_units_pans.md R237; R393). -/
def descLine (u : Nat) : Nat := (0x40000000 + 64 * u) / 128

/-- The lines of a connection context (05_rdma_transport.md R106; R393). -/
def ctxLines (idx : Nat) : List Nat := [4 * idx, 4 * idx + 1, 4 * idx + 2, 4 * idx + 3]

/-- The line of a word of the tide table: resource code, index, slot or bucket (02_fabric_time.md R39; R392). -/
def tideLine (r idx at_ : Nat) : Nat := (0x0840000000 + 4 * (Config.tideWord r idx at_ % 266931648)) / 128

end Sys2Proof.Machine
end

