-- ==== Sys2Proof/Machine/Ops.lean ====
section
/-! DEFINITION. The named operations that every family uses: the register file, byte memories, outputs and their gate,
asynchronous events, the event recorder, alarms, messages to the peer. -/
namespace Sys2Proof.Machine

/-! ### Register file (00_scope.md R5, R8, R9) -/

/-- The value of a register in the store. -/
def RegStore.get (st : RegStore) (r : Reg) : DWord :=
  match st.find? (fun p => p.1 == r.addr) with
  | some p => p.2
  | none => r.reset

/-- The store with register `r` at `v`, in canonical form. -/
def RegStore.put (st : RegStore) (r : Reg) (v : DWord) : RegStore :=
  match st with
  | [] => if v = r.reset then [] else [(r.addr, v)]
  | (b, w) :: t =>
    if r.addr < b then (if v = r.reset then (b, w) :: t else (r.addr, v) :: (b, w) :: t)
    else if r.addr = b then (if v = r.reset then t else (r.addr, v) :: t)
    else (b, w) :: RegStore.put t r v

/-- The stored value of a register. -/
def State.rd (s : State) (r : Reg) : DWord := s.regs.get r

/-- `s` with the stored value of a register changed; bits above its width are dropped. -/
def State.wr (s : State) (r : Reg) (v : DWord) : State :=
  { s with regs := s.regs.put r (if r.width = 64 then v else v &&& 0xFFFFFFFF) }

/-- Field [hi:lo] of a stored register. -/
def State.fld (s : State) (r : Reg) (hi lo : Nat) : Nat := bits (s.rd r).toNat hi lo

/-- `s` with field [hi:lo] of a stored register replaced. -/
def State.setFld (s : State) (r : Reg) (hi lo x : Nat) : State :=
  s.wr r (BitVec.ofNat 64 (putBits (s.rd r).toNat hi lo x))

/-- A statistics counter rises by `n`, modulo 2^64 (R9). -/
def State.bumpBy (s : State) (r : Reg) (n : Nat) : State := s.wr r (s.rd r + BitVec.ofNat 64 n)

/-- A statistics counter rises by one (R9). -/
def State.bump (s : State) (r : Reg) : State := s.bumpBy r 1

/-- In stages 7 HALT and 8 RECOVERY, BAR0 decodes TOP and BOOT only (21_startup_security.md R486). -/
def State.halted (s : State) : Bool := s.boot.stage == 7 || s.boot.stage == 8

/-- An offset of the register space that BAR0 does not decode at this stage. -/
def State.undecoded (s : State) (a : Nat) : Bool := s.halted && decide (0x00200000 ≤ a) && decide (a < 2 ^ 32)

/-! ### Byte memories -/

/-- The byte at `a`: the listed one, or `d`. -/
def memRead (d : Byte) (m : List Host.Cell) (a : Nat) : Byte :=
  match m with
  | [] => d
  | (b, v) :: t => if a = b then v else memRead d t a

/-- The memory with byte `v` at `a`, in canonical form for the unlisted byte `d`. -/
def memWrite (d : Byte) (m : List Host.Cell) (a : Nat) (v : Byte) : List Host.Cell :=
  match m with
  | [] => if v = d then [] else [(a, v)]
  | (b, w) :: t =>
    if a < b then (if v = d then (b, w) :: t else (a, v) :: (b, w) :: t)
    else if a = b then (if v = d then t else (a, v) :: t)
    else (b, w) :: memWrite d t a v

/-- The memory with a string of bytes written from `a` on. -/
def memWriteAll (d : Byte) (m : List Host.Cell) (a : Nat) (bs : Bytes) : List Host.Cell :=
  match bs with
  | [] => m
  | b :: t => memWriteAll d (memWrite d m a b) (a + 1) t

/-- `n` bytes from `a` on. -/
def memReadAll (d : Byte) (m : List Host.Cell) (a : Nat) : Nat → Bytes
  | 0 => []
  | n + 1 => memRead d m a :: memReadAll d m (a + 1) n

/-- The canonical form: addresses strictly rising from `lo` on, no entry equal to the unlisted byte. -/
def memWfFrom (d : Byte) (lo : Nat) (m : List Host.Cell) : Bool :=
  match m with
  | [] => true
  | (a, v) :: t => decide (lo ≤ a) && (v != d) && memWfFrom d (a + 1) t

/-- The canonical form of a memory. -/
def Memory.wf (d : Byte) (m : List Host.Cell) : Bool := memWfFrom d 0 m

/-! ### Outputs -/

/-- The block sends something out. (DESIGN CHOICE, log 99) -/
def State.emit (s : State) (o : Out) : State := { s with out := s.out ++ [o] }

/-- The block sends several things out, in order. -/
def State.emits (s : State) (os : List Out) : State := { s with out := s.out ++ os }

/-- Deliveries are gated: no lease while PAIRED, SUSPECT or ELECTING, or FENCED (15_pair_operation.md R371). -/
def State.gateClosed (s : State) : Bool :=
  match s.pair.state with
  | .paired | .suspect | .electing => !s.pair.lease
  | .fenced => true
  | _ => false

/-! ### The requester side of the transport (05_rdma_transport.md R103, R113, R128) -/

/-- The queue pair of a context index. -/
def State.qp? (s : State) (idx : Nat) : Option Qp := findKey Qp.idx idx s.xpt.qps
/-- `s` with a queue pair replaced. -/
def State.putQp (s : State) (q : Qp) : State := { s with xpt.qps := putKey Qp.idx q s.xpt.qps }

/-- An XPT counter rises, the device total and that of the port (R128). -/
def State.xbump (s : State) (total : Reg) (port : Nat → Reg) (p n : Nat) : State :=
  (s.bumpBy total n).bumpBy (port (p % 16)) n

/-- The packets of a payload (R126). -/
def Qp.packets (q : Qp) (len : Nat) : Nat := Nat.max 1 (ceilDiv len q.mtu)

/-- The packets of a message that the device sends (R103). -/
def SendKind.code : SendKind → EthKind
  | .send => .send
  | .sendInv => .sendInv
  | .write => .write
  | .writeImm => .writeImm
  | .read => .readReq

/-- An Ethernet port; one not listed is down. -/
def State.eport (s : State) (p : Nat) : EthPort :=
  (findKey EthPort.port p s.xpt.ports).getD
    { port := p, up := false, line := 0, paused := [], ignoring := none, xoff := false, waiting := 0, queue := [] }
/-- `s` with an Ethernet port replaced. -/
def State.putEport (s : State) (p : EthPort) : State := { s with xpt.ports := putKey EthPort.port p s.xpt.ports }

/-- Packets leave an Ethernet port, and are counted (R128). -/
def State.ethSend (s : State) (port n : Nat) (o : Out) : State := (s.xbump R.XPT_TX_PKT_CNT R.XPT_P_TX_PKT_CNT port n).emit o

/-- Packets of a priority go out, or wait in the transmit queue of a port where that priority is paused (R102, R120). -/
def State.ethOut (s : State) (port prio : Nat) (qp : Option Nat) (n : Nat) (o : Out) : State :=
  let p := s.eport port
  if p.paused.contains prio then s.putEport { p with queue := p.queue ++ [⟨prio, qp, n, o⟩] } else s.ethSend port n o

/-- The marking of a queue pair's packets (R102, R105): a replication session gives its own DSCP (R115). -/
def State.dataHdr (s : State) (q : Qp) : NetHdr :=
  { prio := s.fld R.XPT_CFG 31 29
    dscp := match q.session.bind fun n => findKey Session.no n s.snap.sessions with
      | some x => x.dscp
      | none => s.fld R.XPT_CFG 25 20
    ect := s.fld R.XPT_CFG 11 11 == 1, sport := 0xC000 + (q.idx + 0x10) % 16384 }

/-- The marking of a congestion notification packet (R105). -/
def State.cnpHdr (s : State) (q : Qp) : NetHdr := { s.dataHdr q with prio := s.fld R.XPT_CFG 28 26, dscp := s.fld R.XPT_CFG 19 14 }

/-- The marking of a connection management packet, which QP1 sends: that of data (DESIGN CHOICE, log 126). -/
def State.cmHdr (s : State) : NetHdr :=
  { prio := s.fld R.XPT_CFG 31 29, dscp := s.fld R.XPT_CFG 25 20, ect := s.fld R.XPT_CFG 11 11 == 1, sport := 0xC001 }

/-- What is not acknowledged of a message goes out (R113): of an RDMA READ, a request for the bytes not yet received (R114). -/
def State.wire (s : State) (q : Qp) (o : SendOp) : State :=
  let k := o.got / q.mtu
  let data := if o.kind = .read then [] else o.data.drop o.got
  let s := s.putQp { q with sent := q.sent + data.length, used := true }
  let h := s.dataHdr q
  s.ethOut q.port h.prio (some q.idx) (if o.kind = .read then 1 else o.pkts - k)
    (.roce q.port h ⟨o.kind.code, q.remote, (o.psn + k) % 2 ^ 24, o.imm, o.addr + o.got, o.key, o.len - o.got, data⟩)

/-- An uncached context is fetched (R107): its lines are asked for (16_memory_cache.md R397). A fetch under way is not counted again. -/
def State.fetchCtx (s : State) (idx : Nat) : State :=
  match s.qp? idx with
  | none => s
  | some q =>
    if q.cached || q.fetching then s
    else
      let s := (s.putQp { q with fetching := true }).xbump R.XPT_CTX_MISS_CNT R.XPT_P_CTX_MISS_CNT q.port 1
      s.llcAsk 2 (ctxLines idx) (idx + 0x10)

/-- RDMA READs outstanding on a queue pair. -/
def Qp.readsOut (q : Qp) : Nat := countOf (fun o => o.kind == .read) q.ops

/-- The durable marks are frozen and no RDMA READ is issued: power fails, or a reset or the hold of a critical condition is due
(06_brine_write_path.md R148; 22_power_electrical.md R511, R514). -/
def State.frozen (s : State) : Bool := s.pwr.dumping || s.pwr.pfail || s.pwr.holding || s.boot.resetReq.isSome

/-- A message is sent on an established queue pair: it takes its PSNs and is kept until it is acknowledged. It is held while the context is
fetched (R107) or an RNR wait runs (R113); an RDMA READ also beyond the initiator depth, behind the gate of R371 (R104) or while the marks are frozen (06_brine_write_path.md R148). -/
def State.sendOp (s : State) (idx : Nat) (o : SendOp) : State :=
  match s.qp? idx with
  | none => s
  | some q =>
    let hold := s.putQp { q with held := q.held ++ [o] }
    if q.st ≠ .connected then s
    else if !q.cached then hold.fetchCtx idx
    else if q.rnrWait ∨ (o.kind = .read ∧ (q.readsOut ≥ q.ord ∨ s.gateClosed ∨ s.frozen)) then hold
    else
      let o := { o with psn := q.spsn, pkts := q.packets o.len }
      let q := { q with spsn := (q.spsn + o.pkts) % 2 ^ 24, ops := q.ops ++ [o] }
      (s.putQp q).wire q o

/-- A message before it is sent. -/
def newOp (kind : SendKind) (cmd addr key len imm : Nat) (data : Bytes) : SendOp :=
  { kind := kind, psn := 0, pkts := 1, data := data, cmd := cmd, addr := addr, key := key, len := len, got := 0, imm := imm }

/-- A response capsule: an NVMe completion as a SEND, with Invalidate where the command asks for it (R103). -/
def State.sendCapsule (s : State) (idx : Nat) (inv : Option Nat) (cqe : Bytes) : State :=
  match inv with
  | some k => s.sendOp idx (newOp .sendInv 0 0 0 cqe.length k cqe)
  | none => s.sendOp idx (newOp .send 0 0 0 cqe.length 0 cqe)

/-- Data to a client buffer as an RDMA WRITE (R103). -/
def State.rdmaWrite (s : State) (idx cmd addr key : Nat) (data : Bytes) : State := s.sendOp idx (newOp .write cmd addr key data.length 0 data)

/-- A replication message as an RDMA WRITE with Immediate (R103; 14_snapshots_replication.md R349). -/
def State.rdmaWriteImm (s : State) (idx addr key imm : Nat) (data : Bytes) : State :=
  s.sendOp idx (newOp .writeImm 0 addr key data.length imm data)

/-- Data from a client buffer by RDMA READ (R112). -/
def State.rdmaRead (s : State) (idx cmd addr key len : Nat) : State := s.sendOp idx (newOp .read cmd addr key len 0 [])

/-- The 16 bytes of an NVMe completion entry (04_host_queues.md R71): DW0, DW1, submission queue head and identifier, command identifier,
phase tag and status. -/
def cqeBytes (sqhd sqid cid : Nat) (phase : Bool) (sct sc : Nat) (dnr : Bool) (dw0 dw1 : Nat) : Bytes :=
  leBytes 4 dw0 ++ leBytes 4 dw1 ++ leBytes 2 sqhd ++ leBytes 2 sqid ++ leBytes 2 cid ++
    leBytes 2 (b2n phase + 2 * (sc + 256 * sct + 16384 * b2n dnr))

/-- The queue context of an index. -/
def State.qctx? (s : State) (i : Nat) : Option QCtx := findKey QCtx.idx i s.hq.ctxs

/-- A queue context belongs to a fabric queue. -/
def QCtx.fabric (q : QCtx) : Bool := q.kind == .fabAdmin || q.kind == .fabIo

/-- A completion entry takes its place at the tail of a host-side completion queue; the phase tag inverts with each pass (R71, R74). -/
def QCtx.posted1 (q : QCtx) : QCtx :=
  let next := (q.cqTail + 1) % Nat.max 1 q.size
  { q with cqTail := next, phase := if next = 0 then !q.phase else q.phase }

/-- A completion goes out: as an entry in the host-side completion queue with its MSI-X message, or as a response capsule (R71, R74). -/
def State.sendCqe (s : State) (i cid sct sc : Nat) (dnr : Bool) (dw0 dw1 : Nat) : State :=
  match s.qctx? i with
  | some q =>
    if q.fabric then
      let s := { s with hq.ctxs := putKey QCtx.idx { q with inv := dropKey Prod.fst cid q.inv } s.hq.ctxs }
      s.sendCapsule i ((findKey Prod.fst cid q.inv).map Prod.snd) (cqeBytes q.sqHead 0 cid false sct sc dnr dw0 dw1)
    else
      let s := { s with hq.ctxs := putKey QCtx.idx q.posted1 s.hq.ctxs }
      (s.emit (.hostWrite (q.cqBase + 16 * q.cqTail) (cqeBytes q.sqHead q.qid cid q.phase sct sc dnr dw0 dw1))).emit (.msix q.vec)
  | none => s.sendCapsule i none (cqeBytes 0 0 cid false sct sc dnr dw0 dw1)

/-- Something leaves: a completion goes to its queue, read data of a client as RDMA WRITEs. -/
def State.transmit (s : State) (o : Out) : State :=
  match o with
  | .cqe q cid sct sc dnr d0 d1 => (s.emit o).sendCqe q cid sct sc dnr d0 d1
  | .clientWrite q cmd addr key data => s.rdmaWrite q cmd addr key data
  | _ => s.emit o

/-- A completion or read data leaves, or waits behind the gate (15_pair_operation.md R371). -/
def State.deliver (s : State) (o : Out) : State :=
  if s.gateClosed then { s with pair.gated := s.pair.gated ++ [o] } else s.transmit o

/-- A completion is posted on a queue; a fabric queue hands its receive back with it. A queue that is gone or failed gets none
(04_host_queues.md R74, R85). -/
def State.complete (s : State) (qctx cid sct sc : Nat) (dnr : Bool) (dw0 dw1 : Nat) : State :=
  match s.qctx? qctx with
  | none => s
  | some q =>
    if q.fabric then
      match s.qp? qctx with
      | some p =>
        if p.st = .connected then
          (s.putQp { p with capsules := p.capsules - 1 }).deliver (.cqe qctx cid sct sc dnr dw0 dw1)
        else s
      | none => s
    else s.deliver (.cqe qctx cid sct sc dnr dw0 dw1)

/-- Messages that were held are sent, in order, as far as they may go now. -/
def State.pumpReads (s : State) (idx : Nat) : State :=
  match s.qp? idx with
  | none => s
  | some q => q.held.foldl (fun s o => s.sendOp idx o) (s.putQp { q with held := [] })

/-- The gate lifts: what waited leaves in order (R371). -/
def State.liftGate (s : State) : State :=
  let os := s.pair.gated
  let s := { s with pair.gated := [] }
  let s := os.foldl State.transmit s
  s.xpt.qps.foldl (fun s q => s.pumpReads q.idx) s

/-- A free value of 64 bits, and the state in which the next one is drawn. (DESIGN CHOICE, log 10) -/
def State.fresh (s : State) : DWord × State := (Config.freeValue s.free, { s with free := s.free + 1 })

/-- Sixteen, thirty-two or more random bytes of the DRBG, and the state after the draw (09_cipher_digest.md R210). -/
def State.drbgBytes (s : State) (n : Nat) : Bytes × State :=
  ((List.range n).map (Config.drbg s.free), { s with free := s.free + 1 })

/-! ### Asynchronous events (19_event_recorder.md R454) -/

/-- The admin queue context of a controller. -/
def State.adminCtx (s : State) (ctrl : Nat) : Option QCtx :=
  s.hq.ctxs.find? fun q => q.ctrl == ctrl && (q.kind == .fabAdmin || q.kind == .hostAdmin)

/-- An event leaves on a held Asynchronous Event Request, or waits for one (04_host_queues.md R72). -/
def State.sendAen (s : State) (ctrl typ info lid : Nat) : State :=
  match findKey Controller.id ctrl s.hq.ctrls with
  | none => s
  | some c =>
    match c.aers with
    | cid :: rest =>
      let s := { s with hq.ctrls := putKey Controller.id { c with aers := rest } s.hq.ctrls }
      let s := match s.adminCtx ctrl with
        | some q => s.complete q.idx cid 0 0 false (typ + info * 256 + lid * 65536) 0
        | none => s
      s.deliver (.aen ctrl typ info lid)
    | [] => { s with hq.ctrls := putKey Controller.id { c with backlog := c.backlog ++ [(typ, info, lid)] } s.hq.ctrls }

/-- Is this the coalescing entry of a controller, type and information? -/
def AenSlot.is (a : AenSlot) (ctrl typ info : Nat) : Bool := a.ctrl == ctrl && a.typ == typ && a.info == info

/-- An event is posted on a controller, at most once per AEN_MS and until its log page has been read (R454). -/
def State.postAen (s : State) (ctrl typ info lid : Nat) : State :=
  match s.evr.aen.find? (·.is ctrl typ info) with
  | none =>
    let s := { s with evr.aen := s.evr.aen ++ [AenSlot.mk ctrl typ info lid true true false] }
    s.sendAen ctrl typ info lid
  | some a =>
    if a.windowOpen || a.unread then
      { s with evr.aen := mapIf (·.is ctrl typ info) (fun b => { b with waiting := true }) s.evr.aen }
    else
      let fire : AenSlot → AenSlot := fun b => { b with windowOpen := true, unread := true, waiting := false }
      let s := { s with evr.aen := mapIf (·.is ctrl typ info) fire s.evr.aen }
      s.sendAen ctrl typ info lid

/-- A held event leaves if its window has ended and its log page has been read (R454). -/
def State.retryAen (s : State) (ctrl typ info : Nat) : State :=
  match s.evr.aen.find? (·.is ctrl typ info) with
  | some a => if a.waiting && !a.windowOpen && !a.unread then s.postAen ctrl typ info a.lid else s
  | none => s

/-- An event is posted on every controller of the head. -/
def State.postAenAll (s : State) (typ info lid : Nat) : State :=
  s.hq.ctrls.foldl (fun s c => s.postAen c.id typ info lid) s

/-- The information of the SMART / Health event of a Critical Warning bit: spare 2, temperature 1, else reliability 0 (log 36). -/
def warnInfo : Nat → Nat
  | 0 => 2
  | 1 => 1
  | _ => 0

/-- A Critical Warning bit sets: the SMART / Health Status event is posted where it is enabled (12_harvest_health.md R307). -/
def State.warnOn (s : State) (b : Nat) : State :=
  if s.hq.warned.testBit b then s
  else
    let s := { s with hq.warned := putBits s.hq.warned b b 1 }
    let on (c : Controller) : Bool := ((findKey Prod.fst 0x0B c.feats).map Prod.snd).getD 0 |>.testBit b
    (s.hq.ctrls.filter on).foldl (fun s c => s.postAen c.id 1 (warnInfo b) 2) s

/-- A Critical Warning bit clears. -/
def State.warnOff (s : State) (b : Nat) : State := { s with hq.warned := putBits s.hq.warned b b 0 }

/-! ### Items of event records (R438) -/

/-- The first word of an item. -/
def evWord (typ words inl : Nat) : DWord := BitVec.ofNat 64 (typ + words * 256 + inl * 65536)
/-- UNIT item. -/
def evUnit (u : Nat) : List DWord := [evWord 1 1 u]
/-- STATE item: old, new, cause. (DESIGN CHOICE, log 11) -/
def evState (old new cause : Nat) : List DWord := [evWord 2 1 (old + new * 256 + cause * 65536)]
/-- STATUS item: kind 0 Ixydo, 1 NVMe, 2 module status. -/
def evStatus (kind st : Nat) : List DWord := [evWord 3 1 (st + kind * 65536)]
/-- ADDR item. -/
def evAddr (space a : Nat) : List DWord := [evWord 4 2 space, BitVec.ofNat 64 a]
/-- VALUE item, unsigned. -/
def evValue (v : Nat) : List DWord := [evWord 5 2 0, BitVec.ofNat 64 v]
/-- VALUE item, signed. -/
def evValueS (v : Int) : List DWord := [evWord 5 2 1, BitVec.ofInt 64 v]
/-- NSID item. -/
def evNsid (n : Nat) : List DWord := [evWord 6 1 n]
/-- SEQ item: kind 0 journal, 1 event. -/
def evSeq (kind v : Nat) : List DWord := [evWord 7 2 kind, BitVec.ofNat 64 v]
/-- TIME item. -/
def evTime (t : Nat) : List DWord := [evWord 8 2 0, BitVec.ofNat 64 t]
/-- COUNT item of a class. -/
def evCount (cls v : Nat) : List DWord := [evWord 9 2 cls, BitVec.ofNat 64 v]
/-- EVENT item. -/
def evEvent (code unit : Nat) : List DWord := [evWord 10 1 (code + unit * 256)]

/-! ### The event recorder -/

/-- The length of a record in bytes (R436, R437). -/
def EvRec.bytes (r : EvRec) : Nat := 8 * (3 + r.items.length)

/-- The fill bytes that a record of `n` bytes needs before it in the present page (R437). -/
def evFill (pageFill n : Nat) : Nat := if pageFill + n > 4096 then 4096 - pageFill else 0

/-- A flush starts, or is noted to follow the running one; it pads its last page (R445, R446). -/
def State.flushStart (s : State) : State :=
  if s.evr.flushing then { s with evr.flushPend := true }
  else if s.evr.awaitBytes = 0 then s
  else
    let pad := if s.evr.pageFill = 0 then 0 else 4096 - s.evr.pageFill
    { s with
      evr.flushing := true
      evr.flushRecs := s.evr.awaiting.length
      evr.flushBytes := s.evr.awaitBytes + pad
      evr.awaitBytes := s.evr.awaitBytes + pad
      evr.pageFill := 0 }

/-- A record is appended to the buffer: it takes the next sequence and its bytes with their fill (R437, R441). -/
def State.appendRec (s : State) (r : EvRec) : State :=
  let fill := evFill s.evr.pageFill r.bytes
  let seq := (s.evr.seq + 1) % 2 ^ 32
  { s with
    evr.seq := seq
    evr.awaiting := s.evr.awaiting ++ [{ r with seq := seq }]
    evr.awaitBytes := s.evr.awaitBytes + fill + r.bytes
    evr.pageFill := (s.evr.pageFill + fill + r.bytes) % 4096 }.bump R.EVR_REC_CNT

/-- A record at or above AEN_SEV is counted and posts the vendor event on the host-side admin queue (R454). -/
def State.notifyRec (s : State) (sev : Nat) : State :=
  if s.fld R.EVR_CFG 31 28 ≤ sev then
    let s := { s with evr.noticeCnt := s.evr.noticeCnt + 1, evr.maxSev := Nat.max s.evr.maxSev sev }
    match s.hq.ctrls.find? (·.host) with
    | some c => s.postAen c.id 7 0 0xC1
    | none => s
  else s

/-- The triggers of a flush that an appended record can pull (R445). -/
def State.flushTriggers (s : State) (sev : Nat) : State :=
  let s := if s.evr.awaitBytes - s.evr.flushBytes ≥ 65536 then s.flushStart else s
  let due := match s.evr.lastSevFlush with
    | none => true
    | some t => decide (t + 10000000 ≤ s.tide.time) || decide (s.tide.time < t)
  if s.fld R.EVR_CFG 27 24 ≤ sev ∧ due = true then
    let s := { s with evr.lastSevFlush := some s.tide.time }
    s.flushStart
  else s

/-- Bytes that may await flushing for a record of this severity (R444). -/
def evLimit (sev : Nat) : Nat := if sev ≥ 4 then 262144 else 262144 - 32768

/-- A record that is exempt from rate limiting (R443). -/
def evExempt (code sev : Nat) : Bool := decide (sev ≥ 5) || (decide (0x10 ≤ code) && decide (code ≤ 0x13))

/-- The drops of a class since the last refill, with one more (R443). -/
def evNoteDrop (ds : List EvDrop) (cls code unit : Nat) : List EvDrop :=
  match findKey EvDrop.cls cls ds with
  | some d => putKey EvDrop.cls { d with count := d.count + 1 } ds
  | none => ds ++ [⟨cls, 1, code, unit⟩]

/-- A new record taken through room and append (R444): the state, and whether it was lost for want of room with severity
4 to 6. -/
def State.evAdmit (s : State) (r : EvRec) : State × Bool :=
  let need := evFill s.evr.pageFill r.bytes + r.bytes
  if s.evr.awaitBytes + need > evLimit r.sev then (s.bump R.EVR_RESERVE_DROP_CNT, decide (r.sev ≥ 4))
  else (((s.appendRec r).notifyRec r.sev).flushTriggers r.sev, false)

/-- The bytes of the reserve of R444 that are taken: held records, and what awaits flushing beyond the common part. -/
def State.reserveUsed (s : State) : Nat := s.evr.heldBytes + (s.evr.awaitBytes - (262144 - 32768))

/-- Rate limiting of a record of severity 0 to 4 (R443): none where the record is dropped. -/
def State.evRate (s : State) (cls code sev : Nat) : Option State :=
  if evExempt code sev || s.fld (R.EVR_RATE cls) 15 0 == 0 then some s
  else
    match s.evr.allow[cls]? with
    | some (n + 1) => some { s with evr.allow := s.evr.allow.set cls n }
    | _ => none

/-- The last appended record, where its flush has not started (R442). -/
def State.foldTarget (s : State) : Option EvRec :=
  if s.evr.awaiting.length > (if s.evr.flushing then s.evr.flushRecs else 0) then s.evr.awaiting.getLast? else none

/-- Does an occurrence fold into a record (R442)? -/
def EvRec.matches (r : EvRec) (cls code sev unit : Nat) (items : List DWord) : Bool :=
  r.cls == cls && r.code == code && r.sev == sev && r.unit == unit && r.items == items

/-- An occurrence folds into the last record (R442). -/
def State.evFoldInto (s : State) (r : EvRec) : State :=
  if r.rept ≥ 0xFFFF then
    { s with evr.awaiting := s.evr.awaiting.dropLast ++ [{ r with sat := true }] }.bump R.EVR_SAT_LOST_CNT
  else { s with evr.awaiting := s.evr.awaiting.dropLast ++ [{ r with rept := r.rept + 1 }] }.bump R.EVR_FOLD_CNT

/-- An event goes through the recorder: freeze, fold, rate, room, append (R441-R449). The answer says whether a record of
severity 4 to 6 found no room. (DESIGN CHOICE, log 75) -/
def State.evCore (s : State) (cls code sev unit : Nat) (items : List DWord) (late : Bool) : State × Bool :=
  let r : EvRec :=
    { seq := 0, cls := cls, code := code, sev := sev, unit := unit, rept := 1, time := s.tide.time, sat := false,
      held := false, late := late, timeInvalid := s.tide.state == .freerun, items := items }
  let drop (s : State) : State :=
    { s.bump (R.EVR_DROP_CNT cls) with evr.drops := evNoteDrop s.evr.drops cls code unit }
  if s.evr.frozen then
    if sev ≤ 3 then
      let s := drop (s.bump R.EVR_FROZEN_DROP_CNT)
      ({ s with evr.frozenDrops := if s.evr.frozenDrops.contains cls then s.evr.frozenDrops else s.evr.frozenDrops ++ [cls] },
        false)
    else
      match s.evRate cls code sev with
      | none => (drop s, false)
      | some s =>
        if s.reserveUsed + r.bytes > 32768 then (s.bump R.EVR_RESERVE_DROP_CNT, true)
        else
          ({ s with
              evr.heldRecs := s.evr.heldRecs ++ [{ r with held := true }]
              evr.heldBytes := s.evr.heldBytes + r.bytes }, false)
  else
    match s.foldTarget with
    | some l =>
      if l.matches cls code sev unit items then (s.evFoldInto l, false)
      else
        match s.evRate cls code sev with
        | none => (drop s, false)
        | some s => s.evAdmit r
    | none =>
      match s.evRate cls code sev with
      | none => (drop s, false)
      | some s => s.evAdmit r

/-! ### The pair transaction layer, sending side (15_pair_operation.md R360-R363) -/

/-- Channel number `c` of the pair. -/
def State.chan (s : State) (c : Nat) : PtlChan := s.pair.chans.getD c PtlChan.reset

/-- `s` with channel `c` replaced. -/
def State.setChan (s : State) (c : Nat) (ch : PtlChan) : State := { s with pair.chans := s.pair.chans.set c ch }

/-- The output that one sequenced message is (R360): FLAGS bit 0 ACK_V, bit 1 MORE. -/
def ptlOut (s : State) (c : Nat) (m : PtlMsg) : Out :=
  .ptl m.typ (1 + b2n m.more * 2) m.seq ((s.chan c).expect - 1) c m.payload

/-- One sequenced message goes out and is held until it is acknowledged (R362). -/
def State.ptlOne (s : State) (c typ : Nat) (more : Bool) (payload : Bytes) : State :=
  let ch := s.chan c
  let m : PtlMsg := ⟨ch.next, typ, more, payload⟩
  let s := s.setChan c { ch with next := (ch.next + 1) % 2 ^ 32, held := ch.held ++ [m] }
  if s.pair.icl = 0 then s else s.emit (ptlOut s c m)

/-- A chain of fragments of 65,532 bytes, the last one with the rest (R363). -/
def State.ptlChain (s : State) (c typ : Nat) (payload : Bytes) : Nat → State
  | 0 => s.ptlOne c typ false payload
  | n + 1 =>
    if payload.length ≤ 65535 then s.ptlOne c typ false payload
    else (s.ptlOne c typ true (payload.take 65532)).ptlChain c typ (payload.drop 65532) n

/-- A message of the pair transaction layer is sent on a sequenced channel. -/
def State.ptlSend (s : State) (c typ : Nat) (payload : Bytes) : State :=
  s.ptlChain c typ payload (payload.length / 65532 + 1)

/-- An unsequenced message is sent, while the ICL is up. -/
def State.ptlRaw (s : State) (typ : Nat) (payload : Bytes) : State :=
  if s.pair.icl = 0 then s else s.emit (.ptl typ 0 0 0 0xFF payload)

/-- A CONTROL message of a subtype is sent (R364). -/
def State.control (s : State) (sub : Nat) (payload : Bytes) : State := s.ptlSend 0 0x07 (leBytes 2 sub ++ payload)

/-- The peer head is in service: the pair is PAIRED or SUSPECT. -/
def State.peerInService (s : State) : Bool := s.pair.state == .paired || s.pair.state == .suspect

/-- BRN_LOST_FROM: the first lost sequence of the own journal; of an adopted one where that alone has lost writes (06_brine_write_path.md R154,
R156; DESIGN CHOICE, log 130). -/
def State.lostFrom (s : State) : Nat :=
  (((s.brn.lost.find? fun x => x.1 == s.role).or s.brn.lost.head?).map Prod.snd).getD 0

/-! ### Alarms (R452, R453) -/

/-- The latched bits that are not masked; KEY_ERASE cannot be masked. -/
def State.alarmActive (s : State) : Nat :=
  (s.rd R.EVR_ALARM).toNat &&& ((0x7FF ^^^ (s.rd R.EVR_ALARM_MASK).toNat % 0x800) ||| 1)

/-- ALERT_N follows the latched unmasked bits (R452). -/
def State.driveAlert (s : State) : State := s.emit (.pin .alertN (s.alarmActive == 0))

/-- An alarm bit is latched: on its 0 to 1 transition the MSI-X message, ALERT_N and the peer notice follow. -/
def State.latchAlarm (s : State) (b : Nat) : State :=
  if (s.rd R.EVR_ALARM).toNat.testBit b then s
  else
    let s := s.wr R.EVR_ALARM (s.rd R.EVR_ALARM ||| BitVec.ofNat 64 (2 ^ b))
    let s := if s.alarmActive.testBit b then (s.emit (.msix 0)).driveAlert else s
    if b ≤ 6 ∨ b = 9 then
      s.control 0x000B ([0, 0] ++ leBytes 4 (s.rd R.EVR_ALARM).toNat ++ leBytes 8 s.tide.time)
    else s

/-- An event is recorded (R525); a record of severity 4 to 6 that finds no room latches EVR_LOSS (R444). -/
def State.event (s : State) (cls code sev unit : Nat) (items : List DWord) (late : Bool := false) : State :=
  match s.evCore cls code sev unit items late with
  | (s, false) => s
  | (s, true) =>
    let s := s.latchAlarm 10
    (s.evCore 0x14 0x09 5 0 (evValue 262144 ++ evCount cls (s.rd (R.EVR_DROP_CNT cls)).toNat) false).1

/-- The Critical Warning bit that an alarm condition sets, if any (12_harvest_health.md R307). -/
def alarmWarn : Nat → Option Nat
  | 3 => some 2
  | 4 => some 2
  | 5 => some 3
  | _ => none

/-- An alarm condition arises: its bit is latched and its record of severity 5 is made (R452). -/
def State.alarm (s : State) (b cls code unit : Nat) (items : List DWord) : State :=
  let s := (s.latchAlarm b).event cls code 5 unit items
  match alarmWarn b with
  | some w => s.warnOn w
  | none => s

/-! ### Event codes (R440) -/

/-- STATE_CHANGE. -/ def evcState := 0x01
/-- CORRECTED. -/ def evcCorrected := 0x02
/-- UNCORRECTED. -/ def evcUncorrected := 0x03
/-- DROPPED. -/ def evcDropped := 0x04
/-- THRESHOLD. -/ def evcThreshold := 0x05
/-- CONFIG. -/ def evcConfig := 0x06
/-- REISSUED. -/ def evcReissued := 0x07
/-- REFUSED. -/ def evcRefused := 0x08
/-- LIMIT. -/ def evcLimit := 0x09
/-- SECURITY. -/ def evcSecurity := 0x0A
/-- TIME. -/ def evcTime := 0x0B

end Sys2Proof.Machine
end

