-- ==== Sys2Proof/Machine/Flash.lean ====
section
/-! DEFINITION. The system flash as a memory: pages, blocks, partitions and record logs (18_system_flash.md R421-R423, R428-R430). -/
namespace Sys2Proof.Machine

/-! ### Bytes, pages and blocks (R421) -/

/-- A byte of the system flash; that of a page of undefined content is free (R428, R432). -/
def State.sflByte (s : State) (a : Nat) : Byte :=
  match findKey Prod.fst (a / 4096) s.sfl.undef with
  | some u => Config.freeByte u.2 (a % 4096)
  | none => memRead 0xFF s.sfl.mem a

/-- Bytes from a flash address on. -/
def State.sflBytes (s : State) (a n : Nat) : Bytes := (List.range n).map fun i => s.sflByte (a + i)

/-- A page takes 4,096 bytes. -/
def State.sflPut (s : State) (page : Nat) (b : Bytes) : State :=
  { s with
    sfl.mem := memWriteAll 0xFF s.sfl.mem (page * 4096) (slice b 0 4096)
    sfl.programmed := if s.sfl.programmed.contains page then s.sfl.programmed else page :: s.sfl.programmed
    sfl.undef := dropKey Prod.fst page s.sfl.undef }

/-- A page holds nothing that the spec states. -/
def State.sflLoose (s : State) (page : Nat) : State :=
  { s with
    sfl.programmed := if s.sfl.programmed.contains page then s.sfl.programmed else page :: s.sfl.programmed
    sfl.undef := putKey Prod.fst (page, s.free) s.sfl.undef
    free := s.free + 1 }

/-- A block is erased: 64 pages of 0xFF. -/
def State.sflClear (s : State) (blk : Nat) : State :=
  { s with
    sfl.mem := s.sfl.mem.filter fun c => c.1 / 262144 != blk
    sfl.programmed := s.sfl.programmed.filter fun p => p / 64 != blk
    sfl.undef := s.sfl.undef.filter fun u => u.1 / 64 != blk
    sfl.progFails := dropKey Prod.fst blk s.sfl.progFails }

/-! ### Partitions (R422) -/

/-- A page lies in reserved space. -/
def sflReserved (page : Nat) : Bool :=
  (decide (0xA40 ≤ page) && decide (page < 0x20000)) || (decide (0x70000 ≤ page) && decide (page < 0x80000)) || decide (0xC0000 ≤ page)

/-- A page of the KEYS partition. -/
def sflKeys (page : Nat) : Bool := decide (0x40 ≤ page) && decide (page < 0x240)

/-- The first page of the log of a PART (R422, R430). -/
def logBase (part : Nat) : Nat := 0x40 + (part - 1) * 0x200

/-! ### The calibration row (R423) -/

/-- A copy of the calibration row checks: MAGIC, FORMAT, and its CRC with the field taken as 0. -/
def calOk (b : Bytes) : Bool :=
  leAt b 0 4 == 0x43414C52 && leAt b 4 2 == 1 && leAt b 60 4 == crc32c (b.take 60 ++ List.replicate 4 0 ++ b.drop 64)

/-- The first copy of the calibration row whose CRC checks. -/
def State.calRow (s : State) : Option Bytes :=
  ([0, 1, 2, 3].map fun i => s.sflBytes (i * 0x10000) 0x10000).find? calOk

/-! ### Record logs (R428-R430) -/

/-- A record log as it stands. -/
def State.sflLog (s : State) (part : Nat) : SflLog := (findKey SflLog.part part s.sfl.logs).getD ⟨part, 0, 0, []⟩

/-- The next page of a log that lies in no retired block (R429). -/
def State.logSkip (s : State) (base : Nat) : Nat → Nat → Nat
  | 0, p => p
  | n + 1, p => if s.sfl.retired.contains ((base + p) / 64) then s.logSkip base n ((p / 64 + 1) % 8 * 64) else p

/-- The page of a record (R430). -/
def logPage (part typ seq time : Nat) (body : Bytes) : Bytes :=
  let h := leBytes 4 0x53464C52 ++ leBytes 1 part ++ leBytes 1 typ ++ leBytes 2 body.length ++ leBytes 8 seq ++ leBytes 8 time ++ leBytes 4 0
  let p := h ++ leBytes 4 (crc32c (h ++ body)) ++ body
  p ++ List.replicate (4096 - p.length) 0xFF

/-- One record is written to the next page of its log and read back; without a body its page is one that the spec does not lay out. -/
def State.logOne (s : State) (part typ : Nat) (body : Option Bytes) : State :=
  let l := s.sflLog part
  let base := logBase part
  let p := s.logSkip base 8 l.next
  let s := match body with
    | some b => s.sflPut (base + p) (logPage part typ (l.seq + 1) s.tide.time b)
    | none => s.sflLoose (base + p)
  let l := { l with seq := l.seq + 1, next := (p + 1) % 512, cur := putKey Prod.fst (typ, p) l.cur }
  { s with sfl.logs := putKey SflLog.part l s.sfl.logs }.bump R.SFL_PROG_CNT

/-- A current record is written again, so that its block may be erased. -/
def State.logCopy (s : State) (part : Nat) (c : Nat × Nat) : State :=
  let page := logBase part + c.2
  if s.sfl.undef.any fun u => u.1 == page then s.logOne part c.1 none
  else
    let b := s.sflBytes (page * 4096) 4096
    s.logOne part c.1 (some (slice b 32 (leAt b 6 2)))

/-- A record is written. With the first page of a block taken, the oldest block is freed: its current records are written again, then it is
erased (R430). -/
def State.logRecord (s : State) (part typ : Nat) (body : Option Bytes) : State :=
  let s := s.logOne part typ body
  let l := s.sflLog part
  if l.next % 64 ≠ 1 then s
  else
    let old := (l.next / 64 + 1) % 8
    let s := (l.cur.filter fun c => c.2 / 64 == old).foldl (fun (s : State) c => s.logCopy part c) s
    let blk := logBase part / 64 + old
    if s.sfl.programmed.any fun p => p / 64 == blk then (s.sflClear blk).bump R.SFL_ERASE_CNT else s

/-- A record of KEYS, PROGRESS or HEALTH is written: the spec gives neither its TYPE nor its payload (log 55). -/
def State.noteRecord (s : State) (part : Nat) : State := s.logRecord part 0 none

/-- A record read at threshold set 5 or above is written again (R426). -/
def State.refreshPage (s : State) (page : Nat) : State :=
  match [1, 2, 3, 4, 5].find? fun p => decide (logBase p ≤ page) && decide (page < logBase p + 512) with
  | none => s
  | some p =>
    match (s.sflLog p).cur.find? fun c => logBase p + c.2 == page with
    | some c => s.logCopy p c
    | none => s

/-- A new dump key, of two halves, is made and stored, wrapped under the device key, with the DUMP_EPOCH that the next dump will use
(06_brine_write_path.md R150; 09_cipher_digest.md R208, R211). -/
def State.newDumpKey (s : State) : State :=
  match s.drbgBytes 64 with
  | (k, s) =>
    { s with keys.dumpKey := some k, keys.dumpStored := some (s.brn.dumpEpoch + 1, Config.keyWrap Config.deviceKey k) }.noteRecord 1

/-! ### Retirement (R429) -/

/-- The bitmap of retired blocks, 2,048 bytes. -/
def State.bbtBytes (s : State) : Bytes :=
  (List.range 2048).map fun i => BitVec.ofNat 8 (sumOf ((s.sfl.retired.filter fun b => b / 8 == i).map fun b => 2 ^ (b % 8)))

/-- A block is retired: its bit is set in the BBT log, and the retirement is counted and recorded. -/
def State.sflRetire (s : State) (blk : Nat) : State :=
  if s.sfl.retired.contains blk then s
  else
    let s := { s with sfl.retired := blk :: s.sfl.retired }.bump R.SFL_RETIRE_CNT
    let s := s.logRecord 5 (Config.bbtType % 256) (some s.bbtBytes)
    s.event 0x10 evcUncorrected 3 0 (evAddr 4 (blk * 262144))

end Sys2Proof.Machine
end

