-- ==== Sys2Proof/Machine/Units.lean ====
section
/-! DEFINITION. Unit IDs, the unit tree, descriptors and geometry (01_architecture.md R22-R26; 10_media_units_pans.md
R237-R247; 11_flash_translation.md R270-R272). -/
namespace Sys2Proof.Machine

/-- The class of a unit ID (R22). -/
def unitClass (u : Nat) : Nat := u / 0x100000
/-- The index of a unit ID (R22). -/
def unitIndex (u : Nat) : Nat := u % 0x100000
/-- The unit ID of a class and index. -/
def unitId (c i : Nat) : Nat := c * 0x100000 + i

/-- One past the last index of each class (R23). -/
def classCount : Nat → Nat
  | 0 => 1 | 1 => 50 | 2 => 7 | 3 => 26 | 4 => 400 | 5 => 32 | 6 => 32768 | 7 => 1048576 | 8 => 81 | 9 => 96 | _ => 0

/-- An index below its class's end that the table of R23 gives to no unit: memory 28 to 31. -/
def unitHole (u : Nat) : Bool := unitClass u == 8 && decide (28 ≤ unitIndex u) && decide (unitIndex u ≤ 31)

/-- A unit ID names a unit (R22, R23). -/
def unitValid (u : Nat) : Bool := decide (unitIndex u < classCount (unitClass u)) && !unitHole u

/-- A unit shared by the pair (R26). -/
def unitShared (u : Nat) : Bool := decide (5 ≤ unitClass u) && decide (unitClass u ≤ 7)

/-- The die unit of a module and position (R23). -/
def dieUnit (m p : Nat) : Nat := unitId 6 (m * 1024 + p)
/-- The module number of a die. -/
def dieModule (d : Nat) : Nat := unitIndex d / 1024
/-- The position of a die in its module. -/
def diePos (d : Nat) : Nat := unitIndex d % 1024

/-- The cluster of a core (R23). -/
def coreCluster (i : Nat) : Nat :=
  if i < 112 then i / 14 else if i < 176 then 8 + (i - 112) / 16 else if i < 304 then 12 + (i - 176) / 32
  else if i < 352 then 16 + (i - 304) / 12 else 22 + (i - 352) / 12

/-- The engine of a cluster (R23). -/
def clusterEngine (c : Nat) : Nat :=
  if c < 8 then 0 else if c < 12 then 1 else if c < 16 then 2 else if c < 20 then 3 else if c < 22 then 4 else 6

/-- The clusters of an engine (R23). -/
def engineClusters : Nat → List Nat
  | 0 => List.range 8 | 1 => [8, 9, 10, 11] | 2 => [12, 13, 14, 15] | 3 => [16, 17, 18, 19] | 4 => [20, 21]
  | 6 => [22, 23, 24, 25] | _ => []

/-- The cores of a cluster (R23). -/
def clusterCores (c : Nat) : List Nat :=
  let run (first n : Nat) : List Nat := (List.range n).map (first + ·)
  if c < 8 then run (14 * c) 14 else if c < 12 then run (112 + 16 * (c - 8)) 16 else if c < 16 then run (176 + 32 * (c - 12)) 32
  else if c < 20 then run (304 + 12 * (c - 16)) 12 else if 22 ≤ c ∧ c < 26 then run (352 + 12 * (c - 22)) 12 else []

/-- A position whose member has left its pan, while no substitute has taken it: a number above the unit IDs, never shown (log 141). -/
def vacantUnit (pan pos : Nat) : Nat := 2 ^ 24 + pan * 256 + pos

/-- The fixed parent of a head-local unit (R24), and the pan of a vacant position. -/
def fixedParent (u : Nat) : Nat :=
  if u ≥ 2 ^ 24 then (u - 2 ^ 24) / 256
  else if unitClass u = 4 then unitId 3 (coreCluster (unitIndex u))
  else if unitClass u = 3 then unitId 2 (clusterEngine (unitIndex u))
  else 0

/-- The members of an engine or a cluster, in index order (R24). -/
def fixedMembers (u : Nat) : List Nat :=
  if unitClass u = 2 then (engineClusters (unitIndex u)).map (unitId 3)
  else if unitClass u = 3 then (clusterCores (unitIndex u)).map (unitId 4)
  else []

/-- POSITION of a unit in its fixed parent (R238). -/
def fixedPos (u : Nat) : Nat := if u ≥ 2 ^ 24 then u % 256 else ((fixedMembers (fixedParent u)).findIdx? (· == u)).getD 0

/-- A state's code (R247). -/
def UnitSt.code : UnitSt → Nat
  | .absent => 0 | .online => 1 | .degraded => 2 | .rebuilding => 3 | .offline => 4 | .failed => 5 | .readOnly => 6

/-- The descriptor of a unit that differs from its discovery state, if it does. -/
def State.unit? (s : State) (u : Nat) : Option UnitD := findKey UnitD.id u s.med.units

/-- A descriptor in the discovery state: head-local hardware ONLINE, shared units ABSENT (R248). -/
def blankUnit (u : Nat) : UnitD :=
  { id := u, state := if unitValid u && !unitShared u then .online else .absent, parent := fixedParent u, pos := fixedPos u,
    scheme := if fixedMembers u = [] then 0 else 4, m := 0, members := (fixedMembers u).map fun x => ⟨x, false⟩, root := false, rebuildDone := 0, rebuildTotal := 0, stateTime := 0,
    cause := if unitValid u && !unitShared u then 0xFF else 0 }

/-- The descriptor of a unit. -/
def State.unit (s : State) (u : Nat) : UnitD := (s.unit? u).getD (blankUnit u)

/-- The state of a unit. -/
def State.ust (s : State) (u : Nat) : UnitSt := (s.unit u).state

/-- `s` with a descriptor replaced. -/
def State.putUnit (s : State) (d : UnitD) : State :=
  { s with med.units := putKey UnitD.id d s.med.units }.llcWrite 2 [descLine d.id]

/-- A unit serves reads: ONLINE, DEGRADED, REBUILDING or READ_ONLY (R244). -/
def UnitSt.serving : UnitSt → Bool
  | .online | .degraded | .rebuilding | .readOnly => true
  | _ => false

/-! ### Modules and dies (13_media_link.md R330, R331) -/

/-- A module that the device has seen on a port, or one not seen. -/
def State.mod (s : State) (n : Nat) : Module :=
  (findKey Module.port n s.lnk.mods).getD
    { port := n, present := false, up := false, heldReason := 0, record := [], dies := [], ownRsv := .none,
      otherRsv := .none, ownEpoch := 0, otherEpoch := 0, temp := 0, power := 0, failedDies := 0, proxied := false,
      discovered := false }

/-- `s` with what it knows of a module replaced. -/
def State.putMod (s : State) (m : Module) : State := { s with lnk.mods := putKey Module.port m s.lnk.mods }

/-- The parameter record of a die, empty where none was read. -/
def State.dieRec (s : State) (d : Nat) : Bytes :=
  ((findKey Prod.fst (diePos d) (s.mod (dieModule d)).dies).map Prod.snd).getD []

/-- GOOD of a die record. -/
def recGood (r : Bytes) : Bool := (leAt r 3 1).testBit 0
/-- P_b of a die record. -/
def recPb (r : Bytes) : Nat := leAt r 34 1 * leAt r 30 2
/-- U of a die record. -/
def recU (r : Bytes) : Nat := leAt r 36 2
/-- Bits per cell. -/
def recBits (r : Bytes) : Nat := leAt r 2 1
/-- Program units of a block in SLC mode: it holds 1/b of a native block's data (11_flash_translation.md R285; DEDUCED, log 142). -/
def recSlcU (r : Bytes) : Nat := recU r / Nat.max 1 (recBits r)
/-- GOOD_MIN, the die's logical block count. -/
def recBlocks (r : Bytes) : Nat := leAt r 44 4
/-- PHYS_BLOCKS. -/
def recPhys (r : Bytes) : Nat := leAt r 40 4
/-- The die's data transfer time of n bytes, in ns. -/
def recXfer (r : Bytes) (n : Nat) : Nat := ceilDiv (n * 1000) (leAt r 28 2)

/-- A die's usable capacity in bytes: logical blocks 4 and up. -/
def dieCapacity (r : Bytes) : Nat := (recBlocks r - 4) * recU r * recPb r

/-! ### The tree and its geometry -/

/-- Data columns of a group (R271). -/
def UnitD.dataCols (d : UnitD) : Nat :=
  if d.scheme = 3 then d.members.length - d.m else if d.scheme = 2 then 1 else d.members.length

/-- Failed positions that a group tolerates (R240). -/
def UnitD.tolerance (d : UnitD) : Nat := if d.scheme = 3 then d.m else if d.scheme = 2 then d.m - 1 else 0

/-- A member is in its place and serves. A leaf that came back into service has left its pan, whose list still names it until a substitute takes
the position (R248; log 141). -/
def State.memberServes (s : State) (group u : Nat) : Bool := (s.unit u).parent == group && (s.ust u).serving

/-- A member of a pan counts as failed whether or not it is being rebuilt (R244). A module counts as failed when a die it presented does. -/
def State.memberBad (s : State) (pan : Nat) (m : Member) : Bool :=
  !s.memberServes pan m.unit ||
    (unitClass m.unit == 5 && (s.unit m.unit).members.any fun d => !s.memberServes m.unit d.unit)

/-- A position of a pan counts as failed (R244). -/
def State.posFailed (s : State) (pan : Nat) (m : Member) : Bool := m.subst || s.memberBad pan m

/-- FAILED_CNT of a pan (R244); other units have none. -/
def State.failedCnt (s : State) (d : UnitD) : Nat := if unitClass d.id = 7 then countOf (s.posFailed d.id) d.members else 0

/-- A recursion bound for walks of the tree. -/
def State.depth (s : State) : Nat := s.med.units.length + 1

/-- The units above a unit, nearest first; `n` bounds their number. -/
def State.above (s : State) : Nat → Nat → List Nat
  | 0, _ => []
  | n + 1, u => if u = 0 then [] else (s.unit u).parent :: s.above n (s.unit u).parent

/-- The data crumbs of one row of a unit (R271). -/
def State.crumbsIn (s : State) : Nat → Nat → Nat
  | 0, u => recPb (s.dieRec u) / 256
  | n + 1, u =>
    if unitClass u = 6 then recPb (s.dieRec u) / 256
    else
      match (s.unit u).members with
      | [] => 0
      | m :: _ => (s.unit u).dataCols * s.crumbsIn n m.unit

/-- C of a unit (R271). -/
def State.crumbs (s : State) (u : Nat) : Nat := s.crumbsIn s.depth u

/-- The data crumbs of one row that each member of a group holds. -/
def State.memberCrumbs (s : State) (d : UnitD) : Nat := s.crumbs (d.members.headD ⟨0, false⟩).unit

/-- The dies under a unit, in leaf order. -/
def State.leavesIn (s : State) : Nat → Nat → List Nat
  | 0, u => [u]
  | n + 1, u => if unitClass u = 6 then [u] else (s.unit u).members.flatMap fun m => s.leavesIn n m.unit

/-- The dies under a unit. -/
def State.leaves (s : State) (u : Nat) : List Nat := s.leavesIn s.depth u

/-- The dies under a unit that are in their places, in leaf order. -/
def State.heldIn (s : State) : Nat → Nat → List Nat
  | 0, u => [u]
  | n + 1, u =>
    if unitClass u = 6 then [u]
    else ((s.unit u).members.filter fun m => (s.unit m.unit).parent == u).flatMap fun m => s.heldIn n m.unit

/-- The dies under a unit without those that have left their pan (R248). -/
def State.held (s : State) (u : Nat) : List Nat := s.heldIn s.depth u

/-- The member of a MIRROR that row `r` is read from (R242). -/
def State.mirrorMember (s : State) (d : UnitD) (r : Nat) : Nat :=
  let c := d.members.getD (r % d.members.length) ⟨0, false⟩
  if s.posFailed d.id c then
    let live := d.members.filter fun m => !s.posFailed d.id m
    (live.getD ((r / d.m) % live.length) ⟨0, false⟩).unit
  else c.unit

/-- Where crumb `o` of row `r` lies (R271): the die, and the crumb within its program unit. -/
def State.resolveIn (s : State) : Nat → Nat → Nat → Nat → Nat × Nat
  | 0, u, _, o => (u, o)
  | n + 1, u, r, o =>
    if unitClass u = 6 then (u, o)
    else
      let d := s.unit u
      match d.members with
      | [] => (u, o)
      | m0 :: _ =>
        let c := s.crumbs m0.unit
        let x := if c = 0 then 0 else o / c
        let o' := if c = 0 then 0 else o % c
        let pos := if d.scheme = 2 then r % d.members.length else if unitClass u = 5 then x else (x + r) % d.members.length
        let m := if d.scheme = 2 then s.mirrorMember d r else (d.members.getD pos ⟨0, false⟩).unit
        if (s.unit m).parent = u then s.resolveIn n m r o' else (vacantUnit u pos, o')

/-- The ROOT pan, if one exists (R245). -/
def State.rootPan (s : State) : Option UnitD := s.med.units.find? fun d => d.root && d.state != .absent

/-- The top pan at a position of the ROOT member list (R271). -/
def State.topPan (s : State) (top : Nat) : Nat :=
  match s.rootPan with
  | some r => (r.members.getD top ⟨0, false⟩).unit
  | none => 0

/-- How many top pans there are. -/
def State.topCount (s : State) : Nat :=
  match s.rootPan with
  | some r => r.members.length
  | none => 0

/-- The smallest value of a die record field over the dies of a top pan (R270). -/
def State.topMin (s : State) (top : Nat) (f : Bytes → Nat) : Nat :=
  let vs := (s.leaves (s.topPan top)).map fun d => f (s.dieRec d)
  vs.foldl Nat.min (vs.headD 0)

/-- U of a top pan. -/
def State.topU (s : State) (top : Nat) : Nat := s.topMin top recU
/-- Rows of a stripe block of a top pan, in SLC mode or native (R270, R285). -/
def State.rowsIn (s : State) (top : Nat) (slc : Bool) : Nat := if slc then s.topU top / Nat.max 1 (s.topMin top recBits) else s.topU top
/-- Logical blocks of a top pan. -/
def State.topBlocks (s : State) (top : Nat) : Nat := s.topMin top recBlocks

/-- What a PLOC names (R271): die, logical block, program unit, crumb of the unit. -/
structure Place where
  die : Nat
  blk : Nat
  pu : Nat
  crumb : Nat
  deriving DecidableEq, Repr

/-- resolve(ploc) of R271. -/
def State.resolve (s : State) (ploc : Nat) : Place :=
  let top := ploc / 2 ^ 40
  let c := ploc % 2 ^ 40
  let pan := s.topPan top
  let cp := s.crumbs pan
  let r := if cp = 0 then 0 else c / cp
  let o := if cp = 0 then 0 else c % cp
  let u := s.topU top
  let l := s.resolveIn s.depth pan r o
  { die := l.1, blk := if u = 0 then 0 else r / u, pu := if u = 0 then 0 else r % u, crumb := l.2 }

/-- The dies of a module that were discovered, by position. -/
def State.moduleDies (s : State) (n : Nat) : List Nat :=
  ((s.mod n).dies.map fun p => dieUnit n p.1).filter fun d => (s.ust d) != .absent

/-- A die is in use: it has a parent, or its module is used as a member. -/
def State.dieUsed (s : State) (d : Nat) : Bool :=
  (s.unit d).parent != 0 || (s.unit (unitId 5 (dieModule d))).parent != 0

/-- The dies that a module presents: those it presented when it became a member, or, of a spare one, those ONLINE (R240). -/
def State.presented (s : State) (u : Nat) : List Nat :=
  if (s.unit u).parent = 0 then (s.moduleDies (unitIndex u)).filter fun d => s.ust d == .online
  else (s.unit u).members.map Member.unit

/-- CAPACITY of a shared unit (R243): of a die, its data bytes; of a module, that of the dies it presents, striped. -/
def State.capacityIn (s : State) : Nat → Nat → Nat
  | 0, u => if unitClass u = 6 then dieCapacity (s.dieRec u) else 0
  | n + 1, u =>
    if unitClass u = 6 then dieCapacity (s.dieRec u)
    else
      let ms := if unitClass u = 5 then s.presented u else (s.unit u).members.map Member.unit
      let cs := ms.map fun m => s.capacityIn n m
      let c := cs.foldl Nat.min (cs.headD 0)
      if unitClass u = 5 then c * cs.length else c * (s.unit u).dataCols

/-- The pan factor f of a pan, in 1/65,536 (03_sluice.md R58). -/
def UnitD.factor (d : UnitD) : Nat :=
  let w := d.members.length
  if d.scheme = 1 then 65536
  else
    let k := if d.scheme = 2 then 1 else d.dataCols
    65536 * (w - 1) / (w - 1 + k)

/-- The product of the factors of the pans above a unit (R58). -/
def State.factorUp (s : State) : Nat → Nat → Nat → Nat
  | 0, _, f => f
  | n + 1, u, f =>
    let p := (s.unit u).parent
    if unitClass p = 7 then s.factorUp n p (f * (s.unit p).factor / 65536)
    else if unitClass p = 5 then s.factorUp n p f
    else f

/-- F of a die (R58). -/
def State.dieFactor (s : State) (die : Nat) : Nat := s.factorUp (s.depth + 1) die 65536

/-- Stripe blocks of a top pan: logical blocks from 4 upward (11_flash_translation.md R270). -/
def State.topN (s : State) (top : Nat) : Nat := s.topBlocks top - 4

/-- The listed blocks of a top pan. -/
def State.topBlks (s : State) (top : Nat) : List Blk := s.ftl.blocks.filter fun b => b.top == top

/-- FREE stripe blocks of a top pan (12_harvest_health.md R291). -/
def State.topFree (s : State) (top : Nat) : Nat := s.topN top - countOf (fun b => b.state != .free) (s.topBlks top)

/-- An ONLINE or REBUILDING top pan has room (R251). -/
def State.pansHaveRoom (s : State) : Bool :=
  (List.range s.topCount).any fun t =>
    (s.ust (s.topPan t) == .online || s.ust (s.topPan t) == .rebuilding) && decide (s.topFree t > 0)

/-- A top pan may take new rows: ONLINE or REBUILDING, or DEGRADED while no such pan has room (R251). -/
def State.takesRows (s : State) (u : Nat) : Bool :=
  match s.ust u with
  | .online | .rebuilding => true
  | .degraded => !s.pansHaveRoom
  | _ => false

/-- A spare: a die or a module of the device that no pan contains (R245; log 141). -/
def State.isSpare (s : State) (d : UnitD) : Bool :=
  d.state != .absent &&
    match unitClass d.id with
    | 6 => !s.dieUsed d.id
    | 5 => d.parent == 0 && !(s.moduleDies (unitIndex d.id)).any fun x => (s.unit x).parent != 0
    | _ => false

/-- FLAGS of a descriptor (R238). NO_ROWS is shown by the members of the ROOT pan, in which rows open (R251; log 141). -/
def State.unitFlags (s : State) (d : UnitD) : Nat :=
  let spare := s.isSpare d
  let mods := if unitClass d.id = 5 then [unitIndex d.id] else if unitClass d.id = 6 then [dieModule d.id] else []
  let proxied := mods.any fun n => (s.mod n).proxied
  let noRows := unitClass d.id == 7 && d.parent != 0 && (s.unit d.parent).root && !s.takesRows d.id
  b2n (unitShared d.id) + 2 * b2n d.root + 4 * b2n spare + 8 * b2n proxied + 16 * b2n noRows

/-- MLIST of a group (R239): the engine tree's 426 entries come first, then those of the pans in the order of the table (DESIGN CHOICE, log 141). -/
def State.mlistAt (s : State) (u : Nat) : Nat :=
  match unitClass u with
  | 2 => (engineClusters (unitIndex u)).headD 0
  | 3 => 26 + (clusterCores (unitIndex u)).headD 0
  | _ => 426 + sumOf (((s.med.units.takeWhile (·.id != u)).filter fun x => unitClass x.id == 7).map fun x => x.members.length)

/-- The 64 bytes of a descriptor (R238). -/
def State.descBytes (s : State) (u : Nat) : Bytes :=
  let d := s.unit u
  let wid := if unitClass u = 5 then 0 else d.members.length
  let mlist := if wid = 0 then 0 else s.mlistAt u
  let fac := if unitClass u = 7 then d.factor else if unitClass u = 6 then s.dieFactor u else 0
  let body := leBytes 3 u ++ leBytes 1 d.state.code ++ leBytes 3 d.parent ++ leBytes 1 d.pos ++
    leBytes 1 d.scheme ++ leBytes 1 d.m ++ leBytes 2 wid ++
    leBytes 2 (s.failedCnt d) ++ leBytes 2 (s.unitFlags d) ++ leBytes 4 mlist ++ leBytes 4 fac ++
    leBytes 8 (if unitShared u && unitValid u then s.capacityIn s.depth u else 0) ++ leBytes 8 d.rebuildDone ++ leBytes 8 d.rebuildTotal ++
    leBytes 8 d.stateTime ++ leBytes 1 d.cause ++ leBytes 3 0
  body ++ leBytes 4 (crc32c body)

/-- The member list bytes of a unit (R239). -/
def State.mlistBytes (s : State) (u : Nat) : Bytes :=
  if unitClass u = 5 then []
  else (s.unit u).members.flatMap fun m => leBytes 4 (m.unit + b2n m.subst * 2 ^ 24)

/-! ### State changes (R248, R525) -/

/-- The event class of a unit (R525). -/
def unitEventClass (u : Nat) : Nat :=
  match unitClass u with
  | 1 => if unitIndex u < 16 then 0x05 else if unitIndex u < 48 then 0x0B else if unitIndex u = 49 then 0x0D else 0x01
  | 2 | 3 | 4 => 0x08
  | 5 | 6 | 7 => 0x09
  | 8 => 0x0E
  | 9 => 0x11
  | _ => 0x01

/-- The severity of a unit state change (R525). -/
def unitEventSev (new : UnitSt) (cause : Nat) (fatal : Bool) : Nat :=
  match new with
  | .online | .rebuilding | .absent => 2
  | .offline => if cause = 0 then 2 else 3
  | .degraded => 3
  | .readOnly => 4
  | .failed => if fatal then 6 else 4

/-- A pan whose failure no enclosing pan can decode: it has no parent, or its parent has no tolerance left or is STRIPE. -/
def State.fatalPan (s : State) (u : Nat) : Bool :=
  let p := s.unit (s.unit u).parent
  unitClass u == 7 && (p.id == 0 || decide (s.failedCnt p + 1 > p.tolerance))

/-- The reliability bit of Critical Warning clears once no pan is FAILED and no brine loss is pending (12_harvest_health.md R307). -/
def State.reliabilityCheck (s : State) : State :=
  if (s.med.units.any fun d => unitClass d.id == 7 && d.state == .failed) || !s.brn.lost.isEmpty then s else s.warnOff 2

/-- A unit changes state: its descriptor and its event (R248); a FAILED pan also raises PAN_FAILED. -/
def State.setUnitState (s : State) (u : Nat) (new : UnitSt) (cause : Nat) : State :=
  let d := s.unit u
  if d.state = new then s
  else
    let fatal := new == .failed && s.fatalPan u
    let s := s.putUnit { d with state := new, cause := cause, stateTime := s.tide.time }
    let items := evState d.state.code new.code cause
    let s := s.event (unitEventClass u) evcState (unitEventSev new cause fatal) u items
    let s := if d.state = .failed then s.reliabilityCheck else s
    if new = .failed ∧ unitClass u = 7 then s.alarm 3 0x09 evcState u items else s

/-- A power domain that is switched off, or on and not yet READY (22_power_electrical.md R505). -/
def State.domainOff (s : State) (d : Nat) : Bool := s.pwr.off.contains d || s.pwr.notReady.contains d

/-- Clusters of an engine in service: not FAILED, not OFFLINE and with their domain on, as bits from 0 (08_compression.md R206). -/
def State.clustersUp (s : State) (engine : Nat) : List Nat :=
  (engineClusters engine).filter fun c => (s.ust (unitId 3 c)).serving

/-- The same as a bit field of the engine's own numbering. -/
def State.upBits (s : State) (engine : Nat) : Nat :=
  let base := (engineClusters engine).headD 0
  sumOf ((s.clustersUp engine).map fun c => 2 ^ (c - base))

/-- The wear record of a die. -/
def State.wearOf (s : State) (d : Nat) : DieWear :=
  let r := s.dieRec d
  (findKey DieWear.die d s.ftl.wear).getD
    { die := d, native := 0, slc := 0, erased := [], spareLeft := recPhys r - recBlocks r, spareInit := recPhys r - recBlocks r,
      progFail := 0, eraseFail := 0, remap := [], retries := [] }

/-- `s` with the wear record of a die replaced. -/
def State.putWear (s : State) (w : DieWear) : State := { s with ftl.wear := putKey DieWear.die w s.ftl.wear }

/-- A die that joins a pan for the first time: the spare blocks it has then are its SPARE_INIT (13_media_link.md R331). -/
def State.noteSpares (s : State) (d : Nat) : State := if s.ftl.wear.any fun w => w.die == d then s else s.putWear (s.wearOf d)

end Sys2Proof.Machine
end

