-- ==== Sys2Proof/Machine/Packet.lean ====
section
/-! DEFINITION. The control rings: fetching, checking and answering Ixydo packets (20_control_packets.md R457-R473). -/
namespace Sys2Proof.Machine

/-! ### Statuses (00_scope.md R12; R479) -/
/-- OK. -/ def stOk := 0
/-- INVALID_OPCODE. -/ def stInvalidOpcode := 1
/-- INVALID_FIELD. -/ def stInvalidField := 2
/-- BUSY. -/ def stBusy := 3
/-- NOT_OWNER. -/ def stNotOwner := 4
/-- ACCESS_LOCKED. -/ def stAccessLocked := 5
/-- LENGTH_MISMATCH. -/ def stLengthMismatch := 6
/-- NO_RESOURCE. -/ def stNoResource := 7
/-- UNIT_FAILED. -/ def stUnitFailed := 8
/-- IN_PROGRESS. -/ def stInProgress := 9
/-- AUTH_FAILED. -/ def stAuthFailed := 10

/-- Which unit an opcode may be addressed to (R478). -/
inductive Target | device | fixed (u : Nat) | anyUnit | pan | serviceable | module | powerDomain
  deriving DecidableEq, Repr

/-- One row of the opcode table: opcode, parameter length, target, whether it changes pool configuration (R473), whether it
needs an open field access session. -/
structure OpRow where
  opc : Nat
  plen : Nat
  target : Target
  cfg : Bool
  session : Bool
  deriving DecidableEq, Repr

/-- The opcodes of R478 up to 0x5F, and those of the start-up chapter. -/
def opTable0 : List OpRow :=
  [⟨0x00, 0, .device, false, false⟩, ⟨0x01, 0, .device, false, false⟩, ⟨0x02, 4, .device, false, false⟩,
   ⟨0x08, 4, .device, true, false⟩, ⟨0x20, 0, .anyUnit, false, false⟩, ⟨0x21, 18, .device, true, false⟩,
   ⟨0x22, 0, .pan, true, false⟩, ⟨0x23, 4, .device, true, false⟩, ⟨0x24, 4, .serviceable, false, false⟩,
   ⟨0x25, 8, .pan, true, false⟩, ⟨0x26, 4, .module, false, false⟩, ⟨0x40, 26, .device, false, false⟩,
   ⟨0x41, 4, .device, false, false⟩, ⟨0x42, 22, .device, false, false⟩, ⟨0x43, 4, .device, false, false⟩,
   ⟨0x44, 8, .device, false, false⟩, ⟨0x45, 18, .device, true, false⟩, ⟨0x46, 4, .device, true, false⟩,
   ⟨0x47, 8, .device, true, false⟩, ⟨0x58, 24, .device, true, false⟩, ⟨0x59, 4, .device, false, false⟩,
   ⟨0x5A, 16, .device, false, false⟩]

/-- The opcodes of R478 from 0x60 on. -/
def opTable1 : List OpRow :=
  [⟨0x60, 8, .device, true, false⟩, ⟨0x61, 4, .device, true, false⟩, ⟨0x62, 4, .device, false, false⟩,
   ⟨0x63, 8, .device, true, false⟩, ⟨0x64, 54, .fixed 0x200003, false, false⟩,
   ⟨0x65, 38, .fixed 0x200002, false, false⟩, ⟨0x66, 0, .device, false, false⟩,
   ⟨0x68, 38, .fixed 0x200000, false, false⟩, ⟨0x69, 38, .fixed 0x200001, false, false⟩,
   ⟨0x6A, 4, .device, true, false⟩, ⟨0x80, 0, .device, false, false⟩, ⟨0x81, 4, .device, false, false⟩,
   ⟨0x82, 4, .device, true, false⟩, ⟨0x83, 0, .device, false, false⟩, ⟨0x84, 0, .device, false, false⟩,
   ⟨0x88, 8, .device, true, false⟩, ⟨0x89, 14, .device, true, false⟩, ⟨0x8A, 12, .device, true, false⟩,
   ⟨0x8B, 4, .device, false, false⟩, ⟨0x8C, 12, .device, true, false⟩, ⟨0x8D, 8, .device, false, false⟩,
   ⟨0x90, 38, .device, true, false⟩, ⟨0x91, 12, .device, true, false⟩, ⟨0x92, 4, .device, false, false⟩,
   ⟨0x93, 4, .device, true, false⟩, ⟨0xA0, 12, .device, false, false⟩, ⟨0xA1, 4, .device, false, false⟩,
   ⟨0xA2, 0, .device, false, true⟩, ⟨0xA3, 4, .powerDomain, false, false⟩, ⟨0xA4, 0, .device, false, false⟩,
   ⟨0xA5, 0, .device, false, false⟩, ⟨0xC0, 16, .device, false, false⟩, ⟨0xC1, 4, .device, false, false⟩,
   ⟨0xC2, 0, .device, false, false⟩, ⟨0xC3, 0, .device, false, false⟩,
   ⟨0xD0, 8, .fixed 0x800050, false, false⟩, ⟨0xE0, 0, .device, false, false⟩, ⟨0xE1, 36, .device, false, false⟩,
   ⟨0xE2, 0, .device, false, false⟩, ⟨0xE3, 34, .device, false, false⟩]

/-- The assigned opcodes (R478). -/
def opTable : List OpRow := opTable0 ++ opTable1

/-- The row of an opcode. -/
def opRow (opc : Nat) : Option OpRow := opTable.find? (·.opc == opc)

/-! ### Fields of a packet (R461) -/

/-- OPCODE. -/ def Entry.opcode (e : Entry) : Nat := leAt e.bytes 0 1
/-- ORDERED. -/ def Entry.ordered (e : Entry) : Bool := (leAt e.bytes 1 1).testBit 0
/-- TAG. -/ def Entry.tag (e : Entry) : Nat := leAt e.bytes 2 2
/-- TARGET, all 32 bits. -/ def Entry.target (e : Entry) : Nat := leAt e.bytes 4 4
/-- PLEN. -/ def Entry.plen (e : Entry) : Nat := leAt e.bytes 8 2
/-- A little-endian parameter at a packet offset. -/
def Entry.num (e : Entry) (off len : Nat) : Nat := leAt e.bytes off len
/-- Parameter bytes at a packet offset. -/
def Entry.sub (e : Entry) (off len : Nat) : Bytes := slice e.bytes off len
/-- The reserved bytes in a range are 0 (R6, R462 step 8). -/
def Entry.zero (e : Entry) (off len : Nat) : Bool := allZero (e.sub off len)

/-- The bytes after the parameters are 0 (R461, R462 step 8). -/
def Entry.tailOk (e : Entry) : Bool := e.zero (10 + e.plen) (54 - e.plen)

/-- Does a target class fit an opcode (R462 step 4)? -/
def Target.accepts (t : Target) (u : Nat) : Bool :=
  match t with
  | .device => u == 0
  | .fixed v => u == v
  | .anyUnit => unitValid u
  | .pan => unitClass u == 7
  | .serviceable => unitClass u == 5 || unitClass u == 6 ||
      (unitClass u == 1 && decide (16 ≤ unitIndex u) && decide (unitIndex u < 48))
  | .module => unitClass u == 5
  | .powerDomain => unitClass u == 9

/-- Steps 1 to 3 of R462, which need nothing but the packet. -/
def Entry.staticStatus (e : Entry) : Nat :=
  match opRow e.opcode with
  | none => stInvalidOpcode
  | some r =>
    if leAt e.bytes 1 1 ≥ 2 ∨ e.target ≥ 2 ^ 24 then stInvalidField
    else if e.plen ≠ r.plen then stLengthMismatch
    else stOk

/-- Steps 4, 5 and 7 of R462, which need the state of the target and the session; a FENCED head refuses a change of pool configuration first (step 6,
R473). -/
def State.entryStatus (s : State) (e : Entry) : Nat :=
  match opRow e.opcode with
  | none => stInvalidOpcode
  | some r =>
    let u := e.target
    if !(r.target.accepts u) || !(unitValid u) || (s.ust u == .absent && e.opcode != 0x20) then stInvalidField
    else if r.session && !s.boot.sessionOpen then stAccessLocked
    else if (s.ust u == .failed || s.ust u == .offline) &&
        !(e.opcode == 0x20 || e.opcode == 0x24 || e.opcode == 0x22 || e.opcode == 0x26) then
      (if r.cfg && s.pair.state == .fenced then stNotOwner else stUnitFailed)
    else stOk

/-! ### Rings -/

/-- Ring `n`. -/
def State.ring (s : State) (n : Nat) : Ring := s.ctl.rings.getD n Ring.reset
/-- `s` with ring `n` replaced. -/
def State.setRing (s : State) (n : Nat) (r : Ring) : State := { s with ctl.rings := s.ctl.rings.set n r }

/-- The entries the device owns (R458). -/
def Ring.owned (r : Ring) : List Nat := (r.posted ++ r.fetched ++ r.running).map Entry.slot

/-- A reply is written with its tail word and MSI-X message (R459, R460, R464). -/
def State.putReply (s : State) (n : Nat) (p : RingReply) : State :=
  let r := s.ring n
  let s := if p.data = [] then s else s.emit (.slotData n p.slot p.data)
  let cnt := (r.replyCount + 1) % 2 ^ 16
  let s := s.emits [.reply n p.tag p.status p.data.length p.result, .tailWord n cnt]
  let s := if (s.fld (R.CTL_RING_CFG n) 30 30) = 1 then s.emit (.msix (s.fld (R.CTL_RING_CFG n) 10 0)) else s
  let s := if p.final ∧ p.status ≠ stOk then s.bump R.CTL_FAIL_CNT else s
  s.setRing n { r with
    rplTail := (r.rplTail + 1) % 256, replyCount := cnt
    running := if p.final then r.running.filter (·.slot != p.slot) else r.running }

/-- The reply ring has no free entry (R459). -/
def State.rplFull (s : State) (n : Nat) : Bool :=
  ((s.ring n).rplTail + 1) % 256 == s.fld (R.CTL_RING_RPL_HEAD n) 7 0

/-- A reply is written, or held for reply space (R459). -/
def State.reply (s : State) (n : Nat) (p : RingReply) : State :=
  if s.rplFull n || !(s.ring n).held.isEmpty then
    (s.setRing n { s.ring n with held := (s.ring n).held ++ [p] }).bump R.CTL_RPL_HOLD_CNT
  else s.putReply n p

/-- An ORDERED packet waits while an earlier packet of its ring has no final reply visible (R465). -/
def Ring.blocked (r : Ring) (e : Entry) : Bool :=
  e.ordered && (r.running ++ r.fetched).any fun x => decide (x.no < e.no)

/-- The first fetched packet that may start and fails the static checks. -/
def Ring.failing (r : Ring) : Option Entry :=
  r.fetched.find? fun e => e.staticStatus != stOk && !r.blocked e

/-- Packets that fail R462 steps 1 to 3 are answered as soon as they may start; `fuel` bounds their number. -/
def State.settle (s : State) (n : Nat) : Nat → State
  | 0 => s
  | k + 1 =>
    match (s.ring n).failing with
    | none => s
    | some e =>
      let r := s.ring n
      let s := s.setRing n { r with fetched := r.fetched.filter (·.no != e.no), running := r.running ++ [e] }
      (s.reply n ⟨e.slot, e.tag, e.staticStatus, List.replicate 24 0, [], true⟩).settle n k

/-- A DRAINING ring that owns no entry with every reply visible may become DISABLED (R470). -/
def Ring.drained (r : Ring) : Bool := r.fetched.isEmpty && r.running.isEmpty && r.held.isEmpty && r.posted.isEmpty

/-- Posted entries are fetched while no reply is held (R458, R459). -/
def State.fetchRing (s : State) (n : Nat) : State :=
  let r := s.ring n
  if r.state ≠ .running ∨ !r.held.isEmpty then s
  else
    let s := s.bumpBy R.CTL_PKT_CNT r.posted.length
    let s := s.setRing n { r with
      posted := [], fetched := r.fetched ++ r.posted, cmdHead := (r.cmdHead + r.posted.length) % 256 }
    s.settle n r.posted.length

/-- What a packet's own rule does with it. -/
inductive PktRes
  /-- it ends: state, status, result bytes 8 to 31 of the reply, completion data -/
  | done (s : State) (status : Nat) (result data : Bytes)
  /-- it has started and answers IN_PROGRESS (R464) -/
  | started (s : State)
  /-- it has started and ended in one step: IN_PROGRESS, then the final reply (R464) -/
  | startDone (s : State) (result data : Bytes)
  /-- it has started and its own rule times its first reply -/
  | quiet (s : State)
  /-- it cannot start yet and stays fetched (R473) -/
  | waits

/-- A packet ends with a failure status and leaves nothing behind. -/
def PktRes.fail (s : State) (st : Nat) : PktRes := .done s st [] []

/-- A packet whose reserved bytes are not 0 has no effect: INVALID_FIELD, unless the owner or the service check, which come before (R462 steps 6
to 8), fails. -/
def PktRes.badTail (s : State) : PktRes → PktRes
  | .done _ st _ _ => .fail s (if st = stNotOwner ∨ st = stUnitFailed then st else stInvalidField)
  | _ => .fail s stInvalidField

/-- 24 result bytes. -/
def padResult (b : Bytes) : Bytes := slice b 0 24

/-- The final reply of a packet, then whatever it held back. A packet that a reset took from its ring receives no reply (R471). -/
def State.finish (s : State) (p : PktRef) (st : Nat) (result data : Bytes) : State :=
  if !(s.ring p.ring).running.any (fun e => e.slot == p.slot && e.no == p.no) then s
  else
  (s.reply p.ring ⟨p.slot, p.tag, st, padResult result, if st = stOk then data else [], true⟩).settle p.ring
    (s.ring p.ring).fetched.length

/-- The head can take changes of pool configuration (R473). -/
def State.cfgReady (s : State) : Option Nat :=
  match s.pair.state with
  | .suspect | .electing => none
  | .fenced => some stNotOwner
  | _ => some stOk

/-- The packet of a ring that stands in `slot`, if it has been fetched, has this opcode, passes the static checks and may
start. -/
def State.startable (s : State) (opc n slot : Nat) : Option Entry :=
  let r := s.ring n
  match r.fetched.find? (·.slot == slot) with
  | none => none
  | some e => if e.opcode == opc && e.staticStatus == stOk && !r.blocked e && r.state != .disabled then some e else none

/-- The reference of a packet that stands in a slot of a ring. -/
def packetRef (n slot : Nat) (e : Entry) : PktRef := ⟨n, slot, e.tag, e.no⟩

/-- The packet in a slot starts: it moves from the fetched packets of its ring to the running ones. -/
def State.begun (s : State) (n slot : Nat) (e : Entry) : State :=
  s.setRing n { s.ring n with
    fetched := (s.ring n).fetched.filter (·.slot != slot), running := (s.ring n).running ++ [e] }

/-- The opcode changes pool configuration (R473). -/
def opcodeCfg (opc : Nat) : Bool :=
  match opRow opc with
  | some o => o.cfg
  | none => false

/-- The IN_PROGRESS reply of a packet that has started (R464). -/
def State.inProgress (u : State) (n slot : Nat) (e : Entry) : State :=
  u.reply n ⟨slot, e.tag, stInProgress, List.replicate 24 0, [], false⟩

/-- A fetched packet of an opcode starts: the common checks of R462 and R473, then the opcode's own rule. -/
def State.packet (s : State) (opc n slot : Nat) (body : Entry → PktRef → State → PktRes) : State :=
  match s.startable opc n slot with
  | none => s
  | some e =>
    let p := packetRef n slot e
    let s1 := s.begun n slot e
    let st := s.entryStatus e
    if st ≠ stOk then s1.finish p st [] []
    else
      match if opcodeCfg opc then s.cfgReady else some stOk with
      | none => s
      | some st =>
        if st ≠ stOk then s1.finish p (if opc = 0x82 then 0x0C03 else st) [] []
        else
          match (if e.tailOk then body e p s1 else (body e p s1).badTail s1) with
          | .done s2 st res data => s2.finish p st res data
          | .started s2 => s2.inProgress n slot e
          | .startDone s2 res data => (s2.inProgress n slot e).finish p stOk res data
          | .quiet s2 => s2
          | .waits => s

end Sys2Proof.Machine
end

