-- ==== Sys2Proof/Machine/ModuleCmd.lean ====
section
/-! DEFINITION. Issuing module commands on a media port or through the peer head (13_media_link.md R316-R323, R334). -/
namespace Sys2Proof.Machine

/-- The command descriptor (R318). -/
def descriptor (c : ModCmd) (epoch : Nat) : Bytes :=
  let body := leBytes 1 c.opc ++ leBytes 1 c.flags ++ leBytes 2 c.tag ++ leBytes 2 c.die ++ leBytes 2 0 ++
    leBytes 8 epoch ++ slice c.params 0 40 ++ leBytes 4 0
  body ++ leBytes 4 (crc32c body)

/-- PARAMS of READ, PROGRAM and ERASE (R319): block, program unit, level, column, length. -/
def mediaParams (blk pu level col len : Nat) : Bytes :=
  leBytes 4 blk ++ leBytes 2 pu ++ leBytes 1 level ++ leBytes 1 0 ++ leBytes 4 col ++ leBytes 4 len

/-- PARAMS of RESERVE (R319). -/
def reserveParams (sub new expect : Nat) : Bytes :=
  leBytes 1 sub ++ leBytes 7 0 ++ leBytes 8 new ++ leBytes 8 expect

/-- The epoch a command carries: the port's registered epoch, 0 while it has none (R318). -/
def State.epochOf (s : State) (port : Nat) : Nat :=
  let m := s.mod port
  if m.ownRsv = .registered then m.ownEpoch else 0

/-- A module is reached on the own port: the port is up and not proxied (R334). -/
def State.direct (s : State) (port : Nat) : Bool := (s.mod port).up && !(s.mod port).proxied

/-- A module can be reached: by the own port, or through the peer head while it is in service (R334). -/
def State.reachable (s : State) (port : Nat) : Bool :=
  (s.mod port).present && (s.direct port || s.peerInService)

/-- A media link packet: the 16-byte header and the payload (R316). -/
def mlpOf (typ tag die off : Nat) (last : Bool) (pay : Bytes) : Bytes :=
  leBytes 1 typ ++ leBytes 1 (b2n last) ++ leBytes 2 pay.length ++ leBytes 2 tag ++ leBytes 2 die ++ leBytes 4 off ++ leBytes 4 0 ++ pay

/-- The WDATA of a PROGRAM, 4,096 bytes a packet, the last one with LAST (R316, R320; the size of a packet: DESIGN CHOICE, log 143). -/
def wdataOf (c : ModCmd) : List Bytes :=
  let n := ceilDiv c.data.length 4096
  (List.range n).map fun k => mlpOf 0x02 c.tag c.die (4096 * k) (k + 1 == n) ((c.data.drop (4096 * k)).take 4096)

/-- A command goes out: as a CMD MLP with its WDATA, or as a PROXY_CMD (R334, R361). -/
def State.sendCmd (s : State) (c : ModCmd) : State :=
  if c.viaPeer then
    (s.bump R.MED_PROXY_CMD_CNT).ptlSend 2 0x05 (leBytes 4 c.port ++ descriptor c 0 ++ (if c.opc = 0x02 then c.data else []))
  else
    let s := (s.bump R.LNK_CMD_CNT).emit (.mlp c.port (mlpOf 0x01 c.tag c.die 0 false (descriptor c (s.epochOf c.port))))
    if c.opc ≠ 0x02 then s else (wdataOf c).foldl (fun (s : State) p => s.emit (.mlp c.port p)) s

/-- Commands outstanding at a module for one die (R323). -/
def State.outstanding (s : State) (port die : Nat) : Nat :=
  countOf (fun c => c.port == port && c.die == die && c.sent) s.lnk.cmds

/-- A module command is issued: at most four per die are outstanding, the rest wait in the die's queue (R323). A FENCED head
issues none (15_pair_operation.md R376). -/
def State.issue (s : State) (port die opc flags : Nat) (params data : Bytes) (why : Purpose) : State :=
  if s.pair.state = .fenced then s
  else
    let go := decide (s.outstanding port die < 4) || die == 0xFFFF
    let c : ModCmd :=
      { port := port, tag := s.lnk.nextTag, die := die, opc := opc, flags := flags, params := params, data := data,
        why := why, reissued := false, viaPeer := !s.direct port, rdata := [], busyWait := false, sent := go }
    let s := { s with lnk.cmds := s.lnk.cmds ++ [c], lnk.nextTag := (s.lnk.nextTag + 1) % 2 ^ 16 }
    if go then s.sendCmd c else s

/-- The command in flight with a tag on a port. -/
def State.cmdOf (s : State) (port tag : Nat) : Option ModCmd := s.lnk.cmds.find? fun c => c.port == port && c.tag == tag

/-- `s` with a command in flight replaced. -/
def State.putCmd (s : State) (c : ModCmd) : State :=
  { s with lnk.cmds := mapIf (fun x => x.port == c.port && x.tag == c.tag) (fun _ => c) s.lnk.cmds }

/-- The earlier of two deadlines, where there are any. -/
def soonest : Option Nat → Option Nat → Option Nat
  | some a, some b => some (Nat.min a b)
  | some a, none => some a
  | none, b => b

/-- The deadline of an I/O command, if it is admitted under one. -/
def State.ioDeadline (s : State) (id : Nat) : Option Nat := (s.hq.cmds.find? (·.id == id)).bind Cmd.deadline

/-- The deadline of the command that an entry belongs to. -/
def State.entDeadline (s : State) (ent : Nat) : Option Nat := ((s.brn.ents.find? (·.id == ent)).bind BEnt.cmd).bind s.ioDeadline

/-- The deadline of the command that a read of stored grains serves. -/
def State.readDeadline (s : State) (job : Nat) : Option Nat :=
  match (s.ftl.reads.find? (·.id == job)).map ReadJob.why with
  | some (.cmd id _) => s.ioDeadline id
  | some (.merge ent _) => s.entDeadline ent
  | _ => none

/-- A read of a stored grain completes a record of the drain (06_brine_write_path.md R145). -/
def State.mergeRead (s : State) (job : Nat) : Bool :=
  match (s.ftl.reads.find? (·.id == job)).map ReadJob.why with
  | some (.merge _ _) => true
  | _ => false

/-- The deadline that the programs of a row are booked for: the earliest of the admitted FUA writes with a crumb in it (03_sluice.md R51). -/
def State.rowDeadline (s : State) (r : Row) : Option Nat :=
  let seqs := r.items.filterMap fun i => match i with
    | .frame _ _ q _ _ => some q
    | .record q _ => if q.typ = 1 then some q.jseq else none
    | _ => none
  let mine := s.brn.ents.filter fun e => e.journal == r.journal && e.fua && e.deadline && seqs.contains e.jseq
  mine.foldl (fun o e => soonest o (e.cmd.bind s.ioDeadline)) none

/-- The deadline that a module command is booked for. -/
def State.cmdDeadline (s : State) (c : ModCmd) : Option Nat :=
  match c.why with
  | .read job _ _ => s.readDeadline job
  | .program row | .index row => (s.ftl.rows.find? (·.id == row)).bind s.rowDeadline
  | _ => none

/-- A module command is work of the drain: a merge read, or a program of a row (06_brine_write_path.md R147). -/
def State.isDrain (s : State) (c : ModCmd) : Bool :=
  match c.why with
  | .program _ | .index _ | .indexErase | .readBack _ _ | .rootBack _ => true
  | .read job _ _ => s.mergeRead job
  | _ => false

/-- The command of a die's queue that is sent next: a booked one, the earliest deadline first, else one of the drain while ABOVE_HI is set, else
the oldest (R323; 03_sluice.md R52; 06_brine_write_path.md R147). -/
def State.nextOf (s : State) (q : List ModCmd) : Option ModCmd :=
  let best := (q.filter fun x => x.flags.testBit 1).foldl (fun (o : Option ModCmd) x => match o with
    | none => some x
    | some y =>
      match s.cmdDeadline x, s.cmdDeadline y with
      | some a, some b => if a < b then some x else some y
      | some _, none => some x
      | none, _ => some y) none
  (best.or (if s.brn.aboveHi then q.find? s.isDrain else none)).or q.head?

/-- A command has ended; the next one queued for its die goes out, booked work first (R323). -/
def State.endCmd (s : State) (c : ModCmd) : State :=
  let s := { s with lnk.cmds := s.lnk.cmds.filter fun x => !(x.port == c.port && x.tag == c.tag) }
  let q := s.lnk.cmds.filter fun x => x.port == c.port && x.die == c.die && !x.sent
  match s.nextOf q with
  | some n => (s.putCmd { n with sent := true }).sendCmd { n with sent := true }
  | none => s

/-- A command goes out once more. -/
def State.resend (s : State) (c : ModCmd) : State :=
  let c := { c with rdata := [], busyWait := false }
  (s.putCmd c).sendCmd c

/-- A command is reissued once on the same path (R249, R322). -/
def State.reissue (s : State) (c : ModCmd) : State := s.resend { c with reissued := true }

/-- The physical block behind a die's logical block (R270). -/
def State.physBlock (s : State) (die blk : Nat) : Nat :=
  match findKey DieWear.die die s.ftl.wear with
  | some w => ((findKey Prod.fst blk w.remap).map Prod.snd).getD blk
  | none => blk

end Sys2Proof.Machine
end

