-- ==== Sys2Proof/Machine/Rows.lean ====
section
/-! DEFINITION. Open rows, journal records and their placement on media (11_flash_translation.md R267-R281; 07_data_reduction.md
R177, R178). -/
namespace Sys2Proof.Machine

/-! ### Journals and stripe blocks -/

/-- The journal of a head role that this head holds. -/
def State.journal? (s : State) (role : Nat) : Option Journal := findKey Journal.role role s.ftl.journals

/-- The journal of a head role, or a blank one. -/
def State.journal (s : State) (role : Nat) : Journal :=
  (s.journal? role).getD
    { role := role, jseq := 0, durable := 0, sub := 0, indexSeq := 0, indexAt := 0, lastTop := 0, tip := 0, rootS0 := 0, ckptNum := 0,
      ckpts := [], dir := [], root := [], anchors := [], gen := 0, genPast := [] }

/-- `s` with a journal replaced. -/
def State.putJournal (s : State) (j : Journal) : State :=
  { s with ftl.journals := putKey Journal.role j s.ftl.journals }

/-- A stripe block in the state it has after an erase (R291). -/
def freeBlk (top blk : Nat) : Blk :=
  { top := top, blk := blk, state := .free, owner := 0, stream := 0, slc := false, scrub := false, refresh := false,
    retire := false, retireDies := [], content := [], nextRow := 0, closedRows := 0, maxJseq := 0, eraseLeft := [], recorded := false, resume := false, started := 0 }

/-- A stripe block. -/
def State.blk (s : State) (top blk : Nat) : Blk :=
  (s.ftl.blocks.find? fun b => b.top == top && b.blk == blk).getD (freeBlk top blk)

/-- `s` with a stripe block replaced. -/
def State.putBlk (s : State) (b : Blk) : State :=
  if s.ftl.blocks.any fun x => x.top == b.top && x.blk == b.blk then
    { s with ftl.blocks := mapIf (fun x => x.top == b.top && x.blk == b.blk) (fun _ => b) s.ftl.blocks }
  else { s with ftl.blocks := s.ftl.blocks ++ [b] }

/-- A streaming read of a block's content list, at eight bytes an entry (12_harvest_health.md R292; 16_memory_cache.md R400; DESIGN CHOICE, log 135). -/
def State.contentScan (s : State) (b : Blk) : State :=
  s.metaScan .contentList (b.top * 2 ^ 32 + b.blk) 0 (ceilDiv b.content.length 16)

/-- A frame enters the content list of its block (12_harvest_health.md R292). -/
def State.addContent (s : State) (b : Blk) (sgn : Nat) : State :=
  (s.putBlk { b with content := b.content ++ [sgn] }).metaWrite .contentList (b.top * 2 ^ 32 + b.blk) (8 * b.content.length)

/-- `s` with a row replaced. -/
def State.putRow (s : State) (r : Row) : State := { s with ftl.rows := putKey Row.id r s.ftl.rows }

/-- The row that a stream of a journal is filling (R275). -/
def State.openRow (s : State) (j st : Nat) : Option Row :=
  s.ftl.rows.find? fun r => r.journal == j && r.stream == st && r.state == .filling

/-! ### Journal records (R279, R280) -/

/-- The bytes of one item of an entry record (R280). -/
def JItem.toBytes (i : JItem) : Bytes :=
  leBytes 6 i.grain ++ leBytes 1 i.kind ++ leBytes 1 i.stream ++ leBytes 6 i.sgn ++ leBytes 2 i.recIdx ++
    leBytes 6 i.ploc ++ leBytes 2 i.len16 ++ leBytes 4 i.crc ++ leBytes 4 0

/-- The parts of an entry record: at most 511 items each (R280). -/
def JRec.split (r : JRec) : List JRec :=
  let n := Nat.max 1 (ceilDiv r.items.length 511)
  (List.range n).map fun k => { r with items := (r.items.drop (k * 511)).take 511, part := k, parts := n }

/-- The length of a record or part in crumbs. -/
def JRec.crumbs (r : JRec) : Nat := ceilDiv (32 + r.body.length + 32 * r.items.length) 256

/-- ITEMS: the items of an entry record, or of a harvest commit, 24 bytes each behind the head of its body (R279, R298). -/
def JRec.itemCount (r : JRec) : Nat := if r.typ = 7 then (r.body.length - 8) / 24 else r.items.length

/-- A record or part with its header and CRC (R279), padded to whole crumbs. -/
def JRec.toBytes (r : JRec) : Bytes :=
  let body := slice (r.body ++ r.items.flatMap JItem.toBytes) 0 (r.crumbs * 256 - 32)
  let head := leBytes 2 0x4A52 ++ leBytes 1 r.typ ++ leBytes 1 r.flags ++ leBytes 2 r.crumbs ++ leBytes 2 r.sub ++
    leBytes 8 r.jseq ++ leBytes 4 r.nsid ++ leBytes 2 r.part ++ leBytes 2 r.parts ++ leBytes 2 r.itemCount ++ leBytes 2 0
  head ++ leBytes 4 (crc32c (head ++ body)) ++ body

/-- The crumbs an item takes. -/
def RowItem.crumbs : RowItem → Nat
  | .frame _ n _ _ _ => n
  | .record _ n => n
  | .image _ _ _ _ => 17
  | .pad n => n
  | .copy _ n _ _ => n

/-! ### The bytes of a row (R241, R271, R279, R282; 07_data_reduction.md R175, R177) -/

/-- A key page; one not listed is EMPTY (09_cipher_digest.md R212). -/
def State.kpage (s : State) (n : Nat) : KeyPage :=
  (findKey KeyPage.no n s.keys.pages).getD
    { no := n, cfg := 0, state := .empty, gen := 0, err := 0, key1 := [], key2 := [], salt := 0, next := 0, resEnd := 0,
      busy := false }

/-- The key bytes of a key page. -/
def State.pageKey (s : State) (n : Nat) : Bytes := (s.kpage n).key1 ++ (s.kpage n).key2

/-- One data unit encrypted under a key page; the ciphertext is as long as the plain bytes (R175). -/
def State.xtsUnit (s : State) (page tweak : Nat) (b : Bytes) : Bytes :=
  slice (Config.xtsEncrypt (s.pageKey page) tweak b) 0 b.length

/-- The stored bytes of an item whose first crumb is at `ploc`: a frame or a copy as it is, the rest of its last crumb zero; a record or a
part of one, and an image, as one data unit under the metadata key page with the PLOC of its first crumb as the tweak; zeros for pad. -/
def State.itemBytes (s : State) (ploc : Nat) : RowItem → Bytes
  | .frame _ n _ _ b => slice b 0 (n * 256)
  | .record r _ => s.xtsUnit s.pool.mdKey ploc r.toBytes
  | .image _ _ _ b => s.xtsUnit s.pool.mdKey ploc b
  | .pad n => slice [] 0 (n * 256)
  | .copy _ n _ b => slice b 0 (n * 256)

/-- The PLOC of the first crumb of a row (R271). -/
def State.rowPloc (s : State) (r : Row) : Nat := r.top * 2 ^ 40 + r.row * s.crumbs (s.topPan r.top)

/-- The data bytes of a row as far as it is filled, from crumb 0 of data column 0 (R177). -/
def State.rowBytes (s : State) (r : Row) : Bytes :=
  (r.items.foldl (fun (a : Nat × Bytes) i => (a.1 + i.crumbs, a.2 ++ slice (s.itemBytes a.1 i) 0 (i.crumbs * 256)))
    (s.rowPloc r, [])).2

/-- Parity column `j` of data columns of `n` bytes each (R241). -/
def parityColumn (j n : Nat) (ds : List Bytes) : Bytes :=
  (List.range n).map fun k =>
    BitVec.ofNat 8 ((List.range ds.length).foldl
      (fun a i => a ^^^ gfMul (parityCoef j i) (((ds.getD i []).getD k 0).toNat)) 0)

/-- What die `d` holds of row `r` of unit `u` whose data in that row are `data` (R241, R242, R271): in a MIRROR the data themselves;
otherwise logical column x of the member at position (x + r) modulo w, in a module in position order, columns from the data columns
on being parity. -/
def State.dieBytesIn (s : State) : Nat → Nat → Nat → Nat → Bytes → Bytes
  | 0, _, _, _, data => data
  | n + 1, u, r, d, data =>
    if unitClass u = 6 then data
    else
      let un := s.unit u
      let w := un.members.length
      match un.members.findIdx? fun m => (s.leaves m.unit).contains d with
      | none => []
      | some p =>
        let m := (un.members.getD p ⟨0, false⟩).unit
        let c := s.crumbs m * 256
        let x := if unitClass u = 5 then p else (p + w - r % w) % w
        let col (i : Nat) : Bytes := slice data (i * c) c
        let mine :=
          if un.scheme = 2 then data
          else if x < un.dataCols then col x
          else parityColumn (x - un.dataCols) c ((List.range un.dataCols).map col)
        s.dieBytesIn n m r d mine

/-- The column of die `d` in a row: one program unit (R271). -/
def State.dieColumn (s : State) (r : Row) (d : Nat) : Bytes :=
  slice (s.dieBytesIn s.depth (s.topPan r.top) r.row d (s.rowBytes r)) 0 (recPb (s.dieRec d))

/-! ### Programs of a row (R275) -/

/-- The mode of the block a row lies in. -/
def State.rowSlc (s : State) (r : Row) : Bool :=
  let u := s.topU r.top
  (s.blk r.top (if u = 0 then 0 else r.row / u)).slc

/-- PRIO in the flags of a row's programs: set where the row holds a crumb of an admitted FUA write, whose programs are booked
(03_sluice.md R51; 13_media_link.md R323). -/
def State.rowPrio (s : State) (r : Row) : Nat := if (s.rowDeadline r).isSome then 2 else 0

/-- The program of one die's column of a row is issued (R275). Of a block that was open when its journal was replayed, the column is read
back first (R278); the command keeps the column that the drain would program. -/
def State.programDie (s : State) (r : Row) (d : Nat) : State :=
  let rec_ := s.dieRec d
  let u := s.topU r.top
  let blk := if u = 0 then 0 else r.row / u
  let pu := if u = 0 then 0 else r.row % u
  let data := s.dieColumn r d
  let params := mediaParams (s.physBlock d blk) pu 0 0 (recPb rec_)
  if (s.blk r.top blk).resume then s.issue (dieModule d) (diePos d) 0x01 (b2n (s.rowSlc r)) params data (.readBack r.id false)
  else s.issue (dieModule d) (diePos d) 0x02 (b2n (s.rowSlc r) + s.rowPrio r) params data (.program r.id)

/-- Programs of a list of dies are issued and noted. Dies that do not serve are computed but not programmed (R251). -/
def State.programDies (s : State) (r : Row) (ds : List Nat) : State :=
  let new := ds.filter fun d => !r.issued.contains d
  let held := s.held (s.topPan r.top)
  let live := new.filter fun d => held.contains d && (s.ust d).serving
  let s := s.putRow { r with issued := r.issued ++ new, outstanding := r.outstanding ++ live }
  live.foldl (fun s d => s.programDie r d) s

/-- The dies whose columns are complete once a row is filled to `fill` crumbs: full data columns, and every die of a die pan whose
data columns are all full. -/
def State.fullDies (s : State) (r : Row) (fill : Nat) : List Nat :=
  let pan := s.topPan r.top
  let ds := s.leaves pan
  let c0 := (ds.map fun d => recPb (s.dieRec d) / 256).headD 0
  let n := if c0 = 0 then 0 else fill / c0
  let data := (List.range n).map fun i => (s.resolveIn s.depth pan r.row (i * c0)).1
  let pans := (data.map fun d => (s.unit d).parent).eraseDups
  let done := pans.filter fun p =>
    let cols := (s.unit p).dataCols
    decide (countOf (fun d => (s.unit d).parent == p) data ≥ cols)
  (data ++ done.flatMap fun p => (s.unit p).members.map Member.unit).eraseDups

/-- The dies that hold index pages: those of the ROOT pan in leaf order (R281). -/
def State.indexDies (s : State) : List Nat := ((s.rootPan).map fun r => s.leaves r.id).getD []

/-- The element of a list of block sizes that a count of units falls in, and the unit within it. -/
def placeIn : List Nat → Nat → Nat × Nat
  | [], a => (0, a)
  | u :: t, a =>
    if a < u then (0, a)
    else
      let p := placeIn t (a - u)
      (p.1 + 1, p.2)

/-- The units of the index blocks, which are always in SLC mode (R286), in leaf order. -/
def State.indexUnits (s : State) : List Nat := s.indexDies.map fun d => recSlcU (s.dieRec d)

/-- The index pages of one journal that all its index blocks together hold. -/
def State.indexRound (s : State) : Nat := Nat.max 1 (sumOf s.indexUnits)

/-- The die, by its place in leaf order, and the page of its index block that unit `at_` of a journal's index pages is. -/
def State.indexPlace (s : State) (at_ : Nat) : Nat × Nat := placeIn s.indexUnits (at_ % s.indexRound)

/-- The die in whose index block unit `at_` of a journal's index pages lies. -/
def State.indexDieAt (s : State) (at_ : Nat) : Nat := s.indexDies.getD (s.indexPlace at_).1 0

/-- The start of the index block after the one that unit `at_` lies in. -/
def State.indexNext (s : State) (at_ : Nat) : Nat :=
  let p := s.indexPlace at_
  at_ - p.2 + Nat.max 1 (s.indexUnits.getD p.1 1)

/-- The die of a unit of the index pages serves, in its place. -/
def State.indexServes (s : State) (at_ : Nat) : Bool :=
  let d := s.indexDieAt at_
  (((s.rootPan).map fun r => s.held r.id).getD []).contains d && (s.ust d).serving && (s.ust (unitId 5 (dieModule d))).serving

/-- The first of `n` index blocks from a unit on whose die serves. -/
def State.indexSeek (s : State) : Nat → Nat → Option Nat
  | 0, _ => none
  | n + 1, a => if s.indexServes a then some a else s.indexSeek n (s.indexNext a)

/-- Where a journal programs its next index page: the next unit of its index block, or the start of the block of the next die that serves
(R277, R281). -/
def State.indexSpot (s : State) (j : Nat) : Nat :=
  let at_ := (s.journal j).indexAt
  (s.indexSeek (s.indexDies.length + 1) at_).getD at_

/-- The die that a journal's next index page goes to (R281; "one journal die" of 03_sluice.md R51). -/
def State.indexDie (s : State) (j : Nat) : Nat := s.indexDieAt (s.indexSpot j)

/-- JSEQ of the first and the last record of a row. -/
def Row.jseqs (r : Row) : Nat × Nat :=
  let js := r.items.filterMap fun i => match i with
    | .record q _ => some q.jseq
    | _ => none
  (js.headD 0, js.getLastD 0)

/-- The first 64 bytes of a row's index page (R281). -/
def Row.indexPage (r : Row) : Bytes :=
  let body := leBytes 4 0x4A494458 ++ leBytes 1 r.journal ++ leBytes 1 r.stream ++ leBytes 1 (b2n r.sealed) ++
    leBytes 1 0 ++ leBytes 8 r.indexSeq ++ leBytes 1 r.top ++ leBytes 3 0 ++ leBytes 4 r.row ++
    leBytes 8 r.jseqs.1 ++ leBytes 8 r.jseqs.2 ++ leBytes 20 0
  body ++ leBytes 4 (crc32c body)

/-- The unit number under which a row's index page waits among its outstanding programs. -/
def indexMark : Nat := 0xF00000

/-- The index page of a closing row is programmed in SLC mode; a block that was filled before is erased first (R281). -/
def State.programIndex (s : State) (r : Row) : State :=
  let spot := s.indexSpot r.journal
  let d := s.indexDieAt spot
  let pb := recPb (s.dieRec d)
  let page := (s.indexPlace spot).2
  let blk := s.physBlock d (2 + r.journal)
  let again := page == 0 && decide (spot ≥ s.indexRound)
  let s := s.putJournal { s.journal r.journal with indexAt := spot + 1 }
  let s := if again then s.issue (dieModule d) (diePos d) 0x03 1 (mediaParams blk 0 0 0 0) [] .indexErase else s
  s.issue (dieModule d) (diePos d) 0x02 (1 + s.rowPrio r) (mediaParams blk page 0 0 pb) (slice r.indexPage 0 pb) (.index r.id)

/-- An index page that die `d` could not program is written again on the next index die (R277). -/
def State.indexAgain (s : State) (r : Row) (d : Nat) : State :=
  let j := s.journal r.journal
  let s := if s.indexDieAt j.indexAt = d then s.putJournal { j with indexAt := s.indexNext j.indexAt } else s
  s.programIndex r

/-- Index pages whose command ended with a die or module that is lost are written again (R277). -/
def State.rescueIndex (s : State) : State :=
  let lost := s.ftl.rows.filter fun r => r.state == .closed && r.outstanding.contains indexMark &&
    !(s.lnk.cmds.any fun c => c.why == .index r.id || c.why == .readBack r.id true)
  lost.foldl State.programIndex s

/-- A row closes: the rest is padded, every remaining column and the index page are issued (R275, R178). -/
def State.closeRow (s : State) (r : Row) (sealing : Bool) : State :=
  let c := s.crumbs (s.topPan r.top)
  let pad := c - r.fill
  let s := if pad = 0 then s else s.bumpBy R.RED_PAD_CRUMB_CNT pad
  let r := { r with
    state := .closed, sealed := sealing, fill := c, items := if pad = 0 then r.items else r.items ++ [.pad pad] }
  let s := (s.putRow r).programDies r (s.leaves (s.topPan r.top))
  let r := (findKey Row.id r.id s.ftl.rows).getD r
  let j := s.journal r.journal
  let r := { r with outstanding := r.outstanding ++ [indexMark], indexSeq := j.indexSeq }
  ((s.putRow r).putJournal { j with indexSeq := j.indexSeq + 1 }).programIndex r

/-! ### Packing (R177, R275) -/

/-- The granted block that a stream of a journal fills next: one with rows left (R274). -/
def State.streamBlk (s : State) (j st : Nat) : Option Blk :=
  s.ftl.blocks.find? fun b =>
    b.state == .opened && b.owner == j && b.stream == st && b.recorded && decide (b.nextRow < s.rowsIn b.top b.slc)

/-- A grant is requested for a stream of a journal, once until it is answered (R274, R364). -/
def State.askGrant (s : State) (j st : Nat) : State :=
  if s.ftl.grantReq.contains (j, st) then s
  else
    let s := { s with ftl.grantReq := s.ftl.grantReq ++ [(j, st)] }
    if s.role = 1 ∧ s.peerInService then s.control 0x0003 (leBytes 1 0 ++ leBytes 1 j ++ leBytes 1 st ++ leBytes 1 0)
    else s

/-- A stream holds a granted block in reserve: one without a row (R274). -/
def State.hasReserve (s : State) (j st : Nat) : Bool :=
  s.ftl.blocks.any fun b => b.state == .opened && b.owner == j && b.stream == st && b.nextRow == 0

/-- A journal asks for the reserve blocks it has not (R274). -/
def State.askReserves (s : State) (j : Nat) : State :=
  (List.range 5).foldl (fun (s : State) st => if s.hasReserve j st then s else s.askGrant j st) s

/-- A new row opens in a granted block; a stream left without a reserve asks for the next block. -/
def State.startRow (s : State) (j st : Nat) : Option State :=
  match s.streamBlk j st with
  | none => none
  | some b =>
    let r : Row :=
      { id := s.ftl.nextRow, journal := j, stream := st, top := b.top, row := b.blk * s.topU b.top + b.nextRow, fill := 0,
        items := [], state := .filling, sealed := false, issued := [], outstanding := [], indexSeq := 0 }
    let s := s.putBlk { b with nextRow := b.nextRow + 1 }
    let s := { s with ftl.rows := s.ftl.rows ++ [r], ftl.nextRow := s.ftl.nextRow + 1 }
    some (if s.hasReserve j st then s else s.askGrant j st)

/-- The crumbs of a list of items before the first one that satisfies `p`. -/
def crumbsBefore (p : RowItem → Bool) (l : List RowItem) : Nat := sumOf ((l.takeWhile fun i => !p i).map RowItem.crumbs)

/-- The PLOC that the frame of a grain record of journal `j` was packed at, in a row that is not void. -/
def State.framePloc (s : State) (j jseq idx : Nat) : Nat :=
  let is (i : RowItem) : Bool := match i with
    | .frame _ _ q k _ => q == jseq && k == idx
    | _ => false
  match s.ftl.rows.find? fun r => r.journal == j && r.state != .void && r.items.any is with
  | some r => s.rowPloc r + crumbsBefore is r.items
  | none => 0

/-- A record as it is packed: its items name the PLOCs its frames got (R280). -/
def State.recordAt (s : State) (j : Nat) (q : JRec) : JRec :=
  { q with items := q.items.map fun i =>
      if i.kind = 2 ∧ i.ploc = 0 then { i with ploc := s.framePloc j q.jseq i.recIdx } else i }

/-- The tweak of a grain (07_data_reduction.md R175). -/
def tweakOf (role jseq idx : Nat) : Nat := idx + jseq * 2 ^ 14 + role * 2 ^ 78

/-- The record of a stored grain has changed: so has its page of the stored grain table (R282). -/
def State.touchGrain (s : State) (sgn : Nat) : State :=
  if s.ftl.touched.contains (sgn / 128) then s else { s with ftl.touched := s.ftl.touched ++ [sgn / 128] }

/-- What a packed item does to the tables: a frame's PLOC and its block's content list, a record's place. -/
def State.noteItem (s : State) (r : Row) (i : RowItem) : State :=
  let u := s.topU r.top
  let b := s.blk r.top (if u = 0 then 0 else r.row / u)
  let ploc := s.rowPloc r + r.fill
  match i with
  | .frame sgn _ q k _ =>
    let s := s.addContent b sgn
    let mine (g : Grain) : Bool := g.sgn == sgn && g.tweak == tweakOf r.journal q k
    { s with ftl.grains := mapIf mine (fun g => { g with ploc := ploc }) s.ftl.grains }.touchGrain sgn
  | .record q _ => s.putBlk { b with maxJseq := Nat.max b.maxJseq q.jseq }
  | .copy sgn _ old _ =>
    let s := s.addContent b sgn
    { s with ftl.harvests := s.ftl.harvests.map fun h =>
        { h with copies := h.copies.map fun c => if c.1 = sgn ∧ c.2.1 = old then (sgn, old, ploc) else c } }
  | .image t p s0 _ =>
    let j := s.journal r.journal
    let note (c : Ckpt) : Ckpt := { c with imgs := c.imgs ++ [(t, p, b.top, b.blk)], dirPloc := if t = 5 then ploc else c.dirPloc }
    s.putJournal { j with ckpts := mapIf (fun c => c.s0 == s0) note j.ckpts }
  | _ => s

/-- An item goes into a row that has room for it; columns that are then full are programmed, and a full row closes. -/
def State.packInto (s : State) (r : Row) (i : RowItem) : State :=
  let i := match i with
    | .record q n => .record (s.recordAt r.journal q) n
    | _ => i
  let s := s.noteItem r i
  let r := { r with fill := r.fill + i.crumbs, items := r.items ++ [i] }
  let s := (s.putRow r).programDies r (s.fullDies r r.fill)
  let r := (findKey Row.id r.id s.ftl.rows).getD r
  if r.fill = s.crumbs (s.topPan r.top) then s.closeRow r false else s

/-- An item is packed into the open row of a stream of a journal; where it does not fit, the row is padded and closed first; where no
granted block has room, or others wait already, it waits for a grant (R177, R274). -/
def State.pack (s : State) (j st : Nat) (i : RowItem) : State :=
  let waiting := s.ftl.packQ.any fun q => q.1 == j && q.2.1 == st
  let fits := match s.openRow j st with
    | some r => decide (r.fill + i.crumbs ≤ s.crumbs (s.topPan r.top))
    | none => false
  if waiting then { s with ftl.packQ := s.ftl.packQ ++ [(j, st, i)] }
  else
  match fits, s.openRow j st with
  | true, some r => s.packInto r i
  | _, o =>
    let s := match o with
      | some r => s.closeRow r false
      | none => s
    match s.startRow j st with
    | some s =>
      match s.openRow j st with
      | some r => s.packInto r i
      | none => s
    | none =>
      let s := { s with ftl.packQ := s.ftl.packQ ++ [(j, st, i)] }
      s.askGrant j st

/-- The item is a crumb of the entry, or a record placed after it, that has sequence `jseq` (R275). -/
def RowItem.ofSeq (jseq : Nat) : RowItem → Bool
  | .frame _ _ q _ _ => q == jseq
  | .record q _ => q.jseq == jseq
  | _ => false

/-- A seal point closes every open row of a journal that holds crumbs of the sealing entry or record; the HOT row holds the record
(R178, R275). -/
def State.seal (s : State) (role jseq : Nat) : State :=
  let mine := s.ftl.rows.filter fun r => r.journal == role && r.state == .filling && r.items.any (RowItem.ofSeq jseq)
  let s := if mine = [] then s else s.bumpBy R.RED_SEAL_CNT mine.length
  mine.foldl (fun s r => s.closeRow r true) s

/-- The sequences of the entries and records among a list of items, each once. -/
def itemSeqs (l : List RowItem) : List Nat :=
  (l.filterMap fun i => match i with
    | .frame _ _ q _ _ => some q
    | .record q _ => some q.jseq
    | _ => none).eraseDups

/-- A seal point has been reached at a sequence: a record with SEAL, or an entry placed with FUA or as a Flush's value (R178). -/
def State.sealDue (s : State) (j jseq : Nat) (l : List RowItem) : Bool :=
  (l.any fun i => match i with
    | .record q _ => q.jseq == jseq && q.flags.testBit 0
    | _ => false) ||
  s.brn.ents.any fun e => e.journal == j && e.jseq == jseq && e.placed &&
    (e.fua || s.brn.flushes.any fun f => f.marks.contains (j, jseq))

/-- Items that were packed later than their seal point, after a wait for a grant or out of a void row: the rows that hold them now are
sealed (R178, R277). -/
def State.resealItems (s : State) (j : Nat) (l : List RowItem) : State :=
  (itemSeqs l).foldl (fun (s : State) q => if s.sealDue j q l then s.seal j q else s) s

/-- What waited for a grant of a stream is packed, in order. -/
def State.packWaiting (s : State) (j st : Nat) : State :=
  let mine := s.ftl.packQ.filter fun q => q.1 == j && q.2.1 == st
  let s := { s with ftl.packQ := s.ftl.packQ.filter fun q => !(q.1 == j && q.2.1 == st) }
  let s := mine.foldl (fun s q => s.pack j st q.2.2) s
  s.resealItems j (mine.map fun q => q.2.2)

/-- A record with its SEAL bit set where it is the entry record of a sequence. -/
def RowItem.withSeal (jseq : Nat) : RowItem → RowItem
  | .record q n => .record (if q.jseq = jseq ∧ q.typ = 1 ∧ q.flags.testBit 0 = false then { q with flags := q.flags + 1 } else q) n
  | i => i

/-- A seal point that falls on an entry packed before it is recorded in the entry's journal record while no column with the record has
been programmed (R178). -/
def State.markSeal (s : State) (j jseq : Nat) : State :=
  let late (r : Row) : Bool :=
    let ds := s.leaves (s.topPan r.top)
    let c0 := (ds.map fun d => recPb (s.dieRec d) / 256).headD 0
    let off := crumbsBefore (fun i => match i with
      | .record q _ => q.jseq == jseq && q.typ == 1
      | _ => false) r.items
    r.journal == j && r.state == .filling && decide (r.fill / Nat.max 1 c0 ≤ off / Nat.max 1 c0)
  { s with
    ftl.rows := mapIf late (fun r => { r with items := r.items.map (RowItem.withSeal jseq) }) s.ftl.rows
    ftl.packQ := s.ftl.packQ.map fun q => if q.1 = j then (q.1, q.2.1, q.2.2.withSeal jseq) else q }

/-- A device-added record is placed in the open HOT row at its place in journal order (R279, R281). -/
def State.placeRec (s : State) (role typ flags : Nat) (body : Bytes) : State :=
  let j := s.journal role
  let r : JRec :=
    { typ := typ, flags := flags + 4 * role, jseq := j.jseq, sub := j.sub + 1, nsid := 0, items := [], body := body }
  (s.putJournal { j with sub := j.sub + 1 }).pack role 0 (.record r r.crumbs)

/-- A device-added record in parts, given their bodies: one place in journal order, packed part after part (R279, R281). -/
def State.placeParts (s : State) (role typ flags : Nat) (bodies : List Bytes) : State :=
  let j := s.journal role
  let part (x : Bytes × Nat) : JRec :=
    { typ := typ, flags := flags + 4 * role, jseq := j.jseq, sub := j.sub + 1, nsid := 0, items := [], body := x.1, part := x.2,
      parts := bodies.length }
  (bodies.zipIdx.map part).foldl (fun (s : State) r => s.pack role 0 (.record r r.crumbs)) (s.putJournal { j with sub := j.sub + 1 })

/-- The head's own journal. -/
def State.own (s : State) : Journal := s.journal s.role

/-- A change of pool configuration: its record in the own journal, and the record, after the JSEQ of its place there, to the peer (R193, R216,
R257, R289; the layout of the message is the model's, log 20). -/
def State.placeCfg (s : State) (body : Bytes) : State :=
  let s := s.placeRec s.role 0x03 0 body
  if s.peerInService then s.control 0x0002 (leBytes 8 s.own.jseq ++ body) else s

/-- A unit state record: into the own journal and to the peer (10_media_units_pans.md R257). -/
def State.placeUnit (s : State) (u : Nat) : State :=
  if s.pool.loaded || s.peerInService then
    let body := s.descBytes u ++ s.mlistBytes u
    let s := if s.pool.loaded then s.placeRec s.role 0x04 0 body else s
    if s.peerInService then s.control 0x0001 body else s
  else s

/-- The JOURNAL messages of a journal go to the peer: the own one's while it is in service, those of both held ones while a returning head
follows (15_pair_operation.md R367, R384). -/
def State.ships (s : State) (j : Nat) : Bool :=
  (s.peerInService && j == s.role) || ((s.peerInService || s.pair.state == .solo) && decide (s.pair.rejoinStep > 0))

/-- A row became PROGRAMMED: it is counted, its block may be FULL, and its JOURNAL message goes to the peer (R275, R367). `fps` gives
the fingerprint of a stored grain. -/
def State.rowDone (s : State) (r : Row) (fps : Nat → Bytes) : State :=
  let s := s.bump R.FTL_ROW_CLOSE_CNT
  let s := s.putRow { r with state := .programmed }
  let u := s.topU r.top
  let b := s.blk r.top (if u = 0 then 0 else r.row / u)
  let b := { b with closedRows := b.closedRows + 1 }
  let s := s.putBlk { b with state := if b.closedRows = s.rowsIn b.top b.slc ∧ b.state = .opened then .full else b.state }
  if s.ships r.journal then
    let recs := r.items.filterMap fun i => match i with
      | .record q _ => some q
      | _ => none
    let fp := recs.flatMap fun q => (q.items.filter (·.kind == 2)).flatMap fun i => fps i.sgn
    s.ptlSend 1 0x04 (r.indexPage ++ recs.flatMap JRec.toBytes ++ fp)
  else s

/-- A row becomes VOID (R277): a row void record, then its frames and records are packed again into the same stream. -/
def State.voidRow (s : State) (r : Row) : State :=
  if r.state = .void ∨ r.state = .programmed then s
  else
    let s := s.bump R.FTL_ROW_VOID_CNT
    let s := s.putRow { r with state := .void, outstanding := [] }
    let u := s.topU r.top
    let blk := if u = 0 then 0 else r.row / u
    let b := s.blk r.top blk
    let b := { b with closedRows := b.closedRows + 1 }
    let s := s.putBlk { b with state := if b.closedRows = s.rowsIn b.top b.slc ∧ b.state = .opened then .full else b.state }
    let s := s.placeRec r.journal 0x06 0 (leBytes 1 r.top ++ leBytes 3 0 ++ leBytes 4 r.row)
    let again := r.items.filter fun i => match i with
      | .pad _ => false
      | _ => true
    let again := again.map fun i => match i with
      | .record q n => .record { q with items := q.items.map fun x => { x with ploc := 0 } } n
      | _ => i
    (again.foldl (fun s i => s.pack r.journal r.stream i) s).resealItems r.journal again

end Sys2Proof.Machine
end

