-- ==== Sys2Proof/Machine/Pans.lean ====
section
/-! DEFINITION. Failing units, pans built, degraded, substituted and rebuilt (10_media_units_pans.md R240-R257). -/
namespace Sys2Proof.Machine

/-- AUTO_SUBST, and this head is the one that chooses substitutes (R253, R257). -/
def State.choosesSubst (s : State) : Bool :=
  s.fld R.MED_CFG 0 0 == 1 && (s.role == 0 || !s.peerInService)

/-- A suitable spare die of a program unit size (R253). -/
def State.spareDie (s : State) (pb d : Nat) : Bool :=
  s.ust d == .online && !s.dieUsed d && recPb (s.dieRec d) == pb

/-- A spare module (R253). -/
def State.spareModule (s : State) (n : Nat) : Bool :=
  s.ust (unitId 5 n) == .online && (s.mod n).heldReason == 0 && (s.unit (unitId 5 n)).parent == 0 &&
    !(s.moduleDies n).any fun d => (s.unit d).parent != 0

/-- P_b of the dies under a unit. -/
def State.unitPb (s : State) (u : Nat) : Nat := recPb (s.dieRec ((s.leaves u).headD 0))

/-- Rows of a top pan that hold written data: closed rows of its blocks. -/
def State.writtenRows (s : State) (top : Nat) : Nat :=
  sumOf ((s.ftl.blocks.filter fun b => b.top == top).map Blk.closedRows)

/-- The position of the top pan that a unit lies under, if any. -/
def State.topOf (s : State) : Nat → Nat → Option Nat
  | 0, _ => none
  | n + 1, u =>
    let p := s.unit (s.unit u).parent
    if p.root then some (s.unit u).pos else if p.id = 0 then none else s.topOf n p.id

/-- The bytes a rebuild programs into a substitute: one program unit per die and written row (R238, R254). -/
def State.rebuildBytes (s : State) (u : Nat) : Nat :=
  match s.topOf s.depth u with
  | some t => s.writtenRows t * (s.leaves u).length * s.unitPb u
  | none => 0

/-- The rows of a top pan that this head rebuilds: those its own journal wrote, or a journal it has taken over, in ascending order. Rows still
open program the substitute themselves, and void rows hold nothing (R254; 11_flash_translation.md R277). -/
def State.rebuildRows (s : State) (top : Nat) : List Nat :=
  let u := s.topU top
  let mine (b : Blk) : Bool :=
    b.top == top && (b.owner == s.role || s.pair.adopted) && (b.state == .opened || b.state == .full || b.state == .victim)
  let blks := s.ftl.blocks.filter mine
  let rows := (List.range (maxOf (blks.map Blk.blk) + 1)).flatMap fun k =>
    match blks.find? fun b => b.blk == k with
    | some b => (List.range b.nextRow).map fun i => k * u + i
    | none => []
  rows.filter fun w => !(s.ftl.rows.any fun r => r.top == top && r.row == w && (r.state == .filling || r.state == .void))

/-- The dies that a module presents on becoming a member: the first ones suitable, as many as the module it stands in for presented, or all
(R240, R253; log 141). -/
def State.presents (s : State) (u old : Nat) : List Nat :=
  let pb := if unitClass old = 5 then s.unitPb old else recPb (s.dieRec ((s.presented u).headD 0))
  let ds := (s.moduleDies (unitIndex u)).filter (s.spareDie pb)
  if unitClass old = 5 then ds.take (s.unit old).members.length else ds

/-- A unit becomes the member at a position of a pan, in the place of `old` where that is no 0; the dies that a module presents have the module
as their parent (R24, R240). -/
def State.joinPan (s : State) (pan pos u old : Nat) : State :=
  if unitClass u = 5 then
    let ds := s.presents u old
    let s := s.putUnit { s.unit u with parent := pan, pos := pos, members := ds.map fun x => ⟨x, false⟩ }
    ((List.range ds.length).zip ds).foldl (fun s x => (s.putUnit { s.unit x.2 with parent := u, pos := x.1 }).noteSpares x.2) s
  else
    let s := s.putUnit { s.unit u with parent := pan, pos := pos }
    if unitClass u = 6 then s.noteSpares u else s

/-- A unit leaves its pan, and with a module the dies it presented. What the module presented stays known, for a substitute presents as much
(R253). -/
def State.leavePan (s : State) (u : Nat) : State :=
  let d := s.unit u
  let s := s.putUnit { d with parent := 0, pos := 0 }
  if unitClass u = 5 then
    (d.members.filter fun m => (s.unit m.unit).parent == u).foldl (fun s m => s.putUnit { s.unit m.unit with parent := 0, pos := 0 }) s
  else s

/-- The units that still have a pan as their parent leave it (R260). -/
def State.freeMembers (s : State) (pan : Nat) (us : List Nat) : State :=
  (us.filter fun u => (s.unit u).parent == pan).foldl State.leavePan s

/-- This head's own rebuild of a position is due: the rows that its journals wrote (R254). -/
def State.dueRebuild (s : State) (pan pos new : Nat) : State :=
  let top := s.topOf s.depth new
  let rows := match top with
    | some t => s.rebuildRows t
    | none => []
  { s with
    med.noSpare := s.med.noSpare.filter (· != pan * 256 + pos)
    med.rebuilds := (s.med.rebuilds.filter fun (b : Rebuild) => !(b.pan == pan && b.pos == pos)) ++ [Rebuild.mk pan pos new (top.getD 0) rows] }

/-- A substitute takes a position: its entry shows SUBST, its parent is the pan, the replaced unit leaves it, and its rebuild is due (R248, R253,
R254). -/
def State.assignSubst (s : State) (pan pos new : Nat) : State :=
  let old := ((s.unit pan).members.getD pos ⟨0, false⟩).unit
  let s := s.joinPan pan pos new old
  let s := if old = new ∨ (s.unit old).parent ≠ pan then s else s.leavePan old
  let d := s.unit pan
  let s := s.putUnit { d with
    members := d.members.set pos ⟨new, true⟩, rebuildTotal := d.rebuildTotal + s.rebuildBytes new }
  (s.dueRebuild pan pos new).bump R.MED_SUBST_CNT

/-- The lowest free pan index from `i` upward; `fuel` bounds the search. -/
def State.freePan (s : State) : Nat → Nat → Nat
  | 0, i => i
  | n + 1, i => if s.ust (unitId 7 i) == .absent then i else s.freePan n (i + 1)

/-- A pan is written into the unit table with its members (R248). -/
def State.buildPan (s : State) (u scheme m : Nat) (members : List Nat) (root : Bool) : State :=
  let s := s.putUnit { blankUnit u with
    scheme := scheme, m := m, members := members.map fun x => ⟨x, false⟩, root := root }
  let s := ((List.range members.length).zip members).foldl (fun s p => s.joinPan u p.1 p.2 0) s
  s.setUnitState u .online 0

/-- The substitute module for the die pans of module `n` (R253): the one chosen before while it has 16 suitable dies, else the lowest
spare module that has. -/
def State.substModule (s : State) (n pb : Nat) : Option Nat :=
  let enough (x : Nat) : Bool := decide (countOf (s.spareDie pb) (s.moduleDies x) ≥ 16)
  match (findKey Prod.fst n s.med.substMod).map Prod.snd with
  | some x => if enough x then some x else (List.range 32).find? fun y => s.spareModule y && enough y
  | none => (List.range 32).find? fun y => s.spareModule y && enough y

/-- No substitute: the position stays failed, with an event that carries NO_SPARE (0x0805). -/
def State.noSpare (s : State) (pan pos : Nat) : State :=
  if s.med.noSpare.contains (pan * 256 + pos) then s
  else
    let s := { s with med.noSpare := s.med.noSpare ++ [pan * 256 + pos] }
    s.event 0x09 evcLimit 3 pan (evStatus 0 0x0805)

/-- A failed position is given a substitute of the same kind (R253). A die pan of the default layout is one whose index is that of its module
(DEDUCED, log 141). -/
def State.substitute (s : State) (pan pos : Nat) : State :=
  let mem := ((s.unit pan).members.getD pos ⟨0, false⟩).unit
  if unitClass mem = 6 then
    match (s.moduleDies (dieModule mem)).find? (s.spareDie (recPb (s.dieRec mem))) with
    | some d => s.assignSubst pan pos d
    | none => s.noSpare pan pos
  else if unitClass mem = 5 then
    let pb := s.unitPb mem
    let need := (s.unit mem).members.length
    match (List.range 32).find? fun n =>
        s.spareModule n && decide (countOf (s.spareDie pb) (s.moduleDies n) ≥ need) with
    | some n => s.assignSubst pan pos (unitId 5 n)
    | none => s.noSpare pan pos
  else
    let mems := (s.unit mem).members.map Member.unit
    let n := unitIndex mem / 64
    if unitIndex mem < 2048 ∧ (s.unit mem).scheme = 3 ∧ (s.unit mem).m = 1 ∧ mems.length = 16 ∧ (mems.all fun d => unitClass d == 6 && dieModule d == n) then
      let pb := s.unitPb mem
      match s.substModule n pb with
      | none => s.noSpare pan pos
      | some x =>
        let ds := ((s.moduleDies x).filter (s.spareDie pb)).take 16
        let s := { s with med.substMod := putKey Prod.fst (n, x) s.med.substMod }
        let u := unitId 7 (s.freePan (s.med.units.length + 1) (x * 64))
        let s := (s.buildPan u 3 1 ds false).placeUnit u
        s.assignSubst pan pos u
    else s

/-- The state that a pan's failed positions give it (R244, R248). -/
def State.panTarget (s : State) (d : UnitD) : UnitSt :=
  let f := s.failedCnt d
  if d.state = .failed then .failed
  else if f > d.tolerance then .failed
  else if d.state = .readOnly then .readOnly
  else if f = 0 then .online
  else if d.members.any (·.subst) then .rebuilding
  else .degraded

/-- A substitute being rebuilt that has failed loses its SUBST mark; the position stays failed (R248). REBUILD_TOTAL is 0 when no rebuild runs
(R238). -/
def State.clearSubst (s : State) (u : Nat) : State :=
  let d := s.unit u
  let lost (m : Member) : Bool := m.subst && s.memberBad u m
  if d.members.any lost then
    let ms := mapIf lost (fun (m : Member) => { m with subst := false }) d.members
    let runs := ms.any (·.subst)
    s.putUnit { d with members := ms, rebuildDone := if runs then d.rebuildDone else 0, rebuildTotal := if runs then d.rebuildTotal else 0 }
  else s

/-- A pan's state follows its members, then its parent's; a degraded pan seeks substitutes (R244, R248, R253). `n` bounds the levels. -/
def State.recount (s : State) : Nat → Nat → State
  | 0, _ => s
  | n + 1, u =>
    if unitClass u ≠ 7 ∨ s.ust u = .absent then s
    else
      let s := s.clearSubst u
      let s := s.setUnitState u (s.panTarget (s.unit u)) (if s.failedCnt (s.unit u) > (s.unit u).tolerance then 8 else 0)
      let d := s.unit u
      let s :=
        if s.choosesSubst && (d.state == .degraded || d.state == .rebuilding || d.state == .readOnly) then
          let todo := (List.range d.members.length).filter fun p =>
            let m := d.members.getD p ⟨0, false⟩
            s.posFailed u m && !m.subst
          let s := todo.foldl (fun s p => s.substitute u p) s
          s.setUnitState u (s.panTarget (s.unit u)) 0
        else s
      let s := s.placeUnit u
      if d.parent = 0 then s else s.recount n d.parent

/-- A pan is judged again after a member, or a die of a member, changed (R240). -/
def State.recountParent (s : State) (u : Nat) : State :=
  let p := (s.unit u).parent
  s.recount s.depth (if unitClass p = 5 then (s.unit p).parent else p)

/-- Rows that a die which fails is a member of become VOID while they are not PROGRAMMED (R275, R277). -/
def State.voidRowsOn (s : State) (die : Nat) : State :=
  let hit := s.ftl.rows.filter fun r =>
    (r.state == .filling || r.state == .closed) && (s.leaves (s.topPan r.top)).contains die
  hit.foldl (fun s r => s.voidRow ((findKey Row.id r.id s.ftl.rows).getD r)) s

/-- The commands outstanding to a die end with it. -/
def State.dropDieCmds (s : State) (die : Nat) : State :=
  { s with lnk.cmds := s.lnk.cmds.filter fun c => !(c.port == dieModule die && c.die == diePos die) }

/-- A leaf that this head itself takes out of service: its record is placed, and a failure is counted (R257, R266). -/
def State.ownOut (s : State) (own : Bool) (u : Nat) (new : UnitSt) : State :=
  if own then
    let s := s.placeUnit u
    if new = .failed then s.bump R.MED_LEAF_FAIL_CNT else s
  else s

/-- A die leaves service as FAILED or OFFLINE with a cause: its rows, its erases and its commands end, its pan is judged (R248, R249). `own`:
this head detected it; else a record of the peer says so. -/
def State.dieDown (s : State) (own : Bool) (d cause : Nat) (new : UnitSt) : State :=
  if !(s.ust d).serving then s
  else
    let s := (s.setUnitState d new cause).ownOut own d new
    let s := if new = .failed then { s with ftl.health.dieFail := s.ftl.health.dieFail + 1 } else s
    (((s.voidRowsOn d).dropDieCmds d).rescueIndex).recountParent d

/-- This head takes a die out of service. -/
def State.dieOut (s : State) (d cause : Nat) (new : UnitSt) : State := s.dieDown true d cause new

/-- A module leaves service with its dies (R249, R256). -/
def State.moduleDown (s : State) (own : Bool) (n cause : Nat) (new : UnitSt) : State :=
  let u := unitId 5 n
  if !(s.ust u).serving then s
  else
    let s := (s.setUnitState u new cause).ownOut own u new
    let s := if new = .failed then { s with ftl.health.moduleFail := s.ftl.health.moduleFail + 1 } else s
    let s := { s with lnk.cmds := s.lnk.cmds.filter fun c => c.port != n }
    let s := (s.moduleDies n).foldl (fun s d => s.dieDown own d cause new) s
    s.rescueIndex.recountParent u

/-- This head takes a module out of service. -/
def State.moduleOut (s : State) (n cause : Nat) (new : UnitSt) : State := s.moduleDown true n cause new

/-- Substitution is tried again whenever a spare appears (R253). -/
def State.retrySubst (s : State) : State :=
  if s.choosesSubst then
    s.med.noSpare.foldl (fun s k =>
      let s := { s with med.noSpare := s.med.noSpare.filter (· != k) }
      s.recount s.depth (k / 256)) s
  else s

/-- A leaf that comes back discards its content, leaves its pan and is a spare (R248). -/
def State.leafIn (s : State) (u : Nat) : State :=
  let s := ((s.leavePan u).setUnitState u .online 0).placeUnit u
  let s := { s with med.misses := dropKey Prod.fst u s.med.misses }
  s.retrySubst

/-- A unit answers a command: its count of misses returns to 0 (R249). -/
def State.dieAnswered (s : State) (d : Nat) : State := { s with med.misses := dropKey Prod.fst d s.med.misses }

/-- A first or further miss of a die (R249); the count. -/
def State.dieMissed (s : State) (d : Nat) : State × Nat :=
  let n := ((findKey Prod.fst d s.med.misses).map Prod.snd).getD 0 + 1
  ({ s with med.misses := putKey Prod.fst (d, n) s.med.misses }, n)

end Sys2Proof.Machine
end

