-- ==== Sys2Proof/Machine/PtlRx.lean ====
section
/-! DEFINITION. The receiving side of the pair transaction layer (15_pair_operation.md R362, R363). -/
namespace Sys2Proof.Machine

/-- `a` is before or at `b` among 32-bit sequence numbers (R10). -/
def seqLe (a b : Nat) : Bool := a == b || serialAfter 32 a b

/-- The replies of packets that waited for the peer to apply a configuration record go out (20_control_packets.md R475). -/
def State.endCfgWaits (s : State) (ws : List CfgWait) : State :=
  let s := { s with ctl.cfgWaits := s.ctl.cfgWaits.filter fun w => !ws.contains w }
  ws.foldl (fun (s : State) w => s.finish w.pkt stOk w.result []) s

/-- An ACK retires every held message up to it (R362); a lead that head 1 has acknowledged is in force (R373). -/
def State.ptlRetire (s : State) (c ack : Nat) : State :=
  let ch := s.chan c
  let s := s.setChan c { ch with held := ch.held.filter fun m => !seqLe m.seq ack }
  if c = 0 then
    let s := match s.pair.leadPend with
      | some (n, q) => if seqLe q ack then { s with pair.lead := n, pair.leadPend := none } else s
      | none => s
    s.endCfgWaits (s.ctl.cfgWaits.filter fun w => seqLe w.seq ack)
  else s

/-- The reply of a packet waits until the peer has acknowledged the last message sent to it. -/
def State.cfgWait (s : State) (p : PktRef) (result : Bytes) : State :=
  { s with ctl.cfgWaits := s.ctl.cfgWaits ++ [CfgWait.mk (((s.chan 0).next + 2 ^ 32 - 1) % 2 ^ 32) p result] }

/-- A packet that has placed a configuration record ends: at once, or, with the peer in service, once the peer has applied the record
(20_control_packets.md R475). -/
def State.cfgDone (s : State) (p : PktRef) (result : Bytes) : PktRes :=
  if s.peerInService then .quiet (s.cfgWait p result) else .done s stOk result []

/-- The same of an opcode that answers IN_PROGRESS first (20_control_packets.md R464). -/
def State.cfgSteps (s : State) (p : PktRef) (result : Bytes) : PktRes :=
  if s.peerInService then .started (s.cfgWait p result) else .startDone s result []

/-- The messages after `ack` go out again (R362). -/
def State.ptlResend (s : State) (c : Nat) (ms : List PtlMsg) : State :=
  let s := if c = 1 then s.bumpBy R.BRN_MIRROR_RESEND_CNT (countOf (fun m => m.typ == 0x03) ms) else s
  (s.bumpBy R.PAIR_RESEND_CNT ms.length).emits (ms.map (ptlOut s c))

/-- An ACK or NAK message is sent on a channel. -/
def State.ptlAnswer (s : State) (c typ : Nat) : State :=
  s.emit (.ptl typ 1 0 (((s.chan c).expect + 2 ^ 32 - 1) % 2 ^ 32) c [])

/-- A sequenced message arrives (R362, R363): in order it is taken and acknowledged, behind it is answered with ACK, ahead with one
NAK. The whole payload of a message or chain that ends here is answered. A SEQ exactly 2^31 from the expected one, which R10 calls after in neither
direction, is treated as one behind (DESIGN CHOICE, log 105). -/
def State.ptlAccept (s : State) (c : Nat) (h : PtlHdr) (payload : Bytes) : State × Option Bytes :=
  let s := if h.ackV then s.ptlRetire c h.ack else s
  let ch := s.chan c
  if h.seq = ch.expect then
    let all := ch.joined ++ payload
    let s := s.setChan c { ch with
      expect := (ch.expect + 1) % 2 ^ 32, naked := false, joined := if h.more then all else [] }
    (s.ptlAnswer c 0x09, if h.more then none else some all)
  else if serialAfter 32 ch.expect h.seq then
    if ch.naked then (s, none) else ((s.setChan c { ch with naked := true }).ptlAnswer c 0x0A, none)
  else (s.ptlAnswer c 0x09, none)

/-- A message arrives and acts when it is whole and in order. -/
def State.onPtl (s : State) (c : Nat) (h : PtlHdr) (payload : Bytes) (f : Bytes → State → State) : State :=
  match s.ptlAccept c h payload with
  | (s, some b) => f b s
  | (s, none) => s

end Sys2Proof.Machine
end

