-- ==== Sys2Proof/Machine/Media.lean ====
section
/-! DEFINITION. The commands on units and pans (10_media_units_pans.md R245, R246, R258-R264). -/
namespace Sys2Proof.Machine

/-- Parameter result: a 4-byte field. -/
def n4 (v : Nat) : Bytes := leBytes 4 v

/-- GET_UNIT (R258): the descriptor, the member list and the result fields. -/
def execGetUnit (ring slot : Nat) (s : State) : Host.Outcome State Fault Refusal :=
  .next <| s.packet 0x20 ring slot fun e _ s =>
    let d := s.unit e.target
    let wid := if unitClass e.target = 5 then 0 else d.members.length
    let prog := if d.rebuildTotal = 0 then 0 else d.rebuildDone * 65536 / d.rebuildTotal
    .done (s.llcRead 2 (descLine e.target) 1 false) stOk
      (n4 e.target ++ leBytes 1 d.state.code ++ leBytes 1 (leAt (s.descBytes e.target) 8 1) ++ leBytes 2 wid ++
        leBytes 2 (s.failedCnt d) ++ leBytes 2 0 ++ n4 d.parent ++ n4 prog ++ n4 0)
      (s.descBytes e.target ++ s.mlistBytes e.target)

/-- WIDTH and M that R240 allows. -/
def schemeOk (scheme w m : Nat) : Bool :=
  match scheme with
  | 1 => decide (1 ≤ w) && decide (w ≤ 256) && m == 0
  | 2 => w == m && decide (2 ≤ m) && decide (m ≤ 4)
  | 3 => decide (1 ≤ m) && decide (m ≤ 3) && decide (m + 2 ≤ w) && decide (w ≤ 32)
  | _ => false

/-- The checks on a new pan in the order of R245, and R272. -/
def State.panChecks (s : State) (pan scheme m : Nat) (ms : List Nat) (root : Bool) : Nat :=
  let cls := unitClass (ms.headD 0)
  let busy (u : Nat) : Bool :=
    (s.unit u).parent != 0 || (s.unit u).root || (unitClass u == 6 && s.dieUsed u) ||
      (unitClass u == 5 && (s.moduleDies (unitIndex u)).any fun d => (s.unit d).parent != 0)
  let dies := ms.flatMap fun u => if unitClass u = 5 then s.presented u else s.leaves u
  let pb := recPb (s.dieRec (dies.headD 0))
  if ms.any (fun u => !unitShared u || !unitValid u || u == pan) || ms.eraseDups.length != ms.length then 0x0803
  else if ms.any busy then 0x0800
  else if ms.any fun u => s.ust u != .online then 0x0801
  else if !schemeOk scheme ms.length m || ms.any (fun u => unitClass u != cls) then 0x0802
  else if dies.any fun d => recPb (s.dieRec d) != pb then 0x0802
  else if s.ust pan != .absent then 0x0807
  else if root && s.rootPan.isSome then 0x0800
  else if root && ms.any (fun u => decide (s.capacityIn s.depth u > 2 ^ 48)) then 0x0802
  else stOk

/-- A default layout is being taken over by the peer head: its packet has not ended (R261). -/
def State.layoutBusy (s : State) : Bool :=
  s.ctl.cfgWaits.any fun w => (s.ring w.pkt.ring).running.any fun e =>
    e.slot == w.pkt.slot && e.no == w.pkt.no && e.opcode == 0x23

/-- A packet that changes pans, which ends with BUSY while the peer head applies a layout (R264). -/
def State.panPacket (s : State) (opc ring slot : Nat) (body : Entry → PktRef → State → PktRes) : State :=
  s.packet opc ring slot fun e p s => if s.layoutBusy then .fail s stBusy else body e p s

/-- CREATE_PAN (R259): `mlist` is the member list the device reads from host memory. -/
def execCreatePan (ring slot : Nat) (mlist : Bytes) (s : State) : Host.Outcome State Fault Refusal :=
  .next <| s.panPacket 0x21 ring slot fun e _ s =>
    let wid := e.num 16 2
    let ents := (List.range wid).map fun i => leAt mlist (4 * i) 4
    if e.num 10 4 ≥ 0x100000 ∨ e.num 14 1 = 0 ∨ e.num 14 1 > 3 ∨ e.num 18 1 > 1 ∨ !e.zero 19 1 then
      .fail s stInvalidField
    else
      let s := s.emit (.hostRead (e.num 20 8) (4 * wid))
      if ents.any (fun x => decide (x ≥ 2 ^ 24)) then .fail s stInvalidField
      else
        let pan := unitId 7 (e.num 10 4)
        let st := s.panChecks pan (e.num 14 1) (e.num 15 1) ents (e.num 18 1 == 1)
        if st ≠ stOk then .fail s st
        else .done ((s.buildPan pan (e.num 14 1) (e.num 15 1) ents (e.num 18 1 == 1)).placeUnit pan) stOk [] []

/-- A row of a top pan holds a referenced crumb (R260). -/
def State.topReferenced (s : State) (top : Nat) : Bool :=
  s.ftl.grains.any fun g => g.ploc / 2 ^ 40 == top && decide (g.refcnt > 0)

/-- DELETE_PAN (R260): frees the members as spares. -/
def execDeletePan (ring slot : Nat) (s : State) : Host.Outcome State Fault Refusal :=
  .next <| s.panPacket 0x22 ring slot fun e _ s =>
    let d := s.unit e.target
    let isTop := (s.unit d.parent).root
    if d.parent ≠ 0 ∨ (d.root ∧ s.pool.loaded) ∨ (isTop ∧ s.topReferenced d.pos) ∨
        (d.root ∧ (List.range s.topCount).any s.topReferenced) then .fail s 0x0804
    else
      let s := s.freeMembers e.target (d.members.map Member.unit)
      let s := s.setUnitState e.target .absent 0
      let s := s.putUnit { s.unit e.target with
        members := [], scheme := 0, m := 0, root := false, rebuildDone := 0, rebuildTotal := 0 }
      .done (s.placeUnit e.target).retrySubst stOk [] []

/-- The modules of one P_b in port order cut into groups of 16; a last group of fewer than 4 is dropped (R246 step 1). -/
def groupsOf : Nat → List Nat → List (List Nat)
  | 0, _ => []
  | k + 1, ms =>
    if ms.length < 4 then [] else ms.take 16 :: groupsOf k (ms.drop 16)

/-- P_b of a module whose good dies all report one, 0 otherwise. -/
def State.modulePb (s : State) (n : Nat) : Nat :=
  match s.moduleDies n with
  | [] => 0
  | d :: ds => let pb := recPb (s.dieRec d)
    if ds.all fun x => recPb (s.dieRec x) == pb then pb else 0

/-- Groups of modules of the default layout (R246 step 1). -/
def State.layoutGroups (s : State) : List (List Nat) :=
  let ms := (List.range 32).filter fun n => s.ust (unitId 5 n) == .online && s.modulePb n != 0
  [16384, 32768, 65536].flatMap fun pb => groupsOf 3 (ms.filter fun n => s.modulePb n == pb)

/-- Module pan `j` of group `g` with its die pans, where every module has 16 usable dies there (R246 steps 2 and 3). -/
def State.layoutPan (s : State) (g j : Nat) (ms : List Nat) : State :=
  let dies (n : Nat) : List Nat := (List.range 16).map fun i => dieUnit n (16 * j + i)
  if ms.all fun n => (dies n).all fun d => s.spareDie (s.modulePb n) d then
    let pans := ms.map fun n => unitId 7 (n * 64 + j)
    let s := ms.foldl (fun s n =>
      (s.buildPan (unitId 7 (n * 64 + j)) 3 1 (dies n) false).placeUnit (unitId 7 (n * 64 + j))) s
    let u := unitId 7 (0x1000 + g * 64 + j)
    (s.buildPan u 3 2 pans false).placeUnit u
  else s

/-- The default layout (R246). -/
def State.layout (s : State) (spare : Nat) : State :=
  let gs := s.layoutGroups
  let one (s : State) (g : Nat × List Nat) : State :=
    let n := (g.2.map fun n => leAt (s.mod n).record 6 2).foldl Nat.min 1024
    (List.range ((n - spare) / 16)).foldl (fun s j => s.layoutPan g.1 j g.2) s
  let s := ((List.range gs.length).zip gs).foldl one s
  let tops := (List.range (gs.length * 64)).map (fun i => unitId 7 (0x1000 + i)) |>.filter fun u => s.ust u != .absent
  if tops = [] then s
  else (s.buildPan (unitId 7 0x2000) 1 0 tops true).placeUnit (unitId 7 0x2000)

/-- BUILD_DEFAULT_LAYOUT (R246, R261): with the peer head in service the final reply waits until it holds the layout. -/
def execBuildDefaultLayout (ring slot : Nat) (s : State) : Host.Outcome State Fault Refusal :=
  .next <| s.packet 0x23 ring slot fun e p s =>
    if e.num 10 2 > 64 ∨ !e.zero 12 2 then .fail s stInvalidField
    else if s.med.units.any fun d => unitClass d.id == 7 && d.state != .absent then .fail s 0x0808
    else
      let t := s.layout (e.num 10 2)
      let pans := t.med.units.filter fun d => unitClass d.id == 7 && d.state != .absent
      if t.rootPan.isNone then .fail s 0x0809
      else
        let spares := t.med.units.filter fun d => unitClass d.id == 6 && d.state == .online && !t.dieUsed d.id
        t.cfgSteps p (n4 pans.length ++ n4 spares.length ++ n4 (unitId 7 0x2000))

/-- Pans that are FAILED. -/
def State.failedPans (s : State) : List Nat :=
  (s.med.units.filter fun d => unitClass d.id == 7 && d.state == .failed).map UnitD.id

/-- A media port stops carrying its module, which the peer head then reaches for this head (R262, R334). -/
def State.portProxy (s : State) (n : Nat) (on : Bool) : State :=
  s.putMod { s.mod n with proxied := on }

/-- A media port, die or module is taken out of service (R262): a port is proxied through the peer head, or its module is lost. -/
def State.takeOut (s : State) (u : Nat) : State :=
  if unitClass u = 1 then
    let n := unitIndex u - 16
    let t := (s.portProxy n true).setUnitState u .offline 0
    if s.peerInService then t else t.moduleOut n 5 .failed
  else if unitClass u = 6 then s.dieOut u 0 .offline
  else s.moduleOut (unitIndex u) 0 .offline

/-- A pan has failed that had not (R262). -/
def State.newlyFailed (s t : State) : Bool := t.failedPans.any fun p => !s.failedPans.contains p

/-- SET_UNIT_SERVICE (R262, R264). -/
def rowSetUnitService (ring slot : Nat) (s : State) : State :=
  s.packet 0x24 ring slot fun e _ s =>
    let u := e.target
    let act := e.num 10 1
    let port := unitClass u == 1
    match if port then some stOk else s.cfgReady with
    | none => .waits
    | some st =>
      if st ≠ stOk then .fail s st
      else if act > 1 ∨ !e.zero 11 3 then .fail s stInvalidField
      else if !port && s.layoutBusy then .fail s stBusy
      else if act = 0 then
        if s.ust u ≠ .online then .fail s stInvalidField
        else
          let t := s.takeOut u
          if s.newlyFailed t then .fail s 0x0806
          else .done t stOk [] []
      else if s.ust u ≠ .offline ∧ s.ust u ≠ .failed then .fail s stInvalidField
      else if port ∧ (s.mod (unitIndex u - 16)).up = false then .fail s stUnitFailed
      else if port then .done ((s.portProxy (unitIndex u - 16) false).setUnitState u .online 0) stOk [] []
      else
        let n := if unitClass u = 5 then unitIndex u else dieModule u
        if !s.reachable n || (s.mod n).heldReason != 0 then .fail s stUnitFailed
        else if unitClass u = 6 then .done (s.leafIn u) stOk [] []
        else .done ((s.moduleDies n).foldl (fun s d => if s.ust d = .online then s else s.leafIn d) (s.leafIn u)) stOk [] []

/-- A unit can stand in for a member: its dies have the member's P_b, and a module has as many of them as the one it replaces presented (R245, R253;
log 141). -/
def State.fitsFor (s : State) (new old : Nat) : Bool :=
  if unitClass new = 5 then decide ((s.unit old).members.length ≤ (s.presents new old).length)
  else s.unitPb new == s.unitPb old || s.unitPb old == 0

/-- REPLACE_MEMBER (R263). -/
def execReplaceMember (ring slot : Nat) (s : State) : Host.Outcome State Fault Refusal :=
  .next <| s.panPacket 0x25 ring slot fun e _ s =>
    let d := s.unit e.target
    let pos := e.num 10 2
    let new := e.num 14 4
    if !e.zero 12 2 ∨ pos ≥ d.members.length ∨ new ≥ 2 ^ 24 ∨ !unitValid new then .fail s stInvalidField
    else
      let m := d.members.getD pos ⟨0, false⟩
      if !s.posFailed e.target m then .fail s 0x080A
      else if unitClass new ≠ unitClass m.unit then .fail s 0x0802
      else if new = e.target ∨ (s.above s.depth e.target).contains new = true then .fail s 0x0803
      else if (s.unit new).root = true ∨ s.ust new ≠ .online ∨ (s.unit new).parent ≠ 0 ∨ (unitClass new = 6 ∧ s.dieUsed new) ∨
          (unitClass new = 5 ∧ !s.spareModule (unitIndex new)) then .fail s 0x0801
      else if s.fitsFor new m.unit = false then .fail s 0x0802
      else
        let s := (s.assignSubst e.target pos new).placeUnit new
        let s := s.setUnitState e.target (s.panTarget (s.unit e.target)) 0
        .done (s.placeUnit e.target) stOk [] []

/-- A unit state code as a state. -/
def unitStOf : Nat → UnitSt
  | 1 => .online | 2 => .degraded | 3 => .rebuilding | 4 => .offline | 5 => .failed | 6 => .readOnly | _ => .absent

/-- Members of a pan record (R239). -/
def recMembers (r : Bytes) : List Member :=
  (List.range (leAt r 10 2)).map fun i =>
    let v := leAt r (64 + 4 * i) 4
    ⟨v % 2 ^ 24, v.testBit 24⟩

/-- A pan takes the members that a record gives it: those that are gone leave it, new ones join it, and the rebuild of a new SUBST position by this
head is due (R248, R254, R257; log 141). -/
def State.applyMembers (s : State) (pan : Nat) (ms : List Member) : State :=
  let old := (s.unit pan).members
  let s := s.putUnit { s.unit pan with members := ms }
  let one (s : State) (p : Nat × Member) : State :=
    let was := old.getD p.1 ⟨0, false⟩
    let s := if was.unit = p.2.unit ∧ (s.unit p.2.unit).parent = pan then s else s.joinPan pan p.1 p.2.unit was.unit
    if p.2.subst ∧ was ≠ p.2 then s.dueRebuild pan p.1 p.2.unit else s
  let s := ((List.range ms.length).zip ms).foldl one s
  s.freeMembers pan ((old.map Member.unit).filter fun u => !(ms.map Member.unit).contains u)

/-- The pan that a unit state record describes (R238, R257). -/
def State.applyPan (s : State) (u : Nat) (st : UnitSt) (r : Bytes) : State :=
  let d := s.unit u
  let total := leAt r 40 8
  let s := s.putUnit { d with
    scheme := leAt r 8 1, m := leAt r 9 1, root := (leAt r 14 2).testBit 1, parent := leAt r 4 3, pos := leAt r 7 1
    rebuildTotal := total, rebuildDone := if total = 0 then 0 else Nat.max d.rebuildDone (leAt r 32 8) }
  (s.applyMembers u (if st = .absent then [] else recMembers r)).setUnitState u st (leAt r 56 1)

/-- A unit state record (R257): the unit takes the state, the place and the members that it names, unless this head already holds them. -/
def State.applyUnit (s : State) (r : Bytes) : State :=
  let u := leAt r 0 3
  let st := unitStOf (leAt r 3 1 % 16)
  let d := s.unit u
  let cause := leAt r 56 1
  if !unitShared u || (d.state == st && d.parent == leAt r 4 3 && (unitClass u != 7 || d.members == recMembers r)) then s
  else
    match unitClass u, st with
    | 6, .failed | 6, .offline => if d.state.serving then s.dieDown false u cause st else s.setUnitState u st cause
    | 5, .failed | 5, .offline => if d.state.serving then s.moduleDown false (unitIndex u) cause st else s.setUnitState u st cause
    | 7, _ => s.applyPan u st r
    | _, _ =>
      let s := if leAt r 4 3 = 0 then s.leavePan u else s.putUnit { d with parent := leAt r 4 3, pos := leAt r 7 1 }
      (s.setUnitState u st cause).retrySubst

/-- A unit state record from the peer is applied at once and written into the own journal; one that this head already holds is recorded
and has no further effect (R257). -/
def rowUnitStateRecordRx (h : PtlHdr) (payload : Bytes) (s : State) : State :=
  s.onPtl 0 h payload fun b s =>
    let r := b.drop 2
    if !unitShared (leAt r 0 3) then s
    else (if s.pool.loaded then s.placeRec s.role 0x04 0 r else s).applyUnit r

end Sys2Proof.Machine
end

