-- ==== Sys2Proof/Machine/Reads.lean ====
section
/-! DEFINITION. Reads of media: parts, the retry ladder and reconstruction (10_media_units_pans.md R241, R242, R250-R252;
11_flash_translation.md R271, R288). -/
namespace Sys2Proof.Machine

/-- The crumbs of a stored frame. -/
def Grain.crumbs (g : Grain) : Nat := ceilDiv (g.len16 * 16) 256

/-- The level a read of a logical block starts at: the one that last succeeded there (R288). -/
def State.hint (s : State) (die blk : Nat) : Nat :=
  ((s.ftl.hints.find? fun h => h.1 == die && h.2.1 == blk).map fun h => h.2.2).getD 0

/-- The parts of a run of `n` crumbs from a PLOC on, one per program unit touched (R271). -/
def State.readParts (s : State) : Nat → Nat → Nat → List RPart
  | 0, _, _ => []
  | k + 1, ploc, n =>
    if n = 0 then []
    else
      let p := s.resolve ploc
      let c0 := recPb (s.dieRec p.die) / 256
      let take := Nat.min n (Nat.max 1 (c0 - p.crumb))
      let u := s.topU (ploc / 2 ^ 40)
      let lv := s.hint p.die p.blk
      { die := p.die, blk := p.blk, pu := p.pu, crumb := p.crumb, crumbs := take, row := p.blk * u + p.pu, level := lv,
        tried := 0, recon := false, pan := 0, mem := 0, off := 0, srcs := [], got := none, lost := false } ::
        s.readParts k (ploc + take) (n - take)

/-- The read job of a number. -/
def State.job? (s : State) (id : Nat) : Option ReadJob := findKey ReadJob.id id s.ftl.reads
/-- `s` with a read job replaced. -/
def State.putJob (s : State) (j : ReadJob) : State := { s with ftl.reads := putKey ReadJob.id j s.ftl.reads }
/-- `s` with a part of a read job replaced. -/
def State.putPart (s : State) (id k : Nat) (p : RPart) : State :=
  match s.job? id with
  | some j => s.putJob { j with parts := j.parts.set k p }
  | none => s

/-- The READ of some crumbs of a program unit goes out (R319). Booked reads carry PRIO (R323). -/
def State.readUnit (s : State) (booked : Bool) (die blk pu crumb crumbs level : Nat) (why : Purpose) : State :=
  s.issue (dieModule die) (diePos die) 0x01 (if booked then 2 else 0)
    (mediaParams (s.physBlock die blk) pu level (crumb * 256) (crumbs * 256)) [] why

/-- A die's data can be read: it serves and its position in its pan is not counted as failed (R244, R251). -/
def State.dieReadable (s : State) (d : Nat) : Bool :=
  let p := s.unit (s.unit d).parent
  (s.ust d).serving && s.reachable (dieModule d) && !(p.members.any fun m => m.unit == d && s.posFailed p.id m)

/-- The sources of a reconstruction of member `mem` of pan `pan` at an offset of a row: as many serving members as there are data columns, each
with a die there that can be read (R251). -/
def State.reconSources (s : State) (pan mem row off : Nat) : Option (List Nat) :=
  let d := s.unit pan
  let ok (u : Nat) : Bool := s.dieReadable (s.resolveIn s.depth u row off).1
  let live := (d.members.filter fun m => m.unit != mem && !s.posFailed pan m && ok m.unit).map Member.unit
  let k := if d.scheme = 2 then 1 else d.dataCols
  if d.tolerance = 0 ∨ live.length < k then none else some (live.take k)

/-- A part is reconstructed from member `mem` of its parent pan at data offset `off`; where that pan cannot decode, the pan one level up
does, and where none can, the part is lost (R251). `n` bounds the levels. -/
def State.reconAt (s : State) : Nat → Nat → Nat → RPart → Nat → Nat → State
  | 0, id, k, p, _, _ => (s.bump R.MED_RECON_FAIL_CNT).putPart id k { p with lost := true }
  | n + 1, id, k, p, mem, off =>
    let pan := (s.unit mem).parent
    if pan = 0 then
      { (s.bump R.MED_RECON_FAIL_CNT).putPart id k { p with lost := true } with
        ftl.health.grainLost := s.ftl.health.grainLost + 1 }
    else
      match s.reconSources pan mem p.row off with
      | some ms =>
        let p := { p with recon := true, pan := pan, mem := mem, off := off, srcs := ms.map fun m => (m, none) }
        let s := s.putPart id k p
        let booked := ((s.job? id).map ReadJob.booked).getD false
        let go (s : State) (x : Nat × Nat) : State :=
          let l := s.resolveIn s.depth x.2 p.row off
          s.readUnit booked l.1 p.blk p.pu l.2 p.crumbs (s.hint l.1 p.blk) (.read id k (x.1 + 1))
        ((List.range ms.length).zip ms).foldl go s
      | none =>
        let d := s.unit pan
        let pos := (s.unit mem).pos
        let w := Nat.max 1 d.members.length
        let x := if d.scheme = 2 then 0 else if unitClass pan = 5 then pos else (pos + w - p.row % w) % w
        let up := s.bump R.MED_RECON_UP_CNT
        if x < Nat.max 1 d.dataCols then up.reconAt n id k p pan (x * s.memberCrumbs d + off) else up.putPart id k { p with lost := true }

/-- A part is reconstructed (R251). -/
def State.reconstruct (s : State) (id k : Nat) : State :=
  match s.job? id with
  | none => s
  | some j =>
    match j.parts[k]? with
    | none => s
    | some p =>
      let s := { s.bump R.MED_RECON_CNT with ftl.health.recon := s.ftl.health.recon + 1 }
      s.reconAt (s.depth + 1) id k p p.die p.crumb

/-- A part is read, or reconstructed where its die counts as failed. -/
def State.startPart (s : State) (id k : Nat) : State :=
  match s.job? id with
  | none => s
  | some j =>
    match j.parts[k]? with
    | none => s
    | some p =>
      if s.dieReadable p.die then s.readUnit j.booked p.die p.blk p.pu p.crumb p.crumbs p.level (.read id k 0)
      else s.reconstruct id k

/-- The stored frame of a grain is read from media for a purpose (R50). -/
def State.readGrain (s : State) (why : ReadFor) (sgn : Nat) (booked : Bool) : State :=
  match findKey Grain.sgn sgn s.ftl.grains with
  | none => s
  | some g =>
    let parts := s.readParts (g.crumbs + 1) g.ploc g.crumbs
    let id := s.ftl.nextRead
    let s := { s with
      ftl.reads := s.ftl.reads ++ [{ id := id, why := why, sgn := sgn, booked := booked, again := false, parts := parts }]
      ftl.nextRead := id + 1 }
    (List.range parts.length).foldl (fun s k => s.startPart id k) s

/-- The levels a read may climb (R288): the die's table of its mode, FTL_RETRY_CFG.MAX_LEVEL, and level 8 when SOFT_EN. -/
def State.ladder (s : State) (die : Nat) (slc : Bool) : List Nat :=
  let r := s.dieRec die
  let n := Nat.min (if slc then leAt r 38 1 else leAt r 35 1) (Nat.min 7 (s.fld R.FTL_RETRY_CFG 3 0))
  (List.range (n + 1)) ++ (if s.fld R.FTL_RETRY_CFG 4 4 = 1 then [8] else [])

/-- Retry levels of reads in the die's health counts (12_harvest_health.md R309). -/
def State.noteLevel (s : State) (die blk lv : Nat) : State :=
  let s := if 1 ≤ lv ∧ lv ≤ 8 then s.bump (R.FTL_RETRY_LVL_CNT lv) else s
  { s with
    ftl.hints := (s.ftl.hints.filter fun h => !(h.1 == die && h.2.1 == blk)) ++ [(die, blk, lv)]
    ftl.health.retryHist := s.ftl.health.retryHist.set lv (s.ftl.health.retryHist.getD lv 0 + 1) }

/-- An uncorrectable page of a die in the present second; more than UNC_LIMIT distinct pages fail the die (R249 cause 0x03). -/
def State.noteUnc (s : State) (die blk pu : Nat) : State :=
  let s := { s.bump R.FTL_UNC_CNT with ftl.health.uncRead := s.ftl.health.uncRead + 1 }
  let ps := ((findKey Prod.fst die s.med.unc).map Prod.snd).getD []
  let ps := if ps.contains (blk, pu) then ps else ps ++ [(blk, pu)]
  let s := { s with med.unc := putKey Prod.fst (die, ps) s.med.unc }
  if ps.length > s.fld R.MED_FAULT_CFG 15 8 then s.dieOut die 3 .failed else s

/-- A job's bytes where every part has come, in order. -/
def ReadJob.whole (j : ReadJob) : Option Bytes :=
  if j.parts.all fun p => p.got.isSome then some (j.parts.flatMap fun p => p.got.getD []) else none

/-- A part of the job is lost. -/
def ReadJob.isLost (j : ReadJob) : Bool := j.parts.any (·.lost)

/-- What a source of a reconstruction gave; the part is decoded when all have come (R241, R242, R251). -/
def State.gotSource (s : State) (id k i : Nat) (bs : Bytes) : State :=
  match s.job? id with
  | none => s
  | some j =>
    match j.parts[k]? with
    | none => s
    | some p =>
      let p := { p with srcs := p.srcs.set i ((p.srcs.getD i (0, none)).1, some bs) }
      if p.srcs.any (·.2.isNone) then s.putPart id k p
      else
        let d := s.unit p.pan
        let w := Nat.max 1 d.members.length
        let col (u : Nat) : Nat := ((s.unit u).pos + w - p.row % w) % w
        let cols := p.srcs.map fun x => (col x.1, x.2.getD [])
        let out := if d.scheme = 2 then (cols.headD (0, [])).2 else decodeColumn d.dataCols cols (col p.mem)
        s.putPart id k { p with got := some out }

/-- A source of a reconstruction failed too: the pan one level up decodes (R251). -/
def State.sourceFailed (s : State) (id k : Nat) : State :=
  match s.job? id with
  | none => s
  | some j =>
    match j.parts[k]? with
    | none => s
    | some p =>
      let d := s.unit p.pan
      let w := Nat.max 1 d.members.length
      let pos := (s.unit p.mem).pos
      let x := if d.scheme = 2 then 0 else if unitClass p.pan = 5 then pos else (pos + w - p.row % w) % w
      let s := { s with lnk.cmds := s.lnk.cmds.filter fun c => match c.why with
        | .read a b (_ + 1) => !(a == id && b == k)
        | _ => true }
      let up := s.bump R.MED_RECON_UP_CNT
      if x < Nat.max 1 d.dataCols then up.reconAt (s.depth + 1) id k p p.pan (x * s.memberCrumbs d + p.off)
      else up.putPart id k { p with lost := true }

/-- The logical block of a PLOC's part lies in a block in SLC mode. -/
def State.partSlc (s : State) (sgn : Nat) : Bool :=
  match findKey Grain.sgn sgn s.ftl.grains with
  | none => false
  | some g => (s.blk (g.ploc / 2 ^ 40) (s.resolve g.ploc).blk).slc

/-- A source of a reconstruction has answered a READ that asked for a level: its bytes, or one level further, or the pan one level up after the
ladder (R251, R288). -/
def State.sourceCpl (s : State) (j : ReadJob) (k src asked status level : Nat) (p : RPart) (data : Bytes) : State :=
  let mem := (p.srcs.getD (src - 1) (0, none)).1
  let l := s.resolveIn s.depth mem p.row p.off
  if status = 0 then (s.noteLevel l.1 p.blk level).gotSource j.id k (src - 1) data
  else
    match (s.ladder l.1 (s.partSlc j.sgn)).find? fun x => decide (x > asked) with
    | some x => s.readUnit j.booked l.1 p.blk p.pu l.2 p.crumbs x (.read j.id k src)
    | none => (s.noteUnc l.1 p.blk p.pu).sourceFailed j.id k

/-- The completion of a READ of a part, which asked for level `asked`: its bytes, or one level further, or reconstruction after the ladder (R251,
R288). -/
def State.readCpl (s : State) (id k src asked status level : Nat) (data : Bytes) : State :=
  match s.job? id with
  | none => s
  | some j =>
    match j.parts[k]? with
    | none => s
    | some p =>
      if src > 0 then s.sourceCpl j k src asked status level p data
      else if p.recon then s
      else if status = 0 then
        let s := s.noteLevel p.die p.blk level
        let lim := s.fld R.FTL_HLTH_CFG 11 8
        let lim := if lim = 0 then 1 else Nat.min lim 8
        let s := if level ≥ lim then
            let top := ((findKey Grain.sgn j.sgn s.ftl.grains).map fun g => g.ploc / 2 ^ 40).getD 0
            let b := s.blk top p.blk
            if b.state = .full then s.putBlk { b with refresh := true } else s
          else s
        s.putPart id k { p with got := some data }
      else
        let ld := s.ladder p.die (s.partSlc j.sgn)
        match ld.find? fun l => decide (l > p.level) with
        | some l =>
          let s := s.putPart id k { p with level := l, tried := p.tried + 1 }
          s.readUnit j.booked p.die p.blk p.pu p.crumb p.crumbs l (.read id k 0)
        | none => (s.noteUnc p.die p.blk p.pu).reconstruct id k

/-- A reconstruction waits for a source whose READ has ended with its die. -/
def State.sourceGone (s : State) (id k : Nat) (p : RPart) : Bool :=
  p.recon && p.got.isNone && !p.lost && ((List.range p.srcs.length).zip p.srcs).any fun x =>
    x.2.2.isNone && !(s.lnk.cmds.any fun c => c.why == .read id k (x.1 + 1))

/-- Every read still directed at units that no longer serve is reconstructed, and a reconstruction that has lost a source goes one level up
(R250, R251, R334). -/
def State.rescueReads (s : State) : State :=
  let gone := s.ftl.reads.flatMap fun j =>
    ((List.range j.parts.length).zip j.parts).filterMap fun (k, p) => if s.sourceGone j.id k p then some (j.id, k) else none
  let s := gone.foldl (fun (s : State) x => s.sourceFailed x.1 x.2) s
  let todo := s.ftl.reads.flatMap fun j =>
    ((List.range j.parts.length).zip j.parts).filterMap fun (k, p) =>
      if p.got.isNone && !p.recon && !p.lost && !s.dieReadable p.die then some (j.id, k) else none
  todo.foldl (fun s x => s.reconstruct x.1 x.2) s

end Sys2Proof.Machine
end

