-- ==== Sys2Proof/Machine/Link.lean ====
section
/-! DEFINITION. The media ports, discovery, polling and the loss of ports and modules (13_media_link.md R314-R335;
10_media_units_pans.md R249, R250). -/
namespace Sys2Proof.Machine

/-! ### Discovery (R329) -/

/-- The CRC of a 64-byte record covers bytes 0 to 59. -/
def recCrcOk (r : Bytes) : Bool := r.length == 64 && leAt r 60 4 == crc32c (r.take 60)

/-- A PARAM command for a record of a module (R319). -/
def State.askParam (s : State) (port die sel : Nat) (why : Purpose) : State :=
  s.issue port die 0x04 0 (leBytes 1 sel) [] why

/-- RESERVE READ (R326). -/
def State.askReserve (s : State) (port : Nat) : State :=
  s.issue port 0xFFFF 0x06 0 (reserveParams 0 0 0) [] .rsvRead

/-- The parameter record of a die does not fit what the device supports: reason 3, 4 or none (R329). -/
def dieReason (r : Bytes) : Nat :=
  if recGood r then
    if leAt r 30 2 ≠ 16384 ∨ leAt r 32 2 < 2048 ∨ !([16384, 32768, 65536].contains (recPb r)) then 3
    else if recBits r ≠ 3 ∧ recBits r ≠ 4 then 4 else 0
  else 0

/-- The lowest reason of some. -/
def lowestReason (rs : List Nat) : Nat :=
  let l := rs.filter (· != 0)
  l.foldl Nat.min (l.headD 0)

/-- HELD_REASON of a module after discovery (R329); a reason found on the way stands in `heldReason`. -/
def Module.judge (m : Module) : Nat :=
  let count := leAt m.record 6 2
  let r2 := if m.record ≠ [] ∧ (count < 512 ∨ count > 1024) then 2 else 0
  let r6 := if m.record ≠ [] ∧ leAt m.record 4 2 < 0x0200 then 6 else 0
  lowestReason ([m.heldReason, r2, r6] ++ m.dies.map fun d => dieReason d.2)

/-- Discovery ends: the module is taken with its good dies, or held out (R248, R329). A module on different port numbers of the two heads is
recorded also where its unit is out of service already (01_architecture.md R21; code and class: DESIGN CHOICE, log 106). -/
def State.judgeModule (s : State) (n : Nat) : State :=
  let m := s.mod n
  let why := m.judge
  let s := s.putMod { m with heldReason := why, discovered := true }
  let u := unitId 5 n
  let dies := (m.dies.filter fun d => recGood d.2).map fun d => dieUnit n d.1
  if why = 0 then
    let s := if s.ust u = .absent then s.setUnitState u .online 0 else s
    let s := (dies.filter fun d => s.ust d == .absent).foldl (fun s d => s.setUnitState d .online 0) s
    s.retrySubst
  else
    let s := (dies.filter fun d => s.ust d == .absent).foldl (fun s d => s.setUnitState d .offline 7) s
    if s.ust u = .absent then s.setUnitState u .offline 7
    else if (s.ust u).serving then s.moduleOut n 7 .offline
    else if why = 1 then s.event 0x0B evcRefused 3 u []
    else s

/-- The next step of discovery after the module record or die position `pos - 1`. -/
def State.discoverDie (s : State) (n pos : Nat) : State :=
  if pos < leAt (s.mod n).record 6 2 then s.askParam n pos 1 (.dieRecord pos 1) else s.askReserve n

/-- A module record has come, the try it is (R329 step 1). -/
def State.gotModRecord (s : State) (n tries : Nat) (r : Bytes) : State :=
  if !recCrcOk r then
    if tries = 1 then s.askParam n 0xFFFF 0 (.modRecord 2)
    else (s.putMod { s.mod n with heldReason := lowestReason [(s.mod n).heldReason, 5], record := [], dies := [] }).askReserve n
  else
    let count := leAt r 6 2
    let s := s.putMod { s.mod n with record := r, dies := (s.mod n).dies.filter fun d => decide (d.1 < count) }
    if count < 512 ∨ count > 1024 ∨ leAt r 4 2 < 0x0200 then s.askReserve n else s.discoverDie n 0

/-- A die record has come, the try it is (R329 step 2). -/
def State.gotDieRecord (s : State) (n pos tries : Nat) (r : Bytes) : State :=
  if !recCrcOk r then
    if tries = 1 then s.askParam n pos 1 (.dieRecord pos 2)
    else (s.putMod { s.mod n with dies := dropKey Prod.fst pos (s.mod n).dies }).discoverDie n (pos + 1)
  else (s.putMod { s.mod n with dies := putKey Prod.fst (pos, r) (s.mod n).dies }).discoverDie n (pos + 1)

/-- A port reaches DL_Up (R314, R315, R329). `mismatch` says that the peer head found the module on another port number
(01_architecture.md R21). A port that trains to another width or rate than x4 at 32 GT/s stays down. (DEDUCED, log 73) While the port's domain is off no link trains; the
presence pin shows the module all the same (R524). -/
def execMediaPortUp (port width rate : Nat) (mismatch : Bool) (s : State) : Host.Outcome State Fault Refusal :=
  .next <|
    if port < 32 ∧ s.domainOff (19 + port) = true then s.putMod { s.mod port with present := true }
    else if port ≥ 32 ∨ width ≠ 4 ∨ rate ≠ 5 ∨ s.fld R.LNK_CFG 0 0 = 0 ∨ (s.mod port).up then s
    else
      let s := s.putMod { s.mod port with
        present := true, up := true, heldReason := if mismatch then 1 else 0, discovered := false }
      s.askParam port 0xFFFF 0 (.modRecord 1)

/-! ### Loss of a port, a module, a die (R249, R334) -/

/-- A module fails, and what was read from it is reconstructed. -/
def State.failModule (s : State) (n cause : Nat) : State :=
  let s := { s with lnk.cmds := s.lnk.cmds.filter fun c => c.port != n }
  (s.moduleOut n cause .failed).rescueReads

/-- What the read-back of a PROGRAM whose completion was lost is for; none for another command (R334). -/
def ModCmd.backWhy (c : ModCmd) : Option Purpose :=
  match c.why with
  | .program row => some (.readBack row false)
  | .index row => some (.readBack row true)
  | .anchor j => if c.opc = 0x02 then some (.rootBack j) else none
  | .rebuild pan pos => some (.rebuildBack pan pos)
  | _ => none

/-- What becomes of a command that was outstanding on a port now down, with the peer head in service (R334). -/
def State.throughPeer (s : State) (c : ModCmd) : State :=
  let drop (s : State) : State :=
    { s with lnk.cmds := s.lnk.cmds.filter fun x => !(x.port == c.port && x.tag == c.tag) }
  if !c.sent then s.putCmd { c with viaPeer := true }
  else
    match c.backWhy, c.why with
    | some why, _ =>
      let s := (drop s).bump R.LNK_LOST_CPL_CNT
      let b := { c with tag := s.lnk.nextTag, opc := 0x01, flags := c.flags % 2, viaPeer := true, rdata := [], busyWait := false, why := why }
      let s := { s with lnk.cmds := s.lnk.cmds ++ [b], lnk.nextTag := (s.lnk.nextTag + 1) % 2 ^ 16 }
      s.sendCmd b
    | none, .register | none, .preempt | none, .release => (drop s).askReserve c.port
    | none, _ => s.resend { c with viaPeer := true }

/-- The loss of the peer head's path: a module without an own port fails (R334). -/
def State.loseProxied (s : State) : State :=
  let lost := s.lnk.mods.filter fun m => m.present && !s.direct m.port && (s.ust (unitId 5 m.port)).serving
  lost.foldl (fun s m => s.failModule m.port 5) s

/-- A port goes to DL_Down (R315, R334). -/
def rowMediaPortDown (port : Nat) (s : State) : State :=
 
    if !(s.mod port).up then s
    else
      let s := s.bump R.LNK_LINK_DOWN_CNT
      let mine := s.lnk.cmds.filter fun c => c.port == port && !c.viaPeer
      let s := s.putMod { s.mod port with up := false, proxied := true }
      let s := s.setUnitState (unitId 1 (16 + port)) .failed 6
      if s.peerInService then mine.foldl State.throughPeer s else s.failModule port 5

/-- MPRSNT_N deasserts (R332): cause 0x04. -/
def rowModulePresenceLost (port : Nat) (s : State) : State :=
  (s.putMod { s.mod port with present := false }).failModule port 4

/-- An EVENT MLP (R332): a failed die, a fatal fault, the module's temperature limit, loss of its power. -/
def rowModuleEventRx (port code die : Nat) (s : State) : State :=
 
    let s := s.bump R.LNK_EVENT_RX_CNT
    let u := unitId 5 port
    match code with
    | 1 => (s.dieOut (dieUnit port die) 2 .failed).rescueReads
    | 2 => s.failModule port 4
    | 3 => s.event 0x0B evcThreshold 4 u []
    | 4 => s.event 0x0B evcState 5 u []
    | _ => s

/-- STATUS goes to each module, held out or not (R332). -/
def execModuleStatusPoll (s : State) : Host.Outcome State Fault Refusal :=
  .next <|
    let ms := s.lnk.mods.filter fun m => s.reachable m.port
    ms.foldl (fun s m => s.issue m.port 0xFFFF 0x05 0 [] [] .status) s

/-- One microsecond after a BUSY completion the command goes out again (R322). -/
def execModuleBusyRetry (port tag : Nat) (s : State) : Host.Outcome State Fault Refusal :=
  .next <|
    match s.cmdOf port tag with
    | some c =>
      if c.busyWait then
        let c := { c with busyWait := false, rdata := [] }
        (s.putCmd c).sendCmd c
      else s
    | none => s

/-- The lead module by its rule: the lowest-numbered ONLINE module without a port proxied on either head (15_pair_operation.md R373). -/
def State.leadChoice (s : State) : Option Nat :=
  (List.range 32).find? fun n => (s.mod n).present && s.ust (unitId 5 n) == .online && s.direct n && !s.pair.peerProxy.contains n

/-- While PAIRED, head 0 proposes a new lead where the choice has changed (15_pair_operation.md R373). -/
def State.leadCheck (s : State) : State :=
  if s.pair.state ≠ .paired ∨ s.role ≠ 0 then s
  else
    let now := match s.pair.leadPend with
      | some p => p.1
      | none => s.pair.lead
    match s.leadChoice with
    | none => s
    | some n =>
      if n = now then s
      else
        let s := s.control 0x0006 (leBytes 1 n)
        { s with pair.leadPend := some (n, ((s.chan 0).next + 2 ^ 32 - 1) % 2 ^ 32) }

/-- The 32-byte reservation record as GET_MODULE_INFO lays it out, port A first (R335). -/
def State.rsvRecord (s : State) (n : Nat) : Bytes :=
  let m := s.mod n
  let code : RsvSt → Nat := fun r => match r with
    | .none => 0
    | .registered => 1
    | .fenced => 2
  let own := (code m.ownRsv, m.ownEpoch)
  let oth := (code m.otherRsv, m.otherEpoch)
  let a := if s.role = 0 then own else oth
  let b := if s.role = 0 then oth else own
  leBytes 1 a.1 ++ leBytes 1 b.1 ++ leBytes 6 0 ++ leBytes 8 a.2 ++ leBytes 8 b.2 ++ leBytes 8 0

/-- GET_MODULE_INFO (R335). -/
def execGetModuleInfo (ring slot : Nat) (s : State) : Host.Outcome State Fault Refusal :=
  .next <| s.packet 0x26 ring slot fun e _ s =>
    let n := unitIndex e.target
    let m := s.mod n
    let sel := e.num 10 1
    if sel > 2 ∨ !e.zero 11 1 then .fail s stInvalidField
    else if !m.present then .fail s 0x0A00
    else if !s.reachable n then .fail s 0x0A01
    else if sel = 1 ∧ e.num 12 2 ≥ leAt m.record 6 2 then .fail s 0x0A02
    else
      let data := match sel with
        | 0 => slice m.record 0 64
        | 1 => slice (s.dieRec (dieUnit n (e.num 12 2))) 0 64
        | _ => s.rsvRecord n
      .done s stOk [] data

/-! ### Commands that get no answer in time (10_media_units_pans.md R249, R250) -/

/-- DIE_TMO_MS without a completion: the first miss reissues the command, the second in succession fails the die; a module-level
command then ends without a result (DESIGN CHOICE, log 14). -/
def rowDieCommandTimeout (port tag : Nat) (s : State) : State :=
 
    match s.cmdOf port tag with
    | none => s
    | some c =>
      if !c.sent then s
      else if c.die = 0xFFFF then (if c.reissued then s.endCmd c else s.reissue c)
      else
        let d := dieUnit port c.die
        match s.dieMissed d with
        | (s, n) => if n = 1 then s.reissue c else (s.dieOut d 1 .failed).rescueReads

/-- A booked read without data at slot e + L_die + 2 is reissued as reconstructions; a part whose port is down goes through the peer
head (R250). -/
def rowBookedReadTimeout (job : Nat) (s : State) : State :=
 
    match s.job? job with
    | none => s
    | some j =>
      if !j.booked then s
      else
        let late := (List.range j.parts.length).zip j.parts |>.filter fun x => x.2.got.isNone && !x.2.recon && !x.2.lost
        let s := s.bumpBy R.MED_SLOW_REISSUE_CNT late.length
        late.foldl (fun s x =>
          let p := x.2
          let n := dieModule p.die
          let s := { s with lnk.cmds := s.lnk.cmds.filter fun c => c.why != Purpose.read job x.1 0 }
          if !s.direct n && s.reachable n && (s.ust p.die).serving then
            s.readUnit true p.die p.blk p.pu p.crumb p.crumbs p.level (.read job x.1 0)
          else s.reconstruct job x.1) s

end Sys2Proof.Machine
end

