-- ==== Sys2Proof/Machine/Paging.lean ====
section
/-! DEFINITION. Metadata pages that are dropped from memory and read back from their checkpoint images (11_flash_translation.md R269;
16_memory_cache.md R393). A page is (0, image) for a map page image and (1, page) for a page of the stored grain table. -/
namespace Sys2Proof.Machine

/-- Bytes of HBM and DDR that can hold map pages: the HBM map area and the DDR metadata area (16_memory_cache.md R392, R393). -/
def State.mapArea (s : State) : Nat :=
  let land := Nat.min 64 (bits s.mem.hbmSplit 7 0)
  let map := Nat.min (bits s.mem.hbmSplit 15 8) (105 - land)
  let flex := s.mem.ddrGib - 4
  let part (hi lo : Nat) : Nat := flex * bits s.mem.ddrSplit hi lo / 256
  (map + (flex - part 23 16 - part 15 8 - part 7 0)) * 2 ^ 30

/-- The metadata pages that exist. -/
def State.metaPages (s : State) : List (Nat × Nat) :=
  (s.ftl.imgs.map fun i => (0, i.id)) ++ ((s.ftl.grains.map fun g => g.sgn / 128).eraseDups.map fun p => (1, p))

/-- Those in HBM or DDR. -/
def State.pagesIn (s : State) : List (Nat × Nat) := s.metaPages.filter fun p => !s.ftl.paged.contains p

/-- A page stays: it is of a deadline-mode volume, or of the stored grains of its group (R269; 03_sluice.md R47). -/
def State.pageKept (s : State) (p : Nat × Nat) : Bool :=
  let vs := s.pool.volumes.filter fun v => v.mode == 1
  if p.1 = 0 then s.ftl.maps.any fun m => m.snap.isNone && (m.pages.any fun x => x.2 == p.2) && vs.any fun v => v.nsid == m.nsid
  else vs.any fun v => v.ana == p.2 / 2 ^ 31 + 1

/-- A page is clean: it has not changed since the last completed checkpoint, whose directory names its image (R269, R282). -/
def State.pageClean (s : State) (p : Nat × Nat) : Bool :=
  let changed := if p.1 = 0 then s.ftl.imgs.any fun i => i.id == p.2 && i.dirty else s.ftl.touched.contains p.2
  let mine : RowItem → Bool
    | .image t n _ _ => (t, n) == p
    | _ => false
  !changed && (s.ftl.journals.any fun j => j.dir.any fun x => (x.1, x.2.1) == p) && !(s.ftl.packQ.any fun q => mine q.2.2) &&
    !(s.ftl.journals.any fun j => j.ckpts.any fun c => c.imgs.any fun x => (x.1, x.2.1) == p)

/-- The pages that may be dropped. -/
def State.pagesFree (s : State) : List (Nat × Nat) := s.pagesIn.filter fun p => !s.pageKept p && s.pageClean p

/-- The map area has room for some more pages. -/
def State.pageRoom (s : State) (more : Nat) : Bool := decide ((s.pagesIn.length + more) * 4096 ≤ s.mapArea)

/-- While the map area has no room, clean pages of best-effort volumes other than `keep` are dropped, not recently used ones first; where all
are used the marks clear (R269; the order is DESIGN CHOICE, log 94). `n` bounds the run. -/
def State.dropPages (s : State) (keep : Nat × Nat) : Nat → State
  | 0 => s
  | n + 1 =>
    if s.pageRoom 0 then s
    else
      let free := s.pagesFree.filter (· != keep)
      match free.find? fun p => !s.ftl.recent.contains p with
      | some p => State.dropPages { s with ftl.paged := s.ftl.paged ++ [p] } keep n
      | none =>
        match free with
        | [] => s
        | p :: _ => State.dropPages { s with ftl.paged := s.ftl.paged ++ [p], ftl.recent := [keep] } keep n

/-- A page is in memory and has been looked up; others make room for it. -/
def State.pageCame (s : State) (p : Nat × Nat) : State :=
  let s := { s with
    ftl.paged := s.ftl.paged.filter (· != p)
    ftl.recent := if s.ftl.recent.contains p then s.ftl.recent else s.ftl.recent ++ [p] }
  s.dropPages p s.pagesIn.length

/-- The first crumb of the latest image of a page on media (R282). -/
def State.pagePloc (s : State) (p : Nat × Nat) : Nat :=
  let mine : RowItem → Bool
    | .image t n _ _ => (t, n) == p
    | _ => false
  let start (is : List RowItem) : Nat := sumOf ((is.takeWhile fun i => !mine i).map RowItem.crumbs)
  s.ftl.rows.foldl (fun a r => if r.state == .programmed && r.items.any mine then s.rowPloc r + start r.items else a) 0

/-- A read of a page is for a page. -/
def ReadFor.isPage (p : Nat × Nat) : ReadFor → Bool
  | .page _ t n => (t, n) == p
  | _ => false

/-- The latest image of a dropped page is read from media, 17 crumbs, unless its read is under way (R269). -/
def State.pageFetch (s : State) (who : Option (Nat × Nat)) (p : Nat × Nat) : State :=
  let parts := if s.ftl.reads.any fun j => j.why.isPage p then [] else s.readParts 18 (s.pagePloc p) 17
  let id := s.ftl.nextRead
  let s := if parts.isEmpty then s else s.bump R.FTL_MAP_MEDIA_CNT
  let s := { s with
    ftl.reads := s.ftl.reads ++ [{ id := id, why := .page who p.1 p.2, sgn := 0, booked := false, again := false, parts := parts }]
    ftl.nextRead := id + 1 }
  (List.range parts.length).foldl (fun s k => s.startPart id k) s

/-- A lookup of a page that does not wait: one that was dropped is read back, and taken to be there (DESIGN CHOICE, log 94). -/
def State.pageIn (s : State) (p : Nat × Nat) : State :=
  if s.ftl.paged.contains p then (s.pageFetch none p).pageCame p else s.pageCame p

/-- A stored grain's record changes: its page is looked up and has changed. -/
def State.grainIn (s : State) (sgn : Nat) : State := (s.touchGrain sgn).pageIn (1, sgn / 128)

/-- The pages that must stay are brought back (R47, R269). -/
def State.keepPages (s : State) : State := (s.ftl.paged.filter s.pageKept).foldl State.pageIn s

end Sys2Proof.Machine
end

