-- ==== Sys2Proof/Machine/Harvest.lean ====
section
/-! DEFINITION. Grants of stripe blocks, the SLC target, the free fraction, the read-only pool and harvest (11_flash_translation.md
R274, R285, R286; 12_harvest_health.md R291-R306). -/
namespace Sys2Proof.Machine

/-! ### Counts over top pans -/

/-- The positions of the top pans. -/
def State.tops (s : State) : List Nat := List.range s.topCount

/-- A top pan is writable: not READ_ONLY, not FAILED, not showing NO_ROWS (R295). -/
def State.topWritable (s : State) (top : Nat) : Bool := s.takesRows (s.topPan top)

/-- Stripe blocks of a top pan that are BAD (R305). -/
def State.topBad (s : State) (top : Nat) : Nat := countOf (fun b => b.state == .bad) (s.topBlks top)

/-- FREE stripe blocks in writable top pans (R295). -/
def State.freeBlocks (s : State) : Nat := sumOf ((s.tops.filter s.topWritable).map s.topFree)

/-- Stripe blocks of writable top pans that are not BAD (R295). -/
def State.usableBlocks (s : State) : Nat :=
  sumOf ((s.tops.filter s.topWritable).map fun t => s.topN t - s.topBad t)

/-- FREE_HIGH, FREE_LOW and FREE_FLOOR with their treatment (R312). -/
def State.freeHigh (s : State) : Nat := s.fld R.FTL_FREE_CFG 23 16
/-- FREE_LOW, at most FREE_HIGH (R312). -/
def State.freeLow (s : State) : Nat := Nat.min (s.fld R.FTL_FREE_CFG 15 8) s.freeHigh
/-- FREE_FLOOR, at most FREE_LOW (R312). -/
def State.freeFloor (s : State) : Nat := Nat.min (s.fld R.FTL_FREE_CFG 7 0) s.freeLow

/-- The free fraction is below `x` / 256 (R295). Without a ROOT pan there is no pool and nothing is below. -/
def State.freeBelow (s : State) (x : Nat) : Bool :=
  s.rootPan.isSome && decide (s.freeBlocks * 256 < x * s.usableBlocks ∨ s.usableBlocks = 0)

/-- The stripe block a PLOC lies in. -/
def State.blkOf (s : State) (ploc : Nat) : Nat × Nat := (ploc / 2 ^ 40, (s.resolve ploc).blk)

/-- VALID of a stripe block, in crumbs (R292). -/
def State.validCrumbs (s : State) (top blk : Nat) : Nat :=
  sumOf ((s.ftl.grains.filter fun g => g.ploc != 0 && decide (g.refcnt > 0) && s.blkOf g.ploc == (top, blk)).map Grain.crumbs)

/-- Valid crumbs in a top pan. -/
def State.topValid (s : State) (top : Nat) : Nat :=
  sumOf ((s.ftl.grains.filter fun g => g.ploc != 0 && decide (g.refcnt > 0) && g.ploc / 2 ^ 40 == top).map Grain.crumbs)

/-- Data crumbs of one native stripe block: C × U (R285). -/
def State.blkCrumbs (s : State) (top : Nat) : Nat := s.crumbs (s.topPan top) * s.topU top

/-- The target T of SLC stripe blocks (R285). N counts the blocks that can hold data. -/
def State.slcTarget (s : State) (top : Nat) : Nat :=
  let n := s.topN top - s.topBad top
  let b := s.topMin top recBits
  let cu := s.blkCrumbs top
  let t1 := n * s.fld R.FTL_SLC_CFG 7 0 / 256
  let guard := 256 - s.fld R.FTL_SLC_CFG 15 8
  let t2 := (n * guard * cu - 256 * s.topValid top) * b / (256 * cu * (b - 1))
  Nat.min t1 t2

/-- SLC stripe blocks in use in a top pan (R286). -/
def State.slcUsed (s : State) (top : Nat) : Nat :=
  countOf (fun b => b.slc && b.state != .free && b.state != .bad) (s.topBlks top)

/-! ### The read-only pool (R306) -/

/-- POOL_STATE of R308. -/
def State.poolState (s : State) : Nat := if s.ftl.poolRo then 2 else if s.freeBelow s.freeFloor then 1 else 0

/-- The check made at each grant (R306). -/
def State.poolRoCheck (s : State) : State :=
  let w := s.tops.filter s.topWritable
  let v := sumOf (w.map s.topValid)
  let k := sumOf (w.map fun t => (s.topN t - s.topBad t) * s.blkCrumbs t)
  let guard := s.fld R.FTL_SLC_CFG 15 8
  if !s.ftl.poolRo && (decide (v * 256 > k * (256 - guard)) || w.isEmpty) then
    let old := s.poolState
    { s with ftl.poolRo := true }.alarm 5 0x0A evcState 0 (evState old 2 0)
  else if s.ftl.poolRo && !w.isEmpty && decide (v * 256 ≤ k * (254 - guard)) then
    ({ s with ftl.poolRo := false }.event 0x0A evcState 2 0 (evState 2 0 0)).warnOff 3
  else s

/-! ### Grants (R274) -/

/-- The top pan and block the arbiter chooses next for a journal (R274). -/
def State.chooseBlk (s : State) (j : Nat) : Option (Nat × Nat) :=
  let n := s.topCount
  let order := (List.range n).map fun i => ((s.journal j).lastTop + i) % n
  let has (t : Nat) : Bool := decide (s.topFree t > 0)
  match order.find? fun t => s.topWritable t && has t with
  | none => none
  | some t =>
    ((List.range (s.topN t)).map (· + 4)).find? (fun b => (s.blk t b).state == .free) |>.map fun b => (t, b)

/-- What waits in a stream of the own journal may be granted below FREE_FLOOR: metadata, copies of harvest, device-added records
(R295). -/
def State.belowFloorOk (s : State) (j st : Nat) : Bool :=
  st == 4 || s.ftl.packQ.any fun q => q.1 == j && q.2.1 == st && match q.2.2 with
    | .copy _ _ _ _ => true
    | .record r _ => r.typ != 1
    | _ => false

/-- A block is granted: it belongs to the journal, in the mode given (R274, R286). -/
def State.openBlk (s : State) (j st top blk : Nat) (slc recorded : Bool) : State :=
  let s := s.putBlk { freeBlk top blk with state := .opened, owner := j, stream := st, slc := slc, recorded := recorded }
  s.putJournal { s.journal j with lastTop := (top + 1) % Nat.max 1 s.topCount }

/-- The requesting head records a grant in its journal, and what waited for it is packed (R274). -/
def State.recordGrant (s : State) (j st top blk : Nat) (slc : Bool) : State :=
  let s := s.openBlk j st top blk slc true
  let s := { s with ftl.grantReq := s.ftl.grantReq.filter (· != (j, st)) }
  let s := s.bump R.FTL_GRANT_CNT
  let body := leBytes 1 j ++ leBytes 1 top ++ leBytes 1 st ++ leBytes 1 (b2n slc) ++ leBytes 4 blk
  let s := s.placeRec j 0x02 0 body
  (s.packWaiting j st).packWaiting j 0

/-- The content of a grant message (R364). -/
def grantMsg (j st top blk : Nat) (slc : Bool) : Bytes :=
  leBytes 1 1 ++ leBytes 1 j ++ leBytes 1 top ++ leBytes 1 st ++ leBytes 1 (b2n slc) ++ leBytes 3 0 ++ leBytes 4 blk

/-- The arbiter answers a request, or keeps it until it can (R274, R295, R306). -/
def State.grant (s : State) (j st : Nat) : State :=
  let s := s.poolRoCheck
  let mine := s.role == j || !s.peerInService
  let hold (s : State) : State :=
    { s with ftl.grantWait := if s.ftl.grantWait.contains (j, st) then s.ftl.grantWait else s.ftl.grantWait ++ [(j, st)] }
  if s.freeBelow s.freeFloor && !s.belowFloorOk j st then hold s
  else
    match s.chooseBlk j with
    | none => hold s
    | some (t, b) =>
      let s := { s with ftl.grantWait := s.ftl.grantWait.filter (· != (j, st)) }
      let slc := st == 0 && decide (s.slcUsed t < s.slcTarget t)
      let s := if s.peerInService then s.control 0x0003 (grantMsg j st t b slc) else s
      if mine then s.recordGrant j st t b slc else s.openBlk j st t b slc false

/-- Requests that the arbiter kept are tried again once blocks are free. -/
def State.retryGrants (s : State) : State := s.ftl.grantWait.foldl (fun s q => s.grant q.1 q.2) s

/-- The arbiter is this head (R274). -/
def State.isArbiter (s : State) : Bool := s.role == 0 || !s.peerInService

/-- The arbiter receives a grant request: of the own journal, or in a message of the peer (R274, R364). -/
def execGrantRequestRx (h : PtlHdr) (journal stream : Nat) (s : State) : Host.Outcome State Fault Refusal :=
  .next <|
    if journal ≠ s.role ∧ s.peerInService then
      s.onPtl 0 h [] fun _ s => if s.isArbiter ∧ stream < 5 then s.grant journal stream else s
    else if s.isArbiter ∧ s.ftl.grantReq.contains (journal, stream) then s.grant journal stream
    else s

/-- A grant of the head 0 arbiter arrives (R364): for the own journal it is recorded, for the other it is noted. -/
def execGrantRx (h : PtlHdr) (payload : Bytes) (s : State) : Host.Outcome State Fault Refusal :=
  .next <| s.onPtl 0 h payload fun b s =>
    let j := leAt b 3 1
    let top := leAt b 4 1
    let st := leAt b 5 1
    let slc := leAt b 6 1 == 1
    let blk := leAt b 10 4
    if j = s.role then s.recordGrant j st top blk slc else s.openBlk j st top blk slc false

/-! ### Spare blocks, wear and retirement (R303-R305) -/

/-- The erases of a physical block, both modes (R309). -/
def DieWear.erasesOf (w : DieWear) (phys : Nat) : Nat := ((findKey Prod.fst phys w.erased).map Prod.snd).getD 0

/-- An hour in nanoseconds. -/
def hourNs : Nat := 3600000000000

/-- A read of a die at a retry level enters the record of its last hour (R309). -/
def State.noteRetry (s : State) (d level : Nat) : State :=
  let w := s.wearOf d
  s.putWear { w with retries := (w.retries.filter fun x => decide (x.1 + hourNs > s.tide.time)) ++ [(s.tide.time, level)] }

/-- The spare remaining of a top pan, in 1/256 (R305). -/
def State.spareRemain (s : State) (top : Nat) : Nat :=
  let vs := (s.leaves (s.topPan top)).map fun d =>
    let w := s.wearOf d
    if w.spareInit = 0 then 0 else w.spareLeft * 256 / w.spareInit
  vs.foldl Nat.min (vs.headD 0)

/-- The wear used of a die, as a fraction: numerator and denominator (R303). -/
def State.wearUsed (s : State) (d : Nat) : Nat × Nat :=
  let w := s.wearOf d
  let r := s.dieRec d
  let native := leAt r 48 4
  let slc := leAt r 52 4
  let den := recBlocks r * native * slc
  if den = 0 then (0, 1) else (w.native * slc + w.slc * native, den)

/-- The wear used of a top pan, the highest of its dies, in units of 1/`n`, rounded down (R303; the rounding: DESIGN CHOICE, log 143). -/
def State.topWear (s : State) (n top : Nat) : Nat := maxOf ((s.leaves (s.topPan top)).map fun d => (s.wearUsed d).1 * n / (s.wearUsed d).2)

/-- The mean of some fractions in units of 1/`n`, rounded down; 0 of none. -/
def meanIn (n : Nat) (fs : List (Nat × Nat)) : Nat :=
  let sum := fs.foldl (fun a f => if a.2 = f.2 then (a.1 + f.1, a.2) else (a.1 * f.2 + f.1 * a.2, a.2 * f.2)) (0, 1)
  sum.1 * n / (sum.2 * fs.length)

/-- A top pan below the spare floor turns READ_ONLY (R305). -/
def State.spareCheck (s : State) (top : Nat) : State :=
  let p := s.topPan top
  let s := if s.spareRemain top < s.fld R.FTL_HLTH_CFG 7 0 then s.warnOn 0 else s
  match s.ust p with
  | .online | .degraded | .rebuilding =>
    if s.spareRemain top < s.fld R.FTL_HLTH_CFG 7 0 then (s.setUnitState p .readOnly 0).placeUnit p else s
  | _ => s

/-- The journals this head holds and works for: its own and one it adopted. -/
def State.heldJournals (s : State) : List Nat := if s.pair.adopted then [s.role, 1 - s.role] else [s.role]

/-- The first 8 bytes of the body of a harvest record: HSUB, FLAGS, TOP, BLOCK (R298). -/
def harvestHead (hsub flags top blk : Nat) : Bytes := leBytes 1 hsub ++ leBytes 1 flags ++ leBytes 1 top ++ leBytes 1 0 ++ leBytes 4 blk

/-- The physical block of a die's logical block is retired: the next spare takes its place; without one the stripe block is BAD
(R304, R305). The spares are the physical blocks above the logical ones, in order. DESIGN CHOICE (log 16). -/
def State.retire (s : State) (top d blk : Nat) : State :=
  let w := s.wearOf d
  if w.spareLeft = 0 then
    let b := s.blk top blk
    let j := if s.heldJournals.contains b.owner then b.owner else s.role
    (s.putBlk { b with state := .bad, eraseLeft := [] }).placeRec j 0x07 0 (harvestHead 3 0 top blk)
  else
    let spare := recBlocks (s.dieRec d) + (w.spareInit - w.spareLeft)
    let s := s.putWear { w with spareLeft := w.spareLeft - 1, remap := putKey Prod.fst (blk, spare) w.remap }
    let s := (s.bump R.FTL_RETIRE_CNT).event 0x0A evcConfig 3 d (evValue blk)
    let s := { s with ftl.health.retired := s.ftl.health.retired + 1 }
    s.spareCheck top

/-! ### Harvest (R296-R299) -/

/-- A record of a journal is programmed: no open or closing row and no waiting item holds it. -/
def State.recDone (s : State) (j : Nat) (m : Nat × Nat) : Bool :=
  let is (i : RowItem) : Bool := match i with
    | .record q _ => q.typ != 1 && q.jseq == m.1 && q.sub == m.2
    | _ => false
  !(s.ftl.rows.any fun r => r.journal == j && (r.state == .filling || r.state == .closed) && r.items.any is) &&
    !(s.ftl.packQ.any fun q => q.1 == j && is q.2.2)

/-- The place of the last device-added record of a journal. -/
def State.lastMark (s : State) (j : Nat) : Nat × Nat := ((s.journal j).jseq, (s.journal j).sub)

/-- The class of R296 of a FULL block, 0 where it is not to be harvested. -/
def State.victimClass (s : State) (b : Blk) : Nat :=
  let st := s.ust (s.topPan b.top)
  if b.state ≠ .full ∨ b.stream = 4 ∨ b.maxJseq > (s.journal b.owner).rootS0 ∨ st = .failed ∨
      (st = .readOnly ∧ b.refresh = false) then 0
  else if b.scrub then 1
  else if b.retire then 2
  else if b.refresh then 3
  else if b.slc && decide (s.slcUsed b.top > s.slcTarget b.top) then 4
  else if s.freeBelow s.freeHigh || s.validCrumbs b.top b.blk == 0 then 5
  else 0

/-- The order in which candidates are taken (R296): class, then VALID in class 5, then SLC first, then the block number. -/
def State.victimKey (s : State) (b : Blk) : List Nat :=
  let c := s.victimClass b
  [c, if c = 5 then s.validCrumbs b.top b.blk else 0, if b.slc then 0 else 1, b.blk]

/-- Lexicographic order of keys of the same length. -/
def keyLt : List Nat → List Nat → Bool
  | a :: as, b :: bs => if a < b then true else if b < a then false else keyLt as bs
  | _, _ => false

/-- The victim that a journal takes in a top pan (R296). -/
def State.victim (s : State) (j top : Nat) : Option Blk :=
  let c := s.ftl.blocks.filter fun b => b.top == top && b.owner == j && s.victimClass b != 0
  c.foldl (fun o b => match o with
    | none => some b
    | some a => if keyLt (s.victimKey b) (s.victimKey a) then some b else some a) none

/-- A harvest of a block. -/
def State.harvest? (s : State) (top blk : Nat) : Option Harvest :=
  s.ftl.harvests.find? fun h => h.top == top && h.blk == blk

/-- `s` with a harvest replaced. -/
def State.putHarvest (s : State) (h : Harvest) : State :=
  { s with ftl.harvests := mapIf (fun x => x.top == h.top && x.blk == h.blk) (fun _ => h) s.ftl.harvests }

/-- HARVEST_START (R297 step 1): the head picks a victim of a held journal in a top pan and places the start record, a seal
point. -/
def execHarvestStart (journal top : Nat) (s : State) : Host.Outcome State Fault Refusal :=
  .next <|
    if !s.heldJournals.contains journal || (s.ftl.harvests.any fun h => h.journal == journal && h.top == top) then s
    else
      match s.victim journal top with
      | none => s
      | some b =>
        let c := s.victimClass b
        let s := s.bump R.FTL_HARV_VICTIM_CNT
        let s := if c = 3 then s.bump R.FTL_REFRESH_CNT else s
        let s := s.putBlk { b with state := .victim }
        let s := s.placeRec journal 0x07 1 (harvestHead 1 (2 * c) top b.blk)
        let m := s.lastMark journal
        let hv : Harvest :=
          { top := top, blk := b.blk, cls := c, step := 1, copies := [], journal := journal, mark := m }
        let s := { s with ftl.harvests := s.ftl.harvests ++ [hv] }
        s.seal journal m.1

/-- The grains with a valid frame in a block, in content-list order. -/
def State.validIn (s : State) (b : Blk) : List Nat :=
  (b.content.filter fun n => s.ftl.grains.any fun g =>
    g.sgn == n && decide (g.refcnt > 0) && g.ploc != 0 && s.blkOf g.ploc == (b.top, b.blk)).eraseDups

/-- The stream that copies from a block go to (R273). -/
def copyStream (st : Nat) : Nat := Nat.min 3 (st + 1)

/-- All frames of a victim have been read: the copies are packed in content-list order (R297 step 2). A frame that no pan can decode
is lost and not copied. -/
def State.packCopies (s : State) (h : Harvest) : State :=
  let js := s.ftl.reads.filter fun j => j.why == ReadFor.harvest h.top h.blk
  if js.any fun j => j.whole.isNone && !j.isLost then s
  else
    let b := s.blk h.top h.blk
    let gs := (js.filter fun j => !j.isLost).filterMap fun j =>
      (findKey Grain.sgn j.sgn s.ftl.grains).map fun g => (g, j.whole.getD [])
    let s := { s with ftl.reads := s.ftl.reads.filter fun j => j.why != ReadFor.harvest h.top h.blk }
    let s := s.putHarvest { h with step := 3, copies := gs.map fun g => (g.1.sgn, g.1.ploc, 0) }
    gs.foldl (fun s x =>
      let g := x.1
      (s.bumpBy R.FTL_HARV_CRUMB_CNT g.crumbs).pack h.journal (copyStream b.stream) (.copy g.sgn g.crumbs g.ploc x.2)) s

/-- HARVEST_COPY (R297 step 2): once the start record is programmed, every valid frame of the victim is read. -/
def execHarvestCopy (top blk : Nat) (s : State) : Host.Outcome State Fault Refusal :=
  .next <|
    match s.harvest? top blk with
    | none => s
    | some h =>
      if h.step ≠ 1 ∨ s.recDone h.journal h.mark = false then s
      else
        let s := s.contentScan (s.blk top blk)
        let vs := s.validIn (s.blk top blk)
        let s := s.putHarvest { h with step := 2 }
        let s := vs.foldl (fun s n => s.readGrain (.harvest top blk) n false) s
        match s.harvest? top blk with
        | some h => s.packCopies h
        | none => s

/-- Every row that holds a copy of a harvest is programmed. -/
def State.copiesDone (s : State) (h : Harvest) : Bool :=
  let is (i : RowItem) : Bool := match i with
    | .copy n _ o _ => h.copies.any fun c => c.1 == n && c.2.1 == o
    | _ => false
  !(s.ftl.rows.any fun r => (r.state == .filling || r.state == .closed) && r.items.any is) &&
    !(s.ftl.packQ.any fun q => is q.2.2)

/-- One commit item takes effect where PLOC still equals OLD_PLOC (R297 step 3). -/
def State.commitItem (s : State) (c : Nat × Nat × Nat) : State :=
  match findKey Grain.sgn c.1 s.ftl.grains with
  | some g =>
    if g.ploc = c.2.1 ∧ g.refcnt > 0 then
      let s := s.bump R.FTL_HARV_COMMIT_CNT
      { s with ftl.grains := mapIf (·.sgn == c.1) (fun (g : Grain) => { g with ploc := c.2.2 }) s.ftl.grains }.grainIn c.1
    else s.bump R.FTL_HARV_SKIP_CNT
  | none => s.bump R.FTL_HARV_SKIP_CNT

/-- A commit item (R298): SGN, OLD_PLOC, NEW_PLOC. -/
def commitBytes (c : Nat × Nat × Nat) : Bytes := leBytes 6 c.1 ++ leBytes 2 0 ++ leBytes 6 c.2.1 ++ leBytes 2 0 ++ leBytes 6 c.2.2 ++ leBytes 2 0

/-- The bodies of the parts of a victim's final commit, 511 items each, each with its own head; the last one carries LAST (R298; the head of
later parts: DEDUCED, log 143). -/
def commitParts (top blk : Nat) (cs : List (Nat × Nat × Nat)) : List Bytes :=
  let n := Nat.max 1 (ceilDiv cs.length 511)
  (List.range n).map fun k =>
    harvestHead 2 (b2n (k + 1 == n)) top blk ++ ((cs.drop (k * 511)).take 511).flatMap commitBytes

/-- HARVEST_COMMIT (R297 step 3): all copies in one batch, with LAST; the victim becomes ERASE_PENDING and the record seals. -/
def execHarvestCommit (top blk : Nat) (s : State) : Host.Outcome State Fault Refusal :=
  .next <|
    match s.harvest? top blk with
    | none => s
    | some h =>
      if h.step ≠ 3 ∨ s.copiesDone h = false then s
      else
        let s := h.copies.foldl State.commitItem s
        let s := s.placeParts h.journal 0x07 1 (commitParts top blk h.copies)
        let m := s.lastMark h.journal
        let s := s.putBlk { s.blk top blk with state := .erasePending }
        (s.putHarvest { h with step := 4, mark := m }).seal h.journal m.1

/-- A read that resolved a PLOC in a block is still in flight (R297 step 4). -/
def State.readsIn (s : State) (top blk : Nat) : Bool :=
  s.ftl.reads.any fun j => j.parts.any (fun p => p.blk == blk) &&
    (j.parts.any fun p => s.topOf s.depth p.die == some top)

/-- The erase of a stripe block goes to every serving die under its top pan; a RETIRE block's failing dies were remapped (R297,
R304). (DESIGN CHOICE, log 72) -/
def State.eraseBlk (s : State) (top blk : Nat) : State :=
  let s := (s.blk top blk).retireDies.foldl (fun s d => s.retire top d blk) s
  let live := (s.held (s.topPan top)).filter fun d => (s.ust d).serving
  if (s.blk top blk).state = .bad then s
  else
  let s := s.putBlk { s.blk top blk with eraseLeft := live, retireDies := [] }
  live.foldl (fun s d =>
    s.issue (dieModule d) (diePos d) 0x03 0 (mediaParams (s.physBlock d blk) 0 0 0 0) [] (.erase top blk)) s

/-- HARVEST_ERASE (R297 step 4): of a victim whose LAST commit is programmed, or of another ERASE_PENDING block. -/
def execHarvestErase (top blk : Nat) (s : State) : Host.Outcome State Fault Refusal :=
  .next <|
    let b := s.blk top blk
    let ready := match s.harvest? top blk with
      | some h => h.step == 4 && s.recDone h.journal h.mark
      | none => true
    if b.state ≠ .erasePending ∨ b.eraseLeft ≠ [] ∨ ready = false ∨ s.readsIn top blk ∨
        s.ust (s.topPan top) = .readOnly then s
    else s.eraseBlk top blk

/-- An erase has ended on every die: the block is FREE, and what waited for a grant may have it (R291). -/
def State.blkErased (s : State) (top blk : Nat) : State :=
  let b := s.blk top blk
  if b.state ≠ .erasePending ∨ b.eraseLeft ≠ [] then s
  else
    let s := s.bump R.FTL_ERASE_CNT
    let s := if b.scrub then s.bump R.FTL_SCRUB_CNT else s
    let s := { s with
      ftl.harvests := s.ftl.harvests.filter fun h => !(h.top == top && h.blk == blk)
      ftl.blocks := s.ftl.blocks.filter fun x => !(x.top == top && x.blk == blk) }
    s.retryGrants

/-- The completion of an erase on one die (R303, R304). -/
def State.eraseCpl (s : State) (top blk die : Nat) (ok : Bool) : State :=
  if ok then
    let w := s.wearOf die
    let slc := (s.blk top blk).slc
    let phys := s.physBlock die blk
    let s := s.putWear { w with
      native := w.native + (if slc then 0 else 1), slc := w.slc + (if slc then 1 else 0)
      erased := putKey Prod.fst (phys, w.erasesOf phys + 1) w.erased }
    let b := s.blk top blk
    (s.putBlk { b with eraseLeft := b.eraseLeft.filter (· != die) }).blkErased top blk
  else
    let w := s.wearOf die
    let s := s.putWear { w with eraseFail := w.eraseFail + 1 }
    let s := { s with ftl.health.eraseFail := s.ftl.health.eraseFail + 1 }
    let s := s.retire top die blk
    if (s.blk top blk).state = .bad then s
    else s.issue (dieModule die) (diePos die) 0x03 0 (mediaParams (s.physBlock die blk) 0 0 0 0) [] (.erase top blk)

end Sys2Proof.Machine
end

