-- ==== Sys2Proof/Machine/Rebuild.lean ====
section
/-! DEFINITION. Rebuild of substituted positions: which pans rebuild, the columns reconstructed and programmed into the substitute
(10_media_units_pans.md R254, R255). -/
namespace Sys2Proof.Machine

/-- The rebuild still stands: its unit holds the position and is marked SUBST (R248). -/
def State.rebuildStands (s : State) (b : Rebuild) : Bool :=
  match (s.unit b.pan).members[b.pos]? with
  | some m => m.unit == b.unit && m.subst
  | none => false

/-- A row of the rebuild is under way. -/
def State.rebuildBusy (s : State) (b : Rebuild) : Bool :=
  (s.ftl.reads.any fun j => match j.why with
    | .rebuild p k _ => p == b.pan && k == b.pos
    | _ => false) ||
  s.lnk.cmds.any fun c => c.why == .rebuild b.pan b.pos || c.why == .rebuildBack b.pan b.pos

/-- How many pans lie above a unit. -/
def State.levelsUp (s : State) : Nat → Nat → Nat
  | 0, _ => 0
  | n + 1, u => if (s.unit u).parent = 0 then 0 else 1 + s.levelsUp n (s.unit u).parent

/-- Pans rebuild in this order: those at their tolerance, then lower levels, then lower unit ID (R254). The smaller number goes first. -/
def State.rebuildRank (s : State) (pan : Nat) : Nat :=
  let d := s.unit pan
  (if s.failedCnt d = d.tolerance then 0 else 2 ^ 40) + (255 - Nat.min 255 (s.levelsUp s.depth pan)) * 2 ^ 24 + pan

/-- The `n` smallest of a list of numbers, in order. -/
def smallest : Nat → List Nat → List Nat
  | 0, _ => []
  | _ + 1, [] => []
  | n + 1, x :: l =>
    let m := l.foldl Nat.min x
    m :: smallest n ((x :: l).filter (· != m))

/-- The pans that rebuild now: at most MED_CFG.MAX_REBUILD (R254). -/
def State.rebuildingPans (s : State) : List Nat :=
  let due := ((s.med.rebuilds.filter fun b => !b.rows.isEmpty).map Rebuild.pan).eraseDups
  (smallest (Nat.max 1 (s.fld R.MED_CFG 23 16)) (due.map s.rebuildRank)).map (· % 2 ^ 24)

/-- `s` with a rebuild replaced. -/
def State.putRebuild (s : State) (b : Rebuild) : State :=
  { s with med.rebuilds := mapIf (fun x => x.pan == b.pan && x.pos == b.pos) (fun _ => b) s.med.rebuilds }

/-- The first row of a rebuild begins: the substitute's data in that row are reconstructed, one program unit of the row at a time. Rows that harvest
has freed are skipped; one that is not yet PROGRAMMED is waited for (R251, R254). `n` bounds the rows passed over. -/
def State.rebuildRow (s : State) : Nat → Rebuild → State
  | 0, b => s.putRebuild b
  | n + 1, b =>
    match b.rows with
    | [] => s.putRebuild b
    | w :: rest =>
      let u := Nat.max 1 (s.topU b.top)
      let st := (s.blk b.top (w / u)).state
      if st = .free ∨ st = .erasePending ∨ st = .bad then s.rebuildRow n { b with rows := rest }
      else if s.ftl.rows.any fun r => r.top == b.top && r.row == w && r.state == .closed then s.putRebuild b
      else
        let d0 := (s.leaves b.unit).headD 0
        let c0 := Nat.max 1 (recPb (s.dieRec d0) / 256)
        let part (i : Nat) : RPart :=
          { die := d0, blk := w / u, pu := w % u, crumb := 0, crumbs := c0, row := w, level := 0, tried := 0, recon := true, pan := b.pan
            mem := b.unit, off := i * c0, srcs := [], got := none, lost := false }
        let parts := (List.range (s.crumbs b.unit / c0)).map part
        let id := s.ftl.nextRead
        let s := s.putRebuild b
        let s := s.contentScan (s.blk b.top (w / u))
        let s := { s with
          ftl.reads := s.ftl.reads ++ [{ id := id, why := .rebuild b.pan b.pos w, sgn := 0, booked := false, again := false, parts := parts }]
          ftl.nextRead := id + 1 }
        ((List.range parts.length).zip parts).foldl (fun (s : State) x => s.reconAt (s.depth + 1) id x.1 x.2 b.unit x.2.off) s

/-- Rebuilds that no longer stand are dropped, and each pan whose turn it is goes on (R248, R254). -/
def State.rebuildPump (s : State) : State :=
  let live := s.med.rebuilds.filter s.rebuildStands
  let kept (j : ReadJob) : Bool := match j.why with
    | .rebuild p k _ => live.any fun b => b.pan == p && b.pos == k
    | _ => true
  let s := { s with med.rebuilds := live, ftl.reads := s.ftl.reads.filter kept }
  let pans := s.rebuildingPans
  let go := live.filter fun b => pans.contains b.pan && !s.rebuildBusy b
  go.foldl (fun (s : State) b => s.rebuildRow (b.rows.length + 1) b) s

/-- A row of a rebuild is done, or cannot be decoded: the next one begins. -/
def State.rebuildNext (s : State) (pan pos : Nat) : State :=
  let next (b : Rebuild) : Rebuild := { b with rows := b.rows.drop 1 }
  { s with med.rebuilds := mapIf (fun b => b.pan == pan && b.pos == pos) next s.med.rebuilds }.rebuildPump

/-- The substitute's data in a row have been reconstructed: each of its dies is programmed at the same block and page (R254). -/
def State.rebuildProgram (s : State) (id pan pos w : Nat) (data : Bytes) : State :=
  let s := { s with ftl.reads := dropKey ReadJob.id id s.ftl.reads }
  match s.med.rebuilds.find? fun b => b.pan == pan && b.pos == pos with
  | none => s
  | some b =>
    let u := Nat.max 1 (s.topU b.top)
    let slc := (s.blk b.top (w / u)).slc
    (s.leaves b.unit).foldl (fun (s : State) d =>
      let pb := recPb (s.dieRec d)
      s.issue (dieModule d) (diePos d) 0x02 (b2n slc) (mediaParams (s.physBlock d (w / u)) (w % u) 0 0 pb)
        (slice (s.dieBytesIn s.depth b.unit w d data) 0 pb) (.rebuild pan pos)) s

/-- A read job of a rebuild has all its parts, or has lost one. -/
def State.rebuildReady (s : State) (j : ReadJob) (pan pos w : Nat) : State :=
  if j.isLost then { s with ftl.reads := dropKey ReadJob.id j.id s.ftl.reads }.rebuildNext pan pos
  else
    match j.whole with
    | none => s
    | some bs => s.rebuildProgram j.id pan pos w bs

/-- A program of a substitute has ended: its bytes are rebuilt, or its block is flagged RETIRE (R254; 12_harvest_health.md R304); after the last
one of the row the next row begins. A program cut short with its port is no program status failure: the block is not flagged, and reads of what
it left are reconstructed (13_media_link.md R334; DESIGN CHOICE, log 143). -/
def State.rebuildCpl (s : State) (d pan pos : Nat) (ok cut : Bool) : State :=
  match s.med.rebuilds.find? fun b => b.pan == pan && b.pos == pos with
  | none => s
  | some b =>
    let pb := recPb (s.dieRec d)
    let s :=
      if ok then
        let x := s.unit pan
        (s.bumpBy R.MED_REBUILD_BYTE_CNT pb).putUnit { x with rebuildDone := x.rebuildDone + pb }
      else if cut then s
      else
        let w := s.wearOf d
        let s := { s.putWear { w with progFail := w.progFail + 1 } with ftl.health.progFail := s.ftl.health.progFail + 1 }
        let k := s.blk b.top (b.rows.headD 0 / Nat.max 1 (s.topU b.top))
        s.putBlk { k with retire := true, retireDies := if k.retireDies.contains d then k.retireDies else k.retireDies ++ [d] }
    if s.rebuildBusy b then s else s.rebuildNext pan pos

end Sys2Proof.Machine
end

