-- ==== Sys2Proof/Machine/Cores.lean ====
section
/-! DEFINITION. The schedulers of the engines: which segment gets a core that is free (03_sluice.md R66; 06_brine_write_path.md R147;
07_data_reduction.md R181; 08_compression.md R205; 09_cipher_digest.md R220-R222). -/
namespace Sys2Proof.Machine

/-! ### Cores -/

/-- The cores of an engine that serve: their core, their cluster and their engine are in service (01_architecture.md R23). -/
def State.coresUp (s : State) (engine : Nat) : List Nat :=
  let n := match engine with
    | 0 => (0, 112) | 1 => (112, 64) | 2 => (176, 128) | 3 => (304, 48) | _ => (352, 48)
  ((List.range n.2).map (· + n.1)).filter fun i =>
    (s.ust (unitId 4 i)).serving && (s.ust (unitId 3 (coreCluster i))).serving && (s.ust (unitId 2 engine)).serving

/-- A core runs no segment. -/
def State.coreIdle (s : State) (c : Nat) : Bool := !s.red.jobs.any fun j => j.core == some c

/-- The context of a stream on an engine. -/
def State.ctxOf (s : State) (engine stream : Nat) : Option EngCtx := s.keys.ctxs.find? fun c => c.engine == engine && c.stream == stream

/-- The context of a stream is scheduled on a cluster: it becomes the most recently used one of its engine; a saved one is restored (R222). -/
def State.schedCtx (s : State) (engine cluster stream : Nat) : State :=
  let s := match s.ctxOf engine stream with
    | some c => if c.saved then s.bump (if engine = 2 then R.DIG_RESTORE_CNT else R.CIP_RESTORE_CNT) else s
    | none => s
  let rest := s.keys.ctxs.filter fun c => !(c.engine == engine && c.stream == stream)
  { s with keys.ctxs := rest ++ [EngCtx.mk stream engine cluster false] }

/-- The context of a stream that has ended leaves the engine. -/
def State.dropCtx (s : State) (engine stream : Nat) : State :=
  { s with keys.ctxs := s.keys.ctxs.filter fun c => !(c.engine == engine && c.stream == stream) }

/-- The cores that a job may have: not those it lost to a fault, and of the digest engine those of its stream's cluster, as long as one such
serves (R181, R221). -/
def State.coresFor (s : State) (j : Job) : List Nat :=
  let all := s.coresUp j.engine
  let up := all.filter fun c => !j.lost.any fun l => l.2.contains c
  let here := up.filter fun c => j.engine != 2 || (s.ctxOf j.engine j.stream).all fun x => coreCluster c == x.cluster
  if !here.isEmpty then here else if !up.isEmpty then up else all

/-- The core that a job gets: the lowest idle one of those it may have; the choice is the model's and the output does not depend on it (R179;
DESIGN CHOICE, log 18). -/
def State.coreFor (s : State) (j : Job) : Option Nat := (s.coresFor j).find? s.coreIdle

/-! ### Order (R221) -/

/-- A job is booked work: of an admitted read, or of an entry of an admitted FUA write (R50, R51, R221). -/
def State.jobBooked (s : State) (j : Job) : Bool :=
  match j.why with
  | .drain ent _ => s.brn.ents.any fun e => e.id == ent && e.fua && e.deadline
  | .read id => s.ftl.reads.any fun r => r.id == id && r.booked
  | .offload _ => false

/-- The deadline that a job is booked for. -/
def State.jobDeadline (s : State) (j : Job) : Option Nat :=
  match j.why with
  | .drain ent _ => s.entDeadline ent
  | .read id => s.readDeadline id
  | .offload _ => none

/-- A job is work of the drain: on a grain of an entry, or a merge read (06_brine_write_path.md R147). -/
def State.jobDrain (s : State) (j : Job) : Bool :=
  match j.why with
  | .drain _ _ => true
  | .read id => s.mergeRead id
  | .offload _ => false

/-- The class of a job: booked; drain while ABOVE_HI is set; other inline; offload (R221; 06_brine_write_path.md R147). -/
def State.jobRank (s : State) (j : Job) : Nat :=
  if s.jobBooked j then 0 else if s.brn.aboveHi ∧ s.jobDrain j = true then 1
  else match j.why with
    | .offload _ => 3
    | _ => 2

/-- A job goes before another that became ready earlier: it is of a better class, or booked for an earlier deadline (R221). -/
def State.jobBefore (s : State) (a b : Job) : Bool :=
  decide (s.jobRank a < s.jobRank b) || (s.jobRank a == 0 && s.jobRank b == 0 &&
    match s.jobDeadline a, s.jobDeadline b with
    | some x, some y => decide (x < y)
    | some _, none => true
    | none, _ => false)

/-- OFFLOAD_WEIGHT of an engine. -/
def State.offWeight (s : State) (engine : Nat) : Nat :=
  if engine = 2 then s.fld R.DIG_CFG 15 8 else if engine = 3 then s.fld R.CIP_CFG 15 8 else s.fld R.CMP_CFG 15 8

/-- The jobs of an engine that wait and could have a core now; an offload segment none while its engine's weight is 0 (R205, R221). -/
def State.jobsDue (s : State) (engine : Nat) : List Job :=
  s.red.jobs.filter fun j => j.engine == engine && j.core.isNone && (s.coreFor j).isSome &&
    (s.jobRank j != 3 || decide (s.offWeight engine > 0))

/-- The job that gets a core next, and the share that offload segments have saved up after it. On the compression and decompression engines
waiting offload segments take OFFLOAD_WEIGHT of 256 dispatches of unbooked work, none while ABOVE_HI gives all to the drain (R205); on the others
they come after all inline work (R221). That the share is counted in dispatches is the model's choice (DESIGN CHOICE, log 18). -/
def State.nextJob (s : State) (engine : Nat) : Option (Job × Nat) :=
  let due := s.jobsDue engine
  let saved := ((findKey Prod.fst engine s.red.credit).map Prod.snd).getD 0
  match due.foldl (fun o j => match o with
    | none => some j
    | some b => if s.jobBefore j b then some j else some b) none with
  | none => none
  | some b =>
    match due.find? fun j => s.jobRank j == 3 with
    | some o =>
      if engine ≤ 1 ∧ s.jobRank b = 2 then
        if saved + s.offWeight engine ≥ 256 then some (o, saved + s.offWeight engine - 256) else some (b, saved + s.offWeight engine)
      else some (b, saved)
    | none => some (b, saved)

/-- The counter that a reissue is counted in (07_data_reduction.md R186; 08_compression.md R207; 09_cipher_digest.md R236). -/
def State.countReissue (s : State) (j : Job) : State :=
  let s := match j.why with
    | .drain _ _ => s.bump R.RED_REISSUE_CNT
    | .offload _ => if j.engine ≤ 1 then s.bump R.OFF_REISSUE_CNT else s
    | .read _ => s
  if j.engine = 3 then s.bump R.CIP_REISSUE_CNT else if j.engine = 2 then s.bump R.DIG_REISSUE_CNT else s

/-- `s` with an engine job replaced. -/
def State.putEngJob (s : State) (j : Job) : State := { s with red.jobs := putKey Job.id j s.red.jobs }

/-- A segment starts on a core: its context is scheduled, and one that lost its core to a fault is reissued, counted and recorded with the
core it has now (R181, R222; 19_event_recorder.md R440). -/
def State.runJob (s : State) (j : Job) (c : Nat) : State :=
  let s := s.putEngJob { j with core := some c, lost := none, reissues := j.reissues + b2n j.lost.isSome }
  let s := if j.engine = 2 ∨ j.engine = 3 then s.schedCtx j.engine (coreCluster c) j.stream else s
  match j.lost with
  | some l => (s.countReissue j).event 0x08 evcReissued 3 (unitId 4 l.1) (evUnit (unitId 4 c))
  | none => s

/-- Waiting jobs of an engine get its idle cores, in the order of R221; `n` bounds the run. -/
def State.fillCores (s : State) (engine : Nat) : Nat → State
  | 0 => s
  | n + 1 =>
    match s.nextJob engine with
    | none => s
    | some (j, saved) =>
      match s.coreFor j with
      | none => s
      | some c => ({ s with red.credit := putKey Prod.fst (engine, saved) s.red.credit }.runJob j c).fillCores engine n

/-- The idle cores of an engine are given out, where a job waits. -/
def State.fillEngine (s : State) (engine : Nat) : State :=
  if s.red.jobs.any fun j => j.engine == engine && j.core.isNone then s.fillCores engine s.red.jobs.length else s

/-! ### Jobs -/

/-- Segments of a job: 4,096 bytes of a stream on the cipher and digest engines, the whole grain on the others (R194, R196, R220). -/
def inlineSegs (engine len : Nat) : Nat := if engine = 2 ∨ engine = 3 then Nat.max 1 (ceilDiv len 4096) else 1

/-- A job of some segments is ready; it gets a core as R221 says. The stream is that of its context address, or its own. -/
def State.startSegs (s : State) (engine : Nat) (why : JobWhy) (input : Bytes) (segs ctxAddr : Nat) : State :=
  let id := s.red.nextJob
  let stream := if ctxAddr = 0 then 2 * id else 2 * ctxAddr + 1
  let j : Job :=
    { id := id, engine := engine, core := none, reissues := 0, why := why, input := input, segs := segs, stream := stream, lost := none }
  { s with red.jobs := s.red.jobs ++ [j], red.nextJob := id + 1 }.fillEngine engine

/-- An inline job is ready. -/
def State.startJob (s : State) (engine : Nat) (why : JobWhy) (input : Bytes) : State :=
  s.startSegs engine why input (inlineSegs engine input.length) 0

end Sys2Proof.Machine
end

