-- ==== Sys2Proof/Machine/Anchor.lean ====
section
/-! DEFINITION. The pool anchor: root records, their two alternating blocks on four modules, and what a programmed root frees
(11_flash_translation.md R283; 12_harvest_health.md R297). -/
namespace Sys2Proof.Machine

/-- A root record (R283). The dump area's place, which the spec leaves to the device, is free. -/
def State.rootRecord (s : State) (j : Journal) (c : Ckpt) (num : Nat) : Bytes :=
  let die := s.indexDieAt c.index
  let b := leBytes 4 0x46544C52 ++ leBytes 1 j.role ++ leBytes 3 0 ++ leBytes 8 num ++ leBytes 8 c.s0 ++ leBytes 6 c.dirPloc ++ leBytes 2 0 ++
    leBytes 4 (Config.dumpArea 0) ++ leBytes 4 (Config.dumpArea 1) ++ leBytes 3 die ++ leBytes 1 0 ++ leBytes 4 (s.indexPlace c.index).2 ++
    leBytes 8 s.tide.time ++ leBytes 4 0
  b ++ leBytes 4 (crc32c b)

/-- The anchor dies of a journal: position h of the four lowest-numbered ONLINE modules under the ROOT pan whose die there is ONLINE. -/
def State.anchorDies (s : State) (j : Nat) : List Nat :=
  match s.rootPan with
  | none => []
  | some root =>
    let mods := ((s.leaves root.id).map dieModule).eraseDups
    let ok (n : Nat) : Bool := mods.contains n && s.ust (unitId 5 n) == .online && s.ust (dieUnit n j) == .online
    (((List.range 32).filter ok).take 4).map fun n => dieUnit n j

/-- The latest root goes to the next page of a die's anchor block, which is always in SLC mode (R286); a full block is followed by the other, erased first. -/
def State.rootTo (s : State) (j die : Nat) : State :=
  let x := s.journal j
  let a := (findKey Prod.fst die x.anchors).getD (die, 0, 0)
  let r := s.dieRec die
  let prog (s : State) (blk page : Nat) : State :=
    s.issue (dieModule die) (diePos die) 0x02 1 (mediaParams (s.physBlock die blk) page 0 0 (recPb r)) (slice x.root 0 (recPb r)) (.anchor j)
  if a.2.2 < recSlcU r then (prog s a.2.1 a.2.2).putJournal { x with anchors := putKey Prod.fst (die, a.2.1, a.2.2 + 1) x.anchors }
  else
    let blk := 1 - a.2.1
    let s := s.issue (dieModule die) (diePos die) 0x03 1 (mediaParams (s.physBlock die blk) 0 0 0 0) [] (.anchor j)
    (prog s blk 0).putJournal { x with anchors := putKey Prod.fst (die, blk, 1) x.anchors }

/-- Metadata blocks of a journal in which the directory names no image become ERASE_PENDING (12_harvest_health.md R297). -/
def State.freeMeta (s : State) (j : Nat) : State :=
  let d := (s.journal j).dir
  let gone (b : Blk) : Bool := b.owner == j && b.stream == 4 && b.state == .full && !d.any fun x => x.2.2 == (b.top, b.blk)
  { s with ftl.blocks := mapIf gone (fun b => { b with state := .erasePending }) s.ftl.blocks }

/-- The copies of the latest root of a journal have been programmed, one of them to a die that serves: its S0 is that of the latest programmed
root, and what only the checkpoint before it needed is freed (R283; 12_harvest_health.md R296, R297). -/
def State.rootSettled (s : State) (j : Nat) : State :=
  let x := s.journal j
  if x.root.isEmpty || x.rootS0 == leAt x.root 16 8 || (s.lnk.cmds.any fun c => c.why == .anchor j || c.why == .rootBack j) ||
      !(x.anchors.any fun a => (s.ust a.1).serving) then s
  else (s.putJournal { x with rootS0 := leAt x.root 16 8 }).freeMeta j

/-- The set of anchor modules may have changed: the latest root goes to each die newly in it. -/
def State.anchorCheck (s : State) : State :=
  s.heldJournals.foldl (fun (s : State) j =>
    let x := s.journal j
    if x.root.isEmpty then s
    else (((s.anchorDies j).filter fun d => !x.anchors.any fun a => a.1 == d).foldl (fun (s : State) d => s.rootTo j d) s).rootSettled j) s

/-- A root record becomes the latest one and goes to every anchor die. -/
def State.putRoot (s : State) (j : Nat) (c : Ckpt) : State :=
  let x := s.journal j
  let s := s.putJournal { x with root := s.rootRecord x c (x.ckptNum + 1), ckptNum := x.ckptNum + 1 }
  (s.anchorDies j).foldl (fun (s : State) d => s.rootTo j d) (s.bump R.FTL_CKPT_CNT)

/-- Every metadata row of a checkpoint is PROGRAMMED: no image of it waits or lies in a row that is not. -/
def State.ckptDone (s : State) (j : Nat) (c : Ckpt) : Bool :=
  let mine : RowItem → Bool
    | .image _ _ q _ => q == c.s0
    | _ => false
  !(s.ftl.packQ.any fun q => q.1 == j && mine q.2.2) &&
    !(s.ftl.rows.any fun r => r.journal == j && (r.state == .filling || r.state == .closed) && r.items.any mine)

/-- An image that the directory names: the latest of its page, of a page that is still there. -/
def State.named (s : State) (d : List (Nat × Nat × Nat × Nat)) (imgs : List (Nat × Nat × Nat × Nat)) : List (Nat × Nat × Nat × Nat) :=
  let old := d.filter fun x => !imgs.any fun y => y.1 == x.1 && y.2.1 == x.2.1
  (old ++ imgs).filter fun x => x.1 != 0 || s.ftl.imgs.any fun i => i.id == x.2.1

/-- The roots of the checkpoints of a journal that are complete are written, in order; `n` bounds the run. -/
def State.ckptRoots (s : State) (j : Nat) : Nat → State
  | 0 => s
  | n + 1 =>
    let x := s.journal j
    match x.ckpts with
    | [] => s
    | c :: t =>
      if !s.ckptDone j c then s
      else
        let s := s.putJournal { x with ckpts := t, dir := s.named x.dir c.imgs }
        (s.putRoot j c).ckptRoots j n

/-- Roots that are due are written. -/
def State.ckptCheck (s : State) (j : Nat) : State := s.ckptRoots j (s.journal j).ckpts.length

end Sys2Proof.Machine
end

