-- ==== Sys2Proof/Machine/Maps.lean ====
section
/-! DEFINITION. Maps, map page images, stored grains and their references, the dedup index (11_flash_translation.md R267-R269;
14_snapshots_replication.md R340; 07_data_reduction.md R165-R173; 12_harvest_health.md R301). -/
namespace Sys2Proof.Machine

/-! ### Volumes and groups -/

/-- The volume of an NSID. -/
def State.vol? (s : State) (n : Nat) : Option Volume := findKey Volume.nsid n s.pool.volumes
/-- `s` with a volume replaced. -/
def State.putVol (s : State) (v : Volume) : State := { s with pool.volumes := putKey Volume.nsid v s.pool.volumes }
/-- An ANA group: owner and home are head 0 until set (15_pair_operation.md R385). -/
def State.group (s : State) (g : Nat) : AnaGroup :=
  (findKey AnaGroup.id g s.pool.groups).getD { id := g, owner := 0, home := 0, change := false, adopted := false }
/-- `s` with an ANA group replaced. -/
def State.putGroup (s : State) (g : AnaGroup) : State := { s with pool.groups := putKey AnaGroup.id g s.pool.groups }
/-- An ANA group holds no volume. -/
def State.groupEmpty (s : State) (g : Nat) : Bool := !s.pool.volumes.any fun v => v.ana == g
/-- This head owns an ANA group; one that holds no volume is owned by its home head (20_control_packets.md R473), or by the survivor. -/
def State.ownsGroup (s : State) (g : Nat) : Bool :=
  if s.groupEmpty g then s.pair.adopted || (s.group g).home == s.role else (s.group g).owner == s.role
/-- The dedup domain of a number. -/
def State.dom? (s : State) (d : Nat) : Option Domain := findKey Domain.id d s.pool.domains

/-! ### Maps -/

/-- A map: of a volume, or of an epoch of it. -/
def State.map? (s : State) (n : Nat) (snap : Option Nat) : Option VolMap :=
  s.ftl.maps.find? fun m => m.nsid == n && m.snap == snap

/-- `s` with a map replaced. -/
def State.putMap (s : State) (m : VolMap) : State :=
  if s.ftl.maps.any fun x => x.nsid == m.nsid && x.snap == m.snap then
    { s with ftl.maps := mapIf (fun x => x.nsid == m.nsid && x.snap == m.snap) (fun _ => m) s.ftl.maps }
  else { s with ftl.maps := s.ftl.maps ++ [m] }

/-- A map page image. -/
def State.img? (s : State) (id : Nat) : Option MapImg := findKey MapImg.id id s.ftl.imgs

/-- The image of a map page of a map, if the page exists (R268). -/
def State.pageOf (s : State) (n : Nat) (snap : Option Nat) (page : Nat) : Option MapImg :=
  match s.map? n snap with
  | none => none
  | some m =>
    match findKey Prod.fst page m.pages with
    | some p => s.img? p.2
    | none => none

/-- The entry of a grain: SGN 0 and WSTAMP 0 where the page does not exist (R267, R268). -/
def State.mapGet (s : State) (n : Nat) (snap : Option Nat) (g : Nat) : MapEnt :=
  match s.pageOf n snap (g / 512) with
  | some i => (findKey MapEnt.grain g i.ents).getD { grain := g, sgn := 0, wstamp := 0 }
  | none => { grain := g, sgn := 0, wstamp := 0 }

/-- The map page of a grain of a volume and the page of its stored grain are looked up (R269; `State.pageIn`). -/
def State.lookUp (s : State) (n g : Nat) : State :=
  let s := match s.pageOf n none (g / 512) with
    | some i => s.pageIn (0, i.id)
    | none => s
  let m := s.mapGet n none g
  if m.sgn = 0 then s else s.pageIn (1, m.sgn / 128)

/-- The page that a lookup of a grain of a volume finds dropped first, if any (R269). -/
def State.pageAway (s : State) (n g : Nat) : Option (Nat × Nat) :=
  let m := s.mapGet n none g
  let map := (s.pageOf n none (g / 512)).map fun i => (0, i.id)
  (map.toList ++ (if m.sgn = 0 then [] else [(1, m.sgn / 128)])).find? s.ftl.paged.contains

/-- The stored grain of an SGN (R171). -/
def State.grain? (s : State) (n : Nat) : Option Grain := findKey Grain.sgn n s.ftl.grains
/-- `s` with a stored grain replaced. -/
def State.putGrain (s : State) (g : Grain) : State :=
  ({ s with ftl.grains := putKey Grain.sgn g s.ftl.grains }.grainIn g.sgn).metaWrite .grainTable (g.sgn / 128) (32 * (g.sgn % 128))

/-- An index partition page has changed (11_flash_translation.md R282). -/
def State.touchIdx (s : State) (dom bucket : Nat) : State :=
  let p := dom * 2 ^ 32 + bucket / 16
  if s.ftl.touchedIdx.contains p then s else { s with ftl.touchedIdx := s.ftl.touchedIdx ++ [p] }

/-- An index entry leaves the index (R172, R173). -/
def State.unindex (s : State) (sgn : Nat) : State :=
  let gone := s.red.index.filter fun e => e.sgn == sgn
  let s := { s with
    red.index := s.red.index.filter fun e => e.sgn != sgn
    ftl.grains := mapIf (·.sgn == sgn) (fun (g : Grain) => { g with islot := none }) s.ftl.grains }
  let s := if gone.isEmpty then s else s.grainIn sgn
  gone.foldl (fun (s : State) e =>
    ((s.touchIdx e.dom e.bucket).metaWrite .filterPart e.dom (16 * e.bucket + 2 * e.slot)).metaWrite .indexPart e.dom (256 * e.bucket + 32 * e.slot)) s

/-- The bound of REFCNT (R172). -/
def refMax : Nat := 16777215

/-- A reference is added; at the bound the grain is FULL and leaves the index (R172). -/
def State.addRef (s : State) (sgn : Nat) : State :=
  match s.grain? sgn with
  | none => s
  | some g =>
    if g.pinned then s
    else
      let s := s.putGrain { g with refcnt := g.refcnt + 1, full := g.full || decide (g.refcnt + 1 ≥ refMax) }
      if g.refcnt + 1 ≥ refMax then (s.bump R.RED_REF_FULL_CNT).unindex sgn else s

/-- A map page copy or clone adds a reference; at the bound the grain is PINNED (R172). -/
def State.copyRef (s : State) (sgn : Nat) : State :=
  match s.grain? sgn with
  | none => s
  | some g =>
    if g.pinned then s
    else if g.refcnt ≥ refMax then s.putGrain { g with pinned := true }
    else s.addRef sgn

/-- The stripe block that holds a grain is flagged SCRUB, and the one that receives a copy in flight (R301). -/
def State.scrubOf (s : State) (g : Grain) : State :=
  let s := s.bump R.FTL_SDEAL_GRAIN_CNT
  let flag (s : State) (ploc : Nat) : State :=
    if ploc = 0 then s
    else
      let k := s.blkOf ploc
      s.putBlk { s.blk k.1 k.2 with scrub := true }
  let copies := s.ftl.harvests.flatMap fun h => (h.copies.filter fun c => c.1 == g.sgn).map fun c => c.2.2
  copies.foldl flag (flag s g.ploc)

/-- A reference is removed; at 0 the grain leaves the index and its SGN is free; a secure removal flags its block (R173, R301). -/
def State.dropRef (s : State) (sgn : Nat) (secure : Bool) : State :=
  match s.grain? sgn with
  | none => s
  | some g =>
    if g.pinned then s
    else if g.refcnt > 1 then s.putGrain { g with refcnt := g.refcnt - 1 }
    else
      let s := if secure then s.scrubOf g else s
      let s := s.unindex sgn
      { s.grainIn sgn with ftl.grains := dropKey Grain.sgn sgn (s.grainIn sgn).ftl.grains }

/-- A map page image loses one of its sharers; at 0 every grain in it loses one reference (R340). -/
def State.unshare (s : State) (i : MapImg) (secure : Bool) : State :=
  if i.share > 1 then { s with ftl.imgs := putKey MapImg.id { i with share := i.share - 1 } s.ftl.imgs }
  else
    let s := s.pageIn (0, i.id)
    let s := { s with ftl.imgs := dropKey MapImg.id i.id s.ftl.imgs, ftl.paged := s.ftl.paged.filter (· != (0, i.id)) }
    i.ents.foldl (fun s e => if e.sgn = 0 then s else s.dropRef e.sgn secure) s

/-- A new image with the entries of another, each grain in it with one reference more (R340). -/
def State.copyImg (s : State) (i : MapImg) : State × Nat :=
  let id := s.ftl.nextImg
  let s := s.pageIn (0, i.id)
  let s := { s with
    ftl.imgs := s.ftl.imgs ++ [{ i with id := id, share := 1, dirty := true }]
    ftl.nextImg := id + 1 }
  (i.ents.foldl (fun s e => if e.sgn = 0 then s else s.copyRef e.sgn) s, id)

/-- The map names an image for a page. -/
def State.setPage (s : State) (n : Nat) (snap : Option Nat) (page id : Nat) : State :=
  let m := (s.map? n snap).getD { nsid := n, snap := snap, pages := [] }
  s.putMap { m with pages := putKey Prod.fst (page, id) m.pages }

/-- The image that a change to a page of a live map may write: its own, a copy of a shared one, or a new one (R268, R340). -/
def State.ownPage (s : State) (n page : Nat) : State × Nat :=
  match s.pageOf n none page with
  | some i =>
    if i.share > 1 then
      match (s.bump R.SNAP_COW_PAGE_CNT).copyImg i with
      | (s, id) =>
        let s := { s with ftl.imgs := putKey MapImg.id { i with share := i.share - 1 } s.ftl.imgs }
        (s.setPage n none page id, id)
    else (s, i.id)
  | none =>
    let id := s.ftl.nextImg
    let i : MapImg := { id := id, page := page, ents := [], share := 1, dirty := true, jseq := 0 }
    let s := { s with ftl.imgs := s.ftl.imgs ++ [i], ftl.nextImg := id + 1 }
    (s.setPage n none page id, id)

/-- A map entry is changed; the reference of the new SGN has been added before, the old one is removed (R172, R267, R268). -/
def State.mapSet (s : State) (n g sgn jseq : Nat) (secure : Bool) : State :=
  let old := s.mapGet n none g
  if sgn = 0 ∧ (s.pageOf n none (g / 512)).isNone then s
  else
    match s.ownPage n (g / 512) with
    | (s, id) =>
      let ws := (jseq / 2 ^ 20) % 2 ^ 16
      let set : MapImg → MapImg := fun i =>
        { i with ents := putKey MapEnt.grain ⟨g, sgn, ws⟩ i.ents, dirty := true, jseq := jseq }
      let s := { s with ftl.imgs := mapIf (·.id == id) set s.ftl.imgs }
      let s := ((s.pageIn (0, id)).metaRead .mapPage id (8 * (g % 512))).metaWrite .mapPage id (8 * (g % 512))
      if old.sgn = 0 then s else s.dropRef old.sgn secure

/-- A new map shares every page of another; an image at a share count of 1,024 is copied (R340). -/
def State.shareMap (s : State) (src dst : Nat) (srcSnap dstSnap : Option Nat) : State :=
  match s.map? src srcSnap with
  | none => s.putMap { nsid := dst, snap := dstSnap, pages := [] }
  | some m =>
    m.pages.foldl (fun s p =>
      match s.img? p.2 with
      | none => s
      | some i =>
        if i.share ≥ 1024 then
          match s.copyImg i with
          | (s, id) => s.setPage dst dstSnap p.1 id
        else
          let s := { s with ftl.imgs := putKey MapImg.id { i with share := i.share + 1 } s.ftl.imgs }
          s.setPage dst dstSnap p.1 i.id) (s.putMap { nsid := dst, snap := dstSnap, pages := [] })

/-- A map is dropped with its shares of its pages (R340, R346). -/
def State.dropMap (s : State) (n : Nat) (snap : Option Nat) (secure : Bool) : State :=
  match s.map? n snap with
  | none => s
  | some m =>
    let s := { s with ftl.maps := s.ftl.maps.filter fun x => !(x.nsid == n && x.snap == snap) }
    m.pages.foldl (fun s p => match s.img? p.2 with
      | some i => s.unshare i secure
      | none => s) s

/-- A volume or an epoch of it maps some grain to an SGN other than 0 (R184). -/
def State.volMapped (s : State) (n : Nat) : Bool :=
  s.ftl.maps.any fun m => m.nsid == n && m.pages.any fun p => match s.img? p.2 with
    | some i => i.ents.any fun e => e.sgn != 0
    | none => false

/-! ### Stored grains (R170) -/

/-- The lowest of the indices 1.. that is not in a list; `n` bounds the search. -/
def lowestFree (used : List Nat) : Nat → Nat → Nat
  | 0, i => i
  | n + 1, i => if used.contains i then lowestFree used n (i + 1) else i

/-- The lowest free SGN of a group (R170). -/
def State.newSgn (s : State) (ana : Nat) : Nat :=
  let base := (ana - 1) * 2 ^ 38
  let used := (s.ftl.grains.filter fun g => g.sgn / 2 ^ 38 == ana - 1).map fun g => g.sgn % 2 ^ 38
  base + lowestFree used used.length 1

/-- The stored grains of a group. -/
def State.groupGrains (s : State) (ana : Nat) : Nat := countOf (fun g => g.sgn / 2 ^ 38 == ana - 1) s.ftl.grains

/-! ### The index (R165-R169) -/

/-- The bucket of a fingerprint in a domain of 2^k buckets. -/
def fpBucket (fp k : Nat) : Nat := fp % 2 ^ 64 % 2 ^ k
/-- The tag of a fingerprint. -/
def fpTag (fp : Nat) : Nat := let t := bits fp 79 64; if t = 0 then 1 else t
/-- FP[255:128]. -/
def fpHi (fp : Nat) : Nat := fp / 2 ^ 128

/-- The entries of a bucket, in slot order. -/
def State.bucket (s : State) (d b : Nat) : List IdxEnt :=
  (List.range 8).filterMap fun i => s.red.index.find? fun e => e.dom == d && e.bucket == b && e.slot == i

/-- The lines of a bucket: the filter's, where its tags lie, and where one matches the two of the bucket itself (R165, R167). -/
def State.idxLook (s : State) (d k fp : Nat) : State :=
  let b := fpBucket fp k
  let s := s.metaRead .filterPart d (16 * b)
  if (s.bucket d b).any fun e => e.tag == fpTag fp then (s.metaRead .indexPart d (256 * b)).metaRead .indexPart d (256 * b + 128) else s

/-- A new grain is inserted into its bucket: the first empty slot, else the entry with the lowest INS_JSEQ that is not one of those
whose FP_HI was equal (R169). -/
def State.insertIdx (s : State) (d k fp sgn jseq : Nat) : State :=
  let b := fpBucket fp k
  let es := s.bucket d b
  let put (s : State) (slot : Nat) : State :=
    let s := { s with red.index := s.red.index ++ [IdxEnt.mk d b slot (fpTag fp) (fpHi fp) sgn jseq] }
    let s := { s with ftl.grains := mapIf (·.sgn == sgn) (fun (g : Grain) => { g with islot := some (b, slot) }) s.ftl.grains }.grainIn sgn
    ((s.touchIdx d b).metaWrite .filterPart d (16 * b + 2 * slot)).metaWrite .indexPart d (256 * b + 32 * slot)
  match (List.range 8).find? fun i => !es.any fun e => e.slot == i with
  | some i => put s i
  | none =>
    let c := es.filter fun e => !(e.tag == fpTag fp && e.fpHi == fpHi fp)
    match c.foldl (fun o e => match o with
      | none => some e
      | some (x : IdxEnt) => if e.jseq < x.jseq then some e else some x) none with
    | none => s
    | some e => put ((s.bump R.RED_EVICT_CNT).unindex e.sgn) e.slot

/-! ### Acts on maps at a place of the journal (14_snapshots_replication.md R339, R341, R345, R346) -/

/-- The maps of an act. -/
def MapAct.volumes : MapAct → List Nat
  | .take n _ => [n]
  | .clone a _ b => [a, b]
  | .drop n _ _ => [n]
  | .scan n _ => [n]

/-- A volume, or one that was deleted and still drains. -/
def State.volHere? (s : State) (n : Nat) : Option Volume := (s.vol? n).or (findKey Volume.nsid n s.snap.gone)

/-- An entry has its place in a journal and its grains have not all been decided (07_data_reduction.md R168). -/
def State.undecided (s : State) (e : BEnt) : Bool :=
  e.jseq != 0 && (e.state == .loc || e.state == .staged ||
    s.red.recs.any fun r => r.ent == e.id && (r.stage == .merge || r.stage == .digest || r.stage == .decide))

/-- The journal that the writes of a group enter: the own one, or the adopted one of a group taken over (06_brine_write_path.md R132;
15_pair_operation.md R377). -/
def State.groupJournal (s : State) (g : Nat) : Nat := if s.pair.adopted && (s.group g).adopted then 1 - s.role else s.role

/-- The journal that the entries of a volume enter (06_brine_write_path.md R132). -/
def State.journalOf (s : State) (n : Nat) : Nat :=
  match s.volHere? n with
  | some v => s.groupJournal v.ana
  | none => s.role

/-- An act waits: an entry of one of its volumes that stands before it in journal order is not decided. -/
def State.opWaits (s : State) (o : MapOp) : Bool :=
  s.brn.ents.any fun e => o.act.volumes.contains e.nsid && s.undecided e && e.journal == o.journal && decide (e.jseq ≤ o.jseq)

/-- A volume with its dedup domain as an entry of a journal sees it, by its sequence (07_data_reduction.md R179). -/
def State.volAt (s : State) (j q n : Nat) : Option (Volume × Option Domain) :=
  match s.pool.past.find? fun p => p.vol.nsid == n && p.journal == j && decide (q ≤ p.jseq) with
  | some p => some (p.vol, p.dom)
  | none => (s.volHere? n).map fun v => (v, s.dom? v.domain)

/-- What a volume is now is kept for the entries of a journal up to a sequence that are not durable: a record after them changes it
(07_data_reduction.md R179, R180). -/
def State.notePast (s : State) (j q n : Nat) : State :=
  match s.volHere? n with
  | none => s
  | some v =>
    let live (p : VolPast) : Bool := decide (p.jseq > (s.journal p.journal).durable)
    { s with pool.past := (s.pool.past ++ [VolPast.mk j q v (s.dom? v.domain)]).filter live }

/-- The codec generation of the entries of a journal after a sequence (08_compression.md R193). -/
def State.setGen (s : State) (j q g : Nat) : State :=
  let x := s.journal j
  if x.gen = g then s else s.putJournal { x with gen := g, genPast := (x.genPast.filter fun p => decide (p.1 > x.durable)) ++ [(q, x.gen)] }

/-- The codec generation of an entry of a journal. -/
def State.genAt (s : State) (j q : Nat) : Nat :=
  let x := s.journal j
  ((x.genPast.find? fun p => decide (q ≤ p.1)).map Prod.snd).getD x.gen

/-- The stored grains that a map refers to. -/
def State.mapGrains (s : State) (m : VolMap) : List Nat :=
  (m.pages.flatMap fun p => match s.img? p.2 with
    | some i => (i.ents.map MapEnt.sgn).filter (· != 0)
    | none => []).eraseDups

/-- Crumbs of the stored grains of a list, whose holders (the maps that refer to them) pass a test. -/
def State.crumbsHeld (s : State) (sgns : List Nat) (test : List VolMap → Bool) : Nat :=
  sumOf (sgns.map fun n =>
    match s.grain? n with
    | some g => if test (s.ftl.maps.filter fun m => (s.mapGrains m).contains n) then g.crumbs else 0
    | none => 0)

/-- The four counts of R345 in crumbs: UNIQUE, SNAP_ONLY, LIVE_EXCL, SHARED. -/
def State.spaceCounts (s : State) (nsid snap : Nat) : List Nat :=
  let scope := s.ftl.maps.filter fun m => m.nsid == nsid && (snap == 0 || m.snap == some snap)
  let sgns := (scope.flatMap s.mapGrains).eraseDups
  let shared := s.crumbsHeld sgns fun ms => ms.any fun m => m.nsid != nsid
  if snap = 0 then
    [0, s.crumbsHeld sgns fun ms => ms.all fun m => m.nsid == nsid && m.snap.isSome,
      s.crumbsHeld sgns fun ms => ms.all fun m => m.nsid == nsid && m.snap.isNone, shared]
  else [s.crumbsHeld sgns fun ms => ms.all fun m => m.snap == some snap, 0, 0, shared]

/-- An act takes place. -/
def State.mapAct (s : State) (a : MapAct) : State :=
  match a with
  | .take n snap => s.shareMap n n none (some snap)
  | .clone src snap new => s.shareMap src new (some snap) none
  | .drop n snap secure =>
    let s := s.dropMap n snap secure
    if snap.isNone then { s with snap.gone := s.snap.gone.filter (·.nsid != n) } else s
  | .scan n p =>
    let pages := (s.ftl.maps.filter fun m => m.nsid == n).flatMap fun m => m.pages.map Prod.snd
    let s := pages.foldl (fun (s : State) i => s.metaScan .mapPage i 0 32) s
    { s with snap.scans := s.snap.scans.map fun x => if x.pkt = p then { x with counts := s.spaceCounts x.nsid x.snap } else x }

/-- The acts whose place has come take place, in journal order as far as they concern one volume; `held` are volumes with an act that
waits. -/
def State.runActs (s : State) (held : List Nat) (done : List MapOp) : List MapOp → State
  | [] => { s with snap.ops := done }
  | o :: t =>
    if o.act.volumes.any held.contains || s.opWaits o then s.runActs (held ++ o.act.volumes) (done ++ [o]) t
    else (s.mapAct o.act).runActs held done t

/-- Every act on a map whose place has come takes place. -/
def State.runOps (s : State) : State := s.runActs [] [] s.snap.ops

/-- A change of maps is placed after a sequence of a journal. -/
def State.placeActAt (s : State) (j jseq : Nat) (a : MapAct) : State :=
  { s with snap.ops := s.snap.ops ++ [MapOp.mk j jseq a] }.runOps

/-- An act on a map is placed at the present end of the journal that its volume's entries enter. -/
def State.placeAct (s : State) (a : MapAct) : State :=
  let j := s.journalOf (a.volumes.headD 0)
  s.placeActAt j (s.journal j).jseq a

/-! ### Epochs -/

/-- Kind byte of a snapshot's configuration record (log 20). -/
def cfgSnap := 0xEA
/-- Kind byte of the record that deletes a snapshot epoch (log 20). -/
def cfgSnapGone := 0xEB

/-- The record of a cut: SNAP_ID, instant, sequence of its place and the volumes it covers (R339). -/
def snapRecord (id instant jseq : Nat) (vols : List Nat) : Bytes :=
  leBytes 1 cfgSnap ++ leBytes 4 id ++ leBytes 8 instant ++ leBytes 8 jseq ++ leBytes 2 vols.length ++ vols.flatMap (leBytes 4)

/-- The record that deletes epochs of one snapshot. -/
def snapGoneRecord (id : Nat) (secure : Bool) (vols : List Nat) : Bytes :=
  leBytes 1 cfgSnapGone ++ leBytes 4 id ++ leBytes 1 (b2n secure) ++ leBytes 2 vols.length ++ vols.flatMap (leBytes 4)

/-- Epochs of a snapshot leave the tables; their maps go at this place. -/
def State.forgetEpochs (s : State) (id : Nat) (vols : List Nat) (secure : Bool) : State :=
  let s := { s with snap.epochs := s.snap.epochs.filter fun x => !(x.id == id && vols.contains x.nsid) }
  vols.foldl (fun s n => s.placeAct (.drop n (some id) secure)) s

/-- Epochs of a snapshot are deleted: the record is placed and the maps go at its place (14_snapshots_replication.md R342, R346). -/
def State.dropSnap (s : State) (id : Nat) (vols : List Nat) (secure : Bool) : State :=
  (s.placeCfg (snapGoneRecord id secure vols)).forgetEpochs id vols secure

/-- Every epoch of a volume is deleted (R342). -/
def State.dropEpochs (s : State) (nsid : Nat) (secure : Bool) : State :=
  (s.snap.epochs.filter (·.nsid == nsid)).foldl (fun s e => s.dropSnap e.id [nsid] secure) s

end Sys2Proof.Machine
end

