-- ==== Sys2Proof/Machine/Cmds.lean ====
section
/-! DEFINITION. I/O commands in flight, their completion, range locks and ordering (04_host_queues.md R78-R84, R100). -/
namespace Sys2Proof.Machine

/-- The I/O command of a number. -/
def State.io? (s : State) (id : Nat) : Option Cmd := findKey Cmd.id id s.hq.cmds
/-- `s` with an I/O command replaced. -/
def State.putIo (s : State) (c : Cmd) : State := { s with hq.cmds := putKey Cmd.id c s.hq.cmds }

/-- A command as it is decoded: number, queue context, command identifier, opcode, volume. -/
def newCmd (id q cid opc nsid : Nat) (host : Bool) : Cmd :=
  { id := id, qctx := q, cid := cid, opc := opc, nsid := nsid, slba := 0, nlb := 0, fua := false, ord := false, sdeal := false,
    deac := false, stage := .ordWait, ranges := [], locked := false, deadline := none, waits := [], entries := [], host := host,
    bytes := 0, need := 0, seqNo := id, sgl := [], hostData := [], got := [], missed := none, bookEnd := 0, stall := 0, stallOn := [],
    pi := 0, tag := 0 }

/-- A queue pair is established. -/
def State.qpUp (s : State) (i : Nat) : Bool :=
  match s.qp? i with
  | some p => p.st == .connected
  | none => false

/-- The queue that takes a command: one that is not being deleted (R74), of a queue pair that has not failed (05_rdma_transport.md R116). -/
def State.queue? (s : State) (i : Nat) : Option QCtx :=
  match s.qctx? i with
  | none => none
  | some q => if q.deleting.isSome || (q.fabric && !s.qpUp i) then none else some q

/-- Submission entry `cid` of a queue is taken: the submission queue head passes it (R71), and the key that its response invalidates is noted
(05_rdma_transport.md R103). -/
def State.takeSqe (s : State) (i cid : Nat) (key : Option Nat) : State :=
  let take (q : QCtx) : QCtx :=
    { q with
      sqHead := (q.sqHead + 1) % Nat.max 1 q.size
      inv := match key with
        | some k => putKey Prod.fst (cid, k) q.inv
        | none => q.inv }
  { s with hq.ctxs := mapIf (·.idx == i) take s.hq.ctxs }

/-- The command of a submission entry is taken. -/
def State.takeCmd (s : State) (e : Sqe) : State :=
  s.takeSqe e.q e.cid ((e.sgl.find? fun g => g.kind == .keyedInv).map Sgl.key)

/-- An opcode that R72 lists for a kind of queue; on an I/O queue of a fabric, Fabrics commands are taken as well. -/
def QKind.takes (k : QKind) (opc : Nat) : Bool :=
  match k with
  | .fabAdmin => [0x02, 0x06, 0x08, 0x09, 0x0A, 0x0C, 0x18, 0x7F].contains opc
  | .hostAdmin => [0x02, 0x06, 0x08, 0x09, 0x0A, 0x0C, 0x80, 0x84].contains opc
  | .fabIo => [0x00, 0x01, 0x02, 0x08, 0x09, 0x0C, 0x7F].contains opc
  | .hostIo => [0x00, 0x01, 0x02, 0x08, 0x09, 0x0C].contains opc

/-- A submission entry whose opcode the device does not know on that queue ends with Invalid Command Opcode (R72); every other one comes as the row
of its command (log 120). -/
def State.unknownSqe (s : State) (q : QCtx) (sqe : Bytes) : State :=
  if sqe.length < 64 ∨ q.kind.takes (leAt sqe 0 1) ∨ (s.queue? q.idx).isNone then s
  else (s.takeSqe q.idx (leAt sqe 2 2) (if leAt sqe 39 1 = 0x4F then some (leAt sqe 35 4) else none)).complete q.idx (leAt sqe 2 2) 0 1 (Config.dnr 0 1) 0 0

/-- Pages of a region: 16 GiB of 4 KiB (R129). -/
def brinePages : Nat := 4194304

/-- The pages an entry holds. -/
def BEnt.pageList (e : BEnt) : List Nat := e.recs.flatMap BRec.pages

/-- Pages in use. -/
def State.pagesUsed (s : State) : Nat := sumOf (s.brn.ents.map fun e => e.pageList.length)

/-- BRN_LIMIT.PAGES with its treatment (R156). -/
def State.pageLimit (s : State) : Nat := Nat.min brinePages (s.fld R.BRN_LIMIT 22 0)

/-- Each crossing of FILL_HI is recorded (R147). -/
def State.fillCheck (s : State) : State :=
  let lim := s.fld R.BRN_CFG 31 24 * s.pageLimit / 256
  let above := decide (s.pagesUsed * 256 > s.fld R.BRN_CFG 31 24 * s.pageLimit)
  if above && !s.brn.aboveHi then
    { s with brn.aboveHi := true }.event 0x06 evcThreshold 3 0 (evValue s.pagesUsed ++ evValue lim)
  else if !above && s.brn.aboveHi then
    { s with brn.aboveHi := false }.event 0x06 evcThreshold 2 0 (evValue s.pagesUsed ++ evValue lim)
  else s

/-- A read command pins a brine entry until it completes (06_brine_write_path.md R146). -/
def State.pinned (s : State) (ent : Nat) : Bool :=
  s.hq.cmds.any fun c => (c.opc == 2 || c.opc == 0x0C) && c.entries.contains ent

/-- Released entries that no read pins leave the brine (R134, R146, R147). -/
def State.freeReleased (s : State) : State :=
  { s with brn.ents := s.brn.ents.filter fun (e : BEnt) => !(e.state == EntSt.released && !s.pinned e.id) }.fillCheck

/-- The deletion of a host-side queue ends when its last command, a Format NVM among them, has completed (R74); a failed queue pair without commands leaves the
tables (05_rdma_transport.md R116). -/
def State.queueGone (s : State) (qctx : Nat) : State :=
  match s.qctx? qctx with
  | none => s
  | some q =>
    if (s.hq.cmds.any fun c => c.qctx == qctx) || (s.hq.formats.any fun f => f.cmd.map Prod.fst == some qctx) then s
    else
      match q.deleting, s.qp? qctx with
      | some p, _ => { s with hq.ctxs := dropKey QCtx.idx qctx s.hq.ctxs }.finish p stOk [] []
      | none, some x =>
        if x.st = .failed then { s with xpt.qps := dropKey Qp.idx qctx s.xpt.qps, hq.ctxs := dropKey QCtx.idx qctx s.hq.ctxs } else s
      | none, none => s

/-- A detach replies once the volume's commands in flight have completed (20_control_packets.md R476). -/
def State.endDetaches (s : State) : State :=
  let due := s.ctl.detaches.filter fun d => !s.hq.cmds.any fun c => c.nsid == d.1
  let s := { s with ctl.detaches := s.ctl.detaches.filter fun d => !due.contains d }
  due.foldl (fun (s : State) d => s.finish d.2 stOk [] []) s

/-- A command leaves the tables: its bookings, its reads and its locks end with it; an engine finishes the segment that it runs for it
(09_cipher_digest.md R220). -/
def State.dropIo (s : State) (id : Nat) : State :=
  let mine := (s.ftl.reads.filter fun j => match j.why with
    | .cmd i _ => i == id
    | _ => false).map ReadJob.id
  let s := { s with
    hq.cmds := dropKey Cmd.id id s.hq.cmds
    ftl.health.ioSeen := s.ftl.health.ioSeen || (s.io? id).isSome
    tide.table := s.tide.table.filter fun b => b.cmd != id
    ftl.reads := s.ftl.reads.filter fun j => !mine.contains j.id
    red.jobs := s.red.jobs.filter (fun j => j.core.isSome || match j.why with
      | .read i => !mine.contains i
      | _ => true)
    brn.flushes := s.brn.flushes.filter fun f => f.cmd != id
    mem.cache := s.mem.cache.map (fun (x : CacheEnt) => { x with pins := x.pins.filter (· != id) }) }
  (s.freeReleased).endDetaches

/-- Logical bytes of a command. -/
def Cmd.bytesOf (c : Cmd) : Nat := c.nlb * 4096

/-- A command completes: it leaves the tables and its completion is posted; the health counts follow (12_harvest_health.md R307). -/
def State.endIo (s : State) (id sct sc : Nat) (dnr : Bool) (dw0 : Nat := 0) (dw1 : Nat := 0) : State :=
  match s.io? id with
  | none => s
  | some c =>
    let s := s.dropIo id
    let ok := sct == 0 && sc == 0
    let h := s.ftl.health
    let h := if c.opc = 2 ∧ ok then { h with hostReads := h.hostReads + 1, dataRead := h.dataRead + c.bytesOf }
      else if c.opc = 1 ∧ ok then { h with hostWrites := h.hostWrites + 1, dataWritten := h.dataWritten + c.bytesOf } else h
    let h := if sct = 2 ∧ sc = 0x81 then { h with mediaErrs := h.mediaErrs + 1 } else h
    let s := { s with ftl.health := h }
    (s.complete c.qctx c.cid sct sc dnr dw0 dw1).queueGone c.qctx

/-! ### Grains of a command -/

/-- First and last grain of a run of blocks. -/
def grainRun (slba n : Nat) : Nat × Nat := (slba / 4, (slba + n - 1) / 4)

/-- The mask of the blocks of grain `g` that lie in [slba, slba + n). -/
def grainMask (slba n g : Nat) : Nat :=
  sumOf ((List.range 4).map fun i => if slba ≤ 4 * g + i ∧ 4 * g + i < slba + n then 2 ^ i else 0)

/-- How many blocks a mask names. -/
def maskCount (m : Nat) : Nat := countOf (fun i => m.testBit i) [0, 1, 2, 3]

/-- Two runs of grains overlap. -/
def runsMeet (a b : Nat × Nat) : Bool := decide (a.1 ≤ b.2) && decide (b.1 ≤ a.2)

/-- A command touches a grain run of another. -/
def Cmd.meets (a b : Cmd) : Bool :=
  a.nsid == b.nsid && a.ranges.any fun x => b.ranges.any fun y => runsMeet x y

/-! ### Range locks (R81-R84) -/

/-- Entries of the range-lock table that a command needs: one per range; reads, Verify and Flush none (R81). -/
def Cmd.lockNeed (c : Cmd) : Nat := if c.opc = 1 ∨ c.opc = 8 ∨ c.opc = 9 then c.ranges.length else 0

/-- Entries held in total. -/
def State.locksUsed (s : State) : Nat := sumOf ((s.hq.cmds.filter (·.locked)).map Cmd.lockNeed)
/-- Entries held by deadline writes. -/
def State.locksDl (s : State) : Nat :=
  sumOf ((s.hq.cmds.filter fun c => c.locked && c.deadline.isSome).map Cmd.lockNeed)
/-- DL_RSV, at most 32,768 (R101). -/
def State.lockRsv (s : State) : Nat := Nat.min 32768 (s.fld R.HQ_LOCK_CFG 15 0)

/-- The commands whose range-lock entries hold a command up: entries on its grains that were taken before its own, or, where it has none yet, at
all (R82). -/
def State.lockHolders (s : State) (c : Cmd) : List Cmd :=
  s.hq.cmds.filter fun o => o.id != c.id && o.locked && o.lockNeed != 0 && (!c.locked || decide (o.seqNo < c.seqNo)) && o.meets c

/-- The entries of a command are free, and a best-effort command leaves DL_RSV (R83, R84). -/
def State.lockRoom (s : State) (c : Cmd) : Bool :=
  let free := 32768 - s.locksUsed
  if c.lockNeed = 0 ∨ (c.locked ∧ c.deadline.isSome) then true
  else if c.deadline.isSome then decide (c.lockNeed ≤ free) else decide (c.lockNeed + s.lockRsv ≤ free)

/-- Nothing but the order of stalled commands holds a command at the range-lock stage. -/
def State.lockFree (s : State) (c : Cmd) : Bool := (s.lockHolders c).isEmpty && s.lockRoom c

/-- A command that stalled earlier on the same entries and that may go goes first (R82; DEDUCED, log 122). -/
def State.lockTurn (s : State) (c : Cmd) : Bool :=
  !s.hq.cmds.any fun w => w.id != c.id && w.stage == .lockWait && decide (w.stall < c.stall) &&
    (w.stallOn.any fun i => c.stallOn.contains i) && s.lockFree w

/-- A command may pass the range-lock stage (R82, R83, R84). -/
def State.mayLock (s : State) (c : Cmd) : Bool := s.lockFree c && s.lockTurn c

/-- A command takes its range-lock entries: the commands stalled on grains of theirs stall on them from then on (R82). -/
def State.takeLock (s : State) (c : Cmd) : State :=
  let held := mapIf (fun (w : Cmd) => w.id != c.id && w.stage == .lockWait && c.lockNeed != 0 && c.meets w)
    (fun (w : Cmd) => { w with stallOn := w.stallOn ++ [c.id] }) s.hq.cmds
  { s with hq.cmds := held }

/-- Two commands are to one volume; a Flush of NSID 0xFFFF_FFFF is to every volume. -/
def Cmd.sameVol (a b : Cmd) : Bool :=
  a.nsid == b.nsid || (a.opc == 0 && a.nsid == 0xFFFFFFFF) || (b.opc == 0 && b.nsid == 0xFFFFFFFF)

/-- An ORD barrier between two commands of one queue and one volume (R80). -/
def Cmd.ordBefore (a b : Cmd) : Bool := a.qctx == b.qctx && a.sameVol b && decide (a.id < b.id) && (a.ord || b.ord)

/-- A command is held by an ORD barrier. -/
def State.ordHeld (s : State) (c : Cmd) : Bool := s.hq.cmds.any fun o => o.ordBefore c

/-- The head is alone: no peer head in service (06_brine_write_path.md R143). -/
def State.alone (s : State) : Bool := s.brn.alone

end Sys2Proof.Machine
end

