-- ==== Sys2Proof/Machine/Brine.lean ====
section
/-! DEFINITION. The brine: entries, reservation, data, journal sequences, mirroring, completion points, reads from the brine, release
(06_brine_write_path.md R129-R147). -/
namespace Sys2Proof.Machine

/-! ### Entries and pages -/

/-- The brine entry of a number. -/
def State.ent? (s : State) (id : Nat) : Option BEnt := findKey BEnt.id id s.brn.ents
/-- `s` with a brine entry replaced. -/
def State.putEnt (s : State) (e : BEnt) : State := { s with brn.ents := putKey BEnt.id e s.brn.ents }

/-- Grain records in use; an entry that waits for its reservation has none yet. -/
def State.recsUsed (s : State) : Nat :=
  sumOf ((s.brn.ents.filter fun e => !s.brn.waiting.contains e.id).map fun e => e.recs.length)

/-- Pages that a record of an entry needs: one per block of a data record (R130). -/
def BRec.need (r : BRec) : Nat := if r.kind = 1 then maskCount r.mask else 0

/-- The reservation of an entry finds room (R135, R136, R137). -/
def State.roomFor (s : State) (pages recs : Nat) (deadline : Bool) : Bool :=
  let used := s.pagesUsed
  let live := countOf (fun e => !s.brn.waiting.contains e.id) s.brn.ents
  decide (used + pages ≤ s.pageLimit) && decide (s.recsUsed + recs ≤ brinePages) && decide (live < 1048576) &&
    (deadline || decide (used + pages + s.fld R.BRN_DL_RSV 22 0 ≤ brinePages))

/-- The `n` lowest of the free pages; `k` bounds the search. The order is the model's (DESIGN CHOICE, log 17). -/
def takePages (used : List Nat) : Nat → Nat → Nat → List Nat
  | 0, _, _ => []
  | _, _, 0 => []
  | k + 1, i, n + 1 => if used.contains i then takePages used k (i + 1) (n + 1) else i :: takePages used k (i + 1) n

/-- The pages of an entry's records are taken. -/
def State.takeFor (s : State) (e : BEnt) : State :=
  let used := s.brn.ents.flatMap BEnt.pageList
  let n := sumOf (e.recs.map BRec.need)
  let ps := takePages used (used.length + n) 0 n
  let place : List BRec × List Nat → BRec → List BRec × List Nat := fun a r =>
    (a.1 ++ [{ r with pages := a.2.take r.need }], a.2.drop r.need)
  let recs := (e.recs.foldl place ([], ps)).1
  (s.putEnt { e with recs := recs }).fillCheck

/-! ### Versions of a grain (R145, R146) -/

/-- Data bytes of a block, zero. -/
def zeroBlock : Bytes := List.replicate 4096 0

/-- The 16 bytes of protection information of a block (04_host_queues.md R91; 07_data_reduction.md R160): guard, application tag and the
reference tag of Type 1, the low 48 bits of the logical block address, all big-endian (layout of the 64b Guard format without a storage tag:
PRESUMED, log 121). -/
def piOf (lba app : Nat) (b : Bytes) : Bytes :=
  (leBytes 8 (crc64 b)).reverse ++ (leBytes 2 app).reverse ++ (leBytes 6 (lba % 2 ^ 48)).reverse

/-- The status code, of type 2, of the first check of PRINFO that a block of LBA format 1 fails: guard, application tag under its mask, reference
tag; an application tag of all ones turns the checks off (04_host_queues.md R71, R79; PRESUMED, log 121). -/
def Cmd.piFault (c : Cmd) (lba : Nat) (b : Bytes) : Option Nat :=
  let app := leNat (slice b 4104 2).reverse
  if app = 0xFFFF then none
  else if c.pi.testBit 2 ∧ leNat (slice b 4096 8).reverse ≠ crc64 (b.take 4096) then some 0x82
  else if c.pi.testBit 1 ∧ (app ^^^ c.tag % 65536) &&& c.tag / 65536 ≠ 0 then some 0x83
  else if c.pi.testBit 0 ∧ leNat (slice b 4106 6).reverse ≠ lba % 2 ^ 48 then some 0x84
  else none

/-- The first failing check of the blocks of a command, as their data carry them (`bb` bytes each). -/
def Cmd.piCheck (c : Cmd) (bb : Nat) (data : Bytes) : Option Nat :=
  if bb ≠ 4112 then none else (List.range c.nlb).findSome? fun i => c.piFault (c.slba + i) (slice data (bb * i) bb)

/-- A block of a write as it is stored: with PRACT set its protection information is generated (PRESUMED, log 121). -/
def Cmd.stored (c : Cmd) (lba : Nat) (b : Bytes) : Bytes :=
  if b.length = 4112 ∧ c.pi.testBit 3 then b.take 4096 ++ piOf lba (c.tag % 65536) (b.take 4096) else b

/-- A zero block of a volume; one of LBA format 1 has the protection information of Write Zeroes with PRACT = 1 (07_data_reduction.md R160). -/
def State.zeroOf (s : State) (n lba : Nat) : Bytes :=
  match s.volHere? n with
  | some v => if v.lbaf = 1 then zeroBlock ++ piOf lba 0 zeroBlock else zeroBlock
  | none => zeroBlock

/-- What a record says of block `i` of its grain, if anything. -/
def State.recBlock (s : State) (n : Nat) (r : BRec) (i : Nat) : Option Bytes :=
  match r.merged with
  | some bs => bs[i]?
  | none =>
    if !r.mask.testBit i then none
    else if r.kind = 1 then r.data[countOf (fun j => r.mask.testBit j) (List.range i)]?
    else some (s.zeroOf n (4 * r.grain + i))

/-- The records that some entries hold of a grain, the newest sequence first. -/
def grainRecs (es : List BEnt) (n g : Nat) : List (Nat × BRec) :=
  let rs := (es.filter fun e => e.nsid == n && e.jseq != 0).flatMap fun e => (e.recs.filter (·.grain == g)).map fun r => (e.jseq, r)
  rs.foldl (fun acc x => (acc.takeWhile fun y => decide (y.1 > x.1)) ++ [x] ++ (acc.dropWhile fun y => decide (y.1 > x.1))) []

/-- The four blocks of a grain as some entries give them. -/
def State.blocksIn (s : State) (es : List BEnt) (n g : Nat) : List (Option Bytes) :=
  let rs := grainRecs es n g
  (List.range 4).map fun i => rs.findSome? fun x => s.recBlock n x.2 i

/-- The entries that are not released, with a sequence below `lim` (R145, R146). -/
def State.entsBelow (s : State) (lim : Nat) : List BEnt :=
  s.brn.ents.filter fun e => e.jseq != 0 && decide (e.jseq < lim) && e.state != .released

/-- A sequence above every other, for reads that take the newest record. -/
def newest : Nat := 2 ^ 64

/-- The four blocks of a grain as the brine gives them below a sequence; what is released lies on media (R145, R146). -/
def State.overlay (s : State) (n g lim : Nat) : List (Option Bytes) := s.blocksIn (s.entsBelow lim) n g

/-- Grain content (07_data_reduction.md R158, R160): data blocks, then their protection information. -/
def contentOf (bs : List Bytes) : Bytes := (bs.flatMap fun b => b.take 4096) ++ (bs.flatMap fun b => b.drop 4096)

/-- The four blocks of a grain content. -/
def blocksOf (c : Bytes) : List Bytes :=
  (List.range 4).map fun i => slice c (4096 * i) 4096 ++ (c.drop 16384 |>.drop (16 * i) |>.take 16)

/-- The blocks of a grain that maps to the zero grain. -/
def State.zeroGrain (s : State) (n g : Nat) : List Bytes := (List.range 4).map fun i => s.zeroOf n (4 * g + i)

/-- The blocks that overlay and base give. -/
def mergeBlocks (top : List (Option Bytes)) (base : List Bytes) : List Bytes := List.zipWith (fun o b => o.getD b) top base

/-! ### Journal sequences and mirroring (R132, R133, R138-R141) -/

/-- The header and payload of a mirror message (R138). -/
def mirrorMsg (typ flags mask nsid jseq grain idx cnt : Nat) (pages : List Nat) (time : Nat) (payload : Bytes) : Bytes :=
  let body := leBytes 1 typ ++ leBytes 1 flags ++ leBytes 1 mask ++ leBytes 1 0 ++ leBytes 4 nsid ++ leBytes 8 jseq ++
    leBytes 8 grain ++ leBytes 2 idx ++ leBytes 2 cnt ++ pages.flatMap (leBytes 4) ++ leBytes 8 time ++
    leBytes 4 (if payload = [] then 0 else crc32c payload) ++ leBytes 4 0
  body ++ leBytes 4 (crc32c body) ++ payload

/-- Page indices of the four blocks; all ones for a block not in the mask (R138). -/
def BRec.pageSlots (r : BRec) : List Nat :=
  (List.range 4).map fun i =>
    if r.mask.testBit i then (r.pages[countOf (fun j => r.mask.testBit j) (List.range i)]?).getD 0xFFFFFFFF else 0xFFFFFFFF

/-- The mirror message of a record of an entry (R138). -/
def State.mirrorOf (s : State) (e : BEnt) (idx : Nat) (r : BRec) : Bytes :=
  let pi := match s.volHere? e.nsid with
    | some v => v.lbaf == 1
    | none => false
  let payload := if r.kind = 1 then
      (r.data.flatMap fun b => b.take 4096) ++ (if pi then r.data.flatMap fun b => b.drop 4096 else [])
    else []
  mirrorMsg r.kind (b2n e.fua + 2 * b2n (pi && r.kind == 1) + 4 * b2n e.ord) r.mask e.nsid e.jseq r.grain idx e.recs.length
    r.pageSlots e.time payload

/-- The records of an entry go to the peer in REC_IDX order (R140). -/
def State.mirrorEnt (s : State) (e : BEnt) : State :=
  ((List.range e.recs.length).zip e.recs).foldl (fun s x =>
    let m := s.mirrorOf e x.1 x.2
    (s.bumpBy R.BRN_MIRROR_BYTE_CNT m.length).ptlSend 1 0x03 m) s

/-- Every record of an entry is acknowledged: no unacknowledged message carries one (R139). -/
def State.mirrored (s : State) (e : BEnt) : Bool :=
  !(s.chan 1).held.any fun m =>
    m.typ == 0x03 && leAt m.payload 0 1 != 4 && leAt m.payload 4 4 == e.nsid && leAt m.payload 8 8 == e.jseq

/-- The peer takes mirror records: it is in service, or they are being mirrored again (R143). -/
def State.mirrors (s : State) : Bool := s.peerInService || s.brn.remirror

/-- The last journal sequence that is issued: 0xFFFF_FFFF_FFFF_FFFF never is, and an entry that would need it waits (00_scope.md R11; DESIGN
CHOICE, log 107). -/
def jseqLast : Nat := 0xFFFFFFFFFFFFFFFE

/-- An entry gets the next sequence of its volume's journal and is LOCAL; its records go to the peer (R132, R133), and the
stream cache drops its grains (16_memory_cache.md R395). None is assigned once a dump may have begun (R148). -/
def State.assignSeq (s : State) (e : BEnt) : State :=
  let j := s.journal (s.journalOf e.nsid)
  if j.jseq ≥ jseqLast ∨ s.frozen = true then s
  else
  let e := { e with journal := j.role, jseq := j.jseq + 1, time := s.tide.time, state := .loc }
  let s := s.bump R.BRN_ENTRY_CNT
  let s := (s.putJournal { j with jseq := j.jseq + 1, sub := 0 }).putEnt e
  let s := { s with mem.cache := s.mem.cache.filter fun x => !(x.nsid == e.nsid && e.recs.any (·.grain == x.grain)) }
  if s.mirrors then s.mirrorEnt e else s

/-- Entries in the order of their sequences (R140, R147). -/
def inOrder (es : List BEnt) : List BEnt :=
  es.foldl (fun acc x => (acc.takeWhile fun y => decide (y.jseq < x.jseq)) ++ [x] ++ (acc.dropWhile fun y => decide (y.jseq < x.jseq))) []

/-! ### Completion points (R85, R142, R143) -/

/-- An entry has reached the completion point of its command. -/
def State.reached (s : State) (e : BEnt) : Bool :=
  let late := e.fua || (s.alone && s.fld R.BRN_CFG 0 0 == 0)
  match e.state with
  | .released => true
  | .staged | .draining => !late
  | .loc => !late && s.alone
  | _ => false

/-- A command whose chain is complete and whose entries have all reached their completion point completes (R131, R142). -/
def State.checkCmd (s : State) (id : Nat) : State :=
  match s.io? id with
  | none => s
  | some c =>
    let es := s.brn.ents.filter fun e => e.cmd == some id
    if c.stage == .staged && !(es.any fun e => !e.chain.isEmpty) && es.all s.reached then
      match c.missed, c.deadline with
      | some dw0, _ => (s.bump R.SLU_MISS_CNT).endIo id 7 0xC1 false dw0
      | none, some d => if s.tide.time ≤ d then s.endIo id 0 0 false else s
      | none, none => s.endIo id 0 0 false
    else s

/-- Every command of an entry is looked at. -/
def State.checkEnts (s : State) : State :=
  (s.brn.ents.filterMap BEnt.cmd).eraseDups.foldl State.checkCmd s

/-- LOCAL entries whose records are all acknowledged are STAGED (R134, R142). -/
def State.stageCheck (s : State) : State :=
  if !s.peerInService then s
  else
    let up := s.brn.ents.map fun e => if e.state == .loc && s.mirrored e then { e with state := .staged } else e
    { s with brn.ents := up }.checkEnts

/-! ### Chains and reservation (R130, R131, R135, R136) -/

/-- The first at most 16,384 grains of a run of blocks, and the rest (R131). -/
def splitRun (a n : Nat) : (Nat × Nat) × List (Nat × Nat) :=
  let stop := Nat.min (a + n) (4 * (a / 4 + 16384))
  ((a, stop - a), if stop < a + n then [(stop, a + n - stop)] else [])

/-- The grain records of a run: `whole` is the kind of a record that covers its whole grain, `part` of any other (R130). -/
def runRecs (a n whole part : Nat) : List BRec :=
  if n = 0 then []
  else
    let g := grainRun a n
    (List.range (g.2 + 1 - g.1)).map fun i =>
      let m := grainMask a n (g.1 + i)
      { grain := g.1 + i, mask := m, kind := if m = 15 then whole else part, pages := [], data := [], merged := none }

/-- Kinds of the records of a command: a write stores data, Write Zeroes zeros, a deallocate unmaps whole grains (R130). -/
def recKinds (opc : Nat) (deac : Bool) : Nat × Nat := if opc = 1 then (1, 1) else if opc = 8 ∧ deac = false then (2, 2) else (3, 2)

/-- An entry without data that has its reservation takes its sequence, and the next entry of its chain reserves (R131, R133).
`n` bounds the chain. -/
def State.goEntry (s : State) (kinds : Nat × Nat) : Nat → BEnt → State
  | 0, _ => s
  | n + 1, e =>
    let s := s.takeFor e
    let s := s.assignSeq ((s.ent? e.id).getD e)
    match e.chain with
    | [] => s
    | (a, k) :: rest =>
      let p := splitRun a k
      let e2 : BEnt := { e with
        id := s.brn.nextEnt, recs := runRecs p.1.1 p.1.2 kinds.1 kinds.2, chain := p.2 ++ rest, state := .reserved, jseq := 0 }
      let s := s.putEnt { ((s.ent? e.id).getD e) with chain := [] }
      let s := { s with brn.nextEnt := s.brn.nextEnt + 1 }
      if s.roomFor 0 e2.recs.length e2.deadline then s.goEntry kinds n e2
      else
        let s := { s.putEnt e2 with brn.waiting := s.brn.waiting ++ [e2.id] }
        s.bump R.BRN_WAIT_CNT

/-- How many entries a chain can have. -/
def chainFuel (ranges : List (Nat × Nat)) : Nat := sumOf (ranges.map fun r => r.2 / 65536 + 2)

/-- Bytes of a command's data on the wire: a transfer block is 4,096 bytes, or 4,112 with protection information (R78). -/
def State.blockBytes (s : State) (n : Nat) : Nat :=
  match s.volHere? n with
  | some v => if v.lbaf = 1 then 4112 else 4096
  | none => 4096

/-- The bytes held in FILLING and LOCAL entries, with those of a new one (R141). -/
def State.backlog (s : State) : Nat :=
  sumOf ((s.brn.ents.filter fun e => e.state == .filling || e.state == .loc).map fun e => 4096 * e.pageList.length)

/-- BRN_MIRROR_BACKLOG in bytes (R156). -/
def State.backlogMax (s : State) : Nat := Nat.max 1 (s.fld R.BRN_MIRROR_BACKLOG 15 0) * 1048576

/-- An entry that never gets a sequence is freed (R134). -/
def State.discardEnt (s : State) (e : BEnt) : State :=
  let s := { s with
    brn.ents := dropKey BEnt.id e.id s.brn.ents
    brn.waiting := s.brn.waiting.filter (· != e.id)
    brn.heldReads := s.brn.heldReads.filter (· != e.id) }
  (s.bump R.BRN_DISCARD_CNT).fillCheck

/-- The entries of a command that hold no sequence are freed, and its chain ends (R131, R134). -/
def State.discardCmd (s : State) (id : Nat) : State :=
  let es := s.brn.ents.filter fun e => e.cmd == some id
  let s := (es.filter fun e => e.jseq == 0).foldl State.discardEnt s
  { s with brn.ents := s.brn.ents.map fun e => if e.cmd = some id then { e with chain := [] } else e }

/-- All bytes of a write are in: the blocks go to their records, and the entry takes its sequence (R133). A write whose protection information
fails a check leaves nothing (04_host_queues.md R79; PRESUMED, log 121). -/
def State.writeIn (s : State) (c : Cmd) (e : BEnt) : State :=
  let bb := s.blockBytes c.nsid
  match if c.pi.testBit 3 then none else c.piCheck bb c.hostData with
  | some sc => (s.discardCmd c.id).endIo c.id 2 sc (Config.dnr 2 sc)
  | none =>
  let blk (lba : Nat) : Bytes := c.stored lba (slice c.hostData ((lba - c.slba) * bb) bb)
  let recs := e.recs.map fun r =>
    { r with data := ((List.range 4).filter fun i => r.mask.testBit i).map fun i => blk (4 * r.grain + i) }
  let s := s.putIo { c with stage := .staged, hostData := [], bytes := c.need }
  let s := s.assignSeq { e with recs := recs }
  s.checkCmd c.id

/-- The data of a write is asked for: by RDMA READ on a fabric queue, from host memory on a host-side queue; data that came in the
capsule is there (R112, R133). -/
def State.fetchData (s : State) (c : Cmd) (e : BEnt) : State :=
  let s := s.putEnt { e with state := .filling }
  let e := { e with state := .filling }
  if c.sgl.isEmpty then s.writeIn c e
  else if c.host then
    let s := c.sgl.foldl (fun s g => s.emit (.hostRead g.addr g.len)) s
    s.writeIn c e
  else
    let s := s.putIo { c with stage := .fetch }
    c.sgl.foldl (fun s g => s.rdmaRead c.qctx c.id g.addr g.key g.len) s

/-- The RDMA READs of a best-effort write are held while the mirror backlog is full; a write that issues none is not (R141). -/
def State.pace (s : State) (c : Cmd) (e : BEnt) : State :=
  if c.deadline.isNone && !c.host && !c.sgl.isEmpty && decide (s.backlog > s.backlogMax) then
    { s.bumpBy R.BRN_BACKLOG_HOLD_CNT c.sgl.length with brn.heldReads := s.brn.heldReads ++ [e.id] }
  else s.fetchData c e

/-- An entry that has its reservation goes on: a write asks for its data, any other takes its sequence (R134). -/
def State.runEntry (s : State) (e : BEnt) : State :=
  match e.cmd.bind s.io? with
  | none => s.goEntry (3, 2) (chainFuel e.chain + 1) e
  | some c =>
    if c.opc = 1 then
      let s := s.takeFor e
      s.pace c ((s.ent? e.id).getD e)
    else
      let s := s.putIo { c with stage := .staged }
      (s.goEntry (recKinds c.opc c.deac) (chainFuel e.chain + 1) e).checkCmd c.id

/-- A new entry reserves its pages and records, or waits for them (R136). -/
def State.openEntry (s : State) (e : BEnt) : State :=
  let need := sumOf (e.recs.map BRec.need)
  let s := { s with brn.nextEnt := e.id + 1 }
  if s.roomFor need e.recs.length e.deadline then s.runEntry e
  else { (s.putEnt e).bump R.BRN_WAIT_CNT with brn.waiting := s.brn.waiting ++ [e.id] }

/-- A number for the order in which commands take range-lock entries and stall. -/
def State.nextSeq (s : State) : Nat × State := (s.hq.nextCmd, { s with hq.nextCmd := s.hq.nextCmd + 1 })

/-- The entry of a command over a run of blocks, before it reserves; `chain` are the runs after it (R130, R131). -/
def Cmd.entry (c : Cmd) (id role : Nat) (run : Nat × Nat) (chain : List (Nat × Nat)) : BEnt :=
  let k := recKinds c.opc c.deac
  { id := id, cmd := some c.id, journal := role, nsid := c.nsid, recs := runRecs run.1 run.2 k.1 k.2, state := .reserved, jseq := 0
    time := 0, fua := c.fua, deadline := c.deadline.isSome, host := c.host, chain := chain, sdeal := c.sdeal, ord := c.ord, placed := false }

/-- An admitted deadline write takes its pages and records together with its range-lock entry (R135; 03_sluice.md R84). -/
def State.reserveFor (s : State) (c : Cmd) : State :=
  { s with brn.nextEnt := s.brn.nextEnt + 1 }.takeFor (c.entry s.brn.nextEnt s.role (c.slba, c.nlb) [])

/-- The entry that a command reserved when it was admitted. -/
def State.reserved? (s : State) (c : Cmd) : Option BEnt := s.brn.ents.find? fun e => e.cmd == some c.id && e.state == .reserved

/-- A command that has passed the range-lock stage goes on with the entry it reserved at admission, or opens one (R130, R131, R135, R136). -/
def State.stageCmd (s : State) (c : Cmd) : State :=
  let runs := if c.opc = 9 then c.waits else [(c.slba, c.nlb)]
  match runs.filter fun r => r.2 != 0 with
  | [] => s.endIo c.id 0 0 false
  | (a, n) :: rest =>
    match s.nextSeq with
    | (q, s) =>
      let c := { c with stage := .brineWait, locked := true, seqNo := if c.locked then c.seqNo else q }
      let s := (s.takeLock c).putIo c
      match s.reserved? c with
      | some e => s.pace c e
      | none =>
        let p := if c.opc = 1 then ((a, n), []) else splitRun a n
        s.openEntry (c.entry s.brn.nextEnt s.role p.1 (p.2 ++ rest))

/-- BRINE_RESERVE_GRANT (R136): the entry that has waited longest takes its reservation once there is room. -/
def execBrineReserveGrant (s : State) : Host.Outcome State Fault Refusal :=
  .next <|
    match s.brn.waiting with
    | [] => s
    | id :: rest =>
      match s.ent? id with
      | none => { s with brn.waiting := rest }
      | some e =>
        if s.roomFor (sumOf (e.recs.map BRec.need)) e.recs.length e.deadline then
          { s with brn.waiting := rest }.runEntry e
        else s

/-- MIRROR_BACKLOG_RELEASE (R141): the RDMA READs that the backlog held are issued, in order, as far as it allows. -/
def execMirrorBacklogRelease (s : State) : Host.Outcome State Fault Refusal :=
  .next <|
    if s.backlog > s.backlogMax then s
    else
      let held := s.brn.heldReads
      held.foldl (fun s id =>
        match s.ent? id with
        | none => s
        | some e => match e.cmd.bind s.io? with
          | none => s
          | some c => if s.backlog > s.backlogMax then { s with brn.heldReads := s.brn.heldReads ++ [id] } else s.fetchData c e)
        { s with brn.heldReads := [] }

/-! ### Release (R134, R139, R144) -/

/-- An item of a row or of the queue before it belongs to an entry. -/
def RowItem.ofEntry (jseq : Nat) : RowItem → Bool
  | .frame _ _ q _ _ => q == jseq
  | .record r _ => r.typ == 1 && r.jseq == jseq
  | _ => false

/-- Every row that holds a frame or the record of an entry is PROGRAMMED (11_flash_translation.md R276). -/
def State.entDurable (s : State) (e : BEnt) : Bool :=
  e.placed && !(s.ftl.rows.any fun r =>
    r.journal == e.journal && (r.state == .filling || r.state == .closed) && r.items.any (RowItem.ofEntry e.jseq)) &&
    !(s.ftl.packQ.any fun q => q.1 == e.journal && q.2.2.ofEntry e.jseq)

/-- A release mark goes to the peer (R138, R139). -/
def State.releaseMark (s : State) (mark : Nat) : State :=
  if s.mirrors then
    let m := mirrorMsg 4 0 0 0 mark 0 0 0 (List.replicate 4 0xFFFFFFFF) s.tide.time []
    (s.bumpBy R.BRN_MIRROR_BYTE_CNT m.length).ptlSend 1 0x03 m
  else s

/-- The first entry of a journal that is not released. -/
def State.firstEnt (s : State) (j : Nat) : Option BEnt :=
  (s.brn.ents.filter fun e => e.journal == j && e.jseq != 0 && e.state != .released).foldl (fun o e => match o with
    | none => some e
    | some (x : BEnt) => if e.jseq < x.jseq then some e else some x) none

/-- The durable mark advances over an unbroken run of durable entries, each of which is released, unless it is frozen (R134, R147,
R148). `n` bounds the run. -/
def State.releaseIn (s : State) (j : Nat) : Nat → State
  | 0 => s
  | n + 1 =>
    match s.firstEnt j with
    | none => s
    | some e =>
      if s.frozen = true ∨ e.state ≠ .draining ∨ s.entDurable e = false then s
      else
        let s := (s.putEnt { e with state := .released }).putJournal { s.journal j with durable := e.jseq }
        let s := s.releaseMark e.jseq
        let s := match e.cmd with
          | some c => s.checkCmd c
          | none => s
        (s.freeReleased).releaseIn j n

/-- Durable entries of a journal are released. -/
def State.releaseDurable (s : State) (j : Nat) : State := s.releaseIn j s.brn.ents.length

/-- The journals a Flush waits for, with the sequences it takes: those of the volumes it names, all attached ones with NSID 0xFFFF_FFFF, as
far as this head holds them (R144, R86). -/
def State.flushMarks (s : State) (nsid : Nat) : List (Nat × Nat) :=
  let vols := if nsid = 0xFFFFFFFF then (s.pool.volumes.filter fun v => v.attached && s.ownsGroup v.ana).map Volume.nsid else [nsid]
  let js := (vols.map s.journalOf).eraseDups
  (js.filter s.heldJournals.contains).map fun j => (j, (s.journal j).jseq)

/-- The durable marks have reached those a Flush took. -/
def State.marksReached (s : State) (ms : List (Nat × Nat)) : Bool := ms.all fun m => decide ((s.journal m.1).durable ≥ m.2)

/-- FLUSH_COMPLETE (R144): the durable marks have reached the values the Flush took. -/
def execFlushComplete (cmd : Nat) (s : State) : Host.Outcome State Fault Refusal :=
  .next <|
    match s.brn.flushes.find? (·.cmd == cmd), s.io? cmd with
    | some f, some c => if c.stage = .flushWait ∧ s.marksReached f.marks then s.endIo cmd 0 0 false else s
    | _, _ => s

end Sys2Proof.Machine
end

