-- ==== Sys2Proof/Machine/Deflate.lean ====
section
/-! DEFINITION. DEFLATE (RFC 1951) as the engines implement it: the match finder, block construction and the encoder of a stream
(08_compression.md R190-R192, R194, R200), and the decoder (R188, R196, R204). Bit streams are lists of bits, the first bit of a byte its least
significant one. -/
namespace Sys2Proof.Machine

/-! ### Bits -/

/-- The `n` low bits of a number, least significant first. -/
def bitsOf (n v : Nat) : List Bool := (List.range n).map v.testBit
/-- The number that bits spell, least significant first. -/
def bitsNat (bs : List Bool) : Nat := bs.foldr (fun b n => b2n b + 2 * n) 0
/-- The bits of some bytes. -/
def byteBits (bs : Bytes) : List Bool := bs.flatMap fun b => bitsOf 8 b.toNat
/-- The whole bytes of a bit stream, the last one padded with zero bits (R191); `n` bounds them. -/
def bitBytes : Nat → List Bool → Bytes
  | 0, _ => []
  | _, [] => []
  | n + 1, b :: t => BitVec.ofNat 8 (bitsNat ((b :: t).take 8)) :: bitBytes n ((b :: t).drop 8)
/-- The bytes of a bit stream. -/
def packBits (bs : List Bool) : Bytes := bitBytes bs.length bs

/-! ### Symbols (RFC 1951, section 3.2.5) -/

/-- Extra bits and base of the length symbols 257 to 285. -/
def lenTable : List (Nat × Nat) :=
  [(0, 3), (0, 4), (0, 5), (0, 6), (0, 7), (0, 8), (0, 9), (0, 10), (1, 11), (1, 13), (1, 15), (1, 17), (2, 19), (2, 23), (2, 27),
    (2, 31), (3, 35), (3, 43), (3, 51), (3, 59), (4, 67), (4, 83), (4, 99), (4, 115), (5, 131), (5, 163), (5, 195), (5, 227), (0, 258)]

/-- Extra bits and base of the distance symbols 0 to 29. -/
def distTable : List (Nat × Nat) :=
  [(0, 1), (0, 2), (0, 3), (0, 4), (1, 5), (1, 7), (2, 9), (2, 13), (3, 17), (3, 25), (4, 33), (4, 49), (5, 65), (5, 97), (6, 129),
    (6, 193), (7, 257), (7, 385), (8, 513), (8, 769), (9, 1025), (9, 1537), (10, 2049), (10, 3073), (11, 4097), (11, 6145), (12, 8193),
    (12, 12289), (13, 16385), (13, 24577)]

/-- The last row of a table whose base a value reaches: its place, extra bits and extra value. -/
def tableSym (t : List (Nat × Nat)) (v : Nat) : Nat × Nat × Nat :=
  let i := countOf (fun r : Nat × Nat => decide (r.2 ≤ v)) t - 1
  let r := t.getD i (0, 0)
  (i, r.1, v - r.2)

/-- The order of the code lengths of the code-length code. -/
def clOrder : List Nat := [16, 17, 18, 0, 8, 7, 9, 6, 10, 5, 11, 4, 12, 3, 13, 2, 14, 1, 15]

/-- Code lengths of the static literal/length code. -/
def staticLit : List Nat := List.replicate 144 8 ++ List.replicate 112 9 ++ List.replicate 24 7 ++ List.replicate 8 8
/-- Code lengths of the static distance code. -/
def staticDist : List Nat := List.replicate 32 5

/-! ### The match finder (R190) -/

/-- What a level of a generation fixes: hash bits, candidates, lazy steps, nice length, whether every position is inserted, shortest match. -/
structure LzLevel where
  bits : Nat
  cands : Nat
  lazy : Nat
  nice : Nat
  every : Bool
  least : Nat
  deriving DecidableEq, Repr

/-- The levels (R190); level 2 is greedy before generation 3 (R192). -/
def lzLevel (gen level : Nat) : LzLevel :=
  match level with
  | 1 => ⟨12, 1, 0, 32, false, 4⟩
  | 2 => ⟨15, 4, if gen ≥ 3 then 1 else 0, 128, true, 4⟩
  | 3 => ⟨15, 8, 1, 258, true, 3⟩
  | _ => ⟨16, 16, 2, 258, true, 3⟩

/-- What the encoder has behind its position, newest first: bytes, each with whether its position was inserted in the hash table. -/
abbrev LzPast := List (Byte × Bool)

/-- A literal, or a match of a length at a distance. -/
inductive LzTok | lit (b : Byte) | copy (len dist : Nat)
  deriving DecidableEq, Repr

/-- The bytes from the position at a distance on. -/
def lzFrom (past : LzPast) (rest : Bytes) (d : Nat) : Bytes := ((past.take d).map Prod.fst).reverse ++ rest

/-- Equal leading bytes of two lists, at most `n`. -/
def samePrefix : Nat → Bytes → Bytes → Nat
  | n + 1, a :: s, b :: t => if a = b then samePrefix n s t + 1 else 0
  | _, _, _ => 0

/-- The hash bucket of the bytes at a position (R190). -/
def lzHash (gen : Nat) (p : LzLevel) (b : Bytes) : Nat := Config.lzHash gen p.bits (b.take p.least) % 2 ^ p.bits

/-- The candidates at a position: the newest inserted positions of its bucket that the window reaches, newest first (R188, R190). -/
def lzCands (gen : Nat) (p : LzLevel) (past : LzPast) (rest : Bytes) : List Nat :=
  let near := past.take 32768
  (((near.zip (List.range near.length)).filter fun x => x.1.2 && lzHash gen p (lzFrom past rest (x.2 + 1)) == lzHash gen p rest).map fun x => x.2 + 1).take p.cands

/-- The match at a position, if any: the longest, capped at the nice length, of equal ones that with the smaller distance; one of 3 bytes at a
distance of at most 4,096 (R190). A position with fewer bytes before the block's end than the hash takes has none (DESIGN CHOICE, log 132). -/
def lzMatch (gen : Nat) (p : LzLevel) (past : LzPast) (rest : Bytes) : Option (Nat × Nat) :=
  if rest.length < p.least then none
  else
    (lzCands gen p past rest).foldl (fun o d =>
      let n := samePrefix p.nice rest (lzFrom past rest d)
      let best := match o with
        | some (m, _) => m
        | none => 0
      if n < p.least ∨ (n = 3 ∧ d > 4096) ∨ n ≤ best then o else some (n, d)) none

/-- The past after a byte more. -/
def lzPush (every : Bool) (b : Bytes) (past : LzPast) : LzPast := b.foldl (fun acc x => (x, every) :: acc) past

/-- A position that has been emitted as a literal or as the start of a match is inserted; the rest of a match where every position is (R190). -/
def lzAfter (p : LzLevel) (past : LzPast) (b : Bytes) : LzPast := lzPush p.every (b.drop 1) (lzPush true (b.take 1) past)

/-- One of the next positions, as far as the lazy steps go, has a strictly longer match (R190). -/
def lzAhead (gen : Nat) (p : LzLevel) (past : LzPast) (rest : Bytes) (len : Nat) : Bool :=
  (List.range p.lazy).any fun k =>
    match lzMatch gen p (lzPush true (rest.take (k + 1)) past) (rest.drop (k + 1)) with
    | some (n, _) => decide (n > len)
    | none => false

/-- The token at a position (R190). -/
def lzTok (gen : Nat) (p : LzLevel) (past : LzPast) (b : Byte) (t : Bytes) : LzTok :=
  match lzMatch gen p past (b :: t) with
  | none => .lit b
  | some (len, dist) => if lzAhead gen p past (b :: t) len then .lit b else .copy len dist

/-- The bytes that a token stands for. -/
def LzTok.span : LzTok → Nat
  | .lit _ => 1
  | .copy len _ => len

/-- The tokens of a block, and the past after it; `n` bounds the positions (R190). -/
def lzRun (gen : Nat) (p : LzLevel) : Nat → LzPast → Bytes → List LzTok × LzPast
  | 0, past, _ => ([], past)
  | _, past, [] => ([], past)
  | n + 1, past, b :: t =>
    let x := lzTok gen p past b t
    let r := lzRun gen p n (lzAfter p past ((b :: t).take x.span)) ((b :: t).drop x.span)
    (x :: r.1, r.2)

/-! ### Code lengths and codes (R191) -/

/-- An item of the length-limited construction: a weight and the symbols under it. -/
abbrev Coin := Nat × List Nat

/-- Two sorted lists in one; of equal weights those of the first come first. `n` bounds the steps. -/
def coinMerge : Nat → List Coin → List Coin → List Coin
  | 0, _, _ => []
  | _, [], ys => ys
  | _, xs, [] => xs
  | n + 1, x :: xs, y :: ys => if x.1 ≤ y.1 then x :: coinMerge n xs (y :: ys) else y :: coinMerge n (x :: xs) ys

/-- Neighbours in pairs. -/
def coinPairs : List Coin → List Coin
  | x :: y :: t => (x.1 + y.1, x.2 ++ y.2) :: coinPairs t
  | _ => []

/-- The package-merge lists of `k` levels. -/
def coinLevels (leaves : List Coin) : Nat → List Coin
  | 0 => leaves
  | k + 1 =>
    let p := coinPairs (coinLevels leaves k)
    coinMerge (leaves.length + p.length + 1) leaves p

/-- Used symbols by rising count; of equal counts the lower symbol stands first (R191; DESIGN CHOICE, log 133). -/
def coinLeaves (counts : List Nat) : List Coin :=
  let used := ((List.range counts.length).zip counts).filter fun x => x.2 != 0
  used.foldl (fun acc x => (acc.takeWhile fun y => decide (y.1 ≤ x.2)) ++ [(x.2, [x.1])] ++ (acc.dropWhile fun y => decide (y.1 ≤ x.2))) []

/-- Code lengths of at most `limit` bits for symbol counts (R191): the length-limited construction is package-merge; a symbol that is used alone has
length 1 (DESIGN CHOICE, log 133). -/
def codeLens (limit : Nat) (counts : List Nat) : List Nat :=
  let leaves := coinLeaves counts
  let picked := ((coinLevels leaves (limit - 1)).take (2 * leaves.length - 2)).flatMap Prod.snd
  (List.range counts.length).map fun i =>
    if counts.getD i 0 = 0 then 0 else if leaves.length = 1 then 1 else countOf (fun x : Nat => x == i) picked

/-- The first canonical code of a length (RFC 1951, section 3.2.2). -/
def firstCode (lens : List Nat) : Nat → Nat
  | 0 => 0
  | n + 1 => 2 * (firstCode lens n + (if n = 0 then 0 else countOf (fun x : Nat => x == n) lens))

/-- The bits of a symbol's code, most significant bit first. -/
def codeBits (lens : List Nat) (sym : Nat) : List Bool :=
  let n := lens.getD sym 0
  (bitsOf n (firstCode lens n + countOf (fun x : Nat => x == n) (lens.take sym))).reverse

/-! ### Blocks (R191, R200) -/

/-- The literal/length symbol of a token, with its extra bits. -/
def LzTok.sym : LzTok → Nat × List Bool
  | .lit b => (b.toNat, [])
  | .copy len _ => let s := tableSym lenTable len; (257 + s.1, bitsOf s.2.1 s.2.2)

/-- The distance symbol of a match, with its extra bits. -/
def LzTok.dist : LzTok → Option (Nat × List Bool)
  | .lit _ => none
  | .copy _ d => let s := tableSym distTable d; some (s.1, bitsOf s.2.1 s.2.2)

/-- The bits of a block's tokens and its end-of-block symbol, under two codes. -/
def tokenBits (lit dist : List Nat) (ts : List LzTok) : List Bool :=
  (ts.flatMap fun t => codeBits lit t.sym.1 ++ t.sym.2 ++ match t.dist with
    | some d => codeBits dist d.1 ++ d.2
    | none => []) ++ codeBits lit 256

/-- Counts of the literal/length symbols, with end of block, and of the distance symbols. -/
def symCounts (ts : List LzTok) : List Nat × List Nat :=
  let lits := ts.map fun t => t.sym.1
  let dists := ts.filterMap fun t => t.dist.map Prod.fst
  ((List.range 286).map fun i => countOf (fun x : Nat => x == i) lits + b2n (i == 256), (List.range 30).map fun i => countOf (fun x : Nat => x == i) dists)

/-- The least number of entries, at least `n`, that covers every entry other than 0. -/
def coverLen (n : Nat) (xs : List Nat) : Nat := Nat.max n (xs.length - (xs.reverse.takeWhile (· == 0)).length)

/-- Code lengths, run-length coded with symbols 16, 17 and 18, the longest run first (R191): symbol, extra bits and their value. `n` bounds
the symbols. -/
def runLens : Nat → Option Nat → List Nat → List (Nat × Nat × Nat)
  | 0, _, _ => []
  | _, _, [] => []
  | n + 1, prev, x :: t =>
    let run := 1 + (t.takeWhile (· == x)).length
    if x = 0 ∧ run ≥ 11 then
      let k := Nat.min run 138
      (18, 7, k - 11) :: runLens n (some 0) ((x :: t).drop k)
    else if x = 0 ∧ run ≥ 3 then (17, 3, run - 3) :: runLens n (some 0) ((x :: t).drop run)
    else if x ≠ 0 ∧ prev = some x ∧ run ≥ 3 then
      let k := Nat.min run 6
      (16, 2, k - 3) :: runLens n (some x) ((x :: t).drop k)
    else (x, 0, 0) :: runLens n (some x) t

/-- The limit of the code-length code (R191, R192). -/
def clLimit (gen : Nat) : Nat := if gen = 1 then 5 else 7

/-- A block with dynamic tables (R191), without BFINAL. -/
def dynamicBits (gen : Nat) (ts : List LzTok) : List Bool :=
  let c := symCounts ts
  let lit := codeLens 15 c.1
  let dist := if c.2.all (· == 0) then [1] else codeLens 15 c.2
  let hlit := coverLen 257 lit
  let hdist := coverLen 1 dist
  let rl := runLens 320 none (lit.take hlit ++ dist.take hdist)
  let cl := codeLens (clLimit gen) ((List.range 19).map fun i => countOf (fun x : Nat × Nat × Nat => x.1 == i) rl)
  let order := clOrder.map fun i => cl.getD i 0
  let hclen := coverLen 4 order
  bitsOf 2 2 ++ bitsOf 5 (hlit - 257) ++ bitsOf 5 (hdist - 1) ++ bitsOf 4 (hclen - 4) ++ (order.take hclen).flatMap (bitsOf 3) ++
    (rl.flatMap fun r => codeBits cl r.1 ++ bitsOf r.2.1 r.2.2) ++ tokenBits lit dist ts

/-- A block with static tables, without BFINAL. -/
def staticBits (ts : List LzTok) : List Bool := bitsOf 2 1 ++ tokenBits staticLit staticDist ts

/-- A stored block, without BFINAL, that begins at a bit of a byte. -/
def storedBits (at_ : Nat) (b : Bytes) : List Bool :=
  bitsOf 2 0 ++ List.replicate ((16 - (at_ + 3) % 8) % 8) false ++ bitsOf 16 b.length ++ bitsOf 16 (65535 - b.length) ++ byteBits b

/-- The shortest of some encodings; of equal ones the first (R200). -/
def shortest : List (List Bool) → List Bool
  | [] => []
  | [x] => x
  | x :: t => let y := shortest t; if x.length ≤ y.length then x else y

/-- A block of a stream (R200), after `at_` bits: the shortest of the encodings that the mode allows. -/
def blockBits (gen mode at_ : Nat) (final : Bool) (ts : List LzTok) (b : Bytes) : List Bool :=
  final :: shortest ((if mode = 0 then [dynamicBits gen ts] else []) ++ [staticBits ts, storedBits at_ b])

/-- The body of an inline grain (R194): one final block of the mode, level 2, with no history. -/
def deflateGrain (gen mode : Nat) (content : Bytes) : Bytes :=
  let ts := (lzRun gen (lzLevel gen 2) content.length [] content).1
  packBits (true :: if mode = 0 then dynamicBits gen ts else staticBits ts)

/-! ### The encoder of a stream (R200) -/

/-- The encoder between jobs: what is behind its position (32 KiB at most), the carried input, the pending bits. -/
structure EncState where
  past : LzPast
  carry : Bytes
  bits : List Bool
  deriving DecidableEq, Repr

/-- An encoder at the start of a stream. -/
def EncState.start : EncState := ⟨[], [], []⟩

/-- A block goes out. -/
def EncState.block (e : EncState) (gen level mode : Nat) (final : Bool) (b : Bytes) : EncState :=
  let r := lzRun gen (lzLevel gen level) b.length e.past b
  { e with past := r.2.take 32768, bits := e.bits ++ blockBits gen mode e.bits.length final r.1 b }

/-- The complete blocks of the carried input go out; `n` bounds them (R200). -/
def EncState.blocks (gen level mode : Nat) : Nat → EncState → EncState
  | 0, e => e
  | n + 1, e =>
    if e.carry.length < 32768 then e
    else EncState.blocks gen level mode n ({ e.block gen level mode false (e.carry.take 32768) with carry := e.carry.drop 32768 })

/-- One job (R200): the complete blocks, then what FLUSH asks for. An open block of no byte is ended by FINISH alone (DESIGN CHOICE,
log 132). -/
def EncState.job (e : EncState) (gen level mode flush : Nat) (src : Bytes) : EncState :=
  let e := EncState.blocks gen level mode (src.length + 1) { e with carry := e.carry ++ src }
  match flush with
  | 0 => e
  | 3 => { e.block gen level mode true e.carry with carry := [] }
  | _ =>
    let e := if e.carry = [] then e else { e.block gen level mode false e.carry with carry := [] }
    let e := { e with bits := e.bits ++ false :: storedBits e.bits.length [] }
    if flush = 2 then { e with past := [] } else e

/-- The bytes that a job puts out, and the encoder after it: whole bytes, and at FINISH the padded last one (R191, R202). -/
def EncState.emitted (e : EncState) (flush : Nat) : Bytes × EncState :=
  if flush = 3 then (packBits e.bits, { e with bits := [] })
  else
    let n := e.bits.length / 8 * 8
    (packBits (e.bits.take n), { e with bits := e.bits.drop n })

/-! ### The decoder (R188, R204) -/

/-- Where a decoder stands between elements of a stream: at a block header, in a stored block with bytes left, in a compressed block with its two
codes, or past the final block. -/
inductive InfMode | header | stored (left : Nat) | codes (lit dist : List Nat) | ended
  deriving DecidableEq, Repr

/-- A decoder: where it stands, whether its block is the final one, its window newest first, and a copy under way (length, distance). -/
structure InfState where
  mode : InfMode
  last : Bool
  win : Bytes
  len : Nat
  dist : Nat
  deriving DecidableEq, Repr

/-- A decoder at the start of a stream. -/
def InfState.start : InfState := ⟨.header, false, [], 0, 0⟩

/-- What reading an element of a bit stream answers: its value and the bits after it, more bits needed, or a violation with the kind of R204. -/
inductive BitRes (α : Type) | got (v : α) (rest : List Bool) | more | bad (kind : Nat)

/-- The next `n` bits as a number. -/
def readBits (n : Nat) (bs : List Bool) : BitRes Nat :=
  let v := bs.take n
  if v.length < n then .more else .got (bitsNat v) (bs.drop n)

/-- A symbol under canonical code lengths, bit by bit from length `len` on; a code that no symbol has is reserved. -/
def readSym (lens : List Nat) : Nat → Nat → Nat → List Bool → BitRes Nat
  | 0, _, _, _ => .bad 3
  | _ + 1, _, _, [] => .more
  | n + 1, len, code, b :: t =>
    let code := 2 * code + b2n b
    let syms := (List.range lens.length).filter fun i => lens.getD i 0 == len
    let k := code - firstCode lens len
    if firstCode lens len ≤ code ∧ k < syms.length then .got (syms.getD k 0) t else readSym lens n (len + 1) code t

/-- A symbol of a code. -/
def symOf (lens : List Nat) (bs : List Bool) : BitRes Nat := readSym lens 15 1 0 bs

/-- Code lengths form a code: not over-subscribed and complete; one code of one bit may stand alone, and, where `none_` says so, no code at all. -/
def lensOk (none_ : Bool) (lens : List Nat) : Bool :=
  let sum := sumOf (lens.map fun n => if n = 0 then 0 else 2 ^ (15 - n))
  sum == 2 ^ 15 || (lens.filter (· != 0) == [1]) || (none_ && sum == 0)

/-- The code lengths of a dynamic block, `want` of them in all; `n` bounds the symbols. -/
def readLens (cl : List Nat) (want : Nat) : Nat → List Nat → List Bool → BitRes (List Nat)
  | 0, acc, bs => if acc.length = want then .got acc bs else .bad 2
  | n + 1, acc, bs =>
    if acc.length = want then .got acc bs
    else if acc.length > want then .bad 2
    else
      match symOf cl bs with
      | .more => .more
      | .bad k => .bad k
      | .got s bs =>
        if s < 16 then readLens cl want n (acc ++ [s]) bs
        else
          match readBits (if s = 16 then 2 else if s = 17 then 3 else 7) bs with
          | .more => .more
          | .bad k => .bad k
          | .got v bs =>
            if s = 16 ∧ acc = [] then .bad 2
            else if s = 16 then readLens cl want n (acc ++ List.replicate (3 + v) (acc.getLastD 0)) bs
            else readLens cl want n (acc ++ List.replicate ((if s = 17 then 3 else 11) + v) 0) bs

/-- The two codes of a dynamic block, from HLIT on. -/
def readDynamic (bs : List Bool) : BitRes (List Nat × List Nat) :=
  match readBits 14 bs with
  | .more => .more
  | .bad k => .bad k
  | .got v bs =>
    let hlit := 257 + v % 32
    let hdist := 1 + v / 32 % 32
    let hclen := 4 + v / 1024
    if hlit > 286 then .bad 3
    else if bs.length < 3 * hclen then .more
    else
      let order := (List.range hclen).map fun i => bitsNat ((bs.drop (3 * i)).take 3)
      let cl := (List.range 19).map fun i => order.getD (clOrder.findIdx (· == i)) 0
      if sumOf (cl.map fun n => if n = 0 then 0 else 2 ^ (15 - n)) ≠ 2 ^ 15 then .bad 2
      else
        match readLens cl (hlit + hdist) 320 [] (bs.drop (3 * hclen)) with
        | .more => .more
        | .bad k => .bad k
        | .got lens bs =>
          let lit := lens.take hlit
          let dist := lens.drop hlit
          if !lensOk false lit || !lensOk true dist || lit.getD 256 0 == 0 then .bad 2 else .got (lit, dist) bs

/-- What one element of a stream does: the decoder after it, the bytes it puts out (at most one at a time but for a copy, which goes on byte by
byte), and the bits after it. -/
abbrev InfStep := BitRes (InfState × Option Byte)

/-- The block after an end of block. -/
def InfState.blockEnd (d : InfState) : InfState := { d with mode := if d.last then .ended else .header }

/-- A block header, with what follows it up to the data. The input ends at a byte boundary, so the bits left say where in its byte the header
begins. -/
def InfState.header (d : InfState) (bs : List Bool) : BitRes InfState :=
  match readBits 3 bs with
  | .more => .more
  | .bad k => .bad k
  | .got v rest =>
    let d := { d with last := v % 2 == 1 }
    match v / 2 with
    | 0 =>
      let skip := rest.length % 8
      match readBits 32 (rest.drop skip) with
      | .more => .more
      | .bad k => .bad k
      | .got w rest =>
        if w % 65536 + w / 65536 ≠ 65535 then .bad 5
        else .got (if w % 65536 = 0 then d.blockEnd else { d with mode := .stored (w % 65536) }) rest
    | 1 => .got { d with mode := .codes staticLit staticDist } rest
    | 2 =>
      match readDynamic rest with
      | .more => .more
      | .bad k => .bad k
      | .got c rest => .got { d with mode := .codes c.1 c.2 } rest
    | _ => .bad 1

/-- A byte joins the window. -/
def InfState.put (d : InfState) (b : Byte) : InfState := { d with win := (b :: d.win).take 32768 }

/-- A symbol of a compressed block: a literal, the end of the block, or a length with its distance. -/
def InfState.symbol (d : InfState) (lit dist : List Nat) (bs : List Bool) : InfStep :=
  match symOf lit bs with
  | .more => .more
  | .bad k => .bad k
  | .got s bs =>
    if s < 256 then .got (d.put (BitVec.ofNat 8 s), some (BitVec.ofNat 8 s)) bs
    else if s = 256 then .got (d.blockEnd, none) bs
    else if s > 285 then .bad 3
    else
      let l := lenTable.getD (s - 257) (0, 0)
      match readBits l.1 bs with
      | .more => .more
      | .bad k => .bad k
      | .got x bs =>
        match symOf dist bs with
        | .more => .more
        | .bad k => .bad k
        | .got y bs =>
          if y > 29 then .bad 3
          else
            let t := distTable.getD y (0, 0)
            match readBits t.1 bs with
            | .more => .more
            | .bad k => .bad k
            | .got z bs =>
              if t.2 + z > d.win.length then .bad 4 else .got ({ d with len := l.2 + x, dist := t.2 + z }, none) bs

/-- The next element: a byte of a copy or of a stored block, a block header, or a symbol. -/
def InfState.next (d : InfState) (bs : List Bool) : InfStep :=
  if d.len > 0 then
    let b := d.win.getD (d.dist - 1) 0
    .got ({ d.put b with len := d.len - 1 }, some b) bs
  else
    match d.mode with
    | .ended => .more
    | .header =>
      match d.header bs with
      | .more => .more
      | .bad k => .bad k
      | .got d bs => .got (d, none) bs
    | .stored left =>
      match readBits 8 bs with
      | .more => .more
      | .bad k => .bad k
      | .got v bs =>
        let d := d.put (BitVec.ofNat 8 v)
        .got (if left ≤ 1 then d.blockEnd else { d with mode := .stored (left - 1) }, some (BitVec.ofNat 8 v)) bs
    | .codes lit dist => d.symbol lit dist bs

/-- What a run of the decoder answers: the decoder, its output newest first, the bits that are left, the violation that ended it (0 none), and
whether the output capacity did. -/
structure InfRun where
  st : InfState
  out : Bytes
  rest : List Bool
  fault : Nat
  full : Bool
  deriving DecidableEq, Repr

/-- The decoder runs until its input needs more bits, its stream has ended, its output is full or a rule is broken; the input ends at a byte
boundary, `cap` are the bytes that still fit, and `n` bounds the elements. -/
def infRun : Nat → Nat → InfState → Bytes → List Bool → InfRun
  | 0, _, d, out, bs => ⟨d, out, bs, 0, false⟩
  | n + 1, cap, d, out, bs =>
    match d.next bs with
    | .more => ⟨d, out, bs, 0, false⟩
    | .bad k => ⟨d, out, bs, k, false⟩
    | .got (e, none) rest => infRun n cap e out rest
    | .got (e, some b) rest => if cap = 0 then ⟨d, out, bs, 0, true⟩ else infRun n (cap - 1) e (b :: out) rest

/-- A run over bits. -/
def InfState.run (d : InfState) (cap : Nat) (bs : List Bool) : InfRun := infRun (2 * bs.length + cap + 600) cap d [] bs

/-- A frame body (R196): a valid stream that ends in a final block within it, with no output beyond the limit. -/
def inflateFrame (limit : Nat) (body : Bytes) : Option Bytes :=
  let r := InfState.start.run limit (byteBits body)
  if r.fault = 0 ∧ r.full = false ∧ r.st.mode = .ended then some r.out.reverse else none

end Sys2Proof.Machine
end

