-- ==== Sys2Proof/Machine/Reduce.lean ====
section
/-! DEFINITION. The drain: grains, decisions, frames, packing, and the start of checkpoints (06_brine_write_path.md R147;
07_data_reduction.md R158-R178; 11_flash_translation.md R273, R280-R282). -/
namespace Sys2Proof.Machine

/-! ### Fingerprints -/

/-- HMAC with the states of a key slot: the inner pass from the inner state, the outer pass from the outer one (R219). -/
def KeySlot.hmac (k : KeySlot) (hash : Nat) (msg : Bytes) : Bytes := Config.sha2 hash (k.outer ++ Config.sha2 hash (k.inner ++ msg))

/-! ### Records of the pipeline -/

/-- `s` with a record of the pipeline replaced. -/
def State.putDRec (s : State) (r : DRec) : State :=
  { s with red.recs := mapIf (fun x => x.ent == r.ent && x.idx == r.idx) (fun _ => r) s.red.recs }

/-- A record of the pipeline. -/
def State.drec? (s : State) (ent idx : Nat) : Option DRec := s.red.recs.find? fun r => r.ent == ent && r.idx == idx

/-- The dedup domain that a record of the pipeline belongs to, at its place in its journal (R179). -/
def State.recDom (s : State) (r : DRec) : Option Domain := (s.volAt r.journal r.jseq r.nsid).bind Prod.snd
/-- The LBA format of a volume. -/
def State.lbafOf (s : State) (n : Nat) : Nat := ((s.volHere? n).map Volume.lbaf).getD 0

/-- A whole grain content is classified: zero, to be fingerprinted, or to be decided (R159, R160, R163, R164). -/
def State.classify (s : State) (r : DRec) (content : Bytes) : State :=
  let s := s.bump R.RED_GRAIN_CNT
  if s.lbafOf r.nsid = 0 ∧ allZero content = true then
    (s.bump R.RED_ZERO_CNT).putDRec { r with stage := .decide, kind := 0, content := [] }
  else if s.recDom r = none then s.putDRec { r with stage := .decide, content := content }
  else (s.putDRec { r with stage := .digest, content := content }).startJob 2 (.drain r.ent r.idx) content

/-- The merged content of a partial record is kept with it, so that reads of the grain need no media (R145, R276). -/
def State.keepMerged (s : State) (ent idx : Nat) (bs : List Bytes) : State :=
  match s.ent? ent with
  | none => s
  | some e =>
    match e.recs[idx]? with
    | none => s
    | some r => s.putEnt { e with recs := e.recs.set idx { r with merged := some bs } }

/-- A record enters the pipeline; a partial one is completed with the newest earlier version of its grain (R145). -/
def State.startRec (s : State) (e : BEnt) (idx : Nat) (b : BRec) : State :=
  let r : DRec :=
    { ent := e.id, idx := idx, journal := e.journal, jseq := e.jseq, nsid := e.nsid, grain := b.grain, stage := .merge, kind := 1,
      content := [], fp := [], decision := 0, sgn := 0, stream := 0, frame := [], gen := 0, crc := 0, keyPage := 0 }
  let s := { s with red.recs := s.red.recs ++ [r] }
  if b.kind = 3 ∨ (b.kind = 2 ∧ b.mask = 15) then
    (s.bump R.RED_GRAIN_CNT).putDRec { r with stage := .decide, kind := 0 }
  else
    let ov := s.overlay e.nsid b.grain (e.jseq + 1)
    if ov.all Option.isSome then
      let bs := ov.map fun o => o.getD []
      (s.keepMerged e.id idx bs).classify r (contentOf bs)
    else
      let s := s.lookUp e.nsid b.grain
      let m := s.mapGet e.nsid none b.grain
      if m.sgn = 0 then
        let bs := mergeBlocks ov (s.zeroGrain e.nsid b.grain)
        (s.keepMerged e.id idx bs).classify r (contentOf bs)
      else s.readGrain (.merge e.id idx) m.sgn (e.fua && e.deadline)

/-- The base of a merge has come from media (R145). -/
def State.mergeBase (s : State) (ent idx : Nat) (base : List Bytes) : State :=
  match s.drec? ent idx with
  | none => s
  | some r =>
    let bs := mergeBlocks (s.overlay r.nsid r.grain (r.jseq + 1)) base
    (s.keepMerged ent idx bs).classify r (contentOf bs)

/-! ### Decisions (R168-R173, R273) -/

/-- The stream of a new grain (R273). -/
def State.streamFor (s : State) (r : DRec) : Nat :=
  let old := s.mapGet r.nsid none r.grain
  let d := ((r.jseq / 2 ^ 20) % 2 ^ 16 + 2 ^ 16 - old.wstamp) % 2 ^ 16
  if old.sgn ≠ 0 ∧ d ≤ s.fld R.FTL_STREAM_CFG 15 0 then 0 else 1

/-- The duplicate that the index finds for a fingerprint, whether a tag matched, how many slots before it matched by tag alone, and the grains of
those whose confirmation failed (R167, R168). -/
def State.findDup (s : State) (d k fp crc : Nat) : Option Nat × Nat × Nat × List Nat :=
  let es := (s.bucket d (fpBucket fp k)).filter fun e => e.tag == fpTag fp
  let ok (e : IdxEnt) : Bool := e.fpHi == fpHi fp && match s.grain? e.sgn with
    | some g => g.crc == crc
    | none => false
  let met := es.takeWhile fun e => !ok e
  let fails := (met.filter fun e => e.fpHi == fpHi fp).map IdxEnt.sgn
  ((es.find? ok).map IdxEnt.sgn, b2n (!es.isEmpty), met.length - fails.length, fails)

/-- A grain is stored as new: the lowest free SGN, an index entry in a domain, one compression job (R168-R171, R194). -/
def State.storeNew (s : State) (r : DRec) (v : Volume) (dom : Option Domain) (crc : Nat) (secure : Bool) : State :=
  let sgn := s.newSgn v.ana
  let stream := s.streamFor r
  let page := match dom with
    | some d => d.keyPage
    | none => v.homeKey
  let g : Grain :=
    { sgn := sgn, refcnt := 1, pi := v.lbaf == 1, full := false, pinned := false, len16 := 0, domain := v.domain, keyPage := page,
      tweak := tweakOf r.journal r.jseq r.idx, crc := crc, islot := none, ploc := 0, grp := v.ana }
  let s := (s.bump R.RED_NEW_CNT).putGrain g
  let s := match s.dom? v.domain with
    | some d => s.insertIdx v.domain d.k (leNat r.fp) sgn r.jseq
    | none => s
  let s := { s with red.fps := if v.domain = 0 then s.red.fps else s.red.fps ++ [(sgn, r.fp)] }
  let s := s.mapSet r.nsid r.grain sgn r.jseq secure
  (s.putDRec
    { r with stage := .compress, decision := 2, sgn := sgn, stream := stream, gen := s.genAt r.journal r.jseq, crc := crc, keyPage := page }).startJob 0
      (.drain r.ent r.idx) r.content

/-- A grain is decided (R168): zero, duplicate or new, by what its volume is at its place in the journal (R179). The index of a domain that has
been deleted meanwhile takes part no longer (DESIGN CHOICE, log 131). -/
def State.decideRec (s : State) (r : DRec) : State :=
  let secure := match s.ent? r.ent with
    | some e => e.sdeal
    | none => false
  match s.volAt r.journal r.jseq r.nsid with
  | none => s.putDRec { r with stage := .ready, decision := 0, sgn := 0 }
  | some (v, dom) =>
    if r.kind = 0 then
      (s.mapSet r.nsid r.grain 0 r.jseq secure).putDRec { r with stage := .ready, decision := 0, sgn := 0 }
    else
      let crc := crc32 r.content
      match s.dom? v.domain with
      | none => s.storeNew r v dom crc secure
      | some d =>
        let s := s.idxLook v.domain d.k (leNat r.fp)
        match s.findDup v.domain d.k (leNat r.fp) crc with
        | (dup, tags, falses, fails) =>
          let s := (s.bumpBy R.RED_TAG_MATCH_CNT tags).bumpBy R.RED_FALSE_MATCH_CNT falses
          let s := fails.foldl (fun s n =>
            let s := { s.bump R.RED_CONFIRM_FAIL_CNT with ftl.health.confirmFail := s.ftl.health.confirmFail + 1 }
            let ploc := ((s.grain? n).map Grain.ploc).getD 0
            s.event 0x07 evcUncorrected 4 0x200002 (evAddr 5 ploc ++ evValue n ++ evSeq 0 r.jseq)) s
          match dup with
          | some n =>
            let s := ((s.bump R.RED_DUP_CNT).addRef n).mapSet r.nsid r.grain n r.jseq secure
            s.putDRec { r with stage := .ready, decision := 1, sgn := n }
          | none => s.storeNew r v dom crc secure

/-- Checkpoint spacing (11_flash_translation.md R289). -/
def State.ckptLog2 (s : State) : Nat := Nat.min 32 (Nat.max 20 (s.fld R.FTL_CKPT_CFG 5 0))

/-- An entry at which a checkpoint begins is still to be packed before this record: the images are as of that entry (11_flash_translation.md
R282). -/
def State.behindCkpt (s : State) (r : DRec) : Bool :=
  s.red.recs.any fun x => x.journal == r.journal && decide (x.jseq < r.jseq) && x.jseq % 2 ^ s.ckptLog2 == 0

/-- The decision stage takes grains in journal order as far as it can (R168), up to the entry at which a checkpoint begins until its images
are taken; `n` bounds the run. -/
def State.decideAll (s : State) (j : Nat) : Nat → State
  | 0 => s
  | n + 1 =>
    match s.red.recs.find? fun r => r.journal == j && (r.stage == .merge || r.stage == .digest || r.stage == .decide) with
    | none => s
    | some r => if r.stage = .decide ∧ s.behindCkpt r = false then (s.runOps.decideRec r).decideAll j n else s

/-! ### Frames and packing (R174-R178, R280, R281) -/

/-- The compressor's output for a grain: level 2, the mode of the volume's static-table flag (R194; 03_sluice.md R68). -/
def State.body (s : State) (r : DRec) : Bytes × Nat :=
  let st := match s.volAt r.journal r.jseq r.nsid with
    | some v => v.1.flags.testBit 0
    | none => false
  (deflateGrain r.gen (b2n st) r.content, b2n st)

/-- The grain frame of a content with its body: compressed where the body is at most 16,368 bytes, else stored (R174, R175). -/
def frameOf (gen mode : Nat) (body content : Bytes) : Bytes :=
  let small := decide (body.length ≤ 16368)
  let b := if small then body else content
  let pi := content.length > 16384
  let head := leBytes 1 0xA5 ++ leBytes 1 gen ++ leBytes 1 ((if small then mode else 2) + 4 * b2n pi) ++ leBytes 1 0 ++
    leBytes 2 b.length
  let f := head ++ leBytes 2 (crc32c head % 65536) ++ b ++ leBytes 4 (crc32 content) ++ leBytes 4 content.length
  slice f 0 (16 * ceilDiv f.length 16)

/-- A compression job of the drain has ended: the frame is made and goes to the cipher (R174, R194; 08_compression.md R206). -/
def State.compressed (s : State) (r : DRec) : State :=
  match s.body r with
  | (body, mode) =>
    let f := frameOf r.gen mode body r.content
    let s := ((s.bump R.CMP_GRAIN_CNT).bumpBy R.CMP_IN_BYTE_CNT r.content.length).bumpBy R.CMP_OUT_BYTE_CNT body.length
    let s := if body.length ≤ 16368 then s else s.bump R.CMP_STORED_CNT
    (s.putDRec { r with stage := .cipher, frame := f }).startJob 3 (.drain r.ent r.idx) f

/-- An encryption job of the drain has ended: the frame is enciphered under its grain's key page and tweak, and LEN16 is known (R171,
R175). -/
def State.enciphered (s : State) (r : DRec) : State :=
  let tweak := tweakOf r.journal r.jseq r.idx
  let mine (g : Grain) : Bool := g.sgn == r.sgn && g.tweak == tweak
  let s := { s with ftl.grains := mapIf mine (fun g => { g with len16 := r.frame.length / 16 }) s.ftl.grains }.grainIn r.sgn
  s.putDRec { r with stage := .ready, content := [], frame := s.xtsUnit r.keyPage tweak r.frame }

/-- The item of a record in the entry's journal record (R280). -/
def DRec.toItem (r : DRec) : JItem :=
  { grain := r.grain, kind := r.decision, stream := if r.decision = 2 then r.stream else 0, sgn := r.sgn, recIdx := r.idx, ploc := 0,
    len16 := if r.decision = 2 then r.frame.length / 16 else 0
    crc := if r.decision = 2 then r.crc else 0 }

/-- The journal that a volume's entries, grains and maps belong to is `j`, and this head owns its group. -/
def State.volJournal (s : State) (j nsid ana : Nat) : Bool := s.ownsGroup ana && s.journalOf nsid == j

/-- A map page image is one of a volume, or of an epoch of one, of a journal. -/
def State.ownImg (s : State) (j : Nat) (i : MapImg) : Bool :=
  s.ftl.maps.any fun m => (m.pages.any fun p => p.2 == i.id) && match s.volHere? m.nsid with
    | some v => s.volJournal j v.nsid v.ana
    | none => false

/-- A page of the stored grain table is one of a group of a journal. -/
def State.ownPart (s : State) (j p : Nat) : Bool := s.ownsGroup (p / 2 ^ 31 + 1) && s.groupJournal (p / 2 ^ 31 + 1) == j

/-- A page of the index partitions is of a domain of a journal. -/
def State.ownIdx (s : State) (j p : Nat) : Bool :=
  match s.dom? (p / 2 ^ 32) with
  | some d => s.ownsGroup d.ana && s.groupJournal d.ana == j
  | none => false

/-- The images that lie in a journal's oldest metadata stripe block that still holds named ones (12_harvest_health.md R297). -/
def State.oldestImgs (s : State) (j : Nat) : List (Nat × Nat) :=
  let d := (s.journal j).dir
  match s.ftl.blocks.find? fun b => b.owner == j && b.stream == 4 && d.any fun x => x.2.2 == (b.top, b.blk) with
  | some b => (d.filter fun x => x.2.2 == (b.top, b.blk)).map fun x => (x.1, x.2.1)
  | none => []

/-- The pages a checkpoint of a held journal images, as table and page numbers (R282): changed map page images and stored grain table pages of
its groups, the changed index partition pages of its domains, the pages of shared units' descriptors, those of the oldest
metadata block, the stripe block state page and the directory. Table numbers, and that a page which may have changed is imaged, are the
model's (DESIGN CHOICE, log 19). -/
def State.ckptPages (s : State) (j : Nat) : List (Nat × Nat) :=
  let maps : List (Nat × Nat) := (s.ftl.imgs.filter fun i => i.dirty && s.ownImg j i).map fun i => (0, i.id)
  let grains : List (Nat × Nat) := (s.ftl.touched.filter (s.ownPart j)).map fun p => (1, p)
  let parts : List (Nat × Nat) := (s.ftl.touchedIdx.filter (s.ownIdx j)).map fun p => (2, p)
  let units : List (Nat × Nat) := (s.med.units.filter fun u => unitShared u.id).map fun u => (3, u.id / 64)
  let old := (s.oldestImgs j).filter fun x => x.1 < 4
  (maps ++ grains ++ parts ++ units ++ old).eraseDups ++ [(4, 0), (5, 0)]

/-- The 32 bytes of a stored grain record (R171). -/
def Grain.toBytes (g : Grain) : Bytes :=
  leBytes 3 g.refcnt ++ leBytes 1 (b2n g.full + 2 * b2n g.islot.isSome + 4 * b2n g.pi + 8 * b2n g.pinned) ++ leBytes 2 g.len16 ++
    leBytes 1 g.domain ++ leBytes 10 g.tweak ++ leBytes 4 g.crc ++
    leBytes 5 (match g.islot with
      | some (b, k) => b * 8 + k
      | none => 0xFFFFFFFFFF) ++ leBytes 6 g.ploc

/-- The 32 bytes of an index entry (R166). -/
def IdxEnt.toBytes (x : IdxEnt) : Bytes := leBytes 16 x.fpHi ++ leBytes 6 x.sgn ++ leBytes 2 1 ++ leBytes 8 x.jseq

/-- The 4,096 bytes of a metadata page as of now (R282): a map page (R267), stored grain records (R171), buckets of the index (R165,
R166), unit descriptors (10_media_units_pans.md R238). The layout of a page of stripe block states and of the directory is not given:
free bytes (DESIGN CHOICE, log 19). -/
def State.pageBytes (s : State) (t p s0 : Nat) : Bytes :=
  match t with
  | 0 =>
    match findKey MapImg.id p s.ftl.imgs with
    | none => leBytes 4096 0
    | some i => (List.range 512).flatMap fun k =>
      match i.ents.find? fun e => e.grain == i.page * 512 + k with
      | some e => leBytes 6 e.sgn ++ leBytes 2 e.wstamp
      | none => leBytes 8 0
  | 1 => (List.range 128).flatMap fun k => ((s.grain? (p * 128 + k)).map Grain.toBytes).getD (leBytes 32 0)
  | 2 => (List.range 128).flatMap fun k =>
      ((s.red.index.find? fun x => x.dom == p / 2 ^ 32 && x.bucket == p % 2 ^ 32 * 16 + k / 8 && x.slot == k % 8).map
        IdxEnt.toBytes).getD (leBytes 32 0)
  | 3 => (List.range 64).flatMap fun k => s.descBytes (p * 64 + k)
  | _ => (List.range 4096).map (Config.tableByte t p s0)

/-- A checkpoint image: the page and its 256-byte trailer with the table number, the page number, PAGE_JSEQ and a CRC-32C (R282). The
trailer's layout is the model's, and PAGE_JSEQ is free for tables other than the map (DESIGN CHOICE, log 19). -/
def State.imageBytes (s : State) (t p s0 : Nat) : Bytes :=
  let page := s.pageBytes t p s0
  let last := match t, findKey MapImg.id p s.ftl.imgs with
    | 0, some i => i.jseq
    | _, _ => Config.pageJseq t p s0
  let b := page ++ leBytes 8 t ++ leBytes 8 p ++ leBytes 8 last ++ leBytes 228 0
  b ++ leBytes 4 (crc32c b)

/-- The streaming reads of a page that is imaged (16_memory_cache.md R397, R400). -/
def State.imageScan (s : State) (t p : Nat) : State :=
  match t with
  | 0 => s.metaScan .mapPage p 0 32
  | 1 => s.metaScan .grainTable p 0 32
  | 2 => s.metaScan .indexPart (p / 2 ^ 32) (4096 * (p % 2 ^ 32)) 32
  | 3 => s.llcRead 2 (descLine (64 * p)) 32 true
  | _ => s

/-- A checkpoint begins after its entry: a start record, then the images into the metadata stream, behind those of one that still runs
(R282). -/
def State.startCkpt (s : State) (j jseq : Nat) : State :=
  let jr := s.journal j
  let s := s.putJournal { jr with ckpts := jr.ckpts ++ [⟨jseq, 0, s.indexSpot j, []⟩] }
  let s := s.placeRec j 0x05 0 (leBytes 8 jseq)
  let ps := s.ckptPages j
  let s := ps.foldl (fun (s : State) p => s.imageScan p.1 p.2) s
  let s := { s with
    ftl.imgs := s.ftl.imgs.map fun i => if s.ownImg j i then { i with dirty := false } else i
    ftl.touched := s.ftl.touched.filter fun p => !s.ownPart j p
    ftl.touchedIdx := s.ftl.touchedIdx.filter fun p => !s.ownIdx j p }
  let imgs := ps.map fun p => (p.1, p.2, s.imageBytes p.1 p.2 jseq)
  imgs.foldl (fun s p => s.pack j 4 (.image p.1 p.2.1 jseq p.2.2)) s

/-- An entry all of whose grains are ready is packed: its new frames into their streams, its record after its last frame, and the row is
sealed where the entry is a seal point (R177, R178, R281, R282). -/
def State.packEnt (s : State) (e : BEnt) : State :=
  let rs := s.red.recs.filter fun r => r.ent == e.id
  let items := rs.map DRec.toItem
  let new := rs.filter fun r => r.decision == 2
  let s := new.foldl (fun s r =>
    s.pack e.journal r.stream (.frame r.sgn (ceilDiv r.frame.length 256) e.jseq r.idx r.frame)) s
  let st := (new.map DRec.stream).getLastD 0
  let sealing := e.fua || s.brn.seals.contains (e.journal, e.jseq)
  let rec_ : JRec :=
    { typ := 1, flags := b2n sealing + 2 * b2n e.fua + 4 * e.journal, jseq := e.jseq, sub := 0, nsid := e.nsid, items := items, body := [] }
  let s := rec_.split.foldl (fun (s : State) q => s.pack e.journal st (.record q q.crumbs)) s
  let s := { s with
    red.recs := s.red.recs.filter fun r => r.ent != e.id
    brn.seals := s.brn.seals.filter (· != (e.journal, e.jseq)) }
  let s := s.putEnt { e with placed := true }
  let s := if sealing then s.seal e.journal e.jseq else s
  if e.jseq % 2 ^ s.ckptLog2 = 0 then s.startCkpt e.journal e.jseq else s

/-- The next entry to pack: the oldest of the pipeline, when every grain of it is ready (R177, R181). -/
def State.packReady (s : State) (j : Nat) : Nat → State
  | 0 => s
  | n + 1 =>
    match s.red.recs.find? fun r => r.journal == j with
    | none => s
    | some r =>
      match s.ent? r.ent with
      | none => s
      | some e =>
        if s.red.recs.all fun x => x.ent != e.id || x.stage == .ready then (s.packEnt e).packReady j n else s

/-- Decisions, then the packing of entries that are ready. -/
def State.round (s : State) (j : Nat) : State :=
  let s := (s.decideAll j (s.red.recs.length + 1)).runOps
  s.packReady j (s.red.recs.length + 1)

/-- The pipeline of a journal goes on as far as it can, in a second round past an entry at which a checkpoint begins, and durable entries are
released. -/
def State.pump (s : State) (j : Nat) : State := ((s.round j).round j).releaseDurable j

/-- An entry needs a metadata page that does not exist yet (R269): a map page of its own volume, because the page is shared with an epoch or was never written and now gets data, or a page of the stored grain table for the next stored grain. -/
def State.needsPage (s : State) (e : BEnt) : Bool :=
  e.recs.any fun b => (match s.pageOf e.nsid none (b.grain / 512) with
    | some i => decide (i.share > 1)
    | none => b.kind == 1) || (b.kind == 1 && match s.vol? e.nsid with
    | some v => !s.metaPages.contains (1, s.newSgn v.ana / 128)
    | none => false)

/-- The drain waits: an entry needs a new page, the map area has no room and no clean page of a best-effort volume is left (R269). -/
def State.drainWaits (s : State) (e : BEnt) : Bool := !s.pageRoom 1 && s.pagesFree.isEmpty && s.needsPage e

/-- The entry that the drain takes next: the oldest of a journal that it has not taken; while the peer is in service only a STAGED one, and none
while the map area keeps it waiting (R147, R269; 15_pair_operation.md R369). -/
def State.drainNext (s : State) (j : Nat) : Option BEnt :=
  let es := s.brn.ents.filter fun e => e.journal == j && e.jseq != 0 && (e.state == .loc || e.state == .staged)
  match es.foldl (fun o e => match o with
    | none => some e
    | some (x : BEnt) => if e.jseq < x.jseq then some e else some x) none with
  | some e => if (e.state = .staged ∨ !s.peerInService) ∧ !s.drainWaits e then some e else none
  | none => none

/-- The value a Flush takes seals the entry it falls on, now or when it is packed, and its record says so (R178). -/
def State.sealAt (s : State) (j jseq : Nat) : State :=
  match s.brn.ents.find? fun e => e.journal == j && e.jseq == jseq with
  | none => s
  | some e => if e.placed then (s.markSeal j jseq).seal j jseq else { s with brn.seals := s.brn.seals ++ [(j, jseq)] }

/-! ### Jobs of the drain that end -/

/-- A digest job gives the fingerprint (R163): HMAC-SHA-256 under the key of the domain's slot. -/
def State.fingerprinted (s : State) (r : DRec) (k : KeySlot) : State :=
  (s.bump R.RED_FP_CNT).putDRec { r with stage := .decide, fp := k.hmac 1 r.content }

end Sys2Proof.Machine
end

