-- ==== Sys2Proof/Machine/Keys.lean ====
section
/-! DEFINITION. Key pages, key slots, key erasure on alarm and reloading (09_cipher_digest.md R210-R219, R231-R234). -/
namespace Sys2Proof.Machine

/-! ### Pages and slots -/

/-- `s` with a key page replaced. -/
def State.putPage (s : State) (p : KeyPage) : State := { s with keys.pages := putKey KeyPage.no p s.keys.pages }
/-- A key slot; one not listed is EMPTY. -/
def State.kslot (s : State) (n : Nat) : KeySlot :=
  (findKey KeySlot.no n s.keys.slots).getD
    { no := n, cfg := 1, len := 32, state := .empty, gen := 0, err := 0, key := [], inner := [], outer := [], busy := false }
/-- `s` with a key slot replaced. -/
def State.putSlot (s : State) (k : KeySlot) : State := { s with keys.slots := putKey KeySlot.no k s.keys.slots }

/-- STATE as the status registers code it (R212). -/
def KeySt.code : KeySt → Nat
  | .empty => 0
  | .loading => 1
  | .live => 2
  | .erased => 3

/-- USAGE: 0 none, 1 XTS, 2 GCM; others are treated as 0 (R212). -/
def KeyPage.usage (p : KeyPage) : Nat := if bits p.cfg 3 0 ≤ 2 then bits p.cfg 3 0 else 0
/-- PERSIST of a page. -/
def KeyPage.persist (p : KeyPage) : Bool := p.cfg.testBit 6
/-- OFFLOAD_OK of a page. -/
def KeyPage.offloadOk (p : KeyPage) : Bool := p.cfg.testBit 7
/-- HASH of a slot. -/
def KeySlot.hash (k : KeySlot) : Nat := bits k.cfg 1 0
/-- PERSIST of a slot. -/
def KeySlot.persist (k : KeySlot) : Bool := k.cfg.testBit 6
/-- OFFLOAD_OK of a slot. -/
def KeySlot.offloadOk (k : KeySlot) : Bool := k.cfg.testBit 7

/-- A media key: LIVE, XTS, PERSIST 1, OFFLOAD_OK 0 (07_data_reduction.md R182). -/
def KeyPage.mediaKey (p : KeyPage) : Bool := p.state == .live && p.usage == 1 && p.persist && !p.offloadOk

/-- CIP_KP_STATUS (R212): BUSY reads 1 while an ERASE waits for segments; every other command is done within its step. -/
def KeyPage.status (p : KeyPage) : Nat := p.state.code + b2n p.busy * 16 + p.err * 256 + p.gen * 65536
/-- DIG_KS_STATUS (R218). -/
def KeySlot.status (k : KeySlot) : Nat := k.state.code + b2n k.busy * 16 + k.err * 256 + k.gen * 65536

/-- A dropped key register write or key command is recorded (R213, R525). -/
def State.keyDrop (s : State) (unit addr v : Nat) : State := s.event 0x12 evcDropped 3 unit (evAddr 0 addr ++ evValue v)

/-- A page with its material zeroized. -/
def KeyPage.zero (p : KeyPage) : KeyPage := { p with key1 := [], key2 := [], salt := 0, next := 0, resEnd := 0, busy := false }
/-- A slot with its material zeroized. -/
def KeySlot.zero (k : KeySlot) : KeySlot := { k with key := [], inner := [], outer := [], busy := false }

/-! ### Offload jobs that end (08_compression.md R199, R204; R228, R229) -/

/-- An offload job ends with its reply; a failure is counted. Its work ends with it. -/
def State.endOff (s : State) (o : OffJob) (st : Nat) (result : Bytes) : State :=
  let s := { s with
    keys.offs := s.keys.offs.filter fun x => x.id != o.id
    red.jobs := s.red.jobs.filter fun j => j.why != JobWhy.offload o.id }
  let s := if st = stOk then s
    else s.bump (if o.opc = 0x64 then R.CIP_JOB_ERR_CNT else if o.opc = 0x65 then R.DIG_JOB_ERR_CNT else R.OFF_ERR_CNT)
  s.finish o.pkt st result []

/-- The key page of a cipher job packet, or the key slot of a digest job packet with HMAC. -/
def OffJob.key? (o : OffJob) : Option Nat :=
  if o.opc = 0x64 then some (leAt o.params 12 2)
  else if o.opc = 0x65 ∧ (leAt o.params 11 1).testBit 3 = true then some (leAt o.params 12 1)
  else none

/-- The key page that a job of the cipher engine works under, or the key slot of one of the digest engine. -/
def State.jobKey (s : State) (j : Job) : Option Nat :=
  match j.why with
  | .offload id => (findKey OffJob.id id s.keys.offs).bind OffJob.key?
  | .drain ent idx =>
    (s.drec? ent idx).bind fun r => if j.engine = 3 then some r.keyPage else (s.recDom r).map Domain.slot
  | .read id => ((s.ftl.reads.find? (·.id == id)).bind fun r => s.grain? r.sgn).map Grain.keyPage

/-- A segment under a key page (engine 3) or key slot (engine 2) has been dispatched and has not ended (R213). -/
def State.keyRuns (s : State) (engine key : Nat) : Bool :=
  s.red.jobs.any fun j => j.engine == engine && (j.core.isSome || j.lost.isSome) && s.jobKey j == some key

/-- The queued and saved streams of a page or slot that is erased end with KEY_ERASED (R213). -/
def State.eraseJobs (s : State) (engine key : Nat) : State :=
  let runs (o : OffJob) : Bool := s.red.jobs.any fun j => j.why == JobWhy.offload o.id && (j.core.isSome || j.lost.isSome)
  let js := s.keys.offs.filter fun o => o.opc == (if engine = 3 then 0x64 else 0x65) && o.key? == some key && !runs o
  js.foldl (fun s o => s.endOff o 0x070B []) s

/-! ### Carrying persistent keys (R216) -/

/-- The pool wrapping key, empty while none is held. -/
def State.pwk (s : State) : Bytes := s.keys.pwk.getD []

/-- Kinds of configuration record bodies that state a key (DESIGN CHOICE, log 20): page, page erased, slot, slot erased. -/
def cfgPage := 0xE6
/-- A page was erased. -/
def cfgPageGone := 0xE7
/-- A slot was committed. -/
def cfgSlot := 0xE8
/-- A slot was erased. -/
def cfgSlotGone := 0xE9
/-- A block of invocation values was reserved. -/
def cfgInvoc := 0xE5

/-- The configuration record of a persistent page: its settings and its material wrapped under the PWK. -/
def State.pageRecord (s : State) (p : KeyPage) : Bytes :=
  leBytes 1 cfgPage ++ leBytes 2 p.no ++ leBytes 1 p.cfg ++ leBytes 8 p.resEnd ++
    Config.keyWrap s.pwk (slice p.key1 0 32 ++ slice p.key2 0 32 ++ leBytes 4 p.salt)

/-- The configuration record of a persistent slot. -/
def State.slotRecord (s : State) (k : KeySlot) : Bytes :=
  leBytes 1 cfgSlot ++ leBytes 2 k.no ++ leBytes 1 k.cfg ++ leBytes 1 k.len ++
    Config.keyWrap s.pwk (slice k.inner 0 128 ++ slice k.outer 0 128)

/-- A persistent page is stored: in the pool configuration while a pool is loaded, else on the head (R216). -/
def State.storePage (s : State) (p : KeyPage) : State :=
  let s := { s with keys.pageStore := putKey KeyPage.no p s.keys.pageStore }
  if s.pool.loaded then s.placeCfg (s.pageRecord p) else s

/-- A persistent slot is stored. -/
def State.storeSlot (s : State) (k : KeySlot) : State :=
  let s := { s with keys.slotStore := putKey KeySlot.no k s.keys.slotStore }
  if s.pool.loaded then s.placeCfg (s.slotRecord k) else s

/-- The stored copy of a page is removed, and the erase is carried to the peer (R213, R216). -/
def State.unstorePage (s : State) (n : Nat) : State :=
  let s := { s with keys.pageStore := dropKey KeyPage.no n s.keys.pageStore }
  if s.pool.loaded then s.placeCfg (leBytes 1 cfgPageGone ++ leBytes 2 n) else s

/-- The stored copy of a slot is removed. -/
def State.unstoreSlot (s : State) (n : Nat) : State :=
  let s := { s with keys.slotStore := dropKey KeySlot.no n s.keys.slotStore }
  if s.pool.loaded then s.placeCfg (leBytes 1 cfgSlotGone ++ leBytes 2 n) else s

/-! ### Key page commands (R212, R213, R217) -/

/-- The size of a block of invocation values (R217). -/
def invocBlock : Nat := 2 ^ 20

/-- A refused COMMIT or GENERATE zeroizes the key and leaves the page EMPTY with its ERR (R213). -/
def State.refusePage (s : State) (p : KeyPage) (err : Nat) : State := s.putPage { p.zero with state := .empty, err := err }

/-- An accepted commit: KEY_GEN advances, NEXT is the first value of a fresh reservation, a persistent page is stored (R213). -/
def State.acceptPage (s : State) (p : KeyPage) : State :=
  let p := { p with state := .live, err := 0, gen := (p.gen + 1) % 65536, next := 0, resEnd := invocBlock }
  let s := s.putPage p
  if p.persist then s.storePage p else s

/-- A COMMIT of an EMPTY or LOADING page, checked in the order of R213. -/
def State.commitPage (s : State) (p : KeyPage) : State :=
  if p.state = .empty then s.refusePage p 5
  else if p.usage = 0 then s.refusePage p 2
  else if p.usage = 1 ∧ p.key1 = p.key2 then s.refusePage p 1
  else s.acceptPage p

/-- A write of CIP_KP_CFG is taken while the page is EMPTY or LOADING (R212). -/
def execKeyPageCfgWrite (page value : Nat) (s : State) : Host.Outcome State Fault Refusal :=
  .next <|
    let p := s.kpage page
    if page ≥ 4096 ∨ s.halted then s
    else if p.state = .empty ∨ p.state = .loading then s.putPage { p with cfg := Nat.land value 0xCF }
    else s.keyDrop 0x200003 (R.CIP_KP_CFG page).addr value

/-- A write of a key word (0 to 7 of KEY1, 8 to 15 of KEY2) or, as word 16, of the salt (R213). -/
def execKeyPageKeyWrite (page word value : Nat) (s : State) : Host.Outcome State Fault Refusal :=
  .next <|
    let p := s.kpage page
    let addr := if word = 16 then (R.CIP_KP_SALT page).addr else (R.CIP_KP_KEY page word).addr
    if page ≥ 4096 ∨ word > 16 ∨ s.halted then s
    else
      match p.state with
      | .empty | .loading =>
        let z := List.replicate 32 (0 : Byte)
        let p := if p.state = .empty then { p with key1 := z, key2 := z, salt := 0, state := .loading } else p
        let put (k : Bytes) (i : Nat) : Bytes := k.take (4 * i) ++ leBytes 4 value ++ k.drop (4 * i + 4)
        s.putPage (if word = 16 then { p with salt := value % 2 ^ 32 }
          else if word < 8 then { p with key1 := put p.key1 word } else { p with key2 := put p.key2 (word - 8) })
      | _ => s.keyDrop 0x200003 addr value

/-- CIP_KP_CMD COMMIT (R213). -/
def execKeyPageCommit (page : Nat) (s : State) : Host.Outcome State Fault Refusal :=
  .next <|
    let p := s.kpage page
    if page ≥ 4096 ∨ s.halted then s
    else if p.state = .empty ∨ p.state = .loading then s.commitPage p
    else s.keyDrop 0x200003 (R.CIP_KP_CMD page).addr 1

/-- CIP_KP_CMD GENERATE (R213, R210): K1 and K2 differ. Where the entropy source fails its tests nothing is created. (DESIGN CHOICE, log 77) -/
def execKeyPageGenerate (page : Nat) (entropyOk : Bool) (s : State) : Host.Outcome State Fault Refusal :=
  .next <|
    let p := s.kpage page
    if page ≥ 4096 ∨ s.halted then s
    else if p.state = .empty ∨ p.state = .loading then
      if p.usage = 0 then s.refusePage p 2
      else if !entropyOk then s
      else
        match s.drbgBytes 68 with
        | (b, s) =>
          let k1 := slice b 0 32
          let k2 := slice b 32 32
          let k2 := if k1 = k2 then k2.map (~~~ ·) else k2
          s.acceptPage { p with key1 := k1, key2 := k2, salt := if p.usage = 2 then leAt b 64 4 else p.salt }
    else s.keyDrop 0x200003 (R.CIP_KP_CMD page).addr 2

/-- The end of an ERASE: the material is zeroized, BUSY clears, the stored copy is removed (R213). -/
def State.wipePage (s : State) (p : KeyPage) : State :=
  let s := s.putPage { p.zero with state := .empty }
  if p.persist ∧ (s.keys.pageStore.any fun x => x.no == p.no) = true then s.unstorePage p.no else s

/-- A page is erased: queued and saved streams of it end, segments already dispatched finish while BUSY is set (R213). -/
def State.erasePage (s : State) (p : KeyPage) : State :=
  let s := if p.state = .live then s.eraseJobs 3 p.no else s
  if s.keyRuns 3 p.no then s.putPage { p with busy := true } else s.wipePage p

/-- CIP_KP_CMD ERASE (R213). -/
def execKeyPageErase (page : Nat) (s : State) : Host.Outcome State Fault Refusal :=
  .next <|
    let p := s.kpage page
    if page ≥ 4096 ∨ s.halted then s
    else if p.state = .live ∨ p.state = .erased then s.erasePage p
    else s.keyDrop 0x200003 (R.CIP_KP_CMD page).addr 3

/-! ### Key slot commands (R218, R219) -/

/-- The block size of a hash in bytes. -/
def hashBlock (h : Nat) : Nat := if h ≤ 1 then 64 else 128

/-- A slot with its inner and outer states prepared from a key, the key words zeroized (R219). -/
def KeySlot.prepare (k : KeySlot) (key : Bytes) : KeySlot :=
  let n := hashBlock k.hash
  let key := slice (if key.length > n then Config.sha2 k.hash key else key) 0 n
  { k with key := [], inner := key.map (· ^^^ 0x36), outer := key.map (· ^^^ 0x5C) }

/-- A refused COMMIT or GENERATE of a slot. -/
def State.refuseSlot (s : State) (k : KeySlot) (err : Nat) : State := s.putSlot { k.zero with state := .empty, err := err }

/-- An accepted commit of a slot with a key. -/
def State.acceptSlot (s : State) (k : KeySlot) (key : Bytes) : State :=
  let k := { k.prepare key with state := .live, err := 0, gen := (k.gen + 1) % 65536 }
  let s := s.putSlot k
  if k.persist then s.storeSlot k else s

/-- KEYLEN is 1 to 128. -/
def KeySlot.lenOk (k : KeySlot) : Bool := decide (1 ≤ k.len) && decide (k.len ≤ 128)

/-- A write of DIG_KS_CFG (word 32), DIG_KS_KEYLEN (word 33) or a key word (R218, R213). -/
def execKeySlotKeyWrite (slot word value : Nat) (s : State) : Host.Outcome State Fault Refusal :=
  .next <|
    let k := s.kslot slot
    let addr := if word = 32 then (R.DIG_KS_CFG slot).addr else if word = 33 then (R.DIG_KS_KEYLEN slot).addr
      else (R.DIG_KS_KEY slot word).addr
    if slot ≥ 256 ∨ word > 33 ∨ s.halted then s
    else
      match k.state with
      | .empty | .loading =>
        if word = 32 then s.putSlot { k with cfg := Nat.land value 0xC3 }
        else if word = 33 then s.putSlot { k with len := value % 256 }
        else
          let w := if k.state = .empty then List.replicate 128 (0 : Byte) else k.key
          s.putSlot { k with key := w.take (4 * word) ++ leBytes 4 value ++ w.drop (4 * word + 4), state := .loading }
      | _ => s.keyDrop 0x200002 addr value

/-- DIG_KS_CMD COMMIT (R219). -/
def execKeySlotCommit (slot : Nat) (s : State) : Host.Outcome State Fault Refusal :=
  .next <|
    let k := s.kslot slot
    if slot ≥ 256 ∨ s.halted then s
    else
      match k.state with
      | .empty => s.refuseSlot k 5
      | .loading => if k.lenOk then s.acceptSlot k (k.key.take k.len) else s.refuseSlot k 1
      | _ => s.keyDrop 0x200002 (R.DIG_KS_CMD slot).addr 1

/-- A key of KEYLEN bytes is created in a slot (R218, R210). -/
def State.generateSlot (s : State) (k : KeySlot) : State :=
  match s.drbgBytes k.len with
  | (b, s) => s.acceptSlot k b

/-- DIG_KS_CMD GENERATE (R218). -/
def execKeySlotGenerate (slot : Nat) (entropyOk : Bool) (s : State) : Host.Outcome State Fault Refusal :=
  .next <|
    let k := s.kslot slot
    if slot ≥ 256 ∨ s.halted then s
    else if k.state = .empty ∨ k.state = .loading then
      if !k.lenOk then s.refuseSlot k 1 else if !entropyOk then s else s.generateSlot k
    else s.keyDrop 0x200002 (R.DIG_KS_CMD slot).addr 2

/-- The end of an ERASE of a slot (R218). -/
def State.wipeSlot (s : State) (k : KeySlot) : State :=
  let s := s.putSlot { k.zero with state := .empty }
  if k.persist ∧ (s.keys.slotStore.any fun x => x.no == k.no) = true then s.unstoreSlot k.no else s

/-- A slot is erased, as a page is (R218). -/
def State.eraseSlot (s : State) (k : KeySlot) : State :=
  let s := if k.state = .live then s.eraseJobs 2 k.no else s
  if s.keyRuns 2 k.no then s.putSlot { k with busy := true } else s.wipeSlot k

/-- An ERASE goes on: streams that are queued now end, and a page or slot none of whose segments runs any more is zeroized (R213). -/
def State.goErase (s : State) : State :=
  let s := (s.keys.pages.filter KeyPage.busy).foldl (fun (s : State) p => s.erasePage p) s
  (s.keys.slots.filter KeySlot.busy).foldl (fun (s : State) k => s.eraseSlot k) s

/-- DIG_KS_CMD ERASE (R218). -/
def execKeySlotErase (slot : Nat) (s : State) : Host.Outcome State Fault Refusal :=
  .next <|
    let k := s.kslot slot
    if slot ≥ 256 ∨ s.halted then s
    else if k.state = .live ∨ k.state = .erased then s.eraseSlot k
    else s.keyDrop 0x200002 (R.DIG_KS_CMD slot).addr 3

/-- The next GCM invocation value of a page and the state after it is taken: where the reserved block is used up, the next unreserved block
is reserved and its end recorded first (R217). -/
def State.takeInvoc (s : State) (n : Nat) : Nat × State :=
  let p := s.kpage n
  if p.next < p.resEnd then (p.next, s.putPage { p with next := p.next + 1 })
  else
    let known := ((findKey KeyPage.no n s.keys.pageStore).map KeyPage.resEnd).getD 0
    let from_ := Nat.max p.resEnd known
    let q := { p with next := from_ + 1, resEnd := from_ + invocBlock }
    let s := s.putPage q
    let s := if p.persist then
        let s := { s with keys.pageStore := putKey KeyPage.no q s.keys.pageStore }
        if s.pool.loaded then s.placeCfg (leBytes 1 cfgInvoc ++ leBytes 2 n ++ leBytes 8 q.resEnd) else s
      else s
    (from_, s)

/-- A reservation of invocation values carried from the peer. (DESIGN CHOICE, log 78) -/
def State.carriedInvoc (s : State) (n end_ : Nat) : State :=
  { s with keys.pageStore := mapIf (fun (p : KeyPage) => p.no == n) (fun p => { p with resEnd := end_ }) s.keys.pageStore }

/-! ### Keys carried from the peer (R216) -/

/-- A persistent page carried from the peer: while this head made its own commit before it applied the other's, head 0's stands (R216). While the journals are rebuilt the later record counts. -/
def State.carriedPage (s : State) (b : Bytes) : State :=
  let p := s.kpage (leAt b 1 2)
  let m := (Config.keyUnwrap s.pwk (b.drop 12)).getD []
  let q : KeyPage :=
    { p with
      cfg := leAt b 3 1, state := .live, gen := (p.gen + 1) % 65536, key1 := slice m 0 32, key2 := slice m 32 32,
      salt := leAt m 64 4, next := leAt b 4 8, resEnd := leAt b 4 8, err := if p.state = .live then 3 else p.err }
  if p.state = .live ∧ s.role = 0 ∧ !s.brn.replaying then s
  else { s.putPage q with keys.pageStore := putKey KeyPage.no q s.keys.pageStore }

/-- A persistent slot carried from the peer. -/
def State.carriedSlot (s : State) (b : Bytes) : State :=
  let k := s.kslot (leAt b 1 2)
  let m := (Config.keyUnwrap s.pwk (b.drop 5)).getD []
  let cfg := leAt b 3 1
  let n := hashBlock (bits cfg 1 0)
  let q : KeySlot :=
    { k with
      cfg := cfg, len := leAt b 4 1, state := .live, gen := (k.gen + 1) % 65536, key := [], inner := slice m 0 n,
      outer := slice m 128 n, err := if k.state = .live then 3 else k.err }
  if k.state = .live ∧ s.role = 0 ∧ !s.brn.replaying then s
  else { s.putSlot q with keys.slotStore := putKey KeySlot.no q s.keys.slotStore }

/-- An erase of a page carried from the peer. -/
def State.carriedPageGone (s : State) (n : Nat) : State :=
  { s with keys.pageStore := dropKey KeyPage.no n s.keys.pageStore }.erasePage (s.kpage n)

/-- An erase of a slot carried from the peer. -/
def State.carriedSlotGone (s : State) (n : Nat) : State :=
  { s with keys.slotStore := dropKey KeySlot.no n s.keys.slotStore }.eraseSlot (s.kslot n)

/-! ### Alarms (R231-R233) -/

/-- A field access session ends (21_startup_security.md R500, R501). -/
def State.endSession (s : State) : State :=
  if s.boot.sessionOpen then
    let s := { s with boot.sessionOpen := false, boot.scope := 0 }
    { s with keys.asserted := putBits s.keys.asserted 4 4 0 }
  else s

/-- Every command ends without a completion, as for the loss of a head (15_pair_operation.md R379). -/
def State.dropAllIo (s : State) : State := (s.hq.cmds.map Cmd.id).foldl (fun (s : State) id => (s.discardCmd id).dropIo id) s

/-- A page under an alarm: any state but EMPTY becomes ERASED (R213). -/
def KeyPage.onAlarm (p : KeyPage) : KeyPage := if p.state = .empty then p.zero else { p.zero with state := .erased }
/-- A slot under an alarm. -/
def KeySlot.onAlarm (k : KeySlot) : KeySlot := if k.state = .empty then k.zero else { k.zero with state := .erased }
/-- A page that is still ERASED after RELOAD_KEYS ended OK is EMPTY (R213). -/
def KeyPage.afterReload (p : KeyPage) : KeyPage := if p.state = .erased then { p with state := .empty } else p
/-- The same for a slot. -/
def KeySlot.afterReload (k : KeySlot) : KeySlot := if k.state = .erased then { k with state := .empty } else k

/-- Keys are zeroized: every page, slot and resident context and the registers of R211 (R232). -/
def State.zeroize (s : State) : State :=
  let s := { s with
    keys.pages := s.keys.pages.map KeyPage.onAlarm
    keys.slots := s.keys.slots.map KeySlot.onAlarm
    keys.dk := false
    keys.dck := none
    keys.pwk := none
    keys.dumpKey := none }
  { s with keys.ctxs := s.keys.ctxs.filter EngCtx.saved, keys.erased := true }

/-- An alarm source asserts (R231-R233): work in the engines is abandoned, the alarm paths fire, every key is zeroized, offload jobs end
with KEY_ERASED, the head stops serving, a dump in progress stops. `own` marks the FORCED alarm of the opening of a session. -/
def State.raiseAlarm (s : State) (src : Nat) (own : Bool) : State :=
  let s := (s.bump R.CIP_ALARM_CNT).bump R.DIG_ALARM_CNT
  let s := s.wr R.CIP_ALARM (s.rd R.CIP_ALARM ||| BitVec.ofNat 64 (2 ^ src))
  let s := { s with keys.tamper := s.keys.tamper || src == 3, keys.wasSolo := s.pair.state == PairSt.solo }
  let s := { s with red.jobs := [] }
  let s := s.alarm 0 0x12 evcSecurity 0 (evValue (s.fld R.CIP_ALARM 4 0))
  let s := s.zeroize
  let s := s.keys.offs.foldl (fun (s : State) o => s.endOff o 0x070B []) s
  let s := s.dropAllIo
  let s := { s with pwr.dumping := false }
  if own then s else s.endSession

/-- ALARM_ASSERT (R231, R232): the condition of a source, numbered as in CIP_ALARM.SOURCES, begins to hold, or ceases. -/
def execAlarmAssert (source : Nat) (holds : Bool) (s : State) : Host.Outcome State Fault Refusal :=
  .next <|
    if source > 4 then s
    else if !holds then { s with keys.asserted := putBits s.keys.asserted source source 0 }
    else if s.keys.asserted.testBit source then s
    else { s with keys.asserted := putBits s.keys.asserted source source 1 }.raiseAlarm source false

/-- FORCED_ALARM (R231): a write of CIP_ALARM_CTL with CONFIRM 0x4B45 and FORCE 1 asserts FORCED for that write only. -/
def execForcedAlarm (value : Nat) (s : State) : Host.Outcome State Fault Refusal :=
  .next <| if bits value 31 16 = 0x4B45 ∧ value.testBit 0 = true ∧ !s.halted then s.raiseAlarm 4 false else s

/-! ### Reloading (R211, R234) -/

/-- A page loaded from its stored copy: it starts at the next unreserved block of invocation values, which is reserved and recorded when its first
value is taken (R217). -/
def KeyPage.reload (p : KeyPage) (gen : Nat) : KeyPage := { p with state := .live, gen := gen, next := p.resEnd, busy := false }

/-- The keys of the pool configuration are loaded into their pages and slots; those whose copy fails its unwrap are left as `bad` says
(R211, R234). -/
def State.loadKeys (s : State) (badPages badSlots : List Nat) : State :=
  let good := s.keys.pageStore.filter fun p => !badPages.contains p.no
  let loaded := good.map fun p => p.reload (s.kpage p.no).gen
  let s := loaded.foldl State.putPage s
  let s := { s with keys.pageStore := loaded ++ (s.keys.pageStore.filter (fun (p : KeyPage) => badPages.contains p.no)) }
  (s.keys.slotStore.filter (fun (k : KeySlot) => !badSlots.contains k.no)).foldl (fun (s : State) (k : KeySlot) =>
    s.putSlot { k with state := .live, gen := (s.kslot k.no).gen }) s

/-- The working keys: the DK derived, the PWK and the dump key unwrapped from system flash, a new DCK (R211, R234). -/
def State.loadWorking (s : State) : State :=
  match s.drbgBytes 32 with
  | (b, s) =>
    { s with
      keys.dk := true
      keys.dck := some b
      keys.pwk := s.keys.pwkStored.bind (Config.keyUnwrap Config.deviceKey)
      keys.dumpKey := s.keys.dumpStored.bind fun x => Config.keyUnwrap Config.deviceKey x.2 }

/-- RELOAD_KEYS (R234). The operands name the pages and slots whose stored copy fails its unwrap; where the entropy source fails its tests the new
DCK is not created, and nothing is loaded (R210). -/
def execReloadKeys (ring slot : Nat) (badPages badSlots : List Nat) (entropyOk : Bool) (s : State) : Host.Outcome State Fault Refusal :=
  .next <| s.packet 0x66 ring slot fun _ _ s =>
    if s.keys.asserted ≠ 0 then .done s 0x0707 (leBytes 4 0 ++ leBytes 4 s.keys.asserted) []
    else if s.keys.tamper then .fail s 0x0706
    else if !entropyOk then .fail s stUnitFailed
    else
      let bp := badPages.filter fun n => s.keys.pageStore.any fun p => p.no == n
      let bs := badSlots.filter fun n => s.keys.slotStore.any fun k => k.no == n
      let s := (s.loadWorking).loadKeys bp bs
      if bp = [] ∧ bs = [] then
        let s := { s with
          keys.pages := s.keys.pages.map KeyPage.afterReload
          keys.slots := s.keys.slots.map KeySlot.afterReload
          keys.erased := false }
        .done (if s.keys.wasSolo then s else { s with pair.autoRejoin := true }) stOk [] []
      else .done s 0x0702 (leBytes 4 0 ++ leBytes 4 ((bp ++ bs).headD 0)) []

end Sys2Proof.Machine
end

