-- ==== Sys2Proof/Machine/Streams.lean ====
section
/-! DEFINITION. Streams of compression and decompression jobs: check values, the zlib and gzip formats, and what a stream context carries
from job to job (08_compression.md R198, R199, R202). -/
namespace Sys2Proof.Machine

/-! ### Check values and formats (R198, R199) -/

/-- A running CRC-32 over more bytes; 0 before the first. -/
def crc32More (c : Nat) (bs : Bytes) : Nat := (bs.foldl (crcByte 0xEDB88320) (c ^^^ 0xFFFFFFFF)) ^^^ 0xFFFFFFFF

/-- A running Adler-32 over more bytes; 1 before the first (RFC 1950). -/
def adlerMore (v : Nat) (bs : Bytes) : Nat :=
  let p := bs.foldl (fun (p : Nat × Nat) x => let a := (p.1 + x.toNat) % 65521; (a, (p.2 + a) % 65521)) (v % 65536, v / 65536)
  p.1 + p.2 * 65536

/-- The check value of a format before the first byte, and over more bytes: Adler-32 for zlib, CRC-32 otherwise. -/
def checkStart (format : Nat) : Nat := if format = 1 then 1 else 0
/-- The running check value over more bytes. -/
def checkMore (format v : Nat) (bs : Bytes) : Nat := if format = 1 then adlerMore v bs else crc32More v bs

/-- The `n` big-endian bytes of `v`. -/
def beBytes (n v : Nat) : Bytes := (leBytes n v).reverse
/-- The number that big-endian bytes spell. -/
def beNat (bs : Bytes) : Nat := leNat bs.reverse

/-- The header that compression produces (R198). -/
def fmtHeader (format level : Nat) : Bytes :=
  match format with
  | 0 => []
  | 1 =>
    let flg := (level - 1) * 64
    [0x78, BitVec.ofNat 8 (flg + (31 - (0x78 * 256 + flg) % 31) % 31)]
  | _ => leBytes 4 0x00088B1F ++ leBytes 4 0 ++ leBytes 1 (if level = 1 then 4 else if level = 4 then 2 else 0) ++ [0xFF]

/-- The trailer that compression produces, and its length (R198). -/
def fmtTrailer (format check total : Nat) : Bytes :=
  match format with
  | 0 => []
  | 1 => beBytes 4 check
  | _ => leBytes 4 check ++ leBytes 4 total

/-! ### Headers (R198) -/

/-- A zlib or gzip header as far as it has been read: its bytes, the part that is read (gzip: 0 the fixed bytes, 1 XLEN, 2 the extra field, 3 the
name, 4 the comment, 5 FHCRC; zlib: 0 CMF and FLG, 7 DICTID), a count and a value of the part, FLG, and the CRC-32 of its bytes. Part 6 is the
end. -/
structure HdrState where
  off : Nat
  part : Nat
  count : Nat
  acc : Nat
  flg : Nat
  crc : Nat
  deriving DecidableEq, Repr

/-- A header of a format before its first byte; a raw stream has none. -/
def HdrState.start (format : Nat) : HdrState := ⟨0, if format = 0 then 6 else 0, 0, 0, 0, 0⟩

/-- What a header answers: it goes on, it ends before the bytes that are left, it is rejected at a byte offset, it asks for a dictionary. -/
inductive HdrRes | more (h : HdrState) | used (rest : Bytes) | invalid (off : Nat) | dict (id : Nat)
  deriving DecidableEq, Repr

/-- The part of a gzip header that follows a finished one, by its flags. -/
def HdrState.after (h : HdrState) (part : Nat) : Nat :=
  if part < 2 ∧ h.flg.testBit 2 then 1
  else if part < 3 ∧ h.flg.testBit 3 then 3
  else if part < 4 ∧ h.flg.testBit 4 then 4
  else if part < 5 ∧ h.flg.testBit 1 then 5
  else 6

/-- A byte more of a gzip header, or the offset at which it is rejected (R198). -/
def HdrState.gzip (h : HdrState) (b : Byte) : Except Nat HdrState :=
  let v := b.toNat
  let n := { h with off := h.off + 1, crc := crc32More h.crc [b] }
  match h.part with
  | 0 =>
    if (h.off = 0 ∧ v ≠ 0x1F) ∨ (h.off = 1 ∧ v ≠ 0x8B) ∨ (h.off = 2 ∧ v ≠ 8) ∨ (h.off = 3 ∧ v ≥ 32) then .error h.off
    else if h.off = 3 then .ok { n with flg := v }
    else if h.off < 9 then .ok n
    else .ok { n with part := n.after 0 }
  | 1 =>
    if h.count = 0 then .ok { n with count := 1, acc := v }
    else
      let len := h.acc + 256 * v
      .ok { n with count := len, part := if len = 0 then n.after 2 else 2 }
  | 2 => .ok { n with count := h.count - 1, part := if h.count ≤ 1 then n.after 2 else 2 }
  | 5 =>
    if h.count ≠ 1000000 then .ok { h with off := h.off + 1, count := 1000000, acc := v }
    else if h.acc + 256 * v = h.crc % 65536 then .ok { h with off := h.off + 1, part := 6 }
    else .error (h.off - 1)
  | p => .ok { n with part := if v = 0 then n.after p else p }

/-- A byte more of a zlib header: the header after it, rejected at an offset, or the dictionary it asks for (R198, R204). -/
def HdrState.zlib (h : HdrState) (b : Byte) : Except (Nat × Option Nat) HdrState :=
  let v := b.toNat
  let n := { h with off := h.off + 1, acc := h.acc * 256 + v }
  if h.part = 7 then (if h.off < 5 then .ok n else .error (0, some (n.acc % 2 ^ 32)))
  else if h.off = 0 then (if v % 16 ≠ 8 ∨ v / 16 > 7 then .error (0, none) else .ok n)
  else if n.acc % 31 ≠ 0 then .error (1, none)
  else if v.testBit 5 then .ok { n with part := 7, acc := 0 }
  else .ok { n with part := 6 }

/-- A header over more bytes. -/
def hdrRun (format : Nat) : HdrState → Bytes → HdrRes
  | h, [] => if h.part = 6 then .used [] else .more h
  | h, b :: t =>
    if h.part = 6 then .used (b :: t)
    else if format = 1 then
      match h.zlib b with
      | .ok n => hdrRun format n t
      | .error (off, none) => .invalid off
      | .error (_, some id) => .dict id
    else
      match h.gzip b with
      | .ok n => hdrRun format n t
      | .error off => .invalid off

/-! ### The body of a stream context (R202: it is opaque; its layout is the model's, DESIGN CHOICE, log 134) -/

/-- The area that the body fills. -/
def bodyBytes : Nat := 69568

/-- Which positions of a window were inserted, oldest first, as bits: two inserted ones, one and a run of at least three others, or such a run. The
finder leaves no shorter run but at the front. `n` bounds the items. -/
def flagCode : Nat → List Bool → List Bool
  | 0, _ => []
  | _, [] => []
  | n + 1, true :: true :: t => false :: flagCode n t
  | n + 1, true :: t =>
    let z := (t.takeWhile (!·)).length
    true :: false :: (List.replicate (z - 3) true ++ false :: flagCode n (t.drop z))
  | n + 1, false :: t =>
    let z := (t.takeWhile (!·)).length + 1
    true :: true :: (List.replicate (z - 3) true ++ false :: flagCode n ((false :: t).drop z))

/-- The positions that such bits say, `left` of them; `n` bounds the items. -/
def flagRead : Nat → Nat → List Bool → List Bool
  | 0, _, _ => []
  | n + 1, left, bs =>
    if left = 0 then []
    else
      match bs with
      | false :: t => true :: true :: flagRead n (left - 2) t
      | true :: b :: t =>
        let m := (t.takeWhile id).length
        let run := (if b then [] else [true]) ++ List.replicate (m + 3) false
        run ++ flagRead n (left - run.length) (t.drop (m + 1))
      | _ => []

/-- The body of a compression context: window, carried input, inserted positions. -/
def EncState.body (e : EncState) : Bytes :=
  let old := e.past.reverse
  let flags := old.map Prod.snd
  let lead := (flags.takeWhile (!·)).length
  slice (leBytes 4 old.length ++ leBytes 4 lead ++ slice (old.map Prod.fst) 0 32768 ++ slice e.carry 0 32767 ++
    packBits (flagCode flags.length (flags.drop lead))) 0 bodyBytes

/-- The encoder of a body, with the carry and the pending bits of its header. -/
def encOf (body : Bytes) (carry pend val : Nat) : EncState :=
  let n := leAt body 0 4
  let lead := leAt body 4 4
  let flags := List.replicate lead false ++ flagRead n (n - lead) (byteBits (body.drop 65543))
  { past := ((slice body 8 n).zip flags).reverse, carry := slice body 32776 carry, bits := bitsOf pend val }

/-- A decompression stream between jobs: its header, its decoder, bits that are not decoded yet, and what has come of its trailer. -/
structure DecState where
  hdr : HdrState
  inf : InfState
  bits : List Bool
  trail : Bytes
  deriving DecidableEq, Repr

/-- A stream of a format at its start. -/
def DecState.start (format : Nat) : DecState := ⟨HdrState.start format, InfState.start, [], []⟩

/-- The tag of where a decoder stands. -/
def InfMode.code : InfMode → Nat
  | .header => 0
  | .stored _ => 1
  | .codes _ _ => 2
  | .ended => 3

/-- The body of a decompression context. -/
def DecState.body (d : DecState) : Bytes :=
  let c := match d.inf.mode with
    | .codes lit dist => (lit, dist)
    | _ => ([], [])
  let left := match d.inf.mode with
    | .stored n => n
    | _ => 0
  let nat (n : Nat) : Byte := BitVec.ofNat 8 n
  slice (leBytes 8 d.hdr.off ++ leBytes 1 d.hdr.part ++ leBytes 4 d.hdr.count ++ leBytes 4 d.hdr.acc ++ leBytes 1 d.hdr.flg ++
    leBytes 4 d.hdr.crc ++ leBytes 1 d.trail.length ++ slice d.trail 0 8 ++ leBytes 1 d.inf.mode.code ++ leBytes 1 (b2n d.inf.last) ++
    leBytes 2 left ++ slice (c.1.map nat) 0 288 ++ slice (c.2.map nat) 0 32 ++ leBytes 2 d.inf.len ++ leBytes 2 d.inf.dist ++
    leBytes 2 d.bits.length ++ slice (packBits d.bits) 0 1024 ++ leBytes 4 d.inf.win.length ++ slice d.inf.win 0 32768) 0 bodyBytes

/-- The stream of a body. -/
def decOf (b : Bytes) : DecState :=
  let lens (off n : Nat) : List Nat := (slice b off n).map BitVec.toNat
  let mode : InfMode := match leAt b 31 1 with
    | 0 => .header
    | 1 => .stored (leAt b 33 2)
    | 2 => .codes (lens 35 288) (lens 323 32)
    | _ => .ended
  { hdr := ⟨leAt b 0 8, leAt b 8 1, leAt b 9 4, leAt b 13 4, leAt b 17 1, leAt b 18 4⟩
    inf := ⟨mode, leAt b 32 1 == 1, slice b 1389 (leAt b 1385 4), leAt b 355 2, leAt b 357 2⟩
    bits := (byteBits (slice b 361 1024)).take (leAt b 359 2)
    trail := slice b 23 (leAt b 22 1) }

/-- What a stream does with the input of a job: the stream after it, the bytes put out, the bytes of input left, the violation and its bit, whether
the output was full, and whether the DEFLATE stream and its trailer have come. -/
structure DecRun where
  st : DecState
  out : Bytes
  left : Nat
  fault : Nat
  bitOff : Nat
  full : Bool
  whole : Bool
  deriving DecidableEq, Repr

/-- A stream past its header over the input of a job from byte `skip` of it on: the DEFLATE stream, then the bytes of the trailer (R198). -/
def DecState.run (d : DecState) (format cap skip : Nat) (src : Bytes) : DecRun :=
  let r := d.inf.run cap (d.bits ++ byteBits src)
  let at_ := 8 * (skip + src.length) - r.rest.length
  if r.fault ≠ 0 then ⟨{ d with inf := r.st }, r.out.reverse, 0, r.fault, at_, false, false⟩
  else if r.st.mode = .ended then
    let n := Nat.min src.length (r.rest.length / 8)
    let want := (fmtTrailer format 0 0).length - d.trail.length
    let trail := d.trail ++ (src.drop (src.length - n)).take want
    ⟨{ d with inf := r.st, bits := [], trail := trail }, r.out.reverse, n - want, 0, 0, false, decide (want ≤ n)⟩
  else if r.full then
    ⟨{ d with inf := r.st, bits := r.rest.take (r.rest.length % 8) }, r.out.reverse, r.rest.length / 8, 0, 0, true, false⟩
  else ⟨{ d with inf := r.st, bits := r.rest }, r.out.reverse, 0, 0, 0, false, false⟩

end Sys2Proof.Machine
end

