-- ==== Sys2Proof/Machine/Offload.lean ====
section
/-! DEFINITION. Offload jobs of the compression, cipher and digest engines (08_compression.md R197-R205; 09_cipher_digest.md
R214-R229). -/
namespace Sys2Proof.Machine

/-! ### Starting a job -/

/-- Two address ranges overlap. -/
def overlaps (a b : Nat × Nat) : Bool := decide (a.1 < b.1 + b.2) && decide (b.1 < a.1 + a.2)

/-- Some two of the ranges overlap. -/
def anyOverlap : List (Nat × Nat) → Bool
  | [] => false
  | r :: rs => rs.any (overlaps r) || anyOverlap rs

/-- The context address of a job, 0 where it has none. -/
def OffJob.ctxAddr (o : OffJob) : Nat :=
  if o.opc = 0x64 then leAt o.params 56 8 else leAt o.params 40 8

/-- USE_CTX of a job. -/
def OffJob.useCtx (o : OffJob) : Bool :=
  if o.opc = 0x68 ∨ o.opc = 0x69 then (leAt o.params 14 1).testBit 1 else (leAt o.params 11 1).testBit 2

/-- FIRST of a job. -/
def OffJob.first (o : OffJob) : Bool :=
  if o.opc = 0x68 ∨ o.opc = 0x69 then (leAt o.params 14 1).testBit 0 else (leAt o.params 11 1).testBit 0

/-- LAST of a cipher or digest job. -/
def OffJob.last (o : OffJob) : Bool := (leAt o.params 11 1).testBit 1

/-- A context is held by a job in flight (R203). -/
def State.ctxHeld (s : State) (addr : Nat) : Bool := s.keys.offs.any fun o => o.useCtx && o.ctxAddr == addr

/-- The engine of an offload opcode (R23). -/
def offEngine (opc : Nat) : Nat := if opc = 0x68 then 0 else if opc = 0x69 then 1 else if opc = 0x65 then 2 else 3

/-- The generation an offload stream starts with: the one in force, the highest one while no pool is loaded (DESIGN CHOICE, log 22). -/
def State.offGen (s : State) : Nat := if s.pool.loaded then s.own.gen else 3

/-- A job is accepted: it runs as segments of its engine; its reply comes at its end (R205, R220). -/
def State.startOff (s : State) (o : OffJob) (segs : Nat) : State :=
  let o := { o with id := s.keys.nextOff }
  let s := { s with keys.offs := s.keys.offs ++ [o], keys.nextOff := o.id + 1 }
  s.startSegs (offEngine o.opc) (.offload o.id) o.src (Nat.max 1 segs) (if o.useCtx then o.ctxAddr else 0)

/-- An offload job refused at its start with a status and the DETAIL of R204 (offset 24) or R229 (offset 12). -/
def PktRes.refuse (s : State) (opc st detail : Nat) : PktRes :=
  let s := if st < 0x600 then s
    else s.bump (if opc = 0x64 then R.CIP_JOB_ERR_CNT else if opc = 0x65 then R.DIG_JOB_ERR_CNT else R.OFF_ERR_CNT)
  .done s st (if opc = 0x64 ∨ opc = 0x65 then leBytes 4 0 ++ leBytes 4 detail else leBytes 16 0 ++ leBytes 4 detail) []

/-- A head whose keys are erased takes no offload work (R233): BUSY (DESIGN CHOICE, log 21). -/
def State.offBlocked (s : State) : Bool := s.keys.erased

/-! ### Compression and decompression (R197-R204) -/

/-- The static rules of R197. -/
def cmpFieldsOk (e : Entry) (comp : Bool) : Bool :=
  let flags := e.num 14 1
  let use := flags.testBit 1
  let ranges := [(e.num 16 8, e.num 24 4), (e.num 28 8, e.num 36 4)] ++ (if use then [(e.num 40 8, 69632)] else [])
  decide (e.num 10 1 ≤ 2) && decide (flags < 4) && e.zero 15 1 && decide (e.num 24 4 ≤ 16777216) &&
    decide (64 ≤ e.num 36 4) && decide (e.num 36 4 ≤ 16842752) && decide (e.num 40 8 % 4096 = 0) &&
    (use || e.zero 40 8) && (use || flags.testBit 0) &&
    (if comp then decide (e.num 11 1 ≤ 1) && decide (1 ≤ e.num 12 1) && decide (e.num 12 1 ≤ 4) && decide (e.num 13 1 ≤ 3) &&
        (use || e.num 13 1 == 3)
      else e.zero 11 3) &&
    !anyOverlap (ranges.filter fun r => r.2 != 0)

/-- A stream context that does not fit the job (R202). GEN is checked to be one that the engine handles (DEDUCED, log 23). -/
def cmpCtxBad (e : Entry) (comp : Bool) (ctx : Bytes) : Bool :=
  leAt ctx 60 4 != crc32c (slice ctx 0 60) || leAt ctx 56 4 != crc32c (slice ctx 64 69568) ||
    leAt ctx 4 1 != b2n (!comp) || leAt ctx 5 1 != e.num 10 1 || leAt ctx 6 1 != e.num 11 1 || leAt ctx 7 1 != e.num 12 1 ||
    decide (leAt ctx 8 1 > 3) || decide (leAt ctx 8 1 < (if comp then 2 else 1)) || leAt ctx 9 1 == 1

/-- The result fields of R199. -/
def cmpResult (outLen inUsed check total detail : Nat) : Bytes :=
  leBytes 4 outLen ++ leBytes 4 inUsed ++ leBytes 4 check ++ leBytes 4 total ++ leBytes 4 detail

/-- The 64-byte header of a stream context (R202). -/
def cmpCtxHeader (kind format mode level gen state carry tin tout check : Nat) (pend : Nat × Nat) (body : Bytes) : Bytes :=
  let h := leBytes 4 0x434D5043 ++ leBytes 1 kind ++ leBytes 1 format ++ leBytes 1 mode ++ leBytes 1 level ++ leBytes 1 gen ++
    leBytes 1 state ++ leBytes 2 0 ++ leBytes 4 carry ++ leBytes 8 tin ++ leBytes 8 tout ++ leBytes 4 check ++
    leBytes 1 (pend.1 % 8) ++ leBytes 1 pend.2 ++ leBytes 18 0 ++ leBytes 4 (crc32c body)
  h ++ leBytes 4 (crc32c h)

/-- The context of a job as it stood: bytes in and out so far, check value, carry, generation, encoder or decoder state. -/
structure CmpCtx where
  tin : Nat
  tout : Nat
  check : Nat
  carry : Nat
  gen : Nat
  body : Bytes

/-- The context a job starts from (R202): fresh for a FIRST job. -/
def State.cmpCtx (s : State) (o : OffJob) : CmpCtx :=
  if o.first then ⟨0, 0, checkStart (leAt o.params 10 1), 0, s.offGen, []⟩
  else ⟨leAt o.ctx 16 8, leAt o.ctx 24 8, leAt o.ctx 32 4, leAt o.ctx 12 4, leAt o.ctx 8 1, slice o.ctx 64 69568⟩

/-- A context is written, body first, header last (R202). -/
def State.writeCtx (s : State) (addr : Nat) (header body : Bytes) : State :=
  (s.emit (.hostWrite (addr + 64) body)).emit (.hostWrite addr header)

/-- The encoder a compress job starts from (R202). -/
def CmpCtx.enc (c : CmpCtx) (o : OffJob) : EncState :=
  if o.first then EncState.start else encOf c.body c.carry (leAt o.ctx 36 1) (leAt o.ctx 37 1)

/-- A compress job ends (R198-R204). -/
def State.compressDone (s : State) (o : OffJob) : State :=
  let p := o.params
  let format := leAt p 10 1
  let level := leAt p 12 1
  let flush := leAt p 13 1
  let c := s.cmpCtx o
  match ((c.enc o).job c.gen level (leAt p 11 1) flush o.src).emitted flush with
  | (out, e) =>
    let check := checkMore format c.check o.src
    let tin := c.tin + o.src.length
    let out := (if o.first then fmtHeader format level else []) ++ out ++ (if flush = 3 then fmtTrailer format check tin else [])
    if out.length > leAt p 36 4 then s.endOff o 0x0605 (cmpResult 0 0 0 0 out.length)
    else
      let s := s.emit (.hostWrite (leAt p 28 8) out)
      let s := if o.useCtx then
          s.writeCtx o.ctxAddr (cmpCtxHeader 0 format (leAt p 11 1) level c.gen (b2n (flush == 3)) e.carry.length tin
            (c.tout + out.length) check (e.bits.length, bitsNat e.bits) e.body) e.body
        else s
      (s.bump R.OFF_CJOB_CNT).endOff o stOk (cmpResult out.length o.src.length check tin 0)

/-- A decompress job ends with what its stream did: its output, its trailer once it is whole, its context (R198, R202, R204). -/
def State.inflateDone (s : State) (o : OffJob) (r : DecRun) : State :=
  let p := o.params
  let format := leAt p 10 1
  let c := s.cmpCtx o
  let check := checkMore format c.check r.out
  let tout := c.tout + r.out.length
  let used := o.src.length - r.left
  let done (s : State) (detail : Nat) : State :=
    let s := s.emit (.hostWrite (leAt p 28 8) r.out)
    let s := if o.useCtx then
        s.writeCtx o.ctxAddr (cmpCtxHeader 1 format 0 0 c.gen (b2n r.whole) 0 (c.tin + used) tout check (0, 0) r.st.body) r.st.body
      else s
    (s.bump R.OFF_DJOB_CNT).endOff o stOk (cmpResult r.out.length used check tout detail)
  let fail (st detail : Nat) : State := s.endOff o st (cmpResult 0 0 0 0 detail)
  if r.fault ≠ 0 then fail 0x0602 (r.bitOff * 256 + r.fault)
  else if r.whole then
    if format = 1 ∧ beNat r.st.trail ≠ check then fail 0x0603 check
    else if format = 2 ∧ leAt r.st.trail 0 4 ≠ check then fail 0x0603 check
    else if format = 2 ∧ leAt r.st.trail 4 4 ≠ tout % 2 ^ 32 then fail 0x0604 (tout % 2 ^ 32)
    else done s (1 + 2 * b2n (decide (r.left > 0)))
  else if o.useCtx then done s (4 * b2n r.full)
  else if r.full then fail 0x0605 r.out.length
  else fail 0x0606 0

/-- A decompress job ends: the header as far as it is still to come, then the stream (R198). The byte offset of a rejected header counts from the
start of the stream, and the bit offset of a violation names the start of the block header or symbol that breaks the rule (DESIGN CHOICE,
log 134). -/
def State.decompressDone (s : State) (o : OffJob) : State :=
  let format := leAt o.params 10 1
  let d := if o.first then DecState.start format else decOf (s.cmpCtx o).body
  match hdrRun format d.hdr o.src with
  | .used rest =>
    let skip := o.src.length - rest.length
    s.inflateDone o ({ d with hdr := { d.hdr with part := 6 } }.run format (leAt o.params 36 4) skip rest)
  | .more h => s.inflateDone o ⟨{ d with hdr := h }, [], 0, 0, 0, false, false⟩
  | .invalid off => s.endOff o 0x0607 (cmpResult 0 0 0 0 off)
  | .dict id => s.endOff o 0x0608 (cmpResult 0 0 0 0 id)

/-- A compress or decompress job packet (R197, R202-R205). The operands are the input and the context area as host memory holds
them. The order of the checks is the model's (DESIGN CHOICE, log 140). -/
def State.cmpJob (s : State) (comp : Bool) (src ctx : Bytes) (e : Entry) (p : PktRef) : PktRes :=
  let opc := e.opcode
  let use := (e.num 14 1).testBit 1
  let o : OffJob :=
    { id := 0, pkt := p, opc := opc, params := e.bytes, src := slice src 0 (e.num 24 4), aad := [], ctx := slice ctx 0 69632,
      keyGen := 0, invoc := 0 }
  if !cmpFieldsOk e comp then .fail s stInvalidField
  else if s.fld R.CMP_CFG 0 0 = 0 then .refuse s opc 0x060A 0
  else if s.coresUp (offEngine opc) = [] then .fail s stUnitFailed
  else if s.offBlocked ∨ (use ∧ s.ctxHeld (e.num 40 8)) then .fail s stBusy
  else if use ∧ !o.first ∧ cmpCtxBad e comp o.ctx then .refuse s opc 0x0609 0
  else
    let segs := if comp then ceilDiv o.src.length (if e.num 12 1 = 4 then 8192 else 16384) else ceilDiv (e.num 36 4) 32768
    .quiet (s.startOff o segs)

/-- COMPRESS_JOB (R197). -/
def execCompressJob (ring slot : Nat) (src ctx : Bytes) (s : State) : Host.Outcome State Fault Refusal :=
  .next <| s.packet 0x68 ring slot fun e p s => s.cmpJob true src ctx e p

/-- DECOMPRESS_JOB (R197). -/
def execDecompressJob (ring slot : Nat) (src ctx : Bytes) (s : State) : Host.Outcome State Fault Refusal :=
  .next <| s.packet 0x69 ring slot fun e p s => s.cmpJob false src ctx e p

/-! ### Cipher and digest jobs (R225-R229) -/

/-- The result fields of R228. -/
def engResult (outLen detail invoc total : Nat) : Bytes := leBytes 4 outLen ++ leBytes 4 detail ++ leBytes 8 invoc ++ leBytes 8 total

/-- A stream context header (R227). -/
def engCtxHeader (kind alg ref gen state total : Nat) : Bytes :=
  let h := leBytes 4 0x4B435458 ++ leBytes 1 kind ++ leBytes 1 alg ++ leBytes 2 ref ++ leBytes 2 gen ++ leBytes 1 state ++
    leBytes 5 0 ++ leBytes 8 total ++ leBytes 36 0
  h ++ leBytes 4 (crc32c h)

/-- The context key. -/
def State.dck (s : State) : Bytes := s.keys.dck.getD []

/-- A context that does not fit the job (R227). -/
def engCtxBad (kind alg ref gen : Nat) (ctx : Bytes) : Bool :=
  leAt ctx 60 4 != crc32c (slice ctx 0 60) || leAt ctx 0 4 != 0x4B435458 || leAt ctx 4 1 != kind || leAt ctx 5 1 != alg ||
    leAt ctx 6 2 != ref || leAt ctx 10 1 == 1 || leAt ctx 8 2 != gen

/-- The engine state that a context body unwraps to (R223). -/
def State.engState (s : State) (o : OffJob) : Option Bytes := Config.keyUnwrap s.dck (slice o.ctx 64 448)

/-- Stream bytes before a job. -/
def OffJob.total (o : OffJob) : Nat := if o.first then 0 else leAt o.ctx 16 8

/-- The static rules of R226. -/
def cipherFieldsOk (e : Entry) : Bool :=
  let op := e.num 10 1
  let fl := e.num 11 1
  let first := fl.testBit 0
  let last := fl.testBit 1
  let use := fl.testBit 2
  let gcm := decide (op ≥ 2)
  let len := e.num 24 4
  let srcR := (e.num 16 8, len + (if op = 3 ∧ last then 16 else 0))
  let dstR := (e.num 28 8, len + (if op = 2 ∧ last then 16 else 0))
  let other := [(e.num 44 8, e.num 52 2)] ++ (if use then [(e.num 56 8, 512)] else [])
  decide (op ≤ 3) && decide (fl < 8) && decide (e.num 12 2 < 4096) && e.zero 14 2 && decide (len ≤ 16777216) &&
    (decide (len % 16 = 0) || (gcm && last)) && ((first && (!gcm || op == 3)) || e.zero 36 8) &&
    ((gcm && first) || e.zero 44 10) && e.zero 54 2 && decide (e.num 56 8 % 64 = 0) && (use || e.zero 56 8) &&
    (use || (first && last)) &&
    !anyOverlap ((srcR :: other).filter fun r => r.2 != 0) && !anyOverlap ((dstR :: other).filter fun r => r.2 != 0) &&
    (srcR.1 == dstR.1 || !anyOverlap ([srcR, dstR].filter fun r => r.2 != 0))

/-- The static rules of R227. -/
def digestFieldsOk (e : Entry) : Bool :=
  let fl := e.num 11 1
  let use := fl.testBit 2
  let ranges := [(e.num 16 8, e.num 24 4)] ++ (if fl.testBit 1 then [(e.num 32 8, 64)] else []) ++
    (if use then [(e.num 40 8, 512)] else [])
  decide (e.num 10 1 ≤ 3) && decide (fl < 16) && (fl.testBit 3 || e.zero 12 1) && e.zero 13 3 &&
    decide (e.num 24 4 ≤ 16777216) && e.zero 28 4 && decide (e.num 40 8 % 64 = 0) && (use || e.zero 40 8) &&
    (use || (fl.testBit 0 && fl.testBit 1)) && !anyOverlap (ranges.filter fun r => r.2 != 0)

/-- A context is written back under the DCK, or the stream is closed (R227). -/
def State.writeEng (s : State) (o : OffJob) (kind alg ref total : Nat) (state : Bytes) : State :=
  if o.useCtx then
    s.writeCtx o.ctxAddr (engCtxHeader kind alg ref o.keyGen (b2n o.last) total) (slice (Config.keyWrap s.dck state) 0 448)
  else s

/-- A cipher job ends (R226, R228, R229). An XTS or GCM stream over several jobs continues at its byte count, since both modes
transform each block by its place in the stream. -/
def State.cipherDone (s : State) (o : OffJob) : State :=
  let p := o.params
  let op := leAt p 10 1
  let page := leAt p 12 2
  let k := s.kpage page
  let len := leAt p 24 4
  let before := o.total
  let total := before + len
  let pad := List.replicate before (0 : Byte)
  match if o.first then some [] else s.engState o with
  | none => s.endOff o 0x0708 (engResult 0 0 0 0)
  | some st =>
    if op ≤ 1 then
      let unit := if o.first then leAt p 36 8 else leAt st 0 8
      let key := k.key1 ++ k.key2
      let out := if op = 0 then (Config.xtsEncrypt key unit (pad ++ o.src)).drop before
        else (Config.xtsDecrypt key unit (pad ++ o.src)).drop before
      if o.last ∧ total < 16 then s.endOff o stInvalidField []
      else
        let s := (s.emit (.hostWrite (leAt p 28 8) (slice out 0 len))).writeEng o 0 op page total (leBytes 8 unit)
        s.endOff o stOk (engResult len 0 0 total)
    else
      let iv := if o.first then leBytes 4 k.salt ++ (if op = 2 then beBytes 8 o.invoc else slice p 36 8) else slice st 0 12
      let text := o.src.take len
      let gcm := fun (b : Bytes) => if op = 2 then Config.gcmEncrypt k.key1 iv o.aad b else Config.gcmDecrypt k.key1 iv o.aad b
      let out := slice ((gcm (pad ++ text)).drop before) 0 len
      let cipher := if op = 2 then out else text
      let hash := Config.absorb 4 (if o.first then Config.absorb 4 (k.key1 ++ iv) o.aad else st.drop 12) cipher
      let tag := slice (if o.first && o.last then Config.gcmTag k.key1 iv o.aad cipher else Config.absorbEnd 4 hash) 0 16
      if op = 3 ∧ o.last ∧ slice o.src len 16 ≠ tag then
        (s.bump R.CIP_AUTH_FAIL_CNT).endOff o 0x0703 (engResult 0 0 0 0)
      else
        let outT := if op = 2 && o.last then out ++ tag else out
        let s := (s.emit (.hostWrite (leAt p 28 8) outT)).writeEng o 0 op page total (iv ++ hash)
        s.endOff o stOk (engResult outT.length 0 (if op = 2 ∧ o.first then o.invoc else 0) total)

/-- A digest job ends (R225, R227, R228). -/
def State.digestDone (s : State) (o : OffJob) : State :=
  let p := o.params
  let h := leAt p 10 1
  let mac := (leAt p 11 1).testBit 3
  let k := s.kslot (leAt p 12 1)
  let total := o.total + leAt p 24 4
  match if o.first then some [] else s.engState o with
  | none => (s.bump R.DIG_AUTH_FAIL_CNT).endOff o 0x0708 (engResult 0 0 0 0)
  | some st =>
    if h ≤ 1 ∧ total ≥ 2 ^ 61 then s.endOff o 0x0709 (engResult 0 0 0 0)
    else
      let st := if o.first ∧ mac then Config.absorb h [] k.inner else st
      let st := Config.absorb h st o.src
      let out :=
        if o.first && o.last then (if mac then k.hmac h o.src else Config.sha2 h o.src)
        else if mac then Config.sha2 h (k.outer ++ Config.absorbEnd h st) else Config.absorbEnd h st
      let out := if o.last then slice out 0 (Config.digestLen h) else []
      let s := if o.last then s.emit (.hostWrite (leAt p 32 8) out) else s
      let s := s.writeEng o 1 (h + 128 * b2n mac) (if mac then leAt p 12 1 else 0) total st
      s.endOff o stOk (engResult out.length 0 0 total)

/-- CIPHER_JOB (R226; the message limits of R208). The operands are the input, the additional data and the context area as host memory holds
them. The order of the checks, and KEY_ERASED for a job that names a key whose ERASE is in progress, are the model's (DESIGN CHOICE, log 140). -/
def execCipherJob (ring slot : Nat) (src aad ctx : Bytes) (s : State) : Host.Outcome State Fault Refusal :=
  .next <| s.packet 0x64 ring slot fun e p s =>
    let op := e.num 10 1
    let page := e.num 12 2
    let k := s.kpage page
    let use := (e.num 11 1).testBit 2
    let o : OffJob :=
      { id := 0, pkt := p, opc := 0x64, params := e.bytes, src := slice src 0 (e.num 24 4 + 16),
        aad := slice aad 0 (e.num 52 2), ctx := slice ctx 0 512, keyGen := k.gen, invoc := 0 }
    let o := { o with src := if op = 3 ∧ o.last then o.src else o.src.take (e.num 24 4) }
    let total := o.total + e.num 24 4
    if !cipherFieldsOk e then .fail s stInvalidField
    else if s.fld R.CIP_CFG 0 0 = 0 then .refuse s 0x64 0x070A 0
    else if s.coresUp 3 = [] then .fail s stUnitFailed
    else if k.state ≠ .live then .refuse s 0x64 0x0700 k.state.code
    else if k.busy then .refuse s 0x64 0x070B 0
    else if !k.offloadOk ∨ k.usage ≠ (if op ≤ 1 then 1 else 2) then .refuse s 0x64 0x0701 0
    else if s.offBlocked ∨ (use ∧ s.ctxHeld (e.num 56 8)) then .fail s stBusy
    else if use ∧ !o.first ∧ engCtxBad 0 op page k.gen o.ctx then .refuse s 0x64 0x0708 0
    else if (op ≤ 1 ∧ (total > 16777216 ∨ (o.last ∧ total < 16))) ∨ (op ≥ 2 ∧ total > 2 ^ 36 - 32) then .fail s stInvalidField
    else
      let segs := ceilDiv (e.num 24 4) 4096
      if op = 2 ∧ o.first then
        match s.takeInvoc page with
        | (v, s2) => if v ≥ 2 ^ 32 then .refuse s 0x64 0x0704 0 else .quiet (s2.startOff { o with invoc := v } segs)
      else .quiet (s.startOff o segs)

/-- DIGEST_JOB (R227); its checks are ordered as those of CIPHER_JOB (DESIGN CHOICE, log 140). -/
def execDigestJob (ring slot : Nat) (src ctx : Bytes) (s : State) : Host.Outcome State Fault Refusal :=
  .next <| s.packet 0x65 ring slot fun e p s =>
    let h := e.num 10 1
    let mac := (e.num 11 1).testBit 3
    let use := (e.num 11 1).testBit 2
    let k := s.kslot (e.num 12 1)
    let o : OffJob :=
      { id := 0, pkt := p, opc := 0x65, params := e.bytes, src := slice src 0 (e.num 24 4), aad := [], ctx := slice ctx 0 512,
        keyGen := if mac then k.gen else 0, invoc := 0 }
    if !digestFieldsOk e then .fail s stInvalidField
    else if s.fld R.DIG_CFG 0 0 = 0 then .refuse s 0x65 0x070A 0
    else if s.coresUp 2 = [] then .fail s stUnitFailed
    else if mac ∧ k.state ≠ .live then .refuse s 0x65 0x0700 k.state.code
    else if mac ∧ k.busy = true then .refuse s 0x65 0x070B 0
    else if mac ∧ (!k.offloadOk ∨ k.hash ≠ h) then .refuse s 0x65 0x0701 0
    else if s.offBlocked ∨ (use ∧ s.ctxHeld (e.num 40 8)) then .fail s stBusy
    else if use ∧ !o.first ∧ engCtxBad 1 (h + 128 * b2n mac) (if mac then e.num 12 1 else 0) o.keyGen o.ctx then
      .refuse s 0x65 0x0708 0
    else .quiet (s.startOff o (ceilDiv (e.num 24 4) 4096))

/-- The last segment of an offload job is done: its output goes out and its reply with it. -/
def State.offDone (s : State) (o : OffJob) : State :=
  match o.opc with
  | 0x68 => s.compressDone o
  | 0x69 => s.decompressDone o
  | 0x64 => s.cipherDone o
  | _ => s.digestDone o

/-- A background save of the least recently scheduled context of an engine (a digest cluster) ends (R222): while more than 4,032, or 252,
are resident. -/
def execContextSaveDone (engine cluster : Nat) (s : State) : Host.Outcome State Fault Refusal :=
  .next <|
    let mine (c : EngCtx) : Bool := c.engine == engine && !c.saved && (engine == 3 || c.cluster == cluster)
    let lim := if engine = 3 then 4032 else 252
    let res := s.keys.ctxs.filter mine
    if (engine ≠ 2 ∧ engine ≠ 3) ∨ res.length ≤ lim then s
    else
      match res with
      | [] => s
      | v :: _ =>
        let s := { s with keys.ctxs := mapIf (fun (c : EngCtx) => c == v) (fun c => { c with saved := true }) s.keys.ctxs }
        s.bump (if engine = 2 then R.DIG_SAVE_CNT else R.CIP_SAVE_CNT)

end Sys2Proof.Machine
end

