-- ==== Sys2Proof/Machine/Xport.lean ====
section
/-! DEFINITION. The RDMA transport: connections, the responder and requester sides, failure, congestion, flow control and memory
keys (05_rdma_transport.md R102-R126). -/
namespace Sys2Proof.Machine

/-! ### Settings (R127) -/

/-- Path MTU of a code: 0 is 1,024, 1 is 2,048, any other 4,096 bytes. -/
def mtuOf (c : Nat) : Nat := if c = 0 then 1024 else if c = 1 then 2048 else 4096
/-- ORD_MAX with its treatment. -/
def State.ordMax (s : State) : Nat := Nat.min 128 (Nat.max 1 (s.fld R.XPT_RC_CFG 31 24))
/-- CC_EN. -/
def State.ccOn (s : State) : Bool := s.fld R.XPT_CFG 10 10 == 1
/-- RETRY_LIMIT of privileged queue pairs. -/
def State.privLimit (s : State) : Nat := s.fld R.XPT_PRIV_CFG 7 4

/-- A packet without payload goes out on a queue pair, marked as data, or as a notification of congestion. -/
def State.ethCtl (s : State) (q : Qp) (kind : EthKind) (psn num : Nat) : State :=
  let h := if kind = .cnp then s.cnpHdr q else s.dataHdr q
  s.ethOut q.port h.prio (some q.idx) 1 (.roce q.port h ⟨kind, q.remote, psn, num, 0, 0, 0, []⟩)

/-- A connection management message with nothing filled in but its kind and the queue pair it is to. -/
def cmMsg (kind : CmKind) (dest : Nat) : CmMsg :=
  { kind := kind, dest := dest, own := 0, psn := 0, mtu := 0, resources := 0, depth := 0, timeout := 0, retry := 0, rnr := 0, recfmt := 0
    session := none, landKey := 0, gid := [] }

/-- A connection management message goes out on QP1 of a port (R104). -/
def State.sendCm (s : State) (port : Nat) (m : CmMsg) : State :=
  s.ethOut port s.cmHdr.prio none 1 (.cm port s.cmHdr m)

/-- Packets of a queue pair that wait in the transmit queues are not sent (R116). -/
def State.dropTx (s : State) (idx : Nat) : State :=
  { s with xpt.ports := s.xpt.ports.map fun (p : EthPort) => { p with queue := p.queue.filter fun k => k.qp != some idx } }

/-- An acknowledgement of every packet before ePSN, with the message number (R110, R111). -/
def State.sendAck (s : State) (q : Qp) : State := s.ethCtl q .ack ((q.epsn + 2 ^ 24 - 1) % 2 ^ 24) q.msn

/-! ### Sessions and queue pairs (14_snapshots_replication.md R353) -/

/-- A replication session. -/
def State.session? (s : State) (n : Nat) : Option Session := findKey Session.no n s.snap.sessions
/-- `s` with a replication session replaced. -/
def State.putSession (s : State) (x : Session) : State := { s with snap.sessions := putKey Session.no x s.snap.sessions }

/-- A queue pair context and its queue context leave the tables. -/
def State.dropQp (s : State) (idx : Nat) : State :=
  { s.dropTx idx with xpt.qps := dropKey Qp.idx idx s.xpt.qps, hq.ctxs := dropKey QCtx.idx idx s.hq.ctxs }

/-- A session loses its connection: it is SUSPENDED with its delta and acknowledged messages kept (R353). -/
def State.suspendSession (s : State) (n cause : Nat) : State :=
  match s.session? n with
  | none => s
  | some x =>
    if x.state = .failed ∨ x.state = .suspended then s
    else
      let s := [x.ownQp, x.otherQp].foldl (fun (s : State) o => match o with
        | some i => s.dropQp i
        | none => s) s
      (s.bump R.REPL_SUSPEND_CNT).putSession { x with
        state := .suspended, cause := cause, ownQp := none, ownUp := false, otherQp := none, otherUp := false, opened := false,
        item := ((findKey Prod.fst x.acked x.sent).map Prod.snd).getD x.item, commitSent := false
        sent := [], built := [], building := none, next := x.acked, arrived := [] }

/-! ### Failure of a queue pair (R116) -/

/-- A command of a failed queue pair ends as its state says: a write without a sequence and a read leave nothing; a write with a sequence,
Flush, Dataset Management and Verify run to their end without a completion. -/
def State.failCmd (s : State) (c : Cmd) : State :=
  let hasSeq := s.brn.ents.any fun e => e.cmd == some c.id && e.jseq != 0
  if c.opc = 2 then s.dropIo c.id
  else if (c.opc = 1 ∨ c.opc = 8) ∧ !hasSeq then (s.discardCmd c.id).dropIo c.id
  else s

/-- A failed queue pair whose commands have all ended leaves the tables. -/
def State.reapQp (s : State) (idx : Nat) : State :=
  if s.hq.cmds.any fun c => c.qctx == idx then s else s.dropQp idx

/-- One queue pair fails with a cause of R525: nothing more is sent but one DREQ, its commands end, the failure is recorded. -/
def State.failOne (s : State) (idx cause : Nat) : State :=
  match s.qp? idx with
  | none => s
  | some q =>
    if q.st = .failed then s
    else
      let s := (s.putQp { q with st := .failed, ops := [], held := [], missed := [], inMsg := [], wKey := none, rnrWait := false }).dropTx idx
      let s := s.xbump R.XPT_QP_FAIL_CNT R.XPT_P_QP_FAIL_CNT q.port 1
      let s := if (s.eport q.port).up then s.sendCm q.port { cmMsg .dreq q.remote with own := idx + 0x10 } else s
      let s := s.event 0x05 evcState 3 (unitId 1 (q.port % 16)) (evState 1 2 cause ++ evValue (idx + 0x10))
      let s := (s.hq.cmds.filter fun c => c.qctx == idx).foldl State.failCmd s
      match q.session with
      | some n => s.suspendSession n cause
      | none => s.reapQp idx

/-- A queue pair fails; that of an admin queue ends the association, and every I/O queue of the controller is disconnected (R116). -/
def State.failQp (s : State) (idx cause : Nat) : State :=
  match s.qctx? idx with
  | none => s.failOne idx cause
  | some x =>
    let s := s.failOne idx cause
    if x.kind = .fabAdmin then
      let ios := (s.hq.ctxs.filter fun y => y.ctrl == x.ctrl && y.kind == .fabIo).map QCtx.idx
      let s := ios.foldl (fun (s : State) i => s.failOne i 8) s
      { s with hq.ctrls := dropKey Controller.id x.ctrl s.hq.ctrls }
    else s

/-! ### The responder side (R110, R111, R121-R123, R126) -/

/-- A CE mark is counted and answered by a congestion notification packet, at most one per CNP_INTV (R117). -/
def State.noteCe (s : State) (q : Qp) : State :=
  let s := s.xbump R.XPT_ECN_CE_RX_CNT R.XPT_P_ECN_CE_RX_CNT q.port 1
  let due := match q.lastCnp with
    | none => true
    | some t => decide (t + s.fld R.XPT_CC_CFG2 7 0 * 1000 ≤ s.tide.time) || decide (s.tide.time < t)
  if s.ccOn && due then
    ((s.putQp { q with lastCnp := some s.tide.time }).xbump R.XPT_CNP_TX_CNT R.XPT_P_CNP_TX_CNT q.port 1).ethCtl q .cnp 0 0
  else s

/-- NAK invalid request: the queue pair fails (R103, R126). -/
def State.nakInvalid (s : State) (q : Qp) : State :=
  ((s.xbump R.XPT_INV_REQ_NAK_TX_CNT R.XPT_P_INV_REQ_NAK_TX_CNT q.port 1).ethCtl q .invalidNak q.epsn 0).failQp q.idx 4

/-- NAK remote access error: the queue pair fails (R123). -/
def State.nakAccess (s : State) (q : Qp) : State :=
  ((s.xbump R.XPT_RACC_NAK_TX_CNT R.XPT_P_RACC_NAK_TX_CNT q.port 1).ethCtl q .accessNak q.epsn 0).failQp q.idx 4

/-- The memory key of an index that is VALID. -/
def State.mkey? (s : State) (i : Nat) : Option MemKey := findKey MemKey.idx i s.xpt.keys
/-- `s` with a memory key replaced. -/
def State.putMkey (s : State) (k : MemKey) : State := { s with xpt.keys := putKey MemKey.idx k s.xpt.keys }

/-- The checks of R123. -/
def State.keyAllows (s : State) (q : Qp) (key va len : Nat) : Option MemKey :=
  match s.mkey? (key / 256) with
  | none => none
  | some k => if !k.revoking && k.tag == key % 256 && k.pd == q.pd && decide (va + len ≤ k.len) then some k else none

/-- Words that are written whole are no longer poisoned (16_memory_cache.md R403). -/
def State.unpoison (s : State) (space addr len : Nat) : State :=
  { s with mem.poison := s.mem.poison.filter fun p => !(p.1 == space && decide (addr ≤ p.2) && decide (p.2 + 32 ≤ addr + len)) }

/-- Bytes are placed in a space: HBM, DDR or host memory (R122). -/
def State.place (s : State) (space addr : Nat) (bs : Bytes) : State :=
  match space with
  | 0 => { s with mem.hbm := memWriteAll 0 s.mem.hbm addr bs }.unpoison 0 addr bs.length
  | 1 => { s with mem.ddr := memWriteAll 0 s.mem.ddr addr bs }.unpoison 1 addr bs.length
  | _ => s.emit (.hostPlace addr bs)

/-- The receive of a message ends: ePSN and the message number advance and the message is acknowledged. -/
def State.msgDone (s : State) (q : Qp) : State :=
  let q := { q with epsn := (q.epsn + 1) % 2 ^ 24, msn := (q.msn + 1) % 2 ^ 24, naked := false, inMsg := [] }
  (s.putQp q).sendAck q

/-- A whole message on a replication session's queue pair reaches the session with the notification that ends it: what a SEND carried, or what lies
in the landing region (R121; 14_snapshots_replication.md R349). One of no known TYPE is discarded. -/
def State.noteMessage (s : State) (q : Qp) (msg : Bytes) : State :=
  match q.session.bind s.session? with
  | some x => if 1 ≤ leAt msg 4 1 ∧ leAt msg 4 1 ≤ 5 then s.putSession { x with arrived := x.arrived ++ [msg] } else s
  | none => s

/-- An expected SEND packet (R103, R113, R126). A capsule whose opcode its queue does not take ends with Invalid Command Opcode
(04_host_queues.md R72); every other one comes as the row of its command (log 120). -/
def State.expectedSend (s : State) (q : Qp) (k : XPkt) : State :=
  let msg := (if k.first then [] else q.inMsg) ++ k.payload
  if k.kind = .sendInv then s.nakInvalid q
  else if !q.priv && k.first && decide (q.capsules ≥ q.recvs) then
    ((s.putQp { q with naked := false }).xbump R.XPT_RNR_NAK_TX_CNT R.XPT_P_RNR_NAK_TX_CNT q.port 1).ethCtl q .rnrNak q.epsn (s.fld R.XPT_RC_CFG 18 14)
  else if !k.last && k.payload.length != q.mtu then s.nakInvalid q
  else if !q.priv && (decide (msg.length > 8256) || (k.last && decide (msg.length < 64))) then s.nakInvalid q
  else if k.last then
    let s := s.msgDone { q with capsules := q.capsules + b2n (!q.priv) }
    if q.priv then s.noteMessage q msg
    else
      match s.qctx? q.idx with
      | some x => s.unknownSqe x msg
      | none => s
  else s.putQp { q with epsn := (q.epsn + 1) % 2 ^ 24, naked := false, inMsg := msg }

/-- What lies in a memory of the device; host memory is not read. -/
def State.placed (s : State) (space addr len : Nat) : Bytes :=
  match space with
  | 0 => memReadAll 0 s.mem.hbm addr len
  | 1 => memReadAll 0 s.mem.ddr addr len
  | _ => []

/-- A write that passed the key check has ended: it counts for a revocation of its key (R125). -/
def State.writeDone (s : State) (key : Nat) : State :=
  match s.mkey? key with
  | some k => if k.revoking then s.putMkey { k with done := k.done + 1 } else s
  | none => s

/-- An expected RDMA WRITE packet, with or without Immediate (R103, R121, R123, R126). -/
def State.expectedWrite (s : State) (q : Qp) (k : XPkt) : State :=
  if !q.priv then s.nakInvalid q
  else
    match if k.first then (s.keyAllows q k.key k.va k.len).map fun m => (m.idx, k.va, k.len, 0) else q.wKey with
    | none => if k.first then s.nakAccess q else s.nakInvalid q
    | some (ki, va, len, at_) =>
      match s.mkey? ki with
      | none => s.nakInvalid q
      | some m =>
        let now := at_ + k.payload.length
        if (!k.last && k.payload.length != q.mtu) || decide (now > len) || (k.last && decide (now < len)) then s.nakInvalid q
        else
          let s := s.place m.space (m.base + va + at_) k.payload
          if k.last then
            let s := (s.msgDone { q with wKey := none }).writeDone ki
            if k.kind = .writeImm then s.noteMessage q (s.placed m.space (m.base + va) len) else s
          else s.putQp { q with epsn := (q.epsn + 1) % 2 ^ 24, naked := false, wKey := some (ki, va, len, now) }

/-- Contexts cached on-chip (R107). -/
def State.cachedCnt (s : State) : Nat := countOf Qp.cached s.xpt.qps

/-- The bytes that wait in the miss buffer of a port (R107). -/
def State.missBytes (s : State) (port : Nat) : Nat :=
  sumOf ((s.xpt.qps.filter fun q => q.port == port).map fun q => sumOf (q.missed.map fun k => k.payload.length))

/-- PFC XOFF above 4 MiB waiting, XON below 2 MiB (R107). -/
def State.missFlow (s : State) (port : Nat) : State :=
  let p := s.eport port
  let b := s.missBytes port
  if !p.xoff && decide (b > 4194304) then
    (s.putEport { p with xoff := true, waiting := b }).emit (.pfc port (s.fld R.XPT_CFG 31 29) true)
  else if p.xoff && decide (b < 2097152) then
    (s.putEport { p with xoff := false, waiting := b }).emit (.pfc port (s.fld R.XPT_CFG 31 29) false)
  else s.putEport { p with waiting := b }

/-- A context may be written back: cached, without packets in the transmit queue of a port or in the miss buffer (R108). -/
def State.evictable (s : State) (q : Qp) : Bool :=
  q.cached && q.missed.isEmpty && !(s.eport q.port).queue.any fun k => k.qp == some q.idx

/-- A context takes a place in the cache: where all 65,536 are taken, one not recently used is written back (R107, R108). Where every one that may
go was used, their marks are cleared and the first goes (DESIGN CHOICE, log 128). -/
def State.cacheCtx (s : State) (idx : Nat) : State :=
  let s :=
    if s.cachedCnt < 65536 then s
    else
      let can (q : Qp) : Bool := s.evictable q && q.idx != idx
      let aged := if s.xpt.qps.any fun q => can q && !q.used then s.xpt.qps else s.xpt.qps.map fun (q : Qp) => { q with used := false }
      match aged.find? fun q => can q && !q.used with
      | some v =>
        let s := { s with xpt.qps := aged }.putQp { v with cached := false }
        (s.xbump R.XPT_CTX_EVICT_CNT R.XPT_P_CTX_EVICT_CNT v.port 1).llcWrite 2 (ctxLines v.idx)
      | none => s
  match s.qp? idx with
  | some q => s.putQp { q with cached := true, used := true, fetching := false }
  | none => s

/-! ### The requester side (R113-R115) -/

/-- PSN `p` is at or behind `a` among 24-bit numbers (R10). -/
def psnLe (p a : Nat) : Bool := p == a || serialAfter 24 p a

/-- The last PSN of a message. -/
def SendOp.lastPsn (o : SendOp) : Nat := (o.psn + o.pkts - 1) % 2 ^ 24

/-- What an acknowledgement up to a PSN leaves of a message: nothing of one it covers; the packets behind the PSN of one it lies in. An RDMA READ is
ended by its responses alone. -/
def SendOp.acked (mtu psn : Nat) (o : SendOp) : Option SendOp :=
  if o.kind = .read then some o
  else if psnLe o.lastPsn psn then none
  else if psnLe o.psn psn then some { o with got := Nat.max o.got (((psn + 2 ^ 24 - o.psn) % 2 ^ 24 + 1) * mtu) }
  else some o

/-- An acknowledgement up to a PSN; one that advances returns the retry counts to their values (R113, R115). -/
def State.retireOps (s : State) (q : Qp) (psn : Nat) : State :=
  let left := q.ops.filterMap (SendOp.acked q.mtu psn)
  if left = q.ops then s
  else (s.putQp { q with ops := left, retries := 0, rnrs := 0, backoff := 0 }).pumpReads q.idx

/-- Every unacknowledged packet from a PSN on goes out again (R113). -/
def State.retransmit (s : State) (q : Qp) (psn : Nat) : State :=
  let ops := q.ops.filter fun o => psnLe psn o.lastPsn
  let s := s.xbump R.XPT_RETX_CNT R.XPT_P_RETX_CNT q.port 1
  ops.foldl (fun (s : State) o => s.wire ((s.qp? q.idx).getD q) o) s

/-- The first packet of a message that is not acknowledged. -/
def Qp.firstPsn (q : Qp) (o : SendOp) : Nat := (o.psn + o.got / q.mtu) % 2 ^ 24

/-- The oldest unacknowledged packet. -/
def Qp.oldest (q : Qp) : Nat := (q.ops.head?.map q.firstPsn).getD q.spsn

/-- A retransmission that uses one retry; with none left the queue pair fails (R113). -/
def State.retry (s : State) (q : Qp) (psn : Nat) : State :=
  if q.retries ≥ q.retryMax then s.failQp q.idx 1
  else
    let q := { q with retries := q.retries + 1 }
    (s.putQp q).retransmit q psn

/-- All bytes of an RDMA READ are in: they belong to the data of their command (R112, R133). -/
def State.readIn (s : State) (o : SendOp) : State :=
  match s.io? o.cmd with
  | none => s
  | some c =>
    let c := { c with hostData := c.hostData ++ o.data, bytes := c.bytes + o.data.length }
    let s := s.putIo c
    if c.bytes < c.need then s
    else
      match s.brn.ents.find? fun e => e.cmd == some c.id && e.state == .filling with
      | some e => s.writeIn c e
      | none => s

/-- A response packet of the oldest RDMA READ, in order, behind or ahead (R114, R126). A length that does not fit fails the queue pair as a retry count
exhausted does (DESIGN CHOICE, log 125: R525 lists no cause for it). -/
def State.readResp (s : State) (q : Qp) (psn : Nat) (last : Bool) (payload : Bytes) : State :=
  match q.ops.find? fun o => o.kind == .read with
  | none => s.xbump R.XPT_RD_RESP_DISCARD_CNT R.XPT_P_RD_RESP_DISCARD_CNT q.port 1
  | some o =>
    let want := q.firstPsn o
    if psn ≠ want then
      let s := s.xbump R.XPT_RD_RESP_DISCARD_CNT R.XPT_P_RD_RESP_DISCARD_CNT q.port 1
      if serialAfter 24 want psn then
        if q.retries ≥ q.retryMax then s.failQp q.idx 1
        else
          let q := { q with retries := q.retries + 1 }
          ((s.putQp q).xbump R.XPT_RETX_CNT R.XPT_P_RETX_CNT q.port 1).wire q o
      else s
    else
      let got := o.got + payload.length
      if (!last && payload.length != q.mtu) || (last && got != o.len) || decide (got > o.len) then s.failQp q.idx 1
      else
        let o2 := { o with got := got, data := o.data ++ payload }
        let before := q.ops.takeWhile fun x => x.psn != o.psn
        let after := (q.ops.dropWhile fun x => x.psn != o.psn).drop 1
        let kept := before.filter fun x => x.kind == .read
        let s := s.putQp { q with ops := kept ++ (if last then after else o2 :: after), retries := 0, rnrs := 0, backoff := 0 }
        if last then (s.pumpReads q.idx).readIn o2 else s

/-- A NAK sequence error (R113, R115): what lies before the PSN is acknowledged; a client queue pair retransmits from it on, a privileged one does
not. -/
def State.seqNak (s : State) (q : Qp) (psn : Nat) : State :=
  let s := s.xbump R.XPT_SEQ_NAK_RX_CNT R.XPT_P_SEQ_NAK_RX_CNT q.port 1
  let s := s.retireOps q ((psn + 2 ^ 24 - 1) % 2 ^ 24)
  match s.qp? q.idx with
  | some q => if q.priv then s else s.retry q psn
  | none => s

/-- An RNR NAK (R113, R115): the wait starts, within the RNR retry count; 7 means unlimited. -/
def State.rnrNak (s : State) (q : Qp) (psn : Nat) : State :=
  let s := s.retireOps q ((psn + 2 ^ 24 - 1) % 2 ^ 24)
  match s.qp? q.idx with
  | none => s
  | some q =>
    let out := if q.priv then decide (q.rnrs ≥ s.privLimit) else q.rnrMax != 7 && decide (q.rnrs ≥ q.rnrMax)
    if out then s.failQp q.idx 2 else s.putQp { q with rnrs := q.rnrs + 1, rnrWait := true }

/-- The wait of an RNR NAK ends: what is unacknowledged goes out again, then what was held (R113). -/
def State.rnrEnd (s : State) (q : Qp) : State :=
  if !q.rnrWait then s
  else
    let q := { q with rnrWait := false }
    ((s.putQp q).retransmit q q.oldest).pumpReads q.idx

/-- The ACK timer expires (R113, R115). A client queue pair uses a retry; a privileged one backs off, and fails after RETRY_LIMIT retransmissions have
each timed out. -/
def State.ackTimeout (s : State) (q : Qp) : State :=
  if q.ops.isEmpty || q.rnrWait then s
  else
    let s := s.xbump R.XPT_TIMEOUT_CNT R.XPT_P_TIMEOUT_CNT q.port 1
    if !q.priv then s.retry q q.oldest
    else if q.backoff ≥ s.privLimit then s.failQp q.idx 1
    else
      let q := { q with backoff := q.backoff + 1 }
      (s.putQp q).retransmit q q.oldest

/-- G_SHIFT; 0 is treated as 1. -/
def State.gShift (s : State) : Nat := Nat.max 1 (s.fld R.XPT_CC_CFG0 31 28)

/-- A congestion notification packet cuts the rate (R118): rates in Mb/s rounded down, alpha in 2^-30 (DESIGN CHOICE, log 26). -/
def State.rateCut (s : State) (q : Qp) : State :=
  let s := s.xbump R.XPT_CNP_RX_CNT R.XPT_P_CNP_RX_CNT q.port 1
  if !s.ccOn then s
  else
    let rc := Nat.max (s.fld R.XPT_CC_CFG2 19 8) (q.rc * (2 ^ 31 - q.alpha) / 2 ^ 31)
    let alpha := q.alpha - q.alpha / 2 ^ s.gShift + 2 ^ 30 / 2 ^ s.gShift
    s.putQp { q with rt := q.rc, rc := rc, alpha := alpha, stage := 0, sent := 0 }

/-! ### Packets that arrive (R105, R107, R110, R117) -/

/-- A request packet, classified by its PSN (R110, R111). -/
def State.request (s : State) (q : Qp) (k : XPkt) : State :=
  let d := (k.psn + 2 ^ 24 - q.epsn) % 2 ^ 24
  if d = 0 then
    match k.kind with
    | .send | .sendInv => s.expectedSend q k
    | .write | .writeImm => s.expectedWrite q k
    | _ => s.nakInvalid q
  else if d < 0x800000 then
    if q.priv ∨ q.naked then s
    else ((s.putQp { q with naked := true }).xbump R.XPT_SEQ_NAK_TX_CNT R.XPT_P_SEQ_NAK_TX_CNT q.port 1).ethCtl q .seqNak q.epsn 0
  else if d = 0x800000 then s.xbump R.XPT_PSN_AMBIG_CNT R.XPT_P_PSN_AMBIG_CNT q.port 1
  else (s.xbump R.XPT_DUP_PKT_CNT R.XPT_P_DUP_PKT_CNT q.port 1).sendAck q

/-- What arrives for a queue pair whose context is cached. -/
def State.rxPkt (s : State) (idx : Nat) (k : XPkt) : State :=
  match s.qp? idx with
  | none => s
  | some q =>
    if q.st ≠ .connected then s
    else
      let s := if k.ce then s.noteCe q else s
      let q := (s.qp? idx).getD q
      match k.kind with
      | .ack => s.retireOps q k.psn
      | .seqNak => s.seqNak q k.psn
      | .rnrNak => s.rnrNak q k.psn
      | .fatalNak => s.failQp q.idx 3
      | .readResp => s.readResp q k.psn k.last k.payload
      | .cnp => s.rateCut q
      | .ackTimer => s.ackTimeout q
      | .rnrTimer => s.rnrEnd q
      | _ => s.request q k

/-- Something for an established queue pair: with its context cached it acts, else it waits in the miss buffer while the context is fetched
(R107, R108). -/
def State.forQp (s : State) (q : Qp) (k : XPkt) : State :=
  if q.cached then (s.putQp { q with used := true }).rxPkt q.idx k
  else ((s.putQp { q with missed := q.missed ++ [k] }).fetchCtx q.idx).missFlow q.port

/-- An established queue pair of a QPN. -/
def State.qpOf (s : State) (qpn : Nat) : Option Qp :=
  match s.qp? (qpn - 0x10) with
  | some q => if qpn ≥ 0x10 ∧ q.st = .connected then some q else none
  | none => none

/-- A port, or its sub-port, answers on an address: of two settings entries with one index the later holds (R105; 21_startup_security.md R490). -/
def State.answers (s : State) (port : Nat) (gid : Bytes) : Bool :=
  (List.range 16).any fun i =>
    match (s.boot.gids.filter fun g => g.1 == port % 16 && g.2.1 == port / 16 && g.2.2.1 == i).getLast? with
    | some g => g.2.2.2 == gid
    | none => false

/-- A RoCEv2 packet arrives (R105, R128). One to another address counts as received and does nothing else; one that fails the ICRC check is dropped
and counted as that; any other counts as received and acts. -/
def State.rxNet (s : State) (n : NetIn) (act : State → State) : State :=
  let rx := s.xbump R.XPT_RX_PKT_CNT R.XPT_P_RX_PKT_CNT n.port 1
  if !s.answers n.port n.gid then rx
  else if !n.icrcOk then s.xbump R.XPT_ICRC_ERR_CNT R.XPT_P_ICRC_ERR_CNT n.port 1
  else act rx

/-- A packet's CE mark is counted where no queue pair can be notified (R117). -/
def State.ceOnly (s : State) (n : NetIn) : State :=
  if n.ce then s.xbump R.XPT_ECN_CE_RX_CNT R.XPT_P_ECN_CE_RX_CNT n.port 1 else s

/-- A RoCEv2 packet for a queue pair arrives; without an established pair it is dropped. -/
def State.rxAny (s : State) (n : NetIn) (qpn : Nat) (k : XPkt) : State :=
  s.rxNet n fun s =>
    match s.qpOf qpn with
    | some q => s.forQp q k
    | none => s.ceOnly n

/-- A connection management packet arrives on QP1 (R104). -/
def State.rxCm (s : State) (n : NetIn) (act : State → State) : State := s.rxNet n fun s => act (s.ceOnly n)

/-- A packet of a kind with a PSN and nothing else. -/
def barePkt (kind : PktKind) (psn : Nat) (ce : Bool) : XPkt :=
  { kind := kind, psn := psn, ce := ce, first := true, last := true, va := 0, key := 0, len := 0, payload := [] }

/-- SEND_RX (R110): a SEND, SEND with Immediate or (`invalidate`) SEND with Invalidate packet. -/
def execSendRx (n : NetIn) (qpn psn : Nat) (invalidate first last : Bool) (payload : Bytes) (s : State) : Host.Outcome State Fault Refusal :=
  .next <| s.rxAny n qpn
    { barePkt (if invalidate then .sendInv else .send) psn n.ce with first := first, last := last, payload := payload }

/-- RDMA_WRITE_RX (R121, R123): an RDMA WRITE packet; address, key and length are those of the RETH of a first packet, `imm` marks a write with
Immediate. -/
def execRdmaWriteRx (n : NetIn) (qpn psn : Nat) (first last imm : Bool) (va key len : Nat) (payload : Bytes) (s : State) :
    Host.Outcome State Fault Refusal :=
  .next <| s.rxAny n qpn
    { kind := if imm then .writeImm else .write, psn := psn, ce := n.ce, first := first, last := last, va := va, key := key, len := len
      payload := payload }

/-- RDMA_READ_REQUEST_RX (R103): an RDMA READ or atomic request. -/
def execRdmaReadRequestRx (n : NetIn) (qpn psn : Nat) (s : State) : Host.Outcome State Fault Refusal :=
  .next <| s.rxAny n qpn (barePkt .readReq psn n.ce)

/-- ACK_RX (R113). -/
def execAckRx (n : NetIn) (qpn psn : Nat) (s : State) : Host.Outcome State Fault Refusal := .next <| s.rxAny n qpn (barePkt .ack psn n.ce)

/-- SEQ_NAK_RX (R113, R115). -/
def execSeqNakRx (n : NetIn) (qpn psn : Nat) (s : State) : Host.Outcome State Fault Refusal := .next <| s.rxAny n qpn (barePkt .seqNak psn n.ce)

/-- RNR_NAK_RX (R113, R115). The timer code sets how long the wait is, which RNR_WAIT_EXPIRY ends. -/
def execRnrNakRx (n : NetIn) (qpn psn timer : Nat) (s : State) : Host.Outcome State Fault Refusal :=
  .next <| s.rxAny n qpn { barePkt .rnrNak psn n.ce with len := timer }

/-- FATAL_NAK_RX (R116). -/
def execFatalNakRx (n : NetIn) (qpn : Nat) (s : State) : Host.Outcome State Fault Refusal := .next <| s.rxAny n qpn (barePkt .fatalNak 0 n.ce)

/-- READ_RESPONSE_RX (R114, R126). -/
def execReadResponseRx (n : NetIn) (qpn psn : Nat) (last : Bool) (payload : Bytes) (s : State) : Host.Outcome State Fault Refusal :=
  .next <| s.rxAny n qpn { barePkt .readResp psn n.ce with last := last, payload := payload }

/-- CNP_RX (R118). -/
def execCnpRx (n : NetIn) (qpn : Nat) (s : State) : Host.Outcome State Fault Refusal := .next <| s.rxAny n qpn (barePkt .cnp 0 n.ce)

/-- A timer of a queue pair expires: it fetches an uncached context like a packet (R108). -/
def State.timerOf (s : State) (qpn : Nat) (kind : PktKind) (which : Qp → Bool) : State :=
  match s.qpOf qpn with
  | some q => if which q then s.forQp q (barePkt kind 0 false) else s
  | none => s

/-- RNR_WAIT_EXPIRY (R113). -/
def execRnrWaitExpiry (qpn : Nat) (s : State) : Host.Outcome State Fault Refusal := .next <| s.timerOf qpn .rnrTimer fun q => q.rnrWait

/-- ACK_TIMEOUT (R113): of a client queue pair with something unacknowledged. -/
def execAckTimeout (qpn : Nat) (s : State) : Host.Outcome State Fault Refusal :=
  .next <| s.timerOf qpn .ackTimer fun q => !q.priv && !q.ops.isEmpty && !q.rnrWait

/-- PRIV_ACK_TIMEOUT (R115): the k-th consecutive timeout. -/
def execPrivAckTimeout (qpn : Nat) (s : State) : Host.Outcome State Fault Refusal :=
  .next <| s.timerOf qpn .ackTimer fun q => q.priv && !q.ops.isEmpty && !q.rnrWait

/-- CONTEXT_FETCH_DONE (R107): its lines have arrived (16_memory_cache.md R399), the context is cached, the packets that waited are processed in order, and what was held is sent. -/
def execContextFetchDone (qpn : Nat) (s : State) : Host.Outcome State Fault Refusal :=
  .next <|
    match s.qp? (qpn - 0x10) with
    | none => s
    | some q =>
      if q.cached then s
      else
        let s := (s.llcArrive 2 (ctxLines q.idx)).cacheCtx q.idx
        let s := match s.qp? q.idx with
          | some p => s.putQp { p with missed := [] }
          | none => s
        ((q.missed.foldl (fun (s : State) k => s.rxPkt q.idx k) s).pumpReads q.idx).missFlow q.port

/-! ### Connection management (R104, R106) -/

/-- A free connection context: the lowest index that no queue context and no queue pair has (DESIGN CHOICE, log 25). -/
def State.freeCtx (s : State) : Nat :=
  let used := s.xpt.qps.map Qp.idx ++ s.hq.ctxs.map QCtx.idx
  lowestFree used (used.length + 1) 0

/-- A queue pair as it is set up. -/
def newQp (idx port remote mtu ord tmo retry rnr recvs line : Nat) (priv : Bool) (pd : Nat) (session : Option Nat) : Qp :=
  { idx := idx, port := port, st := .connecting, priv := priv, pd := pd, mtu := mtu, ord := ord, tmo := tmo, retryMax := retry,
    rnrMax := rnr, remote := remote, line := line, epsn := 0, msn := 0, naked := false, inMsg := [], wKey := none, capsules := 0,
    recvs := recvs, spsn := 0, ops := [], held := [], retries := 0, rnrs := 0, backoff := 0, rnrWait := false, fetching := false, rc := line,
    rt := line, alpha := 2 ^ 30, stage := 0, sent := 0, lastCnp := none, cached := false, used := true, missed := [],
    session := session, v6 := false }

/-- Privileged queue pairs of this head (R106). -/
def State.privPairs (s : State) : Nat := countOf (fun q => q.priv) s.xpt.qps

/-- A REQ is answered (R104, R106): with REP, which offers no responder resources and private data of record format 0, or with REJ. `m` holds the parameters of a connection management REQ, or of the REP that answers one: the other side's QPN and starting PSN, path MTU code,
responder resources, ACK timeout exponent, retry and RNR retry counts, receives asked for, private data record format, and for a
privileged pair the replication session it names. -/
def State.acceptReq (s : State) (port : Nat) (m : CmParams) : State :=
  let p := s.eport port
  let rej := s.sendCm port (cmMsg .rej m.qpn)
  if !p.up ∨ m.recfmt ≠ 0 ∨ m.session.any (fun n => (s.session? n).isNone) then rej
  else
    let x := m.session.bind s.session?
    let s := match x.bind Session.otherQp with
      | some i => s.dropQp i
      | none => s
    let idx := s.freeCtx
    if idx ≥ 1048576 ∨ (x.isSome ∧ s.privPairs ≥ 1024) then s.sendCm port (cmMsg .rej m.qpn)
    else
      let mtu := mtuOf (Nat.min m.mtu (s.fld R.XPT_CFG 13 12))
      let ord := Nat.min m.resources s.ordMax
      let tmo := Nat.max m.timeout (s.fld R.XPT_RC_CFG 23 19)
      let q := newQp idx port m.qpn mtu ord tmo (Nat.min 7 m.retry) (Nat.min 7 m.rnr) m.recvs p.line false 0 none
      let q := { q with epsn := m.psn % 2 ^ 24, v6 := m.v6 }
      let answer : CmMsg := { cmMsg .rep m.qpn with own := idx + 0x10, mtu := mtu, depth := ord, timeout := tmo, retry := q.retryMax, rnr := q.rnrMax }
      match x with
      | none => ((s.putQp q).cacheCtx idx).sendCm port answer
      | some x =>
        let s := (s.putQp { q with priv := true, pd := x.pd, session := some x.no }).cacheCtx idx
        (s.putSession { x with otherQp := some idx, otherUp := false }).sendCm port { answer with landKey := x.landKey }

/-- CM_REQ_RX (R104): the device is the passive side; a privileged pair names a session that both arrays have created. An earlier pair that the
session had for the same purpose is freed. (DEDUCED, log 79) -/
def execCmReqRx (n : NetIn) (m : CmParams) (s : State) : Host.Outcome State Fault Refusal :=
  .next <| s.rxCm n fun s => s.acceptReq n.port m

/-- Both queue pairs of a session are established: OPEN or RESUME may be exchanged (14_snapshots_replication.md R353). -/
def State.sessionUp (s : State) (idx : Nat) : State :=
  match s.snap.sessions.find? fun x => x.ownQp == some idx || x.otherQp == some idx with
  | none => s
  | some x => s.putSession (if x.ownQp = some idx then { x with ownUp := true } else { x with otherUp := true })

/-- A queue pair is established: it starts at the line rate (R104, R118). -/
def State.establish (s : State) (idx : Nat) : State :=
  match s.qp? idx with
  | none => s
  | some q =>
    if q.st ≠ .connecting then s
    else (s.putQp { q with st := .connected, rc := q.line, rt := q.line, alpha := 2 ^ 30, stage := 0, sent := 0 }).sessionUp idx

/-- CM_REJ_RX (R104): the attempt ends; a session's attempt suspends it (R353). -/
def execCmRejRx (n : NetIn) (qpn : Nat) (s : State) : Host.Outcome State Fault Refusal :=
  .next <| s.rxCm n fun s =>
    match s.qp? (qpn - 0x10) with
    | none => s
    | some q =>
      if qpn < 0x10 ∨ q.st ≠ .connecting then s
      else
        match q.session with
        | some n => s.suspendSession n 0
        | none => s.dropQp q.idx

/-- CM_MRA_RX (R104): the other side asks for more time, and nothing else happens. -/
def execCmMraRx (n : NetIn) (_qpn : Nat) (s : State) : Host.Outcome State Fault Refusal :=
  .next <| s.rxCm n id

/-- A queue pair is ended without a fault: its commands end as under R116, and the context is freed. -/
def State.endQp (s : State) (idx : Nat) : State :=
  match s.qp? idx with
  | none => s
  | some q =>
    let s := (s.putQp { q with st := .failed, ops := [], held := [], missed := [], inMsg := [], wKey := none, rnrWait := false }).dropTx idx
    let s := (s.hq.cmds.filter fun c => c.qctx == idx).foldl State.failCmd s
    match q.session with
    | some n => s.suspendSession n 0
    | none => s.reapQp idx

/-- CM_DREQ_RX (R104): the queue pair is disconnected and DREP answers; that of an admin queue ends the association. -/
def execCmDreqRx (n : NetIn) (qpn remote : Nat) (s : State) : Host.Outcome State Fault Refusal :=
  .next <| s.rxCm n fun s =>
    let s := s.sendCm n.port (cmMsg .drep remote)
    if qpn < 0x10 then s
    else
      let idx := qpn - 0x10
      match s.qctx? idx with
      | none => s.endQp idx
      | some x =>
        let s := s.endQp idx
        if x.kind = .fabAdmin then
          let ios := (s.hq.ctxs.filter fun y => y.ctrl == x.ctrl && y.kind == .fabIo).map QCtx.idx
          let s := ios.foldl State.endQp s
          { s with hq.ctrls := dropKey Controller.id x.ctrl s.hq.ctrls }
        else s

/-- CM_DREP_RX (R104): the other side has taken the DREQ; a failed pair without commands is gone. -/
def execCmDrepRx (n : NetIn) (qpn : Nat) (s : State) : Host.Outcome State Fault Refusal :=
  .next <| s.rxCm n fun s =>
    match s.qp? (qpn - 0x10) with
    | none => s
    | some q => if qpn ≥ 0x10 ∧ q.st = .failed then s.reapQp q.idx else s

/-! ### Ports and flow control (R116, R120) -/

/-- An Ethernet port goes down (R116): the queue pairs of the port fail. A PTP port then is a lost reference (02_fabric_time.md R28), which
REFERENCE_LOST reports. -/
def State.ethDown (s : State) (port : Nat) : State :=
  let s := s.putEport { s.eport port with up := false, paused := [], ignoring := none, queue := [] }
  ((s.xpt.qps.filter fun q => q.port == port).map Qp.idx).foldl (fun (s : State) i => s.failQp i 5) s

/-- A whole port goes down, with the sub-ports that it has in breakout. -/
def State.ethOff (s : State) (port : Nat) : State :=
  (port :: (s.xpt.ports.filter fun p => p.port % 16 == port && p.port != port).map EthPort.port).foldl State.ethDown s

/-- ETH_PORT_DOWN (R116): of a port or a sub-port. -/
def execEthPortDown (port : Nat) (s : State) : Host.Outcome State Fault Refusal := .next (s.ethDown port)

/-- The queued packets of a priority that is no longer paused go out, in order. -/
def State.drainTx (s : State) (port prio : Nat) : State :=
  let p := s.eport port
  let s := s.putEport { p with queue := p.queue.filter fun k => k.prio != prio }
  (p.queue.filter fun k => k.prio == prio).foldl (fun (s : State) k => s.ethSend port k.n k.what) s

/-- PFC_PAUSE_RX (R102, R120): a pause frame pauses or resumes one of the 8 priorities, unless the port ignores its pauses after a storm. -/
def execPfcPauseRx (port prio : Nat) (pause : Bool) (s : State) : Host.Outcome State Fault Refusal :=
  .next <|
    let p := s.eport port
    if prio > 7 ∨ p.ignoring = some prio then s
    else
      let rest := p.paused.filter fun x => x != prio
      if pause then s.putEport { p with paused := rest ++ [prio] }
      else (s.putEport { p with paused := rest }).drainTx port prio

/-- PFC_STORM (R120): ROCE_PRIO stayed paused for STORM_MS: its queued packets are discarded, to be recovered by retransmission, its pauses are
ignored, the storm is counted and recorded, with the number of a sub-port (01_architecture.md). `ended` marks the end of the STORM_MS in
which pauses are ignored. -/
def execPfcStorm (port : Nat) (ended : Bool) (s : State) : Host.Outcome State Fault Refusal :=
  .next <|
    let p := s.eport port
    let prio := s.fld R.XPT_CFG 31 29
    if ended then s.putEport { p with ignoring := none }
    else if s.fld R.XPT_PFC_CFG 31 16 = 0 ∨ !p.paused.contains prio then s
    else
      let s := s.putEport { p with
        paused := p.paused.filter fun x => x != prio, ignoring := some prio, queue := p.queue.filter fun k => k.prio != prio }
      let s := s.xbump R.XPT_PFC_STORM_CNT R.XPT_P_PFC_STORM_CNT port 1
      s.event 0x05 evcLimit 3 (unitId 1 (port % 16))
        (evValue (s.fld R.XPT_PFC_CFG 31 16) ++ if port < 16 then [] else evValue (port / 16))

/-! ### Congestion control (R118, R119): rates in Mb/s rounded down, alpha in 2^-30 (DESIGN CHOICE, log 26) -/

/-- ALPHA_UPDATE_TIMER (R118): K_US passed without a CNP. -/
def execAlphaUpdateTimer (qpn : Nat) (s : State) : Host.Outcome State Fault Refusal :=
  .next <| match s.qpOf qpn with
    | none => s
    | some q => s.putQp { q with alpha := q.alpha - q.alpha / 2 ^ s.gShift }

/-- The recovery stage advances (R118). -/
def State.rateUp (s : State) (q : Qp) : State :=
  let st := q.stage + 1
  let f := s.fld R.XPT_CC_CFG2 23 20
  let rt := if st > 2 * f then Nat.min q.line (q.rt + s.fld R.XPT_CC_CFG1 15 0)
    else if st > f then Nat.min q.line (q.rt + s.fld R.XPT_CC_CFG1 31 16) else q.rt
  s.putQp { q with stage := st, rt := rt, rc := (rt + q.rc) / 2, sent := 0 }

/-- RATE_INCREASE_TIMER (R118). -/
def execRateIncreaseTimer (qpn : Nat) (s : State) : Host.Outcome State Fault Refusal :=
  .next <| match s.qpOf qpn with
    | none => s
    | some q => s.rateUp q

/-- BYTE_COUNTER_EXPIRY (R118, R119): B_MIB mebibytes sent since the last stage; 0 disables the trigger. -/
def execByteCounterExpiry (qpn : Nat) (s : State) : Host.Outcome State Fault Refusal :=
  .next <| match s.qpOf qpn with
    | none => s
    | some q =>
      let b := s.fld R.XPT_CC_CFG2 31 24 * 1048576
      if b = 0 ∨ q.sent < b then s else s.rateUp q

/-! ### Memory keys (R122-R125) -/

/-- Bytes of the HBM landing area and of the DDR landing area (16_memory_cache.md R392, R393). -/
def State.landArea (s : State) (space : Nat) : Nat × Nat :=
  let gib := 2 ^ 30
  if space = 0 then (0x980000000, Nat.min 64 (bits s.mem.hbmSplit 7 0) * gib)
  else
    let flex := (s.mem.ddrGib - 4) * gib
    let part (x : Nat) : Nat := flex * x / 256 / gib * gib
    let sp := s.mem.ddrSplit
    (4 * gib + part (bits sp 23 16) + part (bits sp 15 8), part (bits sp 7 0))

/-- A region lies in the area set aside for its space (R124). -/
def State.regionOk (s : State) (space base len : Nat) : Bool :=
  match space with
  | 2 => decide (base + len ≤ 2 ^ 64)
  | sp => let a := s.landArea sp; decide (a.1 ≤ base) && decide (base + len ≤ a.1 + a.2)

/-- A key index takes its next tag and names a region; the lowest free index is taken (DESIGN CHOICE, log 25). -/
def State.newMkey (s : State) (space base len pd : Nat) : State × Option Nat :=
  let used := s.xpt.keys.map MemKey.idx
  let i := lowestFree used (used.length + 1) 0
  if i ≥ 65536 then (s, none)
  else
    let tag := match findKey Prod.fst i s.xpt.tags with
      | some t => (t.2 + 1) % 256
      | none => 0
    let k : MemKey :=
      { idx := i, tag := tag, revoking := false, space := space, base := base, len := len, pd := pd, done := 0, failed := 0, pkt := none }
    ({ s.putMkey k with xpt.tags := putKey Prod.fst (i, tag) s.xpt.tags }, some (i * 256 + tag))

/-- REGISTER_MEMORY_KEY (R124). -/
def execRegisterMemoryKey (ring slot : Nat) (s : State) : Host.Outcome State Fault Refusal :=
  .next <| s.packet 0x42 ring slot fun e _ s =>
    let space := e.num 10 1
    let pd := e.num 12 2
    let base := e.num 16 8
    let len := e.num 24 8
    if space > 2 ∨ e.num 11 1 ≠ 1 ∨ pd = 0 ∨ !e.zero 14 2 ∨ base % 4096 ≠ 0 ∨ len % 4096 ≠ 0 ∨ len < 4096 ∨ len > 2 ^ 36 ∨
        s.regionOk space base len = false then .fail s stInvalidField
    else
      match s.newMkey space base len pd with
      | (s, some k) => .done s stOk (leBytes 4 k) []
      | (s, none) => .fail s stNoResource

/-- A write that passed the check of a key is unfinished. -/
def State.keyBusy (s : State) (i : Nat) : Bool :=
  s.xpt.qps.any fun q => q.st == .connected && match q.wKey with
    | some (k, _) => k == i
    | none => false

/-- A revocation ends: the reply goes out and the index is free (R125). -/
def State.revokeEnd (s : State) (k : MemKey) : State :=
  let s := { s with xpt.keys := dropKey MemKey.idx k.idx s.xpt.keys }
  match k.pkt with
  | some p => s.finish p stOk (leBytes 4 k.done ++ leBytes 4 k.failed) []
  | none => s

/-- REVOKE_MEMORY_KEY (R125). -/
def execRevokeMemoryKey (ring slot : Nat) (s : State) : Host.Outcome State Fault Refusal :=
  .next <| s.packet 0x43 ring slot fun e p s =>
    let key := e.num 10 4
    match s.mkey? (key / 256) with
    | none => .fail s stInvalidField
    | some k =>
      if k.tag ≠ key % 256 then .fail s stInvalidField
      else if k.revoking then .fail s stBusy
      else .quiet (s.putMkey { k with revoking := true, pkt := some p })

/-- REVOKE_COMPLETE (R125): no write that passed the check remains unfinished. -/
def execRevokeComplete (index : Nat) (s : State) : Host.Outcome State Fault Refusal :=
  .next <| match s.mkey? index with
    | none => s
    | some k => if k.revoking && !s.keyBusy index then s.revokeEnd k else s

/-- REVOKE_LIMIT_EXPIRY (R125): 100 ms after the revocation, every queue pair with an unfinished write fails. -/
def execRevokeLimitExpiry (index : Nat) (s : State) : Host.Outcome State Fault Refusal :=
  .next <| match s.mkey? index with
    | none => s
    | some k =>
      if !k.revoking then s
      else
        let late := (s.xpt.qps.filter fun q => q.st == .connected && match q.wKey with
          | some (i, _) => i == index
          | none => false).map Qp.idx
        let s := s.putMkey { k with failed := k.failed + late.length }
        late.foldl (fun (s : State) i => s.failQp i 7) s

end Sys2Proof.Machine
end

