-- ==== Sys2Proof/Machine/Sluice.lean ====
section
/-! DEFINITION. Deadline admission: capacities, plans, the admission check, misses, volume settings (03_sluice.md R43-R70, R526;
02_fabric_time.md R36-R40; 16_memory_cache.md R396). -/
namespace Sys2Proof.Machine

/-! ### Slots (02_fabric_time.md R36, R39) -/

/-- The current slot (R36). -/
def State.slot (s : State) : Nat := s.tide.time / 8000
/-- The first slot of the far region (R39). -/
def State.farFirst (s : State) : Nat := 64 * (s.slot / 64 + 64)
/-- The last slot of the horizon (R36). -/
def State.lastSlot (s : State) : Nat := 64 * (s.slot / 64 + 4096) - 1

/-- The error estimate (R30): in HOLDOVER it grows with the time since the entry; it is rounded up and holds at 0xFFFF_FFFF. -/
def State.errEst (s : State) : Nat :=
  match s.tide.state with
  | .freerun | .unqualified => 0xFFFFFFFF
  | .holdover =>
    let t := s.tide.time - s.tide.holdSec
    Nat.min 0xFFFFFFFF (s.tide.holdE0 + ceilDiv (s.tide.holdA * t * 10 ^ 11 + s.tide.holdC * t * t) (10 ^ 22))
  | _ => Nat.min 0xFFFFFFFF s.tide.est

/-- Fabric time is admission-grade (R32). -/
def State.admitOk (s : State) : Bool :=
  (s.tide.state == .locked || s.tide.state == .holdover) && decide (s.errEst ≤ 2000) && s.tide.stepPend.isNone

/-! ### Capacities (R37, R52, R57, R58) -/

/-- TIDE_DIE_SHARE with its treatment (R42). -/
def State.dieShare (s : State) : Nat := Nat.min 256 (s.fld R.TIDE_DIE_SHARE 8 0)

/-- H in force in a slot: a pending value holds from its slot on (12_harvest_health.md R294). -/
def State.hAt (s : State) (slot : Nat) : Nat :=
  match s.ftl.hPending with
  | some p => if slot ≥ p.1 then p.2 else s.ftl.hNow
  | none => s.ftl.hNow

/-- The capacity of a cluster of an engine type, and its clusters (R37). -/
def clusterCap : Rsrc → Nat × Nat
  | .comp => (896000, 8)
  | .decomp => (2048000, 4)
  | .digest => (2048000, 4)
  | .cipher => (3072000, 4)
  | .erasure => (4096000, 2)
  | _ => (0, 1)

/-- Engine stages are planned at half capacity while THROTTLE holds (22_power_electrical.md R513). -/
def State.throttled (s : State) (n : Nat) : Nat := if s.pwr.throttle then n / 2 else n

/-- The bookable capacity of a resource in a slot before the floor for best-effort work (R52, R57; 16_memory_cache.md R396). The
clusters of an engine type are booked together. -/
def State.rawCap (s : State) (r : Rsrc) (idx slot : Nat) : Nat :=
  match r with
  | .egress => 400000 * (256 - s.fld R.SLU_ADMIT_CFG 23 16) / 256
  | .icl => let c := if s.pair.icl = 1 then 512000 else 1024000; c - Nat.min c (s.fld R.SLU_ICL_PROXY_RSV 20 0)
  | .mport => 126000 * s.fld R.SLU_ADMIT_CFG 15 8 / 256
  | .die => (8000 * s.dieShare - 256 * s.hAt slot) * s.dieFactor idx / (256 * 65536)
  | .classifier => s.throttled 12800000
  | .cache => 3276800 * (256 - Nat.max 0x40 (s.fld R.MEM_BW_CFG 7 0)) / 256
  | .volume => ((s.vol? idx).map Volume.budget).getD 0
  | r => let c := clusterCap r; s.throttled (c.1 * (c.2 - 1) / c.2)

/-- Clusters that share the bookings of a type. -/
def Rsrc.clusters (r : Rsrc) : Nat := (clusterCap r).2

/-- The bookable capacity of a resource in a slot (R57); a volume's budget is no capacity of the device and keeps no floor. -/
def State.bookable (s : State) (r : Rsrc) (idx slot : Nat) : Nat :=
  if r = .volume then s.rawCap r idx slot
  else r.clusters * (s.rawCap r idx slot * (256 - s.fld R.SLU_ADMIT_CFG 31 24) / 256)

/-- The code of a resource in a completion (R63). The stream cache has none: its booking never rejects a command. -/
def Rsrc.code : Rsrc → Nat
  | .egress => 1 | .icl => 2 | .mport => 3 | .die => 4 | .comp => 5 | .decomp => 6 | .digest => 7 | .cipher => 8
  | .erasure => 9 | .classifier => 10 | .volume => 12 | .cache => 0

/-! ### Placement (R49, R53) -/

/-- What is booked on a resource in a slot, or in the bucket that begins there. -/
def State.usedIn (s : State) (r : Rsrc) (idx slot : Nat) (far : Bool) : Nat :=
  sumOf ((s.tide.table.filter fun b => b.rsrc == r && b.idx == idx && b.slot == slot && b.far == far).map Booking.amount)

/-- The slot at which an amount may begin: in the far region the first slot of a bucket (R53). -/
def State.alignStart (s : State) (a : Nat) : Nat := if a ≥ s.farFirst then 64 * ceilDiv a 64 else a

/-- The budget that a placement is held to: the volume and its bytes per slot (R67). -/
abbrev Cap := Option (Nat × Nat)

/-- What a slot or bucket of `span` slots leaves of a budget; with none, no bound. -/
def State.capLeft (s : State) (b : Cap) (a : Nat) (far : Bool) (span pay : Nat) : Nat :=
  match b with
  | some (n, cap) => span * cap - s.usedIn .volume n a far
  | none => pay

/-- The bytes that a booking takes from a volume's budget, kept beside it. -/
def capBooking (cap : Cap) (b : Booking) (pay : Nat) : List Booking :=
  match cap with
  | some (n, c) => if pay = 0 then [] else [{ b with rsrc := .volume, idx := n, amount := pay, cap := c }]
  | none => []

/-- The near slot, or behind the 4,096 of those the far bucket, whose word holds the bookings of a slot (02_fabric_time.md R39). -/
def tideAt (slot : Nat) (far : Bool) : Nat := if far then 4096 + slot / 64 % 4032 else slot % 4096

/-- An amount is placed from a slot on, as much in each slot or bucket as there is room; the slot that receives the last of it, none
where the horizon ends before (R49, R53). The first `pay` bytes of it count against the budget `bud`, which bounds what a slot takes while some of
them are left (R67; that they come first: DEDUCED, log 27). `n` bounds the slots. -/
def State.placeFrom (s : State) (r : Rsrc) (idx cmd dl : Nat) (bud : Cap) : Nat → Nat → Nat → Nat → State × Option Nat
  | 0, _, _, _ => (s, none)
  | n + 1, a, amt, pay =>
    if a > s.lastSlot then (s, none)
    else
      let far := decide (a ≥ s.farFirst)
      let span := if far then 64 else 1
      let cap := s.bookable r idx a
      let left := s.capLeft bud a far span pay
      let room := Nat.min amt (span * cap - s.usedIn r idx a far)
      let take := if pay ≤ left then room else Nat.min room left
      let paid := Nat.min pay take
      let b : Booking :=
        { rsrc := r, idx := idx, slot := a, far := far, amount := take, cmd := cmd, deadline := dl, cap := cap }
      let s := s.llcRead 1 (tideLine r.code idx (tideAt a far)) 1 false
      let s := if take = 0 then s
        else { s with tide.table := s.tide.table ++ [b] ++ capBooking bud b paid }.llcWrite 1 [tideLine r.code idx (tideAt a far)]
      if take = amt then (s, some (a + span - 1)) else s.placeFrom r idx cmd dl bud n (a + span) (amt - take) (pay - paid)

/-- An amount is placed within the horizon. -/
def State.placeAmt (s : State) (r : Rsrc) (idx cmd dl : Nat) (bud : Cap) (a amt pay : Nat) : State × Option Nat :=
  s.placeFrom r idx cmd dl bud 8200 (s.alignStart a) amt pay

/-- A rejection (R63): reason, resource, shortfall. -/
abbrev Rejection := Nat × Nat × Nat

/-- A shortfall as its field holds it. -/
def shortfall (n : Nat) : Nat := Nat.min 0xFFFF n

/-- The rejection of a placement that ends past its limit: VOLUME_BUDGET where it would not have without the budget, else CAPACITY (R526). -/
def State.overLimit (s : State) (r : Rsrc) (idx cmd dl a lim amt : Nat) (bud : Cap) (x : Option Nat) : Rejection :=
  let short := match x with
    | some e => shortfall (e - lim)
    | none => 0xFFFF
  let free := match (s.placeAmt r idx cmd dl none a amt 0).2 with
    | some e => decide (e ≤ lim)
    | none => false
  if r = .volume ∨ (bud.isSome = true ∧ free = true) then (6, 12, short) else (5, r.code, short)

/-- The amounts of a stage are placed; the latest end, or the rejection of the first that ends past the limit (R526). A stage that books nothing
occupies its first slot, which the limit bounds as well (R55). -/
def State.layItems (s : State) (cmd dl a lim : Nat) (bud : Cap) (pay : Nat) : List (Rsrc × Nat × Nat) → Nat → Except Rejection (State × Nat)
  | [], e => if e > lim then .error (5, 0, shortfall (e - lim)) else .ok (s, e)
  | (r, idx, amt) :: rest, e =>
    match s.placeAmt r idx cmd dl bud a amt pay with
    | (_, none) => .error (s.overLimit r idx cmd dl a lim amt bud none)
    | (t, some x) =>
      if x > lim then .error (s.overLimit r idx cmd dl a lim amt bud (some x)) else t.layItems cmd dl a lim bud pay rest (Nat.max e x)

/-- The budget of a volume at a stage, if the stage delivers and the volume has one (R67). -/
def State.budgetOf (s : State) (nsid : Nat) (t : PStage) : Cap :=
  let b := ((s.vol? nsid).map Volume.budget).getD 0
  if b = 0 ∨ t.vol = 0 then none else some (nsid, b)

/-- The items of a stage. The delivering stage of a host-side read books no port; its payload is then placed against the budget alone (R67; DESIGN
CHOICE, log 28). -/
def State.stageItems (s : State) (nsid : Nat) (t : PStage) : List (Rsrc × Nat × Nat) :=
  if t.items.isEmpty && (s.budgetOf nsid t).isSome then [(.volume, nsid, t.vol)] else t.items

/-- The budget that the items of a stage are held to. -/
def State.stageCap (s : State) (nsid : Nat) (t : PStage) : Cap := if t.items.isEmpty then none else s.budgetOf nsid t

/-- The stages are laid out in order, each from the slot after the end of the one before and its latency (R49, R526); `z` is the end of the last one
laid out. -/
def State.layStages (s : State) (nsid cmd dl : Nat) : List (PStage × Nat) → Nat → Nat → Except Rejection (State × Nat)
  | [], _, z => .ok (s, z)
  | (t, lim) :: rest, a, _ =>
    match s.layItems cmd dl a lim (s.stageCap nsid t) t.vol (s.stageItems nsid t) (s.alignStart a) with
    | .error e => .error e
    | .ok (s, e) => s.layStages nsid cmd dl rest (e + 1 + t.lat) e

/-! ### The timing model (R50, R51, R52, R54) -/

/-- Slots a stage takes on an empty table, at least 1 (R526). -/
def State.stageLen (s : State) (t : PStage) : Nat :=
  Nat.max 1 (maxOf (t.items.map fun x =>
    let c := s.bookable x.1 x.2.1 (s.slot + 2)
    if x.2.2 = 0 then 0 else if c = 0 then 262144 else ceilDiv x.2.2 c))

/-- The uncontended length of a plan: the slots from the current one to its end (R526). -/
def State.planLen (s : State) (ts : List PStage) : Nat :=
  1 + sumOf (ts.map s.stageLen) + sumOf (ts.dropLast.map PStage.lat)

/-- The limits of the stages, last first: each is the next one's less its length and this one's latency (R526). -/
def State.limitsRev (s : State) : List PStage → Nat → List (PStage × Nat)
  | [], _ => []
  | t :: prev, lim => (t, lim) :: s.limitsRev prev (lim - s.stageLen t - ((prev.head?.map PStage.lat).getD 0))

/-- The stages with their limits, the last of which is `lim`. -/
def State.limits (s : State) (ts : List PStage) (lim : Nat) : List (PStage × Nat) := (s.limitsRev ts.reverse lim).reverse

/-- Die time of an operation (R52): its array time, its transfer and the suspension allowance. -/
def opNs (rec_ : Bytes) (array bytes : Nat) : Nat := array + recXfer rec_ bytes + leAt rec_ 24 4

/-- The amounts of a list of (index, amount) pairs, one per index. -/
def gather (r : Rsrc) (xs : List (Nat × Nat)) : List (Rsrc × Nat × Nat) :=
  (xs.map Prod.fst).eraseDups.map fun i => (r, i, sumOf ((xs.filter fun x => x.1 == i).map Prod.snd))

/-- The parts of media that hold a stored grain, with the array time of their block's mode. -/
def State.grainParts (s : State) (sgn : Nat) : List (RPart × Nat) :=
  match s.grain? sgn with
  | none => []
  | some g => (s.readParts (g.crumbs + 1) g.ploc g.crumbs).map fun p =>
      (p, leAt (s.dieRec p.die) (if s.partSlc sgn then 8 else 4) 4)

/-- The media stages of a read of some stored grains: die read, media port, decrypt, decompress (R50). -/
def State.mediaStages (s : State) (sgns : List Nat) : List PStage :=
  if sgns.isEmpty then []
  else
    let ps := sgns.flatMap s.grainParts
    let ns (p : RPart × Nat) : Nat := opNs (s.dieRec p.1.die) p.2 (p.1.crumbs * 256)
    let bytes := sumOf (ps.map fun p => p.1.crumbs * 256)
    [{ items := gather .die (ps.map fun p => (p.1.die, ns p)), lat := ceilDiv (maxOf (ps.map ns)) 8000, vol := 0 },
     { items := gather .mport (ps.map fun p => (dieModule p.1.die, p.1.crumbs * 256)), lat := 0, vol := 0 },
     { items := [(.cipher, 0, bytes)], lat := 1, vol := 0 },
     { items := [(.decomp, 0, 16384 * sgns.length)], lat := 1, vol := 0 }]

/-- The egress port and the overhead of a packet on a command's connection (R54); none on a host-side queue. -/
def State.egressOf (s : State) (c : Cmd) : Option (Nat × Nat × Nat) :=
  if c.host then none else (s.qp? c.qctx).map fun q => (q.port % 16, if q.v6 then 118 else 98, q.mtu)

/-- A stage on the command's egress port. A command of a host-side queue uses no Ethernet port, so its stage books nothing there
(DESIGN CHOICE, log 28). -/
def State.egressStage (s : State) (c : Cmd) (payload extra lat vol : Nat) : PStage :=
  match s.egressOf c with
  | some (port, o, mtu) => { items := [(.egress, port, payload + o * ceilDiv payload mtu + extra)], lat := lat, vol := vol }
  | none => { items := [], lat := lat, vol := vol }

/-- The blocks of grain `g` that a command reads are all in the brine (R50). -/
def State.inBrine (s : State) (c : Cmd) (g : Nat) : Bool :=
  let ov := s.overlay c.nsid g newest
  let m := grainMask c.slba c.nlb g
  (List.range 4).all fun i => !m.testBit i || (ov.getD i none).isSome

/-- Grains of a command. -/
def Cmd.grains (c : Cmd) : List Nat :=
  let r := grainRun c.slba c.nlb
  (List.range (r.2 + 1 - r.1)).map (· + r.1)

/-- A grain in the stream cache. -/
def State.cached (s : State) (nsid g : Nat) : Bool := s.mem.cache.any fun x => x.nsid == nsid && x.grain == g

/-- What a read plans: the grains taken from the stream cache, and the stored grains to read from media. Media is left out only for a read whose grains are all staged, or all cached; a cached grain
whose bytes do not fit in the intake slot is then read from media all the same (R50; 16_memory_cache.md R396; DEDUCED, log 29). -/
def State.readSources (s : State) (c : Cmd) (a : Nat) : List Nat × List Nat :=
  let a := s.alignStart a
  let far := decide (a ≥ s.farFirst)
  let room := (if far then 64 else 1) * s.bookable .cache 0 a - s.usedIn .cache 0 a far
  let hits := c.grains.all (s.cached c.nsid)
  if c.grains.all (s.inBrine c) then ([], [])
  else
    c.grains.foldl (fun (acc : List Nat × List Nat) g =>
      let m := s.mapGet c.nsid none g
      if hits ∧ 16384 * (acc.1.length + 1) ≤ room then (acc.1 ++ [g], acc.2)
      else if m.sgn = 0 then acc
      else (acc.1, acc.2 ++ [m.sgn])) ([], [])

/-- The plan of a read (R50). -/
def State.readPlan (s : State) (c : Cmd) (a : Nat) : List PStage :=
  let src := s.readSources c a
  let hits := 16384 * src.1.length
  let intake : PStage := { items := if hits = 0 then [] else [(.cache, 0, hits)], lat := 0, vol := 0 }
  [intake] ++ s.mediaStages src.2 ++ [s.egressStage c c.bytesOf 128 0 c.bytesOf]

/-- The stripe block whose dies a write with FUA is planned on: that of the open row of the WARM stream, or the first top pan
(DESIGN CHOICE, log 30). -/
def State.planTop (s : State) : Nat :=
  match s.openRow s.role 1 with
  | some r => r.top
  | none => (s.streamBlk s.role 1).elim 0 Blk.top

/-- The back-end stages of a write with FUA (R51). -/
def State.fuaStages (s : State) (c : Cmd) : List PStage :=
  let gs := c.grains
  let parts := gs.filter fun g => grainMask c.slba c.nlb g != 15
  let sgns := (parts.filter fun g => !(s.inBrine { c with slba := 4 * g, nlb := 4 } g)).map fun g => (s.mapGet c.nsid none g).sgn
  let bytes := c.bytesOf
  let enc := bytes + 16 * gs.length
  let table := match s.vol? c.nsid with
    | some v => v.flags.testBit 0
    | none => false
  let top := s.planTop
  let pan := s.topPan top
  let ds := s.leaves pan
  let row := s.crumbs pan * 256
  let raw := sumOf (ds.map fun d => recPb (s.dieRec d))
  let stored := 256 * ceilDiv (ceilDiv (enc * raw) row) 256
  let ports := (ds.map dieModule).eraseDups
  let rows := Nat.max 1 (ceilDiv enc row)
  let prog (d : Nat) : Nat := opNs (s.dieRec d) (leAt (s.dieRec d) 12 4) (recPb (s.dieRec d))
  let dies := gather .die ((ds.map fun d => (d, rows * prog d)) ++ [(s.indexDie s.role, prog (s.indexDie s.role))])
  let one (r : Rsrc) (n : Nat) : PStage := { items := [(r, 0, n)], lat := 1, vol := 0 }
  s.mediaStages (sgns.filter (· != 0)) ++
    [one .classifier bytes, one .digest bytes, one .comp (if table then ceilDiv (2 * bytes) 3 else bytes), one .cipher enc,
     one .erasure enc,
     { items := ports.map fun p => (.mport, p, ceilDiv stored (Nat.max 1 ports.length)), lat := 1, vol := 0 },
     { items := dies, lat := ceilDiv (maxOf ((s.indexDie s.role :: ds).map prog)) 8000, vol := 0 }]

/-- The plan of a write (R51). While the peer head is not in service, ALONE_ACK = 0 plans every write as one with FUA, and ALONE_ACK = 1 leaves the
mirror stage out (06_brine_write_path.md R143). -/
def State.writePlan (s : State) (c : Cmd) : List PStage :=
  let allow := ((s.vol? c.nsid).map Volume.clientAllow).getD 0
  let mirror := c.bytesOf + 64 * c.grains.length
  let ack := s.fld R.BRN_CFG 0 0 == 1
  [s.egressStage c 0 128 allow 0] ++
    (if s.alone && ack then [] else [{ items := [(.icl, 0, mirror)], lat := 1, vol := mirror }]) ++
    (if c.fua || (s.alone && !ack) then s.fuaStages c else []) ++ [s.egressStage c 0 128 0 0]

/-! ### The admission check -/

/-- Admitted deadline commands in flight. -/
def State.admitted (s : State) : List Cmd := s.hq.cmds.filter fun c => c.deadline.isSome

/-- The commands that a command waits for (R56): overlapping in-flight writes of the range-lock table, and those an ORD barrier puts
before it. -/
def State.waitsFor (s : State) (c : Cmd) : List Cmd :=
  s.hq.cmds.filter fun o => o.id != c.id && ((o.locked && o.lockNeed != 0 && o.meets c) || o.ordBefore c)

/-- The booked end of a command: the slot its plan ends in; a best-effort command has none (R56). -/
def Cmd.bookedEnd (c : Cmd) : Option Nat := if c.deadline.isSome then some c.bookEnd else none

/-- The checks of R46 and the horizon, in order. -/
def State.preAdmit (s : State) (c : Cmd) (d : Nat) : Option Rejection :=
  match s.vol? c.nsid with
  | none => some (1, 0, 0)
  | some v =>
    if s.fld R.SLU_ADMIT_CFG 0 0 = 0 then some (2, 0, 0)
    else if v.mode ≠ 1 then some (1, 0, 0)
    else if c.bytesOf > 4194304 then some (9, 0, 0)
    else if s.admitted.length ≥ 262144 then some (0xA, 13, 0)
    else if v.maxInflight ≠ 0 ∧ countOf (fun o => o.nsid == c.nsid) s.admitted ≥ v.maxInflight then some (0xB, 12, 0)
    else if d > s.lastSlot then some (3, 0, 0)
    else if c.opc = 1 ∧ s.freeBelow s.freeFloor then some (5, 4, 0)
    else none

/-- The brine pages, records and range-lock entry of a write are free (R84; 06_brine_write_path.md R135). -/
def State.brineFree (s : State) (c : Cmd) : Bool :=
  s.roomFor c.nlb c.grains.length true && decide (s.locksUsed < 32768)

/-- The admission check (R526): the state with the command's bookings and the slot its plan ends in, or the rejection, which books nothing (R48).
Stages are dispatched as soon as they can run (DEDUCED, log 81). TOO_LATE comes before DEPENDENCY, and its shortfall is the slots by which the
uncontended plan and its slack run past the deadline (DESIGN CHOICE, log 115). -/
def State.admitCmd (s : State) (c : Cmd) (deadline : Nat) : Except Rejection (State × Nat) :=
  let d := deadline / 8000
  match s.preAdmit c d with
  | some r => .error r
  | none =>
    let ends := (s.waitsFor c).map Cmd.bookedEnd
    let a := Nat.max (s.slot + 2) (maxOf (ends.map fun e => (e.getD 0) + 1))
    let plan := if c.opc = 1 then s.writePlan c else s.readPlan c a
    let len := s.planLen plan
    if s.slot + len + 64 > d then .error (4, 0, shortfall (s.slot + len + 64 - d))
    else if ends.any Option.isNone then .error (8, 0, 0)
    else
      match s.layStages c.nsid c.id deadline (s.limits plan (d - 64)) a a with
      | .error r => .error r
      | .ok (t, e) => if c.opc = 1 ∧ !s.brineFree c then .error (7, 11, 0) else .ok (t, e)

/-- DNR of a rejection (R63). -/
def rejectDnr (reason : Nat) : Bool := reason == 1 || reason == 9

/-- The brine entries that hold a record of a grain of a read (06_brine_write_path.md R146). -/
def State.entsOf (s : State) (c : Cmd) : List Nat :=
  ((s.entsBelow newest).filter fun e => e.nsid == c.nsid && e.recs.any fun r => c.grains.contains r.grain).map BEnt.id

/-- A read pins the stream cache entries of its grains until it completes (R50). -/
def State.pinCache (s : State) (c : Cmd) : State :=
  let pin (x : CacheEnt) : CacheEnt :=
    if x.nsid = c.nsid ∧ c.grains.contains x.grain = true then { x with pins := x.pins ++ [c.id], used := true } else x
  { s with mem.cache := s.mem.cache.map pin }

/-- The outcome of the sluice for a new command: the state, and the command as it goes on, or the completion it gets (R44, R45). -/
def State.sluice (s : State) (c : Cmd) (deadline : Nat) : State × Option Cmd :=
  if deadline = 0 then (s.bump R.SLU_BE_CNT, some c)
  else if !s.admitOk then ((s.bump R.SLU_TIME_REJ_CNT).complete c.qctx c.cid 7 0xC4 false 0 0, none)
  else
    match s.admitCmd c deadline with
    | .error (reason, r, short) =>
      let s := (s.bump R.SLU_REJECT_CNT).bump (R.SLU_REJ_CNT_N reason)
      (s.complete c.qctx c.cid 7 0xC0 (rejectDnr reason) (short * 65536 + r * 256 + reason) 0, none)
    | .ok (t, e) =>
      let c := { c with deadline := some deadline, bookEnd := e }
      let hits := (t.tide.table.filter fun b => b.cmd == c.id && b.rsrc == .cache).map fun b => b.amount / 16384
      let t := (t.bump R.SLU_ADMIT_CNT).bumpBy R.MEM_CACHE_HIT_BOOK_CNT (sumOf hits)
      if c.opc = 1 then ((t.takeLock c).reserveFor c, some { c with locked := true })
      else (t.pinCache c, some { c with entries := t.entsOf c })

/-! ### Misses (R64, R65) -/

/-- The result dword of a miss (R64). -/
def missDword (committed : Bool) (rsrc cause : Nat) : Nat := b2n committed * 2 ^ 31 + rsrc * 256 + cause

/-- The bookings of a command are released. -/
def State.unbook (s : State) (id : Nat) : State := { s with tide.table := s.tide.table.filter fun b => b.cmd != id }

/-- A write has a journal sequence: some entry of it has one. -/
def State.inJournal (s : State) (id : Nat) : Bool := s.brn.ents.any fun e => e.cmd == some id && e.jseq != 0

/-- A command misses its deadline (R64): a read, or a write not yet in the journal, ends; a write in the journal runs on to its
completion point. -/
def State.missCmd (s : State) (c : Cmd) (rsrc cause : Nat) : State :=
  let s := s.bump (R.SLU_MISS_CNT_N cause)
  if s.inJournal c.id then
    let s := (s.unbook c.id).putIo { c with locked := false, missed := some (missDword true rsrc cause) }
    s.checkCmd c.id
  else ((s.discardCmd c.id).bump R.SLU_MISS_CNT).endIo c.id 7 0xC1 false (missDword false rsrc cause)

/-- A command is booked on a resource, by its code (R63). -/
def State.bookedOn (s : State) (id rsrc : Nat) : Bool := s.tide.table.any fun b => b.cmd == id && b.rsrc.code == rsrc

/-- The capacity that an engine type has lost reaches into its reservation (R60). The erasure engine has clusters only. -/
def State.engRsv (s : State) (engine : Nat) : Bool :=
  let cores := match engine with
    | 0 => 112 | 1 => 64 | 2 => 128 | 3 => 48 | _ => 0
  s.upBits engine != 2 ^ (engineClusters engine).length - 1 || (engine != 4 && decide ((s.coresUp engine).length < cores))

/-- A pan is degraded. -/
def State.panRsv (s : State) : Bool :=
  s.med.units.any fun d => unitClass d.id == 7 && (d.state == .degraded || d.state == .rebuilding || d.state == .failed)

/-- A case of R65 can have made a command miss: the reservation it names is in use, and the command is booked on its resource. Causes 6 and 7 name no
resource. -/
def State.missFits (s : State) (c : Cmd) (cause rsrc : Nat) : Bool :=
  match cause with
  | 1 => decide (5 ≤ rsrc) && decide (rsrc ≤ 9) && s.engRsv (rsrc - 5) && s.bookedOn c.id rsrc
  | 2 => rsrc == 4 && s.panRsv && (c.opc == 2 || c.fua) && s.bookedOn c.id rsrc
  | 3 => rsrc == 3 && s.lnk.mods.any (·.proxied) && s.bookedOn c.id rsrc
  | 4 => rsrc == 2 && s.bookedOn c.id rsrc
  | 5 => rsrc == 1 && s.bookedOn c.id rsrc
  | 6 => c.opc == 1 && !s.inJournal c.id && decide (rsrc ≤ 13)
  | 7 => decide (rsrc ≤ 13)
  | 8 => (s.pwr.throttle || s.pwr.critical) && decide (5 ≤ rsrc) && decide (rsrc ≤ 10) && s.bookedOn c.id rsrc
  | 9 => (rsrc == 3 || rsrc == 4) && s.bookedOn c.id rsrc
  | _ => false

/-- DEADLINE_MISSED (R64): an admitted command whose deadline is at or before the start of the current slot and that has not been
delivered. Which of the cases of R65 that the state allows it fell to, and which resource, are operands: the block's timing, which would show them,
is not modelled (DESIGN CHOICE, log 31). -/
def execDeadlineMissed (cmd cause rsrc : Nat) (s : State) : Host.Outcome State Fault Refusal :=
  .next <|
    match s.io? cmd with
    | none => s
    | some c =>
      match c.deadline with
      | none => s
      | some d =>
        if d > 8000 * s.slot ∨ c.missed.isSome ∨ !s.missFits c cause rsrc then s else s.missCmd c rsrc cause

/-! ### Volume settings (R67, R68, R69) -/

/-- The kind of a configuration record that carries a volume. -/
def cfgVolume := 0xE0

/-- A volume as its configuration record carries it (layout: DESIGN CHOICE, log 20). -/
def Volume.record (v : Volume) : Bytes :=
  leBytes 1 cfgVolume ++ leBytes 4 v.nsid ++ leBytes 1 v.lbaf ++ leBytes 1 (b2n v.attached) ++ leBytes 2 v.ana ++
    leBytes 2 v.homeKey ++ leBytes 4 v.domain ++ leBytes 8 v.nsze ++ leBytes 1 v.mode ++ leBytes 1 v.flags ++
    leBytes 2 v.clientAllow ++ leBytes 4 v.budget ++ leBytes 4 v.maxInflight ++ leBytes 4 v.cgroup

/-- The volume that a configuration record carries. -/
def Volume.ofRecord (b : Bytes) : Volume :=
  { nsid := leAt b 1 4, lbaf := leAt b 5 1, attached := leAt b 6 1 == 1, ana := leAt b 7 2, homeKey := leAt b 9 2,
    domain := leAt b 11 4, nsze := leAt b 15 8, mode := leAt b 23 1, flags := leAt b 24 1, clientAllow := leAt b 25 2,
    budget := leAt b 27 4, maxInflight := leAt b 31 4, cgroup := leAt b 35 4 }

/-- A volume changes, with its configuration record: for the entries that have their place in the journal (07_data_reduction.md R179) it is what it
was. -/
def State.storeVol (s : State) (v : Volume) : State :=
  let j := s.journalOf v.nsid
  ((s.notePast j (s.journal j).jseq v.nsid).putVol v).keepPages.placeCfg v.record

/-- A planned move of a group runs (20_control_packets.md R473). -/
def State.moving (s : State) (ana : Nat) : Bool := s.pair.moves.any fun m => m.grp == ana

/-- Bytes of the map pages that a volume has; a page without an entry does not exist (11_flash_translation.md R268). -/
def State.mapBytes (s : State) (v : Volume) : Nat := 4096 * ((s.map? v.nsid none).elim 0 fun m => m.pages.length)

/-- Bytes of the stored grain table pages of some ANA groups (07_data_reduction.md R170, R171; 11_flash_translation.md R282). -/
def State.grainBytes (s : State) (groups : List Nat) : Nat :=
  4096 * (((s.ftl.grains.filter fun g => groups.contains (g.sgn / 2 ^ 38 + 1)).map fun g => g.sgn / 128).eraseDups).length

/-- The volumes in deadline mode that this head serves (R47). -/
def State.deadlineVols (s : State) : List Volume := s.pool.volumes.filter fun x => x.mode == 1 && s.ownsGroup x.ana

/-- The maps of the deadline-mode volumes and of one more, with the stored grain table pages of their groups, fit in the map areas (R47, R69;
16_memory_cache.md R393; that pages count as they exist now: DEDUCED, log 32). -/
def State.mapFits (s : State) (v : Volume) : Bool :=
  let vs := v :: s.deadlineVols.filter (·.nsid != v.nsid)
  decide (sumOf (vs.map s.mapBytes) + s.grainBytes (vs.map Volume.ana).eraseDups ≤ s.mapArea)

/-- SET_VOLUME_ADMISSION (R68, R69). -/
def execSetVolumeAdmission (ring slot : Nat) (s : State) : Host.Outcome State Fault Refusal :=
  .next <| s.packet 0x58 ring slot fun e _ s =>
    let mode := e.num 14 1
    match s.vol? (e.num 10 4) with
    | none => .fail s stInvalidField
    | some v =>
      if !s.ownsGroup v.ana then .fail s stNotOwner
      else if mode > 1 ∨ e.num 15 1 > 1 ∨ e.num 16 2 < 1 ∨ e.num 16 2 > 4096 ∨ e.num 22 4 > 262144 ∨ !e.zero 26 8 then
        .fail s stInvalidField
      else if s.moving v.ana then .fail s stBusy
      else if mode = 1 ∧ v.mode = 0 ∧ v.lbaf = 1 then .fail s 0x0201
      else if mode = 1 ∧ v.mode = 0 ∧ s.deadlineVols.length ≥ 16384 then .fail s 0x0202
      else if mode = 1 ∧ v.mode = 0 ∧ !s.mapFits v then .fail s 0x0200
      else
        let v := { v with
          mode := mode, flags := e.num 15 1, clientAllow := e.num 16 2, budget := e.num 18 4, maxInflight := e.num 22 4 }
        .done (s.storeVol v) stOk [] []

/-- GET_VOLUME_ADMISSION (R68). -/
def execGetVolumeAdmission (ring slot : Nat) (s : State) : Host.Outcome State Fault Refusal :=
  .next <| s.packet 0x59 ring slot fun e _ s =>
    match s.vol? (e.num 10 4) with
    | none => .fail s stInvalidField
    | some v =>
      if !s.ownsGroup v.ana then .fail s stNotOwner
      else
        let n := countOf (fun c => c.nsid == v.nsid) s.admitted
        .done s stOk (leBytes 4 v.nsid ++ leBytes 1 v.mode ++ leBytes 1 v.flags ++ leBytes 2 v.clientAllow ++ leBytes 4 v.budget ++
          leBytes 4 v.maxInflight ++ leBytes 4 n) []

/-! ### Status (R60, R70) -/

/-- SLU_STATUS (R70). -/
def State.sluStatus (s : State) : Nat :=
  let eng := sumOf ((List.range 5).map fun i => b2n (s.engRsv i) * 2 ^ (3 + i))
  let pan := s.med.units.any fun d => unitClass d.id == 7 && (d.state == .degraded || d.state == .rebuilding)
  let port := s.lnk.mods.any (·.proxied)
  b2n (s.fld R.SLU_ADMIT_CFG 0 0 == 1 && s.admitOk) + eng + b2n pan * 256 + b2n port * 512

/-! ### Timed events (02_fabric_time.md R40) -/

/-- An instant is accepted into the table of timed events, or refused with a status (R40). -/
def State.armTimed (s : State) (instant : Nat) (kind : TimedKind) : Except Nat State :=
  if s.tide.state = .freerun then .error 0x0100
  else if instant / 8000 < s.slot + 2 then .error 0x0101
  else if s.tide.timed.length ≥ 256 then .error 0x0102
  else
    let t : Timed :=
      { instant := instant, order := s.tide.nextOrder, armed := decide (instant / 8000 ≤ s.lastSlot), kind := kind }
    .ok { s with tide.timed := s.tide.timed ++ [t], tide.nextOrder := s.tide.nextOrder + 1 }

/-- The accepted instants of a kind are cancelled. -/
def State.cancelTimed (s : State) (p : TimedKind → Bool) : State :=
  { s with tide.timed := s.tide.timed.filter fun t => !p t.kind }

end Sys2Proof.Machine
end

