-- ==== Sys2Proof/Machine/ReadPath.lean ====
section
/-! DEFINITION. Serving a read: brine, stream cache, media, decryption and decoding, delivery (03_sluice.md R50; 06_brine_write_path.md R145,
R146; 07_data_reduction.md R176; 08_compression.md R196; 10_media_units_pans.md R251; 16_memory_cache.md R395). -/
namespace Sys2Proof.Machine

/-! ### Stream cache (16_memory_cache.md R393, R395) -/

/-- Grains that the stream cache area holds. -/
def State.cacheCap (s : State) : Nat := (s.mem.ddrGib - 4) * bits s.mem.ddrSplit 15 8 / 256 * 65536

/-- A grain enters the cache; a not-recently-used entry that no read pins makes room, after a sweep where every one was used (R395). -/
def State.cacheInsert (s : State) (nsid g : Nat) (content : Bytes) : State :=
  let rest := s.mem.cache.filter fun x => !(x.nsid == nsid && x.grain == g)
  let e : CacheEnt := { nsid := nsid, grain := g, content := content, used := true, pins := [] }
  if rest.length < s.cacheCap then { s with mem.cache := rest ++ [e] }
  else
    let free (x : CacheEnt) : Bool := x.pins.isEmpty && !x.used
    let swept := if rest.any free then rest else rest.map (fun (x : CacheEnt) => { x with used := false })
    match swept.find? free with
    | none => { s with mem.cache := swept }
    | some v => { s with mem.cache := (swept.filter fun x => !(x.nsid == v.nsid && x.grain == v.grain)) ++ [e] }

/-! ### Delivery -/

/-- Pieces of data for the descriptors of a data pointer. -/
def sglPieces : List Sgl → Bytes → List (Sgl × Bytes)
  | [], _ => []
  | g :: gs, bs => (g, bs.take g.len) :: sglPieces gs (bs.drop g.len)

/-- Data of a command goes to its buffers: RDMA WRITEs to a client, or host memory (04_host_queues.md R78; 05_rdma_transport.md R103). -/
def State.sendData (s : State) (host : Bool) (qctx cmd : Nat) (sgl : List Sgl) (data : Bytes) : State :=
  (sglPieces sgl data).foldl (fun (s : State) p =>
    if p.2 = [] then s
    else if host then s.deliver (.hostWrite p.1.addr p.2)
    else s.deliver (.clientWrite qctx cmd p.1.addr p.1.key p.2)) s

/-- The bytes of one logical block as a transfer carries them, from the four blocks of its grain. -/
def State.wireBlock (s : State) (nsid : Nat) (blocks : List Bytes) (i : Nat) : Bytes := slice (blocks.getD i []) 0 (s.blockBytes nsid)

/-- The entries that a read has pinned (06_brine_write_path.md R146). -/
def State.pinnedEnts (s : State) (c : Cmd) : List BEnt := s.brn.ents.filter fun e => c.entries.contains e.id

/-- The four blocks of a grain as a read returns them: those of the records it pinned over what was below (06_brine_write_path.md R145,
R146). -/
def State.grainNow (s : State) (c : Cmd) (g : Nat) (base : Bytes) : List Bytes :=
  mergeBlocks (s.blocksIn (s.pinnedEnts c) c.nsid g) (blocksOf base)

/-- A read whose grains are all there delivers its data and completes; a Verify completes without data. Protection information
that fails a check ends either (04_host_queues.md R79). One whose deadline has passed is
left to DEADLINE_MISSED (03_sluice.md R64). -/
def State.finishRead (s : State) (id : Nat) : State :=
  match s.io? id with
  | none => s
  | some c =>
    if c.stage ≠ .media ∨ c.grains.any (fun g => !c.got.any fun x => x.1 == g) then s
    else if (match c.deadline with | some d => decide (s.tide.time > d) | none => false) then s
    else
      let block (lba : Nat) : Bytes :=
        let g := lba / 4
        s.wireBlock c.nsid (s.grainNow c g (((c.got.find? fun x => x.1 == g).map Prod.snd).getD [])) (lba % 4)
      let data := (List.range c.nlb).flatMap fun i => block (c.slba + i)
      match c.piCheck (s.blockBytes c.nsid) data with
      | some sc => s.endIo id 2 sc (Config.dnr 2 sc)
      | none =>
      if c.opc ≠ 2 then s.endIo id 0 0 false
      else (s.sendData c.host c.qctx c.id c.sgl data).endIo id 0 0 false

/-- A grain of a read has come. -/
def State.gotGrain (s : State) (id g : Nat) (content : Bytes) : State :=
  match s.io? id with
  | none => s
  | some c => (s.putIo { c with got := (c.got.filter fun x => x.1 != g) ++ [(g, content)] }).finishRead id

/-! ### Frames (07_data_reduction.md R174-R176; 08_compression.md R196) -/

/-- The checks of a decrypted frame of `len16` units, and its content (R176, R196). -/
def decodeFrame (f : Bytes) (len16 : Nat) : Option Bytes :=
  let gen := leAt f 1 1
  let mode := leAt f 2 1 % 4
  let pi := (leAt f 2 1).testBit 2
  let n := leAt f 4 2
  let limit := if pi then 16448 else 16384
  if leAt f 0 1 ≠ 0xA5 ∨ leAt f 6 2 ≠ crc32c (f.take 6) % 65536 ∨ ceilDiv (n + 16) 16 ≠ len16 then none
  else if gen < 1 ∨ gen > 3 ∨ mode = 3 then none
  else
    let body := slice f 8 n
    match if mode = 2 then some body else inflateFrame limit body with
    | none => none
    | some out =>
      if out.length > limit ∨ out.length ≠ leAt f (12 + n) 4 ∨ crc32 out ≠ leAt f (8 + n) 4 then none else some out

/-- The volume a read job is for, 0 where it is for none. -/
def State.jobNsid (s : State) (why : ReadFor) : Nat :=
  match why with
  | .cmd id _ => ((s.io? id).map Cmd.nsid).getD 0
  | .merge ent _ => ((s.ent? ent).map BEnt.nsid).getD 0
  | _ => 0

/-- The event that names a grain which stays bad (R176, R525). -/
def State.lostEvent (s : State) (j : ReadJob) : State :=
  let die := (j.parts.head?.map RPart.die).getD 0
  let ploc := ((s.grain? j.sgn).map Grain.ploc).getD 0
  s.event 0x07 evcUncorrected 4 die (evAddr 5 ploc ++ evValue j.sgn ++ evNsid (s.jobNsid j.why))

/-- A read job ends. -/
def State.dropJob (s : State) (id : Nat) : State := { s with ftl.reads := dropKey ReadJob.id id s.ftl.reads }

/-- The journal of a brine entry. -/
def State.entJournal (s : State) (ent : Nat) : Nat := ((s.ent? ent).map BEnt.journal).getD s.role

/-- A grain that no reconstruction gives (R176, R251): a command ends with Unrecovered Read Error; a merge goes on over unknown bytes
(log 33); harvest leaves the frame behind. A replication session reads its grain no further, and its message stays unbuilt. -/
def State.readLost (s : State) (j : ReadJob) : State :=
  let s := (s.lostEvent j)
  match j.why with
  | .cmd id _ => (s.dropJob j.id).endIo id 2 0x81 (Config.dnr 2 0x81)
  | .merge ent idx =>
    let s := s.dropJob j.id
    let base := (List.range 16448).map (Config.lostByte j.sgn)
    (s.mergeBase ent idx (blocksOf base)).pump (s.entJournal ent)
  | .harvest top blk =>
    match s.harvest? top blk with
    | some h => s.packCopies h
    | none => s
  | _ => s.dropJob j.id

/-- The content of a grain has been read and checked. -/
def State.readGot (s : State) (j : ReadJob) (content : Bytes) : State :=
  let s := s.dropJob j.id
  match j.why with
  | .cmd id g =>
    let n := s.jobNsid j.why
    let s := match s.vol? n with
      | some v => if v.mode = 1 ∧ (s.mapGet n none g).sgn = j.sgn then s.cacheInsert n g content else s
      | none => s
    s.gotGrain id g content
  | .merge ent idx => (s.mergeBase ent idx (blocksOf content)).pump (s.entJournal ent)
  | _ => s

/-- A frame failed its checks (R176): the crumbs are reconstructed and checked again; the second time the grain is lost. -/
def State.frameBad (s : State) (j : ReadJob) : State :=
  if j.again then s.readLost j
  else
    let parts := j.parts.map fun p => { p with got := none, recon := false, lost := false }
    let s := s.putJob { j with again := true, parts := parts }
    let s := (List.range parts.length).foldl (fun (s : State) k => s.reconstruct j.id k) s
    match s.job? j.id with
    | some j => if j.isLost then s.readLost j else s
    | none => s

/-- The blocks of grain `g` that a command reads, as the records it pinned give them. -/
def State.pinnedBlocks (s : State) (c : Cmd) (g : Nat) : List (Option Bytes) :=
  let ov := s.blocksIn (s.pinnedEnts c) c.nsid g
  ((List.range 4).filter fun i => (grainMask c.slba c.nlb g).testBit i).map fun i => ov.getD i none

/-- The first steps of a grain of a read: the brine, the zero grain, the cache, or media (R50); where the lookup meets a dropped page, that page is
read first (11_flash_translation.md R269). One that a record of the brine gives blocks of is
counted, grain by grain (06_brine_write_path.md R157; DESIGN CHOICE, log 139). -/
def State.readOne (s : State) (c : Cmd) (g : Nat) : State :=
  let m := s.mapGet c.nsid none g
  let bs := s.pinnedBlocks c g
  match if bs.all Option.isSome then none else s.pageAway c.nsid g with
  | some p => s.pageFetch (some (c.id, g)) p
  | none =>
    let s := match s.pageOf c.nsid none (g / 512) with
      | some i => s.metaRead .mapPage i.id (8 * (g % 512))
      | none => s
    let s := if m.sgn = 0 then s else s.metaRead .grainTable (m.sgn / 128) (32 * (m.sgn % 128))
    let s := if bs.all Option.isSome then s else s.lookUp c.nsid g
    let s := if bs.any Option.isSome then s.bump R.BRN_BRINE_READ_CNT else s
    if bs.all Option.isSome then s.gotGrain c.id g (contentOf (s.zeroGrain c.nsid g))
    else if m.sgn = 0 then s.gotGrain c.id g (contentOf (s.zeroGrain c.nsid g))
    else
      match s.mem.cache.find? fun x => x.nsid == c.nsid && x.grain == g with
      | some x => s.gotGrain c.id g x.content
      | none => s.readGrain (.cmd c.id g) m.sgn c.deadline.isSome

/-- A dropped page has been read back, or no reconstruction gives it: the reads that waited for it go on, or end with Unrecovered Read Error
(R269; the event names the page's image: DESIGN CHOICE, log 94). -/
def State.pageReady (s : State) (j : ReadJob) (p : Nat × Nat) : State :=
  let js := s.ftl.reads.filter fun x => x.why.isPage p
  let who (x : ReadJob) : Option (Nat × Nat) :=
    match x.why with
    | .page (some w) _ _ => some w
    | _ => none
  let drop (s : State) : State := { s with ftl.reads := s.ftl.reads.filter fun x => !x.why.isPage p }
  if j.isLost then
    (js.filterMap who).foldl (fun s w => s.endIo w.1 2 0x81 (Config.dnr 2 0x81))
      (drop (s.event 0x07 evcUncorrected 4 ((j.parts.head?.map RPart.die).getD 0) (evAddr 5 (s.pagePloc p))))
  else if j.whole.isSome ∧ !j.parts.isEmpty then
    (js.filterMap who).foldl (fun (s : State) w => match s.io? w.1 with
      | some c => s.readOne c w.2
      | none => s) ((drop s).pageCame p)
  else s

/-- The parts of a read job have come or are lost: harvest packs raw frames, a rebuild programs its substitute,
every other frame goes to the cipher (R50, R176, R254). -/
def State.readReady (s : State) (id : Nat) : State :=
  match s.job? id with
  | none => s
  | some j =>
    match j.why with
    | .rebuild pan pos w => s.rebuildReady j pan pos w
    | .page _ t n => s.pageReady j (t, n)
    | _ =>
      if j.isLost then s.readLost j
      else
        match j.whole with
        | none => s
        | some bs =>
          match j.why with
          | .harvest top blk =>
            match s.harvest? top blk with
            | some h => s.packCopies h
            | none => s
          | _ =>
            if s.red.jobs.any fun x => x.why == JobWhy.read id then s
            else
              let len := ((s.grain? j.sgn).map Grain.len16).getD 0 * 16
              s.startJob 3 (.read id) (slice bs 0 len)

/-- The plain frame of a read job, decrypted under the page and the tweak of its stored grain (R175, R176). -/
def State.plainFrame (s : State) (j : ReadJob) (bs : Bytes) : Bytes :=
  match s.grain? j.sgn with
  | none => []
  | some g => Config.xtsDecrypt (s.pageKey g.keyPage) g.tweak bs

/-- The decompressor has finished a frame of a read job (R196). -/
def State.readDecoded (s : State) (id : Nat) (plain : Bytes) : State :=
  match s.job? id with
  | none => s
  | some j =>
    match decodeFrame plain (((s.grain? j.sgn).map Grain.len16).getD 0) with
    | some c => s.readGot j c
    | none => s.frameBad j

/-! ### Reads after a change of units (10_media_units_pans.md R250, R251) -/

/-- Read jobs that have become whole or lost are taken up. -/
def State.sweepReads (s : State) : State := (s.ftl.reads.map ReadJob.id).foldl State.readReady s

/-- Erases count as complete for dies that no longer serve (R249). -/
def State.sweepErases (s : State) : State :=
  (s.ftl.blocks.filter fun b => b.state == .erasePending && !b.eraseLeft.isEmpty).foldl (fun (s : State) b =>
    let left := b.eraseLeft.filter fun d => (s.ust d).serving
    (s.putBlk { b with eraseLeft := left }).blkErased b.top b.blk) s

/-- After units have left service: reads of theirs are reconstructed, those that cannot be are lost, their erases have ended,
the lead module may change, and rebuilds go on. -/
def State.afterUnits (s : State) : State := ((((s.rescueReads.sweepReads).sweepErases).leadCheck).anchorCheck).rebuildPump

/-- A read or Verify that has passed the range-lock stage starts (R50, R146): one that was planned over records that give every block uses
those; any other pins the records that are not released now. -/
def State.startRead (s : State) (c : Cmd) : State :=
  let whole := c.grains.all fun g => (s.pinnedBlocks c g).all Option.isSome
  let c := { c with stage := .media, entries := if whole then c.entries else s.entsOf c }
  let s := ((s.putIo c).freeReleased).pinCache c
  (c.grains.foldl (fun (s : State) g => s.readOne c g) s).sweepReads

/-! ### Rows that can take units out of service -/

/-- MEDIA_PORT_DOWN (13_media_link.md R334), and what follows for the reads in flight. -/
def execMediaPortDown (port : Nat) (s : State) : Host.Outcome State Fault Refusal := .next (rowMediaPortDown port s).afterUnits

/-- MODULE_PRESENCE_LOST (10_media_units_pans.md R249), and what follows for the reads in flight. -/
def execModulePresenceLost (port : Nat) (s : State) : Host.Outcome State Fault Refusal := .next (rowModulePresenceLost port s).afterUnits

/-- MODULE_EVENT_RX (13_media_link.md R322, R332), and what follows for the reads in flight. -/
def execModuleEventRx (port code die : Nat) (s : State) : Host.Outcome State Fault Refusal := .next (rowModuleEventRx port code die s).afterUnits

/-- DIE_COMMAND_TIMEOUT (10_media_units_pans.md R249), and what follows for the reads in flight. -/
def execDieCommandTimeout (port tag : Nat) (s : State) : Host.Outcome State Fault Refusal := .next (rowDieCommandTimeout port tag s).afterUnits

/-- BOOKED_READ_TIMEOUT (10_media_units_pans.md R250), and what follows for the reads in flight. -/
def execBookedReadTimeout (job : Nat) (s : State) : Host.Outcome State Fault Refusal := .next (rowBookedReadTimeout job s).afterUnits

/-- REBUILD_POSITION_END (10_media_units_pans.md R248): the mark clears, FAILED_CNT falls, the pan is judged again, and the next pan may rebuild
(R254). -/
def execRebuildPositionEnd (pan pos : Nat) (s : State) : Host.Outcome State Fault Refusal :=
  .next <|
    let d := s.unit pan
    match d.members[pos]? with
    | none => s
    | some m =>
      if !m.subst || (s.med.rebuilds.any fun b => b.pan == pan && b.pos == pos && (!b.rows.isEmpty || s.rebuildBusy b)) then s
      else
        let left := (d.members.set pos ⟨m.unit, false⟩).any (·.subst)
        let s := s.putUnit { d with
          members := d.members.set pos ⟨m.unit, false⟩
          rebuildDone := if left then d.rebuildDone else 0
          rebuildTotal := if left then d.rebuildTotal else 0 }
        (s.recount s.depth pan).rebuildPump

/-- SET_UNIT_SERVICE (10_media_units_pans.md R262), and what follows for the reads in flight. -/
def execSetUnitService (ring slot : Nat) (s : State) : Host.Outcome State Fault Refusal := .next (rowSetUnitService ring slot s).afterUnits

/-- UNIT_STATE_RECORD_RX (10_media_units_pans.md R257), and what follows for the reads in flight. -/
def execUnitStateRecordRx (h : PtlHdr) (payload : Bytes) (s : State) : Host.Outcome State Fault Refusal := .next (rowUnitStateRecordRx h payload s).afterUnits

/-- DRAIN_TAKE (06_brine_write_path.md R147): the drain takes the next entry of a journal this head holds and dispatches its grains. -/
def execDrainTake (journal : Nat) (s : State) : Host.Outcome State Fault Refusal :=
  .next <|
    if !s.heldJournals.contains journal then s
    else
      match s.drainNext journal with
      | none => s
      | some e =>
        let e := { e with state := .draining }
        let s := s.putEnt e
        let s := ((List.range e.recs.length).zip e.recs).foldl (fun s x => s.startRec e x.1 x.2) s
        (s.pump journal).sweepReads

end Sys2Proof.Machine
end

