-- ==== Sys2Proof/Machine/HostQ.lean ====
section
/-! DEFINITION. I/O commands: decode, ordering, range locks, the NVMe I/O rows, host-side queues (04_host_queues.md R71-R90, R98-R101). -/
namespace Sys2Proof.Machine

/-! ### Decode (R77, R78) -/

/-- The head serves volumes at all: no alarm, power failure or critical condition holds it (09_cipher_digest.md R233;
22_power_electrical.md R511, R514). -/
def State.serving (s : State) : Bool := !s.keys.erased && !s.pwr.pfail && !s.pwr.critical

/-- ANA states (R98), coded as the ANA log codes them: 1 Optimized, 3 Inaccessible, 4 Persistent Loss, 15 Change. Before the head is PAIRED
or SOLO, and while a journal it holds is being replayed or has a loss that is not accepted, nothing is accessible (DEDUCED, log 34). -/
def State.anaState (s : State) (g : Nat) : Nat :=
  match s.pair.state with
  | .fenced => 4
  | .paired | .suspect | .electing | .solo =>
    if (s.group g).change then 15
    else if s.ownsGroup g && !s.brn.replaying && !(s.brn.lost.any fun x => x.1 == s.groupJournal g) then 1
    else 3
  | _ => 3

/-- The status of a command to a volume that this head does not serve (R99). -/
def anaStatus : Nat → Option (Nat × Nat)
  | 1 => none
  | 3 => some (3, 2)
  | 15 => some (3, 3)
  | _ => some (3, 1)

/-- A status with its DNR bit. The spec gives DNR for the ANA statuses and for those of the vendor type; for the others it is free. -/
def dnrOf (st : Nat × Nat) : Bool := if st.1 = 3 then false else if st.1 = 7 then st.2 == 0xC3 else Config.dnr st.1 st.2

/-- Volume state (R77 step 3): sanitize, format, ANA. -/
def State.volStatus (s : State) (v : Volume) : Option (Nat × Nat) :=
  if s.hq.san.state = .running then some (0, 0x1D)
  else if s.hq.san.failMode then some (0, 0x1C)
  else if s.hq.formats.any (·.nsid == v.nsid) then some (0, 0x84)
  else anaStatus (s.anaState v.ana)

/-- What a command asks of each run of blocks, and its checks. `xfer`: it transfers data; `write`: it needs a writable pool; `ordOk`: ORD
may be set; `sdealOk`: CDW13 bit 9 may be set. -/
structure IoForm where
  xfer : Bool
  write : Bool
  ordOk : Bool
  sdealOk : Bool
  deriving DecidableEq, Repr

/-- Records that may need a new grain, of a run of blocks (07_data_reduction.md R170): every record of a write, the partial ones of Write
Zeroes and deallocate. -/
def newGrains (opc slba n : Nat) : Nat :=
  countOf (fun (r : BRec) => opc == 1 || r.mask != 15) (runRecs slba n 1 1)

/-- The runs of blocks of a command. -/
def Cmd.runs (c : Cmd) : List (Nat × Nat) := if c.opc = 9 then c.waits else [(c.slba, c.nlb)]

/-- Records of a command that may need a new grain. -/
def Cmd.newGrains (c : Cmd) : Nat :=
  if c.opc = 1 ∨ c.opc = 8 ∨ (c.opc = 9 ∧ !c.ranges.isEmpty) then sumOf (c.runs.map fun r => Machine.newGrains c.opc r.1 r.2) else 0

/-- Records of an entry that are still to be decided and may need a new grain; with those of its chain (R170). -/
def State.entPending (s : State) (e : BEnt) : Nat :=
  let open_ (i : Nat) : Bool := match s.drec? e.id i with
    | some r => r.stage == .merge || r.stage == .digest || r.stage == .decide
    | none => !e.placed
  countOf (fun x : Nat × BRec => (x.2.kind == 1 || x.2.mask != 15) && open_ x.1) ((List.range e.recs.length).zip e.recs) +
    sumOf (e.chain.map fun r => Machine.newGrains 8 r.1 r.2)

/-- Stored grains of a group with its pending records (R170). -/
def State.groupLoad (s : State) (ana : Nat) : Nat :=
  let vols := (s.pool.volumes.filter (·.ana == ana)).map Volume.nsid
  let early := s.hq.cmds.filter fun c => vols.contains c.nsid && (c.stage == .ordWait || c.stage == .lockWait) && (s.reserved? c).isNone
  s.groupGrains ana + sumOf ((s.brn.ents.filter fun e => vols.contains e.nsid).map s.entPending) + sumOf (early.map Cmd.newGrains)

/-- In-capsule data of a command is as long as its descriptors say (R78; 05_rdma_transport.md R126). -/
def capsuleOk (e : Sqe) : Bool :=
  let inCapsule := e.sgl.filter fun g => g.kind == .capsule
  inCapsule.isEmpty || sumOf (inCapsule.map Sgl.len) == e.data.length

/-- The data length that a command carries is the one expected (R78): that of its descriptors, with in-capsule data as long as they say. A
PRP-addressed command carries what is expected. -/
def lenOk (e : Sqe) (expected : Nat) : Bool := e.prp || (capsuleOk e && sumOf (e.sgl.map Sgl.len) == expected)

/-- A volume is a replication target: client writes end with Namespace is Write Protected (14_snapshots_replication.md R352). -/
def State.replTarget (s : State) (v : Volume) : Bool :=
  s.snap.sessions.any fun x => x.role == 1 && (if x.scope = 0 then x.obj == v.nsid else x.obj == v.cgroup)

/-- Steps 2 to 7 of R77 for a command that names one volume; the first failing check's status. (PRESUMED, log 80) A reference tag that is to be
checked and is not that of Type 1 ends it with Invalid Protection Information (PRESUMED, log 121). -/
def State.ioStatus (s : State) (e : Sqe) (c : Cmd) (f : IoForm) : Option (Nat × Nat) :=
  match s.vol? e.nsid with
  | none => some (0, 0x0B)
  | some v =>
    if !v.attached then some (0, 0x0B)
    else
      match s.volStatus v with
      | some st => some st
      | none =>
        if (f.xfer ∧ c.nlb * s.blockBytes v.nsid > 8388608) ∨ (c.ord ∧ !f.ordOk) ∨ (e.cdw13.testBit 9 ∧ !f.sdealOk) ∨ (c.sdeal ∧ !e.cdw11.testBit 2) ∨
            e.sgl.length > 64 then some (0, 2)
        else if c.runs.any fun r => decide (r.1 + r.2 > v.nsze) then some (0, 0x80)
        else if f.xfer ∧ !lenOk e (c.nlb * s.blockBytes v.nsid) then some (0, 0x0F)
        else if f.write ∧ s.replTarget v then some (0, 0x20)
        else if f.write ∧ s.ftl.poolRo then some (7, 0xC3)
        else if c.newGrains ≠ 0 ∧ s.groupLoad v.ana + c.newGrains > 2 ^ 38 - 1 then some (0, 0x81)
        else if f.xfer ∧ v.lbaf = 1 ∧ c.pi.testBit 0 ∧ (e.cdw14 + e.cdw3 % 65536 * 2 ^ 32) % 2 ^ 48 ≠ c.slba % 2 ^ 48 then some (1, 0x81)
        else none

/-! ### Order and range locks (R80-R84) -/

/-- A Flush waits for its durable marks, or completes (R86). -/
def State.flushGo (s : State) (c : Cmd) : State :=
  let s := s.putIo { c with stage := .flushWait }
  if s.marksReached c.waits then s.endIo c.id 0 0 false else s

/-- A command that is past the range-lock stage goes to work by its kind. -/
def State.proceed (s : State) (c : Cmd) : State :=
  if c.opc = 0 then s.flushGo c
  else if c.opc = 1 ∨ c.opc = 8 ∨ (c.opc = 9 ∧ !c.ranges.isEmpty) then s.stageCmd c
  else if c.opc = 9 then s.endIo c.id 0 0 false
  else s.startRead c

/-- A command reaches the range-lock stage: it passes, or stalls there; a stall on an entry of another is counted (R82, R83, R84, R101). -/
def State.reachLock (s : State) (c : Cmd) : State :=
  if s.mayLock c then s.proceed c
  else
    match s.nextSeq with
    | (n, s) =>
      let held := s.lockHolders c
      let s := s.putIo { c with stage := .lockWait, stall := n, stallOn := held.map Cmd.id }
      if held.isEmpty then s else s.bump R.HQ_LOCK_STALL_CNT

/-- A command that the sluice let pass: it waits behind an ORD barrier or reaches the range-lock stage (R80). -/
def State.accept (s : State) (c : Cmd) : State :=
  let s := s.putIo c
  if s.ordHeld c then s.bump R.HQ_ORD_WAIT_CNT else s.reachLock c

/-- The I/O command `e` of queue context `q` as the block holds it, before what depends on its opcode (04_host_queues.md R77, R79). -/
def State.ioBase (s : State) (e : Sqe) (q : QCtx) (opc : Nat) : Cmd :=
  { newCmd s.hq.nextCmd e.q e.cid opc e.nsid (!q.fabric) with
    slba := e.cdw10 + e.cdw11 * 2 ^ 32, nlb := e.cdw12 % 65536 + 1, fua := e.cdw12.testBit 30, ord := e.cdw13.testBit 8
    sgl := e.sgl.filter fun g => g.kind != .capsule, hostData := e.data, pi := bits e.cdw12 29 26, tag := e.cdw15 }

/-- The state once an I/O command has been taken, counted and given its number. -/
def State.ioTaken (s : State) (e : Sqe) : State := { (s.takeCmd e).bump R.HQ_CMD_CNT with hq.nextCmd := (s.takeCmd e).hq.nextCmd + 1 }

/-- An I/O submission entry: decode, then the sluice, then order and locks. `fill` fills in what the command is. The head that serves
nothing takes no command. An I/O command on an admin queue is not supported there (R72, R77; that an entry whose opcode is an admin command's
comes as that command's row: DEDUCED, log 120). -/
def State.io (s : State) (e : Sqe) (f : IoForm) (opc : Nat) (fill : Cmd → Cmd) (deadline : Nat) : State :=
  match s.queue? e.q with
  | none => s
  | some q =>
    if !s.serving then s
    else if q.kind ≠ .fabIo ∧ q.kind ≠ .hostIo then (s.takeCmd e).complete e.q e.cid 0 1 (dnrOf (0, 1)) 0 0
    else
      let c := fill (s.ioBase e q opc)
      let s := s.ioTaken e
      match s.ioStatus e c f with
      | some st =>
        let s := if st = (0, 0x0F) then s.bump R.HQ_LEN_ERR_CNT else s
        s.complete e.q e.cid st.1 st.2 (dnrOf st) 0 0
      | none =>
        let v := s.lbafOf e.nsid
        let dl := if v = 0 ∧ (opc = 1 ∨ opc = 2) then deadline else 0
        match s.sluice c dl with
        | (s, some c) => s.accept c
        | (s, none) => s

/-- Runs of grains of a command on consecutive blocks. -/
def Cmd.oneRun (c : Cmd) : Cmd := { c with ranges := [grainRun c.slba c.nlb] }

/-- READ (R50, R77, R79). -/
def execRead (e : Sqe) (s : State) : Host.Outcome State Fault Refusal :=
  .next <| s.io e ⟨true, false, true, false⟩ 2 (fun c => { c.oneRun with fua := false }) (e.cdw2 + e.cdw3 * 2 ^ 32)

/-- WRITE (R77, R79; 06_brine_write_path.md R130). -/
def execWrite (e : Sqe) (s : State) : Host.Outcome State Fault Refusal :=
  .next <| s.io e ⟨true, true, true, false⟩ 1 (fun c => { c.oneRun with need := c.nlb * s.blockBytes e.nsid }) (e.cdw2 + e.cdw3 * 2 ^ 32)

/-- WRITE_ZEROES (R90). -/
def execWriteZeroes (e : Sqe) (s : State) : Host.Outcome State Fault Refusal :=
  .next <| s.io e ⟨false, !e.cdw12.testBit 25, true, false⟩ 8 (fun c => { c.oneRun with deac := e.cdw12.testBit 25 }) 0

/-- VERIFY (R72): the blocks are read and checked; nothing is transferred. -/
def execVerify (e : Sqe) (s : State) : Host.Outcome State Fault Refusal :=
  .next <| s.io e ⟨false, false, false, false⟩ 0x0C (fun c => { c.oneRun with fua := false }) 0

/-- The ranges of a Dataset Management command: 16 bytes each, length at 4 and first block at 8. -/
def dsmRanges (data : Bytes) (n : Nat) : List (Nat × Nat) :=
  (List.range n).map fun i => (leAt data (16 * i + 8) 8, leAt data (16 * i + 4) 4)

/-- DATASET_MANAGEMENT (R88, R89): with Deallocate the ranges are staged; the hints alone have no effect. A range of no block stages
nothing (DEDUCED, log 35). -/
def execDatasetManagement (e : Sqe) (s : State) : Host.Outcome State Fault Refusal :=
  .next <|
    let ad := e.cdw11.testBit 2
    let rs := dsmRanges e.data (e.cdw10 % 256 + 1)
    let live := rs.filter fun r => r.2 != 0
    s.io e ⟨false, false, true, true⟩ 9 (fun c =>
      { c with
        slba := 0, nlb := 0, fua := false, sdeal := e.cdw13.testBit 9, waits := rs
        ranges := if ad then live.map fun r => grainRun r.1 r.2 else [] }) 0

/-- The status that a Flush ends with at decode, if any (R77, R80). -/
def State.flushStatus (s : State) (e : Sqe) : Option (Nat × Nat) :=
  let vst : Option (Nat × Nat) := match s.vol? e.nsid with
    | none =>
      if e.nsid ≠ 0xFFFFFFFF then some (0, 0x0B)
      else if s.hq.san.state = .running then some (0, 0x1D)
      else if s.hq.san.failMode then some (0, 0x1C) else none
    | some v => if !v.attached then some (0, 0x0B) else s.volStatus v
  match vst with
  | some st => some st
  | none => if e.cdw13.testBit 8 ∨ e.cdw13.testBit 9 then some (0, 2) else none

/-- FLUSH (R86; 06_brine_write_path.md R144): as it arrives the Flush takes the sequence of the journal of each volume it names and seals
there; it waits behind an ORD barrier (R80) and for the durable marks. -/
def execFlush (e : Sqe) (s : State) : Host.Outcome State Fault Refusal :=
  .next <|
    match s.queue? e.q with
    | none => s
    | some q =>
      if !s.serving then s
      else if q.kind ≠ .fabIo ∧ q.kind ≠ .hostIo then (s.takeCmd e).complete e.q e.cid 0 1 (dnrOf (0, 1)) 0 0
      else
        let s := (s.takeCmd e).bump R.HQ_CMD_CNT
        match s.flushStatus e with
        | some st => s.complete e.q e.cid st.1 st.2 (dnrOf st) 0 0
        | none =>
          let id := s.hq.nextCmd
          let marks := s.flushMarks e.nsid
          let c : Cmd := { newCmd id e.q e.cid 0 e.nsid (!q.fabric) with waits := marks }
          let s := { s.bump R.SLU_BE_CNT with hq.nextCmd := id + 1, brn.flushes := s.brn.flushes ++ [⟨id, marks⟩] }
          let s := marks.foldl (fun (s : State) m => if (s.journal m.1).durable ≥ m.2 then s else s.sealAt m.1 m.2) s
          s.accept c

/-- RANGE_LOCK_GRANT (R82-R84): a stalled command proceeds once nothing it waits for holds it. -/
def execRangeLockGrant (cmd : Nat) (s : State) : Host.Outcome State Fault Refusal :=
  .next <|
    match s.io? cmd with
    | none => s
    | some c => if c.stage = .lockWait ∧ s.mayLock c then s.proceed c else s

/-- ORD_RELEASE (R80): a command held by an ORD barrier reaches the range-lock stage. -/
def execOrdRelease (cmd : Nat) (s : State) : Host.Outcome State Fault Refusal :=
  .next <|
    match s.io? cmd with
    | none => s
    | some c => if c.stage = .ordWait ∧ !s.ordHeld c then s.reachLock c else s

/-! ### Host-side queues (R74-R76, R18) -/

/-- CREATE_HOST_QUEUE (R74, R75). QUEUES_DISABLED is looked at before ADMIN_QUEUE_EXISTS, and both before NO_RESOURCE (DESIGN CHOICE, log 118).
The context is the lowest free one, the queue identifier of an I/O queue the lowest free from 1 on
(DESIGN CHOICE, log 25). -/
def execCreateHostQueue (ring slot : Nat) (s : State) : Host.Outcome State Fault Refusal :=
  .next <| s.packet 0x40 ring slot fun e _ s =>
    let qtype := e.num 10 1
    let n := e.num 12 4
    let sq := e.num 16 8
    let cq := e.num 24 8
    let vec := e.num 32 2
    let max := if qtype = 0 then 4096 else 65536
    if qtype > 1 ∨ !e.zero 11 1 ∨ n < 2 ∨ n > max ∨ sq % 4096 ≠ 0 ∨ cq % 4096 ≠ 0 ∨ vec < 1 ∨ vec > 2047 ∨ !e.zero 34 2 then
      .fail s stInvalidField
    else if s.fld R.HQ_CFG 1 1 = 0 then .fail s 0x0302
    else if qtype = 0 ∧ s.hq.ctxs.any (fun q => q.kind == .hostAdmin) then .fail s 0x0300
    else
      let idx := s.freeCtx
      if idx ≥ 1048576 then .fail s stNoResource
      else
        let ctrl := 65535
        let used := (s.hq.ctxs.filter fun q => q.kind == .hostIo).map QCtx.qid
        let qid := if qtype = 0 then 0 else lowestFree used (used.length + 1) 1
        let q : QCtx :=
          { idx := idx, kind := if qtype = 0 then .hostAdmin else .hostIo, ctrl := ctrl, qid := qid, size := n, sqBase := sq,
            cqBase := cq, vec := vec, qp := 0, sqTail := 0, cqHead := 0, cqTail := 0, deleting := none, sqHead := 0, phase := true, inv := [] }
        let c : Controller := { id := ctrl, host := true, props := [], feats := [], aers := [], backlog := [], kato := false }
        let s := { s with hq.ctxs := s.hq.ctxs ++ [q] }
        let s := if s.hq.ctrls.any (·.host) then s else { s with hq.ctrls := s.hq.ctrls ++ [c] }
        .done s stOk (leBytes 4 idx ++ leBytes 2 qid) []

/-- A command that has not passed the range-lock stage ends with a status and leaves nothing. -/
def State.abortCmd (s : State) (c : Cmd) (sc : Nat) : State := (s.discardCmd c.id).endIo c.id 0 sc (dnrOf (0, sc))

/-- A command has not passed the range-lock stage. -/
def Cmd.early (c : Cmd) : Bool := c.stage == .ordWait || c.stage == .lockWait

/-- The Asynchronous Event Requests that a host-side controller holds end with its queue (R74). -/
def State.endAers (s : State) (q : QCtx) : State :=
  match s.hq.ctrls.find? (·.host) with
  | some c => c.aers.foldl (fun (s : State) cid => s.complete q.idx cid 0 8 (dnrOf (0, 8)) 0 0) s
  | none => s

/-- DELETE_HOST_QUEUE (R74, R75): the reply comes when every command of the queue has ended. A queue whose deletion already waits answers BUSY
(DESIGN CHOICE, log 117). -/
def execDeleteHostQueue (ring slot : Nat) (s : State) : Host.Outcome State Fault Refusal :=
  .next <| s.packet 0x41 ring slot fun e p s =>
    match s.qctx? (e.num 10 4) with
    | none => .fail s stInvalidField
    | some q =>
      if q.fabric then .fail s stInvalidField
      else if q.deleting.isSome then .fail s stBusy
      else if q.kind = .hostAdmin ∧ s.hq.ctxs.any (fun x => x.kind == .hostIo) then .fail s 0x0301
      else
        let s := (s.hq.cmds.filter fun c => c.qctx == q.idx && c.early).foldl (fun (s : State) c => s.abortCmd c 8) s
        let q := (s.qctx? q.idx).getD q
        let s := { s with hq.ctxs := putKey QCtx.idx { q with deleting := some p } s.hq.ctxs }
        let s := if q.kind = .hostAdmin then { s.endAers q with hq.ctrls := s.hq.ctrls.filter fun c => !c.host } else s
        .quiet (s.queueGone q.idx)

/-- How many entries lie between the completion queue head and the last posted completion. -/
def QCtx.posted (q : QCtx) : Nat := (q.cqTail + q.size - q.cqHead) % Nat.max 1 q.size

/-- One half of a doorbell write is invalid (R76). -/
def State.dbInvalid (s : State) : State :=
  let s := s.bump R.HQ_DB_INVALID_CNT
  match s.hq.ctrls.find? (·.host) with
  | some c => s.postAen c.id 0 1 1
  | none => s

/-- A host-side context takes a doorbell value (R76): the new submission entries are read from host memory, where `entries` are what they hold. -/
def State.doorbell (s : State) (q : QCtx) (value : Nat) (lo hi : Bool) (entries : List Bytes) : State :=
  let tail := bits value 15 0
  let head := bits value 47 32
  let s := if lo ∧ value.testBit 16 then
      if tail ≥ q.size then s.dbInvalid
      else
        let n := (tail + q.size - q.sqTail) % q.size
        let s := { s with hq.ctxs := mapIf (·.idx == q.idx) (fun x => { x with sqTail := tail }) s.hq.ctxs }
        let s := (List.range n).foldl (fun (s : State) i => s.emit (.hostRead (q.sqBase + 64 * ((q.sqTail + i) % q.size)) 64)) s
        (entries.take n).foldl (fun (s : State) b => s.unknownSqe q b) s
    else s
  if hi ∧ value.testBit 48 then
    if head ≥ q.size ∨ (head + q.size - q.cqHead) % q.size > q.posted then s.dbInvalid
    else { s with hq.ctxs := mapIf (·.idx == q.idx) (fun x => { x with cqHead := head }) s.hq.ctxs }
  else s

/-- HOST_DOORBELL_WRITE (R76; 01_architecture.md R18): a write of `size` bytes to BAR2. A size or alignment that R17 does not allow is
MISALIGNED_ACCESS. -/
def execHostDoorbellWrite (offset size value : Nat) (entries : List Bytes) (s : State) : Host.Outcome State Fault Refusal :=
  .next <|
    if (size ≠ 4 ∧ size ≠ 8) ∨ offset % size ≠ 0 ∨ offset ≥ 8388608 then s
    else
      match s.qctx? (offset / 8) with
      | none => s.bump R.HQ_DB_DROP_CNT
      | some q =>
        if q.fabric ∨ q.deleting.isSome then s.bump R.HQ_DB_DROP_CNT
        else
          let v := if offset % 8 = 4 then value % 2 ^ 32 * 2 ^ 32 else value % 2 ^ (8 * size)
          s.doorbell q v (offset % 8 == 0) (size == 8 || offset % 8 == 4) entries

end Sys2Proof.Machine
end

