-- ==== Sys2Proof/Machine/Admin.lean ====
section
/-! DEFINITION. NVMe admin and Fabrics commands (04_host_queues.md R71-R74, R87, R98; 12_harvest_health.md R307-R309;
19_event_recorder.md R454). Offsets and codes of the NVMe structures are those of the NVMe specifications that R71 names (PRESUMED,
log 36); bytes that the spec leaves to them are `Config.standardByte`. -/
namespace Sys2Proof.Machine

/-! ### Pages -/

/-- `base` with some bytes replaced from an offset on. -/
def putAt (off : Nat) (b base : Bytes) : Bytes := base.take off ++ b ++ base.drop (off + b.length)

/-- A page of `n` bytes of a structure that the NVMe standard defines. -/
def standardPage (structure_ n : Nat) : Bytes := (List.range n).map (Config.standardByte structure_)

/-- A page of zeros. -/
def zeroPage (n : Nat) : Bytes := List.replicate n 0

/-- Fields laid over a page: offset, length, value. -/
def withFields (fs : List (Nat × Nat × Nat)) (base : Bytes) : Bytes :=
  fs.foldl (fun b f => putAt f.1 (leBytes f.2.1 f.2.2) b) base

/-- A 128-bit health error count: it saturates (00_scope.md R9). -/
def sat128 (n : Nat) : Nat := Nat.min n (2 ^ 128 - 1)

/-- A reading in units of 0.25 degrees Celsius as kelvin, rounded down. -/
def toKelvin (t : Int) : Nat := ((t / 4) + 273).toNat

/-- The hottest of some sensors. -/
def State.hottest (_s : State) (ts : List Int) : Int := ts.foldl max (ts.headD 0)

/-- The lowest spare remaining of any top pan, in 1/256. -/
def State.spareLow (s : State) : Nat := let v := s.tops.map s.spareRemain; v.foldl Nat.min (v.headD 0)

/-- Critical Warning (R307). -/
def State.critWarn (s : State) : Nat :=
  let pans := s.med.units.any fun d => unitClass d.id == 7 && d.state == .failed
  b2n (!s.tops.isEmpty && decide (s.spareLow < s.fld R.FTL_HLTH_CFG 7 0)) + 2 * b2n (s.pwr.tempMon.any (·.warn)) +
    4 * b2n (pans || !s.brn.lost.isEmpty) + 8 * b2n s.ftl.poolRo + 16 * b2n s.ftl.health.noDump

/-- The SMART / Health log page (R307). -/
def State.smartPage (s : State) : Bytes :=
  let h := s.ftl.health
  let wear := maxOf (s.tops.map (s.topWear 100))
  let sensor (n : Nat) : Nat := toKelvin (s.hottest ((s.pwr.temps.drop (8 * n)).take 8))
  withFields ([(0, 1, s.critWarn), (1, 2, toKelvin (s.hottest s.pwr.temps)), (3, 1, s.spareLow * 100 / 256),
    (4, 1, ceilDiv (s.fld R.FTL_HLTH_CFG 7 0 * 100) 256), (5, 1, Nat.min 255 wear),
    (32, 16, sat128 (h.dataRead / 512000)), (48, 16, sat128 (h.dataWritten / 512000)), (64, 16, sat128 h.hostReads),
    (80, 16, sat128 h.hostWrites), (96, 16, sat128 h.busyMin), (112, 16, sat128 h.powerCycles), (128, 16, sat128 (h.powerMin / 60)),
    (144, 16, sat128 h.unsafeOff), (160, 16, sat128 h.mediaErrs), (192, 4, h.warnMin), (196, 4, h.critMin)] ++
    (List.range 8).map fun n => (200 + 2 * n, 2, sensor n)) (putAt 176 ((List.range 16).map fun i => Config.standardByte 0x102 (176 + i)) (zeroPage 512))

/-- Dies under top pans. -/
def State.panDies (s : State) : List Nat := s.tops.flatMap fun t => s.leaves (s.topPan t)

/-- The summary of the Holteb health log (R308). -/
def State.healthPage (s : State) : Bytes :=
  let h := s.ftl.health
  let ds := s.panDies
  let avg := meanIn 256 (ds.map s.wearUsed)
  let ro := countOf (fun t => s.ust (s.topPan t) == .readOnly) s.tops
  let i16 (t : Int) : Nat := (BitVec.ofInt 16 t).toNat
  withFields ([(0, 2, 1), (2, 1, s.role), (3, 1, s.poolState), (4, 2, s.spareLow), (6, 2, s.fld R.FTL_HLTH_CFG 7 0),
    (8, 2, Nat.min 0xFFFF (maxOf (s.tops.map (s.topWear 256)))), (10, 2, Nat.min 0xFFFF avg), (12, 2, ro),
    (16, 4, countOf (fun b => b.state == .bad) s.ftl.blocks), (32, 16, sat128 h.progFail), (48, 16, sat128 h.eraseFail),
    (64, 16, sat128 h.retired), (80, 16, sat128 h.uncRead), (96, 16, sat128 h.recon), (112, 16, sat128 h.grainLost),
    (128, 16, sat128 h.dieFail), (144, 16, sat128 h.moduleFail), (160, 16, sat128 h.engineFail), (176, 16, sat128 h.confirmFail),
    (264, 2, i16 h.tempMax), (266, 2, i16 h.tempMin)] ++
    ((List.range 9).map fun i => (192 + 8 * i, 8, h.retryHist.getD i 0)) ++
    ((List.range 64).map fun i => (272 + 8 * i, 8, h.tempBins.getD i 0))) (zeroPage 4096)

/-- The record of one die position in the health log (R309). -/
def State.dieHealth (s : State) (i : Nat) : Bytes :=
  let d := unitId 6 i
  if s.ust d = .absent then zeroPage 64
  else
    let w := s.wearOf d
    let blocks := Nat.max 1 (recBlocks (s.dieRec d))
    let lv := (w.retries.filter fun x => decide (x.1 + hourNs > s.tide.time)).map Prod.snd
    let avg := if lv.isEmpty then 0 else sumOf lv * 256 / lv.length
    withFields [(0, 3, d), (3, 1, (s.ust d).code), (4, 2, w.spareLeft), (6, 2, w.spareInit), (8, 4, w.native / blocks),
      (12, 4, maxOf (w.erased.map Prod.snd)), (16, 2, avg), (18, 1, maxOf lv), (24, 16, sat128 w.progFail), (40, 16, sat128 w.eraseFail)] (zeroPage 64)

/-- The ANA log page (R98): every group with its state and its attached volumes. -/
def State.anaPage (s : State) : Bytes :=
  let desc (g : Nat) : Bytes :=
    let ns := (s.pool.volumes.filter fun v => v.ana == g && v.attached).map Volume.nsid
    leBytes 4 g ++ leBytes 4 ns.length ++ leBytes 8 0 ++ leBytes 1 (s.anaState g) ++ leBytes 15 0 ++ ns.flatMap (leBytes 4)
  leBytes 8 0 ++ leBytes 2 1024 ++ leBytes 6 0 ++ (List.range 1024).flatMap fun i => desc (i + 1)

/-- The estimated time of a Block Erase in seconds, from the dies' parameter records: dies erase side by side, each its blocks one after another
(R94; the formula: DESIGN CHOICE, log 124). -/
def State.eraseEstimate (s : State) : Nat :=
  maxOf (s.panDies.map fun d => ceilDiv (recBlocks (s.dieRec d) * leAt (s.dieRec d) 20 4) 1000000000)

/-- The sanitize status log page (R94-R97): SPROG, SSTAT, the action and the estimate for Block Erase; other estimates are the standard's. -/
def State.sanitizePage (s : State) : Bytes :=
  let st := match s.hq.san.state with
    | .never => 0 | .done => 1 | .running => 2 | .failed => 3
  withFields [(0, 2, if s.hq.san.state = .running then s.hq.san.prog else 65535), (2, 2, st),
    (4, 4, s.hq.san.act + 8 * b2n s.hq.san.ause), (12, 4, s.eraseEstimate)] (standardPage 0x181 512)

/-- The vendor log page LID 0xC1 (19_event_recorder.md R454). -/
def State.noticePage (s : State) : Bytes :=
  withFields [(0, 4, s.evr.seq), (4, 1, s.evr.maxSev), (8, 8, s.evr.noticeCnt)] (zeroPage 64)

/-- A log page by LID and LSP; none for one the device does not have. -/
def State.logPage (s : State) (lid lsp off len : Nat) : Option Bytes :=
  match lid with
  | 0x02 => some (slice s.smartPage off len)
  | 0x0C => some (slice s.anaPage off len)
  | 0x81 => some (slice s.sanitizePage off len)
  | 0xC1 => some (slice s.noticePage off len)
  | 0xC0 =>
    if lsp = 0 then some (slice s.healthPage off len)
    else if lsp = 1 then
      let first := off / 64
      let n := ceilDiv (off + len) 64 - first
      let recs := (List.range n).flatMap fun i => if first + i < 32768 then s.dieHealth (first + i) else zeroPage 64
      some (slice recs (off % 64) len)
    else none
  | lid => if 1 ≤ lid ∧ lid ≤ 6 then some ((List.range len).map fun i => Config.standardByte (0x100 + lid) (off + i)) else none

/-! ### Admin commands -/

/-- An admin command of a queue: what it does when the queue takes it. `fab`, `host` say on which queues it is a command (R72); `calm` says that it
is taken while a sanitize runs: Sanitize itself and what reports status (R95). -/
def State.admin (s : State) (e : Sqe) (fab host calm : Bool) (body : QCtx → State → State) : State :=
  match s.queue? e.q with
  | none => s
  | some q =>
    let t := s.takeCmd e
    if (q.kind = .fabAdmin ∧ fab) ∨ (q.kind = .hostAdmin ∧ host) then
      if t.hq.san.state = .running ∧ !calm then t.complete e.q e.cid 0 0x1D (dnrOf (0, 0x1D)) 0 0 else body q t
    else t.complete e.q e.cid 0 1 (dnrOf (0, 1)) 0 0

/-- An admin command ends with a status. -/
def State.adminEnd (s : State) (e : Sqe) (sct sc dw0 dw1 : Nat) : State :=
  s.complete e.q e.cid sct sc (if sct = 0 ∧ sc = 0 then false else Config.dnr sct sc) dw0 dw1

/-- An admin command returns data and succeeds. -/
def State.adminData (s : State) (e : Sqe) (q : QCtx) (data : Bytes) : State :=
  (s.sendData (!q.fabric) e.q 0 e.sgl data).adminEnd e 0 0 0 0

/-- A log page has been read with RAE 0: events that named it may be posted again (19_event_recorder.md R454). -/
def State.logRead (s : State) (ctrl lid : Nat) : State :=
  let s := { s with evr.aen := mapIf (fun a => a.ctrl == ctrl && a.lid == lid) (fun a => { a with unread := false }) s.evr.aen }
  let s := if lid = 0xC1 then { s with evr.maxSev := 0 } else s
  (s.evr.aen.filter fun a => a.ctrl == ctrl && a.lid == lid).foldl (fun (s : State) a => s.retryAen ctrl a.typ a.info) s

/-- GET_LOG_PAGE (R72; 12_harvest_health.md R307-R309; 19_event_recorder.md R454). -/
def execGetLogPage (e : Sqe) (s : State) : Host.Outcome State Fault Refusal :=
  .next <| s.admin e true true true fun q s =>
    let lid := bits e.cdw10 7 0
    let len := 4 * (bits e.cdw10 31 16 + 65536 * bits e.cdw11 15 0 + 1)
    if lid = 2 ∧ e.nsid ≠ 0 ∧ e.nsid ≠ 0xFFFFFFFF then s.adminEnd e 0 2 0 0
    else
      match s.logPage lid (bits e.cdw10 14 8) (e.cdw12 + e.cdw13 * 2 ^ 32) len with
      | none => s.adminEnd e 1 9 0 0
      | some d =>
        let t := s.adminData e q d
        if e.cdw10.testBit 15 then t else t.logRead q.ctrl lid

/-- Identify Controller (R71, R73, R80, R85, R87, R98; 05_rdma_transport.md R104; 22_power_electrical.md R513). -/
def State.idController (_s : State) (ctrl : Nat) : Bytes :=
  withFields [(77, 1, 11), (78, 2, ctrl), (258, 1, 15), (266, 2, 373), (268, 2, 383), (342, 1, 4), (344, 4, 1024), (348, 4, 1024),
    (516, 4, 65536), (525, 1, 0), (526, 2, 0), (528, 2, 0), (1792, 4, 516)] (standardPage 1 4096)

/-- Identify Namespace (R87, R88, R91, R98): FLBAS with extended metadata, two LBA formats of 4,096 bytes, the second with 16 bytes of metadata,
protection information of Type 1. -/
def State.idNamespace (_s : State) (v : Volume) : Bytes :=
  withFields [(0, 8, v.nsze), (26, 1, v.lbaf + 16 * b2n (v.lbaf == 1)), (27, 1, 1), (28, 1, 0x11), (29, 1, b2n (v.lbaf == 1)),
    (128, 4, 12 * 65536), (132, 4, 16 + 12 * 65536), (33, 1, 1), (34, 2, 3), (36, 2, 3), (40, 2, 3), (42, 2, 0), (44, 2, 3), (92, 4, v.ana),
    (25, 1, 1), (24, 1, 2)] (standardPage 0 4096)

/-- The part of Identify Namespace that the NVM Command Set defines: the second LBA format has the 64b Guard format, without a storage tag (R91;
PRESUMED, log 121). -/
def nvmNamespace : Bytes := withFields [(0, 8, 0), (12, 4, 0), (16, 4, 2 * 128)] (standardPage 5 4096)

/-- IDENTIFY (R72): namespace, controller, list of attached namespaces; other structures are the standard's. -/
def execIdentify (e : Sqe) (s : State) : Host.Outcome State Fault Refusal :=
  .next <| s.admin e true true true fun q s =>
    match bits e.cdw10 7 0 with
    | 0 =>
      match s.vol? e.nsid with
      | some v => s.adminData e q (if v.attached then s.idNamespace v else zeroPage 4096)
      | none => if 1 ≤ e.nsid ∧ e.nsid ≤ 65536 then s.adminData e q (zeroPage 4096) else s.adminEnd e 0 0x0B 0 0
    | 1 => s.adminData e q (s.idController q.ctrl)
    | 2 =>
      let ns := (List.range 65537).filter fun n => decide (n > e.nsid) && s.pool.volumes.any fun v => v.nsid == n && v.attached
      s.adminData e q (slice ((ns.take 1024).flatMap (leBytes 4)) 0 4096)
    | 5 =>
      match s.vol? e.nsid with
      | some v => s.adminData e q (if v.attached ∧ bits e.cdw11 31 24 = 0 then nvmNamespace else standardPage 5 4096)
      | none => s.adminEnd e 0 0x0B 0 0
    | k => s.adminData e q (standardPage k 4096)

/-- ABORT (R72): it takes effect on a command that has not passed the range-lock stage. -/
def execAbort (e : Sqe) (s : State) : Host.Outcome State Fault Refusal :=
  .next <| s.admin e true true false fun q s =>
    let mine := s.hq.ctxs.find? fun x => x.ctrl == q.ctrl && x.qid == bits e.cdw10 15 0
    match mine with
    | none => s.adminEnd e 0 0 1 0
    | some x =>
      match s.hq.cmds.find? fun c => c.qctx == x.idx && c.cid == bits e.cdw10 31 16 && c.early with
      | some c => (s.abortCmd c 7).adminEnd e 0 0 0 0
      | none => s.adminEnd e 0 0 1 0

/-- The controller of a queue. -/
def State.ctrlOf (s : State) (q : QCtx) : Option Controller := findKey Controller.id q.ctrl s.hq.ctrls

/-- SET_FEATURES (R72): the value is kept per controller. -/
def execSetFeatures (e : Sqe) (s : State) : Host.Outcome State Fault Refusal :=
  .next <| s.admin e true true false fun q s =>
    match s.ctrlOf q with
    | none => s
    | some c =>
      let c := { c with feats := putKey Prod.fst (bits e.cdw10 7 0, e.cdw11) c.feats }
      { s with hq.ctrls := putKey Controller.id c s.hq.ctrls }.adminEnd e 0 0 0 0

/-- GET_FEATURES (R72): a value that has not been set is the standard's. -/
def execGetFeatures (e : Sqe) (s : State) : Host.Outcome State Fault Refusal :=
  .next <| s.admin e true true true fun q s =>
    match s.ctrlOf q with
    | none => s
    | some c =>
      let fid := bits e.cdw10 7 0
      match findKey Prod.fst fid c.feats with
      | some f => s.adminEnd e 0 0 f.2 0
      | none => s.adminEnd e 0 0 (leNat ((List.range 4).map fun i => Config.standardByte 0x300 (4 * fid + i))) 0

/-- ASYNCHRONOUS_EVENT_REQUEST (R72): held until an event is posted on it. -/
def execAsynchronousEventRequest (e : Sqe) (s : State) : Host.Outcome State Fault Refusal :=
  .next <| s.admin e true true true fun q s =>
    match s.ctrlOf q with
    | none => s
    | some c =>
      let c := { c with aers := c.aers ++ [e.cid] }
      match c.backlog with
      | [] => { s with hq.ctrls := putKey Controller.id c s.hq.ctrls }
      | (typ, info, lid) :: rest =>
        { s with hq.ctrls := putKey Controller.id { c with backlog := rest } s.hq.ctrls }.sendAen c.id typ info lid

/-- KEEP_ALIVE (R72). -/
def execKeepAlive (e : Sqe) (s : State) : Host.Outcome State Fault Refusal :=
  .next <| s.admin e true false false fun q s =>
    match s.ctrlOf q with
    | none => s
    | some c => { s with hq.ctrls := putKey Controller.id { c with kato := true } s.hq.ctrls }.adminEnd e 0 0 0 0

/-! ### Fabrics commands (R72, R73) -/

/-- A response capsule on a queue pair that has no queue context. -/
def State.bareReply (s : State) (idx cid sct sc dw0 : Nat) : State :=
  match s.qp? idx with
  | none => s
  | some p =>
    (s.putQp { p with capsules := p.capsules - 1 }).deliver
      (.cqe idx cid sct sc (if sct = 0 ∧ sc = 0 then false else Config.dnr sct sc) dw0 0)

/-- A controller identifier that is free: the lowest from 1 on (DESIGN CHOICE, log 25). -/
def State.newCtrl (s : State) : Nat :=
  let used := s.hq.ctrls.map Controller.id
  lowestFree used (used.length + 1) 1

/-- CONNECT (R73): on a client queue pair without a queue; the data holds the controller identifier at 16. A refused Connect leaves the
queue pair open. HQ_CFG.FAB_EN = 0 refuses with the same status (DESIGN CHOICE, log 37). On a host-side queue Connect is no command (R72); on a
queue that is connected it is Command Sequence Error (PRESUMED, log 138). -/
def execConnect (e : Sqe) (s : State) : Host.Outcome State Fault Refusal :=
  .next <|
    match s.qp? e.q, s.qctx? e.q with
    | some p, none =>
      if p.st ≠ .connected ∨ p.priv then s
      else
        let qid := bits e.cdw10 31 16
        let size := bits e.cdw11 15 0 + 1
        let cntlid := leAt e.data 16 2
        let bad := s.bareReply e.q e.cid 1 0x82 0
        if s.hq.san.state = .running then s.bareReply e.q e.cid 0 0x1D 0
        else if s.fld R.HQ_CFG 0 0 = 0 ∨ e.q ≥ 1048576 ∨ s.hq.ctxs.length ≥ 1048576 then bad
        else
          let q : QCtx :=
            { idx := e.q, kind := .fabAdmin, ctrl := 0, qid := qid, size := size, sqBase := 0, cqBase := 0, vec := 0, qp := e.q,
              sqTail := 0, cqHead := 0, cqTail := 0, deleting := none, sqHead := 1 % size, phase := true, inv := [] }
          if qid = 0 then
            if cntlid ≠ 0xFFFF ∨ size > 32 ∨ countOf (fun c => !c.host) s.hq.ctrls ≥ 16384 then bad
            else
              let id := s.newCtrl
              let c : Controller := { id := id, host := false, props := [], feats := [], aers := [], backlog := [], kato := false }
              let s := { s with hq.ctrls := s.hq.ctrls ++ [c], hq.ctxs := s.hq.ctxs ++ [{ q with ctrl := id }] }
              s.complete e.q e.cid 0 0 false id 0
          else
            match findKey Controller.id cntlid s.hq.ctrls with
            | none => bad
            | some c =>
              if c.host ∨ qid > 128 ∨ size > 1024 ∨ s.hq.ctxs.any (fun x => x.ctrl == c.id && x.qid == qid) then bad
              else
                let s := { s with hq.ctxs := s.hq.ctxs ++ [{ q with kind := .fabIo, ctrl := c.id }] }
                s.complete e.q e.cid 0 0 false c.id 0
    | _, some q =>
      if (s.queue? e.q).isNone then s
      else if q.fabric then (s.takeCmd e).adminEnd e 0 0x0C 0 0
      else (s.takeCmd e).adminEnd e 0 1 0 0
    | _, none => s

/-- A controller property (R72, R73): CAP with MQES 1,023 and MPSMIN 4 KiB, VS 2.0, CC as set, CSTS.RDY following CC.EN; others are the standard's. -/
def Controller.prop (c : Controller) (off : Nat) : Nat :=
  let cc := ((findKey Prod.fst 0x14 c.props).map Prod.snd).getD 0
  match off with
  | 0x00 => putBits (1023 + 65536 * leNat ((List.range 6).map fun i => Config.standardByte 0x400 (2 + i))) 51 48 0
  | 0x08 => 0x00020000
  | 0x14 => cc
  | 0x1C => cc % 2
  | o => ((findKey Prod.fst o c.props).map Prod.snd).getD (leNat ((List.range 4).map fun i => Config.standardByte 0x400 (o + i)))

/-- PROPERTY_GET (R72). -/
def execPropertyGet (e : Sqe) (s : State) : Host.Outcome State Fault Refusal :=
  .next <| s.admin e true false true fun q s =>
    match s.ctrlOf q with
    | none => s
    | some c => let v := c.prop e.cdw11; s.adminEnd e 0 0 (v % 2 ^ 32) (v / 2 ^ 32)

/-- PROPERTY_SET (R72). -/
def execPropertySet (e : Sqe) (s : State) : Host.Outcome State Fault Refusal :=
  .next <| s.admin e true false false fun q s =>
    match s.ctrlOf q with
    | none => s
    | some c =>
      let c := { c with props := putKey Prod.fst (e.cdw11, e.cdw12 + e.cdw13 * 2 ^ 32) c.props }
      { s with hq.ctrls := putKey Controller.id c s.hq.ctrls }.adminEnd e 0 0 0 0

/-- DISCONNECT (R72): an I/O queue of a fabric controller ends: it is answered, and its commands end as those of a queue pair that ends. -/
def execDisconnect (e : Sqe) (s : State) : Host.Outcome State Fault Refusal :=
  .next <|
    match s.queue? e.q with
    | none => s
    | some q =>
      if q.kind ≠ .fabIo then s.admin e true false false fun _ s => s.adminEnd e 0 2 0 0
      else if s.hq.san.state = .running then (s.takeCmd e).adminEnd e 0 0x1D 0 0
      else
        let s := (s.takeCmd e).adminEnd e 0 0 0 0
        let s := (s.hq.cmds.filter fun c => c.qctx == e.q).foldl State.failCmd s
        { s with hq.ctxs := dropKey QCtx.idx e.q s.hq.ctxs }

end Sys2Proof.Machine
end

