-- ==== Sys2Proof/Machine/Image.lean ====
section
/-! DEFINITION. Firmware images: their slots, their verification, and the start of an image (21_startup_security.md R492-R497). -/
namespace Sys2Proof.Machine

/-! ### Firmware slots (R492-R495) -/

/-- The first flash address of a slot (18_system_flash.md R422). -/
def slotBase (i : Nat) : Nat := if i = 0 then 0x20000000 else 0x40000000

/-- The verification code of an image, 0 where it verifies: the checks of R493 in order. Whether KEY hashes to a fused hash that is not revoked,
SIG verifies and every page reads is an operand. -/
def State.imageCode (s : State) (h : Bytes) (body : Nat → Bytes) (c : SlotCheck) : Nat :=
  let len := leAt h 16 4
  if leAt h 0 4 ≠ 0x43485244 ∨ leAt h 4 2 ≠ 1 ∨ leAt h 6 2 ≠ 0x8816 ∨ leAt h 8 1 ≠ 0x20 then 1
  else if len < 1 ∨ len > 536866816 then 2
  else if !c.keyOk ∨ leAt h 14 1 > 3 then 3
  else if !c.sigOk then 4
  else if Config.sha2 2 (body len) ≠ slice h 32 48 then 5
  else if leAt h 13 1 < s.boot.svn then 6
  else if !c.readOk then 7
  else 0

/-- The header of the image in a slot. -/
def State.slotHeader (s : State) (i : Nat) : Bytes := s.sflBytes (slotBase i) 4096

/-- A slot is verified and its code kept. -/
def State.verifySlot (s : State) (i : Nat) (c : SlotCheck) : State × Nat :=
  let code := s.imageCode (s.slotHeader i) (fun n => s.sflBytes (slotBase i + 4096) n) c
  (if i = 0 then { s with boot.failA := code } else { s with boot.failB := code }, code)

/-- The state of a slot. -/
def SlotRec.st (r : SlotRec) (i : Nat) : Nat := if i = 0 then r.stA else r.stB
/-- A slot record with the state of a slot changed. -/
def SlotRec.setSt (r : SlotRec) (i v : Nat) : SlotRec := if i = 0 then { r with stA := v } else { r with stB := v }
/-- A slot record with the version of a slot changed. -/
def SlotRec.setVer (r : SlotRec) (i v : Nat) : SlotRec := if i = 0 then { r with verA := v } else { r with verB := v }
/-- The slot that is COMMITTED. -/
def SlotRec.committed (r : SlotRec) : Option Nat := if r.stA = 4 then some 0 else if r.stB = 4 then some 1 else none

/-- A slot record is written to the COMMIT log and read back (R494, R495). -/
def State.commitRec (s : State) (r : SlotRec) : State :=
  { s with boot.slots := r }.logRecord 2 1 (some (leBytes 1 r.pref ++ leBytes 1 r.stA ++ leBytes 1 r.stB ++ leBytes 1 r.tries ++
    leBytes 4 r.verA ++ leBytes 4 r.verB))

/-- FW_MAJOR, FW_MINOR and FW_PATCH as BOOT_FW_VER holds them. -/
def fwVersion (h : Bytes) : Nat := leAt h 9 1 * 2 ^ 24 + leAt h 10 2 * 256 + leAt h 12 1

/-- The control cores are released with an image: a COMMITTED one burns the SVN bits that are missing first (R496). -/
def State.runImage (s : State) (h : Bytes) (committed : Bool) : State :=
  { s with
    boot.stage := 4
    boot.fwVer := fwVersion h
    boot.svn := if committed then Nat.max s.boot.svn (leAt h 13 1) else s.boot.svn }

/-- BOOT_RCV_CTL.GO in stage 8 (R497): the image that stands in host memory at BOOT_RCV_ADDR is verified and, where it verifies, runs. -/
def State.recover (s : State) (image : Bytes) (check : SlotCheck) : State :=
  if s.boot.stage ≠ 8 then s
  else
    let n := (s.rd R.BOOT_RCV_LEN).toNat
    let s := s.emit (.hostRead (s.rd R.BOOT_RCV_ADDR).toNat n)
    let image := slice image 0 n
    let h := slice image 0 4096
    let code := if leAt h 16 4 + 4096 > n then (if s.imageCode h (fun _ => []) check = 1 then 1 else 2)
      else s.imageCode h (fun k => slice image 4096 k) check
    let s := { s with boot.failA := code }
    if code ≠ 0 then s else { s with boot.recovery := true, boot.trial := false }.runImage h false

end Sys2Proof.Machine
end

