-- ==== Sys2Proof/Machine/Sanitize.lean ====
section
/-! DEFINITION. Format NVM and Sanitize (04_host_queues.md R91-R97; 07_data_reduction.md R162). -/
namespace Sys2Proof.Machine

/-! ### Format NVM (R92, R93) -/

/-- A volume holds its key page alone (07_data_reduction.md R162). -/
def State.keyAlone (s : State) (v : Volume) : Bool :=
  v.domain == 0 && !(s.pool.domains.any fun d => d.keyPage == v.homeKey) &&
    !s.pool.volumes.any fun x => x.nsid != v.nsid && x.homeKey == v.homeKey

/-- A media key is replaced in its key page by one of the random source, and stored (R92, R94; 09_cipher_digest.md R213). -/
def State.rekey (s : State) (page : Nat) : State :=
  match s.drbgBytes 64 with
  | (b, s) =>
    let p := s.kpage page
    let p := { p with key1 := b.take 32, key2 := b.drop 32, gen := (p.gen + 1) % 65536, next := 0, resEnd := invocBlock }
    let s := s.putPage p
    if p.persist then s.storePage p else s

/-- Kind byte of a format's record (log 20). -/
def cfgFormat := 0xF3

/-- The record of a format that begins (`going`) or ends: it carries the progress record to the peer head, which resumes the format after a
takeover (R93; how the record reaches the peer: DESIGN CHOICE, log 123). -/
def FormatRec.record (f : FormatRec) (going : Bool) : Bytes :=
  leBytes 1 cfgFormat ++ leBytes 4 f.nsid ++ leBytes 1 f.lbaf ++ leBytes 1 f.ses ++ leBytes 1 (b2n going)

/-- A carried format is in progress, or has ended, on this head as well. -/
def State.carriedFormat (s : State) (b : Bytes) : State :=
  let n := leAt b 1 4
  let has := s.hq.formats.any (·.nsid == n)
  if leAt b 7 1 = 1 then
    if has then s else { s with hq.formats := s.hq.formats ++ [FormatRec.mk n (leAt b 5 1) (leAt b 6 1) none false] }.noteRecord 3
  else if has then { s with hq.formats := s.hq.formats.filter fun f => f.nsid != n }.noteRecord 3 else s

/-- A format of SES 1, or of SES 2 on a volume that shares its key page, deallocates securely (R92; 07_data_reduction.md R162). -/
def State.formatSecure (s : State) (f : FormatRec) (v : Volume) : Bool := f.ses == 1 || (f.ses == 2 && !s.keyAlone v)

/-- The format starts once no command of the volume is in flight: the volume's snapshots go (14_snapshots_replication.md R342), and its
deallocation is staged as a chain of entries (R92; 06_brine_write_path.md R131). -/
def State.startFormat (s : State) (n : Nat) : State :=
  match s.hq.formats.find? (·.nsid == n), s.vol? n with
  | some f, some v =>
    if f.staged || !s.ownsGroup v.ana || s.hq.cmds.any (fun c => c.nsid == n) then s
    else
      let secure := s.formatSecure f v
      let s := { s with hq.formats := mapIf (fun (x : FormatRec) => x.nsid == n) (fun (x : FormatRec) => { x with staged := true }) s.hq.formats }
      let s := s.dropEpochs n secure
      let p := splitRun 0 v.nsze
      s.openEntry
        { id := s.brn.nextEnt, cmd := none, journal := s.role, nsid := n, recs := runRecs p.1.1 p.1.2 3 2, state := .reserved, jseq := 0,
          time := 0, fua := false, deadline := false, host := true, chain := p.2, sdeal := secure, ord := false, placed := false }
  | _, _ => s

/-- FORMAT_NVM (R92): checks, then the progress record of R93, and the format starts where nothing of the volume is in flight. -/
def execFormatNvm (e : Sqe) (s : State) : Host.Outcome State Fault Refusal :=
  .next <| s.admin e false true false fun _ s =>
    let lbaf := bits e.cdw10 3 0
    let ses := bits e.cdw10 11 9
    match s.vol? e.nsid with
    | none => s.adminEnd e 0 0x0B 0 0
    | some v =>
      if s.hq.formats.any (·.nsid == v.nsid) then s.adminEnd e 0 0x84 0 0
      else
        match anaStatus (s.anaState v.ana) with
        | some st => s.complete e.q e.cid st.1 st.2 false 0 0
        | none =>
          if ses > 2 then s.adminEnd e 0 2 0 0
          else if lbaf > 1 ∨ (lbaf = 1 ∧ v.mode = 1) then s.adminEnd e 1 0x0A 0 0
          else
            let f := FormatRec.mk v.nsid lbaf ses (some (e.q, e.cid)) false
            let s := { s with hq.formats := s.hq.formats ++ [f] }.noteRecord 3
            (s.placeCfg (f.record true)).startFormat v.nsid

/-- The deallocation of a format has drained, and nothing of the volume is in flight. -/
def State.formatDrained (s : State) (f : FormatRec) (v : Volume) : Bool :=
  f.staged && s.ownsGroup v.ana && !s.hq.cmds.any (fun c => c.nsid == v.nsid) &&
    !s.brn.ents.any fun x => x.nsid == v.nsid && x.state != .released

/-- A format takes effect: the key may be replaced, the LBA format changes, and the command completes, if it has not been lost with a power
cycle (R92, R93). -/
def State.endFormat (s : State) (f : FormatRec) (v : Volume) : State :=
  let s := { s with mem.cache := s.mem.cache.filter fun x => x.nsid != v.nsid }
  let s := if f.ses = 2 ∧ s.keyAlone v then s.rekey v.homeKey else s
  let s := s.storeVol { v with lbaf := f.lbaf }
  let s := { s with hq.formats := s.hq.formats.filter fun x => x.nsid != v.nsid }.noteRecord 3
  let s := s.placeCfg (f.record false)
  match f.cmd with
  | some (q, cid) => (s.complete q cid 0 0 false 0 0).queueGone q
  | none => s

/-- FORMAT_COMPLETE (R92, R93): a format whose deallocation has drained takes effect. One that has not started, because commands were in
flight, or after a power cycle or a takeover, starts (DESIGN CHOICE, log 123). -/
def execFormatComplete (nsid : Nat) (s : State) : Host.Outcome State Fault Refusal :=
  .next <|
    match s.hq.formats.find? (·.nsid == nsid), s.vol? nsid with
    | some f, some v => if s.formatDrained f v then s.endFormat f v else s.startFormat nsid
    | _, _ => s

/-! ### Sanitize (R94-R97) -/

/-- The payload of a sanitize notice: what it says (1 started, 2 succeeded, 3 failed, 4 failure mode left), action, AUSE (layout:
DESIGN CHOICE, log 20). -/
def sanNotice (what act : Nat) (ause : Bool) : Bytes := leBytes 1 what ++ leBytes 1 act ++ leBytes 1 (b2n ause)

/-- The peer is told, where it is in service (R95). -/
def State.tellSanitize (s : State) (what act : Nat) (ause : Bool) : State :=
  if s.peerInService then s.control 0x0008 (sanNotice what act ause) else s

/-- A peer that returns learns of the sanitize that runs, or of the failure mode, from the progress record (R95). -/
def State.retellSanitize (s : State) : State :=
  let z := s.hq.san
  if z.state = .running ∧ !z.peer then s.tellSanitize 1 z.act z.ause
  else if z.failMode then s.tellSanitize 3 z.act z.ause else s

/-- Best-effort commands in flight end with Sanitize In Progress; admitted deadline commands run on (R95). -/
def State.sanEndIo (s : State) : State :=
  (s.hq.cmds.filter fun c => c.deadline.isNone).foldl (fun (s : State) c => (s.discardCmd c.id).endIo c.id 0 0x1D (dnrOf (0, 0x1D))) s

/-- A sanitize starts on this head (R94, R95, R96). -/
def State.sanStart (s : State) (act : Nat) (ause : Bool) : State :=
  let san : Sanitize := { s.hq.san with state := .running, act := act, ause := ause, prog := 0, failMode := false, dieFailed := false, issued := false }
  ({ s with hq.san := san }.noteRecord 3).sanEndIo

/-- The erases of the present 1/256 of a Block Erase go out: the same share of the blocks of every serving die of the pool (R94, R96; the division of
the work: DESIGN CHOICE, log 124). -/
def State.sanErases (s : State) : State :=
  let k := s.hq.san.prog / 256
  let s := { s with hq.san.issued := true }
  (s.panDies.filter fun d => (s.ust d).serving).foldl (fun (s : State) d =>
    let n := recBlocks (s.dieRec d)
    let lo := n * k / 256
    (List.range (n * (k + 1) / 256 - lo)).foldl (fun (s : State) i =>
      s.issue (dieModule d) (diePos d) 0x03 0 (mediaParams (lo + i) 0 0 0 0) [] .sanErase) s) s

/-- A sanitize starts on this head (R94, R95, R96). -/
def State.sanBegin (s : State) (act : Nat) (ause : Bool) : State :=
  let s := (s.tellSanitize 1 act ause).sanStart act ause
  if act = 2 ∧ s.admitted.isEmpty then s.sanErases else s

/-- SANITIZE (R94, R95, R97): the peer is told, then the sanitize starts. The command completes when it has started, as the NVMe specification has
it (DESIGN CHOICE, log 82). Exit Failure Mode without AUSE recorded ends with Sanitize Failed; outside failure mode it succeeds and changes nothing
(DESIGN CHOICE, log 119). -/
def execSanitize (e : Sqe) (s : State) : Host.Outcome State Fault Refusal :=
  .next <| s.admin e false true true fun _ s =>
    let act := bits e.cdw10 2 0
    let ause := e.cdw10.testBit 3
    if e.cdw10.testBit 9 ∨ (act ≠ 1 ∧ act ≠ 2 ∧ act ≠ 4) then s.adminEnd e 0 2 0 0
    else if act = 1 then
      if s.hq.san.state = .running ∨ !s.hq.san.failMode then s.adminEnd e 0 0 0 0
      else if s.hq.san.ause then ({ s with hq.san.failMode := false }.tellSanitize 4 s.hq.san.act true).adminEnd e 0 0 0 0
      else s.adminEnd e 0 0x1C 0 0
    else if s.hq.san.state = .running then s.adminEnd e 0 0x1D 0 0
    else (s.sanBegin act ause).adminEnd e 0 0 0 0

/-- The erases of the present part of a Block Erase are out, and all have ended. -/
def State.sanErased (s : State) : Bool := s.hq.san.issued && !s.lnk.cmds.any fun c => c.why == .sanErase

/-- A die fails an erase of a Block Erase: it is marked failed, and the sanitize goes on over the others (R97). -/
def State.sanDieFailed (s : State) (d : Nat) : State := { s.dieOut d 2 .failed with hq.san.dieFailed := true }

/-- SANITIZE_PROGRESS (R96, R97): a further 1/256 of the work is done and recorded; dies whose erase failed in it are marked failed. A Block Erase
goes on with the erases of the next part, or issues those of this part where a reset has ended them. -/
def execSanitizeProgress (failed : List Nat) (s : State) : Host.Outcome State Fault Refusal :=
  .next <|
    let san := s.hq.san
    if san.state ≠ .running ∨ san.peer ∨ !s.admitted.isEmpty ∨ san.prog ≥ 65280 then s
    else if san.act = 2 ∧ !san.issued then s.sanErases
    else if san.act = 2 ∧ !s.sanErased then s
    else
      let bad := if san.act = 2 then failed.filter fun d => unitClass d == 6 && (s.ust d).serving else []
      let s := bad.foldl State.sanDieFailed s
      let s := { s with hq.san.prog := san.prog + 256 }.noteRecord 3
      if san.act = 2 then s.sanErases else s

/-- Pages that hold a media key (09_cipher_digest.md R212). -/
def State.mediaPages (s : State) : List Nat := (s.keys.pages.filter fun p => p.state == .live && p.usage == 1).map KeyPage.no

/-- The whole pool is emptied: brine, maps, grains, index, stream cache, rows and blocks; every journal this head holds goes on above
its last sequence (R94). -/
def State.sanClear (s : State) : State :=
  let erased := s.hq.san.act == 2
  let js := s.ftl.journals.map fun (j : Journal) =>
    { j with durable := j.jseq, ckpts := [], dir := [], rootS0 := j.jseq, anchors := if erased then [] else j.anchors }
  let s := { s with
    brn.ents := []
    brn.waiting := []
    brn.heldReads := []
    brn.mirror := []
    brn.flushes := []
    brn.seals := [] }
  let s := { s with red.index := [], red.recs := [], red.fps := [], mem.cache := [] }
  let s := { s with
    red.jobs := s.red.jobs.filter (fun j => j.core.isSome || match j.why with
      | .offload _ => true
      | _ => false) }
  let s := { s with
    ftl.maps := s.pool.volumes.map (fun (v : Volume) => ({ nsid := v.nsid, snap := none, pages := [] } : VolMap))
    ftl.imgs := []
    ftl.grains := []
    ftl.touched := []
    ftl.touchedIdx := []
    ftl.paged := []
    ftl.recent := []
    ftl.blocks := []
    ftl.rows := [] }
  let s := { s with
    ftl.packQ := []
    ftl.grantReq := []
    ftl.grantWait := []
    ftl.harvests := []
    ftl.reads := []
    ftl.journals := js
    snap.epochs := []
    snap.ops := []
    snap.gone := [] }
  s

/-- A root record names the empty maps of every journal this head holds (11_flash_translation.md R283). -/
def State.sanRoots (s : State) : State :=
  s.heldJournals.foldl (fun (s : State) j =>
    let x := s.journal j
    s.putRoot j ⟨x.jseq, 0, x.indexAt, []⟩) s

/-- The pool is emptied, its media keys are replaced and its roots written (R94). -/
def State.sanWipe (s : State) : State := (s.mediaPages.foldl State.rekey s.sanClear).sanRoots

/-- SANITIZE_COMPLETE (R94, R97): the work is done; a Block Erase in which a die failed ends in failure mode. -/
def execSanitizeComplete (s : State) : Host.Outcome State Fault Refusal :=
  .next <|
    let san := s.hq.san
    if san.state ≠ .running ∨ san.peer ∨ !s.admitted.isEmpty ∨ (san.act = 2 ∧ !s.sanErased) then s
    else
      let s := s.sanWipe
      let s := { s with hq.san := { san with
        state := if san.dieFailed then .failed else .done, failMode := san.dieFailed, prog := 65535, issued := false } }
      (s.noteRecord 3).tellSanitize (if san.dieFailed then 3 else 2) san.act san.ause

end Sys2Proof.Machine
end

