-- ==== Sys2Proof/Machine/Snap.lean ====
section
/-! DEFINITION. Snapshots and consistency groups (14_snapshots_replication.md R338-R346, R355-R357). -/
namespace Sys2Proof.Machine

/-! ### Groups and snapshots -/

/-- The member volumes of a scope: the volume itself, or the volumes of a consistency group in ascending NSID order (R343). -/
def State.scopeVols (s : State) (scope obj : Nat) : List Nat :=
  if scope = 0 then (s.pool.volumes.map Volume.nsid).filter (· == obj)
  else ((s.pool.volumes.filter fun v => v.cgroup == obj && obj != 0).map Volume.nsid).mergeSort

/-- This head owns the ANA group of a volume. -/
def State.ownsVol (s : State) (n : Nat) : Bool :=
  match s.vol? n with
  | some v => s.ownsGroup v.ana
  | none => false

/-- The SNAP_IDs of live snapshots. -/
def State.snapIds (s : State) : List Nat := (s.snap.epochs.map Epoch.id).eraseDups

/-- A further cut of some volumes stays within the limits of R338; armed cuts are counted. -/
def State.snapRoom (s : State) (vols : List Nat) : Bool :=
  let armed (n : Nat) : Nat := countOf (fun c => !c.placed && (s.scopeVols c.scope c.obj).contains n) s.snap.cuts
  decide (s.snapIds.length + countOf (fun c => !c.placed) s.snap.cuts < 262144) &&
    vols.all fun n => decide (countOf (fun e => e.nsid == n) s.snap.epochs + armed n < 1023)

/-- SNAP_STATUS (R357). -/
def State.snapStatus (s : State) : Nat :=
  countOf (fun x => x.state == .sending) s.snap.sessions * 2 ^ 22 + s.snapIds.length

/-! ### Cuts (R339, R343, R344) -/

/-- The arm or cancel message of a cut (layout: DESIGN CHOICE, log 20). -/
def cutMsg (cancel : Bool) (snap scope obj instant : Nat) : Bytes :=
  leBytes 1 (b2n cancel) ++ leBytes 4 snap ++ leBytes 1 scope ++ leBytes 4 obj ++ leBytes 8 instant

/-- The last sequence of a journal that a cut takes: its entries from the instant on are not taken (R339; 02_fabric_time.md R41). -/
def State.cutSeq (s : State) (j instant : Nat) : Nat :=
  let late := s.brn.ents.filter fun e => e.journal == j && e.jseq != 0 && decide (e.time ≥ instant)
  late.foldl (fun n e => Nat.min n (e.jseq - 1)) (s.journal j).jseq

/-- This head's part of a cut: its record is placed and the epochs take their maps at its place (R339, R340). -/
def State.placeCut (s : State) (snap instant : Nat) (vols : List Nat) : State :=
  let vols := vols.filter s.ownsVol
  if vols = [] then s
  else
    let j := s.cutSeq s.role instant
    let s := (s.placeCfg (snapRecord snap instant j vols)).bump R.SNAP_CUT_CNT
    let s := { s with snap.epochs := s.snap.epochs ++ vols.map fun n => Epoch.mk snap n instant j }
    vols.foldl (fun (s : State) n => s.placeActAt (s.journalOf n) (s.cutSeq (s.journalOf n) instant) (.take n snap)) s

/-- A cut whose parts are all placed ends, and its packet is answered (R343, R355). -/
def State.cutCheck (s : State) (snap : Nat) : State :=
  match findKey Cut.snap snap s.snap.cuts with
  | none => s
  | some c =>
    let theirs := (s.scopeVols c.scope c.obj).any fun n => !s.ownsVol n
    if !c.placed ∨ (theirs ∧ !c.peerPlaced ∧ !c.fromPeer ∧ s.peerInService) then s
    else
      let s := { s with snap.cuts := dropKey Cut.snap snap s.snap.cuts }
      let j := ((s.snap.epochs.find? fun e => e.id == snap).map Epoch.jseq).getD 0
      match c.pkt with
      | some p => s.finish p stOk (leBytes 4 snap ++ leBytes 8 j) []
      | none => s

/-- A cut is missed: every epoch of it goes, on both heads, and the request ends with CUT_MISSED (R344). -/
def State.missCut (s : State) (snap : Nat) (tell : Bool) : State :=
  match findKey Cut.snap snap s.snap.cuts with
  | none => s
  | some c =>
    let s := { s with snap.cuts := dropKey Cut.snap snap s.snap.cuts }
    let s := s.cancelTimed fun k => match k with
      | .cut n _ _ => n == snap
      | _ => false
    let s := if tell ∧ s.peerInService then s.control 0x0004 (cutMsg true snap c.scope c.obj c.instant) else s
    let vols : List Nat := ((s.snap.epochs.filter (·.id == snap)).map Epoch.nsid).filter s.ownsVol
    let s := if vols.isEmpty then s else s.dropSnap snap vols false
    let s := (s.bump R.SNAP_MISS_CNT).event 0x0C evcTime 3 0 (evTime c.instant)
    match c.pkt with
    | some p => s.finish p 0x0B03 [] []
    | none => s

/-- The timed event of a cut fires (R339, R344). -/
def State.fireCut (s : State) (snap : Nat) : State :=
  match findKey Cut.snap snap s.snap.cuts with
  | none => s
  | some c =>
    let vols := s.scopeVols c.scope c.obj
    if s.tide.state = .freerun ∧ vols.any s.ownsVol = true then s.missCut snap true
    else
      let s := s.placeCut snap c.instant vols
      { s with snap.cuts := putKey Cut.snap { c with placed := true } s.snap.cuts }.cutCheck snap

/-- The peer head's part of a cut is known to be placed. -/
def State.peerCut (s : State) (snap : Nat) : State :=
  match findKey Cut.snap snap s.snap.cuts with
  | none => s
  | some c => { s with snap.cuts := putKey Cut.snap { c with peerPlaced := true } s.snap.cuts }.cutCheck snap

/-- CUT_ARM_RX (R343): the cut is armed on this head as well; with its 256 entries taken (02_fabric_time.md R40) the cut is missed (DESIGN CHOICE,
log 112). -/
def execCutArmRx (h : PtlHdr) (payload : Bytes) (s : State) : Host.Outcome State Fault Refusal :=
  .next <| s.onPtl 0 h payload fun b s =>
    let id := leAt b 3 4
    let c : Cut :=
      { snap := id, scope := leAt b 7 1, obj := leAt b 8 4, instant := leAt b 12 8, pkt := none, fromPeer := true, placed := false
        peerPlaced := false }
    let s := { s with snap.nextId := Nat.max s.snap.nextId (id + 1), snap.cuts := putKey Cut.snap c s.snap.cuts }
    let t : Timed :=
      { instant := c.instant, order := s.tide.nextOrder, armed := decide (c.instant / 8000 ≤ s.lastSlot)
        kind := .cut id c.scope c.obj }
    if s.tide.timed.length ≥ 256 then s.missCut id true
    else { s with tide.timed := s.tide.timed ++ [t], tide.nextOrder := s.tide.nextOrder + 1 }

/-- CUT_CANCEL_RX (R344): the cut was missed on the peer head. -/
def execCutCancelRx (h : PtlHdr) (payload : Bytes) (s : State) : Host.Outcome State Fault Refusal :=
  .next <| s.onPtl 0 h payload fun b s =>
    let id := leAt b 3 4
    if (findKey Cut.snap id s.snap.cuts).isSome then s.missCut id false
    else
      let vols : List Nat := ((s.snap.epochs.filter (·.id == id)).map Epoch.nsid).filter s.ownsVol
      if vols = [] then s else s.dropSnap id vols false

/-! ### Packets (R355, R356) -/

/-- SET_VOLUME_GROUP (R343, R355). -/
def execSetVolumeGroup (ring slot : Nat) (s : State) : Host.Outcome State Fault Refusal :=
  .next <| s.packet 0x88 ring slot fun e p s =>
    let g := e.num 14 2
    match s.vol? (e.num 10 4) with
    | none => .fail s stInvalidField
    | some v =>
      if !s.ownsGroup v.ana then .fail s stNotOwner
      else if g > 4095 ∨ !e.zero 16 2 then .fail s stInvalidField
      else if s.moving v.ana then .fail s stBusy
      else if g ≠ 0 ∧ v.cgroup ≠ 0 ∧ v.cgroup ≠ g then .fail s 0x0B02
      else if g ≠ 0 ∧ v.cgroup ≠ g ∧ countOf (fun x => x.cgroup == g) s.pool.volumes ≥ 256 then .fail s 0x0B01
      else (s.storeVol { v with cgroup := g }).cfgDone p []

/-- CREATE_SNAPSHOT (R338, R343, R355): the cut is armed, on both heads for what both hold. (DESIGN CHOICE, log 83) -/
def execCreateSnapshot (ring slot : Nat) (s : State) : Host.Outcome State Fault Refusal :=
  .next <| s.packet 0x89 ring slot fun e p s =>
    let scope := e.num 10 1
    let obj := e.num 12 4
    let vols := s.scopeVols scope obj
    let inst := e.num 16 8
    let instant := if inst = 0 then (s.slot + 2) * 8000 else inst
    let id := s.snap.nextId
    if scope = 0 ∧ vols ≠ [] ∧ !s.ownsVol obj then .fail s stNotOwner
    else if scope > 1 ∨ !e.zero 11 1 ∨ vols = [] ∨ id ≥ 2 ^ 32 then .fail s stInvalidField
    else if vols.any (fun n => match s.vol? n with
      | some v => s.moving v.ana
      | none => false) then .fail s stBusy
    else if !s.snapRoom vols then .fail s 0x0B00
    else
      match s.armTimed instant (.cut id scope obj) with
      | .error st => .fail s st
      | .ok s =>
        let c : Cut :=
          { snap := id, scope := scope, obj := obj, instant := instant, pkt := some p, fromPeer := false, placed := false
            peerPlaced := false }
        let s := { s with snap.nextId := id + 1, snap.cuts := s.snap.cuts ++ [c] }
        .started (if s.peerInService then s.control 0x0004 (cutMsg false id scope obj instant) else s)

/-- A replication session holds a snapshot of one of these volumes (R347). -/
def State.snapHeld (s : State) (id : Nat) (vols : List Nat) : Bool :=
  s.snap.sessions.any fun x =>
    (x.base == id || x.sending == id || x.replica == id || (x.owed.map Owed.prev) == some id) && (s.scopeVols x.scope x.obj).any vols.contains

/-- DELETE_SNAPSHOT (R346). (DEDUCED, log 84) -/
def execDeleteSnapshot (ring slot : Nat) (s : State) : Host.Outcome State Fault Refusal :=
  .next <| s.packet 0x8A ring slot fun e p s =>
    let scope := e.num 10 1
    let id := e.num 16 4
    let vols := (s.scopeVols scope (e.num 12 4)).filter fun n => s.snap.epochs.any fun x => x.nsid == n && x.id == id
    if vols ≠ [] ∧ !vols.any s.ownsVol then .fail s stNotOwner
    else if scope > 1 ∨ !e.zero 11 1 ∨ !e.zero 20 2 ∨ vols = [] then .fail s stInvalidField
    else if vols.any (fun n => match s.vol? n with
      | some v => s.moving v.ana
      | none => false) then .fail s stBusy
    else if s.snapHeld id vols then .fail s 0x0B04
    else (s.dropSnap id vols false).cfgDone p []

/-- LIST_SNAPSHOTS (R355). -/
def execListSnapshots (ring slot : Nat) (s : State) : Host.Outcome State Fault Refusal :=
  .next <| s.packet 0x8B ring slot fun e _ s =>
    let n := e.num 10 4
    if (s.vol? n).isNone then .fail s stInvalidField
    else if !s.ownsVol n then .fail s stNotOwner
    else
      let es := (s.snap.epochs.filter (·.nsid == n)).mergeSort fun a b => decide (a.id ≤ b.id)
      .done s stOk [] (es.flatMap fun x => leBytes 4 x.id ++ leBytes 4 0 ++ leBytes 8 x.instant)

/-- Kind byte of the record of a clone (log 20). -/
def cfgClone := 0xF1

/-- CLONE_SNAPSHOT (R341): a new best-effort volume whose map starts as the epoch's pages. It starts detached (DESIGN CHOICE, log 38). -/
def execCloneSnapshot (ring slot : Nat) (s : State) : Host.Outcome State Fault Refusal :=
  .next <| s.packet 0x8C ring slot fun e p s =>
    let n := e.num 10 4
    let id := e.num 14 4
    let new := e.num 18 4
    match s.vol? n with
    | none => .fail s stInvalidField
    | some v =>
      if !s.ownsGroup v.ana then .fail s stNotOwner
      else if !s.snap.epochs.any (fun x => x.nsid == n && x.id == id) ∨ new < 1 ∨ new > 65536 ∨ (s.vol? new).isSome then
        .fail s stInvalidField
      else if s.moving v.ana then .fail s stBusy
      else if s.pool.volumes.length ≥ 65536 then .fail s stNoResource
      else if s.snap.gone.any (·.nsid == new) then .waits
      else
        let c : Volume := { v with
          homeKey := ((s.dom? v.domain).map Domain.keyPage).getD v.homeKey
          nsid := new, attached := false, mode := 0, flags := 0, clientAllow := 1, budget := 0, maxInflight := 0, cgroup := 0 }
        let s := s.putVol c
        let s := s.placeCfg (leBytes 1 cfgClone ++ leBytes 4 n ++ leBytes 4 id ++ c.record)
        (s.placeAct (.clone n id new)).cfgDone p []

/-- GET_SNAPSHOT_SPACE (R345): the scan starts at this place of the journal. -/
def execGetSnapshotSpace (ring slot : Nat) (s : State) : Host.Outcome State Fault Refusal :=
  .next <| s.packet 0x8D ring slot fun e p s =>
    let n := e.num 10 4
    let id := e.num 14 4
    if (s.vol? n).isSome ∧ !s.ownsVol n then .fail s stNotOwner
    else if (s.vol? n).isNone ∨ (id ≠ 0 ∧ !s.snap.epochs.any fun x => x.nsid == n && x.id == id) then .fail s stInvalidField
    else .started ({ s with snap.scans := s.snap.scans ++ [SpaceScan.mk p n id []] }.placeAct (.scan n p))

/-- SNAPSHOT_SPACE_SCAN_DONE (R345, R355): the scan of a packet ends; counts are in units of 65,536 crumbs, rounded down. -/
def execSnapshotSpaceScanDone (ring slot : Nat) (s : State) : Host.Outcome State Fault Refusal :=
  .next <|
    match s.snap.scans.find? fun x => x.pkt.ring == ring && x.pkt.slot == slot && x.counts != [] with
    | none => s
    | some x =>
      let s := { s with snap.scans := s.snap.scans.filter fun y => y.pkt != x.pkt }
      s.finish x.pkt stOk (x.counts.flatMap fun c => leBytes 4 (c / 65536)) []

end Sys2Proof.Machine
end

