-- ==== Sys2Proof/Machine/Repl.lean ====
section
/-! DEFINITION. Replication sessions (14_snapshots_replication.md R347-R357). A message lies at offset (MSG_SEQ modulo 64) MiB of the landing
region, and at most 64 messages wait for their acknowledgement (DESIGN CHOICE, log 39). -/
namespace Sys2Proof.Machine

/-! ### Sessions -/

/-- Kind byte of a session's configuration record, and of the one that removes it (log 20). -/
def cfgSession := 0xEF
/-- Kind byte of the record that removes a session. -/
def cfgSessionGone := 0xF0

/-- The configuration record of a session: how it was made, and the snapshots it holds. -/
def Session.record (x : Session) : Bytes :=
  leBytes 1 cfgSession ++ leBytes 2 x.no ++ leBytes 1 x.role ++ leBytes 1 x.scope ++ leBytes 4 x.obj ++ leBytes 2 x.keyPage ++
    leBytes 1 x.port ++ leBytes 1 x.dscp ++ leBytes 4 x.period ++ slice x.gid 0 16 ++ leBytes 2 x.remote ++ leBytes 2 x.pd ++
    leBytes 4 x.base ++ leBytes 4 x.sending ++ leBytes 4 x.replica

/-- The session that a configuration record carries: it is SUSPENDED on the head that takes it over (R353). -/
def Session.ofRecord (b : Bytes) : Session :=
  { no := leAt b 1 2, role := leAt b 3 1, scope := leAt b 4 1, obj := leAt b 5 4, keyPage := leAt b 9 2, port := leAt b 11 1
    dscp := leAt b 12 1, period := leAt b 13 4, gid := slice b 17 16, remote := leAt b 33 2, pd := leAt b 35 2, state := .suspended
    cause := 0, base := leAt b 37 4, sending := leAt b 41 4, replica := leAt b 45 4, ownQp := none, ownUp := false, otherQp := none
    otherUp := false, landKey := 0, remoteKey := 0, next := 0, acked := 0, resends := 0, opened := false, item := 0, built := []
    building := none, commitSent := false, sent := [], cutJseq := 0, arrived := [], owed := none }

/-- A session changes what its configuration record holds. -/
def State.storeSession (s : State) (x : Session) : State := (s.putSession x).placeCfg x.record

/-- The volumes of a session. -/
def State.sessionVols (s : State) (x : Session) : List Nat := s.scopeVols x.scope x.obj

/-- This head runs a session: it owns every volume of it. -/
def State.ownsSession (s : State) (x : Session) : Bool := (s.sessionVols x).all s.ownsVol

/-- STATE of a session (R355). -/
def SessSt.code : SessSt → Nat
  | .connecting => 0
  | .idle => 1
  | .sending => 2
  | .suspended => 3
  | .failed => 4

/-- The queue pairs of a session are closed. -/
def State.closeSession (s : State) (x : Session) : State :=
  [x.ownQp, x.otherQp].foldl (fun (s : State) o => match o with
    | none => s
    | some i =>
      match s.qp? i with
      | some q => ((if (s.eport q.port).up then s.sendCm q.port { cmMsg .dreq q.remote with own := i + 0x10 } else s)).dropQp i
      | none => s) s

/-- A session fails (R350, R351, R353): event, queue pairs closed, snapshots kept. Causes: 0x10 SALT_CONFLICT, 0x11 a frame that fails its
checks, 0x12 eight RESENDs of one message, 0x13 invocation values exhausted, 0x14 a grain that cannot be read (DESIGN CHOICE, log 40). -/
def State.failSession (s : State) (x : Session) (cause : Nat) : State :=
  let s := s.event 0x0C evcState 3 0 (evState x.state.code 4 cause)
  (s.closeSession x).putSession { x with
    state := .failed, cause := cause, ownQp := none, ownUp := false, otherQp := none, otherUp := false, opened := false
    built := [], building := none, arrived := [] }

/-! ### Messages (R349, R350) -/

/-- MAGIC. -/
def replMagic : Nat := 0x52504C31

/-- The first 60 bytes of a message header. -/
def replHead (x : Session) (salt typ flags items seq snap base invoc len : Nat) : Bytes :=
  leBytes 4 replMagic ++ leBytes 1 typ ++ leBytes 1 flags ++ leBytes 2 items ++ leBytes 2 x.no ++ leBytes 2 0 ++ leBytes 4 salt ++
    leBytes 8 seq ++ leBytes 4 snap ++ leBytes 4 base ++ beBytes 8 invoc ++ leBytes 4 len ++ leBytes 16 0

/-- The header fields that differ from message to message. -/
structure ReplHdr where
  typ : Nat
  flags : Nat
  items : Nat
  seq : Nat
  snap : Nat
  base : Nat
  deriving DecidableEq, Repr

/-- A message is sealed under the session's key page and sent as one RDMA WRITE with Immediate on the session's own queue pair, with
the low 32 bits of MSG_SEQ as the immediate (R349, R217; DEDUCED, log 127). -/
def State.replSend (s : State) (x : Session) (h : ReplHdr) (body : Bytes) : State :=
  match x.ownQp with
  | none => s
  | some q =>
    match s.takeInvoc x.keyPage with
    | (v, s2) =>
      if v ≥ 2 ^ 32 then s.failSession x 0x13
      else
        let k := s2.kpage x.keyPage
        let head := replHead x k.salt h.typ h.flags h.items h.seq h.snap h.base v body.length
        let head := head ++ leBytes 4 (crc32c head)
        let iv := leBytes 4 k.salt ++ beBytes 8 v
        let cipher := Config.gcmEncrypt k.key1 iv head body
        let msg := head ++ slice cipher 0 body.length ++ slice (Config.gcmTag k.key1 iv head cipher) 0 16
        let s2 := (s2.bump R.REPL_MSG_TX_CNT).bumpBy R.REPL_BYTE_TX_CNT msg.length
        s2.rdmaWriteImm q (h.seq % 64 * 2 ^ 20) x.remoteKey (h.seq % 2 ^ 32) msg

/-- A message as received: its header and its plain body, if its header and its tag hold. -/
def State.replOpen (s : State) (x : Session) (m : Bytes) : Option (ReplHdr × Nat × Bytes) :=
  let head := slice m 0 64
  let n := leAt m 40 4
  let k := s.kpage x.keyPage
  let iv := slice m 12 4 ++ slice m 32 8
  let cipher := slice m 64 n
  if leAt m 0 4 ≠ replMagic ∨ leAt m 60 4 ≠ crc32c (head.take 60) ∨ m.length ≠ 80 + n ∨
      slice (Config.gcmTag k.key1 iv head cipher) 0 16 ≠ slice m (64 + n) 16 then none
  else
    some (⟨leAt m 4 1, leAt m 5 1, leAt m 6 2, leAt m 16 8, leAt m 24 4, leAt m 28 4⟩, leAt m 12 4,
      slice (Config.gcmDecrypt k.key1 iv head cipher) 0 n)

/-! ### The source: deltas (R348, R354) -/

/-- The grains whose entries differ between two epochs of a volume, ascending; the base 0 is an empty map (R348). -/
def State.volDelta (s : State) (nsid base snap : Nat) : List (Nat × Nat) :=
  let ents (id : Nat) : List MapEnt :=
    match if id = 0 then none else s.map? nsid (some id) with
    | none => []
    | some m => m.pages.flatMap fun p => match s.img? p.2 with
      | some i => i.ents.filter fun e => e.sgn != 0
      | none => []
  let a := ents base
  let b := ents snap
  let now (g : Nat) : Nat := ((findKey MapEnt.grain g b).map MapEnt.sgn).getD 0
  let old (g : Nat) : Nat := ((findKey MapEnt.grain g a).map MapEnt.sgn).getD 0
  let gs := ((a ++ b).map MapEnt.grain).eraseDups.mergeSort
  (gs.filter fun g => now g != old g).map fun g => (g, now g)

/-- The delta of a session: member index, grain, stored grain, in ascending order (R348). -/
def State.delta (s : State) (x : Session) : List (Nat × Nat × Nat) :=
  let vs := s.sessionVols x
  ((List.range vs.length).zip vs).flatMap fun v => (s.volDelta v.2 x.base x.sending).map fun g => (v.1, g.1, g.2)

/-- The epochs of a snapshot have all taken their maps. -/
def State.epochReady (s : State) (snap : Nat) : Bool :=
  !s.snap.ops.any fun o => match o.act with
    | .take _ i => i == snap
    | _ => false

/-- The frame of a stored grain lies on media: it is in no row that is still open and waits for none. -/
def State.onMedia (s : State) (sgn : Nat) : Bool :=
  let is : RowItem → Bool := fun i => match i with
    | .frame n _ _ _ _ => n == sgn
    | .copy n _ _ _ => n == sgn
    | _ => false
  ((s.grain? sgn).map fun g => g.ploc != 0).getD false && !(s.ftl.packQ.any fun q => is q.2.2) &&
    !s.ftl.rows.any fun r => r.state != .programmed && r.state != .void && r.items.any is

/-- A DATA item (R349). -/
def replItem (i : Nat × Nat × Bytes) : Bytes :=
  let f := i.2.2
  leBytes 6 i.2.1 ++ leBytes 1 i.1 ++ leBytes 1 (b2n (f.length != 0)) ++ leBytes 4 f.length ++ leBytes 4 0 ++
    slice f 0 (16 * ceilDiv f.length 16)

/-- The message being built goes out (R348). -/
def State.replFlush (s : State) (x : Session) : State :=
  let body := x.built.flatMap replItem
  let s := s.putSession { x with
    next := x.next + 1, sent := x.sent ++ [(x.next, x.item)], item := x.item + x.built.length, built := [] }
  s.replSend x ⟨1, 0, x.built.length, x.next, x.sending, x.base⟩ body

/-- A source goes on with its delta as far as it can: items are added, full messages go out, COMMIT ends it; `n` bounds the run. -/
def State.replRun (s : State) (no : Nat) : Nat → State
  | 0 => s
  | n + 1 =>
    match s.session? no with
    | none => s
    | some x =>
      let reading := x.building.isSome && s.ftl.reads.any fun j => match j.why with
        | .repl k _ => k == no
        | _ => false
      if x.role ≠ 0 ∨ x.state ≠ .sending ∨ !x.opened ∨ x.commitSent ∨ x.next ≥ x.acked + 64 ∨ reading ∨
          !s.epochReady x.sending ∨ !s.epochReady x.base then s
      else if x.building.isSome then s.failSession x 0x14
      else
        let size := sumOf (x.built.map fun i => (replItem i).length)
        match (s.delta x)[x.item + x.built.length]? with
        | none =>
          if x.built.isEmpty then
            let s := s.putSession { x with next := x.next + 1, sent := x.sent ++ [(x.next, x.item)], commitSent := true }
            s.replSend x ⟨2, 0, 0, x.next, x.sending, x.base⟩ []
          else (s.replFlush x).replRun no n
        | some (m, g, sgn) =>
          let len := if sgn = 0 then 0 else ((s.grain? sgn).map Grain.len16).getD 0 * 16
          if 80 + size + 16 + len > 2 ^ 20 ∨ x.built.length ≥ 65535 then (s.replFlush x).replRun no n
          else if sgn = 0 then (s.putSession { x with built := x.built ++ [(m, g, [])] }).replRun no n
          else if !s.onMedia sgn then s
          else (s.putSession { x with building := some (m, g) }).readGrain (.repl no g) sgn false

/-- A source goes on with its delta. -/
def State.replGo (s : State) (no : Nat) : State :=
  match s.session? no with
  | none => s
  | some x => (s.replRun no ((s.delta x).length + 70)).sweepReads

/-- A decrypted frame that a session asked for is there: it joins the message being built (R349). -/
def State.replFrame (s : State) (j : ReadJob) (no g : Nat) (plain : Bytes) : State :=
  let s := s.dropJob j.id
  match s.session? no with
  | none => s
  | some x =>
    match x.building with
    | some (m, b) =>
      if b = g then (s.putSession { x with building := none, built := x.built ++ [(m, g, plain)] }).replGo no else s
    | none => s

/-! ### Starting a delta (R353) -/

/-- The next period of a session is armed; an entry that cannot be had now is armed when fabric time is acquired (DESIGN CHOICE, log 41). -/
def State.armPeriod (s : State) (x : Session) (from_ : Nat) : State :=
  if x.period = 0 ∨ x.role ≠ 0 then s
  else
    match s.armTimed (from_ + x.period * 1000000000) (.replPeriod x.no) with
    | .ok s => s
    | .error _ => s

/-- Sessions of this head without an armed period get one. -/
def State.armPeriods (s : State) : State :=
  (s.snap.sessions.filter s.ownsSession).foldl (fun (s : State) x =>
    if s.tide.timed.any fun t => t.kind == .replPeriod x.no then s else s.armPeriod x s.tide.time) s

/-- A period or the instant of a START_REPLICATION has come (R353). -/
def State.replFire (s : State) (no instant : Nat) : State :=
  match s.session? no with
  | none => s
  | some x =>
    if x.role ≠ 0 ∨ !s.ownsSession x then s
    else if x.state = .sending then s.bump R.REPL_SKIP_CNT
    else if x.state ≠ .idle then s
    else
      let vols := s.sessionVols x
      let id := s.snap.nextId
      if vols.isEmpty ∨ !s.snapRoom vols ∨ id ≥ 2 ^ 32 then s.bump R.REPL_SKIP_CNT
      else
        let s := { s with snap.nextId := id + 1 }.placeCut id instant vols
        let s := s.storeSession { x with
          state := .sending, sending := id, next := 0, acked := 0, item := 0, built := [], building := none, sent := [], commitSent := false }
        s.replGo no

/-! ### Connecting (R353; 05_rdma_transport.md R104) -/

/-- Both queue pairs of a source are up: OPEN, or RESUME where a delta is incomplete (R350, R353, R354). -/
def State.openSession (s : State) (x : Session) : State :=
  if x.role = 0 ∧ x.state = .connecting ∧ x.ownUp ∧ x.otherUp ∧ !x.opened then
    let typ := if x.sending = 0 then 4 else 5
    s.replSend x ⟨typ, 0, 0, x.acked - 1, x.sending, x.base⟩ []
  else s

/-- Sessions whose queue pairs have come up open. -/
def State.openSessions (s : State) : State := s.snap.sessions.foldl State.openSession s

/-- CM_RTU_RX (05_rdma_transport.md R104). -/
def execCmRtuRx (n : NetIn) (qpn : Nat) (s : State) : Host.Outcome State Fault Refusal :=
  .next <| s.rxCm n fun s => if qpn < 0x10 then s else (s.establish (qpn - 0x10)).openSessions

/-- CM_REP_RX (05_rdma_transport.md R104): the passive side accepts a privileged pair the device opened; the REP gives the key of the
other side's landing region. -/
def execCmRepRx (n : NetIn) (qpn : Nat) (m : CmParams) (s : State) : Host.Outcome State Fault Refusal :=
  .next <| s.rxCm n fun s =>
    match s.qp? (qpn - 0x10) with
    | none => s
    | some q =>
      if qpn < 0x10 ∨ q.st ≠ .connecting ∨ !q.priv then s
      else
        let s := s.putQp { q with
          remote := m.qpn, epsn := m.psn % 2 ^ 24, v6 := m.v6, mtu := mtuOf (Nat.min m.mtu (s.fld R.XPT_CFG 13 12))
          ord := Nat.min m.resources s.ordMax, tmo := Nat.max m.timeout (s.fld R.XPT_RC_CFG 23 19) }
        let s := match s.snap.sessions.find? fun x => x.ownQp == some q.idx with
          | some x => s.putSession { x with remoteKey := m.landKey }
          | none => s
        ((s.sendCm q.port { cmMsg .rtu m.qpn with own := qpn }).establish q.idx).openSessions

/-- A session opens its own queue pair as the active side: the REQ goes out with both session numbers (R353). -/
def State.connectSession (s : State) (x : Session) : State :=
  let idx := s.freeCtx
  let p := s.eport x.port
  if !p.up ∨ idx ≥ 1048576 ∨ s.privPairs ≥ 1024 then
    (s.bump R.REPL_SUSPEND_CNT).putSession { x with state := .suspended }
  else
    let q := newQp idx x.port 0 (mtuOf (s.fld R.XPT_CFG 13 12)) s.ordMax (s.fld R.XPT_RC_CFG 23 19) 7 7 0 p.line true x.pd (some x.no)
    let s := (s.putQp q).cacheCtx idx
    let s := s.putSession { x with state := .connecting, ownQp := some idx, ownUp := false, opened := false }
    s.sendCm x.port { cmMsg .req 1 with
      own := q.idx + 0x10, mtu := q.mtu, depth := q.ord, timeout := q.tmo, retry := q.retryMax, rnr := q.rnrMax
      session := some (x.remote, x.no), landKey := x.landKey, gid := x.gid }

/-- REPL_RECONNECT_TIMER (R353). -/
def execReplReconnectTimer (session : Nat) (s : State) : Host.Outcome State Fault Refusal :=
  .next <|
    match s.session? session with
    | none => s
    | some x => if x.state = .suspended ∧ s.ownsSession x then s.connectSession x else s

/-- REPL_CONNECT_TIMEOUT (R353): the attempt has had no answer. -/
def execReplConnectTimeout (session : Nat) (s : State) : Host.Outcome State Fault Refusal :=
  .next <|
    match s.session? session with
    | none => s
    | some x => if x.state = .connecting then s.suspendSession session 0 else s

/-! ### Messages that arrive -/

/-- The oldest message that has arrived for a session is taken, where its TYPE is the one asked for (R349, R351). -/
def State.message (s : State) (no typ : Nat) (act : Session → Bytes → State → State) : State :=
  match s.session? no with
  | none => s
  | some x =>
    match x.arrived with
    | [] => s
    | msg :: rest =>
      if leAt msg 4 1 ≠ typ then s
      else
        let x := { x with arrived := rest }
        act x msg (s.putSession x)


/-- A message that fails its tag is counted and, of DATA and COMMIT, asked for again; the eighth RESEND of one message fails the session
(R351). -/
def State.replBad (s : State) (x : Session) (m : Bytes) : State :=
  let s := s.bump R.REPL_AUTH_FAIL_CNT
  if x.role = 0 then s
  else
    let seq := leAt m 16 8
    let n := if x.cutJseq = seq then x.resends + 1 else 1
    let s := (s.putSession { x with resends := n, cutJseq := seq }).replSend x ⟨3, 2, 0, seq, leAt m 24 4, leAt m 28 4⟩ []
    if n ≥ 8 then s.failSession { x with resends := n } 0x12 else s

/-- An ACK of the target (R349). -/
def State.replAck (s : State) (x : Session) (flags seq snap : Nat) : State := s.replSend x ⟨3, flags, 0, seq, snap, 0⟩ []

/-- A COMMITTED that a target owes goes out once the record of its replica snapshot is journalled: the peer head has taken it, or there is none in
service (R351). -/
def State.payOwed (s : State) (x : Session) : State :=
  match x.owed with
  | none => s
  | some o =>
    if s.peerInService && (s.chan 0).held.any fun m => m.seq == o.ctl then s
    else (s.putSession { x with owed := none }).replAck { x with owed := none } 1 o.seq o.snap

/-- Every COMMITTED that may go out goes out. -/
def State.payAll (s : State) : State := s.snap.sessions.foldl State.payOwed s

/-- The items of a DATA body: member, grain, frame; `n` bounds them. -/
def replItems : Nat → Bytes → List (Nat × Nat × Bytes)
  | 0, _ => []
  | n + 1, b =>
    let len := leAt b 8 4
    (leAt b 6 1, leAt b 0 6, if leAt b 7 1 = 1 then slice b 16 len else []) :: replItems n (b.drop (16 + 16 * ceilDiv len 16))

/-- The grain record of an item: its content, or a zero grain; none where the frame fails its checks (R351; 08_compression.md R196). -/
def replRec (i : Nat × Nat × Bytes) : Option (Nat × BRec) :=
  let f := i.2.2
  let rec_ (kind : Nat) (data : List Bytes) : BRec :=
    { grain := i.2.1, mask := 15, kind := kind, pages := [], data := data, merged := none }
  if f.isEmpty then some (i.1, rec_ 2 [])
  else
    match decodeFrame f (f.length / 16) with
    | some c => some (i.1, rec_ 1 (blocksOf c))
    | none => none

/-- The records of one member are written through the own journal, as a best-effort write without FUA (R351). -/
def State.replWrite (s : State) (nsid : Nat) (recs : List BRec) : State :=
  let e : BEnt :=
    { id := s.brn.nextEnt, cmd := none, journal := s.role, nsid := nsid, recs := recs, state := .reserved, jseq := 0, time := 0, fua := false
      deadline := false, host := false, chain := [], sdeal := false, ord := false, placed := false }
  let s := { s with brn.nextEnt := e.id + 1 }.takeFor e
  s.assignSeq ((s.ent? e.id).getD e)

/-- The first message that waits at a target is applied once the brine has room for it (R351): DATA is written and acknowledged, COMMIT
places the replica snapshot and is acknowledged with COMMITTED; `n` bounds the messages. -/
def State.replApply (s : State) (no : Nat) : Nat → State
  | 0 => s
  | n + 1 =>
    match s.session? no with
    | none => s
    | some x =>
      match x.built with
      | [] => s
      | (items, snap, body) :: rest =>
        let vols := s.sessionVols x
        if items = 0 then
          let instant := s.tide.time
          let s := { s with snap.nextId := Nat.max s.snap.nextId (snap + 1) }.placeCut snap instant vols
          let y := { x with replica := snap, next := 0, built := rest }
          let s := (s.storeSession y).bump R.REPL_MSG_RX_CNT
          let owed : Owed := ⟨((s.chan 0).next + 2 ^ 32 - 1) % 2 ^ 32, x.next, snap, x.replica⟩
          ((s.putSession { y with owed := some owed }).payOwed { y with owed := some owed }).replApply no n
        else
          let rs := (replItems items body).map replRec
          if rs.any Option.isNone then s.failSession x 0x11
          else
            let rs := rs.filterMap id
            let need := sumOf (rs.map fun r => r.2.need)
            if !s.roomFor need rs.length false then s
            else
              let s := ((List.range vols.length).zip vols).foldl (fun (s : State) v =>
                let mine := (rs.filter fun r => r.1 == v.1).map Prod.snd
                if mine.isEmpty then s else s.replWrite v.2 mine) s
              let s := s.putSession { x with next := x.next + 1, built := rest, resends := 0 }
              ((s.bump R.REPL_MSG_RX_CNT).replAck x 0 x.next snap).replApply no n

/-- Every session goes on: deltas that wait for frames, messages that wait for room. -/
def State.replPump (s : State) : State :=
  (s.snap.sessions.foldl (fun (s : State) x =>
    if x.role = 0 then s.replGo x.no else s.replApply x.no (x.built.length + 1)) s).payAll

/-- A message of a delta arrives at a target (R351): one already applied is acknowledged again, the next one waits to be applied, one that
is ahead of a missing one is discarded and will be sent again. -/
def State.replIn (s : State) (x : Session) (h : ReplHdr) (items : Nat) (body : Bytes) : State :=
  if h.snap = x.replica then (if x.owed.isSome then s else s.replAck x 1 h.seq h.snap)
  else if h.seq < x.next then s.replAck x 0 (x.next - 1) h.snap
  else if h.seq ≠ x.next + x.built.length then s
  else (s.putSession { x with built := x.built ++ [(items, h.snap, body)] }).replApply x.no (x.built.length + 1)

/-- REPL_DATA_RX (R351). -/
def execReplDataRx (session : Nat) (s : State) : Host.Outcome State Fault Refusal :=
  .next <| s.message session 1 fun x msg s =>
    if x.role ≠ 1 ∨ !x.opened then s
    else
      match s.replOpen x msg with
      | none => s.replBad x msg
      | some (h, _, body) => if h.items = 0 then s else s.replIn x h h.items body

/-- REPL_COMMIT_RX (R351). -/
def execReplCommitRx (session : Nat) (s : State) : Host.Outcome State Fault Refusal :=
  .next <| s.message session 2 fun x msg s =>
    if x.role ≠ 1 ∨ !x.opened then s
    else
      match s.replOpen x msg with
      | none => s.replBad x msg
      | some (h, _, _) => s.replIn x h 0 []

/-- REPL_ACK_RX (R351, R353): it advances the delta, asks for messages again, or commits it. -/
def execReplAckRx (session : Nat) (s : State) : Host.Outcome State Fault Refusal :=
  .next <| s.message session 3 fun x msg s =>
    if x.role ≠ 0 ∨ x.state ≠ .sending ∨ !x.opened then s
    else
      match s.replOpen x msg with
      | none => s.replBad x msg
      | some (h, _, _) =>
        if h.snap ≠ x.sending then s
        else if h.flags.testBit 0 then
          let old := x.base
          let s := s.storeSession { x with state := .idle, base := x.sending, sending := 0, acked := 0, next := 0, item := 0, sent := [], commitSent := false }
          let vols : List Nat := (s.sessionVols x).filter fun n => s.snap.epochs.any fun e => e.nsid == n && e.id == old
          if vols.isEmpty then s else s.dropSnap old vols false
        else if h.flags.testBit 1 then
          match findKey Prod.fst h.seq x.sent with
          | none => s
          | some (q, i) =>
            let s := s.putSession { x with
              next := q, item := i, built := [], building := none, commitSent := false, sent := x.sent.filter fun p => decide (p.1 < q) }
            s.replGo session
        else
          let a := Nat.max x.acked (h.seq + 1)
          (s.putSession { x with acked := a, sent := x.sent.filter fun p => decide (a ≤ p.1) }).replGo session

/-- REPL_OPEN_RX (R350, R353): a target checks the salt and answers; a source whose OPEN is answered is IDLE. (DEDUCED, log 85) -/
def execReplOpenRx (session : Nat) (s : State) : Host.Outcome State Fault Refusal :=
  .next <| s.message session 4 fun x msg s =>
    match s.replOpen x msg with
    | none => s.bump R.REPL_AUTH_FAIL_CNT
    | some (_, salt, _) =>
      if x.state ≠ .connecting then s
      else if x.role = 0 then s.putSession { x with opened := true, state := .idle }
      else if salt = (s.kpage x.keyPage).salt then s.failSession x 0x10
      else
        (s.putSession { x with opened := true, state := .idle, next := 0, built := [], resends := 0 }).replSend x ⟨4, 0, 0, 0, 0, 0⟩ []

/-- REPL_RESUME_RX (R353, R354): a target answers with the highest message it has applied; a source sends again from the message after the
highest acknowledged one. -/
def execReplResumeRx (session : Nat) (s : State) : Host.Outcome State Fault Refusal :=
  .next <| s.message session 5 fun x msg s =>
    match s.replOpen x msg with
    | none => s.bump R.REPL_AUTH_FAIL_CNT
    | some (h, salt, _) =>
      if x.state ≠ .connecting then s
      else if x.role = 0 then (s.putSession { x with opened := true, state := .sending, next := x.acked }).replGo session
      else if salt = (s.kpage x.keyPage).salt then s.failSession x 0x10
      else
        let s := s.putSession { x with opened := true, state := .idle, built := [], resends := 0 }
        s.replSend x ⟨5, 0, 0, x.next - 1, h.snap, h.base⟩ []

/-! ### Packets (R355, R356) -/

/-- The bytes of a landing region: 64 MiB. -/
def landBytes : Nat := 0x4000000

/-- Region `i` from `base` on is clear of every other key's (log 39). -/
def State.landFree (s : State) (base i : Nat) : Bool :=
  !s.xpt.keys.any fun k =>
    k.space == 0 && decide (k.base < base + (i + 1) * landBytes) && decide (base + i * landBytes < k.base + k.len)

/-- A landing region in an area, clear of every other key's, and its memory key (log 39). -/
def State.landingIn (s : State) (base len pd : Nat) : Option (State × Nat) :=
  match (List.range (len / landBytes)).find? (s.landFree base) with
  | none => none
  | some i =>
    match s.newMkey 0 (base + i * landBytes) landBytes pd with
    | (s, some k) => some (s, k)
    | (_, none) => none

/-- A landing region in the HBM landing area and its memory key; in protection domain 0 no key is registered (05_rdma_transport.md R122). -/
def State.landingKey (s : State) (pd : Nat) : Option (State × Nat) :=
  if pd = 0 then none else s.landingIn (s.landArea 0).1 (s.landArea 0).2 pd

/-- The fields of a CREATE_REPL_SESSION are in range: role, scope, key page, port, DSCP, protection domain, and what is reserved (R355;
05_rdma_transport.md R122). -/
def sessionFieldsOk (e : Entry) : Bool :=
  decide (e.num 12 1 ≤ 1) && decide (e.num 13 1 ≤ 1) && decide (e.num 18 2 ≤ 4095) && decide (e.num 20 1 ≤ 15) && decide (e.num 21 1 ≤ 63) &&
    e.num 44 2 != 0 && e.zero 46 2

/-- A new session takes its landing region, is recorded and connects. -/
def State.startSession (s : State) (p : PktRef) (x : Session) : PktRes :=
  match s.landingKey x.pd with
  | none => .fail s stNoResource
  | some (s, key) =>
    let x := { x with landKey := key }
    let s := (s.storeSession x).connectSession x
    (s.armPeriod x s.tide.time).cfgDone p []

/-- CREATE_REPL_SESSION. Each side registers the key of its landing region itself, a source for the acknowledgements; the region's place is
the device's own (DESIGN CHOICE, log 39). -/
def execCreateReplSession (ring slot : Nat) (s : State) : Host.Outcome State Fault Refusal :=
  .next <| s.packet 0x90 ring slot fun e p s =>
    let no := e.num 10 2
    let role := e.num 12 1
    let scope := e.num 13 1
    let vols := s.scopeVols scope (e.num 14 4)
    let kp := e.num 18 2
    let k := s.kpage kp
    if !vols.all s.ownsVol then .fail s stNotOwner
    else if vols.isEmpty ∨ !sessionFieldsOk e then .fail s stInvalidField
    else if vols.any (fun n => match s.vol? n with
      | some v => s.moving v.ana
      | none => false) then .fail s stBusy
    else if (s.session? no).isSome ∨ s.snap.sessions.any (fun x => (s.sessionVols x).any vols.contains) then .fail s 0x0B05
    else if k.state ≠ .live ∨ k.usage ≠ 2 ∨ !k.persist then .fail s 0x0B07
    else if s.snap.sessions.length ≥ 512 then .fail s stNoResource
    else
      let x : Session := { Session.ofRecord [] with
        no := no, role := role, scope := scope, obj := e.num 14 4, keyPage := kp, port := e.num 20 1, dscp := e.num 21 1, period := e.num 22 4
        gid := e.sub 26 16, remote := e.num 42 2, pd := e.num 44 2, state := .connecting }
      s.startSession p x

/-- The session of a packet, if this head runs it; else the status. -/
def State.pktSession (s : State) (e : Entry) : Except Nat Session :=
  match s.session? (e.num 10 2) with
  | none => .error stInvalidField
  | some x => if !s.ownsSession x then .error stNotOwner else if !e.zero 12 2 then .error stInvalidField else .ok x

/-- START_REPLICATION (R353, R40). -/
def execStartReplication (ring slot : Nat) (s : State) : Host.Outcome State Fault Refusal :=
  .next <| s.packet 0x91 ring slot fun e p s =>
    match s.pktSession e with
    | .error st => .fail s st
    | .ok x =>
      if x.role ≠ 0 ∨ x.state ≠ .idle then .fail s 0x0B06
      else
        match s.armTimed (e.num 14 8) (.replStart x.no) with
        | .error st => .fail s st
        | .ok s => s.cfgDone p []

/-- GET_REPL_SESSION (R355). -/
def execGetReplSession (ring slot : Nat) (s : State) : Host.Outcome State Fault Refusal :=
  .next <| s.packet 0x92 ring slot fun e _ s =>
    match s.pktSession e with
    | .error st => .fail s st
    | .ok x =>
      .done s stOk (leBytes 1 x.state.code ++ leBytes 1 x.cause ++ leBytes 2 0 ++ leBytes 4 x.base ++ leBytes 4 x.sending ++
        leBytes 8 ((if x.role = 0 then x.acked else x.next) - 1)) []

/-- DELETE_REPL_SESSION (R347, R353): its queue pairs close and its snapshots are released. -/
def execDeleteReplSession (ring slot : Nat) (s : State) : Host.Outcome State Fault Refusal :=
  .next <| s.packet 0x93 ring slot fun e p s =>
    match s.pktSession e with
    | .error st => .fail s st
    | .ok x =>
      let s := s.closeSession x
      let s := { s with
        snap.sessions := dropKey Session.no x.no s.snap.sessions
        xpt.keys := dropKey MemKey.idx (x.landKey / 256) s.xpt.keys }
      let s := s.cancelTimed fun k => k == .replPeriod x.no || k == .replStart x.no
      (s.placeCfg (leBytes 1 cfgSessionGone ++ leBytes 2 x.no)).cfgDone p []

end Sys2Proof.Machine
end

