-- ==== Sys2Proof/Machine/Tide.lean ====
section
/-! DEFINITION. Fabric time and timed events (02_fabric_time.md R27-R42; 12_harvest_health.md R293-R295, R310; 19_event_recorder.md R443;
22_power_electrical.md R516). -/
namespace Sys2Proof.Machine

/-! ### Event allowances (19_event_recorder.md R443) -/

/-- Whole seconds of fabric time. -/
def State.second (s : State) : Nat := s.tide.time / 1000000000

/-- A refill for `k` boundaries: every allowance rises by k times RATE, capped at BURST, and each class that dropped records appends a
SUMMARY. -/
def State.refill (s : State) (k : Nat) : State :=
  let up (c n : Nat) : Nat := Nat.min (s.fld (R.EVR_RATE c) 31 16) (n + k * s.fld (R.EVR_RATE c) 15 0)
  let allow := ((List.range s.evr.allow.length).zip s.evr.allow).map fun x => up x.1 x.2
  let drops := s.evr.drops
  let s := { s with evr.allow := allow, evr.drops := [], evr.lastRefill := s.second }
  drops.foldl (fun (s : State) d =>
    s.event 0x14 0x12 2 0 (evCount d.cls (s.rd (R.EVR_DROP_CNT d.cls)).toNat ++ evEvent d.firstCode d.firstUnit)) s

/-- EVR_ALLOWANCE_REFILL (R443): a boundary of a second has passed that was not refilled yet. -/
def execEvrAllowanceRefill (s : State) : Host.Outcome State Fault Refusal :=
  .next <| if s.second > s.evr.lastRefill then s.refill (s.second - s.evr.lastRefill) else s

/-! ### The harvest budget (12_harvest_health.md R294, R295, R310) -/

/-- H is aimed at the value that the pool's free fraction asks for: a rise takes effect 262,144 slots on, a fall from the next slot
(R294). -/
def State.aimH (s : State) : State :=
  let h := if s.ftl.budgetArmed then s.ftl.hUrgent else s.ftl.hBase
  let last := match s.ftl.hPending with
    | some p => p.2
    | none => s.ftl.hNow
  if h = last then s
  else if h = s.ftl.hNow then { s with ftl.hPending := none }
  else if h > s.ftl.hNow then { s with ftl.hPending := some (s.slot + 262144, h) }
  else { s with ftl.hPending := some (s.slot + 1, h) }

/-- H_URGENT is wanted from below FREE_LOW until FREE_HIGH is reached again (R295). -/
def State.budgetCheck (s : State) : State :=
  let s := if !s.ftl.budgetArmed && s.freeBelow s.freeLow then { s with ftl.budgetArmed := true }
    else if s.ftl.budgetArmed && !s.freeBelow s.freeHigh then { s with ftl.budgetArmed := false }
    else s
  s.aimH

/-- HARVEST_BUDGET_SWITCH (R294): a pending value of H takes effect at its slot. -/
def execHarvestBudgetSwitch (s : State) : Host.Outcome State Fault Refusal :=
  .next <|
    match s.ftl.hPending with
    | some (slot, h) =>
      if s.slot ≥ slot then { s with ftl.hNow := h, ftl.hPending := none, ftl.urgent := s.ftl.budgetArmed } else s
    | none => s

/-- SET_HARVEST_BUDGET (R310, R311). -/
def execSetHarvestBudget (ring slot : Nat) (s : State) : Host.Outcome State Fault Refusal :=
  .next <| s.packet 0x5A ring slot fun e _ s =>
    let base := e.num 18 2
    let urgent := e.num 20 2
    let armed := s.tide.timed.any fun t => match t.kind with
      | .budget _ _ => true
      | _ => false
    if base < 100 ∨ urgent < base ∨ !e.zero 22 4 then .fail s stInvalidField
    else if urgent * 256 ≥ 8000 * s.dieShare then .fail s 0x0900
    else if armed ∨ s.ftl.hPending.isSome then .fail s 0x0901
    else
      match s.armTimed (e.num 10 8) (.budget base urgent) with
      | .error st => .fail s st
      | .ok s => .done s stOk [] []

/-! ### Timed events (R40, R41) -/

/-- A timed event fires; one that fires late after a forward step is recorded with the late flag (R41). -/
def State.fireTimed (s : State) (t : Timed) (late : Bool) : State :=
  let s := { s with tide.timed := s.tide.timed.filter fun x => x.order != t.order }
  let s := if late then s.event 0x02 evcTime 3 0 (evTime t.instant) true else s
  match t.kind with
  | .cut snap _ _ => s.fireCut snap
  | .replStart n => s.replFire n t.instant
  | .replPeriod n =>
    let s := s.replFire n t.instant
    match s.session? n with
    | some x => s.armPeriod x t.instant
    | none => s
  | .budget b u => { s with ftl.hBase := b, ftl.hUrgent := u }.aimH

/-- The first of some timed events: by instant, then in the order they were armed (R40). -/
def firstTimed (ts : List Timed) : Option Timed :=
  ts.foldl (fun o t => match o with
    | none => some t
    | some (x : Timed) => if t.instant < x.instant ∨ (t.instant = x.instant ∧ t.order < x.order) then some t else some x) none

/-- The armed events whose instant has been reached. -/
def State.dueTimed (s : State) : List Timed := s.tide.timed.filter fun t => t.armed && decide (t.instant ≤ s.tide.time)

/-- TIMED_EVENT_FIRE (R40, R41): the first armed event whose instant has come fires, in every state but FREERUN; there only a cut, which is
missed (14_snapshots_replication.md R344). A budget or replication event whose instant passes in FREERUN stays due, holds back later events until
FREERUN is left, and then fires without the late flag (DESIGN CHOICE, log 111). -/
def execTimedEventFire (s : State) : Host.Outcome State Fault Refusal :=
  .next <|
    match firstTimed s.dueTimed with
    | none => s
    | some t =>
      if s.tide.state = .freerun then
        match t.kind with
        | .cut _ _ _ => s.fireTimed t false
        | _ => s
      else s.fireTimed t false

/-- One accepted instant that has come within the horizon is armed; `order` counts what is armed (R40). -/
def armOne (last : Nat) (p : List Timed × Nat) (t : Timed) : List Timed × Nat :=
  if !t.armed && decide (t.instant / 8000 ≤ last) then (p.1 ++ [{ t with armed := true, order := p.2 }], p.2 + 1) else (p.1 ++ [t], p.2)

/-- FAR_INSTANT_ARM (R40): accepted instants that have come within the horizon are armed, in the order of their acceptance. -/
def execFarInstantArm (s : State) : Host.Outcome State Fault Refusal :=
  .next <|
    let p := s.tide.timed.foldl (armOne s.lastSlot) ([], s.tide.nextOrder)
    { s with tide.timed := p.1, tide.nextOrder := p.2 }

/-! ### The state machine (R28, R30, R31) -/

/-- SRC_MODE with its reserved values treated as 0 (R28). -/
def State.srcMode (s : State) : Nat := let m := s.fld R.TIDE_CFG 2 0; if m > 2 then 0 else m

/-- Every reference that SRC_MODE needs is present (R28). -/
def State.refOk (s : State) : Bool :=
  s.tide.refPtp && (s.srcMode == 0 || s.tide.ref10m) && (s.srcMode != 2 || s.tide.refPps)

/-- The window and the counts of the Sync intervals start anew. -/
def Tide.fresh (t : Tide) : Tide := { t with window := [], goodEst := 0, goodSpread := 0, badEst := 0 }

/-- The state machine enters ACQUIRING: the estimate reads all ones until the window is full (R30, R31). -/
def Tide.acquire (t : Tide) : Tide := { t with state := .acquiring, est := 0xFFFFFFFF, goodEst := 0, goodSpread := 0, badEst := 0 }

/-- The reference is found, or has returned (R30, R31). HOLDOVER goes on until an offset has been measured. -/
def State.refFound (s : State) : State :=
  match s.tide.state with
  | .freerun => { s with tide := s.tide.fresh.acquire }.armPeriods
  | .unqualified => { s with tide := s.tide.fresh.acquire }
  | .holdover => { s with tide := s.tide.fresh }
  | _ => s

/-- An input has come: where it completes the reference, the reference is found. -/
def State.inputs (s : State) (t : Tide) : State :=
  let was := s.refOk
  let s := { s with tide := t }
  if s.refOk && !was then s.refFound else s

/-- A PTP message is one the device takes: on an unbroken port or sub-port 0, of the configured domain and transport (R27). -/
def State.ptpOk (s : State) (m : PtpIn) : Bool :=
  let t := s.fld R.TIDE_CFG 5 4
  m.sub == 0 && m.domain == s.fld R.TIDE_CFG 31 25 && m.transport == (if t = 3 then 0 else t)

/-- A port may carry PTP: the primary one, or with BKP_EN the backup one (R27, R28). -/
def State.ptpPort (s : State) (port : Nat) : Bool :=
  port == s.fld R.TIDE_CFG 19 16 || (port == s.fld R.TIDE_CFG 23 20 && s.fld R.TIDE_CFG 24 24 == 1)

/-- One data set is better than another: the first difference decides (R27). -/
def rankBetter : List Nat → List Nat → Bool
  | a :: x, b :: y => decide (a < b) || (a == b && rankBetter x y)
  | _, _ => false

/-- The master that an Announce message leaves selected: the sender where none is selected, where it is selected already, or where it is the better one
(R27). Each head port keeps no list of others: a better master announces again (PRESUMED, log 108). -/
def Tide.hear (t : Tide) (m : PtpIn) (rank : List Nat) : Tide :=
  let take := { t with refPtp := true, activePort := m.port, master := some (PtpMaster.mk m.source rank) }
  match t.master with
  | none => take
  | some x =>
    if t.activePort ≠ m.port then t else if x.source = m.source then take else if rankBetter rank x.rank then take else t

/-- ANNOUNCE_RX (R28) on a port that may carry PTP: `rank` is the sender's data set. With no master selected, a message on the primary or the
backup port takes PTP to that port; while one is selected, PTP stays on its port (DESIGN CHOICE, log 113). -/
def execAnnounceRx (m : PtpIn) (rank : List Nat) (tenMhz : Bool) (s : State) : Host.Outcome State Fault Refusal :=
  .next <|
    let t := { s.tide with ref10m := s.tide.ref10m || tenMhz }
    s.inputs (if s.ptpOk m && s.ptpPort m.port then t.hear m rank else t)

/-- PPS_IN_EDGE (R28): the 1PPS input is present. (DESIGN CHOICE, log 86) -/
def execPpsInEdge (tenMhz : Bool) (s : State) : Host.Outcome State Fault Refusal :=
  .next <| s.inputs { s.tide with refPps := true, ref10m := s.tide.ref10m || tenMhz }

/-- The reference that the mode needs is lost (R31, R34): a waiting step is abandoned, a slew runs on. -/
def State.refLost (s : State) : State :=
  let s := { s with tide.stepPend := none }
  match s.tide.state with
  | .acquiring =>
    if s.tide.lockedOnce then { s with tide.state := .unqualified, tide.est := 0xFFFFFFFF }
    else { s with tide.state := .freerun, tide.est := 0xFFFFFFFF, tide.ppsLevel := false }.emit (.pin .ppsOut false)
  | .locked =>
    let s := s.bump R.TIDE_HOLDOVER_CNT
    { s with
      tide.state := .holdover
      tide.holdE0 := s.tide.est
      tide.holdA := s.fld R.TIDE_HOLD_CFG 15 0
      tide.holdC := s.fld R.TIDE_HOLD_CFG 31 16
      tide.holdSec := s.tide.time }
  | _ => s

/-- A reference is lost (R28, R31): `cause` 0 Announce, 1 the 1PPS input, 2 the 10 MHz input. A lost primary port moves PTP to the backup port; a loss
on the backup port returns PTP to the primary one (DESIGN CHOICE, log 113). -/
def State.referenceLost (s : State) (cause : Nat) : State :=
  let was := s.refOk
  let pri := s.fld R.TIDE_CFG 19 16
  let s := match cause with
    | 0 =>
      let s := { s with tide.refPtp := false, tide.master := none }
      if s.tide.activePort = pri ∧ s.fld R.TIDE_CFG 24 24 = 1 then { s with tide.activePort := s.fld R.TIDE_CFG 23 20 }
      else { s with tide.activePort := pri }
    | 1 => { s with tide.refPps := false }
    | _ => { s with tide.ref10m := false }
  if was && !s.refOk then s.refLost else s

/-- REFERENCE_LOST (R28, R31). -/
def execReferenceLost (cause : Nat) (s : State) : Host.Outcome State Fault Refusal := .next (s.referenceLost cause)

/-! ### Offsets and corrections (R30, R31, R34) -/

/-- The sum of the offsets. -/
def offSum (w : List Int) : Int := w.foldl (· + ·) 0

/-- Twice the population standard deviation of some offsets, rounded up to a nanosecond: the spread term of R30. -/
def spread (w : List Int) : Nat :=
  let n := w.length
  let sq := w.foldl (fun a x => a + x * x) (0 : Int)
  let v := (4 * ((n : Int) * sq - offSum w * offSum w)).toNat
  let r := isqrt v
  ceilDiv (if r * r = v then r else r + 1) n

/-- The error estimate over a window (R30); fractions of a nanosecond are rounded up (DESIGN CHOICE, log 42). -/
def State.estimate (s : State) (w : List Int) : Nat :=
  Nat.min 0xFFFFFFFF (ceilDiv (offSum w).natAbs w.length + spread w + 16 * s.fld R.TIDE_CFG 15 8)

/-- The reservations are laid out afresh after a step (R35). -/
def State.layoutH (s : State) : State :=
  match s.ftl.hPending with
  | none => s
  | some (_, h) => { s with ftl.hPending := some (if h > s.ftl.hNow then s.slot + 262144 else s.slot + 1, h) }

/-- Events that a forward step has passed fire at once, in instant order; `n` bounds them (R41). -/
def State.firePassed (s : State) : Nat → State
  | 0 => s
  | n + 1 =>
    match firstTimed s.dueTimed with
    | some t => if s.tide.state = .freerun then s else (s.fireTimed t true).firePassed n
    | none => s

/-- A step takes the offset off fabric time (R34, R35, R41; 19_event_recorder.md R443). The window starts anew (R30), and PPS_OUT has yet to rise at
every boundary of a second from the new time on (R29). -/
def State.applyStep (s : State) (off : Int) : State :=
  let now := ((s.tide.time : Int) - off).toNat
  let t := s.tide.fresh
  let s := { s with tide := { t with
      time := now, stepPend := none, acqCorr := false, est := if t.state = TideSt.acquiring then 0xFFFFFFFF else t.est
      lastPps := (now + 999999999) / 1000000000 - 1 } }.bump R.TIDE_STEP_CNT
  let s := s.layoutH
  let s := s.event 0x02 evcTime 2 0 (evValueS (-off))
  let s := if off < 0 ∧ s.second > s.evr.lastRefill then s.refill (s.second - s.evr.lastRefill) else s
  if off < 0 then s.firePassed (s.tide.timed.length + 1) else s

/-- The correction of an offset that the state machine decides (R34): a slew up to 100 µs, else a step, now or once no admitted deadline
command is left. -/
def State.correct (s : State) (off : Int) : State :=
  if off.natAbs ≤ 100000 then { s with tide.slew := some off, tide.acqCorr := s.tide.state == .acquiring }
  else if s.admitted.isEmpty then s.applyStep off
  else { s with tide.stepPend := some off }

/-- A further offset enters the window, and the estimate is computed anew (R30). -/
def State.measure (s : State) (off : Int) : State :=
  let w := (off :: s.tide.window).take 16
  let full := decide (w.length = 16) || s.tide.state == .locked
  { s with tide.window := w, tide.est := if full then s.estimate w else 0xFFFFFFFF }

/-- A Sync message is taken: it comes from the selected master on the port that carries PTP, and its offset was measured with the configured delay
mechanism (R27, R28, R30). -/
def State.syncOk (s : State) (m : PtpIn) : Bool :=
  s.ptpOk m && m.mech == s.fld R.TIDE_CFG 3 3 && m.port == s.tide.activePort && s.tide.master.any (·.source == m.source)

/-- SYNC_RX (R30, R31): `offset` is fabric time less the master's time. A slew still under way when the reference returns in HOLDOVER with an offset of
at most 2,000 ns is replaced by the slew of that offset (DESIGN CHOICE, log 109). In UNQUALIFIED with every reference present, the reference counts as
returned (DEDUCED, log 110). -/
def execSyncRx (m : PtpIn) (offset : Int) (s : State) : Host.Outcome State Fault Refusal :=
  .next <|
    if !(s.refOk && s.syncOk m) then s
    else
      match s.tide.state with
      | .acquiring =>
        let s := s.measure offset
        let full := decide (s.tide.window.length = 16)
        let sp := spread s.tide.window
        let s := { s with
          tide.goodEst := if full && decide (s.tide.est ≤ 250) then s.tide.goodEst + 1 else 0
          tide.goodSpread := if full && decide (sp ≤ 250) then s.tide.goodSpread + 1 else 0 }
        if s.tide.goodEst ≥ 16 then
          { s with tide.state := .locked, tide.lockedOnce := true, tide.badEst := 0 }
        else if s.tide.goodSpread ≥ 16 ∧ s.tide.slew.isNone ∧ s.tide.stepPend.isNone then
          { s with tide.goodSpread := 0 }.correct (offSum s.tide.window / 16)
        else s
      | .locked =>
        let s := s.measure offset
        let s := { s with tide.badEst := if s.tide.est > 2000 then s.tide.badEst + 1 else 0 }
        if s.tide.badEst ≥ 4 then
          let est := if s.tide.window.length = 16 then s.tide.est else 0xFFFFFFFF
          { s with tide := { s.tide.acquire with est := est } }
        else s
      | .holdover =>
        if offset.natAbs ≤ 2000 then
          let s := { s with tide.state := .locked, tide.badEst := 0 }.measure offset
          if offset = 0 then s else { s with tide.slew := some offset, tide.acqCorr := false }
        else { s with tide := s.tide.acquire }.measure offset
      | .unqualified => { s with tide := s.tide.fresh.acquire }.measure offset
      | .freerun => s

/-- SLEW_END (R34): the offset has been removed; after the correction of ACQUIRING the window starts anew (R30). -/
def execSlewEnd (s : State) : Host.Outcome State Fault Refusal :=
  .next <|
    if s.tide.slew.isNone then s
    else
      let s := if s.tide.acqCorr then
          let t := s.tide
          { s with tide := { t with
              window := [], goodEst := 0, goodSpread := 0, acqCorr := false, est := if t.state = TideSt.acquiring then 0xFFFFFFFF else t.est } }
        else s
      { s with tide.slew := none }

/-- STEP_APPLIED (R34): the waiting step is taken once no admitted deadline command is left. -/
def execStepApplied (s : State) : Host.Outcome State Fault Refusal :=
  .next <|
    match s.tide.stepPend with
    | some off => if s.admitted.isEmpty then s.applyStep off else s
    | none => s

/-- HOLDOVER_EXCEEDED (R31): the holdover estimate has passed 2,000 ns. -/
def execHoldoverExceeded (s : State) : Host.Outcome State Fault Refusal :=
  .next <|
    let est := s.errEst
    if s.tide.state = .holdover ∧ est > 2000 then
      { s with tide.state := .unqualified, tide.est := 0xFFFFFFFF }.event 0x02 evcState 4 0 (evState 3 4 0 ++ evValue est)
    else s

/-- PPS_OUT_EDGE (R29): PPS_OUT rises at the boundary of a second, in every state but FREERUN. -/
def execPpsOutEdge (s : State) : Host.Outcome State Fault Refusal :=
  .next <|
    if s.tide.state = .freerun ∨ s.tide.lastPps = s.second then s
    else { s with tide.lastPps := s.second, tide.ppsLevel := true }.emit (.pin .ppsOut true)

/-! ### The tide table advances (R39) -/

/-- A far booking is spread over the 64 slots of its bucket, each up to the capacity that applied when it was made; `i` slots are left. Where the
bookings of a bucket were made against different capacities, a part may find no slot: it is dropped (DESIGN CHOICE, log 114). -/
def spreadOne (table : List Booking) (b : Booking) (left : Nat) : Nat → List Booking
  | 0 => table
  | i + 1 =>
    let slot := b.slot + (63 - i)
    let used := sumOf ((table.filter fun x => !x.far && x.rsrc == b.rsrc && x.idx == b.idx && x.slot == slot).map Booking.amount)
    let put := Nat.min left (b.cap - used)
    let table := if put = 0 then table else table ++ [{ b with far := false, slot := slot, amount := put }]
    spreadOne table b (left - put) i

/-- The bucket that enters the near window has its bookings spread, earliest deadline first (R39). -/
def State.spreadBucket (s : State) : State :=
  let first := 64 * (s.slot / 64 + 63)
  let far := s.tide.table.filter fun b => b.far && b.slot == first
  let rest := s.tide.table.filter fun b => !(b.far && b.slot == first)
  let far := far.mergeSort fun a b => decide (a.deadline ≤ b.deadline)
  { s with tide.table := far.foldl (fun t b => spreadOne t b b.amount 64) rest }

/-- SLOT_ADVANCE (R36, R39): fabric time reaches the next slot; every 64th, a far bucket enters the near window. The free fraction of the
pool is looked at (12_harvest_health.md R295). (DESIGN CHOICE, log 4) -/
def execSlotAdvance (s : State) : Host.Outcome State Fault Refusal :=
  .next <|
    let s := { s with tide.time := (s.slot + 1) * 8000 }
    let s := if s.slot % 64 = 0 then s.spreadBucket else s
    s.budgetCheck

/-! ### Ports (R27; 22_power_electrical.md R516) -/

/-- The length of R516 in centimetres, rounded to the nearest, from a delay in picoseconds. -/
def State.cableCm (s : State) (ps : Nat) (copper : Bool) : Nat :=
  let vf := if copper then s.fld R.PWR_CABLE_CFG 31 24 else s.fld R.PWR_CABLE_CFG 23 16
  let d := ps - 1000 * s.fld R.PWR_CABLE_CFG 7 0
  (d * vf * 2998 + 12800000) / 25600000

/-- A cable measurement of a port (16 is the ICL) is shown. -/
def State.cable (s : State) (port ps : Nat) (copper : Bool) : State :=
  { s with pwr.cables := putKey Prod.fst (port, ps, Nat.min 65535 (s.cableCm ps copper)) s.pwr.cables }

/-- PEER_DELAY_TIMER (R27, R516): every port that is up measures its peer delay; `delays` are the results: port, picoseconds, copper. -/
def execPeerDelayTimer (delays : List (Nat × Nat × Bool)) (s : State) : Host.Outcome State Fault Refusal :=
  .next <|
    let up := s.xpt.ports.filter fun p => p.up && decide (p.port < 16)
    let s := up.foldl (fun (s : State) p => s.emit (.ptpDelay p.port)) s
    (delays.filter fun d => d.1 < 16 && up.any fun p => p.port == d.1).foldl (fun (s : State) d => s.cable d.1 d.2.1 d.2.2) s

/-- ETH_PORT_UP (R27; 05_rdma_transport.md R102): a port, or a sub-port of a port in breakout, comes up with its line rate in Mb/s. -/
def execEthPortUp (port line : Nat) (s : State) : Host.Outcome State Fault Refusal :=
  .next <|
    if port > 63 ∨ s.domainOff (3 + port % 16) then s
    else s.putEport { s.eport port with up := true, line := line, paused := [], ignoring := none, queue := [] }

end Sys2Proof.Machine
end

