-- ==== Sys2Proof/Machine/Domains.lean ====
section
/-! DEFINITION. Dedup domains (07_data_reduction.md R161, R182-R185) and the codec generation (08_compression.md R192, R193). -/
namespace Sys2Proof.Machine

/-- Kind bytes of configuration records (log 20): a domain, its deletion, a codec generation. -/
def cfgDomain := 0xE2
/-- Kind byte of the record that deletes a domain. -/
def cfgDomainGone := 0xE3
/-- Kind byte of a generation record. -/
def cfgGen := 0xED

/-- The record of a domain. -/
def Domain.record (d : Domain) : Bytes :=
  leBytes 1 cfgDomain ++ leBytes 1 d.id ++ leBytes 1 d.slot ++ leBytes 2 d.keyPage ++ leBytes 1 d.k ++ leBytes 2 d.ana

/-- The domain that a record carries. -/
def Domain.ofRecord (b : Bytes) : Domain :=
  { id := leAt b 1 1, slot := leAt b 2 1, keyPage := leAt b 3 2, k := leAt b 5 1, ana := leAt b 6 2 }

/-- `s` with a domain replaced. -/
def State.putDom (s : State) (d : Domain) : State := { s with pool.domains := putKey Domain.id d s.pool.domains }

/-- Bytes of the HBM filter area and of the DDR index area (16_memory_cache.md R392, R393). -/
def State.indexAreas (s : State) : Nat × Nat :=
  let land := Nat.min 64 (bits s.mem.hbmSplit 7 0)
  let map := Nat.min (bits s.mem.hbmSplit 15 8) (105 - land)
  let flex := s.mem.ddrGib - 4
  ((106 - land - map) * 2 ^ 30, flex * bits s.mem.ddrSplit 23 16 / 256 * 2 ^ 30)

/-- The partition of 2^k buckets and its filter fit beside those of the domains there are (R165, R185; 16_memory_cache.md R394). -/
def State.domainFits (s : State) (k : Nat) : Bool :=
  let b := 2 ^ k + sumOf (s.pool.domains.map fun d => 2 ^ d.k)
  decide (16 * b ≤ s.indexAreas.1) && decide (256 * b ≤ s.indexAreas.2)

/-- CREATE_DEDUP_DOMAIN (R182, R185; 09_cipher_digest.md R219). Where the entropy source fails its tests no key and no domain is created (R210). -/
def execCreateDedupDomain (ring slot : Nat) (entropyOk : Bool) (s : State) : Host.Outcome State Fault Refusal :=
  .next <| s.packet 0x60 ring slot fun e p s =>
    let d : Domain := { id := e.num 10 1, slot := e.num 11 1, keyPage := e.num 12 2, k := e.num 14 1, ana := e.num 16 2 }
    if 1 ≤ d.ana ∧ d.ana ≤ 1024 ∧ !s.ownsGroup d.ana then .fail s stNotOwner
    else if d.id = 0 ∨ d.keyPage > 4095 ∨ d.k < 16 ∨ d.k > 32 ∨ !e.zero 15 1 ∨ d.ana < 1 ∨ d.ana > 1024 ∨
        !(s.kpage d.keyPage).mediaKey then .fail s stInvalidField
    else if (s.dom? d.id).isSome then .fail s 0x0500
    else if (s.kslot d.slot).state ≠ .empty then .fail s 0x0501
    else if !s.domainFits d.k then .fail s 0x0502
    else if !entropyOk then .fail s stUnitFailed
    else
      let s := s.generateSlot { s.kslot d.slot with cfg := 0x41, len := 32 }
      ((s.putDom d).placeCfg d.record).cfgDone p []

/-- A domain and its index go. -/
def State.dropDomain (s : State) (n : Nat) : State :=
  let s := (s.red.index.filter (·.dom == n)).foldl (fun (s : State) x => s.unindex x.sgn) s
  { s with pool.domains := dropKey Domain.id n s.pool.domains }

/-- A dedup domain goes: its index entries, its configuration record and its key slot (R183). -/
def State.removeDomain (s : State) (d : Domain) : State :=
  let s := (s.dropDomain d.id).placeCfg (leBytes 1 cfgDomainGone ++ leBytes 1 d.id)
  s.eraseSlot (s.kslot d.slot)

/-- DELETE_DEDUP_DOMAIN (R183, R185). -/
def execDeleteDedupDomain (ring slot : Nat) (s : State) : Host.Outcome State Fault Refusal :=
  .next <| s.packet 0x61 ring slot fun e p s =>
    match s.dom? (e.num 10 1) with
    | none => .fail s stInvalidField
    | some d =>
      if !s.ownsGroup d.ana then .fail s stNotOwner
      else if !e.zero 11 3 then .fail s stInvalidField
      else if s.pool.volumes.any (·.domain == d.id) then .fail s 0x0503
      else
        (s.removeDomain d).cfgDone p []

/-- GET_DEDUP_DOMAIN (R183). -/
def execGetDedupDomain (ring slot : Nat) (s : State) : Host.Outcome State Fault Refusal :=
  .next <| s.packet 0x62 ring slot fun e _ s =>
    match s.dom? (e.num 10 1) with
    | none => .fail s stInvalidField
    | some d =>
      if !s.ownsGroup d.ana then .fail s stNotOwner
      else if !e.zero 11 3 then .fail s stInvalidField
      else
        let refs := sumOf ((s.ftl.grains.filter fun g => g.domain == d.id).map Grain.refcnt)
        .done s stOk (leBytes 1 d.id ++ leBytes 1 d.slot ++ leBytes 2 d.keyPage ++ leBytes 1 d.k ++ [0] ++ leBytes 2 d.ana ++
          leBytes 8 (countOf (fun x => x.dom == d.id) s.red.index) ++ leBytes 8 refs) []

/-- SET_VOLUME_DOMAIN (R184, R185). -/
def execSetVolumeDomain (ring slot : Nat) (s : State) : Host.Outcome State Fault Refusal :=
  .next <| s.packet 0x63 ring slot fun e p s =>
    let n := e.num 14 1
    match s.vol? (e.num 10 4) with
    | none => .fail s stInvalidField
    | some v =>
      if !s.ownsGroup v.ana then .fail s stNotOwner
      else if (match s.dom? n with | some d => n != 0 && !s.ownsGroup d.ana | none => false) then .fail s stNotOwner
      else if !e.zero 15 3 ∨ (n ≠ 0 ∧ (s.dom? n).isNone) then .fail s stInvalidField
      else if s.moving v.ana then .fail s stBusy
      else if s.volMapped v.nsid then .fail s 0x0504
      else if n ≠ 0 ∧ ((s.dom? n).map Domain.ana).getD 0 ≠ v.ana then .fail s 0x0505
      else if n = 0 ∧ ((s.kpage v.homeKey).state ≠ .live ∨ (s.kpage v.homeKey).usage ≠ 1) then .fail s stInvalidField
      else (s.storeVol { v with domain := n }).cfgDone p []

/-- SET_CODEC_GENERATION (08_compression.md R193): the own journal has its record here; the peer writes one into its own as it takes the
configuration record. This device encodes generations 2 and 3 (R192). -/
def execSetCodecGeneration (ring slot : Nat) (s : State) : Host.Outcome State Fault Refusal :=
  .next <| s.packet 0x6A ring slot fun e p s =>
    let g := e.num 10 1
    let agreed := match s.pair.hello with
      | some h => decide (h.genMin ≤ g) && decide (g ≤ h.genMax)
      | none => true
    if !e.zero 11 3 then .fail s stInvalidField
    else if g < 2 ∨ g > 3 then .fail s 0x0600
    else if s.peerInService ∧ !agreed then .fail s 0x0601
    else (({ s with pool.gen := g }.setGen s.role s.own.jseq g).placeCfg (leBytes 1 cfgGen ++ leBytes 1 g)).cfgDone p []

end Sys2Proof.Machine
end

