-- ==== Sys2Proof/Machine/Shadow.lean ====
section
/-! DEFINITION. What the peer head's journal and its messages do to the shadow: configuration records, journal records, mirror records
(15_pair_operation.md R364, R367, R368; 06_brine_write_path.md R139; 11_flash_translation.md R279-R284). The layout of configuration bodies
is the model's (DESIGN CHOICE, log 20). -/
namespace Sys2Proof.Machine

/-! ### Configuration records -/

/-- Kind byte of a volume's deletion. -/
def cfgVolumeGone := 0xE1
/-- Kind byte of an ANA group's record. -/
def cfgGroup := 0xE4
/-- Kind byte of a register that is pool configuration. -/
def cfgReg := 0xEC
/-- Kind byte of the pool's own record. -/
def cfgPool := 0xEE
/-- Kind byte of a takeover record. -/
def cfgTakeover := 0xF2

/-- The record of an ANA group: owner, home head, and whether its writes enter the adopted journal. -/
def AnaGroup.record (g : AnaGroup) : Bytes :=
  leBytes 1 cfgGroup ++ leBytes 2 g.id ++ leBytes 1 g.owner ++ leBytes 1 g.home ++ leBytes 1 (b2n g.adopted)

/-- The ANA group that a record carries. -/
def AnaGroup.ofRecord (b : Bytes) : AnaGroup :=
  { id := leAt b 1 2, owner := leAt b 3 1, home := leAt b 4 1, change := false, adopted := leAt b 5 1 == 1 }

/-- The record of a register that is pool configuration (11_flash_translation.md R289). -/
def regRecord (addr : Nat) (v : DWord) : Bytes := leBytes 1 cfgReg ++ leBytes 4 addr ++ leBytes 8 v.toNat

/-- The record of the pool: identifier, metadata key page, codec generation. -/
def Pool.record (p : Pool) : Bytes := leBytes 1 cfgPool ++ slice p.id 0 16 ++ leBytes 2 p.mdKey ++ leBytes 1 p.gen

/-- The volumes that a list of 4-byte NSIDs from an offset on names. -/
def nsidsAt (b : Bytes) (off n : Nat) : List Nat := (List.range n).map fun i => leAt b (off + 4 * i) 4

/-- The set of attached volumes changes: Namespace Attribute Changed on every controller (20_control_packets.md R476). -/
def State.nsChanged (s : State) : State := s.postAenAll 2 0 4

/-- ANA Change on every controller (04_host_queues.md R98). -/
def State.anaChanged (s : State) : State := s.postAenAll 2 3 0x0C

/-- The ANA state of some group differs from what it was: ANA Change is posted (R98). -/
def State.anaSince (s s0 : State) : State :=
  if (List.range 1024).any fun i => s.anaState (i + 1) != s0.anaState (i + 1) then s.anaChanged else s

/-- A carried volume takes its place; the entries of its journal up to the record's place see what it was (07_data_reduction.md R180). -/
def State.carriedVolume (s : State) (j q : Nat) (b : Bytes) : State :=
  let v := Volume.ofRecord b
  let s := s.notePast j q v.nsid
  let seen := match s.vol? v.nsid with
    | some o => o.attached
    | none => false
  let s := s.putVol v
  let s := if (s.map? v.nsid none).isSome then s else s.putMap { nsid := v.nsid, snap := none, pages := [] }
  if seen = v.attached then s else s.nsChanged

/-- A pool's record gives both journals the generation they begin with. -/
def State.firstGen (s : State) (g : Nat) : State :=
  (s.putJournal { s.journal 0 with gen := g, genPast := [] }).putJournal { s.journal 1 with gen := g, genPast := [] }

/-- What a configuration record says is applied to the tables (R193, R216, R257, R289). Its place is after the entry of sequence `q` of journal
`j`; maps follow there. -/
def State.applyCfg (s : State) (j q : Nat) (b : Bytes) : State :=
  match leAt b 0 1 with
  | 0xE0 => s.carriedVolume j q b
  | 0xE1 =>
    match s.vol? (leAt b 1 4) with
    | some v =>
      { s with
        pool.volumes := dropKey Volume.nsid v.nsid s.pool.volumes
        snap.gone := s.snap.gone ++ [v]
        snap.epochs := s.snap.epochs.filter fun e => e.nsid != v.nsid }
    | none => s
  | 0xE2 => s.putDom (Domain.ofRecord b)
  | 0xE3 => s.dropDomain (leAt b 1 1)
  | 0xE4 =>
    let g := AnaGroup.ofRecord b
    if s.moving g.id then s.putGroup { s.group g.id with home := g.home } else s.putGroup { g with change := (s.group g.id).change }
  | 0xE5 => s.carriedInvoc (leAt b 1 2) (leAt b 3 8)
  | 0xE6 => s.carriedPage b
  | 0xE7 => s.carriedPageGone (leAt b 1 2)
  | 0xE8 => s.carriedSlot b
  | 0xE9 => s.carriedSlotGone (leAt b 1 2)
  | 0xEA =>
    let id := leAt b 1 4
    let vols := nsidsAt b 23 (leAt b 21 2)
    let new := vols.filter fun n => !s.snap.epochs.any fun e => e.id == id && e.nsid == n
    { s with
      snap.epochs := s.snap.epochs ++ new.map (fun n => Epoch.mk id n (leAt b 5 8) (leAt b 13 8))
      snap.nextId := Nat.max s.snap.nextId (id + 1) }.peerCut id
  | 0xEB =>
    let vols := nsidsAt b 8 (leAt b 6 2)
    { s with snap.epochs := s.snap.epochs.filter fun e => !(e.id == leAt b 1 4 && vols.contains e.nsid) }
  | 0xEC =>
    match regAt (leAt b 1 4) with
    | some r => s.wr r (BitVec.ofNat 64 (leAt b 5 8))
    | none => s
  | 0xED => { s with pool.gen := leAt b 1 1 }.setGen j q (leAt b 1 1)
  | 0xEE => { s with pool.loaded := true, pool.id := slice b 1 16, pool.mdKey := leAt b 17 2, pool.gen := leAt b 19 1 }.firstGen (leAt b 19 1)
  | 0xEF => s.putSession (Session.ofRecord b)
  | 0xF0 => { s with snap.sessions := dropKey Session.no (leAt b 1 2) s.snap.sessions }
  | 0xF1 => s.carriedVolume j q (b.drop 9)
  | 0xF3 => s.carriedFormat b
  | _ => s

/-- What a configuration record does to maps at its place in its journal (R339, R341, R342). -/
def cfgActs (b : Bytes) : List MapAct :=
  match leAt b 0 1 with
  | 0xEA => (nsidsAt b 23 (leAt b 21 2)).map fun n => .take n (leAt b 1 4)
  | 0xEB => (nsidsAt b 8 (leAt b 6 2)).map fun n => .drop n (some (leAt b 1 4)) (leAt b 5 1 == 1)
  | 0xF1 => [.clone (leAt b 1 4) (leAt b 5 4) (Volume.ofRecord (b.drop 9)).nsid]
  | 0xE1 => [.drop (leAt b 1 4) none false]
  | _ => []

/-- A configuration record of a followed journal acts at its place: on maps, and a generation record on that journal's generation (R193). -/
def State.shadowCfg (s : State) (j q : Nat) (b : Bytes) : State :=
  let s := if leAt b 0 1 = 0xED then s.setGen j q (leAt b 1 1) else s
  (cfgActs b).foldl State.mapAct s

/-- A record that each head keeps in its own journal as well: pool configuration that names no volume's map (R257). -/
def cfgShared (b : Bytes) : Bool := [0xE0, 0xE2, 0xE3, 0xE5, 0xE6, 0xE7, 0xE8, 0xE9, 0xEC, 0xED, 0xEE].contains (leAt b 0 1)

/-! ### Journal records (R284 step 4, R368) -/

/-- An item of an entry record (R280). -/
def JItem.ofBytes (b : Bytes) : JItem :=
  { grain := leAt b 0 6, kind := leAt b 6 1, stream := leAt b 7 1 % 4, sgn := leAt b 8 6, recIdx := leAt b 14 2, ploc := leAt b 16 6
    len16 := leAt b 22 2, crc := leAt b 24 4 }

/-- The items of a part of an entry record. -/
def ShadowRec.items (r : ShadowRec) : List JItem :=
  (List.range (leAt r.bytes 24 2)).map fun i => JItem.ofBytes (slice r.bytes (32 + 32 * i) 32)

/-- TYPE of a part. -/
def ShadowRec.typ (r : ShadowRec) : Nat := leAt r.bytes 2 1
/-- The body of a part. -/
def ShadowRec.body (r : ShadowRec) : Bytes := r.bytes.drop 32
/-- New grains of a part: items of KIND 2. -/
def ShadowRec.news (r : ShadowRec) : Nat := if r.typ = 1 then countOf (fun i => i.kind == 2) r.items else 0

/-- The CRC of a part holds (R279). -/
def partOk (b : Bytes) : Bool := leAt b 28 4 == crc32c (b.take 28 ++ b.drop 32)

/-- The record parts at the front of a JOURNAL payload after its index page: they end where exactly the fingerprints of their new grains
are left (R367); `n` bounds them. -/
def shadowParts (role : Nat) : Nat → Nat → Bytes → List ShadowRec → List ShadowRec × Bytes
  | 0, _, b, acc => (acc, b)
  | n + 1, news, b, acc =>
    let len := 256 * leAt b 4 2
    if b.length = 32 * news ∨ len = 0 ∨ b.length < len then (acc, b)
    else
      let p := b.take len
      let r : ShadowRec :=
        { journal := role, jseq := leAt p 8 8, sub := leAt p 6 2, part := leAt p 20 2, parts := leAt p 22 2, bytes := p, fps := [] }
      shadowParts role n (news + r.news) (b.drop len) (acc ++ [r])

/-- The parts with their fingerprints, in the same order. -/
def withFps : List ShadowRec → Bytes → List ShadowRec
  | [], _ => []
  | r :: t, b => { r with fps := b.take (32 * r.news) } :: withFps t (b.drop (32 * r.news))

/-- The last place applied in order of a journal: its JSEQ and SUB. -/
def State.tipOf (s : State) (j : Nat) : Nat := (s.journal j).tip

/-- A new grain of an applied record: its table entry, its index entry from the shipped fingerprint, its place in its block (R171, R280,
R368). -/
def State.shadowNew (s : State) (v : Volume) (dom : Option Domain) (role jseq : Nat) (i : JItem) (fp : Bytes) : State :=
  let g : Grain :=
    { sgn := i.sgn, refcnt := 1, pi := v.lbaf == 1, full := false, pinned := false, len16 := i.len16, domain := v.domain,
      keyPage := match dom with
        | some d => d.keyPage
        | none => v.homeKey
      tweak := tweakOf role jseq i.recIdx, crc := i.crc, islot := none, ploc := i.ploc, grp := v.ana }
  let s := s.putGrain g
  let s := match s.dom? v.domain with
    | some d => s.insertIdx v.domain d.k (leNat fp) i.sgn jseq
    | none => s
  let k := s.blkOf i.ploc
  let b := s.blk k.1 k.2
  s.putBlk { b with content := b.content ++ [i.sgn] }

/-- One item of an entry record is applied (R168, R172, R267). -/
def State.shadowItem (s : State) (role nsid jseq : Nat) (i : JItem) (fp : Bytes) : State :=
  match s.volAt role jseq nsid with
  | none => s
  | some (v, dom) =>
    match i.kind with
    | 0 => s.mapSet nsid i.grain 0 jseq false
    | 1 => (s.addRef i.sgn).mapSet nsid i.grain i.sgn jseq false
    | 2 => (s.shadowNew v dom role jseq i fp).mapSet nsid i.grain i.sgn jseq false
    | _ => s

/-- The items of a part with the fingerprints of the new ones. -/
def itemFps : List JItem → Bytes → List (JItem × Bytes)
  | [], _ => []
  | i :: t, b => if i.kind = 2 then (i, b.take 32) :: itemFps t (b.drop 32) else (i, []) :: itemFps t b

/-- A harvest record of the peer's journal (12_harvest_health.md R297, R298, R305). -/
def State.shadowHarvest (s : State) (r : ShadowRec) : State :=
  let b := r.body
  let k := (leAt b 2 1, leAt b 4 4)
  let x := s.blk k.1 k.2
  match leAt b 0 1 with
  | 1 => s.putBlk { x with state := .victim, started := r.jseq }
  | 2 =>
    let items := (List.range (leAt r.bytes 24 2)).map fun i =>
      (leAt r.bytes (40 + 24 * i) 6, leAt r.bytes (48 + 24 * i) 6, leAt r.bytes (56 + 24 * i) 6)
    let s := items.foldl (fun (s : State) c => match s.grain? c.1 with
      | some g => if c.1 ≠ 0 ∧ g.ploc = c.2.1 then s.putGrain { g with ploc := c.2.2 } else s
      | none => s) s
    if (leAt b 1 1).testBit 0 then s.putBlk { s.blk k.1 k.2 with state := .erasePending } else s
  | 3 => s.putBlk { x with state := .bad }
  | _ => s

/-- At a checkpoint of the peer's journal: images of its groups are clean, blocks granted to it and never recorded are FREE (R274), and so
are its blocks whose erase was due (DESIGN CHOICE, log 43). -/
def State.shadowCkpt (s : State) (j : Nat) : State :=
  let free (b : Blk) : Bool := b.owner == j && ((b.state == .opened && !b.recorded) || b.state == .erasePending)
  { s with
    ftl.imgs := s.ftl.imgs.map (fun i => if s.heldJournals.any fun k => s.ownImg k i then i else { i with dirty := false })
    ftl.touched := s.ftl.touched.filter fun p => s.heldJournals.any fun k => s.ownPart k p
    ftl.touchedIdx := s.ftl.touchedIdx.filter fun p => s.heldJournals.any fun k => s.ownIdx k p
    ftl.blocks := s.ftl.blocks.filter fun b => !free b }

/-- A row of a block of the peer's journal has been closed. -/
def State.shadowRow (s : State) (j st top row jseq : Nat) : State :=
  let u := s.topU top
  if u = 0 then s
  else
    let b := s.blk top (row / u)
    let b := { b with owner := j, stream := st, recorded := true, nextRow := Nat.max b.nextRow (row % u + 1), closedRows := b.closedRows + 1
                      maxJseq := Nat.max b.maxJseq jseq }
    let st := if b.closedRows ≥ s.rowsIn top b.slc then BlkSt.full else if b.state = .free then .opened else b.state
    s.putBlk { b with state := st }

/-- A part of a journal record is applied. `cfg` says that configuration and unit records have not come as messages. -/
def State.shadowApply (s : State) (cfg : Bool) (r : ShadowRec) : State :=
  let b := r.body
  match r.typ with
  | 1 => (itemFps r.items r.fps).foldl (fun (s : State) x => s.shadowItem r.journal (leAt r.bytes 16 4) r.jseq x.1 x.2) s
  | 2 => s.openBlk (leAt b 0 1) (leAt b 2 1) (leAt b 1 1) (leAt b 4 4) (leAt b 3 1 == 1) true
  | 3 => (if cfg then s.applyCfg r.journal r.jseq b else s).shadowCfg r.journal r.jseq b
  | 4 => if cfg then s.applyUnit b else s
  | 5 => s.shadowCkpt r.journal
  | 6 => s.shadowRow r.journal 0 (leAt b 0 1) (leAt b 4 4) r.jseq
  | 7 => s.shadowHarvest r
  | _ => s

/-- Every part of a record is held. -/
def State.heldWhole (s : State) (j jseq sub : Nat) : List ShadowRec :=
  let rs := s.pair.shadowHeld.filter fun r => r.journal == j && r.jseq == jseq && r.sub == sub
  let n := (rs.map ShadowRec.parts).headD 0
  let all := (List.range n).filterMap fun i => rs.find? fun r => r.part == i
  if all.length = n then all else []

/-- A record that is held is applied, whatever stands before it, and the tip follows. -/
def State.shadowTake (s : State) (cfg : Bool) (rs : List ShadowRec) : State :=
  match rs with
  | [] => s
  | r :: _ =>
    let s := { s with
      pair.shadowHeld := s.pair.shadowHeld.filter fun x => !(x.journal == r.journal && x.jseq == r.jseq && x.sub == r.sub) }
    let s := rs.foldl (fun (s : State) x => s.shadowApply cfg x) s
    let j := s.journal r.journal
    if r.jseq < j.tip then s
    else s.putJournal { j with
      tip := r.jseq, jseq := Nat.max j.jseq r.jseq
      sub := if r.jseq = j.tip then Nat.max j.sub r.sub else r.sub }

/-- The next record that may be applied: one that came late, the next device-added record of the tip, or the next entry (R368). A gap among
device-added records cannot be seen (DESIGN CHOICE, log 44). -/
def State.shadowNext (s : State) (j : Nat) : List ShadowRec :=
  let t := s.journal j
  let late := (s.pair.shadowHeld.filter fun r => r.journal == j && decide (r.jseq < t.tip)).map fun r => (r.jseq, r.sub)
  let cands := late ++ [(t.tip, t.sub + 1), (t.tip + 1, 0)]
  ((cands.map fun c => s.heldWhole j c.1 c.2).find? fun rs => !rs.isEmpty).getD []

/-- Held records of a journal are applied in order as far as there is no gap (R368); `n` bounds the run. -/
def State.shadowRun (s : State) (cfg : Bool) (j : Nat) : Nat → State
  | 0 => s
  | n + 1 =>
    match s.shadowNext j with
    | [] => s
    | rs => (s.shadowTake cfg rs).shadowRun cfg j n

/-- A release mark applies every held record at or below it (R368); `n` bounds the run. -/
def State.shadowUpTo (s : State) (j mark : Nat) : Nat → State
  | 0 => s
  | n + 1 =>
    let due := s.pair.shadowHeld.filter fun r => r.journal == j && decide (r.jseq ≤ mark)
    let low := due.foldl (fun (o : Option ShadowRec) r => match o with
      | none => some r
      | some x => if r.jseq < x.jseq ∨ (r.jseq = x.jseq ∧ r.sub < x.sub) then some r else some x) none
    match low with
    | none => s
    | some r =>
      let rs := s.pair.shadowHeld.filter fun x => x.journal == j && x.jseq == r.jseq && x.sub == r.sub
      (s.shadowTake false rs).shadowUpTo j mark n

/-- This head follows the journals of a survivor (R384): configuration reaches it in their records only. -/
def State.following (s : State) : Bool := s.pair.state == .sync

/-- The payload of a JOURNAL message (R367): the row's index page, its records, their fingerprints. -/
def State.journalRow (s : State) (cfg : Bool) (b : Bytes) : State :=
  let j := leAt b 4 1
  let s := s.shadowRow j (leAt b 5 1) (leAt b 16 1) (leAt b 20 4) (leAt b 32 8)
  let x := s.journal j
  let s := s.putJournal { x with
    indexSeq := Nat.max x.indexSeq (leAt b 8 8 + 1)
    indexAt := x.indexAt + (leAt b 8 8 + 1 - x.indexSeq) }
  match shadowParts j b.length 0 (b.drop 64) [] with
  | (rs, fps) =>
    let rs := (withFps rs fps).filter fun r => partOk r.bytes
    let s := { s with pair.shadowHeld := s.pair.shadowHeld ++ rs }
    s.shadowRun cfg j s.pair.shadowHeld.length

/-- The configuration and unit records of a journal that are held past its tip, in journal order. -/
def State.lateRecs (s : State) (j : Nat) : List ShadowRec :=
  let before (x y : ShadowRec) : Bool :=
    decide (y.jseq < x.jseq) || (y.jseq == x.jseq && (decide (y.sub < x.sub) || (y.sub == x.sub && decide (y.part < x.part))))
  (s.pair.shadowHeld.filter fun r => r.journal == j && (r.typ == 3 || r.typ == 4)).foldl (fun acc x =>
    acc.takeWhile (before x) ++ [x] ++ acc.dropWhile (before x)) []

/-- What the tables take at once from such a record. -/
def State.lateTable (s : State) (r : ShadowRec) : State :=
  if r.typ = 3 then s.applyCfg r.journal r.jseq r.body else s.applyUnit r.body

/-- A journal whose entries past the tip are in the brine goes on here: the records held past the tip act on maps once the entries before them
are decided (07_data_reduction.md R180; 15_pair_operation.md R377). -/
def State.takeLate (s : State) (cfg : Bool) (j : Nat) : State :=
  let rs := s.lateRecs j
  let s := { s with pair.shadowHeld := s.pair.shadowHeld.filter fun r => r.journal != j }
  rs.foldl (fun (s : State) r =>
    let s := if cfg then s.lateTable r else s
    if r.typ ≠ 3 then s
    else
      let s := if leAt r.body 0 1 = 0xED then s.setGen j r.jseq (leAt r.body 1 1) else s
      (cfgActs r.body).foldl (fun (s : State) a => s.placeActAt j r.jseq a) s) s

/-! ### The mirror (06_brine_write_path.md R138, R139) -/

/-- Both CRCs of a mirror message hold. -/
def mirrorOk (b : Bytes) : Bool :=
  leAt b 60 4 == crc32c (b.take 60) && leAt b 52 4 == (if b.length ≤ 64 then 0 else crc32c (b.drop 64))

/-- The mirror record of a message. -/
def mirrorRec (journal : Nat) (b : Bytes) : MRec :=
  { journal := journal, jseq := leAt b 8 8, nsid := leAt b 4 4, grain := leAt b 16 8, kind := leAt b 0 1, flags := leAt b 1 1
    mask := leAt b 2 1 % 16, recIdx := leAt b 24 2, recCnt := leAt b 26 2, pages := (List.range 4).map (fun i => leAt b (28 + 4 * i) 4)
    time := leAt b 44 8, payload := b.drop 64 }

/-- The journal of a mirror record, which the message does not name: the sender's own, or, of a group taken over, the one it adopted
(DESIGN CHOICE, log 45). -/
def State.mirrorJournal (s : State) (nsid : Nat) : Nat :=
  match s.volHere? nsid with
  | some v => if (s.group v.ana).adopted then s.role else 1 - s.role
  | none => 1 - s.role

/-- The journal of a release mark: the one that holds a record of that sequence, the sender's own where both do (log 45). -/
def State.markJournal (s : State) (jseq : Nat) : Nat :=
  if (s.brn.mirror.any fun m => m.jseq == jseq && m.journal == s.role) &&
      !(s.brn.mirror.any fun m => m.jseq == jseq && m.journal != s.role) then s.role else 1 - s.role

/-- A mirror message that has arrived in order acts (R139): a record is kept, a release mark applies and frees. -/
def State.mirrorIn (s : State) (b : Bytes) : State :=
  let q := leAt b 8 8
  if leAt b 0 1 = 4 then
    let j := s.markJournal q
    let s := s.shadowUpTo j q s.pair.shadowHeld.length
    let s := { s with brn.mirror := s.brn.mirror.filter fun m => !(m.journal == j && decide (m.jseq ≤ q)) }
    let x := s.journal j
    s.putJournal { x with durable := Nat.max x.durable q }
  else
    let m := mirrorRec (s.mirrorJournal (leAt b 4 4)) b
    { s with brn.mirror := (s.brn.mirror.filter fun x =>
        !(x.journal == m.journal && x.jseq == m.jseq && x.recIdx == m.recIdx && x.nsid == m.nsid)) ++ [m] }

/-- MIRROR_RX (06_brine_write_path.md R139): a record that fails a CRC is not taken, so it is not acknowledged and comes again. -/
def execMirrorRx (h : PtlHdr) (payload : Bytes) (s : State) : Host.Outcome State Fault Refusal :=
  .next <| if !mirrorOk payload then s else (s.onPtl 1 h payload fun b s => s.mirrorIn b).stageCheck

end Sys2Proof.Machine
end

