-- ==== Sys2Proof/Machine/Takeover.lean ====
section
/-! DEFINITION. Registration, elections, takeover, fencing, planned moves and the return to the pair (15_pair_operation.md R371-R385). -/
namespace Sys2Proof.Machine

/-! ### States -/

/-- STATE as PAIR_STATUS codes it (R387). -/
def PairSt.code : PairSt → Nat
  | .down => 0
  | .pairWait => 1
  | .sync => 2
  | .paired => 3
  | .suspect => 4
  | .electing => 5
  | .solo => 6
  | .fenced => 7
  | .roleConflict => 8

/-- The unit of the ICL. -/
def iclUnit : Nat := unitId 1 0x31

/-- Ports of the modules that are present and reached on the own port. -/
def State.ownPorts (s : State) : List Nat := (s.lnk.mods.filter fun m => m.present && s.direct m.port).map Module.port

/-- The pool wrapping key goes to the peer, wrapped under the transfer key (R364, R365). -/
def State.sendKey (s : State) : State :=
  match s.pair.transferKey, s.keys.pwk with
  | some t, some k => s.control 0x0005 (Config.keyWrap t k)
  | _, _ => s

/-! ### Registration (R383) -/

/-- A new epoch for the own port of a module: one above both epochs (R374, R383). -/
def State.newEpoch (s : State) (port : Nat) : Nat := Nat.max (s.mod port).ownEpoch (s.mod port).otherEpoch + 1

/-- REGISTER on a module (R326, R383). -/
def State.askRegister (s : State) (port : Nat) : State :=
  s.issue port 0xFFFF 0x06 0 (reserveParams 1 (s.newEpoch port) 0) [] .register

/-- Entries that hold a sequence and are not released. -/
def State.unreleased (s : State) : List BEnt := s.brn.ents.filter fun e => e.jseq != 0 && e.state != .released

/-- Every entry that is not released is mirrored again, in journal order, and ALONE stays 1 meanwhile (R384; 06_brine_write_path.md R140,
R143). -/
def State.startRemirror (s : State) : State :=
  let es := (s.heldJournals ++ [1 - s.role]).eraseDups.flatMap fun j => inOrder (s.unreleased.filter (·.journal == j))
  if es.isEmpty && s.pair.rejoinStep == 0 then { s with brn.alone := false, brn.remirror := false }
  else es.foldl State.mirrorEnt { s with brn.alone := true, brn.remirror := true }

/-- The heads are PAIRED. -/
def State.enterPaired (s : State) : State :=
  ((({ s with pair.state := .paired, pair.lease := true, pair.refuse := 0, pair.waitSolo := false }.startRemirror).leadCheck).anaSince
    s).retellSanitize

/-! ### Elections (R374) -/

/-- PREEMPT on a module: the other epoch as last read (R374). -/
def State.sendPreempt (s : State) (port : Nat) : State :=
  let new := s.newEpoch port
  let ask (e : Election) : Election := { e with asked := putKey Prod.fst (port, new) e.asked, waiting := e.waiting || port == e.lead }
  let s := { s with pair.election := s.pair.election.map ask }
  if s.direct port then s.issue port 0xFFFF 0x06 0 (reserveParams 2 new (s.mod port).otherEpoch) [] .preempt else s

/-- An election starts at a lead module. -/
def State.elect (s : State) (lead : Nat) : State :=
  { s with pair.election := some ⟨lead, false, true, []⟩ }.sendPreempt lead

/-- Every REGISTER has its completion: the heads are PAIRED, or, alone, the election starts (R383). -/
def State.registerDone (s : State) : State :=
  if s.lnk.cmds.any fun c => c.why == .register then s
  else
    match s.pair.state, s.pair.election with
    | .sync, _ => if s.pair.rejoinStep = 1 then s else s.enterPaired
    | .electing, none =>
      match s.leadChoice.or s.ownPorts.head? with
      | some n => { s with pair.lead := n }.elect n
      | none => s
    | _, _ => s

/-- REGISTER goes to every module (R383). -/
def State.registerAll (s : State) : State := (s.ownPorts.foldl State.askRegister s).registerDone

/-! ### Loss of the peer (R372, R379) -/

/-- Moves end with the loss of the peer: a group still owned is Optimized again (DESIGN CHOICE, log 46). -/
def State.endMoves (s : State) (st : Nat) : State :=
  let ms := s.pair.moves
  let ps := (ms.filterMap Move.pkt) ++ s.pair.leaving.toList ++ s.pair.rejoin.toList
  let s := ms.foldl (fun (s : State) m => s.putGroup { s.group m.grp with change := false }) s
  let s := { s with pair.moves := [], pair.leaving := none, pair.rejoin := none, pair.rejoinStep := 0 }
  ps.foldl (fun (s : State) p => s.finish p st [] []) s

/-- The groups of the peer that hold volumes report Change (R98). -/
def State.peerGroupsChange (s : State) : State :=
  let gs := ((s.pool.volumes.map Volume.ana).eraseDups).filter fun g => !s.ownsGroup g
  gs.foldl (fun (s : State) g => s.putGroup { s.group g with change := true }) s

/-- The peer is declared lost: this head is alone and starts an election (R372, R374). Entries that are LOCAL complete under the alone rule
(06_brine_write_path.md R143), modules without an own port fail (13_media_link.md R334). -/
def State.declareLost (s : State) : State :=
  if !s.peerInService then s
  else
    let old := s.pair.state.code
    let s := { s with pair.state := .electing, pair.peerState := 0, pair.leadPend := none, pair.hello := none }
    let s := s.alarm 7 0x0D evcState iclUnit (evState old 5 0)
    let s := (s.endMoves 0x0C00).endCfgWaits s.ctl.cfgWaits
    let s := { s with brn.alone := true, brn.remirror := false }.peerGroupsChange
    let s := { s with lnk.cmds := s.lnk.cmds.filter (fun c => match c.why with
      | .proxied _ => false
      | _ => true) }
    let s := (((s.anaChanged).checkEnts).loseProxied).afterUnits
    s.elect s.pair.lead

/-! ### Fencing (R376) -/

/-- A completion that the gate held becomes a failure; read data stays behind the gate (R371, R376). -/
def fencedOut (s : State) : Out → Option Out
  | .cqe q cid _ _ _ _ _ =>
    match s.qctx? q with
    | some c => if c.kind = .fabIo ∨ c.kind = .hostIo then some (.cqe q cid 3 1 false 0 0) else none
    | none => none
  | .msix v => some (.msix v)
  | _ => none

/-- This head is FENCED: every outstanding I/O command ends with Persistent Loss, no module command goes out (R376). -/
def State.enterFenced (s : State) : State :=
  if s.pair.state = .fenced then s
  else
    let old := s.pair.state
    let lease := s.pair.lease
    let held := s.pair.gated.filterMap (fencedOut s)
    let s := { s with pair.lease := true, pair.gated := [] }
    let s := held.foldl State.transmit s
    let s := (s.hq.cmds.map Cmd.id).foldl (fun (s : State) id => (s.discardCmd id).endIo id 3 1 false) s
    let s := { s with
      pair.state := .fenced, pair.lease := lease, pair.election := none, pair.autoRejoin := s.pair.autoRejoin || old == PairSt.down || old == PairSt.pairWait
      lnk.cmds := [] }
    let s := (s.bump R.PAIR_ELECT_LOSS_CNT).alarm 6 0x0D evcState iclUnit (evState old.code 7 0)
    ((s.endMoves 0x0C03).endCfgWaits s.ctl.cfgWaits).anaChanged

/-! ### Takeover (R377, R378) -/

/-- Every record of an entry of a journal is in the mirror. -/
def State.wholeEnt (s : State) (j q : Nat) : Bool :=
  let ms := s.brn.mirror.filter fun m => m.journal == j && m.jseq == q
  !ms.isEmpty && (List.range ((ms.map MRec.recCnt).headD 0)).all fun i => ms.any fun m => m.recIdx == i

/-- s_t: the highest sequence such that every entry at or below it is wholly in the mirror (R377 step 3); `n` bounds the search. -/
def State.lastWhole (s : State) (j : Nat) : Nat → Nat → Nat
  | 0, q => q
  | n + 1, q => if s.wholeEnt j (q + 1) then s.lastWhole j n (q + 1) else q

/-- The grain record of a mirror record (06_brine_write_path.md R138). -/
def MRec.toRec (m : MRec) : BRec :=
  let n := maskCount m.mask
  let pi := m.flags.testBit 1
  let data := if m.kind = 1 then
      (List.range n).map fun i => slice m.payload (4096 * i) 4096 ++ (if pi then slice m.payload (4096 * n + 16 * i) 16 else [])
    else []
  { grain := m.grain, mask := m.mask, kind := m.kind, pages := m.pages.filter (· != 0xFFFFFFFF), data := data, merged := none }

/-- A mirrored entry becomes an entry of the adopted journal (R377 step 4, R378). One whose record is applied finds its columns programmed
(11_flash_translation.md R278) and has nothing left to place. -/
def State.adoptEntry (s : State) (j q : Nat) : State :=
  let ms := s.brn.mirror.filter fun m => m.journal == j && m.jseq == q
  match ms with
  | [] => s
  | m :: _ =>
    let recs := (List.range m.recCnt).filterMap fun i => (ms.find? fun x => x.recIdx == i).map MRec.toRec
    let done := decide (q ≤ s.tipOf j)
    let e : BEnt :=
      { id := s.brn.nextEnt, cmd := none, journal := j, nsid := m.nsid, recs := recs, state := if done then .draining else .staged, jseq := q
        time := m.time, fua := m.flags.testBit 0, deadline := false, host := false, chain := [], sdeal := false
        ord := m.flags.testBit 2, placed := done }
    { s with brn.ents := s.brn.ents ++ [e], brn.nextEnt := e.id + 1 }

/-- The open blocks of a journal that was replayed: what the drain programs there is read first (11_flash_translation.md R278). Every map
image and stored grain table page counts as changed, so that the journal's next checkpoint images all of them (DESIGN CHOICE, log 61). -/
def State.resumeJournal (s : State) (j : Nat) : State :=
  { s with
    ftl.blocks := mapIf (fun (b : Blk) => b.owner == j && b.state == .opened) (fun (b : Blk) => { b with resume := true }) s.ftl.blocks
    ftl.imgs := s.ftl.imgs.map fun (i : MapImg) => { i with dirty := true }
    ftl.touched := (s.ftl.grains.map fun g => g.sgn / 128).eraseDups
    ftl.touchedIdx := (s.red.index.map fun x => x.dom * 2 ^ 32 + x.bucket / 16).eraseDups }

/-- The failed head's journal is adopted with its mirrored entries (R377 steps 3 and 4). -/
def State.adoptJournal (s : State) (j : Nat) : State :=
  let d := (s.journal j).durable
  let last := s.lastWhole j s.brn.mirror.length d
  let s := (List.range (last - d)).foldl (fun (s : State) i => s.adoptEntry j (d + 1 + i)) s
  let x := s.journal j
  let q := Nat.max last x.tip
  let s := { s with brn.mirror := s.brn.mirror.filter (fun m => m.journal != j), pair.adopted := true }
  let s := ((s.putJournal { x with jseq := q, sub := if x.tip = q then x.sub else 0 }).resumeJournal j).takeLate false j
  if s.pool.loaded then s.placeRec j 0x03 0 (leBytes 1 cfgTakeover ++ leBytes 1 j) else s

/-- Blocks granted to the failed journal that no applied record names are FULL with VALID 0 (R377 step 5). -/
def orphanBlk (j : Nat) (b : Blk) : Blk := if b.owner = j ∧ b.state = .opened ∧ b.recorded = false then { b with state := .full } else b

/-- Harvests that ended with their head (12_harvest_health.md R299): their victims are FULL again, and the stripe blocks that hold a row after a
start record without its LAST commit get SCRUB, so that orphaned copies are erased. -/
def State.dropHarvests (s : State) (j : Nat) : State :=
  let open_ (b : Blk) : Bool := b.owner == j && b.state == .victim && (s.harvest? b.top b.blk).isNone
  let starts := (s.ftl.blocks.filter open_).map Blk.started
  let holds (b : Blk) : Bool := b.owner == j && !b.scrub && b.stream != 4 && b.closedRows > 0 && starts.any fun q => decide (b.maxJseq ≥ q)
  let s := s.bumpBy R.FTL_ORPHAN_CNT (countOf holds s.ftl.blocks)
  { s with
    ftl.blocks := mapIf open_ (fun (b : Blk) => { b with state := .full }) (mapIf holds (fun (b : Blk) => { b with scrub := true }) s.ftl.blocks) }

/-- The failed head's groups are this head's, their writes in the adopted journal, and are Optimized (R377 step 6). (DEDUCED, log 74) -/
def State.takeGroups (s : State) : State :=
  let gs := ((s.pool.volumes.map Volume.ana).eraseDups).filter fun g => (s.group g).owner != s.role
  let s := gs.foldl (fun (s : State) g => s.putGroup { s.group g with owner := s.role, change := false, adopted := true }) s
  s.anaChanged

/-- The takeover, once every module is confirmed (R377). `found` are the rows of the failed journal after the shadow tip as its index pages
and rows on media give them, laid out as R367 lays out a row (DESIGN CHOICE, log 47). -/
def State.takeover (s : State) (found : List Bytes) : State :=
  let j := 1 - s.role
  let s := (s.setFld R.TIDE_DIE_SHARE 8 0 256).setFld R.SLU_ADMIT_CFG 15 8 255
  let s := { s with pair.peerProxy := [], lnk.mods := s.lnk.mods.map (fun (m : Module) => { m with proxied := m.proxied && !m.up }) }
  let s := found.foldl (fun (s : State) b => s.journalRow true b) s
  let s := s.adoptJournal j
  let s := { s with ftl.blocks := s.ftl.blocks.map (orphanBlk j), pair.election := none }.dropHarvests j
  let s := s.takeGroups
  let s := (s.snap.cuts.map Cut.snap).foldl State.cutCheck s
  let s := s.armPeriods
  let s := s.ftl.grantReq.foldl (fun (s : State) q => s.grant q.1 q.2) s
  ((s.releaseDurable j).checkEnts).replPump

/-- A module shows the result of its PREEMPT: the own port REGISTERED with the epoch asked for, the other FENCED; or it is gone (R374). -/
def State.preempted (s : State) (a : Nat × Nat) : Bool :=
  let m := s.mod a.1
  !m.present || !s.direct a.1 || (m.ownRsv == .registered && m.ownEpoch == a.2 && m.otherRsv == .fenced)

/-- Every module is confirmed after the lead is won. -/
def State.confirmCheck (s : State) (found : List Bytes) : State :=
  match s.pair.election with
  | some e => if e.leadWon && e.asked.all s.preempted then s.takeover found else s
  | none => s

/-- The lead is won: SOLO, the gate lifts, the other modules are preempted in parallel (R371, R374). -/
def State.wonLead (s : State) (found : List Bytes) : State :=
  let lead := ((s.pair.election.map Election.lead).getD 0)
  let won (e : Election) : Election := { e with leadWon := true, waiting := false }
  let s := { s with pair.state := .solo, brn.alone := true, pair.election := s.pair.election.map won }
  let s := (s.bump R.PAIR_ELECT_WIN_CNT).liftGate
  ((s.ownPorts.filter (· != lead)).foldl State.sendPreempt s).confirmCheck found

/-- What the reservation of a module shows now: the own port fenced, or the election a step further (R374, R376). -/
def State.reservationSeen (s : State) (port : Nat) (found : List Bytes) : State :=
  let m := s.mod port
  let rejoining := s.pair.state == .sync && decide (s.pair.rejoinStep > 0)
  if m.ownRsv = .fenced ∧ rejoining = false then s.enterFenced
  else
    match s.pair.election with
    | some e =>
      match findKey Prod.fst port e.asked with
      | some a => if !s.preempted a then s else if port = e.lead ∧ e.leadWon = false then s.wonLead found else s.confirmCheck found
      | none => if port = e.lead ∨ e.leadWon then s.sendPreempt port else s
    | none =>
      if m.ownRsv = .none ∧ (s.pair.state = .paired ∨ s.pair.state = .solo ∨ (s.pair.state = .sync ∧ s.pair.rejoinStep = 2)) then
        s.askRegister port
      else if rejoining ∧ m.ownRsv = .registered then s.registerDone
      else s

/-- A PREEMPT was refused for the other port's epoch: the reservation is read again, then PREEMPT goes out anew (13_media_link.md R322). -/
def State.preemptRefused (s : State) (port : Nat) : State :=
  let again (e : Election) : Election := { e with asked := dropKey Prod.fst port e.asked }
  { s with pair.election := s.pair.election.map again }.askReserve port

/-! ### Planned moves (R381, R382) -/

/-- A group move step (R364): group, step (0 given up, 1 begun, 3 record placed, 4 adopted, 5 rejoin done), hand-back, place of the record
(layout: DESIGN CHOICE, log 20). -/
def moveMsg (grp step : Nat) (back : Bool) (at_ : Nat × Nat) : Bytes :=
  leBytes 2 grp ++ leBytes 1 step ++ leBytes 1 (b2n back) ++ leBytes 8 at_.1 ++ leBytes 2 at_.2

/-- `s` with a group's Change set or cleared. -/
def State.setChange (s : State) (g : Nat) (on : Bool) : State := (s.putGroup { s.group g with change := on }).anaChanged

/-- The move of a group. -/
def State.move? (s : State) (g : Nat) : Option Move := findKey Move.grp g s.pair.moves
/-- `s` with a move replaced. -/
def State.putMove (s : State) (m : Move) : State := { s with pair.moves := putKey Move.grp m s.pair.moves }
/-- A move has ended. -/
def State.dropMove (s : State) (g : Nat) : State := { s with pair.moves := dropKey Move.grp g s.pair.moves }

/-- Step 1: the group reports Change on both heads. -/
def State.startMove (s : State) (g : Nat) (pkt : Option PktRef) (back : Bool) : State :=
  ((s.putMove ⟨g, 1, true, pkt, (0, 0), back⟩).setChange g true).control 0x0007 (moveMsg g 1 back (0, 0))

/-- The volumes of a group. -/
def State.groupVols (s : State) (g : Nat) : List Nat := (s.pool.volumes.filter fun v => v.ana == g).map Volume.nsid

/-- A command waits without a limit of time: its entry for a reservation, or its data behind the mirror backlog (06_brine_write_path.md R136,
R141). -/
def State.waitsOpen (s : State) (c : Cmd) : Bool :=
  s.brn.ents.any fun e => e.cmd == some c.id && e.jseq == 0 && (s.brn.waiting.contains e.id || s.brn.heldReads.contains e.id)

/-- Step 2 is done: every entry of the group is durable and no command of it is in flight but those that wait without a limit, which R381 ends
(DEDUCED, log 48). -/
def State.groupDrained (s : State) (g : Nat) : Bool :=
  let vols := s.groupVols g
  (s.hq.cmds.all fun c => !vols.contains c.nsid || s.waitsOpen c) &&
    s.brn.ents.all fun e => !vols.contains e.nsid || e.jseq == 0 || e.state == .released || (e.state == .draining && s.entDurable e)

/-- Step 3: what remains ends with OWNERSHIP_MOVED, the move record is placed and sealed, and the peer is told (R381, R382). -/
def State.moveRecord (s : State) (m : Move) : State :=
  let vols := s.groupVols m.grp
  let left := s.hq.cmds.filter fun c => vols.contains c.nsid
  let s := left.foldl (fun (s : State) c => (s.discardCmd c.id).endIo c.id 7 0xC2 false) s
  let g := { s.group m.grp with owner := 1 - s.role, adopted := false }
  let s := s.putGroup g
  let j := if m.back then 1 - s.role else s.role
  let s := s.placeRec j 0x03 1 g.record
  let at_ := s.lastMark j
  let s := s.seal j at_.1
  (s.putMove { m with step := 3, record := at_ }).control 0x0007 (moveMsg m.grp 3 m.back at_)

/-- The record of a move lies at or before the shadow tip of its journal. -/
def State.movePassed (s : State) (m : Move) : Bool :=
  let j := s.journal (if m.back then s.role else 1 - s.role)
  decide (m.record.1 < j.tip) || (m.record.1 == j.tip && decide (m.record.2 ≤ j.sub))

/-- Step 4, on the new owner: the adoption record goes into the own journal and the group is Optimized (R382). -/
def State.adoptGroup (s : State) (m : Move) : State :=
  let g := { s.group m.grp with owner := s.role, change := false, adopted := false }
  let s := (s.putGroup g).dropMove m.grp
  let s := s.placeRec s.role 0x03 0 g.record
  ((s.bump R.PAIR_MOVE_CNT).anaChanged.armPeriods).control 0x0007 (moveMsg m.grp 4 m.back (0, 0))

/-- Every move into this head whose record the shadow has passed is adopted. -/
def State.adoptCheck (s : State) : State :=
  (s.pair.moves.filter fun m => !m.out && m.step == 3 && s.movePassed m).foldl State.adoptGroup s

/-- With AUTO_BALANCE, the next group whose home head is the peer moves to it (R385). -/
def State.autoBalance (s : State) : State :=
  if s.fld R.PAIR_CFG 0 0 = 0 ∨ s.pair.state ≠ .paired ∨ s.pair.moves ≠ [] ∨ s.pair.leaving.isSome then s
  else
    match ((s.pool.volumes.map Volume.ana).eraseDups).find? fun g => s.ownsGroup g && (s.group g).home != s.role with
    | some g => s.startMove g none false
    | none => s

/-- TIDE_DIE_SHARE and MPORT_SHARE return to 128 (R384 step 6). -/
def State.sharesBack (s : State) : State := (s.setFld R.TIDE_DIE_SHARE 8 0 128).setFld R.SLU_ADMIT_CFG 15 8 128

/-- The survivor has handed everything back (R384 step 6, R385). -/
def State.rejoinEnd (s : State) : State :=
  let s := { s with pair.adopted := false, pair.rejoinStep := 0 }.sharesBack
  (s.control 0x0007 (moveMsg 0 5 false (0, 0))).autoBalance

/-- The survivor hands the adopted journal back as a move of all its groups (R384 step 5). -/
def State.handBack (s : State) : State :=
  let gs := ((s.pool.volumes.map Volume.ana).eraseDups).filter fun g => (s.group g).adopted
  let s := { s with pair.rejoinStep := 4 }
  if gs.isEmpty then s.rejoinEnd else gs.foldl (fun (s : State) g => s.startMove g none true) s

/-- A LEAVE message with its cause (R360). -/
def State.sendLeave (s : State) (cause : Nat) : State := s.ptlRaw 0x08 (leBytes 1 cause ++ List.replicate 15 0)

/-- LEAVE goes out, with a cause that the spec does not give for a command, and this head is DOWN; the packet that asked ends (R372, R386). What the head's state is after LEAVE is the model's choice
(DESIGN CHOICE, log 49). -/
def State.leave (s : State) : State :=
  let p := s.pair.leaving
  let s := s.sendLeave (Config.leaveCause % 256)
  let s := { s with pair.state := .down, pair.leaving := none }
  match p with
  | some p => s.finish p stOk [] []
  | none => s

/-- The move of a group out of this head has ended with its adoption. -/
def State.moveDone (s : State) (m : Move) : State :=
  let s := ((s.dropMove m.grp).setChange m.grp false).bump R.PAIR_MOVE_CNT
  let s := match m.pkt with
    | some p => s.finish p stOk [] []
    | none => s
  if s.pair.moves.any Move.out then s
  else if s.pair.leaving.isSome then s.leave
  else if s.pair.rejoinStep = 4 then s.rejoinEnd
  else if m.pkt.isNone then s.autoBalance
  else s

/-! ### The returning head (R384) -/

/-- What a head knows of the pool's data is dropped: it comes again from the checkpoints and the survivor. -/
def State.dropPool (s : State) : State :=
  let s := { s with
    brn.ents := [], brn.waiting := [], brn.heldReads := [], brn.mirror := [], brn.flushes := [], brn.seals := []
    red.index := [], red.recs := [], red.fps := [], mem.cache := [] }
  let s := { s with
    red.jobs := s.red.jobs.filter (fun j => j.core.isSome || match j.why with
      | .offload _ => true
      | _ => false) }
  let s := { s with
    ftl.maps := [], ftl.imgs := [], ftl.grains := [], ftl.touched := [], ftl.touchedIdx := [], ftl.paged := [], ftl.recent := [], ftl.blocks := [], ftl.rows := [], ftl.packQ := [], ftl.grantReq := []
    ftl.grantWait := [], ftl.harvests := [], ftl.reads := [], ftl.journals := [] }
  { s with snap.epochs := [], snap.ops := [], snap.gone := [], pair.shadowHeld := [] }

/-- The rejoin of a SOLO peer starts: the head loads and follows (R384 steps 1 and 2). -/
def State.startRejoin (s : State) : State :=
  { s.dropPool with pair.state := .sync, pair.rejoinStep := 1, pair.waitSolo := false, pair.autoRejoin := false }.anaSince s

/-- The peer is SOLO, by its last heartbeat or HELLO. -/
def State.peerSolo (s : State) : Bool :=
  s.pair.peerState == 6 || (s.pair.hello.map Hello.pairState) == some 6

/-- A head that waits for the peer to be SOLO starts its rejoin (R383, R384; 09_cipher_digest.md R234). -/
def State.rejoinCheck (s : State) : State :=
  let waits := (s.pair.state == .pairWait && s.pair.waitSolo) || (s.pair.state == .fenced && s.pair.autoRejoin)
  if waits && s.pair.hello.isSome && s.pair.refuse == 0 && s.peerSolo && !s.keys.erased then s.startRejoin else s

end Sys2Proof.Machine
end

