-- ==== Sys2Proof/Machine/Pair.lean ====
section
/-! DEFINITION. The rows of the pair: link, HELLO, heartbeats, elections, messages, planned moves, rejoin and packets
(15_pair_operation.md R358-R387; 06_brine_write_path.md R143, R155). -/
namespace Sys2Proof.Machine

/-! ### The link (R358, R359) -/

/-- ICL_LINK_UP (R358, R365): x16 or x8 at 64 GT/s (rate code 6); anything else is held down. A fresh ephemeral key is drawn. -/
def execIclLinkUp (width rate rtt : Nat) (s : State) : Host.Outcome State Fault Refusal :=
  .next <|
    if rate ≠ 6 ∨ (width ≠ 16 ∧ width ≠ 8) ∨ s.pair.icl ≠ 0 ∨ s.domainOff 2 then s
    else
      match s.drbgBytes 48 with
      | (k, s) =>
        let s := { s with pair.icl := if width = 16 then 2 else 1, pair.helloSeen := false, pair.ecdh := k }.cable 16 (rtt / 2) true
        if s.ust iclUnit = .failed then s.setUnitState iclUnit .online 0 else s

/-- The ICL goes down (R359, R365): the transfer key is discarded. The peer is not lost by it. -/
def State.iclDown (s : State) : State :=
  if s.pair.icl = 0 then s
  else { s with pair.icl := 0, pair.transferKey := none, pair.ecdh := [] }.setUnitState iclUnit .failed 6

/-- ICL_LINK_DOWN (R359, R365). -/
def execIclLinkDown (s : State) : Host.Outcome State Fault Refusal := .next s.iclDown

/-- ICL_RETRAIN (R359): `kind` 1 a retraining, 2 a change of width, 3 a Recovery that returns to L0. -/
def execIclRetrain (kind width : Nat) (s : State) : Host.Outcome State Fault Refusal :=
  .next <|
    if s.pair.icl = 0 ∨ kind = 0 ∨ kind > 3 ∨ (width ≠ 16 ∧ width ≠ 8) then s
    else
      let new := if width = 16 then 2 else 1
      { s with pair.icl := new }.event 0x0D evcState 3 iclUnit (evState s.pair.icl new kind)

/-! ### HELLO (R365, R366, R383) -/

/-- The HELLO of this head. FLAGS bit 1 says that it holds the peer's journal. -/
def State.helloBytes (s : State) : Bytes :=
  let fw := s.boot.fwVer
  let body := leBytes 1 s.role ++ leBytes 1 s.pair.state.code ++ leBytes 2 0x8816 ++ leBytes 1 0x20 ++ leBytes 1 (bits fw 31 24) ++
    leBytes 2 (bits fw 23 8) ++ leBytes 1 2 ++ leBytes 1 3 ++ leBytes 1 (if s.pool.loaded then s.own.gen else 0) ++
    leBytes 1 (b2n s.pool.loaded + 2 * b2n s.pair.adopted) ++ leBytes 4 0 ++ slice s.pool.id 0 16 ++
    (List.range 16).map Config.uniqueId ++ slice (Config.ecdhPublic s.pair.ecdh) 0 97 ++ leBytes 15 0
  body ++ slice (Config.identitySign body) 0 96

/-- HELLO_TIMER (R365): every 1 ms until a HELLO has been received. -/
def execHelloTimer (s : State) : Host.Outcome State Fault Refusal :=
  .next <| if s.pair.icl = 0 ∨ s.pair.helloSeen then s else s.ptlRaw 0x01 s.helloBytes

/-- What a HELLO says. -/
def helloOf (b : Bytes) : Hello :=
  { role := leAt b 0 1, pairState := leAt b 1 1, part := leAt b 2 2, step := leAt b 4 1, fwMajor := leAt b 5 1, fwMinor := leAt b 6 2
    genMin := leAt b 8 1, genMax := leAt b 9 1, genNow := leAt b 10 1, flags := leAt b 11 1, poolId := slice b 16 16, uid := slice b 32 16 }

/-- REFUSE of a HELLO: the first condition that holds (R366). This head encodes generations 2 and 3 (08_compression.md R192). -/
def State.helloRefuse (s : State) (h : Hello) (sigOk : Bool) : Nat :=
  if h.role = s.role then 1
  else if h.part ≠ 0x8816 ∨ h.step ≠ 0x20 then 2
  else if h.fwMajor ≠ bits s.boot.fwVer 31 24 then 3
  else if !allZero h.poolId && !allZero s.pool.id && s.pool.loaded && h.poolId != s.pool.id then 4
  else if !allZero h.poolId && (h.genNow < 2 || h.genNow > 3) then 5
  else if !sigOk then 6
  else 0

/-- What an accepted HELLO leads to, by the states of both heads (R383, R384). (DEDUCED, log 87) -/
def State.meetPeer (s : State) : State :=
  match s.pair.hello with
  | none => s
  | some h =>
    match s.pair.state with
    | .pairWait =>
      if h.pairState = 5 ∨ h.pairState = 6 then { s with pair.waitSolo := true }.rejoinCheck
      else if s.pair.soloWaitOver then s
      else { s with pair.state := .sync, pair.chans := List.replicate 3 PtlChan.reset }.registerAll
    | .fenced => s.rejoinCheck
    | .solo =>
      let s := { s with pair.chans := List.replicate 3 PtlChan.reset, pair.rejoinStep := Nat.max 1 s.pair.rejoinStep }
      s.sendKey
    | _ => s

/-- HELLO_RX (R365, R366): `sigOk` says that SIG verifies. (DESIGN CHOICE, log 6) (DEDUCED, log 97) -/
def execHelloRx (payload : Bytes) (sigOk : Bool) (s : State) : Host.Outcome State Fault Refusal :=
  .next <|
    let h := helloOf payload
    let why := s.helloRefuse h sigOk
    let s := { s with pair.helloSeen := true, pair.lastHello := some h }
    if why ≠ 0 then
      let s := s.event 0x0D evcRefused 4 iclUnit (evStatus 0 0x0C02 ++ evValue why)
      let s := { s with pair.refuse := why }
      if why = 1 ∧ s.pair.state = .pairWait ∧ h.pairState = 1 then { s with pair.state := .roleConflict } else s
    else
      let s := { s with
        pair.refuse := 0, pair.hello := some h, pair.peerState := h.pairState
        pair.transferKey := some (Config.transferKey s.pair.ecdh (slice payload 48 97)) }
      s.meetPeer

/-! ### Heartbeats and the lease (R370-R372) -/

/-- HEARTBEAT_TIMER (R370, R372): a head that is SUSPECT or ELECTING sends none, nor one that is DOWN. -/
def execHeartbeatTimer (s : State) : Host.Outcome State Fault Refusal :=
  .next <|
    if s.pair.icl = 0 ∨ s.pair.state = .suspect ∨ s.pair.state = .electing ∨ s.pair.state = .down then s
    else
      let b := leBytes 8 s.tide.time ++ leBytes 1 s.pair.state.code ++ leBytes 7 0 ++ leBytes 8 s.own.durable ++
        leBytes 8 (s.journal (1 - s.role)).tip
      (s.bump R.PAIR_HB_TX_CNT).ptlRaw 0x02 b

/-- A returned head has registered: the survivor is PAIRED again and mirrors its brine once more (R384 steps 3 and 4). -/
def State.pairedAgain (s : State) : State :=
  if s.pair.state = .solo ∧ s.pair.rejoinStep = 2 ∧ s.pair.peerState = 3 then
    { s with pair.rejoinStep := 3 }.enterPaired
  else s

/-- HEARTBEAT_RX (R370-R372): the lease is renewed, a SUSPECT head is PAIRED again, and what the gate held leaves. -/
def execHeartbeatRx (payload : Bytes) (s : State) : Host.Outcome State Fault Refusal :=
  .next <|
    let s := { s with
      pair.lease := true, pair.peerState := leAt payload 8 1, pair.peerDurable := leAt payload 16 8, pair.peerShadow := leAt payload 24 8
      pair.state := if s.pair.state = PairSt.suspect then PairSt.paired else s.pair.state }
    let s := if s.gateClosed then s else s.liftGate
    (s.pairedAgain).rejoinCheck

/-- LEASE_EXPIRY (R371): 100 µs without a heartbeat. -/
def execLeaseExpiry (s : State) : Host.Outcome State Fault Refusal :=
  .next { s with pair.lease := false }

/-- PEER_SUSPECT (R372): 50 µs without a heartbeat. -/
def execPeerSuspect (s : State) : Host.Outcome State Fault Refusal :=
  .next <| if s.pair.state = .paired then { s with pair.state := .suspect }.bump R.PAIR_SUSPECT_CNT else s

/-- PEER_LOST (R372): 180 µs without a heartbeat. -/
def execPeerLost (s : State) : Host.Outcome State Fault Refusal := .next s.declareLost

/-- LEAVE_RX (R372). -/
def execLeaveRx (s : State) : Host.Outcome State Fault Refusal := .next s.declareLost

/-- ALARM_NOTICE_RX (R372; 19_event_recorder.md R453): PEER_ALARM is latched; KEY_ERASE declares the peer lost. (DEDUCED, log 98) -/
def execAlarmNoticeRx (h : PtlHdr) (payload : Bytes) (s : State) : Host.Outcome State Fault Refusal :=
  .next <| s.onPtl 0 h payload fun b s =>
    let v := leAt b 4 4
    let s := s.alarm 8 0x0D evcSecurity iclUnit (evValue v ++ evTime (leAt b 8 8))
    if v.testBit 0 then s.declareLost else s

/-! ### Elections (R374, R383) -/

/-- ELECTION_POLL (R374): RESERVE READ to the lead, or, once it is won, to every module not confirmed. -/
def execElectionPoll (s : State) : Host.Outcome State Fault Refusal :=
  .next <|
    match s.pair.election with
    | none => s
    | some e =>
      if e.leadWon then ((e.asked.filter fun a => !s.preempted a).map Prod.fst).foldl State.askReserve s
      else s.askReserve e.lead

/-- ELECTION_LEAD_TIMEOUT (R374): no CPL of the lead within 100 µs. -/
def execElectionLeadTimeout (s : State) : Host.Outcome State Fault Refusal :=
  .next <|
    match s.pair.election with
    | some e => if e.waiting then s.event 0x0D evcLimit 4 (unitId 5 e.lead) (evValue 100000) else s
    | none => s

/-- ELECTION_RETRY (R374): without an answer of the lead, PREEMPT goes out again. -/
def execElectionRetry (s : State) : Host.Outcome State Fault Refusal :=
  .next <|
    match s.pair.election with
    | some e =>
      if e.waiting && !e.leadWon then
        { s with lnk.cmds := s.lnk.cmds.filter fun c => !(c.port == e.lead && c.why == Purpose.preempt) }.sendPreempt e.lead
      else s
    | none => s

/-- SOLO_WAIT_EXPIRY (R383): no HELLO by the end of SOLO_WAIT_S; the head registers and runs an election. -/
def execSoloWaitExpiry (s : State) : Host.Outcome State Fault Refusal :=
  .next <|
    if s.pair.state ≠ .pairWait ∨ s.pair.waitSolo then s
    else ({ s with pair.soloWaitOver := true, pair.state := .electing, brn.alone := true }.anaSince s).registerAll

/-! ### Messages (R361-R363) -/

/-- JOURNAL_RX (R368): the row is applied to the shadow; moves whose record is passed are adopted (R382). -/
def execJournalRx (h : PtlHdr) (payload : Bytes) (s : State) : Host.Outcome State Fault Refusal :=
  .next <| ((s.onPtl 1 h payload fun b s => (s.journalRow s.following b).bump R.PAIR_JOURNAL_RX_CNT).adoptCheck).stageCheck

/-- PAIR_ACK_RX (R362): acknowledged messages are retired; entries whose records are all acknowledged are STAGED. -/
def execPairAckRx (chan ack : Nat) (s : State) : Host.Outcome State Fault Refusal :=
  .next <|
    if chan > 2 then s
    else
      let s := s.ptlRetire chan ack
      if chan = 1 then s.stageCheck else s.payAll

/-- PAIR_NAK_RX (R362): the messages after ACK go out again. -/
def execPairNakRx (chan ack : Nat) (s : State) : Host.Outcome State Fault Refusal :=
  .next <|
    if chan > 2 then s
    else
      let s := s.ptlRetire chan ack
      let s := s.ptlResend chan (s.chan chan).held
      if chan = 1 then s.stageCheck else s.payAll

/-- PAIR_RESEND_TIMER (R362): 20 µs without progress; everything held goes out again. -/
def execPairResendTimer (chan : Nat) (s : State) : Host.Outcome State Fault Refusal :=
  .next <| if chan > 2 ∨ s.pair.icl = 0 then s else s.ptlResend chan (s.chan chan).held

/-- PAIR_RESERVED_TYPE_RX (R361, R363): the message is discarded and counted. -/
def execPairReservedTypeRx (s : State) : Host.Outcome State Fault Refusal := .next (s.bump R.PAIR_DISCARD_CNT)

/-- KEY_TRANSFER_RX (R364, R384): the PWK, unwrapped under the transfer key, is held and stored. -/
def execKeyTransferRx (h : PtlHdr) (payload : Bytes) (s : State) : Host.Outcome State Fault Refusal :=
  .next <| s.onPtl 0 h payload fun b s =>
    match s.pair.transferKey with
    | none => s
    | some t =>
      match Config.keyUnwrap t (b.drop 2) with
      | some k => { s with keys.pwk := some k, keys.pwkStored := some (Config.keyWrap Config.deviceKey k) }
      | none => s

/-- LEAD_SELECTION_RX (R373): head 1 uses the lead it has acknowledged. -/
def execLeadSelectionRx (h : PtlHdr) (payload : Bytes) (s : State) : Host.Outcome State Fault Refusal :=
  .next <| s.onPtl 0 h payload fun b s => { s with pair.lead := leAt b 2 1 % 32 }

/-- SANITIZE_NOTICE_RX (04_host_queues.md R95): while the peer sanitizes, this head refuses I/O with Sanitize In Progress. -/
def execSanitizeNoticeRx (h : PtlHdr) (payload : Bytes) (s : State) : Host.Outcome State Fault Refusal :=
  .next <| s.onPtl 0 h payload fun b s =>
    match leAt b 2 1 with
    | 1 => { s.sanStart (leAt b 3 1) (leAt b 4 1 == 1) with hq.san.peer := true }
    | 2 => { s.sanClear with hq.san.state := .done, hq.san.peer := false, hq.san.prog := 65535 }
    | 3 => { s.sanClear with hq.san.state := .failed, hq.san.failMode := true, hq.san.peer := false, hq.san.prog := 65535 }
    | 4 => { s with hq.san.failMode := false }
    | _ => s

/-! ### Planned moves (R381, R382) -/

/-- GROUP_MOVE_STEP_RX (R382, R384). -/
def execGroupMoveStepRx (h : PtlHdr) (payload : Bytes) (s : State) : Host.Outcome State Fault Refusal :=
  .next <| s.onPtl 0 h payload fun b s =>
    let g := leAt b 2 2
    let back := leAt b 5 1 == 1
    match leAt b 4 1 with
    | 0 => (s.dropMove g).setChange g false
    | 1 => (s.putMove ⟨g, 1, false, none, (0, 0), back⟩).setChange g true
    | 3 => (s.putMove ⟨g, 3, false, none, (leAt b 6 8, leAt b 14 2), back⟩).adoptCheck
    | 4 =>
      match s.move? g with
      | some m => if m.out then s.moveDone m else s
      | none => s
    | 5 =>
      let p := s.pair.rejoin
      let s := { s with pair.rejoin := none, pair.rejoinStep := 0 }.sharesBack
      match p with
      | some p => s.finish p stOk [] []
      | none => s
    | _ => s

/-- MOVE_DRAIN_DONE (R382): step 3 of the move of a group. -/
def execMoveDrainDone (grp : Nat) (s : State) : Host.Outcome State Fault Refusal :=
  .next <|
    match s.move? grp with
    | some m => if m.out && m.step == 1 && s.groupDrained grp then s.moveRecord m else s
    | none => s

/-- MOVE_TIMEOUT (R386): the wait of step 2 has passed 2.1 s; the group stays and is Optimized again. -/
def execMoveTimeout (grp : Nat) (s : State) : Host.Outcome State Fault Refusal :=
  .next <|
    match s.move? grp with
    | none => s
    | some m =>
      if !m.out || m.step != 1 then s
      else
        let s := ((s.dropMove grp).setChange grp false).control 0x0007 (moveMsg grp 0 m.back (0, 0))
        let lv := s.pair.leaving
        let s := { s with pair.leaving := none }
        (m.pkt.toList ++ lv.toList).foldl (fun (s : State) p => s.finish p 0x0C04 [] []) s

/-- Another move or a rejoin runs (R386). -/
def State.pairBusy (s : State) : Bool := !s.pair.moves.isEmpty || decide (s.pair.rejoinStep > 0) || s.pair.leaving.isSome

/-- MOVE_ANA_GROUP (R382, R386). -/
def execMoveAnaGroup (ring slot : Nat) (s : State) : Host.Outcome State Fault Refusal :=
  .next <| s.packet 0x81 ring slot fun e p s =>
    let g := e.num 10 2
    if 1 ≤ g ∧ g ≤ 1024 ∧ s.pair.state ≠ .fenced ∧ !s.ownsGroup g then .fail s stNotOwner
    else if g = 0 ∨ g > 1024 ∨ !e.zero 12 2 then .fail s stInvalidField
    else if s.pair.state = .fenced then .fail s 0x0C03
    else if s.pair.state ≠ .paired then .fail s 0x0C00
    else if s.pairBusy then .fail s 0x0C01
    else .started (s.startMove g (some p) false)

/-- SET_HOME_HEAD (R385, R386). -/
def execSetHomeHead (ring slot : Nat) (s : State) : Host.Outcome State Fault Refusal :=
  .next <| s.packet 0x82 ring slot fun e p s =>
    let g := e.num 10 2
    if g = 0 ∨ g > 1024 ∨ e.num 12 1 > 1 ∨ !e.zero 13 1 then .fail s stInvalidField
    else if s.pair.state = .fenced then .fail s 0x0C03
    else
      let x := { s.group g with home := e.num 12 1 }
      ((s.putGroup x).placeCfg x.record).cfgDone p []

/-- LEAVE_PAIR (R386): every owned group that holds volumes moves to the peer, then LEAVE goes out. -/
def execLeavePair (ring slot : Nat) (s : State) : Host.Outcome State Fault Refusal :=
  .next <| s.packet 0x83 ring slot fun _ p s =>
    if s.pair.state = .fenced then .fail s 0x0C03
    else if s.pair.state ≠ .paired then .fail s 0x0C00
    else if s.pairBusy then .fail s 0x0C01
    else
      let gs := ((s.pool.volumes.map Volume.ana).eraseDups).filter s.ownsGroup
      if gs.isEmpty then .startDone s.leave [] []
      else .started (gs.foldl (fun (s : State) g => s.startMove g none false) { s with pair.leaving := some p })

/-- REJOIN_PAIR (R384, R386). A head that serves in the pair already has nothing to rejoin and answers OK (DESIGN CHOICE, log 50). -/
def execRejoinPair (ring slot : Nat) (s : State) : Host.Outcome State Fault Refusal :=
  .next <| s.packet 0x84 ring slot fun _ p s =>
    if s.pairBusy then .fail s 0x0C01
    else if s.pair.refuse ≠ 0 then .done s 0x0C02 (leBytes 4 s.pair.refuse) []
    else if s.pair.state = .paired ∨ s.pair.state = .suspect ∨ s.pair.state = .electing ∨ s.pair.state = .solo then .startDone s [] []
    else if s.pair.hello.isSome && s.peerSolo && !s.keys.erased then .started { s.startRejoin with pair.rejoin := some p }
    else .started { s with pair.rejoin := some p, pair.autoRejoin := s.pair.state == .fenced, pair.waitSolo := s.pair.state != .fenced }

/-- GET_PAIR_STATUS (R386): FW_MAJOR and FW_MINOR are those of the peer's HELLO (DEDUCED, log 51), the lag is that of the own shadow behind the
peer's durable mark. -/
def execGetPairStatus (ring slot : Nat) (s : State) : Host.Outcome State Fault Refusal :=
  .next <| s.packet 0x80 ring slot fun _ _ s =>
    let fw := match s.pair.lastHello with
      | some h => (h.fwMajor, h.fwMinor)
      | none => (0, 0)
    .done s stOk (leBytes 1 s.pair.state.code ++ leBytes 1 s.pair.peerState ++ leBytes 1 s.pair.icl ++ leBytes 1 s.pair.lead ++
      leBytes 1 fw.1 ++ leBytes 1 0 ++ leBytes 2 fw.2 ++ leBytes 8 (s.pair.peerDurable - (s.journal (1 - s.role)).tip)) []

/-! ### Return to the pair (R384) and the brine rows -/

/-- REJOIN_SYNC_DONE (R384). On the survivor, once the returner's shadow has reached its durable mark, RELEASE goes to every module. On the
returner, `rows` are what the checkpoints and journals on media hold, laid out as R367 lays out rows (DESIGN CHOICE, log 47): they are
applied, and, once the shadow has reached the survivor's durable mark, the reservations are read, so that it registers where it may. -/
def execRejoinSyncDone (rows : List Bytes) (s : State) : Host.Outcome State Fault Refusal :=
  .next <|
    if s.pair.state = .solo ∧ s.pair.rejoinStep = 1 then
      if s.pair.peerShadow < s.own.durable then s
      else
        let s := { s with pair.rejoinStep := 2 }
        s.ownPorts.foldl (fun (s : State) n => s.issue n 0xFFFF 0x06 0 (reserveParams 3 0 0) [] .release) s
    else if s.pair.state = .sync ∧ s.pair.rejoinStep > 0 then
      let s := if s.pair.rejoinStep = 1 then rows.foldl (fun (s : State) b => s.journalRow true b) s else s
      if (s.journal (1 - s.role)).tip < s.pair.peerDurable then s
      else s.ownPorts.foldl State.askReserve { s with pair.rejoinStep := 2 }
    else s

/-- The replay has restored and mirrored every record: the dump key is replaced and the pool is served (06_brine_write_path.md R150, R153;
21_startup_security.md R486). -/
def State.replayEnd (s : State) : State :=
  let s := { s with brn.replaying := false, ftl.indexScan := false, boot.stage := if s.boot.stage = 5 then 6 else s.boot.stage }
  ((s.newDumpKey).anaChanged).askReserves s.role

/-- REMIRROR_DONE (06_brine_write_path.md R143, R153): every entry that is not released is acknowledged; ALONE returns to 0, replay ends, and
an adopted journal is handed back (R384 step 5). -/
def execRemirrorDone (s : State) : Host.Outcome State Fault Refusal :=
  .next <|
    if !s.brn.remirror || !s.unreleased.all s.mirrored then s
    else
      let s := { s with brn.remirror := false, brn.alone := false }.stageCheck
      let s := if s.brn.replaying then s.replayEnd else s
      if s.pair.rejoinStep = 3 then s.handBack else s

/-- ACCEPT_BRINE_LOSS (06_brine_write_path.md R155). -/
def execAcceptBrineLoss (ring slot : Nat) (s : State) : Host.Outcome State Fault Refusal :=
  .next <| s.packet 0x44 ring slot fun e _ s =>
    if s.brn.lost.isEmpty then .fail s 0x0400
    else if e.num 10 8 ≠ s.lostFrom then .fail s 0x0401
    else .done { s with brn.lost := [] }.reliabilityCheck.anaChanged stOk [] []

/-- PROXY_CMD_RX (R361; 13_media_link.md R334): the peer's command goes out on the own port under the own epoch. -/
def execProxyCmdRx (h : PtlHdr) (payload : Bytes) (s : State) : Host.Outcome State Fault Refusal :=
  .next <| s.onPtl 2 h payload fun b s =>
    let port := leAt b 0 4
    let d := slice b 4 64
    let s := s.bump R.PAIR_PROXY_RX_CNT
    let s := { s with pair.peerProxy := if s.pair.peerProxy.contains port then s.pair.peerProxy else s.pair.peerProxy ++ [port] }.leadCheck
    if s.direct port then
      s.issue port (leAt d 4 2) (leAt d 0 1) (leAt d 1 1) (slice d 16 40) (b.drop 68) (.proxied (leAt d 2 2))
    else (s.failModule port 5).afterUnits

end Sys2Proof.Machine
end

