-- ==== Sys2Proof/Machine/Engines.lean ====
section
/-! DEFINITION. Engine cores: segments that end, watchdogs and core faults (07_data_reduction.md R181; 08_compression.md R205;
09_cipher_digest.md R220-R222, R230). -/
namespace Sys2Proof.Machine

/-- An engine job in flight. -/
def State.engJob? (s : State) (id : Nat) : Option Job := findKey Job.id id s.red.jobs
/-- Bytes of the segment that a job of the cipher or digest engine is in (R220). -/
def Job.segBytes (j : Job) : Nat := Nat.min 4096 (j.input.length - 4096 * (ceilDiv j.input.length 4096 - j.segs))

/-- The segment and byte counters of the cipher and digest engines (09_cipher_digest.md R236). -/
def State.countSeg (s : State) (j : Job) : State :=
  if j.engine = 3 then (s.bump R.CIP_SEG_CNT).bumpBy R.CIP_BYTE_CNT j.segBytes
  else if j.engine = 2 then (s.bump R.DIG_SEG_CNT).bumpBy R.DIG_BYTE_CNT j.segBytes
  else s

/-- A job of the drain has ended on the engine it used: its record goes on, and its journal with it. -/
def State.drainJobDone (s : State) (j : Job) (ent idx : Nat) : State :=
  match s.drec? ent idx with
  | none => s
  | some r =>
    let s :=
      match j.engine with
      | 0 => s.compressed r
      | 3 => s.enciphered r
      | _ =>
        match s.recDom r with
        | some d => s.fingerprinted r (s.kslot d.slot)
        | none => s.putDRec { r with stage := .decide }
    s.pump r.journal

/-- A job of a read has ended: the cipher's plain frame goes to the decompressor, or to the session that asked for it; the decompressor's
content is checked (R176, R196; 14_snapshots_replication.md R349). -/
def State.readJobDone (s : State) (j : Job) (id : Nat) : State :=
  match s.job? id with
  | none => s
  | some r =>
    if j.engine = 3 then
      let plain := s.plainFrame r j.input
      match r.why with
      | .repl no g => s.replFrame r no g plain
      | _ => s.startJob 1 (.read id) plain
    else
      let s := s.bump R.DCMP_GRAIN_CNT
      let s := match decodeFrame j.input (((s.grain? r.sgn).map Grain.len16).getD 0) with
        | some _ => s
        | none => s.bump R.DCMP_CHECK_FAIL_CNT
      s.readDecoded id j.input

/-- A job has ended. -/
def State.jobDone (s : State) (j : Job) : State :=
  let s := ({ s with red.jobs := dropKey Job.id j.id s.red.jobs }.dropCtx j.engine j.stream).fillEngine j.engine
  match j.why with
  | .drain ent idx => s.drainJobDone j ent idx
  | .read id => s.readJobDone j id
  | .offload id =>
    match findKey OffJob.id id s.keys.offs with
    | some o => s.offDone o
    | none => s

/-- What a job works for is still there: its record, its read or its packet. -/
def State.jobWanted (s : State) (j : Job) : Bool :=
  match j.why with
  | .drain ent idx => (s.drec? ent idx).isSome
  | .read id => (s.job? id).isSome
  | .offload id => (findKey OffJob.id id s.keys.offs).isSome

/-- A segment ends that is not the last of its job: the job waits behind the others of its rank, unless its key is erased now, and the scheduler
gives its core to the one that is due (R213, R221). -/
def State.nextSeg (s : State) (j : Job) : State :=
  (State.goErase { s with red.jobs := dropKey Job.id j.id s.red.jobs ++ [{ j with segs := j.segs - 1, core := none }] }).fillEngine j.engine

/-- ENGINE_SEGMENT_DONE (R205, R220-R222): the segment that a job runs ends; the job goes on with its next one, or its output passes on; an ERASE
that waited for the segment goes on (R213). -/
def execEngineSegmentDone (job : Nat) (s : State) : Host.Outcome State Fault Refusal :=
  .next <|
    match s.engJob? job with
    | none => s
    | some j =>
      if j.core.isNone then s
      else
        let s := s.countSeg j
        if j.segs > 1 ∧ s.jobWanted j = true then s.nextSeg j else (((s.jobDone j).goErase).sweepReads).replPump

/-! ### Faults (R181, R230) -/

/-- A segment has lost its core: it is reissued on a core of its engine that the failure does not touch, at once or when one comes free; where no
such one serves it may have the one it had (R181, R205, R230; DESIGN CHOICE, log 18). -/
def State.reissueJob (s : State) (bad : Nat → Bool) (j : Job) : State :=
  match j.core with
  | none => s
  | some c => (s.putEngJob { j with core := none, lost := some (c, (s.coresUp j.engine).filter bad) }).fillEngine j.engine

/-- A core or a cluster has failed: the engine failure count (R181; 12_harvest_health.md R308). -/
def State.countEngine (s : State) : State := { s with ftl.health.engineFail := s.ftl.health.engineFail + 1 }

/-- ENGINE_JOB_WATCHDOG (R181): a job has not ended within 4 µs. -/
def execEngineJobWatchdog (job : Nat) (s : State) : Host.Outcome State Fault Refusal :=
  .next <|
    match s.engJob? job with
    | none => s
    | some j => if j.core.isNone then s else s.countEngine.reissueJob (fun c => some c == j.core) j

/-- A unit of an engine has gone for good: it is FAILED, and its CAUSE is one the spec does not give (log 52). -/
def State.engineOut (s : State) (u : Nat) : State := s.setUnitState u .failed (Config.engineCause u % 256)

/-- The grain classifier fails for good: the pool's volumes move to the peer (R181; 15_pair_operation.md R382). -/
def State.moveVolumes (s : State) : State :=
  let gs := ((s.pool.volumes.map Volume.ana).eraseDups).filter fun g => s.ownsGroup g && !s.moving g
  if s.pair.state = .paired then gs.foldl (fun (s : State) g => s.startMove g none false) s else s

/-- ENGINE_CORE_FAULT (R181, R205, R230): a detected error in a core, a cluster or the grain classifier. `hard` says that the unit does not
serve again: a core or cluster then leaves service, and the classifier's reset has failed. The fault of one that runs no job is recorded as a
corrected error of that unit. -/
def execEngineCoreFault (unit : Nat) (hard : Bool) (s : State) : Host.Outcome State Fault Refusal :=
  .next <|
    if !(unitValid unit) || !(unitClass unit == 3 || unitClass unit == 4 || unit == 0x200005) || !(s.ust unit).serving then s
    else
      let s0 := s
      let s := if hard then s.engineOut unit else s
      if unit = 0x200005 then
        let s := s.countEngine.event 0x08 evcReissued 3 unit (evUnit unit)
        if hard then s.moveVolumes else s
      else
        let bad (c : Nat) : Bool := if unitClass unit = 4 then c == unitIndex unit else coreCluster c == unitIndex unit
        let hit := s0.red.jobs.filter fun j => j.core.any bad
        let s := s.countEngine
        if hit.isEmpty then s.event 0x08 evcCorrected 3 unit [] else hit.foldl (fun (s : State) j => s.reissueJob bad j) s

end Sys2Proof.Machine
end

