-- ==== Sys2Proof/Machine/BusWrite.lean ====
section
/-! DEFINITION. What a bus write does to a stored register by its access types, the halves of 64-bit registers (00_scope.md R5-R8), and
how a reset is asked for and the dump begins (18_system_flash.md R431; 06_brine_write_path.md R148). -/
namespace Sys2Proof.Machine

/-! ### Access types (R8) -/

/-- The value that a register holds after a write of `v`: RW bits take it, W1C bits written 1 clear, the others stay. -/
def Reg.after (r : Reg) (old v : DWord) : DWord := ((old &&& ~~~r.rw) &&& ~~~(r.w1c &&& v)) ||| (v &&& r.rw)

/-- A write of a whole register that the register file holds. -/
def State.wrBus (s : State) (r : Reg) (v : DWord) : State := s.wr r (r.after (s.rd r) v)

/-- The pending low half of the register at an offset is held (R7). -/
def State.holdLow (s : State) (addr v : Nat) : State := { s with lowPend := putKey Prod.fst (addr, v) s.lowPend }

/-- The pending low half of a register is used or discarded. -/
def State.dropLow (s : State) (addr : Nat) : State := { s with lowPend := dropKey Prod.fst addr s.lowPend }

/-- The 64-bit value that a write of the high half gives: with the pending low half, or the present one (R7). -/
def State.joinHigh (s : State) (addr v : Nat) (cur : DWord) : DWord :=
  let lo := match findKey Prod.fst addr s.lowPend with
    | some p => p.2
    | none => cur.toNat % 2 ^ 32
  BitVec.ofNat 64 (v % 2 ^ 32 * 2 ^ 32 + lo)

/-- A write of a half or the whole of a 64-bit register: the state, and the value to take if the register takes one now. -/
def State.half64 (s : State) (r : Reg) (off size v : Nat) (cur : DWord) : State × Option DWord :=
  if size = 8 then (s.dropLow r.addr, some (BitVec.ofNat 64 v))
  else if off = r.addr then (s.holdLow r.addr (v % 2 ^ 32), none)
  else (s.dropLow r.addr, some (s.joinHigh r.addr v cur))

/-! ### Power gating (01_architecture.md R19; 22_power_electrical.md R524) -/

/-- The power domain that gates the register at an offset, if one does: the 20 counter copies of an Ethernet port, LNK_MOD_PWR_n, LLC_WAY_OFF_s. -/
def gateOf (a : Nat) : Option Nat :=
  if 0x00A10000 ≤ a ∧ a < 0x00A11000 ∧ (a - 0x00A10000) % 0x100 < 0xA0 then some (3 + (a - 0x00A10000) / 0x100)
  else if 0x01A00180 ≤ a ∧ a < 0x01A00200 then some (19 + (a - 0x01A00180) / 4)
  else if 0x01E80100 ≤ a ∧ a < 0x01E801C0 then some (51 + (a - 0x01E80100) / 4 / 4)
  else none

/-- The domain that is switched off and gates an offset. -/
def State.gatedBy (s : State) (a : Nat) : Option Nat := (gateOf a).filter fun d => s.pwr.off.contains d

/-- A write to a gated register is dropped, with an event that names the domain (01_architecture.md R19; 19_event_recorder.md R525). -/
def State.gatedDrop (s : State) (d a size : Nat) : State := s.event 0x11 evcDropped 3 (unitId 9 d) (evAddr 0 a ++ evValue size)

/-! ### The dump and resets that wait (06_brine_write_path.md R148, R149; 18_system_flash.md R431) -/

/-- The entries above the durable mark of a journal, in journal order. -/
def State.aboveMark (s : State) (j : Nat) : List BEnt :=
  inOrder (s.brn.ents.filter fun e => e.journal == j && decide (e.jseq > (s.journal j).durable))

/-- The records of an entry in the format of R138. -/
def State.entMsgs (s : State) (e : BEnt) : List Bytes := ((List.range e.recs.length).zip e.recs).map fun x => s.mirrorOf e x.1 x.2

/-- The tweak of a dump record: its index, its copy, and the low 56 bits of DUMP_EPOCH (R149). -/
def dumpTweak (epoch copy idx : Nat) : Nat := idx % 2 ^ 32 + copy % 2 * 2 ^ 32 + epoch % 2 ^ 56 * 2 ^ 40

/-- The 64-byte header of a dump (R149). -/
def State.dumpHeader (s : State) (last recs : Nat) : Bytes :=
  let mark (j : Nat) : Nat := if s.heldJournals.contains j then (s.journal j).durable else 0
  let b := leBytes 4 0x4442524E ++ leBytes 1 s.role ++ leBytes 1 (sumOf (s.heldJournals.map fun j => 2 ^ j)) ++ leBytes 2 0 ++
    leBytes 8 (mark 0) ++ leBytes 8 (mark 1) ++ leBytes 8 last ++ leBytes 4 recs ++ leBytes 4 0 ++ leBytes 8 s.tide.time ++
    leBytes 8 (s.brn.dumpEpoch + 1) ++ leBytes 4 0
  b ++ leBytes 4 (crc32c b)

/-- The dump begins: no RDMA READ is issued any more, entries without a sequence are discarded, the marks are frozen, and every record above them
is written twice under the dump key, to the two dump areas (R148 steps 1 to 3; 11_flash_translation.md R283). A head that holds no record writes
no dump (18_system_flash.md R431), nor does a FENCED one (15_pair_operation.md R376). -/
def State.startDump (s : State) : State :=
  if s.pwr.dumping ∨ s.pair.state = .fenced then s
  else
    let s := (s.brn.ents.filter fun e => e.jseq == 0).foldl State.discardEnt s
    let s := { s with brn.heldReads := [], brn.waiting := [] }
    let es := s.heldJournals.flatMap s.aboveMark
    match s.keys.dumpKey with
    | none => s
    | some k =>
      if es.isEmpty then s
      else
        let ms := es.flatMap s.entMsgs
        let at_ := (List.range ms.length).zip ms
        let enc (copy : Nat) (x : Nat × Bytes) : Bytes := Config.xtsEncrypt k (dumpTweak (s.brn.dumpEpoch + 1) copy x.1) x.2
        let d : Dump := { header := s.dumpHeader (maxOf (es.map BEnt.jseq)) ms.length, recs := at_.map fun x => (enc 0 x, enc 1 x) }
        let s := { s.bump R.BRN_DUMP_CNT with pwr.dumping := true, brn.dumpRun := some d }
        ((List.range d.recs.length).zip d.recs).foldl (fun (s : State) x =>
          (s.emit (.dumpWrite 0 (some x.1) x.2.1)).emit (.dumpWrite 1 (some x.1) x.2.2)) s

/-- DUMP_EPOCH of a dump (R149). -/
def Dump.epoch (d : Dump) : Nat := leAt d.header 48 8

/-- The dump has been written, its header last, in both copies (R148 step 4). -/
def State.endDump (s : State) : State :=
  match s.brn.dumpRun with
  | none => s
  | some d =>
    if !s.pwr.dumping then s
    else
      { (s.emit (.dumpWrite 0 none d.header)).emit (.dumpWrite 1 none d.header) with
        pwr.dumping := false
        brn.dump := some d
        brn.dumpRun := none
        brn.dumped := true
        brn.dumpEpoch := d.epoch }

/-- DUMP_DONE goes high once the dump has been written and the event flush has ended, after a power failure or in the hold of a critical
condition (22_power_electrical.md R511, R514). -/
def State.dumpCheck (s : State) : State :=
  if (s.pwr.pfail || s.pwr.holding) && !s.pwr.dumping && s.brn.dumpRun.isNone && !s.evr.flushing && !s.pwr.dumpDone then
    { s with pwr.dumpDone := true }.emit (.pin .dumpDone true)
  else s

/-- A reset other than power-on reset is due: it waits for the dump, for the flush of the recorder and for the flash operations that run; the
first cause stands (R431; 19_event_recorder.md R445). -/
def State.askReset (s : State) (cause : Nat) : State :=
  if s.boot.resetReq.isSome then s
  else
    let s := { s with boot.resetReq := some cause }
    let s := if s.sfl.ops.isEmpty then s else s.bump R.SFL_HOLD_CNT
    (s.startDump).flushStart

/-- Everything that a due reset waits for has ended (R431, R447, R485). -/
def State.resetReady (s : State) : Bool := s.sfl.ops.isEmpty && !s.pwr.dumping && !s.evr.flushing

end Sys2Proof.Machine
end

