-- ==== Sys2Proof/Machine/Mem.lean ====
section
/-! DEFINITION. Memories and the last-level cache: areas, patrol scrub, uncorrectable errors, way groups (16_memory_cache.md
R389-R406). -/
namespace Sys2Proof.Machine

/-! ### Areas (R392, R393) -/

/-- The areas of HBM and DDR. -/
inductive Area
  | ownBrine | mirror | side | tide | engine | stripe | control | landing | map | filter | contexts | members | units | index | stream | metadata
  deriving DecidableEq, Repr

/-- The area of an HBM address. -/
def State.hbmArea (s : State) (a : Nat) : Area :=
  let gib := 2 ^ 30
  let land := s.landArea 0
  let map := Nat.min (bits s.mem.hbmSplit 15 8) (105 - Nat.min 64 (bits s.mem.hbmSplit 7 0)) * gib
  if a < 16 * gib then .ownBrine
  else if a < 32 * gib then .mirror
  else if a < 33 * gib then .side
  else if a < 34 * gib then .tide
  else if a < 36 * gib then .engine
  else if a < 37 * gib then .stripe
  else if a < 38 * gib then .control
  else if a < land.1 + land.2 then .landing
  else if a < land.1 + land.2 + map then .map
  else .filter

/-- The area of a DDR address. -/
def State.ddrArea (s : State) (a : Nat) : Area :=
  let gib := 2 ^ 30
  let land := s.landArea 1
  let index := (s.mem.ddrGib - 4) * bits s.mem.ddrSplit 23 16 / 256 * gib
  if a < gib / 2 then .contexts
  else if a < gib then .members
  else if a < 2 * gib then .units
  else if a < 4 * gib then .control
  else if a < 4 * gib + index then .index
  else if a < land.1 then .stream
  else if a < land.1 + land.2 then .landing
  else .metadata

/-- The area of an address of a space: 1 HBM, 2 DDR (19_event_recorder.md R438). -/
def State.areaOf (s : State) (space a : Nat) : Area := if space = 1 then s.hbmArea a else s.ddrArea a

/-- The row of the table of R403, counted from 0. -/
def hitRow : MemHit → Nat
  | .brine _ _ => 0
  | .changedPage => 1
  | .cleanPage => 2
  | .tideWord _ _ _ => 3
  | .engineJob _ => 4
  | .stripeRow _ => 5
  | .missPacket _ => 6
  | .context _ => 7
  | .cacheEntry _ _ => 8
  | .landing => 9
  | .whole _ _ => 10

/-- What can be hit in an area. -/
def Area.holds (a : Area) (h : MemHit) : Bool :=
  match h with
  | .brine _ _ => a == .ownBrine || a == .mirror || a == .side
  | .changedPage => a == .map || a == .index || a == .metadata || a == .units || a == .members
  | .cleanPage => a == .map || a == .index || a == .metadata || a == .filter
  | .tideWord _ _ _ => a == .tide
  | .engineJob _ => a == .engine
  | .stripeRow _ => a == .stripe
  | .missPacket _ => a == .control
  | .context _ => a == .contexts
  | .cacheEntry _ _ => a == .stream
  | .landing => a == .landing
  | .whole _ _ => true

/-! ### Patrol scrub (R391) -/

/-- One corrected word: memory unit, space, address, bits corrected. It is written back, so its content stays. -/
def State.corrected (s : State) (c : Nat × Nat × Nat × Nat) : State :=
  match c with
  | (unit, space, addr, n) =>
    let s := s.bump (if space = 1 then R.MEM_HBM_CE_CNT else R.MEM_DDR_CE_CNT)
    s.event 0x0E evcCorrected 3 unit (evAddr space addr ++ evValue n)

/-- PATROL_SCRUB (R391): a pass has read a memory; the operand lists the words it corrected. -/
def execPatrolScrub (found : List (Nat × Nat × Nat × Nat)) (s : State) : Host.Outcome State Fault Refusal := .next (found.foldl State.corrected s)

/-! ### Uncorrectable errors (R403) -/

/-- A brine entry whose grains have all been decided lives on in its frames. -/
def State.entDecided (s : State) (e : BEnt) : Bool :=
  e.placed || (e.state == .draining && s.red.recs.all fun r => r.ent != e.id || !(r.stage == .merge || r.stage == .digest || r.stage == .decide))

/-- Writes of a journal are lost from a sequence on (06_brine_write_path.md R154): its undecided entries go, and the volumes are served again
only after ACCEPT_BRINE_LOSS. -/
def State.loseBrine (s : State) (j jseq : Nat) : State :=
  let gone := s.brn.ents.filter fun e => e.journal == j && decide (e.jseq ≥ jseq) && e.jseq != 0 && !s.entDecided e
  let ids := gone.map BEnt.id
  let cmds := gone.filterMap BEnt.cmd
  let s := { s with
    brn.ents := s.brn.ents.filter fun e => !ids.contains e.id
    red.recs := s.red.recs.filter fun r => !ids.contains r.ent
    brn.lost := (j, (match s.brn.lost.find? fun x => x.1 == j with | some x => Nat.min x.2 jseq | none => jseq)) ::
      s.brn.lost.filter fun x => x.1 != j }
  let s := cmds.foldl (fun (s : State) id => (s.discardCmd id).endIo id 3 2 false) s
  (s.alarm 4 0x06 evcUncorrected 0 (evSeq 0 jseq)).anaChanged

/-- The brine, or a whole memory, is hit: in a pair the head leaves and resets, and the peer takes over; alone it loses writes. -/
def State.brineHit (s : State) (j jseq : Nat) : State :=
  match s.pair.state with
  | .paired | .suspect | .electing => { s.sendLeave 0x10 with pair.state := .down }.askReset 6
  | .solo => s.loseBrine j jseq
  | _ => s

/-- A changed metadata page is hit: as the brine in a pair; alone it is rebuilt from its image and the journal (R403). -/
def State.changedHit (s : State) : State :=
  match s.pair.state with
  | .paired | .suspect | .electing => { s.sendLeave 0x10 with pair.state := .down }.askReset 6
  | _ => s.bump R.MEM_PAGE_REREAD_CNT

/-- The booked resources by number, in the order of R37 and 16_memory_cache.md R396. -/
def rsrcs : List Rsrc := [.egress, .icl, .mport, .die, .comp, .decomp, .digest, .cipher, .erasure, .classifier, .cache]

/-- A tide table word reads as fully booked until its slot has passed (log 54). -/
def State.tideHit (s : State) (r : Rsrc) (idx slot : Nat) : State :=
  let far := decide (slot ≥ s.farFirst)
  let at_ := if far then 64 * (slot / 64) else slot
  let cap := s.bookable r idx at_
  let free := (if far then 64 else 1) * cap - s.usedIn r idx at_ far
  let b : Booking := { rsrc := r, idx := idx, slot := at_, far := far, amount := free, cmd := 0, deadline := 0, cap := cap }
  if slot < s.slot ∨ slot > s.lastSlot then s else { s with tide.table := s.tide.table ++ [b] }

/-- What follows where an error falls. -/
def State.ueOutcome (s : State) (space addr : Nat) (h : MemHit) : State :=
  match h with
  | .brine j q => s.brineHit j q
  | .whole j q => s.brineHit j q
  | .changedPage => s.changedHit
  | .cleanPage => s.bump R.MEM_PAGE_REREAD_CNT
  | .tideWord r i slot => s.tideHit (rsrcs.getD r .egress) i slot
  | .engineJob id =>
    match s.engJob? id with
    | none => s
    | some j =>
      match j.why with
      | .offload n =>
        let s := ({ s with red.jobs := dropKey Job.id id s.red.jobs }.dropCtx j.engine j.stream).fillEngine j.engine
        match findKey OffJob.id n s.keys.offs with
        | some o =>
          (if j.engine ≤ 1 then s.endOff o 0x0609 (cmpResult 0 0 0 0 0) else s.endOff o 0x0708 (engResult 0 0 0 0)).goErase
        | none => s
      | _ => s.reissueJob (fun c => some c == j.core) j
  | .stripeRow id =>
    match findKey Row.id id s.ftl.rows with
    | some r => s.voidRow r
    | none => s
  | .missPacket q =>
    match s.qp? q with
    | some x => s.putQp { x with missed := x.missed.drop 1 }
    | none => s
  | .context q => s.failQp q 6
  | .cacheEntry n g => { s with mem.cache := s.mem.cache.filter fun x => !(x.nsid == n && x.grain == g) }
  | .landing => { s with mem.poison := (space - 1, addr / 32 * 32) :: s.mem.poison }

/-- MEMORY_UE (R403): an uncorrectable error of a memory unit at an address of HBM (space 1) or DDR (space 2). What it hit is an operand, since
the spec gives no layout within the areas (log 54); it must fit the area of the address. -/
def execMemoryUe (unit space addr : Nat) (hit : MemHit) (s : State) : Host.Outcome State Fault Refusal :=
  .next <|
    if !((space == 1 && decide (addr < 144 * 2 ^ 30)) || (space == 2 && decide (addr < s.mem.ddrGib * 2 ^ 30))) || unitClass unit != 8 ||
        !(s.areaOf space addr).holds hit then s
    else
      let s := s.bump (if space = 1 then R.MEM_HBM_UE_CNT else R.MEM_DDR_UE_CNT)
      let s := s.alarm 9 0x0E evcUncorrected unit (evAddr space addr ++ evValue (hitRow hit))
      s.ueOutcome space addr hit

/-! ### Way groups and the rehash (R402) -/

/-- A write of LLC_WAY_OFF_s (R402): REQ is stored; bit 0 is ignored, so group 0 stays on. -/
def State.llcWayOff (s : State) (slice value : Nat) : State :=
  if slice ≥ 48 then s
  else
    let s := s.wrBus (R.LLC_WAY_OFF slice) (BitVec.ofNat 64 value)
    let x := s.llcSlice slice
    let req := value % 16 / 2 * 2
    if req = x.off ∧ !x.busy then s
    else { s with mem.slices := putKey LlcSlice.idx { x with req := req, busy := true } s.mem.slices }

/-- LLC_WAY_OFF_WRITE (R402); with the slice group switched off it is dropped and recorded (01_architecture.md R19, R524). -/
def execLlcWayOffWrite (slice value : Nat) (s : State) : Host.Outcome State Fault Refusal :=
  
  .next <|
    if s.halted then s
    else
      match s.gatedBy (R.LLC_WAY_OFF slice).addr with
      | some d => if slice < 48 then s.gatedDrop d (R.LLC_WAY_OFF slice).addr 4 else s
      | none => s.llcWayOff slice value

/-- LLC_WAY_CLEAN_DONE (R402): fills into the ways asked for complete, their lines are invalid, they are off and the others on, and BUSY clears. -/
def execLlcWayCleanDone (slice : Nat) (s : State) : Host.Outcome State Fault Refusal :=
  .next <|
    let x := s.llcSlice slice
    if !x.busy then s
    else
      let off := s.fld (R.LLC_WAY_OFF slice) 3 1 * 2
      let s := s.llcLeave fun l => l.slice == slice && off.testBit (l.way / 4)
      { s with mem.slices := putKey LlcSlice.idx { x with off := off, busy := false } s.mem.slices }

/-- LLC_REHASH_DONE (R402). -/
def execLlcRehashDone (s : State) : Host.Outcome State Fault Refusal := .next { s with mem.rehash := false }

end Sys2Proof.Machine
end

