-- ==== Sys2Proof/Machine/Dma.lean ====
section
/-! DEFINITION. The data mover: hand-over, chunks, swapping, status bits, faults, and peer windows (17_dma.md R407-R420). -/
namespace Sys2Proof.Machine

/-! ### Status bits (R414, R419) -/

/-- A bit of DMA_CH_STATUS. -/
def State.dmaBit (s : State) (ch b : Nat) : Bool := (s.rd (R.DMA_CH_STATUS ch)).toNat.testBit b
/-- `s` with a bit of DMA_CH_STATUS set or clear. -/
def State.dmaPut (s : State) (ch b : Nat) (v : Bool) : State := s.setFld (R.DMA_CH_STATUS ch) b b (b2n v)

/-- HALF (bit 0) or END (bit 1) is due: it sets and, where enabled, sends one message; where it is still set, OVR is set instead (R414). -/
def State.dmaDue (s : State) (ch b mode : Nat) : State :=
  if s.dmaBit ch b then s.dmaPut ch 3 true
  else
    let s := s.dmaPut ch b true
    if mode.testBit (8 + b) then s.emit (.msix (bits mode 26 16)) else s

/-- The transfer of a channel. -/
def State.xfer? (s : State) (ch : Nat) : Option DmaXfer := findKey DmaXfer.ch ch s.dma

/-- A transfer stops with an error: ERR, its code, HALTED (R411, R416). -/
def State.dmaErr (s : State) (ch mode code : Nat) : State :=
  let s := { s with dma := dropKey DmaXfer.ch ch s.dma }.bump R.DMA_ERR_CNT
  let was := s.dmaBit ch 2
  let s := ((s.setFld (R.DMA_CH_STATUS ch) 23 20 code).dmaPut ch 7 true).dmaPut ch 6 false
  let s := s.dmaPut ch 2 true
  if !was ∧ mode.testBit 10 then s.emit (.msix (bits mode 26 16)) else s

/-! ### The start check (R407, R411) -/

/-- The bytes of a SWAP unit (R412). -/
def swapUnit : Nat → Nat
  | 1 => 2
  | 2 => 4
  | 3 => 4
  | 4 => 8
  | _ => 1

/-- A range lies within its space (R407). -/
def State.dmaRange (s : State) (space addr len : Nat) : Bool :=
  match space with
  | 0 => decide (addr + len ≤ 2 ^ 64)
  | 1 => s.regionOk 0 addr len
  | 2 => s.regionOk 1 addr len
  | _ => bits addr 59 40 == 0 && decide (bits addr 39 0 + len ≤ 2 ^ 40)

/-- The code of the first start check that fails, 0 where all pass (R411); a peer that is not PAIRED gives code 7 (R408, R416). -/
def State.dmaCheck (s : State) (src dst len mode : Nat) : Nat :=
  let ss := bits mode 1 0
  let ds := bits mode 3 2
  if len = 0 ∨ len > 1073741824 ∨ len % swapUnit (bits mode 7 5) ≠ 0 then 1
  else if bits mode 7 5 ≥ 5 ∨ bits mode 26 16 = 0 then 3
  else if !s.dmaRange ss src len ∨ !s.dmaRange ds dst len then 2
  else if ss = ds ∧ overlaps (src, len) (dst, len) then 4
  else if (ss = 3 ∨ ds = 3) ∧ s.pair.state ≠ .paired then 7
  else 0

/-! ### Chunks (R412, R413) -/

/-- One unit swapped. -/
def swapOne (mode : Nat) (b : Bytes) : Bytes := if mode = 3 then b.drop 2 ++ b.take 2 else b.reverse

/-- The first `n` units of a chunk swapped, in order. -/
def swapUnits (mode : Nat) : Nat → Bytes → Bytes
  | 0, b => b
  | n + 1, b => swapOne mode (b.take (swapUnit mode)) ++ swapUnits mode n (b.drop (swapUnit mode))

/-- A chunk swapped (R412). Chunks start at multiples of 4,096 bytes from the start, so no unit crosses two. -/
def swapChunk (mode : Nat) (b : Bytes) : Bytes := if mode = 0 then b else swapUnits mode (b.length / swapUnit mode) b

/-- The bytes of the chunk at an offset. -/
def DmaXfer.chunk (x : DmaXfer) (off : Nat) : Nat := Nat.min 4096 (x.len - off)

/-- A window read request (R408). -/
def windowReq (addr len off : Nat) : Bytes := leBytes 1 (bits addr 63 60) ++ leBytes 1 0 ++ leBytes 4 len ++ leBytes 8 (bits addr 39 0 + off)

/-- A chunk is issued: its source is asked for where it lies outside the head. -/
def State.dmaAsk (s : State) (x : DmaXfer) (off : Nat) : State :=
  match bits x.mode 1 0 with
  | 0 => s.emit (.hostRead (x.src + off) (x.chunk off))
  | 3 => s.control 0x000A (windowReq x.src (x.chunk off) off)
  | _ => s

/-- Chunks are issued in ascending order, none that starts more than 1 MiB beyond the lowest byte not yet visible (R413). -/
def State.dmaIssue (s : State) (ch : Nat) : Nat → State
  | 0 => s
  | n + 1 =>
    match s.xfer? ch with
    | none => s
    | some x =>
      if x.issued ≥ x.len ∨ x.issued > x.done + 1048576 then s
      else
        let s := s.dmaAsk x x.issued
        State.dmaIssue { s with dma := putKey DmaXfer.ch { x with issued := x.issued + x.chunk x.issued } s.dma } ch n

/-- Chunks that can be issued in one go. -/
def dmaFuel : Nat := 260

/-- The armed shadow set becomes the active set and starts, in one step (R409, R411). -/
def State.dmaHandover (s : State) (ch : Nat) : State :=
  if !s.dmaBit ch 5 ∨ s.dmaBit ch 6 ∨ s.dmaBit ch 7 then s
  else
    let src := (s.rd (R.DMA_CH_SHADOW_SRC ch)).toNat
    let dst := (s.rd (R.DMA_CH_SHADOW_DST ch)).toNat
    let len := (s.rd (R.DMA_CH_SHADOW_LEN ch)).toNat
    let mode := (s.rd (R.DMA_CH_SHADOW_MODE ch)).toNat
    let s := (s.wr (R.DMA_CH_ACTIVE_SRC ch) (BitVec.ofNat 64 src)).wr (R.DMA_CH_ACTIVE_DST ch) (BitVec.ofNat 64 dst)
    let s := (s.wr (R.DMA_CH_ACTIVE_LEN ch) (BitVec.ofNat 64 len)).wr (R.DMA_CH_ACTIVE_MODE ch) (BitVec.ofNat 64 mode)
    let s := (s.wr (R.DMA_CH_DONE ch) 0).dmaPut ch 5 false
    let code := s.dmaCheck src dst len mode
    if code ≠ 0 then s.dmaErr ch mode code
    else
      let x : DmaXfer := { ch := ch, src := src, dst := dst, len := len, mode := mode, issued := 0, done := 0, vis := [], half := false }
      ({ s with dma := putKey DmaXfer.ch x s.dma }.dmaPut ch 6 true).dmaIssue ch dmaFuel

/-- How far the visible bytes reach from the start, and the chunks beyond; `n` bounds the chunks. -/
def visTo (len : Nat) : Nat → Nat → List Nat → Nat × List Nat
  | 0, d, v => (d, v)
  | n + 1, d, v => if v.contains d then visTo len n (d + Nat.min 4096 (len - d)) (v.filter (· != d)) else (d, v)

/-- Bytes reach the destination of a chunk. -/
def State.dmaStore (s : State) (x : DmaXfer) (off : Nat) (b : Bytes) : State :=
  match bits x.mode 3 2 with
  | 0 => s.emit (.hostWrite (x.dst + off) b)
  | 1 => s.place 0 (x.dst + off) b
  | 2 => s.place 1 (x.dst + off) b
  | _ => s.control 0x0009 (leBytes 1 (bits x.dst 63 60) ++ leBytes 5 0 ++ leBytes 8 (bits x.dst 39 0 + off) ++ b)

/-- DONE has advanced: HALF and END are set when due, and at the end the shadow set takes over (R409, R413). -/
def State.dmaProgress (s : State) (x : DmaXfer) : State :=
  let s := s.wr (R.DMA_CH_DONE x.ch) (BitVec.ofNat 64 x.done)
  let due := !x.half && decide (x.done ≥ x.len / 2)
  let s := if due then s.dmaDue x.ch 0 x.mode else s
  if x.done ≥ x.len then
    let s := { s with dma := dropKey DmaXfer.ch x.ch s.dma }.bump R.DMA_XFER_CNT
    ((s.dmaDue x.ch 1 x.mode).dmaPut x.ch 6 false).dmaHandover x.ch
  else
    let x := { x with half := x.half || due }
    { s with dma := putKey DmaXfer.ch x s.dma }.dmaIssue x.ch dmaFuel

/-- An end of a transfer is a peer window. -/
def DmaXfer.peerEnd (x : DmaXfer) : Bool := bits x.mode 1 0 == 3 || bits x.mode 3 2 == 3

/-- A chunk whose source bytes are there becomes visible at its destination (R412, R413); peer-window traffic is refused outside PAIRED (R408). -/
def State.dmaChunk (s : State) (x : DmaXfer) (off : Nat) (b : Bytes) : State :=
  if x.peerEnd ∧ s.pair.state ≠ .paired then s.dmaErr x.ch x.mode 7
  else
    let b := swapChunk (bits x.mode 7 5) (slice b 0 (x.chunk off))
    let s := (s.dmaStore x off b).bumpBy R.DMA_BYTE_CNT b.length
    match visTo x.len 300 x.done (off :: x.vis) with
    | (d, v) => s.dmaProgress { x with done := d, vis := v }

/-- A chunk is issued and not yet visible. -/
def DmaXfer.open_ (x : DmaXfer) (off : Nat) : Bool :=
  off % 4096 == 0 && decide (off < x.issued) && decide (x.done ≤ off) && !x.vis.contains off

/-- A range of a landing area holds a poisoned word. -/
def State.poisoned (s : State) (space addr len : Nat) : Bool :=
  s.mem.poison.any fun p => p.1 == space && overlaps (p.2, 32) (addr, len)

/-! ### Rows -/

/-- DMA_SHADOW_WRITE (R410): a write of `size` bytes at an offset of a channel's shadow set, 0x20 to 0x37; dropped while ARMED. -/
def execDmaShadowWrite (ch off size value : Nat) (s : State) : Host.Outcome State Fault Refusal :=
  .next <|
    if ch ≥ 64 ∨ off < 0x20 ∨ off > 0x37 ∨ off % 4 ≠ 0 ∨ s.halted then s
    else if s.dmaBit ch 5 then s.dmaPut ch 4 true
    else
      let wide (r : Reg) : State :=
        match s.half64 r (0x01F10000 + ch * 256 + off) size value (s.rd r) with
        | (s, some v) => s.wrBus r v
        | (s, none) => s
      if off < 0x28 then wide (R.DMA_CH_SHADOW_SRC ch)
      else if off < 0x30 then wide (R.DMA_CH_SHADOW_DST ch)
      else if off = 0x30 then
        let s := s.wrBus (R.DMA_CH_SHADOW_LEN ch) (BitVec.ofNat 64 (value % 2 ^ 32))
        if size = 8 then s.wrBus (R.DMA_CH_SHADOW_MODE ch) (BitVec.ofNat 64 (value / 2 ^ 32)) else s
      else s.wrBus (R.DMA_CH_SHADOW_MODE ch) (BitVec.ofNat 64 value)

/-- DMA_ARM (R409, R410): the shadow set is armed, or the write is dropped because it is armed already. -/
def execDmaArm (ch : Nat) (s : State) : Host.Outcome State Fault Refusal :=
  .next <|
    if ch ≥ 64 ∨ s.halted then s
    else if s.dmaBit ch 5 then s.dmaPut ch 4 true
    else (s.dmaPut ch 5 true).dmaHandover ch

/-- DMA_ABORT (R417): the shadow set is disarmed and the active transfer stops with code 9. -/
def execDmaAbort (ch : Nat) (s : State) : Host.Outcome State Fault Refusal :=
  .next <|
    if ch ≥ 64 ∨ s.halted then s
    else
      let s := s.dmaPut ch 5 false
      match s.xfer? ch with
      | some x => s.dmaErr ch x.mode 9
      | none => s

/-- DMA_CHUNK_DONE (R413): a chunk at an offset from the start becomes visible. The bytes are those of a host memory source; HBM and DDR are
read here, and a peer window's data comes with WINDOW_READ_REPLY_RX. (DESIGN CHOICE, log 56) -/
def execDmaChunkDone (ch off : Nat) (data : Bytes) (s : State) : Host.Outcome State Fault Refusal :=
  .next <|
    match s.xfer? ch with
    | none => s
    | some x =>
      if !x.open_ off then s
      else
        let n := x.chunk off
        match bits x.mode 1 0 with
        | 0 => s.dmaChunk x off data
        | 1 => if s.poisoned 0 (x.src + off) n then s.dmaErr ch x.mode 6 else s.dmaChunk x off (memReadAll 0 s.mem.hbm (x.src + off) n)
        | 2 => if s.poisoned 1 (x.src + off) n then s.dmaErr ch x.mode 6 else s.dmaChunk x off (memReadAll 0 s.mem.ddr (x.src + off) n)
        | _ => s

/-- DMA_FAULT (R416): a host error (5), a poisoned source (6) or the loss of the peer (7), where the transfer has such an end. -/
def execDmaFault (ch code : Nat) (s : State) : Host.Outcome State Fault Refusal :=
  .next <|
    match s.xfer? ch with
    | none => s
    | some x =>
      let ends := [bits x.mode 1 0, bits x.mode 3 2]
      let ok := (code == 5 && ends.contains 0) || (code == 6 && (bits x.mode 1 0 == 1 || bits x.mode 1 0 == 2)) || (code == 7 && ends.contains 3)
      if ok then s.dmaErr ch x.mode code else s

/-- A write of DMA_CH_STATUS: W1C bits; clearing ERR clears its code and HALTED, and an armed shadow set starts (R416). -/
def State.dmaStatusWrite (s : State) (ch value : Nat) : State :=
  let s := s.wrBus (R.DMA_CH_STATUS ch) (BitVec.ofNat 64 value)
  if value.testBit 2 then ((s.setFld (R.DMA_CH_STATUS ch) 23 20 0).dmaPut ch 7 false).dmaHandover ch else s

/-- DMA_ERR_CLEAR (R416): a write of DMA_CH_STATUS with ERR 1. -/
def execDmaErrClear (ch value : Nat) (s : State) : Host.Outcome State Fault Refusal :=
  .next <| if ch ≥ 64 ∨ !value.testBit 2 ∨ s.halted then s else s.dmaStatusWrite ch value

/-- DMA_WIN_CFG_WRITE (R408, R419): while EN is 1 only EN changes. -/
def execDmaWinCfgWrite (n value : Nat) (s : State) : Host.Outcome State Fault Refusal :=
  .next <|
    if n ≥ 16 ∨ s.halted then s
    else
      let r := R.DMA_WIN_CFG n
      if (s.rd r).toNat.testBit 31 then s.setFld r 31 31 (bits value 31 31) else s.wrBus r (BitVec.ofNat 64 value)

/-! ### Peer windows (R408) -/

/-- The space and the address that a window access reaches, where the window is open and holds it and lies in its landing area. -/
def State.winAddr (s : State) (n off len : Nat) : Option (Nat × Nat) :=
  let cfg := (s.rd (R.DMA_WIN_CFG n)).toNat
  let space := bits cfg 30 30
  let size := bits cfg 19 0 * 4096
  let base := (s.rd (R.DMA_WIN_BASE n)).toNat
  if n < 16 ∧ cfg.testBit 31 ∧ off + len ≤ size ∧ s.regionOk space base size then some (space, base + off) else none

/-- The header of a reply: window, length, offset (R408). -/
def windowReply (n len off : Nat) (data : Bytes) : Bytes := leBytes 1 n ++ leBytes 1 0 ++ leBytes 4 len ++ leBytes 8 off ++ data

/-- WINDOW_WRITE_RX (R408): the data is written, or a reply without data goes back. -/
def execWindowWriteRx (h : PtlHdr) (payload : Bytes) (s : State) : Host.Outcome State Fault Refusal :=
  .next <| s.onPtl 0 h payload fun b s =>
    let n := leAt b 2 1
    let off := leAt b 8 8
    let data := b.drop 16
    match s.winAddr n off data.length with
    | some a => s.place a.1 a.2 data
    | none => s.control 0x000A (windowReply n data.length off [])

/-- WINDOW_READ_RX (R408): a reply with the data, or without data where the check fails or the source is poisoned. -/
def execWindowReadRx (h : PtlHdr) (payload : Bytes) (s : State) : Host.Outcome State Fault Refusal :=
  .next <| s.onPtl 0 h payload fun b s =>
    let n := leAt b 2 1
    let len := leAt b 4 4
    let off := leAt b 8 8
    match s.winAddr n off len with
    | some a =>
      let data := if s.poisoned a.1 a.2 len then [] else memReadAll 0 (if a.1 = 0 then s.mem.hbm else s.mem.ddr) a.2 len
      s.control 0x000A (windowReply n len off data)
    | none => s.control 0x000A (windowReply n len off [])

/-- The offset in a transfer that an address of a window names. -/
def winOff (addr n off : Nat) : Option Nat := if bits addr 63 60 = n ∧ bits addr 39 0 ≤ off then some (off - bits addr 39 0) else none

/-- A transfer waits for a reply: the chunk of its peer source that it has issued, or a chunk that it wrote to a peer window. -/
def DmaXfer.awaits (x : DmaXfer) (n off : Nat) (data : Bool) : Bool :=
  (bits x.mode 1 0 == 3 && match winOff x.src n off with
    | some o => x.open_ o
    | none => false) ||
  (!data && bits x.mode 3 2 == 3 && match winOff x.dst n off with
    | some o => decide (o < x.issued)
    | none => false)

/-- WINDOW_READ_REPLY_RX (R408, R416): the data of a chunk, or code 8 for a reply without data. -/
def execWindowReadReplyRx (h : PtlHdr) (payload : Bytes) (s : State) : Host.Outcome State Fault Refusal :=
  .next <| s.onPtl 0 h payload fun b s =>
    let n := leAt b 2 1
    let off := leAt b 8 8
    let data := b.drop 16
    match s.dma.find? fun x => x.awaits n off (data != []) with
    | none => s
    | some x =>
      if data = [] then s.dmaErr x.ch x.mode 8
      else
        match winOff x.src n off with
        | some o => s.dmaChunk x o data
        | none => s

end Sys2Proof.Machine
end

