-- ==== Sys2Proof/Machine/Sfl.lean ====
section
/-! DEFINITION. The commands and reads of the system flash (18_system_flash.md R424-R435). -/
namespace Sys2Proof.Machine

/-- A bank programs or erases. -/
def State.bankBusy (s : State) (b : Nat) : Bool := s.sfl.ops.any (·.bank == b)

/-- The bank of a flash address (R421). -/
def bankOf (a : Nat) : Nat := a / 0x20000000

/-! ### Programming and erasing (R427) -/

/-- A command ends or is refused: DONE and ERR. -/
def State.sflEnd (s : State) (bank err : Nat) : State := (s.setFld (R.SFL_B_STATUS bank) 7 4 err).setFld (R.SFL_B_STATUS bank) 1 1 1

/-- The refusal of a host command, 0 where it is accepted; the order of the checks is the model's (DESIGN CHOICE, log 55). -/
def State.sflRefuse (s : State) (bank op : Nat) : Nat :=
  let page := s.fld (R.SFL_B_ADDR bank) 31 12
  if !(s.boot.sessionOpen && s.boot.scope.testBit 0) then 5
  else if page / 0x20000 ≠ bank then 7
  else if page < 64 ∨ sflReserved page then 4
  else if s.bankBusy bank then 6
  else if op = 1 ∧ s.sfl.programmed.contains page then 3
  else 0

/-- A host command of a bank starts, or is refused and leaves the flash unchanged. -/
def State.sflCommand (s : State) (bank op : Nat) : State :=
  if bank ≥ 8 ∨ s.halted then s
  else
    let err := s.sflRefuse bank op
    if err ≠ 0 then s.sflEnd bank err
    else
      let o : SflOp :=
        { bank := bank, op := op, page := s.fld (R.SFL_B_ADDR bank) 31 12
          data := if op = 1 then memReadAll 0 s.sfl.buf (bank * 4096) 4096 else [] }
      { s with sfl.ops := s.sfl.ops ++ [o] }

/-- SFL_PROGRAM (R427). -/
def execSflProgram (bank : Nat) (s : State) : Host.Outcome State Fault Refusal := .next (s.sflCommand bank 1)

/-- SFL_ERASE (R427). -/
def execSflErase (bank : Nat) (s : State) : Host.Outcome State Fault Refusal := .next (s.sflCommand bank 2)

/-- What an operation that has ended leaves in the flash (R427-R429). -/
def State.sflApply (s : State) (o : SflOp) (ok : Bool) : State :=
  let blk := o.page / 64
  if o.op = 1 then
    if ok then (s.sflPut o.page o.data).bump R.SFL_PROG_CNT
    else
      let n := ((findKey Prod.fst blk s.sfl.progFails).map Prod.snd).getD 0 + 1
      let s := s.sflLoose o.page
      let s := { s with sfl.progFails := putKey Prod.fst (blk, n) s.sfl.progFails }
      if n ≥ 2 then s.sflRetire blk else s
  else if ok then (s.sflClear blk).bump R.SFL_ERASE_CNT
  else ((List.range 64).foldl (fun (s : State) i => s.sflLoose (blk * 64 + i)) s).sflRetire blk

/-- SFL_OP_DONE (R427, R431): the operation of a bank ends, with OK or a failure; that of an operation which a reset waits for is kept. -/
def execSflOpDone (bank : Nat) (ok : Bool) (s : State) : Host.Outcome State Fault Refusal :=
  .next <|
    match s.sfl.ops.find? fun o => o.bank == bank with
    | none => s
    | some o =>
      let err := if ok then 0 else o.op
      let s := { s with sfl.ops := s.sfl.ops.filter fun x => x.bank != bank }
      let s := (s.sflApply o ok).sflEnd bank err
      if s.boot.resetReq.isSome then
        s.wr (R.SFL_LAST_HELD bank) (BitVec.ofNat 64 (2 ^ 31 + o.op * 2 ^ 29 + err * 2 ^ 25 + o.page))
      else s

/-! ### Reading (R424-R426, R433) -/

/-- A page read that succeeded at a threshold set is counted (R426). -/
def State.sflLevel (s : State) (page level : Nat) : State :=
  let s := if 1 ≤ level ∧ level ≤ 8 then s.bump (R.SFL_RETRY_LVL_CNT level) else s
  if 5 ≤ level then (s.setFld R.SFL_STATUS 10 10 1).refreshPage page else s

/-- A page read that failed after set 8 (R426). -/
def State.sflUnc (s : State) (page : Nat) : State :=
  ((s.setFld R.SFL_STATUS 9 9 1).bump R.SFL_UNC_CNT).event 0x10 evcUncorrected 3 0 (evAddr 4 (page * 4096))

/-- SFL_APERTURE_READ (R424-R426): a read of 4 or 8 bytes at a BAR0 offset of the aperture. `level` is the threshold set at which the page
decodes, 0 for the first read, above 8 for none. -/
def execSflApertureRead (off size level : Nat) (s : State) : Host.Outcome State Fault Refusal :=
  .next <|
    if off < 0x03100000 ∨ off + size > 0x03200000 then s
    else if !(size == 4 || size == 8) || off % size != 0 then s.emit (.unsupported 0 off size)
    else if s.halted then s.emit (.busRead 0 off size 0)
    else
      let a := (s.fld R.SFL_WIN_BASE 31 20 * 2 ^ 20 + (off - 0x03100000)) % 2 ^ 32
      let page := a / 4096
      if s.bankBusy (bankOf a) then
        ((s.setFld R.SFL_STATUS 8 8 1).bump R.SFL_BUS_FAULT_CNT).emit (.abort 0 off size)
      else if sflKeys page then s.emit (.busRead 0 off size 0)
      else if level > 8 then (s.sflUnc page).emit (.abort 0 off size)
      else (s.sflLevel page level).emit (.busRead 0 off size (leNat (s.sflBytes a size)))

/-- READ_SYSTEM_FLASH (R433). `levels` are the threshold sets at which the pages of the range decode, in order. -/
def execReadSystemFlash (ring slot : Nat) (levels : List Nat) (s : State) : Host.Outcome State Fault Refusal :=
  .next <| s.packet 0xD0 ring slot fun e _ s =>
    let a := e.num 10 4
    let n := e.num 14 4
    if n < 4 ∨ n > 65536 ∨ n % 4 ≠ 0 ∨ a + n > 2 ^ 32 then .fail s stInvalidField
    else
      let p0 := a / 4096
      let pages := (List.range ((a + n - 1) / 4096 + 1 - p0)).map (· + p0)
      if pages.any fun p => sflKeys p || sflReserved p then .fail s 0x0D00
      else if pages.any fun p => s.bankBusy (bankOf (p * 4096)) then .waits
      else
        let lv := (List.range pages.length).zip pages |>.map fun x => (x.2, levels.getD x.1 0)
        let good := lv.takeWhile fun x => decide (x.2 ≤ 8)
        let s := good.foldl (fun (s : State) x => s.sflLevel x.1 x.2) s
        match lv.drop good.length with
        | x :: _ => .done (s.sflUnc x.1) 0x0D01 (leBytes 4 (x.1 * 4096)) []
        | [] => .done s stOk [] (s.sflBytes a n)

end Sys2Proof.Machine
end

