-- ==== Sys2Proof/Machine/Evr.lean ====
section
/-! DEFINITION. The event recorder's flushes, epochs, freezing and reading, and the health record (19_event_recorder.md R436-R455;
12_harvest_health.md R308). -/
namespace Sys2Proof.Machine

/-! ### Records as bytes and pages (R436, R437, R446) -/

/-- The bytes of a record. -/
def EvRec.toBytes (r : EvRec) : Bytes :=
  leBytes 1 (3 + r.items.length) ++ leBytes 1 r.cls ++
    leBytes 1 (r.sev % 16 + 16 * b2n r.sat + 32 * b2n r.held + 64 * b2n r.late + 128 * b2n r.timeInvalid) ++
    leBytes 2 r.rept ++ leBytes 3 r.unit ++ leBytes 8 r.time ++ leBytes 4 r.seq ++ leBytes 1 r.code ++ leBytes 3 0 ++
    r.items.flatMap fun w => leBytes 8 w.toNat

/-- `n` bytes of fill records. -/
def evFillBytes (n : Nat) : Bytes := (List.range (n / 8)).flatMap fun _ => leBytes 8 1

/-- Records laid out in whole pages: the records and the bytes of each. -/
def evPages : List EvRec → List EvRec → Bytes → List (List EvRec × Bytes)
  | [], cur, b => if b = [] then [] else [(cur, b ++ evFillBytes (4096 - b.length))]
  | r :: rs, cur, b =>
    if b.length + r.bytes > 4096 then (cur, b ++ evFillBytes (4096 - b.length)) :: evPages rs [r] r.toBytes
    else evPages rs (cur ++ [r]) (b ++ r.toBytes)

/-- The flash page of page `n` of the circular area: page i of block pair k goes to bank 4 + (i mod 2) (R446). -/
def evFlashPage (n : Nat) : Nat :=
  let k := n / 128 % 2048
  let i := n % 128
  (4 + i % 2) * 0x20000 + k * 64 + i / 2

/-- A block pair of the circular area is erased: its records go (R446). -/
def State.evErasePair (s : State) (k : Nat) : State :=
  let k := k % 2048
  let b4 := 4 * 2048 + k
  let b5 := 5 * 2048 + k
  let used (b : Nat) : Bool := s.sfl.programmed.any fun p => p / 64 == b
  let n := b2n (used b4) + b2n (used b5)
  let s := (((s.sflClear b4).sflClear b5).bumpBy R.SFL_ERASE_CNT n)
  { s with evr.area := s.evr.area.filter fun x => x.1 != k }

/-- One page of a flush is written to the circular area; with the first page of a pair, the pair after the next is erased, unless the view is
frozen (R446, R449). -/
def State.evPage (s : State) (p : List EvRec × Bytes) : State :=
  let n := s.evr.nextPage
  let k := n / 128 % 2048
  let s := if n % 128 = 0 ∧ !s.evr.frozen then s.evErasePair (k + 2) else s
  let s := ((s.sflPut (evFlashPage n) p.2).bump R.SFL_PROG_CNT).bump R.EVR_PAGE_CNT
  { s with evr.area := s.evr.area ++ p.1.map fun r => (k, r), evr.nextPage := (n + 1) % 262144 }

/-! ### The retained area (R448) -/

/-- An EPOCH_OPEN record. -/
def EvRec.opensEpoch (r : EvRec) : Bool := r.cls == 0x14 && r.code == 0x11

/-- Records cut into runs, each of which an EPOCH_OPEN record begins but perhaps the first. -/
def splitEpochs : List EvRec → List EvRec → List (List EvRec)
  | [], cur => [cur]
  | r :: rs, cur => if r.opensEpoch then cur :: splitEpochs rs [r] else splitEpochs rs (cur ++ [r])

/-- A page of a slice is written while the slice has room (R448). -/
def State.slicePage (s : State) (i : Nat) (p : List EvRec × Bytes) : State :=
  match s.evr.slices[i]? with
  | none => s
  | some x =>
    if x.1 + 4096 > 4194304 then { s with evr.sliceOpen := false }
    else
      let s := ((s.sflPut (0x60000 + i * 1024 + x.1 / 4096) p.2).bump R.SFL_PROG_CNT).bump R.EVR_PAGE_CNT
      { s with evr.slices := s.evr.slices.set i (x.1 + 4096, x.2 ++ p.1) }

/-- A run of records goes to the slice of its epoch: a run that an EPOCH_OPEN record begins to the first slice not begun, if there is one. -/
def State.retainRun (s : State) (rs : List EvRec) : State :=
  let begins := (rs.head?.map EvRec.opensEpoch).getD false
  let at_ := if begins then s.evr.slices.findIdx? (fun x => x.2.isEmpty)
    else if s.evr.sliceOpen then some ((s.evr.slices.filter fun x => !x.2.isEmpty).length - 1) else none
  let s := if begins then { s with evr.sliceOpen := at_.isSome } else s
  match at_ with
  | some i => if rs.isEmpty then s else (evPages rs [] []).foldl (fun (s : State) p => s.slicePage i p) s
  | none => s

/-- A log epoch opens: its EPOCH_OPEN record, and the next unused slice; with none left it retains nothing (R448). -/
def State.openEpoch (s : State) (reason : Nat) : State :=
  let n := s.evr.epoch + 1
  let full := decide (s.evr.slices.length ≥ 64)
  let s := { s with evr.epoch := n, evr.slices := if full then s.evr.slices else s.evr.slices ++ [(0, [])] }
  let s := s.event 0x14 0x11 2 0 (evValue n ++ evValue reason)
  if full then s.event 0x14 evcLimit 3 0 (evValue 64) else s

/-! ### Flushes (R445, R446) -/

/-- EVR_FLUSH_TIMER (R445): FLUSH_MS has passed since the oldest record that no flush has taken. -/
def execEvrFlushTimer (s : State) : Host.Outcome State Fault Refusal :=
  .next <| if s.evr.awaitBytes > s.evr.flushBytes then s.flushStart else s

/-- EVR_FLUSH_DONE (R446): the records of the flush are in flash; a noted trigger starts the next flush. -/
def execEvrFlushDone (s : State) : Host.Outcome State Fault Refusal :=
  .next <|
    if !s.evr.flushing then s
    else
      let rs := s.evr.awaiting.take s.evr.flushRecs
      let s := (evPages rs [] []).foldl State.evPage s
      let s := (splitEpochs rs []).foldl State.retainRun s
      let again := s.evr.flushPend
      let s := { s with
        evr.awaiting := s.evr.awaiting.drop s.evr.flushRecs
        evr.awaitBytes := s.evr.awaitBytes - s.evr.flushBytes
        evr.flushing := false
        evr.flushRecs := 0
        evr.flushBytes := 0
        evr.flushPend := false }
      if again then s.flushStart else s.dumpCheck

/-! ### Freezing (R449) -/

/-- A held record is appended at the thaw. -/
def State.thawRec (s : State) (r : EvRec) : State := ((s.appendRec r).notifyRec r.sev).flushTriggers r.sev

/-- The view thaws: the held records are appended, then one FREEZE_SUMMARY record; erases that waited are made (R446, R449). -/
def State.thaw (s : State) : State :=
  if !s.evr.frozen then s
  else
    let held := s.evr.heldRecs
    let dropped := s.evr.frozenDrops
    let s := { s with evr.frozen := false, evr.heldRecs := [], evr.heldBytes := 0, evr.frozenDrops := [] }
    let s := held.foldl State.thawRec s
    let s := s.event 0x14 0x13 2 0 (dropped.flatMap fun c => evCount c (s.rd (R.EVR_DROP_CNT c)).toNat)
    let k := s.evr.nextPage / 128
    if s.evr.nextPage % 128 = 0 then s else (s.evErasePair (k + 1)).evErasePair (k + 2)

/-- EVR_FREEZE_EXPIRY (R449). -/
def execEvrFreezeExpiry (s : State) : Host.Outcome State Fault Refusal := .next s.thaw

/-- AEN_WINDOW_EXPIRY (R454). -/
def execAenWindowExpiry (ctrl typ info : Nat) (s : State) : Host.Outcome State Fault Refusal :=
  let shut : AenSlot → AenSlot := fun a => { a with windowOpen := false }
  .next ({ s with evr.aen := mapIf (fun a => a.is ctrl typ info) shut s.evr.aen }.retryAen ctrl typ info)

/-! ### Reading (R450, R451) -/

/-- The records of an area: circular, from flash and SRAM, or a retained slice. -/
def State.evArea (s : State) (area slice : Nat) : List EvRec :=
  if area = 0 then s.evr.area.map Prod.snd ++ s.evr.awaiting else (s.evr.slices.getD slice (0, [])).2

/-- Records that a read returns: whole ones, up to a length. -/
def evTake : Nat → List EvRec → List EvRec
  | _, [] => []
  | n, r :: rs => if r.bytes ≤ n then r :: evTake (n - r.bytes) rs else []

/-- READ_EVENTS (R450). (DEDUCED, log 57) -/
def execReadEvents (ring slot : Nat) (s : State) : Host.Outcome State Fault Refusal :=
  .next <| s.packet 0xA0 ring slot fun e _ s =>
    let area := e.num 10 1
    let sl := e.num 11 1
    let from_ := e.num 14 4
    let n := e.num 18 4
    if area > 1 ∨ sl > 63 ∨ (area = 0 ∧ sl ≠ 0) ∨ !e.zero 12 2 ∨ n < 64 ∨ n > 65536 then .fail s stInvalidField
    else if (if area = 0 then [4, 5] else [3]).any s.bankBusy then .waits
    else
      let rs := s.evArea area sl
      let oldest := (rs.head?.map EvRec.seq).getD 0
      let newest := (rs.getLast?.map EvRec.seq).getD 0
      if !rs.isEmpty && serialAfter 32 from_ oldest then .done s 0x0E00 (leBytes 8 0 ++ leBytes 4 oldest) []
      else
        let out := evTake n (rs.filter fun r => !serialAfter 32 r.seq from_)
        match s.fresh with
        | (v, t) =>
          let s := if out.isEmpty then t else s
          let first := match out.head? with
            | some r => r.seq
            | none => v.toNat % 2 ^ 32
          let next := match out.getLast? with
            | some r => (r.seq + 1) % 2 ^ 32
            | none => from_
          .done s stOk (leBytes 4 first ++ leBytes 4 next ++ leBytes 4 oldest ++ leBytes 4 newest) (out.flatMap EvRec.toBytes)

/-- FREEZE_EVENTS (R449, R451). -/
def execFreezeEvents (ring slot : Nat) (s : State) : Host.Outcome State Fault Refusal :=
  .next <| s.packet 0xA1 ring slot fun e _ s =>
    let act := e.num 10 1
    if act > 1 ∨ !e.zero 11 3 then .fail s stInvalidField
    else if act = 1 ∧ s.evr.frozen then .fail s 0x0E01
    else if act = 0 ∧ !s.evr.frozen then .fail s 0x0E03
    else
      let s := if act = 1 then { s with evr.frozen := true } else s.thaw
      .done s stOk (leBytes 4 s.evr.seq) []

/-- OPEN_LOG_EPOCH (R448, R451); the session must cover log epochs (21_startup_security.md R500). -/
def execOpenLogEpoch (ring slot : Nat) (s : State) : Host.Outcome State Fault Refusal :=
  .next <| s.packet 0xA2 ring slot fun _ _ s =>
    if !s.boot.scope.testBit 1 then .fail s stAccessLocked
    else if s.evr.slices.length ≥ 64 then .fail s 0x0E02
    else .done (s.openEpoch 2) stOk [] []

/-! ### Start-up (R441, R447) -/

/-- The highest event sequence found in flash: that of the last record there, 0 where there is none. -/
def State.evHighest (s : State) : Nat :=
  match s.evr.area.getLast? with
  | some x => x.2.seq
  | none => 0

/-- The START record of a start-up; after a power-on reset the series resumes 65,536 above what flash holds (R441). -/
def State.evStart (s : State) (cause : Nat) (powerOn : Bool) : State :=
  let top := s.evHighest
  let s := if powerOn then { s with evr.seq := if s.evr.area.isEmpty then 0 else (top + 65535) % 2 ^ 32 } else s
  s.event 0x14 0x10 1 0 (evSeq 1 top ++ evValue cause)

/-! ### The health record (12_harvest_health.md R308) -/

/-- The health fields are written to the HEALTH log. -/
def State.saveHealth (s : State) : State := { s.noteRecord 4 with sfl.health := some s.ftl.health }

/-- HEALTH_RECORD_TIMER (R308). -/
def execHealthRecordTimer (s : State) : Host.Outcome State Fault Refusal := .next s.saveHealth

end Sys2Proof.Machine
end

