-- ==== Sys2Proof/Machine/Ctl.lean ====
section
/-! DEFINITION. The control rings' commands, the pool and its volumes (20_control_packets.md R457-R460, R470, R474-R477). -/
namespace Sys2Proof.Machine

/-! ### Rings -/

/-- The doorbell of a ring is dropped (R458). -/
def State.dropDoorbell (s : State) (ring value : Nat) : State :=
  (s.bump R.CTL_DB_DROP_CNT).event 0x01 evcDropped 3 0x100030 (evAddr 8 ((R.CTL_RING_DB ring).addr - 2 ^ 32) ++ evValue value)

/-- RING_DOORBELL (R458): the entries from the old posted tail up to the new one are posted and fetched; `entries` is what host memory
holds in them. -/
def execRingDoorbell (ring value : Nat) (entries : List Bytes) (s : State) : Host.Outcome State Fault Refusal :=
  .next <|
    if ring > 3 then s
    else
      let r := s.ring ring
      let n := (value % 256 + 256 - r.postedTail) % 256
      let slots := (List.range n).map fun i => (r.postedTail + i) % 256
      if r.state ≠ .running ∨ !s.ctl.ready ∨ (slots.any r.owned.contains) = true then s.dropDoorbell ring value
      else
        let new := (List.range n).map fun i => Entry.mk ((r.postedTail + i) % 256) (r.nextNo + i) (slice (entries.getD i []) 0 64)
        (s.setRing ring { r with postedTail := value % 256, nextNo := r.nextNo + n, posted := r.posted ++ new }).fetchRing ring

/-- A write of CTL_RING_CFG (R470, R481). -/
def State.ringCfg (s : State) (ring value : Nat) : State :=
  if ring > 3 ∨ (value.testBit 30 = true ∧ value % 2048 = 0) then s
  else
    let r := s.ring ring
    let put (s : State) : State := s.wrBus (R.CTL_RING_CFG ring) (BitVec.ofNat 64 value)
    if value.testBit 31 then
      match r.state with
      | .draining => s
      | .running => put s
      | .disabled => ((put s).wr (R.CTL_RING_RPL_HEAD ring) 0).setRing ring { Ring.reset with state := .running, nextNo := r.nextNo }
    else if r.state = .running then (put s).setRing ring { r with state := .draining, posted := [] }
    else put s

/-- RING_ENABLE (R470). -/
def execRingEnable (ring value : Nat) (s : State) : Host.Outcome State Fault Refusal := .next (s.ringCfg ring value)

/-- RING_DISABLE (R470): posted entries that have not been fetched are given up without a reply. -/
def execRingDisable (ring value : Nat) (s : State) : Host.Outcome State Fault Refusal := .next (s.ringCfg ring value)

/-- RING_DRAIN_DONE (R470): the device owns no entry of a DRAINING ring and every reply is visible. -/
def execRingDrainDone (ring : Nat) (s : State) : Host.Outcome State Fault Refusal :=
  .next <|
    let r := s.ring ring
    if ring ≤ 3 ∧ r.state = .draining ∧ r.drained = true then s.setRing ring { r with state := .disabled } else s

/-- Replies that are held for reply space are written as far as there is room; `n` bounds the run. -/
def State.releaseHeld (s : State) (ring : Nat) : Nat → State
  | 0 => s
  | n + 1 =>
    match (s.ring ring).held with
    | [] => s
    | p :: t =>
      if s.rplFull ring then s else ((s.setRing ring { s.ring ring with held := t }).putReply ring p).releaseHeld ring n

/-- RPL_HEAD_WRITE (R459). -/
def execRplHeadWrite (ring value : Nat) (s : State) : Host.Outcome State Fault Refusal :=
  .next <|
    if ring > 3 then s
    else
      let s := s.wrBus (R.CTL_RING_RPL_HEAD ring) (BitVec.ofNat 64 value)
      let s := s.releaseHeld ring (s.ring ring).held.length
      (s.settle ring (s.ring ring).fetched.length).fetchRing ring

/-- NOP (R477). -/
def execNop (ring slot : Nat) (s : State) : Host.Outcome State Fault Refusal :=
  .next <| s.packet 0x01 ring slot fun _ _ s => .done s stOk (leBytes 8 s.ctl.beat) []

/-! ### The pool (R474) -/

/-- A pool has been created: both journals begin, the memory splits are sampled and locked, the dump key is made, the anchor of this head's
journal is placed and a log epoch opens (R474; 00_scope.md R11; 11_flash_translation.md R283; 16_memory_cache.md R394). -/
def State.startPool (s : State) : State :=
  let fresh (role : Nat) : Journal :=
    { role := role, jseq := 0, durable := 0, sub := 0, indexSeq := 0, indexAt := 0, lastTop := 0, tip := 0, rootS0 := 0, ckptNum := 0, ckpts := [], dir := []
      root := [], anchors := [], gen := s.pool.gen, genPast := [] }
  let s := { s with
    ftl.journals := [fresh 0, fresh 1]
    mem.hbmSplit := (s.rd R.MEM_HBM_SPLIT).toNat
    mem.ddrSplit := (s.rd R.MEM_DDR_SPLIT).toNat
    mem.lock := true
    brn.dumpEpoch := 0
    boot.stage := if s.boot.stage = 4 ∨ s.boot.stage = 5 then 6 else s.boot.stage }
  let s := ((s.newDumpKey).putRoot s.role ⟨0, 0, 0, []⟩).askReserves s.role
  s.openEpoch 1

/-- The peer in service has a pool loaded. -/
def State.peerHasPool (s : State) : Bool :=
  s.peerInService && match s.pair.hello with
    | some h => !allZero h.poolId
    | none => false

/-- A new pool with its PWK and POOL_ID, both random, its metadata page and codec generation 3 (20_control_packets.md R474). -/
def State.formPool (s : State) (kp : Nat) : State :=
  match s.drbgBytes 32 with
  | (k, s) =>
    match s.drbgBytes 16 with
    | (id, s) => { s with
      keys.pwk := some k, keys.pwkStored := some (Config.keyWrap Config.deviceKey k)
      pool.loaded := true, pool.id := id, pool.mdKey := kp, pool.gen := 3 }

/-- The new pool's keys and record go to the journal and to a peer in service. -/
def State.sharePool (s : State) : State :=
  let s := if s.peerInService then s.sendKey else s
  let s := s.keys.pageStore.foldl State.storePage s
  let s := s.keys.slotStore.foldl State.storeSlot s
  s.placeCfg s.pool.record

/-- CREATE_POOL (R474). Where the entropy source fails its tests no key and no pool is created (09_cipher_digest.md R210). -/
def execCreatePool (ring slot : Nat) (entropyOk : Bool) (s : State) : Host.Outcome State Fault Refusal :=
  .next <| s.packet 0x08 ring slot fun e _ s =>
    let kp := e.num 10 2
    if !e.zero 12 2 ∨ s.rootPan.isNone ∨ s.pool.loaded ∨ s.peerHasPool ∨ kp > 4095 ∨ !(s.kpage kp).mediaKey then .fail s stInvalidField
    else if s.pair.state ≠ .paired ∧ s.pair.state ≠ .solo then .fail s stBusy
    else if !entropyOk then .fail s stUnitFailed
    else
      let t := s.formPool kp
      .startDone ((t.noteRecord 1).startPool).sharePool t.pool.id []

/-- CONFIG_RECORD_RX (15_pair_operation.md R364; 10_media_units_pans.md R257): the record is applied at once, for the entries after its place in
the sender's journal, and, where it is shared, written into the own journal, whose entries from here on a generation record counts for
(08_compression.md R193). The record of a new pool starts this head's journal as well (R474). -/
def execConfigRecordRx (h : PtlHdr) (payload : Bytes) (s : State) : Host.Outcome State Fault Refusal :=
  .next <| s.onPtl 0 h payload fun b s =>
    let r := b.drop 10
    let new := decide (leAt r 0 1 = cfgPool) && !s.pool.loaded
    let s := s.applyCfg (1 - s.role) (leAt b 2 8) r
    let s := if new then s.startPool else s
    if !(s.pool.loaded && cfgShared r) then s
    else (if leAt r 0 1 = cfgGen then s.setGen s.role s.own.jseq (leAt r 1 1) else s).placeRec s.role 0x03 0 r

/-! ### Volumes (R475, R476) -/

/-- CREATE_VOLUME (R475). The admission settings that a new volume starts with beside MODE 0
(FLAGS 0, CLIENT_ALLOW 1, no budget, no limit in flight) are the model's (DESIGN CHOICE, log 116). -/
def execCreateVolume (ring slot : Nat) (s : State) : Host.Outcome State Fault Refusal :=
  .next <| s.packet 0x45 ring slot fun e p s =>
    let nsid := e.num 10 4
    let ana := e.num 16 2
    let kp := e.num 18 2
    let nsze := e.num 20 8
    let attach := e.num 15 1 == 1
    if 1 ≤ ana ∧ ana ≤ 1024 ∧ !s.ownsGroup ana then .fail s stNotOwner
    else if !s.pool.loaded ∨ nsid < 1 ∨ nsid > 65536 ∨ (s.vol? nsid).isSome ∨ e.num 14 1 > 1 ∨ e.num 15 1 > 1 ∨ ana < 1 ∨ ana > 1024 ∨ kp > 4095 ∨
        !(s.kpage kp).mediaKey ∨ nsze < 4 ∨ nsze > 2 ^ 40 ∨ nsze % 4 ≠ 0 then .fail s stInvalidField
    else if s.moving ana then .fail s stBusy
    else if s.pool.volumes.length ≥ 65536 then .fail s stNoResource
    else if s.snap.gone.any (·.nsid == nsid) then .waits
    else
      let v : Volume :=
        { nsid := nsid, lbaf := e.num 14 1, attached := attach, ana := ana, homeKey := kp, domain := 0, nsze := nsze, mode := 0, flags := 0
          clientAllow := 1, budget := 0, maxInflight := 0, cgroup := 0 }
      let g := s.group ana
      let s := if s.groupEmpty ana && g.owner != s.role then
          let g := { g with owner := s.role }
          (s.putGroup g).placeCfg g.record
        else s
      let s := (s.storeVol v).putMap { nsid := nsid, snap := none, pages := [] }
      (if attach then s.nsChanged else s).cfgDone p []

/-- DELETE_VOLUME (R476; 14_snapshots_replication.md R342). -/
def execDeleteVolume (ring slot : Nat) (s : State) : Host.Outcome State Fault Refusal :=
  .next <| s.packet 0x46 ring slot fun e p s =>
    match s.vol? (e.num 10 4) with
    | none => .fail s stInvalidField
    | some v =>
      let replicated := s.snap.sessions.any fun x => (s.scopeVols x.scope x.obj).contains v.nsid
      if !s.ownsGroup v.ana then .fail s stNotOwner
      else if s.moving v.ana ∨ v.attached ∨ v.cgroup ≠ 0 ∨ replicated then .fail s stBusy
      else
        let s := s.dropEpochs v.nsid false
        let s := s.placeCfg (leBytes 1 cfgVolumeGone ++ leBytes 4 v.nsid)
        let s := { s with
          pool.volumes := dropKey Volume.nsid v.nsid s.pool.volumes
          snap.gone := s.snap.gone ++ [v] }
        (s.placeAct (.drop v.nsid none false)).cfgDone p []

/-- ATTACH_VOLUME (R476): a detach replies once the volume's commands in flight have completed. -/
def execAttachVolume (ring slot : Nat) (s : State) : Host.Outcome State Fault Refusal :=
  .next <| s.packet 0x47 ring slot fun e p s =>
    let act := e.num 14 1
    match s.vol? (e.num 10 4) with
    | none => .fail s stInvalidField
    | some v =>
      if !s.ownsGroup v.ana then .fail s stNotOwner
      else if act > 1 ∨ !e.zero 15 3 then .fail s stInvalidField
      else if s.moving v.ana then .fail s stBusy
      else
        let same := v.attached == (act == 1)
        let s := if same then s else (s.storeVol { v with attached := act == 1 }).nsChanged
        if act = 0 ∧ (s.hq.cmds.any fun c => c.nsid == v.nsid) = true then
          .quiet { s with ctl.detaches := s.ctl.detaches ++ [(v.nsid, p)] }
        else if same then .done s stOk [] []
        else s.cfgDone p []

end Sys2Proof.Machine
end

