-- ==== Sys2Proof/Machine/Power.lean ====
section
/-! DEFINITION. Power domains, monitors, critical conditions and the power-fail pin (22_power_electrical.md R505-R517, R522). -/
namespace Sys2Proof.Machine

/-! ### Power domains (R505, R506) -/

/-- The bookable resource of a domain, if it has one (R37, R506). -/
def domainRsrc (d : Nat) : Option (Rsrc × Nat) :=
  if d = 2 then some (.icl, 0)
  else if 3 ≤ d ∧ d ≤ 18 then some (.egress, d - 3)
  else if 19 ≤ d ∧ d ≤ 50 then some (.mport, d - 19)
  else if 63 ≤ d ∧ d ≤ 70 then some (.comp, 0)
  else if 71 ≤ d ∧ d ≤ 74 then some (.decomp, 0)
  else if 75 ≤ d ∧ d ≤ 78 then some (.digest, 0)
  else if 79 ≤ d ∧ d ≤ 82 then some (.cipher, 0)
  else if 83 ≤ d ∧ d ≤ 84 then some (.erasure, 0)
  else if d = 95 then some (.classifier, 0)
  else none

/-- The cluster in a domain, if it holds one (R23). -/
def domainCluster (d : Nat) : Option Nat := if 63 ≤ d ∧ d ≤ 88 then some (d - 63) else none

/-- A domain's resources hold deadline bookings in the current slot or later (03_sluice.md R62). -/
def State.domainBooked (s : State) (d : Nat) : Bool :=
  match domainRsrc d with
  | none => false
  | some (r, i) => s.tide.table.any fun b =>
      b.rsrc == r && b.idx == i && b.cmd != 0 && decide (b.slot + (if b.far then 63 else 0) ≥ s.slot)

/-- The domain holds the last LLC slice group that is on, the last control cluster in service, or the last cluster of an engine while a pool is
loaded; the grain classifier is read as the only cluster of its engine (R506; DEDUCED, log 58). -/
def State.domainLast (s : State) (d : Nat) : Bool :=
  if 51 ≤ d ∧ d ≤ 62 then (List.range 12).all fun i => 51 + i == d || s.pwr.off.contains (51 + i)
  else
    match domainCluster d with
    | some c =>
      let e := clusterEngine c
      (s.clustersUp e).all (· == c) && (e == 6 || s.pool.loaded)
    | none => d == 95 && s.pool.loaded

/-- A cluster leaves service: the segments it runs finish, and what is queued for it moves to another cluster, with the streams (R506). -/
def State.leaveCluster (s : State) (c : Nat) : State :=
  let s := s.setUnitState (unitId 3 c) .offline 0
  let dst := (s.coresUp (clusterEngine c)).headD 0
  let moveCtx (x : EngCtx) : EngCtx := { x with cluster := coreCluster dst }
  { s with
    keys.ctxs := mapIf (fun (x : EngCtx) => x.engine == clusterEngine c && x.cluster == c) moveCtx s.keys.ctxs }.fillEngine (clusterEngine c)

/-- The units of a domain leave service before its switch opens (R506): the state, or the status that refuses. A media port that is not in service
has nothing to leave (DEDUCED, log 58). -/
def State.domainOut (s : State) (d : Nat) : Except Nat State :=
  if 3 ≤ d ∧ d ≤ 18 then .ok ((s.ethOff (d - 3)).setUnitState (unitId 1 (d - 3)) .offline 0)
  else if d = 2 then .ok (s.iclDown.setUnitState iclUnit .offline 0)
  else if 19 ≤ d ∧ d ≤ 50 then
    let n := d - 19
    let u := unitId 1 (16 + n)
    let t := if s.ust u = .online then s.takeOut u else s
    if s.newlyFailed t then .error 0x0806 else .ok (t.putMod { t.mod n with up := false, power := 0 })
  else if 51 ≤ d ∧ d ≤ 62 then
    .ok { s.llcLeave (fun _ => true) with
      mem.rehash := true
      mem.slices := s.mem.slices.filter (fun (x : LlcSlice) => x.idx / 4 != d - 51) }
  else
    match domainCluster d with
    | some c => .ok (s.leaveCluster c)
    | none => .ok (if d = 95 then s.setUnitState 0x200005 .offline 0 else s)

/-- The counter copies of an Ethernet port return to 0 when its domain is switched on again (01_architecture.md R524). -/
def State.clearCopies (s : State) (d : Nat) : State :=
  if 3 ≤ d ∧ d ≤ 18 then
    let lo := 0x00A10000 + 0x100 * (d - 3)
    { s with regs := s.regs.filter fun p => !(decide (lo ≤ p.1) && decide (p.1 < lo + 0x100)) }
  else s

/-- The registers of a domain come up again: LLC_WAY_OFF as the settings image gives it (R505, R491). -/
def State.domainRegs (s : State) (d : Nat) : State :=
  if 51 ≤ d ∧ d ≤ 62 then
    let g := 4 * (d - 51)
    let s := [g, g + 1, g + 2, g + 3].foldl (fun (s : State) i => s.wr (R.LLC_WAY_OFF i) (R.LLC_WAY_OFF i).reset) s
    (s.boot.settings.filter fun e => decide ((R.LLC_WAY_OFF g).addr ≤ e.1) && decide (e.1 < (R.LLC_WAY_OFF g).addr + 16)).foldl
      (fun (s : State) e => s.llcWayOff ((e.1 - (R.LLC_WAY_OFF 0).addr) / 4) e.2) s
  else s

/-- The units of a domain that is ready serve again; a media port waits for SET_UNIT_SERVICE (R505; DEDUCED, log 58). -/
def State.domainIn (s : State) (d : Nat) : State :=
  let up (s : State) (u : Nat) : State := if s.ust u = .offline then s.setUnitState u .online 0 else s
  if 3 ≤ d ∧ d ≤ 18 then up s (unitId 1 (d - 3))
  else if d = 2 then up s iclUnit
  else if 51 ≤ d ∧ d ≤ 62 then { s.llcLeave (fun _ => true) with mem.rehash := true }
  else
    match domainCluster d with
    | some c => (up s (unitId 3 c)).fillEngine (clusterEngine c)
    | none => if d = 95 then up s 0x200005 else s

/-- SET_POWER_DOMAIN (R506): the reply comes once the domain is off, or once it is READY. -/
def execSetPowerDomain (ring slot : Nat) (s : State) : Host.Outcome State Fault Refusal :=
  .next <| s.packet 0xA3 ring slot fun e p s =>
    let d := unitIndex e.target
    let act := e.num 10 1
    if act > 1 ∨ !e.zero 11 3 ∨ d ≤ 1 ∨ (89 ≤ d ∧ d ≤ 94) then .fail s stInvalidField
    else if s.pwr.waiting.any (fun w => w.1 == d) then .fail s stBusy
    else if act = 1 then
      if !s.pwr.off.contains d then .done s stOk [] []
      else
        let s := (s.bump R.PWR_SWITCH_CNT).clearCopies d
        .quiet { s with
          pwr.off := s.pwr.off.filter (· != d)
          pwr.notReady := s.pwr.notReady ++ [d]
          pwr.waiting := s.pwr.waiting ++ [(d, p)] }
    else if s.pwr.off.contains d then .done s stOk [] []
    else if s.domainBooked d ∨ s.domainLast d ∨ (d = 2 ∧ s.pair.state = .paired) then .fail s stBusy
    else
      match s.domainOut d with
      | .error st => .fail s st
      | .ok s =>
        let s := { s with pwr.off := s.pwr.off ++ [d] }.bump R.PWR_SWITCH_CNT
        .done s.afterUnits stOk [] []

/-- POWER_DOMAIN_READY (R505): the settings of the domain are applied again and its READY bit is set. -/
def execPowerDomainReady (domain : Nat) (s : State) : Host.Outcome State Fault Refusal :=
  .next <|
    if !s.pwr.notReady.contains domain then s
    else
      let s := s.domainRegs domain
      let s := { s with pwr.notReady := s.pwr.notReady.filter (· != domain) }.domainIn domain
      let ps := (s.pwr.waiting.filter fun w => w.1 == domain).map Prod.snd
      let s := { s with pwr.waiting := s.pwr.waiting.filter fun w => w.1 != domain }
      ps.foldl (fun (s : State) p => s.finish p stOk [] []) s

/-- 96 domains as 12 bytes. -/
def domainBits (p : Nat → Bool) : Bytes := leBytes 12 (sumOf ((List.range 96).map fun d => b2n (p d) * 2 ^ d))

/-- A signed number in `n` bytes. -/
def leInt (n : Nat) (v : Int) : Bytes := leBytes n (v % 2 ^ (8 * n)).toNat

/-- The 256 bytes of GET_POWER_STATUS (R517). -/
def State.powerStatus (s : State) : Bytes :=
  domainBits (fun d => !s.pwr.off.contains d) ++ domainBits (fun d => !s.domainOff d) ++ leBytes 8 0 ++
    (s.pwr.rails.flatMap fun v => leBytes 2 v) ++ leBytes 14 0 ++ (s.pwr.temps.flatMap fun t => leInt 2 t) ++
    leBytes 4 s.pwr.totalMw ++ leBytes 60 0

/-- GET_POWER_STATUS (R517). -/
def execGetPowerStatus (ring slot : Nat) (s : State) : Host.Outcome State Fault Refusal :=
  .next <| s.packet 0xA4 ring slot fun _ _ s => .done s stOk [] s.powerStatus

/-- The 8 bytes of one entry of GET_CABLES (R517). -/
def State.cableEntry (s : State) (n : Nat) : Bytes :=
  match findKey Prod.fst n s.pwr.cables with
  | some c => leBytes 4 c.2.1 ++ leBytes 2 c.2.2 ++ [1, 0]
  | none => leBytes 8 0

/-- GET_CABLES (R517). -/
def execGetCables (ring slot : Nat) (s : State) : Host.Outcome State Fault Refusal :=
  .next <| s.packet 0xA5 ring slot fun _ _ s => .done s stOk [] ((List.range 17).flatMap s.cableEntry)

/-! ### Critical conditions and the power-fail pin (R511, R514) -/

/-- The resource that a command misses its deadline on when engines stop: one of the engines that it is booked on, which one is free; none where it
is booked on none (03_sluice.md R63 to R65; DESIGN CHOICE, log 31). -/
def State.missEngine (s : State) (c : Cmd) (v : Nat) : Nat :=
  let rs := (s.tide.table.filter fun b => b.cmd == c.id && decide (5 ≤ b.rsrc.code) && decide (b.rsrc.code ≤ 10)).map fun b => b.rsrc.code
  rs.getD (v % rs.length) 0

/-- A critical condition (R514): admitted commands end under cause 0x08, the head stops serving; PAIRED it leaves the pair with `cause`, SOLO it
runs the dump and holds. The resource that the miss names is not stated (a free value, log 59); SUSPECT acts as PAIRED (DEDUCED, log 59). -/
def State.critical (s : State) (cause : Nat) : State :=
  if s.pwr.critical then s
  else
    match s.fresh with
    | (v, s) =>
      let s := { s with pwr.critical := true }
      let s := s.admitted.foldl (fun (s : State) c => s.missCmd c (s.missEngine c v.toNat) 8) s
      let s := ((s.hq.cmds.filter fun c => c.missed.isNone).map Cmd.id).foldl (fun (s : State) id => (s.discardCmd id).dropIo id) s
      let s := if s.peerInService then
          let s := s.sendLeave cause
          { s with pair.state := PairSt.down }
        else if s.pair.state = .solo then { s with pwr.holding := true }.startDump.flushStart.dumpCheck
        else s
      s.anaChanged

/-- PFAIL_ASSERT (R511; 06_brine_write_path.md R148; 19_event_recorder.md R445, R449; 12_harvest_health.md R308): the dump and the flush begin,
a freeze ends, a session ends, the health record is written. -/
def execPfailAssert (s : State) : Host.Outcome State Fault Refusal :=
  .next <|
    let s := s.bump R.PWR_PFAIL_CNT
    if s.pwr.pfail then s
    else
      let s := { s with pwr.pfail := true }.endSession
      let s := s.startDump
      (((s.thaw).flushStart).saveHealth).dumpCheck

/-- DUMP_COMPLETE (R511): the dump with its headers has been written. -/
def execDumpComplete (s : State) : Host.Outcome State Fault Refusal := .next s.endDump.dumpCheck

/-! ### Rails (R508, R512) -/

/-- Nominal voltages in mV, in the order of R508. -/
def railNominal : List Nat := [800, 1800, 750, 850, 1800, 1100, 1100, 900, 1200]
/-- Operating tolerances in percent. -/
def railTolerance : List Nat := [3, 5, 3, 3, 5, 3, 3, 2, 2]

/-- `sum` of `n` samples lies within `lo` percent below and `hi` percent above nominal. -/
def railWithin (nom sum n lo hi : Nat) : Bool :=
  decide (100 * sum ≥ n * nom * (100 - lo)) && decide (100 * sum ≤ n * nom * (100 + hi))

/-- A rail's latest reading is within its operating tolerance (R508, R522). -/
def State.railGood (s : State) (r : Nat) : Bool :=
  let tol := railTolerance.getD r 0
  railWithin (railNominal.getD r 0) (s.pwr.rails.getD r 0) 1 tol tol

/-- The monitor of a rail. -/
def State.railMon (s : State) (r : Nat) : RailMon :=
  (findKey RailMon.idx r s.pwr.railMon).getD
    { idx := r, last := [], warn := false, crit := false, erase := false, calmWarn := 0, calmCrit := 0, calmErase := 0 }

/-- The limit that a mean has left, in mV: the one below nominal, or the one above. -/
def railLimit (nom mean pct : Nat) : Nat := if mean < nom then nom * (100 - pct) / 100 else nom * (100 + pct) / 100

/-- A level with its calm count after a mean: it sets when crossed, and clears after 1,000 samples (1 ms) within the next lower level (R512). -/
def levelStep (on crossed calmNow : Bool) (calm : Nat) : Bool × Nat :=
  if crossed then (true, 0)
  else if !on then (false, 0)
  else if !calmNow then (true, 0)
  else if calm + 1 ≥ 1000 then (false, 0)
  else (true, calm + 1)

/-- The key-erase condition of the rails, or of the sensors, drives its source of R231: bit `src` of what asserts follows `now`. -/
def State.eraseSource (s : State) (src : Nat) (now : Bool) : State :=
  if !now then { s with keys.asserted := putBits s.keys.asserted src src 0 }
  else if s.keys.asserted.testBit src then s
  else { s with keys.asserted := putBits s.keys.asserted src src 1 }.raiseAlarm src false

/-- One rail is judged with a new sample `v` (R512). WARN clears within the operating tolerance (DEDUCED, log 60). -/
def State.railStep (s : State) (r v : Nat) : State :=
  let nom := railNominal.getD r 0
  let tol := Nat.min 4 (railTolerance.getD r 0)
  let m := s.railMon r
  let last := (v :: m.last).take 4
  let full := decide (last.length = 4)
  let sum := sumOf last
  let inW := railWithin nom sum 4 4 4
  let inC := railWithin nom sum 4 7 7
  let w := levelStep m.warn (full && !inW) (full && railWithin nom sum 4 tol tol) m.calmWarn
  let c := levelStep m.crit (full && !inC) (full && inW) m.calmCrit
  let e := levelStep m.erase (!railWithin nom v 1 15 12) (full && inC) m.calmErase
  let n : RailMon :=
    { idx := r, last := last, warn := w.1, crit := c.1, erase := e.1, calmWarn := w.2, calmCrit := c.2, calmErase := e.2 }
  let s := { s with pwr.railMon := putKey RailMon.idx n s.pwr.railMon }
  let mean := sum / 4
  let s := if w.1 && !m.warn then
      (s.bump R.PWR_RAIL_WARN_CNT).event 0x11 evcThreshold 3 0 (evValue mean ++ evValue (railLimit nom mean 4))
    else s
  if c.1 && !m.crit then
    (s.alarm 2 0x11 evcThreshold 0 (evValue mean ++ evValue (railLimit nom mean 7) ++ evValue r)).critical 0x12
  else s

/-- RAIL_SAMPLE (R512): the nine rails in mV and the package power. -/
def execRailSample (values : List Nat) (power : Nat) (s : State) : Host.Outcome State Fault Refusal :=
  .next <|
    let s := { s with pwr.rails := (List.range 9).map fun r => values.getD r 0 % 65536, pwr.totalMw := power % 2 ^ 32 }
    let s := (List.range 9).foldl (fun (s : State) r => s.railStep r (s.pwr.rails.getD r 0)) s
    s.eraseSource 0 (s.pwr.railMon.any RailMon.erase)

/-! ### Temperatures (R513) -/

/-- How much lower the thresholds of a sensor are: 10 °C for those in the HBM stacks. -/
def tempLower (i : Nat) : Int := if i ≥ 56 then 40 else 0

/-- A level of a sensor after a reading: it sets at its threshold and clears 5 °C below. (DESIGN CHOICE, log 96) -/
def tempLevel (on : Bool) (t thr : Int) : Bool := decide (t ≥ thr) || (on && decide (t > thr - 20))

/-- The levels of a sensor. -/
def State.tempMon (s : State) (i : Nat) : TempMon :=
  (findKey TempMon.idx i s.pwr.tempMon).getD { idx := i, warn := false, thr := false, crit := false, erase := false }

/-- One sensor is judged with a new reading (R513). -/
def State.tempStep (s : State) (i : Nat) (t : Int) : State :=
  let low := tempLower i
  let m := s.tempMon i
  let n : TempMon :=
    { idx := i, warn := tempLevel m.warn t (400 - low), thr := tempLevel m.thr t (440 - low), crit := tempLevel m.crit t (480 - low)
      erase := tempLevel m.erase t 540 }
  let s := { s with pwr.tempMon := putKey TempMon.idx n s.pwr.tempMon }
  let s := if n.warn && !m.warn then
      let s := (s.bump R.PWR_TEMP_WARN_CNT).event 0x11 evcThreshold 3 0 (evValueS t ++ evValueS (400 - low))
      s.warnOn 1
    else s
  if n.crit && !m.crit then
    (s.alarm 1 0x11 evcThreshold 0 (evValueS t ++ evValueS (480 - low) ++ evValue i)).critical 0x11
  else s

/-- TEMP_SAMPLE (R513): the 64 sensors in units of 0.25 °C. -/
def execTempSample (values : List Int) (s : State) : Host.Outcome State Fault Refusal :=
  .next <|
    let ts := (List.range 64).map fun i => values.getD i 0
    let hot := ts.foldl max (ts.headD 0) / 4
    let cold := ts.foldl min (ts.headD 0) / 4
    let s := { s with
      pwr.temps := ts
      ftl.health.tempMax := if s.ftl.health.tempSeen then max s.ftl.health.tempMax hot else hot
      ftl.health.tempMin := if s.ftl.health.tempSeen then min s.ftl.health.tempMin cold else cold
      ftl.health.tempSeen := true }
    let s := (List.range 64).foldl (fun (s : State) i => s.tempStep i (ts.getD i 0)) s
    let thr := s.pwr.tempMon.any TempMon.thr
    let s := if thr && !s.pwr.throttle then s.bump R.PWR_THROTTLE_CNT else s
    let s := { s with pwr.throttle := thr }
    let s := if s.pwr.tempMon.any TempMon.warn then s else s.warnOff 1
    s.eraseSource 2 (s.pwr.tempMon.any TempMon.erase)

/-- The bin of a temperature in quarters of a degree (12_harvest_health.md R308). -/
def tempBin (t : Int) : Nat := Nat.min 63 ((t + 80) / 8).toNat

/-- TEMP_BIN_TICK (12_harvest_health.md R307, R308): the counts of minutes. -/
def execTempBinTick (s : State) : Host.Outcome State Fault Refusal :=
  .next <|
    let t := s.hottest s.pwr.temps
    let b := tempBin t
    let h := s.ftl.health
    { s with ftl.health := { h with
        tempBins := h.tempBins.set b (h.tempBins.getD b 0 + 1)
        warnMin := h.warnMin + b2n (decide (toKelvin t > 373))
        critMin := h.critMin + b2n (decide (toKelvin t > 383))
        busyMin := h.busyMin + b2n (h.ioSeen || !s.hq.cmds.isEmpty)
        ioSeen := false
        powerMin := h.powerMin + 1 } }

/-! ### Reference clocks (R515) -/

/-- What a lost reference clock takes down (R515): 0 SYS_REFCLK, 1 to 4 ETH_REFCLK, 5 HOST_REFCLK, 6 ICL_REFCLK, 7 to 10 MED_REFCLK,
11 SYNC_10M. -/
def State.clockDown (s : State) (clock : Nat) : State :=
  if clock = 0 then s.eraseSource 1 true
  else if clock ≤ 4 then ((List.range 4).map fun i => 4 * (clock - 1) + i).foldl State.ethOff s
  else if clock = 5 then s.setUnitState (unitId 1 0x30) .failed 6
  else if clock = 6 then s.iclDown
  else if clock ≤ 10 then
    (((List.range 8).map fun i => 8 * (clock - 7) + i).foldl (fun (s : State) n => rowMediaPortDown n s) s).afterUnits
  else s.referenceLost 2

/-- REFCLK_LOSS (R515): a clock is lost or off frequency, or is back. -/
def execRefclkLoss (clock : Nat) (holds : Bool) (s : State) : Host.Outcome State Fault Refusal :=
  .next <|
    if clock > 11 then s
    else if !holds then
      let s := { s with pwr.clockLost := s.pwr.clockLost.filter (· != clock) }
      if clock = 0 then s.eraseSource 1 false else s
    else if s.pwr.clockLost.contains clock then s
    else { s with pwr.clockLost := s.pwr.clockLost ++ [clock] }.clockDown clock

end Sys2Proof.Machine
end

