-- ==== Sys2Proof/Machine/OwnRows.lean ====
section
/-! DEFINITION. Writes to the registers whose writes are the commands of rows of their own, as REGISTER_WRITE and the halves of a 64-bit access
reach them (01_architecture.md R17). -/
namespace Sys2Proof.Machine

/-- The number of the element of a bank at an offset, along its first dimension. -/
def RegBank.index (b : RegBank) (a : Nat) : Nat := if b.stride = 0 then 0 else (a - b.base) / b.stride

/-- Registers whose writes are the commands of rows of their own: key pages and slots, the forced alarm, the ring window's CFG, DB and RPL_HEAD,
the data mover's channels and window switches, flash commands, way groups, recovery. -/
def ownRow (a : Nat) : Bool :=
  (decide (0x02000000 ≤ a) && decide (a < 0x03000000) && decide (a % 4096 < 0xC00)) || a == R.CIP_ALARM_CTL.addr ||
  (decide (0x01410000 ≤ a) && decide (a < 0x01420000)) ||
  (decide (0x01F10000 ≤ a) && decide (a < 0x01F14000)) ||
  (Bank.DMA_WIN_CFG.find a).isSome || (Bank.SFL_B_CMD.find a).isSome || (Bank.LLC_WAY_OFF.find a).isSome ||
  (Bank.CTL_RING_CFG.find a).isSome || (Bank.CTL_RING_DB.find a).isSome || (Bank.CTL_RING_RPL_HEAD.find a).isSome ||
  a == R.BOOT_RCV_CTL.addr

/-- The state that a row leaves. -/
def State.ran (s : State) (o : Host.Outcome State Fault Refusal) : State :=
  match o with
  | .next t => t
  | _ => s

/-- What host memory holds where a register write gives no content: free bytes of a draw (DESIGN CHOICE, log 88). -/
def State.hostBytes (s : State) (n : Nat) : Bytes × State := ((List.range n).map (Config.freeByte s.free), { s with free := s.free + 1 })

/-- A command of a key page: 1 COMMIT, 2 GENERATE, 3 ERASE (09_cipher_digest.md R213). The entropy test of GENERATE gives a free verdict. -/
def State.pageCmd (s : State) (page cmd : Nat) : State :=
  match cmd with
  | 1 => s.ran (execKeyPageCommit page s)
  | 2 =>
    match s.fresh with
    | (x, s) => s.ran (execKeyPageGenerate page (x.getLsbD 0) s)
  | 3 => s.ran (execKeyPageErase page s)
  | _ => s

/-- A 32-bit write within a key page. -/
def State.pageWrite (s : State) (page o v : Nat) : State :=
  if o = 0 then s.ran (execKeyPageCfgWrite page v s)
  else if o = 4 then s.pageCmd page (v % 16)
  else if o = 12 then s.ran (execKeyPageKeyWrite page 16 v s)
  else if 0x100 ≤ o ∧ o < 0x140 then s.ran (execKeyPageKeyWrite page ((o - 0x100) / 4) v s)
  else s

/-- A command of a key slot: 1 COMMIT, 2 GENERATE, 3 ERASE (09_cipher_digest.md R218). The entropy test of GENERATE gives a free verdict. -/
def State.slotCmd (s : State) (slot cmd : Nat) : State :=
  match cmd with
  | 1 => s.ran (execKeySlotCommit slot s)
  | 2 =>
    match s.fresh with
    | (x, s) => s.ran (execKeySlotGenerate slot (x.getLsbD 0) s)
  | 3 => s.ran (execKeySlotErase slot s)
  | _ => s

/-- A 32-bit write within a key slot. -/
def State.slotWrite (s : State) (slot o v : Nat) : State :=
  if o = 0 then s.ran (execKeySlotKeyWrite slot 32 v s)
  else if o = 4 then s.slotCmd slot (v % 16)
  else if o = 12 then s.ran (execKeySlotKeyWrite slot 33 v s)
  else if 0x40 ≤ o ∧ o < 0xC0 then s.ran (execKeySlotKeyWrite slot ((o - 0x40) / 4) v s)
  else s

/-- A 32-bit write within a channel of the data mover (17_dma.md R419). An ABORT in the same write comes first (DESIGN CHOICE, log 88). -/
def State.chanWrite (s : State) (ch o v : Nat) : State :=
  if 0x20 ≤ o ∧ o ≤ 0x37 then s.ran (execDmaShadowWrite ch o 4 v s)
  else if o = 0x38 then
    let s := if v.testBit 1 then s.ran (execDmaAbort ch s) else s
    if v.testBit 0 then s.ran (execDmaArm ch s) else s
  else if o = 0x3C ∧ !s.halted then s.dmaStatusWrite ch v
  else s

/-- A doorbell of a control ring, with free entries. -/
def State.ringBell (s : State) (ring v : Nat) : State :=
  match s.hostBytes 16384 with
  | (b, s) => s.ran (execRingDoorbell ring v ((List.range 256).map fun i => slice b (64 * i) 64) s)

/-- BOOT_RCV_CTL.GO, with a free image and free verdicts. -/
def State.rcvGo (s : State) : State :=
  match s.hostBytes (s.rd R.BOOT_RCV_LEN).toNat with
  | (b, s) =>
    match s.fresh with
    | (x, s) => s.recover b (SlotCheck.mk (x.getLsbD 0) (x.getLsbD 1) (x.getLsbD 2))

/-- A 32-bit write at the offset of a register that has a row of its own, or at a half of one: the effect of that row. -/
def State.ownWrite (s : State) (a v : Nat) : State :=
  if a = R.CIP_ALARM_CTL.addr then s.ran (execForcedAlarm v s)
  else if 0x02000000 ≤ a ∧ a < 0x03000000 then s.pageWrite ((a - 0x02000000) / 4096) (a % 4096) v
  else if 0x01410000 ≤ a ∧ a < 0x01420000 then s.slotWrite ((a - 0x01410000) / 256) (a % 256) v
  else if 0x01F10000 ≤ a ∧ a < 0x01F14000 then s.chanWrite ((a - 0x01F10000) / 256) (a % 256) v
  else if (Bank.DMA_WIN_CFG.find a).isSome then s.ran (execDmaWinCfgWrite (Bank.DMA_WIN_CFG.index a) v s)
  else if (Bank.SFL_B_CMD.find a).isSome then
    if v % 4 = 1 ∨ v % 4 = 2 then s.sflCommand (Bank.SFL_B_CMD.index a) (v % 4) else s
  else if (Bank.LLC_WAY_OFF.find a).isSome then s.llcWayOff (Bank.LLC_WAY_OFF.index a) v
  else if (Bank.CTL_RING_CFG.find a).isSome then s.ringCfg (Bank.CTL_RING_CFG.index a) v
  else if (Bank.CTL_RING_DB.find a).isSome then s.ringBell (Bank.CTL_RING_DB.index a) v
  else if (Bank.CTL_RING_RPL_HEAD.find a).isSome then s.ran (execRplHeadWrite (Bank.CTL_RING_RPL_HEAD.index a) v s)
  else if a = R.BOOT_RCV_CTL.addr ∧ v.testBit 0 = true then s.rcvGo
  else s

/-- A 64-bit write of a 64-bit register that has a row of its own: a shadow address of the data mover. -/
def State.ownWide (s : State) (a v : Nat) : State :=
  if 0x01F10000 ≤ a ∧ a < 0x01F14000 then s.ran (execDmaShadowWrite ((a - 0x01F10000) / 256) (a % 256) 8 v s) else s

end Sys2Proof.Machine
end

