-- ==== Sys2Proof/Machine/RegAccess.lean ====
section
/-! DEFINITION. Accesses to the registers over the host bus: what each register shows, halves of 64-bit registers, power gating, alignment, and
the writes that act (00_scope.md R5-R8; 01_architecture.md R16-R19; 22_power_electrical.md R524). -/
namespace Sys2Proof.Machine

/-! ### What registers show -/

/-- A mask of the numbers below `n` that satisfy `p`. -/
def maskOf (n : Nat) (p : Nat → Bool) : Nat := sumOf (((List.range n).filter p).map (2 ^ ·))

/-- STATE as TIDE_STATUS codes it (R42). -/
def TideSt.code : TideSt → Nat
  | .freerun => 0
  | .acquiring => 1
  | .locked => 2
  | .holdover => 3
  | .unqualified => 4

/-- TIDE_STATUS (02_fabric_time.md R42). -/
def State.tideStatus (s : State) : Nat :=
  s.tide.state.code + b2n s.admitOk * 8 + b2n s.tide.refPtp * 16 + b2n s.tide.refPps * 32 + b2n s.tide.ref10m * 64 +
    b2n s.tide.stepPend.isSome * 128 + s.tide.activePort * 256

/-- BRN_STATUS (06_brine_write_path.md R156). ALONE reads 0, its reset value, before the head looks for its peer (DESIGN CHOICE, log 129). -/
def State.brnStatus (s : State) : Nat :=
  b2n s.brn.aboveHi + b2n (s.brn.alone || !(s.peerInService || s.pair.state == .down)) * 2 + b2n s.brn.remirror * 4 + b2n s.brn.replaying * 8 + b2n (!s.brn.lost.isEmpty) * 16

/-- What one module takes of a dump, in bytes per µs: 2,000, or half its DUMP_RATE, which counts both ports, where that is less than 40
(R151; 13_media_link.md R333; DEDUCED, log 62). -/
def moduleDumpRate (m : Module) : Nat := Nat.min 2000 (leAt m.record 36 2 * 50)

/-- BRN_DUMP_EST (R151, R156). -/
def State.dumpEst (s : State) : Nat :=
  let d := sumOf ((s.lnk.mods.filter fun m => m.present && m.up).map moduleDumpRate)
  if d = 0 then 0xFFFFFFFF else Nat.min 0xFFFFFFFF (2000 + ceilDiv (s.pageLimit * 4176) d)

/-- Clusters of an engine in service, as CCL_UP, DCL_UP, CL_UP and ERA_UP show them: none until start-up has set CTL_STATUS.READY (08_compression.md R206). -/
def State.clUp (s : State) (engine : Nat) : Nat := if s.ctl.ready then s.upBits engine else 0

/-- Contexts resident in the clusters of an engine (09_cipher_digest.md R222, R235). -/
def State.resident (s : State) (engine : Nat) : Nat := countOf (fun c => c.engine == engine && !c.saved) s.keys.ctxs

/-- CIP_ALARM (R235): the latched sources, the tamper latch and ERASED. -/
def State.cipAlarm (s : State) : Nat := (s.rd R.CIP_ALARM).toNat % 32 + b2n s.keys.tamper * 64 + b2n s.keys.erased * 128

/-- Pans in a state. -/
def State.pansIn (s : State) (p : UnitSt → Bool) : Nat := countOf (fun d => unitClass d.id == 7 && p d.state) s.med.units

/-- MED_STATUS (10_media_units_pans.md R265). -/
def State.medStatus (s : State) : Nat := b2n s.rootPan.isSome + s.clUp 4 * 256 + s.pansIn (· == .rebuilding) * 65536

/-- MED_PAN_STATUS (R265). -/
def State.panStatus (s : State) : Nat :=
  s.pansIn (· == .failed) + s.pansIn (fun x => x == .degraded || x == .rebuilding) * 65536

/-- Map pages are being dropped: those that exist exceed the map areas of HBM and DDR (11_flash_translation.md R269; DEDUCED, log 62). -/
def State.mapPaging (s : State) : Bool := decide (s.metaPages.length * 4096 > s.mapArea)

/-- FTL_STATUS (11_flash_translation.md R289). -/
def State.ftlStatus (s : State) : Nat :=
  b2n s.mapPaging + b2n (!s.own.ckpts.isEmpty) * 2 + b2n s.ftl.indexScan * 4

/-- FTL_HARV_NOW (12_harvest_health.md R294, R312). -/
def State.harvNow (s : State) : Nat :=
  s.hAt s.slot % 65536 + b2n s.ftl.urgent * 65536 + b2n (s.ftl.hPending.isSome || s.ftl.budgetArmed) * 131072

/-- FTL_HARV_STATUS (R312). -/
def State.harvStatus (s : State) : Nat :=
  let frac := if s.rootPan.isNone ∨ s.usableBlocks = 0 then 0 else Nat.min 255 (s.freeBlocks * 256 / s.usableBlocks)
  b2n (!s.ftl.harvests.isEmpty) + b2n (s.freeBelow s.freeHigh) * 2 + b2n (s.freeBelow s.freeLow) * 4 +
    b2n (s.freeBelow s.freeFloor) * 8 + b2n s.ftl.poolRo * 16 + frac * 256

/-- LNK_PORT_STATUS_n (13_media_link.md R336); while the port's domain is off only PRESENT shows (22_power_electrical.md R524). -/
def State.portStatus (s : State) (n : Nat) : Nat :=
  let m := s.mod n
  let rsv := match m.ownRsv with
    | .none => 0
    | .registered => 1
    | .fenced => 2
  let live := if m.up then 5 + 4 * 8 + 64 else 0
  b2n m.present * 128 + m.heldReason % 16 * 2 ^ 20 +
    (if s.domainOff (19 + n) then 0 else live + rsv * 65536 + m.temp % 256 * 2 ^ 24)

/-- PAIR_STATUS (15_pair_operation.md R387). -/
def State.pairStatus (s : State) : Nat :=
  s.pair.state.code + b2n s.pair.adopted * 2 ^ 10 + b2n s.pair.lease * 2 ^ 11 + s.pair.icl % 4 * 2 ^ 12 + s.pair.lead % 32 * 2 ^ 16 +
    s.pair.refuse % 8 * 2 ^ 24

/-- PAIR_PEER_FW (R387). -/
def State.peerFw (s : State) : Nat :=
  match s.pair.lastHello with
  | some h => h.fwMajor % 256 * 2 ^ 24 + h.fwMinor % 65536 * 256 + h.genMax % 256
  | none => 0

/-- MEM_STATUS (16_memory_cache.md R405). -/
def State.memStatus (s : State) : Nat :=
  s.mem.chUp % 256 + s.mem.hbmUp % 16 * 256 + s.mem.ddrGib % 8192 * 4096 + b2n s.mem.popErr * 2 ^ 30 + b2n s.mem.lock * 2 ^ 31

/-- LLC_WAY_OFF_s (R402, R405). -/
def State.wayOff (s : State) (i : Nat) : Nat :=
  let x := s.llcSlice i
  (s.rd (R.LLC_WAY_OFF i)).toNat % 16 + x.off % 16 * 16 + b2n x.busy * 256

/-- EVR_STATUS (19_event_recorder.md R455). -/
def State.evrStatus (s : State) : Nat :=
  b2n s.evr.frozen + b2n (!s.evr.heldRecs.isEmpty) * 2 + b2n s.evr.flushing * 4 + b2n (decide (s.evr.slices.length ≥ 64)) * 8 +
    Nat.min 64 s.evr.slices.length * 2 ^ 24

/-- STATE of a ring (20_control_packets.md R481). -/
def RingState.code : RingState → Nat
  | .disabled => 0
  | .running => 1
  | .draining => 2

/-- CTL_RING_STATUS (R481). -/
def State.ringStatus (s : State) (n : Nat) : Nat :=
  let r := s.ring n
  r.cmdHead % 256 + r.rplTail % 256 * 256 + r.owned.length % 256 * 65536 + r.state.code * 2 ^ 24

/-- BOOT_STATUS (21_startup_security.md R503). -/
def State.bootStatus (s : State) : Nat :=
  s.boot.slot % 2 * 2 ^ 15 + b2n s.boot.trial * 2 ^ 16 + b2n s.boot.unidentified * 2 ^ 17 + s.boot.cfgSrc % 4 * 2 ^ 18 +
    s.boot.failB % 16 * 2 ^ 20 + s.boot.failA % 16 * 2 ^ 24 + s.boot.stage % 16 * 2 ^ 28

/-- BOOT_FIELD_STATUS (R503). -/
def State.fieldStatus (s : State) : Nat :=
  b2n s.boot.sessionOpen + b2n s.boot.pwd.isSome * 4 + b2n s.boot.fkey.isSome * 8 + s.boot.scope % 256 * 256 + Nat.min 255 s.boot.fails * 65536

/-- PWR_STATUS (22_power_electrical.md R522). -/
def State.pwrStatus (s : State) : Nat := maskOf 9 s.railGood + b2n s.pwr.throttle * 65536 + b2n s.pwr.dumpDone * 131072

/-- PWR_CABLE_n (R516, R522). -/
def State.cableReg (s : State) (n : Nat) : Nat :=
  match findKey Prod.fst n s.pwr.cables with
  | some c => 2 ^ 31 + c.2.2 % 65536
  | none => 0

/-- Registers of fabric time, the sluice and the queues that show other state. -/
def viewsHost : List (RegBank × (State → Nat → Nat)) :=
  [(Bank.TOP_HEAD_INFO, fun s _ => s.role),
   (Bank.TIDE_TIME, fun s _ => s.tide.time),
   (Bank.TIDE_STATUS, fun s _ => s.tideStatus),
   (Bank.TIDE_ERR_EST, fun s _ => s.errEst),
   (Bank.TIDE_SLOT_NOW, fun s _ => s.slot),
   (Bank.SLU_STATUS, fun s _ => s.sluStatus),
   (Bank.SLU_INFLIGHT, fun s _ => s.admitted.length),
   (Bank.HQ_LOCK_STATUS, fun s _ => s.locksUsed % 65536 + s.locksDl % 65536 * 65536),
   (Bank.HQ_QCTX_STATUS, fun s _ => s.hq.ctxs.length),
   (Bank.XPT_CTX_STATUS, fun s _ => countOf (·.cached) s.xpt.qps),
   (Bank.XPT_MKEY_STATUS, fun s _ => s.xpt.keys.length),
   (Bank.XPT_MKEY_REVOKING, fun s _ => countOf (·.revoking) s.xpt.keys)]

/-- Registers of the write path and the engines that show other state. -/
def viewsPath : List (RegBank × (State → Nat → Nat)) :=
  [(Bank.BRN_STATUS, fun s _ => s.brnStatus),
   (Bank.BRN_FREE, fun s _ => brinePages - s.pagesUsed),
   (Bank.BRN_DUMP_EST, fun s _ => s.dumpEst),
   (Bank.BRN_JSEQ, fun s _ => s.own.jseq),
   (Bank.BRN_DURABLE, fun s _ => s.own.durable),
   (Bank.BRN_LOST_FROM, fun s _ => s.lostFrom),
   (Bank.RED_STATUS, fun s _ => b2n (s.red.recs.any fun r => r.stage == .decide) + s.pool.domains.length % 256 * 65536),
   (Bank.RED_INDEX_USED, fun s _ => sumOf (s.pool.domains.map fun d => 256 * 2 ^ d.k)),
   (Bank.CMP_GEN, fun s _ => (if s.pool.loaded then s.own.gen else 0) % 256 + 3 * 256 + 2 * 65536),
   (Bank.CMP_STATUS, fun s _ => s.clUp 0 + s.clUp 1 * 256),
   (Bank.CIP_KP_CFG, fun s i => (s.kpage i).cfg),
   (Bank.CIP_KP_STATUS, fun s i => (s.kpage i).status),
   (Bank.CIP_KP_INVOC, fun s i => (s.kpage i).next),
   (Bank.CIP_STATUS, fun s _ => s.resident 3 + s.clUp 3 * 65536),
   (Bank.CIP_ALARM, fun s _ => s.cipAlarm),
   (Bank.DIG_KS_CFG, fun s i => (s.kslot i).cfg),
   (Bank.DIG_KS_KEYLEN, fun s i => (s.kslot i).len),
   (Bank.DIG_KS_STATUS, fun s i => (s.kslot i).status),
   (Bank.DIG_STATUS, fun s _ => s.resident 2 + s.clUp 2 * 65536)]

/-- Registers of the media, the link and the pair that show other state. -/
def viewsMedia : List (RegBank × (State → Nat → Nat)) :=
  [(Bank.MED_STATUS, fun s _ => s.medStatus),
   (Bank.MED_PAN_STATUS, fun s _ => s.panStatus),
   (Bank.MED_PROXY, fun s _ => maskOf 32 fun n => (s.mod n).proxied),
   (Bank.FTL_STATUS, fun s _ => s.ftlStatus),
   (Bank.FTL_SLC_TARGET, fun s _ => sumOf (s.tops.map s.slcTarget)),
   (Bank.FTL_SLC_USED, fun s _ => sumOf (s.tops.map s.slcUsed)),
   (Bank.FTL_CKPT_S0, fun s _ => s.own.rootS0),
   (Bank.FTL_HARV_H, fun s _ => s.ftl.hBase % 65536 + s.ftl.hUrgent % 65536 * 65536),
   (Bank.FTL_HARV_NOW, fun s _ => s.harvNow),
   (Bank.FTL_HARV_STATUS, fun s _ => s.harvStatus),
   (Bank.FTL_FREE_BLOCKS, fun s _ => s.freeBlocks),
   (Bank.FTL_SCRUB_PENDING, fun s _ => countOf (·.scrub) s.ftl.blocks),
   (Bank.FTL_RO_PANS, fun s _ => countOf (fun t => s.ust (s.topPan t) == .readOnly) s.tops),
   (Bank.LNK_UP, fun s _ => maskOf 32 fun n => (s.mod n).up),
   (Bank.LNK_HELD, fun s _ => maskOf 32 fun n => (s.mod n).heldReason != 0),
   (Bank.LNK_PORT_STATUS, fun s i => s.portStatus i),
   (Bank.LNK_MOD_PWR, fun s i => (s.mod i).power),
   (Bank.SNAP_STATUS, fun s _ => (s.snap.epochs.map Epoch.id).eraseDups.length + countOf (·.state == .sending) s.snap.sessions * 2 ^ 22),
   (Bank.PAIR_STATUS, fun s _ => s.pairStatus),
   (Bank.PAIR_SHADOW_TIP, fun s _ => (s.journal (1 - s.role)).tip),
   (Bank.PAIR_PEER_FW, fun s _ => s.peerFw)]

/-- Registers of the memories, the recorder, the rings, start-up and power that show other state. -/
def viewsBase : List (RegBank × (State → Nat → Nat)) :=
  [(Bank.MEM_STATUS, fun s _ => s.memStatus),
   (Bank.LLC_STATUS, fun s _ => maskOf 12 (fun g => !s.pwr.off.contains (51 + g)) + b2n s.mem.rehash * 4096),
   (Bank.LLC_WAY_OFF, fun s i => s.wayOff i),
   (Bank.LLC_HIT_CNT, fun s _ => s.llc.hits),
   (Bank.LLC_MISS_CNT, fun s _ => s.llc.misses),
   (Bank.LLC_TAG_PAR_CNT, fun s _ => s.llc.tagPar),
   (Bank.LLC_DATA_CE_CNT, fun s _ => s.llc.dataCe),
   (Bank.LLC_DATA_UE_CNT, fun s _ => s.llc.dataUe),
   (Bank.SFL_STATUS, fun s _ => (s.rd R.SFL_STATUS).toNat / 256 * 256 + maskOf 8 s.bankBusy),
   (Bank.SFL_B_STATUS, fun s i => (s.rd (R.SFL_B_STATUS i)).toNat / 2 * 2 + b2n (s.bankBusy i)),
   (Bank.EVR_STATUS, fun s _ => s.evrStatus),
   (Bank.EVR_SEQ, fun s _ => s.evr.seq),
   (Bank.EVR_OLDEST, fun s _ => (s.evr.area.head?.map fun x => x.2.seq).getD 0),
   (Bank.EVR_EPOCH, fun s _ => s.evr.epoch),
   (Bank.EVR_UNFLUSHED, fun s _ => s.evr.awaitBytes),
   (Bank.CTL_RING_STATUS, fun s i => s.ringStatus i),
   (Bank.CTL_STATUS, fun s _ => maskOf 4 (fun n => (s.ring n).state == .running) + b2n s.ctl.ready * 2 ^ 31),
   (Bank.CTL_FW_BEAT, fun s _ => s.ctl.beat),
   (Bank.BOOT_STATUS, fun s _ => s.bootStatus),
   (Bank.BOOT_RESET_CAUSE, fun s _ => s.boot.cause),
   (Bank.BOOT_FW_VER, fun s _ => s.boot.fwVer),
   (Bank.BOOT_FIELD_STATUS, fun s _ => s.fieldStatus),
   (Bank.BOOT_UID, fun _ i => leNat ((List.range 4).map fun k => Config.uniqueId (4 * i + k))),
   (Bank.PWR_DOM_ON, fun s i => maskOf 32 fun k => !s.pwr.off.contains (32 * i + k)),
   (Bank.PWR_DOM_READY, fun s i => maskOf 32 fun k => !s.domainOff (32 * i + k)),
   (Bank.PWR_STATUS, fun s _ => s.pwrStatus),
   (Bank.PWR_RAIL, fun s i => s.pwr.rails.getD i 0),
   (Bank.PWR_TEMP, fun s i => ((s.pwr.temps.getD i 0) % 65536).toNat),
   (Bank.PWR_TOTAL, fun s _ => s.pwr.totalMw),
   (Bank.PWR_CABLE, fun s i => s.cableReg i)]

/-- Every register that shows other state. -/
def regViews : List (RegBank × (State → Nat → Nat)) := viewsHost ++ viewsPath ++ viewsMedia ++ viewsBase

/-- Registers whose value the spec ties to work that the model leaves out, with the bound of the value: a read gives a free value (log 63). -/
def freeRegs : List (RegBank × Nat) :=
  [(Bank.MED_UDT_STATUS, 4097), (Bank.LNK_REPLAY_CNT, 2 ^ 64)]

/-- The value that a register shows. (DEDUCED, log 89) -/
def State.view (s : State) (r : Reg) : Nat :=
  match regViews.find? fun v => (v.1.find r.addr).isSome with
  | some v => v.2 s (v.1.index r.addr) % 2 ^ r.width
  | none => (s.rd r).toNat

/-- The value that a register shows, and the state after a free value is drawn for it. -/
def State.regVal (s : State) (r : Reg) : Nat × State :=
  match freeRegs.find? fun v => (v.1.find r.addr).isSome with
  | some v =>
    match s.fresh with
    | (x, s) => (x.toNat % v.2, s)
  | none => (s.view r, s)

/-! ### Reads (R5, R7) -/

/-- The page buffers of the system flash are reached at an offset (18_system_flash.md R434). -/
def inSflBuf (a : Nat) : Bool := decide (0x03008000 ≤ a) && decide (a < 0x03010000)

/-- A field access session is open, as the page buffers need (18_system_flash.md R434). -/
def State.bufOpen (s : State) : Bool := s.boot.sessionOpen

/-- A 32-bit read of an offset of the register space: the value and its side effects. -/
def State.read32 (s : State) (a : Nat) : Nat × State :=
  if (s.gatedBy a).isSome || s.undecoded a then (0, s)
  else if inSflBuf a then (if s.bufOpen then leNat (memReadAll 0 s.sfl.buf (a - 0x03008000) 4) else 0, s)
  else
    match regAt a with
    | some r =>
      match s.regVal r with
      | (v, s) => if r.width = 64 then (v % 2 ^ 32, { s with latch := putKey Prod.fst (r.addr, v / 2 ^ 32) s.latch }) else (v, s)
    | none =>
      match (regAt (a - 4)).filter fun r => r.width == 64 && decide (4 ≤ a) with
      | some r =>
        match findKey Prod.fst r.addr s.latch with
        | some p => (p.2, { s with latch := dropKey Prod.fst r.addr s.latch })
        | none =>
          match s.regVal r with
          | (v, s) => (v / 2 ^ 32, s)
      | none => (0, s)

/-- A 64-bit read: of one 64-bit register, or of two halves in order (01_architecture.md R17). -/
def State.read64 (s : State) (a : Nat) : Nat × State :=
  match (regAt a).filter fun r => r.width == 64 && (s.gatedBy a).isNone && !s.undecoded a with
  | some r => s.regVal r
  | none =>
    match s.read32 a with
    | (lo, s) =>
      match s.read32 (a + 4) with
      | (hi, s) => (lo + hi * 2 ^ 32, s)

/-- The offset in the register space of an offset of BAR0 or BAR4. An offset of BAR0 outside every block range decodes to nothing (R16). -/
def barAddr (bar off : Nat) : Nat := if bar = 4 then off + 2 ^ 32 else if off < 2 ^ 32 then off else off + 2 ^ 33

/-- The size and alignment that R17 allows. -/
def busAllowed (off size : Nat) : Bool := (size == 4 || size == 8) && off % size == 0

/-- A read over the bus completes (01_architecture.md R17, R18). The aperture of the system flash has a row of its own. -/
def State.busRead (s : State) (bar off size : Nat) : State :=
  if !busAllowed off size then s.emit (.unsupported bar off size)
  else if bar = 2 then s.emit (.busRead bar off size 0)
  else if bar = 0 ∧ 0x03100000 ≤ off ∧ off < 0x03200000 then s
  else
    match (if size = 8 then s.read64 (barAddr bar off) else s.read32 (barAddr bar off)) with
    | (v, s) => s.emit (.busRead bar off size v)

/-! ### Writes (R5, R7, R8) -/

/-- A register that drops writes for now: a ring's addresses while EN is 1, a window's base while EN is 1, the splits while LOCK is 1
(20_control_packets.md R481; 17_dma.md R419; 16_memory_cache.md R394). -/
def State.writeLocked (s : State) (a : Nat) : Bool :=
  (decide (2 ^ 32 ≤ a) && decide (a % 0x4000 < 0x20) && (s.rd (R.CTL_RING_CFG ((a - 2 ^ 32) / 0x4000))).toNat.testBit 31) ||
  ((Bank.DMA_WIN_BASE.find a).isSome && (s.rd (R.DMA_WIN_CFG (Bank.DMA_WIN_BASE.index a))).toNat.testBit 31) ||
  (s.mem.lock && (a == R.MEM_HBM_SPLIT.addr || a == R.MEM_DDR_SPLIT.addr))

/-- A write of MEM_DDR_SPLIT: shares that exceed 224 together return to their reset values, with an event (16_memory_cache.md R405). -/
def State.ddrSplit (s : State) (v : DWord) : State :=
  let n := v.toNat
  if bits n 23 16 + bits n 15 8 + bits n 7 0 > 224 then
    (s.wr R.MEM_DDR_SPLIT R.MEM_DDR_SPLIT.reset).event 0x0E evcConfig 3 0 (evValue 0x01E00004 ++ evValue R.MEM_DDR_SPLIT.reset.toNat)
  else s.wrBus R.MEM_DDR_SPLIT v

/-- ALERT_N follows a write of EVR_ALARM or its mask where its level changes (19_event_recorder.md R452). -/
def State.wrAlarm (s : State) (r : Reg) (v : DWord) : State :=
  let t := s.wrBus r v
  if (t.alarmActive == 0) = (s.alarmActive == 0) then t else t.driveAlert

/-- A write of EVR_RATE_c: a BURST below the present allowance lowers it at once (R443). -/
def State.wrRate (s : State) (c : Nat) (v : DWord) : State :=
  let s := s.wrBus (R.EVR_RATE c) v
  { s with evr.allow := s.evr.allow.modify c (Nat.min (s.fld (R.EVR_RATE c) 31 16)) }

/-- Registers that are pool configuration (11_flash_translation.md R289; 12_harvest_health.md R312). -/
def poolRegs : List Reg := [R.FTL_STREAM_CFG, R.FTL_SLC_CFG, R.FTL_CKPT_CFG, R.FTL_FREE_CFG, R.FTL_HLTH_CFG]

/-- A write of a register that is pool configuration takes effect at its configuration record; with no pool loaded, at once (DESIGN CHOICE, log 64). -/
def State.wrPool (s : State) (r : Reg) (v : DWord) : State :=
  let s := s.wrBus r v
  if s.pool.loaded then s.placeCfg (regRecord r.addr (s.rd r)) else s

/-- A write of TIDE_CFG: a change of SRC_MODE can complete the reference, or leave it without an input it needs (02_fabric_time.md R28, R31). -/
def State.wrTide (s : State) (v : DWord) : State :=
  let was := s.refOk
  let s := s.wrBus R.TIDE_CFG v
  if s.refOk && !was then s.refFound else if was && !s.refOk then s.refLost else s

/-- A register takes a whole value (R8). -/
def State.wrReg (s : State) (r : Reg) (v : DWord) : State :=
  if s.writeLocked r.addr then s
  else if r = R.MEM_DDR_SPLIT then s.ddrSplit v
  else if r = R.EVR_ALARM ∨ r = R.EVR_ALARM_MASK then s.wrAlarm r v
  else if (Bank.EVR_RATE.find r.addr).isSome then s.wrRate ((r.addr - (R.EVR_RATE 0).addr) / 4) v
  else if poolRegs.contains r then s.wrPool r v
  else if r = R.TIDE_CFG then s.wrTide v
  else if r = R.MED_CFG then (s.wrBus r v).retrySubst
  else if r = R.BRN_CFG ∨ r = R.BRN_LIMIT then (s.wrBus r v).fillCheck
  else s.wrBus r v

/-- A 32-bit write at an offset of the register space; `size` is that of the whole access. (DESIGN CHOICE, log 88) -/
def State.write32 (s : State) (a size v : Nat) : State :=
  match s.gatedBy a with
  | some d => s.gatedDrop d a size
  | none =>
    if s.undecoded a then s
    else if inSflBuf a then
      if s.bufOpen then { s with sfl.buf := memWriteAll 0 s.sfl.buf (a - 0x03008000) (leBytes 4 v) } else s
    else
      match regAt a with
      | some r =>
        if ownRow r.addr then s.ownWrite a (v % 2 ^ 32)
        else if r.width = 64 then (if s.writeLocked r.addr then s else s.holdLow r.addr (v % 2 ^ 32))
        else s.wrReg r (BitVec.ofNat 64 (v % 2 ^ 32))
      | none =>
        match (regAt (a - 4)).filter fun r => r.width == 64 && decide (4 ≤ a) with
        | some r =>
          if ownRow r.addr then s.ownWrite a (v % 2 ^ 32)
          else if s.writeLocked r.addr then s
          else (s.dropLow r.addr).wrReg r (s.joinHigh r.addr v (s.rd r))
        | none => s

/-- A 64-bit write: of one 64-bit register, as one access, or of two halves in order (01_architecture.md R17, R19). -/
def State.write64 (s : State) (a v : Nat) : State :=
  match (regAt a).filter fun r => r.width == 64 with
  | some r =>
    match s.gatedBy a with
    | some d => s.gatedDrop d a 8
    | none => if s.undecoded a then s else if ownRow r.addr then s.ownWide a v else (s.dropLow r.addr).wrReg r (BitVec.ofNat 64 v)
  | none => (s.write32 a 8 (v % 2 ^ 32)).write32 (a + 4) 8 (v / 2 ^ 32)

/-- The space of an ADDR item that names an offset of a BAR (19_event_recorder.md R438, R525). -/
def barSpace (bar : Nat) : Nat := if bar = 2 then 7 else if bar = 4 then 8 else 0

/-- A write over the bus (01_architecture.md R17, R18, R424). BAR2 has a row of its own, and writes to the flash aperture are dropped. -/
def State.busWrite (s : State) (bar off size v : Nat) : State :=
  if !busAllowed off size then s.event 0x01 evcDropped 3 0x100030 (evAddr (barSpace bar) off ++ evValue size)
  else if bar = 2 ∨ (bar = 0 ∧ 0x03100000 ≤ off ∧ off < 0x03200000) then s
  else if size = 8 then s.write64 (barAddr bar off) v
  else s.write32 (barAddr bar off) 4 v

/-- A BAR with registers. (DESIGN CHOICE, log 100) -/
def barOk (bar : Nat) : Bool := bar == 0 || bar == 2 || bar == 4

/-! ### Rows -/

/-- REGISTER_WRITE (R8): a write of `size` bytes; where the register has a row of its own, the effect is that row's. -/
def execRegisterWrite (bar off size value : Nat) (s : State) : Host.Outcome State Fault Refusal :=
  .next (if barOk bar then s.busWrite bar off size value else s)

/-- REG64_LO_READ (R7): the low half is returned and the high half latched. -/
def execReg64LoRead (bar off : Nat) (s : State) : Host.Outcome State Fault Refusal :=
  .next (if barOk bar then s.busRead bar off 4 else s)

/-- REG64_HI_READ (R7): the latched high half, or the present one where none is latched. -/
def execReg64HiRead (bar off : Nat) (s : State) : Host.Outcome State Fault Refusal :=
  .next (if barOk bar then s.busRead bar off 4 else s)

/-- REG64_LO_WRITE (R7): the low half is held pending. -/
def execReg64LoWrite (bar off value : Nat) (s : State) : Host.Outcome State Fault Refusal :=
  .next (if barOk bar then s.busWrite bar off 4 value else s)

/-- REG64_HI_WRITE (R7): the register takes the written half with the pending low half, or with its present one. -/
def execReg64HiWrite (bar off value : Nat) (s : State) : Host.Outcome State Fault Refusal :=
  .next (if barOk bar then s.busWrite bar off 4 value else s)

/-- MISALIGNED_ACCESS (01_architecture.md R17): a read completes with Unsupported Request, a write is dropped and recorded. An access that R17
allows is an ordinary one. -/
def execMisalignedAccess (bar off size value : Nat) (write : Bool) (s : State) : Host.Outcome State Fault Refusal :=
  .next (if !barOk bar then s else if write then s.busWrite bar off size value else s.busRead bar off size)

/-- GATED_REGISTER_ACCESS (R19): a read returns 0, a write is dropped and recorded. An access that nothing gates is an ordinary one. -/
def execGatedRegisterAccess (off size value : Nat) (write : Bool) (s : State) : Host.Outcome State Fault Refusal :=
  .next (if write then s.busWrite 0 off size value else s.busRead 0 off size)

end Sys2Proof.Machine
end

