-- ==== Sys2Proof/Machine/Boot.lean ====
section
/-! DEFINITION. Resets, the start-up sequence, the settings image, firmware slots, identity and field access
(21_startup_security.md R484-R504). -/
namespace Sys2Proof.Machine

/-! ### What a reset leaves (R485; 16_memory_cache.md R404; 17_dma.md R418; 04_host_queues.md R101; 22_power_electrical.md R505, R522) -/

/-- A register keeps its value over a warm reset: BOOT, PWR, TIDE and EVR lie in the always-on domain, SFL_LAST_HELD_b is kept. -/
def alwaysOn (a : Nat) : Bool :=
  (decide (0x00100000 ≤ a) && decide (a < 0x00600000)) || (decide (0x03200000 ≤ a) && decide (a < 0x03400000)) ||
    (Bank.SFL_LAST_HELD.find a).isSome

/-- A register is pool configuration, which survives every reset (11_flash_translation.md R289; 12_harvest_health.md R312). -/
def poolReg (a : Nat) : Bool := poolRegs.any fun r => r.addr == a

/-- The entries above the durable marks that no dump holds, by journal and sequence: a reset loses them (06_brine_write_path.md R148, R154). -/
def State.undumped (s : State) : List (Nat × Nat) :=
  if s.brn.dumped ∨ s.pair.state = .fenced then [] else (s.heldJournals.flatMap s.aboveMark).map fun e => (e.journal, e.jseq)

/-- The first sequences that a reset loses, by journal, with those that an earlier one lost. -/
def State.firstLost (s : State) : List (Nat × Nat) :=
  let least (j : Nat) : Option (Nat × Nat) :=
    match (s.undumped.filter fun k => k.1 == j).map Prod.snd with
    | [] => s.brn.expect.find? fun x => x.1 == j
    | q :: t => some (j, t.foldl Nat.min q)
  [0, 1].filterMap least

/-- The blocks outside the always-on domain at their reset values; what lies in system flash, on the modules or in fuses stays. Per-die wear and
armed cuts are kept with the pool's metadata (DESIGN CHOICE, log 65). (DESIGN CHOICE, log 92) -/
def State.resetBlocks (s : State) : State :=
  { State.reset with
    regs := s.regs.filter fun p => alwaysOn p.1 || poolReg p.1
    role := s.role
    tide := { s.tide with table := [], timed := [] }
    hq := { Hq.reset with
      formats := s.hq.formats.map fun (f : FormatRec) => { f with cmd := none, staged := false }
      san := { s.hq.san with cmd := none, issued := false }
      warned := Nat.land s.hq.warned 0x12 }
    brn := { Brn.reset with dump := s.brn.dump, dumpEpoch := s.brn.dumpEpoch, expect := s.firstLost }
    keys := { Keys.reset with
      pwkStored := s.keys.pwkStored, dumpStored := s.keys.dumpStored, asserted := putBits s.keys.asserted 4 4 0, tamper := s.keys.tamper }
    ftl := { Ftl.reset with health := s.sfl.health.getD s.ftl.health, wear := s.ftl.wear }
    snap := { Snap.reset with cuts := s.snap.cuts.map fun (c : Cut) => { c with pkt := none } }
    llc := { Llc.reset with looks := s.llc.looks }
    sfl := { s.sfl with buf := [], ops := [] }
    evr := { s.evr with aen := [] }
    boot := { s.boot with
      stage := 0, resetReq := none, dlNext := 0, dlActive := false, sessionOpen := false, scope := 0, nonce := none, gids := [], macs := []
      platformId := [], settings := [], recovery := false, trial := false }
    pwr := { s.pwr with
      off := [], notReady := [], waiting := [], pfail := false, dumping := false, dumpDone := false, holding := false
      critical := s.pwr.tempMon.any TempMon.crit || s.pwr.railMon.any RailMon.crit }
    out := s.out
    free := s.free
    pending := s.pending }

/-- A flash operation that lost its power leaves its page, or the pages of its block, undefined (18_system_flash.md R432). -/
def State.flashCut (s : State) : State :=
  let cut (s : State) (o : SflOp) : State :=
    if o.op = 1 then s.sflLoose o.page
    else (List.range 64).foldl (fun (s : State) i => s.sflLoose (o.page / 64 * 64 + i)) s
  s.sfl.ops.foldl cut s

/-- The health record counts the power-on reset, and a power loss whose dump did not complete validly (12_harvest_health.md R307). -/
def State.countPower (s : State) (lost first : Bool) : State :=
  let h := s.ftl.health
  let h := { h with powerCycles := h.powerCycles + 1, unsafeOff := h.unsafeOff + b2n lost, noDump := if first then false else lost }
  let s := { s with ftl.health := h, hq.warned := 0 }
  if lost then s.warnOn 4 else s

/-- A power-on reset returns the always-on blocks to their reset values as well; the event areas, the slot record, the fuses and the failure
count stay, and a lockout counts from the power-on reset again (R502; DESIGN CHOICE, log 66). -/
def State.resetPower (s : State) (head : Nat) : State :=
  let first := !s.boot.factory
  let lost := !s.undumped.isEmpty
  let t := s.flashCut.resetBlocks
  let t := { t with
    regs := s.regs.filter fun p => poolReg p.1
    role := head % 2
    tide := Tide.reset
    evr := { Evr.reset with
      area := s.evr.area, nextPage := s.evr.nextPage, epoch := s.evr.epoch, sliceOpen := s.evr.sliceOpen, slices := s.evr.slices }
    keys.tamper := false
    boot := { Boot.reset with
      slots := s.boot.slots, svn := s.boot.svn, fails := s.boot.fails, pwd := s.boot.pwd, fkey := s.boot.fkey, factory := true }
    pwr := { Pwr.reset with clockLost := s.pwr.clockLost } }
  t.countPower lost first

/-! ### The settings image (R489-R491) -/

/-- The entries of a settings copy up to END, or none where they do not parse; `n` bounds their number. -/
def parseSettings : Nat → Bytes → Option (List (Nat × Bytes))
  | 0, _ => none
  | n + 1, b =>
    let typ := leAt b 0 2
    let len := leAt b 2 2
    let pad := (len + 3) / 4 * 4
    if b.length < 4 then none
    else if typ = 0xFFFF then (if len = 0 then some [] else none)
    else if b.length < 4 + pad then none
    else (parseSettings n (b.drop (4 + pad))).map fun es => (typ, slice b 4 len) :: es

/-- The entries of a valid settings copy. -/
def settingsOf (b : Bytes) : Option (List (Nat × Bytes)) :=
  let len := leAt b 8 4
  let c := b.take len
  if leAt b 0 4 ≠ 0x53455447 ∨ leAt b 4 2 ≠ 1 ∨ leAt b 6 2 ≠ 0x8816 ∨ len < 36 ∨ len > 8388608 ∨ len % 4 ≠ 0 ∨ b.length < len then none
  else if leAt b 28 4 ≠ crc32c (c.take 28 ++ c.drop 32) then none
  else parseSettings len (c.drop 32)

/-- The copy that is used: 1 A, 2 B, 0 none, with its entries (R489). -/
def settingsChoice (a b : Bytes) : Nat × List (Nat × Bytes) :=
  match settingsOf a, settingsOf b with
  | some x, some y => if serialAfter 32 (leAt a 12 4) (leAt b 12 4) then (2, y) else (1, x)
  | some x, none => (1, x)
  | none, some y => (2, y)
  | none, none => (0, [])

/-- A register that a REG entry may set: of BOOT, PWR, TIDE, XPT, BRN, MED, LNK, MEM/LLC or EVR, with an RW field, and no pool configuration (R491). -/
def settable (a : Nat) : Bool :=
  let r := (regAt a).or ((regAt (a - 4)).filter fun r => r.width == 64 && decide (4 ≤ a))
  let blocks : List (Nat × Nat) :=
    [(0x00100000, 0x00600000), (0x00A00000, 0x00E00000), (0x01600000, 0x01800000), (0x01A00000, 0x01C00000), (0x01E00000, 0x01F00000),
     (0x03200000, 0x03400000)]
  match r with
  | some r => r.rw != 0 && !poolReg r.addr && blocks.any fun x => decide (x.1 ≤ a) && decide (a < x.2)
  | none => false

/-- A REG entry is applied as a write of its register. -/
def State.applyReg (s : State) (a v : Nat) : State :=
  let s := if (Bank.LLC_WAY_OFF.find a).isSome then s.llcWayOff (Bank.LLC_WAY_OFF.index a) v else s.write32 a 4 v
  { s with boot.settings := s.boot.settings ++ [(a, v)] }

/-- An entry is skipped with an event. -/
def State.skipEntry (s : State) (typ v : Nat) : State := s.event 0x13 evcConfig 3 0 (evValue typ ++ evValue v)

/-- One entry is applied (R490, R491). (DEDUCED, log 93) -/
def State.applyEntry (s : State) (e : Nat × Bytes) : State :=
  let b := e.2
  match e.1 with
  | 1 => if b.length = 8 ∧ settable (leAt b 0 4) then s.applyReg (leAt b 0 4) (leAt b 4 4) else s.skipEntry 1 (leAt b 0 4)
  | 2 =>
    if b.length = 20 ∧ leAt b 0 1 < 16 ∧ leAt b 1 1 < 4 ∧ leAt b 2 1 < 16 then { s with boot.gids := s.boot.gids ++ [(leAt b 0 1, leAt b 1 1, leAt b 2 1, slice b 4 16)] } else s.skipEntry 2 b.length
  | 3 =>
    if b.length = 12 ∧ leAt b 0 1 < 16 ∧ leAt b 1 1 < 4 then { s with boot.macs := s.boot.macs ++ [(leAt b 0 1, leAt b 1 1, slice b 4 6)] } else s.skipEntry 3 b.length
  | 4 => if 1 ≤ b.length ∧ b.length ≤ 64 then { s with boot.platformId := b } else s.skipEntry 4 b.length
  | t => s.skipEntry t 0

/-- Stage 1: the chosen copy is applied in image order; with none, the defaults stay and an event says so. -/
def State.stageConfig (s : State) (a b : Bytes) : State :=
  let c := settingsChoice a b
  let s := { s with boot.stage := 1, boot.cfgSrc := c.1 }
  if c.1 = 0 then s.event 0x13 evcConfig 4 0 (evValue 0 ++ evValue 0) else c.2.foldl State.applyEntry s

/-- A TRIAL slot is marked FAILED and the other one is preferred. -/
def State.trialFailed (s : State) (p : Nat) : State :=
  (s.commitRec { s.boot.slots.setSt p 6 with pref := 1 - p }).bump R.BOOT_TRIAL_FAIL_CNT

/-- The committed slot is booted if it verifies; otherwise recovery (R495). -/
def State.bootCommitted (s : State) (check : Nat → SlotCheck) : State :=
  match s.boot.slots.committed with
  | none => { s with boot.stage := 8 }
  | some i =>
    match s.verifySlot i (check i) with
    | (s, 0) => { s with boot.slot := i, boot.trial := false }.runImage (s.slotHeader i) true
    | (s, _) => { s with boot.stage := 8 }

/-- Stage 3: a slot is chosen, verified and started (R495). -/
def State.stageLoad (s : State) (check : Nat → SlotCheck) : State :=
  let s := { s with boot.stage := 3 }
  let r := s.boot.slots
  let p := r.pref % 2
  if r.st p = 3 ∧ r.tries = 1 then
    let s := s.commitRec { r with tries := 0 }
    match s.verifySlot p (check p) with
    | (s, 0) => { s with boot.slot := p, boot.trial := true }.runImage (s.slotHeader p) false
    | (s, _) => (s.trialFailed p).bootCommitted check
  else if r.st p = 3 then (s.trialFailed p).bootCommitted check
  else s.bootCommitted check

/-! ### The start-up sequence (R486, R487) -/

/-- Stage 2: HBM must train; a population that breaks a rule is named and keeps the head out of a pair (16_memory_cache.md R390). -/
def State.stageMemory (s : State) (b : BootIn) : State :=
  let s := { s with
    boot.stage := 2, mem.hbmUp := b.hbm % 16, mem.chUp := b.channels % 256, mem.ddrGib := b.ddrGib % 8192, mem.popErr := b.popErr.isSome }
  match b.popErr with
  | some u => s.event 0x0E evcUncorrected 3 u []
  | none => s

/-- The sources of an alarm that still assert take effect again. -/
def State.alarmsAgain (s : State) : State :=
  ((List.range 5).filter fun i => s.keys.asserted.testBit i).foldl (fun (s : State) i => s.raiseAlarm i false) s

/-- The sequence from stage 0 on, after a reset of a cause. -/
def State.bootSeq (s : State) (b : BootIn) (cause : Nat) : State :=
  let s := { s with boot.cause := cause }.evStart cause (cause == 0)
  match s.calRow with
  | none => { s with boot.unidentified := true, boot.stage := 7 }
  | some _ =>
    let s := { s with boot.unidentified := false, keys.dk := true }.alarmsAgain
    let s := (s.stageConfig b.setA b.setB).stageMemory b
    if s.mem.hbmUp ≠ 15 then { s with boot.stage := 7 }
    else s.stageLoad fun i => if i = 0 then b.slotA else b.slotB

/-- SUPPLY_CRIT of a rail that is missing before stage 0 (22_power_electrical.md R509). -/
def State.railMissing (s : State) (r : Nat × Nat) : State :=
  let nom := railNominal.getD r.1 0
  s.alarm 2 0x11 evcThreshold 0 (evValue r.2 ++ evValue (nom * (100 - railTolerance.getD r.1 0) / 100) ++ evValue r.1)

/-- The first power-on finds the flash as Holteb wrote it: a piece of it from an offset on, its last page padded with erased bytes. -/
def State.placeFlash (s : State) (c : Nat × Bytes) : State :=
  (List.range (ceilDiv c.2.length 4096)).foldl (fun (s : State) i =>
    s.sflPut (c.1 / 4096 + i) (let p := (c.2.drop (4096 * i)).take 4096; p ++ List.replicate (4096 - p.length) 0xFF)) s

/-- A power-on reset before start-up: every block is reset, DUMP_DONE and ALERT_N return to their levels, rails that are missing are recorded
and the rails are read. -/
def State.poweredUp (s : State) (b : BootIn) : State :=
  let u := (s.resetPower b.head).emits [.pin .dumpDone false, .pin .alertN true]
  let u := if s.boot.factory then u else b.flash.foldl State.placeFlash u
  let u := b.missing.foldl State.railMissing u
  { u with pwr.rails := (List.range 9).map fun r => b.rails.getD r 0 % 65536 }

/-- POWER_ON_RESET (R484-R487): `b` gives the strap, Holteb's content of the system flash (placed once), what the sequencer finds in SPI NOR and in
the memories, the rails, and the verdicts on the slots. -/
def execPowerOnReset (b : BootIn) (s : State) : Host.Outcome State Fault Refusal :=
  .next ((s.poweredUp b).bootSeq b 0)

/-- RESET_PIN (R484). -/
def execResetPin (s : State) : Host.Outcome State Fault Refusal := .next (s.askReset 4)

/-- WARM_RESET (R485): the reset that was asked for, once nothing holds it. HEAD_ID is not sampled again. Only a power-on
reset leaves stage 7 (R486). -/
def execWarmReset (b : BootIn) (s : State) : Host.Outcome State Fault Refusal :=
  .next <|
    match s.boot.resetReq with
    | none => s
    | some cause =>
      if !s.resetReady then s
      else
        let s := if cause = 1 ∨ cause = 2 then s.bump R.BOOT_WDT_CNT else s
        let s := if s.pwr.dumpDone then s.emit (.pin .dumpDone false) else s
        let t := s.resetBlocks
        if s.boot.stage = 7 then { t with boot.stage := 7, boot.cause := cause }.evStart cause false else t.bootSeq b cause

/-- HOST_PCIE_RESET (R485): the ring windows and the host-side queues are reset; packets in flight receive no reply. -/
def execHostPcieReset (s : State) : Host.Outcome State Fault Refusal :=
  .next <|
    let hosts := s.hq.ctxs.filter fun q => !q.fabric
    let mine := (s.hq.cmds.filter fun c => hosts.any fun q => q.idx == c.qctx).map Cmd.id
    let s := mine.foldl (fun (s : State) id => (s.discardCmd id).dropIo id) s
    let wipe (r : Ring) : Ring := { Ring.reset with nextNo := r.nextNo }
    { s with
      hq.ctxs := s.hq.ctxs.filter QCtx.fabric
      hq.ctrls := s.hq.ctrls.filter fun (c : Controller) => !c.host
      ctl.rings := s.ctl.rings.map wipe
      regs := s.regs.filter fun p => decide (p.1 < 2 ^ 32)
      latch := s.latch.filter fun p => decide (p.1 < 2 ^ 32)
      lowPend := s.lowPend.filter fun p => decide (p.1 < 2 ^ 32) }

/-- FIRMWARE_READY (R486 stage 4): the working keys are loaded (09_cipher_digest.md R211) and the head meets its peer; a head whose memory breaks a
rule joins no pair (16_memory_cache.md R390). -/
def execFirmwareReady (s : State) : Host.Outcome State Fault Refusal :=
  .next <|
    if s.boot.stage ≠ 4 ∨ s.ctl.ready then s
    else
      let s := { s with ctl.ready := true }.loadWorking
      if s.mem.popErr ∨ s.pair.state ≠ .down then s else { s with pair.state := PairSt.pairWait }.meetPeer

/-- WATCHDOG_FW (R484): the beat of running firmware stands still (20_control_packets.md R469). -/
def execWatchdogFw (s : State) : Host.Outcome State Fault Refusal :=
  .next (if 4 ≤ s.boot.stage ∧ s.boot.stage ≤ 6 then s.askReset 1 else s)

/-- WATCHDOG_BOOT (R484). -/
def execWatchdogBoot (s : State) : Host.Outcome State Fault Refusal :=
  .next (if s.boot.stage = 4 ∧ !s.ctl.ready then s.askReset 2 else s)

/-- FW_BEAT_TICK (20_control_packets.md R469). -/
def execFwBeatTick (s : State) : Host.Outcome State Fault Refusal :=
  .next (if 4 ≤ s.boot.stage ∧ s.boot.stage ≤ 6 then { s with ctl.beat := (s.ctl.beat + 1) % 2 ^ 64 } else s)

/-! ### Loading the pool (R486 stage 5; 11_flash_translation.md R284; 06_brine_write_path.md R153, R154) -/

/-- The dump that a start-up reads: a copy of its header can be read and checks, and the stored dump key is of its epoch
(06_brine_write_path.md R149, R150). -/
def State.liveDump (s : State) (p : PoolIn) : Option Dump :=
  s.brn.dump.filter fun d =>
    p.dumpOk && leAt d.header 0 4 == 0x4442524E && leAt d.header 60 4 == crc32c (d.header.take 60) &&
      (s.keys.dumpStored.map Prod.fst) == some d.epoch

/-- The journal of a record of a dump, which the record does not name: that of its volume's group. -/
def State.dumpJournal (s : State) (nsid : Nat) : Nat :=
  match s.volHere? nsid with
  | some v => if (s.group v.ana).adopted then 1 - s.role else s.role
  | none => s.role

/-- The records of a dump in their order, each from the first of its copies that can be read and checks under the dump key; none where neither
does (06_brine_write_path.md R149, R150, R154). -/
def State.dumpRead (s : State) (p : PoolIn) (d : Dump) : List (Option MRec) :=
  ((List.range d.recs.length).zip d.recs).map fun x =>
    let copy (c : Nat) (b : Bytes) : Option Bytes :=
      match s.keys.dumpKey with
      | none => none
      | some k =>
        let m := Config.xtsDecrypt k (dumpTweak d.epoch c x.1) b
        if p.badRecs.contains (x.1, c) ∨ !mirrorOk m then none else some m
    ((copy 0 x.2.1).or (copy 1 x.2.2)).map fun m => mirrorRec (s.dumpJournal (leAt m 4 4)) m

/-- The records of a dump that lie above the tips, of volumes that this head owns. -/
def State.dumpDue (s : State) (ms : List (Option MRec)) : List MRec :=
  (ms.filterMap id).filter fun m =>
    s.heldJournals.contains m.journal && decide (m.jseq > s.tipOf m.journal) && !(s.peerInService && match s.volHere? m.nsid with
      | some v => !s.ownsGroup v.ana
      | none => false)

/-- The first sequence above a tip that an unreadable record of a dump, between two that can be read, loses of journal `j`. The own journal
stands first in a dump. A hole that may lie in either of two journals counts for both (DESIGN CHOICE, log 130). -/
def holeOf (own j mark tip : Nat) (prev next : Option MRec) : Option Nat :=
  let mine (m : Option MRec) : Bool := match m with
    | some m => m.journal == j
    | none => false
  let near := if j = own then prev.isNone || mine prev else next.isNone || mine next
  let lo := match prev.filter fun m => m.journal == j with
    | some m => if m.recIdx + 1 < m.recCnt then m.jseq else m.jseq + 1
    | none => mark + 1
  let q := Nat.max lo (tip + 1)
  if !near then none
  else
    match next.filter fun m => m.journal == j with
    | some m => if (if m.recIdx = 0 then m.jseq - 1 else m.jseq) < q then none else some q
    | none => some q

/-- The least first sequence of journal `j` that the unreadable records of a dump lose; `prev` is the last record that could be read. -/
def holesOf (own j mark tip : Nat) : Option MRec → List (Option MRec) → List Nat
  | _, [] => []
  | _, some m :: t => holesOf own j mark tip (some m) t
  | prev, none :: t => (holeOf own j mark tip prev (t.findSome? id)).toList ++ holesOf own j mark tip prev t

/-- The first lost sequence of a journal (06_brine_write_path.md R154): of a record that no copy gives, of a dump whose header cannot be read, or
of a reset without a dump. -/
def State.firstLostOf (s : State) (p : PoolIn) (j : Nat) : Option Nat :=
  let tip := s.tipOf j
  let inDump (d : Dump) : Bool := (leAt d.header 5 1).testBit j
  let holes := match s.liveDump p with
    | some d => if inDump d then holesOf s.role j (leAt d.header (8 + 8 * j) 8) tip none (s.dumpRead p d) else []
    | none =>
      match s.brn.dump with
      | some d => if inDump d ∧ !p.dumpOk ∧ (s.keys.dumpStored.map Prod.fst) = some d.epoch then [tip + 1] else []
      | none => []
  let missing := ((s.brn.expect.filter fun x => x.1 == j).map Prod.snd).filter fun q => decide (q > tip)
  match holes ++ missing with
  | [] => none
  | q :: t => some (t.foldl Nat.min q)

/-- The dump is restored as entries of the brine (R153). -/
def State.restoreDump (s : State) (p : PoolIn) : State :=
  match s.liveDump p with
  | none => s
  | some d =>
    let recs := s.dumpDue (s.dumpRead p d)
    let own := s.brn.mirror
    let at_ := (recs.map fun m => (m.journal, m.jseq)).eraseDups
    let s := { s with brn.mirror := recs }
    let s := at_.foldl (fun (s : State) k => s.adoptEntry k.1 k.2) s
    let s := { s with brn.mirror := own }.bumpBy R.BRN_REPLAY_REC_CNT recs.length
    s.heldJournals.foldl (fun (s : State) j =>
      let x := s.journal j
      let q := maxOf ((at_.filter fun k => k.1 == j).map Prod.snd)
      if q > x.jseq then s.putJournal { x with jseq := q, sub := 0 } else s) s

/-- A journal that has been rebuilt goes on at its tip (R284). -/
def State.rebuilt (s : State) (j : Nat) : State :=
  let x := s.journal j
  s.putJournal { x with jseq := Nat.max x.jseq x.tip, durable := Nat.max x.durable x.tip }

/-- Persistent keys that the rebuilt configuration holds are in their pages and slots again, with nothing of an earlier life (09_cipher_digest.md
R211). -/
def State.reloadStored (s : State) (p : PoolIn) : State :=
  let s := { s with
    keys.pages := s.keys.pages.filter fun (k : KeyPage) => !s.keys.pageStore.any fun q => q.no == k.no
    keys.slots := s.keys.slots.filter fun (k : KeySlot) => !s.keys.slotStore.any fun q => q.no == k.no
    keys.pageStore := s.keys.pageStore.map fun (k : KeyPage) => { k with err := 0 }
    keys.slotStore := s.keys.slotStore.map fun (k : KeySlot) => { k with err := 0 } }
  if s.keys.erased then s else s.loadKeys p.badPages p.badSlots

/-- Blocks that were ERASE_PENDING are erased again (12_harvest_health.md R291). -/
def State.eraseAgain (s : State) : State :=
  let due := s.ftl.blocks.filter fun b =>
    s.heldJournals.contains b.owner && b.state == .erasePending && b.eraseLeft.isEmpty && s.ust (s.topPan b.top) != .readOnly
  due.foldl (fun (s : State) b => s.eraseBlk b.top b.blk) s

/-- Armed cuts after a reset: one whose instant has passed is missed, the others are armed again (14_snapshots_replication.md R344). -/
def State.cutAgain (s : State) (c : Cut) : State :=
  if c.instant ≤ s.tide.time then s.missCut c.snap true
  else
    match s.armTimed c.instant (.cut c.snap c.scope c.obj) with
    | .ok t => t
    | .error _ => s.missCut c.snap true

/-- The journals, the keys and the dump of a pool that is not loaded yet. -/
def State.rebuildPool (s : State) (p : PoolIn) : State :=
  let s := p.rows.foldl (fun (s : State) b => s.journalRow true b) s
  if !s.pool.loaded then s
  else
    let s := (s.rebuilt 0).rebuilt 1
    let s := (s.reloadStored p).restoreDump p
    let s := [0, 1].foldl (fun (s : State) j =>
      if s.heldJournals.contains j then s.takeLate true j else (s.lateRecs j).foldl State.lateTable s) s
    let s := { s with
      mem.hbmSplit := (s.rd R.MEM_HBM_SPLIT).toNat, mem.ddrSplit := (s.rd R.MEM_DDR_SPLIT).toNat, mem.lock := true }
    let s := s.heldJournals.reverse.foldl (fun (s : State) j => match s.firstLostOf p j with
      | some q => s.loseBrine j q
      | none => s) s
    let s := s.heldJournals.foldl (fun (s : State) j => (s.resumeJournal j).dropHarvests j) s
    let s := if s.pair.state = .solo then (s.placeRec (1 - s.role) 0x03 0 (leBytes 1 cfgTakeover ++ leBytes 1 (1 - s.role))).takeGroups else s
    let s := s.ftl.imgs.foldl (fun (s : State) i => s.metaScan .mapPage i.id 0 32) s
    (s.snap.cuts.foldl State.cutAgain s.eraseAgain).armPeriods.poolRoCheck.reliabilityCheck

/-- POOL_LOAD (R486 stage 5): with the head in a pair or SOLO. `p` holds the rows of both journals as the checkpoints, index pages and records on
media give them, laid out as 15_pair_operation.md R367 lays out a row (DESIGN CHOICE, log 47), and what could not be read. (DEDUCED, log 91) -/
def execPoolLoad (p : PoolIn) (s : State) : Host.Outcome State Fault Refusal :=
  .next <|
    if !(s.boot.stage == 4 || s.boot.stage == 5) || !s.ctl.ready || !(s.pair.state == .paired || s.pair.state == .solo) then s
    else
      let s := { s with boot.stage := 5, brn.replaying := true, ftl.indexScan := p.scan }
      let s := if s.pool.loaded then s else s.rebuildPool p
      let s := { s with brn.expect := [] }
      if !s.pool.loaded then { s with brn.replaying := false, ftl.indexScan := false }
      else if s.peerInService && !s.unreleased.isEmpty then s.startRemirror
      else s.replayEnd

/-! ### Updating firmware (R496, R497) -/

/-- SLOT_BUSY. -/ def stSlotBusy := 0x0F00

/-- The slot that firmware opcodes act on: the one not running. While a recovery image runs, the slot that is not COMMITTED (DEDUCED, log 67). -/
def State.targetSlot (s : State) : Nat :=
  if s.boot.recovery then
    match s.boot.slots.committed with
    | some i => 1 - i
    | none => 1 - s.boot.slots.pref % 2
  else 1 - s.boot.slot % 2

/-- VER of a slot record (R494). -/
def slotVer (h : Bytes) : Nat := leAt h 9 1 + leAt h 10 2 * 256 + leAt h 12 1 * 2 ^ 24

/-- A page of a slot is written; its block is erased when the download first enters it. -/
def State.slotPage (s : State) (page : Nat) (b : Bytes) : State :=
  let s := if page % 64 = 0 then (s.sflClear (page / 64)).bump R.SFL_ERASE_CNT else s
  (s.sflPut page (b ++ List.replicate (4096 - b.length) 0xFF)).bump R.SFL_PROG_CNT

/-- FW_DOWNLOAD (R496): `data` is what host memory holds from HOST_ADDR on. -/
def execFwDownload (ring slot : Nat) (data : Bytes) (s : State) : Host.Outcome State Fault Refusal :=
  .next <| s.packet 0xC0 ring slot fun e _ s =>
    let off := e.num 10 4
    let len := e.num 14 4
    let i := s.targetSlot
    let base := slotBase i
    let data := slice data 0 len
    let head := if off = 0 then data else s.slotHeader i
    let total := leAt head 16 4 + 4096
    if len < 4096 ∨ len > 16777216 ∨ (len % 4096 ≠ 0 ∧ off + len ≠ total) then .fail s stInvalidField
    else if s.boot.slots.st i = 4 then .fail s stSlotBusy
    else if off ≠ 0 ∧ (!s.boot.dlActive ∨ off ≠ s.boot.dlNext) then .fail s 0x0F01
    else if off + len > 0x20000000 then .fail s 0x0F02
    else if s.bankBusy (bankOf base) then .waits
    else
      let s := s.emit (.hostRead (e.num 18 8) len)
      let s := if off = 0 then s.commitRec (s.boot.slots.setSt i 1) else s
      let s := (List.range (ceilDiv len 4096)).foldl (fun (s : State) k =>
        s.slotPage ((base + off) / 4096 + k) ((data.drop (4096 * k)).take 4096)) s
      let s := { s with boot.dlNext := off + len, boot.dlActive := decide (off + len < total) }
      .startDone (if off + len ≥ total then s.commitRec ((s.boot.slots.setSt i 2).setVer i (slotVer head)) else s) [] []

/-- FW_ACTIVATE (R496): `check` gives the verdicts on the target slot. An SVN below the fused one is VERSION_REFUSED (DEDUCED, log 67). -/
def execFwActivate (ring slot : Nat) (check : SlotCheck) (s : State) : Host.Outcome State Fault Refusal :=
  .next <| s.packet 0xC1 ring slot fun e _ s =>
    let i := s.targetSlot
    let h := s.slotHeader i
    let major := leAt h 9 1
    let code := s.imageCode h (fun n => s.sflBytes (slotBase i + 4096) n) check
    let differs := s.pair.state == .paired && match s.pair.hello with
      | some p => p.fwMajor != major
      | none => false
    if e.num 10 1 > 1 ∨ !e.zero 11 3 then .fail s stInvalidField
    else if s.boot.slots.st i = 4 then .fail s stSlotBusy
    else if code ≠ 0 ∧ code ≠ 6 then .done s 0x0F03 (leBytes 4 code) []
    else if code = 6 ∨ major ≠ 4 then .fail s 0x0F04
    else if differs then .fail s 0x0F05
    else
      let s := s.commitRec { s.boot.slots.setSt i 3 with tries := 1, pref := i }
      .done (if e.num 10 1 = 1 then s.askReset 5 else s) stOk [] []

/-- A slot is erased (R496). -/
def State.eraseSlotFlash (s : State) (i : Nat) : State :=
  let b0 := slotBase i / 262144
  let used := ((s.sfl.programmed.map fun p => p / 64).eraseDups).filter fun b => decide (b0 ≤ b) && decide (b < b0 + 2048)
  used.foldl (fun (s : State) b => (s.sflClear b).bump R.SFL_ERASE_CNT) s

/-- FW_COMMIT (R496). -/
def execFwCommit (ring slot : Nat) (s : State) : Host.Outcome State Fault Refusal :=
  .next <| s.packet 0xC2 ring slot fun _ _ s =>
    if !s.boot.trial then .fail s 0x0F06
    else
      let i := s.boot.slot % 2
      let s := s.commitRec ((s.boot.slots.setSt i 4).setSt (1 - i) 5)
      let s := { s with boot.trial := false, boot.svn := Nat.max s.boot.svn (leAt (s.slotHeader i) 13 1) }
      .done (s.eraseSlotFlash (1 - i)) stOk [] []

/-- FW_STATUS (R496). -/
def execFwStatus (ring slot : Nat) (s : State) : Host.Outcome State Fault Refusal :=
  .next <| s.packet 0xC3 ring slot fun _ _ s =>
    let r := s.boot.slots
    .done s stOk (leBytes 1 s.boot.slot ++ leBytes 1 r.stA ++ leBytes 1 r.stB ++ leBytes 1 r.tries ++ leBytes 4 r.verA ++ leBytes 4 r.verB ++
      leBytes 4 s.boot.dlNext) []

/-- RECOVERY_GO (R497): `image` is what host memory holds at BOOT_RCV_ADDR. -/
def execRecoveryGo (image : Bytes) (check : SlotCheck) (s : State) : Host.Outcome State Fault Refusal := .next (s.recover image check)

/-! ### Identity (R499) -/

/-- GET_IDENTITY (R499). -/
def execGetIdentity (ring slot : Nat) (s : State) : Host.Outcome State Fault Refusal :=
  .next <| s.packet 0x00 ring slot fun _ _ s =>
    let cal := s.calRow.getD []
    .done s stOk (leBytes 4 (s.view R.TOP_DEVICE_ID) ++ leBytes 4 s.boot.fwVer ++ leBytes 4 (s.view R.TOP_HEAD_INFO))
      (slice cal 0x40 256 ++ slice cal 0x140 2048 ++ slice s.boot.platformId 0 64)

/-- RESET_HEAD (R499). -/
def execResetHead (ring slot : Nat) (s : State) : Host.Outcome State Fault Refusal :=
  .next <| s.packet 0x02 ring slot fun e _ s =>
    if e.num 10 1 ≠ 0 ∨ !e.zero 11 3 then .fail s stInvalidField else .done (s.askReset 3) stOk [] []

/-! ### Field access (R500-R502) -/

/-- UNIQUE_ID. -/
def uniqueBytes : Bytes := (List.range 16).map Config.uniqueId

/-- HMAC-SHA-256 (R208, FIPS 198-1) under a key of at most 64 bytes. -/
def hmac256 (key msg : Bytes) : Bytes :=
  let k := slice key 0 64
  Config.sha2 1 (k.map (· ^^^ 0x5C) ++ Config.sha2 1 (k.map (· ^^^ 0x36) ++ msg))

/-- FIELD_CHALLENGE (R501). -/
def execFieldChallenge (ring slot : Nat) (s : State) : Host.Outcome State Fault Refusal :=
  .next <| s.packet 0xE0 ring slot fun _ _ s =>
    match s.drbgBytes 32 with
    | (n, s) => .done { s with boot.nonce := some n } stOk [] (n ++ uniqueBytes)

/-- Minutes of the lockout after `n` failures (R502). -/
def lockMinutes (n : Nat) : Nat := if n < 3 then 0 else if n ≥ 13 then 1024 else Nat.min (2 ^ (n - 3)) 1024

/-- Seconds that remain of the lockout, rounded up. -/
def State.lockLeft (s : State) : Nat :=
  let end_ := s.boot.lastFail + lockMinutes s.boot.fails * 60000000000
  ceilDiv (end_ - s.tide.time) 1000000000

/-- The failure count is kept as a record of TYPE 2 of the COMMIT log (layout of the record: DESIGN CHOICE, log 68). -/
def State.setFails (s : State) (n : Nat) : State := { s with boot.fails := n }.logRecord 2 2 (some (leBytes 4 n))

/-- A SECURITY event of a session: its result (log 68). -/
def State.sessionEvent (s : State) (result : Nat) : State := s.event 0x13 evcSecurity 3 0 (evValue result)

/-- FIELD_UNLOCK (R500-R502). The order of the refusals is the model's (DESIGN CHOICE, log 68). -/
def execFieldUnlock (ring slot : Nat) (s : State) : Host.Outcome State Fault Refusal :=
  .next <| s.packet 0xE1 ring slot fun e _ s =>
    let m := e.num 10 1
    let scope := e.num 11 1
    let secret := e.sub 14 32
    let stored := if m = 1 then s.boot.pwd else s.boot.fkey
    if m < 1 ∨ m > 2 ∨ scope > 7 ∨ !e.zero 12 2 then .fail s stInvalidField
    else if s.boot.sessionOpen then .fail s 0x0F0B
    else
      match stored with
      | none => .fail s 0x0F09
      | some k =>
        if s.lockLeft > 0 then .done s 0x0F08 (leBytes 4 s.lockLeft) []
        else if m = 2 ∧ s.boot.nonce.isNone then .fail s 0x0F07
        else
          let good := if m = 1 then Config.sha2 2 secret == k
            else hmac256 k (s.boot.nonce.getD [] ++ uniqueBytes ++ leBytes 1 scope) == secret
          let s := if m = 2 then { s with boot.nonce := none } else s
          if !good then
            let s := { s with boot.lastFail := s.tide.time }.setFails (Nat.min 0xFFFFFFFF (s.boot.fails + 1))
            .fail ((s.bump R.BOOT_AUTH_FAIL_CNT).sessionEvent stAuthFailed) stAuthFailed
          else
            let s := s.setFails 0
            let s := if scope.testBit 2 then
                { s with keys.asserted := putBits s.keys.asserted 4 4 1 }.raiseAlarm 4 true
              else s
            .done ({ s with boot.sessionOpen := true, boot.scope := scope }.sessionEvent stOk) stOk [] []

/-- FIELD_LOCK (R501). -/
def execFieldLock (ring slot : Nat) (s : State) : Host.Outcome State Fault Refusal :=
  .next <| s.packet 0xE2 ring slot fun _ _ s => .done s.endSession stOk [] []

/-- FIELD_PROVISION (R501). -/
def execFieldProvision (ring slot : Nat) (s : State) : Host.Outcome State Fault Refusal :=
  .next <| s.packet 0xE3 ring slot fun e _ s =>
    let m := e.num 10 1
    let secret := e.sub 12 32
    if m < 1 ∨ m > 2 ∨ !e.zero 11 1 then .fail s stInvalidField
    else if (if m = 1 then s.boot.pwd else s.boot.fkey).isSome then .fail s 0x0F0A
    else if m = 1 then .done { s with boot.pwd := some (Config.sha2 2 secret) } stOk [] []
    else .done { s with boot.fkey := some secret } stOk [] []

/-- FIELD_SESSION_EXPIRY (R501). -/
def execFieldSessionExpiry (s : State) : Host.Outcome State Fault Refusal := .next s.endSession

/-- NONCE_EXPIRY (R501). -/
def execNonceExpiry (s : State) : Host.Outcome State Fault Refusal := .next { s with boot.nonce := none }

end Sys2Proof.Machine
end

