-- ==== Sys2Proof/Machine/ModuleCpl.lean ====
section
/-! DEFINITION. Completions of module commands, on the own port or through the peer head (13_media_link.md R317-R334). -/
namespace Sys2Proof.Machine

/-- The completion record that a module sends (R321). -/
structure Cpl where
  tag : Nat
  die : Nat
  opc : Nat
  status : Nat
  level : Nat
  result1 : Nat
  deriving DecidableEq, Repr

/-- A completion record whose CRC holds. -/
def cplOf (b : Bytes) : Option Cpl :=
  if b.length ≠ 32 ∨ leAt b 28 4 ≠ crc32c (b.take 28) then none
  else some { tag := leAt b 0 2, die := leAt b 2 2, opc := leAt b 4 1, status := leAt b 5 1, level := leAt b 6 1, result1 := leAt b 24 4 }

/-- The statuses that a command can end with (R322, R326); any other is taken as INVALID (DEDUCED, log 69). -/
def cplFits (opc status : Nat) : Bool :=
  match opc with
  | 1 => [0, 1, 4, 7, 8, 9].contains status
  | 2 => [0, 2, 4, 7, 8].contains status
  | 3 => [0, 3, 4, 7, 8].contains status
  | 6 => [0, 4, 5, 8].contains status
  | _ => [0, 7, 8].contains status

/-- A port state of a reservation (R321). -/
def rsvOf (c : Nat) : RsvSt := if c = 1 then .registered else if c = 2 then .fenced else .none

/-! ### Rows -/

/-- A column, or the index page, of a row is programmed: a closed row with nothing outstanding is PROGRAMMED, and what waited for it follows
(11_flash_translation.md R275, R282; 06_brine_write_path.md R144). -/
def State.columnDone (s : State) (row d : Nat) : State :=
  match findKey Row.id row s.ftl.rows with
  | none => s
  | some r =>
    let r := { r with outstanding := r.outstanding.filter (· != d) }
    let s := s.putRow r
    if r.state = .closed ∧ r.outstanding = [] then
      let fps (n : Nat) : Bytes := ((findKey Prod.fst n s.red.fps).map Prod.snd).getD []
      let s := s.rowDone r fps
      (((s.ckptCheck r.journal).pump r.journal).checkEnts).rebuildPump
    else s

/-- A row becomes VOID and is packed again; its journal goes on (R277). -/
def State.rowLost (s : State) (row : Nat) : State :=
  match findKey Row.id row s.ftl.rows with
  | none => s
  | some r => s.voidRow r

/-- A program status failure (12_harvest_health.md R304): the row is VOID and its stripe block flagged RETIRE; an index page is written again on
the next index die (11_flash_translation.md R277). -/
def State.programFailed (s : State) (row d : Nat) (isIndex : Bool) : State :=
  let w := s.wearOf d
  let s := { s.putWear { w with progFail := w.progFail + 1 } with ftl.health.progFail := s.ftl.health.progFail + 1 }
  match findKey Row.id row s.ftl.rows with
  | none => s
  | some r =>
    if isIndex then s.indexAgain r d
    else
      let u := Nat.max 1 (s.topU r.top)
      let b := s.blk r.top (r.row / u)
      let s := s.putBlk { b with retire := true, retireDies := if b.retireDies.contains d then b.retireDies else b.retireDies ++ [d] }
      s.voidRow r

/-- A read-back (11_flash_translation.md R278; R334): equal to the column it is kept, erased it is programmed, anything else voids the row, or,
for an index page, writes it again (11_flash_translation.md R277). -/
def State.readBackDone (s : State) (c : ModCmd) (d row : Nat) (isIndex : Bool) (status : Nat) (data : Bytes) : State :=
  if status = 0 ∧ data = c.data then
    let resumed := match findKey Row.id row s.ftl.rows with
      | some r => (s.blk r.top (r.row / Nat.max 1 (s.topU r.top))).resume && !isIndex
      | none => false
    (if resumed then s.bump R.FTL_RESUME_KEEP_CNT else s).columnDone row (if isIndex then indexMark else d)
  else if status = 9 then
    s.issue c.port c.die 0x02 (c.flags % 2) c.params c.data (if isIndex then .index row else .program row)
  else if isIndex then
    match findKey Row.id row s.ftl.rows with
    | some r => s.indexAgain r d
    | none => s
  else s.rowLost row

/-- The read-back of a program of a root record: equal it is kept, erased it is programmed, else the root goes to another page (R334). -/
def State.rootBackDone (s : State) (c : ModCmd) (j status : Nat) : State :=
  if status = 0 ∧ c.rdata = c.data then s.rootSettled j
  else if status = 9 then s.issue c.port c.die 0x02 (c.flags % 2) c.params c.data (.anchor j)
  else s.rootTo j (dieUnit c.port c.die)

/-- The same of a program of a rebuild. -/
def State.rebuildBackDone (s : State) (c : ModCmd) (pan pos status : Nat) : State :=
  let kept := status == 0 && c.rdata == c.data
  if status = 9 then s.issue c.port c.die 0x02 (c.flags % 2) c.params c.data (.rebuild pan pos)
  else s.rebuildCpl (dieUnit c.port c.die) pan pos kept (!kept)

/-! ### Reservations (R326, R329; 15_pair_operation.md R374, R376, R383) -/

/-- A reservation record has been read: discovery ends, or an election or a registration goes on. -/
def State.gotReservation (s : State) (port : Nat) (b : Bytes) (found : List Bytes) : State :=
  if b.length < 32 then s
  else
    let a := (rsvOf (leAt b 0 1), leAt b 8 8)
    let o := (rsvOf (leAt b 1 1), leAt b 16 8)
    let own := if s.role = 0 then a else o
    let oth := if s.role = 0 then o else a
    let m := { s.mod port with ownRsv := own.1, ownEpoch := own.2, otherRsv := oth.1, otherEpoch := oth.2 }
    let s := s.putMod m
    let s := if m.discovered then s else (s.judgeModule port).afterUnits
    s.reservationSeen port found

/-- A RESERVE that changes the reservation has been accepted. -/
def State.reserved (s : State) (c : ModCmd) (result1 : Nat) : State :=
  let m := s.mod c.port
  match c.why with
  | .register =>
    (s.putMod { m with ownRsv := .registered, ownEpoch := leAt c.params 8 8, otherRsv := rsvOf (bits result1 3 2) }).registerDone
  | .preempt => s.askReserve c.port
  | .release => s.putMod { m with otherRsv := .none }
  | _ => s

/-- The own port of a module is fenced (15_pair_operation.md R376); a head that rejoins waits for the release. -/
def State.sawFenced (s : State) (port : Nat) : State :=
  let s := s.putMod { s.mod port with ownRsv := .fenced }
  if s.pair.state = .sync ∧ s.pair.rejoinStep > 0 then s else s.enterFenced

/-! ### What a completion does -/

/-- A completion served for the peer goes back to it (15_pair_operation.md R361). -/
def State.proxyBack (s : State) (c : ModCmd) (tag : Nat) (b : Bytes) : State :=
  let r := leBytes 2 tag ++ slice b 2 26
  s.ptlSend 2 0x06 (leBytes 4 c.port ++ r ++ leBytes 4 (crc32c r) ++ c.rdata)

/-- The command has ended with a status that fits it; what it was for goes on. -/
def State.cplAct (s : State) (c : ModCmd) (k : Cpl) (b : Bytes) (found : List Bytes) : State :=
  let d := dieUnit c.port c.die
  let ok := k.status == 0
  match c.why with
  | .modRecord tries => (s.gotModRecord c.port tries (if ok then c.rdata else [])).afterUnits
  | .dieRecord pos tries => (s.gotDieRecord c.port pos tries (if ok then c.rdata else [])).afterUnits
  | .rsvRead => s.gotReservation c.port c.rdata found
  | .register => if ok then s.reserved c k.result1 else s.askReserve c.port
  | .preempt => if ok then s.reserved c k.result1 else s.preemptRefused c.port
  | .release => if ok then s.reserved c k.result1 else s.askReserve c.port
  | .status =>
    if c.rdata.length < 6 then s
    else ((s.putMod { s.mod c.port with temp := leAt c.rdata 0 2, power := leAt c.rdata 2 2, failedDies := leAt c.rdata 4 2 }).sweepReads).rebuildPump
  | .read job part src =>
    let s := if ok then s.noteRetry d k.level else s
    ((s.readCpl job part src (leAt c.params 6 1) k.status k.level (slice c.rdata 0 (leAt c.params 12 4))).sweepReads).replPump
  | .index row => if ok then s.columnDone row indexMark else s.programFailed row d true
  | .program row => if ok then s.columnDone row d else s.programFailed row d false
  | .readBack row isIndex => s.readBackDone c d row isIndex k.status c.rdata
  | .erase top blk => s.eraseCpl top blk d ok
  | .anchor j => if ok then s.rootSettled j else s.rootTo j d
  | .indexErase => s
  | .sanErase => if ok then s else (s.sanDieFailed d).afterUnits
  | .rebuild pan pos => s.rebuildCpl d pan pos ok false
  | .rootBack j => s.rootBackDone c j k.status
  | .rebuildBack pan pos => s.rebuildBackDone c pan pos k.status
  | .proxied tag => s.proxyBack c tag b

/-- INVALID (R322): an event; the command is reissued once, and a second INVALID counts as no completion. -/
def State.cplInvalid (s : State) (c : ModCmd) : State :=
  let u := if c.die = 0xFFFF then unitId 5 c.port else dieUnit c.port c.die
  let s := s.event 0x0B evcRefused 3 u (evStatus 2 6 ++ evValue c.opc)
  if !c.reissued then s.reissue c
  else
    let again := c.why == .register || c.why == .release || c.why == .preempt
    let s := (rowDieCommandTimeout c.port c.tag s).afterUnits
    if again then s.askReserve c.port else s

/-- The completion of a command in flight: the counts of R337, then the response of R322. `own` says that it came on the own port. -/
def State.cplDone (s : State) (c : ModCmd) (k : Cpl) (b : Bytes) (own : Bool) (found : List Bytes) : State :=
  let s := if own && k.status != 0 && k.status != 9 then s.bump R.LNK_CPL_ERR_CNT else s
  let s := if own && k.status == 4 then s.bump R.LNK_FENCED_CNT else s
  let proxied := match c.why with
    | .proxied _ => true
    | _ => false
  if k.status = 8 then (if own then s.bump R.LNK_BUSY_CNT else s).putCmd { c with busyWait := true, rdata := [] }
  else if k.status = 4 then (if own then (s.endCmd c).sawFenced c.port else s)
  else if proxied then ((s.endCmd c).dieAnswered (dieUnit c.port c.die)).cplAct c k b found
  else if !cplFits c.opc k.status then s.cplInvalid c
  else if k.status = 7 then
    if c.die = 0xFFFF then s.endCmd c else ((s.dieOut (dieUnit c.port c.die) 2 .failed).rescueReads).afterUnits
  else
    let s := s.endCmd c
    let s := if c.die = 0xFFFF then s else s.dieAnswered (dieUnit c.port c.die)
    s.cplAct c k b found

/-- The command that a completion answers: sent on this path and not waiting out a BUSY. -/
def State.answered (s : State) (port : Nat) (k : Cpl) (viaPeer : Bool) : Option ModCmd :=
  (s.cmdOf port k.tag).filter fun c => c.sent && c.viaPeer == viaPeer && !c.busyWait && c.die == k.die && c.opc == k.opc

/-! ### Rows of the table -/

/-- MODULE_CPL_RX (R321, R322): a record whose CRC fails, or that answers no outstanding command, counts as not received. `found` are rows of the
failed journal after the shadow tip, where the completion ends an election (log 47). -/
def execModuleCplRx (port : Nat) (rec_ : Bytes) (found : List Bytes) (s : State) : Host.Outcome State Fault Refusal :=
  .next <|
    match cplOf rec_ with
    | none => s
    | some k =>
      match s.answered port k false with
      | none => s
      | some c => s.cplDone c k rec_ true found

/-- MODULE_RDATA_RX (R316, R317): data of a command at its offset. -/
def execModuleRdataRx (port tag off : Nat) (data : Bytes) (s : State) : Host.Outcome State Fault Refusal :=
  .next <|
    match (s.cmdOf port tag).filter fun c => c.sent && !c.viaPeer && !c.busyWait with
    | none => s
    | some c => s.putCmd { c with rdata := slice c.rdata 0 off ++ data ++ c.rdata.drop (off + data.length) }

/-- PROXY_CPL_RX (15_pair_operation.md R361): port, completion record, data. (DEDUCED, log 95) -/
def execProxyCplRx (h : PtlHdr) (payload : Bytes) (found : List Bytes) (s : State) : Host.Outcome State Fault Refusal :=
  .next <| s.onPtl 2 h payload fun b s =>
    match cplOf (slice b 4 32) with
    | none => s
    | some k =>
      match s.answered (leAt b 0 4) k true with
      | none => s
      | some c => s.cplDone { c with rdata := b.drop 36 } k (slice b 4 32) false found

end Sys2Proof.Machine
end

