-- ==== Sys2Proof/Machine/Dispatch.lean ====
section
/-! DEFINITION. The meaning of every command: one direct call of it per constructor. -/
namespace Sys2Proof.Machine

/-- The effect of a command on everything but the queue of waiting commands. -/
def exec (i : Instr) (s : State) : Host.Outcome State Fault Refusal :=
  match i with
  | .registerWrite bar off size value => Sys2Proof.Machine.execRegisterWrite bar off size value s
  | .reg64LoRead bar off => Sys2Proof.Machine.execReg64LoRead bar off s
  | .reg64HiRead bar off => Sys2Proof.Machine.execReg64HiRead bar off s
  | .reg64LoWrite bar off value => Sys2Proof.Machine.execReg64LoWrite bar off value s
  | .reg64HiWrite bar off value => Sys2Proof.Machine.execReg64HiWrite bar off value s
  | .misalignedAccess bar off size value write => Sys2Proof.Machine.execMisalignedAccess bar off size value write s
  | .gatedRegisterAccess off size value write => Sys2Proof.Machine.execGatedRegisterAccess off size value write s
  | .hostDoorbellWrite offset size value entries => Sys2Proof.Machine.execHostDoorbellWrite offset size value entries s
  | .powerOnReset b => Sys2Proof.Machine.execPowerOnReset b s
  | .resetPin => Sys2Proof.Machine.execResetPin s
  | .warmReset b => Sys2Proof.Machine.execWarmReset b s
  | .hostPcieReset => Sys2Proof.Machine.execHostPcieReset s
  | .firmwareReady => Sys2Proof.Machine.execFirmwareReady s
  | .poolLoad p => Sys2Proof.Machine.execPoolLoad p s
  | .watchdogFw => Sys2Proof.Machine.execWatchdogFw s
  | .watchdogBoot => Sys2Proof.Machine.execWatchdogBoot s
  | .fwBeatTick => Sys2Proof.Machine.execFwBeatTick s
  | .syncRx m offset => Sys2Proof.Machine.execSyncRx m offset s
  | .announceRx m rank tenMhz => Sys2Proof.Machine.execAnnounceRx m rank tenMhz s
  | .referenceLost cause => Sys2Proof.Machine.execReferenceLost cause s
  | .ppsInEdge tenMhz => Sys2Proof.Machine.execPpsInEdge tenMhz s
  | .peerDelayTimer delays => Sys2Proof.Machine.execPeerDelayTimer delays s
  | .slewEnd => Sys2Proof.Machine.execSlewEnd s
  | .stepApplied => Sys2Proof.Machine.execStepApplied s
  | .holdoverExceeded => Sys2Proof.Machine.execHoldoverExceeded s
  | .ppsOutEdge => Sys2Proof.Machine.execPpsOutEdge s
  | .slotAdvance => Sys2Proof.Machine.execSlotAdvance s
  | .deadlineMissed cmd cause rsrc => Sys2Proof.Machine.execDeadlineMissed cmd cause rsrc s
  | .timedEventFire => Sys2Proof.Machine.execTimedEventFire s
  | .farInstantArm => Sys2Proof.Machine.execFarInstantArm s
  | .harvestBudgetSwitch => Sys2Proof.Machine.execHarvestBudgetSwitch s
  | .getLogPage e => Sys2Proof.Machine.execGetLogPage e s
  | .identify e => Sys2Proof.Machine.execIdentify e s
  | .abort e => Sys2Proof.Machine.execAbort e s
  | .setFeatures e => Sys2Proof.Machine.execSetFeatures e s
  | .getFeatures e => Sys2Proof.Machine.execGetFeatures e s
  | .asynchronousEventRequest e => Sys2Proof.Machine.execAsynchronousEventRequest e s
  | .keepAlive e => Sys2Proof.Machine.execKeepAlive e s
  | .connect e => Sys2Proof.Machine.execConnect e s
  | .propertyGet e => Sys2Proof.Machine.execPropertyGet e s
  | .propertySet e => Sys2Proof.Machine.execPropertySet e s
  | .disconnect e => Sys2Proof.Machine.execDisconnect e s
  | .formatNvm e => Sys2Proof.Machine.execFormatNvm e s
  | .formatComplete nsid => Sys2Proof.Machine.execFormatComplete nsid s
  | .sanitize e => Sys2Proof.Machine.execSanitize e s
  | .sanitizeProgress failed => Sys2Proof.Machine.execSanitizeProgress failed s
  | .sanitizeComplete => Sys2Proof.Machine.execSanitizeComplete s
  | .flush e => Sys2Proof.Machine.execFlush e s
  | .flushComplete cmd => Sys2Proof.Machine.execFlushComplete cmd s
  | .write e => Sys2Proof.Machine.execWrite e s
  | .read e => Sys2Proof.Machine.execRead e s
  | .writeZeroes e => Sys2Proof.Machine.execWriteZeroes e s
  | .datasetManagement e => Sys2Proof.Machine.execDatasetManagement e s
  | .verify e => Sys2Proof.Machine.execVerify e s
  | .rangeLockGrant cmd => Sys2Proof.Machine.execRangeLockGrant cmd s
  | .ordRelease cmd => Sys2Proof.Machine.execOrdRelease cmd s
  | .createHostQueue ring slot => Sys2Proof.Machine.execCreateHostQueue ring slot s
  | .deleteHostQueue ring slot => Sys2Proof.Machine.execDeleteHostQueue ring slot s
  | .cmReqRx n m => Sys2Proof.Machine.execCmReqRx n m s
  | .cmRepRx n qpn m => Sys2Proof.Machine.execCmRepRx n qpn m s
  | .cmRtuRx n qpn => Sys2Proof.Machine.execCmRtuRx n qpn s
  | .cmRejRx n qpn => Sys2Proof.Machine.execCmRejRx n qpn s
  | .cmMraRx n qpn => Sys2Proof.Machine.execCmMraRx n qpn s
  | .cmDreqRx n qpn remote => Sys2Proof.Machine.execCmDreqRx n qpn remote s
  | .cmDrepRx n qpn => Sys2Proof.Machine.execCmDrepRx n qpn s
  | .sendRx n qpn psn invalidate first last payload => Sys2Proof.Machine.execSendRx n qpn psn invalidate first last payload s
  | .rdmaWriteRx n qpn psn first last imm va key len payload => Sys2Proof.Machine.execRdmaWriteRx n qpn psn first last imm va key len payload s
  | .ackRx n qpn psn => Sys2Proof.Machine.execAckRx n qpn psn s
  | .seqNakRx n qpn psn => Sys2Proof.Machine.execSeqNakRx n qpn psn s
  | .rnrNakRx n qpn psn timer => Sys2Proof.Machine.execRnrNakRx n qpn psn timer s
  | .fatalNakRx n qpn => Sys2Proof.Machine.execFatalNakRx n qpn s
  | .readResponseRx n qpn psn last payload => Sys2Proof.Machine.execReadResponseRx n qpn psn last payload s
  | .ackTimeout qpn => Sys2Proof.Machine.execAckTimeout qpn s
  | .privAckTimeout qpn => Sys2Proof.Machine.execPrivAckTimeout qpn s
  | .rnrWaitExpiry qpn => Sys2Proof.Machine.execRnrWaitExpiry qpn s
  | .contextFetchDone qpn => Sys2Proof.Machine.execContextFetchDone qpn s
  | .cnpRx n qpn => Sys2Proof.Machine.execCnpRx n qpn s
  | .alphaUpdateTimer qpn => Sys2Proof.Machine.execAlphaUpdateTimer qpn s
  | .rateIncreaseTimer qpn => Sys2Proof.Machine.execRateIncreaseTimer qpn s
  | .byteCounterExpiry qpn => Sys2Proof.Machine.execByteCounterExpiry qpn s
  | .pfcPauseRx port prio pause => Sys2Proof.Machine.execPfcPauseRx port prio pause s
  | .pfcStorm port ended => Sys2Proof.Machine.execPfcStorm port ended s
  | .ethPortDown port => Sys2Proof.Machine.execEthPortDown port s
  | .registerMemoryKey ring slot => Sys2Proof.Machine.execRegisterMemoryKey ring slot s
  | .revokeMemoryKey ring slot => Sys2Proof.Machine.execRevokeMemoryKey ring slot s
  | .revokeComplete index => Sys2Proof.Machine.execRevokeComplete index s
  | .revokeLimitExpiry index => Sys2Proof.Machine.execRevokeLimitExpiry index s
  | .brineReserveGrant => Sys2Proof.Machine.execBrineReserveGrant s
  | .mirrorBacklogRelease => Sys2Proof.Machine.execMirrorBacklogRelease s
  | .mirrorRx h payload => Sys2Proof.Machine.execMirrorRx h payload s
  | .pairAckRx chan ack => Sys2Proof.Machine.execPairAckRx chan ack s
  | .drainTake journal => Sys2Proof.Machine.execDrainTake journal s
  | .remirrorDone => Sys2Proof.Machine.execRemirrorDone s
  | .acceptBrineLoss ring slot => Sys2Proof.Machine.execAcceptBrineLoss ring slot s
  | .engineSegmentDone job => Sys2Proof.Machine.execEngineSegmentDone job s
  | .engineJobWatchdog job => Sys2Proof.Machine.execEngineJobWatchdog job s
  | .engineCoreFault unit hard => Sys2Proof.Machine.execEngineCoreFault unit hard s
  | .contextSaveDone engine cluster => Sys2Proof.Machine.execContextSaveDone engine cluster s
  | .createDedupDomain ring slot entropyOk => Sys2Proof.Machine.execCreateDedupDomain ring slot entropyOk s
  | .deleteDedupDomain ring slot => Sys2Proof.Machine.execDeleteDedupDomain ring slot s
  | .getDedupDomain ring slot => Sys2Proof.Machine.execGetDedupDomain ring slot s
  | .setVolumeDomain ring slot => Sys2Proof.Machine.execSetVolumeDomain ring slot s
  | .compressJob ring slot src ctx => Sys2Proof.Machine.execCompressJob ring slot src ctx s
  | .decompressJob ring slot src ctx => Sys2Proof.Machine.execDecompressJob ring slot src ctx s
  | .setCodecGeneration ring slot => Sys2Proof.Machine.execSetCodecGeneration ring slot s
  | .cipherJob ring slot src aad ctx => Sys2Proof.Machine.execCipherJob ring slot src aad ctx s
  | .digestJob ring slot src ctx => Sys2Proof.Machine.execDigestJob ring slot src ctx s
  | .reloadKeys ring slot badPages badSlots entropyOk => Sys2Proof.Machine.execReloadKeys ring slot badPages badSlots entropyOk s
  | .keyPageCfgWrite page value => Sys2Proof.Machine.execKeyPageCfgWrite page value s
  | .keyPageKeyWrite page word value => Sys2Proof.Machine.execKeyPageKeyWrite page word value s
  | .keyPageCommit page => Sys2Proof.Machine.execKeyPageCommit page s
  | .keyPageGenerate page entropyOk => Sys2Proof.Machine.execKeyPageGenerate page entropyOk s
  | .keyPageErase page => Sys2Proof.Machine.execKeyPageErase page s
  | .keySlotKeyWrite slot word value => Sys2Proof.Machine.execKeySlotKeyWrite slot word value s
  | .keySlotCommit slot => Sys2Proof.Machine.execKeySlotCommit slot s
  | .keySlotGenerate slot entropyOk => Sys2Proof.Machine.execKeySlotGenerate slot entropyOk s
  | .keySlotErase slot => Sys2Proof.Machine.execKeySlotErase slot s
  | .forcedAlarm value => Sys2Proof.Machine.execForcedAlarm value s
  | .alarmAssert source holds => Sys2Proof.Machine.execAlarmAssert source holds s
  | .getUnit ring slot => Sys2Proof.Machine.execGetUnit ring slot s
  | .createPan ring slot mlist => Sys2Proof.Machine.execCreatePan ring slot mlist s
  | .deletePan ring slot => Sys2Proof.Machine.execDeletePan ring slot s
  | .buildDefaultLayout ring slot => Sys2Proof.Machine.execBuildDefaultLayout ring slot s
  | .setUnitService ring slot => Sys2Proof.Machine.execSetUnitService ring slot s
  | .replaceMember ring slot => Sys2Proof.Machine.execReplaceMember ring slot s
  | .dieCommandTimeout port tag => Sys2Proof.Machine.execDieCommandTimeout port tag s
  | .bookedReadTimeout job => Sys2Proof.Machine.execBookedReadTimeout job s
  | .rebuildPositionEnd pan pos => Sys2Proof.Machine.execRebuildPositionEnd pan pos s
  | .unitStateRecordRx h payload => Sys2Proof.Machine.execUnitStateRecordRx h payload s
  | .grantRequestRx h journal stream => Sys2Proof.Machine.execGrantRequestRx h journal stream s
  | .grantRx h payload => Sys2Proof.Machine.execGrantRx h payload s
  | .moduleCplRx port rec_ found => Sys2Proof.Machine.execModuleCplRx port rec_ found s
  | .harvestStart journal top => Sys2Proof.Machine.execHarvestStart journal top s
  | .harvestCopy top blk => Sys2Proof.Machine.execHarvestCopy top blk s
  | .harvestCommit top blk => Sys2Proof.Machine.execHarvestCommit top blk s
  | .harvestErase top blk => Sys2Proof.Machine.execHarvestErase top blk s
  | .setHarvestBudget ring slot => Sys2Proof.Machine.execSetHarvestBudget ring slot s
  | .healthRecordTimer => Sys2Proof.Machine.execHealthRecordTimer s
  | .tempBinTick => Sys2Proof.Machine.execTempBinTick s
  | .mediaPortUp port width rate mismatch => Sys2Proof.Machine.execMediaPortUp port width rate mismatch s
  | .mediaPortDown port => Sys2Proof.Machine.execMediaPortDown port s
  | .moduleEventRx port code die => Sys2Proof.Machine.execModuleEventRx port code die s
  | .moduleRdataRx port tag off data => Sys2Proof.Machine.execModuleRdataRx port tag off data s
  | .moduleStatusPoll => Sys2Proof.Machine.execModuleStatusPoll s
  | .modulePresenceLost port => Sys2Proof.Machine.execModulePresenceLost port s
  | .moduleBusyRetry port tag => Sys2Proof.Machine.execModuleBusyRetry port tag s
  | .getModuleInfo ring slot => Sys2Proof.Machine.execGetModuleInfo ring slot s
  | .proxyCmdRx h payload => Sys2Proof.Machine.execProxyCmdRx h payload s
  | .proxyCplRx h payload found => Sys2Proof.Machine.execProxyCplRx h payload found s
  | .setVolumeGroup ring slot => Sys2Proof.Machine.execSetVolumeGroup ring slot s
  | .createSnapshot ring slot => Sys2Proof.Machine.execCreateSnapshot ring slot s
  | .deleteSnapshot ring slot => Sys2Proof.Machine.execDeleteSnapshot ring slot s
  | .listSnapshots ring slot => Sys2Proof.Machine.execListSnapshots ring slot s
  | .cloneSnapshot ring slot => Sys2Proof.Machine.execCloneSnapshot ring slot s
  | .getSnapshotSpace ring slot => Sys2Proof.Machine.execGetSnapshotSpace ring slot s
  | .snapshotSpaceScanDone ring slot => Sys2Proof.Machine.execSnapshotSpaceScanDone ring slot s
  | .createReplSession ring slot => Sys2Proof.Machine.execCreateReplSession ring slot s
  | .startReplication ring slot => Sys2Proof.Machine.execStartReplication ring slot s
  | .getReplSession ring slot => Sys2Proof.Machine.execGetReplSession ring slot s
  | .deleteReplSession ring slot => Sys2Proof.Machine.execDeleteReplSession ring slot s
  | .replDataRx session => Sys2Proof.Machine.execReplDataRx session s
  | .replCommitRx session => Sys2Proof.Machine.execReplCommitRx session s
  | .replAckRx session => Sys2Proof.Machine.execReplAckRx session s
  | .replOpenRx session => Sys2Proof.Machine.execReplOpenRx session s
  | .replResumeRx session => Sys2Proof.Machine.execReplResumeRx session s
  | .replReconnectTimer session => Sys2Proof.Machine.execReplReconnectTimer session s
  | .cutArmRx h payload => Sys2Proof.Machine.execCutArmRx h payload s
  | .cutCancelRx h payload => Sys2Proof.Machine.execCutCancelRx h payload s
  | .iclLinkUp width rate rtt => Sys2Proof.Machine.execIclLinkUp width rate rtt s
  | .iclLinkDown => Sys2Proof.Machine.execIclLinkDown s
  | .iclRetrain kind width => Sys2Proof.Machine.execIclRetrain kind width s
  | .helloTimer => Sys2Proof.Machine.execHelloTimer s
  | .helloRx payload sigOk => Sys2Proof.Machine.execHelloRx payload sigOk s
  | .heartbeatTimer => Sys2Proof.Machine.execHeartbeatTimer s
  | .heartbeatRx payload => Sys2Proof.Machine.execHeartbeatRx payload s
  | .peerSuspect => Sys2Proof.Machine.execPeerSuspect s
  | .leaseExpiry => Sys2Proof.Machine.execLeaseExpiry s
  | .peerLost => Sys2Proof.Machine.execPeerLost s
  | .electionPoll => Sys2Proof.Machine.execElectionPoll s
  | .electionLeadTimeout => Sys2Proof.Machine.execElectionLeadTimeout s
  | .electionRetry => Sys2Proof.Machine.execElectionRetry s
  | .leaveRx => Sys2Proof.Machine.execLeaveRx s
  | .alarmNoticeRx h payload => Sys2Proof.Machine.execAlarmNoticeRx h payload s
  | .journalRx h payload => Sys2Proof.Machine.execJournalRx h payload s
  | .pairNakRx chan ack => Sys2Proof.Machine.execPairNakRx chan ack s
  | .pairResendTimer chan => Sys2Proof.Machine.execPairResendTimer chan s
  | .pairReservedTypeRx => Sys2Proof.Machine.execPairReservedTypeRx s
  | .configRecordRx h payload => Sys2Proof.Machine.execConfigRecordRx h payload s
  | .keyTransferRx h payload => Sys2Proof.Machine.execKeyTransferRx h payload s
  | .leadSelectionRx h payload => Sys2Proof.Machine.execLeadSelectionRx h payload s
  | .groupMoveStepRx h payload => Sys2Proof.Machine.execGroupMoveStepRx h payload s
  | .sanitizeNoticeRx h payload => Sys2Proof.Machine.execSanitizeNoticeRx h payload s
  | .moveAnaGroup ring slot => Sys2Proof.Machine.execMoveAnaGroup ring slot s
  | .moveDrainDone grp => Sys2Proof.Machine.execMoveDrainDone grp s
  | .moveTimeout grp => Sys2Proof.Machine.execMoveTimeout grp s
  | .setHomeHead ring slot => Sys2Proof.Machine.execSetHomeHead ring slot s
  | .leavePair ring slot => Sys2Proof.Machine.execLeavePair ring slot s
  | .rejoinPair ring slot => Sys2Proof.Machine.execRejoinPair ring slot s
  | .getPairStatus ring slot => Sys2Proof.Machine.execGetPairStatus ring slot s
  | .soloWaitExpiry => Sys2Proof.Machine.execSoloWaitExpiry s
  | .rejoinSyncDone rows => Sys2Proof.Machine.execRejoinSyncDone rows s
  | .patrolScrub found => Sys2Proof.Machine.execPatrolScrub found s
  | .memoryUe unit space addr hit => Sys2Proof.Machine.execMemoryUe unit space addr hit s
  | .llcWayOffWrite slice value => Sys2Proof.Machine.execLlcWayOffWrite slice value s
  | .llcWayCleanDone slice => Sys2Proof.Machine.execLlcWayCleanDone slice s
  | .dmaArm ch => Sys2Proof.Machine.execDmaArm ch s
  | .dmaAbort ch => Sys2Proof.Machine.execDmaAbort ch s
  | .dmaShadowWrite ch off size value => Sys2Proof.Machine.execDmaShadowWrite ch off size value s
  | .dmaChunkDone ch off data => Sys2Proof.Machine.execDmaChunkDone ch off data s
  | .dmaFault ch code => Sys2Proof.Machine.execDmaFault ch code s
  | .dmaErrClear ch value => Sys2Proof.Machine.execDmaErrClear ch value s
  | .dmaWinCfgWrite n value => Sys2Proof.Machine.execDmaWinCfgWrite n value s
  | .windowWriteRx h payload => Sys2Proof.Machine.execWindowWriteRx h payload s
  | .windowReadRx h payload => Sys2Proof.Machine.execWindowReadRx h payload s
  | .windowReadReplyRx h payload => Sys2Proof.Machine.execWindowReadReplyRx h payload s
  | .sflProgram bank => Sys2Proof.Machine.execSflProgram bank s
  | .sflErase bank => Sys2Proof.Machine.execSflErase bank s
  | .sflOpDone bank ok => Sys2Proof.Machine.execSflOpDone bank ok s
  | .sflApertureRead off size level => Sys2Proof.Machine.execSflApertureRead off size level s
  | .readSystemFlash ring slot levels => Sys2Proof.Machine.execReadSystemFlash ring slot levels s
  | .evrAllowanceRefill => Sys2Proof.Machine.execEvrAllowanceRefill s
  | .evrFlushTimer => Sys2Proof.Machine.execEvrFlushTimer s
  | .evrFlushDone => Sys2Proof.Machine.execEvrFlushDone s
  | .evrFreezeExpiry => Sys2Proof.Machine.execEvrFreezeExpiry s
  | .aenWindowExpiry ctrl typ info => Sys2Proof.Machine.execAenWindowExpiry ctrl typ info s
  | .readEvents ring slot => Sys2Proof.Machine.execReadEvents ring slot s
  | .freezeEvents ring slot => Sys2Proof.Machine.execFreezeEvents ring slot s
  | .openLogEpoch ring slot => Sys2Proof.Machine.execOpenLogEpoch ring slot s
  | .ringDoorbell ring value entries => Sys2Proof.Machine.execRingDoorbell ring value entries s
  | .ringEnable ring value => Sys2Proof.Machine.execRingEnable ring value s
  | .ringDisable ring value => Sys2Proof.Machine.execRingDisable ring value s
  | .ringDrainDone ring => Sys2Proof.Machine.execRingDrainDone ring s
  | .rplHeadWrite ring value => Sys2Proof.Machine.execRplHeadWrite ring value s
  | .nop ring slot => Sys2Proof.Machine.execNop ring slot s
  | .createPool ring slot entropyOk => Sys2Proof.Machine.execCreatePool ring slot entropyOk s
  | .createVolume ring slot => Sys2Proof.Machine.execCreateVolume ring slot s
  | .deleteVolume ring slot => Sys2Proof.Machine.execDeleteVolume ring slot s
  | .attachVolume ring slot => Sys2Proof.Machine.execAttachVolume ring slot s
  | .getIdentity ring slot => Sys2Proof.Machine.execGetIdentity ring slot s
  | .resetHead ring slot => Sys2Proof.Machine.execResetHead ring slot s
  | .fwDownload ring slot data => Sys2Proof.Machine.execFwDownload ring slot data s
  | .fwActivate ring slot check => Sys2Proof.Machine.execFwActivate ring slot check s
  | .fwCommit ring slot => Sys2Proof.Machine.execFwCommit ring slot s
  | .fwStatus ring slot => Sys2Proof.Machine.execFwStatus ring slot s
  | .recoveryGo image check => Sys2Proof.Machine.execRecoveryGo image check s
  | .fieldChallenge ring slot => Sys2Proof.Machine.execFieldChallenge ring slot s
  | .fieldUnlock ring slot => Sys2Proof.Machine.execFieldUnlock ring slot s
  | .fieldLock ring slot => Sys2Proof.Machine.execFieldLock ring slot s
  | .fieldProvision ring slot => Sys2Proof.Machine.execFieldProvision ring slot s
  | .fieldSessionExpiry => Sys2Proof.Machine.execFieldSessionExpiry s
  | .nonceExpiry => Sys2Proof.Machine.execNonceExpiry s
  | .setPowerDomain ring slot => Sys2Proof.Machine.execSetPowerDomain ring slot s
  | .powerDomainReady domain => Sys2Proof.Machine.execPowerDomainReady domain s
  | .getPowerStatus ring slot => Sys2Proof.Machine.execGetPowerStatus ring slot s
  | .getCables ring slot => Sys2Proof.Machine.execGetCables ring slot s
  | .railSample values power => Sys2Proof.Machine.execRailSample values power s
  | .tempSample values => Sys2Proof.Machine.execTempSample values s
  | .pfailAssert => Sys2Proof.Machine.execPfailAssert s
  | .dumpComplete => Sys2Proof.Machine.execDumpComplete s
  | .refclkLoss clock holds => Sys2Proof.Machine.execRefclkLoss clock holds s
  | .setVolumeAdmission ring slot => Sys2Proof.Machine.execSetVolumeAdmission ring slot s
  | .getVolumeAdmission ring slot => Sys2Proof.Machine.execGetVolumeAdmission ring slot s
  | .ethPortUp port line => Sys2Proof.Machine.execEthPortUp port line s
  | .replConnectTimeout session => Sys2Proof.Machine.execReplConnectTimeout session s
  | .rdmaReadRequestRx n qpn psn => Sys2Proof.Machine.execRdmaReadRequestRx n qpn psn s
  | .llcRehashDone => Sys2Proof.Machine.execLlcRehashDone s

end Sys2Proof.Machine
end

