-- ==== Sys2Proof/Safety.lean ====
section
/-! DEFINITION. What counts as a sound state and a safe step of the block, in the terms that the statements use. -/
namespace Sys2Proof.Machine

/-- A register store in canonical form: offsets strictly rising from `lo` on. -/
def regsWfFrom (lo : Nat) (st : RegStore) : Bool :=
  match st with
  | [] => true
  | (a, _) :: t => decide (lo ≤ a) && regsWfFrom (a + 1) t

/-- A sound state: the register file and the byte memories are in canonical form (HBM and DDR landing areas, page buffers: unlisted bytes 0;
system flash: unlisted bytes erased), and the block has its four control rings (20_control_packets.md R457), its three sequenced channels to the
peer (15_pair_operation.md R361) and one event allowance for each of the 21 classes (19_event_recorder.md R443). -/
structure State.Sound (s : State) : Prop where
  regs : regsWfFrom 0 s.regs = true
  hbm : Memory.wf 0 s.mem.hbm = true
  ddr : Memory.wf 0 s.mem.ddr = true
  flash : Memory.wf 0xFF s.sfl.mem = true
  buf : Memory.wf 0 s.sfl.buf = true
  rings : s.ctl.rings.length = 4
  chans : s.pair.chans.length = 3
  allow : s.evr.allow.length = 21

/-- What every command leaves true of the state before it, `s`, and the state after it, `t`: the waiting commands are the same, what was sent
stays sent (the record of outputs only grows), no free value is drawn twice, and a sound state stays sound. -/
structure State.Follows (s t : State) : Prop where
  queue : t.pending = s.pending
  sent : s.out <+: t.out
  drawn : s.free ≤ t.free
  sound : s.Sound → t.Sound

/-- A safe step: the block answers a next state, not a fault and not a refusal. -/
def Safe (o : Host.Outcome State Fault Refusal) : Prop := ∃ t, o = .next t

/-- The packet `e` of opcode `opc` stands fetched in `slot` of ring `n`, may start, and passes the common checks of R462 and R473. -/
structure State.CanRun (s : State) (opc n slot : Nat) (e : Entry) : Prop where
  starts : s.startable opc n slot = some e
  checks : s.entryStatus e = stOk
  config : opcodeCfg opc = true → s.cfgReady = some stOk
  tail : e.tailOk = true

/-- The packet ends: `u` is the state its rule leaves, with this status, result and data in the final reply (R464). -/
def State.replied (u : State) (n slot : Nat) (e : Entry) (st : Nat) (result data : Bytes) : State :=
  u.finish (packetRef n slot e) st result data

/-- How a packet goes on from what its rule answered (R464): `s` is the state before it started. -/
def State.ended (s : State) (n slot : Nat) (e : Entry) : PktRes → State
  | .done u st res data => u.replied n slot e st res data
  | .started u => u.inProgress n slot e
  | .startDone u res data => (u.inProgress n slot e).replied n slot e stOk res data
  | .quiet u => u
  | .waits => s

/-- A packet whose configuration record has been placed in `u` ends: at once, or with the peer in service once the peer has applied the record
(20_control_packets.md R475). -/
def State.cfgEnded (u : State) (n slot : Nat) (e : Entry) (res : Bytes) : State :=
  if u.peerInService then
    { u with ctl.cfgWaits := u.ctl.cfgWaits ++ [CfgWait.mk (((u.chan 0).next + 2 ^ 32 - 1) % 2 ^ 32) (packetRef n slot e) res] }
  else u.replied n slot e stOk res []

/-- The state after the acknowledgement that a sequenced message of the peer carries (15_pair_operation.md R362). -/
def State.retired (s : State) (c : Nat) (h : PtlHdr) : State := if h.ackV then s.ptlRetire c h.ack else s

/-- A sequenced message is the next one of its channel and the last fragment of its chain (R362, R363). -/
structure State.InOrder (s : State) (c : Nat) (h : PtlHdr) : Prop where
  next : h.seq = ((s.retired c h).chan c).expect
  last : h.more = false

/-- The whole message that ends here: what its channel has joined so far, then this payload (R363). -/
def State.whole (s : State) (c : Nat) (h : PtlHdr) (payload : Bytes) : Bytes := ((s.retired c h).chan c).joined ++ payload

/-- The state once that message has been taken: the channel expects the next one and an ACK has gone out (R362). -/
def State.taken (s : State) (c : Nat) (h : PtlHdr) : State :=
  ((s.retired c h).setChan c { (s.retired c h).chan c with
    expect := (((s.retired c h).chan c).expect + 1) % 2 ^ 32, naked := false, joined := [] }).ptlAnswer c 0x09

/-- An admin command arrives on the admin queue context `q`, whose kind takes it (04_host_queues.md R72). -/
structure State.AdminOn (s : State) (e : Sqe) (fab host : Bool) (q : QCtx) : Prop where
  queue : s.qctx? e.q = some q
  kind : q.kind = .fabAdmin ∨ q.kind = .hostAdmin
  live : q.deleting = none
  up : q.fabric = true → s.qpUp e.q = true
  takes : (if q.fabric then fab else host) = true

/-- An I/O command arrives on the I/O queue context `q` of a head that serves. -/
structure State.IoOn (s : State) (e : Sqe) (q : QCtx) : Prop where
  queue : s.qctx? e.q = some q
  kind : q.kind = .fabIo ∨ q.kind = .hostIo
  live : q.deleting = none
  up : q.fabric = true → s.qpUp e.q = true
  serves : s.serving = true

/-- The register at `a`, reached at offset `off` of BAR `bar`, decodes and its power domain is on (01_architecture.md R19). -/
structure State.Reaches (s : State) (bar off : Nat) (a : Nat) : Prop where
  hasRegs : bar = 0 ∨ bar = 4
  addr : barAddr bar off = a
  aperture : ¬(bar = 0 ∧ 0x03100000 ≤ off ∧ off < 0x03200000)
  buffer : inSflBuf a = false
  powered : s.gatedBy a = none
  decoded : s.undecoded a = false

/-- The registers that no rule gives an effect beyond their fields (R8). -/
def plainReg (r : Reg) : Bool :=
  !(r == R.MEM_DDR_SPLIT || r == R.EVR_ALARM || r == R.EVR_ALARM_MASK || (Bank.EVR_RATE.find r.addr).isSome || poolRegs.contains r ||
    r == R.TIDE_CFG || r == R.MED_CFG || r == R.BRN_CFG || r == R.BRN_LIMIT)

/-- What recording an event may change, its asynchronous event and its alarm notice with it: the recorder, the held event requests, what waits
behind the gate, the channels to the peer, the queues it is posted on, the transport, the lines of contexts in the last-level cache, the outputs, and no register below the transport's (19_event_recorder.md R436-R454). -/
structure State.Records (s t : State) : Prop where
  same : t = { s with
    regs := t.regs, evr := t.evr, hq.ctrls := t.hq.ctrls, hq.ctxs := t.hq.ctxs, pair.gated := t.pair.gated, pair.chans := t.pair.chans, xpt := t.xpt
    llc := t.llc, out := t.out }
  low : ∀ r : Reg, r.addr < 0x00A00000 → t.rd r = s.rd r

/-- What a control packet's reply may change: the rings, the outputs and the two counters of failed and of held replies (20_control_packets.md
R458, R464, R467). -/
structure State.RingsOnly (s t : State) : Prop where
  same : t = { s with
    regs := t.regs, ctl.rings := t.ctl.rings, out := t.out }
  low : ∀ r : Reg, r.addr ≠ R.CTL_FAIL_CNT.addr → r.addr ≠ R.CTL_RPL_HOLD_CNT.addr → t.rd r = s.rd r

/-- The last-level cache agrees with memory (16_memory_cache.md R398): no line is held twice, no way holds two lines, and a line that is not being
filled has the content that memory holds. -/
structure Llc.Agrees (c : Llc) : Prop where
  once : (c.lines.map fun x => (x.space, x.line)).Nodup
  apart : (c.lines.map fun x => (x.slice, x.set, x.way)).Nodup
  same : ∀ x ∈ c.lines, x.fill = none → x.content = c.held x.space x.line

end Sys2Proof.Machine
end

