-- ==== Sys2Proof/Certificates/Slice0/Obligations.lean ====
section
/-! DEFINITION. The statements for the provers. Each says of every state, and of every operand that meets its hypotheses, what the block does. -/
section

open Sys2Proof Sys2Proof.Machine

/-- The rule that stands in for instruction fetch: the command at the front of the queue runs on the state with the rest of the queue. -/
def Obligations.StepRunsTheFrontCommand : Prop :=
  ∀ (c : Instr) (q : List Instr) (s : State), s.pending = c :: q → step s = exec c { s with pending := q }

/-- With nothing waiting the block idles: the model's own choice (log 70). -/
def Obligations.StepIdlesOnEmptyQueue : Prop :=
  ∀ s : State, s.pending = [] → step s = .next s

/-- The state after reset is sound, nothing waits in it and nothing has been sent. -/
def Obligations.ResetIsSound : Prop :=
  State.reset.Sound ∧ State.reset.pending = [] ∧ State.reset.out = [] ∧
    ∀ r : Reg, State.reset.rd r = r.reset

/-- No command stops the block, whatever the state and its operands; each leaves the waiting commands alone, only adds to what was sent, draws no
free value twice and keeps a sound state sound. -/
def Obligations.EveryCommandAnswers : Prop :=
  ∀ (i : Instr) (s : State), ∃ t, exec i s = .next t ∧ s.Follows t

/-- Soundness (canonical register file and byte memories; four rings, three channels, twenty-one allowances) is an invariant of every step, from every
state; and a step takes exactly the front command from the queue, keeps every output sent so far, in order, and draws no free value twice. -/
def Obligations.EveryStepKeepsSound : Prop :=
  ∀ s t : State, step s = .next t → (s.Sound → t.Sound) ∧ t.pending = s.pending.tail ∧ s.out <+: t.out ∧ s.free ≤ t.free

/-- Reading back the byte memories and the register file: the place written reads as written, every other place as before. -/
def Obligations.MemoryReadsBackWhatWasWritten : Prop :=
  (∀ (d : Byte) (m : List Host.Cell) (a b : Nat) (v : Byte), Memory.wf d m = true →
    memRead d (memWrite d m a v) b = if b = a then v else memRead d m b) ∧
  (∀ (d : Byte) (m : List Host.Cell) (a b : Nat) (bs : Bytes), Memory.wf d m = true →
    memRead d (memWriteAll d m a bs) b = if a ≤ b ∧ b < a + bs.length then bs.getD (b - a) d else memRead d m b) ∧
  (∀ (s : State) (r q : Reg) (v : DWord), regsWfFrom 0 s.regs = true → r.width = 64 →
    (s.wr r v).rd r = v ∧ (q.addr ≠ r.addr → (s.wr r v).rd q = s.rd q))

/-- Serial numbers (R10): b is after a when (b - a) modulo 2^n lies between 1 and 2^(n-1) - 1; a distance of exactly 2^(n-1) is after in neither direction; equal
numbers are the same position. `serialAfter n a b` says that b is after a. -/
def Obligations.SequenceNumbersCompareModulo : Prop :=
  ∀ n a b : Nat, 1 ≤ n → a < 2 ^ n → b < 2 ^ n →
    (serialAfter n a b = true ↔ 1 ≤ ((b : Int) - a) % 2 ^ n ∧ ((b : Int) - a) % 2 ^ n ≤ 2 ^ (n - 1) - 1) ∧
    (((b : Int) - a) % 2 ^ n = 2 ^ (n - 1) → serialAfter n a b = false ∧ serialAfter n b a = false) ∧
    serialAfter n a a = false ∧
    (a ≠ b → ((b : Int) - a) % 2 ^ n ≠ 2 ^ (n - 1) → serialAfter n a b = !serialAfter n b a) ∧
    seqLe a a = true ∧ serialAfter 24 0xFFFFFE 3 = true ∧ serialAfter 24 3 0xFFFFFE = false

/-- A bus write of the register's own size to a register that has no command of its own: every RW bit takes the written bit, a W1C bit written 1
clears, every other bit and every other register stay. A register with a further effect runs it (`State.wrReg`); a locked one drops the write.
A register whose writes are commands of rows of their own takes that row's effect. -/
def Obligations.RegisterWriteActsByAccessType : Prop :=
  ∀ (r : Reg) (bar off v : Nat) (s : State), regAt r.addr = some r → (r.width = 32 ∨ r.width = 64) → s.Reaches bar off r.addr →
    off % (r.width / 8) = 0 →
    (ownRow r.addr = true → exec (.registerWrite bar off (r.width / 8) v) s =
      .next (if r.width = 64 then s.ownWide r.addr v else s.ownWrite r.addr (v % 2 ^ 32))) ∧
    (ownRow r.addr = false →
    let u := if r.width = 64 then s.dropLow r.addr else s
    let w := BitVec.ofNat 64 (v % 2 ^ r.width)
    exec (.registerWrite bar off (r.width / 8) v) s = .next (u.wrReg r w) ∧
    (s.writeLocked r.addr = true → u.wrReg r w = u) ∧
    (s.writeLocked r.addr = false → plainReg r = true → regsWfFrom 0 s.regs = true →
      ∃ t, exec (.registerWrite bar off (r.width / 8) v) s = .next t ∧ t = { u with regs := t.regs } ∧
        (∀ k, k < r.width → (t.rd r).getLsbD k =
          if r.rw.getLsbD k then v.testBit k else if r.w1c.getLsbD k && v.testBit k then false else (s.rd r).getLsbD k) ∧
        ∀ q : Reg, q.addr ≠ r.addr → t.rd q = s.rd q))

/-- 64-bit registers (R7). Reading _LO latches the high half of the same value, so that _LO and _HI return one value; _HI without a latch returns the
present high half. A write of _LO is held and changes nothing; _HI then writes both halves, with the present low half where none is held. A 64-bit
read leaves latches and held halves alone, a 64-bit write discards the register's held half, and so does any reset. -/
def Obligations.RegistersOf64BitsAreReadAndWrittenWhole : Prop :=
  (∀ (r : Reg) (bar off : Nat) (s : State), regAt r.addr = some r → r.width = 64 → regAt (r.addr + 4) = none →
    s.Reaches bar off r.addr → s.Reaches bar (off + 4) (r.addr + 4) → off % 4 = 0 →
    let v := (s.regVal r).1
    let u := (s.regVal r).2
    exec (.reg64LoRead bar off) s =
      .next ({ u with latch := putKey Prod.fst (r.addr, v / 2 ^ 32) u.latch }.emit (.busRead bar off 4 (v % 2 ^ 32))) ∧
    (∀ p, findKey Prod.fst r.addr s.latch = some p → exec (.reg64HiRead bar (off + 4)) s =
      .next ({ s with latch := dropKey Prod.fst r.addr s.latch }.emit (.busRead bar (off + 4) 4 p.2))) ∧
    (findKey Prod.fst r.addr s.latch = none →
      exec (.reg64HiRead bar (off + 4)) s = .next (u.emit (.busRead bar (off + 4) 4 (v / 2 ^ 32)))) ∧
    ∃ t w lo hi, exec (.reg64LoRead bar off) s = .next t ∧ exec (.reg64HiRead bar (off + 4)) t = .next w ∧
      w.out = s.out ++ [.busRead bar off 4 lo, .busRead bar (off + 4) 4 hi] ∧ lo + hi * 2 ^ 32 = v ∧
      findKey Prod.fst r.addr w.latch = none) ∧
  (∀ (r : Reg) (bar off lo hi : Nat) (s : State), regAt r.addr = some r → r.width = 64 → regAt (r.addr + 4) = none →
    s.Reaches bar off r.addr → s.Reaches bar (off + 4) (r.addr + 4) → off % 4 = 0 → ownRow r.addr = false → s.writeLocked r.addr = false →
    exec (.reg64LoWrite bar off lo) s = .next { s with lowPend := putKey Prod.fst (r.addr, lo % 2 ^ 32) s.lowPend } ∧
    (∀ p, findKey Prod.fst r.addr s.lowPend = some p → exec (.reg64HiWrite bar (off + 4) hi) s =
      .next ({ s with lowPend := dropKey Prod.fst r.addr s.lowPend }.wrReg r (BitVec.ofNat 64 (hi % 2 ^ 32 * 2 ^ 32 + p.2)))) ∧
    (findKey Prod.fst r.addr s.lowPend = none → exec (.reg64HiWrite bar (off + 4) hi) s =
      .next ({ s with lowPend := dropKey Prod.fst r.addr s.lowPend }.wrReg r
        (BitVec.ofNat 64 (hi % 2 ^ 32 * 2 ^ 32 + (s.rd r).toNat % 2 ^ 32)))) ∧
    (plainReg r = true → regsWfFrom 0 s.regs = true → ∃ t u, exec (.reg64LoWrite bar off lo) s = .next t ∧
      (∀ q, t.rd q = s.rd q) ∧ exec (.reg64HiWrite bar (off + 4) hi) t = .next u ∧
      u.rd r = r.after (s.rd r) (BitVec.ofNat 64 (hi % 2 ^ 32 * 2 ^ 32 + lo % 2 ^ 32)) ∧
      findKey Prod.fst r.addr u.lowPend = none)) ∧
  ((∀ (r : Reg) (bar off v : Nat) (s : State), regAt r.addr = some r → r.width = 64 → s.Reaches bar off r.addr → off % 8 = 0 →
    exec (.misalignedAccess bar off 8 v false) s = .next ((s.regVal r).2.emit (.busRead bar off 8 (s.regVal r).1)) ∧
    (s.regVal r).2.latch = s.latch ∧ (s.regVal r).2.lowPend = s.lowPend ∧
    (ownRow r.addr = false → exec (.registerWrite bar off 8 v) s = .next ((s.dropLow r.addr).wrReg r (BitVec.ofNat 64 (v % 2 ^ 64)))) ∧
    findKey Prod.fst r.addr (s.dropLow r.addr).lowPend = none ∧ (s.dropLow r.addr).latch = s.latch ∧
    ∀ a, a ≠ r.addr → findKey Prod.fst a (s.dropLow r.addr).lowPend = findKey Prod.fst a s.lowPend) ∧
  ∀ s : State, s.resetBlocks.latch = [] ∧ s.resetBlocks.lowPend = [] ∧ ∀ h, (s.resetPower h).latch = [] ∧ (s.resetPower h).lowPend = [])

/-- Accesses that are not naturally aligned 32-bit or 64-bit ones: a read completes with Unsupported Request, a write is dropped and recorded, and a
doorbell write of that kind changes and counts nothing; a naturally aligned 64-bit access acts on one 64-bit register at once, or on its two halves
in order, the lower address first. -/
def Obligations.MisalignedAccessesAreRefused : Prop :=
  ∀ (bar off size v : Nat) (s : State), (bar = 0 ∨ bar = 2 ∨ bar = 4) →
    (busAllowed off size = false →
      exec (.misalignedAccess bar off size v false) s = .next (s.emit (.unsupported bar off size)) ∧
      exec (.misalignedAccess bar off size v true) s =
        .next (s.event 0x01 evcDropped 3 0x100030 (evAddr (barSpace bar) off ++ evValue size)) ∧
      (∃ t, exec (.misalignedAccess bar off size v true) s = .next t ∧ s.Records t ∧ t.rd R.HQ_DB_DROP_CNT = s.rd R.HQ_DB_DROP_CNT) ∧
      ∀ entries, exec (.hostDoorbellWrite off size v entries) s = .next s) ∧
    (off % 8 = 0 → (bar = 4 ∨ (bar = 0 ∧ ¬(0x03100000 ≤ off ∧ off < 0x03200000))) →
      (∀ r, regAt (barAddr bar off) = some r → r.width = 64 → s.gatedBy (barAddr bar off) = none →
        s.undecoded (barAddr bar off) = false →
        exec (.misalignedAccess bar off 8 v false) s = .next ((s.regVal r).2.emit (.busRead bar off 8 (s.regVal r).1)) ∧
        (ownRow r.addr = true → exec (.misalignedAccess bar off 8 v true) s = .next (s.ownWide (barAddr bar off) v)) ∧
        (ownRow r.addr = false → exec (.misalignedAccess bar off 8 v true) s = .next ((s.dropLow r.addr).wrReg r (BitVec.ofNat 64 v)))) ∧
      ((∀ r, regAt (barAddr bar off) = some r → r.width = 32) →
        (∀ x y t u, s.read32 (barAddr bar off) = (x, t) → t.read32 (barAddr bar off + 4) = (y, u) →
          exec (.misalignedAccess bar off 8 v false) s = .next (u.emit (.busRead bar off 8 (x + y * 2 ^ 32)))) ∧
        exec (.misalignedAccess bar off 8 v true) s =
          .next ((s.write32 (barAddr bar off) 8 (v % 2 ^ 32)).write32 (barAddr bar off + 4) 8 (v / 2 ^ 32))))

/-- A register of a power domain that is switched off reads 0; a write to it is dropped and recorded with the domain's unit ID. The registers concerned
are those of the table of R524, for the Ethernet ports, the media ports and the LLC slice groups. -/
def Obligations.GatedRegistersReadZeroAndDropWrites : Prop :=
  (∀ (off v d : Nat) (s : State), off % 4 = 0 → s.gatedBy off = some d →
    exec (.gatedRegisterAccess off 4 v false) s = .next (s.emit (.busRead 0 off 4 0)) ∧
    exec (.gatedRegisterAccess off 4 v true) s = .next (s.event 0x11 evcDropped 3 (unitId 9 d) (evAddr 0 off ++ evValue 4)) ∧
    ∃ t, exec (.gatedRegisterAccess off 4 v true) s = .next t ∧ s.Records t) ∧
  (∀ (off v d : Nat) (s : State), off % 8 = 0 → s.gatedBy off = some d → s.gatedBy (off + 4) = some d →
    exec (.gatedRegisterAccess off 8 v false) s = .next (s.emit (.busRead 0 off 8 0)) ∧
    (∀ r, regAt off = some r → r.width = 64 →
      exec (.gatedRegisterAccess off 8 v true) s = .next (s.event 0x11 evcDropped 3 (unitId 9 d) (evAddr 0 off ++ evValue 8))) ∧
    ((∀ r, regAt off = some r → r.width = 32) → ∀ t, t = s.event 0x11 evcDropped 3 (unitId 9 d) (evAddr 0 off ++ evValue 8) →
      exec (.gatedRegisterAccess off 8 v true) s =
        .next (t.event 0x11 evcDropped 3 (unitId 9 d) (evAddr 0 (off + 4) ++ evValue 8)))) ∧
  (∀ (p o : Nat) (s : State), p < 16 → o < 0xA0 →
    (s.gatedBy (0x00A10000 + p * 0x100 + o) = some (3 + p) ↔ s.pwr.off.contains (3 + p) = true)) ∧
  (∀ (n : Nat) (s : State), n < 32 → (s.gatedBy (R.LNK_MOD_PWR n).addr = some (19 + n) ↔ s.pwr.off.contains (19 + n) = true)) ∧
  (∀ (i : Nat) (s : State), i < 48 → (s.gatedBy (R.LLC_WAY_OFF i).addr = some (51 + i / 4) ↔ s.pwr.off.contains (51 + i / 4) = true)) ∧
  ∀ (a : Nat) (s : State), gateOf a = none → s.gatedBy a = none

/-- POWER_ON_RESET (R484 to R487): every block goes to its reset values, the strap gives the head's number, flash and event recorder keep what they
have stored, and start-up follows with cause 0. Start-up halts unidentified with no calibration copy that checks, halts with an HBM stack that fails
to train, and otherwise goes on to load firmware. -/
def Obligations.PowerOnAndStartUp : Prop :=
  ((∀ (b : BootIn) (s : State), exec (.powerOnReset b) s = .next ((s.poweredUp b).bootSeq b 0)) ∧
  (∀ (n : Nat) (s : State) (r : Reg), poolReg r.addr = false → (s.resetPower n).rd r = r.reset) ∧
  (∀ (n : Nat) (s : State),
    let u := s.resetPower n
    u.role = n % 2 ∧ u.tide = Tide.reset ∧ u.pair = Pair.reset ∧ u.xpt = Xpt.reset ∧ u.med = Med.reset ∧ u.lnk = Lnk.reset ∧
      u.red = Red.reset ∧ u.pool = Pool.reset ∧ u.mem = Mem.reset ∧ u.dma = [] ∧ u.ctl = Ctl.reset ∧ u.hq.ctxs = [] ∧ u.hq.ctrls = [] ∧
      u.hq.cmds = [] ∧ u.latch = [] ∧ u.lowPend = [] ∧ u.boot.resetReq = none ∧ u.boot.sessionOpen = false ∧ u.keys.pages = [] ∧ u.keys.slots = [] ∧
      u.keys.pwk = none ∧ u.out = s.out) ∧
  (∀ (n : Nat) (s : State),
    let u := s.resetPower n
    u.evr.area = s.evr.area ∧ u.boot.slots = s.boot.slots ∧ u.boot.svn = s.boot.svn ∧ u.boot.pwd = s.boot.pwd ∧ u.boot.fkey = s.boot.fkey ∧
      u.keys.pwkStored = s.keys.pwkStored ∧ u.brn.dump = s.brn.dump ∧
      ∀ a, memRead 0xFF u.sfl.mem a = memRead 0xFF s.sfl.mem a)) ∧
  (∀ (b : BootIn) (cause : Nat) (s : State),
    let u := { s with boot.cause := cause }.evStart cause (cause == 0)
    (u.calRow = none → (s.bootSeq b cause).boot.stage = 7 ∧ (s.bootSeq b cause).boot.unidentified = true) ∧
    (∀ row, u.calRow = some row →
      let m := (({ u with boot.unidentified := false, keys.dk := true }.alarmsAgain).stageConfig b.setA b.setB).stageMemory b
      (b.hbm % 16 ≠ 15 → (s.bootSeq b cause).boot.stage = 7) ∧
      (b.hbm % 16 = 15 → s.bootSeq b cause = m.stageLoad fun i => if i = 0 then b.slotA else b.slotB)))

/-- RESET_PIN, the two watchdogs: each asks for a warm reset of its cause where its condition holds; a reset that is already due keeps its cause. -/
def Obligations.ResetSourcesAskForAWarmReset : Prop :=
  ∀ s : State,
    (s.boot.resetReq = none → ∀ cause : Nat,
      let u := { s with boot.resetReq := some cause }
      s.askReset cause = ((if s.sfl.ops.isEmpty then u else u.bump R.SFL_HOLD_CNT).startDump).flushStart) ∧
    (exec .resetPin s = .next (s.askReset 4)) ∧
    (4 ≤ s.boot.stage → s.boot.stage ≤ 6 → exec .watchdogFw s = .next (s.askReset 1)) ∧
    (s.boot.stage = 4 → s.ctl.ready = false → exec .watchdogBoot s = .next (s.askReset 2)) ∧
    (s.boot.resetReq.isSome = true → exec .resetPin s = .next s ∧ exec .watchdogFw s = .next s ∧ exec .watchdogBoot s = .next s)

/-- Resets (R485): a warm reset waits for the flash operations, the dump and the flush; it resets every block outside the always-on domain, keeps that
domain and runs start-up from the calibration step, with the head's number as it was. HOST_PCIE_RESET, with no host-side command in flight, touches
the ring windows and the host-side queues only. -/
def Obligations.WarmAndHostResets : Prop :=
  ((∀ (b : BootIn) (s : State), s.resetReady = false → exec (.warmReset b) s = .next s) ∧
  (∀ (b : BootIn) (s : State), s.boot.resetReq = none → exec (.warmReset b) s = .next s) ∧
  (∀ (b : BootIn) (cause : Nat) (s : State), s.boot.resetReq = some cause → s.resetReady = true → s.boot.stage ≠ 7 →
    let u := if cause = 1 ∨ cause = 2 then s.bump R.BOOT_WDT_CNT else s
    let v := if u.pwr.dumpDone then u.emit (.pin .dumpDone false) else u
    exec (.warmReset b) s = .next (v.resetBlocks.bootSeq b cause)) ∧
  (∀ s : State,
    let u := s.resetBlocks
    (∀ r : Reg, alwaysOn r.addr = false → poolReg r.addr = false → u.rd r = r.reset) ∧
    (∀ r : Reg, alwaysOn r.addr = true → u.rd r = s.rd r) ∧
    u.pair = Pair.reset ∧ u.xpt = Xpt.reset ∧ u.med = Med.reset ∧ u.lnk = Lnk.reset ∧ u.red = Red.reset ∧ u.pool = Pool.reset ∧
    u.mem = Mem.reset ∧ u.dma = [] ∧ u.ctl = Ctl.reset ∧ u.hq.ctxs = [] ∧ u.hq.cmds = [] ∧ u.latch = [] ∧ u.lowPend = [] ∧
    u.role = s.role ∧ u.tide.time = s.tide.time ∧ u.tide.state = s.tide.state ∧ u.evr.area = s.evr.area ∧ u.evr.awaiting = s.evr.awaiting ∧
    u.evr.seq = s.evr.seq ∧ u.boot.slots = s.boot.slots ∧ u.boot.cause = s.boot.cause ∧ u.boot.fails = s.boot.fails ∧
    u.boot.resetReq = none ∧ u.out = s.out ∧ u.pending = s.pending)) ∧
  (∀ s : State, (∀ c ∈ s.hq.cmds, ∀ q ∈ s.hq.ctxs, q.fabric = false → q.idx ≠ c.qctx) →
    exec .hostPcieReset s = .next { s with
      hq.ctxs := s.hq.ctxs.filter QCtx.fabric
      hq.ctrls := s.hq.ctrls.filter fun (c : Controller) => !c.host
      ctl.rings := s.ctl.rings.map fun (r : Ring) => { Ring.reset with nextNo := r.nextNo }
      regs := s.regs.filter fun p => decide (p.1 < 2 ^ 32)
      latch := s.latch.filter fun p => decide (p.1 < 2 ^ 32)
      lowPend := s.lowPend.filter fun p => decide (p.1 < 2 ^ 32) })

/-- FIRMWARE_READY, POOL_LOAD and the firmware's beat: READY with the working keys loaded and pairing begun; the pool's stages 5 and 6; CTL_FW_BEAT one
further, modulo 2^64. -/
def Obligations.FirmwareComesUpAndServesThePool : Prop :=
  (∀ s : State, s.boot.stage = 4 → s.ctl.ready = false → s.pair.state = .down → s.mem.popErr = false →
    exec .firmwareReady s = .next (State.meetPeer { ({ s with ctl.ready := true }.loadWorking) with pair.state := PairSt.pairWait })) ∧
  (∀ s : State, s.boot.stage = 4 → s.ctl.ready = false → s.mem.popErr = true →
    ∃ t, exec .firmwareReady s = .next t ∧ t.ctl.ready = true ∧ t.pair = s.pair ∧ t.keys.dk = true ∧
      t.keys.pwk = s.keys.pwkStored.bind (Config.keyUnwrap Config.deviceKey)) ∧
  (∀ (p : PoolIn) (s : State), (s.boot.stage = 4 ∨ s.boot.stage = 5) → s.ctl.ready = true → (s.pair.state = .paired ∨ s.pair.state = .solo) →
    s.pool.loaded = true → s.unreleased = [] →
    exec (.poolLoad p) s = .next (State.askReserves (State.anaChanged (State.newDumpKey { s with
      boot.stage := 6, brn.replaying := false, brn.expect := [], ftl.indexScan := false })) s.role)) ∧
  (∀ (p : PoolIn) (s : State), (s.boot.stage = 4 ∨ s.boot.stage = 5) → s.ctl.ready = true → (s.pair.state = .paired ∨ s.pair.state = .solo) →
    s.pool.loaded = false →
    let t := { State.rebuildPool { s with boot.stage := 5, brn.replaying := true, ftl.indexScan := p.scan } p with brn.expect := [] }
    (p.rows = [] → exec (.poolLoad p) s = .next { s with boot.stage := 5, brn.replaying := false, brn.expect := [], ftl.indexScan := false }) ∧
    (t.pool.loaded = true → t.unreleased = [] → exec (.poolLoad p) s = .next t.replayEnd) ∧
    (t.pool.loaded = true → t.peerInService = true → t.unreleased ≠ [] → exec (.poolLoad p) s = .next t.startRemirror)) ∧
  (∀ s : State, 4 ≤ s.boot.stage → s.boot.stage ≤ 6 → exec .fwBeatTick s = .next { s with ctl.beat := (s.ctl.beat + 1) % 2 ^ 64 }) ∧
  (∀ s : State, (s.boot.stage < 4 ∨ 6 < s.boot.stage) → exec .fwBeatTick s = .next s)

/-- The fabric-time state machine (R31): SYNC_RX in each state, the reference found and lost by Announce, PPS_IN and the loss command, and the end of
holdover. -/
def Obligations.TheFabricTimeStateMachineFollowsItsTable : Prop :=
  (∀ (m : PtpIn) (off : Int) (s : State), (s.refOk = false ∨ s.syncOk m = false) → exec (.syncRx m off) s = .next s) ∧
  (∀ (m : PtpIn) (off : Int) (s : State), s.refOk = true → s.syncOk m = true → s.tide.state = .acquiring → 15 ≤ s.tide.goodEst →
    (off :: s.tide.window).take 16 = (s.measure off).tide.window ∧
    ((s.measure off).tide.window.length = 16 → (s.measure off).tide.est ≤ 250 →
      ∃ t, exec (.syncRx m off) s = .next t ∧ t = { s with tide := t.tide } ∧ t.tide.state = .locked ∧ t.tide.lockedOnce = true ∧
        t.tide.window = (s.measure off).tide.window ∧ t.tide.est = (s.measure off).tide.est ∧ t.tide.time = s.tide.time)) ∧
  (∀ (m : PtpIn) (off : Int) (s : State), s.refOk = true → s.syncOk m = true → s.tide.state = .acquiring →
    ((s.measure off).tide.window.length < 16 ∨ (250 < (s.measure off).tide.est ∧ 250 < spread (s.measure off).tide.window)) →
      ∃ t, exec (.syncRx m off) s = .next t ∧ t = { s with tide := t.tide } ∧ t.tide.state = .acquiring ∧ t.tide.goodEst = 0 ∧ t.tide.goodSpread = 0) ∧
  (∀ (m : PtpIn) (off : Int) (s : State), s.refOk = true → s.syncOk m = true → s.tide.state = .acquiring → s.tide.slew = none → s.tide.stepPend = none →
    15 ≤ s.tide.goodSpread → (s.measure off).tide.window.length = 16 → spread (s.measure off).tide.window ≤ 250 → 250 < (s.measure off).tide.est →
      exec (.syncRx m off) s = .next (State.correct
        { s.measure off with tide.goodEst := 0, tide.goodSpread := 0 } (offSum (s.measure off).tide.window / 16))) ∧
  (∀ (m : PtpIn) (off : Int) (s : State), s.refOk = true → s.syncOk m = true → s.tide.state = .locked →
    ((s.measure off).tide.est ≤ 2000 → exec (.syncRx m off) s = .next { s.measure off with tide.badEst := 0 }) ∧
    (2000 < (s.measure off).tide.est → s.tide.badEst < 3 →
      exec (.syncRx m off) s = .next { s.measure off with tide.badEst := s.tide.badEst + 1 }) ∧
    (2000 < (s.measure off).tide.est → 3 ≤ s.tide.badEst →
      ∃ t, exec (.syncRx m off) s = .next t ∧ t = { s with tide := t.tide } ∧ t.tide.state = .acquiring)) ∧
  (∀ (m : PtpIn) (off : Int) (s : State), s.refOk = true → s.syncOk m = true → s.tide.state = .holdover →
    (off.natAbs ≤ 2000 → ∃ t, exec (.syncRx m off) s = .next t ∧ t = { s with tide := t.tide } ∧ t.tide.state = .locked ∧
      (off ≠ 0 → t.tide.slew = some off)) ∧
    (2000 < off.natAbs → ∃ t, exec (.syncRx m off) s = .next t ∧ t = { s with tide := t.tide } ∧ t.tide.state = .acquiring)) ∧
  (∀ (t : Tide) (s : State),
    let u := { s with tide := t }
    s.inputs t = (if u.refOk && !s.refOk then u.refFound else u) ∧
    (t.state = .freerun → u.refFound = State.armPeriods { s with tide := t.fresh.acquire }) ∧
    (t.state = .unqualified → u.refFound = { s with tide := t.fresh.acquire }) ∧
    (t.state = .holdover → u.refFound = { s with tide := t.fresh }) ∧ t.fresh.acquire.state = .acquiring) ∧
  (∀ (m : PtpIn) (off : Int) (s : State), s.refOk = true → s.syncOk m = true →
    (s.tide.state = .unqualified → exec (.syncRx m off) s = .next (State.measure { s with tide := s.tide.fresh.acquire } off)) ∧
    (s.tide.state = .freerun → exec (.syncRx m off) s = .next s)) ∧
  (∀ (m : PtpIn) (rank : List Nat) (ten : Bool) (s : State),
    let t := { s.tide with ref10m := s.tide.ref10m || ten }
    let heard := { t with refPtp := true, activePort := m.port, master := some (PtpMaster.mk m.source rank) }
    ((s.ptpOk m = false ∨ s.ptpPort m.port = false) → exec (.announceRx m rank ten) s = .next (s.inputs t)) ∧
    (s.ptpOk m = true → s.ptpPort m.port = true →
      (s.tide.master = none → exec (.announceRx m rank ten) s = .next (s.inputs heard)) ∧
      (∀ x, s.tide.master = some x →
        (s.tide.activePort ≠ m.port → exec (.announceRx m rank ten) s = .next (s.inputs t)) ∧
        (s.tide.activePort = m.port → (x.source = m.source ∨ rankBetter rank x.rank = true) → exec (.announceRx m rank ten) s = .next (s.inputs heard)) ∧
        (s.tide.activePort = m.port → x.source ≠ m.source → rankBetter rank x.rank = false →
          exec (.announceRx m rank ten) s = .next (s.inputs t))))) ∧
  (∀ (ten : Bool) (s : State), exec (.ppsInEdge ten) s = .next (s.inputs { s.tide with refPps := true, ref10m := s.tide.ref10m || ten })) ∧
  (∀ (cause : Nat) (s : State), s.refOk = true → (cause = 0 ∨ (cause = 1 ∧ s.srcMode = 2) ∨ (cause = 2 ∧ s.srcMode ≠ 0)) →
    (s.tide.state = .locked → ∃ t, exec (.referenceLost cause) s = .next t ∧ t.tide.state = .holdover ∧ t.tide.holdE0 = s.tide.est ∧
      t.tide.holdSec = s.tide.time ∧ t.tide.holdA = s.fld R.TIDE_HOLD_CFG 15 0 ∧ t.tide.holdC = s.fld R.TIDE_HOLD_CFG 31 16 ∧
      t.tide.stepPend = none ∧ t.regs = (s.bump R.TIDE_HOLDOVER_CNT).regs ∧ t = { s with tide := t.tide, regs := t.regs }) ∧
    (s.tide.state = .acquiring → s.tide.lockedOnce = true → ∃ t, exec (.referenceLost cause) s = .next t ∧ t.tide.state = .unqualified ∧
      t.tide.est = 0xFFFFFFFF ∧ t = { s with tide := t.tide }) ∧
    (s.tide.state = .acquiring → s.tide.lockedOnce = false → ∃ t, exec (.referenceLost cause) s = .next t ∧ t.tide.state = .freerun ∧
      t.out = s.out ++ [.pin .ppsOut false] ∧ t = { s with tide := t.tide, out := t.out })) ∧
  (∀ s : State, s.tide.state = .holdover → 2000 < s.errEst →
    exec .holdoverExceeded s = .next (State.event { s with tide.state := .unqualified, tide.est := 0xFFFFFFFF }
      0x02 evcState 4 0 (evState 3 4 0 ++ evValue s.errEst))) ∧
  (∀ s : State, s.tide.state ≠ .holdover ∨ s.errEst ≤ 2000 → exec .holdoverExceeded s = .next s)

/-- What the passing of fabric time does: slots and the near window, the second's pulse, slews and steps, timed events and far instants, the switch of
the harvest budget, the refill of event allowances, peer-delay measurement and ports that come up. -/
def Obligations.FabricTimeDrivesSlotsEventsAndTimers : Prop :=
  (∀ s : State, exec .slotAdvance s = .next (
    let u := { s with tide.time := (s.tide.time / 8000 + 1) * 8000 }
    (if u.slot % 64 = 0 then u.spreadBucket else u).budgetCheck)) ∧
  (∀ s : State, s.tide.state ≠ .freerun → s.tide.lastPps ≠ s.tide.time / 1000000000 →
    exec .ppsOutEdge s = .next { s with
      tide.lastPps := s.tide.time / 1000000000, tide.ppsLevel := true, out := s.out ++ [.pin .ppsOut true] }) ∧
  (∀ s : State, s.tide.state = .freerun → exec .ppsOutEdge s = .next s) ∧
  (∀ s : State, s.tide.slew.isSome = true → s.tide.acqCorr = false → exec .slewEnd s = .next { s with tide.slew := none }) ∧
  (∀ s : State, s.tide.slew.isSome = true → s.tide.acqCorr = true → ∃ t, exec .slewEnd s = .next t ∧ t = { s with tide := t.tide } ∧
    t.tide.slew = none ∧ t.tide.acqCorr = false ∧ t.tide.window = [] ∧ t.tide.state = s.tide.state) ∧
  (∀ (off : Int) (s : State), s.tide.stepPend = some off → s.admitted ≠ [] → exec .stepApplied s = .next s) ∧
  (∀ (off : Int) (s : State), s.tide.stepPend = some off → s.admitted = [] → 0 ≤ off →
    exec .stepApplied s = .next (State.event (State.layoutH (State.bump
      { s with tide := { s.tide.fresh with
        time := ((s.tide.time : Int) - off).toNat, stepPend := none, acqCorr := false
        est := if s.tide.state = .acquiring then 0xFFFFFFFF else s.tide.est
        lastPps := (((s.tide.time : Int) - off).toNat + 999999999) / 1000000000 - 1 } } R.TIDE_STEP_CNT))
      0x02 evcTime 2 0 (evValueS (-off)))) ∧
  (∀ (t : Timed) (s : State), firstTimed s.dueTimed = some t → s.tide.state ≠ .freerun →
    exec .timedEventFire s = .next (s.fireTimed t false) ∧ t ∈ s.tide.timed ∧ t.armed = true ∧ t.instant ≤ s.tide.time) ∧
  (∀ s : State, ∀ p, s.tide.timed.foldl (armOne (64 * (s.tide.time / 8000 / 64 + 4096) - 1)) ([], s.tide.nextOrder) = p →
    exec .farInstantArm s = .next { s with tide.timed := p.1, tide.nextOrder := p.2 }) ∧
  (∀ (last : Nat) (ts : List Timed) (n : Nat) (x : Timed),
    (x.armed = false → x.instant / 8000 ≤ last → armOne last (ts, n) x = (ts ++ [{ x with armed := true, order := n }], n + 1)) ∧
    ((x.armed = true ∨ last < x.instant / 8000) → armOne last (ts, n) x = (ts ++ [x], n))) ∧
  (∀ (slot h : Nat) (s : State), s.ftl.hPending = some (slot, h) → slot ≤ s.tide.time / 8000 →
    exec .harvestBudgetSwitch s = .next { s with ftl.hNow := h, ftl.hPending := none, ftl.urgent := s.ftl.budgetArmed }) ∧
  (∀ s : State, s.evr.lastRefill < s.tide.time / 1000000000 → s.evr.drops = [] →
    ∃ t, exec .evrAllowanceRefill s = .next t ∧ t = { s with evr := t.evr } ∧ t.evr.lastRefill = s.tide.time / 1000000000 ∧
      ∀ c n, s.evr.allow[c]? = some n → t.evr.allow[c]? = some (Nat.min (s.fld (R.EVR_RATE c) 31 16)
        (n + (s.tide.time / 1000000000 - s.evr.lastRefill) * s.fld (R.EVR_RATE c) 15 0))) ∧
  (∀ (ps : Nat) (copper : Bool) (port : Nat) (s : State), port < 16 → s.xpt.ports.filter (fun p => p.up && decide (p.port < 16)) = [s.eport port] → (s.eport port).port = port →
    exec (.peerDelayTimer [(port, ps, copper)]) s = .next (State.cable (s.emit (.ptpDelay port)) port ps copper)) ∧
  (∀ (port line : Nat) (s : State), port ≤ 63 → s.domainOff (3 + port % 16) = false →
    exec (.ethPortUp port line) s = .next { s with
      xpt.ports := putKey EthPort.port { s.eport port with up := true, line := line, paused := [], ignoring := none, queue := [] } s.xpt.ports })

/-- The rings at work (R458, R459): a doorbell posts the entries up to the new tail, or is dropped and counted; a reply goes out with its tail word, or is
held while the reply ring is full or another is held, and then nothing is fetched; a new head releases what is held. -/
def Obligations.RingsPostFetchAndReply : Prop :=
  (∀ (ring value : Nat) (entries : List Bytes) (s : State),
    let r := s.ring ring
    let n := (value % 256 + 256 - r.postedTail) % 256
    let slots := (List.range n).map fun i => (r.postedTail + i) % 256
    (ring ≤ 3 → r.state = .running → s.ctl.ready = true → slots.any r.owned.contains = false →
      exec (.ringDoorbell ring value entries) s = .next (State.fetchRing (s.setRing ring { r with
        postedTail := value % 256, nextNo := r.nextNo + n
        posted := r.posted ++ (List.range n).map fun i => Entry.mk ((r.postedTail + i) % 256) (r.nextNo + i) (slice (entries.getD i []) 0 64) }) ring)) ∧
    (ring ≤ 3 → (r.state ≠ .running ∨ s.ctl.ready = false ∨ slots.any r.owned.contains = true) →
      exec (.ringDoorbell ring value entries) s = .next ((s.bump R.CTL_DB_DROP_CNT).event 0x01 evcDropped 3 0x100030
        (evAddr 8 ((R.CTL_RING_DB ring).addr - 2 ^ 32) ++ evValue value)))) ∧
  (∀ (n : Nat) (s : State), n < s.ctl.rings.length → (s.ring n).state = .running → (s.ring n).held = [] →
    s.fetchRing n = State.settle ((s.bumpBy R.CTL_PKT_CNT (s.ring n).posted.length).setRing n { s.ring n with
      posted := [], fetched := (s.ring n).fetched ++ (s.ring n).posted, cmdHead := ((s.ring n).cmdHead + (s.ring n).posted.length) % 256 })
      n (s.ring n).posted.length) ∧
  (∀ (n : Nat) (s : State), (s.ring n).held ≠ [] → s.fetchRing n = s) ∧
  (∀ (n : Nat) (p : RingReply) (s : State), n < s.ctl.rings.length → s.rplFull n = false → (s.ring n).held = [] →
    (s.reply n p).out = s.out ++ (if p.data = [] then [] else [.slotData n p.slot p.data]) ++
      [.reply n p.tag p.status p.data.length p.result, .tailWord n (((s.ring n).replyCount + 1) % 2 ^ 16)] ++
      (if s.fld (R.CTL_RING_CFG n) 30 30 = 1 then [.msix (s.fld (R.CTL_RING_CFG n) 10 0)] else []) ∧
    ((s.reply n p).ring n) = { s.ring n with
      rplTail := ((s.ring n).rplTail + 1) % 256, replyCount := ((s.ring n).replyCount + 1) % 2 ^ 16
      running := if p.final then (s.ring n).running.filter (·.slot != p.slot) else (s.ring n).running } ∧
    s.reply n p = { s with ctl.rings := (s.reply n p).ctl.rings, out := (s.reply n p).out, regs := (s.reply n p).regs }) ∧
  (∀ (n : Nat) (p : RingReply) (s : State), (s.rplFull n = true ∨ (s.ring n).held ≠ []) →
    s.reply n p = (s.setRing n { s.ring n with held := (s.ring n).held ++ [p] }).bump R.CTL_RPL_HOLD_CNT) ∧
  (∀ (ring value : Nat) (s : State), ring ≤ 3 → (s.ring ring).held = [] →
    let u := s.wrBus (R.CTL_RING_RPL_HEAD ring) (BitVec.ofNat 64 value)
    exec (.rplHeadWrite ring value) s = .next ((u.settle ring (s.ring ring).fetched.length).fetchRing ring)) ∧
  ∀ (ring value : Nat) (p : RingReply) (s : State), ring ≤ 3 → ring < s.ctl.rings.length → (s.ring ring).held = [p] →
    let u := s.wrBus (R.CTL_RING_RPL_HEAD ring) (BitVec.ofNat 64 value)
    u.rplFull ring = false →
      let v := (u.setRing ring { u.ring ring with held := [] }).putReply ring p
      exec (.rplHeadWrite ring value) s = .next ((v.settle ring (v.ring ring).fetched.length).fetchRing ring)

/-- Enabling and draining a ring (R470): a write of EN = 0 moves a RUNNING ring to DRAINING and gives up what was posted but not fetched, while what has been
fetched stays and is run; a DRAINING ring fetches nothing; it becomes DISABLED only once it owns no entry and every reply is visible; a write of EN = 1 is
dropped while it drains, and enabling a disabled ring sets all its indices to 0. -/
def Obligations.RingsDrainBeforeTheyAreDisabled : Prop :=
  ∀ (ring value : Nat) (s : State), ring ≤ 3 → ring < s.ctl.rings.length → ¬(value.testBit 30 = true ∧ value % 2048 = 0) →
    let put := s.wrBus (R.CTL_RING_CFG ring) (BitVec.ofNat 64 value)
    (value.testBit 31 = false → (s.ring ring).state = .running →
      exec (.ringDisable ring value) s = .next (put.setRing ring { s.ring ring with state := .draining, posted := [] })) ∧
    ((s.ring ring).state = .running → ∀ opc slot,
      State.startable (put.setRing ring { s.ring ring with state := .draining, posted := [] }) opc ring slot = s.startable opc ring slot) ∧
    ((s.ring ring).state = .draining → s.fetchRing ring = s) ∧
    ((s.ring ring).state = .draining → (s.ring ring).fetched = [] → (s.ring ring).running = [] → (s.ring ring).held = [] →
      (s.ring ring).posted = [] → exec (.ringDrainDone ring) s = .next (s.setRing ring { s.ring ring with state := .disabled })) ∧
    (((s.ring ring).state ≠ .draining ∨ (s.ring ring).fetched ≠ [] ∨ (s.ring ring).running ≠ [] ∨ (s.ring ring).held ≠ []) →
      exec (.ringDrainDone ring) s = .next s) ∧
    (value.testBit 31 = true → (s.ring ring).state = .draining → exec (.ringEnable ring value) s = .next s) ∧
    (value.testBit 31 = true → (s.ring ring).state = .disabled → ∃ t, exec (.ringEnable ring value) s = .next t ∧
      t = (put.wr (R.CTL_RING_RPL_HEAD ring) 0).setRing ring (t.ring ring) ∧ (t.ring ring).state = .running ∧ (t.ring ring).cmdHead = 0 ∧
      (t.ring ring).postedTail = 0 ∧ (t.ring ring).rplTail = 0 ∧ (t.ring ring).replyCount = 0 ∧ (t.ring ring).fetched = [] ∧
      (t.ring ring).posted = [] ∧ (regsWfFrom 0 s.regs = true → t.rd (R.CTL_RING_RPL_HEAD ring) = 0))

/-- The common checks of a control packet (R462, R473) and its answers (R464, R471), for every opcode: one that is not fetched, not first in its order or of
another opcode does nothing; one whose target or session fails ends with that status and no other effect; a change of pool configuration waits during a
takeover and is refused on a FENCED head; what its rule decides is answered by one final reply, preceded by IN_PROGRESS where it has started, and a packet that
a reset took away is not answered. NOP is answered with CTL_FW_BEAT. -/
def Obligations.ControlPacketsAreCheckedAndAnswered : Prop :=
  (∀ (opc n slot : Nat) (body : Entry → PktRef → State → PktRes) (s : State),
    (s.startable opc n slot = none → s.packet opc n slot body = s) ∧
    (∀ e, s.startable opc n slot = some e → e ∈ (s.ring n).fetched ∧ e.slot = slot ∧ e.opcode = opc ∧ e.staticStatus = stOk ∧
      (e.ordered = true → ∀ x ∈ (s.ring n).running ++ (s.ring n).fetched, ¬ x.no < e.no)) ∧
    (∀ e, s.startable opc n slot = some e → s.entryStatus e ≠ stOk →
      s.packet opc n slot body = (s.begun n slot e).replied n slot e (s.entryStatus e) [] []) ∧
    (∀ e, s.startable opc n slot = some e → s.entryStatus e = stOk → opcodeCfg opc = true →
      (s.pair.state = .suspect ∨ s.pair.state = .electing → s.packet opc n slot body = s) ∧
      (s.pair.state = .fenced → s.packet opc n slot body = (s.begun n slot e).replied n slot e (if opc = 0x82 then 0x0C03 else stNotOwner) [] [])) ∧
    (∀ e, s.CanRun opc n slot e →
      s.packet opc n slot body = s.ended n slot e (body e (packetRef n slot e) (s.begun n slot e)))) ∧
  (∀ (opc n slot : Nat) (e : Entry) (o : OpRow) (s : State), s.startable opc n slot = some e → opRow opc = some o →
    (o.target.accepts e.target = false → s.entryStatus e = stInvalidField) ∧
    (o.target.accepts e.target = true → unitValid e.target = true → s.ust e.target = .online → o.session = true → s.boot.sessionOpen = false →
      s.entryStatus e = stAccessLocked) ∧
    (o.target.accepts e.target = true → unitValid e.target = true → s.ust e.target = .failed → o.session = false →
      opc ≠ 0x20 → opc ≠ 0x22 → opc ≠ 0x24 → opc ≠ 0x26 →
      s.entryStatus e = if o.cfg && s.pair.state == .fenced then stNotOwner else stUnitFailed)) ∧
  (∀ (n slot st : Nat) (e : Entry) (res data : Bytes) (u : State),
    ((u.ring n).running.any (fun x => x.slot == slot && x.no == e.no) = true →
      u.replied n slot e st res data =
        (u.reply n ⟨slot, e.tag, st, padResult res, if st = stOk then data else [], true⟩).settle n (u.ring n).fetched.length) ∧
    ((u.ring n).running.any (fun x => x.slot == slot && x.no == e.no) = false → u.replied n slot e st res data = u)) ∧
  (∀ (n slot : Nat) (e : Entry) (s : State), s.startable 0x01 n slot = some e → n < s.ctl.rings.length →
    ((s.begun n slot e).ring n).running = (s.ring n).running ++ [e] ∧ e ∉ ((s.begun n slot e).ring n).fetched) ∧
  ∀ (n slot : Nat) (e : Entry) (s : State), s.CanRun 0x01 n slot e →
    exec (.nop n slot) s = .next ((s.begun n slot e).replied n slot e stOk (leBytes 8 s.ctl.beat) [])

/-- The frame of control packets (R458, R464): starting a packet, its IN_PROGRESS reply and its final reply change only the rings, the outputs and the counters
of failed and held replies; a packet that only reports changes nothing else, whatever it answers, but that GET_UNIT looks its descriptor up in the last-level cache. -/
def Obligations.RepliesAndReportsTouchOnlyTheRings : Prop :=
  (∀ (n slot : Nat) (e : Entry) (st : Nat) (result data : Bytes) (s : State),
    s.RingsOnly (s.begun n slot e) ∧ s.RingsOnly (s.inProgress n slot e) ∧ s.RingsOnly (s.replied n slot e st result data) ∧
    (s.peerInService = false → s.RingsOnly (s.cfgEnded n slot e result)) ∧
    (s.peerInService = true → ∃ w, s.cfgEnded n slot e result = { s with ctl.cfgWaits := s.ctl.cfgWaits ++ [w] })) ∧
  (∀ (n slot : Nat) (s : State), ∃ t, exec (.getUnit n slot) s = .next t ∧ State.RingsOnly { s with llc := t.llc } t) ∧
  ∀ (n slot : Nat) (i : Instr), i ∈ [.nop n slot, .getIdentity n slot, .getModuleInfo n slot, .getVolumeAdmission n slot,
      .getDedupDomain n slot, .listSnapshots n slot, .getReplSession n slot, .getPairStatus n slot, .fwStatus n slot, .getPowerStatus n slot,
      .getCables n slot] →
    ∀ s : State, ∃ t, exec i s = .next t ∧ s.RingsOnly t

/-- Pools and volumes (R474 to R476): CREATE_POOL, CREATE_VOLUME, DELETE_VOLUME, ATTACH_VOLUME, each with the refusals its table gives. -/
def Obligations.PoolAndVolumePackets : Prop :=
  (∀ (n slot : Nat) (e : Entry) (s : State), s.CanRun 0x08 n slot e →
    let b := s.begun n slot e
    ((e.zero 12 2 = false ∨ s.rootPan.isNone = true ∨ s.pool.loaded = true ∨ e.num 10 2 > 4095) →
      ∀ ok, exec (.createPool n slot ok) s = .next (b.replied n slot e stInvalidField [] [])) ∧
    (e.zero 12 2 = true → s.rootPan.isSome = true → s.pool.loaded = false → s.peerHasPool = false → e.num 10 2 ≤ 4095 →
      (s.kpage (e.num 10 2)).mediaKey = true → (s.pair.state = .paired ∨ s.pair.state = .solo) →
      let t := b.formPool (e.num 10 2)
      t.pool.loaded = true ∧ t.pool.mdKey = e.num 10 2 ∧ t.pool.gen = 3 ∧ t.pool.id.length = 16 ∧ t.keys.pwk.map List.length = some 32 ∧
      t.keys.pwkStored = t.keys.pwk.map (Config.keyWrap Config.deviceKey) ∧ t = { b with pool := t.pool, keys := t.keys, free := b.free + 2 } ∧
      exec (.createPool n slot false) s = .next (b.replied n slot e stUnitFailed [] []) ∧
      exec (.createPool n slot true) s =
        .next (State.replied (State.inProgress ((t.noteRecord 1).startPool).sharePool n slot e) n slot e stOk t.pool.id []))) ∧
  (∀ (n slot : Nat) (e : Entry) (s : State), s.CanRun 0x45 n slot e →
    let b := s.begun n slot e
    let v : Volume :=
      { nsid := e.num 10 4, lbaf := e.num 14 1, attached := e.num 15 1 == 1, ana := e.num 16 2, homeKey := e.num 18 2, domain := 0
        nsze := e.num 20 8, mode := 0, flags := 0, clientAllow := 1, budget := 0, maxInflight := 0, cgroup := 0 }
    (1 ≤ v.ana → v.ana ≤ 1024 → s.ownsGroup v.ana = false → exec (.createVolume n slot) s = .next (b.replied n slot e stNotOwner [] [])) ∧
    (1 ≤ v.ana → v.ana ≤ 1024 → s.ownsGroup v.ana = true → s.pool.loaded = true → 1 ≤ v.nsid → v.nsid ≤ 65536 → s.vol? v.nsid = none →
      v.lbaf ≤ 1 → e.num 15 1 ≤ 1 → v.homeKey ≤ 4095 → (s.kpage v.homeKey).mediaKey = true → 4 ≤ v.nsze → v.nsze ≤ 2 ^ 40 → v.nsze % 4 = 0 →
      s.moving v.ana = false → s.pool.volumes.length < 65536 → s.snap.gone.any (·.nsid == v.nsid) = false →
      (s.group v.ana).owner = s.role →
      let t := (b.storeVol v).putMap { nsid := v.nsid, snap := none, pages := [] }
      exec (.createVolume n slot) s = .next ((if v.attached then t.nsChanged else t).cfgEnded n slot e []))) ∧
  (∀ (n slot : Nat) (e : Entry) (v : Volume) (s : State), s.CanRun 0x46 n slot e → s.vol? (e.num 10 4) = some v → s.ownsGroup v.ana = true →
    let b := s.begun n slot e
    (v.attached = true → exec (.deleteVolume n slot) s = .next (b.replied n slot e stBusy [] [])) ∧
    (s.moving v.ana = false → v.attached = false → v.cgroup = 0 → s.snap.sessions = [] →
      let t := (b.dropEpochs v.nsid false).placeCfg (leBytes 1 cfgVolumeGone ++ leBytes 4 v.nsid)
      exec (.deleteVolume n slot) s = .next (State.cfgEnded (State.placeAct { t with
        pool.volumes := dropKey Volume.nsid v.nsid t.pool.volumes, snap.gone := t.snap.gone ++ [v] } (.drop v.nsid none false)) n slot e []))) ∧
  (∀ (n slot : Nat) (e : Entry) (v : Volume) (s : State), s.CanRun 0x47 n slot e → s.vol? (e.num 10 4) = some v → s.ownsGroup v.ana = true →
    e.num 14 1 ≤ 1 → e.zero 15 3 = true → s.moving v.ana = false →
    let b := s.begun n slot e
    (v.attached = (e.num 14 1 == 1) → s.hq.cmds.any (fun c => c.nsid == v.nsid) = false →
      exec (.attachVolume n slot) s = .next (b.replied n slot e stOk [] [])) ∧
    (v.attached = false → e.num 14 1 = 1 →
      exec (.attachVolume n slot) s = .next (((b.storeVol { v with attached := true }).nsChanged).cfgEnded n slot e []))) ∧
  (∀ (n slot : Nat) (e : Entry) (s : State), s.CanRun 0x46 n slot e → s.vol? (e.num 10 4) = none →
    exec (.deleteVolume n slot) s = .next ((s.begun n slot e).replied n slot e stInvalidField [] [])) ∧
  ∀ (n slot : Nat) (e : Entry) (s : State), s.CanRun 0x47 n slot e → s.vol? (e.num 10 4) = none →
    exec (.attachVolume n slot) s = .next ((s.begun n slot e).replied n slot e stInvalidField [] [])

/-- How an event reaches the recorder (R441 to R444, R449): appended with the next sequence; folded into the last record whose flush has not started;
dropped for want of allowance, while frozen or for want of room, taking no sequence; a record of severity 4 to 6 without room latches EVR_LOSS. -/
def Obligations.EventsAreSequencedFoldedAndLimited : Prop :=
  ∀ (cls code sev unit : Nat) (items : List DWord) (late : Bool) (s : State),
    let r : EvRec :=
      { seq := 0, cls := cls, code := code, sev := sev, unit := unit, rept := 1, time := s.tide.time, sat := false, held := false
        late := late, timeInvalid := s.tide.state == .freerun, items := items }
    let t := s.event cls code sev unit items late
    s.Records t ∧
    (s.evr.frozen = false → s.foldTarget = none → evExempt code sev = true →
      s.evr.awaitBytes + (evFill s.evr.pageFill r.bytes + r.bytes) ≤ evLimit sev →
      t.evr.seq = (s.evr.seq + 1) % 2 ^ 32 ∧ t.evr.awaiting = s.evr.awaiting ++ [{ r with seq := (s.evr.seq + 1) % 2 ^ 32 }] ∧
        t.evr.allow = s.evr.allow ∧ t.evr.area = s.evr.area) ∧
    (∀ n, s.evr.frozen = false → s.foldTarget = none → evExempt code sev = false → s.fld (R.EVR_RATE cls) 15 0 ≠ 0 → s.evr.allow[cls]? = some (n + 1) →
      s.evr.awaitBytes + (evFill s.evr.pageFill r.bytes + r.bytes) ≤ evLimit sev →
      t.evr.seq = (s.evr.seq + 1) % 2 ^ 32 ∧ t.evr.awaiting = s.evr.awaiting ++ [{ r with seq := (s.evr.seq + 1) % 2 ^ 32 }] ∧
        t.evr.allow = s.evr.allow.set cls n) ∧
    (∀ l, s.evr.frozen = false → s.foldTarget = some l → l.matches cls code sev unit items = true → l.rept < 0xFFFF →
      t.evr.seq = s.evr.seq ∧ t.evr.allow = s.evr.allow ∧ t.evr.awaiting = s.evr.awaiting.dropLast ++ [{ l with rept := l.rept + 1 }]) ∧
    (∀ l, s.evr.frozen = false → s.foldTarget = some l → l.matches cls code sev unit items = true → 0xFFFF ≤ l.rept →
      t.evr.seq = s.evr.seq ∧ t.evr.awaiting = s.evr.awaiting.dropLast ++ [{ l with sat := true }]) ∧
    (s.evr.frozen = false → s.foldTarget = none → evExempt code sev = false → s.fld (R.EVR_RATE cls) 15 0 ≠ 0 → s.evr.allow[cls]? = some 0 →
      t = { s.bump (R.EVR_DROP_CNT cls) with evr.drops := evNoteDrop s.evr.drops cls code unit }) ∧
    (s.evr.frozen = true → sev ≤ 3 →
      t.evr.seq = s.evr.seq ∧ t.evr.awaiting = s.evr.awaiting ∧ t.evr.heldRecs = s.evr.heldRecs ∧ cls ∈ t.evr.frozenDrops ∧
        t.regs = ((s.bump R.EVR_FROZEN_DROP_CNT).bump (R.EVR_DROP_CNT cls)).regs) ∧
    (s.evr.frozen = true → 4 ≤ sev → evExempt code sev = true → s.reserveUsed + r.bytes ≤ 32768 →
      t = { s with evr.heldRecs := s.evr.heldRecs ++ [{ r with held := true }], evr.heldBytes := s.evr.heldBytes + r.bytes }) ∧
    (s.evr.frozen = false → s.foldTarget = none → evExempt code sev = true → 4 ≤ sev →
      evLimit sev < s.evr.awaitBytes + (evFill s.evr.pageFill r.bytes + r.bytes) →
      t = (((s.bump R.EVR_RESERVE_DROP_CNT).latchAlarm 10).evCore 0x14 0x09 5 0
        (evValue 262144 ++ evCount cls (((s.bump R.EVR_RESERVE_DROP_CNT).latchAlarm 10).rd (R.EVR_DROP_CNT cls)).toNat) false).1)

/-- The recorder's timers and packets: a flush starts when the oldest record has waited FLUSH_MS, and when it ends its pages are in the circular area and the
retained slice and the next flush or DUMP_DONE follows (R445, R446, R448); the view thaws when FREEZE_MAX passes (R449); the end of a coalescing window
(R454); READ_EVENTS, FREEZE_EVENTS, OPEN_LOG_EPOCH with their refusals (R450, R451); the saving of the health record (R308). -/
def Obligations.TheRecorderFlushesFreezesAndIsRead : Prop :=
  (∀ s : State, s.evr.flushBytes < s.evr.awaitBytes → exec .evrFlushTimer s = .next s.flushStart) ∧
  (∀ s : State, s.evr.flushing = true →
    let rs := s.evr.awaiting.take s.evr.flushRecs
    let u := (splitEpochs rs []).foldl State.retainRun ((evPages rs [] []).foldl State.evPage s)
    let v := { u with
      evr.awaiting := u.evr.awaiting.drop u.evr.flushRecs, evr.awaitBytes := u.evr.awaitBytes - u.evr.flushBytes, evr.flushing := false
      evr.flushRecs := 0, evr.flushBytes := 0, evr.flushPend := false }
    exec .evrFlushDone s = .next (if u.evr.flushPend then v.flushStart else v.dumpCheck)) ∧
  (∀ s : State, s.evr.flushing = false → exec .evrFlushDone s = .next s) ∧
  (∀ s : State, exec .evrFreezeExpiry s = .next s.thaw) ∧
  (∀ s : State, s.evr.frozen = false → s.thaw = s) ∧
  (∀ s u v : State, s.evr.frozen = true →
    u = s.evr.heldRecs.foldl State.thawRec { s with evr.frozen := false, evr.heldRecs := [], evr.heldBytes := 0, evr.frozenDrops := [] } →
    v = u.event 0x14 0x13 2 0 (s.evr.frozenDrops.flatMap fun c => evCount c (u.rd (R.EVR_DROP_CNT c)).toNat) →
    v.evr.nextPage % 128 = 0 → s.thaw = v) ∧
  (∀ (ctrl typ info : Nat) (a : AenSlot) (s : State), s.evr.aen = [a] → a.is ctrl typ info = true →
    let u := { s with evr.aen := [{ a with windowOpen := false }] }
    exec (.aenWindowExpiry ctrl typ info) s = .next (if a.waiting && !a.unread then u.postAen ctrl typ info a.lid else u)) ∧
  (∀ (n slot : Nat) (e : Entry) (s : State), s.CanRun 0xA0 n slot e → e.num 10 1 = 0 → e.num 11 1 = 0 → e.zero 12 2 = true →
    64 ≤ e.num 18 4 → e.num 18 4 ≤ 65536 → s.bankBusy 4 = false → s.bankBusy 5 = false →
    let b := s.begun n slot e
    let rs := s.evr.area.map Prod.snd ++ s.evr.awaiting
    (∀ o, rs.head? = some o → serialAfter 32 (e.num 14 4) o.seq = true →
      exec (.readEvents n slot) s = .next (b.replied n slot e 0x0E00 (leBytes 8 0 ++ leBytes 4 o.seq) [])) ∧
    (∀ o w f l, rs.head? = some o → rs.getLast? = some w → serialAfter 32 (e.num 14 4) o.seq = false →
      let out := evTake (e.num 18 4) (rs.filter fun r => !serialAfter 32 r.seq (e.num 14 4))
      out.head? = some f → out.getLast? = some l →
      exec (.readEvents n slot) s = .next (b.replied n slot e stOk
        (leBytes 4 f.seq ++ leBytes 4 ((l.seq + 1) % 2 ^ 32) ++ leBytes 4 o.seq ++ leBytes 4 w.seq) (out.flatMap EvRec.toBytes)))) ∧
  (∀ (n slot : Nat) (e : Entry) (s : State), s.CanRun 0xA1 n slot e → e.zero 11 3 = true →
    let b := s.begun n slot e
    (e.num 10 1 = 1 → s.evr.frozen = false → exec (.freezeEvents n slot) s =
      .next (State.replied { b with evr.frozen := true } n slot e stOk (leBytes 4 s.evr.seq) [])) ∧
    (e.num 10 1 = 1 → s.evr.frozen = true → exec (.freezeEvents n slot) s = .next (b.replied n slot e 0x0E01 [] [])) ∧
    (e.num 10 1 = 0 → s.evr.frozen = false → exec (.freezeEvents n slot) s = .next (b.replied n slot e 0x0E03 [] [])) ∧
    (e.num 10 1 = 0 → s.evr.frozen = true → exec (.freezeEvents n slot) s = .next (b.thaw.replied n slot e stOk (leBytes 4 b.thaw.evr.seq) []))) ∧
  (∀ (n slot : Nat) (e : Entry) (s : State), s.CanRun 0xA2 n slot e →
    let b := s.begun n slot e
    (s.boot.scope.testBit 1 = false → exec (.openLogEpoch n slot) s = .next (b.replied n slot e stAccessLocked [] [])) ∧
    (s.boot.scope.testBit 1 = true → 64 ≤ s.evr.slices.length → exec (.openLogEpoch n slot) s = .next (b.replied n slot e 0x0E02 [] [])) ∧
    (s.boot.scope.testBit 1 = true → s.evr.slices.length < 64 → exec (.openLogEpoch n slot) s = .next (State.replied (State.event { b with
      evr.epoch := s.evr.epoch + 1, evr.slices := s.evr.slices ++ [(0, [])] } 0x14 0x11 2 0 (evValue (s.evr.epoch + 1) ++ evValue 2))
      n slot e stOk [] []))) ∧
  (∀ s : State, exec .healthRecordTimer s = .next { s.noteRecord 4 with sfl.health := some s.ftl.health })

/-- The system flash (R425, R427, R429, R433): a command is refused with a code and then changes no byte, or its bank is busy until it ends; a program
writes one page and no other byte, an erase one block and no other byte, a failed one leaves the page or the block undefined; reads of a busy bank abort
through the aperture and wait through READ_SYSTEM_FLASH. -/
def Obligations.SystemFlashProgramsErasesAndReads : Prop :=
  (∀ (bank : Nat) (s : State), bank < 8 → s.halted = false →
    let page := s.fld (R.SFL_B_ADDR bank) 31 12
    let op (n : Nat) (d : Bytes) : State := { s with sfl.ops := s.sfl.ops ++ [{ bank := bank, op := n, page := page, data := d }] }
    (s.sflRefuse bank 1 = 0 → exec (.sflProgram bank) s = .next (op 1 (memReadAll 0 s.sfl.buf (bank * 4096) 4096))) ∧
    (s.sflRefuse bank 2 = 0 → exec (.sflErase bank) s = .next (op 2 [])) ∧
    (s.sflRefuse bank 1 ≠ 0 → exec (.sflProgram bank) s = .next (s.sflEnd bank (s.sflRefuse bank 1))) ∧
    (s.sflRefuse bank 2 ≠ 0 → exec (.sflErase bank) s = .next (s.sflEnd bank (s.sflRefuse bank 2))) ∧
    (∀ n, s.sflEnd bank n = { s with regs := (s.sflEnd bank n).regs }) ∧
    (∀ n, (s.boot.sessionOpen = false ∨ s.boot.scope.testBit 0 = false) → s.sflRefuse bank n = 5) ∧
    (s.boot.sessionOpen = true → s.boot.scope.testBit 0 = true → page / 0x20000 = bank → 64 ≤ page → sflReserved page = false →
      (∀ n, s.bankBusy bank = true → s.sflRefuse bank n = 6) ∧
      (s.bankBusy bank = false → s.sflRefuse bank 2 = 0 ∧ s.sflRefuse bank 1 = if s.sfl.programmed.contains page then 3 else 0))) ∧
  (∀ (bank : Nat) (o : SflOp) (s : State), s.sfl.ops.find? (fun o => o.bank == bank) = some o → s.boot.resetReq = none →
    let e : State := { s with sfl.ops := s.sfl.ops.filter fun x => x.bank != bank }
    (o.op = 1 → exec (.sflOpDone bank true) s = .next (((e.sflPut o.page o.data).bump R.SFL_PROG_CNT).sflEnd bank 0)) ∧
    (o.op = 2 → exec (.sflOpDone bank true) s = .next (((e.sflClear (o.page / 64)).bump R.SFL_ERASE_CNT).sflEnd bank 0)) ∧
    (o.op = 1 → findKey Prod.fst (o.page / 64) s.sfl.progFails = none →
      exec (.sflOpDone bank false) s = .next (State.sflEnd { e.sflLoose o.page with sfl.progFails := putKey Prod.fst (o.page / 64, 1) s.sfl.progFails } bank 1)) ∧
    (o.op = 2 → exec (.sflOpDone bank false) s = .next ((((List.range 64).foldl (fun (u : State) i => u.sflLoose (o.page / 64 * 64 + i)) e).sflRetire
      (o.page / 64)).sflEnd bank 2))) ∧
  (∀ (page a : Nat) (b : Bytes) (s : State),
    (a / 4096 ≠ page → (s.sflPut page b).sflByte a = s.sflByte a) ∧
    (∀ i, i < 4096 → Memory.wf 0xFF s.sfl.mem = true → (s.sflPut page b).sflByte (page * 4096 + i) = (slice b 0 4096).getD i 0xFF) ∧
    (a / 4096 ≠ page → (s.sflLoose page).sflByte a = s.sflByte a) ∧
    (s.sflLoose page).sflByte (page * 4096 + a % 4096) = Config.freeByte s.free (a % 4096) ∧
    (a / 262144 ≠ page → (s.sflClear page).sflByte a = s.sflByte a) ∧ (a / 262144 = page → (s.sflClear page).sflByte a = 0xFF)) ∧
  (∀ (off size level : Nat) (s : State), 0x03100000 ≤ off → off + size ≤ 0x03200000 → (size = 4 ∨ size = 8) → off % size = 0 → s.halted = false →
    let a := (s.fld R.SFL_WIN_BASE 31 20 * 2 ^ 20 + (off - 0x03100000)) % 2 ^ 32
    (s.bankBusy (bankOf a) = true →
      exec (.sflApertureRead off size level) s = .next (((s.setFld R.SFL_STATUS 8 8 1).bump R.SFL_BUS_FAULT_CNT).emit (.abort 0 off size))) ∧
    (s.bankBusy (bankOf a) = false →
      (sflKeys (a / 4096) = true → exec (.sflApertureRead off size level) s = .next (s.emit (.busRead 0 off size 0))) ∧
      (sflKeys (a / 4096) = false → level = 0 → exec (.sflApertureRead off size level) s = .next (s.emit (.busRead 0 off size (leNat (s.sflBytes a size))))) ∧
      (sflKeys (a / 4096) = false → 1 ≤ level → level ≤ 4 →
        exec (.sflApertureRead off size level) s =
          .next ((s.bump (R.SFL_RETRY_LVL_CNT level)).emit (.busRead 0 off size (leNat (s.sflBytes a size))))) ∧
      (sflKeys (a / 4096) = false → 8 < level → exec (.sflApertureRead off size level) s = .next ((s.sflUnc (a / 4096)).emit (.abort 0 off size))))) ∧
  ∀ (n slot : Nat) (levels : List Nat) (e : Entry) (s : State), s.CanRun 0xD0 n slot e →
    let a := e.num 10 4
    let l := e.num 14 4
    let pages := (List.range ((a + l - 1) / 4096 + 1 - a / 4096)).map (· + a / 4096)
    ((l < 4 ∨ l > 65536 ∨ l % 4 ≠ 0 ∨ a + l > 2 ^ 32) →
      exec (.readSystemFlash n slot levels) s = .next ((s.begun n slot e).replied n slot e stInvalidField [] [])) ∧
    (¬(l < 4 ∨ l > 65536 ∨ l % 4 ≠ 0 ∨ a + l > 2 ^ 32) →
      ((pages.any fun p => sflKeys p || sflReserved p) = true →
        exec (.readSystemFlash n slot levels) s = .next ((s.begun n slot e).replied n slot e 0x0D00 [] [])) ∧
      ((pages.any fun p => sflKeys p || sflReserved p) = false → (pages.any fun p => s.bankBusy (bankOf (p * 4096))) = true →
        exec (.readSystemFlash n slot levels) s = .next s) ∧
      ((pages.any fun p => sflKeys p || sflReserved p) = false → (pages.any fun p => s.bankBusy (bankOf (p * 4096))) = false → levels = [] →
        exec (.readSystemFlash n slot levels) s = .next ((s.begun n slot e).replied n slot e stOk [] (s.sflBytes a l))))

/-- Memory errors and the last-level cache (R391, R402, R403): each corrected word is counted and recorded, and memory keeps its content; a cleanly
re-read page and a landing area that is hit lose nothing else; ways are turned off in pairs, at once in the register and in use once they are cleaned. -/
def Obligations.MemoryErrorsAndCacheWays : Prop :=
  (∀ (found : List (Nat × Nat × Nat × Nat)) (s : State), exec (.patrolScrub found) s = .next (found.foldl State.corrected s)) ∧
  (∀ (unit addr n : Nat) (s : State),
    (s.corrected (unit, 1, addr, n)).mem = s.mem ∧
    s.corrected (unit, 1, addr, n) = (s.bump R.MEM_HBM_CE_CNT).event 0x0E evcCorrected 3 unit (evAddr 1 addr ++ evValue n) ∧
    s.corrected (unit, 2, addr, n) = (s.bump R.MEM_DDR_CE_CNT).event 0x0E evcCorrected 3 unit (evAddr 2 addr ++ evValue n)) ∧
  (∀ (unit space addr : Nat) (hit : MemHit) (s : State), (space = 1 ∧ addr < 144 * 2 ^ 30 ∨ space = 2 ∧ addr < s.mem.ddrGib * 2 ^ 30) → unitClass unit = 8 →
    (s.areaOf space addr).holds hit = true →
    let c := s.bump (if space = 1 then R.MEM_HBM_UE_CNT else R.MEM_DDR_UE_CNT)
    let a := c.alarm 9 0x0E evcUncorrected unit (evAddr space addr ++ evValue (hitRow hit))
    exec (.memoryUe unit space addr hit) s = .next (a.ueOutcome space addr hit) ∧ a.mem = s.mem ∧
    (hit = .cleanPage → a.ueOutcome space addr hit = a.bump R.MEM_PAGE_REREAD_CNT) ∧
    (hit = .landing → a.ueOutcome space addr hit = { a with mem.poison := (space - 1, addr / 32 * 32) :: a.mem.poison }) ∧
    (∀ q, hit = .context q → a.ueOutcome space addr hit = a.failQp q 6) ∧
    (hit = .changedPage → (s.pair.state = .paired ∨ s.pair.state = .suspect ∨ s.pair.state = .electing) →
      a.ueOutcome space addr hit = State.askReset { a.sendLeave 0x10 with pair.state := .down } 6)) ∧
  (∀ (slice value : Nat) (s : State), slice < 48 → s.halted = false → s.gatedBy (R.LLC_WAY_OFF slice).addr = none →
    let r := s.wrBus (R.LLC_WAY_OFF slice) (BitVec.ofNat 64 value)
    (value % 16 / 2 * 2 ≠ (s.llcSlice slice).off → exec (.llcWayOffWrite slice value) s =
      .next { r with mem.slices := putKey LlcSlice.idx { s.llcSlice slice with req := value % 16 / 2 * 2, busy := true } s.mem.slices }) ∧
    (value % 16 / 2 * 2 = (s.llcSlice slice).off → (s.llcSlice slice).busy = false → exec (.llcWayOffWrite slice value) s = .next r)) ∧
  (∀ (slice value d : Nat) (s : State), slice < 48 → s.halted = false → s.gatedBy (R.LLC_WAY_OFF slice).addr = some d →
    exec (.llcWayOffWrite slice value) s = .next (s.gatedDrop d (R.LLC_WAY_OFF slice).addr 4)) ∧
  (∀ (slice : Nat) (s : State), (s.llcSlice slice).busy = true → ∃ t, exec (.llcWayCleanDone slice) s = .next t ∧
    t = { s with mem.slices := t.mem.slices, llc := t.llc } ∧
    (∀ x ∈ t.llc.lines, x.slice = slice → (s.fld (R.LLC_WAY_OFF slice) 3 1 * 2).testBit (x.way / 4) = false) ∧ t.llcSlice slice = { s.llcSlice slice with off := s.fld (R.LLC_WAY_OFF slice) 3 1 * 2, busy := false } ∧
    ∀ x, x ≠ slice → t.llcSlice x = s.llcSlice x) ∧
  ∀ s : State, exec .llcRehashDone s = .next { s with mem.rehash := false }

/-- The last-level cache (R398, R400, R401): looking up, filling, writing and invalidating lines leaves every line that is not being filled with the content memory
holds, no line held twice and no way holding two; a write that misses fills nothing; readers of a fill receive the line as it was before the writes that wait for
it; a hit has age 0, a normal fill 1 and a streaming one 3; the victim is an invalid way or a line of age 3; a corrected error keeps the line, any other
refetches it. While the cache is rehashed every lookup misses; that nothing is filled then, and that errors are free values, is the model's choice (logs 136, 137). -/
def Obligations.TheLastLevelCacheAgreesWithMemory : Prop :=
  (∀ (c : Llc) (s : State) (space line reader : Nat) (stream : Bool) (out : LlcLine → Bool), c.Agrees →
    (c.ask s space line reader stream).Agrees ∧ (c.arrive space line).Agrees ∧ (c.write space line).Agrees ∧ (c.leave out).Agrees) ∧
  (∀ (c : Llc) (space line : Nat),
    (c.line? space line = none → (c.write space line).lines = c.lines ∧ (c.write space line).misses = c.misses + 1 ∧
      (c.write space line).held space line = c.held space line + 1) ∧
    ∀ x, c.line? space line = some x →
      (∀ f, x.fill = some f →
        ((c.write space line).line? space line = some { x with fill := some { f with writes := f.writes + 1 } } ∧ (c.write space line).mem = c.mem) ∧
        ((c.arrive space line).line? space line = some { x with age := f.age, content := c.held space line + f.writes, fill := none } ∧
          (c.arrive space line).held space line = c.held space line + f.writes ∧ (c.arrive space line).got = f.readers.map fun r => (r, c.held space line))) ∧
      (x.fill = none → Config.llcFault c.looks = .clean →
        (c.write space line).line? space line = some { x with age := 0, content := c.held space line + 1 } ∧
        (c.write space line).held space line = c.held space line + 1 ∧ (c.write space line).hits = c.hits + 1)) ∧
  (∀ (c : Llc) (s : State) (space line reader : Nat) (stream : Bool),
    (s.mem.rehash = true → c.ask s space line reader stream = c.miss) ∧
    (s.mem.rehash = false → c.line? space line = none → ∀ w held,
      llcVictim (s.llcSlice (s.llcPlace space line).1).ways (c.lines.filter fun x => x.slice == (s.llcPlace space line).1 && x.set == (s.llcPlace space line).2) =
        (some w, held) →
      (c.ask s space line reader stream).misses = c.misses + 1 ∧
      ∃ x, (c.ask s space line reader stream).line? space line = some x ∧ x.way = w ∧ x.fill = some ⟨if stream then 3 else 1, [reader], 0⟩) ∧
    ∀ x, s.mem.rehash = false → c.line? space line = some x →
      (∀ f, x.fill = some f → (c.ask s space line reader stream).line? space line = some { x with fill := some { f with readers := f.readers ++ [reader] } }) ∧
      (x.fill = none → Config.llcFault c.looks = .clean → (c.ask s space line reader stream).line? space line = some { x with age := 0 } ∧
        (c.ask s space line reader stream).hits = c.hits + 1) ∧
      (x.fill = none → Config.llcFault c.looks = .corrected → (c.ask s space line reader stream).line? space line = some { x with age := 0 } ∧
        (c.ask s space line reader stream).dataCe = c.dataCe + 1) ∧
      (x.fill = none → Config.llcFault c.looks = .tagParity → ∀ y, (c.ask s space line reader stream).line? space line = some y →
        y.fill = some ⟨if stream then 3 else 1, [reader], 0⟩) ∧
      (x.fill = none → Config.llcFault c.looks = .uncorrectable → ∀ y, (c.ask s space line reader stream).line? space line = some y →
        y.fill = some ⟨if stream then 3 else 1, [reader], 0⟩)) ∧
  ∀ (ways : List Nat) (held : List LlcLine),
    (∀ w, ways.find? (fun w => held.all fun x => x.way != w) = some w → llcVictim ways held = (some w, held)) ∧
    (ways.find? (fun w => held.all fun x => x.way != w) = none → ∀ w aged, llcVictim ways held = (some w, aged) →
      w ∈ ways ∧ ∃ x ∈ aged, x.way = w ∧ x.fill = none ∧ x.age = 3)

/-- The DMA channels at their commands (R409, R410, R413, R416, R417): the shadow registers take writes only while no transfer is armed (else ARM_REJ),
arming hands over, an abort ends the transfer with code 9, a fault ends it with the code of the end that failed, a chunk is stored where the transfer puts
it, and ERR is cleared by software. -/
def Obligations.DmaChannelsArmMoveAndEnd : Prop :=
  (∀ (ch off value : Nat) (s : State), ch < 64 → s.halted = false → s.dmaBit ch 5 = true → 0x20 ≤ off → off ≤ 0x37 → off % 4 = 0 →
    ∀ size, exec (.dmaShadowWrite ch off size value) s = .next (s.dmaPut ch 4 true)) ∧
  (∀ (ch value : Nat) (s : State), ch < 64 → s.halted = false → s.dmaBit ch 5 = false →
    exec (.dmaShadowWrite ch 0x20 8 value) s =
      .next ((s.dropLow (R.DMA_CH_SHADOW_SRC ch).addr).wrBus (R.DMA_CH_SHADOW_SRC ch) (BitVec.ofNat 64 value)) ∧
    exec (.dmaShadowWrite ch 0x28 8 value) s =
      .next ((s.dropLow (R.DMA_CH_SHADOW_DST ch).addr).wrBus (R.DMA_CH_SHADOW_DST ch) (BitVec.ofNat 64 value)) ∧
    exec (.dmaShadowWrite ch 0x30 4 value) s = .next (s.wrBus (R.DMA_CH_SHADOW_LEN ch) (BitVec.ofNat 64 (value % 2 ^ 32))) ∧
    exec (.dmaShadowWrite ch 0x34 4 value) s = .next (s.wrBus (R.DMA_CH_SHADOW_MODE ch) (BitVec.ofNat 64 value))) ∧
  (∀ (ch : Nat) (s : State), ch < 64 → s.halted = false →
    (s.dmaBit ch 5 = true → exec (.dmaArm ch) s = .next (s.dmaPut ch 4 true)) ∧
    (s.dmaBit ch 5 = false → exec (.dmaArm ch) s = .next ((s.dmaPut ch 5 true).dmaHandover ch)) ∧
    (s.xfer? ch = none → exec (.dmaAbort ch) s = .next (s.dmaPut ch 5 false)) ∧
    (∀ x, s.xfer? ch = some x → exec (.dmaAbort ch) s = .next ((s.dmaPut ch 5 false).dmaErr ch x.mode 9))) ∧
  (∀ (ch mode code : Nat) (s : State), (s.dmaErr ch mode code).xfer? ch = none ∧
    (∀ c, c ≠ ch → (s.dmaErr ch mode code).xfer? c = s.xfer? c) ∧ (s.dmaErr ch mode code).mem = s.mem ∧
    s.dmaErr ch mode code = { s with
      dma := dropKey DmaXfer.ch ch s.dma, regs := (s.dmaErr ch mode code).regs, out := (s.dmaErr ch mode code).out }) ∧
  (∀ (ch off : Nat) (data : Bytes) (x : DmaXfer) (s : State), s.xfer? ch = some x → x.open_ off = true →
    (bits x.mode 1 0 = 0 → exec (.dmaChunkDone ch off data) s = .next (s.dmaChunk x off data)) ∧
    (bits x.mode 1 0 = 1 → s.poisoned 0 (x.src + off) (x.chunk off) = false →
      exec (.dmaChunkDone ch off data) s = .next (s.dmaChunk x off (memReadAll 0 s.mem.hbm (x.src + off) (x.chunk off)))) ∧
    (bits x.mode 1 0 = 2 → s.poisoned 1 (x.src + off) (x.chunk off) = false →
      exec (.dmaChunkDone ch off data) s = .next (s.dmaChunk x off (memReadAll 0 s.mem.ddr (x.src + off) (x.chunk off)))) ∧
    (bits x.mode 1 0 = 1 → s.poisoned 0 (x.src + off) (x.chunk off) = true → exec (.dmaChunkDone ch off data) s = .next (s.dmaErr ch x.mode 6)) ∧
    (bits x.mode 1 0 = 2 → s.poisoned 1 (x.src + off) (x.chunk off) = true → exec (.dmaChunkDone ch off data) s = .next (s.dmaErr ch x.mode 6))) ∧
  (∀ (ch : Nat) (x : DmaXfer) (s : State), s.xfer? ch = some x →
    ((bits x.mode 1 0 = 0 ∨ bits x.mode 3 2 = 0) → exec (.dmaFault ch 5) s = .next (s.dmaErr ch x.mode 5)) ∧
    ((bits x.mode 1 0 = 1 ∨ bits x.mode 1 0 = 2) → exec (.dmaFault ch 6) s = .next (s.dmaErr ch x.mode 6)) ∧
    ((bits x.mode 1 0 = 3 ∨ bits x.mode 3 2 = 3) → exec (.dmaFault ch 7) s = .next (s.dmaErr ch x.mode 7))) ∧
  (∀ (ch value : Nat) (s : State), ch < 64 → s.halted = false → value.testBit 2 = true →
    let c := (s.wrBus (R.DMA_CH_STATUS ch) (BitVec.ofNat 64 value)).setFld (R.DMA_CH_STATUS ch) 23 20 0
    exec (.dmaErrClear ch value) s = .next ((c.dmaPut ch 7 false).dmaHandover ch)) ∧
  ∀ (n value : Nat) (s : State), n < 16 → s.halted = false →
    ((s.rd (R.DMA_WIN_CFG n)).toNat.testBit 31 = false →
      exec (.dmaWinCfgWrite n value) s = .next (s.wrBus (R.DMA_WIN_CFG n) (BitVec.ofNat 64 value))) ∧
    ((s.rd (R.DMA_WIN_CFG n)).toNat.testBit 31 = true →
      exec (.dmaWinCfgWrite n value) s = .next (s.setFld (R.DMA_WIN_CFG n) 31 31 (bits value 31 31)))

/-- The peer's windows (R408): a write lands at the window's base plus the offset and changes no other byte of either memory; a read answers with the bytes
there; an access outside an enabled window is answered with no data; a reply moves the transfer that waits for it on, or ends it. -/
def Obligations.PeerWindowsPlaceAndAnswer : Prop :=
  (∀ (space addr : Nat) (bs : Bytes) (s : State), space ≤ 1 → Memory.wf 0 s.mem.hbm = true → Memory.wf 0 s.mem.ddr = true →
    (∀ a, memRead 0 (s.place space addr bs).mem.hbm a =
      if space = 0 ∧ addr ≤ a ∧ a < addr + bs.length then bs.getD (a - addr) 0 else memRead 0 s.mem.hbm a) ∧
    (∀ a, memRead 0 (s.place space addr bs).mem.ddr a =
      if space = 1 ∧ addr ≤ a ∧ a < addr + bs.length then bs.getD (a - addr) 0 else memRead 0 s.mem.ddr a) ∧
    s.place space addr bs = { s with
      mem.hbm := (s.place space addr bs).mem.hbm, mem.ddr := (s.place space addr bs).mem.ddr, mem.poison := (s.place space addr bs).mem.poison }) ∧
  (∀ (h : PtlHdr) (payload : Bytes) (s : State), s.InOrder 0 h → ∀ b, s.whole 0 h payload = b →
    let u := s.taken 0 h
    (∀ p, u.winAddr (leAt b 2 1) (leAt b 8 8) (b.drop 16).length = some p → exec (.windowWriteRx h payload) s = .next (u.place p.1 p.2 (b.drop 16))) ∧
    (u.winAddr (leAt b 2 1) (leAt b 8 8) (b.drop 16).length = none →
      exec (.windowWriteRx h payload) s = .next (u.control 0x000A (windowReply (leAt b 2 1) (b.drop 16).length (leAt b 8 8) []))) ∧
    (∀ p, u.winAddr (leAt b 2 1) (leAt b 8 8) (leAt b 4 4) = some p → u.poisoned p.1 p.2 (leAt b 4 4) = false →
      exec (.windowReadRx h payload) s = .next (u.control 0x000A (windowReply (leAt b 2 1) (leAt b 4 4) (leAt b 8 8)
        (memReadAll 0 (if p.1 = 0 then u.mem.hbm else u.mem.ddr) p.2 (leAt b 4 4))))) ∧
    (u.winAddr (leAt b 2 1) (leAt b 8 8) (leAt b 4 4) = none →
      exec (.windowReadRx h payload) s = .next (u.control 0x000A (windowReply (leAt b 2 1) (leAt b 4 4) (leAt b 8 8) []))) ∧
    (∀ x, u.dma.find? (fun x => x.awaits (leAt b 2 1) (leAt b 8 8) (b.drop 16 != [])) = some x →
      (b.drop 16 = [] → exec (.windowReadReplyRx h payload) s = .next (u.dmaErr x.ch x.mode 8)) ∧
      ∀ o, b.drop 16 ≠ [] → winOff x.src (leAt b 2 1) (leAt b 8 8) = some o →
        exec (.windowReadReplyRx h payload) s = .next (u.dmaChunk x o (b.drop 16)))) ∧
  ∀ (n off len : Nat) (s : State), n < 16 →
    let cfg := (s.rd (R.DMA_WIN_CFG n)).toNat
    let base := (s.rd (R.DMA_WIN_BASE n)).toNat
    (cfg.testBit 31 = false → s.winAddr n off len = none) ∧ (off + len > bits cfg 19 0 * 4096 → s.winAddr n off len = none) ∧
    (cfg.testBit 31 = true → off + len ≤ bits cfg 19 0 * 4096 → s.regionOk (bits cfg 30 30) base (bits cfg 19 0 * 4096) = true →
      s.winAddr n off len = some (bits cfg 30 30, base + off))

/-- Admission and deadlines (R64, R65, R68, R69, R310, R311): a deadline that passes ends the command with the miss status, or marks it where its journal record
already stands; SET_HARVEST_BUDGET arms a timed event; SET_VOLUME_ADMISSION stores the volume's admission, GET_VOLUME_ADMISSION reports it and changes nothing. -/
def Obligations.DeadlinesAndAdmission : Prop :=
  (∀ (cmd cause rsrc d : Nat) (c : Cmd) (s : State), s.io? cmd = some c → c.deadline = some d →
    (8000 * s.slot < d → exec (.deadlineMissed cmd cause rsrc) s = .next s) ∧
    (s.missFits c cause rsrc = false → exec (.deadlineMissed cmd cause rsrc) s = .next s) ∧
    (d ≤ 8000 * s.slot → c.missed = none → s.missFits c cause rsrc = true →
      let m := s.bump (R.SLU_MISS_CNT_N cause)
      (s.inJournal c.id = false → exec (.deadlineMissed cmd cause rsrc) s =
        .next (((m.discardCmd c.id).bump R.SLU_MISS_CNT).endIo c.id 7 0xC1 false (missDword false rsrc cause))) ∧
      (s.inJournal c.id = true → exec (.deadlineMissed cmd cause rsrc) s =
        .next (((m.unbook c.id).putIo { c with locked := false, missed := some (missDword true rsrc cause) }).checkCmd c.id)))) ∧
  (∀ (n slot : Nat) (e : Entry) (s : State), s.CanRun 0x5A n slot e →
    let b := s.begun n slot e
    let base := e.num 18 2
    let urgent := e.num 20 2
    ((base < 100 ∨ urgent < base ∨ e.zero 22 4 = false) → exec (.setHarvestBudget n slot) s = .next (b.replied n slot e stInvalidField [] [])) ∧
    (100 ≤ base → base ≤ urgent → e.zero 22 4 = true →
      (8000 * s.dieShare ≤ urgent * 256 → exec (.setHarvestBudget n slot) s = .next (b.replied n slot e 0x0900 [] [])) ∧
      (urgent * 256 < 8000 * s.dieShare → s.ftl.hPending.isSome = true →
        exec (.setHarvestBudget n slot) s = .next (b.replied n slot e 0x0901 [] [])) ∧
      (urgent * 256 < 8000 * s.dieShare → s.ftl.hPending = none → s.tide.timed = [] →
        (s.tide.state = .freerun → exec (.setHarvestBudget n slot) s = .next (b.replied n slot e 0x0100 [] [])) ∧
        (s.tide.state ≠ .freerun → e.num 10 8 / 8000 < s.slot + 2 → exec (.setHarvestBudget n slot) s = .next (b.replied n slot e 0x0101 [] [])) ∧
        (s.tide.state ≠ .freerun → s.slot + 2 ≤ e.num 10 8 / 8000 → exec (.setHarvestBudget n slot) s = .next (State.replied { b with
          tide.timed := [⟨e.num 10 8, s.tide.nextOrder, decide (e.num 10 8 / 8000 ≤ s.lastSlot), .budget base urgent⟩]
          tide.nextOrder := s.tide.nextOrder + 1 } n slot e stOk [] []))))) ∧
  (∀ (n slot : Nat) (e : Entry) (v : Volume) (s : State), s.CanRun 0x58 n slot e → s.vol? (e.num 10 4) = some v →
    let b := s.begun n slot e
    (s.ownsGroup v.ana = false → exec (.setVolumeAdmission n slot) s = .next (b.replied n slot e stNotOwner [] [])) ∧
    (s.ownsGroup v.ana = true → 1 < e.num 14 1 → exec (.setVolumeAdmission n slot) s = .next (b.replied n slot e stInvalidField [] [])) ∧
    (s.ownsGroup v.ana = true → e.num 15 1 ≤ 1 → 1 ≤ e.num 16 2 → e.num 16 2 ≤ 4096 → e.num 22 4 ≤ 262144 → e.zero 26 8 = true →
      s.moving v.ana = false →
      (e.num 14 1 = 1 → v.mode = 0 → v.lbaf = 1 → exec (.setVolumeAdmission n slot) s = .next (b.replied n slot e 0x0201 [] [])) ∧
      (e.num 14 1 = 0 → exec (.setVolumeAdmission n slot) s = .next ((b.storeVol { v with
        mode := 0, flags := e.num 15 1, clientAllow := e.num 16 2, budget := e.num 18 4, maxInflight := e.num 22 4 }).replied n slot e stOk [] [])) ∧
      (e.num 14 1 = 1 → v.mode = 1 → exec (.setVolumeAdmission n slot) s = .next ((b.storeVol { v with
        mode := 1, flags := e.num 15 1, clientAllow := e.num 16 2, budget := e.num 18 4, maxInflight := e.num 22 4 }).replied n slot e stOk [] [])) ∧
      (e.num 14 1 = 1 → v.mode = 0 → v.lbaf ≠ 1 →
        (16384 ≤ s.deadlineVols.length → exec (.setVolumeAdmission n slot) s = .next (b.replied n slot e 0x0202 [] [])) ∧
        (s.deadlineVols.length < 16384 → s.mapFits v = false → exec (.setVolumeAdmission n slot) s = .next (b.replied n slot e 0x0200 [] [])) ∧
        (s.deadlineVols.length < 16384 → s.mapFits v = true → exec (.setVolumeAdmission n slot) s = .next ((b.storeVol { v with
          mode := 1, flags := e.num 15 1, clientAllow := e.num 16 2, budget := e.num 18 4, maxInflight := e.num 22 4 }).replied n slot e stOk [] []))))) ∧
  ∀ (n slot : Nat) (e : Entry) (v : Volume) (s : State), s.CanRun 0x59 n slot e → s.vol? (e.num 10 4) = some v →
    let b := s.begun n slot e
    (s.ownsGroup v.ana = false → exec (.getVolumeAdmission n slot) s = .next (b.replied n slot e stNotOwner [] [])) ∧
    (s.ownsGroup v.ana = true → exec (.getVolumeAdmission n slot) s = .next (b.replied n slot e stOk
      (leBytes 4 v.nsid ++ leBytes 1 v.mode ++ leBytes 1 v.flags ++ leBytes 2 v.clientAllow ++ leBytes 4 v.budget ++ leBytes 4 v.maxInflight ++
        leBytes 4 (countOf (fun c => c.nsid == v.nsid) s.admitted)) []))

/-- The admin commands of NVMe (R71, R72, R73, R95, R100, R307, R309, R454): what each answers on the queue that takes it, and what it stores; on a queue that the table does not
give it to, an admin command ends with Invalid Command Opcode; one that R95 does not name ends with Sanitize In Progress while a sanitize runs. -/
def Obligations.AdminCommandsAnswer : Prop :=
  (∀ (e : Sqe) (q : QCtx) (s : State), s.AdminOn e true true q → ∀ t : State, s.takeCmd e = t →
    let len := 4 * (bits e.cdw10 31 16 + 65536 * bits e.cdw11 15 0 + 1)
    let page := t.logPage (bits e.cdw10 7 0) (bits e.cdw10 14 8) (e.cdw12 + e.cdw13 * 2 ^ 32) len
    (bits e.cdw10 7 0 = 2 → e.nsid ≠ 0 → e.nsid ≠ 0xFFFFFFFF → exec (.getLogPage e) s = .next (t.adminEnd e 0 2 0 0)) ∧
    ((bits e.cdw10 7 0 ≠ 2 ∨ e.nsid = 0 ∨ e.nsid = 0xFFFFFFFF) →
      (page = none → exec (.getLogPage e) s = .next (t.adminEnd e 1 9 0 0)) ∧
      (∀ d, page = some d → e.cdw10.testBit 15 = true → exec (.getLogPage e) s = .next (t.adminData e q d)) ∧
      (∀ d, page = some d → e.cdw10.testBit 15 = false →
        exec (.getLogPage e) s = .next ((t.adminData e q d).logRead q.ctrl (bits e.cdw10 7 0)))) ∧
    (∀ v, bits e.cdw10 7 0 = 0 → t.vol? e.nsid = some v → v.attached = true → exec (.identify e) s = .next (t.adminData e q (t.idNamespace v))) ∧
    (bits e.cdw10 7 0 = 1 → exec (.identify e) s = .next (t.adminData e q (t.idController q.ctrl))) ∧
    (s.hq.san.state = .running → exec (.abort e) s = .next (t.complete e.q e.cid 0 0x1D (dnrOf (0, 0x1D)) 0 0) ∧
      exec (.setFeatures e) s = .next (t.complete e.q e.cid 0 0x1D (dnrOf (0, 0x1D)) 0 0)) ∧
    (s.hq.san.state ≠ .running →
      (t.hq.ctxs.find? (fun x => x.ctrl == q.ctrl && x.qid == bits e.cdw10 15 0) = none → exec (.abort e) s = .next (t.adminEnd e 0 0 1 0)) ∧
      (∀ x, t.hq.ctxs.find? (fun x => x.ctrl == q.ctrl && x.qid == bits e.cdw10 15 0) = some x →
        (t.hq.cmds.find? (fun c => c.qctx == x.idx && c.cid == bits e.cdw10 31 16 && c.early) = none →
          exec (.abort e) s = .next (t.adminEnd e 0 0 1 0)) ∧
        (∀ c, t.hq.cmds.find? (fun c => c.qctx == x.idx && c.cid == bits e.cdw10 31 16 && c.early) = some c →
          exec (.abort e) s = .next ((t.abortCmd c 7).adminEnd e 0 0 0 0)))) ∧
    (∀ c, t.ctrlOf q = some c →
      (let f : Controller := { c with feats := putKey Prod.fst (bits e.cdw10 7 0, e.cdw11) c.feats }
       (s.hq.san.state ≠ .running →
         exec (.setFeatures e) s = .next (State.adminEnd { t with hq.ctrls := putKey Controller.id f t.hq.ctrls } e 0 0 0 0)) ∧
       findKey Prod.fst (bits e.cdw10 7 0) f.feats = some (bits e.cdw10 7 0, e.cdw11)) ∧
      (∀ f, findKey Prod.fst (bits e.cdw10 7 0) c.feats = some f → exec (.getFeatures e) s = .next (t.adminEnd e 0 0 f.2 0)) ∧
      (c.backlog = [] → exec (.asynchronousEventRequest e) s =
        .next { t with hq.ctrls := putKey Controller.id { c with aers := c.aers ++ [e.cid] } t.hq.ctrls }) ∧
      (∀ k i l rest, c.backlog = (k, i, l) :: rest → exec (.asynchronousEventRequest e) s = .next (State.sendAen
        { t with hq.ctrls := putKey Controller.id { c with aers := c.aers ++ [e.cid], backlog := rest } t.hq.ctrls } c.id k i l)))) ∧
  (∀ (e : Sqe) (q : QCtx) (s : State), s.AdminOn e true false q → ∀ t : State, s.takeCmd e = t → ∀ c, t.ctrlOf q = some c →
    (s.hq.san.state ≠ .running → exec (.keepAlive e) s =
      .next (State.adminEnd { t with hq.ctrls := putKey Controller.id { c with kato := true } t.hq.ctrls } e 0 0 0 0)) ∧
    exec (.propertyGet e) s = .next (t.adminEnd e 0 0 (c.prop e.cdw11 % 2 ^ 32) (c.prop e.cdw11 / 2 ^ 32)) ∧
    (s.hq.san.state ≠ .running → exec (.propertySet e) s = .next (State.adminEnd { t with
      hq.ctrls := putKey Controller.id { c with props := putKey Prod.fst (e.cdw11, e.cdw12 + e.cdw13 * 2 ^ 32) c.props } t.hq.ctrls } e 0 0 0 0)) ∧
    (s.hq.san.state = .running → exec (.keepAlive e) s = .next (t.complete e.q e.cid 0 0x1D (dnrOf (0, 0x1D)) 0 0) ∧
      exec (.propertySet e) s = .next (t.complete e.q e.cid 0 0x1D (dnrOf (0, 0x1D)) 0 0))) ∧
  (∀ (e : Sqe) (q : QCtx) (s : State), s.qctx? e.q = some q → q.deleting = none → (q.fabric = true → s.qpUp e.q = true) →
    ∀ t : State, s.takeCmd e = t →
    (q.kind = .fabIo →
      (s.hq.san.state = .running → exec (.disconnect e) s = .next (t.adminEnd e 0 0x1D 0 0)) ∧
      (s.hq.san.state ≠ .running → exec (.disconnect e) s = .next (
        let u := ((t.adminEnd e 0 0 0 0).hq.cmds.filter fun c => c.qctx == e.q).foldl State.failCmd (t.adminEnd e 0 0 0 0)
        { u with hq.ctxs := dropKey QCtx.idx e.q u.hq.ctxs }))) ∧
    (q.kind = .fabAdmin → s.hq.san.state ≠ .running → exec (.disconnect e) s = .next (t.adminEnd e 0 2 0 0)) ∧
    (q.kind = .hostAdmin → exec (.keepAlive e) s = .next (t.complete e.q e.cid 0 1 (dnrOf (0, 1)) 0 0) ∧
      exec (.propertyGet e) s = .next (t.complete e.q e.cid 0 1 (dnrOf (0, 1)) 0 0)) ∧
    ((q.kind = .fabIo ∨ q.kind = .hostIo) → exec (.identify e) s = .next (t.complete e.q e.cid 0 1 (dnrOf (0, 1)) 0 0) ∧
      exec (.abort e) s = .next (t.complete e.q e.cid 0 1 (dnrOf (0, 1)) 0 0)) ∧
    (q.kind = .fabAdmin → exec (.formatNvm e) s = .next (t.complete e.q e.cid 0 1 (dnrOf (0, 1)) 0 0) ∧
      exec (.sanitize e) s = .next (t.complete e.q e.cid 0 1 (dnrOf (0, 1)) 0 0)) ∧
    (q.fabric = true → s.qp? e.q = none → exec (.connect e) s = .next (t.adminEnd e 0 0x0C 0 0)) ∧
    (q.fabric = false → exec (.connect e) s = .next (t.adminEnd e 0 1 0 0))) ∧
  ∀ (e : Sqe) (p : Qp) (s : State), s.qp? e.q = some p → s.qctx? e.q = none → p.st = .connected → p.priv = false → e.q < 1048576 →
    s.hq.ctxs.length < 1048576 →
    (s.hq.san.state = .running → exec (.connect e) s = .next (s.bareReply e.q e.cid 0 0x1D 0)) ∧
    (s.hq.san.state ≠ .running → s.fld R.HQ_CFG 0 0 = 0 → exec (.connect e) s = .next (s.bareReply e.q e.cid 1 0x82 0)) ∧
    (s.hq.san.state ≠ .running → s.fld R.HQ_CFG 0 0 ≠ 0 →
      (bits e.cdw10 31 16 = 0 → leAt e.data 16 2 = 0xFFFF → bits e.cdw11 15 0 < 32 → countOf (fun c => !c.host) s.hq.ctrls < 16384 →
        let c : Controller := { id := s.newCtrl, host := false, props := [], feats := [], aers := [], backlog := [], kato := false }
        let x : QCtx :=
          { idx := e.q, kind := .fabAdmin, ctrl := s.newCtrl, qid := 0, size := bits e.cdw11 15 0 + 1, sqBase := 0, cqBase := 0, vec := 0,
            qp := e.q, sqTail := 0, cqHead := 0, cqTail := 0, deleting := none, sqHead := 1 % (bits e.cdw11 15 0 + 1), phase := true, inv := [] }
        exec (.connect e) s =
          .next (State.complete { s with hq.ctrls := s.hq.ctrls ++ [c], hq.ctxs := s.hq.ctxs ++ [x] } e.q e.cid 0 0 false s.newCtrl 0)) ∧
      (∀ c, 1 ≤ bits e.cdw10 31 16 → bits e.cdw10 31 16 ≤ 128 → bits e.cdw11 15 0 < 1024 →
        findKey Controller.id (leAt e.data 16 2) s.hq.ctrls = some c → c.host = false →
        s.hq.ctxs.any (fun x => x.ctrl == c.id && x.qid == bits e.cdw10 31 16) = false →
        let x : QCtx :=
          { idx := e.q, kind := .fabIo, ctrl := c.id, qid := bits e.cdw10 31 16, size := bits e.cdw11 15 0 + 1, sqBase := 0, cqBase := 0, vec := 0,
            qp := e.q, sqTail := 0, cqHead := 0, cqTail := 0, deleting := none, sqHead := 1 % (bits e.cdw11 15 0 + 1), phase := true, inv := [] }
        exec (.connect e) s = .next (State.complete { s with hq.ctxs := s.hq.ctxs ++ [x] } e.q e.cid 0 0 false c.id 0)))

/-- Format and sanitize (R92 to R97): a format is checked, recorded and started, and takes effect once its deallocation has drained and no command of the
volume is left; a sanitize is told to the peer and runs over both heads, refuses a second one, goes on through its progress steps and ends as done, or as
failed if a die failed an erase. -/
def Obligations.FormatAndSanitize : Prop :=
  (∀ (e : Sqe) (q : QCtx) (s : State), s.AdminOn e false true q → ∀ t : State, s.takeCmd e = t → ∀ v, t.vol? e.nsid = some v →
    (s.hq.san.state = .running → exec (.formatNvm e) s = .next (t.complete e.q e.cid 0 0x1D (dnrOf (0, 0x1D)) 0 0)) ∧
    (s.hq.san.state ≠ .running → t.hq.formats.any (·.nsid == v.nsid) = true → exec (.formatNvm e) s = .next (t.adminEnd e 0 0x84 0 0)) ∧
    (s.hq.san.state ≠ .running → t.hq.formats.any (·.nsid == v.nsid) = false → anaStatus (t.anaState v.ana) = none →
      (2 < bits e.cdw10 11 9 → exec (.formatNvm e) s = .next (t.adminEnd e 0 2 0 0)) ∧
      (bits e.cdw10 11 9 ≤ 2 → (1 < bits e.cdw10 3 0 ∨ (bits e.cdw10 3 0 = 1 ∧ v.mode = 1)) →
        exec (.formatNvm e) s = .next (t.adminEnd e 1 0x0A 0 0)) ∧
      (bits e.cdw10 11 9 ≤ 2 → bits e.cdw10 3 0 ≤ 1 → (bits e.cdw10 3 0 = 1 → v.mode ≠ 1) →
        let f : FormatRec := ⟨v.nsid, bits e.cdw10 3 0, bits e.cdw10 11 9, some (e.q, e.cid), false⟩
        exec (.formatNvm e) s = .next (((State.noteRecord { t with hq.formats := t.hq.formats ++ [f] } 3).placeCfg (f.record true)).startFormat v.nsid)))) ∧
  (∀ (nsid : Nat) (f : FormatRec) (v : Volume) (s : State), s.hq.formats.find? (·.nsid == nsid) = some f → s.vol? nsid = some v →
    (s.formatDrained f v = false → exec (.formatComplete nsid) s = .next (s.startFormat nsid)) ∧
    ((f.staged = true ∨ s.ownsGroup v.ana = false ∨ s.hq.cmds.any (fun c => c.nsid == nsid) = true) → s.startFormat nsid = s) ∧
    (s.formatDrained f v = true → f.cmd = none → (f.ses = 2 → s.keyAlone v = false) →
      let u := State.storeVol { s with mem.cache := s.mem.cache.filter fun x => x.nsid != v.nsid } { v with lbaf := f.lbaf }
      exec (.formatComplete nsid) s =
        .next ((State.noteRecord { u with hq.formats := u.hq.formats.filter fun x => x.nsid != v.nsid } 3).placeCfg (f.record false)))) ∧
  (∀ (e : Sqe) (q : QCtx) (s : State), s.AdminOn e false true q → e.cdw10.testBit 9 = false → ∀ t : State, s.takeCmd e = t →
    ((bits e.cdw10 2 0 = 2 ∨ bits e.cdw10 2 0 = 4) →
      (t.hq.san.state = .running → exec (.sanitize e) s = .next (t.adminEnd e 0 0x1D 0 0)) ∧
      (t.hq.san.state ≠ .running → ∀ u, (t.tellSanitize 1 (bits e.cdw10 2 0) (e.cdw10.testBit 3)).sanStart (bits e.cdw10 2 0) (e.cdw10.testBit 3) = u →
        (bits e.cdw10 2 0 = 4 → exec (.sanitize e) s = .next (u.adminEnd e 0 0 0 0)) ∧
        (bits e.cdw10 2 0 = 2 → u.admitted = [] → exec (.sanitize e) s = .next (u.sanErases.adminEnd e 0 0 0 0)))) ∧
    (bits e.cdw10 2 0 = 1 → t.hq.san.state ≠ .running → t.hq.san.failMode = true →
      (t.hq.san.ause = true → exec (.sanitize e) s = .next (
        State.adminEnd (State.tellSanitize { t with hq.san.failMode := false } 4 t.hq.san.act true) e 0 0 0 0)) ∧
      (t.hq.san.ause = false → exec (.sanitize e) s = .next (t.adminEnd e 0 0x1C 0 0))) ∧
    ((bits e.cdw10 2 0 = 0 ∨ bits e.cdw10 2 0 = 3 ∨ 4 < bits e.cdw10 2 0) → exec (.sanitize e) s = .next (t.adminEnd e 0 2 0 0))) ∧
  ∀ s : State, s.hq.san.state = .running → s.hq.san.peer = false → s.admitted = [] →
    (s.hq.san.prog < 65280 →
      (s.hq.san.act ≠ 2 → ∀ fs, exec (.sanitizeProgress fs) s =
        .next (State.noteRecord { s with hq.san := { s.hq.san with prog := s.hq.san.prog + 256 } } 3)) ∧
      (s.hq.san.act = 2 → s.hq.san.issued = false → ∀ fs, exec (.sanitizeProgress fs) s = .next s.sanErases) ∧
      (s.hq.san.act = 2 → s.hq.san.issued = true → s.sanErased = false → ∀ fs, exec (.sanitizeProgress fs) s = .next s) ∧
      (s.hq.san.act = 2 → s.hq.san.issued = true → s.sanErased = true → exec (.sanitizeProgress []) s =
        .next (State.sanErases (State.noteRecord { s with hq.san := { s.hq.san with prog := s.hq.san.prog + 256 } } 3)))) ∧
    ((s.hq.san.act = 2 → s.sanErased = true) →
      (s.hq.san.dieFailed = false → exec .sanitizeComplete s = .next ((State.noteRecord { s.sanWipe with
        hq.san := { s.hq.san with state := .done, failMode := false, prog := 65535, issued := false } } 3).tellSanitize 2 s.hq.san.act s.hq.san.ause)) ∧
      (s.hq.san.dieFailed = true → exec .sanitizeComplete s = .next ((State.noteRecord { s.sanWipe with
        hq.san := { s.hq.san with state := .failed, failMode := true, prog := 65535, issued := false } } 3).tellSanitize 3 s.hq.san.act s.hq.san.ause)))

/-- I/O commands (R77, R80 to R90): a command that fails a check of R77 ends with that status and does nothing else; one that passes is held under its
number, waits for the ORD commands before it and for its range lock, and then goes on: a Read and a Verify to media, a Write, a Write Zeroes and a deallocation
to the brine. A Flush waits for what is in the brine; one whose waiting is over ends. -/
def Obligations.IoCommandsAreCheckedOrderedAndRun : Prop :=
  (∀ (e : Sqe) (q : QCtx) (s : State), s.IoOn e q →
    let u := s.ioTaken e
    let be := u.bump R.SLU_BE_CNT
    let rd : Cmd := { (s.ioBase e q 2).oneRun with fua := false }
    let wrt : Cmd := { (s.ioBase e q 1).oneRun with need := (s.ioBase e q 1).nlb * s.blockBytes e.nsid }
    let wz : Cmd := { (s.ioBase e q 8).oneRun with deac := e.cdw12.testBit 25 }
    let vf : Cmd := { (s.ioBase e q 0x0C).oneRun with fua := false }
    let dsm : Cmd := { s.ioBase e q 9 with
      slba := 0, nlb := 0, fua := false, sdeal := e.cdw13.testBit 9, waits := dsmRanges e.data (e.cdw10 % 256 + 1)
      ranges := if e.cdw11.testBit 2 then ((dsmRanges e.data (e.cdw10 % 256 + 1)).filter fun r => r.2 != 0).map fun r => grainRun r.1 r.2 else [] }
    (∀ st, u.ioStatus e rd ⟨true, false, true, false⟩ = some st → st ≠ (0, 0x0F) →
      exec (.read e) s = .next (u.complete e.q e.cid st.1 st.2 (dnrOf st) 0 0)) ∧
    (∀ st, u.ioStatus e wrt ⟨true, true, true, false⟩ = some st → st ≠ (0, 0x0F) →
      exec (.write e) s = .next (u.complete e.q e.cid st.1 st.2 (dnrOf st) 0 0)) ∧
    (u.ioStatus e wrt ⟨true, true, true, false⟩ = some (0, 0x0F) →
      exec (.write e) s = .next ((u.bump R.HQ_LEN_ERR_CNT).complete e.q e.cid 0 0x0F (dnrOf (0, 0x0F)) 0 0)) ∧
    (u.ioStatus e rd ⟨true, false, true, false⟩ = none → u.lbafOf e.nsid ≠ 0 ∨ e.cdw2 + e.cdw3 * 2 ^ 32 = 0 →
      exec (.read e) s = .next (be.accept rd)) ∧
    (u.ioStatus e rd ⟨true, false, true, false⟩ = none → u.lbafOf e.nsid = 0 → e.cdw2 + e.cdw3 * 2 ^ 32 ≠ 0 → u.admitOk = false →
      exec (.read e) s = .next ((u.bump R.SLU_TIME_REJ_CNT).complete e.q e.cid 7 0xC4 false 0 0)) ∧
    (u.ioStatus e wrt ⟨true, true, true, false⟩ = none → u.lbafOf e.nsid ≠ 0 ∨ e.cdw2 + e.cdw3 * 2 ^ 32 = 0 →
      exec (.write e) s = .next (be.accept wrt)) ∧
    (u.ioStatus e wz ⟨false, !e.cdw12.testBit 25, true, false⟩ = none → exec (.writeZeroes e) s = .next (be.accept wz)) ∧
    (u.ioStatus e vf ⟨false, false, false, false⟩ = none → exec (.verify e) s = .next (be.accept vf)) ∧
    (u.ioStatus e dsm ⟨false, false, true, true⟩ = none → exec (.datasetManagement e) s = .next (be.accept dsm))) ∧
  (∀ (e : Sqe) (q : QCtx) (s : State), s.queue? e.q = some q →
    (s.serving = false → exec (.read e) s = .next s ∧ exec (.write e) s = .next s ∧ exec (.flush e) s = .next s) ∧
    (s.serving = true → (q.kind = .fabAdmin ∨ q.kind = .hostAdmin) →
      let u := (s.takeCmd e).complete e.q e.cid 0 1 (dnrOf (0, 1)) 0 0
      exec (.read e) s = .next u ∧ exec (.write e) s = .next u ∧ exec (.flush e) s = .next u ∧ exec (.verify e) s = .next u ∧
      exec (.writeZeroes e) s = .next u ∧ exec (.datasetManagement e) s = .next u)) ∧
  (∀ (c : Cmd) (s : State),
    ((s.putIo c).ordHeld c = true → s.accept c = (s.putIo c).bump R.HQ_ORD_WAIT_CNT) ∧
    ((s.putIo c).ordHeld c = false → s.accept c = (s.putIo c).reachLock c) ∧
    (s.mayLock c = true → s.reachLock c = s.proceed c) ∧
    (∀ k t, s.mayLock c = false → s.nextSeq = (k, t) →
      (s.lockHolders c = [] → s.reachLock c = t.putIo { c with stage := .lockWait, stall := k, stallOn := [] }) ∧
      (s.lockHolders c ≠ [] → s.reachLock c =
        (t.putIo { c with stage := .lockWait, stall := k, stallOn := (s.lockHolders c).map Cmd.id }).bump R.HQ_LOCK_STALL_CNT))) ∧
  (∀ (c : Cmd) (s : State), ((c.opc = 2 ∨ c.opc = 0x0C) → s.proceed c = s.startRead c) ∧ ((c.opc = 1 ∨ c.opc = 8) → s.proceed c = s.stageCmd c) ∧
    (c.opc = 9 → s.proceed c = if c.ranges = [] then s.endIo c.id 0 0 false else s.stageCmd c) ∧
    (c.opc = 0 → ∀ u, s.putIo { c with stage := .flushWait } = u →
      ((c.waits.all fun m => decide ((u.journal m.1).durable ≥ m.2)) = true → s.proceed c = u.endIo c.id 0 0 false) ∧
      ((c.waits.all fun m => decide ((u.journal m.1).durable ≥ m.2)) = false → s.proceed c = u))) ∧
  (∀ (cmd : Nat) (c : Cmd) (s : State), s.io? cmd = some c →
    (c.stage = .lockWait → s.mayLock c = true → exec (.rangeLockGrant cmd) s = .next (s.proceed c)) ∧
    (s.mayLock c = false → exec (.rangeLockGrant cmd) s = .next s) ∧
    (c.stage = .ordWait → s.ordHeld c = false → exec (.ordRelease cmd) s = .next (s.reachLock c)) ∧
    (s.ordHeld c = true → exec (.ordRelease cmd) s = .next s)) ∧
  (∀ (e : Sqe) (q : QCtx) (s : State), s.IoOn e q → ∀ t : State, (s.takeCmd e).bump R.HQ_CMD_CNT = t →
    (∀ st, t.flushStatus e = some st → exec (.flush e) s = .next (t.complete e.q e.cid st.1 st.2 (dnrOf st) 0 0)) ∧
    (t.flushStatus e = none →
      let marks := t.flushMarks e.nsid
      let c : Cmd := { newCmd t.hq.nextCmd e.q e.cid 0 e.nsid (!q.fabric) with waits := marks }
      let w : State := { t.bump R.SLU_BE_CNT with hq.nextCmd := t.hq.nextCmd + 1, brn.flushes := t.brn.flushes ++ [⟨t.hq.nextCmd, marks⟩] }
      exec (.flush e) s = .next (State.accept (marks.foldl (fun (s : State) m =>
        if (s.journal m.1).durable ≥ m.2 then s else s.sealAt m.1 m.2) w) c)) ∧
    (∀ v, e.nsid ≠ 0xFFFFFFFF → t.vol? e.nsid = some v →
      t.flushMarks e.nsid = if t.heldJournals.contains (t.journalOf e.nsid) then [(t.journalOf e.nsid, (t.journal (t.journalOf e.nsid)).jseq)] else [])) ∧
  ∀ (cmd : Nat) (f : FlushWait) (c : Cmd) (s : State), s.brn.flushes.find? (·.cmd == cmd) = some f → s.io? cmd = some c →
    (c.stage = .flushWait → (f.marks.all fun m => decide ((s.journal m.1).durable ≥ m.2)) = true →
      exec (.flushComplete cmd) s = .next (s.endIo cmd 0 0 false)) ∧
    ((c.stage ≠ .flushWait ∨ (f.marks.all fun m => decide ((s.journal m.1).durable ≥ m.2)) = false) → exec (.flushComplete cmd) s = .next s)

/-- Host-side queues (R74 to R76): CREATE_HOST_QUEUE gives the lowest free context and identifier, or refuses and creates nothing; DELETE_HOST_QUEUE refuses
what it may not delete and otherwise ends once no command of the queue is left; a doorbell of no queue is counted and dropped. -/
def Obligations.HostQueuesAreCreatedRungAndDeleted : Prop :=
  (∀ (n slot : Nat) (e : Entry) (s : State), s.CanRun 0x40 n slot e →
    let b := s.begun n slot e
    let ok := e.num 10 1 ≤ 1 ∧ e.zero 11 1 = true ∧ 2 ≤ e.num 12 4 ∧ e.num 12 4 ≤ (if e.num 10 1 = 0 then 4096 else 65536) ∧ e.num 16 8 % 4096 = 0 ∧
      e.num 24 8 % 4096 = 0 ∧ 1 ≤ e.num 32 2 ∧ e.num 32 2 ≤ 2047 ∧ e.zero 34 2 = true
    (¬ok → exec (.createHostQueue n slot) s = .next (b.replied n slot e stInvalidField [] [])) ∧
    (ok → s.fld R.HQ_CFG 1 1 = 0 → exec (.createHostQueue n slot) s = .next (b.replied n slot e 0x0302 [] [])) ∧
    (ok → s.fld R.HQ_CFG 1 1 ≠ 0 → e.num 10 1 = 0 → s.hq.ctxs.any (fun q => q.kind == .hostAdmin) = true →
      exec (.createHostQueue n slot) s = .next (b.replied n slot e 0x0300 [] [])) ∧
    (ok → s.fld R.HQ_CFG 1 1 ≠ 0 → e.num 10 1 = 1 → 1048576 ≤ s.freeCtx →
      exec (.createHostQueue n slot) s = .next (b.replied n slot e stNoResource [] [])) ∧
    (ok → s.fld R.HQ_CFG 1 1 ≠ 0 → s.freeCtx < 1048576 → s.hq.ctrls.any (·.host) = true →
      let io := (s.hq.ctxs.filter fun q => q.kind == .hostIo).map QCtx.qid
      let x (kind : QKind) (qid : Nat) : QCtx := { idx := s.freeCtx, kind := kind, ctrl := 65535, qid := qid, size := e.num 12 4, sqBase := e.num 16 8
                                                   cqBase := e.num 24 8, vec := e.num 32 2, qp := 0, sqTail := 0, cqHead := 0, cqTail := 0, deleting := none
                                                   sqHead := 0, phase := true, inv := [] }
      (e.num 10 1 = 1 → exec (.createHostQueue n slot) s = .next (State.replied { b with
        hq.ctxs := s.hq.ctxs ++ [x .hostIo (lowestFree io (io.length + 1) 1)] } n slot e stOk
          (leBytes 4 s.freeCtx ++ leBytes 2 (lowestFree io (io.length + 1) 1)) [])) ∧
      (e.num 10 1 = 0 → s.hq.ctxs.any (fun q => q.kind == .hostAdmin) = false → exec (.createHostQueue n slot) s = .next (State.replied { b with
        hq.ctxs := s.hq.ctxs ++ [x .hostAdmin 0] } n slot e stOk (leBytes 4 s.freeCtx ++ leBytes 2 0) [])))) ∧
  (∀ (n slot : Nat) (e : Entry) (q : QCtx) (s : State), s.CanRun 0x41 n slot e → s.qctx? (e.num 10 4) = some q →
    let b := s.begun n slot e
    (q.fabric = true → exec (.deleteHostQueue n slot) s = .next (b.replied n slot e stInvalidField [] [])) ∧
    (q.fabric = false → q.deleting.isSome = true → exec (.deleteHostQueue n slot) s = .next (b.replied n slot e stBusy [] [])) ∧
    (q.fabric = false → q.deleting = none → q.kind = .hostAdmin → s.hq.ctxs.any (fun x => x.kind == .hostIo) = true →
      exec (.deleteHostQueue n slot) s = .next (b.replied n slot e 0x0301 [] [])) ∧
    (q.kind = .hostIo → q.deleting = none → s.hq.cmds.filter (fun c => c.qctx == q.idx && c.early) = [] → q.idx = e.num 10 4 →
      exec (.deleteHostQueue n slot) s = .next (State.queueGone { b with
        hq.ctxs := putKey QCtx.idx { q with deleting := some (packetRef n slot e) } s.hq.ctxs } q.idx)) ∧
    (q.kind = .hostAdmin → q.deleting = none → s.hq.ctxs.any (fun x => x.kind == .hostIo) = false →
      s.hq.cmds.filter (fun c => c.qctx == q.idx && c.early) = [] → q.idx = e.num 10 4 →
      ∀ u, State.endAers { b with hq.ctxs := putKey QCtx.idx { q with deleting := some (packetRef n slot e) } s.hq.ctxs }
        { q with deleting := none } = u →
      exec (.deleteHostQueue n slot) s = .next (State.queueGone { u with hq.ctrls := s.hq.ctrls.filter fun c => !c.host } q.idx))) ∧
  ∀ (offset size value : Nat) (entries : List Bytes) (s : State), (size = 4 ∨ size = 8) → offset % size = 0 → offset < 8388608 →
    (s.qctx? (offset / 8) = none → exec (.hostDoorbellWrite offset size value entries) s = .next (s.bump R.HQ_DB_DROP_CNT)) ∧
    ∀ q, s.qctx? (offset / 8) = some q →
      ((q.fabric = true ∨ q.deleting.isSome = true) → exec (.hostDoorbellWrite offset size value entries) s = .next (s.bump R.HQ_DB_DROP_CNT)) ∧
      (q.fabric = false → q.deleting = none →
        (size = 8 → exec (.hostDoorbellWrite offset size value entries) s = .next (s.doorbell q (value % 2 ^ 64) true true entries)) ∧
        (size = 4 → offset % 8 = 0 → exec (.hostDoorbellWrite offset size value entries) s = .next (s.doorbell q (value % 2 ^ 32) true false entries)) ∧
        (size = 4 → offset % 8 = 4 → exec (.hostDoorbellWrite offset size value entries) s =
          .next (s.doorbell q (value % 2 ^ 32 * 2 ^ 32) false true entries)) ∧
        (∀ v, v.testBit 16 = true → q.size ≤ bits v 15 0 → s.doorbell q v true false entries = s.dbInvalid) ∧
        (∀ v, v.testBit 48 = true → bits v 47 32 < q.size → (bits v 47 32 + q.size - q.cqHead) % q.size ≤ q.posted →
          s.doorbell q v false true entries =
            { s with hq.ctxs := mapIf (·.idx == q.idx) (fun x => { x with cqHead := bits v 47 32 }) s.hq.ctxs }))

/-- Arriving packets (R103, R105, R107, R110, R111, R114, R123, R126): one to another address and one whose ICRC fails are counted and do nothing else; one
whose context is not cached waits for it; the expected packet is acted on, one ahead is answered with one sequence NAK, the ambiguous one is counted, and a
duplicate is acknowledged again, writes no memory and starts no command. Read responses are taken in order and end the reads. -/
def Obligations.ArrivingPacketsFollowTheirSequence : Prop :=
  (∀ (n : NetIn) (qpn psn va key len timer : Nat) (inv first last imm : Bool) (pl : Bytes) (s : State),
    let bad := s.xbump R.XPT_ICRC_ERR_CNT R.XPT_P_ICRC_ERR_CNT n.port 1
    let rx := s.xbump R.XPT_RX_PKT_CNT R.XPT_P_RX_PKT_CNT n.port 1
    let rows : List (Instr × XPkt) :=
      [(.sendRx n qpn psn inv first last pl, { barePkt (if inv then .sendInv else .send) psn n.ce with first := first, last := last, payload := pl }),
       (.rdmaWriteRx n qpn psn first last imm va key len pl, ⟨if imm then .writeImm else .write, psn, n.ce, first, last, va, key, len, pl⟩),
       (.rdmaReadRequestRx n qpn psn, barePkt .readReq psn n.ce), (.ackRx n qpn psn, barePkt .ack psn n.ce),
       (.seqNakRx n qpn psn, barePkt .seqNak psn n.ce), (.rnrNakRx n qpn psn timer, { barePkt .rnrNak psn n.ce with len := timer }),
       (.fatalNakRx n qpn, barePkt .fatalNak 0 n.ce), (.cnpRx n qpn, barePkt .cnp 0 n.ce),
       (.readResponseRx n qpn psn last pl, { barePkt .readResp psn n.ce with last := last, payload := pl })]
    ∀ c ∈ rows,
      (s.answers n.port n.gid = false → exec c.1 s = .next rx) ∧
      (s.answers n.port n.gid = true → n.icrcOk = false → exec c.1 s = .next bad) ∧
      (s.answers n.port n.gid = true → n.icrcOk = true → s.qpOf qpn = none → exec c.1 s = .next (rx.ceOnly n)) ∧
      ∀ q, s.answers n.port n.gid = true → n.icrcOk = true → s.qpOf qpn = some q →
        (q.cached = true → exec c.1 s = .next ((rx.putQp { q with used := true }).rxPkt q.idx c.2)) ∧
        (q.cached = false → exec c.1 s = .next
          (((rx.putQp { q with missed := q.missed ++ [c.2] }).fetchCtx q.idx).missFlow q.port))) ∧
  (∀ (i : Nat) (q : Qp) (k : XPkt) (s : State), s.qp? i = some q → q.st = .connected → k.ce = false →
    let d := (k.psn + 2 ^ 24 - q.epsn) % 2 ^ 24
    (k.kind = .send ∨ k.kind = .sendInv ∨ k.kind = .write ∨ k.kind = .writeImm ∨ k.kind = .readReq →
      (d = 0 → ((k.kind = .send ∨ k.kind = .sendInv) → s.rxPkt i k = s.expectedSend q k) ∧
        ((k.kind = .write ∨ k.kind = .writeImm) → s.rxPkt i k = s.expectedWrite q k) ∧ (k.kind = .readReq → s.rxPkt i k = s.nakInvalid q)) ∧
      (0 < d → d < 0x800000 → (q.naked = true → s.rxPkt i k = s) ∧ (q.priv = true → s.rxPkt i k = s) ∧
        (q.naked = false → q.priv = false → s.rxPkt i k =
          ((s.putQp { q with naked := true }).xbump R.XPT_SEQ_NAK_TX_CNT R.XPT_P_SEQ_NAK_TX_CNT q.port 1).ethCtl q .seqNak q.epsn 0)) ∧
      (d = 0x800000 → s.rxPkt i k = s.xbump R.XPT_PSN_AMBIG_CNT R.XPT_P_PSN_AMBIG_CNT q.port 1) ∧
      (0x800000 < d → s.rxPkt i k = (s.xbump R.XPT_DUP_PKT_CNT R.XPT_P_DUP_PKT_CNT q.port 1).sendAck q ∧
        (s.rxPkt i k).mem = s.mem ∧ (s.rxPkt i k).hq = s.hq ∧ (s.rxPkt i k).xpt.qps = s.xpt.qps)) ∧
    (k.kind = .readResp → s.rxPkt i k = s.readResp q k.psn k.last k.payload)) ∧
  (∀ (q : Qp) (k : XPkt) (s : State),
    (k.kind = .sendInv → s.expectedSend q k = s.nakInvalid q) ∧
    (k.kind = .send → q.priv = false → k.first = true → q.recvs ≤ q.capsules → s.expectedSend q k =
      ((s.putQp { q with naked := false }).xbump R.XPT_RNR_NAK_TX_CNT R.XPT_P_RNR_NAK_TX_CNT q.port 1).ethCtl q .rnrNak q.epsn
        (s.fld R.XPT_RC_CFG 18 14)) ∧
    (k.kind = .send → q.priv = false → k.first = true → k.last = true → q.capsules < q.recvs → 64 ≤ k.payload.length → k.payload.length ≤ 8256 →
      s.qctx? q.idx = none → s.expectedSend q k = s.msgDone { q with capsules := q.capsules + 1 }) ∧
    (q.priv = false → s.expectedWrite q k = s.nakInvalid q) ∧
    (q.priv = true → k.first = true → s.keyAllows q k.key k.va k.len = none → s.expectedWrite q k = s.nakAccess q)) ∧
  (∀ (qpn : Nat) (q : Qp) (s : State), s.qp? (qpn - 0x10) = some q →
    (q.cached = true → exec (.contextFetchDone qpn) s = .next s) ∧
    ∀ (c : State) (p : Qp), q.cached = false → (s.llcArrive 2 (ctxLines q.idx)).cacheCtx q.idx = c → c.qp? q.idx = some p →
      exec (.contextFetchDone qpn) s =
        .next (((q.missed.foldl (fun (s : State) k => s.rxPkt q.idx k) (c.putQp { p with missed := [] })).pumpReads q.idx).missFlow q.port)) ∧
  ∀ (psn : Nat) (last : Bool) (payload : Bytes) (q : Qp) (s : State),
    (q.ops.find? (fun o => o.kind == .read) = none → s.readResp q psn last payload =
      s.xbump R.XPT_RD_RESP_DISCARD_CNT R.XPT_P_RD_RESP_DISCARD_CNT q.port 1) ∧
    ∀ o rest, q.ops = o :: rest → o.kind = .read →
      let want := (o.psn + o.got / q.mtu) % 2 ^ 24
      (psn ≠ want → serialAfter 24 want psn = false → s.readResp q psn last payload =
        s.xbump R.XPT_RD_RESP_DISCARD_CNT R.XPT_P_RD_RESP_DISCARD_CNT q.port 1) ∧
      (psn = want → last = true → o.got + payload.length = o.len → s.readResp q psn last payload =
        ((s.putQp { q with ops := rest, retries := 0, rnrs := 0, backoff := 0 }).pumpReads q.idx).readIn
          { o with got := o.len, data := o.data ++ payload }) ∧
      (psn = want → last = true → o.got + payload.length ≠ o.len → s.readResp q psn last payload = s.failQp q.idx 1) ∧
      (psn = want → last = false → payload.length ≠ q.mtu → s.readResp q psn last payload = s.failQp q.idx 1)

/-- The requester and the rates (R113, R115, R116, R118): acknowledgements retire, NAKs and timeouts retry or fail the queue pair, and the congestion rules
move RC, RT and α of the named queue pair and of nothing else. -/
def Obligations.RequestersRetireRetryAndSlowDown : Prop :=
  (∀ (i : Nat) (q : Qp) (k : XPkt) (s : State), s.qp? i = some q → q.st = .connected → k.ce = false →
    (k.kind = .ack → s.rxPkt i k = s.retireOps q k.psn) ∧
    (k.kind = .fatalNak → s.rxPkt i k = s.failQp q.idx 3) ∧
    (k.kind = .ackTimer → s.rxPkt i k = s.ackTimeout q) ∧
    (k.kind = .rnrTimer → s.rxPkt i k = s.rnrEnd q) ∧
    (k.kind = .cnp → s.rxPkt i k = s.rateCut q) ∧
    (k.kind = .seqNak → s.rxPkt i k = s.seqNak q k.psn) ∧
    (k.kind = .rnrNak → s.rxPkt i k = s.rnrNak q k.psn)) ∧
  (∀ (psn : Nat) (q : Qp) (s : State),
    (∀ left, q.ops.filterMap (SendOp.acked q.mtu psn) = left →
      (left = q.ops → s.retireOps q psn = s) ∧
      (left ≠ q.ops → s.retireOps q psn = (s.putQp { q with ops := left, retries := 0, rnrs := 0, backoff := 0 }).pumpReads q.idx)) ∧
    (∀ (v : State) (p : Qp), (s.xbump R.XPT_SEQ_NAK_RX_CNT R.XPT_P_SEQ_NAK_RX_CNT q.port 1).retireOps q ((psn + 2 ^ 24 - 1) % 2 ^ 24) = v →
      v.qp? q.idx = some p → (p.priv = false → s.seqNak q psn = v.retry p psn) ∧ (p.priv = true → s.seqNak q psn = v)) ∧
    (∀ (v : State) (p : Qp), s.retireOps q ((psn + 2 ^ 24 - 1) % 2 ^ 24) = v → v.qp? q.idx = some p →
      (p.priv = false → (p.rnrMax = 7 ∨ p.rnrs < p.rnrMax) → s.rnrNak q psn = v.putQp { p with rnrs := p.rnrs + 1, rnrWait := true }) ∧
      (p.priv = false → p.rnrMax ≠ 7 → p.rnrMax ≤ p.rnrs → s.rnrNak q psn = v.failQp p.idx 2) ∧
      (p.priv = true → p.rnrs < v.privLimit → s.rnrNak q psn = v.putQp { p with rnrs := p.rnrs + 1, rnrWait := true }) ∧
      (p.priv = true → v.privLimit ≤ p.rnrs → s.rnrNak q psn = v.failQp p.idx 2)) ∧
    (q.rnrWait = true → s.rnrEnd q = ((s.putQp { q with rnrWait := false }).retransmit { q with rnrWait := false } q.oldest).pumpReads q.idx) ∧
    (q.rnrWait = false → s.rnrEnd q = s) ∧
    (q.ops ≠ [] → q.rnrWait = false →
      let t := s.xbump R.XPT_TIMEOUT_CNT R.XPT_P_TIMEOUT_CNT q.port 1
      (q.priv = false → s.ackTimeout q = t.retry q q.oldest) ∧
      (q.priv = true → t.privLimit ≤ q.backoff → s.ackTimeout q = t.failQp q.idx 1) ∧
      (q.priv = true → q.backoff < t.privLimit → s.ackTimeout q =
        (t.putQp { q with backoff := q.backoff + 1 }).retransmit { q with backoff := q.backoff + 1 } q.oldest)) ∧
    (q.retryMax ≤ q.retries → s.retry q psn = s.failQp q.idx 1) ∧
    (q.retries < q.retryMax → s.retry q psn = (s.putQp { q with retries := q.retries + 1 }).retransmit { q with retries := q.retries + 1 } psn)) ∧
  (∀ (qpn : Nat) (q : Qp) (s : State), s.qpOf qpn = some q →
    (q.rnrWait = true → exec (.rnrWaitExpiry qpn) s = .next (s.forQp q (barePkt .rnrTimer 0 false))) ∧
    (q.rnrWait = false → exec (.rnrWaitExpiry qpn) s = .next s) ∧
    (q.priv = false → q.ops ≠ [] → q.rnrWait = false → exec (.ackTimeout qpn) s = .next (s.forQp q (barePkt .ackTimer 0 false))) ∧
    ((q.priv = true ∨ q.ops = []) → exec (.ackTimeout qpn) s = .next s) ∧
    (q.priv = true → q.ops ≠ [] → q.rnrWait = false → exec (.privAckTimeout qpn) s = .next (s.forQp q (barePkt .ackTimer 0 false))) ∧
    ((q.priv = false ∨ q.ops = []) → exec (.privAckTimeout qpn) s = .next s) ∧
    (∀ k, q.cached = true → s.forQp q k = (s.putQp { q with used := true }).rxPkt q.idx k) ∧
    (∀ k, q.cached = false → s.forQp q k = ((s.putQp { q with missed := q.missed ++ [k] }).fetchCtx q.idx).missFlow q.port)) ∧
  ∀ (qpn : Nat) (q : Qp) (s : State),
    (let u := s.xbump R.XPT_CNP_RX_CNT R.XPT_P_CNP_RX_CNT q.port 1
     (u.ccOn = false → s.rateCut q = u) ∧
     (u.ccOn = true → s.rateCut q = u.putQp { q with
       rt := q.rc, rc := Nat.max (u.fld R.XPT_CC_CFG2 19 8) (q.rc * (2 ^ 31 - q.alpha) / 2 ^ 31)
       alpha := q.alpha - q.alpha / 2 ^ u.gShift + 2 ^ 30 / 2 ^ u.gShift, stage := 0, sent := 0 })) ∧
    (s.qpOf qpn = some q →
      exec (.alphaUpdateTimer qpn) s = .next (s.putQp { q with alpha := q.alpha - q.alpha / 2 ^ s.gShift }) ∧
      exec (.rateIncreaseTimer qpn) s = .next (s.rateUp q) ∧
      (s.fld R.XPT_CC_CFG2 31 24 ≠ 0 → s.fld R.XPT_CC_CFG2 31 24 * 1048576 ≤ q.sent → exec (.byteCounterExpiry qpn) s = .next (s.rateUp q)) ∧
      (q.sent < s.fld R.XPT_CC_CFG2 31 24 * 1048576 → exec (.byteCounterExpiry qpn) s = .next s)) ∧
    (let f := s.fld R.XPT_CC_CFG2 23 20
     (q.stage < f → s.rateUp q = s.putQp { q with stage := q.stage + 1, rc := (q.rt + q.rc) / 2, sent := 0 }) ∧
     (f ≤ q.stage → q.stage < 2 * f → s.rateUp q = s.putQp { q with
       stage := q.stage + 1, rt := Nat.min q.line (q.rt + s.fld R.XPT_CC_CFG1 31 16)
       rc := (Nat.min q.line (q.rt + s.fld R.XPT_CC_CFG1 31 16) + q.rc) / 2, sent := 0 }) ∧
     (2 * f ≤ q.stage → s.rateUp q = s.putQp { q with
       stage := q.stage + 1, rt := Nat.min q.line (q.rt + s.fld R.XPT_CC_CFG1 15 0)
       rc := (Nat.min q.line (q.rt + s.fld R.XPT_CC_CFG1 15 0) + q.rc) / 2, sent := 0 }))

/-- Connection management (R104, R106, R116): a REQ on a port that is up is answered with REP under the lowest free context, else with REJ; REP and RTU
establish; REJ drops what was connecting; MRA has no effect beyond its count; a DREQ is answered with DREP and ends the queue pair. -/
def Obligations.ConnectionsAreMadeAndEnded : Prop :=
  (∀ (n : NetIn) (qpn remote : Nat) (m : CmParams) (s : State),
    ∀ c ∈ ([.cmReqRx n m, .cmRepRx n qpn m, .cmRtuRx n qpn, .cmRejRx n qpn, .cmMraRx n qpn, .cmDreqRx n qpn remote, .cmDrepRx n qpn] : List Instr),
      (s.answers n.port n.gid = false → exec c s = .next (s.xbump R.XPT_RX_PKT_CNT R.XPT_P_RX_PKT_CNT n.port 1)) ∧
      (s.answers n.port n.gid = true → n.icrcOk = false → exec c s = .next (s.xbump R.XPT_ICRC_ERR_CNT R.XPT_P_ICRC_ERR_CNT n.port 1))) ∧
  (∀ (n : NetIn) (s : State), s.answers n.port n.gid = true → n.icrcOk = true →
    ∀ u, (s.xbump R.XPT_RX_PKT_CNT R.XPT_P_RX_PKT_CNT n.port 1).ceOnly n = u →
    (∀ m, exec (.cmReqRx n m) s = .next (u.acceptReq n.port m)) ∧
    (∀ qpn, exec (.cmMraRx n qpn) s = .next u) ∧
    (∀ qpn, 0x10 ≤ qpn → exec (.cmRtuRx n qpn) s = .next ((u.establish (qpn - 0x10)).openSessions)) ∧
    (∀ qpn m q, 0x10 ≤ qpn → u.qp? (qpn - 0x10) = some q →
      (q.st = .connecting → q.priv = true → u.snap.sessions.find? (fun x => x.ownQp == some q.idx) = none →
        ∀ v, u.putQp { q with
          remote := m.qpn, epsn := m.psn % 2 ^ 24, v6 := m.v6, mtu := mtuOf (Nat.min m.mtu (u.fld R.XPT_CFG 13 12))
          ord := Nat.min m.resources u.ordMax, tmo := Nat.max m.timeout (u.fld R.XPT_RC_CFG 23 19) } = v →
        exec (.cmRepRx n qpn m) s = .next (((v.sendCm q.port { cmMsg .rtu m.qpn with own := qpn }).establish q.idx).openSessions)) ∧
      ((q.st ≠ .connecting ∨ q.priv = false) → exec (.cmRepRx n qpn m) s = .next u) ∧
      (q.st = .connecting → q.session = none → exec (.cmRejRx n qpn) s = .next (u.dropQp q.idx)) ∧
      (∀ k, q.st = .connecting → q.session = some k → exec (.cmRejRx n qpn) s = .next (u.suspendSession k 0)) ∧
      (q.st ≠ .connecting → exec (.cmRejRx n qpn) s = .next u) ∧
      (q.st = .failed → exec (.cmDrepRx n qpn) s = .next (u.reapQp q.idx)) ∧
      (q.st ≠ .failed → exec (.cmDrepRx n qpn) s = .next u)) ∧
    (∀ qpn remote v, u.sendCm n.port (cmMsg .drep remote) = v →
      (qpn < 0x10 → exec (.cmDreqRx n qpn remote) s = .next v) ∧
      (0x10 ≤ qpn → v.qctx? (qpn - 0x10) = none → exec (.cmDreqRx n qpn remote) s = .next (v.endQp (qpn - 0x10))) ∧
      (∀ x, 0x10 ≤ qpn → v.qctx? (qpn - 0x10) = some x → x.kind = .fabIo → exec (.cmDreqRx n qpn remote) s = .next (v.endQp (qpn - 0x10))) ∧
      (∀ x, 0x10 ≤ qpn → v.qctx? (qpn - 0x10) = some x → x.kind = .fabAdmin → ∀ t,
        (((v.endQp (qpn - 0x10)).hq.ctxs.filter fun y => y.ctrl == x.ctrl && y.kind == .fabIo).map QCtx.idx).foldl State.endQp
          (v.endQp (qpn - 0x10)) = t →
        exec (.cmDreqRx n qpn remote) s = .next { t with hq.ctrls := dropKey Controller.id x.ctrl t.hq.ctrls }))) ∧
  (∀ (port : Nat) (m : CmParams) (s : State),
    (((s.eport port).up = false ∨ m.recfmt ≠ 0 ∨ m.session.any (fun k => (s.session? k).isNone) = true) →
      s.acceptReq port m = s.sendCm port (cmMsg .rej m.qpn)) ∧
    ((s.eport port).up = true → m.recfmt = 0 → m.session = none →
      (1048576 ≤ s.freeCtx → s.acceptReq port m = s.sendCm port (cmMsg .rej m.qpn)) ∧
      (s.freeCtx < 1048576 →
        let mtu := mtuOf (Nat.min m.mtu (s.fld R.XPT_CFG 13 12))
        let ord := Nat.min m.resources s.ordMax
        let tmo := Nat.max m.timeout (s.fld R.XPT_RC_CFG 23 19)
        let q := newQp s.freeCtx port m.qpn mtu ord tmo (Nat.min 7 m.retry) (Nat.min 7 m.rnr) m.recvs (s.eport port).line false 0 none
        s.acceptReq port m = ((s.putQp { q with epsn := m.psn % 2 ^ 24, v6 := m.v6 }).cacheCtx s.freeCtx).sendCm port
          { cmMsg .rep m.qpn with own := s.freeCtx + 0x10, mtu := mtu, depth := ord, timeout := tmo, retry := Nat.min 7 m.retry, rnr := Nat.min 7 m.rnr }))) ∧
  ∀ (i : Nat) (q : Qp) (s : State), s.qp? i = some q →
    (q.st ≠ .connecting → s.establish i = s) ∧
    (q.st = .connecting → s.establish i =
      (s.putQp { q with st := .connected, rc := q.line, rt := q.line, alpha := 2 ^ 30, stage := 0, sent := 0 }).sessionUp i)

/-- Ports and memory keys (R116, R120, R122, R124, R125): pause and its storm limit, a port that goes down fails its queue pairs, a key is registered under the
lowest free index with a new tag, and a revocation waits for what is under way or fails it at its limit. -/
def Obligations.PortsPauseAndKeysAreRevoked : Prop :=
  (∀ (port : Nat) (s : State), ∀ p, s.eport port = p →
    (∀ prio, prio ≤ 7 → p.ignoring ≠ some prio →
      exec (.pfcPauseRx port prio true) s = .next (s.putEport { p with paused := p.paused.filter (fun x => x != prio) ++ [prio] }) ∧
      exec (.pfcPauseRx port prio false) s = .next ((s.putEport { p with paused := p.paused.filter fun x => x != prio }).drainTx port prio)) ∧
    (∀ (prio : Nat) (pause : Bool), (7 < prio ∨ p.ignoring = some prio) → exec (.pfcPauseRx port prio pause) s = .next s) ∧
    (∀ (prio : Nat) (qp : Option Nat) (k : Nat) (o : Out),
      (p.paused.contains prio = true → s.ethOut port prio qp k o = s.putEport { p with queue := p.queue ++ [⟨prio, qp, k, o⟩] }) ∧
      (p.paused.contains prio = false → s.ethOut port prio qp k o = (s.xbump R.XPT_TX_PKT_CNT R.XPT_P_TX_PKT_CNT port k).emit o)) ∧
    exec (.pfcStorm port true) s = .next (s.putEport { p with ignoring := none }) ∧
    (s.fld R.XPT_PFC_CFG 31 16 ≠ 0 → p.paused.contains (s.fld R.XPT_CFG 31 29) = true → port < 16 →
      let prio := s.fld R.XPT_CFG 31 29
      let u := (s.putEport { p with
        paused := p.paused.filter fun x => x != prio, ignoring := some prio, queue := p.queue.filter fun k => k.prio != prio }).xbump
          R.XPT_PFC_STORM_CNT R.XPT_P_PFC_STORM_CNT port 1
      exec (.pfcStorm port false) s = .next (u.event 0x05 evcLimit 3 (unitId 1 port) (evValue (s.fld R.XPT_PFC_CFG 31 16)))) ∧
    ((s.fld R.XPT_PFC_CFG 31 16 = 0 ∨ p.paused.contains (s.fld R.XPT_CFG 31 29) = false) → exec (.pfcStorm port false) s = .next s) ∧
    exec (.ethPortDown port) s = .next (((s.xpt.qps.filter fun q => q.port == port).map Qp.idx).foldl (fun (s : State) i => s.failQp i 5)
      (s.putEport { p with up := false, paused := [], ignoring := none, queue := [] }))) ∧
  (∀ (n slot : Nat) (e : Entry) (s : State), s.CanRun 0x42 n slot e →
    let b := s.begun n slot e
    let i := lowestFree (s.xpt.keys.map MemKey.idx) ((s.xpt.keys.map MemKey.idx).length + 1) 0
    let tag := match findKey Prod.fst i s.xpt.tags with
      | some t => (t.2 + 1) % 256
      | none => 0
    let ok := e.num 10 1 ≤ 2 ∧ e.num 11 1 = 1 ∧ e.num 12 2 ≠ 0 ∧ e.zero 14 2 = true ∧ e.num 16 8 % 4096 = 0 ∧ e.num 24 8 % 4096 = 0 ∧ 4096 ≤ e.num 24 8 ∧
      e.num 24 8 ≤ 2 ^ 36 ∧ s.regionOk (e.num 10 1) (e.num 16 8) (e.num 24 8) = true
    (¬ok → exec (.registerMemoryKey n slot) s = .next (b.replied n slot e stInvalidField [] [])) ∧
    (ok → 65536 ≤ i → exec (.registerMemoryKey n slot) s = .next (b.replied n slot e stNoResource [] [])) ∧
    (ok → i < 65536 → exec (.registerMemoryKey n slot) s = .next (State.replied { b with
        xpt.keys := putKey MemKey.idx ⟨i, tag, false, e.num 10 1, e.num 16 8, e.num 24 8, e.num 12 2, 0, 0, none⟩ s.xpt.keys
        xpt.tags := putKey Prod.fst (i, tag) s.xpt.tags } n slot e stOk (leBytes 4 (i * 256 + tag)) []))) ∧
  (∀ (n slot : Nat) (e : Entry) (k : MemKey) (s : State), s.CanRun 0x43 n slot e → s.mkey? (e.num 10 4 / 256) = some k →
    let b := s.begun n slot e
    (k.tag ≠ e.num 10 4 % 256 → exec (.revokeMemoryKey n slot) s = .next (b.replied n slot e stInvalidField [] [])) ∧
    (k.tag = e.num 10 4 % 256 → k.revoking = true → exec (.revokeMemoryKey n slot) s = .next (b.replied n slot e stBusy [] [])) ∧
    (k.tag = e.num 10 4 % 256 → k.revoking = false →
      exec (.revokeMemoryKey n slot) s = .next (b.putMkey { k with revoking := true, pkt := some (packetRef n slot e) }))) ∧
  ∀ (i : Nat) (k : MemKey) (s : State), s.mkey? i = some k →
    (k.revoking = true → s.keyBusy i = false → exec (.revokeComplete i) s = .next (s.revokeEnd k)) ∧
    ((k.revoking = false ∨ s.keyBusy i = true) → exec (.revokeComplete i) s = .next s) ∧
    (k.revoking = false → exec (.revokeLimitExpiry i) s = .next s) ∧
    (k.revoking = true → ∀ late, (s.xpt.qps.filter fun q => q.st == .connected && (q.wKey.map Prod.fst).getD 65536 == i).map Qp.idx = late → i < 65536 →
      exec (.revokeLimitExpiry i) s = .next (late.foldl (fun (s : State) j => s.failQp j 7) (s.putMkey { k with failed := k.failed + late.length })))

/-- The brine at its events (R136, R139, R141, R147, R153 to R155): a waiting entry is taken up when its pages and records are free; held fetches go on when
the backlog falls; the drain takes the next entry of a journal this head holds, and no other; the mirror's record is acted on only if whole; re-mirroring ends
once every unreleased entry is mirrored; ACCEPT_BRINE_LOSS takes the value read from BRN_LOST_FROM. -/
def Obligations.BrineTakesDrainsAndMirrors : Prop :=
  (∀ (id : Nat) (rest : List Nat) (e : BEnt) (s : State), s.brn.waiting = id :: rest → s.ent? id = some e →
    (s.roomFor (sumOf (e.recs.map BRec.need)) e.recs.length e.deadline = true →
      exec .brineReserveGrant s = .next (State.runEntry { s with brn.waiting := rest } e)) ∧
    (s.roomFor (sumOf (e.recs.map BRec.need)) e.recs.length e.deadline = false → exec .brineReserveGrant s = .next s)) ∧
  (∀ s : State, s.brn.waiting = [] → exec .brineReserveGrant s = .next s) ∧
  (∀ s : State, s.backlogMax < s.backlog → exec .mirrorBacklogRelease s = .next s) ∧
  (∀ (id k : Nat) (e : BEnt) (c : Cmd) (s : State), s.backlog ≤ s.backlogMax → s.brn.heldReads = [id] → s.ent? id = some e → e.cmd = some k →
    s.io? k = some c → exec .mirrorBacklogRelease s = .next (State.fetchData { s with brn.heldReads := [] } c e)) ∧
  (∀ (j : Nat) (s : State),
    (s.heldJournals.contains j = false → exec (.drainTake j) s = .next s) ∧
    (∀ e, s.heldJournals.contains j = true → s.drainNext j = some e → e.recs = [] →
      exec (.drainTake j) s = .next (((s.putEnt { e with state := .draining }).pump j).sweepReads)) ∧
    (∀ e r, s.heldJournals.contains j = true → s.drainNext j = some e → e.recs = [r] →
      exec (.drainTake j) s = .next ((((s.putEnt { e with state := .draining }).startRec { e with state := .draining } 0 r).pump j).sweepReads)) ∧
    (s.drainNext j = none → exec (.drainTake j) s = .next s) ∧
    (∀ e, s.drainNext j = some e → e.journal = j ∧ e ∈ s.brn.ents ∧ e.jseq ≠ 0 ∧ (e.state = .loc ∨ e.state = .staged) ∧
      (e.state = .staged ∨ s.peerInService = false) ∧ s.drainWaits e = false)) ∧
  (∀ (h : PtlHdr) (payload : Bytes) (s : State),
    (mirrorOk payload = false → exec (.mirrorRx h payload) s = .next s) ∧
    (mirrorOk payload = true → s.InOrder 1 h → exec (.mirrorRx h payload) s = .next (((s.taken 1 h).mirrorIn (s.whole 1 h payload)).stageCheck))) ∧
  (∀ s : State, (s.brn.remirror = false → exec .remirrorDone s = .next s) ∧
    (s.brn.remirror = true → s.unreleased.all s.mirrored = false → exec .remirrorDone s = .next s) ∧
    (∀ t : State, s.brn.remirror = true → s.unreleased.all s.mirrored = true →
      State.stageCheck { s with brn.remirror := false, brn.alone := false } = t → t.brn.replaying = false → t.pair.rejoinStep ≠ 3 →
      exec .remirrorDone s = .next t)) ∧
  ∀ (n slot : Nat) (e : Entry) (s : State), s.CanRun 0x44 n slot e →
    let b := s.begun n slot e
    (s.brn.lost = [] → exec (.acceptBrineLoss n slot) s = .next (b.replied n slot e 0x0400 [] [])) ∧
    (s.brn.lost ≠ [] → e.num 10 8 ≠ s.lostFrom → exec (.acceptBrineLoss n slot) s = .next (b.replied n slot e 0x0401 [] [])) ∧
    (s.brn.lost ≠ [] → e.num 10 8 = s.lostFrom → exec (.acceptBrineLoss n slot) s =
      .next ((State.reliabilityCheck { b with brn.lost := [] }).anaChanged.replied n slot e stOk [] []))

/-- The engines (R181, R205, R220 to R222, R226, R227, R230): a segment that ends is counted and its job goes on or ends; a job whose watchdog or core fails is issued
again elsewhere, counted and recorded; contexts leave their cluster when it is full; an offload job is checked in order and then runs on its engine. -/
def Obligations.EngineJobsRunAndAreReissued : Prop :=
  (∀ (i : Nat) (j : Job) (s : State), s.engJob? i = some j →
    (j.core = none → exec (.engineSegmentDone i) s = .next s ∧ exec (.engineJobWatchdog i) s = .next s) ∧
    (∀ c, j.core = some c →
      let t := s.countSeg j
      (1 < j.segs → t.jobWanted j = true → exec (.engineSegmentDone i) s = .next (t.nextSeg j)) ∧
      ((j.segs ≤ 1 ∨ t.jobWanted j = false) → exec (.engineSegmentDone i) s = .next (((t.jobDone j).goErase).sweepReads).replPump) ∧
      exec (.engineJobWatchdog i) s = .next (s.countEngine.reissueJob (fun x => some x == j.core) j)) ∧
    (j.engine = 3 → s.countSeg j = (s.bump R.CIP_SEG_CNT).bumpBy R.CIP_BYTE_CNT j.segBytes) ∧
    (j.engine = 2 → s.countSeg j = (s.bump R.DIG_SEG_CNT).bumpBy R.DIG_BYTE_CNT j.segBytes)) ∧
  (∀ (bad : Nat → Bool) (j : Job) (s : State) (c : Nat), j.core = some c →
    s.reissueJob bad j = (s.putEngJob { j with core := none, lost := some (c, (s.coresUp j.engine).filter bad) }).fillEngine j.engine) ∧
  (∀ (engine : Nat) (s : State), s.nextJob engine = none → s.fillEngine engine = s) ∧
  (∀ (engine saved : Nat) (j : Job) (s : State), s.nextJob engine = some (j, saved) →
    j ∈ s.red.jobs ∧ j.engine = engine ∧ j.core = none ∧
      (∃ c, s.coreFor j = some c ∧ c ∈ s.coresUp engine ∧ s.coreIdle c = true ∧
        (∀ l, j.lost = some l → (s.coresUp engine).any (fun x => !l.2.contains x) = true → l.2.contains c = false)) ∧
      (∀ k ∈ s.jobsDue engine, s.jobRank k = 0 → s.jobRank j = 0) ∧
      ((engine = 2 ∨ engine = 3) → ∀ k ∈ s.jobsDue engine, s.jobRank j ≤ s.jobRank k)) ∧
  (∀ (u : Nat) (s : State),
    (unitClass u = 4 → unitValid u = true → (s.ust u).serving = true → ∀ j, s.red.jobs = [j] → j.core = some (unitIndex u) →
      exec (.engineCoreFault u false) s = .next (s.countEngine.reissueJob (fun c => c == unitIndex u) j)) ∧
    (unitClass u = 3 → unitValid u = true → (s.ust u).serving = true → ∀ j c, s.red.jobs = [j] → j.core = some c → coreCluster c = unitIndex u →
      exec (.engineCoreFault u false) s = .next (s.countEngine.reissueJob (fun c => coreCluster c == unitIndex u) j)) ∧
    (unitClass u = 4 → unitValid u = true → (s.ust u).serving = true → (∀ j ∈ s.red.jobs, j.core ≠ some (unitIndex u)) →
      exec (.engineCoreFault u false) s = .next (s.countEngine.event 0x08 evcCorrected 3 u []) ∧
      exec (.engineCoreFault u true) s = .next ((s.engineOut u).countEngine.event 0x08 evcCorrected 3 u [])) ∧
    ((s.ust u).serving = false → exec (.engineCoreFault u false) s = .next s ∧ exec (.engineCoreFault u true) s = .next s)) ∧
  (∀ (engine cluster : Nat) (s : State), (engine = 2 ∨ engine = 3) →
    let res := s.keys.ctxs.filter fun c => c.engine == engine && !c.saved && (engine == 3 || c.cluster == cluster)
    (res.length ≤ (if engine = 3 then 4032 else 252) → exec (.contextSaveDone engine cluster) s = .next s) ∧
    (∀ v rest, res = v :: rest → (if engine = 3 then 4032 else 252) < res.length →
      exec (.contextSaveDone engine cluster) s = .next (State.bump { s with
        keys.ctxs := mapIf (fun (c : EngCtx) => c == v) (fun c => { c with saved := true }) s.keys.ctxs }
          (if engine = 2 then R.DIG_SAVE_CNT else R.CIP_SAVE_CNT)))) ∧
  (∀ (comp : Bool) (n slot : Nat) (src ctx : Bytes) (e : Entry) (s : State), s.CanRun (if comp then 0x68 else 0x69) n slot e →
    let b := s.begun n slot e
    let i : Instr := if comp then .compressJob n slot src ctx else .decompressJob n slot src ctx
    let o : OffJob := ⟨0, packetRef n slot e, e.opcode, e.bytes, slice src 0 (e.num 24 4), [], slice ctx 0 69632, 0, 0⟩
    (cmpFieldsOk e comp = false → exec i s = .next (b.replied n slot e stInvalidField [] [])) ∧
    (cmpFieldsOk e comp = true → s.fld R.CMP_CFG 0 0 ≠ 0 → s.coresUp (offEngine e.opcode) = [] → exec i s = .next (b.replied n slot e stUnitFailed [] [])) ∧
    (cmpFieldsOk e comp = true → s.fld R.CMP_CFG 0 0 ≠ 0 → s.coresUp (offEngine e.opcode) ≠ [] → s.keys.erased = true →
      exec i s = .next (b.replied n slot e stBusy [] [])) ∧
    (cmpFieldsOk e comp = true → s.fld R.CMP_CFG 0 0 ≠ 0 → s.coresUp (offEngine e.opcode) ≠ [] → s.keys.erased = false → (e.num 14 1).testBit 1 = false →
      (comp = true → exec (.compressJob n slot src ctx) s = .next (b.startOff o
        (ceilDiv (slice src 0 (e.num 24 4)).length (if e.num 12 1 = 4 then 8192 else 16384)))) ∧
      (comp = false → exec (.decompressJob n slot src ctx) s = .next (b.startOff o (ceilDiv (e.num 36 4) 32768))))) ∧
  (∀ (n slot : Nat) (src aad ctx : Bytes) (e : Entry) (s : State), s.CanRun 0x64 n slot e →
    let b := s.begun n slot e
    let k := s.kpage (e.num 12 2)
    (cipherFieldsOk e = false → exec (.cipherJob n slot src aad ctx) s = .next (b.replied n slot e stInvalidField [] [])) ∧
    (cipherFieldsOk e = true → s.fld R.CIP_CFG 0 0 ≠ 0 → s.coresUp 3 ≠ [] →
      (k.state ≠ .live → exec (.cipherJob n slot src aad ctx) s =
        .next ((b.bump R.CIP_JOB_ERR_CNT).replied n slot e 0x0700 (leBytes 4 0 ++ leBytes 4 k.state.code) [])) ∧
      (k.state = .live → k.busy = true → exec (.cipherJob n slot src aad ctx) s =
        .next ((b.bump R.CIP_JOB_ERR_CNT).replied n slot e 0x070B (leBytes 4 0 ++ leBytes 4 0) [])) ∧
      (k.state = .live → k.busy = false → k.offloadOk = true → k.usage = 1 → e.num 10 1 = 0 → s.keys.erased = false → (e.num 11 1).testBit 2 = false →
        (e.num 11 1).testBit 1 = true → (e.num 11 1).testBit 0 = true → 16 ≤ e.num 24 4 → e.num 24 4 ≤ 16777216 →
        exec (.cipherJob n slot src aad ctx) s = .next (b.startOff ⟨0, packetRef n slot e, 0x64, e.bytes,
          (slice src 0 (e.num 24 4 + 16)).take (e.num 24 4), slice aad 0 (e.num 52 2), slice ctx 0 512, k.gen, 0⟩ (ceilDiv (e.num 24 4) 4096))))) ∧
  ∀ (n slot : Nat) (src ctx : Bytes) (e : Entry) (s : State), s.CanRun 0x65 n slot e →
    let b := s.begun n slot e
    (digestFieldsOk e = false → exec (.digestJob n slot src ctx) s = .next (b.replied n slot e stInvalidField [] [])) ∧
    (digestFieldsOk e = true → s.fld R.DIG_CFG 0 0 ≠ 0 → s.coresUp 2 ≠ [] → (e.num 11 1).testBit 3 = false → s.keys.erased = false →
      (e.num 11 1).testBit 2 = false → exec (.digestJob n slot src ctx) s = .next (b.startOff
        ⟨0, packetRef n slot e, 0x65, e.bytes, slice src 0 (e.num 24 4), [], slice ctx 0 512, 0, 0⟩ (ceilDiv (e.num 24 4) 4096)))

/-- Dedup domains and the codec generation (R182 to R185, R192, R193): each packet's refusals in order, and what it stores; GET_DEDUP_DOMAIN changes nothing. -/
def Obligations.DomainsAndCodecGeneration : Prop :=
  (∀ (n slot : Nat) (e : Entry) (s : State), s.CanRun 0x60 n slot e →
    let b := s.begun n slot e
    let d : Domain := { id := e.num 10 1, slot := e.num 11 1, keyPage := e.num 12 2, k := e.num 14 1, ana := e.num 16 2 }
    (1 ≤ d.ana → d.ana ≤ 1024 → s.ownsGroup d.ana = false → ∀ ok, exec (.createDedupDomain n slot ok) s = .next (b.replied n slot e stNotOwner [] [])) ∧
    (1 ≤ d.ana → d.ana ≤ 1024 → s.ownsGroup d.ana = true → d.id ≠ 0 → d.keyPage ≤ 4095 → 16 ≤ d.k → d.k ≤ 32 → e.zero 15 1 = true →
      (s.kpage d.keyPage).mediaKey = true →
      ((s.dom? d.id).isSome = true → ∀ ok, exec (.createDedupDomain n slot ok) s = .next (b.replied n slot e 0x0500 [] [])) ∧
      (s.dom? d.id = none → (s.kslot d.slot).state ≠ .empty → ∀ ok, exec (.createDedupDomain n slot ok) s = .next (b.replied n slot e 0x0501 [] [])) ∧
      (s.dom? d.id = none → (s.kslot d.slot).state = .empty → s.domainFits d.k = false →
        ∀ ok, exec (.createDedupDomain n slot ok) s = .next (b.replied n slot e 0x0502 [] [])) ∧
      (s.dom? d.id = none → (s.kslot d.slot).state = .empty → s.domainFits d.k = true →
        exec (.createDedupDomain n slot false) s = .next (b.replied n slot e stUnitFailed [] []) ∧ exec (.createDedupDomain n slot true) s =
        .next ((((b.generateSlot { s.kslot d.slot with cfg := 0x41, len := 32 }).putDom d).placeCfg d.record).cfgEnded n slot e [])))) ∧
  (∀ (n slot : Nat) (e : Entry) (d : Domain) (s : State), s.CanRun 0x61 n slot e → s.dom? (e.num 10 1) = some d →
    let b := s.begun n slot e
    (s.ownsGroup d.ana = false → exec (.deleteDedupDomain n slot) s = .next (b.replied n slot e stNotOwner [] [])) ∧
    (s.ownsGroup d.ana = true → e.zero 11 3 = true → s.pool.volumes.any (·.domain == d.id) = true →
      exec (.deleteDedupDomain n slot) s = .next (b.replied n slot e 0x0503 [] [])) ∧
    (∀ t, s.ownsGroup d.ana = true → e.zero 11 3 = true → s.pool.volumes.any (·.domain == d.id) = false →
      (b.dropDomain d.id).placeCfg (leBytes 1 cfgDomainGone ++ leBytes 1 d.id) = t →
      exec (.deleteDedupDomain n slot) s = .next ((t.eraseSlot (t.kslot d.slot)).cfgEnded n slot e []))) ∧
  (∀ (n slot : Nat) (e : Entry) (d : Domain) (s : State), s.CanRun 0x62 n slot e → s.dom? (e.num 10 1) = some d →
    let b := s.begun n slot e
    (s.ownsGroup d.ana = false → exec (.getDedupDomain n slot) s = .next (b.replied n slot e stNotOwner [] [])) ∧
    (s.ownsGroup d.ana = true → e.zero 11 3 = true → exec (.getDedupDomain n slot) s = .next (b.replied n slot e stOk
      (leBytes 1 d.id ++ leBytes 1 d.slot ++ leBytes 2 d.keyPage ++ leBytes 1 d.k ++ [0] ++ leBytes 2 d.ana ++
        leBytes 8 (countOf (fun x => x.dom == d.id) s.red.index) ++
        leBytes 8 (sumOf ((s.ftl.grains.filter fun g => g.domain == d.id).map Grain.refcnt))) []))) ∧
  (∀ (n slot : Nat) (e : Entry) (v : Volume) (s : State), s.CanRun 0x63 n slot e → s.vol? (e.num 10 4) = some v → s.ownsGroup v.ana = true →
    e.zero 15 3 = true →
    let b := s.begun n slot e
    (∀ d, s.dom? (e.num 14 1) = some d → e.num 14 1 ≠ 0 → s.ownsGroup d.ana = false →
      exec (.setVolumeDomain n slot) s = .next (b.replied n slot e stNotOwner [] [])) ∧
    (e.num 14 1 ≠ 0 → s.dom? (e.num 14 1) = none → exec (.setVolumeDomain n slot) s = .next (b.replied n slot e stInvalidField [] [])) ∧
    (e.num 14 1 = 0 → s.dom? 0 = none → s.moving v.ana = false → s.volMapped v.nsid = true → exec (.setVolumeDomain n slot) s = .next (b.replied n slot e 0x0504 [] [])) ∧
    (∀ d, s.dom? (e.num 14 1) = some d → e.num 14 1 ≠ 0 → s.ownsGroup d.ana = true → s.moving v.ana = false → s.volMapped v.nsid = false →
      (d.ana ≠ v.ana → exec (.setVolumeDomain n slot) s = .next (b.replied n slot e 0x0505 [] [])) ∧
      (d.ana = v.ana → exec (.setVolumeDomain n slot) s = .next ((b.storeVol { v with domain := e.num 14 1 }).cfgEnded n slot e [])))) ∧
  ∀ (n slot : Nat) (e : Entry) (s : State), s.CanRun 0x6A n slot e →
    let b := s.begun n slot e
    (e.zero 11 3 = false → exec (.setCodecGeneration n slot) s = .next (b.replied n slot e stInvalidField [] [])) ∧
    (e.zero 11 3 = true → (e.num 10 1 < 2 ∨ 3 < e.num 10 1) → exec (.setCodecGeneration n slot) s = .next (b.replied n slot e 0x0600 [] [])) ∧
    (e.zero 11 3 = true → 2 ≤ e.num 10 1 → e.num 10 1 ≤ 3 → (s.peerInService = false ∨ s.pair.hello = none) → exec (.setCodecGeneration n slot) s =
      .next ((State.placeCfg (State.setGen { b with pool.gen := e.num 10 1 } s.role s.own.jseq (e.num 10 1))
        (leBytes 1 cfgGen ++ leBytes 1 (e.num 10 1))).cfgEnded n slot e [])) ∧
    (∀ h, e.zero 11 3 = true → 2 ≤ e.num 10 1 → e.num 10 1 ≤ 3 → s.peerInService = true → s.pair.hello = some h → h.genMax < e.num 10 1 →
      exec (.setCodecGeneration n slot) s = .next (b.replied n slot e 0x0601 [] []))

/-- Key pages (R210, R212, R213, R216): configuration, key words and commands act only in the states the state machine gives them, and are otherwise dropped and
recorded; a refused commit leaves the page EMPTY with its error and no key material; an accepted one makes it LIVE with the next generation. -/
def Obligations.KeyPagesFollowTheirStateMachine : Prop :=
  ∀ (page : Nat) (s : State), page < 4096 → s.halted = false → ∀ p : KeyPage, s.kpage page = p →
    (∀ value, (p.state = .empty ∨ p.state = .loading) → exec (.keyPageCfgWrite page value) s = .next (s.putPage { p with cfg := Nat.land value 0xCF })) ∧
    (∀ w value, w < 8 → p.state = .loading →
      exec (.keyPageKeyWrite page w value) s = .next (s.putPage { p with key1 := p.key1.take (4 * w) ++ leBytes 4 value ++ p.key1.drop (4 * w + 4) })) ∧
    (∀ w value, 8 ≤ w → w < 16 → p.state = .loading → exec (.keyPageKeyWrite page w value) s =
      .next (s.putPage { p with key2 := p.key2.take (4 * (w - 8)) ++ leBytes 4 value ++ p.key2.drop (4 * (w - 8) + 4) })) ∧
    (∀ value, p.state = .loading → exec (.keyPageKeyWrite page 16 value) s = .next (s.putPage { p with salt := value % 2 ^ 32 })) ∧
    (∀ value, p.state = .empty → exec (.keyPageKeyWrite page 16 value) s = .next (s.putPage { p with
      key1 := List.replicate 32 0, key2 := List.replicate 32 0, salt := value % 2 ^ 32, state := .loading })) ∧
    ((p.state = .live ∨ p.state = .erased) → ∀ value ok,
      exec (.keyPageCfgWrite page value) s = .next (s.keyDrop 0x200003 (R.CIP_KP_CFG page).addr value) ∧
      (∀ w, w < 16 → exec (.keyPageKeyWrite page w value) s = .next (s.keyDrop 0x200003 (R.CIP_KP_KEY page w).addr value)) ∧
      exec (.keyPageCommit page) s = .next (s.keyDrop 0x200003 (R.CIP_KP_CMD page).addr 1) ∧
      exec (.keyPageGenerate page ok) s = .next (s.keyDrop 0x200003 (R.CIP_KP_CMD page).addr 2) ∧
      exec (.keyPageErase page) s = .next (s.erasePage p)) ∧
    ((p.state = .empty ∨ p.state = .loading) → exec (.keyPageErase page) s = .next (s.keyDrop 0x200003 (R.CIP_KP_CMD page).addr 3)) ∧
    (p.state = .empty → exec (.keyPageCommit page) s = .next (s.refusePage p 5)) ∧
    (p.state = .loading → p.usage = 0 → exec (.keyPageCommit page) s = .next (s.refusePage p 2)) ∧
    (p.state = .loading → p.usage = 1 → p.key1 = p.key2 → exec (.keyPageCommit page) s = .next (s.refusePage p 1)) ∧
    (p.state = .loading → (p.usage = 2 ∨ p.usage = 1 ∧ p.key1 ≠ p.key2) → exec (.keyPageCommit page) s = .next (s.acceptPage p)) ∧
    ((p.state = .empty ∨ p.state = .loading) → p.usage = 0 → ∀ ok, exec (.keyPageGenerate page ok) s = .next (s.refusePage p 2)) ∧
    ((p.state = .empty ∨ p.state = .loading) → p.usage ≠ 0 → exec (.keyPageGenerate page false) s = .next s) ∧
    (∀ (b : Bytes) (t : State), (p.state = .empty ∨ p.state = .loading) → p.usage = 1 → s.drbgBytes 68 = (b, t) → slice b 0 32 ≠ slice b 32 32 →
      exec (.keyPageGenerate page true) s = .next (t.acceptPage { p with key1 := slice b 0 32, key2 := slice b 32 32 })) ∧
    (∀ err, (s.refusePage p err).kpage p.no = { p with state := .empty, err := err, key1 := [], key2 := [], salt := 0, next := 0, resEnd := 0, busy := false }) ∧
    (p.persist = false → (s.acceptPage p).kpage p.no = { p with state := .live, err := 0, gen := (p.gen + 1) % 65536, next := 0, resEnd := invocBlock } ∧
      ∀ n, n ≠ p.no → (s.acceptPage p).kpage n = s.kpage n) ∧
    (let t := s.eraseJobs 3 p.no
     p.state = .live → s.erasePage p = if t.keyRuns 3 p.no then t.putPage { p with busy := true } else t.wipePage p) ∧
    (p.persist = false → s.wipePage p = s.putPage { p with state := .empty, key1 := [], key2 := [], salt := 0, next := 0, resEnd := 0, busy := false })

/-- Key slots (R213, R218, R219): the same state machine with KEYLEN in place of the usage; a commit prepares the key for HMAC and keeps no key word. -/
def Obligations.KeySlotsFollowTheirStateMachine : Prop :=
  ∀ (slot : Nat) (s : State), slot < 256 → s.halted = false → ∀ k : KeySlot, s.kslot slot = k →
    (∀ value, (k.state = .empty ∨ k.state = .loading) →
      exec (.keySlotKeyWrite slot 32 value) s = .next (s.putSlot { k with cfg := Nat.land value 0xC3 }) ∧
      exec (.keySlotKeyWrite slot 33 value) s = .next (s.putSlot { k with len := value % 256 })) ∧
    (∀ w value, w < 32 → k.state = .loading →
      exec (.keySlotKeyWrite slot w value) s = .next (s.putSlot { k with key := k.key.take (4 * w) ++ leBytes 4 value ++ k.key.drop (4 * w + 4), state := .loading })) ∧
    ((k.state = .live ∨ k.state = .erased) → ∀ value ok,
      (∀ w, w < 32 → exec (.keySlotKeyWrite slot w value) s = .next (s.keyDrop 0x200002 (R.DIG_KS_KEY slot w).addr value)) ∧
      exec (.keySlotCommit slot) s = .next (s.keyDrop 0x200002 (R.DIG_KS_CMD slot).addr 1) ∧
      exec (.keySlotGenerate slot ok) s = .next (s.keyDrop 0x200002 (R.DIG_KS_CMD slot).addr 2) ∧
      exec (.keySlotErase slot) s = .next (s.eraseSlot k)) ∧
    ((k.state = .empty ∨ k.state = .loading) → exec (.keySlotErase slot) s = .next (s.keyDrop 0x200002 (R.DIG_KS_CMD slot).addr 3)) ∧
    (k.state = .empty → exec (.keySlotCommit slot) s = .next (s.refuseSlot k 5)) ∧
    (k.state = .loading → (k.len = 0 ∨ 128 < k.len) → exec (.keySlotCommit slot) s = .next (s.refuseSlot k 1)) ∧
    (k.state = .loading → 1 ≤ k.len → k.len ≤ 128 → exec (.keySlotCommit slot) s = .next (s.acceptSlot k (k.key.take k.len))) ∧
    ((k.state = .empty ∨ k.state = .loading) → (k.len = 0 ∨ 128 < k.len) → ∀ ok, exec (.keySlotGenerate slot ok) s = .next (s.refuseSlot k 1)) ∧
    ((k.state = .empty ∨ k.state = .loading) → 1 ≤ k.len → k.len ≤ 128 →
      exec (.keySlotGenerate slot false) s = .next s ∧
      ∀ b t, s.drbgBytes k.len = (b, t) → exec (.keySlotGenerate slot true) s = .next (t.acceptSlot k b)) ∧
    (let t := s.eraseJobs 2 k.no
     k.state = .live → s.eraseSlot k = if t.keyRuns 2 k.no then t.putSlot { k with busy := true } else t.wipeSlot k) ∧
    (∀ err, (s.refuseSlot k err).kslot k.no = { k with state := .empty, err := err, key := [], inner := [], outer := [], busy := false }) ∧
    (∀ b : Bytes, k.persist = false → ∀ t, s.acceptSlot k b = t → (t.kslot k.no).state = .live ∧ (t.kslot k.no).key = [] ∧ (t.kslot k.no).gen = (k.gen + 1) % 65536 ∧
      (t.kslot k.no).inner = (slice (if b.length > hashBlock k.hash then Config.sha2 k.hash b else b) 0 (hashBlock k.hash)).map (· ^^^ 0x36) ∧
      (t.kslot k.no).outer = (slice (if b.length > hashBlock k.hash then Config.sha2 k.hash b else b) 0 (hashBlock k.hash)).map (· ^^^ 0x5C))

/-- Alarms and zeroization (R231, R232, R234): a source that asserts raises the alarm once while it holds; every key of the device is zero after it,
with the unsaved contexts; RELOAD_KEYS loads nothing while a source holds or once tamper has asserted. -/
def Obligations.AlarmsZeroizeTheKeys : Prop :=
  (∀ (src : Nat) (s : State), src ≤ 4 →
    (s.keys.asserted.testBit src = true → exec (.alarmAssert src true) s = .next s) ∧
    (s.keys.asserted.testBit src = false →
      exec (.alarmAssert src true) s = .next (State.raiseAlarm { s with keys.asserted := putBits s.keys.asserted src src 1 } src false)) ∧
    exec (.alarmAssert src false) s = .next { s with keys.asserted := putBits s.keys.asserted src src 0 }) ∧
  (∀ (value : Nat) (s : State),
    (bits value 31 16 = 0x4B45 → value.testBit 0 = true → s.halted = false → exec (.forcedAlarm value) s = .next (s.raiseAlarm 4 false)) ∧
    ((bits value 31 16 ≠ 0x4B45 ∨ value.testBit 0 = false ∨ s.halted = true) → exec (.forcedAlarm value) s = .next s)) ∧
  (∀ s : State, s.zeroize.keys.dk = false ∧ s.zeroize.keys.dck = none ∧ s.zeroize.keys.pwk = none ∧ s.zeroize.keys.dumpKey = none ∧ s.zeroize.keys.erased = true ∧
    (∀ p ∈ s.zeroize.keys.pages, p.key1 = [] ∧ p.key2 = [] ∧ p.salt = 0 ∧ (p.state = .empty ∨ p.state = .erased)) ∧
    (∀ k ∈ s.zeroize.keys.slots, k.key = [] ∧ k.inner = [] ∧ k.outer = [] ∧ (k.state = .empty ∨ k.state = .erased)) ∧
    (∀ c ∈ s.zeroize.keys.ctxs, c.saved = true)) ∧
  (∀ (src : Nat) (own : Bool) (s t : State), s.raiseAlarm src own = t → t.keys.dk = false ∧ t.keys.dck = none ∧ t.keys.pwk = none ∧ t.keys.dumpKey = none ∧
    t.keys.erased = true ∧ (∀ p ∈ t.keys.pages, p.key1 = [] ∧ p.key2 = [] ∧ p.salt = 0 ∧ (p.state = .empty ∨ p.state = .erased)) ∧
    (∀ k ∈ t.keys.slots, k.key = [] ∧ k.inner = [] ∧ k.outer = [] ∧ (k.state = .empty ∨ k.state = .erased)) ∧ ∀ c ∈ t.keys.ctxs, c.saved = true) ∧
  ∀ (n slot : Nat) (e : Entry) (s : State), s.CanRun 0x66 n slot e →
    let b := s.begun n slot e
    (s.keys.asserted ≠ 0 → ∀ ok, exec (.reloadKeys n slot [] [] ok) s = .next (b.replied n slot e 0x0707 (leBytes 4 0 ++ leBytes 4 s.keys.asserted) [])) ∧
    (s.keys.asserted = 0 → s.keys.tamper = true → ∀ ok, exec (.reloadKeys n slot [] [] ok) s = .next (b.replied n slot e 0x0706 [] [])) ∧
    (s.keys.asserted = 0 → s.keys.tamper = false → exec (.reloadKeys n slot [] [] false) s = .next (b.replied n slot e stUnitFailed [] [])) ∧
    (s.keys.asserted = 0 → s.keys.tamper = false → ∀ t : State, b.loadWorking.loadKeys [] [] = t → t.keys.wasSolo = true →
      exec (.reloadKeys n slot [] [] true) s = .next (State.replied { t with
        keys.pages := t.keys.pages.map KeyPage.afterReload, keys.slots := t.keys.slots.map KeySlot.afterReload, keys.erased := false } n slot e stOk [] []))

/-- Units, PANs and members (R246, R258 to R263): GET_UNIT and the layout packets; every refusal leaves all units as they were. -/
def Obligations.UnitsAndPansAreBuiltAndReplaced : Prop :=
  (∀ (n slot : Nat) (e : Entry) (s : State), s.CanRun 0x20 n slot e →
    let b := s.begun n slot e
    let d := s.unit e.target
    exec (.getUnit n slot) s = .next ((b.llcRead 2 (descLine e.target) 1 false).replied n slot e stOk
      (n4 e.target ++ leBytes 1 d.state.code ++ leBytes 1 (leAt (b.descBytes e.target) 8 1) ++
        leBytes 2 (if unitClass e.target = 5 then 0 else d.members.length) ++ leBytes 2 (s.failedCnt d) ++ leBytes 2 0 ++ n4 d.parent ++
        n4 (if d.rebuildTotal = 0 then 0 else d.rebuildDone * 65536 / d.rebuildTotal) ++ n4 0) (b.descBytes e.target ++ b.mlistBytes e.target))) ∧
  (∀ (n slot : Nat) (mlist : Bytes) (e : Entry) (s : State), s.CanRun 0x21 n slot e →
    let b := s.begun n slot e
    let wid := e.num 16 2
    let ents := (List.range wid).map fun i => leAt mlist (4 * i) 4
    let ok := e.num 10 4 < 0x100000 ∧ 1 ≤ e.num 14 1 ∧ e.num 14 1 ≤ 3 ∧ e.num 18 1 ≤ 1 ∧ e.zero 19 1 = true
    let r := b.emit (.hostRead (e.num 20 8) (4 * wid))
    let st := r.panChecks (unitId 7 (e.num 10 4)) (e.num 14 1) (e.num 15 1) ents (e.num 18 1 == 1)
    (b.layoutBusy = true → exec (.createPan n slot mlist) s = .next (b.replied n slot e stBusy [] [])) ∧
    (b.layoutBusy = false → ¬ok → exec (.createPan n slot mlist) s = .next (b.replied n slot e stInvalidField [] [])) ∧
    (b.layoutBusy = false → ok → ents.any (fun x => decide (x ≥ 2 ^ 24)) = true → exec (.createPan n slot mlist) s = .next (r.replied n slot e stInvalidField [] [])) ∧
    (b.layoutBusy = false → ok → ents.any (fun x => decide (x ≥ 2 ^ 24)) = false → st ≠ stOk → exec (.createPan n slot mlist) s = .next (r.replied n slot e st [] [])) ∧
    (b.layoutBusy = false → ok → ents.any (fun x => decide (x ≥ 2 ^ 24)) = false → st = stOk → exec (.createPan n slot mlist) s = .next
      (((r.buildPan (unitId 7 (e.num 10 4)) (e.num 14 1) (e.num 15 1) ents (e.num 18 1 == 1)).placeUnit (unitId 7 (e.num 10 4))).replied n slot e stOk [] []))) ∧
  (∀ (n slot : Nat) (e : Entry) (s : State), s.CanRun 0x22 n slot e →
    let b := s.begun n slot e
    let d := s.unit e.target
    let kept := d.parent ≠ 0 ∨ (d.root = true ∧ s.pool.loaded = true) ∨ ((s.unit d.parent).root = true ∧ s.topReferenced d.pos = true) ∨
      (d.root = true ∧ (List.range s.topCount).any s.topReferenced = true)
    (b.layoutBusy = true → exec (.deletePan n slot) s = .next (b.replied n slot e stBusy [] [])) ∧
    (b.layoutBusy = false → kept → exec (.deletePan n slot) s = .next (b.replied n slot e 0x0804 [] [])) ∧
    (b.layoutBusy = false → ¬kept →
      let f := b.freeMembers e.target (d.members.map Member.unit)
      let g := f.setUnitState e.target .absent 0
      exec (.deletePan n slot) s = .next ((((g.putUnit { g.unit e.target with
        members := [], scheme := 0, m := 0, root := false, rebuildDone := 0, rebuildTotal := 0 }).placeUnit e.target).retrySubst).replied n slot e stOk [] []))) ∧
  (∀ (n slot : Nat) (e : Entry) (s : State), s.CanRun 0x23 n slot e →
    let b := s.begun n slot e
    let t := b.layout (e.num 10 2)
    ((64 < e.num 10 2 ∨ e.zero 12 2 = false) → exec (.buildDefaultLayout n slot) s = .next (b.replied n slot e stInvalidField [] [])) ∧
    (e.num 10 2 ≤ 64 → e.zero 12 2 = true → (s.med.units.any fun d => unitClass d.id == 7 && d.state != .absent) = true →
      exec (.buildDefaultLayout n slot) s = .next (b.replied n slot e 0x0808 [] [])) ∧
    (e.num 10 2 ≤ 64 → e.zero 12 2 = true → (s.med.units.any fun d => unitClass d.id == 7 && d.state != .absent) = false → t.rootPan = none →
      exec (.buildDefaultLayout n slot) s = .next (b.replied n slot e 0x0809 [] [])) ∧
    (e.num 10 2 ≤ 64 → e.zero 12 2 = true → (s.med.units.any fun d => unitClass d.id == 7 && d.state != .absent) = false → t.rootPan.isSome = true →
      t.peerInService = false → exec (.buildDefaultLayout n slot) s = .next ((t.inProgress n slot e).replied n slot e stOk
        (n4 (t.med.units.filter fun d => unitClass d.id == 7 && d.state != .absent).length ++
          n4 (t.med.units.filter fun d => unitClass d.id == 6 && d.state == .online && !t.dieUsed d.id).length ++ n4 (unitId 7 0x2000)) [])) ∧
    (e.num 10 2 ≤ 64 → e.zero 12 2 = true → (s.med.units.any fun d => unitClass d.id == 7 && d.state != .absent) = false → t.rootPan.isSome = true →
      t.peerInService = true → exec (.buildDefaultLayout n slot) s = .next (State.inProgress { t with
        ctl.cfgWaits := t.ctl.cfgWaits ++ [⟨((t.chan 0).next + 2 ^ 32 - 1) % 2 ^ 32, packetRef n slot e,
          n4 (t.med.units.filter fun d => unitClass d.id == 7 && d.state != .absent).length ++
          n4 (t.med.units.filter fun d => unitClass d.id == 6 && d.state == .online && !t.dieUsed d.id).length ++ n4 (unitId 7 0x2000)⟩] } n slot e))) ∧
  (∀ (n slot : Nat) (e : Entry) (s : State), s.CanRun 0x24 n slot e → unitClass e.target = 6 → s.cfgReady = some stOk → e.zero 11 3 = true →
    let b := s.begun n slot e
    (b.layoutBusy = true → e.num 10 1 ≤ 1 → exec (.setUnitService n slot) s = .next (b.replied n slot e stBusy [] []).afterUnits) ∧
    (b.layoutBusy = false → e.num 10 1 = 0 → s.ust e.target ≠ .online → exec (.setUnitService n slot) s = .next (b.replied n slot e stInvalidField [] []).afterUnits) ∧
    (b.layoutBusy = false → e.num 10 1 = 0 → s.ust e.target = .online → b.newlyFailed (b.takeOut e.target) = true →
      exec (.setUnitService n slot) s = .next (b.replied n slot e 0x0806 [] []).afterUnits) ∧
    (b.layoutBusy = false → e.num 10 1 = 0 → s.ust e.target = .online → b.newlyFailed (b.takeOut e.target) = false →
      exec (.setUnitService n slot) s = .next ((b.takeOut e.target).replied n slot e stOk [] []).afterUnits) ∧
    (b.layoutBusy = false → e.num 10 1 = 1 → (s.ust e.target = .offline ∨ s.ust e.target = .failed) → s.reachable (dieModule e.target) = true →
      (s.mod (dieModule e.target)).heldReason = 0 →
      exec (.setUnitService n slot) s = .next ((b.leafIn e.target).replied n slot e stOk [] []).afterUnits)) ∧
  ∀ (n slot : Nat) (e : Entry) (s : State), s.CanRun 0x25 n slot e →
    let b := s.begun n slot e
    let pos := e.num 10 2
    let new := e.num 14 4
    let m := (s.unit e.target).members.getD pos ⟨0, false⟩
    (b.layoutBusy = true → exec (.replaceMember n slot) s = .next (b.replied n slot e stBusy [] [])) ∧
    (b.layoutBusy = false → (s.unit e.target).members.length ≤ pos → exec (.replaceMember n slot) s = .next (b.replied n slot e stInvalidField [] [])) ∧
    (b.layoutBusy = false → e.zero 12 2 = true → pos < (s.unit e.target).members.length → new < 2 ^ 24 → unitValid new = true →
      (s.posFailed e.target m = false → exec (.replaceMember n slot) s = .next (b.replied n slot e 0x080A [] [])) ∧
      (s.posFailed e.target m = true → unitClass new ≠ unitClass m.unit → exec (.replaceMember n slot) s = .next (b.replied n slot e 0x0802 [] [])) ∧
      (s.posFailed e.target m = true → unitClass new = unitClass m.unit → (new = e.target ∨ (b.above b.depth e.target).contains new = true) →
        exec (.replaceMember n slot) s = .next (b.replied n slot e 0x0803 [] [])) ∧
      (s.posFailed e.target m = true → unitClass new = unitClass m.unit → new ≠ e.target → (b.above b.depth e.target).contains new = false →
        ((s.unit new).root = true ∨ s.ust new ≠ .online) → exec (.replaceMember n slot) s = .next (b.replied n slot e 0x0801 [] [])) ∧
      (s.posFailed e.target m = true → unitClass new = 6 → unitClass m.unit = 6 → new ≠ e.target → (b.above b.depth e.target).contains new = false →
        (s.unit new).root = false → s.ust new = .online → (s.unit new).parent = 0 → s.dieUsed new = false →
        b.unitPb new = b.unitPb m.unit → ∀ t, (b.assignSubst e.target pos new).placeUnit new = t → exec (.replaceMember n slot) s = .next
          (((t.setUnitState e.target (t.panTarget (t.unit e.target)) 0).placeUnit e.target).replied n slot e stOk [] [])))

/-- Media under way (R248 to R250, R257, R274, R297, R364): a die that misses a command is asked again and then taken out; a rebuilt position ends its
substitution; grants go only from the arbiter; the harvest of a block goes through its four steps in order, each only once the one before is on media. -/
def Obligations.MediaRecoversGrantsAndHarvests : Prop :=
  (∀ (port tag : Nat) (c : ModCmd) (s : State), s.cmdOf port tag = some c →
    (c.sent = false → exec (.dieCommandTimeout port tag) s = .next s.afterUnits) ∧
    (c.sent = true → c.die = 0xFFFF → c.reissued = false → exec (.dieCommandTimeout port tag) s = .next (s.reissue c).afterUnits) ∧
    (∀ t k, c.sent = true → c.die ≠ 0xFFFF → s.dieMissed (dieUnit port c.die) = (t, k) →
      (k = 1 → exec (.dieCommandTimeout port tag) s = .next (t.reissue c).afterUnits) ∧
      (k ≠ 1 → exec (.dieCommandTimeout port tag) s = .next (((t.dieOut (dieUnit port c.die) 1 .failed).rescueReads).afterUnits)))) ∧
  (∀ (job : Nat) (j : ReadJob) (s : State), s.job? job = some j →
    (j.booked = false → exec (.bookedReadTimeout job) s = .next s.afterUnits) ∧
    (j.booked = true →
      let late := ((List.range j.parts.length).zip j.parts).filter fun x => x.2.got.isNone && !x.2.recon && !x.2.lost
      exec (.bookedReadTimeout job) s = .next (late.foldl (fun (s : State) x =>
        let t : State := { s with lnk.cmds := s.lnk.cmds.filter fun c => c.why != Purpose.read job x.1 0 }
        if s.direct (dieModule x.2.die) = false ∧ s.reachable (dieModule x.2.die) = true ∧ (s.ust x.2.die).serving = true then
          t.readUnit true x.2.die x.2.blk x.2.pu x.2.crumb x.2.crumbs x.2.level (.read job x.1 0)
        else t.reconstruct job x.1) (s.bumpBy R.MED_SLOW_REISSUE_CNT late.length)).afterUnits)) ∧
  (∀ (pan pos : Nat) (m : Member) (s : State), (s.unit pan).members[pos]? = some m →
    (m.subst = false → exec (.rebuildPositionEnd pan pos) s = .next s) ∧
    (m.subst = true → (s.med.rebuilds.any fun b => b.pan == pan && b.pos == pos && (!b.rows.isEmpty || s.rebuildBusy b)) = true →
      exec (.rebuildPositionEnd pan pos) s = .next s) ∧
    (m.subst = true → (s.med.rebuilds.any fun b => b.pan == pan && b.pos == pos && (!b.rows.isEmpty || s.rebuildBusy b)) = false →
      ((s.unit pan).members.set pos ⟨m.unit, false⟩).any (·.subst) = false →
      let t := s.putUnit { s.unit pan with members := (s.unit pan).members.set pos ⟨m.unit, false⟩, rebuildDone := 0, rebuildTotal := 0 }
      exec (.rebuildPositionEnd pan pos) s = .next (t.recount t.depth pan).rebuildPump)) ∧
  (∀ (h : PtlHdr) (payload : Bytes) (s : State), s.InOrder 0 h → ∀ b, s.whole 0 h payload = b →
    let u := s.taken 0 h
    (unitShared (leAt (b.drop 2) 0 3) = false → exec (.unitStateRecordRx h payload) s = .next u.afterUnits) ∧
    (unitShared (leAt (b.drop 2) 0 3) = true → u.pool.loaded = false →
      exec (.unitStateRecordRx h payload) s = .next (u.applyUnit (b.drop 2)).afterUnits) ∧
    (leAt b 3 1 = u.role → exec (.grantRx h payload) s = .next (u.recordGrant (leAt b 3 1) (leAt b 5 1) (leAt b 4 1) (leAt b 10 4) (leAt b 6 1 == 1))) ∧
    (leAt b 3 1 ≠ u.role →
      exec (.grantRx h payload) s = .next (u.openBlk (leAt b 3 1) (leAt b 5 1) (leAt b 4 1) (leAt b 10 4) (leAt b 6 1 == 1) false))) ∧
  (∀ (h : PtlHdr) (j st : Nat) (s : State),
    (j = s.role → s.isArbiter = true → s.ftl.grantReq.contains (j, st) = true → exec (.grantRequestRx h j st) s = .next (s.grant j st)) ∧
    (j = s.role → s.isArbiter = false → exec (.grantRequestRx h j st) s = .next s) ∧
    (j ≠ s.role → s.peerInService = true → s.InOrder 0 h → st < 5 → (s.taken 0 h).isArbiter = true →
      exec (.grantRequestRx h j st) s = .next ((s.taken 0 h).grant j st))) ∧
  (∀ (j top : Nat) (s : State),
    (s.heldJournals.contains j = false → exec (.harvestStart j top) s = .next s) ∧
    (s.heldJournals.contains j = true → s.ftl.harvests = [] → s.victim j top = none → exec (.harvestStart j top) s = .next s) ∧
    (∀ b, s.heldJournals.contains j = true → s.ftl.harvests = [] → s.victim j top = some b → s.victimClass b ≠ 3 →
      let r := ((s.bump R.FTL_HARV_VICTIM_CNT).putBlk { b with state := .victim }).placeRec j 0x07 1
        (leBytes 1 1 ++ leBytes 1 (2 * s.victimClass b) ++ leBytes 1 top ++ leBytes 1 0 ++ leBytes 4 b.blk)
      exec (.harvestStart j top) s = .next (State.seal { r with
        ftl.harvests := r.ftl.harvests ++ [⟨top, b.blk, s.victimClass b, 1, [], j, r.lastMark j⟩] } j (r.lastMark j).1))) ∧
  ∀ (top blk : Nat) (h : Harvest) (s : State), s.harvest? top blk = some h →
    ((h.step ≠ 1 ∨ s.recDone h.journal h.mark = false) → exec (.harvestCopy top blk) s = .next s) ∧
    (h.step = 1 → s.recDone h.journal h.mark = true →
      let u := s.contentScan (s.blk top blk)
      ∀ t, (u.validIn (u.blk top blk)).foldl (fun s n => s.readGrain (.harvest top blk) n false) (u.putHarvest { h with step := 2 }) = t →
      ∀ k, t.harvest? top blk = some k → exec (.harvestCopy top blk) s = .next (t.packCopies k)) ∧
    ((h.step ≠ 3 ∨ s.copiesDone h = false) → exec (.harvestCommit top blk) s = .next s) ∧
    (h.step = 3 → s.copiesDone h = true → h.copies = [] →
      let r := s.placeParts h.journal 0x07 1 [(leBytes 1 2 ++ leBytes 1 1 ++ leBytes 1 top ++ leBytes 1 0 ++ leBytes 4 blk) ++ []]
      exec (.harvestCommit top blk) s = .next (((r.putBlk { r.blk top blk with state := .erasePending }).putHarvest
        { h with step := 4, mark := r.lastMark h.journal }).seal h.journal (r.lastMark h.journal).1)) ∧
    (((s.blk top blk).state ≠ .erasePending ∨ h.step ≠ 4 ∨ s.recDone h.journal h.mark = false) → exec (.harvestErase top blk) s = .next s) ∧
    ((s.blk top blk).state = .erasePending → (s.blk top blk).eraseLeft = [] → h.step = 4 → s.recDone h.journal h.mark = true →
      s.readsIn top blk = false → s.ust (s.topPan top) ≠ .readOnly → exec (.harvestErase top blk) s = .next (s.eraseBlk top blk))

/-- The media modules' link (R314 to R316, R321, R322, R329, R332, R334, R335, R361): link up asks for the module's record, a port that goes down while the peer serves sends its commands through the
peer, completions answer the command they name, what comes through the proxy is counted, and GET_MODULE_INFO changes nothing. -/
def Obligations.ModuleLinkCommandsAndProxy : Prop :=
  (∀ (port : Nat) (mismatch : Bool) (s : State), port < 32 → s.domainOff (19 + port) = false → s.fld R.LNK_CFG 0 0 ≠ 0 →
    ((s.mod port).up = false → exec (.mediaPortUp port 4 5 mismatch) s = .next ((s.putMod { s.mod port with
      present := true, up := true, heldReason := if mismatch then 1 else 0, discovered := false }).askParam port 0xFFFF 0 (.modRecord 1))) ∧
    ((s.mod port).up = true → exec (.mediaPortUp port 4 5 mismatch) s = .next s)) ∧
  (∀ (port width rate : Nat) (mismatch : Bool) (s : State), port < 32 → s.domainOff (19 + port) = true →
    exec (.mediaPortUp port width rate mismatch) s = .next (s.putMod { s.mod port with present := true })) ∧
  (∀ (port : Nat) (s : State),
    ((s.mod port).up = false → exec (.mediaPortDown port) s = .next s.afterUnits) ∧
    (∀ d, (s.mod port).up = true →
      (((s.bump R.LNK_LINK_DOWN_CNT).putMod { s.mod port with up := false, proxied := true }).setUnitState (unitId 1 (16 + port)) .failed 6) = d →
      (d.peerInService = false → exec (.mediaPortDown port) s = .next (d.failModule port 5).afterUnits) ∧
      (d.peerInService = true → exec (.mediaPortDown port) s =
        .next ((s.lnk.cmds.filter fun c => c.port == port && !c.viaPeer).foldl State.throughPeer d).afterUnits)) ∧
    exec (.modulePresenceLost port) s = .next ((s.putMod { s.mod port with present := false }).failModule port 4).afterUnits ∧
    (∀ die, exec (.moduleEventRx port 1 die) s =
      .next ((((s.bump R.LNK_EVENT_RX_CNT).dieOut (dieUnit port die) 2 .failed).rescueReads).afterUnits) ∧
      exec (.moduleEventRx port 2 die) s = .next ((s.bump R.LNK_EVENT_RX_CNT).failModule port 4).afterUnits ∧
      exec (.moduleEventRx port 3 die) s = .next ((s.bump R.LNK_EVENT_RX_CNT).event 0x0B evcThreshold 4 (unitId 5 port) []).afterUnits ∧
      exec (.moduleEventRx port 4 die) s = .next ((s.bump R.LNK_EVENT_RX_CNT).event 0x0B evcState 5 (unitId 5 port) []).afterUnits)) ∧
  (∀ (port : Nat) (rec_ : Bytes) (found : List Bytes) (s : State),
    (cplOf rec_ = none → exec (.moduleCplRx port rec_ found) s = .next s) ∧
    (∀ k, cplOf rec_ = some k → s.answered port k false = none → exec (.moduleCplRx port rec_ found) s = .next s) ∧
    (∀ k c, cplOf rec_ = some k → s.answered port k false = some c → exec (.moduleCplRx port rec_ found) s = .next (s.cplDone c k rec_ true found))) ∧
  (∀ (port tag off : Nat) (data : Bytes) (c : ModCmd) (s : State), s.cmdOf port tag = some c →
    (c.sent = true → c.viaPeer = false → c.busyWait = false → exec (.moduleRdataRx port tag off data) s =
      .next (s.putCmd { c with rdata := slice c.rdata 0 off ++ data ++ c.rdata.drop (off + data.length) })) ∧
    ((c.sent = false ∨ c.viaPeer = true ∨ c.busyWait = true) → exec (.moduleRdataRx port tag off data) s = .next s) ∧
    (c.busyWait = true → exec (.moduleBusyRetry port tag) s = .next ((s.putCmd { c with busyWait := false, rdata := [] }).sendCmd { c with busyWait := false, rdata := [] })) ∧
    (c.busyWait = false → exec (.moduleBusyRetry port tag) s = .next s)) ∧
  (∀ s : State, exec .moduleStatusPoll s = .next ((s.lnk.mods.filter fun m => s.reachable m.port).foldl
    (fun (s : State) m => s.issue m.port 0xFFFF 0x05 0 [] [] .status) s)) ∧
  (∀ (n slot : Nat) (e : Entry) (s : State), s.CanRun 0x26 n slot e →
    let b := s.begun n slot e
    let p := unitIndex e.target
    ((2 < e.num 10 1 ∨ e.zero 11 1 = false) → exec (.getModuleInfo n slot) s = .next (b.replied n slot e stInvalidField [] [])) ∧
    (e.num 10 1 ≤ 2 → e.zero 11 1 = true → (s.mod p).present = false → exec (.getModuleInfo n slot) s = .next (b.replied n slot e 0x0A00 [] [])) ∧
    (e.num 10 1 ≤ 2 → e.zero 11 1 = true → (s.mod p).present = true → s.reachable p = false → exec (.getModuleInfo n slot) s = .next (b.replied n slot e 0x0A01 [] [])) ∧
    (e.zero 11 1 = true → (s.mod p).present = true → s.reachable p = true →
      (e.num 10 1 = 0 → exec (.getModuleInfo n slot) s = .next (b.replied n slot e stOk [] (slice (s.mod p).record 0 64))) ∧
      (e.num 10 1 = 1 → leAt (s.mod p).record 6 2 ≤ e.num 12 2 → exec (.getModuleInfo n slot) s = .next (b.replied n slot e 0x0A02 [] [])) ∧
      (e.num 10 1 = 1 → e.num 12 2 < leAt (s.mod p).record 6 2 → exec (.getModuleInfo n slot) s = .next (b.replied n slot e stOk []
        (slice (s.dieRec (dieUnit p (e.num 12 2))) 0 64))))) ∧
  ∀ (h : PtlHdr) (payload : Bytes) (s : State), s.InOrder 2 h → ∀ b, s.whole 2 h payload = b →
    let u := s.taken 2 h
    (∀ k c found, cplOf (slice b 4 32) = some k → u.answered (leAt b 0 4) k true = some c →
      exec (.proxyCplRx h payload found) s = .next (u.cplDone { c with rdata := b.drop 36 } k (slice b 4 32) false found)) ∧
    (∀ found, cplOf (slice b 4 32) = none → exec (.proxyCplRx h payload found) s = .next u) ∧
    ∀ t : State, State.leadCheck { u.bump R.PAIR_PROXY_RX_CNT with
        pair.peerProxy := if u.pair.peerProxy.contains (leAt b 0 4) then u.pair.peerProxy else u.pair.peerProxy ++ [leAt b 0 4] } = t →
      (t.direct (leAt b 0 4) = true → exec (.proxyCmdRx h payload) s = .next (t.issue (leAt b 0 4) (leAt (slice b 4 64) 4 2) (leAt (slice b 4 64) 0 1)
        (leAt (slice b 4 64) 1 1) (slice (slice b 4 64) 16 40) (b.drop 68) (.proxied (leAt (slice b 4 64) 2 2)))) ∧
      (t.direct (leAt b 0 4) = false → exec (.proxyCmdRx h payload) s = .next (t.failModule (leAt b 0 4) 5).afterUnits)

/-- Snapshots and cuts (R338, R341, R343 to R346, R355): what each packet refuses, in order, and what it stores or arms; a cut announced by the peer is armed here,
and one it cancels is missed here; LIST_SNAPSHOTS changes nothing; a space scan that has counted answers its packet. -/
def Obligations.SnapshotsAreCutListedAndDropped : Prop :=
  (∀ (n slot : Nat) (e : Entry) (v : Volume) (s : State), s.CanRun 0x88 n slot e → s.vol? (e.num 10 4) = some v →
    let b := s.begun n slot e
    (s.ownsGroup v.ana = false → exec (.setVolumeGroup n slot) s = .next (b.replied n slot e stNotOwner [] [])) ∧
    (s.ownsGroup v.ana = true → 4095 < e.num 14 2 → exec (.setVolumeGroup n slot) s = .next (b.replied n slot e stInvalidField [] [])) ∧
    (s.ownsGroup v.ana = true → e.num 14 2 ≤ 4095 → e.zero 16 2 = true → s.moving v.ana = false →
      (e.num 14 2 ≠ 0 → v.cgroup ≠ 0 → v.cgroup ≠ e.num 14 2 → exec (.setVolumeGroup n slot) s = .next (b.replied n slot e 0x0B02 [] [])) ∧
      ((e.num 14 2 = 0 ∨ v.cgroup = e.num 14 2) →
        exec (.setVolumeGroup n slot) s = .next ((b.storeVol { v with cgroup := e.num 14 2 }).cfgEnded n slot e [])))) ∧
  (∀ (n slot : Nat) (e : Entry) (s : State), s.CanRun 0x89 n slot e → e.num 10 1 = 0 → e.zero 11 1 = true →
    let b := s.begun n slot e
    let o := e.num 12 4
    let vols := s.scopeVols 0 o
    let i := if e.num 16 8 = 0 then (s.slot + 2) * 8000 else e.num 16 8
    (vols = [] → exec (.createSnapshot n slot) s = .next (b.replied n slot e stInvalidField [] [])) ∧
    (vols ≠ [] → s.ownsVol o = false → exec (.createSnapshot n slot) s = .next (b.replied n slot e stNotOwner [] [])) ∧
    (∀ v, vols = [o] → s.ownsVol o = true → s.vol? o = some v → s.moving v.ana = false → s.snap.nextId < 2 ^ 32 →
      (s.snapRoom [o] = false → exec (.createSnapshot n slot) s = .next (b.replied n slot e 0x0B00 [] [])) ∧
      (s.snapRoom [o] = true → s.tide.state = .freerun → exec (.createSnapshot n slot) s = .next (b.replied n slot e 0x0100 [] [])) ∧
      (s.snapRoom [o] = true → s.tide.state ≠ .freerun → i / 8000 < s.slot + 2 → exec (.createSnapshot n slot) s = .next (b.replied n slot e 0x0101 [] [])) ∧
      (s.snapRoom [o] = true → s.tide.state ≠ .freerun → s.slot + 2 ≤ i / 8000 → s.tide.timed.length < 256 → s.peerInService = false →
        exec (.createSnapshot n slot) s = .next (State.inProgress { b with
          tide.timed := s.tide.timed ++ [⟨i, s.tide.nextOrder, decide (i / 8000 ≤ s.lastSlot), .cut s.snap.nextId 0 o⟩]
          tide.nextOrder := s.tide.nextOrder + 1, snap.nextId := s.snap.nextId + 1
          snap.cuts := s.snap.cuts ++ [⟨s.snap.nextId, 0, o, i, some (packetRef n slot e), false, false, false⟩] } n slot e)))) ∧
  (∀ (n slot : Nat) (e : Entry) (s : State), s.CanRun 0x8A n slot e → e.num 10 1 ≤ 1 → e.zero 11 1 = true → e.zero 20 2 = true →
    let b := s.begun n slot e
    let vols := (s.scopeVols (e.num 10 1) (e.num 12 4)).filter fun v => s.snap.epochs.any fun x => x.nsid == v && x.id == e.num 16 4
    (vols = [] → exec (.deleteSnapshot n slot) s = .next (b.replied n slot e stInvalidField [] [])) ∧
    (vols ≠ [] → vols.any s.ownsVol = false → exec (.deleteSnapshot n slot) s = .next (b.replied n slot e stNotOwner [] [])) ∧
    (∀ o v, vols = [o] → s.ownsVol o = true → s.vol? o = some v → s.moving v.ana = false →
      (s.snapHeld (e.num 16 4) [o] = true → exec (.deleteSnapshot n slot) s = .next (b.replied n slot e 0x0B04 [] [])) ∧
      (s.snapHeld (e.num 16 4) [o] = false → exec (.deleteSnapshot n slot) s = .next ((b.dropSnap (e.num 16 4) [o] false).cfgEnded n slot e [])))) ∧
  (∀ (n slot : Nat) (e : Entry) (s : State), s.CanRun 0x8B n slot e →
    let b := s.begun n slot e
    (s.vol? (e.num 10 4) = none → exec (.listSnapshots n slot) s = .next (b.replied n slot e stInvalidField [] [])) ∧
    (s.vol? (e.num 10 4) ≠ none → s.ownsVol (e.num 10 4) = false → exec (.listSnapshots n slot) s = .next (b.replied n slot e stNotOwner [] [])) ∧
    (s.vol? (e.num 10 4) ≠ none → s.ownsVol (e.num 10 4) = true → exec (.listSnapshots n slot) s = .next (b.replied n slot e stOk []
      (((s.snap.epochs.filter (·.nsid == e.num 10 4)).mergeSort fun a b => decide (a.id ≤ b.id)).flatMap
        fun x => leBytes 4 x.id ++ leBytes 4 0 ++ leBytes 8 x.instant)))) ∧
  (∀ (n slot : Nat) (e : Entry) (v : Volume) (s : State), s.CanRun 0x8C n slot e → s.vol? (e.num 10 4) = some v → s.ownsGroup v.ana = true →
    let b := s.begun n slot e
    let new := e.num 18 4
    (s.snap.epochs.any (fun x => x.nsid == e.num 10 4 && x.id == e.num 14 4) = false →
      exec (.cloneSnapshot n slot) s = .next (b.replied n slot e stInvalidField [] [])) ∧
    (s.snap.epochs.any (fun x => x.nsid == e.num 10 4 && x.id == e.num 14 4) = true → 1 ≤ new → new ≤ 65536 → s.vol? new = none → s.moving v.ana = false →
      s.pool.volumes.length < 65536 → s.snap.gone.any (·.nsid == new) = false →
      let c : Volume := { v with
        homeKey := ((s.dom? v.domain).map Domain.keyPage).getD v.homeKey, nsid := new, attached := false, mode := 0, flags := 0, clientAllow := 1, budget := 0, maxInflight := 0, cgroup := 0 }
      exec (.cloneSnapshot n slot) s = .next ((((b.putVol c).placeCfg (leBytes 1 cfgClone ++ leBytes 4 (e.num 10 4) ++ leBytes 4 (e.num 14 4) ++ c.record)).placeAct
        (.clone (e.num 10 4) (e.num 14 4) new)).cfgEnded n slot e []))) ∧
  (∀ (n slot : Nat) (e : Entry) (v : Volume) (s : State), s.CanRun 0x8D n slot e → s.vol? (e.num 10 4) = some v →
    let b := s.begun n slot e
    (s.ownsVol (e.num 10 4) = false → exec (.getSnapshotSpace n slot) s = .next (b.replied n slot e stNotOwner [] [])) ∧
    (s.ownsVol (e.num 10 4) = true → e.num 14 4 = 0 → exec (.getSnapshotSpace n slot) s = .next (State.inProgress (State.placeAct { b with
      snap.scans := s.snap.scans ++ [⟨packetRef n slot e, e.num 10 4, 0, []⟩] } (.scan (e.num 10 4) (packetRef n slot e))) n slot e))) ∧
  (∀ (ring slot : Nat) (x : SpaceScan) (s : State),
    (s.snap.scans.find? (fun x => x.pkt.ring == ring && x.pkt.slot == slot && x.counts != []) = some x → exec (.snapshotSpaceScanDone ring slot) s =
      .next (State.finish { s with snap.scans := s.snap.scans.filter fun y => y.pkt != x.pkt } x.pkt stOk (x.counts.flatMap fun c => leBytes 4 (c / 65536)) [])) ∧
    (s.snap.scans.find? (fun x => x.pkt.ring == ring && x.pkt.slot == slot && x.counts != []) = none → exec (.snapshotSpaceScanDone ring slot) s = .next s)) ∧
  ∀ (h : PtlHdr) (payload : Bytes) (s : State), s.InOrder 0 h → ∀ b, s.whole 0 h payload = b →
    let u := s.taken 0 h
    let id := leAt b 3 4
    (u.tide.timed.length < 256 → exec (.cutArmRx h payload) s = .next { u with
      snap.nextId := Nat.max u.snap.nextId (id + 1)
      snap.cuts := putKey Cut.snap ⟨id, leAt b 7 1, leAt b 8 4, leAt b 12 8, none, true, false, false⟩ u.snap.cuts
      tide.timed := u.tide.timed ++ [⟨leAt b 12 8, u.tide.nextOrder, decide (leAt b 12 8 / 8000 ≤ u.lastSlot), .cut id (leAt b 7 1) (leAt b 8 4)⟩]
      tide.nextOrder := u.tide.nextOrder + 1 }) ∧
    (256 ≤ u.tide.timed.length → exec (.cutArmRx h payload) s = .next (State.missCut { u with
      snap.nextId := Nat.max u.snap.nextId (id + 1)
      snap.cuts := putKey Cut.snap ⟨id, leAt b 7 1, leAt b 8 4, leAt b 12 8, none, true, false, false⟩ u.snap.cuts } id true)) ∧
    (∀ c, findKey Cut.snap id u.snap.cuts = some c → exec (.cutCancelRx h payload) s = .next (u.missCut id false)) ∧
    (findKey Cut.snap id u.snap.cuts = none → u.snap.epochs = [] → exec (.cutCancelRx h payload) s = .next u)

/-- Replication sessions (R347, R353, R355): a session is created, connected and stored, or refused with nothing changed; a start arms a timed event; the
timers reconnect a suspended session and suspend one that does not connect; GET_REPL_SESSION changes nothing; deletion closes the queue pairs and the key. -/
def Obligations.ReplicationSessionsAreManaged : Prop :=
  (∀ (n slot : Nat) (e : Entry) (s : State), s.CanRun 0x90 n slot e →
    let b := s.begun n slot e
    let vols := s.scopeVols (e.num 13 1) (e.num 14 4)
    (vols.all s.ownsVol = false → exec (.createReplSession n slot) s = .next (b.replied n slot e stNotOwner [] [])) ∧
    (∀ o v, vols = [o] → s.ownsVol o = true → s.vol? o = some v → s.moving v.ana = false → e.num 12 1 = 0 → e.num 13 1 ≤ 1 → e.num 18 2 ≤ 4095 →
      e.num 20 1 ≤ 15 → e.num 21 1 ≤ 63 → e.num 44 2 ≠ 0 → e.zero 46 2 = true →
      ((s.session? (e.num 10 2)).isSome = true → exec (.createReplSession n slot) s = .next (b.replied n slot e 0x0B05 [] [])) ∧
      (s.snap.sessions = [] → (s.kpage (e.num 18 2)).state ≠ .live → exec (.createReplSession n slot) s = .next (b.replied n slot e 0x0B07 [] [])) ∧
      (s.snap.sessions = [] → (s.kpage (e.num 18 2)).state = .live → (s.kpage (e.num 18 2)).usage = 2 → (s.kpage (e.num 18 2)).persist = true →
        let x : Session := { Session.ofRecord [] with
          no := e.num 10 2, role := 0, scope := e.num 13 1, obj := e.num 14 4, keyPage := e.num 18 2, port := e.num 20 1, dscp := e.num 21 1
          period := e.num 22 4, gid := e.sub 26 16, remote := e.num 42 2, pd := e.num 44 2, state := .connecting }
        (b.landingKey x.pd = none → exec (.createReplSession n slot) s = .next (b.replied n slot e stNoResource [] [])) ∧
        ∀ (c : State) (key : Nat), b.landingKey x.pd = some (c, key) → ∀ t : State,
          (c.storeSession { x with landKey := key }).connectSession { x with landKey := key } = t →
          exec (.createReplSession n slot) s = .next ((t.armPeriod { x with landKey := key } t.tide.time).cfgEnded n slot e [])))) ∧
  (∀ s : State, s.landingKey 0 = none) ∧
  (∀ (x : Session) (s : State),
    ((s.eport x.port).up = false → s.connectSession x = (s.bump R.REPL_SUSPEND_CNT).putSession { x with state := .suspended }) ∧
    ((s.eport x.port).up = true → s.freeCtx < 1048576 → s.privPairs < 1024 →
      let q := newQp s.freeCtx x.port 0 (mtuOf (s.fld R.XPT_CFG 13 12)) s.ordMax (s.fld R.XPT_RC_CFG 23 19) 7 7 0 (s.eport x.port).line true x.pd (some x.no)
      s.connectSession x = (((s.putQp q).cacheCtx s.freeCtx).putSession { x with
        state := .connecting, ownQp := some s.freeCtx, ownUp := false, opened := false }).sendCm x.port { cmMsg .req 1 with
          own := s.freeCtx + 0x10, mtu := q.mtu, depth := q.ord, timeout := q.tmo, retry := 7, rnr := 7
          session := some (x.remote, x.no), landKey := x.landKey, gid := x.gid })) ∧
  (∀ (n slot : Nat) (e : Entry) (x : Session) (s : State), s.session? (e.num 10 2) = some x → s.ownsSession x = true → e.zero 12 2 = true →
    let b := s.begun n slot e
    (s.CanRun 0x91 n slot e →
      ((x.role ≠ 0 ∨ x.state ≠ .idle) → exec (.startReplication n slot) s = .next (b.replied n slot e 0x0B06 [] [])) ∧
      (x.role = 0 → x.state = .idle → s.tide.state ≠ .freerun → e.num 14 8 / 8000 < s.slot + 2 →
        exec (.startReplication n slot) s = .next (b.replied n slot e 0x0101 [] [])) ∧
      (x.role = 0 → x.state = .idle → s.tide.state ≠ .freerun → s.slot + 2 ≤ e.num 14 8 / 8000 → s.tide.timed.length < 256 →
        exec (.startReplication n slot) s = .next (State.cfgEnded { b with
          tide.timed := s.tide.timed ++ [⟨e.num 14 8, s.tide.nextOrder, decide (e.num 14 8 / 8000 ≤ s.lastSlot), .replStart x.no⟩]
          tide.nextOrder := s.tide.nextOrder + 1 } n slot e []))) ∧
    (s.CanRun 0x92 n slot e → exec (.getReplSession n slot) s = .next (b.replied n slot e stOk
      (leBytes 1 x.state.code ++ leBytes 1 x.cause ++ leBytes 2 0 ++ leBytes 4 x.base ++ leBytes 4 x.sending ++
        leBytes 8 ((if x.role = 0 then x.acked else x.next) - 1)) [])) ∧
    (s.CanRun 0x93 n slot e → ∀ c : State, b.closeSession x = c →
      exec (.deleteReplSession n slot) s = .next (((State.cancelTimed { c with
          snap.sessions := dropKey Session.no x.no c.snap.sessions
          xpt.keys := dropKey MemKey.idx (x.landKey / 256) c.xpt.keys } (fun k => k == .replPeriod x.no || k == .replStart x.no)).placeCfg (leBytes 1 cfgSessionGone ++ leBytes 2 x.no)).cfgEnded n slot e []))) ∧
  (∀ (n slot : Nat) (e : Entry) (s : State), s.session? (e.num 10 2) = none →
    (s.CanRun 0x91 n slot e → exec (.startReplication n slot) s = .next ((s.begun n slot e).replied n slot e stInvalidField [] [])) ∧
    (s.CanRun 0x92 n slot e → exec (.getReplSession n slot) s = .next ((s.begun n slot e).replied n slot e stInvalidField [] [])) ∧
    (s.CanRun 0x93 n slot e → exec (.deleteReplSession n slot) s = .next ((s.begun n slot e).replied n slot e stInvalidField [] []))) ∧
  ∀ (i : Nat) (x : Session) (s : State), s.session? i = some x →
    (x.state = .suspended → s.ownsSession x = true → exec (.replReconnectTimer i) s = .next (s.connectSession x)) ∧
    ((x.state ≠ .suspended ∨ s.ownsSession x = false) → exec (.replReconnectTimer i) s = .next s) ∧
    (x.state = .connecting → exec (.replConnectTimeout i) s = .next (s.suspendSession i 0)) ∧
    (x.state ≠ .connecting → exec (.replConnectTimeout i) s = .next s)

/-- Replication messages (R350, R351, R353, R354): a message whose authentication fails changes no data and is counted; DATA and COMMIT are applied in MSG_SEQ order at the
target; ACK moves the source on, or back to the message a gap names; OPEN and RESUME open the session, and a SALT equal to the target's own fails it. -/
def Obligations.ReplicationMessagesApplyInOrder : Prop :=
  (∀ (i : Nat) (x : Session) (s : State), s.session? i = some x →
    (x.arrived = [] → ∀ c ∈ [Instr.replDataRx i, .replCommitRx i, .replAckRx i, .replOpenRx i, .replResumeRx i], exec c s = .next s) ∧
    ∀ (msg : Bytes) (rest : List Bytes), x.arrived = msg :: rest →
    let y : Session := { x with arrived := rest }
    let t := s.putSession y
    (∀ c ∈ [(Instr.replDataRx i, 1), (.replCommitRx i, 2), (.replAckRx i, 3), (.replOpenRx i, 4), (.replResumeRx i, 5)], leAt msg 4 1 ≠ c.2 → exec c.1 s = .next s) ∧
    (x.opened = true → t.replOpen y msg = none →
      (x.role = 1 → leAt msg 4 1 = 1 → exec (.replDataRx i) s = .next (t.replBad y msg)) ∧
      (x.role = 1 → leAt msg 4 1 = 2 → exec (.replCommitRx i) s = .next (t.replBad y msg)) ∧
      (x.role = 0 → x.state = .sending → leAt msg 4 1 = 3 → exec (.replAckRx i) s = .next (t.bump R.REPL_AUTH_FAIL_CNT))) ∧
    (∀ h salt body, x.opened = true → t.replOpen y msg = some (h, salt, body) → x.role = 1 →
      (leAt msg 4 1 = 1 → h.items ≠ 0 → exec (.replDataRx i) s = .next (t.replIn y h h.items body)) ∧
      (leAt msg 4 1 = 2 → exec (.replCommitRx i) s = .next (t.replIn y h 0 []))) ∧
    (∀ h salt body, x.opened = true → t.replOpen y msg = some (h, salt, body) → x.role = 0 → x.state = .sending → leAt msg 4 1 = 3 → h.snap = x.sending →
      (h.flags.testBit 0 = false → h.flags.testBit 1 = false → exec (.replAckRx i) s =
        .next ((t.putSession { y with acked := Nat.max x.acked (h.seq + 1), sent := x.sent.filter fun p => decide (Nat.max x.acked (h.seq + 1) ≤ p.1) }).replGo i)) ∧
      (∀ q k, h.flags.testBit 0 = false → h.flags.testBit 1 = true → findKey Prod.fst h.seq x.sent = some (q, k) → exec (.replAckRx i) s =
        .next ((t.putSession { y with next := q, item := k, built := [], building := none, commitSent := false, sent := x.sent.filter fun p => decide (p.1 < q) }).replGo i)) ∧
      (h.flags.testBit 0 = true → ∀ u, t.storeSession { y with
        state := .idle, base := x.sending, sending := 0, acked := 0, next := 0, item := 0, sent := [], commitSent := false } = u → u.snap.epochs = [] →
        exec (.replAckRx i) s = .next u)) ∧
    (t.replOpen y msg = none → (leAt msg 4 1 = 4 → exec (.replOpenRx i) s = .next (t.bump R.REPL_AUTH_FAIL_CNT)) ∧
      (leAt msg 4 1 = 5 → exec (.replResumeRx i) s = .next (t.bump R.REPL_AUTH_FAIL_CNT))) ∧
    ∀ h salt body, t.replOpen y msg = some (h, salt, body) → x.state = .connecting →
      (leAt msg 4 1 = 4 → (x.role = 0 → exec (.replOpenRx i) s = .next (t.putSession { y with opened := true, state := .idle })) ∧
        (x.role = 1 → salt = (t.kpage x.keyPage).salt → exec (.replOpenRx i) s = .next (t.failSession y 0x10)) ∧
        (x.role = 1 → salt ≠ (t.kpage x.keyPage).salt → exec (.replOpenRx i) s = .next ((t.putSession { y with
          opened := true, state := .idle, next := 0, built := [], resends := 0 }).replSend y ⟨4, 0, 0, 0, 0, 0⟩ []))) ∧
      (leAt msg 4 1 = 5 → (x.role = 0 → exec (.replResumeRx i) s = .next ((t.putSession { y with opened := true, state := .sending, next := x.acked }).replGo i)) ∧
        (x.role = 1 → salt = (t.kpage x.keyPage).salt → exec (.replResumeRx i) s = .next (t.failSession y 0x10)) ∧
        (x.role = 1 → salt ≠ (t.kpage x.keyPage).salt → exec (.replResumeRx i) s = .next ((t.putSession { y with
          opened := true, state := .idle, built := [], resends := 0 }).replSend y ⟨5, 0, 0, x.next - 1, h.snap, h.base⟩ [])))) ∧
  ∀ (x : Session) (h : ReplHdr) (items : Nat) (body : Bytes) (s : State),
    (h.snap = x.replica → s.replIn x h items body = if x.owed.isSome then s else s.replAck x 1 h.seq h.snap) ∧
    (h.snap ≠ x.replica → h.seq < x.next → s.replIn x h items body = s.replAck x 0 (x.next - 1) h.snap) ∧
    (h.snap ≠ x.replica → x.next ≤ h.seq → h.seq ≠ x.next + x.built.length → s.replIn x h items body = s) ∧
    (h.snap ≠ x.replica → h.seq = x.next + x.built.length → s.replIn x h items body =
      (s.putSession { x with built := x.built ++ [(items, h.snap, body)] }).replApply x.no (x.built.length + 1))

/-- The inter-controller link and HELLO (R358, R359, R365, R366, R383): only x16 and x8 at 64 GT/s come up; the transfer key ends with the link; HELLO goes out
until one is received; a HELLO is refused for the first condition of R366 that holds, and an accepted one meets the peer. Layout of what goes out: model's. -/
def Obligations.TheLinkComesUpAndMeetsThePeer : Prop :=
  (∀ (w rate rtt : Nat) (s : State), s.pair.icl = 0 → s.domainOff 2 = false → s.ust iclUnit ≠ .failed →
    ((rate ≠ 6 ∨ (w ≠ 16 ∧ w ≠ 8)) → exec (.iclLinkUp w rate rtt) s = .next s) ∧
    (rate = 6 → w = 16 ∨ w = 8 → exec (.iclLinkUp w rate rtt) s = .next (State.cable { s with
      free := s.free + 1, pair.icl := if w = 16 then 2 else 1, pair.helloSeen := false
      pair.ecdh := (List.range 48).map (Config.drbg s.free) } 16 (rtt / 2) true))) ∧
  (∀ s : State, (s.pair.icl = 0 → exec .iclLinkDown s = .next s) ∧
    (s.pair.icl ≠ 0 → exec .iclLinkDown s =
      .next (State.setUnitState { s with pair.icl := 0, pair.transferKey := none, pair.ecdh := [] } iclUnit .failed 6))) ∧
  (∀ (kind w : Nat) (s : State), s.pair.icl ≠ 0 → 1 ≤ kind → kind ≤ 3 → (w = 16 ∨ w = 8) → let new := if w = 16 then 2 else 1
    exec (.iclRetrain kind w) s = .next (State.event { s with pair.icl := new } 0x0D evcState 3 iclUnit (evState s.pair.icl new kind))) ∧
  (∀ s : State, ((s.pair.icl = 0 ∨ s.pair.helloSeen = true) → exec .helloTimer s = .next s) ∧
    (s.pair.icl ≠ 0 → s.pair.helloSeen = false → exec .helloTimer s = .next (s.emit (.ptl 0x01 0 0 0 0xFF s.helloBytes)))) ∧
  (∀ (h : Hello) (ok : Bool) (s : State),
    (h.role = s.role → s.helloRefuse h ok = 1) ∧
    (h.role ≠ s.role → (h.part ≠ 0x8816 ∨ h.step ≠ 0x20) → s.helloRefuse h ok = 2) ∧
    (h.role ≠ s.role → h.part = 0x8816 → h.step = 0x20 → h.fwMajor ≠ bits s.boot.fwVer 31 24 → s.helloRefuse h ok = 3) ∧
    (h.role ≠ s.role → h.part = 0x8816 → h.step = 0x20 → h.fwMajor = bits s.boot.fwVer 31 24 →
      (allZero h.poolId = false → allZero s.pool.id = false → s.pool.loaded = true → h.poolId ≠ s.pool.id → s.helloRefuse h ok = 4) ∧
      (allZero h.poolId = true → s.helloRefuse h ok = if ok then 0 else 6) ∧
      (allZero h.poolId = false → h.poolId = s.pool.id → (h.genNow < 2 ∨ 3 < h.genNow) → s.helloRefuse h ok = 5) ∧
      (allZero h.poolId = false → h.poolId = s.pool.id → 2 ≤ h.genNow → h.genNow ≤ 3 → s.helloRefuse h ok = if ok then 0 else 6))) ∧
  ∀ (p : Bytes) (ok : Bool) (s : State), let h := helloOf p; let why := s.helloRefuse h ok
    (why = 0 → exec (.helloRx p ok) s = .next (State.meetPeer { s with
      pair.helloSeen := true, pair.lastHello := some h, pair.refuse := 0, pair.hello := some h, pair.peerState := h.pairState
      pair.transferKey := some (Config.transferKey s.pair.ecdh (slice p 48 97)) })) ∧
    (why ≠ 0 → ∀ t, State.event { s with pair.helloSeen := true, pair.lastHello := some h } 0x0D evcRefused 4 iclUnit (evStatus 0 0x0C02 ++ evValue why) = t →
      (why = 1 → s.pair.state = .pairWait → h.pairState = 1 →
        exec (.helloRx p ok) s = .next { t with pair.refuse := 1, pair.state := .roleConflict }) ∧
      (¬(why = 1 ∧ s.pair.state = .pairWait ∧ h.pairState = 1) → exec (.helloRx p ok) s = .next { t with pair.refuse := why }))

/-- Heartbeats, the lease and the loss of the peer (R370, R371, R372): who sends none, what an arriving one renews and lifts, and what each expiry, a LEAVE or an
alarm notice with KEY_ERASE does. -/
def Obligations.HeartbeatsDetectTheLossOfThePeer : Prop :=
  (∀ s : State,
    ((s.pair.icl = 0 ∨ s.pair.state = .suspect ∨ s.pair.state = .electing ∨ s.pair.state = .down) → exec .heartbeatTimer s = .next s) ∧
    (s.pair.icl ≠ 0 → s.pair.state ≠ .suspect → s.pair.state ≠ .electing → s.pair.state ≠ .down →
      exec .heartbeatTimer s = .next ((s.bump R.PAIR_HB_TX_CNT).emit (.ptl 0x02 0 0 0 0xFF (leBytes 8 s.tide.time ++ leBytes 1 s.pair.state.code ++
        leBytes 7 0 ++ leBytes 8 s.own.durable ++ leBytes 8 (s.journal (1 - s.role)).tip))))) ∧
  (∀ (p : Bytes) (s : State),
    let u : State := { s with
      pair.lease := true, pair.peerState := leAt p 8 1, pair.peerDurable := leAt p 16 8, pair.peerShadow := leAt p 24 8 }
    ((s.pair.state = .paired ∨ s.pair.state = .suspect) → ∀ t, State.liftGate { u with pair.state := .paired } = t → t.pair.state = .paired →
      exec (.heartbeatRx p) s = .next t) ∧
    ((s.pair.state = .sync ∨ s.pair.state = .down ∨ s.pair.state = .roleConflict) → s.pair.gated = [] → s.xpt.qps = [] →
      exec (.heartbeatRx p) s = .next u) ∧
    (s.pair.state = .solo → s.pair.rejoinStep = 2 → leAt p 8 1 = 3 → s.pair.gated = [] → s.xpt.qps = [] →
      ∀ t, State.enterPaired { u with pair.rejoinStep := 3 } = t → t.pair.state = .paired → exec (.heartbeatRx p) s = .next t) ∧
    (s.pair.state = .fenced → s.pair.autoRejoin = false → exec (.heartbeatRx p) s = .next u)) ∧
  (∀ s : State, exec .leaseExpiry s = .next { s with pair.lease := false } ∧
    ((s.pair.state = .paired ∨ s.pair.state = .suspect ∨ s.pair.state = .electing) →
      State.gateClosed { s with pair.lease := false } = true ∧ State.gateClosed { s with pair.lease := true } = false) ∧
    (s.pair.state = .solo → s.gateClosed = false) ∧ (s.pair.state = .fenced → s.gateClosed = true)) ∧
  (∀ (o : Out) (s : State), (s.gateClosed = false → s.deliver o = s.transmit o) ∧
    (s.gateClosed = true → s.deliver o = { s with pair.gated := s.pair.gated ++ [o] })) ∧
  (∀ s : State,
    (s.pair.state = .paired → exec .peerSuspect s = .next (State.bump { s with pair.state := .suspect } R.PAIR_SUSPECT_CNT)) ∧
    (s.pair.state ≠ .paired → exec .peerSuspect s = .next s) ∧
    exec .peerLost s = .next s.declareLost ∧ exec .leaveRx s = .next s.declareLost ∧
    (s.peerInService = false → s.declareLost = s)) ∧
  ∀ (h : PtlHdr) (p : Bytes) (s : State), s.InOrder 0 h → ∀ b, s.whole 0 h p = b →
    ∀ t, (s.taken 0 h).alarm 8 0x0D evcSecurity iclUnit (evValue (leAt b 4 4) ++ evTime (leAt b 8 8)) = t →
    exec (.alarmNoticeRx h p) s = .next (if (leAt b 4 4).testBit 0 then t.declareLost else t)

/-- Elections (R374, R376, R383): PREEMPT goes to the lead with the epoch above both, RESERVE READ polls it, and what the lead shows decides: FENCED fences this
head, REGISTERED with that epoch and the other port FENCED wins it, and only then are the other modules preempted. -/
def Obligations.ElectionsAreDecidedAtTheLead : Prop :=
  (∀ (e : Election) (s : State), s.pair.election = some e →
    (e.leadWon = false → exec .electionPoll s = .next (s.askReserve e.lead)) ∧
    (e.leadWon = true → exec .electionPoll s = .next (((e.asked.filter fun a => !s.preempted a).map Prod.fst).foldl State.askReserve s)) ∧
    (e.waiting = true → exec .electionLeadTimeout s = .next (s.event 0x0D evcLimit 4 (unitId 5 e.lead) (evValue 100000))) ∧
    (e.waiting = false → exec .electionLeadTimeout s = .next s) ∧
    (e.waiting = true → e.leadWon = false → exec .electionRetry s =
      .next (State.sendPreempt { s with
        lnk.cmds := s.lnk.cmds.filter fun c => !(c.port == e.lead && c.why == Purpose.preempt) } e.lead)) ∧
    ((e.waiting = false ∨ e.leadWon = true) → exec .electionRetry s = .next s)) ∧
  (∀ s : State, s.pair.election = none →
    exec .electionPoll s = .next s ∧ exec .electionLeadTimeout s = .next s ∧ exec .electionRetry s = .next s) ∧
  (∀ s : State, (s.pair.state = .pairWait → s.pair.waitSolo = false →
      exec .soloWaitExpiry s = .next (State.registerAll (State.anaSince { s with pair.soloWaitOver := true, pair.state := .electing, brn.alone := true } s))) ∧
    ((s.pair.state ≠ .pairWait ∨ s.pair.waitSolo = true) → exec .soloWaitExpiry s = .next s)) ∧
  (∀ (port : Nat) (s : State), s.newEpoch port = Nat.max (s.mod port).ownEpoch (s.mod port).otherEpoch + 1 ∧
    (s.pair.election = none → s.direct port = true →
      s.sendPreempt port = s.issue port 0xFFFF 0x06 0 (reserveParams 2 (s.newEpoch port) (s.mod port).otherEpoch) [] .preempt) ∧
    s.askReserve port = s.issue port 0xFFFF 0x06 0 (reserveParams 0 0 0) [] .rsvRead ∧
    s.askRegister port = s.issue port 0xFFFF 0x06 0 (reserveParams 1 (s.newEpoch port) 0) [] .register) ∧
  ∀ (port : Nat) (found : List Bytes) (s : State),
    ((s.mod port).ownRsv = .fenced → s.pair.rejoinStep = 0 → s.reservationSeen port found = s.enterFenced) ∧
    (∀ e a, s.pair.election = some e → (s.mod port).ownRsv ≠ .fenced → findKey Prod.fst port e.asked = some a →
      (s.preempted a = true → port = e.lead → e.leadWon = false → s.reservationSeen port found = s.wonLead found) ∧
      (s.preempted a = false → s.reservationSeen port found = s) ∧
      (e.leadWon = true → s.preempted a = true → s.reservationSeen port found = s.confirmCheck found)) ∧
    (∀ e, s.pair.election = some e → (s.mod port).ownRsv ≠ .fenced → findKey Prod.fst port e.asked = none → port ≠ e.lead → e.leadWon = false →
      s.reservationSeen port found = s) ∧
    (∀ e, s.pair.election = some e → e.leadWon = true → (∀ a ∈ e.asked, s.preempted a = true) → s.confirmCheck found = s.takeover found) ∧
    (∀ a : Nat × Nat, (s.mod a.1).present = true → s.direct a.1 = true →
      (s.preempted a = true ↔ (s.mod a.1).ownRsv = .registered ∧ (s.mod a.1).ownEpoch = a.2 ∧ (s.mod a.1).otherRsv = .fenced))

/-- The pair transaction layer (R361 to R364, R367, R368, R373; R95, R257 for what the messages carry): a message in order is taken and acknowledged, one behind
is answered with ACK, one ahead with one NAK; ACK retires, NAK and the timer send again; then what each message of the peer does. -/
def Obligations.PairMessagesAreTakenInOrder : Prop :=
  (∀ (c : Nat) (h : PtlHdr) (p : Bytes) (f : Bytes → State → State) (s : State),
    let r := s.retired c h
    let ch := r.chan c
    (h.seq = ch.expect → h.more = false → s.onPtl c h p f = f (s.whole c h p) (s.taken c h)) ∧
    (h.seq = ch.expect → h.more = true → s.onPtl c h p f =
      (r.setChan c { ch with expect := (ch.expect + 1) % 2 ^ 32, naked := false, joined := ch.joined ++ p }).ptlAnswer c 0x09) ∧
    (h.seq ≠ ch.expect → serialAfter 32 ch.expect h.seq = false → s.onPtl c h p f = r.ptlAnswer c 0x09) ∧
    (h.seq ≠ ch.expect → serialAfter 32 ch.expect h.seq = true → ch.naked = false →
      s.onPtl c h p f = (r.setChan c { ch with naked := true }).ptlAnswer c 0x0A) ∧
    (h.seq ≠ ch.expect → serialAfter 32 ch.expect h.seq = true → ch.naked = true → s.onPtl c h p f = r)) ∧
  (∀ (c ack : Nat) (s : State), let kept := (s.chan c).held.filter fun m => !seqLe m.seq ack
    (c ≠ 0 → s.ptlRetire c ack = s.setChan c { s.chan c with held := kept }) ∧
    (c = 0 → s.pair.leadPend = none → s.ctl.cfgWaits = [] → s.ptlRetire c ack = s.setChan c { s.chan c with held := kept }) ∧
    (∀ n q, c = 0 → s.pair.leadPend = some (n, q) → seqLe q ack = true → s.ctl.cfgWaits = [] →
      s.ptlRetire c ack = { s.setChan c { s.chan c with held := kept } with
        pair.lead := n, pair.leadPend := none })) ∧
  (∀ (c ack : Nat) (s : State),
    (2 < c → exec (.pairAckRx c ack) s = .next s ∧ exec (.pairNakRx c ack) s = .next s ∧ exec (.pairResendTimer c) s = .next s) ∧
    (c = 0 ∨ c = 2 → exec (.pairAckRx c ack) s = .next (s.ptlRetire c ack).payAll ∧
      exec (.pairNakRx c ack) s = .next ((s.ptlRetire c ack).ptlResend c ((s.ptlRetire c ack).chan c).held).payAll) ∧
    (c = 1 → exec (.pairAckRx c ack) s = .next (s.ptlRetire c ack).stageCheck ∧
      exec (.pairNakRx c ack) s = .next ((s.ptlRetire c ack).ptlResend c ((s.ptlRetire c ack).chan c).held).stageCheck) ∧
    (c ≤ 2 → s.pair.icl ≠ 0 → exec (.pairResendTimer c) s = .next (s.ptlResend c (s.chan c).held)) ∧
    (s.pair.icl = 0 → exec (.pairResendTimer c) s = .next s) ∧
    (c ≠ 1 → ∀ ms, s.ptlResend c ms = (s.bumpBy R.PAIR_RESEND_CNT ms.length).emits (ms.map (ptlOut s c))) ∧
    exec .pairReservedTypeRx s = .next (s.bump R.PAIR_DISCARD_CNT)) ∧
  (∀ (h : PtlHdr) (p : Bytes) (s : State), s.InOrder 1 h → ∀ t,
    ((s.taken 1 h).journalRow (s.taken 1 h).following (s.whole 1 h p)).bump R.PAIR_JOURNAL_RX_CNT = t →
    (t.pair.moves = [] → exec (.journalRx h p) s = .next t.stageCheck) ∧
    (t.pair.moves = [] → t.peerInService = false → exec (.journalRx h p) s = .next t)) ∧
  ∀ (h : PtlHdr) (p : Bytes) (s : State), s.InOrder 0 h → ∀ b, s.whole 0 h p = b → ∀ u, s.taken 0 h = u →
    (leAt (b.drop 10) 0 1 ≠ cfgPool ∨ u.pool.loaded = true → ∀ t, u.applyCfg (1 - u.role) (leAt b 2 8) (b.drop 10) = t →
      ((t.pool.loaded && cfgShared (b.drop 10)) = false → exec (.configRecordRx h p) s = .next t) ∧
      ((t.pool.loaded && cfgShared (b.drop 10)) = true → leAt (b.drop 10) 0 1 ≠ cfgGen →
        exec (.configRecordRx h p) s = .next (t.placeRec t.role 0x03 0 (b.drop 10))) ∧
      ((t.pool.loaded && cfgShared (b.drop 10)) = true → leAt (b.drop 10) 0 1 = cfgGen →
        ∀ v, t.setGen t.role t.own.jseq (leAt (b.drop 10) 1 1) = v → exec (.configRecordRx h p) s = .next (v.placeRec v.role 0x03 0 (b.drop 10)))) ∧
    (u.pair.transferKey = none → exec (.keyTransferRx h p) s = .next u) ∧
    (∀ k w, u.pair.transferKey = some k → Config.keyUnwrap k (b.drop 2) = some w →
      exec (.keyTransferRx h p) s = .next { u with
        keys.pwk := some w, keys.pwkStored := some (Config.keyWrap Config.deviceKey w) }) ∧
    (∀ k, u.pair.transferKey = some k → Config.keyUnwrap k (b.drop 2) = none → exec (.keyTransferRx h p) s = .next u) ∧
    exec (.leadSelectionRx h p) s = .next { u with pair.lead := leAt b 2 1 % 32 } ∧
    (leAt b 2 1 = 1 → exec (.sanitizeNoticeRx h p) s = .next { u.sanStart (leAt b 3 1) (leAt b 4 1 == 1) with hq.san.peer := true }) ∧
    (leAt b 2 1 = 2 → exec (.sanitizeNoticeRx h p) s = .next { u.sanClear with hq.san.state := .done, hq.san.peer := false, hq.san.prog := 65535 }) ∧
    (leAt b 2 1 = 3 → exec (.sanitizeNoticeRx h p) s = .next { u.sanClear with
      hq.san.state := .failed, hq.san.failMode := true, hq.san.peer := false, hq.san.prog := 65535 }) ∧
    (leAt b 2 1 = 4 → exec (.sanitizeNoticeRx h p) s = .next { u with hq.san.failMode := false })

/-- Planned moves (R381, R382, R385, R386): what MOVE_ANA_GROUP, SET_HOME_HEAD and LEAVE_PAIR refuse and start; the steps of the peer; a drained group gets its
move record, and a drain that takes too long gives the move up. The layout of the step message is the model's (log 20). -/
def Obligations.GroupsMoveBetweenTheHeads : Prop :=
  (∀ (n slot : Nat) (e : Entry) (s : State), s.CanRun 0x81 n slot e → let b := s.begun n slot e; let g := e.num 10 2
    (1 ≤ g → g ≤ 1024 → s.pair.state ≠ .fenced → s.ownsGroup g = false → exec (.moveAnaGroup n slot) s = .next (b.replied n slot e stNotOwner [] [])) ∧
    ((g = 0 ∨ 1024 < g) → exec (.moveAnaGroup n slot) s = .next (b.replied n slot e stInvalidField [] [])) ∧
    (1 ≤ g → g ≤ 1024 → e.zero 12 2 = true →
      (s.pair.state = .fenced → exec (.moveAnaGroup n slot) s = .next (b.replied n slot e 0x0C03 [] [])) ∧
      (s.pair.state ≠ .fenced → s.pair.state ≠ .paired → s.ownsGroup g = true → exec (.moveAnaGroup n slot) s = .next (b.replied n slot e 0x0C00 [] [])) ∧
      (s.pair.state = .paired → s.ownsGroup g = true → s.pairBusy = true → exec (.moveAnaGroup n slot) s = .next (b.replied n slot e 0x0C01 [] [])) ∧
      (s.pair.state = .paired → s.ownsGroup g = true → s.pairBusy = false →
        exec (.moveAnaGroup n slot) s = .next ((b.startMove g (some (packetRef n slot e)) false).inProgress n slot e)))) ∧
  (∀ (g : Nat) (pkt : Option PktRef) (back : Bool) (s : State), s.startMove g pkt back =
    ((s.putMove ⟨g, 1, true, pkt, (0, 0), back⟩).setChange g true).control 0x0007 (moveMsg g 1 back (0, 0))) ∧
  (∀ (n slot : Nat) (e : Entry) (s : State), s.CanRun 0x82 n slot e → let b := s.begun n slot e; let g := e.num 10 2
    ((g = 0 ∨ 1024 < g ∨ 1 < e.num 12 1) → exec (.setHomeHead n slot) s = .next (b.replied n slot e stInvalidField [] [])) ∧
    (1 ≤ g → g ≤ 1024 → e.num 12 1 ≤ 1 → e.zero 13 1 = true → s.pair.state = .fenced → exec (.setHomeHead n slot) s = .next (b.replied n slot e 0x0C03 [] [])) ∧
    (1 ≤ g → g ≤ 1024 → e.num 12 1 ≤ 1 → e.zero 13 1 = true → s.pair.state ≠ .fenced →
      let x := { s.group g with home := e.num 12 1 }
      exec (.setHomeHead n slot) s = .next (((b.putGroup x).placeCfg x.record).cfgEnded n slot e []))) ∧
  (∀ (n slot : Nat) (e : Entry) (s : State), s.CanRun 0x83 n slot e → let b := s.begun n slot e
    let gs := ((s.pool.volumes.map Volume.ana).eraseDups).filter s.ownsGroup
    (s.pair.state = .fenced → exec (.leavePair n slot) s = .next (b.replied n slot e 0x0C03 [] [])) ∧
    (s.pair.state ≠ .fenced → s.pair.state ≠ .paired → exec (.leavePair n slot) s = .next (b.replied n slot e 0x0C00 [] [])) ∧
    (s.pair.state = .paired → s.pairBusy = true → exec (.leavePair n slot) s = .next (b.replied n slot e 0x0C01 [] [])) ∧
    (s.pair.state = .paired → s.pairBusy = false → gs = [] → exec (.leavePair n slot) s = .next ((b.leave.inProgress n slot e).replied n slot e stOk [] [])) ∧
    (∀ g, s.pair.state = .paired → s.pairBusy = false → gs = [g] → exec (.leavePair n slot) s = .next
      ((State.startMove { b with pair.leaving := some (packetRef n slot e) } g none false).inProgress n slot e))) ∧
  (∀ (g : Nat) (m : Move) (s : State), s.move? g = some m →
    (m.out = true → m.step = 1 → s.groupDrained g = true → exec (.moveDrainDone g) s = .next (s.moveRecord m)) ∧
    ((m.out = false ∨ m.step ≠ 1 ∨ s.groupDrained g = false) → exec (.moveDrainDone g) s = .next s) ∧
    (m.out = true → m.step = 1 → s.pair.leaving = none → ∀ t, ((s.dropMove g).setChange g false).control 0x0007 (moveMsg g 0 m.back (0, 0)) = t →
      t.pair.leaving = none → (m.pkt = none → exec (.moveTimeout g) s = .next t) ∧
      (∀ p, m.pkt = some p → exec (.moveTimeout g) s = .next (t.finish p 0x0C04 [] []))) ∧
    ((m.out = false ∨ m.step ≠ 1) → exec (.moveTimeout g) s = .next s)) ∧
  (∀ (g : Nat) (s : State), s.move? g = none → exec (.moveDrainDone g) s = .next s ∧ exec (.moveTimeout g) s = .next s) ∧
  ∀ (h : PtlHdr) (p : Bytes) (s : State), s.InOrder 0 h → ∀ b, s.whole 0 h p = b → ∀ u, s.taken 0 h = u → let g := leAt b 2 2
    (leAt b 4 1 = 0 → exec (.groupMoveStepRx h p) s = .next ((u.dropMove g).setChange g false)) ∧
    (leAt b 4 1 = 1 → exec (.groupMoveStepRx h p) s = .next ((u.putMove ⟨g, 1, false, none, (0, 0), leAt b 5 1 == 1⟩).setChange g true)) ∧
    (leAt b 4 1 = 3 → exec (.groupMoveStepRx h p) s = .next (u.putMove ⟨g, 3, false, none, (leAt b 6 8, leAt b 14 2), leAt b 5 1 == 1⟩).adoptCheck) ∧
    (∀ m, leAt b 4 1 = 4 → u.move? g = some m → m.out = true → exec (.groupMoveStepRx h p) s = .next (u.moveDone m)) ∧
    (leAt b 4 1 = 4 → u.move? g = none → exec (.groupMoveStepRx h p) s = .next u)

/-- The way back into the pair (R384, R386) and GET_PAIR_STATUS, which changes nothing. A head that already serves answers OK (model's, log 50); the peer's firmware
in the status is that of its HELLO (model's, log 51); the rows stand for what media hold (log 47). -/
def Obligations.AReturningHeadRejoins : Prop :=
  (∀ (n slot : Nat) (e : Entry) (s : State), s.CanRun 0x84 n slot e → let b := s.begun n slot e
    (s.pairBusy = true → exec (.rejoinPair n slot) s = .next (b.replied n slot e 0x0C01 [] [])) ∧
    (s.pairBusy = false → s.pair.refuse ≠ 0 → exec (.rejoinPair n slot) s = .next (b.replied n slot e 0x0C02 (leBytes 4 s.pair.refuse) [])) ∧
    (s.pairBusy = false → s.pair.refuse = 0 →
      ((s.pair.state = .paired ∨ s.pair.state = .solo) → exec (.rejoinPair n slot) s = .next ((b.inProgress n slot e).replied n slot e stOk [] [])) ∧
      (s.pair.state = .fenced → s.pair.hello.isSome = true → s.peerSolo = true → s.keys.erased = false → exec (.rejoinPair n slot) s = .next
        (State.inProgress { b.startRejoin with pair.rejoin := some (packetRef n slot e) } n slot e)) ∧
      (s.pair.state = .fenced → s.peerSolo = false → exec (.rejoinPair n slot) s = .next
        (State.inProgress { b with pair.rejoin := some (packetRef n slot e), pair.autoRejoin := true, pair.waitSolo := false } n slot e)))) ∧
  (∀ (n slot : Nat) (e : Entry) (s : State), s.CanRun 0x80 n slot e →
    (∀ h, s.pair.lastHello = some h → exec (.getPairStatus n slot) s = .next ((s.begun n slot e).replied n slot e stOk
      (leBytes 1 s.pair.state.code ++ leBytes 1 s.pair.peerState ++ leBytes 1 s.pair.icl ++ leBytes 1 s.pair.lead ++ leBytes 1 h.fwMajor ++ leBytes 1 0 ++
        leBytes 2 h.fwMinor ++ leBytes 8 (s.pair.peerDurable - (s.journal (1 - s.role)).tip)) [])) ∧
    (s.pair.lastHello = none → exec (.getPairStatus n slot) s = .next ((s.begun n slot e).replied n slot e stOk
      (leBytes 1 s.pair.state.code ++ leBytes 1 s.pair.peerState ++ leBytes 1 s.pair.icl ++ leBytes 1 s.pair.lead ++ leBytes 1 0 ++ leBytes 1 0 ++
        leBytes 2 0 ++ leBytes 8 (s.pair.peerDurable - (s.journal (1 - s.role)).tip)) []))) ∧
  ∀ (rows : List Bytes) (s : State),
    (s.pair.state = .solo → s.pair.rejoinStep = 1 → s.pair.peerShadow < s.own.durable → exec (.rejoinSyncDone rows) s = .next s) ∧
    (s.pair.state = .solo → s.pair.rejoinStep = 1 → s.own.durable ≤ s.pair.peerShadow → ∀ t : State, { s with pair.rejoinStep := 2 } = t →
      exec (.rejoinSyncDone rows) s = .next (t.ownPorts.foldl (fun (u : State) n => u.issue n 0xFFFF 0x06 0 (reserveParams 3 0 0) [] .release) t)) ∧
    (s.pair.state = .sync → s.pair.rejoinStep = 1 → ∀ t : State, rows.foldl (fun (u : State) b => u.journalRow true b) s = t →
      ((t.journal (1 - t.role)).tip < t.pair.peerDurable → exec (.rejoinSyncDone rows) s = .next t) ∧
      (t.pair.peerDurable ≤ (t.journal (1 - t.role)).tip →
        exec (.rejoinSyncDone rows) s = .next (t.ownPorts.foldl State.askReserve { t with pair.rejoinStep := 2 }))) ∧
    (s.pair.state ≠ .solo → s.pair.state ≠ .sync → exec (.rejoinSyncDone rows) s = .next s)

/-- Firmware and identity (R493, R496, R497, R499): FW_DOWNLOAD, FW_ACTIVATE and FW_COMMIT refuse in this order and otherwise write the slot and its record; a
recovery image runs only in stage 8 and only if it verifies; GET_IDENTITY and FW_STATUS change nothing. Slot and code choices: the model's (log 67). -/
def Obligations.FirmwareIsDownloadedActivatedAndCommitted : Prop :=
  (∀ (n slot : Nat) (e : Entry) (s : State),
    (s.CanRun 0x00 n slot e → exec (.getIdentity n slot) s = .next ((s.begun n slot e).replied n slot e stOk
      (leBytes 4 (s.view R.TOP_DEVICE_ID) ++ leBytes 4 s.boot.fwVer ++ leBytes 4 (s.view R.TOP_HEAD_INFO))
      (slice (s.calRow.getD []) 0x40 256 ++ slice (s.calRow.getD []) 0x140 2048 ++ slice s.boot.platformId 0 64))) ∧
    (s.CanRun 0x02 n slot e → (e.num 10 1 ≠ 0 → exec (.resetHead n slot) s = .next ((s.begun n slot e).replied n slot e stInvalidField [] [])) ∧
      (e.num 10 1 = 0 → e.zero 11 3 = true → exec (.resetHead n slot) s = .next (((s.begun n slot e).askReset 3).replied n slot e stOk [] []))) ∧
    (s.CanRun 0xC3 n slot e → exec (.fwStatus n slot) s = .next ((s.begun n slot e).replied n slot e stOk
      (leBytes 1 s.boot.slot ++ leBytes 1 s.boot.slots.stA ++ leBytes 1 s.boot.slots.stB ++ leBytes 1 s.boot.slots.tries ++ leBytes 4 s.boot.slots.verA ++
        leBytes 4 s.boot.slots.verB ++ leBytes 4 s.boot.dlNext) []))) ∧
  (∀ (n slot : Nat) (data : Bytes) (e : Entry) (s : State), s.CanRun 0xC0 n slot e →
    let b := s.begun n slot e; let off := e.num 10 4; let len := e.num 14 4; let i := s.targetSlot; let d := slice data 0 len
    let total := leAt (if off = 0 then d else s.slotHeader i) 16 4 + 4096
    ((len < 4096 ∨ 16777216 < len ∨ (len % 4096 ≠ 0 ∧ off + len ≠ total)) →
      exec (.fwDownload n slot data) s = .next (b.replied n slot e stInvalidField [] [])) ∧
    (4096 ≤ len → len ≤ 16777216 → (len % 4096 = 0 ∨ off + len = total) →
      (s.boot.slots.st i = 4 → exec (.fwDownload n slot data) s = .next (b.replied n slot e 0x0F00 [] [])) ∧
      (s.boot.slots.st i ≠ 4 → off ≠ 0 → (s.boot.dlActive = false ∨ off ≠ s.boot.dlNext) →
        exec (.fwDownload n slot data) s = .next (b.replied n slot e 0x0F01 [] [])) ∧
      (s.boot.slots.st i ≠ 4 → (off = 0 ∨ s.boot.dlActive = true ∧ off = s.boot.dlNext) → 0x20000000 < off + len →
        exec (.fwDownload n slot data) s = .next (b.replied n slot e 0x0F02 [] [])) ∧
      (s.boot.slots.st i ≠ 4 → off = 0 → s.bankBusy (bankOf (slotBase i)) = false → len < total → ∀ w t : State,
        (b.emit (.hostRead (e.num 18 8) len)).commitRec (s.boot.slots.setSt i 1) = w →
        (List.range (ceilDiv len 4096)).foldl (fun (u : State) k => u.slotPage ((slotBase i + off) / 4096 + k) ((d.drop (4096 * k)).take 4096)) w = t →
        exec (.fwDownload n slot data) s = .next ((State.inProgress { t with
          boot.dlNext := off + len
          boot.dlActive := true } n slot e).replied n slot e stOk [] [])))) ∧
  (∀ (n slot : Nat) (c : SlotCheck) (e : Entry) (s : State), s.CanRun 0xC1 n slot e → e.num 10 1 ≤ 1 → e.zero 11 3 = true →
    let b := s.begun n slot e; let i := s.targetSlot; let h := s.slotHeader i
    ∀ code, s.imageCode h (fun k => s.sflBytes (slotBase i + 4096) k) c = code →
    (s.boot.slots.st i = 4 → exec (.fwActivate n slot c) s = .next (b.replied n slot e 0x0F00 [] [])) ∧
    (s.boot.slots.st i ≠ 4 → code ≠ 0 → code ≠ 6 → exec (.fwActivate n slot c) s = .next (b.replied n slot e 0x0F03 (leBytes 4 code) [])) ∧
    (s.boot.slots.st i ≠ 4 → code = 6 → exec (.fwActivate n slot c) s = .next (b.replied n slot e 0x0F04 [] [])) ∧
    (s.boot.slots.st i ≠ 4 → code = 0 → leAt h 9 1 ≠ 4 → exec (.fwActivate n slot c) s = .next (b.replied n slot e 0x0F04 [] [])) ∧
    (∀ p, s.boot.slots.st i ≠ 4 → code = 0 → leAt h 9 1 = 4 → s.pair.state = .paired → s.pair.hello = some p → p.fwMajor ≠ 4 →
      exec (.fwActivate n slot c) s = .next (b.replied n slot e 0x0F05 [] [])) ∧
    (s.boot.slots.st i ≠ 4 → code = 0 → leAt h 9 1 = 4 → s.pair.state ≠ .paired → ∀ t, b.commitRec { s.boot.slots.setSt i 3 with
      tries := 1, pref := i } = t →
      exec (.fwActivate n slot c) s = .next ((if e.num 10 1 = 1 then t.askReset 5 else t).replied n slot e stOk [] []))) ∧
  (∀ (n slot : Nat) (e : Entry) (s : State), s.CanRun 0xC2 n slot e → let b := s.begun n slot e; let i := s.boot.slot % 2
    (s.boot.trial = false → exec (.fwCommit n slot) s = .next (b.replied n slot e 0x0F06 [] [])) ∧
    (s.boot.trial = true → ∀ t, b.commitRec ((s.boot.slots.setSt i 4).setSt (1 - i) 5) = t → exec (.fwCommit n slot) s =
      .next ((State.eraseSlotFlash { t with
        boot.trial := false
        boot.svn := Nat.max t.boot.svn (leAt (t.slotHeader i) 13 1) } (1 - i)).replied n slot e stOk [] []))) ∧
  ∀ (image : Bytes) (c : SlotCheck) (s : State),
    (s.boot.stage ≠ 8 → exec (.recoveryGo image c) s = .next s) ∧
    (s.boot.stage = 8 → ∀ n, (s.rd R.BOOT_RCV_LEN).toNat = n → ∀ t, s.emit (.hostRead (s.rd R.BOOT_RCV_ADDR).toNat n) = t →
      let im := slice image 0 n; let h := slice im 0 4096
      leAt h 16 4 + 4096 ≤ n → ∀ code, t.imageCode h (fun k => slice im 4096 k) c = code →
      (code ≠ 0 → exec (.recoveryGo image c) s = .next { t with boot.failA := code }) ∧
      (code = 0 → exec (.recoveryGo image c) s = .next (State.runImage { t with
        boot.failA := 0, boot.recovery := true, boot.trial := false } h false)))

/-- Field access (R500, R501, R502): provisioning, the challenge, what an unlock checks and in which order (the order is the model's, log 68), what a failure
counts and a success opens, and every end of a session or of a nonce. -/
def Obligations.FieldAccessIsCheckedAndEnds : Prop :=
  (∀ (n slot : Nat) (e : Entry) (s : State), s.CanRun 0xE0 n slot e → let nonce := (List.range 32).map (Config.drbg s.free)
    exec (.fieldChallenge n slot) s = .next (State.replied { s.begun n slot e with
      free := s.free + 1, boot.nonce := some nonce } n slot e stOk [] (nonce ++ uniqueBytes))) ∧
  (∀ (n slot : Nat) (e : Entry) (s : State), s.CanRun 0xE1 n slot e → let b := s.begun n slot e; let m := e.num 10 1; let sc := e.num 11 1
    ((m < 1 ∨ 2 < m ∨ 7 < sc) → exec (.fieldUnlock n slot) s = .next (b.replied n slot e stInvalidField [] [])) ∧
    (sc ≤ 7 → e.zero 12 2 = true → (m = 1 ∨ m = 2) →
      (s.boot.sessionOpen = true → exec (.fieldUnlock n slot) s = .next (b.replied n slot e 0x0F0B [] [])) ∧
      (s.boot.sessionOpen = false → (if m = 1 then s.boot.pwd else s.boot.fkey) = none →
        exec (.fieldUnlock n slot) s = .next (b.replied n slot e 0x0F09 [] [])) ∧
      (∀ k, s.boot.sessionOpen = false → (if m = 1 then s.boot.pwd else s.boot.fkey) = some k → 0 < s.lockLeft →
        exec (.fieldUnlock n slot) s = .next (b.replied n slot e 0x0F08 (leBytes 4 s.lockLeft) [])) ∧
      (∀ k, s.boot.sessionOpen = false → m = 2 → s.boot.fkey = some k → s.lockLeft = 0 → s.boot.nonce = none →
        exec (.fieldUnlock n slot) s = .next (b.replied n slot e 0x0F07 [] [])) ∧
      (∀ k, s.boot.sessionOpen = false → m = 1 → s.boot.pwd = some k → s.lockLeft = 0 →
        ((Config.sha2 2 (e.sub 14 32) == k) = false → exec (.fieldUnlock n slot) s = .next ((((State.setFails { b with
          boot.lastFail := s.tide.time } (Nat.min 0xFFFFFFFF (s.boot.fails + 1))).bump R.BOOT_AUTH_FAIL_CNT).sessionEvent stAuthFailed).replied n slot e stAuthFailed [] [])) ∧
        ((Config.sha2 2 (e.sub 14 32) == k) = true → sc.testBit 2 = false → exec (.fieldUnlock n slot) s = .next ((State.sessionEvent { b.setFails 0 with
          boot.sessionOpen := true, boot.scope := sc } stOk).replied n slot e stOk [] [])) ∧
        ((Config.sha2 2 (e.sub 14 32) == k) = true → sc.testBit 2 = true → ∀ t u : State, b.setFails 0 = t →
          State.raiseAlarm { t with keys.asserted := putBits t.keys.asserted 4 4 1 } 4 true = u →
          exec (.fieldUnlock n slot) s = .next ((State.sessionEvent { u with
            boot.sessionOpen := true, boot.scope := sc } stOk).replied n slot e stOk [] []))) ∧
      (∀ k nc, s.boot.sessionOpen = false → m = 2 → s.boot.fkey = some k → s.lockLeft = 0 → s.boot.nonce = some nc →
        (hmac256 k (nc ++ uniqueBytes ++ leBytes 1 sc) == e.sub 14 32) = true → sc.testBit 2 = false →
        exec (.fieldUnlock n slot) s = .next ((State.sessionEvent { State.setFails { b with boot.nonce := none } 0 with
          boot.sessionOpen := true, boot.scope := sc } stOk).replied n slot e stOk [] [])))) ∧
  (∀ (n slot : Nat) (e : Entry) (s : State),
    (s.CanRun 0xE2 n slot e → exec (.fieldLock n slot) s = .next ((s.begun n slot e).endSession.replied n slot e stOk [] [])) ∧
    (s.CanRun 0xE3 n slot e → e.zero 11 1 = true → (e.num 10 1 = 1 ∨ e.num 10 1 = 2) →
      ((if e.num 10 1 = 1 then s.boot.pwd else s.boot.fkey).isSome = true →
        exec (.fieldProvision n slot) s = .next ((s.begun n slot e).replied n slot e 0x0F0A [] [])) ∧
      (e.num 10 1 = 1 → s.boot.pwd = none → exec (.fieldProvision n slot) s = .next (State.replied { s.begun n slot e with
        boot.pwd := some (Config.sha2 2 (e.sub 12 32)) } n slot e stOk [] [])) ∧
      (e.num 10 1 = 2 → s.boot.fkey = none → exec (.fieldProvision n slot) s = .next (State.replied { s.begun n slot e with
        boot.fkey := some (e.sub 12 32) } n slot e stOk [] [])))) ∧
  (∀ s : State, exec .fieldSessionExpiry s = .next s.endSession ∧ exec .nonceExpiry s = .next { s with boot.nonce := none } ∧
    (s.boot.sessionOpen = false → s.endSession = s) ∧
    (s.boot.sessionOpen = true → s.endSession = { s with
      boot.sessionOpen := false, boot.scope := 0, keys.asserted := putBits s.keys.asserted 4 4 0 })) ∧
  (∀ n : Nat, lockMinutes n = if n < 3 then 0 else Nat.min (2 ^ (n - 3)) 1024)

/-- Power domains (R505, R506, R517): which domains refuse, when switching off is BUSY, what switching on waits for, and what READY ends. GET_POWER_STATUS and
GET_CABLES change nothing. Engines' last clusters and units that go out: the model's readings (log 58). -/
def Obligations.PowerDomainsAreSwitched : Prop :=
  (∀ (n slot : Nat) (e : Entry) (s : State), s.CanRun 0xA3 n slot e → let b := s.begun n slot e; let d := unitIndex e.target
    ((1 < e.num 10 1 ∨ d ≤ 1 ∨ (89 ≤ d ∧ d ≤ 94)) → exec (.setPowerDomain n slot) s = .next (b.replied n slot e stInvalidField [] [])) ∧
    (e.num 10 1 ≤ 1 → e.zero 11 3 = true → 2 ≤ d → (d < 89 ∨ 94 < d) →
      (s.pwr.waiting.any (fun w => w.1 == d) = true → exec (.setPowerDomain n slot) s = .next (b.replied n slot e stBusy [] [])) ∧
      (s.pwr.waiting.any (fun w => w.1 == d) = false →
        (e.num 10 1 = 1 → s.pwr.off.contains d = false → exec (.setPowerDomain n slot) s = .next (b.replied n slot e stOk [] [])) ∧
        (e.num 10 1 = 1 → s.pwr.off.contains d = true → ∀ c, (b.bump R.PWR_SWITCH_CNT).clearCopies d = c →
          exec (.setPowerDomain n slot) s = .next { c with
            pwr.off := c.pwr.off.filter (· != d), pwr.notReady := c.pwr.notReady ++ [d], pwr.waiting := c.pwr.waiting ++ [(d, packetRef n slot e)] }) ∧
        (e.num 10 1 = 0 → s.pwr.off.contains d = true → exec (.setPowerDomain n slot) s = .next (b.replied n slot e stOk [] [])) ∧
        (e.num 10 1 = 0 → s.pwr.off.contains d = false → (s.domainBooked d = true ∨ s.domainLast d = true ∨ (d = 2 ∧ s.pair.state = .paired)) →
          exec (.setPowerDomain n slot) s = .next (b.replied n slot e stBusy [] [])) ∧
        (e.num 10 1 = 0 → s.pwr.off.contains d = false → s.domainBooked d = false → s.domainLast d = false → (d = 2 → s.pair.state ≠ .paired) →
          (∀ st, b.domainOut d = .error st → exec (.setPowerDomain n slot) s = .next (b.replied n slot e st [] [])) ∧
          (∀ t : State, b.domainOut d = .ok t → exec (.setPowerDomain n slot) s = .next ((State.afterUnits (State.bump { t with
            pwr.off := t.pwr.off ++ [d] } R.PWR_SWITCH_CNT)).replied n slot e stOk [] [])))))) ∧
  (∀ (d : Nat) (s : State),
    (3 ≤ d → d ≤ 18 → s.domainOut d = .ok ((s.ethOff (d - 3)).setUnitState (unitId 1 (d - 3)) .offline 0)) ∧
    (s.domainOut 2 = .ok (s.iclDown.setUnitState iclUnit .offline 0)) ∧
    (51 ≤ d → d ≤ 62 → s.domainOut d = .ok { s.llcLeave (fun _ => true) with
      mem.rehash := true
      mem.slices := s.mem.slices.filter (fun (x : LlcSlice) => x.idx / 4 != d - 51) }) ∧
    (63 ≤ d → d ≤ 88 → s.domainOut d = .ok (s.leaveCluster (d - 63)))) ∧
  (∀ (d : Nat) (s : State),
    (s.pwr.notReady.contains d = false → exec (.powerDomainReady d) s = .next s) ∧
    (s.pwr.notReady.contains d = true → ∀ t u : State, s.domainRegs d = t → State.domainIn { t with
      pwr.notReady := t.pwr.notReady.filter (· != d) } d = u →
      (u.pwr.waiting = [] → exec (.powerDomainReady d) s = .next u) ∧
      (∀ p, u.pwr.waiting = [(d, p)] → exec (.powerDomainReady d) s = .next (State.finish { u with pwr.waiting := [] } p stOk [] [])))) ∧
  ∀ (n slot : Nat) (e : Entry) (s : State),
    (s.CanRun 0xA4 n slot e → exec (.getPowerStatus n slot) s = .next ((s.begun n slot e).replied n slot e stOk [] (s.begun n slot e).powerStatus)) ∧
    (s.CanRun 0xA5 n slot e → exec (.getCables n slot) s = .next ((s.begun n slot e).replied n slot e stOk [] ((List.range 17).flatMap s.cableEntry)))

/-- Monitors (R307, R308, R511 to R515): a rail's and a sensor's levels set and clear as the tables say; a critical condition stops the head; PFAIL_N and the end of
the dump; a reference clock that is lost takes its ports, link or reference down; the minute counts of the health record. -/
def Obligations.MonitorsStopTheHeadAndPowerFailDumps : Prop :=
  (∀ (vs : List Nat) (power : Nat) (s t : State), { s with
      pwr.rails := (List.range 9).map fun r => vs.getD r 0 % 65536, pwr.totalMw := power % 2 ^ 32 } = t →
    ∀ u : State, (List.range 9).foldl (fun (x : State) r => x.railStep r (x.pwr.rails.getD r 0)) t = u →
    exec (.railSample vs power) s = .next (u.eraseSource 0 (u.pwr.railMon.any RailMon.erase))) ∧
  (∀ (on calmNow : Bool) (calm : Nat),
    levelStep on true calmNow calm = (true, 0) ∧ levelStep false false calmNow calm = (false, 0) ∧ levelStep true false false calm = (true, 0) ∧
    (999 ≤ calm → levelStep true false true calm = (false, 0)) ∧ (calm < 999 → levelStep true false true calm = (true, calm + 1))) ∧
  (∀ (on : Bool) (t thr : Int), (thr ≤ t → tempLevel on t thr = true) ∧ (t < thr → tempLevel false t thr = false) ∧
    (t ≤ thr - 20 → tempLevel on t thr = false) ∧ (thr - 20 < t → tempLevel true t thr = true)) ∧
  (∀ (vs : List Int) (s : State), let ts := (List.range 64).map fun i => vs.getD i 0
    ∀ u : State, (List.range 64).foldl (fun (x : State) i => x.tempStep i (ts.getD i 0)) { s with
      pwr.temps := ts
      ftl.health.tempMax := if s.ftl.health.tempSeen then max s.ftl.health.tempMax (ts.foldl max (ts.headD 0) / 4) else ts.foldl max (ts.headD 0) / 4
      ftl.health.tempMin := if s.ftl.health.tempSeen then min s.ftl.health.tempMin (ts.foldl min (ts.headD 0) / 4) else ts.foldl min (ts.headD 0) / 4
      ftl.health.tempSeen := true } = u → ∀ thr, u.pwr.tempMon.any TempMon.thr = thr →
    (u.pwr.tempMon.any TempMon.warn = true → exec (.tempSample vs) s = .next (State.eraseSource { (if thr && !u.pwr.throttle then u.bump R.PWR_THROTTLE_CNT else u) with
      pwr.throttle := thr } 2 (u.pwr.tempMon.any TempMon.erase))) ∧
    (u.pwr.tempMon.any TempMon.warn = false → thr = false → exec (.tempSample vs) s = .next (State.eraseSource (State.warnOff { u with
      pwr.throttle := false } 1) 2 (u.pwr.tempMon.any TempMon.erase)))) ∧
  (∀ (src : Nat) (s : State), s.eraseSource src false = { s with keys.asserted := putBits s.keys.asserted src src 0 } ∧
    (s.keys.asserted.testBit src = true → s.eraseSource src true = s) ∧
    (s.keys.asserted.testBit src = false → s.eraseSource src true = State.raiseAlarm { s with
      keys.asserted := putBits s.keys.asserted src src 1 } src false)) ∧
  (∀ s : State, let u := s.bump R.PWR_PFAIL_CNT
    (s.pwr.pfail = true → exec .pfailAssert s = .next u) ∧
    (s.pwr.pfail = false → exec .pfailAssert s =
      .next (((State.thaw (State.startDump (State.endSession { u with pwr.pfail := true }))).flushStart).saveHealth).dumpCheck) ∧
    (∀ d, s.brn.dumpRun = some d → s.pwr.dumping = true → s.evr.flushing = false → s.pwr.dumpDone = false →
      (s.pwr.pfail = true ∨ s.pwr.holding = true) →
      exec .dumpComplete s = .next (State.emit { (s.emit (.dumpWrite 0 none d.header)).emit (.dumpWrite 1 none d.header) with
        pwr.dumping := false, pwr.dumpDone := true, brn.dump := some d, brn.dumpRun := none, brn.dumped := true
        brn.dumpEpoch := leAt d.header 48 8 } (.pin .dumpDone true))) ∧
    (s.pwr.dumping = false → (s.pwr.pfail = false ∧ s.pwr.holding = false ∨ s.pwr.dumpDone = true) → exec .dumpComplete s = .next s)) ∧
  (∀ (clock : Nat) (s : State),
    (11 < clock → ∀ holds, exec (.refclkLoss clock holds) s = .next s) ∧
    (clock ≤ 11 → s.pwr.clockLost.contains clock = true → exec (.refclkLoss clock true) s = .next s) ∧
    (clock ≤ 11 → s.pwr.clockLost.contains clock = false → exec (.refclkLoss clock true) s = .next (State.clockDown { s with
      pwr.clockLost := s.pwr.clockLost ++ [clock] } clock)) ∧
    (1 ≤ clock → clock ≤ 11 → exec (.refclkLoss clock false) s = .next { s with pwr.clockLost := s.pwr.clockLost.filter (· != clock) }) ∧
    s.clockDown 0 = s.eraseSource 1 true ∧ s.clockDown 5 = s.setUnitState (unitId 1 0x30) .failed 6 ∧ s.clockDown 6 = s.iclDown ∧
    s.clockDown 11 = s.referenceLost 2 ∧
    (1 ≤ clock → clock ≤ 4 → s.clockDown clock = ((List.range 4).map fun i => 4 * (clock - 1) + i).foldl State.ethOff s) ∧
    (7 ≤ clock → clock ≤ 10 → s.clockDown clock =
      (((List.range 8).map fun i => 8 * (clock - 7) + i).foldl (fun (x : State) n => rowMediaPortDown n x) s).afterUnits)) ∧
  (∀ (cause : Nat) (s : State), (s.pwr.critical = true → s.critical cause = s) ∧
    (s.pwr.critical = false → s.admitted = [] → s.hq.cmds = [] → s.peerInService = true →
      s.critical cause = State.anaChanged { State.sendLeave { s with free := s.free + 1, pwr.critical := true } cause with
        pair.state := PairSt.down })) ∧
  ∀ (s : State) (t : Int), s.hottest s.pwr.temps = t → let h := s.ftl.health; let k := Nat.min 63 ((t + 80) / 8).toNat
    exec .tempBinTick s = .next { s with
      ftl.health.tempBins := h.tempBins.set k (h.tempBins.getD k 0 + 1)
      ftl.health.warnMin := h.warnMin + b2n (decide (toKelvin t > 373))
      ftl.health.critMin := h.critMin + b2n (decide (toKelvin t > 383))
      ftl.health.busyMin := h.busyMin + b2n (h.ioSeen || !s.hq.cmds.isEmpty)
      ftl.health.ioSeen := false
      ftl.health.powerMin := h.powerMin + 1 }

end
end

