-- ==== Sys2Proof/Laws/Follows.lean ====
section
/-! SUPPORT. Small laws of the register store, the byte memories and the relation between a state and the state after a command. -/
namespace Sys2Proof.Machine

/-! ### The register store -/

theorem regsWfFrom_weaken {st : RegStore} {lo lo' : Nat} (h : regsWfFrom lo st = true) (hl : lo' ≤ lo) : regsWfFrom lo' st = true := by
  cases st with
  | nil => rfl
  | cons p t =>
    simp only [regsWfFrom, Bool.and_eq_true, decide_eq_true_eq] at h ⊢
    exact ⟨Nat.le_trans hl h.1, h.2⟩

/-- A write keeps the canonical form. -/
theorem regsWfFrom_put {st : RegStore} {lo : Nat} {r : Reg} {v : DWord} (h : regsWfFrom lo st = true) (hl : lo ≤ r.addr) :
    regsWfFrom lo (st.put r v) = true := by
  induction st generalizing lo with
  | nil =>
    unfold RegStore.put
    split
    · rfl
    · simp [regsWfFrom, hl]
  | cons p t ih =>
    obtain ⟨b, w⟩ := p
    simp only [regsWfFrom, Bool.and_eq_true, decide_eq_true_eq] at h
    unfold RegStore.put
    split
    · split
      · simp [regsWfFrom, h]
      · simp only [regsWfFrom, Bool.and_eq_true, decide_eq_true_eq]
        exact ⟨hl, by omega, h.2⟩
    · split
      · split
        · exact regsWfFrom_weaken h.2 (by omega)
        · simp only [regsWfFrom, Bool.and_eq_true, decide_eq_true_eq]
          exact ⟨hl, by simp [*]⟩
      · simp only [regsWfFrom, Bool.and_eq_true, decide_eq_true_eq]
        exact ⟨h.1, ih h.2 (by omega)⟩

/-- Taking entries out keeps the canonical form. -/
theorem regsWfFrom_filter {st : RegStore} {lo : Nat} {p : Nat × DWord → Bool} (h : regsWfFrom lo st = true) :
    regsWfFrom lo (st.filter p) = true := by
  induction st generalizing lo with
  | nil => rfl
  | cons q t ih =>
    simp only [regsWfFrom, Bool.and_eq_true, decide_eq_true_eq] at h
    rw [List.filter_cons]
    split
    · simp only [regsWfFrom, Bool.and_eq_true, decide_eq_true_eq]
      exact ⟨h.1, ih h.2⟩
    · exact ih (regsWfFrom_weaken h.2 (by omega))

/-- An entry of a canonical store lies at or above its bound. -/
theorem regsWfFrom_find {st : RegStore} {lo a : Nat} (h : regsWfFrom lo st = true) (ha : a < lo) :
    st.find? (fun p => p.1 == a) = none := by
  induction st generalizing lo with
  | nil => rfl
  | cons p t ih =>
    simp only [regsWfFrom, Bool.and_eq_true, decide_eq_true_eq] at h
    have hne : (p.1 == a) = false := by simp; omega
    rw [List.find?_cons, hne]
    exact ih h.2 (by omega)

/-- A register reads as what was written last. -/
theorem RegStore.get_put_same {st : RegStore} {lo : Nat} (r : Reg) (v : DWord) (h : regsWfFrom lo st = true) :
    (st.put r v).get r = v := by
  induction st generalizing lo with
  | nil => unfold RegStore.put; split <;> simp_all [RegStore.get]
  | cons p t ih =>
    obtain ⟨b, w⟩ := p
    simp only [regsWfFrom, Bool.and_eq_true, decide_eq_true_eq] at h
    have hput := ih h.2
    unfold RegStore.put
    by_cases h1 : r.addr < b
    · have hn : ((b, w) :: t).find? (fun p => p.1 == r.addr) = none :=
        regsWfFrom_find (lo := b) (by simp [regsWfFrom, h.2]) h1
      by_cases hv : v = r.reset
      · rw [if_pos h1, if_pos hv]
        unfold RegStore.get
        rw [hn, hv]
      · simp [h1, hv, RegStore.get]
    · by_cases h2 : r.addr = b
      · by_cases hv : v = r.reset
        · have hn := regsWfFrom_find (a := r.addr) h.2 (by omega)
          rw [if_neg h1, if_pos h2, if_pos hv]
          unfold RegStore.get
          rw [hn, hv]
        · rw [if_neg h1, if_pos h2, if_neg hv]
          simp [RegStore.get]
      · have hne : (b == r.addr) = false := by simp; omega
        simp only [h1, h2, if_false]
        unfold RegStore.get at hput ⊢
        rw [List.find?_cons, hne]
        exact hput

/-- A write leaves every register at another offset alone. -/
theorem RegStore.get_put_other (st : RegStore) (r q : Reg) (v : DWord) (h : q.addr ≠ r.addr) : (st.put r v).get q = st.get q := by
  induction st with
  | nil => unfold RegStore.put; split <;> simp [RegStore.get, Ne.symm h]
  | cons p t ih =>
    obtain ⟨b, w⟩ := p
    unfold RegStore.put
    have hne : (r.addr == q.addr) = false := by simp; omega
    split
    · split
      · rfl
      · unfold RegStore.get; rw [List.find?_cons, hne]
    · split
      · rename_i hb
        have hb' : (b == q.addr) = false := by simp; omega
        split
        · unfold RegStore.get; rw [List.find?_cons, hb']
        · unfold RegStore.get; rw [List.find?_cons, hne, List.find?_cons, hb']
      · unfold RegStore.get at ih ⊢
        rw [List.find?_cons, List.find?_cons]
        cases hb : (b == q.addr) with
        | true => rfl
        | false => exact ih

/-! ### Byte memories -/

theorem memWfFrom_weaken {d : Byte} {m : List Host.Cell} {lo lo' : Nat} (h : memWfFrom d lo m = true) (hl : lo' ≤ lo) :
    memWfFrom d lo' m = true := by
  cases m with
  | nil => rfl
  | cons p t =>
    simp only [memWfFrom, Bool.and_eq_true, decide_eq_true_eq] at h ⊢
    exact ⟨⟨Nat.le_trans hl h.1.1, h.1.2⟩, h.2⟩

/-- A write of one byte keeps the canonical form. -/
theorem memWfFrom_write {d : Byte} {m : List Host.Cell} {lo a : Nat} {v : Byte} (h : memWfFrom d lo m = true) (hl : lo ≤ a) :
    memWfFrom d lo (memWrite d m a v) = true := by
  induction m generalizing lo with
  | nil => unfold memWrite; split <;> simp_all [memWfFrom]
  | cons p t ih =>
    obtain ⟨b, w⟩ := p
    simp only [memWfFrom, Bool.and_eq_true, decide_eq_true_eq] at h
    unfold memWrite
    by_cases h1 : a < b
    · by_cases hv : v = d
      · simp [h1, hv, memWfFrom, h]
      · simp only [h1, hv, if_true, if_false, memWfFrom, Bool.and_eq_true, decide_eq_true_eq, bne_iff_ne, ne_eq, not_false_eq_true]
        exact ⟨⟨hl, trivial⟩, ⟨by omega, by simpa using h.1.2⟩, h.2⟩
    · by_cases h2 : a = b
      · by_cases hv : v = d
        · rw [if_neg h1, if_pos h2, if_pos hv]
          exact memWfFrom_weaken h.2 (by omega)
        · subst h2
          simp only [h1, hv, if_true, if_false, memWfFrom, Bool.and_eq_true, decide_eq_true_eq, bne_iff_ne, ne_eq, not_false_eq_true]
          exact ⟨⟨hl, trivial⟩, h.2⟩
      · simp only [h1, h2, if_false, memWfFrom, Bool.and_eq_true, decide_eq_true_eq]
        exact ⟨h.1, ih h.2 (by omega)⟩

/-- A memory operation keeps the canonical form: one byte. -/
theorem Memory.wf_write {d : Byte} {m : List Host.Cell} (a : Nat) (v : Byte) (h : Memory.wf d m = true) :
    Memory.wf d (memWrite d m a v) = true := memWfFrom_write h (Nat.zero_le _)

/-- A memory operation keeps the canonical form: a string of bytes. -/
theorem Memory.wf_writeAll {d : Byte} {m : List Host.Cell} (a : Nat) (bs : Bytes) (h : Memory.wf d m = true) :
    Memory.wf d (memWriteAll d m a bs) = true := by
  induction bs generalizing m a with
  | nil => exact h
  | cons b t ih => exact ih (a + 1) (Memory.wf_write a b h)

/-- A memory operation keeps the canonical form: bytes that become unlisted. -/
theorem memWfFrom_filter {d : Byte} {m : List Host.Cell} {lo : Nat} {p : Host.Cell → Bool} (h : memWfFrom d lo m = true) :
    memWfFrom d lo (m.filter p) = true := by
  induction m generalizing lo with
  | nil => rfl
  | cons q t ih =>
    simp only [memWfFrom, Bool.and_eq_true, decide_eq_true_eq] at h
    rw [List.filter_cons]
    split
    · simp only [memWfFrom, Bool.and_eq_true, decide_eq_true_eq]
      exact ⟨h.1, ih h.2⟩
    · exact ih (memWfFrom_weaken h.2 (by omega))

theorem Memory.wf_filter {d : Byte} {m : List Host.Cell} {p : Host.Cell → Bool} (h : Memory.wf d m = true) :
    Memory.wf d (m.filter p) = true := memWfFrom_filter h

/-- Below the first listed address every byte reads as the unlisted one. -/
theorem memRead_below {d : Byte} {m : List Host.Cell} {lo a : Nat} (h : memWfFrom d lo m = true) (ha : a < lo) : memRead d m a = d := by
  induction m generalizing lo with
  | nil => rfl
  | cons p t ih =>
    obtain ⟨b, w⟩ := p
    simp only [memWfFrom, Bool.and_eq_true, decide_eq_true_eq] at h
    have hne : a ≠ b := by omega
    simp only [memRead, hne, if_false]
    exact ih h.2 (by omega)

/-- A byte reads as what was written to it. -/
theorem memRead_write_same {d : Byte} {m : List Host.Cell} {lo : Nat} (a : Nat) (v : Byte) (h : memWfFrom d lo m = true) :
    memRead d (memWrite d m a v) a = v := by
  induction m generalizing lo with
  | nil => unfold memWrite; split <;> simp_all [memRead]
  | cons p t ih =>
    obtain ⟨b, w⟩ := p
    have h0 := h
    simp only [memWfFrom, Bool.and_eq_true, decide_eq_true_eq] at h
    unfold memWrite
    by_cases h1 : a < b
    · by_cases hv : v = d
      · simp only [h1, hv, if_true]
        exact memRead_below (lo := b) (by simp [memWfFrom, h]) h1
      · simp [h1, hv, memRead]
    · by_cases h2 : a = b
      · by_cases hv : v = d
        · rw [if_neg h1, if_pos h2, if_pos hv, hv]
          exact memRead_below h.2 (by omega)
        · rw [if_neg h1, if_pos h2, if_neg hv]
          simp [memRead]
      · simp only [h1, h2, if_false, memRead]
        exact ih h.2

/-- A write leaves every other byte alone. -/
theorem memRead_write_other (d : Byte) (m : List Host.Cell) (a b : Nat) (v : Byte) (h : b ≠ a) :
    memRead d (memWrite d m a v) b = memRead d m b := by
  induction m with
  | nil => unfold memWrite; split <;> simp [memRead, h]
  | cons p t ih =>
    obtain ⟨c, w⟩ := p
    unfold memWrite
    split
    · split
      · rfl
      · simp [memRead, h]
    · split
      · rename_i hc
        subst hc
        split <;> simp [memRead, h]
      · simp only [memRead]
        split
        · rfl
        · exact ih

/-- A string of bytes leaves every byte outside it alone. -/
theorem memRead_writeAll_other (d : Byte) (m : List Host.Cell) (a b : Nat) (bs : Bytes) (h : b < a ∨ a + bs.length ≤ b) :
    memRead d (memWriteAll d m a bs) b = memRead d m b := by
  induction bs generalizing m a with
  | nil => rfl
  | cons x t ih =>
    simp only [List.length_cons] at h
    simp only [memWriteAll]
    rw [ih _ _ (by omega), memRead_write_other _ _ _ _ _ (by omega)]

/-- A byte of a written string reads as what was written. -/
theorem memRead_writeAll_at {d : Byte} {m : List Host.Cell} (a i : Nat) (bs : Bytes) (hm : Memory.wf d m = true) (hi : i < bs.length) :
    memRead d (memWriteAll d m a bs) (a + i) = bs.getD i d := by
  induction bs generalizing m a i with
  | nil => simp at hi
  | cons x t ih =>
    simp only [memWriteAll]
    cases i with
    | zero =>
      rw [memRead_writeAll_other _ _ _ _ _ (by omega)]
      simpa using memRead_write_same a x hm
    | succ k =>
      have := ih (m := memWrite d m a x) (a + 1) k (Memory.wf_write a x hm) (by simpa using hi)
      simpa [Nat.add_assoc, Nat.add_comm 1 k] using this

/-! ### A state and the state after it -/

/-- Nothing happened. -/
theorem State.Follows.refl (s : State) : State.Follows s s := ⟨rfl, List.prefix_rfl, Nat.le_refl _, id⟩

/-- Two steps in a row. -/
theorem State.Follows.trans {s t u : State} (h : State.Follows s t) (g : State.Follows t u) : State.Follows s u :=
  ⟨g.queue.trans h.queue, h.sent.trans g.sent, Nat.le_trans h.drawn g.drawn, fun k => g.sound (h.sound k)⟩

/-- An update of anything but the register file, the byte memories, the rings, the channels, the allowances, the outputs, the count of free
values and the queue. -/
theorem Follows.frame {s0 s : State} (h : State.Follows s0 s)
    {latch lowPend role tide hq xpt brn red keys med ftl lnk snap llc dma pool boot pwr}
    {p1 p2 p3 p4 p5 p6 p7 p8 p10 p11 p12 p13 p14 p15 p16 p17 p18 p19 p20 p21 p22 p23 p24 p25 p26 p27}
    {m1 m2 m3 m4 m5 m6 m7 m8 m9 m10 m11} {f2 f3 f4 f5 f7 f8 f9}
    {e1 e2 e3 e4 e5 e6 e7 e8 e9 e10 e11 e12 e13 e14 e16 e17 e18 e19 e20 e21 e22 e23 e24} {c2 c3 c4 c5} :
    State.Follows s0
      { regs := s.regs, latch := latch, lowPend := lowPend, role := role, tide := tide, hq := hq, xpt := xpt, brn := brn, red := red,
        keys := keys, med := med, ftl := ftl, lnk := lnk, snap := snap,
        pair := ⟨p1, p2, p3, p4, p5, p6, p7, p8, s.pair.chans, p10, p11, p12, p13, p14, p15, p16, p17, p18, p19, p20, p21, p22, p23, p24,
          p25, p26, p27⟩,
        mem := ⟨m1, m2, m3, m4, m5, m6, m7, m8, m9, m10, m11, s.mem.hbm, s.mem.ddr⟩, llc := llc, dma := dma,
        sfl := ⟨s.sfl.mem, f2, f3, f4, f5, s.sfl.buf, f7, f8, f9⟩,
        evr := ⟨e1, e2, e3, e4, e5, e6, e7, e8, e9, e10, e11, e12, e13, e14, s.evr.allow, e16, e17, e18, e19, e20, e21, e22, e23, e24⟩,
        ctl := ⟨s.ctl.rings, c2, c3, c4, c5⟩, pool := pool, boot := boot, pwr := pwr, out := s.out, free := s.free,
        pending := s.pending } :=
  ⟨h.queue, h.sent, h.drawn, fun g =>
    let k := h.sound g
    ⟨k.regs, k.hbm, k.ddr, k.flash, k.buf, k.rings, k.chans, k.allow⟩⟩

/-- A fold of steps. -/
theorem foldl_follows {α : Type} {s0 s : State} {f : State → α → State} {l : List α} (h : State.Follows s0 s)
    (hf : ∀ t x, State.Follows s0 t → State.Follows s0 (f t x)) : State.Follows s0 (l.foldl f s) := by
  induction l generalizing s with
  | nil => exact h
  | cons a t ih => exact ih (hf s a h)

/-- A fold of steps that carry something beside the state. -/
theorem foldl_fst_follows {α β : Type} {s0 : State} {f : State × β → α → State × β} {l : List α} {p : State × β}
    (h : State.Follows s0 p.1) (hf : ∀ t x, State.Follows s0 t.1 → State.Follows s0 (f t x).1) :
    State.Follows s0 (l.foldl f p).1 := by
  induction l generalizing p with
  | nil => exact h
  | cons a t ih => exact ih (hf p a h)

/-- Whichever branch is taken. -/
theorem Follows.ite {c : Prop} [Decidable c] {s0 a b : State} (ha : State.Follows s0 a) (hb : State.Follows s0 b) :
    State.Follows s0 (if c then a else b) := by
  split
  · exact ha
  · exact hb

theorem fst_follows {α : Type} {s0 t : State} {p : State × α} {a : α} (e : p = (t, a)) (h : State.Follows s0 p.1) : State.Follows s0 t := by
  subst e; exact h

theorem snd_follows {α : Type} {s0 t : State} {p : α × State} {a : α} (e : p = (a, t)) (h : State.Follows s0 p.2) : State.Follows s0 t := by
  subst e; exact h

/-- A register write. -/
theorem State.wr_follows {s0 s : State} {r : Reg} {v : DWord} (h : State.Follows s0 s) : State.Follows s0 (s.wr r v) :=
  ⟨h.queue, h.sent, h.drawn, fun g =>
    let k := h.sound g
    ⟨regsWfFrom_put k.regs (Nat.zero_le _), k.hbm, k.ddr, k.flash, k.buf, k.rings, k.chans, k.allow⟩⟩

/-- One output. -/
theorem State.emit_follows {s0 s : State} {o : Out} (h : State.Follows s0 s) : State.Follows s0 (s.emit o) :=
  ⟨h.queue, h.sent.trans (List.prefix_append _ _), h.drawn, fun g =>
    let k := h.sound g
    ⟨k.regs, k.hbm, k.ddr, k.flash, k.buf, k.rings, k.chans, k.allow⟩⟩

/-- Several outputs. -/
theorem State.emits_follows {s0 s : State} {os : List Out} (h : State.Follows s0 s) : State.Follows s0 (s.emits os) :=
  ⟨h.queue, h.sent.trans (List.prefix_append _ _), h.drawn, fun g =>
    let k := h.sound g
    ⟨k.regs, k.hbm, k.ddr, k.flash, k.buf, k.rings, k.chans, k.allow⟩⟩

/-- A draw of a free value. -/
theorem State.fresh_follows {s0 s : State} (h : State.Follows s0 s) : State.Follows s0 s.fresh.2 :=
  ⟨h.queue, h.sent, Nat.le_trans h.drawn (Nat.le_succ _), fun g =>
    let k := h.sound g
    ⟨k.regs, k.hbm, k.ddr, k.flash, k.buf, k.rings, k.chans, k.allow⟩⟩

/-- A draw of random bytes. -/
theorem State.drbgBytes_follows {s0 s : State} {n : Nat} (h : State.Follows s0 s) : State.Follows s0 (s.drbgBytes n).2 :=
  ⟨h.queue, h.sent, Nat.le_trans h.drawn (Nat.le_succ _), fun g =>
    let k := h.sound g
    ⟨k.regs, k.hbm, k.ddr, k.flash, k.buf, k.rings, k.chans, k.allow⟩⟩

/-- A ring replaced. -/
theorem State.setRing_follows {s0 s : State} {n : Nat} {r : Ring} (h : State.Follows s0 s) : State.Follows s0 (s.setRing n r) :=
  ⟨h.queue, h.sent, h.drawn, fun g =>
    let k := h.sound g
    ⟨k.regs, k.hbm, k.ddr, k.flash, k.buf, (List.length_set ..).trans k.rings, k.chans, k.allow⟩⟩

/-- A channel replaced. -/
theorem State.setChan_follows {s0 s : State} {c : Nat} {ch : PtlChan} (h : State.Follows s0 s) : State.Follows s0 (s.setChan c ch) :=
  ⟨h.queue, h.sent, h.drawn, fun g =>
    let k := h.sound g
    ⟨k.regs, k.hbm, k.ddr, k.flash, k.buf, k.rings, (List.length_set ..).trans k.chans, k.allow⟩⟩

/-- An allowance replaced by another list of as many. -/
theorem Follows.withAllow {s0 s : State} {l : List Nat} {d : List EvDrop} {n : Nat} (h : State.Follows s0 s) (hl : l.length = s.evr.allow.length) :
    State.Follows s0 { s with evr.allow := l, evr.drops := d, evr.lastRefill := n } :=
  ⟨h.queue, h.sent, h.drawn, fun g =>
    let k := h.sound g
    ⟨k.regs, k.hbm, k.ddr, k.flash, k.buf, k.rings, k.chans, hl.trans k.allow⟩⟩

/-- What a packet's rule answers follows a state: the state it answers does, where it answers one. -/
def PktRes.Follows (s0 : State) : PktRes → Prop
  | .done s _ _ _ => State.Follows s0 s
  | .started s => State.Follows s0 s
  | .startDone s _ _ => State.Follows s0 s
  | .quiet s => State.Follows s0 s
  | .waits => True

theorem PktRes.follows_done {s0 s : State} {st : Nat} {a b : Bytes} (h : State.Follows s0 s) : PktRes.Follows s0 (.done s st a b) := h
theorem PktRes.follows_started {s0 s : State} (h : State.Follows s0 s) : PktRes.Follows s0 (.started s) := h
theorem PktRes.follows_startDone {s0 s : State} {a b : Bytes} (h : State.Follows s0 s) : PktRes.Follows s0 (.startDone s a b) := h
theorem PktRes.follows_quiet {s0 s : State} (h : State.Follows s0 s) : PktRes.Follows s0 (.quiet s) := h
theorem PktRes.follows_ite {c : Prop} [Decidable c] {s0 : State} {a b : PktRes} (ha : PktRes.Follows s0 a) (hb : PktRes.Follows s0 b) :
    PktRes.Follows s0 (if c then a else b) := by
  split
  · exact ha
  · exact hb
theorem PktRes.follows_waits {s0 : State} : PktRes.Follows s0 .waits := trivial

end Sys2Proof.Machine
end

