-- ==== Sys2Proof/Laws/Llc.lean ====
section
/-! SUPPORT. What each operation of Machine/Llc.lean can do: what follows from a state before it follows after it (Sys2Proof.Machine.State.Follows). -/
namespace Sys2Proof.Machine

theorem State.llcAsk_follows {s0 s : State} {a1 a2 a3} (h : State.Follows s0 s) : State.Follows s0 (State.llcAsk s a1 a2 a3) := by
  unfold State.llcAsk
  repeat' first | with_reducible assumption | intro _ | with_reducible apply foldl_follows | with_reducible apply Follows.ite | split | extract_lets | with_reducible apply Follows.frame

theorem State.llcWrite_follows {s0 s : State} {a1 a2} (h : State.Follows s0 s) : State.Follows s0 (State.llcWrite s a1 a2) := by
  unfold State.llcWrite
  repeat' first | with_reducible assumption | intro _ | with_reducible apply foldl_follows | with_reducible apply Follows.ite | split | extract_lets | with_reducible apply Follows.frame

theorem State.metaWrite_follows {s0 s : State} {a1 a2 a3} (h : State.Follows s0 s) : State.Follows s0 (State.metaWrite s a1 a2 a3) := by
  unfold State.metaWrite
  repeat' first | with_reducible assumption | intro _ | with_reducible apply State.llcWrite_follows | with_reducible apply foldl_follows | with_reducible apply Follows.ite | split | extract_lets | with_reducible apply Follows.frame

theorem State.llcRead_follows {s0 s : State} {a1 a2 a3 a4} (h : State.Follows s0 s) : State.Follows s0 (State.llcRead s a1 a2 a3 a4) := by
  unfold State.llcRead
  repeat' first | with_reducible assumption | intro _ | with_reducible apply foldl_follows | with_reducible apply Follows.ite | split | extract_lets | with_reducible apply Follows.frame

theorem State.metaScan_follows {s0 s : State} {a1 a2 a3 a4} (h : State.Follows s0 s) : State.Follows s0 (State.metaScan s a1 a2 a3 a4) := by
  unfold State.metaScan
  repeat' first | with_reducible assumption | intro _ | with_reducible apply State.llcRead_follows | with_reducible apply foldl_follows | with_reducible apply Follows.ite | split | extract_lets | with_reducible apply Follows.frame

theorem State.metaRead_follows {s0 s : State} {a1 a2 a3} (h : State.Follows s0 s) : State.Follows s0 (State.metaRead s a1 a2 a3) := by
  unfold State.metaRead
  repeat' first | with_reducible assumption | intro _ | with_reducible apply State.llcRead_follows | with_reducible apply foldl_follows | with_reducible apply Follows.ite | split | extract_lets | with_reducible apply Follows.frame

theorem State.llcLeave_follows {s0 s : State} {a1} (h : State.Follows s0 s) : State.Follows s0 (State.llcLeave s a1) := by
  unfold State.llcLeave
  repeat' first | with_reducible assumption | intro _ | with_reducible apply foldl_follows | with_reducible apply Follows.ite | split | extract_lets | with_reducible apply Follows.frame

theorem State.llcArrive_follows {s0 s : State} {a1 a2} (h : State.Follows s0 s) : State.Follows s0 (State.llcArrive s a1 a2) := by
  unfold State.llcArrive
  repeat' first | with_reducible assumption | intro _ | with_reducible apply foldl_follows | with_reducible apply Follows.ite | split | extract_lets | with_reducible apply Follows.frame

end Sys2Proof.Machine
end

