-- ==== Sys2Proof/Laws/Ops.lean ====
section
/-! SUPPORT. What each operation of Machine/Ops.lean can do: what follows from a state before it follows after it (Sys2Proof.Machine.State.Follows). -/
namespace Sys2Proof.Machine

theorem State.setFld_follows {s0 s : State} {a1 a2 a3 a4} (h : State.Follows s0 s) : State.Follows s0 (State.setFld s a1 a2 a3 a4) := by
  unfold State.setFld
  repeat' first | with_reducible assumption | intro _ | with_reducible apply State.wr_follows | with_reducible apply foldl_follows | with_reducible apply Follows.ite | split | extract_lets | with_reducible apply Follows.frame

theorem State.bumpBy_follows {s0 s : State} {a1 a2} (h : State.Follows s0 s) : State.Follows s0 (State.bumpBy s a1 a2) := by
  unfold State.bumpBy
  repeat' first | with_reducible assumption | intro _ | with_reducible apply State.wr_follows | with_reducible apply foldl_follows | with_reducible apply Follows.ite | split | extract_lets | with_reducible apply Follows.frame

theorem State.bump_follows {s0 s : State} {a1} (h : State.Follows s0 s) : State.Follows s0 (State.bump s a1) := by
  unfold State.bump
  repeat' first | with_reducible assumption | intro _ | with_reducible apply State.bumpBy_follows | with_reducible apply foldl_follows | with_reducible apply Follows.ite | split | extract_lets | with_reducible apply Follows.frame

theorem State.putQp_follows {s0 s : State} {a1} (h : State.Follows s0 s) : State.Follows s0 (State.putQp s a1) := by
  unfold State.putQp
  repeat' first | with_reducible assumption | intro _ | with_reducible apply foldl_follows | with_reducible apply Follows.ite | split | extract_lets | with_reducible apply Follows.frame

theorem State.xbump_follows {s0 s : State} {a1 a2 a3 a4} (h : State.Follows s0 s) : State.Follows s0 (State.xbump s a1 a2 a3 a4) := by
  unfold State.xbump
  repeat' first | with_reducible assumption | intro _ | with_reducible apply State.bumpBy_follows | with_reducible apply foldl_follows | with_reducible apply Follows.ite | split | extract_lets | with_reducible apply Follows.frame

theorem State.putEport_follows {s0 s : State} {a1} (h : State.Follows s0 s) : State.Follows s0 (State.putEport s a1) := by
  unfold State.putEport
  repeat' first | with_reducible assumption | intro _ | with_reducible apply foldl_follows | with_reducible apply Follows.ite | split | extract_lets | with_reducible apply Follows.frame

theorem State.ethSend_follows {s0 s : State} {a1 a2 a3} (h : State.Follows s0 s) : State.Follows s0 (State.ethSend s a1 a2 a3) := by
  unfold State.ethSend
  repeat' first | with_reducible assumption | intro _ | with_reducible apply State.emit_follows | with_reducible apply State.xbump_follows | with_reducible apply foldl_follows | with_reducible apply Follows.ite | split | extract_lets | with_reducible apply Follows.frame

theorem State.ethOut_follows {s0 s : State} {a1 a2 a3 a4 a5} (h : State.Follows s0 s) : State.Follows s0 (State.ethOut s a1 a2 a3 a4 a5) := by
  unfold State.ethOut
  repeat' first | with_reducible assumption | intro _ | with_reducible apply State.putEport_follows | with_reducible apply State.ethSend_follows | with_reducible apply foldl_follows | with_reducible apply Follows.ite | split | extract_lets | with_reducible apply Follows.frame

theorem State.evRate_follows {s0 s : State} {a1 a2 a3} {t} (e : State.evRate s a1 a2 a3 = some t) (h : State.Follows s0 s) : State.Follows s0 t := by
  unfold State.evRate at e
  split at e
  · cases e; exact h
  · split at e
    · cases e; exact Follows.withAllow h (List.length_set ..)
    · cases e

theorem State.evFoldInto_follows {s0 s : State} {a1} (h : State.Follows s0 s) : State.Follows s0 (State.evFoldInto s a1) := by
  unfold State.evFoldInto
  repeat' first | with_reducible assumption | intro _ | with_reducible apply State.bump_follows | with_reducible apply foldl_follows | with_reducible apply Follows.ite | split | extract_lets | with_reducible apply Follows.frame

theorem State.flushStart_follows {s0 s : State} (h : State.Follows s0 s) : State.Follows s0 (State.flushStart s) := by
  unfold State.flushStart
  repeat' first | with_reducible assumption | intro _ | with_reducible apply foldl_follows | with_reducible apply Follows.ite | split | extract_lets | with_reducible apply Follows.frame

theorem State.flushTriggers_follows {s0 s : State} {a1} (h : State.Follows s0 s) : State.Follows s0 (State.flushTriggers s a1) := by
  unfold State.flushTriggers
  repeat' first | with_reducible assumption | intro _ | with_reducible apply State.flushStart_follows | with_reducible apply foldl_follows | with_reducible apply Follows.ite | split | extract_lets | with_reducible apply Follows.frame

theorem State.fetchCtx_follows {s0 s : State} {a1} (h : State.Follows s0 s) : State.Follows s0 (State.fetchCtx s a1) := by
  unfold State.fetchCtx
  repeat' first | with_reducible assumption | intro _ | with_reducible apply State.xbump_follows | with_reducible apply State.putQp_follows | with_reducible apply State.llcAsk_follows | with_reducible apply foldl_follows | with_reducible apply Follows.ite | split | extract_lets | with_reducible apply Follows.frame

theorem State.wire_follows {s0 s : State} {a1 a2} (h : State.Follows s0 s) : State.Follows s0 (State.wire s a1 a2) := by
  unfold State.wire
  repeat' first | with_reducible assumption | intro _ | with_reducible apply State.putQp_follows | with_reducible apply State.ethOut_follows | with_reducible apply foldl_follows | with_reducible apply Follows.ite | split | extract_lets | with_reducible apply Follows.frame

theorem State.sendOp_follows {s0 s : State} {a1 a2} (h : State.Follows s0 s) : State.Follows s0 (State.sendOp s a1 a2) := by
  unfold State.sendOp
  repeat' first | with_reducible assumption | intro _ | with_reducible apply State.putQp_follows | with_reducible apply State.fetchCtx_follows | with_reducible apply State.wire_follows | with_reducible apply foldl_follows | with_reducible apply Follows.ite | split | extract_lets | with_reducible apply Follows.frame

theorem State.sendCapsule_follows {s0 s : State} {a1 a2 a3} (h : State.Follows s0 s) : State.Follows s0 (State.sendCapsule s a1 a2 a3) := by
  unfold State.sendCapsule
  repeat' first | with_reducible assumption | intro _ | with_reducible apply State.sendOp_follows | with_reducible apply foldl_follows | with_reducible apply Follows.ite | split | extract_lets | with_reducible apply Follows.frame

theorem State.sendCqe_follows {s0 s : State} {a1 a2 a3 a4 a5 a6 a7} (h : State.Follows s0 s) : State.Follows s0 (State.sendCqe s a1 a2 a3 a4 a5 a6 a7) := by
  unfold State.sendCqe
  repeat' first | with_reducible assumption | intro _ | with_reducible apply State.sendCapsule_follows | with_reducible apply State.emit_follows | with_reducible apply foldl_follows | with_reducible apply Follows.ite | split | extract_lets | with_reducible apply Follows.frame

theorem State.rdmaWrite_follows {s0 s : State} {a1 a2 a3 a4 a5} (h : State.Follows s0 s) : State.Follows s0 (State.rdmaWrite s a1 a2 a3 a4 a5) := by
  unfold State.rdmaWrite
  repeat' first | with_reducible assumption | intro _ | with_reducible apply State.sendOp_follows | with_reducible apply foldl_follows | with_reducible apply Follows.ite | split | extract_lets | with_reducible apply Follows.frame

theorem State.transmit_follows {s0 s : State} {a1} (h : State.Follows s0 s) : State.Follows s0 (State.transmit s a1) := by
  unfold State.transmit
  repeat' first | with_reducible assumption | intro _ | with_reducible apply State.sendCqe_follows | with_reducible apply State.emit_follows | with_reducible apply State.rdmaWrite_follows | with_reducible apply foldl_follows | with_reducible apply Follows.ite | split | extract_lets | with_reducible apply Follows.frame

theorem State.deliver_follows {s0 s : State} {a1} (h : State.Follows s0 s) : State.Follows s0 (State.deliver s a1) := by
  unfold State.deliver
  repeat' first | with_reducible assumption | intro _ | with_reducible apply State.transmit_follows | with_reducible apply foldl_follows | with_reducible apply Follows.ite | split | extract_lets | with_reducible apply Follows.frame

theorem State.complete_follows {s0 s : State} {a1 a2 a3 a4 a5 a6 a7} (h : State.Follows s0 s) : State.Follows s0 (State.complete s a1 a2 a3 a4 a5 a6 a7) := by
  unfold State.complete
  repeat' first | with_reducible assumption | intro _ | with_reducible apply State.deliver_follows | with_reducible apply State.putQp_follows | with_reducible apply foldl_follows | with_reducible apply Follows.ite | split | extract_lets | with_reducible apply Follows.frame

theorem State.sendAen_follows {s0 s : State} {a1 a2 a3 a4} (h : State.Follows s0 s) : State.Follows s0 (State.sendAen s a1 a2 a3 a4) := by
  unfold State.sendAen
  repeat' first | with_reducible assumption | intro _ | with_reducible apply State.complete_follows | with_reducible apply State.deliver_follows | with_reducible apply foldl_follows | with_reducible apply Follows.ite | split | extract_lets | with_reducible apply Follows.frame

theorem State.postAen_follows {s0 s : State} {a1 a2 a3 a4} (h : State.Follows s0 s) : State.Follows s0 (State.postAen s a1 a2 a3 a4) := by
  unfold State.postAen
  repeat' first | with_reducible assumption | intro _ | with_reducible apply State.sendAen_follows | with_reducible apply foldl_follows | with_reducible apply Follows.ite | split | extract_lets | with_reducible apply Follows.frame

theorem State.notifyRec_follows {s0 s : State} {a1} (h : State.Follows s0 s) : State.Follows s0 (State.notifyRec s a1) := by
  unfold State.notifyRec
  repeat' first | with_reducible assumption | intro _ | with_reducible apply State.postAen_follows | with_reducible apply foldl_follows | with_reducible apply Follows.ite | split | extract_lets | with_reducible apply Follows.frame

theorem State.appendRec_follows {s0 s : State} {a1} (h : State.Follows s0 s) : State.Follows s0 (State.appendRec s a1) := by
  unfold State.appendRec
  repeat' first | with_reducible assumption | intro _ | with_reducible apply State.bump_follows | with_reducible apply foldl_follows | with_reducible apply Follows.ite | split | extract_lets | with_reducible apply Follows.frame

theorem State.evAdmit_follows {s0 s : State} {a1} (h : State.Follows s0 s) : State.Follows s0 (State.evAdmit s a1).1 := by
  unfold State.evAdmit
  repeat' first | with_reducible assumption | intro _ | with_reducible apply State.bump_follows | with_reducible apply State.flushTriggers_follows | with_reducible apply State.notifyRec_follows | with_reducible apply State.appendRec_follows | with_reducible apply foldl_follows | with_reducible apply Follows.ite | split | extract_lets | with_reducible apply Follows.frame

theorem State.evCore_follows {s0 s : State} {a1 a2 a3 a4 a5 a6} (h : State.Follows s0 s) : State.Follows s0 (State.evCore s a1 a2 a3 a4 a5 a6).1 := by
  have hd : ∀ t, State.Follows s0 t →
      State.Follows s0 { t.bump (R.EVR_DROP_CNT a1) with evr.drops := evNoteDrop t.evr.drops a1 a2 a4 } := fun t ht =>
    Follows.frame (State.bump_follows ht)
  unfold State.evCore
  dsimp only
  repeat' first | with_reducible assumption | with_reducible apply State.bump_follows | with_reducible apply State.evAdmit_follows | with_reducible apply State.evFoldInto_follows | with_reducible refine State.evRate_follows (by assumption) ?_ | with_reducible apply hd | split | with_reducible apply Follows.frame

theorem State.driveAlert_follows {s0 s : State} (h : State.Follows s0 s) : State.Follows s0 (State.driveAlert s) := by
  unfold State.driveAlert
  repeat' first | with_reducible assumption | intro _ | with_reducible apply State.emit_follows | with_reducible apply foldl_follows | with_reducible apply Follows.ite | split | extract_lets | with_reducible apply Follows.frame

theorem State.ptlOne_follows {s0 s : State} {a1 a2 a3 a4} (h : State.Follows s0 s) : State.Follows s0 (State.ptlOne s a1 a2 a3 a4) := by
  unfold State.ptlOne
  repeat' first | with_reducible assumption | intro _ | with_reducible apply State.setChan_follows | with_reducible apply State.emit_follows | with_reducible apply foldl_follows | with_reducible apply Follows.ite | split | extract_lets | with_reducible apply Follows.frame

theorem State.ptlChain_follows {s0 s : State} {a1 a2 a3 a4} (h : State.Follows s0 s) : State.Follows s0 (State.ptlChain s a1 a2 a3 a4) := by
  induction a4 generalizing s a3 with
  | zero => unfold State.ptlChain; exact State.ptlOne_follows h
  | succ n ih =>
    unfold State.ptlChain
    split
    · exact State.ptlOne_follows h
    · exact ih (State.ptlOne_follows h)

theorem State.ptlSend_follows {s0 s : State} {a1 a2 a3} (h : State.Follows s0 s) : State.Follows s0 (State.ptlSend s a1 a2 a3) := by
  unfold State.ptlSend
  repeat' first | with_reducible assumption | intro _ | with_reducible apply State.ptlChain_follows | with_reducible apply foldl_follows | with_reducible apply Follows.ite | split | extract_lets | with_reducible apply Follows.frame

theorem State.control_follows {s0 s : State} {a1 a2} (h : State.Follows s0 s) : State.Follows s0 (State.control s a1 a2) := by
  unfold State.control
  repeat' first | with_reducible assumption | intro _ | with_reducible apply State.ptlSend_follows | with_reducible apply foldl_follows | with_reducible apply Follows.ite | split | extract_lets | with_reducible apply Follows.frame

theorem State.latchAlarm_follows {s0 s : State} {a1} (h : State.Follows s0 s) : State.Follows s0 (State.latchAlarm s a1) := by
  unfold State.latchAlarm
  repeat' first | with_reducible assumption | intro _ | with_reducible apply State.wr_follows | with_reducible apply State.driveAlert_follows | with_reducible apply State.emit_follows | with_reducible apply State.control_follows | with_reducible apply foldl_follows | with_reducible apply Follows.ite | split | extract_lets | with_reducible apply Follows.frame

theorem State.event_follows {s0 s : State} {a1 a2 a3 a4 a5 a6} (h : State.Follows s0 s) : State.Follows s0 (State.event s a1 a2 a3 a4 a5 a6) := by
  unfold State.event
  repeat' first | with_reducible assumption | intro _ | with_reducible apply State.evCore_follows | with_reducible apply State.latchAlarm_follows | with_reducible apply foldl_follows | with_reducible refine fst_follows (by assumption) ?_ | with_reducible apply Follows.ite | split | extract_lets | with_reducible apply Follows.frame

theorem State.warnOn_follows {s0 s : State} {a1} (h : State.Follows s0 s) : State.Follows s0 (State.warnOn s a1) := by
  unfold State.warnOn
  repeat' first | with_reducible assumption | intro _ | with_reducible apply State.postAen_follows | with_reducible apply foldl_follows | with_reducible apply Follows.ite | split | extract_lets | with_reducible apply Follows.frame

theorem State.alarm_follows {s0 s : State} {a1 a2 a3 a4 a5} (h : State.Follows s0 s) : State.Follows s0 (State.alarm s a1 a2 a3 a4 a5) := by
  unfold State.alarm
  repeat' first | with_reducible assumption | intro _ | with_reducible apply State.event_follows | with_reducible apply State.latchAlarm_follows | with_reducible apply State.warnOn_follows | with_reducible apply foldl_follows | with_reducible apply Follows.ite | split | extract_lets | with_reducible apply Follows.frame

theorem State.warnOff_follows {s0 s : State} {a1} (h : State.Follows s0 s) : State.Follows s0 (State.warnOff s a1) := by
  unfold State.warnOff
  repeat' first | with_reducible assumption | intro _ | with_reducible apply foldl_follows | with_reducible apply Follows.ite | split | extract_lets | with_reducible apply Follows.frame

theorem State.ptlRaw_follows {s0 s : State} {a1 a2} (h : State.Follows s0 s) : State.Follows s0 (State.ptlRaw s a1 a2) := by
  unfold State.ptlRaw
  repeat' first | with_reducible assumption | intro _ | with_reducible apply State.emit_follows | with_reducible apply foldl_follows | with_reducible apply Follows.ite | split | extract_lets | with_reducible apply Follows.frame

theorem State.postAenAll_follows {s0 s : State} {a1 a2 a3} (h : State.Follows s0 s) : State.Follows s0 (State.postAenAll s a1 a2 a3) := by
  unfold State.postAenAll
  repeat' first | with_reducible assumption | intro _ | with_reducible apply State.postAen_follows | with_reducible apply foldl_follows | with_reducible apply Follows.ite | split | extract_lets | with_reducible apply Follows.frame

theorem State.pumpReads_follows {s0 s : State} {a1} (h : State.Follows s0 s) : State.Follows s0 (State.pumpReads s a1) := by
  unfold State.pumpReads
  repeat' first | with_reducible assumption | intro _ | with_reducible apply State.sendOp_follows | with_reducible apply State.putQp_follows | with_reducible apply foldl_follows | with_reducible apply Follows.ite | split | extract_lets | with_reducible apply Follows.frame

theorem State.rdmaRead_follows {s0 s : State} {a1 a2 a3 a4 a5} (h : State.Follows s0 s) : State.Follows s0 (State.rdmaRead s a1 a2 a3 a4 a5) := by
  unfold State.rdmaRead
  repeat' first | with_reducible assumption | intro _ | with_reducible apply State.sendOp_follows | with_reducible apply foldl_follows | with_reducible apply Follows.ite | split | extract_lets | with_reducible apply Follows.frame

theorem State.liftGate_follows {s0 s : State} (h : State.Follows s0 s) : State.Follows s0 (State.liftGate s) := by
  unfold State.liftGate
  repeat' first | with_reducible assumption | intro _ | with_reducible apply State.transmit_follows | with_reducible apply State.pumpReads_follows | with_reducible apply foldl_follows | with_reducible apply Follows.ite | split | extract_lets | with_reducible apply Follows.frame

theorem State.rdmaWriteImm_follows {s0 s : State} {a1 a2 a3 a4 a5} (h : State.Follows s0 s) : State.Follows s0 (State.rdmaWriteImm s a1 a2 a3 a4 a5) := by
  unfold State.rdmaWriteImm
  repeat' first | with_reducible assumption | intro _ | with_reducible apply State.sendOp_follows | with_reducible apply foldl_follows | with_reducible apply Follows.ite | split | extract_lets | with_reducible apply Follows.frame

theorem State.retryAen_follows {s0 s : State} {a1 a2 a3} (h : State.Follows s0 s) : State.Follows s0 (State.retryAen s a1 a2 a3) := by
  unfold State.retryAen
  repeat' first | with_reducible assumption | intro _ | with_reducible apply State.postAen_follows | with_reducible apply foldl_follows | with_reducible apply Follows.ite | split | extract_lets | with_reducible apply Follows.frame

end Sys2Proof.Machine
end

