-- ==== Sys2Proof/Laws/Packet.lean ====
section
/-! SUPPORT. What each operation of Machine/Packet.lean can do: what follows from a state before it follows after it (Sys2Proof.Machine.State.Follows). -/
namespace Sys2Proof.Machine

theorem State.putReply_follows {s0 s : State} {a1 a2} (h : State.Follows s0 s) : State.Follows s0 (State.putReply s a1 a2) := by
  unfold State.putReply
  repeat' first | with_reducible assumption | intro _ | with_reducible apply State.emit_follows | with_reducible apply State.emits_follows | with_reducible apply State.bump_follows | with_reducible apply State.setRing_follows | with_reducible apply foldl_follows | with_reducible apply Follows.ite | split | extract_lets | with_reducible apply Follows.frame

theorem State.reply_follows {s0 s : State} {a1 a2} (h : State.Follows s0 s) : State.Follows s0 (State.reply s a1 a2) := by
  unfold State.reply
  repeat' first | with_reducible assumption | intro _ | with_reducible apply State.bump_follows | with_reducible apply State.setRing_follows | with_reducible apply State.putReply_follows | with_reducible apply foldl_follows | with_reducible apply Follows.ite | split | extract_lets | with_reducible apply Follows.frame

theorem State.settle_follows {s0 s : State} {a1 a2} (h : State.Follows s0 s) : State.Follows s0 (State.settle s a1 a2) := by
  induction a2 generalizing s with
  | zero =>
    unfold State.settle
    repeat' first | with_reducible assumption | with_reducible apply ih | intro _ | with_reducible apply State.setRing_follows | with_reducible apply State.reply_follows | with_reducible apply foldl_follows | with_reducible apply Follows.ite | split | extract_lets | with_reducible apply Follows.frame
  | succ n ih =>
    unfold State.settle
    repeat' first | with_reducible assumption | with_reducible apply ih | intro _ | with_reducible apply State.setRing_follows | with_reducible apply State.reply_follows | with_reducible apply foldl_follows | with_reducible apply Follows.ite | split | extract_lets | with_reducible apply Follows.frame

theorem State.finish_follows {s0 s : State} {a1 a2 a3 a4} (h : State.Follows s0 s) : State.Follows s0 (State.finish s a1 a2 a3 a4) := by
  unfold State.finish
  repeat' first | with_reducible assumption | intro _ | with_reducible apply State.settle_follows | with_reducible apply State.reply_follows | with_reducible apply foldl_follows | with_reducible apply Follows.ite | split | extract_lets | with_reducible apply Follows.frame

theorem State.begun_follows {s0 s : State} {a1 a2 a3} (h : State.Follows s0 s) : State.Follows s0 (State.begun s a1 a2 a3) := by
  unfold State.begun
  repeat' first | with_reducible assumption | intro _ | with_reducible apply State.setRing_follows | with_reducible apply foldl_follows | with_reducible apply Follows.ite | split | extract_lets | with_reducible apply Follows.frame

theorem PktRes.fail_follows {s0 s : State} {a1} (h : State.Follows s0 s) : PktRes.Follows s0 (PktRes.fail s a1) := by
  unfold PktRes.fail
  repeat' first | with_reducible assumption | intro _ | with_reducible exact PktRes.follows_waits | with_reducible apply PktRes.follows_done | with_reducible apply PktRes.follows_started | with_reducible apply PktRes.follows_startDone | with_reducible apply PktRes.follows_quiet | with_reducible apply foldl_follows | with_reducible apply Follows.ite | with_reducible apply PktRes.follows_ite | split | extract_lets | with_reducible apply Follows.frame

theorem PktRes.badTail_follows {s0 s : State} {a1} (h : State.Follows s0 s) : PktRes.Follows s0 (PktRes.badTail s a1) := by
  unfold PktRes.badTail
  split <;> exact h

theorem State.inProgress_follows {s0 s : State} {a1 a2 a3} (h : State.Follows s0 s) : State.Follows s0 (State.inProgress s a1 a2 a3) := by
  unfold State.inProgress
  repeat' first | with_reducible assumption | intro _ | with_reducible apply State.reply_follows | with_reducible apply foldl_follows | with_reducible apply Follows.ite | split | extract_lets | with_reducible apply Follows.frame

theorem State.packet_follows {s0 s : State} {a1 a2 a3 a4} (h : State.Follows s0 s) (hf : ∀ e p t, State.Follows s0 t → PktRes.Follows s0 (a4 e p t)) : State.Follows s0 (State.packet s a1 a2 a3 a4) := by
  unfold State.packet
  split
  · exact h
  · extract_lets p s1 st
    have h1 : State.Follows s0 s1 := State.begun_follows h
    split
    · exact State.finish_follows h1
    · split
      · exact h
      · split
        · exact State.finish_follows h1
        · have hb : PktRes.Follows s0 (if Entry.tailOk ‹Entry› = true then a4 ‹Entry› p s1 else (a4 ‹Entry› p s1).badTail s1) :=
            PktRes.follows_ite (hf ‹Entry› p s1 h1) (PktRes.badTail_follows h1)
          split <;> rename_i hr <;> rw [hr] at hb
          · exact State.finish_follows hb
          · exact State.inProgress_follows hb
          · exact State.finish_follows (State.inProgress_follows hb)
          · exact hb
          · exact h

theorem State.fetchRing_follows {s0 s : State} {a1} (h : State.Follows s0 s) : State.Follows s0 (State.fetchRing s a1) := by
  unfold State.fetchRing
  repeat' first | with_reducible assumption | intro _ | with_reducible apply State.bumpBy_follows | with_reducible apply State.setRing_follows | with_reducible apply State.settle_follows | with_reducible apply foldl_follows | with_reducible apply Follows.ite | split | extract_lets | with_reducible apply Follows.frame

end Sys2Proof.Machine
end

