-- ==== Sys2Proof/Laws/Cmds.lean ====
section
/-! SUPPORT. What each operation of Machine/Cmds.lean can do: what follows from a state before it follows after it (Sys2Proof.Machine.State.Follows). -/
namespace Sys2Proof.Machine

theorem State.endDetaches_follows {s0 s : State} (h : State.Follows s0 s) : State.Follows s0 (State.endDetaches s) := by
  unfold State.endDetaches
  repeat' first | with_reducible assumption | intro _ | with_reducible apply State.finish_follows | with_reducible apply foldl_follows | with_reducible apply Follows.ite | split | extract_lets | with_reducible apply Follows.frame

theorem State.fillCheck_follows {s0 s : State} (h : State.Follows s0 s) : State.Follows s0 (State.fillCheck s) := by
  unfold State.fillCheck
  repeat' first | with_reducible assumption | intro _ | with_reducible apply State.event_follows | with_reducible apply foldl_follows | with_reducible apply Follows.ite | split | extract_lets | with_reducible apply Follows.frame

theorem State.freeReleased_follows {s0 s : State} (h : State.Follows s0 s) : State.Follows s0 (State.freeReleased s) := by
  unfold State.freeReleased
  repeat' first | with_reducible assumption | intro _ | with_reducible apply State.fillCheck_follows | with_reducible apply foldl_follows | with_reducible apply Follows.ite | split | extract_lets | with_reducible apply Follows.frame

theorem State.dropIo_follows {s0 s : State} {a1} (h : State.Follows s0 s) : State.Follows s0 (State.dropIo s a1) := by
  unfold State.dropIo
  repeat' first | with_reducible assumption | intro _ | with_reducible apply State.endDetaches_follows | with_reducible apply State.freeReleased_follows | with_reducible apply foldl_follows | with_reducible apply Follows.ite | split | extract_lets | with_reducible apply Follows.frame

theorem State.putIo_follows {s0 s : State} {a1} (h : State.Follows s0 s) : State.Follows s0 (State.putIo s a1) := by
  unfold State.putIo
  repeat' first | with_reducible assumption | intro _ | with_reducible apply foldl_follows | with_reducible apply Follows.ite | split | extract_lets | with_reducible apply Follows.frame

theorem State.queueGone_follows {s0 s : State} {a1} (h : State.Follows s0 s) : State.Follows s0 (State.queueGone s a1) := by
  unfold State.queueGone
  repeat' first | with_reducible assumption | intro _ | with_reducible apply State.finish_follows | with_reducible apply foldl_follows | with_reducible apply Follows.ite | split | extract_lets | with_reducible apply Follows.frame

theorem State.endIo_follows {s0 s : State} {a1 a2 a3 a4 a5 a6} (h : State.Follows s0 s) : State.Follows s0 (State.endIo s a1 a2 a3 a4 a5 a6) := by
  unfold State.endIo
  repeat' first | with_reducible assumption | intro _ | with_reducible apply State.dropIo_follows | with_reducible apply State.queueGone_follows | with_reducible apply State.complete_follows | with_reducible apply foldl_follows | with_reducible apply Follows.ite | split | extract_lets | with_reducible apply Follows.frame

theorem State.takeSqe_follows {s0 s : State} {a1 a2 a3} (h : State.Follows s0 s) : State.Follows s0 (State.takeSqe s a1 a2 a3) := by
  unfold State.takeSqe
  repeat' first | with_reducible assumption | intro _ | with_reducible apply foldl_follows | with_reducible apply Follows.ite | split | extract_lets | with_reducible apply Follows.frame

theorem State.takeCmd_follows {s0 s : State} {a1} (h : State.Follows s0 s) : State.Follows s0 (State.takeCmd s a1) := by
  unfold State.takeCmd
  repeat' first | with_reducible assumption | intro _ | with_reducible apply State.takeSqe_follows | with_reducible apply foldl_follows | with_reducible apply Follows.ite | split | extract_lets | with_reducible apply Follows.frame

theorem State.takeLock_follows {s0 s : State} {a1} (h : State.Follows s0 s) : State.Follows s0 (State.takeLock s a1) := by
  unfold State.takeLock
  repeat' first | with_reducible assumption | intro _ | with_reducible apply foldl_follows | with_reducible apply Follows.ite | split | extract_lets | with_reducible apply Follows.frame

theorem State.unknownSqe_follows {s0 s : State} {a1 a2} (h : State.Follows s0 s) : State.Follows s0 (State.unknownSqe s a1 a2) := by
  unfold State.unknownSqe
  repeat' first | with_reducible assumption | intro _ | with_reducible apply State.complete_follows | with_reducible apply State.takeSqe_follows | with_reducible apply foldl_follows | with_reducible apply Follows.ite | split | extract_lets | with_reducible apply Follows.frame

end Sys2Proof.Machine
end

