-- ==== Sys2Proof/Laws/ModuleCmd.lean ====
section
/-! SUPPORT. What each operation of Machine/ModuleCmd.lean can do: what follows from a state before it follows after it (Sys2Proof.Machine.State.Follows). -/
namespace Sys2Proof.Machine

theorem State.sendCmd_follows {s0 s : State} {a1} (h : State.Follows s0 s) : State.Follows s0 (State.sendCmd s a1) := by
  unfold State.sendCmd
  repeat' first | with_reducible assumption | intro _ | with_reducible apply State.ptlSend_follows | with_reducible apply State.bump_follows | with_reducible apply State.emit_follows | with_reducible apply foldl_follows | with_reducible apply Follows.ite | split | extract_lets | with_reducible apply Follows.frame

theorem State.issue_follows {s0 s : State} {a1 a2 a3 a4 a5 a6 a7} (h : State.Follows s0 s) : State.Follows s0 (State.issue s a1 a2 a3 a4 a5 a6 a7) := by
  unfold State.issue
  repeat' first | with_reducible assumption | intro _ | with_reducible apply State.sendCmd_follows | with_reducible apply foldl_follows | with_reducible apply Follows.ite | split | extract_lets | with_reducible apply Follows.frame

theorem State.putCmd_follows {s0 s : State} {a1} (h : State.Follows s0 s) : State.Follows s0 (State.putCmd s a1) := by
  unfold State.putCmd
  repeat' first | with_reducible assumption | intro _ | with_reducible apply foldl_follows | with_reducible apply Follows.ite | split | extract_lets | with_reducible apply Follows.frame

theorem State.endCmd_follows {s0 s : State} {a1} (h : State.Follows s0 s) : State.Follows s0 (State.endCmd s a1) := by
  unfold State.endCmd
  repeat' first | with_reducible assumption | intro _ | with_reducible apply State.sendCmd_follows | with_reducible apply State.putCmd_follows | with_reducible apply foldl_follows | with_reducible apply Follows.ite | split | extract_lets | with_reducible apply Follows.frame

theorem State.resend_follows {s0 s : State} {a1} (h : State.Follows s0 s) : State.Follows s0 (State.resend s a1) := by
  unfold State.resend
  repeat' first | with_reducible assumption | intro _ | with_reducible apply State.sendCmd_follows | with_reducible apply State.putCmd_follows | with_reducible apply foldl_follows | with_reducible apply Follows.ite | split | extract_lets | with_reducible apply Follows.frame

theorem State.reissue_follows {s0 s : State} {a1} (h : State.Follows s0 s) : State.Follows s0 (State.reissue s a1) := by
  unfold State.reissue
  repeat' first | with_reducible assumption | intro _ | with_reducible apply State.resend_follows | with_reducible apply foldl_follows | with_reducible apply Follows.ite | split | extract_lets | with_reducible apply Follows.frame

end Sys2Proof.Machine
end

