-- ==== Sys2Proof/Laws/Rows.lean ====
section
/-! SUPPORT. What each operation of Machine/Rows.lean can do: what follows from a state before it follows after it (Sys2Proof.Machine.State.Follows). -/
namespace Sys2Proof.Machine

theorem State.putJournal_follows {s0 s : State} {a1} (h : State.Follows s0 s) : State.Follows s0 (State.putJournal s a1) := by
  unfold State.putJournal
  repeat' first | with_reducible assumption | intro _ | with_reducible apply foldl_follows | with_reducible apply Follows.ite | split | extract_lets | with_reducible apply Follows.frame

theorem State.putBlk_follows {s0 s : State} {a1} (h : State.Follows s0 s) : State.Follows s0 (State.putBlk s a1) := by
  unfold State.putBlk
  repeat' first | with_reducible assumption | intro _ | with_reducible apply foldl_follows | with_reducible apply Follows.ite | split | extract_lets | with_reducible apply Follows.frame

theorem State.addContent_follows {s0 s : State} {a1 a2} (h : State.Follows s0 s) : State.Follows s0 (State.addContent s a1 a2) := by
  unfold State.addContent
  repeat' first | with_reducible assumption | intro _ | with_reducible apply State.metaWrite_follows | with_reducible apply State.putBlk_follows | with_reducible apply foldl_follows | with_reducible apply Follows.ite | split | extract_lets | with_reducible apply Follows.frame

theorem State.touchGrain_follows {s0 s : State} {a1} (h : State.Follows s0 s) : State.Follows s0 (State.touchGrain s a1) := by
  unfold State.touchGrain
  repeat' first | with_reducible assumption | intro _ | with_reducible apply foldl_follows | with_reducible apply Follows.ite | split | extract_lets | with_reducible apply Follows.frame

theorem State.noteItem_follows {s0 s : State} {a1 a2} (h : State.Follows s0 s) : State.Follows s0 (State.noteItem s a1 a2) := by
  unfold State.noteItem
  repeat' first | with_reducible assumption | intro _ | with_reducible apply State.addContent_follows | with_reducible apply State.touchGrain_follows | with_reducible apply State.putBlk_follows | with_reducible apply State.putJournal_follows | with_reducible apply foldl_follows | with_reducible apply Follows.ite | split | extract_lets | with_reducible apply Follows.frame

theorem State.putRow_follows {s0 s : State} {a1} (h : State.Follows s0 s) : State.Follows s0 (State.putRow s a1) := by
  unfold State.putRow
  repeat' first | with_reducible assumption | intro _ | with_reducible apply foldl_follows | with_reducible apply Follows.ite | split | extract_lets | with_reducible apply Follows.frame

theorem State.programDie_follows {s0 s : State} {a1 a2} (h : State.Follows s0 s) : State.Follows s0 (State.programDie s a1 a2) := by
  unfold State.programDie
  repeat' first | with_reducible assumption | intro _ | with_reducible apply State.issue_follows | with_reducible apply foldl_follows | with_reducible apply Follows.ite | split | extract_lets | with_reducible apply Follows.frame

theorem State.programDies_follows {s0 s : State} {a1 a2} (h : State.Follows s0 s) : State.Follows s0 (State.programDies s a1 a2) := by
  unfold State.programDies
  repeat' first | with_reducible assumption | intro _ | with_reducible apply State.putRow_follows | with_reducible apply State.programDie_follows | with_reducible apply foldl_follows | with_reducible apply Follows.ite | split | extract_lets | with_reducible apply Follows.frame

theorem State.programIndex_follows {s0 s : State} {a1} (h : State.Follows s0 s) : State.Follows s0 (State.programIndex s a1) := by
  unfold State.programIndex
  repeat' first | with_reducible assumption | intro _ | with_reducible apply State.putJournal_follows | with_reducible apply State.issue_follows | with_reducible apply foldl_follows | with_reducible apply Follows.ite | split | extract_lets | with_reducible apply Follows.frame

theorem State.closeRow_follows {s0 s : State} {a1 a2} (h : State.Follows s0 s) : State.Follows s0 (State.closeRow s a1 a2) := by
  unfold State.closeRow
  repeat' first | with_reducible assumption | intro _ | with_reducible apply State.bumpBy_follows | with_reducible apply State.programDies_follows | with_reducible apply State.putRow_follows | with_reducible apply State.programIndex_follows | with_reducible apply State.putJournal_follows | with_reducible apply foldl_follows | with_reducible apply Follows.ite | split | extract_lets | with_reducible apply Follows.frame

theorem State.packInto_follows {s0 s : State} {a1 a2} (h : State.Follows s0 s) : State.Follows s0 (State.packInto s a1 a2) := by
  unfold State.packInto
  repeat' first | with_reducible assumption | intro _ | with_reducible apply State.noteItem_follows | with_reducible apply State.programDies_follows | with_reducible apply State.putRow_follows | with_reducible apply State.closeRow_follows | with_reducible apply foldl_follows | with_reducible apply Follows.ite | split | extract_lets | with_reducible apply Follows.frame

theorem State.askGrant_follows {s0 s : State} {a1 a2} (h : State.Follows s0 s) : State.Follows s0 (State.askGrant s a1 a2) := by
  unfold State.askGrant
  repeat' first | with_reducible assumption | intro _ | with_reducible apply State.control_follows | with_reducible apply foldl_follows | with_reducible apply Follows.ite | split | extract_lets | with_reducible apply Follows.frame

theorem State.startRow_follows {s0 s : State} {a1 a2} {t} (e : State.startRow s a1 a2 = some t) (h : State.Follows s0 s) : State.Follows s0 t := by
  unfold State.startRow at e
  split at e
  · cases e
  · cases e
    repeat' first | with_reducible assumption | with_reducible apply State.putBlk_follows | with_reducible apply State.askGrant_follows | split | extract_lets | with_reducible apply Follows.frame

theorem State.pack_follows {s0 s : State} {a1 a2 a3} (h : State.Follows s0 s) : State.Follows s0 (State.pack s a1 a2 a3) := by
  unfold State.pack
  repeat' first | with_reducible assumption | intro _ | with_reducible apply State.packInto_follows | with_reducible apply State.closeRow_follows | with_reducible refine State.startRow_follows (by assumption) ?_ | with_reducible apply State.askGrant_follows | with_reducible apply foldl_follows | with_reducible apply Follows.ite | split | extract_lets | with_reducible apply Follows.frame

theorem State.placeRec_follows {s0 s : State} {a1 a2 a3 a4} (h : State.Follows s0 s) : State.Follows s0 (State.placeRec s a1 a2 a3 a4) := by
  unfold State.placeRec
  repeat' first | with_reducible assumption | intro _ | with_reducible apply State.pack_follows | with_reducible apply State.putJournal_follows | with_reducible apply foldl_follows | with_reducible apply Follows.ite | split | extract_lets | with_reducible apply Follows.frame

theorem State.placeCfg_follows {s0 s : State} {a1} (h : State.Follows s0 s) : State.Follows s0 (State.placeCfg s a1) := by
  unfold State.placeCfg
  repeat' first | with_reducible assumption | intro _ | with_reducible apply State.placeRec_follows | with_reducible apply State.control_follows | with_reducible apply foldl_follows | with_reducible apply Follows.ite | split | extract_lets | with_reducible apply Follows.frame

theorem State.placeUnit_follows {s0 s : State} {a1} (h : State.Follows s0 s) : State.Follows s0 (State.placeUnit s a1) := by
  unfold State.placeUnit
  repeat' first | with_reducible assumption | intro _ | with_reducible apply State.placeRec_follows | with_reducible apply State.control_follows | with_reducible apply foldl_follows | with_reducible apply Follows.ite | split | extract_lets | with_reducible apply Follows.frame

theorem State.contentScan_follows {s0 s : State} {a1} (h : State.Follows s0 s) : State.Follows s0 (State.contentScan s a1) := by
  unfold State.contentScan
  repeat' first | with_reducible assumption | intro _ | with_reducible apply State.metaScan_follows | with_reducible apply foldl_follows | with_reducible apply Follows.ite | split | extract_lets | with_reducible apply Follows.frame

theorem State.seal_follows {s0 s : State} {a1 a2} (h : State.Follows s0 s) : State.Follows s0 (State.seal s a1 a2) := by
  unfold State.seal
  repeat' first | with_reducible assumption | intro _ | with_reducible apply State.bumpBy_follows | with_reducible apply State.closeRow_follows | with_reducible apply foldl_follows | with_reducible apply Follows.ite | split | extract_lets | with_reducible apply Follows.frame

theorem State.rescueIndex_follows {s0 s : State} (h : State.Follows s0 s) : State.Follows s0 (State.rescueIndex s) := by
  unfold State.rescueIndex
  repeat' first | with_reducible assumption | intro _ | with_reducible apply State.programIndex_follows | with_reducible apply foldl_follows | with_reducible apply Follows.ite | split | extract_lets | with_reducible apply Follows.frame

theorem State.resealItems_follows {s0 s : State} {a1 a2} (h : State.Follows s0 s) : State.Follows s0 (State.resealItems s a1 a2) := by
  unfold State.resealItems
  repeat' first | with_reducible assumption | intro _ | with_reducible apply State.seal_follows | with_reducible apply foldl_follows | with_reducible apply Follows.ite | split | extract_lets | with_reducible apply Follows.frame

theorem State.voidRow_follows {s0 s : State} {a1} (h : State.Follows s0 s) : State.Follows s0 (State.voidRow s a1) := by
  unfold State.voidRow
  repeat' first | with_reducible assumption | intro _ | with_reducible apply State.bump_follows | with_reducible apply State.putRow_follows | with_reducible apply State.putBlk_follows | with_reducible apply State.placeRec_follows | with_reducible apply State.resealItems_follows | with_reducible apply State.pack_follows | with_reducible apply foldl_follows | with_reducible apply Follows.ite | split | extract_lets | with_reducible apply Follows.frame

theorem State.placeParts_follows {s0 s : State} {a1 a2 a3 a4} (h : State.Follows s0 s) : State.Follows s0 (State.placeParts s a1 a2 a3 a4) := by
  unfold State.placeParts
  repeat' first | with_reducible assumption | intro _ | with_reducible apply State.pack_follows | with_reducible apply State.putJournal_follows | with_reducible apply foldl_follows | with_reducible apply Follows.ite | split | extract_lets | with_reducible apply Follows.frame

theorem State.packWaiting_follows {s0 s : State} {a1 a2} (h : State.Follows s0 s) : State.Follows s0 (State.packWaiting s a1 a2) := by
  unfold State.packWaiting
  repeat' first | with_reducible assumption | intro _ | with_reducible apply State.pack_follows | with_reducible apply State.resealItems_follows | with_reducible apply foldl_follows | with_reducible apply Follows.ite | split | extract_lets | with_reducible apply Follows.frame

theorem State.rowDone_follows {s0 s : State} {a1 a2} (h : State.Follows s0 s) : State.Follows s0 (State.rowDone s a1 a2) := by
  unfold State.rowDone
  repeat' first | with_reducible assumption | intro _ | with_reducible apply State.bump_follows | with_reducible apply State.putRow_follows | with_reducible apply State.putBlk_follows | with_reducible apply State.ptlSend_follows | with_reducible apply foldl_follows | with_reducible apply Follows.ite | split | extract_lets | with_reducible apply Follows.frame

theorem State.indexAgain_follows {s0 s : State} {a1 a2} (h : State.Follows s0 s) : State.Follows s0 (State.indexAgain s a1 a2) := by
  unfold State.indexAgain
  repeat' first | with_reducible assumption | intro _ | with_reducible apply State.putJournal_follows | with_reducible apply State.programIndex_follows | with_reducible apply foldl_follows | with_reducible apply Follows.ite | split | extract_lets | with_reducible apply Follows.frame

theorem State.askReserves_follows {s0 s : State} {a1} (h : State.Follows s0 s) : State.Follows s0 (State.askReserves s a1) := by
  unfold State.askReserves
  repeat' first | with_reducible assumption | intro _ | with_reducible apply State.askGrant_follows | with_reducible apply foldl_follows | with_reducible apply Follows.ite | split | extract_lets | with_reducible apply Follows.frame

theorem State.markSeal_follows {s0 s : State} {a1 a2} (h : State.Follows s0 s) : State.Follows s0 (State.markSeal s a1 a2) := by
  unfold State.markSeal
  repeat' first | with_reducible assumption | intro _ | with_reducible apply foldl_follows | with_reducible apply Follows.ite | split | extract_lets | with_reducible apply Follows.frame

end Sys2Proof.Machine
end

