-- ==== Sys2Proof/Laws/Brine.lean ====
section
/-! SUPPORT. What each operation of Machine/Brine.lean can do: what follows from a state before it follows after it (Sys2Proof.Machine.State.Follows). -/
namespace Sys2Proof.Machine

theorem State.discardEnt_follows {s0 s : State} {a1} (h : State.Follows s0 s) : State.Follows s0 (State.discardEnt s a1) := by
  unfold State.discardEnt
  repeat' first | with_reducible assumption | intro _ | with_reducible apply State.fillCheck_follows | with_reducible apply State.bump_follows | with_reducible apply foldl_follows | with_reducible apply Follows.ite | split | extract_lets | with_reducible apply Follows.frame

theorem State.discardCmd_follows {s0 s : State} {a1} (h : State.Follows s0 s) : State.Follows s0 (State.discardCmd s a1) := by
  unfold State.discardCmd
  repeat' first | with_reducible assumption | intro _ | with_reducible apply State.discardEnt_follows | with_reducible apply foldl_follows | with_reducible apply Follows.ite | split | extract_lets | with_reducible apply Follows.frame

theorem State.mirrorEnt_follows {s0 s : State} {a1} (h : State.Follows s0 s) : State.Follows s0 (State.mirrorEnt s a1) := by
  unfold State.mirrorEnt
  repeat' first | with_reducible assumption | intro _ | with_reducible apply State.ptlSend_follows | with_reducible apply State.bumpBy_follows | with_reducible apply foldl_follows | with_reducible apply Follows.ite | split | extract_lets | with_reducible apply Follows.frame

theorem State.putEnt_follows {s0 s : State} {a1} (h : State.Follows s0 s) : State.Follows s0 (State.putEnt s a1) := by
  unfold State.putEnt
  repeat' first | with_reducible assumption | intro _ | with_reducible apply foldl_follows | with_reducible apply Follows.ite | split | extract_lets | with_reducible apply Follows.frame

theorem State.takeFor_follows {s0 s : State} {a1} (h : State.Follows s0 s) : State.Follows s0 (State.takeFor s a1) := by
  unfold State.takeFor
  repeat' first | with_reducible assumption | intro _ | with_reducible apply State.fillCheck_follows | with_reducible apply State.putEnt_follows | with_reducible apply foldl_follows | with_reducible apply Follows.ite | split | extract_lets | with_reducible apply Follows.frame

theorem State.reserveFor_follows {s0 s : State} {a1} (h : State.Follows s0 s) : State.Follows s0 (State.reserveFor s a1) := by
  unfold State.reserveFor
  repeat' first | with_reducible assumption | intro _ | with_reducible apply State.takeFor_follows | with_reducible apply foldl_follows | with_reducible apply Follows.ite | split | extract_lets | with_reducible apply Follows.frame

theorem State.nextSeq_follows {s0 s : State} (h : State.Follows s0 s) : State.Follows s0 (State.nextSeq s).2 := by
  unfold State.nextSeq
  repeat' first | with_reducible assumption | intro _ | with_reducible apply foldl_follows | with_reducible apply Follows.ite | split | extract_lets | with_reducible apply Follows.frame

theorem State.assignSeq_follows {s0 s : State} {a1} (h : State.Follows s0 s) : State.Follows s0 (State.assignSeq s a1) := by
  unfold State.assignSeq
  repeat' first | with_reducible assumption | intro _ | with_reducible apply State.bump_follows | with_reducible apply State.putEnt_follows | with_reducible apply State.putJournal_follows | with_reducible apply State.mirrorEnt_follows | with_reducible apply foldl_follows | with_reducible apply Follows.ite | split | extract_lets | with_reducible apply Follows.frame

theorem State.checkCmd_follows {s0 s : State} {a1} (h : State.Follows s0 s) : State.Follows s0 (State.checkCmd s a1) := by
  unfold State.checkCmd
  repeat' first | with_reducible assumption | intro _ | with_reducible apply State.endIo_follows | with_reducible apply State.bump_follows | with_reducible apply foldl_follows | with_reducible apply Follows.ite | split | extract_lets | with_reducible apply Follows.frame

theorem State.writeIn_follows {s0 s : State} {a1 a2} (h : State.Follows s0 s) : State.Follows s0 (State.writeIn s a1 a2) := by
  unfold State.writeIn
  repeat' first | with_reducible assumption | intro _ | with_reducible apply State.endIo_follows | with_reducible apply State.discardCmd_follows | with_reducible apply State.putIo_follows | with_reducible apply State.assignSeq_follows | with_reducible apply State.checkCmd_follows | with_reducible apply foldl_follows | with_reducible apply Follows.ite | split | extract_lets | with_reducible apply Follows.frame

theorem State.fetchData_follows {s0 s : State} {a1 a2} (h : State.Follows s0 s) : State.Follows s0 (State.fetchData s a1 a2) := by
  unfold State.fetchData
  repeat' first | with_reducible assumption | intro _ | with_reducible apply State.putEnt_follows | with_reducible apply State.writeIn_follows | with_reducible apply State.emit_follows | with_reducible apply State.putIo_follows | with_reducible apply State.rdmaRead_follows | with_reducible apply foldl_follows | with_reducible apply Follows.ite | split | extract_lets | with_reducible apply Follows.frame

theorem State.pace_follows {s0 s : State} {a1 a2} (h : State.Follows s0 s) : State.Follows s0 (State.pace s a1 a2) := by
  unfold State.pace
  repeat' first | with_reducible assumption | intro _ | with_reducible apply State.bumpBy_follows | with_reducible apply State.fetchData_follows | with_reducible apply foldl_follows | with_reducible apply Follows.ite | split | extract_lets | with_reducible apply Follows.frame

theorem State.goEntry_follows {s0 s : State} {a1 a2 a3} (h : State.Follows s0 s) : State.Follows s0 (State.goEntry s a1 a2 a3) := by
  induction a2 generalizing s a3 with
  | zero =>
    unfold State.goEntry
    repeat' first | with_reducible assumption | with_reducible apply ih | intro _ | with_reducible apply State.takeFor_follows | with_reducible apply State.assignSeq_follows | with_reducible apply State.putEnt_follows | with_reducible apply State.bump_follows | with_reducible apply foldl_follows | with_reducible apply Follows.ite | split | extract_lets | with_reducible apply Follows.frame
  | succ n ih =>
    unfold State.goEntry
    repeat' first | with_reducible assumption | with_reducible apply ih | intro _ | with_reducible apply State.takeFor_follows | with_reducible apply State.assignSeq_follows | with_reducible apply State.putEnt_follows | with_reducible apply State.bump_follows | with_reducible apply foldl_follows | with_reducible apply Follows.ite | split | extract_lets | with_reducible apply Follows.frame

theorem State.runEntry_follows {s0 s : State} {a1} (h : State.Follows s0 s) : State.Follows s0 (State.runEntry s a1) := by
  unfold State.runEntry
  repeat' first | with_reducible assumption | intro _ | with_reducible apply State.goEntry_follows | with_reducible apply State.takeFor_follows | with_reducible apply State.pace_follows | with_reducible apply State.putIo_follows | with_reducible apply State.checkCmd_follows | with_reducible apply foldl_follows | with_reducible apply Follows.ite | split | extract_lets | with_reducible apply Follows.frame

theorem State.openEntry_follows {s0 s : State} {a1} (h : State.Follows s0 s) : State.Follows s0 (State.openEntry s a1) := by
  unfold State.openEntry
  repeat' first | with_reducible assumption | intro _ | with_reducible apply State.runEntry_follows | with_reducible apply State.bump_follows | with_reducible apply State.putEnt_follows | with_reducible apply foldl_follows | with_reducible apply Follows.ite | split | extract_lets | with_reducible apply Follows.frame

theorem State.stageCmd_follows {s0 s : State} {a1} (h : State.Follows s0 s) : State.Follows s0 (State.stageCmd s a1) := by
  unfold State.stageCmd
  repeat' first | with_reducible assumption | intro _ | with_reducible apply State.endIo_follows | with_reducible apply State.nextSeq_follows | with_reducible apply State.putIo_follows | with_reducible apply State.takeLock_follows | with_reducible apply State.pace_follows | with_reducible apply State.openEntry_follows | with_reducible apply foldl_follows | with_reducible refine snd_follows (by assumption) ?_ | with_reducible apply Follows.ite | split | extract_lets | with_reducible apply Follows.frame

theorem State.releaseMark_follows {s0 s : State} {a1} (h : State.Follows s0 s) : State.Follows s0 (State.releaseMark s a1) := by
  unfold State.releaseMark
  repeat' first | with_reducible assumption | intro _ | with_reducible apply State.ptlSend_follows | with_reducible apply State.bumpBy_follows | with_reducible apply foldl_follows | with_reducible apply Follows.ite | split | extract_lets | with_reducible apply Follows.frame

theorem State.releaseIn_follows {s0 s : State} {a1 a2} (h : State.Follows s0 s) : State.Follows s0 (State.releaseIn s a1 a2) := by
  induction a2 generalizing s with
  | zero =>
    unfold State.releaseIn
    repeat' first | with_reducible assumption | with_reducible apply ih | intro _ | with_reducible apply State.putJournal_follows | with_reducible apply State.putEnt_follows | with_reducible apply State.releaseMark_follows | with_reducible apply State.checkCmd_follows | with_reducible apply State.freeReleased_follows | with_reducible apply foldl_follows | with_reducible apply Follows.ite | split | extract_lets | with_reducible apply Follows.frame
  | succ n ih =>
    unfold State.releaseIn
    repeat' first | with_reducible assumption | with_reducible apply ih | intro _ | with_reducible apply State.putJournal_follows | with_reducible apply State.putEnt_follows | with_reducible apply State.releaseMark_follows | with_reducible apply State.checkCmd_follows | with_reducible apply State.freeReleased_follows | with_reducible apply foldl_follows | with_reducible apply Follows.ite | split | extract_lets | with_reducible apply Follows.frame

theorem State.releaseDurable_follows {s0 s : State} {a1} (h : State.Follows s0 s) : State.Follows s0 (State.releaseDurable s a1) := by
  unfold State.releaseDurable
  repeat' first | with_reducible assumption | intro _ | with_reducible apply State.releaseIn_follows | with_reducible apply foldl_follows | with_reducible apply Follows.ite | split | extract_lets | with_reducible apply Follows.frame

theorem State.checkEnts_follows {s0 s : State} (h : State.Follows s0 s) : State.Follows s0 (State.checkEnts s) := by
  unfold State.checkEnts
  repeat' first | with_reducible assumption | intro _ | with_reducible apply State.checkCmd_follows | with_reducible apply foldl_follows | with_reducible apply Follows.ite | split | extract_lets | with_reducible apply Follows.frame

theorem State.stageCheck_follows {s0 s : State} (h : State.Follows s0 s) : State.Follows s0 (State.stageCheck s) := by
  unfold State.stageCheck
  repeat' first | with_reducible assumption | intro _ | with_reducible apply State.checkEnts_follows | with_reducible apply foldl_follows | with_reducible apply Follows.ite | split | extract_lets | with_reducible apply Follows.frame

theorem execBrineReserveGrant_follows {s : State} : ∃ t, execBrineReserveGrant s = .next t ∧ State.Follows s t := by
  unfold execBrineReserveGrant
  refine ⟨_, rfl, ?_⟩
  have h := State.Follows.refl s
  repeat' first | with_reducible assumption | intro _ | with_reducible apply State.runEntry_follows | with_reducible apply foldl_follows | with_reducible apply Follows.ite | split | extract_lets | with_reducible apply Follows.frame

theorem execFlushComplete_follows {s : State} {a1} : ∃ t, execFlushComplete a1 s = .next t ∧ State.Follows s t := by
  unfold execFlushComplete
  refine ⟨_, rfl, ?_⟩
  have h := State.Follows.refl s
  repeat' first | with_reducible assumption | intro _ | with_reducible apply State.endIo_follows | with_reducible apply foldl_follows | with_reducible apply Follows.ite | split | extract_lets | with_reducible apply Follows.frame

theorem execMirrorBacklogRelease_follows {s : State} : ∃ t, execMirrorBacklogRelease s = .next t ∧ State.Follows s t := by
  unfold execMirrorBacklogRelease
  refine ⟨_, rfl, ?_⟩
  have h := State.Follows.refl s
  repeat' first | with_reducible assumption | intro _ | with_reducible apply State.fetchData_follows | with_reducible apply foldl_follows | with_reducible apply Follows.ite | split | extract_lets | with_reducible apply Follows.frame

end Sys2Proof.Machine
end

