-- ==== Sys2Proof/Laws/Anchor.lean ====
section
/-! SUPPORT. What each operation of Machine/Anchor.lean can do: what follows from a state before it follows after it (Sys2Proof.Machine.State.Follows). -/
namespace Sys2Proof.Machine

theorem State.rootTo_follows {s0 s : State} {a1 a2} (h : State.Follows s0 s) : State.Follows s0 (State.rootTo s a1 a2) := by
  unfold State.rootTo
  repeat' first | with_reducible assumption | intro _ | with_reducible apply State.issue_follows | with_reducible apply State.putJournal_follows | with_reducible apply foldl_follows | with_reducible apply Follows.ite | split | extract_lets | with_reducible apply Follows.frame

theorem State.putRoot_follows {s0 s : State} {a1 a2} (h : State.Follows s0 s) : State.Follows s0 (State.putRoot s a1 a2) := by
  unfold State.putRoot
  repeat' first | with_reducible assumption | intro _ | with_reducible apply State.putJournal_follows | with_reducible apply State.rootTo_follows | with_reducible apply State.bump_follows | with_reducible apply foldl_follows | with_reducible apply Follows.ite | split | extract_lets | with_reducible apply Follows.frame

theorem State.freeMeta_follows {s0 s : State} {a1} (h : State.Follows s0 s) : State.Follows s0 (State.freeMeta s a1) := by
  unfold State.freeMeta
  repeat' first | with_reducible assumption | intro _ | with_reducible apply foldl_follows | with_reducible apply Follows.ite | split | extract_lets | with_reducible apply Follows.frame

theorem State.rootSettled_follows {s0 s : State} {a1} (h : State.Follows s0 s) : State.Follows s0 (State.rootSettled s a1) := by
  unfold State.rootSettled
  repeat' first | with_reducible assumption | intro _ | with_reducible apply State.freeMeta_follows | with_reducible apply State.putJournal_follows | with_reducible apply foldl_follows | with_reducible apply Follows.ite | split | extract_lets | with_reducible apply Follows.frame

theorem State.anchorCheck_follows {s0 s : State} (h : State.Follows s0 s) : State.Follows s0 (State.anchorCheck s) := by
  unfold State.anchorCheck
  repeat' first | with_reducible assumption | intro _ | with_reducible apply State.rootSettled_follows | with_reducible apply State.rootTo_follows | with_reducible apply foldl_follows | with_reducible apply Follows.ite | split | extract_lets | with_reducible apply Follows.frame

theorem State.ckptRoots_follows {s0 s : State} {a1 a2} (h : State.Follows s0 s) : State.Follows s0 (State.ckptRoots s a1 a2) := by
  induction a2 generalizing s with
  | zero =>
    unfold State.ckptRoots
    repeat' first | with_reducible assumption | with_reducible apply ih | intro _ | with_reducible apply State.putJournal_follows | with_reducible apply State.putRoot_follows | with_reducible apply foldl_follows | with_reducible apply Follows.ite | split | extract_lets | with_reducible apply Follows.frame
  | succ n ih =>
    unfold State.ckptRoots
    repeat' first | with_reducible assumption | with_reducible apply ih | intro _ | with_reducible apply State.putJournal_follows | with_reducible apply State.putRoot_follows | with_reducible apply foldl_follows | with_reducible apply Follows.ite | split | extract_lets | with_reducible apply Follows.frame

theorem State.ckptCheck_follows {s0 s : State} {a1} (h : State.Follows s0 s) : State.Follows s0 (State.ckptCheck s a1) := by
  unfold State.ckptCheck
  repeat' first | with_reducible assumption | intro _ | with_reducible apply State.ckptRoots_follows | with_reducible apply foldl_follows | with_reducible apply Follows.ite | split | extract_lets | with_reducible apply Follows.frame

end Sys2Proof.Machine
end

