-- ==== Sys2Proof/Laws/Cores.lean ====
section
/-! SUPPORT. What each operation of Machine/Cores.lean can do: what follows from a state before it follows after it (Sys2Proof.Machine.State.Follows). -/
namespace Sys2Proof.Machine

theorem State.putEngJob_follows {s0 s : State} {a1} (h : State.Follows s0 s) : State.Follows s0 (State.putEngJob s a1) := by
  unfold State.putEngJob
  repeat' first | with_reducible assumption | intro _ | with_reducible apply foldl_follows | with_reducible apply Follows.ite | split | extract_lets | with_reducible apply Follows.frame

theorem State.schedCtx_follows {s0 s : State} {a1 a2 a3} (h : State.Follows s0 s) : State.Follows s0 (State.schedCtx s a1 a2 a3) := by
  unfold State.schedCtx
  dsimp only
  repeat' first | with_reducible assumption | intro _ | with_reducible apply State.bump_follows | with_reducible apply foldl_follows | with_reducible apply Follows.ite | split | with_reducible apply Follows.frame

theorem State.countReissue_follows {s0 s : State} {a1} (h : State.Follows s0 s) : State.Follows s0 (State.countReissue s a1) := by
  unfold State.countReissue
  repeat' first | with_reducible assumption | intro _ | with_reducible apply State.bump_follows | with_reducible apply foldl_follows | with_reducible apply Follows.ite | split | extract_lets | with_reducible apply Follows.frame

theorem State.runJob_follows {s0 s : State} {a1 a2} (h : State.Follows s0 s) : State.Follows s0 (State.runJob s a1 a2) := by
  unfold State.runJob
  repeat' first | with_reducible assumption | intro _ | with_reducible apply State.putEngJob_follows | with_reducible apply State.schedCtx_follows | with_reducible apply State.event_follows | with_reducible apply State.countReissue_follows | with_reducible apply foldl_follows | with_reducible apply Follows.ite | split | extract_lets | with_reducible apply Follows.frame

theorem State.fillCores_follows {s0 s : State} {a1 a2} (h : State.Follows s0 s) : State.Follows s0 (State.fillCores s a1 a2) := by
  induction a2 generalizing s with
  | zero =>
    unfold State.fillCores
    repeat' first | with_reducible assumption | with_reducible apply ih | intro _ | with_reducible apply State.runJob_follows | with_reducible apply foldl_follows | with_reducible apply Follows.ite | split | extract_lets | with_reducible apply Follows.frame
  | succ n ih =>
    unfold State.fillCores
    repeat' first | with_reducible assumption | with_reducible apply ih | intro _ | with_reducible apply State.runJob_follows | with_reducible apply foldl_follows | with_reducible apply Follows.ite | split | extract_lets | with_reducible apply Follows.frame

theorem State.fillEngine_follows {s0 s : State} {a1} (h : State.Follows s0 s) : State.Follows s0 (State.fillEngine s a1) := by
  unfold State.fillEngine
  repeat' first | with_reducible assumption | intro _ | with_reducible apply State.fillCores_follows | with_reducible apply foldl_follows | with_reducible apply Follows.ite | split | extract_lets | with_reducible apply Follows.frame

theorem State.startSegs_follows {s0 s : State} {a1 a2 a3 a4 a5} (h : State.Follows s0 s) : State.Follows s0 (State.startSegs s a1 a2 a3 a4 a5) := by
  unfold State.startSegs
  repeat' first | with_reducible assumption | intro _ | with_reducible apply State.fillEngine_follows | with_reducible apply foldl_follows | with_reducible apply Follows.ite | split | extract_lets | with_reducible apply Follows.frame

theorem State.startJob_follows {s0 s : State} {a1 a2 a3} (h : State.Follows s0 s) : State.Follows s0 (State.startJob s a1 a2 a3) := by
  unfold State.startJob
  repeat' first | with_reducible assumption | intro _ | with_reducible apply State.startSegs_follows | with_reducible apply foldl_follows | with_reducible apply Follows.ite | split | extract_lets | with_reducible apply Follows.frame

theorem State.dropCtx_follows {s0 s : State} {a1 a2} (h : State.Follows s0 s) : State.Follows s0 (State.dropCtx s a1 a2) := by
  unfold State.dropCtx
  repeat' first | with_reducible assumption | intro _ | with_reducible apply foldl_follows | with_reducible apply Follows.ite | split | extract_lets | with_reducible apply Follows.frame

end Sys2Proof.Machine
end

