-- ==== Sys2Proof/Laws/Units.lean ====
section
/-! SUPPORT. What each operation of Machine/Units.lean can do: what follows from a state before it follows after it (Sys2Proof.Machine.State.Follows). -/
namespace Sys2Proof.Machine

theorem State.putUnit_follows {s0 s : State} {a1} (h : State.Follows s0 s) : State.Follows s0 (State.putUnit s a1) := by
  unfold State.putUnit
  repeat' first | with_reducible assumption | intro _ | with_reducible apply State.llcWrite_follows | with_reducible apply foldl_follows | with_reducible apply Follows.ite | split | extract_lets | with_reducible apply Follows.frame

theorem State.reliabilityCheck_follows {s0 s : State} (h : State.Follows s0 s) : State.Follows s0 (State.reliabilityCheck s) := by
  unfold State.reliabilityCheck
  repeat' first | with_reducible assumption | intro _ | with_reducible apply State.warnOff_follows | with_reducible apply foldl_follows | with_reducible apply Follows.ite | split | extract_lets | with_reducible apply Follows.frame

theorem State.setUnitState_follows {s0 s : State} {a1 a2 a3} (h : State.Follows s0 s) : State.Follows s0 (State.setUnitState s a1 a2 a3) := by
  unfold State.setUnitState
  repeat' first | with_reducible assumption | intro _ | with_reducible apply State.putUnit_follows | with_reducible apply State.event_follows | with_reducible apply State.reliabilityCheck_follows | with_reducible apply State.alarm_follows | with_reducible apply foldl_follows | with_reducible apply Follows.ite | split | extract_lets | with_reducible apply Follows.frame

theorem State.putWear_follows {s0 s : State} {a1} (h : State.Follows s0 s) : State.Follows s0 (State.putWear s a1) := by
  unfold State.putWear
  repeat' first | with_reducible assumption | intro _ | with_reducible apply foldl_follows | with_reducible apply Follows.ite | split | extract_lets | with_reducible apply Follows.frame

theorem State.noteSpares_follows {s0 s : State} {a1} (h : State.Follows s0 s) : State.Follows s0 (State.noteSpares s a1) := by
  unfold State.noteSpares
  repeat' first | with_reducible assumption | intro _ | with_reducible apply State.putWear_follows | with_reducible apply foldl_follows | with_reducible apply Follows.ite | split | extract_lets | with_reducible apply Follows.frame

theorem State.putMod_follows {s0 s : State} {a1} (h : State.Follows s0 s) : State.Follows s0 (State.putMod s a1) := by
  unfold State.putMod
  repeat' first | with_reducible assumption | intro _ | with_reducible apply foldl_follows | with_reducible apply Follows.ite | split | extract_lets | with_reducible apply Follows.frame

end Sys2Proof.Machine
end

