-- ==== Sys2Proof/Laws/Pans.lean ====
section
/-! SUPPORT. What each operation of Machine/Pans.lean can do: what follows from a state before it follows after it (Sys2Proof.Machine.State.Follows). -/
namespace Sys2Proof.Machine

theorem State.leavePan_follows {s0 s : State} {a1} (h : State.Follows s0 s) : State.Follows s0 (State.leavePan s a1) := by
  unfold State.leavePan
  repeat' first | with_reducible assumption | intro _ | with_reducible apply State.putUnit_follows | with_reducible apply foldl_follows | with_reducible apply Follows.ite | split | extract_lets | with_reducible apply Follows.frame

theorem State.clearSubst_follows {s0 s : State} {a1} (h : State.Follows s0 s) : State.Follows s0 (State.clearSubst s a1) := by
  unfold State.clearSubst
  repeat' first | with_reducible assumption | intro _ | with_reducible apply State.putUnit_follows | with_reducible apply foldl_follows | with_reducible apply Follows.ite | split | extract_lets | with_reducible apply Follows.frame

theorem State.joinPan_follows {s0 s : State} {a1 a2 a3 a4} (h : State.Follows s0 s) : State.Follows s0 (State.joinPan s a1 a2 a3 a4) := by
  unfold State.joinPan
  repeat' first | with_reducible assumption | intro _ | with_reducible apply State.putUnit_follows | with_reducible apply State.noteSpares_follows | with_reducible apply foldl_follows | with_reducible apply Follows.ite | split | extract_lets | with_reducible apply Follows.frame

theorem State.dueRebuild_follows {s0 s : State} {a1 a2 a3} (h : State.Follows s0 s) : State.Follows s0 (State.dueRebuild s a1 a2 a3) := by
  unfold State.dueRebuild
  repeat' first | with_reducible assumption | intro _ | with_reducible apply foldl_follows | with_reducible apply Follows.ite | split | extract_lets | with_reducible apply Follows.frame

theorem State.assignSubst_follows {s0 s : State} {a1 a2 a3} (h : State.Follows s0 s) : State.Follows s0 (State.assignSubst s a1 a2 a3) := by
  unfold State.assignSubst
  repeat' first | with_reducible assumption | intro _ | with_reducible apply State.joinPan_follows | with_reducible apply State.leavePan_follows | with_reducible apply State.putUnit_follows | with_reducible apply State.bump_follows | with_reducible apply State.dueRebuild_follows | with_reducible apply foldl_follows | with_reducible apply Follows.ite | split | extract_lets | with_reducible apply Follows.frame

theorem State.noSpare_follows {s0 s : State} {a1 a2} (h : State.Follows s0 s) : State.Follows s0 (State.noSpare s a1 a2) := by
  unfold State.noSpare
  repeat' first | with_reducible assumption | intro _ | with_reducible apply State.event_follows | with_reducible apply foldl_follows | with_reducible apply Follows.ite | split | extract_lets | with_reducible apply Follows.frame

theorem State.buildPan_follows {s0 s : State} {a1 a2 a3 a4 a5} (h : State.Follows s0 s) : State.Follows s0 (State.buildPan s a1 a2 a3 a4 a5) := by
  unfold State.buildPan
  repeat' first | with_reducible assumption | intro _ | with_reducible apply State.putUnit_follows | with_reducible apply State.joinPan_follows | with_reducible apply State.setUnitState_follows | with_reducible apply foldl_follows | with_reducible apply Follows.ite | split | extract_lets | with_reducible apply Follows.frame

theorem State.substitute_follows {s0 s : State} {a1 a2} (h : State.Follows s0 s) : State.Follows s0 (State.substitute s a1 a2) := by
  unfold State.substitute
  repeat' first | with_reducible assumption | intro _ | with_reducible apply State.assignSubst_follows | with_reducible apply State.noSpare_follows | with_reducible apply State.placeUnit_follows | with_reducible apply State.buildPan_follows | with_reducible apply foldl_follows | with_reducible apply Follows.ite | split | extract_lets | with_reducible apply Follows.frame

theorem State.recount_follows {s0 s : State} {a1 a2} (h : State.Follows s0 s) : State.Follows s0 (State.recount s a1 a2) := by
  induction a1 generalizing s a2 with
  | zero =>
    unfold State.recount
    repeat' first | with_reducible assumption | with_reducible apply ih | intro _ | with_reducible apply State.clearSubst_follows | with_reducible apply State.setUnitState_follows | with_reducible apply State.substitute_follows | with_reducible apply State.placeUnit_follows | with_reducible apply foldl_follows | with_reducible apply Follows.ite | split | extract_lets | with_reducible apply Follows.frame
  | succ n ih =>
    unfold State.recount
    repeat' first | with_reducible assumption | with_reducible apply ih | intro _ | with_reducible apply State.clearSubst_follows | with_reducible apply State.setUnitState_follows | with_reducible apply State.substitute_follows | with_reducible apply State.placeUnit_follows | with_reducible apply foldl_follows | with_reducible apply Follows.ite | split | extract_lets | with_reducible apply Follows.frame

theorem State.retrySubst_follows {s0 s : State} (h : State.Follows s0 s) : State.Follows s0 (State.retrySubst s) := by
  unfold State.retrySubst
  repeat' first | with_reducible assumption | intro _ | with_reducible apply State.recount_follows | with_reducible apply foldl_follows | with_reducible apply Follows.ite | split | extract_lets | with_reducible apply Follows.frame

theorem State.leafIn_follows {s0 s : State} {a1} (h : State.Follows s0 s) : State.Follows s0 (State.leafIn s a1) := by
  unfold State.leafIn
  repeat' first | with_reducible assumption | intro _ | with_reducible apply State.placeUnit_follows | with_reducible apply State.setUnitState_follows | with_reducible apply State.leavePan_follows | with_reducible apply State.retrySubst_follows | with_reducible apply foldl_follows | with_reducible apply Follows.ite | split | extract_lets | with_reducible apply Follows.frame

theorem State.ownOut_follows {s0 s : State} {a1 a2 a3} (h : State.Follows s0 s) : State.Follows s0 (State.ownOut s a1 a2 a3) := by
  unfold State.ownOut
  repeat' first | with_reducible assumption | intro _ | with_reducible apply State.placeUnit_follows | with_reducible apply State.bump_follows | with_reducible apply foldl_follows | with_reducible apply Follows.ite | split | extract_lets | with_reducible apply Follows.frame

theorem State.recountParent_follows {s0 s : State} {a1} (h : State.Follows s0 s) : State.Follows s0 (State.recountParent s a1) := by
  unfold State.recountParent
  repeat' first | with_reducible assumption | intro _ | with_reducible apply State.recount_follows | with_reducible apply foldl_follows | with_reducible apply Follows.ite | split | extract_lets | with_reducible apply Follows.frame

theorem State.dropDieCmds_follows {s0 s : State} {a1} (h : State.Follows s0 s) : State.Follows s0 (State.dropDieCmds s a1) := by
  unfold State.dropDieCmds
  repeat' first | with_reducible assumption | intro _ | with_reducible apply foldl_follows | with_reducible apply Follows.ite | split | extract_lets | with_reducible apply Follows.frame

theorem State.voidRowsOn_follows {s0 s : State} {a1} (h : State.Follows s0 s) : State.Follows s0 (State.voidRowsOn s a1) := by
  unfold State.voidRowsOn
  repeat' first | with_reducible assumption | intro _ | with_reducible apply State.voidRow_follows | with_reducible apply foldl_follows | with_reducible apply Follows.ite | split | extract_lets | with_reducible apply Follows.frame

theorem State.dieDown_follows {s0 s : State} {a1 a2 a3 a4} (h : State.Follows s0 s) : State.Follows s0 (State.dieDown s a1 a2 a3 a4) := by
  unfold State.dieDown
  repeat' first | with_reducible assumption | intro _ | with_reducible apply State.ownOut_follows | with_reducible apply State.setUnitState_follows | with_reducible apply State.recountParent_follows | with_reducible apply State.rescueIndex_follows | with_reducible apply State.dropDieCmds_follows | with_reducible apply State.voidRowsOn_follows | with_reducible apply foldl_follows | with_reducible apply Follows.ite | split | extract_lets | with_reducible apply Follows.frame

theorem State.moduleDown_follows {s0 s : State} {a1 a2 a3 a4} (h : State.Follows s0 s) : State.Follows s0 (State.moduleDown s a1 a2 a3 a4) := by
  unfold State.moduleDown
  repeat' first | with_reducible assumption | intro _ | with_reducible apply State.ownOut_follows | with_reducible apply State.setUnitState_follows | with_reducible apply State.dieDown_follows | with_reducible apply State.recountParent_follows | with_reducible apply State.rescueIndex_follows | with_reducible apply foldl_follows | with_reducible apply Follows.ite | split | extract_lets | with_reducible apply Follows.frame

theorem State.moduleOut_follows {s0 s : State} {a1 a2 a3} (h : State.Follows s0 s) : State.Follows s0 (State.moduleOut s a1 a2 a3) := by
  unfold State.moduleOut
  repeat' first | with_reducible assumption | intro _ | with_reducible apply State.moduleDown_follows | with_reducible apply foldl_follows | with_reducible apply Follows.ite | split | extract_lets | with_reducible apply Follows.frame

theorem State.dieOut_follows {s0 s : State} {a1 a2 a3} (h : State.Follows s0 s) : State.Follows s0 (State.dieOut s a1 a2 a3) := by
  unfold State.dieOut
  repeat' first | with_reducible assumption | intro _ | with_reducible apply State.dieDown_follows | with_reducible apply foldl_follows | with_reducible apply Follows.ite | split | extract_lets | with_reducible apply Follows.frame

theorem State.freeMembers_follows {s0 s : State} {a1 a2} (h : State.Follows s0 s) : State.Follows s0 (State.freeMembers s a1 a2) := by
  unfold State.freeMembers
  repeat' first | with_reducible assumption | intro _ | with_reducible apply State.leavePan_follows | with_reducible apply foldl_follows | with_reducible apply Follows.ite | split | extract_lets | with_reducible apply Follows.frame

theorem State.dieAnswered_follows {s0 s : State} {a1} (h : State.Follows s0 s) : State.Follows s0 (State.dieAnswered s a1) := by
  unfold State.dieAnswered
  repeat' first | with_reducible assumption | intro _ | with_reducible apply foldl_follows | with_reducible apply Follows.ite | split | extract_lets | with_reducible apply Follows.frame

theorem State.dieMissed_follows {s0 s : State} {a1} (h : State.Follows s0 s) : State.Follows s0 (State.dieMissed s a1).1 := by
  unfold State.dieMissed
  repeat' first | with_reducible assumption | intro _ | with_reducible apply foldl_follows | with_reducible apply Follows.ite | split | extract_lets | with_reducible apply Follows.frame

end Sys2Proof.Machine
end

