-- ==== Sys2Proof/Laws/Reads.lean ====
section
/-! SUPPORT. What each operation of Machine/Reads.lean can do: what follows from a state before it follows after it (Sys2Proof.Machine.State.Follows). -/
namespace Sys2Proof.Machine

theorem State.readUnit_follows {s0 s : State} {a1 a2 a3 a4 a5 a6 a7 a8} (h : State.Follows s0 s) : State.Follows s0 (State.readUnit s a1 a2 a3 a4 a5 a6 a7 a8) := by
  unfold State.readUnit
  repeat' first | with_reducible assumption | intro _ | with_reducible apply State.issue_follows | with_reducible apply foldl_follows | with_reducible apply Follows.ite | split | extract_lets | with_reducible apply Follows.frame

theorem State.putJob_follows {s0 s : State} {a1} (h : State.Follows s0 s) : State.Follows s0 (State.putJob s a1) := by
  unfold State.putJob
  repeat' first | with_reducible assumption | intro _ | with_reducible apply foldl_follows | with_reducible apply Follows.ite | split | extract_lets | with_reducible apply Follows.frame

theorem State.putPart_follows {s0 s : State} {a1 a2 a3} (h : State.Follows s0 s) : State.Follows s0 (State.putPart s a1 a2 a3) := by
  unfold State.putPart
  repeat' first | with_reducible assumption | intro _ | with_reducible apply State.putJob_follows | with_reducible apply foldl_follows | with_reducible apply Follows.ite | split | extract_lets | with_reducible apply Follows.frame

theorem State.reconAt_follows {s0 s : State} {a1 a2 a3 a4 a5 a6} (h : State.Follows s0 s) : State.Follows s0 (State.reconAt s a1 a2 a3 a4 a5 a6) := by
  induction a1 generalizing s a2 a3 a4 a5 a6 with
  | zero =>
    unfold State.reconAt
    repeat' first | with_reducible assumption | with_reducible apply ih | intro _ | with_reducible apply State.putPart_follows | with_reducible apply State.bump_follows | with_reducible apply State.readUnit_follows | with_reducible apply foldl_follows | with_reducible apply Follows.ite | split | with_reducible apply Follows.frame
  | succ n ih =>
    unfold State.reconAt
    repeat' first | with_reducible assumption | with_reducible apply ih | intro _ | with_reducible apply State.putPart_follows | with_reducible apply State.bump_follows | with_reducible apply State.readUnit_follows | with_reducible apply foldl_follows | with_reducible apply Follows.ite | split | with_reducible apply Follows.frame

theorem State.reconstruct_follows {s0 s : State} {a1 a2} (h : State.Follows s0 s) : State.Follows s0 (State.reconstruct s a1 a2) := by
  unfold State.reconstruct
  repeat' first | with_reducible assumption | intro _ | with_reducible apply State.bump_follows | with_reducible apply State.reconAt_follows | with_reducible apply foldl_follows | with_reducible apply Follows.ite | split | extract_lets | with_reducible apply Follows.frame

theorem State.startPart_follows {s0 s : State} {a1 a2} (h : State.Follows s0 s) : State.Follows s0 (State.startPart s a1 a2) := by
  unfold State.startPart
  repeat' first | with_reducible assumption | intro _ | with_reducible apply State.readUnit_follows | with_reducible apply State.reconstruct_follows | with_reducible apply foldl_follows | with_reducible apply Follows.ite | split | extract_lets | with_reducible apply Follows.frame

theorem State.readGrain_follows {s0 s : State} {a1 a2 a3} (h : State.Follows s0 s) : State.Follows s0 (State.readGrain s a1 a2 a3) := by
  unfold State.readGrain
  repeat' first | with_reducible assumption | intro _ | with_reducible apply State.startPart_follows | with_reducible apply foldl_follows | with_reducible apply Follows.ite | split | extract_lets | with_reducible apply Follows.frame

theorem State.sourceFailed_follows {s0 s : State} {a1 a2} (h : State.Follows s0 s) : State.Follows s0 (State.sourceFailed s a1 a2) := by
  unfold State.sourceFailed
  repeat' first | with_reducible assumption | intro _ | with_reducible apply State.bump_follows | with_reducible apply State.reconAt_follows | with_reducible apply State.putPart_follows | with_reducible apply foldl_follows | with_reducible apply Follows.ite | split | extract_lets | with_reducible apply Follows.frame

theorem State.rescueReads_follows {s0 s : State} (h : State.Follows s0 s) : State.Follows s0 (State.rescueReads s) := by
  unfold State.rescueReads
  repeat' first | with_reducible assumption | intro _ | with_reducible apply State.sourceFailed_follows | with_reducible apply State.reconstruct_follows | with_reducible apply foldl_follows | with_reducible apply Follows.ite | split | extract_lets | with_reducible apply Follows.frame

theorem State.gotSource_follows {s0 s : State} {a1 a2 a3 a4} (h : State.Follows s0 s) : State.Follows s0 (State.gotSource s a1 a2 a3 a4) := by
  unfold State.gotSource
  repeat' first | with_reducible assumption | intro _ | with_reducible apply State.putPart_follows | with_reducible apply foldl_follows | with_reducible apply Follows.ite | split | extract_lets | with_reducible apply Follows.frame

theorem State.noteLevel_follows {s0 s : State} {a1 a2 a3} (h : State.Follows s0 s) : State.Follows s0 (State.noteLevel s a1 a2 a3) := by
  unfold State.noteLevel
  repeat' first | with_reducible assumption | intro _ | with_reducible apply State.bump_follows | with_reducible apply foldl_follows | with_reducible apply Follows.ite | split | extract_lets | with_reducible apply Follows.frame

theorem State.noteUnc_follows {s0 s : State} {a1 a2 a3} (h : State.Follows s0 s) : State.Follows s0 (State.noteUnc s a1 a2 a3) := by
  unfold State.noteUnc
  repeat' first | with_reducible assumption | intro _ | with_reducible apply State.bump_follows | with_reducible apply State.dieOut_follows | with_reducible apply foldl_follows | with_reducible apply Follows.ite | split | extract_lets | with_reducible apply Follows.frame

theorem State.sourceCpl_follows {s0 s : State} {a1 a2 a3 a4 a5 a6 a7 a8} (h : State.Follows s0 s) : State.Follows s0 (State.sourceCpl s a1 a2 a3 a4 a5 a6 a7 a8) := by
  unfold State.sourceCpl
  repeat' first | with_reducible assumption | intro _ | with_reducible apply State.gotSource_follows | with_reducible apply State.noteLevel_follows | with_reducible apply State.readUnit_follows | with_reducible apply State.sourceFailed_follows | with_reducible apply State.noteUnc_follows | with_reducible apply foldl_follows | with_reducible apply Follows.ite | split | extract_lets | with_reducible apply Follows.frame

theorem State.readCpl_follows {s0 s : State} {a1 a2 a3 a4 a5 a6 a7} (h : State.Follows s0 s) : State.Follows s0 (State.readCpl s a1 a2 a3 a4 a5 a6 a7) := by
  unfold State.readCpl
  repeat' first | with_reducible assumption | intro _ | with_reducible apply State.sourceCpl_follows | with_reducible apply State.noteLevel_follows | with_reducible apply State.putBlk_follows | with_reducible apply State.putPart_follows | with_reducible apply State.readUnit_follows | with_reducible apply State.reconstruct_follows | with_reducible apply State.noteUnc_follows | with_reducible apply foldl_follows | with_reducible apply Follows.ite | split | extract_lets | with_reducible apply Follows.frame

end Sys2Proof.Machine
end

