-- ==== Sys2Proof/Laws/Paging.lean ====
section
/-! SUPPORT. What each operation of Machine/Paging.lean can do: what follows from a state before it follows after it (Sys2Proof.Machine.State.Follows). -/
namespace Sys2Proof.Machine

theorem State.dropPages_follows {s0 s : State} {a1 a2} (h : State.Follows s0 s) : State.Follows s0 (State.dropPages s a1 a2) := by
  induction a2 generalizing s with
  | zero => exact h
  | succ n ih =>
    unfold State.dropPages
    dsimp only
    split
    · exact h
    · split
      · with_reducible apply ih
        with_reducible apply Follows.frame h
      · split
        · exact h
        · with_reducible apply ih
          with_reducible apply Follows.frame h

theorem State.pageCame_follows {s0 s : State} {a1} (h : State.Follows s0 s) : State.Follows s0 (State.pageCame s a1) := by
  unfold State.pageCame
  repeat' first | with_reducible assumption | intro _ | with_reducible apply State.dropPages_follows | with_reducible apply foldl_follows | with_reducible apply Follows.ite | split | extract_lets | with_reducible apply Follows.frame

theorem State.pageFetch_follows {s0 s : State} {a1 a2} (h : State.Follows s0 s) : State.Follows s0 (State.pageFetch s a1 a2) := by
  unfold State.pageFetch
  repeat' first | with_reducible assumption | intro _ | with_reducible apply State.bump_follows | with_reducible apply State.startPart_follows | with_reducible apply foldl_follows | with_reducible apply Follows.ite | split | extract_lets | with_reducible apply Follows.frame

theorem State.pageIn_follows {s0 s : State} {a1} (h : State.Follows s0 s) : State.Follows s0 (State.pageIn s a1) := by
  unfold State.pageIn
  repeat' first | with_reducible assumption | intro _ | with_reducible apply State.pageCame_follows | with_reducible apply State.pageFetch_follows | with_reducible apply foldl_follows | with_reducible apply Follows.ite | split | extract_lets | with_reducible apply Follows.frame

theorem State.keepPages_follows {s0 s : State} (h : State.Follows s0 s) : State.Follows s0 (State.keepPages s) := by
  unfold State.keepPages
  repeat' first | with_reducible assumption | intro _ | with_reducible apply State.pageIn_follows | with_reducible apply foldl_follows | with_reducible apply Follows.ite | split | extract_lets | with_reducible apply Follows.frame

theorem State.grainIn_follows {s0 s : State} {a1} (h : State.Follows s0 s) : State.Follows s0 (State.grainIn s a1) := by
  unfold State.grainIn
  repeat' first | with_reducible assumption | intro _ | with_reducible apply State.pageIn_follows | with_reducible apply State.touchGrain_follows | with_reducible apply foldl_follows | with_reducible apply Follows.ite | split | extract_lets | with_reducible apply Follows.frame

end Sys2Proof.Machine
end

