-- ==== Sys2Proof/Laws/PtlRx.lean ====
section
/-! SUPPORT. What each operation of Machine/PtlRx.lean can do: what follows from a state before it follows after it (Sys2Proof.Machine.State.Follows). -/
namespace Sys2Proof.Machine

theorem State.cfgWait_follows {s0 s : State} {a1 a2} (h : State.Follows s0 s) : State.Follows s0 (State.cfgWait s a1 a2) := by
  unfold State.cfgWait
  repeat' first | with_reducible assumption | intro _ | with_reducible apply foldl_follows | with_reducible apply Follows.ite | split | extract_lets | with_reducible apply Follows.frame

theorem State.cfgDone_follows {s0 s : State} {a1 a2} (h : State.Follows s0 s) : PktRes.Follows s0 (State.cfgDone s a1 a2) := by
  unfold State.cfgDone
  repeat' first | with_reducible assumption | intro _ | with_reducible apply State.cfgWait_follows | with_reducible exact PktRes.follows_waits | with_reducible apply PktRes.follows_done | with_reducible apply PktRes.follows_started | with_reducible apply PktRes.follows_startDone | with_reducible apply PktRes.follows_quiet | with_reducible apply foldl_follows | with_reducible apply Follows.ite | with_reducible apply PktRes.follows_ite | split | extract_lets | with_reducible apply Follows.frame

theorem State.endCfgWaits_follows {s0 s : State} {a1} (h : State.Follows s0 s) : State.Follows s0 (State.endCfgWaits s a1) := by
  unfold State.endCfgWaits
  repeat' first | with_reducible assumption | intro _ | with_reducible apply State.finish_follows | with_reducible apply foldl_follows | with_reducible apply Follows.ite | split | extract_lets | with_reducible apply Follows.frame

theorem State.ptlRetire_follows {s0 s : State} {a1 a2} (h : State.Follows s0 s) : State.Follows s0 (State.ptlRetire s a1 a2) := by
  unfold State.ptlRetire
  repeat' first | with_reducible assumption | intro _ | with_reducible apply State.setChan_follows | with_reducible apply State.endCfgWaits_follows | with_reducible apply foldl_follows | with_reducible apply Follows.ite | split | extract_lets | with_reducible apply Follows.frame

theorem State.ptlAnswer_follows {s0 s : State} {a1 a2} (h : State.Follows s0 s) : State.Follows s0 (State.ptlAnswer s a1 a2) := by
  unfold State.ptlAnswer
  repeat' first | with_reducible assumption | intro _ | with_reducible apply State.emit_follows | with_reducible apply foldl_follows | with_reducible apply Follows.ite | split | extract_lets | with_reducible apply Follows.frame

theorem State.ptlAccept_follows {s0 s : State} {a1 a2 a3} (h : State.Follows s0 s) : State.Follows s0 (State.ptlAccept s a1 a2 a3).1 := by
  unfold State.ptlAccept
  repeat' first | with_reducible assumption | intro _ | with_reducible apply State.ptlRetire_follows | with_reducible apply State.setChan_follows | with_reducible apply State.ptlAnswer_follows | with_reducible apply foldl_follows | with_reducible apply Follows.ite | split | extract_lets | with_reducible apply Follows.frame

theorem State.onPtl_follows {s0 s : State} {a1 a2 a3 a4} (h : State.Follows s0 s) (hf : ∀ x0 t, State.Follows s0 t → State.Follows s0 (a4 x0 t)) : State.Follows s0 (State.onPtl s a1 a2 a3 a4) := by
  have hp := State.ptlAccept_follows (a1 := a1) (a2 := a2) (a3 := a3) h
  unfold State.onPtl
  split
  · exact hf _ _ (fst_follows ‹_› hp)
  · exact fst_follows ‹_› hp

theorem State.cfgSteps_follows {s0 s : State} {a1 a2} (h : State.Follows s0 s) : PktRes.Follows s0 (State.cfgSteps s a1 a2) := by
  unfold State.cfgSteps
  repeat' first | with_reducible assumption | intro _ | with_reducible apply State.cfgWait_follows | with_reducible exact PktRes.follows_waits | with_reducible apply PktRes.follows_done | with_reducible apply PktRes.follows_started | with_reducible apply PktRes.follows_startDone | with_reducible apply PktRes.follows_quiet | with_reducible apply foldl_follows | with_reducible apply Follows.ite | with_reducible apply PktRes.follows_ite | split | extract_lets | with_reducible apply Follows.frame

theorem State.ptlResend_follows {s0 s : State} {a1 a2} (h : State.Follows s0 s) : State.Follows s0 (State.ptlResend s a1 a2) := by
  unfold State.ptlResend
  repeat' first | with_reducible assumption | intro _ | with_reducible apply State.bumpBy_follows | with_reducible apply State.emits_follows | with_reducible apply foldl_follows | with_reducible apply Follows.ite | split | extract_lets | with_reducible apply Follows.frame

end Sys2Proof.Machine
end

