-- ==== Sys2Proof/Laws/Harvest.lean ====
section
/-! SUPPORT. What each operation of Machine/Harvest.lean can do: what follows from a state before it follows after it (Sys2Proof.Machine.State.Follows). -/
namespace Sys2Proof.Machine

theorem State.poolRoCheck_follows {s0 s : State} (h : State.Follows s0 s) : State.Follows s0 (State.poolRoCheck s) := by
  unfold State.poolRoCheck
  repeat' first | with_reducible assumption | intro _ | with_reducible apply State.alarm_follows | with_reducible apply State.warnOff_follows | with_reducible apply State.event_follows | with_reducible apply foldl_follows | with_reducible apply Follows.ite | split | extract_lets | with_reducible apply Follows.frame

theorem State.putHarvest_follows {s0 s : State} {a1} (h : State.Follows s0 s) : State.Follows s0 (State.putHarvest s a1) := by
  unfold State.putHarvest
  repeat' first | with_reducible assumption | intro _ | with_reducible apply foldl_follows | with_reducible apply Follows.ite | split | extract_lets | with_reducible apply Follows.frame

theorem State.packCopies_follows {s0 s : State} {a1} (h : State.Follows s0 s) : State.Follows s0 (State.packCopies s a1) := by
  unfold State.packCopies
  repeat' first | with_reducible assumption | intro _ | with_reducible apply State.putHarvest_follows | with_reducible apply State.pack_follows | with_reducible apply State.bumpBy_follows | with_reducible apply foldl_follows | with_reducible apply Follows.ite | split | extract_lets | with_reducible apply Follows.frame

theorem State.commitItem_follows {s0 s : State} {a1} (h : State.Follows s0 s) : State.Follows s0 (State.commitItem s a1) := by
  unfold State.commitItem
  repeat' first | with_reducible assumption | intro _ | with_reducible apply State.bump_follows | with_reducible apply State.grainIn_follows | with_reducible apply foldl_follows | with_reducible apply Follows.ite | split | extract_lets | with_reducible apply Follows.frame

theorem execHarvestCommit_follows {s : State} {a1 a2} : ∃ t, execHarvestCommit a1 a2 s = .next t ∧ State.Follows s t := by
  unfold execHarvestCommit
  refine ⟨_, rfl, ?_⟩
  have h := State.Follows.refl s
  repeat' first | with_reducible assumption | intro _ | with_reducible apply State.commitItem_follows | with_reducible apply State.placeParts_follows | with_reducible apply State.putBlk_follows | with_reducible apply State.seal_follows | with_reducible apply State.putHarvest_follows | with_reducible apply foldl_follows | with_reducible apply Follows.ite | split | extract_lets | with_reducible apply Follows.frame

theorem State.openBlk_follows {s0 s : State} {a1 a2 a3 a4 a5 a6} (h : State.Follows s0 s) : State.Follows s0 (State.openBlk s a1 a2 a3 a4 a5 a6) := by
  unfold State.openBlk
  repeat' first | with_reducible assumption | intro _ | with_reducible apply State.putBlk_follows | with_reducible apply State.putJournal_follows | with_reducible apply foldl_follows | with_reducible apply Follows.ite | split | extract_lets | with_reducible apply Follows.frame

theorem State.recordGrant_follows {s0 s : State} {a1 a2 a3 a4 a5} (h : State.Follows s0 s) : State.Follows s0 (State.recordGrant s a1 a2 a3 a4 a5) := by
  unfold State.recordGrant
  repeat' first | with_reducible assumption | intro _ | with_reducible apply State.openBlk_follows | with_reducible apply State.bump_follows | with_reducible apply State.placeRec_follows | with_reducible apply State.packWaiting_follows | with_reducible apply foldl_follows | with_reducible apply Follows.ite | split | extract_lets | with_reducible apply Follows.frame

theorem State.grant_follows {s0 s : State} {a1 a2} (h : State.Follows s0 s) : State.Follows s0 (State.grant s a1 a2) := by
  unfold State.grant
  repeat' first | with_reducible assumption | intro _ | with_reducible apply State.poolRoCheck_follows | with_reducible apply State.control_follows | with_reducible apply State.recordGrant_follows | with_reducible apply State.openBlk_follows | with_reducible apply foldl_follows | with_reducible apply Follows.ite | split | extract_lets | with_reducible apply Follows.frame

theorem State.retryGrants_follows {s0 s : State} (h : State.Follows s0 s) : State.Follows s0 (State.retryGrants s) := by
  unfold State.retryGrants
  repeat' first | with_reducible assumption | intro _ | with_reducible apply State.grant_follows | with_reducible apply foldl_follows | with_reducible apply Follows.ite | split | extract_lets | with_reducible apply Follows.frame

theorem State.blkErased_follows {s0 s : State} {a1 a2} (h : State.Follows s0 s) : State.Follows s0 (State.blkErased s a1 a2) := by
  unfold State.blkErased
  repeat' first | with_reducible assumption | intro _ | with_reducible apply State.bump_follows | with_reducible apply State.retryGrants_follows | with_reducible apply foldl_follows | with_reducible apply Follows.ite | split | extract_lets | with_reducible apply Follows.frame

theorem State.noteRetry_follows {s0 s : State} {a1 a2} (h : State.Follows s0 s) : State.Follows s0 (State.noteRetry s a1 a2) := by
  unfold State.noteRetry
  repeat' first | with_reducible assumption | intro _ | with_reducible apply State.putWear_follows | with_reducible apply foldl_follows | with_reducible apply Follows.ite | split | extract_lets | with_reducible apply Follows.frame

theorem State.spareCheck_follows {s0 s : State} {a1} (h : State.Follows s0 s) : State.Follows s0 (State.spareCheck s a1) := by
  unfold State.spareCheck
  repeat' first | with_reducible assumption | intro _ | with_reducible apply State.warnOn_follows | with_reducible apply State.placeUnit_follows | with_reducible apply State.setUnitState_follows | with_reducible apply foldl_follows | with_reducible apply Follows.ite | split | extract_lets | with_reducible apply Follows.frame

theorem State.retire_follows {s0 s : State} {a1 a2 a3} (h : State.Follows s0 s) : State.Follows s0 (State.retire s a1 a2 a3) := by
  unfold State.retire
  repeat' first | with_reducible assumption | intro _ | with_reducible apply State.placeRec_follows | with_reducible apply State.putBlk_follows | with_reducible apply State.putWear_follows | with_reducible apply State.event_follows | with_reducible apply State.bump_follows | with_reducible apply State.spareCheck_follows | with_reducible apply foldl_follows | with_reducible apply Follows.ite | split | extract_lets | with_reducible apply Follows.frame

theorem State.eraseCpl_follows {s0 s : State} {a1 a2 a3 a4} (h : State.Follows s0 s) : State.Follows s0 (State.eraseCpl s a1 a2 a3 a4) := by
  unfold State.eraseCpl
  repeat' first | with_reducible assumption | intro _ | with_reducible apply State.putWear_follows | with_reducible apply State.blkErased_follows | with_reducible apply State.putBlk_follows | with_reducible apply State.retire_follows | with_reducible apply State.issue_follows | with_reducible apply foldl_follows | with_reducible apply Follows.ite | split | extract_lets | with_reducible apply Follows.frame

theorem State.eraseBlk_follows {s0 s : State} {a1 a2} (h : State.Follows s0 s) : State.Follows s0 (State.eraseBlk s a1 a2) := by
  unfold State.eraseBlk
  repeat' first | with_reducible assumption | intro _ | with_reducible apply State.retire_follows | with_reducible apply State.putBlk_follows | with_reducible apply State.issue_follows | with_reducible apply foldl_follows | with_reducible apply Follows.ite | split | extract_lets | with_reducible apply Follows.frame

theorem execHarvestErase_follows {s : State} {a1 a2} : ∃ t, execHarvestErase a1 a2 s = .next t ∧ State.Follows s t := by
  unfold execHarvestErase
  refine ⟨_, rfl, ?_⟩
  have h := State.Follows.refl s
  repeat' first | with_reducible assumption | intro _ | with_reducible apply State.eraseBlk_follows | with_reducible apply foldl_follows | with_reducible apply Follows.ite | split | extract_lets | with_reducible apply Follows.frame

theorem execGrantRx_follows {s : State} {a1 a2} : ∃ t, execGrantRx a1 a2 s = .next t ∧ State.Follows s t := by
  unfold execGrantRx
  refine ⟨_, rfl, ?_⟩
  have h := State.Follows.refl s
  repeat' first | with_reducible assumption | intro _ | with_reducible apply State.onPtl_follows | with_reducible apply State.recordGrant_follows | with_reducible apply State.openBlk_follows | with_reducible apply foldl_follows | with_reducible apply Follows.ite | split | extract_lets | with_reducible apply Follows.frame

theorem execHarvestCopy_follows {s : State} {a1 a2} : ∃ t, execHarvestCopy a1 a2 s = .next t ∧ State.Follows s t := by
  unfold execHarvestCopy
  refine ⟨_, rfl, ?_⟩
  have h := State.Follows.refl s
  repeat' first | with_reducible assumption | intro _ | with_reducible apply State.contentScan_follows | with_reducible apply State.putHarvest_follows | with_reducible apply State.readGrain_follows | with_reducible apply State.packCopies_follows | with_reducible apply foldl_follows | with_reducible apply Follows.ite | split | extract_lets | with_reducible apply Follows.frame

theorem execHarvestStart_follows {s : State} {a1 a2} : ∃ t, execHarvestStart a1 a2 s = .next t ∧ State.Follows s t := by
  unfold execHarvestStart
  refine ⟨_, rfl, ?_⟩
  have h := State.Follows.refl s
  repeat' first | with_reducible assumption | intro _ | with_reducible apply State.bump_follows | with_reducible apply State.putBlk_follows | with_reducible apply State.placeRec_follows | with_reducible apply State.seal_follows | with_reducible apply foldl_follows | with_reducible apply Follows.ite | split | extract_lets | with_reducible apply Follows.frame

theorem execGrantRequestRx_follows {s : State} {a1 a2 a3} : ∃ t, execGrantRequestRx a1 a2 a3 s = .next t ∧ State.Follows s t := by
  unfold execGrantRequestRx
  refine ⟨_, rfl, ?_⟩
  have h := State.Follows.refl s
  repeat' first | with_reducible assumption | intro _ | with_reducible apply State.onPtl_follows | with_reducible apply State.grant_follows | with_reducible apply foldl_follows | with_reducible apply Follows.ite | split | extract_lets | with_reducible apply Follows.frame

end Sys2Proof.Machine
end

