-- ==== Sys2Proof/Laws/Link.lean ====
section
/-! SUPPORT. What each operation of Machine/Link.lean can do: what follows from a state before it follows after it (Sys2Proof.Machine.State.Follows). -/
namespace Sys2Proof.Machine

theorem State.leadCheck_follows {s0 s : State} (h : State.Follows s0 s) : State.Follows s0 (State.leadCheck s) := by
  unfold State.leadCheck
  repeat' first | with_reducible assumption | intro _ | with_reducible apply State.control_follows | with_reducible apply foldl_follows | with_reducible apply Follows.ite | split | extract_lets | with_reducible apply Follows.frame

theorem State.askParam_follows {s0 s : State} {a1 a2 a3 a4} (h : State.Follows s0 s) : State.Follows s0 (State.askParam s a1 a2 a3 a4) := by
  unfold State.askParam
  repeat' first | with_reducible assumption | intro _ | with_reducible apply State.issue_follows | with_reducible apply foldl_follows | with_reducible apply Follows.ite | split | extract_lets | with_reducible apply Follows.frame

theorem State.askReserve_follows {s0 s : State} {a1} (h : State.Follows s0 s) : State.Follows s0 (State.askReserve s a1) := by
  unfold State.askReserve
  repeat' first | with_reducible assumption | intro _ | with_reducible apply State.issue_follows | with_reducible apply foldl_follows | with_reducible apply Follows.ite | split | extract_lets | with_reducible apply Follows.frame

theorem State.discoverDie_follows {s0 s : State} {a1 a2} (h : State.Follows s0 s) : State.Follows s0 (State.discoverDie s a1 a2) := by
  unfold State.discoverDie
  repeat' first | with_reducible assumption | intro _ | with_reducible apply State.askParam_follows | with_reducible apply State.askReserve_follows | with_reducible apply foldl_follows | with_reducible apply Follows.ite | split | extract_lets | with_reducible apply Follows.frame

theorem State.gotModRecord_follows {s0 s : State} {a1 a2 a3} (h : State.Follows s0 s) : State.Follows s0 (State.gotModRecord s a1 a2 a3) := by
  unfold State.gotModRecord
  repeat' first | with_reducible assumption | intro _ | with_reducible apply State.askParam_follows | with_reducible apply State.askReserve_follows | with_reducible apply State.putMod_follows | with_reducible apply State.discoverDie_follows | with_reducible apply foldl_follows | with_reducible apply Follows.ite | split | extract_lets | with_reducible apply Follows.frame

theorem State.gotDieRecord_follows {s0 s : State} {a1 a2 a3 a4} (h : State.Follows s0 s) : State.Follows s0 (State.gotDieRecord s a1 a2 a3 a4) := by
  unfold State.gotDieRecord
  repeat' first | with_reducible assumption | intro _ | with_reducible apply State.askParam_follows | with_reducible apply State.discoverDie_follows | with_reducible apply State.putMod_follows | with_reducible apply foldl_follows | with_reducible apply Follows.ite | split | extract_lets | with_reducible apply Follows.frame

theorem State.judgeModule_follows {s0 s : State} {a1} (h : State.Follows s0 s) : State.Follows s0 (State.judgeModule s a1) := by
  unfold State.judgeModule
  repeat' first | with_reducible assumption | intro _ | with_reducible apply State.putMod_follows | with_reducible apply State.setUnitState_follows | with_reducible apply State.retrySubst_follows | with_reducible apply State.moduleOut_follows | with_reducible apply State.event_follows | with_reducible apply foldl_follows | with_reducible apply Follows.ite | split | extract_lets | with_reducible apply Follows.frame

theorem rowDieCommandTimeout_follows {s0 s : State} {a1 a2} (h : State.Follows s0 s) : State.Follows s0 (rowDieCommandTimeout a1 a2 s) := by
  unfold rowDieCommandTimeout
  repeat' first | with_reducible assumption | intro _ | with_reducible apply State.endCmd_follows | with_reducible apply State.reissue_follows | with_reducible apply State.dieMissed_follows | with_reducible apply State.rescueReads_follows | with_reducible apply State.dieOut_follows | with_reducible apply foldl_follows | with_reducible refine fst_follows (by assumption) ?_ | with_reducible apply Follows.ite | split | extract_lets | with_reducible apply Follows.frame

theorem execModuleBusyRetry_follows {s : State} {a1 a2} : ∃ t, execModuleBusyRetry a1 a2 s = .next t ∧ State.Follows s t := by
  unfold execModuleBusyRetry
  refine ⟨_, rfl, ?_⟩
  have h := State.Follows.refl s
  repeat' first | with_reducible assumption | intro _ | with_reducible apply State.sendCmd_follows | with_reducible apply State.putCmd_follows | with_reducible apply foldl_follows | with_reducible apply Follows.ite | split | extract_lets | with_reducible apply Follows.frame

theorem State.failModule_follows {s0 s : State} {a1 a2} (h : State.Follows s0 s) : State.Follows s0 (State.failModule s a1 a2) := by
  unfold State.failModule
  repeat' first | with_reducible assumption | intro _ | with_reducible apply State.rescueReads_follows | with_reducible apply State.moduleOut_follows | with_reducible apply foldl_follows | with_reducible apply Follows.ite | split | extract_lets | with_reducible apply Follows.frame

theorem State.loseProxied_follows {s0 s : State} (h : State.Follows s0 s) : State.Follows s0 (State.loseProxied s) := by
  unfold State.loseProxied
  repeat' first | with_reducible assumption | intro _ | with_reducible apply State.failModule_follows | with_reducible apply foldl_follows | with_reducible apply Follows.ite | split | extract_lets | with_reducible apply Follows.frame

theorem execModuleStatusPoll_follows {s : State} : ∃ t, execModuleStatusPoll s = .next t ∧ State.Follows s t := by
  unfold execModuleStatusPoll
  refine ⟨_, rfl, ?_⟩
  have h := State.Follows.refl s
  repeat' first | with_reducible assumption | intro _ | with_reducible apply State.issue_follows | with_reducible apply foldl_follows | with_reducible apply Follows.ite | split | extract_lets | with_reducible apply Follows.frame

theorem execGetModuleInfo_follows {s : State} {a1 a2} : ∃ t, execGetModuleInfo a1 a2 s = .next t ∧ State.Follows s t := by
  unfold execGetModuleInfo
  refine ⟨_, rfl, ?_⟩
  have h := State.Follows.refl s
  repeat' first | with_reducible assumption | intro _ | with_reducible apply State.packet_follows | with_reducible apply PktRes.fail_follows | with_reducible exact PktRes.follows_waits | with_reducible apply PktRes.follows_done | with_reducible apply PktRes.follows_started | with_reducible apply PktRes.follows_startDone | with_reducible apply PktRes.follows_quiet | with_reducible apply foldl_follows | with_reducible apply Follows.ite | with_reducible apply PktRes.follows_ite | split | extract_lets | with_reducible apply Follows.frame

theorem rowModulePresenceLost_follows {s0 s : State} {a1} (h : State.Follows s0 s) : State.Follows s0 (rowModulePresenceLost a1 s) := by
  unfold rowModulePresenceLost
  repeat' first | with_reducible assumption | intro _ | with_reducible apply State.failModule_follows | with_reducible apply State.putMod_follows | with_reducible apply foldl_follows | with_reducible apply Follows.ite | split | extract_lets | with_reducible apply Follows.frame

theorem rowModuleEventRx_follows {s0 s : State} {a1 a2 a3} (h : State.Follows s0 s) : State.Follows s0 (rowModuleEventRx a1 a2 a3 s) := by
  unfold rowModuleEventRx
  repeat' first | with_reducible assumption | intro _ | with_reducible apply State.bump_follows | with_reducible apply State.rescueReads_follows | with_reducible apply State.dieOut_follows | with_reducible apply State.failModule_follows | with_reducible apply State.event_follows | with_reducible apply foldl_follows | with_reducible apply Follows.ite | split | extract_lets | with_reducible apply Follows.frame

theorem State.throughPeer_follows {s0 s : State} {a1} (h : State.Follows s0 s) : State.Follows s0 (State.throughPeer s a1) := by
  unfold State.throughPeer
  repeat' first | with_reducible assumption | intro _ | with_reducible apply State.putCmd_follows | with_reducible apply State.bump_follows | with_reducible apply State.sendCmd_follows | with_reducible apply State.askReserve_follows | with_reducible apply State.resend_follows | with_reducible apply foldl_follows | with_reducible apply Follows.ite | split | extract_lets | with_reducible apply Follows.frame

theorem rowMediaPortDown_follows {s0 s : State} {a1} (h : State.Follows s0 s) : State.Follows s0 (rowMediaPortDown a1 s) := by
  unfold rowMediaPortDown
  repeat' first | with_reducible assumption | intro _ | with_reducible apply State.bump_follows | with_reducible apply State.putMod_follows | with_reducible apply State.setUnitState_follows | with_reducible apply State.throughPeer_follows | with_reducible apply State.failModule_follows | with_reducible apply foldl_follows | with_reducible apply Follows.ite | split | extract_lets | with_reducible apply Follows.frame

theorem execMediaPortUp_follows {s : State} {a1 a2 a3 a4} : ∃ t, execMediaPortUp a1 a2 a3 a4 s = .next t ∧ State.Follows s t := by
  unfold execMediaPortUp
  refine ⟨_, rfl, ?_⟩
  have h := State.Follows.refl s
  repeat' first | with_reducible assumption | intro _ | with_reducible apply State.putMod_follows | with_reducible apply State.askParam_follows | with_reducible apply foldl_follows | with_reducible apply Follows.ite | split | extract_lets | with_reducible apply Follows.frame

theorem rowBookedReadTimeout_follows {s0 s : State} {a1} (h : State.Follows s0 s) : State.Follows s0 (rowBookedReadTimeout a1 s) := by
  unfold rowBookedReadTimeout
  repeat' first | with_reducible assumption | intro _ | with_reducible apply State.bumpBy_follows | with_reducible apply State.readUnit_follows | with_reducible apply State.reconstruct_follows | with_reducible apply foldl_follows | with_reducible apply Follows.ite | split | extract_lets | with_reducible apply Follows.frame

end Sys2Proof.Machine
end

