-- ==== Sys2Proof/Laws/Maps.lean ====
section
/-! SUPPORT. What each operation of Machine/Maps.lean can do: what follows from a state before it follows after it (Sys2Proof.Machine.State.Follows). -/
namespace Sys2Proof.Machine

theorem State.notePast_follows {s0 s : State} {a1 a2 a3} (h : State.Follows s0 s) : State.Follows s0 (State.notePast s a1 a2 a3) := by
  unfold State.notePast
  repeat' first | with_reducible assumption | intro _ | with_reducible apply foldl_follows | with_reducible apply Follows.ite | split | extract_lets | with_reducible apply Follows.frame

theorem State.putGroup_follows {s0 s : State} {a1} (h : State.Follows s0 s) : State.Follows s0 (State.putGroup s a1) := by
  unfold State.putGroup
  repeat' first | with_reducible assumption | intro _ | with_reducible apply foldl_follows | with_reducible apply Follows.ite | split | extract_lets | with_reducible apply Follows.frame

theorem State.putMap_follows {s0 s : State} {a1} (h : State.Follows s0 s) : State.Follows s0 (State.putMap s a1) := by
  unfold State.putMap
  repeat' first | with_reducible assumption | intro _ | with_reducible apply foldl_follows | with_reducible apply Follows.ite | split | extract_lets | with_reducible apply Follows.frame

theorem State.putVol_follows {s0 s : State} {a1} (h : State.Follows s0 s) : State.Follows s0 (State.putVol s a1) := by
  unfold State.putVol
  repeat' first | with_reducible assumption | intro _ | with_reducible apply foldl_follows | with_reducible apply Follows.ite | split | extract_lets | with_reducible apply Follows.frame

theorem State.lookUp_follows {s0 s : State} {a1 a2} (h : State.Follows s0 s) : State.Follows s0 (State.lookUp s a1 a2) := by
  unfold State.lookUp
  repeat' first | with_reducible assumption | intro _ | with_reducible apply State.pageIn_follows | with_reducible apply foldl_follows | with_reducible apply Follows.ite | split | extract_lets | with_reducible apply Follows.frame

theorem State.putGrain_follows {s0 s : State} {a1} (h : State.Follows s0 s) : State.Follows s0 (State.putGrain s a1) := by
  unfold State.putGrain
  repeat' first | with_reducible assumption | intro _ | with_reducible apply State.metaWrite_follows | with_reducible apply State.grainIn_follows | with_reducible apply foldl_follows | with_reducible apply Follows.ite | split | extract_lets | with_reducible apply Follows.frame

theorem State.touchIdx_follows {s0 s : State} {a1 a2} (h : State.Follows s0 s) : State.Follows s0 (State.touchIdx s a1 a2) := by
  unfold State.touchIdx
  repeat' first | with_reducible assumption | intro _ | with_reducible apply foldl_follows | with_reducible apply Follows.ite | split | extract_lets | with_reducible apply Follows.frame

theorem State.unindex_follows {s0 s : State} {a1} (h : State.Follows s0 s) : State.Follows s0 (State.unindex s a1) := by
  unfold State.unindex
  repeat' first | with_reducible assumption | intro _ | with_reducible apply State.grainIn_follows | with_reducible apply State.metaWrite_follows | with_reducible apply State.touchIdx_follows | with_reducible apply foldl_follows | with_reducible apply Follows.ite | split | extract_lets | with_reducible apply Follows.frame

theorem State.addRef_follows {s0 s : State} {a1} (h : State.Follows s0 s) : State.Follows s0 (State.addRef s a1) := by
  unfold State.addRef
  repeat' first | with_reducible assumption | intro _ | with_reducible apply State.putGrain_follows | with_reducible apply State.unindex_follows | with_reducible apply State.bump_follows | with_reducible apply foldl_follows | with_reducible apply Follows.ite | split | extract_lets | with_reducible apply Follows.frame

theorem State.copyRef_follows {s0 s : State} {a1} (h : State.Follows s0 s) : State.Follows s0 (State.copyRef s a1) := by
  unfold State.copyRef
  repeat' first | with_reducible assumption | intro _ | with_reducible apply State.putGrain_follows | with_reducible apply State.addRef_follows | with_reducible apply foldl_follows | with_reducible apply Follows.ite | split | extract_lets | with_reducible apply Follows.frame

theorem State.copyImg_follows {s0 s : State} {a1} (h : State.Follows s0 s) : State.Follows s0 (State.copyImg s a1).1 := by
  unfold State.copyImg
  repeat' first | with_reducible assumption | intro _ | with_reducible apply State.pageIn_follows | with_reducible apply State.copyRef_follows | with_reducible apply foldl_follows | with_reducible apply Follows.ite | split | extract_lets | with_reducible apply Follows.frame

theorem State.setPage_follows {s0 s : State} {a1 a2 a3 a4} (h : State.Follows s0 s) : State.Follows s0 (State.setPage s a1 a2 a3 a4) := by
  unfold State.setPage
  repeat' first | with_reducible assumption | intro _ | with_reducible apply State.putMap_follows | with_reducible apply foldl_follows | with_reducible apply Follows.ite | split | extract_lets | with_reducible apply Follows.frame

theorem State.shareMap_follows {s0 s : State} {a1 a2 a3 a4} (h : State.Follows s0 s) : State.Follows s0 (State.shareMap s a1 a2 a3 a4) := by
  unfold State.shareMap
  repeat' first | with_reducible assumption | intro _ | with_reducible apply State.putMap_follows | with_reducible apply State.copyImg_follows | with_reducible apply State.setPage_follows | with_reducible apply foldl_follows | with_reducible refine fst_follows (by assumption) ?_ | with_reducible apply Follows.ite | split | extract_lets | with_reducible apply Follows.frame

theorem State.scrubOf_follows {s0 s : State} {a1} (h : State.Follows s0 s) : State.Follows s0 (State.scrubOf s a1) := by
  unfold State.scrubOf
  repeat' first | with_reducible assumption | intro _ | with_reducible apply State.bump_follows | with_reducible apply State.putBlk_follows | with_reducible apply foldl_follows | with_reducible apply Follows.ite | split | extract_lets | with_reducible apply Follows.frame

theorem State.dropRef_follows {s0 s : State} {a1 a2} (h : State.Follows s0 s) : State.Follows s0 (State.dropRef s a1 a2) := by
  unfold State.dropRef
  repeat' first | with_reducible assumption | intro _ | with_reducible apply State.putGrain_follows | with_reducible apply State.scrubOf_follows | with_reducible apply State.unindex_follows | with_reducible apply State.grainIn_follows | with_reducible apply foldl_follows | with_reducible apply Follows.ite | split | extract_lets | with_reducible apply Follows.frame

theorem State.unshare_follows {s0 s : State} {a1 a2} (h : State.Follows s0 s) : State.Follows s0 (State.unshare s a1 a2) := by
  unfold State.unshare
  repeat' first | with_reducible assumption | intro _ | with_reducible apply State.pageIn_follows | with_reducible apply State.dropRef_follows | with_reducible apply foldl_follows | with_reducible apply Follows.ite | split | extract_lets | with_reducible apply Follows.frame

theorem State.dropMap_follows {s0 s : State} {a1 a2 a3} (h : State.Follows s0 s) : State.Follows s0 (State.dropMap s a1 a2 a3) := by
  unfold State.dropMap
  repeat' first | with_reducible assumption | intro _ | with_reducible apply State.unshare_follows | with_reducible apply foldl_follows | with_reducible apply Follows.ite | split | extract_lets | with_reducible apply Follows.frame

theorem State.mapAct_follows {s0 s : State} {a1} (h : State.Follows s0 s) : State.Follows s0 (State.mapAct s a1) := by
  unfold State.mapAct
  repeat' first | with_reducible assumption | intro _ | with_reducible apply State.shareMap_follows | with_reducible apply State.dropMap_follows | with_reducible apply State.metaScan_follows | with_reducible apply foldl_follows | with_reducible apply Follows.ite | split | extract_lets | with_reducible apply Follows.frame

theorem State.runActs_follows {s0 s : State} {a1 a2 a3} (h : State.Follows s0 s) : State.Follows s0 (State.runActs s a1 a2 a3) := by
  induction a3 generalizing s a1 a2 with
  | nil =>
    unfold State.runActs
    repeat' first | with_reducible assumption | with_reducible apply ih | intro _ | with_reducible apply State.mapAct_follows | with_reducible apply foldl_follows | with_reducible apply Follows.ite | split | extract_lets | with_reducible apply Follows.frame
  | cons x l ih =>
    unfold State.runActs
    repeat' first | with_reducible assumption | with_reducible apply ih | intro _ | with_reducible apply State.mapAct_follows | with_reducible apply foldl_follows | with_reducible apply Follows.ite | split | extract_lets | with_reducible apply Follows.frame

theorem State.runOps_follows {s0 s : State} (h : State.Follows s0 s) : State.Follows s0 (State.runOps s) := by
  unfold State.runOps
  repeat' first | with_reducible assumption | intro _ | with_reducible apply State.runActs_follows | with_reducible apply foldl_follows | with_reducible apply Follows.ite | split | extract_lets | with_reducible apply Follows.frame

theorem State.ownPage_follows {s0 s : State} {a1 a2} (h : State.Follows s0 s) : State.Follows s0 (State.ownPage s a1 a2).1 := by
  unfold State.ownPage
  repeat' first | with_reducible assumption | intro _ | with_reducible apply State.copyImg_follows | with_reducible apply State.bump_follows | with_reducible apply State.setPage_follows | with_reducible apply foldl_follows | with_reducible refine fst_follows (by assumption) ?_ | with_reducible apply Follows.ite | split | extract_lets | with_reducible apply Follows.frame

theorem State.mapSet_follows {s0 s : State} {a1 a2 a3 a4 a5} (h : State.Follows s0 s) : State.Follows s0 (State.mapSet s a1 a2 a3 a4 a5) := by
  unfold State.mapSet
  repeat' first | with_reducible assumption | intro _ | with_reducible apply State.ownPage_follows | with_reducible apply State.metaWrite_follows | with_reducible apply State.metaRead_follows | with_reducible apply State.pageIn_follows | with_reducible apply State.dropRef_follows | with_reducible apply foldl_follows | with_reducible refine fst_follows (by assumption) ?_ | with_reducible apply Follows.ite | split | extract_lets | with_reducible apply Follows.frame

theorem State.insertIdx_follows {s0 s : State} {a1 a2 a3 a4 a5} (h : State.Follows s0 s) : State.Follows s0 (State.insertIdx s a1 a2 a3 a4 a5) := by
  unfold State.insertIdx
  repeat' first | with_reducible assumption | intro _ | with_reducible apply State.grainIn_follows | with_reducible apply State.metaWrite_follows | with_reducible apply State.touchIdx_follows | with_reducible apply State.unindex_follows | with_reducible apply State.bump_follows | with_reducible apply foldl_follows | with_reducible apply Follows.ite | split | extract_lets | with_reducible apply Follows.frame

theorem State.idxLook_follows {s0 s : State} {a1 a2 a3} (h : State.Follows s0 s) : State.Follows s0 (State.idxLook s a1 a2 a3) := by
  unfold State.idxLook
  repeat' first | with_reducible assumption | intro _ | with_reducible apply State.metaRead_follows | with_reducible apply foldl_follows | with_reducible apply Follows.ite | split | extract_lets | with_reducible apply Follows.frame

theorem State.setGen_follows {s0 s : State} {a1 a2 a3} (h : State.Follows s0 s) : State.Follows s0 (State.setGen s a1 a2 a3) := by
  unfold State.setGen
  repeat' first | with_reducible assumption | intro _ | with_reducible apply State.putJournal_follows | with_reducible apply foldl_follows | with_reducible apply Follows.ite | split | extract_lets | with_reducible apply Follows.frame

theorem State.placeActAt_follows {s0 s : State} {a1 a2 a3} (h : State.Follows s0 s) : State.Follows s0 (State.placeActAt s a1 a2 a3) := by
  unfold State.placeActAt
  repeat' first | with_reducible assumption | intro _ | with_reducible apply State.runOps_follows | with_reducible apply foldl_follows | with_reducible apply Follows.ite | split | extract_lets | with_reducible apply Follows.frame

theorem State.placeAct_follows {s0 s : State} {a1} (h : State.Follows s0 s) : State.Follows s0 (State.placeAct s a1) := by
  unfold State.placeAct
  repeat' first | with_reducible assumption | intro _ | with_reducible apply State.placeActAt_follows | with_reducible apply foldl_follows | with_reducible apply Follows.ite | split | extract_lets | with_reducible apply Follows.frame

theorem State.forgetEpochs_follows {s0 s : State} {a1 a2 a3} (h : State.Follows s0 s) : State.Follows s0 (State.forgetEpochs s a1 a2 a3) := by
  unfold State.forgetEpochs
  repeat' first | with_reducible assumption | intro _ | with_reducible apply State.placeAct_follows | with_reducible apply foldl_follows | with_reducible apply Follows.ite | split | extract_lets | with_reducible apply Follows.frame

theorem State.dropSnap_follows {s0 s : State} {a1 a2 a3} (h : State.Follows s0 s) : State.Follows s0 (State.dropSnap s a1 a2 a3) := by
  unfold State.dropSnap
  repeat' first | with_reducible assumption | intro _ | with_reducible apply State.forgetEpochs_follows | with_reducible apply State.placeCfg_follows | with_reducible apply foldl_follows | with_reducible apply Follows.ite | split | extract_lets | with_reducible apply Follows.frame

theorem State.dropEpochs_follows {s0 s : State} {a1 a2} (h : State.Follows s0 s) : State.Follows s0 (State.dropEpochs s a1 a2) := by
  unfold State.dropEpochs
  repeat' first | with_reducible assumption | intro _ | with_reducible apply State.dropSnap_follows | with_reducible apply foldl_follows | with_reducible apply Follows.ite | split | extract_lets | with_reducible apply Follows.frame

end Sys2Proof.Machine
end

