-- ==== Sys2Proof/Laws/Media.lean ====
section
/-! SUPPORT. What each operation of Machine/Media.lean can do: what follows from a state before it follows after it (Sys2Proof.Machine.State.Follows). -/
namespace Sys2Proof.Machine

theorem State.panPacket_follows {s0 s : State} {a1 a2 a3 a4} (h : State.Follows s0 s) (hf : ∀ e p t, State.Follows s0 t → PktRes.Follows s0 (a4 e p t)) : State.Follows s0 (State.panPacket s a1 a2 a3 a4) := by
  unfold State.panPacket
  refine State.packet_follows h ?_
  intro e p t ht
  exact PktRes.follows_ite (PktRes.fail_follows ht) (hf e p t ht)

theorem State.portProxy_follows {s0 s : State} {a1 a2} (h : State.Follows s0 s) : State.Follows s0 (State.portProxy s a1 a2) := by
  unfold State.portProxy
  repeat' first | with_reducible assumption | intro _ | with_reducible apply State.putMod_follows | with_reducible apply foldl_follows | with_reducible apply Follows.ite | split | extract_lets | with_reducible apply Follows.frame

theorem State.takeOut_follows {s0 s : State} {a1} (h : State.Follows s0 s) : State.Follows s0 (State.takeOut s a1) := by
  unfold State.takeOut
  repeat' first | with_reducible assumption | intro _ | with_reducible apply State.setUnitState_follows | with_reducible apply State.portProxy_follows | with_reducible apply State.moduleOut_follows | with_reducible apply State.dieOut_follows | with_reducible apply foldl_follows | with_reducible apply Follows.ite | split | extract_lets | with_reducible apply Follows.frame

theorem rowSetUnitService_follows {s0 s : State} {a1 a2} (h : State.Follows s0 s) : State.Follows s0 (rowSetUnitService a1 a2 s) := by
  unfold rowSetUnitService
  repeat' first | with_reducible assumption | intro _ | with_reducible apply State.packet_follows | with_reducible apply PktRes.fail_follows | with_reducible apply State.takeOut_follows | with_reducible apply State.setUnitState_follows | with_reducible apply State.portProxy_follows | with_reducible apply State.leafIn_follows | with_reducible exact PktRes.follows_waits | with_reducible apply PktRes.follows_done | with_reducible apply PktRes.follows_started | with_reducible apply PktRes.follows_startDone | with_reducible apply PktRes.follows_quiet | with_reducible apply foldl_follows | with_reducible apply Follows.ite | with_reducible apply PktRes.follows_ite | split | extract_lets | with_reducible apply Follows.frame

theorem State.applyMembers_follows {s0 s : State} {a1 a2} (h : State.Follows s0 s) : State.Follows s0 (State.applyMembers s a1 a2) := by
  unfold State.applyMembers
  repeat' first | with_reducible assumption | intro _ | with_reducible apply State.putUnit_follows | with_reducible apply State.joinPan_follows | with_reducible apply State.dueRebuild_follows | with_reducible apply State.freeMembers_follows | with_reducible apply foldl_follows | with_reducible apply Follows.ite | split | extract_lets | with_reducible apply Follows.frame

theorem State.applyPan_follows {s0 s : State} {a1 a2 a3} (h : State.Follows s0 s) : State.Follows s0 (State.applyPan s a1 a2 a3) := by
  unfold State.applyPan
  repeat' first | with_reducible assumption | intro _ | with_reducible apply State.putUnit_follows | with_reducible apply State.setUnitState_follows | with_reducible apply State.applyMembers_follows | with_reducible apply foldl_follows | with_reducible apply Follows.ite | split | extract_lets | with_reducible apply Follows.frame

theorem State.applyUnit_follows {s0 s : State} {a1} (h : State.Follows s0 s) : State.Follows s0 (State.applyUnit s a1) := by
  unfold State.applyUnit
  repeat' first | with_reducible assumption | intro _ | with_reducible apply State.dieDown_follows | with_reducible apply State.setUnitState_follows | with_reducible apply State.moduleDown_follows | with_reducible apply State.applyPan_follows | with_reducible apply State.leavePan_follows | with_reducible apply State.putUnit_follows | with_reducible apply State.retrySubst_follows | with_reducible apply foldl_follows | with_reducible apply Follows.ite | split | extract_lets | with_reducible apply Follows.frame

theorem rowUnitStateRecordRx_follows {s0 s : State} {a1 a2} (h : State.Follows s0 s) : State.Follows s0 (rowUnitStateRecordRx a1 a2 s) := by
  unfold rowUnitStateRecordRx
  repeat' first | with_reducible assumption | intro _ | with_reducible apply State.onPtl_follows | with_reducible apply State.applyUnit_follows | with_reducible apply State.placeRec_follows | with_reducible apply foldl_follows | with_reducible apply Follows.ite | split | extract_lets | with_reducible apply Follows.frame

theorem State.layoutPan_follows {s0 s : State} {a1 a2 a3} (h : State.Follows s0 s) : State.Follows s0 (State.layoutPan s a1 a2 a3) := by
  unfold State.layoutPan
  repeat' first | with_reducible assumption | intro _ | with_reducible apply State.placeUnit_follows | with_reducible apply State.buildPan_follows | with_reducible apply foldl_follows | with_reducible apply Follows.ite | split | extract_lets | with_reducible apply Follows.frame

theorem State.layout_follows {s0 s : State} {a1} (h : State.Follows s0 s) : State.Follows s0 (State.layout s a1) := by
  unfold State.layout
  repeat' first | with_reducible assumption | intro _ | with_reducible apply State.layoutPan_follows | with_reducible apply State.placeUnit_follows | with_reducible apply State.buildPan_follows | with_reducible apply foldl_follows | with_reducible apply Follows.ite | split | extract_lets | with_reducible apply Follows.frame

theorem execGetUnit_follows {s : State} {a1 a2} : ∃ t, execGetUnit a1 a2 s = .next t ∧ State.Follows s t := by
  unfold execGetUnit
  refine ⟨_, rfl, ?_⟩
  have h := State.Follows.refl s
  repeat' first | with_reducible assumption | intro _ | with_reducible apply State.packet_follows | with_reducible apply State.llcRead_follows | with_reducible exact PktRes.follows_waits | with_reducible apply PktRes.follows_done | with_reducible apply PktRes.follows_started | with_reducible apply PktRes.follows_startDone | with_reducible apply PktRes.follows_quiet | with_reducible apply foldl_follows | with_reducible apply Follows.ite | with_reducible apply PktRes.follows_ite | split | extract_lets | with_reducible apply Follows.frame

theorem execBuildDefaultLayout_follows {s : State} {a1 a2} : ∃ t, execBuildDefaultLayout a1 a2 s = .next t ∧ State.Follows s t := by
  unfold execBuildDefaultLayout
  refine ⟨_, rfl, State.packet_follows (State.Follows.refl s) fun e p t ht => ?_⟩
  have hl := State.layout_follows (a1 := e.num 10 2) ht
  refine PktRes.follows_ite (PktRes.fail_follows ht) (PktRes.follows_ite (PktRes.fail_follows ht) ?_)
  exact PktRes.follows_ite (PktRes.fail_follows ht) (State.cfgSteps_follows hl)

theorem execDeletePan_follows {s : State} {a1 a2} : ∃ t, execDeletePan a1 a2 s = .next t ∧ State.Follows s t := by
  unfold execDeletePan
  dsimp only
  refine ⟨_, rfl, ?_⟩
  have h := State.Follows.refl s
  repeat' first | with_reducible assumption | intro _ | with_reducible apply State.panPacket_follows | with_reducible apply PktRes.fail_follows | with_reducible apply State.freeMembers_follows | with_reducible apply State.setUnitState_follows | with_reducible apply State.putUnit_follows | with_reducible apply State.retrySubst_follows | with_reducible apply State.placeUnit_follows | with_reducible exact PktRes.follows_waits | with_reducible apply PktRes.follows_done | with_reducible apply PktRes.follows_started | with_reducible apply PktRes.follows_startDone | with_reducible apply PktRes.follows_quiet | with_reducible apply foldl_follows | with_reducible apply Follows.ite | with_reducible apply PktRes.follows_ite | split | with_reducible apply Follows.frame

theorem execCreatePan_follows {s : State} {a1 a2 a3} : ∃ t, execCreatePan a1 a2 a3 s = .next t ∧ State.Follows s t := by
  unfold execCreatePan
  refine ⟨_, rfl, ?_⟩
  have h := State.Follows.refl s
  repeat' first | with_reducible assumption | intro _ | with_reducible apply State.panPacket_follows | with_reducible apply PktRes.fail_follows | with_reducible apply State.emit_follows | with_reducible apply State.placeUnit_follows | with_reducible apply State.buildPan_follows | with_reducible exact PktRes.follows_waits | with_reducible apply PktRes.follows_done | with_reducible apply PktRes.follows_started | with_reducible apply PktRes.follows_startDone | with_reducible apply PktRes.follows_quiet | with_reducible apply foldl_follows | with_reducible apply Follows.ite | with_reducible apply PktRes.follows_ite | split | extract_lets | with_reducible apply Follows.frame

theorem execReplaceMember_follows {s : State} {a1 a2} : ∃ t, execReplaceMember a1 a2 s = .next t ∧ State.Follows s t := by
  unfold execReplaceMember
  refine ⟨_, rfl, ?_⟩
  have h := State.Follows.refl s
  repeat' first | with_reducible assumption | intro _ | with_reducible apply State.panPacket_follows | with_reducible apply PktRes.fail_follows | with_reducible apply State.placeUnit_follows | with_reducible apply State.assignSubst_follows | with_reducible apply State.setUnitState_follows | with_reducible exact PktRes.follows_waits | with_reducible apply PktRes.follows_done | with_reducible apply PktRes.follows_started | with_reducible apply PktRes.follows_startDone | with_reducible apply PktRes.follows_quiet | with_reducible apply foldl_follows | with_reducible apply Follows.ite | with_reducible apply PktRes.follows_ite | split | extract_lets | with_reducible apply Follows.frame

end Sys2Proof.Machine
end

