-- ==== Sys2Proof/Laws/Rebuild.lean ====
section
/-! SUPPORT. What each operation of Machine/Rebuild.lean can do: what follows from a state before it follows after it (Sys2Proof.Machine.State.Follows). -/
namespace Sys2Proof.Machine

theorem State.putRebuild_follows {s0 s : State} {a1} (h : State.Follows s0 s) : State.Follows s0 (State.putRebuild s a1) := by
  unfold State.putRebuild
  repeat' first | with_reducible assumption | intro _ | with_reducible apply foldl_follows | with_reducible apply Follows.ite | split | extract_lets | with_reducible apply Follows.frame

theorem State.rebuildRow_follows {s0 s : State} {a1 a2} (h : State.Follows s0 s) : State.Follows s0 (State.rebuildRow s a1 a2) := by
  induction a1 generalizing s a2 with
  | zero => unfold State.rebuildRow; exact State.putRebuild_follows h
  | succ n ih =>
    unfold State.rebuildRow
    repeat' first | with_reducible assumption | with_reducible apply ih | intro _ | with_reducible apply State.putRebuild_follows | with_reducible apply State.reconAt_follows | with_reducible apply State.contentScan_follows | with_reducible apply foldl_follows | with_reducible apply Follows.ite | split | extract_lets | with_reducible apply Follows.frame

theorem State.rebuildPump_follows {s0 s : State} (h : State.Follows s0 s) : State.Follows s0 (State.rebuildPump s) := by
  unfold State.rebuildPump
  repeat' first | with_reducible assumption | intro _ | with_reducible apply State.rebuildRow_follows | with_reducible apply foldl_follows | with_reducible apply Follows.ite | split | extract_lets | with_reducible apply Follows.frame

theorem State.rebuildNext_follows {s0 s : State} {a1 a2} (h : State.Follows s0 s) : State.Follows s0 (State.rebuildNext s a1 a2) := by
  unfold State.rebuildNext
  repeat' first | with_reducible assumption | intro _ | with_reducible apply State.rebuildPump_follows | with_reducible apply foldl_follows | with_reducible apply Follows.ite | split | extract_lets | with_reducible apply Follows.frame

theorem State.rebuildProgram_follows {s0 s : State} {a1 a2 a3 a4 a5} (h : State.Follows s0 s) : State.Follows s0 (State.rebuildProgram s a1 a2 a3 a4 a5) := by
  unfold State.rebuildProgram
  repeat' first | with_reducible assumption | intro _ | with_reducible apply State.issue_follows | with_reducible apply foldl_follows | with_reducible apply Follows.ite | split | extract_lets | with_reducible apply Follows.frame

theorem State.rebuildReady_follows {s0 s : State} {a1 a2 a3 a4} (h : State.Follows s0 s) : State.Follows s0 (State.rebuildReady s a1 a2 a3 a4) := by
  unfold State.rebuildReady
  repeat' first | with_reducible assumption | intro _ | with_reducible apply State.rebuildNext_follows | with_reducible apply State.rebuildProgram_follows | with_reducible apply foldl_follows | with_reducible apply Follows.ite | split | extract_lets | with_reducible apply Follows.frame

theorem State.rebuildCpl_follows {s0 s : State} {a1 a2 a3 a4 a5} (h : State.Follows s0 s) : State.Follows s0 (State.rebuildCpl s a1 a2 a3 a4 a5) := by
  unfold State.rebuildCpl
  repeat' first | with_reducible assumption | intro _ | with_reducible apply State.putUnit_follows | with_reducible apply State.bumpBy_follows | with_reducible apply State.putWear_follows | with_reducible apply State.putBlk_follows | with_reducible apply State.rebuildNext_follows | with_reducible apply foldl_follows | with_reducible apply Follows.ite | split | extract_lets | with_reducible apply Follows.frame

end Sys2Proof.Machine
end

