-- ==== Sys2Proof/Laws/Reduce.lean ====
section
/-! SUPPORT. What each operation of Machine/Reduce.lean can do: what follows from a state before it follows after it (Sys2Proof.Machine.State.Follows). -/
namespace Sys2Proof.Machine

theorem State.putDRec_follows {s0 s : State} {a1} (h : State.Follows s0 s) : State.Follows s0 (State.putDRec s a1) := by
  unfold State.putDRec
  repeat' first | with_reducible assumption | intro _ | with_reducible apply foldl_follows | with_reducible apply Follows.ite | split | extract_lets | with_reducible apply Follows.frame

theorem State.storeNew_follows {s0 s : State} {a1 a2 a3 a4 a5} (h : State.Follows s0 s) : State.Follows s0 (State.storeNew s a1 a2 a3 a4 a5) := by
  unfold State.storeNew
  repeat' first | with_reducible assumption | intro _ | with_reducible apply State.putGrain_follows | with_reducible apply State.bump_follows | with_reducible apply State.insertIdx_follows | with_reducible apply State.mapSet_follows | with_reducible apply State.startJob_follows | with_reducible apply State.putDRec_follows | with_reducible apply foldl_follows | with_reducible apply Follows.ite | split | extract_lets | with_reducible apply Follows.frame

theorem State.decideRec_follows {s0 s : State} {a1} (h : State.Follows s0 s) : State.Follows s0 (State.decideRec s a1) := by
  unfold State.decideRec
  repeat' first | with_reducible assumption | intro _ | with_reducible apply State.putDRec_follows | with_reducible apply State.mapSet_follows | with_reducible apply State.storeNew_follows | with_reducible apply State.idxLook_follows | with_reducible apply State.bumpBy_follows | with_reducible apply State.bump_follows | with_reducible apply State.event_follows | with_reducible apply State.addRef_follows | with_reducible apply foldl_follows | with_reducible apply Follows.ite | split | extract_lets | with_reducible apply Follows.frame

theorem State.decideAll_follows {s0 s : State} {a1 a2} (h : State.Follows s0 s) : State.Follows s0 (State.decideAll s a1 a2) := by
  induction a2 generalizing s with
  | zero =>
    unfold State.decideAll
    repeat' first | with_reducible assumption | with_reducible apply ih | intro _ | with_reducible apply State.decideRec_follows | with_reducible apply State.runOps_follows | with_reducible apply foldl_follows | with_reducible apply Follows.ite | split | extract_lets | with_reducible apply Follows.frame
  | succ n ih =>
    unfold State.decideAll
    repeat' first | with_reducible assumption | with_reducible apply ih | intro _ | with_reducible apply State.decideRec_follows | with_reducible apply State.runOps_follows | with_reducible apply foldl_follows | with_reducible apply Follows.ite | split | extract_lets | with_reducible apply Follows.frame

theorem State.imageScan_follows {s0 s : State} {a1 a2} (h : State.Follows s0 s) : State.Follows s0 (State.imageScan s a1 a2) := by
  unfold State.imageScan
  repeat' first | with_reducible assumption | intro _ | with_reducible apply State.metaScan_follows | with_reducible apply State.llcRead_follows | with_reducible apply foldl_follows | with_reducible apply Follows.ite | split | extract_lets | with_reducible apply Follows.frame

theorem State.startCkpt_follows {s0 s : State} {a1 a2} (h : State.Follows s0 s) : State.Follows s0 (State.startCkpt s a1 a2) := by
  unfold State.startCkpt
  repeat' first | with_reducible assumption | intro _ | with_reducible apply State.putJournal_follows | with_reducible apply State.placeRec_follows | with_reducible apply State.imageScan_follows | with_reducible apply State.pack_follows | with_reducible apply foldl_follows | with_reducible apply Follows.ite | split | extract_lets | with_reducible apply Follows.frame

theorem State.packEnt_follows {s0 s : State} {a1} (h : State.Follows s0 s) : State.Follows s0 (State.packEnt s a1) := by
  unfold State.packEnt
  repeat' first | with_reducible assumption | intro _ | with_reducible apply State.pack_follows | with_reducible apply State.putEnt_follows | with_reducible apply State.seal_follows | with_reducible apply State.startCkpt_follows | with_reducible apply foldl_follows | with_reducible apply Follows.ite | split | extract_lets | with_reducible apply Follows.frame

theorem State.packReady_follows {s0 s : State} {a1 a2} (h : State.Follows s0 s) : State.Follows s0 (State.packReady s a1 a2) := by
  induction a2 generalizing s with
  | zero =>
    unfold State.packReady
    repeat' first | with_reducible assumption | with_reducible apply ih | intro _ | with_reducible apply State.packEnt_follows | with_reducible apply foldl_follows | with_reducible apply Follows.ite | split | extract_lets | with_reducible apply Follows.frame
  | succ n ih =>
    unfold State.packReady
    repeat' first | with_reducible assumption | with_reducible apply ih | intro _ | with_reducible apply State.packEnt_follows | with_reducible apply foldl_follows | with_reducible apply Follows.ite | split | extract_lets | with_reducible apply Follows.frame

theorem State.round_follows {s0 s : State} {a1} (h : State.Follows s0 s) : State.Follows s0 (State.round s a1) := by
  unfold State.round
  repeat' first | with_reducible assumption | intro _ | with_reducible apply State.runOps_follows | with_reducible apply State.decideAll_follows | with_reducible apply State.packReady_follows | with_reducible apply foldl_follows | with_reducible apply Follows.ite | split | extract_lets | with_reducible apply Follows.frame

theorem State.pump_follows {s0 s : State} {a1} (h : State.Follows s0 s) : State.Follows s0 (State.pump s a1) := by
  unfold State.pump
  repeat' first | with_reducible assumption | intro _ | with_reducible apply State.releaseDurable_follows | with_reducible apply State.round_follows | with_reducible apply foldl_follows | with_reducible apply Follows.ite | split | extract_lets | with_reducible apply Follows.frame

theorem State.classify_follows {s0 s : State} {a1 a2} (h : State.Follows s0 s) : State.Follows s0 (State.classify s a1 a2) := by
  unfold State.classify
  repeat' first | with_reducible assumption | intro _ | with_reducible apply State.bump_follows | with_reducible apply State.putDRec_follows | with_reducible apply State.startJob_follows | with_reducible apply foldl_follows | with_reducible apply Follows.ite | split | extract_lets | with_reducible apply Follows.frame

theorem State.keepMerged_follows {s0 s : State} {a1 a2 a3} (h : State.Follows s0 s) : State.Follows s0 (State.keepMerged s a1 a2 a3) := by
  unfold State.keepMerged
  repeat' first | with_reducible assumption | intro _ | with_reducible apply State.putEnt_follows | with_reducible apply foldl_follows | with_reducible apply Follows.ite | split | extract_lets | with_reducible apply Follows.frame

theorem State.mergeBase_follows {s0 s : State} {a1 a2 a3} (h : State.Follows s0 s) : State.Follows s0 (State.mergeBase s a1 a2 a3) := by
  unfold State.mergeBase
  repeat' first | with_reducible assumption | intro _ | with_reducible apply State.classify_follows | with_reducible apply State.keepMerged_follows | with_reducible apply foldl_follows | with_reducible apply Follows.ite | split | extract_lets | with_reducible apply Follows.frame

theorem State.compressed_follows {s0 s : State} {a1} (h : State.Follows s0 s) : State.Follows s0 (State.compressed s a1) := by
  unfold State.compressed
  repeat' first | with_reducible assumption | intro _ | with_reducible apply State.bumpBy_follows | with_reducible apply State.bump_follows | with_reducible apply State.startJob_follows | with_reducible apply State.putDRec_follows | with_reducible apply foldl_follows | with_reducible apply Follows.ite | split | extract_lets | with_reducible apply Follows.frame

theorem State.fingerprinted_follows {s0 s : State} {a1 a2} (h : State.Follows s0 s) : State.Follows s0 (State.fingerprinted s a1 a2) := by
  unfold State.fingerprinted
  repeat' first | with_reducible assumption | intro _ | with_reducible apply State.putDRec_follows | with_reducible apply State.bump_follows | with_reducible apply foldl_follows | with_reducible apply Follows.ite | split | extract_lets | with_reducible apply Follows.frame

theorem State.enciphered_follows {s0 s : State} {a1} (h : State.Follows s0 s) : State.Follows s0 (State.enciphered s a1) := by
  unfold State.enciphered
  repeat' first | with_reducible assumption | intro _ | with_reducible apply State.grainIn_follows | with_reducible apply State.putDRec_follows | with_reducible apply foldl_follows | with_reducible apply Follows.ite | split | extract_lets | with_reducible apply Follows.frame

theorem State.sealAt_follows {s0 s : State} {a1 a2} (h : State.Follows s0 s) : State.Follows s0 (State.sealAt s a1 a2) := by
  unfold State.sealAt
  repeat' first | with_reducible assumption | intro _ | with_reducible apply State.seal_follows | with_reducible apply State.markSeal_follows | with_reducible apply foldl_follows | with_reducible apply Follows.ite | split | extract_lets | with_reducible apply Follows.frame

theorem State.startRec_follows {s0 s : State} {a1 a2 a3} (h : State.Follows s0 s) : State.Follows s0 (State.startRec s a1 a2 a3) := by
  unfold State.startRec
  repeat' first | with_reducible assumption | intro _ | with_reducible apply State.putDRec_follows | with_reducible apply State.bump_follows | with_reducible apply State.classify_follows | with_reducible apply State.keepMerged_follows | with_reducible apply State.lookUp_follows | with_reducible apply State.readGrain_follows | with_reducible apply foldl_follows | with_reducible apply Follows.ite | split | extract_lets | with_reducible apply Follows.frame

end Sys2Proof.Machine
end

