-- ==== Sys2Proof/Laws/Sluice.lean ====
section
/-! SUPPORT. What each operation of Machine/Sluice.lean can do: what follows from a state before it follows after it (Sys2Proof.Machine.State.Follows). -/
namespace Sys2Proof.Machine

theorem State.armTimed_follows {s0 s : State} {a1 a2} {t} (e : State.armTimed s a1 a2 = .ok t) (h : State.Follows s0 s) : State.Follows s0 t := by
  unfold State.armTimed at e
  split at e
  · cases e
  · split at e
    · cases e
    · split at e
      · cases e
      · cases e
        exact Follows.frame h

theorem State.storeVol_follows {s0 s : State} {a1} (h : State.Follows s0 s) : State.Follows s0 (State.storeVol s a1) := by
  unfold State.storeVol
  repeat' first | with_reducible assumption | intro _ | with_reducible apply State.placeCfg_follows | with_reducible apply State.keepPages_follows | with_reducible apply State.putVol_follows | with_reducible apply State.notePast_follows | with_reducible apply foldl_follows | with_reducible apply Follows.ite | split | extract_lets | with_reducible apply Follows.frame

theorem State.placeFrom_follows {s0 s : State} {a1 a2 a3 a4 a5 a6 a7 a8 a9} (h : State.Follows s0 s) : State.Follows s0 (State.placeFrom s a1 a2 a3 a4 a5 a6 a7 a8 a9).1 := by
  induction a6 generalizing s a7 a8 a9 with
  | zero =>
    unfold State.placeFrom
    repeat' first | with_reducible assumption | with_reducible apply ih | intro _ | with_reducible apply State.llcRead_follows | with_reducible apply State.llcWrite_follows | with_reducible apply foldl_follows | with_reducible apply Follows.ite | split | extract_lets | with_reducible apply Follows.frame
  | succ n ih =>
    unfold State.placeFrom
    repeat' first | with_reducible assumption | with_reducible apply ih | intro _ | with_reducible apply State.llcRead_follows | with_reducible apply State.llcWrite_follows | with_reducible apply foldl_follows | with_reducible apply Follows.ite | split | extract_lets | with_reducible apply Follows.frame

theorem State.placeAmt_follows {s0 s : State} {a1 a2 a3 a4 a5 a6 a7 a8} (h : State.Follows s0 s) : State.Follows s0 (State.placeAmt s a1 a2 a3 a4 a5 a6 a7 a8).1 := by
  unfold State.placeAmt
  repeat' first | with_reducible assumption | intro _ | with_reducible apply State.placeFrom_follows | with_reducible apply foldl_follows | with_reducible refine fst_follows (by assumption) ?_ | with_reducible apply Follows.ite | split | extract_lets | with_reducible apply Follows.frame

theorem State.layItems_follows {s0 s : State} {a1 a2 a3 a4 a5 a6 a7 a8} {t k} (e : State.layItems s a1 a2 a3 a4 a5 a6 a7 a8 = .ok (t, k)) (h : State.Follows s0 s) : State.Follows s0 t := by
  induction a7 generalizing s a8 with
  | nil =>
    unfold State.layItems at e
    split at e <;> cases e
    exact h
  | cons x l ih =>
    obtain ⟨r, idx, amt⟩ := x
    unfold State.layItems at e
    have hp := State.placeAmt_follows (a1 := r) (a2 := idx) (a3 := a1) (a4 := a2) (a5 := a5) (a6 := a3) (a7 := amt) (a8 := a6) h
    generalize State.placeAmt s r idx a1 a2 a5 a3 amt a6 = p at e hp
    obtain ⟨u, o⟩ := p
    cases o with
    | none => cases e
    | some x =>
      dsimp only at e
      by_cases hx : x > a4
      · rw [if_pos hx] at e; cases e
      · rw [if_neg hx] at e; exact ih e hp

theorem State.layStages_follows {s0 s : State} {a1 a2 a3 a4 a5 a6} {t k} (e : State.layStages s a1 a2 a3 a4 a5 a6 = .ok (t, k)) (h : State.Follows s0 s) : State.Follows s0 t := by
  induction a4 generalizing s a5 a6 with
  | nil => cases e; exact h
  | cons x l ih =>
    obtain ⟨u, lim⟩ := x
    unfold State.layStages at e
    split at e
    · cases e
    · exact ih e (State.layItems_follows ‹_› h)

theorem State.admitCmd_follows {s0 s : State} {a1 a2} {t k} (e : State.admitCmd s a1 a2 = .ok (t, k)) (h : State.Follows s0 s) : State.Follows s0 t := by
  unfold State.admitCmd at e
  dsimp only at e
  repeat' first | contradiction | split at e
  all_goals
    cases e
    exact State.layStages_follows (by assumption) h

theorem State.pinCache_follows {s0 s : State} {a1} (h : State.Follows s0 s) : State.Follows s0 (State.pinCache s a1) := by
  unfold State.pinCache
  repeat' first | with_reducible assumption | intro _ | with_reducible apply foldl_follows | with_reducible apply Follows.ite | split | extract_lets | with_reducible apply Follows.frame

theorem State.sluice_follows {s0 s : State} {a1 a2} (h : State.Follows s0 s) : State.Follows s0 (State.sluice s a1 a2).1 := by
  unfold State.sluice
  repeat' first | with_reducible assumption | intro _ | with_reducible apply State.bump_follows | with_reducible apply State.complete_follows | with_reducible refine State.admitCmd_follows (by assumption) ?_ | with_reducible apply State.bumpBy_follows | with_reducible apply State.reserveFor_follows | with_reducible apply State.takeLock_follows | with_reducible apply State.pinCache_follows | with_reducible apply foldl_follows | with_reducible apply Follows.ite | split | extract_lets | with_reducible apply Follows.frame

theorem State.cancelTimed_follows {s0 s : State} {a1} (h : State.Follows s0 s) : State.Follows s0 (State.cancelTimed s a1) := by
  unfold State.cancelTimed
  repeat' first | with_reducible assumption | intro _ | with_reducible apply foldl_follows | with_reducible apply Follows.ite | split | extract_lets | with_reducible apply Follows.frame

theorem State.unbook_follows {s0 s : State} {a1} (h : State.Follows s0 s) : State.Follows s0 (State.unbook s a1) := by
  unfold State.unbook
  repeat' first | with_reducible assumption | intro _ | with_reducible apply foldl_follows | with_reducible apply Follows.ite | split | extract_lets | with_reducible apply Follows.frame

theorem State.missCmd_follows {s0 s : State} {a1 a2 a3} (h : State.Follows s0 s) : State.Follows s0 (State.missCmd s a1 a2 a3) := by
  unfold State.missCmd
  repeat' first | with_reducible assumption | intro _ | with_reducible apply State.bump_follows | with_reducible apply State.putIo_follows | with_reducible apply State.unbook_follows | with_reducible apply State.checkCmd_follows | with_reducible apply State.endIo_follows | with_reducible apply State.discardCmd_follows | with_reducible apply foldl_follows | with_reducible apply Follows.ite | split | extract_lets | with_reducible apply Follows.frame

theorem execGetVolumeAdmission_follows {s : State} {a1 a2} : ∃ t, execGetVolumeAdmission a1 a2 s = .next t ∧ State.Follows s t := by
  unfold execGetVolumeAdmission
  refine ⟨_, rfl, ?_⟩
  have h := State.Follows.refl s
  repeat' first | with_reducible assumption | intro _ | with_reducible apply State.packet_follows | with_reducible apply PktRes.fail_follows | with_reducible exact PktRes.follows_waits | with_reducible apply PktRes.follows_done | with_reducible apply PktRes.follows_started | with_reducible apply PktRes.follows_startDone | with_reducible apply PktRes.follows_quiet | with_reducible apply foldl_follows | with_reducible apply Follows.ite | with_reducible apply PktRes.follows_ite | split | extract_lets | with_reducible apply Follows.frame

theorem execDeadlineMissed_follows {s : State} {a1 a2 a3} : ∃ t, execDeadlineMissed a1 a2 a3 s = .next t ∧ State.Follows s t := by
  unfold execDeadlineMissed
  refine ⟨_, rfl, ?_⟩
  have h := State.Follows.refl s
  repeat' first | with_reducible assumption | intro _ | with_reducible apply State.missCmd_follows | with_reducible apply foldl_follows | with_reducible apply Follows.ite | split | extract_lets | with_reducible apply Follows.frame

theorem execSetVolumeAdmission_follows {s : State} {a1 a2} : ∃ t, execSetVolumeAdmission a1 a2 s = .next t ∧ State.Follows s t := by
  unfold execSetVolumeAdmission
  refine ⟨_, rfl, ?_⟩
  have h := State.Follows.refl s
  repeat' first | with_reducible assumption | intro _ | with_reducible apply State.packet_follows | with_reducible apply PktRes.fail_follows | with_reducible apply State.storeVol_follows | with_reducible exact PktRes.follows_waits | with_reducible apply PktRes.follows_done | with_reducible apply PktRes.follows_started | with_reducible apply PktRes.follows_startDone | with_reducible apply PktRes.follows_quiet | with_reducible apply foldl_follows | with_reducible apply Follows.ite | with_reducible apply PktRes.follows_ite | split | extract_lets | with_reducible apply Follows.frame

end Sys2Proof.Machine
end

