-- ==== Sys2Proof/Laws/ReadPath.lean ====
section
/-! SUPPORT. What each operation of Machine/ReadPath.lean can do: what follows from a state before it follows after it (Sys2Proof.Machine.State.Follows). -/
namespace Sys2Proof.Machine

theorem State.sendData_follows {s0 s : State} {a1 a2 a3 a4 a5} (h : State.Follows s0 s) : State.Follows s0 (State.sendData s a1 a2 a3 a4 a5) := by
  unfold State.sendData
  repeat' first | with_reducible assumption | intro _ | with_reducible apply State.deliver_follows | with_reducible apply foldl_follows | with_reducible apply Follows.ite | split | extract_lets | with_reducible apply Follows.frame

theorem State.finishRead_follows {s0 s : State} {a1} (h : State.Follows s0 s) : State.Follows s0 (State.finishRead s a1) := by
  unfold State.finishRead
  repeat' first | with_reducible assumption | intro _ | with_reducible apply State.endIo_follows | with_reducible apply State.sendData_follows | with_reducible apply foldl_follows | with_reducible apply Follows.ite | split | extract_lets | with_reducible apply Follows.frame

theorem State.gotGrain_follows {s0 s : State} {a1 a2 a3} (h : State.Follows s0 s) : State.Follows s0 (State.gotGrain s a1 a2 a3) := by
  unfold State.gotGrain
  repeat' first | with_reducible assumption | intro _ | with_reducible apply State.finishRead_follows | with_reducible apply State.putIo_follows | with_reducible apply foldl_follows | with_reducible apply Follows.ite | split | extract_lets | with_reducible apply Follows.frame

theorem State.readOne_follows {s0 s : State} {a1 a2} (h : State.Follows s0 s) : State.Follows s0 (State.readOne s a1 a2) := by
  unfold State.readOne
  repeat' first | with_reducible assumption | intro _ | with_reducible apply State.pageFetch_follows | with_reducible apply State.metaRead_follows | with_reducible apply State.lookUp_follows | with_reducible apply State.bump_follows | with_reducible apply State.gotGrain_follows | with_reducible apply State.readGrain_follows | with_reducible apply foldl_follows | with_reducible apply Follows.ite | split | extract_lets | with_reducible apply Follows.frame

theorem State.pageReady_follows {s0 s : State} {a1 a2} (h : State.Follows s0 s) : State.Follows s0 (State.pageReady s a1 a2) := by
  unfold State.pageReady
  repeat' first | with_reducible assumption | intro _ | with_reducible apply State.endIo_follows | with_reducible apply State.event_follows | with_reducible apply State.readOne_follows | with_reducible apply State.pageCame_follows | with_reducible apply foldl_follows | with_reducible apply Follows.ite | split | extract_lets | with_reducible apply Follows.frame

theorem State.lostEvent_follows {s0 s : State} {a1} (h : State.Follows s0 s) : State.Follows s0 (State.lostEvent s a1) := by
  unfold State.lostEvent
  repeat' first | with_reducible assumption | intro _ | with_reducible apply State.event_follows | with_reducible apply foldl_follows | with_reducible apply Follows.ite | split | extract_lets | with_reducible apply Follows.frame

theorem State.dropJob_follows {s0 s : State} {a1} (h : State.Follows s0 s) : State.Follows s0 (State.dropJob s a1) := by
  unfold State.dropJob
  repeat' first | with_reducible assumption | intro _ | with_reducible apply foldl_follows | with_reducible apply Follows.ite | split | extract_lets | with_reducible apply Follows.frame

theorem State.readLost_follows {s0 s : State} {a1} (h : State.Follows s0 s) : State.Follows s0 (State.readLost s a1) := by
  unfold State.readLost
  repeat' first | with_reducible assumption | intro _ | with_reducible apply State.lostEvent_follows | with_reducible apply State.endIo_follows | with_reducible apply State.dropJob_follows | with_reducible apply State.pump_follows | with_reducible apply State.mergeBase_follows | with_reducible apply State.packCopies_follows | with_reducible apply foldl_follows | with_reducible apply Follows.ite | split | extract_lets | with_reducible apply Follows.frame

theorem State.readReady_follows {s0 s : State} {a1} (h : State.Follows s0 s) : State.Follows s0 (State.readReady s a1) := by
  unfold State.readReady
  repeat' first | with_reducible assumption | intro _ | with_reducible apply State.rebuildReady_follows | with_reducible apply State.pageReady_follows | with_reducible apply State.readLost_follows | with_reducible apply State.packCopies_follows | with_reducible apply State.startJob_follows | with_reducible apply foldl_follows | with_reducible apply Follows.ite | split | extract_lets | with_reducible apply Follows.frame

theorem State.sweepReads_follows {s0 s : State} (h : State.Follows s0 s) : State.Follows s0 (State.sweepReads s) := by
  unfold State.sweepReads
  repeat' first | with_reducible assumption | intro _ | with_reducible apply State.readReady_follows | with_reducible apply foldl_follows | with_reducible apply Follows.ite | split | extract_lets | with_reducible apply Follows.frame

theorem State.startRead_follows {s0 s : State} {a1} (h : State.Follows s0 s) : State.Follows s0 (State.startRead s a1) := by
  unfold State.startRead
  repeat' first | with_reducible assumption | intro _ | with_reducible apply State.pinCache_follows | with_reducible apply State.freeReleased_follows | with_reducible apply State.putIo_follows | with_reducible apply State.sweepReads_follows | with_reducible apply State.readOne_follows | with_reducible apply foldl_follows | with_reducible apply Follows.ite | split | extract_lets | with_reducible apply Follows.frame

theorem State.cacheInsert_follows {s0 s : State} {a1 a2 a3} (h : State.Follows s0 s) : State.Follows s0 (State.cacheInsert s a1 a2 a3) := by
  unfold State.cacheInsert
  repeat' first | with_reducible assumption | intro _ | with_reducible apply foldl_follows | with_reducible apply Follows.ite | split | extract_lets | with_reducible apply Follows.frame

theorem State.sweepErases_follows {s0 s : State} (h : State.Follows s0 s) : State.Follows s0 (State.sweepErases s) := by
  unfold State.sweepErases
  repeat' first | with_reducible assumption | intro _ | with_reducible apply State.blkErased_follows | with_reducible apply State.putBlk_follows | with_reducible apply foldl_follows | with_reducible apply Follows.ite | split | extract_lets | with_reducible apply Follows.frame

theorem State.afterUnits_follows {s0 s : State} (h : State.Follows s0 s) : State.Follows s0 (State.afterUnits s) := by
  unfold State.afterUnits
  repeat' first | with_reducible assumption | intro _ | with_reducible apply State.rebuildPump_follows | with_reducible apply State.anchorCheck_follows | with_reducible apply State.leadCheck_follows | with_reducible apply State.sweepErases_follows | with_reducible apply State.sweepReads_follows | with_reducible apply State.rescueReads_follows | with_reducible apply foldl_follows | with_reducible apply Follows.ite | split | extract_lets | with_reducible apply Follows.frame

theorem State.readGot_follows {s0 s : State} {a1 a2} (h : State.Follows s0 s) : State.Follows s0 (State.readGot s a1 a2) := by
  unfold State.readGot
  repeat' first | with_reducible assumption | intro _ | with_reducible apply State.dropJob_follows | with_reducible apply State.cacheInsert_follows | with_reducible apply State.gotGrain_follows | with_reducible apply State.pump_follows | with_reducible apply State.mergeBase_follows | with_reducible apply foldl_follows | with_reducible apply Follows.ite | split | extract_lets | with_reducible apply Follows.frame

theorem execUnitStateRecordRx_follows {s : State} {a1 a2} : ∃ t, execUnitStateRecordRx a1 a2 s = .next t ∧ State.Follows s t := by
  unfold execUnitStateRecordRx
  refine ⟨_, rfl, ?_⟩
  have h := State.Follows.refl s
  repeat' first | with_reducible assumption | intro _ | with_reducible apply State.afterUnits_follows | with_reducible apply rowUnitStateRecordRx_follows | with_reducible apply foldl_follows | with_reducible apply Follows.ite | split | extract_lets | with_reducible apply Follows.frame

theorem execDieCommandTimeout_follows {s : State} {a1 a2} : ∃ t, execDieCommandTimeout a1 a2 s = .next t ∧ State.Follows s t := by
  unfold execDieCommandTimeout
  refine ⟨_, rfl, ?_⟩
  have h := State.Follows.refl s
  repeat' first | with_reducible assumption | intro _ | with_reducible apply State.afterUnits_follows | with_reducible apply rowDieCommandTimeout_follows | with_reducible apply foldl_follows | with_reducible apply Follows.ite | split | extract_lets | with_reducible apply Follows.frame

theorem State.frameBad_follows {s0 s : State} {a1} (h : State.Follows s0 s) : State.Follows s0 (State.frameBad s a1) := by
  unfold State.frameBad
  repeat' first | with_reducible assumption | intro _ | with_reducible apply State.readLost_follows | with_reducible apply State.putJob_follows | with_reducible apply State.reconstruct_follows | with_reducible apply foldl_follows | with_reducible apply Follows.ite | split | extract_lets | with_reducible apply Follows.frame

theorem State.readDecoded_follows {s0 s : State} {a1 a2} (h : State.Follows s0 s) : State.Follows s0 (State.readDecoded s a1 a2) := by
  unfold State.readDecoded
  repeat' first | with_reducible assumption | intro _ | with_reducible apply State.readGot_follows | with_reducible apply State.frameBad_follows | with_reducible apply foldl_follows | with_reducible apply Follows.ite | split | extract_lets | with_reducible apply Follows.frame

theorem execModuleEventRx_follows {s : State} {a1 a2 a3} : ∃ t, execModuleEventRx a1 a2 a3 s = .next t ∧ State.Follows s t := by
  unfold execModuleEventRx
  refine ⟨_, rfl, ?_⟩
  have h := State.Follows.refl s
  repeat' first | with_reducible assumption | intro _ | with_reducible apply State.afterUnits_follows | with_reducible apply rowModuleEventRx_follows | with_reducible apply foldl_follows | with_reducible apply Follows.ite | split | extract_lets | with_reducible apply Follows.frame

theorem execMediaPortDown_follows {s : State} {a1} : ∃ t, execMediaPortDown a1 s = .next t ∧ State.Follows s t := by
  unfold execMediaPortDown
  refine ⟨_, rfl, ?_⟩
  have h := State.Follows.refl s
  repeat' first | with_reducible assumption | intro _ | with_reducible apply State.afterUnits_follows | with_reducible apply rowMediaPortDown_follows | with_reducible apply foldl_follows | with_reducible apply Follows.ite | split | extract_lets | with_reducible apply Follows.frame

theorem execSetUnitService_follows {s : State} {a1 a2} : ∃ t, execSetUnitService a1 a2 s = .next t ∧ State.Follows s t := by
  unfold execSetUnitService
  refine ⟨_, rfl, ?_⟩
  have h := State.Follows.refl s
  repeat' first | with_reducible assumption | intro _ | with_reducible apply State.afterUnits_follows | with_reducible apply rowSetUnitService_follows | with_reducible apply foldl_follows | with_reducible apply Follows.ite | split | extract_lets | with_reducible apply Follows.frame

theorem execModulePresenceLost_follows {s : State} {a1} : ∃ t, execModulePresenceLost a1 s = .next t ∧ State.Follows s t := by
  unfold execModulePresenceLost
  refine ⟨_, rfl, ?_⟩
  have h := State.Follows.refl s
  repeat' first | with_reducible assumption | intro _ | with_reducible apply State.afterUnits_follows | with_reducible apply rowModulePresenceLost_follows | with_reducible apply foldl_follows | with_reducible apply Follows.ite | split | extract_lets | with_reducible apply Follows.frame

theorem execRebuildPositionEnd_follows {s : State} {a1 a2} : ∃ t, execRebuildPositionEnd a1 a2 s = .next t ∧ State.Follows s t := by
  unfold execRebuildPositionEnd
  refine ⟨_, rfl, ?_⟩
  have h := State.Follows.refl s
  repeat' first | with_reducible assumption | intro _ | with_reducible apply State.putUnit_follows | with_reducible apply State.rebuildPump_follows | with_reducible apply State.recount_follows | with_reducible apply foldl_follows | with_reducible apply Follows.ite | split | extract_lets | with_reducible apply Follows.frame

theorem execDrainTake_follows {s : State} {a1} : ∃ t, execDrainTake a1 s = .next t ∧ State.Follows s t := by
  unfold execDrainTake
  refine ⟨_, rfl, ?_⟩
  have h := State.Follows.refl s
  repeat' first | with_reducible assumption | intro _ | with_reducible apply State.putEnt_follows | with_reducible apply State.startRec_follows | with_reducible apply State.sweepReads_follows | with_reducible apply State.pump_follows | with_reducible apply foldl_follows | with_reducible apply Follows.ite | split | extract_lets | with_reducible apply Follows.frame

theorem execBookedReadTimeout_follows {s : State} {a1} : ∃ t, execBookedReadTimeout a1 s = .next t ∧ State.Follows s t := by
  unfold execBookedReadTimeout
  refine ⟨_, rfl, ?_⟩
  have h := State.Follows.refl s
  repeat' first | with_reducible assumption | intro _ | with_reducible apply State.afterUnits_follows | with_reducible apply rowBookedReadTimeout_follows | with_reducible apply foldl_follows | with_reducible apply Follows.ite | split | extract_lets | with_reducible apply Follows.frame

end Sys2Proof.Machine
end

