-- ==== Sys2Proof/Laws/HostQ.lean ====
section
/-! SUPPORT. What each operation of Machine/HostQ.lean can do: what follows from a state before it follows after it (Sys2Proof.Machine.State.Follows). -/
namespace Sys2Proof.Machine

theorem State.flushGo_follows {s0 s : State} {a1} (h : State.Follows s0 s) : State.Follows s0 (State.flushGo s a1) := by
  unfold State.flushGo
  repeat' first | with_reducible assumption | intro _ | with_reducible apply State.putIo_follows | with_reducible apply State.endIo_follows | with_reducible apply foldl_follows | with_reducible apply Follows.ite | split | extract_lets | with_reducible apply Follows.frame

theorem State.ioTaken_follows {s0 s : State} {a1} (h : State.Follows s0 s) : State.Follows s0 (State.ioTaken s a1) := by
  unfold State.ioTaken
  repeat' first | with_reducible assumption | intro _ | with_reducible apply State.bump_follows | with_reducible apply State.takeCmd_follows | with_reducible apply foldl_follows | with_reducible apply Follows.ite | split | extract_lets | with_reducible apply Follows.frame

theorem State.proceed_follows {s0 s : State} {a1} (h : State.Follows s0 s) : State.Follows s0 (State.proceed s a1) := by
  unfold State.proceed
  repeat' first | with_reducible assumption | intro _ | with_reducible apply State.flushGo_follows | with_reducible apply State.stageCmd_follows | with_reducible apply State.endIo_follows | with_reducible apply State.startRead_follows | with_reducible apply foldl_follows | with_reducible apply Follows.ite | split | extract_lets | with_reducible apply Follows.frame

theorem State.reachLock_follows {s0 s : State} {a1} (h : State.Follows s0 s) : State.Follows s0 (State.reachLock s a1) := by
  unfold State.reachLock
  repeat' first | with_reducible assumption | intro _ | with_reducible apply State.proceed_follows | with_reducible apply State.nextSeq_follows | with_reducible apply State.putIo_follows | with_reducible apply State.bump_follows | with_reducible apply foldl_follows | with_reducible refine snd_follows (by assumption) ?_ | with_reducible apply Follows.ite | split | extract_lets | with_reducible apply Follows.frame

theorem State.accept_follows {s0 s : State} {a1} (h : State.Follows s0 s) : State.Follows s0 (State.accept s a1) := by
  unfold State.accept
  repeat' first | with_reducible assumption | intro _ | with_reducible apply State.putIo_follows | with_reducible apply State.bump_follows | with_reducible apply State.reachLock_follows | with_reducible apply foldl_follows | with_reducible apply Follows.ite | split | extract_lets | with_reducible apply Follows.frame

theorem State.io_follows {s0 s : State} {a1 a2 a3 a4 a5} (h : State.Follows s0 s) : State.Follows s0 (State.io s a1 a2 a3 a4 a5) := by
  unfold State.io
  repeat' first | with_reducible assumption | intro _ | with_reducible apply State.complete_follows | with_reducible apply State.takeCmd_follows | with_reducible apply State.ioTaken_follows | with_reducible apply State.bump_follows | with_reducible apply State.sluice_follows | with_reducible apply State.accept_follows | with_reducible apply foldl_follows | with_reducible refine fst_follows (by assumption) ?_ | with_reducible apply Follows.ite | split | extract_lets | with_reducible apply Follows.frame

theorem execDatasetManagement_follows {s : State} {a1} : ∃ t, execDatasetManagement a1 s = .next t ∧ State.Follows s t := by
  unfold execDatasetManagement
  refine ⟨_, rfl, ?_⟩
  have h := State.Follows.refl s
  repeat' first | with_reducible assumption | intro _ | with_reducible apply State.io_follows | with_reducible apply foldl_follows | with_reducible apply Follows.ite | split | extract_lets | with_reducible apply Follows.frame

theorem execRead_follows {s : State} {a1} : ∃ t, execRead a1 s = .next t ∧ State.Follows s t := by
  unfold execRead
  refine ⟨_, rfl, ?_⟩
  have h := State.Follows.refl s
  repeat' first | with_reducible assumption | intro _ | with_reducible apply State.io_follows | with_reducible apply foldl_follows | with_reducible apply Follows.ite | split | extract_lets | with_reducible apply Follows.frame

theorem State.abortCmd_follows {s0 s : State} {a1 a2} (h : State.Follows s0 s) : State.Follows s0 (State.abortCmd s a1 a2) := by
  unfold State.abortCmd
  repeat' first | with_reducible assumption | intro _ | with_reducible apply State.endIo_follows | with_reducible apply State.discardCmd_follows | with_reducible apply foldl_follows | with_reducible apply Follows.ite | split | extract_lets | with_reducible apply Follows.frame

theorem State.endAers_follows {s0 s : State} {a1} (h : State.Follows s0 s) : State.Follows s0 (State.endAers s a1) := by
  unfold State.endAers
  repeat' first | with_reducible assumption | intro _ | with_reducible apply State.complete_follows | with_reducible apply foldl_follows | with_reducible apply Follows.ite | split | extract_lets | with_reducible apply Follows.frame

theorem execDeleteHostQueue_follows {s : State} {a1 a2} : ∃ t, execDeleteHostQueue a1 a2 s = .next t ∧ State.Follows s t := by
  unfold execDeleteHostQueue
  dsimp only
  refine ⟨_, rfl, ?_⟩
  have h := State.Follows.refl s
  repeat' first | with_reducible assumption | intro _ | with_reducible apply State.packet_follows | with_reducible apply PktRes.fail_follows | with_reducible apply State.abortCmd_follows | with_reducible apply State.endAers_follows | with_reducible apply State.queueGone_follows | with_reducible exact PktRes.follows_waits | with_reducible apply PktRes.follows_done | with_reducible apply PktRes.follows_started | with_reducible apply PktRes.follows_startDone | with_reducible apply PktRes.follows_quiet | with_reducible apply foldl_follows | with_reducible apply Follows.ite | with_reducible apply PktRes.follows_ite | split | with_reducible apply Follows.frame

theorem State.dbInvalid_follows {s0 s : State} (h : State.Follows s0 s) : State.Follows s0 (State.dbInvalid s) := by
  unfold State.dbInvalid
  repeat' first | with_reducible assumption | intro _ | with_reducible apply State.bump_follows | with_reducible apply State.postAen_follows | with_reducible apply foldl_follows | with_reducible apply Follows.ite | split | extract_lets | with_reducible apply Follows.frame

theorem State.doorbell_follows {s0 s : State} {a1 a2 a3 a4 a5} (h : State.Follows s0 s) : State.Follows s0 (State.doorbell s a1 a2 a3 a4 a5) := by
  unfold State.doorbell
  repeat' first | with_reducible assumption | intro _ | with_reducible apply State.dbInvalid_follows | with_reducible apply State.emit_follows | with_reducible apply State.unknownSqe_follows | with_reducible apply foldl_follows | with_reducible apply Follows.ite | split | extract_lets | with_reducible apply Follows.frame

theorem execHostDoorbellWrite_follows {s : State} {a1 a2 a3 a4} : ∃ t, execHostDoorbellWrite a1 a2 a3 a4 s = .next t ∧ State.Follows s t := by
  unfold execHostDoorbellWrite
  refine ⟨_, rfl, ?_⟩
  have h := State.Follows.refl s
  repeat' first | with_reducible assumption | intro _ | with_reducible apply State.bump_follows | with_reducible apply State.doorbell_follows | with_reducible apply foldl_follows | with_reducible apply Follows.ite | split | extract_lets | with_reducible apply Follows.frame

theorem execCreateHostQueue_follows {s : State} {a1 a2} : ∃ t, execCreateHostQueue a1 a2 s = .next t ∧ State.Follows s t := by
  unfold execCreateHostQueue
  refine ⟨_, rfl, ?_⟩
  have h := State.Follows.refl s
  repeat' first | with_reducible assumption | intro _ | with_reducible apply State.packet_follows | with_reducible apply PktRes.fail_follows | with_reducible exact PktRes.follows_waits | with_reducible apply PktRes.follows_done | with_reducible apply PktRes.follows_started | with_reducible apply PktRes.follows_startDone | with_reducible apply PktRes.follows_quiet | with_reducible apply foldl_follows | with_reducible apply Follows.ite | with_reducible apply PktRes.follows_ite | split | extract_lets | with_reducible apply Follows.frame

theorem execRangeLockGrant_follows {s : State} {a1} : ∃ t, execRangeLockGrant a1 s = .next t ∧ State.Follows s t := by
  unfold execRangeLockGrant
  refine ⟨_, rfl, ?_⟩
  have h := State.Follows.refl s
  repeat' first | with_reducible assumption | intro _ | with_reducible apply State.proceed_follows | with_reducible apply foldl_follows | with_reducible apply Follows.ite | split | extract_lets | with_reducible apply Follows.frame

theorem execWrite_follows {s : State} {a1} : ∃ t, execWrite a1 s = .next t ∧ State.Follows s t := by
  unfold execWrite
  refine ⟨_, rfl, ?_⟩
  have h := State.Follows.refl s
  repeat' first | with_reducible assumption | intro _ | with_reducible apply State.io_follows | with_reducible apply foldl_follows | with_reducible apply Follows.ite | split | extract_lets | with_reducible apply Follows.frame

theorem execOrdRelease_follows {s : State} {a1} : ∃ t, execOrdRelease a1 s = .next t ∧ State.Follows s t := by
  unfold execOrdRelease
  refine ⟨_, rfl, ?_⟩
  have h := State.Follows.refl s
  repeat' first | with_reducible assumption | intro _ | with_reducible apply State.reachLock_follows | with_reducible apply foldl_follows | with_reducible apply Follows.ite | split | extract_lets | with_reducible apply Follows.frame

theorem execFlush_follows {s : State} {a1} : ∃ t, execFlush a1 s = .next t ∧ State.Follows s t := by
  unfold execFlush
  dsimp only
  refine ⟨_, rfl, ?_⟩
  have h := State.Follows.refl s
  repeat' first | with_reducible assumption | intro _ | with_reducible apply State.complete_follows | with_reducible apply State.takeCmd_follows | with_reducible apply State.bump_follows | with_reducible apply State.sealAt_follows | with_reducible apply State.accept_follows | with_reducible apply foldl_follows | with_reducible apply Follows.ite | split | with_reducible apply Follows.frame

theorem execWriteZeroes_follows {s : State} {a1} : ∃ t, execWriteZeroes a1 s = .next t ∧ State.Follows s t := by
  unfold execWriteZeroes
  refine ⟨_, rfl, ?_⟩
  have h := State.Follows.refl s
  repeat' first | with_reducible assumption | intro _ | with_reducible apply State.io_follows | with_reducible apply foldl_follows | with_reducible apply Follows.ite | split | extract_lets | with_reducible apply Follows.frame

theorem execVerify_follows {s : State} {a1} : ∃ t, execVerify a1 s = .next t ∧ State.Follows s t := by
  unfold execVerify
  refine ⟨_, rfl, ?_⟩
  have h := State.Follows.refl s
  repeat' first | with_reducible assumption | intro _ | with_reducible apply State.io_follows | with_reducible apply foldl_follows | with_reducible apply Follows.ite | split | extract_lets | with_reducible apply Follows.frame

end Sys2Proof.Machine
end

