-- ==== Sys2Proof/Laws/Xport.lean ====
section
/-! SUPPORT. What each operation of Machine/Xport.lean can do: what follows from a state before it follows after it (Sys2Proof.Machine.State.Follows). -/
namespace Sys2Proof.Machine

theorem State.dropTx_follows {s0 s : State} {a1} (h : State.Follows s0 s) : State.Follows s0 (State.dropTx s a1) := by
  unfold State.dropTx
  repeat' first | with_reducible assumption | intro _ | with_reducible apply foldl_follows | with_reducible apply Follows.ite | split | extract_lets | with_reducible apply Follows.frame

theorem State.sendCm_follows {s0 s : State} {a1 a2} (h : State.Follows s0 s) : State.Follows s0 (State.sendCm s a1 a2) := by
  unfold State.sendCm
  repeat' first | with_reducible assumption | intro _ | with_reducible apply State.ethOut_follows | with_reducible apply foldl_follows | with_reducible apply Follows.ite | split | extract_lets | with_reducible apply Follows.frame

theorem State.failCmd_follows {s0 s : State} {a1} (h : State.Follows s0 s) : State.Follows s0 (State.failCmd s a1) := by
  unfold State.failCmd
  repeat' first | with_reducible assumption | intro _ | with_reducible apply State.dropIo_follows | with_reducible apply State.discardCmd_follows | with_reducible apply foldl_follows | with_reducible apply Follows.ite | split | extract_lets | with_reducible apply Follows.frame

theorem State.dropQp_follows {s0 s : State} {a1} (h : State.Follows s0 s) : State.Follows s0 (State.dropQp s a1) := by
  unfold State.dropQp
  repeat' first | with_reducible assumption | intro _ | with_reducible apply State.dropTx_follows | with_reducible apply foldl_follows | with_reducible apply Follows.ite | split | extract_lets | with_reducible apply Follows.frame

theorem State.putSession_follows {s0 s : State} {a1} (h : State.Follows s0 s) : State.Follows s0 (State.putSession s a1) := by
  unfold State.putSession
  repeat' first | with_reducible assumption | intro _ | with_reducible apply foldl_follows | with_reducible apply Follows.ite | split | extract_lets | with_reducible apply Follows.frame

theorem State.suspendSession_follows {s0 s : State} {a1 a2} (h : State.Follows s0 s) : State.Follows s0 (State.suspendSession s a1 a2) := by
  unfold State.suspendSession
  repeat' first | with_reducible assumption | intro _ | with_reducible apply State.dropQp_follows | with_reducible apply State.putSession_follows | with_reducible apply State.bump_follows | with_reducible apply foldl_follows | with_reducible apply Follows.ite | split | extract_lets | with_reducible apply Follows.frame

theorem State.reapQp_follows {s0 s : State} {a1} (h : State.Follows s0 s) : State.Follows s0 (State.reapQp s a1) := by
  unfold State.reapQp
  repeat' first | with_reducible assumption | intro _ | with_reducible apply State.dropQp_follows | with_reducible apply foldl_follows | with_reducible apply Follows.ite | split | extract_lets | with_reducible apply Follows.frame

theorem State.failOne_follows {s0 s : State} {a1 a2} (h : State.Follows s0 s) : State.Follows s0 (State.failOne s a1 a2) := by
  unfold State.failOne
  repeat' first | with_reducible assumption | intro _ | with_reducible apply State.dropTx_follows | with_reducible apply State.putQp_follows | with_reducible apply State.xbump_follows | with_reducible apply State.sendCm_follows | with_reducible apply State.event_follows | with_reducible apply State.failCmd_follows | with_reducible apply State.suspendSession_follows | with_reducible apply State.reapQp_follows | with_reducible apply foldl_follows | with_reducible apply Follows.ite | split | extract_lets | with_reducible apply Follows.frame

theorem State.failQp_follows {s0 s : State} {a1 a2} (h : State.Follows s0 s) : State.Follows s0 (State.failQp s a1 a2) := by
  unfold State.failQp
  repeat' first | with_reducible assumption | intro _ | with_reducible apply State.failOne_follows | with_reducible apply foldl_follows | with_reducible apply Follows.ite | split | extract_lets | with_reducible apply Follows.frame

theorem State.retransmit_follows {s0 s : State} {a1 a2} (h : State.Follows s0 s) : State.Follows s0 (State.retransmit s a1 a2) := by
  unfold State.retransmit
  repeat' first | with_reducible assumption | intro _ | with_reducible apply State.xbump_follows | with_reducible apply State.wire_follows | with_reducible apply foldl_follows | with_reducible apply Follows.ite | split | extract_lets | with_reducible apply Follows.frame

theorem State.retry_follows {s0 s : State} {a1 a2} (h : State.Follows s0 s) : State.Follows s0 (State.retry s a1 a2) := by
  unfold State.retry
  repeat' first | with_reducible assumption | intro _ | with_reducible apply State.failQp_follows | with_reducible apply State.retransmit_follows | with_reducible apply State.putQp_follows | with_reducible apply foldl_follows | with_reducible apply Follows.ite | split | extract_lets | with_reducible apply Follows.frame

theorem State.ethCtl_follows {s0 s : State} {a1 a2 a3 a4} (h : State.Follows s0 s) : State.Follows s0 (State.ethCtl s a1 a2 a3 a4) := by
  unfold State.ethCtl
  repeat' first | with_reducible assumption | intro _ | with_reducible apply State.ethOut_follows | with_reducible apply foldl_follows | with_reducible apply Follows.ite | split | extract_lets | with_reducible apply Follows.frame

theorem State.nakAccess_follows {s0 s : State} {a1} (h : State.Follows s0 s) : State.Follows s0 (State.nakAccess s a1) := by
  unfold State.nakAccess
  repeat' first | with_reducible assumption | intro _ | with_reducible apply State.failQp_follows | with_reducible apply State.ethCtl_follows | with_reducible apply State.xbump_follows | with_reducible apply foldl_follows | with_reducible apply Follows.ite | split | extract_lets | with_reducible apply Follows.frame

theorem State.retireOps_follows {s0 s : State} {a1 a2} (h : State.Follows s0 s) : State.Follows s0 (State.retireOps s a1 a2) := by
  unfold State.retireOps
  repeat' first | with_reducible assumption | intro _ | with_reducible apply State.pumpReads_follows | with_reducible apply State.putQp_follows | with_reducible apply foldl_follows | with_reducible apply Follows.ite | split | extract_lets | with_reducible apply Follows.frame

theorem State.rnrNak_follows {s0 s : State} {a1 a2} (h : State.Follows s0 s) : State.Follows s0 (State.rnrNak s a1 a2) := by
  unfold State.rnrNak
  repeat' first | with_reducible assumption | intro _ | with_reducible apply State.retireOps_follows | with_reducible apply State.failQp_follows | with_reducible apply State.putQp_follows | with_reducible apply foldl_follows | with_reducible apply Follows.ite | split | extract_lets | with_reducible apply Follows.frame

theorem State.cacheCtx_follows {s0 s : State} {a1} (h : State.Follows s0 s) : State.Follows s0 (State.cacheCtx s a1) := by
  unfold State.cacheCtx
  repeat' first | with_reducible assumption | intro _ | with_reducible apply State.putQp_follows | with_reducible apply State.llcWrite_follows | with_reducible apply State.xbump_follows | with_reducible apply foldl_follows | with_reducible apply Follows.ite | split | extract_lets | with_reducible apply Follows.frame

theorem State.revokeEnd_follows {s0 s : State} {a1} (h : State.Follows s0 s) : State.Follows s0 (State.revokeEnd s a1) := by
  unfold State.revokeEnd
  repeat' first | with_reducible assumption | intro _ | with_reducible apply State.finish_follows | with_reducible apply foldl_follows | with_reducible apply Follows.ite | split | extract_lets | with_reducible apply Follows.frame

theorem State.drainTx_follows {s0 s : State} {a1 a2} (h : State.Follows s0 s) : State.Follows s0 (State.drainTx s a1 a2) := by
  unfold State.drainTx
  repeat' first | with_reducible assumption | intro _ | with_reducible apply State.putEport_follows | with_reducible apply State.ethSend_follows | with_reducible apply foldl_follows | with_reducible apply Follows.ite | split | extract_lets | with_reducible apply Follows.frame

theorem State.rxNet_follows {s0 s : State} {a1 a2} (h : State.Follows s0 s) (hf : ∀ t, State.Follows s0 t → State.Follows s0 (a2 t)) : State.Follows s0 (State.rxNet s a1 a2) := by
  unfold State.rxNet
  dsimp only
  split
  · exact State.xbump_follows h
  · split
    · exact State.xbump_follows h
    · exact hf _ (State.xbump_follows h)

theorem State.noteCe_follows {s0 s : State} {a1} (h : State.Follows s0 s) : State.Follows s0 (State.noteCe s a1) := by
  unfold State.noteCe
  repeat' first | with_reducible assumption | intro _ | with_reducible apply State.xbump_follows | with_reducible apply State.ethCtl_follows | with_reducible apply State.putQp_follows | with_reducible apply foldl_follows | with_reducible apply Follows.ite | split | extract_lets | with_reducible apply Follows.frame

theorem State.seqNak_follows {s0 s : State} {a1 a2} (h : State.Follows s0 s) : State.Follows s0 (State.seqNak s a1 a2) := by
  unfold State.seqNak
  repeat' first | with_reducible assumption | intro _ | with_reducible apply State.xbump_follows | with_reducible apply State.retireOps_follows | with_reducible apply State.retry_follows | with_reducible apply foldl_follows | with_reducible apply Follows.ite | split | extract_lets | with_reducible apply Follows.frame

theorem State.readIn_follows {s0 s : State} {a1} (h : State.Follows s0 s) : State.Follows s0 (State.readIn s a1) := by
  unfold State.readIn
  repeat' first | with_reducible assumption | intro _ | with_reducible apply State.putIo_follows | with_reducible apply State.writeIn_follows | with_reducible apply foldl_follows | with_reducible apply Follows.ite | split | extract_lets | with_reducible apply Follows.frame

theorem State.readResp_follows {s0 s : State} {a1 a2 a3 a4} (h : State.Follows s0 s) : State.Follows s0 (State.readResp s a1 a2 a3 a4) := by
  unfold State.readResp
  repeat' first | with_reducible assumption | intro _ | with_reducible apply State.xbump_follows | with_reducible apply State.failQp_follows | with_reducible apply State.wire_follows | with_reducible apply State.putQp_follows | with_reducible apply State.readIn_follows | with_reducible apply State.pumpReads_follows | with_reducible apply foldl_follows | with_reducible apply Follows.ite | split | extract_lets | with_reducible apply Follows.frame

theorem State.rateCut_follows {s0 s : State} {a1} (h : State.Follows s0 s) : State.Follows s0 (State.rateCut s a1) := by
  unfold State.rateCut
  repeat' first | with_reducible assumption | intro _ | with_reducible apply State.xbump_follows | with_reducible apply State.putQp_follows | with_reducible apply foldl_follows | with_reducible apply Follows.ite | split | extract_lets | with_reducible apply Follows.frame

theorem State.ackTimeout_follows {s0 s : State} {a1} (h : State.Follows s0 s) : State.Follows s0 (State.ackTimeout s a1) := by
  unfold State.ackTimeout
  repeat' first | with_reducible assumption | intro _ | with_reducible apply State.xbump_follows | with_reducible apply State.retry_follows | with_reducible apply State.failQp_follows | with_reducible apply State.retransmit_follows | with_reducible apply State.putQp_follows | with_reducible apply foldl_follows | with_reducible apply Follows.ite | split | extract_lets | with_reducible apply Follows.frame

theorem State.rnrEnd_follows {s0 s : State} {a1} (h : State.Follows s0 s) : State.Follows s0 (State.rnrEnd s a1) := by
  unfold State.rnrEnd
  repeat' first | with_reducible assumption | intro _ | with_reducible apply State.pumpReads_follows | with_reducible apply State.retransmit_follows | with_reducible apply State.putQp_follows | with_reducible apply foldl_follows | with_reducible apply Follows.ite | split | extract_lets | with_reducible apply Follows.frame

theorem State.nakInvalid_follows {s0 s : State} {a1} (h : State.Follows s0 s) : State.Follows s0 (State.nakInvalid s a1) := by
  unfold State.nakInvalid
  repeat' first | with_reducible assumption | intro _ | with_reducible apply State.failQp_follows | with_reducible apply State.ethCtl_follows | with_reducible apply State.xbump_follows | with_reducible apply foldl_follows | with_reducible apply Follows.ite | split | extract_lets | with_reducible apply Follows.frame

theorem State.sendAck_follows {s0 s : State} {a1} (h : State.Follows s0 s) : State.Follows s0 (State.sendAck s a1) := by
  unfold State.sendAck
  repeat' first | with_reducible assumption | intro _ | with_reducible apply State.ethCtl_follows | with_reducible apply foldl_follows | with_reducible apply Follows.ite | split | extract_lets | with_reducible apply Follows.frame

theorem State.msgDone_follows {s0 s : State} {a1} (h : State.Follows s0 s) : State.Follows s0 (State.msgDone s a1) := by
  unfold State.msgDone
  repeat' first | with_reducible assumption | intro _ | with_reducible apply State.sendAck_follows | with_reducible apply State.putQp_follows | with_reducible apply foldl_follows | with_reducible apply Follows.ite | split | extract_lets | with_reducible apply Follows.frame

theorem State.noteMessage_follows {s0 s : State} {a1 a2} (h : State.Follows s0 s) : State.Follows s0 (State.noteMessage s a1 a2) := by
  unfold State.noteMessage
  repeat' first | with_reducible assumption | intro _ | with_reducible apply State.putSession_follows | with_reducible apply foldl_follows | with_reducible apply Follows.ite | split | extract_lets | with_reducible apply Follows.frame

theorem State.expectedSend_follows {s0 s : State} {a1 a2} (h : State.Follows s0 s) : State.Follows s0 (State.expectedSend s a1 a2) := by
  unfold State.expectedSend
  repeat' first | with_reducible assumption | intro _ | with_reducible apply State.nakInvalid_follows | with_reducible apply State.ethCtl_follows | with_reducible apply State.xbump_follows | with_reducible apply State.putQp_follows | with_reducible apply State.msgDone_follows | with_reducible apply State.noteMessage_follows | with_reducible apply State.unknownSqe_follows | with_reducible apply foldl_follows | with_reducible apply Follows.ite | split | extract_lets | with_reducible apply Follows.frame

theorem State.unpoison_follows {s0 s : State} {a1 a2 a3} (h : State.Follows s0 s) : State.Follows s0 (State.unpoison s a1 a2 a3) := by
  unfold State.unpoison
  repeat' first | with_reducible assumption | intro _ | with_reducible apply foldl_follows | with_reducible apply Follows.ite | split | extract_lets | with_reducible apply Follows.frame

theorem State.place_follows {s0 s : State} {a1 a2 a3} (h : State.Follows s0 s) : State.Follows s0 (State.place s a1 a2 a3) := by
  have hu : ∀ (t : State) (m : Nat) (a b : Nat), State.Follows s0 t → State.Follows s0 (t.unpoison m a b) := fun t m a b ht => by
    unfold State.unpoison
    exact Follows.frame ht
  unfold State.place
  split
  · refine hu _ _ _ _ ⟨h.queue, h.sent, h.drawn, fun g => ?_⟩
    have k := h.sound g
    exact ⟨k.regs, Memory.wf_writeAll _ _ k.hbm, k.ddr, k.flash, k.buf, k.rings, k.chans, k.allow⟩
  · refine hu _ _ _ _ ⟨h.queue, h.sent, h.drawn, fun g => ?_⟩
    have k := h.sound g
    exact ⟨k.regs, k.hbm, Memory.wf_writeAll _ _ k.ddr, k.flash, k.buf, k.rings, k.chans, k.allow⟩
  · exact State.emit_follows h

theorem State.putMkey_follows {s0 s : State} {a1} (h : State.Follows s0 s) : State.Follows s0 (State.putMkey s a1) := by
  unfold State.putMkey
  repeat' first | with_reducible assumption | intro _ | with_reducible apply foldl_follows | with_reducible apply Follows.ite | split | extract_lets | with_reducible apply Follows.frame

theorem State.writeDone_follows {s0 s : State} {a1} (h : State.Follows s0 s) : State.Follows s0 (State.writeDone s a1) := by
  unfold State.writeDone
  repeat' first | with_reducible assumption | intro _ | with_reducible apply State.putMkey_follows | with_reducible apply foldl_follows | with_reducible apply Follows.ite | split | extract_lets | with_reducible apply Follows.frame

theorem State.expectedWrite_follows {s0 s : State} {a1 a2} (h : State.Follows s0 s) : State.Follows s0 (State.expectedWrite s a1 a2) := by
  unfold State.expectedWrite
  repeat' first | with_reducible assumption | intro _ | with_reducible apply State.nakInvalid_follows | with_reducible apply State.nakAccess_follows | with_reducible apply State.place_follows | with_reducible apply State.writeDone_follows | with_reducible apply State.msgDone_follows | with_reducible apply State.noteMessage_follows | with_reducible apply State.putQp_follows | with_reducible apply foldl_follows | with_reducible apply Follows.ite | split | extract_lets | with_reducible apply Follows.frame

theorem State.request_follows {s0 s : State} {a1 a2} (h : State.Follows s0 s) : State.Follows s0 (State.request s a1 a2) := by
  unfold State.request
  repeat' first | with_reducible assumption | intro _ | with_reducible apply State.expectedSend_follows | with_reducible apply State.expectedWrite_follows | with_reducible apply State.nakInvalid_follows | with_reducible apply State.ethCtl_follows | with_reducible apply State.xbump_follows | with_reducible apply State.putQp_follows | with_reducible apply State.sendAck_follows | with_reducible apply foldl_follows | with_reducible apply Follows.ite | split | extract_lets | with_reducible apply Follows.frame

theorem State.rxPkt_follows {s0 s : State} {a1 a2} (h : State.Follows s0 s) : State.Follows s0 (State.rxPkt s a1 a2) := by
  unfold State.rxPkt
  repeat' first | with_reducible assumption | intro _ | with_reducible apply State.noteCe_follows | with_reducible apply State.retireOps_follows | with_reducible apply State.seqNak_follows | with_reducible apply State.rnrNak_follows | with_reducible apply State.failQp_follows | with_reducible apply State.readResp_follows | with_reducible apply State.rateCut_follows | with_reducible apply State.ackTimeout_follows | with_reducible apply State.rnrEnd_follows | with_reducible apply State.request_follows | with_reducible apply foldl_follows | with_reducible apply Follows.ite | split | extract_lets | with_reducible apply Follows.frame

theorem State.missFlow_follows {s0 s : State} {a1} (h : State.Follows s0 s) : State.Follows s0 (State.missFlow s a1) := by
  unfold State.missFlow
  repeat' first | with_reducible assumption | intro _ | with_reducible apply State.emit_follows | with_reducible apply State.putEport_follows | with_reducible apply foldl_follows | with_reducible apply Follows.ite | split | extract_lets | with_reducible apply Follows.frame

theorem State.forQp_follows {s0 s : State} {a1 a2} (h : State.Follows s0 s) : State.Follows s0 (State.forQp s a1 a2) := by
  unfold State.forQp
  repeat' first | with_reducible assumption | intro _ | with_reducible apply State.rxPkt_follows | with_reducible apply State.putQp_follows | with_reducible apply State.missFlow_follows | with_reducible apply State.fetchCtx_follows | with_reducible apply foldl_follows | with_reducible apply Follows.ite | split | extract_lets | with_reducible apply Follows.frame

theorem State.ceOnly_follows {s0 s : State} {a1} (h : State.Follows s0 s) : State.Follows s0 (State.ceOnly s a1) := by
  unfold State.ceOnly
  repeat' first | with_reducible assumption | intro _ | with_reducible apply State.xbump_follows | with_reducible apply foldl_follows | with_reducible apply Follows.ite | split | extract_lets | with_reducible apply Follows.frame

theorem State.rxAny_follows {s0 s : State} {a1 a2 a3} (h : State.Follows s0 s) : State.Follows s0 (State.rxAny s a1 a2 a3) := by
  unfold State.rxAny
  repeat' first | with_reducible assumption | intro _ | with_reducible apply State.rxNet_follows | with_reducible apply State.forQp_follows | with_reducible apply State.ceOnly_follows | with_reducible apply foldl_follows | with_reducible apply Follows.ite | split | extract_lets | with_reducible apply Follows.frame

theorem execAckRx_follows {s : State} {a1 a2 a3} : ∃ t, execAckRx a1 a2 a3 s = .next t ∧ State.Follows s t := by
  unfold execAckRx
  refine ⟨_, rfl, ?_⟩
  have h := State.Follows.refl s
  repeat' first | with_reducible assumption | intro _ | with_reducible apply State.rxAny_follows | with_reducible apply foldl_follows | with_reducible apply Follows.ite | split | extract_lets | with_reducible apply Follows.frame

theorem execSendRx_follows {s : State} {a1 a2 a3 a4 a5 a6 a7} : ∃ t, execSendRx a1 a2 a3 a4 a5 a6 a7 s = .next t ∧ State.Follows s t := by
  unfold execSendRx
  refine ⟨_, rfl, ?_⟩
  have h := State.Follows.refl s
  repeat' first | with_reducible assumption | intro _ | with_reducible apply State.rxAny_follows | with_reducible apply foldl_follows | with_reducible apply Follows.ite | split | extract_lets | with_reducible apply Follows.frame

theorem State.timerOf_follows {s0 s : State} {a1 a2 a3} (h : State.Follows s0 s) : State.Follows s0 (State.timerOf s a1 a2 a3) := by
  unfold State.timerOf
  repeat' first | with_reducible assumption | intro _ | with_reducible apply State.forQp_follows | with_reducible apply foldl_follows | with_reducible apply Follows.ite | split | extract_lets | with_reducible apply Follows.frame

theorem State.rateUp_follows {s0 s : State} {a1} (h : State.Follows s0 s) : State.Follows s0 (State.rateUp s a1) := by
  unfold State.rateUp
  repeat' first | with_reducible assumption | intro _ | with_reducible apply State.putQp_follows | with_reducible apply foldl_follows | with_reducible apply Follows.ite | split | extract_lets | with_reducible apply Follows.frame

theorem State.newMkey_follows {s0 s : State} {a1 a2 a3 a4} (h : State.Follows s0 s) : State.Follows s0 (State.newMkey s a1 a2 a3 a4).1 := by
  unfold State.newMkey
  repeat' first | with_reducible assumption | intro _ | with_reducible apply State.putMkey_follows | with_reducible apply foldl_follows | with_reducible apply Follows.ite | split | extract_lets | with_reducible apply Follows.frame

theorem execSeqNakRx_follows {s : State} {a1 a2 a3} : ∃ t, execSeqNakRx a1 a2 a3 s = .next t ∧ State.Follows s t := by
  unfold execSeqNakRx
  refine ⟨_, rfl, ?_⟩
  have h := State.Follows.refl s
  repeat' first | with_reducible assumption | intro _ | with_reducible apply State.rxAny_follows | with_reducible apply foldl_follows | with_reducible apply Follows.ite | split | extract_lets | with_reducible apply Follows.frame

theorem execPfcStorm_follows {s : State} {a1 a2} : ∃ t, execPfcStorm a1 a2 s = .next t ∧ State.Follows s t := by
  unfold execPfcStorm
  refine ⟨_, rfl, ?_⟩
  have h := State.Follows.refl s
  repeat' first | with_reducible assumption | intro _ | with_reducible apply State.putEport_follows | with_reducible apply State.xbump_follows | with_reducible apply State.event_follows | with_reducible apply foldl_follows | with_reducible apply Follows.ite | split | extract_lets | with_reducible apply Follows.frame

theorem State.rxCm_follows {s0 s : State} {a1 a2} (h : State.Follows s0 s) (hf : ∀ t, State.Follows s0 t → State.Follows s0 (a2 t)) : State.Follows s0 (State.rxCm s a1 a2) := by
  unfold State.rxCm
  exact State.rxNet_follows h fun t ht => hf _ (State.ceOnly_follows ht)

theorem execCmMraRx_follows {s : State} {a1 a2} : ∃ t, execCmMraRx a1 a2 s = .next t ∧ State.Follows s t := by
  exact ⟨_, rfl, State.rxCm_follows (State.Follows.refl s) fun t ht => ht⟩

theorem State.sessionUp_follows {s0 s : State} {a1} (h : State.Follows s0 s) : State.Follows s0 (State.sessionUp s a1) := by
  unfold State.sessionUp
  repeat' first | with_reducible assumption | intro _ | with_reducible apply State.putSession_follows | with_reducible apply foldl_follows | with_reducible apply Follows.ite | split | extract_lets | with_reducible apply Follows.frame

theorem State.establish_follows {s0 s : State} {a1} (h : State.Follows s0 s) : State.Follows s0 (State.establish s a1) := by
  unfold State.establish
  repeat' first | with_reducible assumption | intro _ | with_reducible apply State.sessionUp_follows | with_reducible apply State.putQp_follows | with_reducible apply foldl_follows | with_reducible apply Follows.ite | split | extract_lets | with_reducible apply Follows.frame

theorem execRateIncreaseTimer_follows {s : State} {a1} : ∃ t, execRateIncreaseTimer a1 s = .next t ∧ State.Follows s t := by
  unfold execRateIncreaseTimer
  refine ⟨_, rfl, ?_⟩
  have h := State.Follows.refl s
  repeat' first | with_reducible assumption | intro _ | with_reducible apply State.rateUp_follows | with_reducible apply foldl_follows | with_reducible apply Follows.ite | split | extract_lets | with_reducible apply Follows.frame

theorem State.acceptReq_follows {s0 s : State} {a1 a2} (h : State.Follows s0 s) : State.Follows s0 (State.acceptReq s a1 a2) := by
  unfold State.acceptReq
  repeat' first | with_reducible assumption | intro _ | with_reducible apply State.sendCm_follows | with_reducible apply State.dropQp_follows | with_reducible apply State.cacheCtx_follows | with_reducible apply State.putQp_follows | with_reducible apply State.putSession_follows | with_reducible apply foldl_follows | with_reducible apply Follows.ite | split | extract_lets | with_reducible apply Follows.frame

theorem State.endQp_follows {s0 s : State} {a1} (h : State.Follows s0 s) : State.Follows s0 (State.endQp s a1) := by
  unfold State.endQp
  repeat' first | with_reducible assumption | intro _ | with_reducible apply State.dropTx_follows | with_reducible apply State.putQp_follows | with_reducible apply State.failCmd_follows | with_reducible apply State.suspendSession_follows | with_reducible apply State.reapQp_follows | with_reducible apply foldl_follows | with_reducible apply Follows.ite | split | extract_lets | with_reducible apply Follows.frame

theorem execReadResponseRx_follows {s : State} {a1 a2 a3 a4 a5} : ∃ t, execReadResponseRx a1 a2 a3 a4 a5 s = .next t ∧ State.Follows s t := by
  unfold execReadResponseRx
  refine ⟨_, rfl, ?_⟩
  have h := State.Follows.refl s
  repeat' first | with_reducible assumption | intro _ | with_reducible apply State.rxAny_follows | with_reducible apply foldl_follows | with_reducible apply Follows.ite | split | extract_lets | with_reducible apply Follows.frame

theorem execPrivAckTimeout_follows {s : State} {a1} : ∃ t, execPrivAckTimeout a1 s = .next t ∧ State.Follows s t := by
  unfold execPrivAckTimeout
  refine ⟨_, rfl, ?_⟩
  have h := State.Follows.refl s
  repeat' first | with_reducible assumption | intro _ | with_reducible apply State.timerOf_follows | with_reducible apply foldl_follows | with_reducible apply Follows.ite | split | extract_lets | with_reducible apply Follows.frame

theorem execAckTimeout_follows {s : State} {a1} : ∃ t, execAckTimeout a1 s = .next t ∧ State.Follows s t := by
  unfold execAckTimeout
  refine ⟨_, rfl, ?_⟩
  have h := State.Follows.refl s
  repeat' first | with_reducible assumption | intro _ | with_reducible apply State.timerOf_follows | with_reducible apply foldl_follows | with_reducible apply Follows.ite | split | extract_lets | with_reducible apply Follows.frame

theorem execCmDreqRx_follows {s : State} {a1 a2 a3} : ∃ t, execCmDreqRx a1 a2 a3 s = .next t ∧ State.Follows s t := by
  unfold execCmDreqRx
  refine ⟨_, rfl, ?_⟩
  have h := State.Follows.refl s
  repeat' first | with_reducible assumption | intro _ | with_reducible apply State.rxCm_follows | with_reducible apply State.sendCm_follows | with_reducible apply State.endQp_follows | with_reducible apply foldl_follows | with_reducible apply Follows.ite | split | extract_lets | with_reducible apply Follows.frame

theorem execRevokeMemoryKey_follows {s : State} {a1 a2} : ∃ t, execRevokeMemoryKey a1 a2 s = .next t ∧ State.Follows s t := by
  unfold execRevokeMemoryKey
  refine ⟨_, rfl, ?_⟩
  have h := State.Follows.refl s
  repeat' first | with_reducible assumption | intro _ | with_reducible apply State.packet_follows | with_reducible apply PktRes.fail_follows | with_reducible apply State.putMkey_follows | with_reducible exact PktRes.follows_waits | with_reducible apply PktRes.follows_done | with_reducible apply PktRes.follows_started | with_reducible apply PktRes.follows_startDone | with_reducible apply PktRes.follows_quiet | with_reducible apply foldl_follows | with_reducible apply Follows.ite | with_reducible apply PktRes.follows_ite | split | extract_lets | with_reducible apply Follows.frame

theorem State.ethDown_follows {s0 s : State} {a1} (h : State.Follows s0 s) : State.Follows s0 (State.ethDown s a1) := by
  unfold State.ethDown
  repeat' first | with_reducible assumption | intro _ | with_reducible apply State.putEport_follows | with_reducible apply State.failQp_follows | with_reducible apply foldl_follows | with_reducible apply Follows.ite | split | extract_lets | with_reducible apply Follows.frame

theorem State.ethOff_follows {s0 s : State} {a1} (h : State.Follows s0 s) : State.Follows s0 (State.ethOff s a1) := by
  unfold State.ethOff
  repeat' first | with_reducible assumption | intro _ | with_reducible apply State.ethDown_follows | with_reducible apply foldl_follows | with_reducible apply Follows.ite | split | extract_lets | with_reducible apply Follows.frame

theorem execCnpRx_follows {s : State} {a1 a2} : ∃ t, execCnpRx a1 a2 s = .next t ∧ State.Follows s t := by
  unfold execCnpRx
  refine ⟨_, rfl, ?_⟩
  have h := State.Follows.refl s
  repeat' first | with_reducible assumption | intro _ | with_reducible apply State.rxAny_follows | with_reducible apply foldl_follows | with_reducible apply Follows.ite | split | extract_lets | with_reducible apply Follows.frame

theorem execFatalNakRx_follows {s : State} {a1 a2} : ∃ t, execFatalNakRx a1 a2 s = .next t ∧ State.Follows s t := by
  unfold execFatalNakRx
  refine ⟨_, rfl, ?_⟩
  have h := State.Follows.refl s
  repeat' first | with_reducible assumption | intro _ | with_reducible apply State.rxAny_follows | with_reducible apply foldl_follows | with_reducible apply Follows.ite | split | extract_lets | with_reducible apply Follows.frame

theorem execRevokeLimitExpiry_follows {s : State} {a1} : ∃ t, execRevokeLimitExpiry a1 s = .next t ∧ State.Follows s t := by
  unfold execRevokeLimitExpiry
  refine ⟨_, rfl, ?_⟩
  have h := State.Follows.refl s
  repeat' first | with_reducible assumption | intro _ | with_reducible apply State.putMkey_follows | with_reducible apply State.failQp_follows | with_reducible apply foldl_follows | with_reducible apply Follows.ite | split | extract_lets | with_reducible apply Follows.frame

theorem execRevokeComplete_follows {s : State} {a1} : ∃ t, execRevokeComplete a1 s = .next t ∧ State.Follows s t := by
  unfold execRevokeComplete
  refine ⟨_, rfl, ?_⟩
  have h := State.Follows.refl s
  repeat' first | with_reducible assumption | intro _ | with_reducible apply State.revokeEnd_follows | with_reducible apply foldl_follows | with_reducible apply Follows.ite | split | extract_lets | with_reducible apply Follows.frame

theorem execCmReqRx_follows {s : State} {a1 a2} : ∃ t, execCmReqRx a1 a2 s = .next t ∧ State.Follows s t := by
  unfold execCmReqRx
  refine ⟨_, rfl, ?_⟩
  have h := State.Follows.refl s
  repeat' first | with_reducible assumption | intro _ | with_reducible apply State.rxCm_follows | with_reducible apply State.acceptReq_follows | with_reducible apply foldl_follows | with_reducible apply Follows.ite | split | extract_lets | with_reducible apply Follows.frame

theorem execRdmaReadRequestRx_follows {s : State} {a1 a2 a3} : ∃ t, execRdmaReadRequestRx a1 a2 a3 s = .next t ∧ State.Follows s t := by
  unfold execRdmaReadRequestRx
  refine ⟨_, rfl, ?_⟩
  have h := State.Follows.refl s
  repeat' first | with_reducible assumption | intro _ | with_reducible apply State.rxAny_follows | with_reducible apply foldl_follows | with_reducible apply Follows.ite | split | extract_lets | with_reducible apply Follows.frame

theorem execRnrWaitExpiry_follows {s : State} {a1} : ∃ t, execRnrWaitExpiry a1 s = .next t ∧ State.Follows s t := by
  unfold execRnrWaitExpiry
  refine ⟨_, rfl, ?_⟩
  have h := State.Follows.refl s
  repeat' first | with_reducible assumption | intro _ | with_reducible apply State.timerOf_follows | with_reducible apply foldl_follows | with_reducible apply Follows.ite | split | extract_lets | with_reducible apply Follows.frame

theorem execRegisterMemoryKey_follows {s : State} {a1 a2} : ∃ t, execRegisterMemoryKey a1 a2 s = .next t ∧ State.Follows s t := by
  unfold execRegisterMemoryKey
  refine ⟨_, rfl, ?_⟩
  have h := State.Follows.refl s
  repeat' first | with_reducible assumption | intro _ | with_reducible apply State.packet_follows | with_reducible apply PktRes.fail_follows | with_reducible apply State.newMkey_follows | with_reducible exact PktRes.follows_waits | with_reducible apply PktRes.follows_done | with_reducible apply PktRes.follows_started | with_reducible apply PktRes.follows_startDone | with_reducible apply PktRes.follows_quiet | with_reducible apply foldl_follows | with_reducible refine fst_follows (by assumption) ?_ | with_reducible apply Follows.ite | with_reducible apply PktRes.follows_ite | split | extract_lets | with_reducible apply Follows.frame

theorem execPfcPauseRx_follows {s : State} {a1 a2 a3} : ∃ t, execPfcPauseRx a1 a2 a3 s = .next t ∧ State.Follows s t := by
  unfold execPfcPauseRx
  refine ⟨_, rfl, ?_⟩
  have h := State.Follows.refl s
  repeat' first | with_reducible assumption | intro _ | with_reducible apply State.putEport_follows | with_reducible apply State.drainTx_follows | with_reducible apply foldl_follows | with_reducible apply Follows.ite | split | extract_lets | with_reducible apply Follows.frame

theorem execCmRejRx_follows {s : State} {a1 a2} : ∃ t, execCmRejRx a1 a2 s = .next t ∧ State.Follows s t := by
  unfold execCmRejRx
  refine ⟨_, rfl, ?_⟩
  have h := State.Follows.refl s
  repeat' first | with_reducible assumption | intro _ | with_reducible apply State.rxCm_follows | with_reducible apply State.suspendSession_follows | with_reducible apply State.dropQp_follows | with_reducible apply foldl_follows | with_reducible apply Follows.ite | split | extract_lets | with_reducible apply Follows.frame

theorem execRnrNakRx_follows {s : State} {a1 a2 a3 a4} : ∃ t, execRnrNakRx a1 a2 a3 a4 s = .next t ∧ State.Follows s t := by
  unfold execRnrNakRx
  refine ⟨_, rfl, ?_⟩
  have h := State.Follows.refl s
  repeat' first | with_reducible assumption | intro _ | with_reducible apply State.rxAny_follows | with_reducible apply foldl_follows | with_reducible apply Follows.ite | split | extract_lets | with_reducible apply Follows.frame

theorem execByteCounterExpiry_follows {s : State} {a1} : ∃ t, execByteCounterExpiry a1 s = .next t ∧ State.Follows s t := by
  unfold execByteCounterExpiry
  refine ⟨_, rfl, ?_⟩
  have h := State.Follows.refl s
  repeat' first | with_reducible assumption | intro _ | with_reducible apply State.rateUp_follows | with_reducible apply foldl_follows | with_reducible apply Follows.ite | split | extract_lets | with_reducible apply Follows.frame

theorem execCmDrepRx_follows {s : State} {a1 a2} : ∃ t, execCmDrepRx a1 a2 s = .next t ∧ State.Follows s t := by
  unfold execCmDrepRx
  refine ⟨_, rfl, ?_⟩
  have h := State.Follows.refl s
  repeat' first | with_reducible assumption | intro _ | with_reducible apply State.rxCm_follows | with_reducible apply State.reapQp_follows | with_reducible apply foldl_follows | with_reducible apply Follows.ite | split | extract_lets | with_reducible apply Follows.frame

theorem execContextFetchDone_follows {s : State} {a1} : ∃ t, execContextFetchDone a1 s = .next t ∧ State.Follows s t := by
  unfold execContextFetchDone
  refine ⟨_, rfl, ?_⟩
  have h := State.Follows.refl s
  repeat' first | with_reducible assumption | intro _ | with_reducible apply State.cacheCtx_follows | with_reducible apply State.llcArrive_follows | with_reducible apply State.putQp_follows | with_reducible apply State.missFlow_follows | with_reducible apply State.pumpReads_follows | with_reducible apply State.rxPkt_follows | with_reducible apply foldl_follows | with_reducible apply Follows.ite | split | extract_lets | with_reducible apply Follows.frame

theorem execRdmaWriteRx_follows {s : State} {a1 a2 a3 a4 a5 a6 a7 a8 a9 a10} : ∃ t, execRdmaWriteRx a1 a2 a3 a4 a5 a6 a7 a8 a9 a10 s = .next t ∧ State.Follows s t := by
  unfold execRdmaWriteRx
  refine ⟨_, rfl, ?_⟩
  have h := State.Follows.refl s
  repeat' first | with_reducible assumption | intro _ | with_reducible apply State.rxAny_follows | with_reducible apply foldl_follows | with_reducible apply Follows.ite | split | extract_lets | with_reducible apply Follows.frame

theorem execAlphaUpdateTimer_follows {s : State} {a1} : ∃ t, execAlphaUpdateTimer a1 s = .next t ∧ State.Follows s t := by
  unfold execAlphaUpdateTimer
  refine ⟨_, rfl, ?_⟩
  have h := State.Follows.refl s
  repeat' first | with_reducible assumption | intro _ | with_reducible apply State.putQp_follows | with_reducible apply foldl_follows | with_reducible apply Follows.ite | split | extract_lets | with_reducible apply Follows.frame

theorem execEthPortDown_follows {s : State} {a1} : ∃ t, execEthPortDown a1 s = .next t ∧ State.Follows s t := by
  unfold execEthPortDown
  refine ⟨_, rfl, ?_⟩
  have h := State.Follows.refl s
  repeat' first | with_reducible assumption | intro _ | with_reducible apply State.ethDown_follows | with_reducible apply foldl_follows | with_reducible apply Follows.ite | split | extract_lets | with_reducible apply Follows.frame

end Sys2Proof.Machine
end

