-- ==== Sys2Proof/Laws/Admin.lean ====
section
/-! SUPPORT. What each operation of Machine/Admin.lean can do: what follows from a state before it follows after it (Sys2Proof.Machine.State.Follows). -/
namespace Sys2Proof.Machine

theorem State.logRead_follows {s0 s : State} {a1 a2} (h : State.Follows s0 s) : State.Follows s0 (State.logRead s a1 a2) := by
  unfold State.logRead
  repeat' first | with_reducible assumption | intro _ | with_reducible apply State.retryAen_follows | with_reducible apply foldl_follows | with_reducible apply Follows.ite | split | extract_lets | with_reducible apply Follows.frame

theorem State.admin_follows {s0 s : State} {a1 a2 a3 a4 a5} (h : State.Follows s0 s) (hf : ∀ x0 t, State.Follows s0 t → State.Follows s0 (a5 x0 t)) : State.Follows s0 (State.admin s a1 a2 a3 a4 a5) := by
  unfold State.admin
  split
  · exact h
  · have ht := State.takeCmd_follows (a1 := a1) h
    split
    · dsimp only
      split
      · exact State.complete_follows ht
      · exact hf _ _ ht
    · exact State.complete_follows ht

theorem State.adminEnd_follows {s0 s : State} {a1 a2 a3 a4 a5} (h : State.Follows s0 s) : State.Follows s0 (State.adminEnd s a1 a2 a3 a4 a5) := by
  unfold State.adminEnd
  repeat' first | with_reducible assumption | intro _ | with_reducible apply State.complete_follows | with_reducible apply foldl_follows | with_reducible apply Follows.ite | split | extract_lets | with_reducible apply Follows.frame

theorem State.adminData_follows {s0 s : State} {a1 a2 a3} (h : State.Follows s0 s) : State.Follows s0 (State.adminData s a1 a2 a3) := by
  unfold State.adminData
  repeat' first | with_reducible assumption | intro _ | with_reducible apply State.adminEnd_follows | with_reducible apply State.sendData_follows | with_reducible apply foldl_follows | with_reducible apply Follows.ite | split | extract_lets | with_reducible apply Follows.frame

theorem execIdentify_follows {s : State} {a1} : ∃ t, execIdentify a1 s = .next t ∧ State.Follows s t := by
  unfold execIdentify
  refine ⟨_, rfl, ?_⟩
  have h := State.Follows.refl s
  repeat' first | with_reducible assumption | intro _ | with_reducible apply State.admin_follows | with_reducible apply State.adminData_follows | with_reducible apply State.adminEnd_follows | with_reducible apply foldl_follows | with_reducible apply Follows.ite | split | extract_lets | with_reducible apply Follows.frame

theorem execAsynchronousEventRequest_follows {s : State} {a1} : ∃ t, execAsynchronousEventRequest a1 s = .next t ∧ State.Follows s t := by
  unfold execAsynchronousEventRequest
  refine ⟨_, rfl, ?_⟩
  have h := State.Follows.refl s
  repeat' first | with_reducible assumption | intro _ | with_reducible apply State.admin_follows | with_reducible apply State.sendAen_follows | with_reducible apply foldl_follows | with_reducible apply Follows.ite | split | extract_lets | with_reducible apply Follows.frame

theorem execGetLogPage_follows {s : State} {a1} : ∃ t, execGetLogPage a1 s = .next t ∧ State.Follows s t := by
  unfold execGetLogPage
  refine ⟨_, rfl, ?_⟩
  have h := State.Follows.refl s
  repeat' first | with_reducible assumption | intro _ | with_reducible apply State.admin_follows | with_reducible apply State.adminEnd_follows | with_reducible apply State.adminData_follows | with_reducible apply State.logRead_follows | with_reducible apply foldl_follows | with_reducible apply Follows.ite | split | extract_lets | with_reducible apply Follows.frame

theorem execPropertySet_follows {s : State} {a1} : ∃ t, execPropertySet a1 s = .next t ∧ State.Follows s t := by
  unfold execPropertySet
  refine ⟨_, rfl, ?_⟩
  have h := State.Follows.refl s
  repeat' first | with_reducible assumption | intro _ | with_reducible apply State.admin_follows | with_reducible apply State.adminEnd_follows | with_reducible apply foldl_follows | with_reducible apply Follows.ite | split | extract_lets | with_reducible apply Follows.frame

theorem execKeepAlive_follows {s : State} {a1} : ∃ t, execKeepAlive a1 s = .next t ∧ State.Follows s t := by
  unfold execKeepAlive
  refine ⟨_, rfl, ?_⟩
  have h := State.Follows.refl s
  repeat' first | with_reducible assumption | intro _ | with_reducible apply State.admin_follows | with_reducible apply State.adminEnd_follows | with_reducible apply foldl_follows | with_reducible apply Follows.ite | split | extract_lets | with_reducible apply Follows.frame

theorem execPropertyGet_follows {s : State} {a1} : ∃ t, execPropertyGet a1 s = .next t ∧ State.Follows s t := by
  unfold execPropertyGet
  refine ⟨_, rfl, ?_⟩
  have h := State.Follows.refl s
  repeat' first | with_reducible assumption | intro _ | with_reducible apply State.admin_follows | with_reducible apply State.adminEnd_follows | with_reducible apply foldl_follows | with_reducible apply Follows.ite | split | extract_lets | with_reducible apply Follows.frame

theorem execDisconnect_follows {s : State} {a1} : ∃ t, execDisconnect a1 s = .next t ∧ State.Follows s t := by
  unfold execDisconnect
  refine ⟨_, rfl, ?_⟩
  have h := State.Follows.refl s
  repeat' first | with_reducible assumption | intro _ | with_reducible apply State.admin_follows | with_reducible apply State.adminEnd_follows | with_reducible apply State.takeCmd_follows | with_reducible apply State.failCmd_follows | with_reducible apply foldl_follows | with_reducible apply Follows.ite | split | extract_lets | with_reducible apply Follows.frame

theorem State.bareReply_follows {s0 s : State} {a1 a2 a3 a4 a5} (h : State.Follows s0 s) : State.Follows s0 (State.bareReply s a1 a2 a3 a4 a5) := by
  unfold State.bareReply
  repeat' first | with_reducible assumption | intro _ | with_reducible apply State.deliver_follows | with_reducible apply State.putQp_follows | with_reducible apply foldl_follows | with_reducible apply Follows.ite | split | extract_lets | with_reducible apply Follows.frame

theorem execConnect_follows {s : State} {a1} : ∃ t, execConnect a1 s = .next t ∧ State.Follows s t := by
  unfold execConnect
  refine ⟨_, rfl, ?_⟩
  have h := State.Follows.refl s
  repeat' first | with_reducible assumption | intro _ | with_reducible apply State.bareReply_follows | with_reducible apply State.complete_follows | with_reducible apply State.adminEnd_follows | with_reducible apply State.takeCmd_follows | with_reducible apply foldl_follows | with_reducible apply Follows.ite | split | extract_lets | with_reducible apply Follows.frame

theorem execSetFeatures_follows {s : State} {a1} : ∃ t, execSetFeatures a1 s = .next t ∧ State.Follows s t := by
  unfold execSetFeatures
  refine ⟨_, rfl, ?_⟩
  have h := State.Follows.refl s
  repeat' first | with_reducible assumption | intro _ | with_reducible apply State.admin_follows | with_reducible apply State.adminEnd_follows | with_reducible apply foldl_follows | with_reducible apply Follows.ite | split | extract_lets | with_reducible apply Follows.frame

theorem execAbort_follows {s : State} {a1} : ∃ t, execAbort a1 s = .next t ∧ State.Follows s t := by
  unfold execAbort
  refine ⟨_, rfl, ?_⟩
  have h := State.Follows.refl s
  repeat' first | with_reducible assumption | intro _ | with_reducible apply State.admin_follows | with_reducible apply State.adminEnd_follows | with_reducible apply State.abortCmd_follows | with_reducible apply foldl_follows | with_reducible apply Follows.ite | split | extract_lets | (dsimp +zetaDelta only; split) | with_reducible apply Follows.frame

theorem execGetFeatures_follows {s : State} {a1} : ∃ t, execGetFeatures a1 s = .next t ∧ State.Follows s t := by
  unfold execGetFeatures
  refine ⟨_, rfl, ?_⟩
  have h := State.Follows.refl s
  repeat' first | with_reducible assumption | intro _ | with_reducible apply State.admin_follows | with_reducible apply State.adminEnd_follows | with_reducible apply foldl_follows | with_reducible apply Follows.ite | split | extract_lets | with_reducible apply Follows.frame

end Sys2Proof.Machine
end

