-- ==== Sys2Proof/Laws/BusWrite.lean ====
section
/-! SUPPORT. What each operation of Machine/BusWrite.lean can do: what follows from a state before it follows after it (Sys2Proof.Machine.State.Follows). -/
namespace Sys2Proof.Machine

theorem State.startDump_follows {s0 s : State} (h : State.Follows s0 s) : State.Follows s0 (State.startDump s) := by
  unfold State.startDump
  repeat' first | with_reducible assumption | intro _ | with_reducible apply State.discardEnt_follows | with_reducible apply State.bump_follows | with_reducible apply State.emit_follows | with_reducible apply foldl_follows | with_reducible apply Follows.ite | split | extract_lets | with_reducible apply Follows.frame

theorem State.askReset_follows {s0 s : State} {a1} (h : State.Follows s0 s) : State.Follows s0 (State.askReset s a1) := by
  unfold State.askReset
  repeat' first | with_reducible assumption | intro _ | with_reducible apply State.bump_follows | with_reducible apply State.flushStart_follows | with_reducible apply State.startDump_follows | with_reducible apply foldl_follows | with_reducible apply Follows.ite | split | extract_lets | with_reducible apply Follows.frame

theorem State.wrBus_follows {s0 s : State} {a1 a2} (h : State.Follows s0 s) : State.Follows s0 (State.wrBus s a1 a2) := by
  unfold State.wrBus
  repeat' first | with_reducible assumption | intro _ | with_reducible apply State.wr_follows | with_reducible apply foldl_follows | with_reducible apply Follows.ite | split | extract_lets | with_reducible apply Follows.frame

theorem State.gatedDrop_follows {s0 s : State} {a1 a2 a3} (h : State.Follows s0 s) : State.Follows s0 (State.gatedDrop s a1 a2 a3) := by
  unfold State.gatedDrop
  repeat' first | with_reducible assumption | intro _ | with_reducible apply State.event_follows | with_reducible apply foldl_follows | with_reducible apply Follows.ite | split | extract_lets | with_reducible apply Follows.frame

theorem State.dropLow_follows {s0 s : State} {a1} (h : State.Follows s0 s) : State.Follows s0 (State.dropLow s a1) := by
  unfold State.dropLow
  repeat' first | with_reducible assumption | intro _ | with_reducible apply foldl_follows | with_reducible apply Follows.ite | split | extract_lets | with_reducible apply Follows.frame

theorem State.holdLow_follows {s0 s : State} {a1 a2} (h : State.Follows s0 s) : State.Follows s0 (State.holdLow s a1 a2) := by
  unfold State.holdLow
  repeat' first | with_reducible assumption | intro _ | with_reducible apply foldl_follows | with_reducible apply Follows.ite | split | extract_lets | with_reducible apply Follows.frame

theorem State.half64_follows {s0 s : State} {a1 a2 a3 a4 a5} (h : State.Follows s0 s) : State.Follows s0 (State.half64 s a1 a2 a3 a4 a5).1 := by
  unfold State.half64
  repeat' first | with_reducible assumption | intro _ | with_reducible apply State.dropLow_follows | with_reducible apply State.holdLow_follows | with_reducible apply foldl_follows | with_reducible apply Follows.ite | split | extract_lets | with_reducible apply Follows.frame

theorem State.endDump_follows {s0 s : State} (h : State.Follows s0 s) : State.Follows s0 (State.endDump s) := by
  unfold State.endDump
  repeat' first | with_reducible assumption | intro _ | with_reducible apply State.emit_follows | with_reducible apply foldl_follows | with_reducible apply Follows.ite | split | extract_lets | with_reducible apply Follows.frame

theorem State.dumpCheck_follows {s0 s : State} (h : State.Follows s0 s) : State.Follows s0 (State.dumpCheck s) := by
  unfold State.dumpCheck
  repeat' first | with_reducible assumption | intro _ | with_reducible apply State.emit_follows | with_reducible apply foldl_follows | with_reducible apply Follows.ite | split | extract_lets | with_reducible apply Follows.frame

end Sys2Proof.Machine
end

