-- ==== Sys2Proof/Laws/Flash.lean ====
section
/-! SUPPORT. What each operation of Machine/Flash.lean can do: what follows from a state before it follows after it (Sys2Proof.Machine.State.Follows). -/
namespace Sys2Proof.Machine

theorem State.sflPut_follows {s0 s : State} {a1 a2} (h : State.Follows s0 s) : State.Follows s0 (State.sflPut s a1 a2) := by
  exact ⟨h.queue, h.sent, h.drawn, fun g =>
    let k := h.sound g
    ⟨k.regs, k.hbm, k.ddr, Memory.wf_writeAll _ _ k.flash, k.buf, k.rings, k.chans, k.allow⟩⟩

theorem State.sflLoose_follows {s0 s : State} {a1} (h : State.Follows s0 s) : State.Follows s0 (State.sflLoose s a1) := by
  exact ⟨h.queue, h.sent, Nat.le_trans h.drawn (Nat.le_succ _), fun g =>
    let k := h.sound g
    ⟨k.regs, k.hbm, k.ddr, k.flash, k.buf, k.rings, k.chans, k.allow⟩⟩

theorem State.logOne_follows {s0 s : State} {a1 a2 a3} (h : State.Follows s0 s) : State.Follows s0 (State.logOne s a1 a2 a3) := by
  unfold State.logOne
  repeat' first | with_reducible assumption | intro _ | with_reducible apply State.sflPut_follows | with_reducible apply State.sflLoose_follows | with_reducible apply State.bump_follows | with_reducible apply foldl_follows | with_reducible apply Follows.ite | split | extract_lets | with_reducible apply Follows.frame

theorem State.logCopy_follows {s0 s : State} {a1 a2} (h : State.Follows s0 s) : State.Follows s0 (State.logCopy s a1 a2) := by
  unfold State.logCopy
  repeat' first | with_reducible assumption | intro _ | with_reducible apply State.logOne_follows | with_reducible apply foldl_follows | with_reducible apply Follows.ite | split | extract_lets | with_reducible apply Follows.frame

theorem State.sflClear_follows {s0 s : State} {a1} (h : State.Follows s0 s) : State.Follows s0 (State.sflClear s a1) := by
  exact ⟨h.queue, h.sent, h.drawn, fun g =>
    let k := h.sound g
    ⟨k.regs, k.hbm, k.ddr, Memory.wf_filter k.flash, k.buf, k.rings, k.chans, k.allow⟩⟩

theorem State.logRecord_follows {s0 s : State} {a1 a2 a3} (h : State.Follows s0 s) : State.Follows s0 (State.logRecord s a1 a2 a3) := by
  unfold State.logRecord
  repeat' first | with_reducible assumption | intro _ | with_reducible apply State.logOne_follows | with_reducible apply State.logCopy_follows | with_reducible apply State.bump_follows | with_reducible apply State.sflClear_follows | with_reducible apply foldl_follows | with_reducible apply Follows.ite | split | extract_lets | with_reducible apply Follows.frame

theorem State.noteRecord_follows {s0 s : State} {a1} (h : State.Follows s0 s) : State.Follows s0 (State.noteRecord s a1) := by
  unfold State.noteRecord
  repeat' first | with_reducible assumption | intro _ | with_reducible apply State.logRecord_follows | with_reducible apply foldl_follows | with_reducible apply Follows.ite | split | extract_lets | with_reducible apply Follows.frame

theorem State.refreshPage_follows {s0 s : State} {a1} (h : State.Follows s0 s) : State.Follows s0 (State.refreshPage s a1) := by
  unfold State.refreshPage
  repeat' first | with_reducible assumption | intro _ | with_reducible apply State.logCopy_follows | with_reducible apply foldl_follows | with_reducible apply Follows.ite | split | extract_lets | with_reducible apply Follows.frame

theorem State.newDumpKey_follows {s0 s : State} (h : State.Follows s0 s) : State.Follows s0 (State.newDumpKey s) := by
  unfold State.newDumpKey
  repeat' first | with_reducible assumption | intro _ | with_reducible apply State.drbgBytes_follows | with_reducible apply State.noteRecord_follows | with_reducible apply foldl_follows | with_reducible refine snd_follows (by assumption) ?_ | with_reducible apply Follows.ite | split | extract_lets | with_reducible apply Follows.frame

theorem State.sflRetire_follows {s0 s : State} {a1} (h : State.Follows s0 s) : State.Follows s0 (State.sflRetire s a1) := by
  unfold State.sflRetire
  repeat' first | with_reducible assumption | intro _ | with_reducible apply State.bump_follows | with_reducible apply State.logRecord_follows | with_reducible apply State.event_follows | with_reducible apply foldl_follows | with_reducible apply Follows.ite | split | extract_lets | with_reducible apply Follows.frame

end Sys2Proof.Machine
end

