-- ==== Sys2Proof/Laws/Evr.lean ====
section
/-! SUPPORT. What each operation of Machine/Evr.lean can do: what follows from a state before it follows after it (Sys2Proof.Machine.State.Follows). -/
namespace Sys2Proof.Machine

theorem State.saveHealth_follows {s0 s : State} (h : State.Follows s0 s) : State.Follows s0 (State.saveHealth s) := by
  unfold State.saveHealth
  repeat' first | with_reducible assumption | intro _ | with_reducible apply State.noteRecord_follows | with_reducible apply foldl_follows | with_reducible apply Follows.ite | split | extract_lets | with_reducible apply Follows.frame

theorem State.evStart_follows {s0 s : State} {a1 a2} (h : State.Follows s0 s) : State.Follows s0 (State.evStart s a1 a2) := by
  unfold State.evStart
  repeat' first | with_reducible assumption | intro _ | with_reducible apply State.event_follows | with_reducible apply foldl_follows | with_reducible apply Follows.ite | split | extract_lets | with_reducible apply Follows.frame

theorem State.thawRec_follows {s0 s : State} {a1} (h : State.Follows s0 s) : State.Follows s0 (State.thawRec s a1) := by
  unfold State.thawRec
  repeat' first | with_reducible assumption | intro _ | with_reducible apply State.flushTriggers_follows | with_reducible apply State.notifyRec_follows | with_reducible apply State.appendRec_follows | with_reducible apply foldl_follows | with_reducible apply Follows.ite | split | extract_lets | with_reducible apply Follows.frame

theorem State.evErasePair_follows {s0 s : State} {a1} (h : State.Follows s0 s) : State.Follows s0 (State.evErasePair s a1) := by
  unfold State.evErasePair
  repeat' first | with_reducible assumption | intro _ | with_reducible apply State.bumpBy_follows | with_reducible apply State.sflClear_follows | with_reducible apply foldl_follows | with_reducible apply Follows.ite | split | extract_lets | with_reducible apply Follows.frame

theorem State.thaw_follows {s0 s : State} (h : State.Follows s0 s) : State.Follows s0 (State.thaw s) := by
  unfold State.thaw
  repeat' first | with_reducible assumption | intro _ | with_reducible apply State.thawRec_follows | with_reducible apply State.event_follows | with_reducible apply State.evErasePair_follows | with_reducible apply foldl_follows | with_reducible apply Follows.ite | split | extract_lets | with_reducible apply Follows.frame

theorem execFreezeEvents_follows {s : State} {a1 a2} : ∃ t, execFreezeEvents a1 a2 s = .next t ∧ State.Follows s t := by
  unfold execFreezeEvents
  refine ⟨_, rfl, ?_⟩
  have h := State.Follows.refl s
  repeat' first | with_reducible assumption | intro _ | with_reducible apply State.packet_follows | with_reducible apply PktRes.fail_follows | with_reducible apply State.thaw_follows | with_reducible exact PktRes.follows_waits | with_reducible apply PktRes.follows_done | with_reducible apply PktRes.follows_started | with_reducible apply PktRes.follows_startDone | with_reducible apply PktRes.follows_quiet | with_reducible apply foldl_follows | with_reducible apply Follows.ite | with_reducible apply PktRes.follows_ite | split | extract_lets | with_reducible apply Follows.frame

theorem State.openEpoch_follows {s0 s : State} {a1} (h : State.Follows s0 s) : State.Follows s0 (State.openEpoch s a1) := by
  unfold State.openEpoch
  repeat' first | with_reducible assumption | intro _ | with_reducible apply State.event_follows | with_reducible apply foldl_follows | with_reducible apply Follows.ite | split | extract_lets | with_reducible apply Follows.frame

theorem State.evPage_follows {s0 s : State} {a1} (h : State.Follows s0 s) : State.Follows s0 (State.evPage s a1) := by
  unfold State.evPage
  repeat' first | with_reducible assumption | intro _ | with_reducible apply State.evErasePair_follows | with_reducible apply State.bump_follows | with_reducible apply State.sflPut_follows | with_reducible apply foldl_follows | with_reducible apply Follows.ite | split | extract_lets | with_reducible apply Follows.frame

theorem execOpenLogEpoch_follows {s : State} {a1 a2} : ∃ t, execOpenLogEpoch a1 a2 s = .next t ∧ State.Follows s t := by
  unfold execOpenLogEpoch
  refine ⟨_, rfl, ?_⟩
  have h := State.Follows.refl s
  repeat' first | with_reducible assumption | intro _ | with_reducible apply State.packet_follows | with_reducible apply PktRes.fail_follows | with_reducible apply State.openEpoch_follows | with_reducible exact PktRes.follows_waits | with_reducible apply PktRes.follows_done | with_reducible apply PktRes.follows_started | with_reducible apply PktRes.follows_startDone | with_reducible apply PktRes.follows_quiet | with_reducible apply foldl_follows | with_reducible apply Follows.ite | with_reducible apply PktRes.follows_ite | split | extract_lets | with_reducible apply Follows.frame

theorem execReadEvents_follows {s : State} {a1 a2} : ∃ t, execReadEvents a1 a2 s = .next t ∧ State.Follows s t := by
  unfold execReadEvents
  refine ⟨_, rfl, ?_⟩
  have h := State.Follows.refl s
  repeat' first | with_reducible assumption | intro _ | with_reducible apply State.packet_follows | with_reducible apply PktRes.fail_follows | with_reducible apply State.fresh_follows | with_reducible exact PktRes.follows_waits | with_reducible apply PktRes.follows_done | with_reducible apply PktRes.follows_started | with_reducible apply PktRes.follows_startDone | with_reducible apply PktRes.follows_quiet | with_reducible apply foldl_follows | with_reducible refine snd_follows (by assumption) ?_ | with_reducible apply Follows.ite | with_reducible apply PktRes.follows_ite | split | extract_lets | with_reducible apply Follows.frame

theorem execAenWindowExpiry_follows {s : State} {a1 a2 a3} : ∃ t, execAenWindowExpiry a1 a2 a3 s = .next t ∧ State.Follows s t := by
  unfold execAenWindowExpiry
  refine ⟨_, rfl, ?_⟩
  have h := State.Follows.refl s
  repeat' first | with_reducible assumption | intro _ | with_reducible apply State.retryAen_follows | with_reducible apply foldl_follows | with_reducible apply Follows.ite | split | extract_lets | with_reducible apply Follows.frame

theorem State.slicePage_follows {s0 s : State} {a1 a2} (h : State.Follows s0 s) : State.Follows s0 (State.slicePage s a1 a2) := by
  unfold State.slicePage
  repeat' first | with_reducible assumption | intro _ | with_reducible apply State.bump_follows | with_reducible apply State.sflPut_follows | with_reducible apply foldl_follows | with_reducible apply Follows.ite | split | extract_lets | with_reducible apply Follows.frame

theorem State.retainRun_follows {s0 s : State} {a1} (h : State.Follows s0 s) : State.Follows s0 (State.retainRun s a1) := by
  unfold State.retainRun
  dsimp only
  repeat' first | with_reducible assumption | intro _ | with_reducible apply State.slicePage_follows | with_reducible apply foldl_follows | with_reducible apply Follows.ite | split | with_reducible apply Follows.frame

theorem execEvrFlushDone_follows {s : State} : ∃ t, execEvrFlushDone s = .next t ∧ State.Follows s t := by
  unfold execEvrFlushDone
  refine ⟨_, rfl, ?_⟩
  have h := State.Follows.refl s
  repeat' first | with_reducible assumption | intro _ | with_reducible apply State.evPage_follows | with_reducible apply State.retainRun_follows | with_reducible apply State.flushStart_follows | with_reducible apply State.dumpCheck_follows | with_reducible apply foldl_follows | with_reducible apply Follows.ite | split | extract_lets | with_reducible apply Follows.frame

theorem execHealthRecordTimer_follows {s : State} : ∃ t, execHealthRecordTimer s = .next t ∧ State.Follows s t := by
  unfold execHealthRecordTimer
  refine ⟨_, rfl, ?_⟩
  have h := State.Follows.refl s
  repeat' first | with_reducible assumption | intro _ | with_reducible apply State.saveHealth_follows | with_reducible apply foldl_follows | with_reducible apply Follows.ite | split | extract_lets | with_reducible apply Follows.frame

theorem execEvrFreezeExpiry_follows {s : State} : ∃ t, execEvrFreezeExpiry s = .next t ∧ State.Follows s t := by
  unfold execEvrFreezeExpiry
  refine ⟨_, rfl, ?_⟩
  have h := State.Follows.refl s
  repeat' first | with_reducible assumption | intro _ | with_reducible apply State.thaw_follows | with_reducible apply foldl_follows | with_reducible apply Follows.ite | split | extract_lets | with_reducible apply Follows.frame

theorem execEvrFlushTimer_follows {s : State} : ∃ t, execEvrFlushTimer s = .next t ∧ State.Follows s t := by
  unfold execEvrFlushTimer
  refine ⟨_, rfl, ?_⟩
  have h := State.Follows.refl s
  repeat' first | with_reducible assumption | intro _ | with_reducible apply State.flushStart_follows | with_reducible apply foldl_follows | with_reducible apply Follows.ite | split | extract_lets | with_reducible apply Follows.frame

end Sys2Proof.Machine
end

