-- ==== Sys2Proof/Laws/Image.lean ====
section
/-! SUPPORT. What each operation of Machine/Image.lean can do: what follows from a state before it follows after it (Sys2Proof.Machine.State.Follows). -/
namespace Sys2Proof.Machine

theorem State.runImage_follows {s0 s : State} {a1 a2} (h : State.Follows s0 s) : State.Follows s0 (State.runImage s a1 a2) := by
  unfold State.runImage
  repeat' first | with_reducible assumption | intro _ | with_reducible apply foldl_follows | with_reducible apply Follows.ite | split | extract_lets | with_reducible apply Follows.frame

theorem State.recover_follows {s0 s : State} {a1 a2} (h : State.Follows s0 s) : State.Follows s0 (State.recover s a1 a2) := by
  unfold State.recover
  repeat' first | with_reducible assumption | intro _ | with_reducible apply State.emit_follows | with_reducible apply State.runImage_follows | with_reducible apply foldl_follows | with_reducible apply Follows.ite | split | extract_lets | with_reducible apply Follows.frame

theorem State.commitRec_follows {s0 s : State} {a1} (h : State.Follows s0 s) : State.Follows s0 (State.commitRec s a1) := by
  unfold State.commitRec
  repeat' first | with_reducible assumption | intro _ | with_reducible apply State.logRecord_follows | with_reducible apply foldl_follows | with_reducible apply Follows.ite | split | extract_lets | with_reducible apply Follows.frame

theorem State.verifySlot_follows {s0 s : State} {a1 a2} (h : State.Follows s0 s) : State.Follows s0 (State.verifySlot s a1 a2).1 := by
  unfold State.verifySlot
  repeat' first | with_reducible assumption | intro _ | with_reducible apply foldl_follows | with_reducible apply Follows.ite | split | extract_lets | with_reducible apply Follows.frame

end Sys2Proof.Machine
end

