-- ==== Sys2Proof/Laws/Keys.lean ====
section
/-! SUPPORT. What each operation of Machine/Keys.lean can do: what follows from a state before it follows after it (Sys2Proof.Machine.State.Follows). -/
namespace Sys2Proof.Machine

theorem State.carriedInvoc_follows {s0 s : State} {a1 a2} (h : State.Follows s0 s) : State.Follows s0 (State.carriedInvoc s a1 a2) := by
  unfold State.carriedInvoc
  repeat' first | with_reducible assumption | intro _ | with_reducible apply foldl_follows | with_reducible apply Follows.ite | split | extract_lets | with_reducible apply Follows.frame

theorem State.putPage_follows {s0 s : State} {a1} (h : State.Follows s0 s) : State.Follows s0 (State.putPage s a1) := by
  unfold State.putPage
  repeat' first | with_reducible assumption | intro _ | with_reducible apply foldl_follows | with_reducible apply Follows.ite | split | extract_lets | with_reducible apply Follows.frame

theorem State.storePage_follows {s0 s : State} {a1} (h : State.Follows s0 s) : State.Follows s0 (State.storePage s a1) := by
  unfold State.storePage
  repeat' first | with_reducible assumption | intro _ | with_reducible apply State.placeCfg_follows | with_reducible apply foldl_follows | with_reducible apply Follows.ite | split | extract_lets | with_reducible apply Follows.frame

theorem State.keyDrop_follows {s0 s : State} {a1 a2 a3} (h : State.Follows s0 s) : State.Follows s0 (State.keyDrop s a1 a2 a3) := by
  unfold State.keyDrop
  repeat' first | with_reducible assumption | intro _ | with_reducible apply State.event_follows | with_reducible apply foldl_follows | with_reducible apply Follows.ite | split | extract_lets | with_reducible apply Follows.frame

theorem execKeyPageKeyWrite_follows {s : State} {a1 a2 a3} : ∃ t, execKeyPageKeyWrite a1 a2 a3 s = .next t ∧ State.Follows s t := by
  unfold execKeyPageKeyWrite
  refine ⟨_, rfl, ?_⟩
  have h := State.Follows.refl s
  repeat' first | with_reducible assumption | intro _ | with_reducible apply State.putPage_follows | with_reducible apply State.keyDrop_follows | with_reducible apply foldl_follows | with_reducible apply Follows.ite | split | extract_lets | with_reducible apply Follows.frame

theorem State.carriedPage_follows {s0 s : State} {a1} (h : State.Follows s0 s) : State.Follows s0 (State.carriedPage s a1) := by
  unfold State.carriedPage
  repeat' first | with_reducible assumption | intro _ | with_reducible apply State.putPage_follows | with_reducible apply foldl_follows | with_reducible apply Follows.ite | split | extract_lets | with_reducible apply Follows.frame

theorem State.endOff_follows {s0 s : State} {a1 a2 a3} (h : State.Follows s0 s) : State.Follows s0 (State.endOff s a1 a2 a3) := by
  unfold State.endOff
  repeat' first | with_reducible assumption | intro _ | with_reducible apply State.bump_follows | with_reducible apply State.finish_follows | with_reducible apply foldl_follows | with_reducible apply Follows.ite | split | extract_lets | with_reducible apply Follows.frame

theorem State.eraseJobs_follows {s0 s : State} {a1 a2} (h : State.Follows s0 s) : State.Follows s0 (State.eraseJobs s a1 a2) := by
  unfold State.eraseJobs
  repeat' first | with_reducible assumption | intro _ | with_reducible apply State.endOff_follows | with_reducible apply foldl_follows | with_reducible apply Follows.ite | split | extract_lets | with_reducible apply Follows.frame

theorem State.unstorePage_follows {s0 s : State} {a1} (h : State.Follows s0 s) : State.Follows s0 (State.unstorePage s a1) := by
  unfold State.unstorePage
  repeat' first | with_reducible assumption | intro _ | with_reducible apply State.placeCfg_follows | with_reducible apply foldl_follows | with_reducible apply Follows.ite | split | extract_lets | with_reducible apply Follows.frame

theorem State.wipePage_follows {s0 s : State} {a1} (h : State.Follows s0 s) : State.Follows s0 (State.wipePage s a1) := by
  unfold State.wipePage
  repeat' first | with_reducible assumption | intro _ | with_reducible apply State.putPage_follows | with_reducible apply State.unstorePage_follows | with_reducible apply foldl_follows | with_reducible apply Follows.ite | split | extract_lets | with_reducible apply Follows.frame

theorem State.erasePage_follows {s0 s : State} {a1} (h : State.Follows s0 s) : State.Follows s0 (State.erasePage s a1) := by
  unfold State.erasePage
  repeat' first | with_reducible assumption | intro _ | with_reducible apply State.eraseJobs_follows | with_reducible apply State.putPage_follows | with_reducible apply State.wipePage_follows | with_reducible apply foldl_follows | with_reducible apply Follows.ite | split | extract_lets | with_reducible apply Follows.frame

theorem State.carriedPageGone_follows {s0 s : State} {a1} (h : State.Follows s0 s) : State.Follows s0 (State.carriedPageGone s a1) := by
  unfold State.carriedPageGone
  repeat' first | with_reducible assumption | intro _ | with_reducible apply State.erasePage_follows | with_reducible apply foldl_follows | with_reducible apply Follows.ite | split | extract_lets | with_reducible apply Follows.frame

theorem State.putSlot_follows {s0 s : State} {a1} (h : State.Follows s0 s) : State.Follows s0 (State.putSlot s a1) := by
  unfold State.putSlot
  repeat' first | with_reducible assumption | intro _ | with_reducible apply foldl_follows | with_reducible apply Follows.ite | split | extract_lets | with_reducible apply Follows.frame

theorem State.carriedSlot_follows {s0 s : State} {a1} (h : State.Follows s0 s) : State.Follows s0 (State.carriedSlot s a1) := by
  unfold State.carriedSlot
  repeat' first | with_reducible assumption | intro _ | with_reducible apply State.putSlot_follows | with_reducible apply foldl_follows | with_reducible apply Follows.ite | split | extract_lets | with_reducible apply Follows.frame

theorem State.unstoreSlot_follows {s0 s : State} {a1} (h : State.Follows s0 s) : State.Follows s0 (State.unstoreSlot s a1) := by
  unfold State.unstoreSlot
  repeat' first | with_reducible assumption | intro _ | with_reducible apply State.placeCfg_follows | with_reducible apply foldl_follows | with_reducible apply Follows.ite | split | extract_lets | with_reducible apply Follows.frame

theorem State.wipeSlot_follows {s0 s : State} {a1} (h : State.Follows s0 s) : State.Follows s0 (State.wipeSlot s a1) := by
  unfold State.wipeSlot
  repeat' first | with_reducible assumption | intro _ | with_reducible apply State.putSlot_follows | with_reducible apply State.unstoreSlot_follows | with_reducible apply foldl_follows | with_reducible apply Follows.ite | split | extract_lets | with_reducible apply Follows.frame

theorem State.eraseSlot_follows {s0 s : State} {a1} (h : State.Follows s0 s) : State.Follows s0 (State.eraseSlot s a1) := by
  unfold State.eraseSlot
  repeat' first | with_reducible assumption | intro _ | with_reducible apply State.eraseJobs_follows | with_reducible apply State.putSlot_follows | with_reducible apply State.wipeSlot_follows | with_reducible apply foldl_follows | with_reducible apply Follows.ite | split | extract_lets | with_reducible apply Follows.frame

theorem State.carriedSlotGone_follows {s0 s : State} {a1} (h : State.Follows s0 s) : State.Follows s0 (State.carriedSlotGone s a1) := by
  unfold State.carriedSlotGone
  repeat' first | with_reducible assumption | intro _ | with_reducible apply State.eraseSlot_follows | with_reducible apply foldl_follows | with_reducible apply Follows.ite | split | extract_lets | with_reducible apply Follows.frame

theorem State.takeInvoc_follows {s0 s : State} {a1} (h : State.Follows s0 s) : State.Follows s0 (State.takeInvoc s a1).2 := by
  unfold State.takeInvoc
  repeat' first | with_reducible assumption | intro _ | with_reducible apply State.putPage_follows | with_reducible apply State.placeCfg_follows | with_reducible apply foldl_follows | with_reducible apply Follows.ite | split | extract_lets | with_reducible apply Follows.frame

theorem State.loadKeys_follows {s0 s : State} {a1 a2} (h : State.Follows s0 s) : State.Follows s0 (State.loadKeys s a1 a2) := by
  unfold State.loadKeys
  repeat' first | with_reducible assumption | intro _ | with_reducible apply State.putPage_follows | with_reducible apply State.putSlot_follows | with_reducible apply foldl_follows | with_reducible apply Follows.ite | split | extract_lets | with_reducible apply Follows.frame

theorem State.loadWorking_follows {s0 s : State} (h : State.Follows s0 s) : State.Follows s0 (State.loadWorking s) := by
  unfold State.loadWorking
  repeat' first | with_reducible assumption | intro _ | with_reducible apply State.drbgBytes_follows | with_reducible apply foldl_follows | with_reducible refine snd_follows (by assumption) ?_ | with_reducible apply Follows.ite | split | extract_lets | with_reducible apply Follows.frame

theorem execReloadKeys_follows {s : State} {a1 a2 a3 a4 a5} : ∃ t, execReloadKeys a1 a2 a3 a4 a5 s = .next t ∧ State.Follows s t := by
  unfold execReloadKeys
  refine ⟨_, rfl, ?_⟩
  have h := State.Follows.refl s
  repeat' first | with_reducible assumption | intro _ | with_reducible apply State.packet_follows | with_reducible apply PktRes.fail_follows | with_reducible apply State.loadKeys_follows | with_reducible apply State.loadWorking_follows | with_reducible exact PktRes.follows_waits | with_reducible apply PktRes.follows_done | with_reducible apply PktRes.follows_started | with_reducible apply PktRes.follows_startDone | with_reducible apply PktRes.follows_quiet | with_reducible apply foldl_follows | with_reducible apply Follows.ite | with_reducible apply PktRes.follows_ite | split | extract_lets | with_reducible apply Follows.frame

theorem State.zeroize_follows {s0 s : State} (h : State.Follows s0 s) : State.Follows s0 (State.zeroize s) := by
  unfold State.zeroize
  repeat' first | with_reducible assumption | intro _ | with_reducible apply foldl_follows | with_reducible apply Follows.ite | split | extract_lets | with_reducible apply Follows.frame

theorem State.dropAllIo_follows {s0 s : State} (h : State.Follows s0 s) : State.Follows s0 (State.dropAllIo s) := by
  unfold State.dropAllIo
  repeat' first | with_reducible assumption | intro _ | with_reducible apply State.dropIo_follows | with_reducible apply State.discardCmd_follows | with_reducible apply foldl_follows | with_reducible apply Follows.ite | split | extract_lets | with_reducible apply Follows.frame

theorem State.endSession_follows {s0 s : State} (h : State.Follows s0 s) : State.Follows s0 (State.endSession s) := by
  unfold State.endSession
  repeat' first | with_reducible assumption | intro _ | with_reducible apply foldl_follows | with_reducible apply Follows.ite | split | extract_lets | with_reducible apply Follows.frame

theorem State.raiseAlarm_follows {s0 s : State} {a1 a2} (h : State.Follows s0 s) : State.Follows s0 (State.raiseAlarm s a1 a2) := by
  unfold State.raiseAlarm
  repeat' first | with_reducible assumption | intro _ | with_reducible apply State.bump_follows | with_reducible apply State.wr_follows | with_reducible apply State.alarm_follows | with_reducible apply State.zeroize_follows | with_reducible apply State.endOff_follows | with_reducible apply State.dropAllIo_follows | with_reducible apply State.endSession_follows | with_reducible apply foldl_follows | with_reducible apply Follows.ite | split | extract_lets | with_reducible apply Follows.frame

theorem execForcedAlarm_follows {s : State} {a1} : ∃ t, execForcedAlarm a1 s = .next t ∧ State.Follows s t := by
  unfold execForcedAlarm
  refine ⟨_, rfl, ?_⟩
  have h := State.Follows.refl s
  repeat' first | with_reducible assumption | intro _ | with_reducible apply State.raiseAlarm_follows | with_reducible apply foldl_follows | with_reducible apply Follows.ite | split | extract_lets | with_reducible apply Follows.frame

theorem execKeyPageCfgWrite_follows {s : State} {a1 a2} : ∃ t, execKeyPageCfgWrite a1 a2 s = .next t ∧ State.Follows s t := by
  unfold execKeyPageCfgWrite
  refine ⟨_, rfl, ?_⟩
  have h := State.Follows.refl s
  repeat' first | with_reducible assumption | intro _ | with_reducible apply State.putPage_follows | with_reducible apply State.keyDrop_follows | with_reducible apply foldl_follows | with_reducible apply Follows.ite | split | extract_lets | with_reducible apply Follows.frame

theorem State.refusePage_follows {s0 s : State} {a1 a2} (h : State.Follows s0 s) : State.Follows s0 (State.refusePage s a1 a2) := by
  unfold State.refusePage
  repeat' first | with_reducible assumption | intro _ | with_reducible apply State.putPage_follows | with_reducible apply foldl_follows | with_reducible apply Follows.ite | split | extract_lets | with_reducible apply Follows.frame

theorem State.acceptPage_follows {s0 s : State} {a1} (h : State.Follows s0 s) : State.Follows s0 (State.acceptPage s a1) := by
  unfold State.acceptPage
  repeat' first | with_reducible assumption | intro _ | with_reducible apply State.putPage_follows | with_reducible apply State.storePage_follows | with_reducible apply foldl_follows | with_reducible apply Follows.ite | split | extract_lets | with_reducible apply Follows.frame

theorem State.commitPage_follows {s0 s : State} {a1} (h : State.Follows s0 s) : State.Follows s0 (State.commitPage s a1) := by
  unfold State.commitPage
  repeat' first | with_reducible assumption | intro _ | with_reducible apply State.refusePage_follows | with_reducible apply State.acceptPage_follows | with_reducible apply foldl_follows | with_reducible apply Follows.ite | split | extract_lets | with_reducible apply Follows.frame

theorem execKeyPageCommit_follows {s : State} {a1} : ∃ t, execKeyPageCommit a1 s = .next t ∧ State.Follows s t := by
  unfold execKeyPageCommit
  refine ⟨_, rfl, ?_⟩
  have h := State.Follows.refl s
  repeat' first | with_reducible assumption | intro _ | with_reducible apply State.commitPage_follows | with_reducible apply State.keyDrop_follows | with_reducible apply foldl_follows | with_reducible apply Follows.ite | split | extract_lets | with_reducible apply Follows.frame

theorem execKeyPageGenerate_follows {s : State} {a1 a2} : ∃ t, execKeyPageGenerate a1 a2 s = .next t ∧ State.Follows s t := by
  unfold execKeyPageGenerate
  refine ⟨_, rfl, ?_⟩
  have h := State.Follows.refl s
  repeat' first | with_reducible assumption | intro _ | with_reducible apply State.refusePage_follows | with_reducible apply State.drbgBytes_follows | with_reducible apply State.acceptPage_follows | with_reducible apply State.keyDrop_follows | with_reducible apply foldl_follows | with_reducible refine snd_follows (by assumption) ?_ | with_reducible apply Follows.ite | split | extract_lets | with_reducible apply Follows.frame

theorem execKeyPageErase_follows {s : State} {a1} : ∃ t, execKeyPageErase a1 s = .next t ∧ State.Follows s t := by
  unfold execKeyPageErase
  refine ⟨_, rfl, ?_⟩
  have h := State.Follows.refl s
  repeat' first | with_reducible assumption | intro _ | with_reducible apply State.erasePage_follows | with_reducible apply State.keyDrop_follows | with_reducible apply foldl_follows | with_reducible apply Follows.ite | split | extract_lets | with_reducible apply Follows.frame

theorem execKeySlotKeyWrite_follows {s : State} {a1 a2 a3} : ∃ t, execKeySlotKeyWrite a1 a2 a3 s = .next t ∧ State.Follows s t := by
  unfold execKeySlotKeyWrite
  refine ⟨_, rfl, ?_⟩
  have h := State.Follows.refl s
  repeat' first | with_reducible assumption | intro _ | with_reducible apply State.putSlot_follows | with_reducible apply State.keyDrop_follows | with_reducible apply foldl_follows | with_reducible apply Follows.ite | split | extract_lets | with_reducible apply Follows.frame

theorem State.refuseSlot_follows {s0 s : State} {a1 a2} (h : State.Follows s0 s) : State.Follows s0 (State.refuseSlot s a1 a2) := by
  unfold State.refuseSlot
  repeat' first | with_reducible assumption | intro _ | with_reducible apply State.putSlot_follows | with_reducible apply foldl_follows | with_reducible apply Follows.ite | split | extract_lets | with_reducible apply Follows.frame

theorem State.storeSlot_follows {s0 s : State} {a1} (h : State.Follows s0 s) : State.Follows s0 (State.storeSlot s a1) := by
  unfold State.storeSlot
  repeat' first | with_reducible assumption | intro _ | with_reducible apply State.placeCfg_follows | with_reducible apply foldl_follows | with_reducible apply Follows.ite | split | extract_lets | with_reducible apply Follows.frame

theorem State.acceptSlot_follows {s0 s : State} {a1 a2} (h : State.Follows s0 s) : State.Follows s0 (State.acceptSlot s a1 a2) := by
  unfold State.acceptSlot
  repeat' first | with_reducible assumption | intro _ | with_reducible apply State.putSlot_follows | with_reducible apply State.storeSlot_follows | with_reducible apply foldl_follows | with_reducible apply Follows.ite | split | extract_lets | with_reducible apply Follows.frame

theorem execKeySlotCommit_follows {s : State} {a1} : ∃ t, execKeySlotCommit a1 s = .next t ∧ State.Follows s t := by
  unfold execKeySlotCommit
  refine ⟨_, rfl, ?_⟩
  have h := State.Follows.refl s
  repeat' first | with_reducible assumption | intro _ | with_reducible apply State.refuseSlot_follows | with_reducible apply State.acceptSlot_follows | with_reducible apply State.keyDrop_follows | with_reducible apply foldl_follows | with_reducible apply Follows.ite | split | extract_lets | with_reducible apply Follows.frame

theorem State.generateSlot_follows {s0 s : State} {a1} (h : State.Follows s0 s) : State.Follows s0 (State.generateSlot s a1) := by
  unfold State.generateSlot
  repeat' first | with_reducible assumption | intro _ | with_reducible apply State.drbgBytes_follows | with_reducible apply State.acceptSlot_follows | with_reducible apply foldl_follows | with_reducible refine snd_follows (by assumption) ?_ | with_reducible apply Follows.ite | split | extract_lets | with_reducible apply Follows.frame

theorem execKeySlotGenerate_follows {s : State} {a1 a2} : ∃ t, execKeySlotGenerate a1 a2 s = .next t ∧ State.Follows s t := by
  unfold execKeySlotGenerate
  refine ⟨_, rfl, ?_⟩
  have h := State.Follows.refl s
  repeat' first | with_reducible assumption | intro _ | with_reducible apply State.refuseSlot_follows | with_reducible apply State.generateSlot_follows | with_reducible apply State.keyDrop_follows | with_reducible apply foldl_follows | with_reducible apply Follows.ite | split | extract_lets | with_reducible apply Follows.frame

theorem execKeySlotErase_follows {s : State} {a1} : ∃ t, execKeySlotErase a1 s = .next t ∧ State.Follows s t := by
  unfold execKeySlotErase
  refine ⟨_, rfl, ?_⟩
  have h := State.Follows.refl s
  repeat' first | with_reducible assumption | intro _ | with_reducible apply State.eraseSlot_follows | with_reducible apply State.keyDrop_follows | with_reducible apply foldl_follows | with_reducible apply Follows.ite | split | extract_lets | with_reducible apply Follows.frame

theorem execAlarmAssert_follows {s : State} {a1 a2} : ∃ t, execAlarmAssert a1 a2 s = .next t ∧ State.Follows s t := by
  unfold execAlarmAssert
  refine ⟨_, rfl, ?_⟩
  have h := State.Follows.refl s
  repeat' first | with_reducible assumption | intro _ | with_reducible apply State.raiseAlarm_follows | with_reducible apply foldl_follows | with_reducible apply Follows.ite | split | extract_lets | with_reducible apply Follows.frame

theorem State.goErase_follows {s0 s : State} (h : State.Follows s0 s) : State.Follows s0 (State.goErase s) := by
  unfold State.goErase
  repeat' first | with_reducible assumption | intro _ | with_reducible apply State.erasePage_follows | with_reducible apply State.eraseSlot_follows | with_reducible apply foldl_follows | with_reducible apply Follows.ite | split | extract_lets | with_reducible apply Follows.frame

end Sys2Proof.Machine
end

