-- ==== Sys2Proof/Laws/Offload.lean ====
section
/-! SUPPORT. What each operation of Machine/Offload.lean can do: what follows from a state before it follows after it (Sys2Proof.Machine.State.Follows). -/
namespace Sys2Proof.Machine

theorem State.writeCtx_follows {s0 s : State} {a1 a2 a3} (h : State.Follows s0 s) : State.Follows s0 (State.writeCtx s a1 a2 a3) := by
  unfold State.writeCtx
  repeat' first | with_reducible assumption | intro _ | with_reducible apply State.emit_follows | with_reducible apply foldl_follows | with_reducible apply Follows.ite | split | extract_lets | with_reducible apply Follows.frame

theorem State.writeEng_follows {s0 s : State} {a1 a2 a3 a4 a5 a6} (h : State.Follows s0 s) : State.Follows s0 (State.writeEng s a1 a2 a3 a4 a5 a6) := by
  unfold State.writeEng
  repeat' first | with_reducible assumption | intro _ | with_reducible apply State.writeCtx_follows | with_reducible apply foldl_follows | with_reducible apply Follows.ite | split | extract_lets | with_reducible apply Follows.frame

theorem PktRes.refuse_follows {s0 s : State} {a1 a2 a3} (h : State.Follows s0 s) : PktRes.Follows s0 (PktRes.refuse s a1 a2 a3) := by
  unfold PktRes.refuse
  repeat' first | with_reducible assumption | intro _ | with_reducible apply State.bump_follows | with_reducible exact PktRes.follows_waits | with_reducible apply PktRes.follows_done | with_reducible apply PktRes.follows_started | with_reducible apply PktRes.follows_startDone | with_reducible apply PktRes.follows_quiet | with_reducible apply foldl_follows | with_reducible apply Follows.ite | with_reducible apply PktRes.follows_ite | split | extract_lets | with_reducible apply Follows.frame

theorem State.startOff_follows {s0 s : State} {a1 a2} (h : State.Follows s0 s) : State.Follows s0 (State.startOff s a1 a2) := by
  unfold State.startOff
  repeat' first | with_reducible assumption | intro _ | with_reducible apply State.startSegs_follows | with_reducible apply foldl_follows | with_reducible apply Follows.ite | split | extract_lets | with_reducible apply Follows.frame

theorem State.cmpJob_follows {s0 s : State} {a1 a2 a3 a4 a5} (h : State.Follows s0 s) : PktRes.Follows s0 (State.cmpJob s a1 a2 a3 a4 a5) := by
  unfold State.cmpJob
  repeat' first | with_reducible assumption | intro _ | with_reducible apply PktRes.fail_follows | with_reducible apply PktRes.refuse_follows | with_reducible apply State.startOff_follows | with_reducible exact PktRes.follows_waits | with_reducible apply PktRes.follows_done | with_reducible apply PktRes.follows_started | with_reducible apply PktRes.follows_startDone | with_reducible apply PktRes.follows_quiet | with_reducible apply foldl_follows | with_reducible apply Follows.ite | with_reducible apply PktRes.follows_ite | split | extract_lets | with_reducible apply Follows.frame

theorem execCompressJob_follows {s : State} {a1 a2 a3 a4} : ∃ t, execCompressJob a1 a2 a3 a4 s = .next t ∧ State.Follows s t := by
  unfold execCompressJob
  refine ⟨_, rfl, ?_⟩
  have h := State.Follows.refl s
  repeat' first | with_reducible assumption | intro _ | with_reducible apply State.packet_follows | with_reducible apply State.cmpJob_follows | with_reducible exact PktRes.follows_waits | with_reducible apply PktRes.follows_done | with_reducible apply PktRes.follows_started | with_reducible apply PktRes.follows_startDone | with_reducible apply PktRes.follows_quiet | with_reducible apply foldl_follows | with_reducible apply Follows.ite | with_reducible apply PktRes.follows_ite | split | extract_lets | with_reducible apply Follows.frame

theorem State.compressDone_follows {s0 s : State} {a1} (h : State.Follows s0 s) : State.Follows s0 (State.compressDone s a1) := by
  unfold State.compressDone
  repeat' first | with_reducible assumption | intro _ | with_reducible apply State.endOff_follows | with_reducible apply State.emit_follows | with_reducible apply State.writeCtx_follows | with_reducible apply State.bump_follows | with_reducible apply foldl_follows | with_reducible apply Follows.ite | split | extract_lets | with_reducible apply Follows.frame

theorem State.inflateDone_follows {s0 s : State} {a1 a2} (h : State.Follows s0 s) : State.Follows s0 (State.inflateDone s a1 a2) := by
  unfold State.inflateDone
  repeat' first | with_reducible assumption | intro _ | with_reducible apply State.emit_follows | with_reducible apply State.writeCtx_follows | with_reducible apply State.endOff_follows | with_reducible apply State.bump_follows | with_reducible apply foldl_follows | with_reducible apply Follows.ite | split | extract_lets | with_reducible apply Follows.frame

theorem State.decompressDone_follows {s0 s : State} {a1} (h : State.Follows s0 s) : State.Follows s0 (State.decompressDone s a1) := by
  unfold State.decompressDone
  repeat' first | with_reducible assumption | intro _ | with_reducible apply State.inflateDone_follows | with_reducible apply State.endOff_follows | with_reducible apply foldl_follows | with_reducible apply Follows.ite | split | extract_lets | with_reducible apply Follows.frame

theorem State.cipherDone_follows {s0 s : State} {a1} (h : State.Follows s0 s) : State.Follows s0 (State.cipherDone s a1) := by
  unfold State.cipherDone
  repeat' first | with_reducible assumption | intro _ | with_reducible apply State.endOff_follows | with_reducible apply State.writeEng_follows | with_reducible apply State.emit_follows | with_reducible apply State.bump_follows | with_reducible apply foldl_follows | with_reducible apply Follows.ite | split | extract_lets | with_reducible apply Follows.frame

theorem State.digestDone_follows {s0 s : State} {a1} (h : State.Follows s0 s) : State.Follows s0 (State.digestDone s a1) := by
  unfold State.digestDone
  repeat' first | with_reducible assumption | intro _ | with_reducible apply State.endOff_follows | with_reducible apply State.bump_follows | with_reducible apply State.emit_follows | with_reducible apply State.writeEng_follows | with_reducible apply foldl_follows | with_reducible apply Follows.ite | split | extract_lets | with_reducible apply Follows.frame

theorem State.offDone_follows {s0 s : State} {a1} (h : State.Follows s0 s) : State.Follows s0 (State.offDone s a1) := by
  unfold State.offDone
  repeat' first | with_reducible assumption | intro _ | with_reducible apply State.compressDone_follows | with_reducible apply State.decompressDone_follows | with_reducible apply State.cipherDone_follows | with_reducible apply State.digestDone_follows | with_reducible apply foldl_follows | with_reducible apply Follows.ite | split | extract_lets | with_reducible apply Follows.frame

theorem execDigestJob_follows {s : State} {a1 a2 a3 a4} : ∃ t, execDigestJob a1 a2 a3 a4 s = .next t ∧ State.Follows s t := by
  unfold execDigestJob
  refine ⟨_, rfl, ?_⟩
  have h := State.Follows.refl s
  repeat' first | with_reducible assumption | intro _ | with_reducible apply State.packet_follows | with_reducible apply PktRes.fail_follows | with_reducible apply PktRes.refuse_follows | with_reducible apply State.startOff_follows | with_reducible exact PktRes.follows_waits | with_reducible apply PktRes.follows_done | with_reducible apply PktRes.follows_started | with_reducible apply PktRes.follows_startDone | with_reducible apply PktRes.follows_quiet | with_reducible apply foldl_follows | with_reducible apply Follows.ite | with_reducible apply PktRes.follows_ite | split | extract_lets | with_reducible apply Follows.frame

theorem execCipherJob_follows {s : State} {a1 a2 a3 a4 a5} : ∃ t, execCipherJob a1 a2 a3 a4 a5 s = .next t ∧ State.Follows s t := by
  unfold execCipherJob
  refine ⟨_, rfl, ?_⟩
  have h := State.Follows.refl s
  repeat' first | with_reducible assumption | intro _ | with_reducible apply State.packet_follows | with_reducible apply PktRes.fail_follows | with_reducible apply PktRes.refuse_follows | with_reducible apply State.takeInvoc_follows | with_reducible apply State.startOff_follows | with_reducible exact PktRes.follows_waits | with_reducible apply PktRes.follows_done | with_reducible apply PktRes.follows_started | with_reducible apply PktRes.follows_startDone | with_reducible apply PktRes.follows_quiet | with_reducible apply foldl_follows | with_reducible refine snd_follows (by assumption) ?_ | with_reducible apply Follows.ite | with_reducible apply PktRes.follows_ite | split | extract_lets | with_reducible apply Follows.frame

theorem execDecompressJob_follows {s : State} {a1 a2 a3 a4} : ∃ t, execDecompressJob a1 a2 a3 a4 s = .next t ∧ State.Follows s t := by
  unfold execDecompressJob
  refine ⟨_, rfl, ?_⟩
  have h := State.Follows.refl s
  repeat' first | with_reducible assumption | intro _ | with_reducible apply State.packet_follows | with_reducible apply State.cmpJob_follows | with_reducible exact PktRes.follows_waits | with_reducible apply PktRes.follows_done | with_reducible apply PktRes.follows_started | with_reducible apply PktRes.follows_startDone | with_reducible apply PktRes.follows_quiet | with_reducible apply foldl_follows | with_reducible apply Follows.ite | with_reducible apply PktRes.follows_ite | split | extract_lets | with_reducible apply Follows.frame

theorem execContextSaveDone_follows {s : State} {a1 a2} : ∃ t, execContextSaveDone a1 a2 s = .next t ∧ State.Follows s t := by
  unfold execContextSaveDone
  dsimp only
  refine ⟨_, rfl, ?_⟩
  have h := State.Follows.refl s
  repeat' first | with_reducible assumption | intro _ | with_reducible apply State.bump_follows | with_reducible apply foldl_follows | with_reducible apply Follows.ite | split | with_reducible apply Follows.frame

end Sys2Proof.Machine
end

