-- ==== Sys2Proof/Laws/Snap.lean ====
section
/-! SUPPORT. What each operation of Machine/Snap.lean can do: what follows from a state before it follows after it (Sys2Proof.Machine.State.Follows). -/
namespace Sys2Proof.Machine

theorem execCreateSnapshot_follows {s : State} {a1 a2} : ∃ t, execCreateSnapshot a1 a2 s = .next t ∧ State.Follows s t := by
  unfold execCreateSnapshot
  refine ⟨_, rfl, ?_⟩
  have h := State.Follows.refl s
  repeat' first | with_reducible assumption | intro _ | with_reducible apply State.packet_follows | with_reducible apply PktRes.fail_follows | with_reducible refine State.armTimed_follows (by assumption) ?_ | with_reducible apply State.control_follows | with_reducible exact PktRes.follows_waits | with_reducible apply PktRes.follows_done | with_reducible apply PktRes.follows_started | with_reducible apply PktRes.follows_startDone | with_reducible apply PktRes.follows_quiet | with_reducible apply foldl_follows | with_reducible apply Follows.ite | with_reducible apply PktRes.follows_ite | split | extract_lets | with_reducible apply Follows.frame

theorem State.cutCheck_follows {s0 s : State} {a1} (h : State.Follows s0 s) : State.Follows s0 (State.cutCheck s a1) := by
  unfold State.cutCheck
  repeat' first | with_reducible assumption | intro _ | with_reducible apply State.finish_follows | with_reducible apply foldl_follows | with_reducible apply Follows.ite | split | extract_lets | with_reducible apply Follows.frame

theorem State.peerCut_follows {s0 s : State} {a1} (h : State.Follows s0 s) : State.Follows s0 (State.peerCut s a1) := by
  unfold State.peerCut
  repeat' first | with_reducible assumption | intro _ | with_reducible apply State.cutCheck_follows | with_reducible apply foldl_follows | with_reducible apply Follows.ite | split | extract_lets | with_reducible apply Follows.frame

theorem State.placeCut_follows {s0 s : State} {a1 a2 a3} (h : State.Follows s0 s) : State.Follows s0 (State.placeCut s a1 a2 a3) := by
  unfold State.placeCut
  repeat' first | with_reducible assumption | intro _ | with_reducible apply State.bump_follows | with_reducible apply State.placeCfg_follows | with_reducible apply State.placeActAt_follows | with_reducible apply foldl_follows | with_reducible apply Follows.ite | split | extract_lets | with_reducible apply Follows.frame

theorem execSetVolumeGroup_follows {s : State} {a1 a2} : ∃ t, execSetVolumeGroup a1 a2 s = .next t ∧ State.Follows s t := by
  unfold execSetVolumeGroup
  refine ⟨_, rfl, ?_⟩
  have h := State.Follows.refl s
  repeat' first | with_reducible assumption | intro _ | with_reducible apply State.packet_follows | with_reducible apply PktRes.fail_follows | with_reducible apply State.cfgDone_follows | with_reducible apply State.storeVol_follows | with_reducible exact PktRes.follows_waits | with_reducible apply PktRes.follows_done | with_reducible apply PktRes.follows_started | with_reducible apply PktRes.follows_startDone | with_reducible apply PktRes.follows_quiet | with_reducible apply foldl_follows | with_reducible apply Follows.ite | with_reducible apply PktRes.follows_ite | split | extract_lets | with_reducible apply Follows.frame

theorem State.missCut_follows {s0 s : State} {a1 a2} (h : State.Follows s0 s) : State.Follows s0 (State.missCut s a1 a2) := by
  unfold State.missCut
  repeat' first | with_reducible assumption | intro _ | with_reducible apply State.cancelTimed_follows | with_reducible apply State.control_follows | with_reducible apply State.dropSnap_follows | with_reducible apply State.event_follows | with_reducible apply State.bump_follows | with_reducible apply State.finish_follows | with_reducible apply foldl_follows | with_reducible apply Follows.ite | split | extract_lets | with_reducible apply Follows.frame

theorem State.fireCut_follows {s0 s : State} {a1} (h : State.Follows s0 s) : State.Follows s0 (State.fireCut s a1) := by
  unfold State.fireCut
  repeat' first | with_reducible assumption | intro _ | with_reducible apply State.missCut_follows | with_reducible apply State.placeCut_follows | with_reducible apply State.cutCheck_follows | with_reducible apply foldl_follows | with_reducible apply Follows.ite | split | extract_lets | with_reducible apply Follows.frame

theorem execListSnapshots_follows {s : State} {a1 a2} : ∃ t, execListSnapshots a1 a2 s = .next t ∧ State.Follows s t := by
  unfold execListSnapshots
  refine ⟨_, rfl, ?_⟩
  have h := State.Follows.refl s
  repeat' first | with_reducible assumption | intro _ | with_reducible apply State.packet_follows | with_reducible apply PktRes.fail_follows | with_reducible exact PktRes.follows_waits | with_reducible apply PktRes.follows_done | with_reducible apply PktRes.follows_started | with_reducible apply PktRes.follows_startDone | with_reducible apply PktRes.follows_quiet | with_reducible apply foldl_follows | with_reducible apply Follows.ite | with_reducible apply PktRes.follows_ite | split | extract_lets | with_reducible apply Follows.frame

theorem execCloneSnapshot_follows {s : State} {a1 a2} : ∃ t, execCloneSnapshot a1 a2 s = .next t ∧ State.Follows s t := by
  unfold execCloneSnapshot
  refine ⟨_, rfl, ?_⟩
  have h := State.Follows.refl s
  repeat' first | with_reducible assumption | intro _ | with_reducible apply State.packet_follows | with_reducible apply PktRes.fail_follows | with_reducible apply State.putVol_follows | with_reducible apply State.placeCfg_follows | with_reducible apply State.cfgDone_follows | with_reducible apply State.placeAct_follows | with_reducible exact PktRes.follows_waits | with_reducible apply PktRes.follows_done | with_reducible apply PktRes.follows_started | with_reducible apply PktRes.follows_startDone | with_reducible apply PktRes.follows_quiet | with_reducible apply foldl_follows | with_reducible apply Follows.ite | with_reducible apply PktRes.follows_ite | split | extract_lets | with_reducible apply Follows.frame

theorem execCutCancelRx_follows {s : State} {a1 a2} : ∃ t, execCutCancelRx a1 a2 s = .next t ∧ State.Follows s t := by
  unfold execCutCancelRx
  refine ⟨_, rfl, ?_⟩
  have h := State.Follows.refl s
  repeat' first | with_reducible assumption | intro _ | with_reducible apply State.onPtl_follows | with_reducible apply State.missCut_follows | with_reducible apply State.dropSnap_follows | with_reducible apply foldl_follows | with_reducible apply Follows.ite | split | extract_lets | with_reducible apply Follows.frame

theorem execDeleteSnapshot_follows {s : State} {a1 a2} : ∃ t, execDeleteSnapshot a1 a2 s = .next t ∧ State.Follows s t := by
  unfold execDeleteSnapshot
  refine ⟨_, rfl, ?_⟩
  have h := State.Follows.refl s
  repeat' first | with_reducible assumption | intro _ | with_reducible apply State.packet_follows | with_reducible apply PktRes.fail_follows | with_reducible apply State.cfgDone_follows | with_reducible apply State.dropSnap_follows | with_reducible exact PktRes.follows_waits | with_reducible apply PktRes.follows_done | with_reducible apply PktRes.follows_started | with_reducible apply PktRes.follows_startDone | with_reducible apply PktRes.follows_quiet | with_reducible apply foldl_follows | with_reducible apply Follows.ite | with_reducible apply PktRes.follows_ite | split | extract_lets | with_reducible apply Follows.frame

theorem execGetSnapshotSpace_follows {s : State} {a1 a2} : ∃ t, execGetSnapshotSpace a1 a2 s = .next t ∧ State.Follows s t := by
  unfold execGetSnapshotSpace
  refine ⟨_, rfl, ?_⟩
  have h := State.Follows.refl s
  repeat' first | with_reducible assumption | intro _ | with_reducible apply State.packet_follows | with_reducible apply PktRes.fail_follows | with_reducible apply State.placeAct_follows | with_reducible exact PktRes.follows_waits | with_reducible apply PktRes.follows_done | with_reducible apply PktRes.follows_started | with_reducible apply PktRes.follows_startDone | with_reducible apply PktRes.follows_quiet | with_reducible apply foldl_follows | with_reducible apply Follows.ite | with_reducible apply PktRes.follows_ite | split | extract_lets | with_reducible apply Follows.frame

theorem execCutArmRx_follows {s : State} {a1 a2} : ∃ t, execCutArmRx a1 a2 s = .next t ∧ State.Follows s t := by
  unfold execCutArmRx
  refine ⟨_, rfl, ?_⟩
  have h := State.Follows.refl s
  repeat' first | with_reducible assumption | intro _ | with_reducible apply State.onPtl_follows | with_reducible apply State.missCut_follows | with_reducible apply foldl_follows | with_reducible apply Follows.ite | split | extract_lets | with_reducible apply Follows.frame

theorem execSnapshotSpaceScanDone_follows {s : State} {a1 a2} : ∃ t, execSnapshotSpaceScanDone a1 a2 s = .next t ∧ State.Follows s t := by
  unfold execSnapshotSpaceScanDone
  refine ⟨_, rfl, ?_⟩
  have h := State.Follows.refl s
  repeat' first | with_reducible assumption | intro _ | with_reducible apply State.finish_follows | with_reducible apply foldl_follows | with_reducible apply Follows.ite | split | extract_lets | with_reducible apply Follows.frame

end Sys2Proof.Machine
end

