-- ==== Sys2Proof/Laws/Repl.lean ====
section
/-! SUPPORT. What each operation of Machine/Repl.lean can do: what follows from a state before it follows after it (Sys2Proof.Machine.State.Follows). -/
namespace Sys2Proof.Machine

theorem State.connectSession_follows {s0 s : State} {a1} (h : State.Follows s0 s) : State.Follows s0 (State.connectSession s a1) := by
  unfold State.connectSession
  repeat' first | with_reducible assumption | intro _ | with_reducible apply State.putSession_follows | with_reducible apply State.bump_follows | with_reducible apply State.cacheCtx_follows | with_reducible apply State.putQp_follows | with_reducible apply State.sendCm_follows | with_reducible apply foldl_follows | with_reducible apply Follows.ite | split | extract_lets | with_reducible apply Follows.frame

theorem State.armPeriod_follows {s0 s : State} {a1 a2} (h : State.Follows s0 s) : State.Follows s0 (State.armPeriod s a1 a2) := by
  unfold State.armPeriod
  repeat' first | with_reducible assumption | intro _ | with_reducible refine State.armTimed_follows (by assumption) ?_ | with_reducible apply foldl_follows | with_reducible apply Follows.ite | split | extract_lets | with_reducible apply Follows.frame

theorem State.armPeriods_follows {s0 s : State} (h : State.Follows s0 s) : State.Follows s0 (State.armPeriods s) := by
  unfold State.armPeriods
  repeat' first | with_reducible assumption | intro _ | with_reducible apply State.armPeriod_follows | with_reducible apply foldl_follows | with_reducible apply Follows.ite | split | extract_lets | with_reducible apply Follows.frame

theorem State.closeSession_follows {s0 s : State} {a1} (h : State.Follows s0 s) : State.Follows s0 (State.closeSession s a1) := by
  unfold State.closeSession
  repeat' first | with_reducible assumption | intro _ | with_reducible apply State.dropQp_follows | with_reducible apply State.sendCm_follows | with_reducible apply foldl_follows | with_reducible apply Follows.ite | split | extract_lets | with_reducible apply Follows.frame

theorem State.failSession_follows {s0 s : State} {a1 a2} (h : State.Follows s0 s) : State.Follows s0 (State.failSession s a1 a2) := by
  unfold State.failSession
  repeat' first | with_reducible assumption | intro _ | with_reducible apply State.event_follows | with_reducible apply State.putSession_follows | with_reducible apply State.closeSession_follows | with_reducible apply foldl_follows | with_reducible apply Follows.ite | split | extract_lets | with_reducible apply Follows.frame

theorem State.replSend_follows {s0 s : State} {a1 a2 a3} (h : State.Follows s0 s) : State.Follows s0 (State.replSend s a1 a2 a3) := by
  unfold State.replSend
  repeat' first | with_reducible assumption | intro _ | with_reducible apply State.takeInvoc_follows | with_reducible apply State.failSession_follows | with_reducible apply State.bumpBy_follows | with_reducible apply State.bump_follows | with_reducible apply State.rdmaWriteImm_follows | with_reducible apply foldl_follows | with_reducible refine snd_follows (by assumption) ?_ | with_reducible apply Follows.ite | split | extract_lets | with_reducible apply Follows.frame

theorem State.replAck_follows {s0 s : State} {a1 a2 a3 a4} (h : State.Follows s0 s) : State.Follows s0 (State.replAck s a1 a2 a3 a4) := by
  unfold State.replAck
  repeat' first | with_reducible assumption | intro _ | with_reducible apply State.replSend_follows | with_reducible apply foldl_follows | with_reducible apply Follows.ite | split | extract_lets | with_reducible apply Follows.frame

theorem State.payOwed_follows {s0 s : State} {a1} (h : State.Follows s0 s) : State.Follows s0 (State.payOwed s a1) := by
  unfold State.payOwed
  repeat' first | with_reducible assumption | intro _ | with_reducible apply State.replAck_follows | with_reducible apply State.putSession_follows | with_reducible apply foldl_follows | with_reducible apply Follows.ite | split | extract_lets | with_reducible apply Follows.frame

theorem State.payAll_follows {s0 s : State} (h : State.Follows s0 s) : State.Follows s0 (State.payAll s) := by
  unfold State.payAll
  repeat' first | with_reducible assumption | intro _ | with_reducible apply State.payOwed_follows | with_reducible apply foldl_follows | with_reducible apply Follows.ite | split | extract_lets | with_reducible apply Follows.frame

theorem State.replFlush_follows {s0 s : State} {a1} (h : State.Follows s0 s) : State.Follows s0 (State.replFlush s a1) := by
  unfold State.replFlush
  repeat' first | with_reducible assumption | intro _ | with_reducible apply State.putSession_follows | with_reducible apply State.replSend_follows | with_reducible apply foldl_follows | with_reducible apply Follows.ite | split | extract_lets | with_reducible apply Follows.frame

theorem State.replRun_follows {s0 s : State} {a1 a2} (h : State.Follows s0 s) : State.Follows s0 (State.replRun s a1 a2) := by
  induction a2 generalizing s with
  | zero =>
    unfold State.replRun
    repeat' first | with_reducible assumption | with_reducible apply ih | intro _ | with_reducible apply State.failSession_follows | with_reducible apply State.putSession_follows | with_reducible apply State.replSend_follows | with_reducible apply State.replFlush_follows | with_reducible apply State.readGrain_follows | with_reducible apply foldl_follows | with_reducible apply Follows.ite | split | with_reducible apply Follows.frame
  | succ n ih =>
    unfold State.replRun
    repeat' first | with_reducible assumption | with_reducible apply ih | intro _ | with_reducible apply State.failSession_follows | with_reducible apply State.putSession_follows | with_reducible apply State.replSend_follows | with_reducible apply State.replFlush_follows | with_reducible apply State.readGrain_follows | with_reducible apply foldl_follows | with_reducible apply Follows.ite | split | with_reducible apply Follows.frame

theorem State.replGo_follows {s0 s : State} {a1} (h : State.Follows s0 s) : State.Follows s0 (State.replGo s a1) := by
  unfold State.replGo
  repeat' first | with_reducible assumption | intro _ | with_reducible apply State.sweepReads_follows | with_reducible apply State.replRun_follows | with_reducible apply foldl_follows | with_reducible apply Follows.ite | split | extract_lets | with_reducible apply Follows.frame

theorem State.storeSession_follows {s0 s : State} {a1} (h : State.Follows s0 s) : State.Follows s0 (State.storeSession s a1) := by
  unfold State.storeSession
  repeat' first | with_reducible assumption | intro _ | with_reducible apply State.placeCfg_follows | with_reducible apply State.putSession_follows | with_reducible apply foldl_follows | with_reducible apply Follows.ite | split | extract_lets | with_reducible apply Follows.frame

theorem State.replWrite_follows {s0 s : State} {a1 a2} (h : State.Follows s0 s) : State.Follows s0 (State.replWrite s a1 a2) := by
  unfold State.replWrite
  repeat' first | with_reducible assumption | intro _ | with_reducible apply State.takeFor_follows | with_reducible apply State.assignSeq_follows | with_reducible apply foldl_follows | with_reducible apply Follows.ite | split | extract_lets | with_reducible apply Follows.frame

theorem State.replApply_follows {s0 s : State} {a1 a2} (h : State.Follows s0 s) : State.Follows s0 (State.replApply s a1 a2) := by
  induction a2 generalizing s with
  | zero =>
    unfold State.replApply
    repeat' first | with_reducible assumption | with_reducible apply ih | intro _ | with_reducible apply State.placeCut_follows | with_reducible apply State.bump_follows | with_reducible apply State.storeSession_follows | with_reducible apply State.payOwed_follows | with_reducible apply State.putSession_follows | with_reducible apply State.failSession_follows | with_reducible apply State.replWrite_follows | with_reducible apply State.replAck_follows | with_reducible apply foldl_follows | with_reducible apply Follows.ite | split | extract_lets | with_reducible apply Follows.frame
  | succ n ih =>
    unfold State.replApply
    repeat' first | with_reducible assumption | with_reducible apply ih | intro _ | with_reducible apply State.placeCut_follows | with_reducible apply State.bump_follows | with_reducible apply State.storeSession_follows | with_reducible apply State.payOwed_follows | with_reducible apply State.putSession_follows | with_reducible apply State.failSession_follows | with_reducible apply State.replWrite_follows | with_reducible apply State.replAck_follows | with_reducible apply foldl_follows | with_reducible apply Follows.ite | split | extract_lets | with_reducible apply Follows.frame

theorem State.replPump_follows {s0 s : State} (h : State.Follows s0 s) : State.Follows s0 (State.replPump s) := by
  unfold State.replPump
  repeat' first | with_reducible assumption | intro _ | with_reducible apply State.payAll_follows | with_reducible apply State.replGo_follows | with_reducible apply State.replApply_follows | with_reducible apply foldl_follows | with_reducible apply Follows.ite | split | extract_lets | with_reducible apply Follows.frame

theorem State.replFrame_follows {s0 s : State} {a1 a2 a3 a4} (h : State.Follows s0 s) : State.Follows s0 (State.replFrame s a1 a2 a3 a4) := by
  unfold State.replFrame
  repeat' first | with_reducible assumption | intro _ | with_reducible apply State.dropJob_follows | with_reducible apply State.replGo_follows | with_reducible apply State.putSession_follows | with_reducible apply foldl_follows | with_reducible apply Follows.ite | split | extract_lets | with_reducible apply Follows.frame

theorem State.landingIn_follows {s0 s : State} {a1 a2 a3} {t k} (e : State.landingIn s a1 a2 a3 = some (t, k)) (h : State.Follows s0 s) : State.Follows s0 t := by
  unfold State.landingIn at e
  split at e
  · contradiction
  · rename_i i hf
    have hp := State.newMkey_follows (a1 := 0) (a2 := a1 + i * landBytes) (a3 := landBytes) (a4 := a3) h
    generalize s.newMkey 0 (a1 + i * landBytes) landBytes a3 = p at e hp
    obtain ⟨u, o⟩ := p
    cases o with
    | none => contradiction
    | some x =>
      injection e with e
      injection e with e1 e2
      subst e1
      exact hp

theorem State.landingKey_follows {s0 s : State} {a1} {t k} (e : State.landingKey s a1 = some (t, k)) (h : State.Follows s0 s) : State.Follows s0 t := by
  unfold State.landingKey at e
  split at e
  · contradiction
  · exact State.landingIn_follows e h

theorem State.openSession_follows {s0 s : State} {a1} (h : State.Follows s0 s) : State.Follows s0 (State.openSession s a1) := by
  unfold State.openSession
  repeat' first | with_reducible assumption | intro _ | with_reducible apply State.replSend_follows | with_reducible apply foldl_follows | with_reducible apply Follows.ite | split | extract_lets | with_reducible apply Follows.frame

theorem State.replIn_follows {s0 s : State} {a1 a2 a3 a4} (h : State.Follows s0 s) : State.Follows s0 (State.replIn s a1 a2 a3 a4) := by
  unfold State.replIn
  repeat' first | with_reducible assumption | intro _ | with_reducible apply State.replAck_follows | with_reducible apply State.replApply_follows | with_reducible apply State.putSession_follows | with_reducible apply foldl_follows | with_reducible apply Follows.ite | split | extract_lets | with_reducible apply Follows.frame

theorem State.startSession_follows {s0 s : State} {a1 a2} (h : State.Follows s0 s) : PktRes.Follows s0 (State.startSession s a1 a2) := by
  unfold State.startSession
  split
  · exact PktRes.fail_follows h
  · rename_i u key ho
    exact State.cfgDone_follows (State.armPeriod_follows (State.connectSession_follows (State.storeSession_follows (State.landingKey_follows ho h))))

theorem execCreateReplSession_follows {s : State} {a1 a2} : ∃ t, execCreateReplSession a1 a2 s = .next t ∧ State.Follows s t := by
  unfold execCreateReplSession
  refine ⟨_, rfl, State.packet_follows (State.Follows.refl s) fun e p t ht => ?_⟩
  extract_lets no role scope vols kp k src x
  clear_value x src k
  repeat' first | with_reducible exact PktRes.fail_follows ht | with_reducible apply PktRes.follows_ite
  exact State.startSession_follows ht

theorem State.message_follows {s0 s : State} {a1 a2 a3} (h : State.Follows s0 s) (hf : ∀ x0 x1 t, State.Follows s0 t → State.Follows s0 (a3 x0 x1 t)) : State.Follows s0 (State.message s a1 a2 a3) := by
  unfold State.message
  split
  · exact h
  · split
    · exact h
    · split
      · exact h
      · exact hf _ _ _ (State.putSession_follows h)

theorem execReplResumeRx_follows {s : State} {a1} : ∃ t, execReplResumeRx a1 s = .next t ∧ State.Follows s t := by
  unfold execReplResumeRx
  refine ⟨_, rfl, ?_⟩
  have h := State.Follows.refl s
  repeat' first | with_reducible assumption | intro _ | with_reducible apply State.message_follows | with_reducible apply State.bump_follows | with_reducible apply State.replGo_follows | with_reducible apply State.putSession_follows | with_reducible apply State.failSession_follows | with_reducible apply State.replSend_follows | with_reducible apply foldl_follows | with_reducible apply Follows.ite | split | extract_lets | with_reducible apply Follows.frame

theorem State.replFire_follows {s0 s : State} {a1 a2} (h : State.Follows s0 s) : State.Follows s0 (State.replFire s a1 a2) := by
  unfold State.replFire
  repeat' first | with_reducible assumption | intro _ | with_reducible apply State.bump_follows | with_reducible apply State.placeCut_follows | with_reducible apply State.storeSession_follows | with_reducible apply State.replGo_follows | with_reducible apply foldl_follows | with_reducible apply Follows.ite | split | extract_lets | with_reducible apply Follows.frame

theorem State.replBad_follows {s0 s : State} {a1 a2} (h : State.Follows s0 s) : State.Follows s0 (State.replBad s a1 a2) := by
  unfold State.replBad
  repeat' first | with_reducible assumption | intro _ | with_reducible apply State.bump_follows | with_reducible apply State.replSend_follows | with_reducible apply State.putSession_follows | with_reducible apply State.failSession_follows | with_reducible apply foldl_follows | with_reducible apply Follows.ite | split | extract_lets | with_reducible apply Follows.frame

theorem State.openSessions_follows {s0 s : State} (h : State.Follows s0 s) : State.Follows s0 (State.openSessions s) := by
  unfold State.openSessions
  repeat' first | with_reducible assumption | intro _ | with_reducible apply State.openSession_follows | with_reducible apply foldl_follows | with_reducible apply Follows.ite | split | extract_lets | with_reducible apply Follows.frame

theorem execCmRtuRx_follows {s : State} {a1 a2} : ∃ t, execCmRtuRx a1 a2 s = .next t ∧ State.Follows s t := by
  unfold execCmRtuRx
  refine ⟨_, rfl, ?_⟩
  have h := State.Follows.refl s
  repeat' first | with_reducible assumption | intro _ | with_reducible apply State.rxCm_follows | with_reducible apply State.openSessions_follows | with_reducible apply State.establish_follows | with_reducible apply foldl_follows | with_reducible apply Follows.ite | split | extract_lets | with_reducible apply Follows.frame

theorem execReplOpenRx_follows {s : State} {a1} : ∃ t, execReplOpenRx a1 s = .next t ∧ State.Follows s t := by
  unfold execReplOpenRx
  refine ⟨_, rfl, ?_⟩
  have h := State.Follows.refl s
  repeat' first | with_reducible assumption | intro _ | with_reducible apply State.message_follows | with_reducible apply State.bump_follows | with_reducible apply State.putSession_follows | with_reducible apply State.failSession_follows | with_reducible apply State.replSend_follows | with_reducible apply foldl_follows | with_reducible apply Follows.ite | split | extract_lets | with_reducible apply Follows.frame

theorem execDeleteReplSession_follows {s : State} {a1 a2} : ∃ t, execDeleteReplSession a1 a2 s = .next t ∧ State.Follows s t := by
  unfold execDeleteReplSession
  refine ⟨_, rfl, ?_⟩
  have h := State.Follows.refl s
  repeat' first | with_reducible assumption | intro _ | with_reducible apply State.packet_follows | with_reducible apply PktRes.fail_follows | with_reducible apply State.closeSession_follows | with_reducible apply State.cancelTimed_follows | with_reducible apply State.cfgDone_follows | with_reducible apply State.placeCfg_follows | with_reducible exact PktRes.follows_waits | with_reducible apply PktRes.follows_done | with_reducible apply PktRes.follows_started | with_reducible apply PktRes.follows_startDone | with_reducible apply PktRes.follows_quiet | with_reducible apply foldl_follows | with_reducible apply Follows.ite | with_reducible apply PktRes.follows_ite | split | extract_lets | with_reducible apply Follows.frame

theorem execReplDataRx_follows {s : State} {a1} : ∃ t, execReplDataRx a1 s = .next t ∧ State.Follows s t := by
  unfold execReplDataRx
  refine ⟨_, rfl, ?_⟩
  have h := State.Follows.refl s
  repeat' first | with_reducible assumption | intro _ | with_reducible apply State.message_follows | with_reducible apply State.replBad_follows | with_reducible apply State.replIn_follows | with_reducible apply foldl_follows | with_reducible apply Follows.ite | split | extract_lets | with_reducible apply Follows.frame

theorem execReplAckRx_follows {s : State} {a1} : ∃ t, execReplAckRx a1 s = .next t ∧ State.Follows s t := by
  unfold execReplAckRx
  refine ⟨_, rfl, ?_⟩
  have h := State.Follows.refl s
  repeat' first | with_reducible assumption | intro _ | with_reducible apply State.message_follows | with_reducible apply State.replBad_follows | with_reducible apply State.storeSession_follows | with_reducible apply State.dropSnap_follows | with_reducible apply State.putSession_follows | with_reducible apply State.replGo_follows | with_reducible apply foldl_follows | with_reducible apply Follows.ite | split | extract_lets | with_reducible apply Follows.frame

theorem execGetReplSession_follows {s : State} {a1 a2} : ∃ t, execGetReplSession a1 a2 s = .next t ∧ State.Follows s t := by
  unfold execGetReplSession
  refine ⟨_, rfl, ?_⟩
  have h := State.Follows.refl s
  repeat' first | with_reducible assumption | intro _ | with_reducible apply State.packet_follows | with_reducible apply PktRes.fail_follows | with_reducible exact PktRes.follows_waits | with_reducible apply PktRes.follows_done | with_reducible apply PktRes.follows_started | with_reducible apply PktRes.follows_startDone | with_reducible apply PktRes.follows_quiet | with_reducible apply foldl_follows | with_reducible apply Follows.ite | with_reducible apply PktRes.follows_ite | split | extract_lets | with_reducible apply Follows.frame

theorem execReplReconnectTimer_follows {s : State} {a1} : ∃ t, execReplReconnectTimer a1 s = .next t ∧ State.Follows s t := by
  unfold execReplReconnectTimer
  refine ⟨_, rfl, ?_⟩
  have h := State.Follows.refl s
  repeat' first | with_reducible assumption | intro _ | with_reducible apply State.connectSession_follows | with_reducible apply foldl_follows | with_reducible apply Follows.ite | split | extract_lets | with_reducible apply Follows.frame

theorem execReplConnectTimeout_follows {s : State} {a1} : ∃ t, execReplConnectTimeout a1 s = .next t ∧ State.Follows s t := by
  unfold execReplConnectTimeout
  refine ⟨_, rfl, ?_⟩
  have h := State.Follows.refl s
  repeat' first | with_reducible assumption | intro _ | with_reducible apply State.suspendSession_follows | with_reducible apply foldl_follows | with_reducible apply Follows.ite | split | extract_lets | with_reducible apply Follows.frame

theorem execCmRepRx_follows {s : State} {a1 a2 a3} : ∃ t, execCmRepRx a1 a2 a3 s = .next t ∧ State.Follows s t := by
  unfold execCmRepRx
  refine ⟨_, rfl, ?_⟩
  have h := State.Follows.refl s
  repeat' first | with_reducible assumption | intro _ | with_reducible apply State.rxCm_follows | with_reducible apply State.putQp_follows | with_reducible apply State.putSession_follows | with_reducible apply State.openSessions_follows | with_reducible apply State.establish_follows | with_reducible apply State.sendCm_follows | with_reducible apply foldl_follows | with_reducible apply Follows.ite | split | extract_lets | with_reducible apply Follows.frame

theorem execStartReplication_follows {s : State} {a1 a2} : ∃ t, execStartReplication a1 a2 s = .next t ∧ State.Follows s t := by
  unfold execStartReplication
  refine ⟨_, rfl, ?_⟩
  have h := State.Follows.refl s
  repeat' first | with_reducible assumption | intro _ | with_reducible apply State.packet_follows | with_reducible apply PktRes.fail_follows | with_reducible refine State.armTimed_follows (by assumption) ?_ | with_reducible apply State.cfgDone_follows | with_reducible exact PktRes.follows_waits | with_reducible apply PktRes.follows_done | with_reducible apply PktRes.follows_started | with_reducible apply PktRes.follows_startDone | with_reducible apply PktRes.follows_quiet | with_reducible apply foldl_follows | with_reducible apply Follows.ite | with_reducible apply PktRes.follows_ite | split | extract_lets | with_reducible apply Follows.frame

theorem execReplCommitRx_follows {s : State} {a1} : ∃ t, execReplCommitRx a1 s = .next t ∧ State.Follows s t := by
  unfold execReplCommitRx
  refine ⟨_, rfl, ?_⟩
  have h := State.Follows.refl s
  repeat' first | with_reducible assumption | intro _ | with_reducible apply State.message_follows | with_reducible apply State.replBad_follows | with_reducible apply State.replIn_follows | with_reducible apply foldl_follows | with_reducible apply Follows.ite | split | extract_lets | with_reducible apply Follows.frame

end Sys2Proof.Machine
end

