-- ==== Sys2Proof/Laws/Sanitize.lean ====
section
/-! SUPPORT. What each operation of Machine/Sanitize.lean can do: what follows from a state before it follows after it (Sys2Proof.Machine.State.Follows). -/
namespace Sys2Proof.Machine

theorem State.sanRoots_follows {s0 s : State} (h : State.Follows s0 s) : State.Follows s0 (State.sanRoots s) := by
  unfold State.sanRoots
  repeat' first | with_reducible assumption | intro _ | with_reducible apply State.putRoot_follows | with_reducible apply foldl_follows | with_reducible apply Follows.ite | split | extract_lets | with_reducible apply Follows.frame

theorem State.rekey_follows {s0 s : State} {a1} (h : State.Follows s0 s) : State.Follows s0 (State.rekey s a1) := by
  unfold State.rekey
  repeat' first | with_reducible assumption | intro _ | with_reducible apply State.drbgBytes_follows | with_reducible apply State.putPage_follows | with_reducible apply State.storePage_follows | with_reducible apply foldl_follows | with_reducible refine snd_follows (by assumption) ?_ | with_reducible apply Follows.ite | split | extract_lets | with_reducible apply Follows.frame

theorem State.sanClear_follows {s0 s : State} (h : State.Follows s0 s) : State.Follows s0 (State.sanClear s) := by
  unfold State.sanClear
  repeat' first | with_reducible assumption | intro _ | with_reducible apply foldl_follows | with_reducible apply Follows.ite | split | extract_lets | with_reducible apply Follows.frame

theorem State.sanWipe_follows {s0 s : State} (h : State.Follows s0 s) : State.Follows s0 (State.sanWipe s) := by
  unfold State.sanWipe
  repeat' first | with_reducible assumption | intro _ | with_reducible apply State.sanRoots_follows | with_reducible apply State.rekey_follows | with_reducible apply State.sanClear_follows | with_reducible apply foldl_follows | with_reducible apply Follows.ite | split | extract_lets | with_reducible apply Follows.frame

theorem State.tellSanitize_follows {s0 s : State} {a1 a2 a3} (h : State.Follows s0 s) : State.Follows s0 (State.tellSanitize s a1 a2 a3) := by
  unfold State.tellSanitize
  repeat' first | with_reducible assumption | intro _ | with_reducible apply State.control_follows | with_reducible apply foldl_follows | with_reducible apply Follows.ite | split | extract_lets | with_reducible apply Follows.frame

theorem execSanitizeComplete_follows {s : State} : ∃ t, execSanitizeComplete s = .next t ∧ State.Follows s t := by
  unfold execSanitizeComplete
  refine ⟨_, rfl, ?_⟩
  have h := State.Follows.refl s
  repeat' first | with_reducible assumption | intro _ | with_reducible apply State.sanWipe_follows | with_reducible apply State.tellSanitize_follows | with_reducible apply State.noteRecord_follows | with_reducible apply foldl_follows | with_reducible apply Follows.ite | split | extract_lets | with_reducible apply Follows.frame

theorem State.carriedFormat_follows {s0 s : State} {a1} (h : State.Follows s0 s) : State.Follows s0 (State.carriedFormat s a1) := by
  unfold State.carriedFormat
  repeat' first | with_reducible assumption | intro _ | with_reducible apply State.noteRecord_follows | with_reducible apply foldl_follows | with_reducible apply Follows.ite | split | extract_lets | with_reducible apply Follows.frame

theorem State.retellSanitize_follows {s0 s : State} (h : State.Follows s0 s) : State.Follows s0 (State.retellSanitize s) := by
  unfold State.retellSanitize
  repeat' first | with_reducible assumption | intro _ | with_reducible apply State.tellSanitize_follows | with_reducible apply foldl_follows | with_reducible apply Follows.ite | split | extract_lets | with_reducible apply Follows.frame

theorem State.sanDieFailed_follows {s0 s : State} {a1} (h : State.Follows s0 s) : State.Follows s0 (State.sanDieFailed s a1) := by
  unfold State.sanDieFailed
  repeat' first | with_reducible assumption | intro _ | with_reducible apply State.dieOut_follows | with_reducible apply foldl_follows | with_reducible apply Follows.ite | split | extract_lets | with_reducible apply Follows.frame

theorem State.startFormat_follows {s0 s : State} {a1} (h : State.Follows s0 s) : State.Follows s0 (State.startFormat s a1) := by
  unfold State.startFormat
  repeat' first | with_reducible assumption | intro _ | with_reducible apply State.dropEpochs_follows | with_reducible apply State.openEntry_follows | with_reducible apply foldl_follows | with_reducible apply Follows.ite | split | extract_lets | with_reducible apply Follows.frame

theorem execFormatNvm_follows {s : State} {a1} : ∃ t, execFormatNvm a1 s = .next t ∧ State.Follows s t := by
  unfold execFormatNvm
  refine ⟨_, rfl, ?_⟩
  have h := State.Follows.refl s
  repeat' first | with_reducible assumption | intro _ | with_reducible apply State.admin_follows | with_reducible apply State.adminEnd_follows | with_reducible apply State.complete_follows | with_reducible apply State.noteRecord_follows | with_reducible apply State.startFormat_follows | with_reducible apply State.placeCfg_follows | with_reducible apply foldl_follows | with_reducible apply Follows.ite | split | extract_lets | with_reducible apply Follows.frame

theorem State.sanEndIo_follows {s0 s : State} (h : State.Follows s0 s) : State.Follows s0 (State.sanEndIo s) := by
  unfold State.sanEndIo
  repeat' first | with_reducible assumption | intro _ | with_reducible apply State.endIo_follows | with_reducible apply State.discardCmd_follows | with_reducible apply foldl_follows | with_reducible apply Follows.ite | split | extract_lets | with_reducible apply Follows.frame

theorem State.endFormat_follows {s0 s : State} {a1 a2} (h : State.Follows s0 s) : State.Follows s0 (State.endFormat s a1 a2) := by
  unfold State.endFormat
  repeat' first | with_reducible assumption | intro _ | with_reducible apply State.rekey_follows | with_reducible apply State.storeVol_follows | with_reducible apply State.noteRecord_follows | with_reducible apply State.placeCfg_follows | with_reducible apply State.queueGone_follows | with_reducible apply State.complete_follows | with_reducible apply foldl_follows | with_reducible apply Follows.ite | split | extract_lets | with_reducible apply Follows.frame

theorem execFormatComplete_follows {s : State} {a1} : ∃ t, execFormatComplete a1 s = .next t ∧ State.Follows s t := by
  unfold execFormatComplete
  refine ⟨_, rfl, ?_⟩
  have h := State.Follows.refl s
  repeat' first | with_reducible assumption | intro _ | with_reducible apply State.endFormat_follows | with_reducible apply State.startFormat_follows | with_reducible apply foldl_follows | with_reducible apply Follows.ite | split | extract_lets | with_reducible apply Follows.frame

theorem State.sanErases_follows {s0 s : State} (h : State.Follows s0 s) : State.Follows s0 (State.sanErases s) := by
  unfold State.sanErases
  repeat' first | with_reducible assumption | intro _ | with_reducible apply State.issue_follows | with_reducible apply foldl_follows | with_reducible apply Follows.ite | split | extract_lets | with_reducible apply Follows.frame

theorem State.sanStart_follows {s0 s : State} {a1 a2} (h : State.Follows s0 s) : State.Follows s0 (State.sanStart s a1 a2) := by
  unfold State.sanStart
  repeat' first | with_reducible assumption | intro _ | with_reducible apply State.sanEndIo_follows | with_reducible apply State.noteRecord_follows | with_reducible apply foldl_follows | with_reducible apply Follows.ite | split | extract_lets | with_reducible apply Follows.frame

theorem State.sanBegin_follows {s0 s : State} {a1 a2} (h : State.Follows s0 s) : State.Follows s0 (State.sanBegin s a1 a2) := by
  unfold State.sanBegin
  repeat' first | with_reducible assumption | intro _ | with_reducible apply State.sanStart_follows | with_reducible apply State.tellSanitize_follows | with_reducible apply State.sanErases_follows | with_reducible apply foldl_follows | with_reducible apply Follows.ite | split | extract_lets | with_reducible apply Follows.frame

theorem execSanitize_follows {s : State} {a1} : ∃ t, execSanitize a1 s = .next t ∧ State.Follows s t := by
  unfold execSanitize
  refine ⟨_, rfl, ?_⟩
  have h := State.Follows.refl s
  repeat' first | with_reducible assumption | intro _ | with_reducible apply State.admin_follows | with_reducible apply State.adminEnd_follows | with_reducible apply State.tellSanitize_follows | with_reducible apply State.sanBegin_follows | with_reducible apply foldl_follows | with_reducible apply Follows.ite | split | extract_lets | with_reducible apply Follows.frame

theorem execSanitizeProgress_follows {s : State} {a1} : ∃ t, execSanitizeProgress a1 s = .next t ∧ State.Follows s t := by
  unfold execSanitizeProgress
  refine ⟨_, rfl, ?_⟩
  have h := State.Follows.refl s
  repeat' first | with_reducible assumption | intro _ | with_reducible apply State.sanErases_follows | with_reducible apply State.sanDieFailed_follows | with_reducible apply State.noteRecord_follows | with_reducible apply foldl_follows | with_reducible apply Follows.ite | split | extract_lets | with_reducible apply Follows.frame

end Sys2Proof.Machine
end

