-- ==== Sys2Proof/Laws/Domains.lean ====
section
/-! SUPPORT. What each operation of Machine/Domains.lean can do: what follows from a state before it follows after it (Sys2Proof.Machine.State.Follows). -/
namespace Sys2Proof.Machine

theorem State.putDom_follows {s0 s : State} {a1} (h : State.Follows s0 s) : State.Follows s0 (State.putDom s a1) := by
  unfold State.putDom
  repeat' first | with_reducible assumption | intro _ | with_reducible apply foldl_follows | with_reducible apply Follows.ite | split | extract_lets | with_reducible apply Follows.frame

theorem State.dropDomain_follows {s0 s : State} {a1} (h : State.Follows s0 s) : State.Follows s0 (State.dropDomain s a1) := by
  unfold State.dropDomain
  repeat' first | with_reducible assumption | intro _ | with_reducible apply State.unindex_follows | with_reducible apply foldl_follows | with_reducible apply Follows.ite | split | extract_lets | with_reducible apply Follows.frame

theorem execCreateDedupDomain_follows {s : State} {a1 a2 a3} : ∃ t, execCreateDedupDomain a1 a2 a3 s = .next t ∧ State.Follows s t := by
  unfold execCreateDedupDomain
  refine ⟨_, rfl, ?_⟩
  have h := State.Follows.refl s
  repeat' first | with_reducible assumption | intro _ | with_reducible apply State.packet_follows | with_reducible apply PktRes.fail_follows | with_reducible apply State.generateSlot_follows | with_reducible apply State.cfgDone_follows | with_reducible apply State.placeCfg_follows | with_reducible apply State.putDom_follows | with_reducible exact PktRes.follows_waits | with_reducible apply PktRes.follows_done | with_reducible apply PktRes.follows_started | with_reducible apply PktRes.follows_startDone | with_reducible apply PktRes.follows_quiet | with_reducible apply foldl_follows | with_reducible apply Follows.ite | with_reducible apply PktRes.follows_ite | split | extract_lets | with_reducible apply Follows.frame

theorem State.removeDomain_follows {s0 s : State} {a1} (h : State.Follows s0 s) : State.Follows s0 (State.removeDomain s a1) := by
  unfold State.removeDomain
  repeat' first | with_reducible assumption | intro _ | with_reducible apply State.placeCfg_follows | with_reducible apply State.dropDomain_follows | with_reducible apply State.eraseSlot_follows | with_reducible apply foldl_follows | with_reducible apply Follows.ite | split | extract_lets | with_reducible apply Follows.frame

theorem execDeleteDedupDomain_follows {s : State} {a1 a2} : ∃ t, execDeleteDedupDomain a1 a2 s = .next t ∧ State.Follows s t := by
  unfold execDeleteDedupDomain
  refine ⟨_, rfl, ?_⟩
  have h := State.Follows.refl s
  repeat' first | with_reducible assumption | intro _ | with_reducible apply State.packet_follows | with_reducible apply PktRes.fail_follows | with_reducible apply State.cfgDone_follows | with_reducible apply State.removeDomain_follows | with_reducible exact PktRes.follows_waits | with_reducible apply PktRes.follows_done | with_reducible apply PktRes.follows_started | with_reducible apply PktRes.follows_startDone | with_reducible apply PktRes.follows_quiet | with_reducible apply foldl_follows | with_reducible apply Follows.ite | with_reducible apply PktRes.follows_ite | split | extract_lets | with_reducible apply Follows.frame

theorem execGetDedupDomain_follows {s : State} {a1 a2} : ∃ t, execGetDedupDomain a1 a2 s = .next t ∧ State.Follows s t := by
  unfold execGetDedupDomain
  refine ⟨_, rfl, ?_⟩
  have h := State.Follows.refl s
  repeat' first | with_reducible assumption | intro _ | with_reducible apply State.packet_follows | with_reducible apply PktRes.fail_follows | with_reducible exact PktRes.follows_waits | with_reducible apply PktRes.follows_done | with_reducible apply PktRes.follows_started | with_reducible apply PktRes.follows_startDone | with_reducible apply PktRes.follows_quiet | with_reducible apply foldl_follows | with_reducible apply Follows.ite | with_reducible apply PktRes.follows_ite | split | extract_lets | with_reducible apply Follows.frame

theorem execSetCodecGeneration_follows {s : State} {a1 a2} : ∃ t, execSetCodecGeneration a1 a2 s = .next t ∧ State.Follows s t := by
  unfold execSetCodecGeneration
  refine ⟨_, rfl, ?_⟩
  have h := State.Follows.refl s
  repeat' first | with_reducible assumption | intro _ | with_reducible apply State.packet_follows | with_reducible apply PktRes.fail_follows | with_reducible apply State.cfgDone_follows | with_reducible apply State.placeCfg_follows | with_reducible apply State.setGen_follows | with_reducible exact PktRes.follows_waits | with_reducible apply PktRes.follows_done | with_reducible apply PktRes.follows_started | with_reducible apply PktRes.follows_startDone | with_reducible apply PktRes.follows_quiet | with_reducible apply foldl_follows | with_reducible apply Follows.ite | with_reducible apply PktRes.follows_ite | split | extract_lets | with_reducible apply Follows.frame

theorem execSetVolumeDomain_follows {s : State} {a1 a2} : ∃ t, execSetVolumeDomain a1 a2 s = .next t ∧ State.Follows s t := by
  unfold execSetVolumeDomain
  refine ⟨_, rfl, ?_⟩
  have h := State.Follows.refl s
  repeat' first | with_reducible assumption | intro _ | with_reducible apply State.packet_follows | with_reducible apply PktRes.fail_follows | with_reducible apply State.cfgDone_follows | with_reducible apply State.storeVol_follows | with_reducible exact PktRes.follows_waits | with_reducible apply PktRes.follows_done | with_reducible apply PktRes.follows_started | with_reducible apply PktRes.follows_startDone | with_reducible apply PktRes.follows_quiet | with_reducible apply foldl_follows | with_reducible apply Follows.ite | with_reducible apply PktRes.follows_ite | split | extract_lets | with_reducible apply Follows.frame

end Sys2Proof.Machine
end

