-- ==== Sys2Proof/Laws/Shadow.lean ====
section
/-! SUPPORT. What each operation of Machine/Shadow.lean can do: what follows from a state before it follows after it (Sys2Proof.Machine.State.Follows). -/
namespace Sys2Proof.Machine

theorem State.nsChanged_follows {s0 s : State} (h : State.Follows s0 s) : State.Follows s0 (State.nsChanged s) := by
  unfold State.nsChanged
  repeat' first | with_reducible assumption | intro _ | with_reducible apply State.postAenAll_follows | with_reducible apply foldl_follows | with_reducible apply Follows.ite | split | extract_lets | with_reducible apply Follows.frame

theorem State.anaChanged_follows {s0 s : State} (h : State.Follows s0 s) : State.Follows s0 (State.anaChanged s) := by
  unfold State.anaChanged
  repeat' first | with_reducible assumption | intro _ | with_reducible apply State.postAenAll_follows | with_reducible apply foldl_follows | with_reducible apply Follows.ite | split | extract_lets | with_reducible apply Follows.frame

theorem State.shadowRow_follows {s0 s : State} {a1 a2 a3 a4 a5} (h : State.Follows s0 s) : State.Follows s0 (State.shadowRow s a1 a2 a3 a4 a5) := by
  unfold State.shadowRow
  repeat' first | with_reducible assumption | intro _ | with_reducible apply State.putBlk_follows | with_reducible apply foldl_follows | with_reducible apply Follows.ite | split | extract_lets | with_reducible apply Follows.frame

theorem State.shadowNew_follows {s0 s : State} {a1 a2 a3 a4 a5 a6} (h : State.Follows s0 s) : State.Follows s0 (State.shadowNew s a1 a2 a3 a4 a5 a6) := by
  unfold State.shadowNew
  repeat' first | with_reducible assumption | intro _ | with_reducible apply State.putGrain_follows | with_reducible apply State.insertIdx_follows | with_reducible apply State.putBlk_follows | with_reducible apply foldl_follows | with_reducible apply Follows.ite | split | extract_lets | with_reducible apply Follows.frame

theorem State.shadowItem_follows {s0 s : State} {a1 a2 a3 a4 a5} (h : State.Follows s0 s) : State.Follows s0 (State.shadowItem s a1 a2 a3 a4 a5) := by
  unfold State.shadowItem
  repeat' first | with_reducible assumption | intro _ | with_reducible apply State.mapSet_follows | with_reducible apply State.addRef_follows | with_reducible apply State.shadowNew_follows | with_reducible apply foldl_follows | with_reducible apply Follows.ite | split | extract_lets | with_reducible apply Follows.frame

theorem State.shadowCfg_follows {s0 s : State} {a1 a2 a3} (h : State.Follows s0 s) : State.Follows s0 (State.shadowCfg s a1 a2 a3) := by
  unfold State.shadowCfg
  repeat' first | with_reducible assumption | intro _ | with_reducible apply State.setGen_follows | with_reducible apply State.mapAct_follows | with_reducible apply foldl_follows | with_reducible apply Follows.ite | split | extract_lets | with_reducible apply Follows.frame

theorem State.carriedVolume_follows {s0 s : State} {a1 a2 a3} (h : State.Follows s0 s) : State.Follows s0 (State.carriedVolume s a1 a2 a3) := by
  unfold State.carriedVolume
  repeat' first | with_reducible assumption | intro _ | with_reducible apply State.notePast_follows | with_reducible apply State.putVol_follows | with_reducible apply State.putMap_follows | with_reducible apply State.nsChanged_follows | with_reducible apply foldl_follows | with_reducible apply Follows.ite | split | extract_lets | with_reducible apply Follows.frame

theorem State.firstGen_follows {s0 s : State} {a1} (h : State.Follows s0 s) : State.Follows s0 (State.firstGen s a1) := by
  unfold State.firstGen
  repeat' first | with_reducible assumption | intro _ | with_reducible apply State.putJournal_follows | with_reducible apply foldl_follows | with_reducible apply Follows.ite | split | extract_lets | with_reducible apply Follows.frame

theorem State.applyCfg_follows {s0 s : State} {a1 a2 a3} (h : State.Follows s0 s) : State.Follows s0 (State.applyCfg s a1 a2 a3) := by
  unfold State.applyCfg
  repeat' first | with_reducible assumption | intro _ | with_reducible apply State.carriedVolume_follows | with_reducible apply State.putDom_follows | with_reducible apply State.dropDomain_follows | with_reducible apply State.putGroup_follows | with_reducible apply State.carriedInvoc_follows | with_reducible apply State.carriedPage_follows | with_reducible apply State.carriedPageGone_follows | with_reducible apply State.carriedSlot_follows | with_reducible apply State.carriedSlotGone_follows | with_reducible apply State.peerCut_follows | with_reducible apply State.wr_follows | with_reducible apply State.setGen_follows | with_reducible apply State.firstGen_follows | with_reducible apply State.putSession_follows | with_reducible apply State.carriedFormat_follows | with_reducible apply foldl_follows | with_reducible apply Follows.ite | split | extract_lets | with_reducible apply Follows.frame

theorem State.shadowCkpt_follows {s0 s : State} {a1} (h : State.Follows s0 s) : State.Follows s0 (State.shadowCkpt s a1) := by
  unfold State.shadowCkpt
  repeat' first | with_reducible assumption | intro _ | with_reducible apply foldl_follows | with_reducible apply Follows.ite | split | extract_lets | with_reducible apply Follows.frame

theorem State.shadowHarvest_follows {s0 s : State} {a1} (h : State.Follows s0 s) : State.Follows s0 (State.shadowHarvest s a1) := by
  unfold State.shadowHarvest
  repeat' first | with_reducible assumption | intro _ | with_reducible apply State.putBlk_follows | with_reducible apply State.putGrain_follows | with_reducible apply foldl_follows | with_reducible apply Follows.ite | split | extract_lets | with_reducible apply Follows.frame

theorem State.shadowApply_follows {s0 s : State} {a1 a2} (h : State.Follows s0 s) : State.Follows s0 (State.shadowApply s a1 a2) := by
  unfold State.shadowApply
  repeat' first | with_reducible assumption | intro _ | with_reducible apply State.shadowItem_follows | with_reducible apply State.openBlk_follows | with_reducible apply State.shadowCfg_follows | with_reducible apply State.applyCfg_follows | with_reducible apply State.applyUnit_follows | with_reducible apply State.shadowCkpt_follows | with_reducible apply State.shadowRow_follows | with_reducible apply State.shadowHarvest_follows | with_reducible apply foldl_follows | with_reducible apply Follows.ite | split | extract_lets | with_reducible apply Follows.frame

theorem State.shadowTake_follows {s0 s : State} {a1 a2} (h : State.Follows s0 s) : State.Follows s0 (State.shadowTake s a1 a2) := by
  unfold State.shadowTake
  repeat' first | with_reducible assumption | intro _ | with_reducible apply State.shadowApply_follows | with_reducible apply State.putJournal_follows | with_reducible apply foldl_follows | with_reducible apply Follows.ite | split | extract_lets | with_reducible apply Follows.frame

theorem State.shadowRun_follows {s0 s : State} {a1 a2 a3} (h : State.Follows s0 s) : State.Follows s0 (State.shadowRun s a1 a2 a3) := by
  induction a3 generalizing s with
  | zero =>
    unfold State.shadowRun
    repeat' first | with_reducible assumption | with_reducible apply ih | intro _ | with_reducible apply State.shadowTake_follows | with_reducible apply foldl_follows | with_reducible apply Follows.ite | split | extract_lets | with_reducible apply Follows.frame
  | succ n ih =>
    unfold State.shadowRun
    repeat' first | with_reducible assumption | with_reducible apply ih | intro _ | with_reducible apply State.shadowTake_follows | with_reducible apply foldl_follows | with_reducible apply Follows.ite | split | extract_lets | with_reducible apply Follows.frame

theorem State.journalRow_follows {s0 s : State} {a1 a2} (h : State.Follows s0 s) : State.Follows s0 (State.journalRow s a1 a2) := by
  unfold State.journalRow
  repeat' first | with_reducible assumption | intro _ | with_reducible apply State.shadowRow_follows | with_reducible apply State.putJournal_follows | with_reducible apply State.shadowRun_follows | with_reducible apply foldl_follows | with_reducible apply Follows.ite | split | extract_lets | with_reducible apply Follows.frame

theorem State.lateTable_follows {s0 s : State} {a1} (h : State.Follows s0 s) : State.Follows s0 (State.lateTable s a1) := by
  unfold State.lateTable
  repeat' first | with_reducible assumption | intro _ | with_reducible apply State.applyCfg_follows | with_reducible apply State.applyUnit_follows | with_reducible apply foldl_follows | with_reducible apply Follows.ite | split | extract_lets | with_reducible apply Follows.frame

theorem State.takeLate_follows {s0 s : State} {a1 a2} (h : State.Follows s0 s) : State.Follows s0 (State.takeLate s a1 a2) := by
  unfold State.takeLate
  repeat' first | with_reducible assumption | intro _ | with_reducible apply State.lateTable_follows | with_reducible apply State.setGen_follows | with_reducible apply State.placeActAt_follows | with_reducible apply foldl_follows | with_reducible apply Follows.ite | split | extract_lets | with_reducible apply Follows.frame

theorem State.anaSince_follows {s0 s : State} {a1} (h : State.Follows s0 s) : State.Follows s0 (State.anaSince s a1) := by
  unfold State.anaSince
  repeat' first | with_reducible assumption | intro _ | with_reducible apply State.anaChanged_follows | with_reducible apply foldl_follows | with_reducible apply Follows.ite | split | extract_lets | with_reducible apply Follows.frame

theorem State.shadowUpTo_follows {s0 s : State} {a1 a2 a3} (h : State.Follows s0 s) : State.Follows s0 (State.shadowUpTo s a1 a2 a3) := by
  induction a3 generalizing s with
  | zero =>
    unfold State.shadowUpTo
    repeat' first | with_reducible assumption | with_reducible apply ih | intro _ | with_reducible apply State.shadowTake_follows | with_reducible apply foldl_follows | with_reducible apply Follows.ite | split | extract_lets | (dsimp +zetaDelta only; split) | with_reducible apply Follows.frame
  | succ n ih =>
    unfold State.shadowUpTo
    repeat' first | with_reducible assumption | with_reducible apply ih | intro _ | with_reducible apply State.shadowTake_follows | with_reducible apply foldl_follows | with_reducible apply Follows.ite | split | extract_lets | (dsimp +zetaDelta only; split) | with_reducible apply Follows.frame

theorem State.mirrorIn_follows {s0 s : State} {a1} (h : State.Follows s0 s) : State.Follows s0 (State.mirrorIn s a1) := by
  unfold State.mirrorIn
  repeat' first | with_reducible assumption | intro _ | with_reducible apply State.shadowUpTo_follows | with_reducible apply State.putJournal_follows | with_reducible apply foldl_follows | with_reducible apply Follows.ite | split | extract_lets | with_reducible apply Follows.frame

theorem execMirrorRx_follows {s : State} {a1 a2} : ∃ t, execMirrorRx a1 a2 s = .next t ∧ State.Follows s t := by
  unfold execMirrorRx
  refine ⟨_, rfl, ?_⟩
  have h := State.Follows.refl s
  repeat' first | with_reducible assumption | intro _ | with_reducible apply State.stageCheck_follows | with_reducible apply State.onPtl_follows | with_reducible apply State.mirrorIn_follows | with_reducible apply foldl_follows | with_reducible apply Follows.ite | split | extract_lets | with_reducible apply Follows.frame

end Sys2Proof.Machine
end

