-- ==== Sys2Proof/Laws/Takeover.lean ====
section
/-! SUPPORT. What each operation of Machine/Takeover.lean can do: what follows from a state before it follows after it (Sys2Proof.Machine.State.Follows). -/
namespace Sys2Proof.Machine

theorem State.sendLeave_follows {s0 s : State} {a1} (h : State.Follows s0 s) : State.Follows s0 (State.sendLeave s a1) := by
  unfold State.sendLeave
  repeat' first | with_reducible assumption | intro _ | with_reducible apply State.ptlRaw_follows | with_reducible apply foldl_follows | with_reducible apply Follows.ite | split | extract_lets | with_reducible apply Follows.frame

theorem State.sharesBack_follows {s0 s : State} (h : State.Follows s0 s) : State.Follows s0 (State.sharesBack s) := by
  unfold State.sharesBack
  repeat' first | with_reducible assumption | intro _ | with_reducible apply State.setFld_follows | with_reducible apply foldl_follows | with_reducible apply Follows.ite | split | extract_lets | with_reducible apply Follows.frame

theorem State.sendPreempt_follows {s0 s : State} {a1} (h : State.Follows s0 s) : State.Follows s0 (State.sendPreempt s a1) := by
  unfold State.sendPreempt
  repeat' first | with_reducible assumption | intro _ | with_reducible apply State.issue_follows | with_reducible apply foldl_follows | with_reducible apply Follows.ite | split | extract_lets | with_reducible apply Follows.frame

theorem State.elect_follows {s0 s : State} {a1} (h : State.Follows s0 s) : State.Follows s0 (State.elect s a1) := by
  unfold State.elect
  repeat' first | with_reducible assumption | intro _ | with_reducible apply State.sendPreempt_follows | with_reducible apply foldl_follows | with_reducible apply Follows.ite | split | extract_lets | with_reducible apply Follows.frame

theorem State.dropMove_follows {s0 s : State} {a1} (h : State.Follows s0 s) : State.Follows s0 (State.dropMove s a1) := by
  unfold State.dropMove
  repeat' first | with_reducible assumption | intro _ | with_reducible apply foldl_follows | with_reducible apply Follows.ite | split | extract_lets | with_reducible apply Follows.frame

theorem State.adoptGroup_follows {s0 s : State} {a1} (h : State.Follows s0 s) : State.Follows s0 (State.adoptGroup s a1) := by
  unfold State.adoptGroup
  repeat' first | with_reducible assumption | intro _ | with_reducible apply State.dropMove_follows | with_reducible apply State.putGroup_follows | with_reducible apply State.placeRec_follows | with_reducible apply State.control_follows | with_reducible apply State.armPeriods_follows | with_reducible apply State.anaChanged_follows | with_reducible apply State.bump_follows | with_reducible apply foldl_follows | with_reducible apply Follows.ite | split | extract_lets | with_reducible apply Follows.frame

theorem State.endMoves_follows {s0 s : State} {a1} (h : State.Follows s0 s) : State.Follows s0 (State.endMoves s a1) := by
  unfold State.endMoves
  repeat' first | with_reducible assumption | intro _ | with_reducible apply State.putGroup_follows | with_reducible apply State.finish_follows | with_reducible apply foldl_follows | with_reducible apply Follows.ite | split | extract_lets | with_reducible apply Follows.frame

theorem State.enterFenced_follows {s0 s : State} (h : State.Follows s0 s) : State.Follows s0 (State.enterFenced s) := by
  unfold State.enterFenced
  repeat' first | with_reducible assumption | intro _ | with_reducible apply State.transmit_follows | with_reducible apply State.endIo_follows | with_reducible apply State.discardCmd_follows | with_reducible apply State.alarm_follows | with_reducible apply State.bump_follows | with_reducible apply State.anaChanged_follows | with_reducible apply State.endCfgWaits_follows | with_reducible apply State.endMoves_follows | with_reducible apply foldl_follows | with_reducible apply Follows.ite | split | extract_lets | with_reducible apply Follows.frame

theorem State.adoptEntry_follows {s0 s : State} {a1 a2} (h : State.Follows s0 s) : State.Follows s0 (State.adoptEntry s a1 a2) := by
  unfold State.adoptEntry
  repeat' first | with_reducible assumption | intro _ | with_reducible apply foldl_follows | with_reducible apply Follows.ite | split | extract_lets | (dsimp +zetaDelta only; split) | with_reducible apply Follows.frame

theorem State.resumeJournal_follows {s0 s : State} {a1} (h : State.Follows s0 s) : State.Follows s0 (State.resumeJournal s a1) := by
  unfold State.resumeJournal
  repeat' first | with_reducible assumption | intro _ | with_reducible apply foldl_follows | with_reducible apply Follows.ite | split | extract_lets | with_reducible apply Follows.frame

theorem State.adoptJournal_follows {s0 s : State} {a1} (h : State.Follows s0 s) : State.Follows s0 (State.adoptJournal s a1) := by
  unfold State.adoptJournal
  repeat' first | with_reducible assumption | intro _ | with_reducible apply State.adoptEntry_follows | with_reducible apply State.takeLate_follows | with_reducible apply State.resumeJournal_follows | with_reducible apply State.putJournal_follows | with_reducible apply State.placeRec_follows | with_reducible apply foldl_follows | with_reducible apply Follows.ite | split | extract_lets | with_reducible apply Follows.frame

theorem State.dropHarvests_follows {s0 s : State} {a1} (h : State.Follows s0 s) : State.Follows s0 (State.dropHarvests s a1) := by
  unfold State.dropHarvests
  repeat' first | with_reducible assumption | intro _ | with_reducible apply State.bumpBy_follows | with_reducible apply foldl_follows | with_reducible apply Follows.ite | split | extract_lets | with_reducible apply Follows.frame

theorem State.takeGroups_follows {s0 s : State} (h : State.Follows s0 s) : State.Follows s0 (State.takeGroups s) := by
  unfold State.takeGroups
  repeat' first | with_reducible assumption | intro _ | with_reducible apply State.putGroup_follows | with_reducible apply State.anaChanged_follows | with_reducible apply foldl_follows | with_reducible apply Follows.ite | split | extract_lets | with_reducible apply Follows.frame

theorem State.takeover_follows {s0 s : State} {a1} (h : State.Follows s0 s) : State.Follows s0 (State.takeover s a1) := by
  unfold State.takeover
  repeat' first | with_reducible assumption | intro _ | with_reducible apply State.setFld_follows | with_reducible apply State.journalRow_follows | with_reducible apply State.adoptJournal_follows | with_reducible apply State.dropHarvests_follows | with_reducible apply State.takeGroups_follows | with_reducible apply State.cutCheck_follows | with_reducible apply State.armPeriods_follows | with_reducible apply State.grant_follows | with_reducible apply State.replPump_follows | with_reducible apply State.checkEnts_follows | with_reducible apply State.releaseDurable_follows | with_reducible apply foldl_follows | with_reducible apply Follows.ite | split | extract_lets | with_reducible apply Follows.frame

theorem State.confirmCheck_follows {s0 s : State} {a1} (h : State.Follows s0 s) : State.Follows s0 (State.confirmCheck s a1) := by
  unfold State.confirmCheck
  repeat' first | with_reducible assumption | intro _ | with_reducible apply State.takeover_follows | with_reducible apply foldl_follows | with_reducible apply Follows.ite | split | extract_lets | with_reducible apply Follows.frame

theorem State.wonLead_follows {s0 s : State} {a1} (h : State.Follows s0 s) : State.Follows s0 (State.wonLead s a1) := by
  unfold State.wonLead
  repeat' first | with_reducible assumption | intro _ | with_reducible apply State.liftGate_follows | with_reducible apply State.bump_follows | with_reducible apply State.confirmCheck_follows | with_reducible apply State.sendPreempt_follows | with_reducible apply foldl_follows | with_reducible apply Follows.ite | split | extract_lets | with_reducible apply Follows.frame

theorem State.askRegister_follows {s0 s : State} {a1} (h : State.Follows s0 s) : State.Follows s0 (State.askRegister s a1) := by
  unfold State.askRegister
  repeat' first | with_reducible assumption | intro _ | with_reducible apply State.issue_follows | with_reducible apply foldl_follows | with_reducible apply Follows.ite | split | extract_lets | with_reducible apply Follows.frame

theorem State.startRemirror_follows {s0 s : State} (h : State.Follows s0 s) : State.Follows s0 (State.startRemirror s) := by
  unfold State.startRemirror
  repeat' first | with_reducible assumption | intro _ | with_reducible apply State.mirrorEnt_follows | with_reducible apply foldl_follows | with_reducible apply Follows.ite | split | extract_lets | with_reducible apply Follows.frame

theorem State.enterPaired_follows {s0 s : State} (h : State.Follows s0 s) : State.Follows s0 (State.enterPaired s) := by
  unfold State.enterPaired
  repeat' first | with_reducible assumption | intro _ | with_reducible apply State.retellSanitize_follows | with_reducible apply State.anaSince_follows | with_reducible apply State.leadCheck_follows | with_reducible apply State.startRemirror_follows | with_reducible apply foldl_follows | with_reducible apply Follows.ite | split | extract_lets | with_reducible apply Follows.frame

theorem State.registerDone_follows {s0 s : State} (h : State.Follows s0 s) : State.Follows s0 (State.registerDone s) := by
  unfold State.registerDone
  repeat' first | with_reducible assumption | intro _ | with_reducible apply State.enterPaired_follows | with_reducible apply State.elect_follows | with_reducible apply foldl_follows | with_reducible apply Follows.ite | split | extract_lets | with_reducible apply Follows.frame

theorem State.reservationSeen_follows {s0 s : State} {a1 a2} (h : State.Follows s0 s) : State.Follows s0 (State.reservationSeen s a1 a2) := by
  unfold State.reservationSeen
  repeat' first | with_reducible assumption | intro _ | with_reducible apply State.enterFenced_follows | with_reducible apply State.wonLead_follows | with_reducible apply State.confirmCheck_follows | with_reducible apply State.sendPreempt_follows | with_reducible apply State.askRegister_follows | with_reducible apply State.registerDone_follows | with_reducible apply foldl_follows | with_reducible apply Follows.ite | split | extract_lets | with_reducible apply Follows.frame

theorem State.preemptRefused_follows {s0 s : State} {a1} (h : State.Follows s0 s) : State.Follows s0 (State.preemptRefused s a1) := by
  unfold State.preemptRefused
  repeat' first | with_reducible assumption | intro _ | with_reducible apply State.askReserve_follows | with_reducible apply foldl_follows | with_reducible apply Follows.ite | split | extract_lets | with_reducible apply Follows.frame

theorem State.registerAll_follows {s0 s : State} (h : State.Follows s0 s) : State.Follows s0 (State.registerAll s) := by
  unfold State.registerAll
  repeat' first | with_reducible assumption | intro _ | with_reducible apply State.registerDone_follows | with_reducible apply State.askRegister_follows | with_reducible apply foldl_follows | with_reducible apply Follows.ite | split | extract_lets | with_reducible apply Follows.frame

theorem State.peerGroupsChange_follows {s0 s : State} (h : State.Follows s0 s) : State.Follows s0 (State.peerGroupsChange s) := by
  unfold State.peerGroupsChange
  repeat' first | with_reducible assumption | intro _ | with_reducible apply State.putGroup_follows | with_reducible apply foldl_follows | with_reducible apply Follows.ite | split | extract_lets | with_reducible apply Follows.frame

theorem State.declareLost_follows {s0 s : State} (h : State.Follows s0 s) : State.Follows s0 (State.declareLost s) := by
  unfold State.declareLost
  repeat' first | with_reducible assumption | intro _ | with_reducible apply State.alarm_follows | with_reducible apply State.endCfgWaits_follows | with_reducible apply State.endMoves_follows | with_reducible apply State.peerGroupsChange_follows | with_reducible apply State.afterUnits_follows | with_reducible apply State.loseProxied_follows | with_reducible apply State.checkEnts_follows | with_reducible apply State.anaChanged_follows | with_reducible apply State.elect_follows | with_reducible apply foldl_follows | with_reducible apply Follows.ite | split | extract_lets | with_reducible apply Follows.frame

theorem State.setChange_follows {s0 s : State} {a1 a2} (h : State.Follows s0 s) : State.Follows s0 (State.setChange s a1 a2) := by
  unfold State.setChange
  repeat' first | with_reducible assumption | intro _ | with_reducible apply State.anaChanged_follows | with_reducible apply State.putGroup_follows | with_reducible apply foldl_follows | with_reducible apply Follows.ite | split | extract_lets | with_reducible apply Follows.frame

theorem State.putMove_follows {s0 s : State} {a1} (h : State.Follows s0 s) : State.Follows s0 (State.putMove s a1) := by
  unfold State.putMove
  repeat' first | with_reducible assumption | intro _ | with_reducible apply foldl_follows | with_reducible apply Follows.ite | split | extract_lets | with_reducible apply Follows.frame

theorem State.startMove_follows {s0 s : State} {a1 a2 a3} (h : State.Follows s0 s) : State.Follows s0 (State.startMove s a1 a2 a3) := by
  unfold State.startMove
  repeat' first | with_reducible assumption | intro _ | with_reducible apply State.control_follows | with_reducible apply State.setChange_follows | with_reducible apply State.putMove_follows | with_reducible apply foldl_follows | with_reducible apply Follows.ite | split | extract_lets | with_reducible apply Follows.frame

theorem State.leave_follows {s0 s : State} (h : State.Follows s0 s) : State.Follows s0 (State.leave s) := by
  unfold State.leave
  repeat' first | with_reducible assumption | intro _ | with_reducible apply State.sendLeave_follows | with_reducible apply State.finish_follows | with_reducible apply foldl_follows | with_reducible apply Follows.ite | split | extract_lets | (dsimp +zetaDelta only; split) | with_reducible apply Follows.frame

theorem State.autoBalance_follows {s0 s : State} (h : State.Follows s0 s) : State.Follows s0 (State.autoBalance s) := by
  unfold State.autoBalance
  repeat' first | with_reducible assumption | intro _ | with_reducible apply State.startMove_follows | with_reducible apply foldl_follows | with_reducible apply Follows.ite | split | extract_lets | with_reducible apply Follows.frame

theorem State.rejoinEnd_follows {s0 s : State} (h : State.Follows s0 s) : State.Follows s0 (State.rejoinEnd s) := by
  unfold State.rejoinEnd
  repeat' first | with_reducible assumption | intro _ | with_reducible apply State.sharesBack_follows | with_reducible apply State.autoBalance_follows | with_reducible apply State.control_follows | with_reducible apply foldl_follows | with_reducible apply Follows.ite | split | extract_lets | with_reducible apply Follows.frame

theorem State.dropPool_follows {s0 s : State} (h : State.Follows s0 s) : State.Follows s0 (State.dropPool s) := by
  unfold State.dropPool
  repeat' first | with_reducible assumption | intro _ | with_reducible apply foldl_follows | with_reducible apply Follows.ite | split | extract_lets | with_reducible apply Follows.frame

theorem State.startRejoin_follows {s0 s : State} (h : State.Follows s0 s) : State.Follows s0 (State.startRejoin s) := by
  unfold State.startRejoin
  repeat' first | with_reducible assumption | intro _ | with_reducible apply State.anaSince_follows | with_reducible apply State.dropPool_follows | with_reducible apply foldl_follows | with_reducible apply Follows.ite | split | extract_lets | with_reducible apply Follows.frame

theorem State.rejoinCheck_follows {s0 s : State} (h : State.Follows s0 s) : State.Follows s0 (State.rejoinCheck s) := by
  unfold State.rejoinCheck
  repeat' first | with_reducible assumption | intro _ | with_reducible apply State.startRejoin_follows | with_reducible apply foldl_follows | with_reducible apply Follows.ite | split | extract_lets | with_reducible apply Follows.frame

theorem State.adoptCheck_follows {s0 s : State} (h : State.Follows s0 s) : State.Follows s0 (State.adoptCheck s) := by
  unfold State.adoptCheck
  repeat' first | with_reducible assumption | intro _ | with_reducible apply State.adoptGroup_follows | with_reducible apply foldl_follows | with_reducible apply Follows.ite | split | extract_lets | with_reducible apply Follows.frame

theorem State.moveDone_follows {s0 s : State} {a1} (h : State.Follows s0 s) : State.Follows s0 (State.moveDone s a1) := by
  unfold State.moveDone
  repeat' first | with_reducible assumption | intro _ | with_reducible apply State.bump_follows | with_reducible apply State.setChange_follows | with_reducible apply State.dropMove_follows | with_reducible apply State.finish_follows | with_reducible apply State.leave_follows | with_reducible apply State.rejoinEnd_follows | with_reducible apply State.autoBalance_follows | with_reducible apply foldl_follows | with_reducible apply Follows.ite | split | extract_lets | with_reducible apply Follows.frame

theorem State.sendKey_follows {s0 s : State} (h : State.Follows s0 s) : State.Follows s0 (State.sendKey s) := by
  unfold State.sendKey
  repeat' first | with_reducible assumption | intro _ | with_reducible apply State.control_follows | with_reducible apply foldl_follows | with_reducible apply Follows.ite | split | extract_lets | with_reducible apply Follows.frame

theorem State.moveRecord_follows {s0 s : State} {a1} (h : State.Follows s0 s) : State.Follows s0 (State.moveRecord s a1) := by
  unfold State.moveRecord
  repeat' first | with_reducible assumption | intro _ | with_reducible apply State.endIo_follows | with_reducible apply State.discardCmd_follows | with_reducible apply State.putGroup_follows | with_reducible apply State.placeRec_follows | with_reducible apply State.seal_follows | with_reducible apply State.control_follows | with_reducible apply State.putMove_follows | with_reducible apply foldl_follows | with_reducible apply Follows.ite | split | extract_lets | with_reducible apply Follows.frame

theorem State.handBack_follows {s0 s : State} (h : State.Follows s0 s) : State.Follows s0 (State.handBack s) := by
  unfold State.handBack
  repeat' first | with_reducible assumption | intro _ | with_reducible apply State.rejoinEnd_follows | with_reducible apply State.startMove_follows | with_reducible apply foldl_follows | with_reducible apply Follows.ite | split | extract_lets | with_reducible apply Follows.frame

end Sys2Proof.Machine
end

