-- ==== Sys2Proof/Laws/Engines.lean ====
section
/-! SUPPORT. What each operation of Machine/Engines.lean can do: what follows from a state before it follows after it (Sys2Proof.Machine.State.Follows). -/
namespace Sys2Proof.Machine

theorem State.engineOut_follows {s0 s : State} {a1} (h : State.Follows s0 s) : State.Follows s0 (State.engineOut s a1) := by
  unfold State.engineOut
  repeat' first | with_reducible assumption | intro _ | with_reducible apply State.setUnitState_follows | with_reducible apply foldl_follows | with_reducible apply Follows.ite | split | extract_lets | with_reducible apply Follows.frame

theorem State.countEngine_follows {s0 s : State} (h : State.Follows s0 s) : State.Follows s0 (State.countEngine s) := by
  unfold State.countEngine
  repeat' first | with_reducible assumption | intro _ | with_reducible apply foldl_follows | with_reducible apply Follows.ite | split | extract_lets | with_reducible apply Follows.frame

theorem State.moveVolumes_follows {s0 s : State} (h : State.Follows s0 s) : State.Follows s0 (State.moveVolumes s) := by
  unfold State.moveVolumes
  repeat' first | with_reducible assumption | intro _ | with_reducible apply State.startMove_follows | with_reducible apply foldl_follows | with_reducible apply Follows.ite | split | extract_lets | with_reducible apply Follows.frame

theorem State.reissueJob_follows {s0 s : State} {a1 a2} (h : State.Follows s0 s) : State.Follows s0 (State.reissueJob s a1 a2) := by
  unfold State.reissueJob
  repeat' first | with_reducible assumption | intro _ | with_reducible apply State.fillEngine_follows | with_reducible apply State.putEngJob_follows | with_reducible apply foldl_follows | with_reducible apply Follows.ite | split | extract_lets | with_reducible apply Follows.frame

theorem execEngineCoreFault_follows {s : State} {a1 a2} : ∃ t, execEngineCoreFault a1 a2 s = .next t ∧ State.Follows s t := by
  unfold execEngineCoreFault
  refine ⟨_, rfl, ?_⟩
  have h := State.Follows.refl s
  repeat' first | with_reducible assumption | intro _ | with_reducible apply State.engineOut_follows | with_reducible apply State.event_follows | with_reducible apply State.countEngine_follows | with_reducible apply State.moveVolumes_follows | with_reducible apply State.reissueJob_follows | with_reducible apply foldl_follows | with_reducible apply Follows.ite | split | extract_lets | with_reducible apply Follows.frame

theorem State.drainJobDone_follows {s0 s : State} {a1 a2 a3} (h : State.Follows s0 s) : State.Follows s0 (State.drainJobDone s a1 a2 a3) := by
  unfold State.drainJobDone
  repeat' first | with_reducible assumption | intro _ | with_reducible apply State.compressed_follows | with_reducible apply State.enciphered_follows | with_reducible apply State.fingerprinted_follows | with_reducible apply State.putDRec_follows | with_reducible apply State.pump_follows | with_reducible apply foldl_follows | with_reducible apply Follows.ite | split | extract_lets | with_reducible apply Follows.frame

theorem State.readJobDone_follows {s0 s : State} {a1 a2} (h : State.Follows s0 s) : State.Follows s0 (State.readJobDone s a1 a2) := by
  unfold State.readJobDone
  repeat' first | with_reducible assumption | intro _ | with_reducible apply State.replFrame_follows | with_reducible apply State.startJob_follows | with_reducible apply State.bump_follows | with_reducible apply State.readDecoded_follows | with_reducible apply foldl_follows | with_reducible apply Follows.ite | split | extract_lets | with_reducible apply Follows.frame

theorem State.jobDone_follows {s0 s : State} {a1} (h : State.Follows s0 s) : State.Follows s0 (State.jobDone s a1) := by
  unfold State.jobDone
  repeat' first | with_reducible assumption | intro _ | with_reducible apply State.fillEngine_follows | with_reducible apply State.dropCtx_follows | with_reducible apply State.drainJobDone_follows | with_reducible apply State.readJobDone_follows | with_reducible apply State.offDone_follows | with_reducible apply foldl_follows | with_reducible apply Follows.ite | split | extract_lets | with_reducible apply Follows.frame

theorem State.nextSeg_follows {s0 s : State} {a1} (h : State.Follows s0 s) : State.Follows s0 (State.nextSeg s a1) := by
  unfold State.nextSeg
  repeat' first | with_reducible assumption | intro _ | with_reducible apply State.fillEngine_follows | with_reducible apply State.goErase_follows | with_reducible apply foldl_follows | with_reducible apply Follows.ite | split | extract_lets | with_reducible apply Follows.frame

theorem State.countSeg_follows {s0 s : State} {a1} (h : State.Follows s0 s) : State.Follows s0 (State.countSeg s a1) := by
  unfold State.countSeg
  repeat' first | with_reducible assumption | intro _ | with_reducible apply State.bumpBy_follows | with_reducible apply State.bump_follows | with_reducible apply foldl_follows | with_reducible apply Follows.ite | split | extract_lets | with_reducible apply Follows.frame

theorem execEngineSegmentDone_follows {s : State} {a1} : ∃ t, execEngineSegmentDone a1 s = .next t ∧ State.Follows s t := by
  unfold execEngineSegmentDone
  refine ⟨_, rfl, ?_⟩
  have h := State.Follows.refl s
  repeat' first | with_reducible assumption | intro _ | with_reducible apply State.countSeg_follows | with_reducible apply State.nextSeg_follows | with_reducible apply State.replPump_follows | with_reducible apply State.sweepReads_follows | with_reducible apply State.goErase_follows | with_reducible apply State.jobDone_follows | with_reducible apply foldl_follows | with_reducible apply Follows.ite | split | extract_lets | with_reducible apply Follows.frame

theorem execEngineJobWatchdog_follows {s : State} {a1} : ∃ t, execEngineJobWatchdog a1 s = .next t ∧ State.Follows s t := by
  unfold execEngineJobWatchdog
  refine ⟨_, rfl, ?_⟩
  have h := State.Follows.refl s
  repeat' first | with_reducible assumption | intro _ | with_reducible apply State.reissueJob_follows | with_reducible apply State.countEngine_follows | with_reducible apply foldl_follows | with_reducible apply Follows.ite | split | extract_lets | with_reducible apply Follows.frame

end Sys2Proof.Machine
end

