-- ==== Sys2Proof/Laws/Mem.lean ====
section
/-! SUPPORT. What each operation of Machine/Mem.lean can do: what follows from a state before it follows after it (Sys2Proof.Machine.State.Follows). -/
namespace Sys2Proof.Machine

theorem State.changedHit_follows {s0 s : State} (h : State.Follows s0 s) : State.Follows s0 (State.changedHit s) := by
  unfold State.changedHit
  repeat' first | with_reducible assumption | intro _ | with_reducible apply State.askReset_follows | with_reducible apply State.sendLeave_follows | with_reducible apply State.bump_follows | with_reducible apply foldl_follows | with_reducible apply Follows.ite | split | extract_lets | with_reducible apply Follows.frame

theorem State.loseBrine_follows {s0 s : State} {a1 a2} (h : State.Follows s0 s) : State.Follows s0 (State.loseBrine s a1 a2) := by
  unfold State.loseBrine
  repeat' first | with_reducible assumption | intro _ | with_reducible apply State.endIo_follows | with_reducible apply State.discardCmd_follows | with_reducible apply State.anaChanged_follows | with_reducible apply State.alarm_follows | with_reducible apply foldl_follows | with_reducible apply Follows.ite | split | extract_lets | with_reducible apply Follows.frame

theorem State.brineHit_follows {s0 s : State} {a1 a2} (h : State.Follows s0 s) : State.Follows s0 (State.brineHit s a1 a2) := by
  unfold State.brineHit
  repeat' first | with_reducible assumption | intro _ | with_reducible apply State.askReset_follows | with_reducible apply State.sendLeave_follows | with_reducible apply State.loseBrine_follows | with_reducible apply foldl_follows | with_reducible apply Follows.ite | split | extract_lets | with_reducible apply Follows.frame

theorem State.llcWayOff_follows {s0 s : State} {a1 a2} (h : State.Follows s0 s) : State.Follows s0 (State.llcWayOff s a1 a2) := by
  unfold State.llcWayOff
  repeat' first | with_reducible assumption | intro _ | with_reducible apply State.wrBus_follows | with_reducible apply foldl_follows | with_reducible apply Follows.ite | split | extract_lets | with_reducible apply Follows.frame

theorem State.corrected_follows {s0 s : State} {a1} (h : State.Follows s0 s) : State.Follows s0 (State.corrected s a1) := by
  unfold State.corrected
  repeat' first | with_reducible assumption | intro _ | with_reducible apply State.bump_follows | with_reducible apply State.event_follows | with_reducible apply foldl_follows | with_reducible apply Follows.ite | split | extract_lets | with_reducible apply Follows.frame

theorem execPatrolScrub_follows {s : State} {a1} : ∃ t, execPatrolScrub a1 s = .next t ∧ State.Follows s t := by
  unfold execPatrolScrub
  refine ⟨_, rfl, ?_⟩
  have h := State.Follows.refl s
  repeat' first | with_reducible assumption | intro _ | with_reducible apply State.corrected_follows | with_reducible apply foldl_follows | with_reducible apply Follows.ite | split | extract_lets | with_reducible apply Follows.frame

theorem State.tideHit_follows {s0 s : State} {a1 a2 a3} (h : State.Follows s0 s) : State.Follows s0 (State.tideHit s a1 a2 a3) := by
  unfold State.tideHit
  repeat' first | with_reducible assumption | intro _ | with_reducible apply foldl_follows | with_reducible apply Follows.ite | split | extract_lets | with_reducible apply Follows.frame

theorem State.ueOutcome_follows {s0 s : State} {a1 a2 a3} (h : State.Follows s0 s) : State.Follows s0 (State.ueOutcome s a1 a2 a3) := by
  unfold State.ueOutcome
  repeat' first | with_reducible assumption | intro _ | with_reducible apply State.brineHit_follows | with_reducible apply State.changedHit_follows | with_reducible apply State.bump_follows | with_reducible apply State.tideHit_follows | with_reducible apply State.fillEngine_follows | with_reducible apply State.dropCtx_follows | with_reducible apply State.goErase_follows | with_reducible apply State.endOff_follows | with_reducible apply State.reissueJob_follows | with_reducible apply State.voidRow_follows | with_reducible apply State.putQp_follows | with_reducible apply State.failQp_follows | with_reducible apply foldl_follows | with_reducible apply Follows.ite | split | extract_lets | with_reducible apply Follows.frame

theorem execLlcRehashDone_follows {s : State} : ∃ t, execLlcRehashDone s = .next t ∧ State.Follows s t := by
  unfold execLlcRehashDone
  refine ⟨_, rfl, ?_⟩
  have h := State.Follows.refl s
  repeat' first | with_reducible assumption | intro _ | with_reducible apply foldl_follows | with_reducible apply Follows.ite | split | extract_lets | with_reducible apply Follows.frame

theorem execLlcWayCleanDone_follows {s : State} {a1} : ∃ t, execLlcWayCleanDone a1 s = .next t ∧ State.Follows s t := by
  unfold execLlcWayCleanDone
  refine ⟨_, rfl, ?_⟩
  have h := State.Follows.refl s
  repeat' first | with_reducible assumption | intro _ | with_reducible apply State.llcLeave_follows | with_reducible apply foldl_follows | with_reducible apply Follows.ite | split | extract_lets | with_reducible apply Follows.frame

theorem execMemoryUe_follows {s : State} {a1 a2 a3 a4} : ∃ t, execMemoryUe a1 a2 a3 a4 s = .next t ∧ State.Follows s t := by
  unfold execMemoryUe
  refine ⟨_, rfl, ?_⟩
  have h := State.Follows.refl s
  repeat' first | with_reducible assumption | intro _ | with_reducible apply State.bump_follows | with_reducible apply State.alarm_follows | with_reducible apply State.ueOutcome_follows | with_reducible apply foldl_follows | with_reducible apply Follows.ite | split | extract_lets | with_reducible apply Follows.frame

theorem execLlcWayOffWrite_follows {s : State} {a1 a2} : ∃ t, execLlcWayOffWrite a1 a2 s = .next t ∧ State.Follows s t := by
  unfold execLlcWayOffWrite
  refine ⟨_, rfl, ?_⟩
  have h := State.Follows.refl s
  repeat' first | with_reducible assumption | intro _ | with_reducible apply State.gatedDrop_follows | with_reducible apply State.llcWayOff_follows | with_reducible apply foldl_follows | with_reducible apply Follows.ite | split | extract_lets | with_reducible apply Follows.frame

end Sys2Proof.Machine
end

