-- ==== Sys2Proof/Laws/Tide.lean ====
section
/-! SUPPORT. What each operation of Machine/Tide.lean can do: what follows from a state before it follows after it (Sys2Proof.Machine.State.Follows). -/
namespace Sys2Proof.Machine

theorem State.refFound_follows {s0 s : State} (h : State.Follows s0 s) : State.Follows s0 (State.refFound s) := by
  unfold State.refFound
  repeat' first | with_reducible assumption | intro _ | with_reducible apply State.armPeriods_follows | with_reducible apply foldl_follows | with_reducible apply Follows.ite | split | extract_lets | with_reducible apply Follows.frame

theorem State.refLost_follows {s0 s : State} (h : State.Follows s0 s) : State.Follows s0 (State.refLost s) := by
  unfold State.refLost
  repeat' first | with_reducible assumption | intro _ | with_reducible apply State.emit_follows | with_reducible apply State.bump_follows | with_reducible apply foldl_follows | with_reducible apply Follows.ite | split | extract_lets | with_reducible apply Follows.frame

theorem State.referenceLost_follows {s0 s : State} {a1} (h : State.Follows s0 s) : State.Follows s0 (State.referenceLost s a1) := by
  unfold State.referenceLost
  repeat' first | with_reducible assumption | intro _ | with_reducible apply State.refLost_follows | with_reducible apply foldl_follows | with_reducible apply Follows.ite | split | extract_lets | with_reducible apply Follows.frame

theorem execReferenceLost_follows {s : State} {a1} : ∃ t, execReferenceLost a1 s = .next t ∧ State.Follows s t := by
  unfold execReferenceLost
  refine ⟨_, rfl, ?_⟩
  have h := State.Follows.refl s
  repeat' first | with_reducible assumption | intro _ | with_reducible apply State.referenceLost_follows | with_reducible apply foldl_follows | with_reducible apply Follows.ite | split | extract_lets | with_reducible apply Follows.frame

theorem State.cable_follows {s0 s : State} {a1 a2 a3} (h : State.Follows s0 s) : State.Follows s0 (State.cable s a1 a2 a3) := by
  unfold State.cable
  repeat' first | with_reducible assumption | intro _ | with_reducible apply foldl_follows | with_reducible apply Follows.ite | split | extract_lets | with_reducible apply Follows.frame

theorem execPeerDelayTimer_follows {s : State} {a1} : ∃ t, execPeerDelayTimer a1 s = .next t ∧ State.Follows s t := by
  unfold execPeerDelayTimer
  refine ⟨_, rfl, ?_⟩
  have h := State.Follows.refl s
  repeat' first | with_reducible assumption | intro _ | with_reducible apply State.emit_follows | with_reducible apply State.cable_follows | with_reducible apply foldl_follows | with_reducible apply Follows.ite | split | extract_lets | with_reducible apply Follows.frame

theorem State.inputs_follows {s0 s : State} {a1} (h : State.Follows s0 s) : State.Follows s0 (State.inputs s a1) := by
  unfold State.inputs
  repeat' first | with_reducible assumption | intro _ | with_reducible apply State.refFound_follows | with_reducible apply foldl_follows | with_reducible apply Follows.ite | split | extract_lets | with_reducible apply Follows.frame

theorem execAnnounceRx_follows {s : State} {a1 a2 a3} : ∃ t, execAnnounceRx a1 a2 a3 s = .next t ∧ State.Follows s t := by
  unfold execAnnounceRx
  refine ⟨_, rfl, ?_⟩
  have h := State.Follows.refl s
  repeat' first | with_reducible assumption | intro _ | with_reducible apply State.inputs_follows | with_reducible apply foldl_follows | with_reducible apply Follows.ite | split | extract_lets | with_reducible apply Follows.frame

theorem State.refill_follows {s0 s : State} {a1} (h : State.Follows s0 s) : State.Follows s0 (State.refill s a1) := by
  unfold State.refill
  extract_lets up allow drops ev t
  have ht : State.Follows s0 t := Follows.withAllow h (by simp [allow])
  exact foldl_follows ht fun _ _ hx => State.event_follows hx

theorem State.measure_follows {s0 s : State} {a1} (h : State.Follows s0 s) : State.Follows s0 (State.measure s a1) := by
  unfold State.measure
  repeat' first | with_reducible assumption | intro _ | with_reducible apply foldl_follows | with_reducible apply Follows.ite | split | extract_lets | with_reducible apply Follows.frame

theorem execSlewEnd_follows {s : State} : ∃ t, execSlewEnd s = .next t ∧ State.Follows s t := by
  unfold execSlewEnd
  refine ⟨_, rfl, ?_⟩
  have h := State.Follows.refl s
  repeat' first | with_reducible assumption | intro _ | with_reducible apply foldl_follows | with_reducible apply Follows.ite | split | extract_lets | with_reducible apply Follows.frame

theorem execSetHarvestBudget_follows {s : State} {a1 a2} : ∃ t, execSetHarvestBudget a1 a2 s = .next t ∧ State.Follows s t := by
  unfold execSetHarvestBudget
  refine ⟨_, rfl, ?_⟩
  have h := State.Follows.refl s
  repeat' first | with_reducible assumption | intro _ | with_reducible apply State.packet_follows | with_reducible apply PktRes.fail_follows | with_reducible refine State.armTimed_follows (by assumption) ?_ | with_reducible exact PktRes.follows_waits | with_reducible apply PktRes.follows_done | with_reducible apply PktRes.follows_started | with_reducible apply PktRes.follows_startDone | with_reducible apply PktRes.follows_quiet | with_reducible apply foldl_follows | with_reducible apply Follows.ite | with_reducible apply PktRes.follows_ite | split | extract_lets | with_reducible apply Follows.frame

theorem execEvrAllowanceRefill_follows {s : State} : ∃ t, execEvrAllowanceRefill s = .next t ∧ State.Follows s t := by
  unfold execEvrAllowanceRefill
  refine ⟨_, rfl, ?_⟩
  have h := State.Follows.refl s
  repeat' first | with_reducible assumption | intro _ | with_reducible apply State.refill_follows | with_reducible apply foldl_follows | with_reducible apply Follows.ite | split | extract_lets | with_reducible apply Follows.frame

theorem State.layoutH_follows {s0 s : State} (h : State.Follows s0 s) : State.Follows s0 (State.layoutH s) := by
  unfold State.layoutH
  repeat' first | with_reducible assumption | intro _ | with_reducible apply foldl_follows | with_reducible apply Follows.ite | split | extract_lets | with_reducible apply Follows.frame

theorem State.aimH_follows {s0 s : State} (h : State.Follows s0 s) : State.Follows s0 (State.aimH s) := by
  unfold State.aimH
  repeat' first | with_reducible assumption | intro _ | with_reducible apply foldl_follows | with_reducible apply Follows.ite | split | extract_lets | with_reducible apply Follows.frame

theorem State.fireTimed_follows {s0 s : State} {a1 a2} (h : State.Follows s0 s) : State.Follows s0 (State.fireTimed s a1 a2) := by
  unfold State.fireTimed
  repeat' first | with_reducible assumption | intro _ | with_reducible apply State.event_follows | with_reducible apply State.fireCut_follows | with_reducible apply State.replFire_follows | with_reducible apply State.armPeriod_follows | with_reducible apply State.aimH_follows | with_reducible apply foldl_follows | with_reducible apply Follows.ite | split | extract_lets | with_reducible apply Follows.frame

theorem State.firePassed_follows {s0 s : State} {a1} (h : State.Follows s0 s) : State.Follows s0 (State.firePassed s a1) := by
  induction a1 generalizing s with
  | zero =>
    unfold State.firePassed
    repeat' first | with_reducible assumption | with_reducible apply ih | intro _ | with_reducible apply State.fireTimed_follows | with_reducible apply foldl_follows | with_reducible apply Follows.ite | split | extract_lets | with_reducible apply Follows.frame
  | succ n ih =>
    unfold State.firePassed
    repeat' first | with_reducible assumption | with_reducible apply ih | intro _ | with_reducible apply State.fireTimed_follows | with_reducible apply foldl_follows | with_reducible apply Follows.ite | split | extract_lets | with_reducible apply Follows.frame

theorem State.applyStep_follows {s0 s : State} {a1} (h : State.Follows s0 s) : State.Follows s0 (State.applyStep s a1) := by
  unfold State.applyStep
  repeat' first | with_reducible assumption | intro _ | with_reducible apply State.bump_follows | with_reducible apply State.layoutH_follows | with_reducible apply State.event_follows | with_reducible apply State.refill_follows | with_reducible apply State.firePassed_follows | with_reducible apply foldl_follows | with_reducible apply Follows.ite | split | extract_lets | with_reducible apply Follows.frame

theorem State.correct_follows {s0 s : State} {a1} (h : State.Follows s0 s) : State.Follows s0 (State.correct s a1) := by
  unfold State.correct
  repeat' first | with_reducible assumption | intro _ | with_reducible apply State.applyStep_follows | with_reducible apply foldl_follows | with_reducible apply Follows.ite | split | extract_lets | with_reducible apply Follows.frame

theorem execEthPortUp_follows {s : State} {a1 a2} : ∃ t, execEthPortUp a1 a2 s = .next t ∧ State.Follows s t := by
  unfold execEthPortUp
  refine ⟨_, rfl, ?_⟩
  have h := State.Follows.refl s
  repeat' first | with_reducible assumption | intro _ | with_reducible apply State.putEport_follows | with_reducible apply foldl_follows | with_reducible apply Follows.ite | split | extract_lets | with_reducible apply Follows.frame

theorem State.spreadBucket_follows {s0 s : State} (h : State.Follows s0 s) : State.Follows s0 (State.spreadBucket s) := by
  unfold State.spreadBucket
  repeat' first | with_reducible assumption | intro _ | with_reducible apply foldl_follows | with_reducible apply Follows.ite | split | extract_lets | with_reducible apply Follows.frame

theorem State.budgetCheck_follows {s0 s : State} (h : State.Follows s0 s) : State.Follows s0 (State.budgetCheck s) := by
  unfold State.budgetCheck
  repeat' first | with_reducible assumption | intro _ | with_reducible apply State.aimH_follows | with_reducible apply foldl_follows | with_reducible apply Follows.ite | split | extract_lets | with_reducible apply Follows.frame

theorem execSlotAdvance_follows {s : State} : ∃ t, execSlotAdvance s = .next t ∧ State.Follows s t := by
  unfold execSlotAdvance
  refine ⟨_, rfl, ?_⟩
  have h := State.Follows.refl s
  repeat' first | with_reducible assumption | intro _ | with_reducible apply State.spreadBucket_follows | with_reducible apply State.budgetCheck_follows | with_reducible apply foldl_follows | with_reducible apply Follows.ite | split | extract_lets | with_reducible apply Follows.frame

theorem execHarvestBudgetSwitch_follows {s : State} : ∃ t, execHarvestBudgetSwitch s = .next t ∧ State.Follows s t := by
  unfold execHarvestBudgetSwitch
  refine ⟨_, rfl, ?_⟩
  have h := State.Follows.refl s
  repeat' first | with_reducible assumption | intro _ | with_reducible apply foldl_follows | with_reducible apply Follows.ite | split | extract_lets | with_reducible apply Follows.frame

theorem execTimedEventFire_follows {s : State} : ∃ t, execTimedEventFire s = .next t ∧ State.Follows s t := by
  unfold execTimedEventFire
  refine ⟨_, rfl, ?_⟩
  have h := State.Follows.refl s
  repeat' first | with_reducible assumption | intro _ | with_reducible apply State.fireTimed_follows | with_reducible apply foldl_follows | with_reducible apply Follows.ite | split | extract_lets | with_reducible apply Follows.frame

theorem execFarInstantArm_follows {s : State} : ∃ t, execFarInstantArm s = .next t ∧ State.Follows s t := by
  unfold execFarInstantArm
  refine ⟨_, rfl, ?_⟩
  have h := State.Follows.refl s
  repeat' first | with_reducible assumption | intro _ | with_reducible apply foldl_follows | with_reducible apply Follows.ite | split | extract_lets | with_reducible apply Follows.frame

theorem execStepApplied_follows {s : State} : ∃ t, execStepApplied s = .next t ∧ State.Follows s t := by
  unfold execStepApplied
  refine ⟨_, rfl, ?_⟩
  have h := State.Follows.refl s
  repeat' first | with_reducible assumption | intro _ | with_reducible apply State.applyStep_follows | with_reducible apply foldl_follows | with_reducible apply Follows.ite | split | extract_lets | with_reducible apply Follows.frame

theorem execPpsOutEdge_follows {s : State} : ∃ t, execPpsOutEdge s = .next t ∧ State.Follows s t := by
  unfold execPpsOutEdge
  refine ⟨_, rfl, ?_⟩
  have h := State.Follows.refl s
  repeat' first | with_reducible assumption | intro _ | with_reducible apply State.emit_follows | with_reducible apply foldl_follows | with_reducible apply Follows.ite | split | extract_lets | with_reducible apply Follows.frame

theorem execSyncRx_follows {s : State} {a1 a2} : ∃ t, execSyncRx a1 a2 s = .next t ∧ State.Follows s t := by
  unfold execSyncRx
  refine ⟨_, rfl, ?_⟩
  have h := State.Follows.refl s
  repeat' first | with_reducible assumption | intro _ | with_reducible apply State.measure_follows | with_reducible apply State.correct_follows | with_reducible apply foldl_follows | with_reducible apply Follows.ite | split | extract_lets | with_reducible apply Follows.frame

theorem execPpsInEdge_follows {s : State} {a1} : ∃ t, execPpsInEdge a1 s = .next t ∧ State.Follows s t := by
  unfold execPpsInEdge
  refine ⟨_, rfl, ?_⟩
  have h := State.Follows.refl s
  repeat' first | with_reducible assumption | intro _ | with_reducible apply State.inputs_follows | with_reducible apply foldl_follows | with_reducible apply Follows.ite | split | extract_lets | with_reducible apply Follows.frame

theorem execHoldoverExceeded_follows {s : State} : ∃ t, execHoldoverExceeded s = .next t ∧ State.Follows s t := by
  unfold execHoldoverExceeded
  refine ⟨_, rfl, ?_⟩
  have h := State.Follows.refl s
  repeat' first | with_reducible assumption | intro _ | with_reducible apply State.event_follows | with_reducible apply foldl_follows | with_reducible apply Follows.ite | split | extract_lets | with_reducible apply Follows.frame

end Sys2Proof.Machine
end

