-- ==== Sys2Proof/Laws/Pair.lean ====
section
/-! SUPPORT. What each operation of Machine/Pair.lean can do: what follows from a state before it follows after it (Sys2Proof.Machine.State.Follows). -/
namespace Sys2Proof.Machine

theorem State.iclDown_follows {s0 s : State} (h : State.Follows s0 s) : State.Follows s0 (State.iclDown s) := by
  unfold State.iclDown
  repeat' first | with_reducible assumption | intro _ | with_reducible apply State.setUnitState_follows | with_reducible apply foldl_follows | with_reducible apply Follows.ite | split | extract_lets | with_reducible apply Follows.frame

theorem execIclLinkDown_follows {s : State} : ∃ t, execIclLinkDown s = .next t ∧ State.Follows s t := by
  unfold execIclLinkDown
  refine ⟨_, rfl, ?_⟩
  have h := State.Follows.refl s
  repeat' first | with_reducible assumption | intro _ | with_reducible apply State.iclDown_follows | with_reducible apply foldl_follows | with_reducible apply Follows.ite | split | extract_lets | with_reducible apply Follows.frame

theorem execElectionRetry_follows {s : State} : ∃ t, execElectionRetry s = .next t ∧ State.Follows s t := by
  unfold execElectionRetry
  refine ⟨_, rfl, ?_⟩
  have h := State.Follows.refl s
  repeat' first | with_reducible assumption | intro _ | with_reducible apply State.sendPreempt_follows | with_reducible apply foldl_follows | with_reducible apply Follows.ite | split | extract_lets | with_reducible apply Follows.frame

theorem execAcceptBrineLoss_follows {s : State} {a1 a2} : ∃ t, execAcceptBrineLoss a1 a2 s = .next t ∧ State.Follows s t := by
  unfold execAcceptBrineLoss
  refine ⟨_, rfl, ?_⟩
  have h := State.Follows.refl s
  repeat' first | with_reducible assumption | intro _ | with_reducible apply State.packet_follows | with_reducible apply PktRes.fail_follows | with_reducible apply State.anaChanged_follows | with_reducible apply State.reliabilityCheck_follows | with_reducible exact PktRes.follows_waits | with_reducible apply PktRes.follows_done | with_reducible apply PktRes.follows_started | with_reducible apply PktRes.follows_startDone | with_reducible apply PktRes.follows_quiet | with_reducible apply foldl_follows | with_reducible apply Follows.ite | with_reducible apply PktRes.follows_ite | split | extract_lets | with_reducible apply Follows.frame

theorem execMoveAnaGroup_follows {s : State} {a1 a2} : ∃ t, execMoveAnaGroup a1 a2 s = .next t ∧ State.Follows s t := by
  unfold execMoveAnaGroup
  refine ⟨_, rfl, ?_⟩
  have h := State.Follows.refl s
  repeat' first | with_reducible assumption | intro _ | with_reducible apply State.packet_follows | with_reducible apply PktRes.fail_follows | with_reducible apply State.startMove_follows | with_reducible exact PktRes.follows_waits | with_reducible apply PktRes.follows_done | with_reducible apply PktRes.follows_started | with_reducible apply PktRes.follows_startDone | with_reducible apply PktRes.follows_quiet | with_reducible apply foldl_follows | with_reducible apply Follows.ite | with_reducible apply PktRes.follows_ite | split | extract_lets | with_reducible apply Follows.frame

theorem execLeavePair_follows {s : State} {a1 a2} : ∃ t, execLeavePair a1 a2 s = .next t ∧ State.Follows s t := by
  unfold execLeavePair
  refine ⟨_, rfl, ?_⟩
  have h := State.Follows.refl s
  repeat' first | with_reducible assumption | intro _ | with_reducible apply State.packet_follows | with_reducible apply PktRes.fail_follows | with_reducible apply State.leave_follows | with_reducible apply State.startMove_follows | with_reducible exact PktRes.follows_waits | with_reducible apply PktRes.follows_done | with_reducible apply PktRes.follows_started | with_reducible apply PktRes.follows_startDone | with_reducible apply PktRes.follows_quiet | with_reducible apply foldl_follows | with_reducible apply Follows.ite | with_reducible apply PktRes.follows_ite | split | extract_lets | with_reducible apply Follows.frame

theorem execProxyCmdRx_follows {s : State} {a1 a2} : ∃ t, execProxyCmdRx a1 a2 s = .next t ∧ State.Follows s t := by
  unfold execProxyCmdRx
  refine ⟨_, rfl, ?_⟩
  have h := State.Follows.refl s
  repeat' first | with_reducible assumption | intro _ | with_reducible apply State.onPtl_follows | with_reducible apply State.bump_follows | with_reducible apply State.leadCheck_follows | with_reducible apply State.issue_follows | with_reducible apply State.afterUnits_follows | with_reducible apply State.failModule_follows | with_reducible apply foldl_follows | with_reducible apply Follows.ite | split | extract_lets | with_reducible apply Follows.frame

theorem execLeaveRx_follows {s : State} : ∃ t, execLeaveRx s = .next t ∧ State.Follows s t := by
  unfold execLeaveRx
  refine ⟨_, rfl, ?_⟩
  have h := State.Follows.refl s
  repeat' first | with_reducible assumption | intro _ | with_reducible apply State.declareLost_follows | with_reducible apply foldl_follows | with_reducible apply Follows.ite | split | extract_lets | with_reducible apply Follows.frame

theorem execRejoinSyncDone_follows {s : State} {a1} : ∃ t, execRejoinSyncDone a1 s = .next t ∧ State.Follows s t := by
  unfold execRejoinSyncDone
  refine ⟨_, rfl, ?_⟩
  have h := State.Follows.refl s
  repeat' first | with_reducible assumption | intro _ | with_reducible apply State.issue_follows | with_reducible apply State.journalRow_follows | with_reducible apply State.askReserve_follows | with_reducible apply foldl_follows | with_reducible apply Follows.ite | split | extract_lets | with_reducible apply Follows.frame

theorem execPairAckRx_follows {s : State} {a1 a2} : ∃ t, execPairAckRx a1 a2 s = .next t ∧ State.Follows s t := by
  unfold execPairAckRx
  refine ⟨_, rfl, ?_⟩
  have h := State.Follows.refl s
  repeat' first | with_reducible assumption | intro _ | with_reducible apply State.ptlRetire_follows | with_reducible apply State.stageCheck_follows | with_reducible apply State.payAll_follows | with_reducible apply foldl_follows | with_reducible apply Follows.ite | split | extract_lets | with_reducible apply Follows.frame

theorem execLeaseExpiry_follows {s : State} : ∃ t, execLeaseExpiry s = .next t ∧ State.Follows s t := by
  unfold execLeaseExpiry
  refine ⟨_, rfl, ?_⟩
  have h := State.Follows.refl s
  repeat' first | with_reducible assumption | intro _ | with_reducible apply foldl_follows | with_reducible apply Follows.ite | split | extract_lets | with_reducible apply Follows.frame

theorem State.pairedAgain_follows {s0 s : State} (h : State.Follows s0 s) : State.Follows s0 (State.pairedAgain s) := by
  unfold State.pairedAgain
  repeat' first | with_reducible assumption | intro _ | with_reducible apply State.enterPaired_follows | with_reducible apply foldl_follows | with_reducible apply Follows.ite | split | extract_lets | with_reducible apply Follows.frame

theorem execGroupMoveStepRx_follows {s : State} {a1 a2} : ∃ t, execGroupMoveStepRx a1 a2 s = .next t ∧ State.Follows s t := by
  unfold execGroupMoveStepRx
  refine ⟨_, rfl, ?_⟩
  have h := State.Follows.refl s
  repeat' first | with_reducible assumption | intro _ | with_reducible apply State.onPtl_follows | with_reducible apply State.setChange_follows | with_reducible apply State.dropMove_follows | with_reducible apply State.putMove_follows | with_reducible apply State.adoptCheck_follows | with_reducible apply State.moveDone_follows | with_reducible apply State.sharesBack_follows | with_reducible apply State.finish_follows | with_reducible apply foldl_follows | with_reducible apply Follows.ite | split | extract_lets | (dsimp +zetaDelta only; split) | with_reducible apply Follows.frame

theorem execRejoinPair_follows {s : State} {a1 a2} : ∃ t, execRejoinPair a1 a2 s = .next t ∧ State.Follows s t := by
  unfold execRejoinPair
  refine ⟨_, rfl, ?_⟩
  have h := State.Follows.refl s
  repeat' first | with_reducible assumption | intro _ | with_reducible apply State.packet_follows | with_reducible apply PktRes.fail_follows | with_reducible apply State.startRejoin_follows | with_reducible exact PktRes.follows_waits | with_reducible apply PktRes.follows_done | with_reducible apply PktRes.follows_started | with_reducible apply PktRes.follows_startDone | with_reducible apply PktRes.follows_quiet | with_reducible apply foldl_follows | with_reducible apply Follows.ite | with_reducible apply PktRes.follows_ite | split | extract_lets | with_reducible apply Follows.frame

theorem execPeerLost_follows {s : State} : ∃ t, execPeerLost s = .next t ∧ State.Follows s t := by
  unfold execPeerLost
  refine ⟨_, rfl, ?_⟩
  have h := State.Follows.refl s
  repeat' first | with_reducible assumption | intro _ | with_reducible apply State.declareLost_follows | with_reducible apply foldl_follows | with_reducible apply Follows.ite | split | extract_lets | with_reducible apply Follows.frame

theorem State.meetPeer_follows {s0 s : State} (h : State.Follows s0 s) : State.Follows s0 (State.meetPeer s) := by
  have hc : ∀ (l : List PtlChan) (x : PairSt) (n : Nat), l.length = 3 →
      State.Follows s0 { s with pair.state := x, pair.chans := l, pair.rejoinStep := n } := fun l x n hl =>
    ⟨h.queue, h.sent, h.drawn, fun g =>
      let k := h.sound g
      ⟨k.regs, k.hbm, k.ddr, k.flash, k.buf, k.rings, hl, k.allow⟩⟩
  unfold State.meetPeer
  split
  · exact h
  · split
    · split
      · exact State.rejoinCheck_follows (Follows.frame h)
      · split
        · exact h
        · exact State.registerAll_follows (hc _ _ _ rfl)
    · exact State.rejoinCheck_follows h
    · exact State.sendKey_follows (hc _ _ _ rfl)
    · exact h

theorem execElectionLeadTimeout_follows {s : State} : ∃ t, execElectionLeadTimeout s = .next t ∧ State.Follows s t := by
  unfold execElectionLeadTimeout
  refine ⟨_, rfl, ?_⟩
  have h := State.Follows.refl s
  repeat' first | with_reducible assumption | intro _ | with_reducible apply State.event_follows | with_reducible apply foldl_follows | with_reducible apply Follows.ite | split | extract_lets | with_reducible apply Follows.frame

theorem execJournalRx_follows {s : State} {a1 a2} : ∃ t, execJournalRx a1 a2 s = .next t ∧ State.Follows s t := by
  unfold execJournalRx
  refine ⟨_, rfl, ?_⟩
  have h := State.Follows.refl s
  repeat' first | with_reducible assumption | intro _ | with_reducible apply State.stageCheck_follows | with_reducible apply State.adoptCheck_follows | with_reducible apply State.onPtl_follows | with_reducible apply State.bump_follows | with_reducible apply State.journalRow_follows | with_reducible apply foldl_follows | with_reducible apply Follows.ite | split | extract_lets | with_reducible apply Follows.frame

theorem execSanitizeNoticeRx_follows {s : State} {a1 a2} : ∃ t, execSanitizeNoticeRx a1 a2 s = .next t ∧ State.Follows s t := by
  unfold execSanitizeNoticeRx
  refine ⟨_, rfl, ?_⟩
  have h := State.Follows.refl s
  repeat' first | with_reducible assumption | intro _ | with_reducible apply State.onPtl_follows | with_reducible apply State.sanStart_follows | with_reducible apply State.sanClear_follows | with_reducible apply foldl_follows | with_reducible apply Follows.ite | split | extract_lets | with_reducible apply Follows.frame

theorem execSetHomeHead_follows {s : State} {a1 a2} : ∃ t, execSetHomeHead a1 a2 s = .next t ∧ State.Follows s t := by
  unfold execSetHomeHead
  refine ⟨_, rfl, ?_⟩
  have h := State.Follows.refl s
  repeat' first | with_reducible assumption | intro _ | with_reducible apply State.packet_follows | with_reducible apply PktRes.fail_follows | with_reducible apply State.cfgDone_follows | with_reducible apply State.placeCfg_follows | with_reducible apply State.putGroup_follows | with_reducible exact PktRes.follows_waits | with_reducible apply PktRes.follows_done | with_reducible apply PktRes.follows_started | with_reducible apply PktRes.follows_startDone | with_reducible apply PktRes.follows_quiet | with_reducible apply foldl_follows | with_reducible apply Follows.ite | with_reducible apply PktRes.follows_ite | split | extract_lets | with_reducible apply Follows.frame

theorem execMoveDrainDone_follows {s : State} {a1} : ∃ t, execMoveDrainDone a1 s = .next t ∧ State.Follows s t := by
  unfold execMoveDrainDone
  refine ⟨_, rfl, ?_⟩
  have h := State.Follows.refl s
  repeat' first | with_reducible assumption | intro _ | with_reducible apply State.moveRecord_follows | with_reducible apply foldl_follows | with_reducible apply Follows.ite | split | extract_lets | with_reducible apply Follows.frame

theorem execHelloRx_follows {s : State} {a1 a2} : ∃ t, execHelloRx a1 a2 s = .next t ∧ State.Follows s t := by
  unfold execHelloRx
  refine ⟨_, rfl, ?_⟩
  have h := State.Follows.refl s
  repeat' first | with_reducible assumption | intro _ | with_reducible apply State.event_follows | with_reducible apply State.meetPeer_follows | with_reducible apply foldl_follows | with_reducible apply Follows.ite | split | extract_lets | with_reducible apply Follows.frame

theorem execPairNakRx_follows {s : State} {a1 a2} : ∃ t, execPairNakRx a1 a2 s = .next t ∧ State.Follows s t := by
  unfold execPairNakRx
  refine ⟨_, rfl, ?_⟩
  have h := State.Follows.refl s
  repeat' first | with_reducible assumption | intro _ | with_reducible apply State.ptlRetire_follows | with_reducible apply State.ptlResend_follows | with_reducible apply State.stageCheck_follows | with_reducible apply State.payAll_follows | with_reducible apply foldl_follows | with_reducible apply Follows.ite | split | extract_lets | with_reducible apply Follows.frame

theorem execHelloTimer_follows {s : State} : ∃ t, execHelloTimer s = .next t ∧ State.Follows s t := by
  unfold execHelloTimer
  refine ⟨_, rfl, ?_⟩
  have h := State.Follows.refl s
  repeat' first | with_reducible assumption | intro _ | with_reducible apply State.ptlRaw_follows | with_reducible apply foldl_follows | with_reducible apply Follows.ite | split | extract_lets | with_reducible apply Follows.frame

theorem execHeartbeatTimer_follows {s : State} : ∃ t, execHeartbeatTimer s = .next t ∧ State.Follows s t := by
  unfold execHeartbeatTimer
  refine ⟨_, rfl, ?_⟩
  have h := State.Follows.refl s
  repeat' first | with_reducible assumption | intro _ | with_reducible apply State.ptlRaw_follows | with_reducible apply State.bump_follows | with_reducible apply foldl_follows | with_reducible apply Follows.ite | split | extract_lets | with_reducible apply Follows.frame

theorem execPairResendTimer_follows {s : State} {a1} : ∃ t, execPairResendTimer a1 s = .next t ∧ State.Follows s t := by
  unfold execPairResendTimer
  refine ⟨_, rfl, ?_⟩
  have h := State.Follows.refl s
  repeat' first | with_reducible assumption | intro _ | with_reducible apply State.ptlResend_follows | with_reducible apply foldl_follows | with_reducible apply Follows.ite | split | extract_lets | with_reducible apply Follows.frame

theorem execHeartbeatRx_follows {s : State} {a1} : ∃ t, execHeartbeatRx a1 s = .next t ∧ State.Follows s t := by
  unfold execHeartbeatRx
  refine ⟨_, rfl, ?_⟩
  have h := State.Follows.refl s
  repeat' first | with_reducible assumption | intro _ | with_reducible apply State.liftGate_follows | with_reducible apply State.rejoinCheck_follows | with_reducible apply State.pairedAgain_follows | with_reducible apply foldl_follows | with_reducible apply Follows.ite | split | extract_lets | with_reducible apply Follows.frame

theorem execLeadSelectionRx_follows {s : State} {a1 a2} : ∃ t, execLeadSelectionRx a1 a2 s = .next t ∧ State.Follows s t := by
  unfold execLeadSelectionRx
  refine ⟨_, rfl, ?_⟩
  have h := State.Follows.refl s
  repeat' first | with_reducible assumption | intro _ | with_reducible apply State.onPtl_follows | with_reducible apply foldl_follows | with_reducible apply Follows.ite | split | extract_lets | with_reducible apply Follows.frame

theorem execPairReservedTypeRx_follows {s : State} : ∃ t, execPairReservedTypeRx s = .next t ∧ State.Follows s t := by
  unfold execPairReservedTypeRx
  refine ⟨_, rfl, ?_⟩
  have h := State.Follows.refl s
  repeat' first | with_reducible assumption | intro _ | with_reducible apply State.bump_follows | with_reducible apply foldl_follows | with_reducible apply Follows.ite | split | extract_lets | with_reducible apply Follows.frame

theorem execElectionPoll_follows {s : State} : ∃ t, execElectionPoll s = .next t ∧ State.Follows s t := by
  unfold execElectionPoll
  refine ⟨_, rfl, ?_⟩
  have h := State.Follows.refl s
  repeat' first | with_reducible assumption | intro _ | with_reducible apply State.askReserve_follows | with_reducible apply foldl_follows | with_reducible apply Follows.ite | split | extract_lets | with_reducible apply Follows.frame

theorem execGetPairStatus_follows {s : State} {a1 a2} : ∃ t, execGetPairStatus a1 a2 s = .next t ∧ State.Follows s t := by
  unfold execGetPairStatus
  refine ⟨_, rfl, ?_⟩
  have h := State.Follows.refl s
  repeat' first | with_reducible assumption | intro _ | with_reducible apply State.packet_follows | with_reducible exact PktRes.follows_waits | with_reducible apply PktRes.follows_done | with_reducible apply PktRes.follows_started | with_reducible apply PktRes.follows_startDone | with_reducible apply PktRes.follows_quiet | with_reducible apply foldl_follows | with_reducible apply Follows.ite | with_reducible apply PktRes.follows_ite | split | extract_lets | with_reducible apply Follows.frame

theorem execPeerSuspect_follows {s : State} : ∃ t, execPeerSuspect s = .next t ∧ State.Follows s t := by
  unfold execPeerSuspect
  refine ⟨_, rfl, ?_⟩
  have h := State.Follows.refl s
  repeat' first | with_reducible assumption | intro _ | with_reducible apply State.bump_follows | with_reducible apply foldl_follows | with_reducible apply Follows.ite | split | extract_lets | with_reducible apply Follows.frame

theorem State.replayEnd_follows {s0 s : State} (h : State.Follows s0 s) : State.Follows s0 (State.replayEnd s) := by
  unfold State.replayEnd
  repeat' first | with_reducible assumption | intro _ | with_reducible apply State.askReserves_follows | with_reducible apply State.anaChanged_follows | with_reducible apply State.newDumpKey_follows | with_reducible apply foldl_follows | with_reducible apply Follows.ite | split | extract_lets | with_reducible apply Follows.frame

theorem execRemirrorDone_follows {s : State} : ∃ t, execRemirrorDone s = .next t ∧ State.Follows s t := by
  unfold execRemirrorDone
  refine ⟨_, rfl, ?_⟩
  have h := State.Follows.refl s
  repeat' first | with_reducible assumption | intro _ | with_reducible apply State.stageCheck_follows | with_reducible apply State.replayEnd_follows | with_reducible apply State.handBack_follows | with_reducible apply foldl_follows | with_reducible apply Follows.ite | split | extract_lets | with_reducible apply Follows.frame

theorem execKeyTransferRx_follows {s : State} {a1 a2} : ∃ t, execKeyTransferRx a1 a2 s = .next t ∧ State.Follows s t := by
  unfold execKeyTransferRx
  refine ⟨_, rfl, ?_⟩
  have h := State.Follows.refl s
  repeat' first | with_reducible assumption | intro _ | with_reducible apply State.onPtl_follows | with_reducible apply foldl_follows | with_reducible apply Follows.ite | split | extract_lets | with_reducible apply Follows.frame

theorem execIclRetrain_follows {s : State} {a1 a2} : ∃ t, execIclRetrain a1 a2 s = .next t ∧ State.Follows s t := by
  unfold execIclRetrain
  refine ⟨_, rfl, ?_⟩
  have h := State.Follows.refl s
  repeat' first | with_reducible assumption | intro _ | with_reducible apply State.event_follows | with_reducible apply foldl_follows | with_reducible apply Follows.ite | split | extract_lets | with_reducible apply Follows.frame

theorem execIclLinkUp_follows {s : State} {a1 a2 a3} : ∃ t, execIclLinkUp a1 a2 a3 s = .next t ∧ State.Follows s t := by
  unfold execIclLinkUp
  refine ⟨_, rfl, ?_⟩
  have h := State.Follows.refl s
  repeat' first | with_reducible assumption | intro _ | with_reducible apply State.drbgBytes_follows | with_reducible apply State.cable_follows | with_reducible apply State.setUnitState_follows | with_reducible apply foldl_follows | with_reducible refine snd_follows (by assumption) ?_ | with_reducible apply Follows.ite | split | extract_lets | with_reducible apply Follows.frame

theorem execAlarmNoticeRx_follows {s : State} {a1 a2} : ∃ t, execAlarmNoticeRx a1 a2 s = .next t ∧ State.Follows s t := by
  unfold execAlarmNoticeRx
  refine ⟨_, rfl, ?_⟩
  have h := State.Follows.refl s
  repeat' first | with_reducible assumption | intro _ | with_reducible apply State.onPtl_follows | with_reducible apply State.alarm_follows | with_reducible apply State.declareLost_follows | with_reducible apply foldl_follows | with_reducible apply Follows.ite | split | extract_lets | with_reducible apply Follows.frame

theorem execMoveTimeout_follows {s : State} {a1} : ∃ t, execMoveTimeout a1 s = .next t ∧ State.Follows s t := by
  unfold execMoveTimeout
  refine ⟨_, rfl, ?_⟩
  have h := State.Follows.refl s
  repeat' first | with_reducible assumption | intro _ | with_reducible apply State.control_follows | with_reducible apply State.setChange_follows | with_reducible apply State.dropMove_follows | with_reducible apply State.finish_follows | with_reducible apply foldl_follows | with_reducible apply Follows.ite | split | extract_lets | with_reducible apply Follows.frame

theorem execSoloWaitExpiry_follows {s : State} : ∃ t, execSoloWaitExpiry s = .next t ∧ State.Follows s t := by
  unfold execSoloWaitExpiry
  refine ⟨_, rfl, ?_⟩
  have h := State.Follows.refl s
  repeat' first | with_reducible assumption | intro _ | with_reducible apply State.registerAll_follows | with_reducible apply State.anaSince_follows | with_reducible apply foldl_follows | with_reducible apply Follows.ite | split | extract_lets | with_reducible apply Follows.frame

end Sys2Proof.Machine
end

