-- ==== Sys2Proof/Laws/Ctl.lean ====
section
/-! SUPPORT. What each operation of Machine/Ctl.lean can do: what follows from a state before it follows after it (Sys2Proof.Machine.State.Follows). -/
namespace Sys2Proof.Machine

theorem execCreateVolume_follows {s : State} {a1 a2} : ∃ t, execCreateVolume a1 a2 s = .next t ∧ State.Follows s t := by
  unfold execCreateVolume
  refine ⟨_, rfl, ?_⟩
  have h := State.Follows.refl s
  repeat' first | with_reducible assumption | intro _ | with_reducible apply State.packet_follows | with_reducible apply PktRes.fail_follows | with_reducible apply State.placeCfg_follows | with_reducible apply State.putGroup_follows | with_reducible apply State.putMap_follows | with_reducible apply State.storeVol_follows | with_reducible apply State.cfgDone_follows | with_reducible apply State.nsChanged_follows | with_reducible exact PktRes.follows_waits | with_reducible apply PktRes.follows_done | with_reducible apply PktRes.follows_started | with_reducible apply PktRes.follows_startDone | with_reducible apply PktRes.follows_quiet | with_reducible apply foldl_follows | with_reducible apply Follows.ite | with_reducible apply PktRes.follows_ite | split | extract_lets | with_reducible apply Follows.frame

theorem State.ringCfg_follows {s0 s : State} {a1 a2} (h : State.Follows s0 s) : State.Follows s0 (State.ringCfg s a1 a2) := by
  unfold State.ringCfg
  repeat' first | with_reducible assumption | intro _ | with_reducible apply State.wrBus_follows | with_reducible apply State.setRing_follows | with_reducible apply State.wr_follows | with_reducible apply foldl_follows | with_reducible apply Follows.ite | split | extract_lets | with_reducible apply Follows.frame

theorem State.dropDoorbell_follows {s0 s : State} {a1 a2} (h : State.Follows s0 s) : State.Follows s0 (State.dropDoorbell s a1 a2) := by
  unfold State.dropDoorbell
  repeat' first | with_reducible assumption | intro _ | with_reducible apply State.event_follows | with_reducible apply State.bump_follows | with_reducible apply foldl_follows | with_reducible apply Follows.ite | split | extract_lets | with_reducible apply Follows.frame

theorem execRingDoorbell_follows {s : State} {a1 a2 a3} : ∃ t, execRingDoorbell a1 a2 a3 s = .next t ∧ State.Follows s t := by
  unfold execRingDoorbell
  refine ⟨_, rfl, ?_⟩
  have h := State.Follows.refl s
  repeat' first | with_reducible assumption | intro _ | with_reducible apply State.dropDoorbell_follows | with_reducible apply State.fetchRing_follows | with_reducible apply State.setRing_follows | with_reducible apply foldl_follows | with_reducible apply Follows.ite | split | extract_lets | with_reducible apply Follows.frame

theorem State.releaseHeld_follows {s0 s : State} {a1 a2} (h : State.Follows s0 s) : State.Follows s0 (State.releaseHeld s a1 a2) := by
  induction a2 generalizing s with
  | zero =>
    unfold State.releaseHeld
    repeat' first | with_reducible assumption | with_reducible apply ih | intro _ | with_reducible apply State.putReply_follows | with_reducible apply State.setRing_follows | with_reducible apply foldl_follows | with_reducible apply Follows.ite | split | extract_lets | with_reducible apply Follows.frame
  | succ n ih =>
    unfold State.releaseHeld
    repeat' first | with_reducible assumption | with_reducible apply ih | intro _ | with_reducible apply State.putReply_follows | with_reducible apply State.setRing_follows | with_reducible apply foldl_follows | with_reducible apply Follows.ite | split | extract_lets | with_reducible apply Follows.frame

theorem execRplHeadWrite_follows {s : State} {a1 a2} : ∃ t, execRplHeadWrite a1 a2 s = .next t ∧ State.Follows s t := by
  unfold execRplHeadWrite
  refine ⟨_, rfl, ?_⟩
  have h := State.Follows.refl s
  repeat' first | with_reducible assumption | intro _ | with_reducible apply State.wrBus_follows | with_reducible apply State.releaseHeld_follows | with_reducible apply State.fetchRing_follows | with_reducible apply State.settle_follows | with_reducible apply foldl_follows | with_reducible apply Follows.ite | split | extract_lets | with_reducible apply Follows.frame

theorem State.formPool_follows {s0 s : State} {a1} (h : State.Follows s0 s) : State.Follows s0 (State.formPool s a1) := by
  unfold State.formPool
  repeat' first | with_reducible assumption | intro _ | with_reducible apply State.drbgBytes_follows | with_reducible apply foldl_follows | with_reducible refine snd_follows (by assumption) ?_ | with_reducible apply Follows.ite | split | extract_lets | with_reducible apply Follows.frame

theorem execRingDisable_follows {s : State} {a1 a2} : ∃ t, execRingDisable a1 a2 s = .next t ∧ State.Follows s t := by
  unfold execRingDisable
  refine ⟨_, rfl, ?_⟩
  have h := State.Follows.refl s
  repeat' first | with_reducible assumption | intro _ | with_reducible apply State.ringCfg_follows | with_reducible apply foldl_follows | with_reducible apply Follows.ite | split | extract_lets | with_reducible apply Follows.frame

theorem execRingEnable_follows {s : State} {a1 a2} : ∃ t, execRingEnable a1 a2 s = .next t ∧ State.Follows s t := by
  unfold execRingEnable
  refine ⟨_, rfl, ?_⟩
  have h := State.Follows.refl s
  repeat' first | with_reducible assumption | intro _ | with_reducible apply State.ringCfg_follows | with_reducible apply foldl_follows | with_reducible apply Follows.ite | split | extract_lets | with_reducible apply Follows.frame

theorem execNop_follows {s : State} {a1 a2} : ∃ t, execNop a1 a2 s = .next t ∧ State.Follows s t := by
  unfold execNop
  refine ⟨_, rfl, ?_⟩
  have h := State.Follows.refl s
  repeat' first | with_reducible assumption | intro _ | with_reducible apply State.packet_follows | with_reducible exact PktRes.follows_waits | with_reducible apply PktRes.follows_done | with_reducible apply PktRes.follows_started | with_reducible apply PktRes.follows_startDone | with_reducible apply PktRes.follows_quiet | with_reducible apply foldl_follows | with_reducible apply Follows.ite | with_reducible apply PktRes.follows_ite | split | extract_lets | with_reducible apply Follows.frame

theorem State.startPool_follows {s0 s : State} (h : State.Follows s0 s) : State.Follows s0 (State.startPool s) := by
  unfold State.startPool
  repeat' first | with_reducible assumption | intro _ | with_reducible apply State.askReserves_follows | with_reducible apply State.putRoot_follows | with_reducible apply State.newDumpKey_follows | with_reducible apply State.openEpoch_follows | with_reducible apply foldl_follows | with_reducible apply Follows.ite | split | extract_lets | with_reducible apply Follows.frame

theorem execConfigRecordRx_follows {s : State} {a1 a2} : ∃ t, execConfigRecordRx a1 a2 s = .next t ∧ State.Follows s t := by
  unfold execConfigRecordRx
  refine ⟨_, rfl, ?_⟩
  have h := State.Follows.refl s
  repeat' first | with_reducible assumption | intro _ | with_reducible apply State.onPtl_follows | with_reducible apply State.applyCfg_follows | with_reducible apply State.startPool_follows | with_reducible apply State.placeRec_follows | with_reducible apply State.setGen_follows | with_reducible apply foldl_follows | with_reducible apply Follows.ite | split | extract_lets | with_reducible apply Follows.frame

theorem execDeleteVolume_follows {s : State} {a1 a2} : ∃ t, execDeleteVolume a1 a2 s = .next t ∧ State.Follows s t := by
  unfold execDeleteVolume
  refine ⟨_, rfl, ?_⟩
  have h := State.Follows.refl s
  repeat' first | with_reducible assumption | intro _ | with_reducible apply State.packet_follows | with_reducible apply PktRes.fail_follows | with_reducible apply State.dropEpochs_follows | with_reducible apply State.placeCfg_follows | with_reducible apply State.cfgDone_follows | with_reducible apply State.placeAct_follows | with_reducible exact PktRes.follows_waits | with_reducible apply PktRes.follows_done | with_reducible apply PktRes.follows_started | with_reducible apply PktRes.follows_startDone | with_reducible apply PktRes.follows_quiet | with_reducible apply foldl_follows | with_reducible apply Follows.ite | with_reducible apply PktRes.follows_ite | split | extract_lets | with_reducible apply Follows.frame

theorem State.sharePool_follows {s0 s : State} (h : State.Follows s0 s) : State.Follows s0 (State.sharePool s) := by
  unfold State.sharePool
  repeat' first | with_reducible assumption | intro _ | with_reducible apply State.sendKey_follows | with_reducible apply State.storePage_follows | with_reducible apply State.storeSlot_follows | with_reducible apply State.placeCfg_follows | with_reducible apply foldl_follows | with_reducible apply Follows.ite | split | extract_lets | with_reducible apply Follows.frame

theorem execCreatePool_follows {s : State} {a1 a2 a3} : ∃ t, execCreatePool a1 a2 a3 s = .next t ∧ State.Follows s t := by
  unfold execCreatePool
  refine ⟨_, rfl, ?_⟩
  have h := State.Follows.refl s
  repeat' first | with_reducible assumption | intro _ | with_reducible apply State.packet_follows | with_reducible apply PktRes.fail_follows | with_reducible apply State.formPool_follows | with_reducible apply State.sharePool_follows | with_reducible apply State.startPool_follows | with_reducible apply State.noteRecord_follows | with_reducible exact PktRes.follows_waits | with_reducible apply PktRes.follows_done | with_reducible apply PktRes.follows_started | with_reducible apply PktRes.follows_startDone | with_reducible apply PktRes.follows_quiet | with_reducible apply foldl_follows | with_reducible apply Follows.ite | with_reducible apply PktRes.follows_ite | split | extract_lets | with_reducible apply Follows.frame

theorem execRingDrainDone_follows {s : State} {a1} : ∃ t, execRingDrainDone a1 s = .next t ∧ State.Follows s t := by
  unfold execRingDrainDone
  refine ⟨_, rfl, ?_⟩
  have h := State.Follows.refl s
  repeat' first | with_reducible assumption | intro _ | with_reducible apply State.setRing_follows | with_reducible apply foldl_follows | with_reducible apply Follows.ite | split | extract_lets | with_reducible apply Follows.frame

theorem execAttachVolume_follows {s : State} {a1 a2} : ∃ t, execAttachVolume a1 a2 s = .next t ∧ State.Follows s t := by
  unfold execAttachVolume
  refine ⟨_, rfl, ?_⟩
  have h := State.Follows.refl s
  repeat' first | with_reducible assumption | intro _ | with_reducible apply State.packet_follows | with_reducible apply PktRes.fail_follows | with_reducible apply State.nsChanged_follows | with_reducible apply State.storeVol_follows | with_reducible apply State.cfgDone_follows | with_reducible exact PktRes.follows_waits | with_reducible apply PktRes.follows_done | with_reducible apply PktRes.follows_started | with_reducible apply PktRes.follows_startDone | with_reducible apply PktRes.follows_quiet | with_reducible apply foldl_follows | with_reducible apply Follows.ite | with_reducible apply PktRes.follows_ite | split | extract_lets | with_reducible apply Follows.frame

end Sys2Proof.Machine
end

