-- ==== Sys2Proof/Laws/Dma.lean ====
section
/-! SUPPORT. What each operation of Machine/Dma.lean can do: what follows from a state before it follows after it (Sys2Proof.Machine.State.Follows). -/
namespace Sys2Proof.Machine

theorem State.dmaPut_follows {s0 s : State} {a1 a2 a3} (h : State.Follows s0 s) : State.Follows s0 (State.dmaPut s a1 a2 a3) := by
  unfold State.dmaPut
  repeat' first | with_reducible assumption | intro _ | with_reducible apply State.setFld_follows | with_reducible apply foldl_follows | with_reducible apply Follows.ite | split | extract_lets | with_reducible apply Follows.frame

theorem State.dmaErr_follows {s0 s : State} {a1 a2 a3} (h : State.Follows s0 s) : State.Follows s0 (State.dmaErr s a1 a2 a3) := by
  unfold State.dmaErr
  repeat' first | with_reducible assumption | intro _ | with_reducible apply State.bump_follows | with_reducible apply State.dmaPut_follows | with_reducible apply State.setFld_follows | with_reducible apply State.emit_follows | with_reducible apply foldl_follows | with_reducible apply Follows.ite | split | extract_lets | with_reducible apply Follows.frame

theorem execDmaAbort_follows {s : State} {a1} : ∃ t, execDmaAbort a1 s = .next t ∧ State.Follows s t := by
  unfold execDmaAbort
  refine ⟨_, rfl, ?_⟩
  have h := State.Follows.refl s
  repeat' first | with_reducible assumption | intro _ | with_reducible apply State.dmaPut_follows | with_reducible apply State.dmaErr_follows | with_reducible apply foldl_follows | with_reducible apply Follows.ite | split | extract_lets | with_reducible apply Follows.frame

theorem execDmaShadowWrite_follows {s : State} {a1 a2 a3 a4} : ∃ t, execDmaShadowWrite a1 a2 a3 a4 s = .next t ∧ State.Follows s t := by
  unfold execDmaShadowWrite
  refine ⟨_, rfl, ?_⟩
  have h := State.Follows.refl s
  repeat' first | with_reducible assumption | intro _ | with_reducible apply State.dmaPut_follows | with_reducible apply State.half64_follows | with_reducible apply State.wrBus_follows | with_reducible apply foldl_follows | with_reducible refine fst_follows (by assumption) ?_ | with_reducible apply Follows.ite | split | extract_lets | with_reducible apply Follows.frame

theorem State.dmaAsk_follows {s0 s : State} {a1 a2} (h : State.Follows s0 s) : State.Follows s0 (State.dmaAsk s a1 a2) := by
  unfold State.dmaAsk
  repeat' first | with_reducible assumption | intro _ | with_reducible apply State.emit_follows | with_reducible apply State.control_follows | with_reducible apply foldl_follows | with_reducible apply Follows.ite | split | extract_lets | with_reducible apply Follows.frame

theorem State.dmaIssue_follows {s0 s : State} {a1 a2} (h : State.Follows s0 s) : State.Follows s0 (State.dmaIssue s a1 a2) := by
  induction a2 generalizing s with
  | zero =>
    unfold State.dmaIssue
    repeat' first | with_reducible assumption | with_reducible apply ih | intro _ | with_reducible apply State.dmaAsk_follows | with_reducible apply foldl_follows | with_reducible apply Follows.ite | split | extract_lets | with_reducible apply Follows.frame
  | succ n ih =>
    unfold State.dmaIssue
    repeat' first | with_reducible assumption | with_reducible apply ih | intro _ | with_reducible apply State.dmaAsk_follows | with_reducible apply foldl_follows | with_reducible apply Follows.ite | split | extract_lets | with_reducible apply Follows.frame

theorem State.dmaHandover_follows {s0 s : State} {a1} (h : State.Follows s0 s) : State.Follows s0 (State.dmaHandover s a1) := by
  unfold State.dmaHandover
  repeat' first | with_reducible assumption | intro _ | with_reducible apply State.wr_follows | with_reducible apply State.dmaPut_follows | with_reducible apply State.dmaErr_follows | with_reducible apply State.dmaIssue_follows | with_reducible apply foldl_follows | with_reducible apply Follows.ite | split | extract_lets | with_reducible apply Follows.frame

theorem execDmaArm_follows {s : State} {a1} : ∃ t, execDmaArm a1 s = .next t ∧ State.Follows s t := by
  unfold execDmaArm
  refine ⟨_, rfl, ?_⟩
  have h := State.Follows.refl s
  repeat' first | with_reducible assumption | intro _ | with_reducible apply State.dmaPut_follows | with_reducible apply State.dmaHandover_follows | with_reducible apply foldl_follows | with_reducible apply Follows.ite | split | extract_lets | with_reducible apply Follows.frame

theorem State.dmaStatusWrite_follows {s0 s : State} {a1 a2} (h : State.Follows s0 s) : State.Follows s0 (State.dmaStatusWrite s a1 a2) := by
  unfold State.dmaStatusWrite
  repeat' first | with_reducible assumption | intro _ | with_reducible apply State.wrBus_follows | with_reducible apply State.dmaHandover_follows | with_reducible apply State.dmaPut_follows | with_reducible apply State.setFld_follows | with_reducible apply foldl_follows | with_reducible apply Follows.ite | split | extract_lets | with_reducible apply Follows.frame

theorem execDmaWinCfgWrite_follows {s : State} {a1 a2} : ∃ t, execDmaWinCfgWrite a1 a2 s = .next t ∧ State.Follows s t := by
  unfold execDmaWinCfgWrite
  refine ⟨_, rfl, ?_⟩
  have h := State.Follows.refl s
  repeat' first | with_reducible assumption | intro _ | with_reducible apply State.setFld_follows | with_reducible apply State.wrBus_follows | with_reducible apply foldl_follows | with_reducible apply Follows.ite | split | extract_lets | with_reducible apply Follows.frame

theorem State.dmaStore_follows {s0 s : State} {a1 a2 a3} (h : State.Follows s0 s) : State.Follows s0 (State.dmaStore s a1 a2 a3) := by
  unfold State.dmaStore
  repeat' first | with_reducible assumption | intro _ | with_reducible apply State.emit_follows | with_reducible apply State.place_follows | with_reducible apply State.control_follows | with_reducible apply foldl_follows | with_reducible apply Follows.ite | split | extract_lets | with_reducible apply Follows.frame

theorem State.dmaDue_follows {s0 s : State} {a1 a2 a3} (h : State.Follows s0 s) : State.Follows s0 (State.dmaDue s a1 a2 a3) := by
  unfold State.dmaDue
  repeat' first | with_reducible assumption | intro _ | with_reducible apply State.dmaPut_follows | with_reducible apply State.emit_follows | with_reducible apply foldl_follows | with_reducible apply Follows.ite | split | extract_lets | with_reducible apply Follows.frame

theorem State.dmaProgress_follows {s0 s : State} {a1} (h : State.Follows s0 s) : State.Follows s0 (State.dmaProgress s a1) := by
  unfold State.dmaProgress
  repeat' first | with_reducible assumption | intro _ | with_reducible apply State.wr_follows | with_reducible apply State.dmaDue_follows | with_reducible apply State.bump_follows | with_reducible apply State.dmaHandover_follows | with_reducible apply State.dmaPut_follows | with_reducible apply State.dmaIssue_follows | with_reducible apply foldl_follows | with_reducible apply Follows.ite | split | extract_lets | with_reducible apply Follows.frame

theorem State.dmaChunk_follows {s0 s : State} {a1 a2 a3} (h : State.Follows s0 s) : State.Follows s0 (State.dmaChunk s a1 a2 a3) := by
  unfold State.dmaChunk
  repeat' first | with_reducible assumption | intro _ | with_reducible apply State.dmaErr_follows | with_reducible apply State.bumpBy_follows | with_reducible apply State.dmaStore_follows | with_reducible apply State.dmaProgress_follows | with_reducible apply foldl_follows | with_reducible apply Follows.ite | split | extract_lets | with_reducible apply Follows.frame

theorem execDmaChunkDone_follows {s : State} {a1 a2 a3} : ∃ t, execDmaChunkDone a1 a2 a3 s = .next t ∧ State.Follows s t := by
  unfold execDmaChunkDone
  refine ⟨_, rfl, ?_⟩
  have h := State.Follows.refl s
  repeat' first | with_reducible assumption | intro _ | with_reducible apply State.dmaChunk_follows | with_reducible apply State.dmaErr_follows | with_reducible apply foldl_follows | with_reducible apply Follows.ite | split | extract_lets | with_reducible apply Follows.frame

theorem execDmaErrClear_follows {s : State} {a1 a2} : ∃ t, execDmaErrClear a1 a2 s = .next t ∧ State.Follows s t := by
  unfold execDmaErrClear
  refine ⟨_, rfl, ?_⟩
  have h := State.Follows.refl s
  repeat' first | with_reducible assumption | intro _ | with_reducible apply State.dmaStatusWrite_follows | with_reducible apply foldl_follows | with_reducible apply Follows.ite | split | extract_lets | with_reducible apply Follows.frame

theorem execWindowReadReplyRx_follows {s : State} {a1 a2} : ∃ t, execWindowReadReplyRx a1 a2 s = .next t ∧ State.Follows s t := by
  unfold execWindowReadReplyRx
  refine ⟨_, rfl, ?_⟩
  have h := State.Follows.refl s
  repeat' first | with_reducible assumption | intro _ | with_reducible apply State.onPtl_follows | with_reducible apply State.dmaErr_follows | with_reducible apply State.dmaChunk_follows | with_reducible apply foldl_follows | with_reducible apply Follows.ite | split | extract_lets | with_reducible apply Follows.frame

theorem execDmaFault_follows {s : State} {a1 a2} : ∃ t, execDmaFault a1 a2 s = .next t ∧ State.Follows s t := by
  unfold execDmaFault
  refine ⟨_, rfl, ?_⟩
  have h := State.Follows.refl s
  repeat' first | with_reducible assumption | intro _ | with_reducible apply State.dmaErr_follows | with_reducible apply foldl_follows | with_reducible apply Follows.ite | split | extract_lets | with_reducible apply Follows.frame

theorem execWindowReadRx_follows {s : State} {a1 a2} : ∃ t, execWindowReadRx a1 a2 s = .next t ∧ State.Follows s t := by
  unfold execWindowReadRx
  refine ⟨_, rfl, ?_⟩
  have h := State.Follows.refl s
  repeat' first | with_reducible assumption | intro _ | with_reducible apply State.onPtl_follows | with_reducible apply State.control_follows | with_reducible apply foldl_follows | with_reducible apply Follows.ite | split | extract_lets | with_reducible apply Follows.frame

theorem execWindowWriteRx_follows {s : State} {a1 a2} : ∃ t, execWindowWriteRx a1 a2 s = .next t ∧ State.Follows s t := by
  unfold execWindowWriteRx
  refine ⟨_, rfl, ?_⟩
  have h := State.Follows.refl s
  repeat' first | with_reducible assumption | intro _ | with_reducible apply State.onPtl_follows | with_reducible apply State.place_follows | with_reducible apply State.control_follows | with_reducible apply foldl_follows | with_reducible apply Follows.ite | split | extract_lets | with_reducible apply Follows.frame

end Sys2Proof.Machine
end

