-- ==== Sys2Proof/Laws/Sfl.lean ====
section
/-! SUPPORT. What each operation of Machine/Sfl.lean can do: what follows from a state before it follows after it (Sys2Proof.Machine.State.Follows). -/
namespace Sys2Proof.Machine

theorem State.sflEnd_follows {s0 s : State} {a1 a2} (h : State.Follows s0 s) : State.Follows s0 (State.sflEnd s a1 a2) := by
  unfold State.sflEnd
  repeat' first | with_reducible assumption | intro _ | with_reducible apply State.setFld_follows | with_reducible apply foldl_follows | with_reducible apply Follows.ite | split | extract_lets | with_reducible apply Follows.frame

theorem State.sflCommand_follows {s0 s : State} {a1 a2} (h : State.Follows s0 s) : State.Follows s0 (State.sflCommand s a1 a2) := by
  unfold State.sflCommand
  repeat' first | with_reducible assumption | intro _ | with_reducible apply State.sflEnd_follows | with_reducible apply foldl_follows | with_reducible apply Follows.ite | split | extract_lets | with_reducible apply Follows.frame

theorem State.sflLevel_follows {s0 s : State} {a1 a2} (h : State.Follows s0 s) : State.Follows s0 (State.sflLevel s a1 a2) := by
  unfold State.sflLevel
  repeat' first | with_reducible assumption | intro _ | with_reducible apply State.bump_follows | with_reducible apply State.refreshPage_follows | with_reducible apply State.setFld_follows | with_reducible apply foldl_follows | with_reducible apply Follows.ite | split | extract_lets | with_reducible apply Follows.frame

theorem State.sflUnc_follows {s0 s : State} {a1} (h : State.Follows s0 s) : State.Follows s0 (State.sflUnc s a1) := by
  unfold State.sflUnc
  repeat' first | with_reducible assumption | intro _ | with_reducible apply State.event_follows | with_reducible apply State.bump_follows | with_reducible apply State.setFld_follows | with_reducible apply foldl_follows | with_reducible apply Follows.ite | split | extract_lets | with_reducible apply Follows.frame

theorem execSflErase_follows {s : State} {a1} : ∃ t, execSflErase a1 s = .next t ∧ State.Follows s t := by
  unfold execSflErase
  refine ⟨_, rfl, ?_⟩
  have h := State.Follows.refl s
  repeat' first | with_reducible assumption | intro _ | with_reducible apply State.sflCommand_follows | with_reducible apply foldl_follows | with_reducible apply Follows.ite | split | extract_lets | with_reducible apply Follows.frame

theorem execSflApertureRead_follows {s : State} {a1 a2 a3} : ∃ t, execSflApertureRead a1 a2 a3 s = .next t ∧ State.Follows s t := by
  unfold execSflApertureRead
  refine ⟨_, rfl, ?_⟩
  have h := State.Follows.refl s
  repeat' first | with_reducible assumption | intro _ | with_reducible apply State.emit_follows | with_reducible apply State.bump_follows | with_reducible apply State.setFld_follows | with_reducible apply State.sflUnc_follows | with_reducible apply State.sflLevel_follows | with_reducible apply foldl_follows | with_reducible apply Follows.ite | split | extract_lets | with_reducible apply Follows.frame

theorem State.sflApply_follows {s0 s : State} {a1 a2} (h : State.Follows s0 s) : State.Follows s0 (State.sflApply s a1 a2) := by
  unfold State.sflApply
  repeat' first | with_reducible assumption | intro _ | with_reducible apply State.bump_follows | with_reducible apply State.sflPut_follows | with_reducible apply State.sflLoose_follows | with_reducible apply State.sflRetire_follows | with_reducible apply State.sflClear_follows | with_reducible apply foldl_follows | with_reducible apply Follows.ite | split | extract_lets | with_reducible apply Follows.frame

theorem execReadSystemFlash_follows {s : State} {a1 a2 a3} : ∃ t, execReadSystemFlash a1 a2 a3 s = .next t ∧ State.Follows s t := by
  unfold execReadSystemFlash
  dsimp only
  refine ⟨_, rfl, ?_⟩
  have h := State.Follows.refl s
  repeat' first | with_reducible assumption | intro _ | with_reducible apply State.packet_follows | with_reducible apply PktRes.fail_follows | with_reducible apply State.sflLevel_follows | with_reducible apply State.sflUnc_follows | with_reducible exact PktRes.follows_waits | with_reducible apply PktRes.follows_done | with_reducible apply PktRes.follows_started | with_reducible apply PktRes.follows_startDone | with_reducible apply PktRes.follows_quiet | with_reducible apply foldl_follows | with_reducible apply Follows.ite | with_reducible apply PktRes.follows_ite | split | with_reducible apply Follows.frame

theorem execSflOpDone_follows {s : State} {a1 a2} : ∃ t, execSflOpDone a1 a2 s = .next t ∧ State.Follows s t := by
  unfold execSflOpDone
  refine ⟨_, rfl, ?_⟩
  have h := State.Follows.refl s
  repeat' first | with_reducible assumption | intro _ | with_reducible apply State.sflEnd_follows | with_reducible apply State.sflApply_follows | with_reducible apply State.wr_follows | with_reducible apply foldl_follows | with_reducible apply Follows.ite | split | extract_lets | with_reducible apply Follows.frame

theorem execSflProgram_follows {s : State} {a1} : ∃ t, execSflProgram a1 s = .next t ∧ State.Follows s t := by
  unfold execSflProgram
  refine ⟨_, rfl, ?_⟩
  have h := State.Follows.refl s
  repeat' first | with_reducible assumption | intro _ | with_reducible apply State.sflCommand_follows | with_reducible apply foldl_follows | with_reducible apply Follows.ite | split | extract_lets | with_reducible apply Follows.frame

end Sys2Proof.Machine
end

