-- ==== Sys2Proof/Laws/OwnRows.lean ====
section
/-! SUPPORT. What each operation of Machine/OwnRows.lean can do: what follows from a state before it follows after it (Sys2Proof.Machine.State.Follows). -/
namespace Sys2Proof.Machine

theorem State.ran_follows {s0 s : State} {a1} (h : State.Follows s0 s) (hr : ∃ t, a1 = .next t ∧ State.Follows s t) : State.Follows s0 (State.ran s a1) := by
  obtain ⟨t, rfl, ht⟩ := hr
  exact h.trans ht

theorem State.pageCmd_follows {s0 s : State} {a1 a2} (h : State.Follows s0 s) : State.Follows s0 (State.pageCmd s a1 a2) := by
  unfold State.pageCmd
  repeat' first | with_reducible assumption | intro _ | with_reducible apply State.ran_follows | with_reducible exact execKeyPageCommit_follows | with_reducible apply State.fresh_follows | with_reducible exact execKeyPageGenerate_follows | with_reducible exact execKeyPageErase_follows | with_reducible apply foldl_follows | with_reducible refine snd_follows (by assumption) ?_ | with_reducible apply Follows.ite | split | extract_lets | with_reducible apply Follows.frame

theorem State.pageWrite_follows {s0 s : State} {a1 a2 a3} (h : State.Follows s0 s) : State.Follows s0 (State.pageWrite s a1 a2 a3) := by
  unfold State.pageWrite
  repeat' first | with_reducible assumption | intro _ | with_reducible apply State.ran_follows | with_reducible exact execKeyPageCfgWrite_follows | with_reducible apply State.pageCmd_follows | with_reducible exact execKeyPageKeyWrite_follows | with_reducible apply foldl_follows | with_reducible apply Follows.ite | split | extract_lets | with_reducible apply Follows.frame

theorem State.slotCmd_follows {s0 s : State} {a1 a2} (h : State.Follows s0 s) : State.Follows s0 (State.slotCmd s a1 a2) := by
  unfold State.slotCmd
  repeat' first | with_reducible assumption | intro _ | with_reducible apply State.ran_follows | with_reducible exact execKeySlotCommit_follows | with_reducible apply State.fresh_follows | with_reducible exact execKeySlotGenerate_follows | with_reducible exact execKeySlotErase_follows | with_reducible apply foldl_follows | with_reducible refine snd_follows (by assumption) ?_ | with_reducible apply Follows.ite | split | extract_lets | with_reducible apply Follows.frame

theorem State.slotWrite_follows {s0 s : State} {a1 a2 a3} (h : State.Follows s0 s) : State.Follows s0 (State.slotWrite s a1 a2 a3) := by
  unfold State.slotWrite
  repeat' first | with_reducible assumption | intro _ | with_reducible apply State.ran_follows | with_reducible exact execKeySlotKeyWrite_follows | with_reducible apply State.slotCmd_follows | with_reducible apply foldl_follows | with_reducible apply Follows.ite | split | extract_lets | with_reducible apply Follows.frame

theorem State.chanWrite_follows {s0 s : State} {a1 a2 a3} (h : State.Follows s0 s) : State.Follows s0 (State.chanWrite s a1 a2 a3) := by
  unfold State.chanWrite
  repeat' first | with_reducible assumption | intro _ | with_reducible apply State.ran_follows | with_reducible exact execDmaShadowWrite_follows | with_reducible exact execDmaAbort_follows | with_reducible exact execDmaArm_follows | with_reducible apply State.dmaStatusWrite_follows | with_reducible apply foldl_follows | with_reducible apply Follows.ite | split | extract_lets | with_reducible apply Follows.frame

theorem State.hostBytes_follows {s0 s : State} {a1} (h : State.Follows s0 s) : State.Follows s0 (State.hostBytes s a1).2 := by
  exact ⟨h.queue, h.sent, Nat.le_trans h.drawn (Nat.le_succ _), fun g =>
    let k := h.sound g
    ⟨k.regs, k.hbm, k.ddr, k.flash, k.buf, k.rings, k.chans, k.allow⟩⟩

theorem State.ringBell_follows {s0 s : State} {a1 a2} (h : State.Follows s0 s) : State.Follows s0 (State.ringBell s a1 a2) := by
  unfold State.ringBell
  repeat' first | with_reducible assumption | intro _ | with_reducible apply State.hostBytes_follows | with_reducible apply State.ran_follows | with_reducible exact execRingDoorbell_follows | with_reducible apply foldl_follows | with_reducible refine snd_follows (by assumption) ?_ | with_reducible apply Follows.ite | split | extract_lets | with_reducible apply Follows.frame

theorem State.rcvGo_follows {s0 s : State} (h : State.Follows s0 s) : State.Follows s0 (State.rcvGo s) := by
  unfold State.rcvGo
  repeat' first | with_reducible assumption | intro _ | with_reducible apply State.hostBytes_follows | with_reducible apply State.fresh_follows | with_reducible apply State.recover_follows | with_reducible apply foldl_follows | with_reducible refine snd_follows (by assumption) ?_ | with_reducible apply Follows.ite | split | extract_lets | with_reducible apply Follows.frame

theorem State.ownWrite_follows {s0 s : State} {a1 a2} (h : State.Follows s0 s) : State.Follows s0 (State.ownWrite s a1 a2) := by
  unfold State.ownWrite
  repeat' first | with_reducible assumption | intro _ | with_reducible apply State.ran_follows | with_reducible exact execForcedAlarm_follows | with_reducible apply State.pageWrite_follows | with_reducible apply State.slotWrite_follows | with_reducible apply State.chanWrite_follows | with_reducible exact execDmaWinCfgWrite_follows | with_reducible apply State.sflCommand_follows | with_reducible apply State.llcWayOff_follows | with_reducible apply State.ringCfg_follows | with_reducible apply State.ringBell_follows | with_reducible exact execRplHeadWrite_follows | with_reducible apply State.rcvGo_follows | with_reducible apply foldl_follows | with_reducible apply Follows.ite | split | extract_lets | with_reducible apply Follows.frame

theorem State.ownWide_follows {s0 s : State} {a1 a2} (h : State.Follows s0 s) : State.Follows s0 (State.ownWide s a1 a2) := by
  unfold State.ownWide
  repeat' first | with_reducible assumption | intro _ | with_reducible apply State.ran_follows | with_reducible exact execDmaShadowWrite_follows | with_reducible apply foldl_follows | with_reducible apply Follows.ite | split | extract_lets | with_reducible apply Follows.frame

end Sys2Proof.Machine
end

