-- ==== Sys2Proof/Laws/RegAccess.lean ====
section
/-! SUPPORT. What each operation of Machine/RegAccess.lean can do: what follows from a state before it follows after it (Sys2Proof.Machine.State.Follows). -/
namespace Sys2Proof.Machine

theorem State.regVal_follows {s0 s : State} {a1} (h : State.Follows s0 s) : State.Follows s0 (State.regVal s a1).2 := by
  unfold State.regVal
  repeat' first | with_reducible assumption | intro _ | with_reducible apply State.fresh_follows | with_reducible apply foldl_follows | with_reducible refine snd_follows (by assumption) ?_ | with_reducible apply Follows.ite | split | extract_lets | with_reducible apply Follows.frame

theorem State.read32_follows {s0 s : State} {a1} (h : State.Follows s0 s) : State.Follows s0 (State.read32 s a1).2 := by
  unfold State.read32
  repeat' first | with_reducible assumption | intro _ | with_reducible apply State.regVal_follows | with_reducible apply foldl_follows | with_reducible refine snd_follows (by assumption) ?_ | with_reducible apply Follows.ite | split | extract_lets | with_reducible apply Follows.frame

theorem State.read64_follows {s0 s : State} {a1} (h : State.Follows s0 s) : State.Follows s0 (State.read64 s a1).2 := by
  unfold State.read64
  split
  · exact State.regVal_follows h
  · split
    split
    exact snd_follows ‹_› (State.read32_follows (snd_follows ‹_› (State.read32_follows h)))

theorem State.busRead_follows {s0 s : State} {a1 a2 a3} (h : State.Follows s0 s) : State.Follows s0 (State.busRead s a1 a2 a3) := by
  unfold State.busRead
  repeat' first | with_reducible assumption | intro _ | with_reducible apply State.emit_follows | with_reducible apply State.read64_follows | with_reducible apply State.read32_follows | with_reducible apply foldl_follows | with_reducible refine snd_follows (by assumption) ?_ | with_reducible apply Follows.ite | split | extract_lets | with_reducible apply Follows.frame

theorem execReg64HiRead_follows {s : State} {a1 a2} : ∃ t, execReg64HiRead a1 a2 s = .next t ∧ State.Follows s t := by
  unfold execReg64HiRead
  refine ⟨_, rfl, ?_⟩
  have h := State.Follows.refl s
  repeat' first | with_reducible assumption | intro _ | with_reducible apply State.busRead_follows | with_reducible apply foldl_follows | with_reducible apply Follows.ite | split | extract_lets | with_reducible apply Follows.frame

theorem State.ddrSplit_follows {s0 s : State} {a1} (h : State.Follows s0 s) : State.Follows s0 (State.ddrSplit s a1) := by
  unfold State.ddrSplit
  repeat' first | with_reducible assumption | intro _ | with_reducible apply State.event_follows | with_reducible apply State.wr_follows | with_reducible apply State.wrBus_follows | with_reducible apply foldl_follows | with_reducible apply Follows.ite | split | extract_lets | with_reducible apply Follows.frame

theorem State.wrAlarm_follows {s0 s : State} {a1 a2} (h : State.Follows s0 s) : State.Follows s0 (State.wrAlarm s a1 a2) := by
  unfold State.wrAlarm
  repeat' first | with_reducible assumption | intro _ | with_reducible apply State.wrBus_follows | with_reducible apply State.driveAlert_follows | with_reducible apply foldl_follows | with_reducible apply Follows.ite | split | extract_lets | with_reducible apply Follows.frame

theorem State.wrRate_follows {s0 s : State} {a1 a2} (h : State.Follows s0 s) : State.Follows s0 (State.wrRate s a1 a2) := by
  unfold State.wrRate
  extract_lets t
  have ht : State.Follows s0 t := State.wrBus_follows h
  exact ⟨ht.queue, ht.sent, ht.drawn, fun g =>
    let k := ht.sound g
    ⟨k.regs, k.hbm, k.ddr, k.flash, k.buf, k.rings, k.chans, (List.length_modify ..).trans k.allow⟩⟩

theorem State.wrPool_follows {s0 s : State} {a1 a2} (h : State.Follows s0 s) : State.Follows s0 (State.wrPool s a1 a2) := by
  unfold State.wrPool
  repeat' first | with_reducible assumption | intro _ | with_reducible apply State.wrBus_follows | with_reducible apply State.placeCfg_follows | with_reducible apply foldl_follows | with_reducible apply Follows.ite | split | extract_lets | with_reducible apply Follows.frame

theorem State.wrTide_follows {s0 s : State} {a1} (h : State.Follows s0 s) : State.Follows s0 (State.wrTide s a1) := by
  unfold State.wrTide
  repeat' first | with_reducible assumption | intro _ | with_reducible apply State.wrBus_follows | with_reducible apply State.refFound_follows | with_reducible apply State.refLost_follows | with_reducible apply foldl_follows | with_reducible apply Follows.ite | split | extract_lets | with_reducible apply Follows.frame

theorem State.wrReg_follows {s0 s : State} {a1 a2} (h : State.Follows s0 s) : State.Follows s0 (State.wrReg s a1 a2) := by
  unfold State.wrReg
  repeat' first | with_reducible assumption | intro _ | with_reducible apply State.ddrSplit_follows | with_reducible apply State.wrAlarm_follows | with_reducible apply State.wrRate_follows | with_reducible apply State.wrPool_follows | with_reducible apply State.wrTide_follows | with_reducible apply State.retrySubst_follows | with_reducible apply State.wrBus_follows | with_reducible apply State.fillCheck_follows | with_reducible apply foldl_follows | with_reducible apply Follows.ite | split | extract_lets | with_reducible apply Follows.frame

theorem State.write32_follows {s0 s : State} {a1 a2 a3} (h : State.Follows s0 s) : State.Follows s0 (State.write32 s a1 a2 a3) := by
  have hb : ∀ a bs, State.Follows s0 { s with sfl.buf := memWriteAll 0 s.sfl.buf a bs } := fun a bs =>
    ⟨h.queue, h.sent, h.drawn, fun g =>
      let k := h.sound g
      ⟨k.regs, k.hbm, k.ddr, k.flash, Memory.wf_writeAll _ _ k.buf, k.rings, k.chans, k.allow⟩⟩
  unfold State.write32
  repeat' first | with_reducible assumption | with_reducible exact hb _ _ | with_reducible apply State.ownWrite_follows | with_reducible apply State.gatedDrop_follows | with_reducible apply State.wrReg_follows | with_reducible apply State.holdLow_follows | with_reducible apply State.dropLow_follows | split

theorem State.write64_follows {s0 s : State} {a1 a2} (h : State.Follows s0 s) : State.Follows s0 (State.write64 s a1 a2) := by
  unfold State.write64
  repeat' first | with_reducible assumption | intro _ | with_reducible apply State.gatedDrop_follows | with_reducible apply State.ownWide_follows | with_reducible apply State.wrReg_follows | with_reducible apply State.dropLow_follows | with_reducible apply State.write32_follows | with_reducible apply foldl_follows | with_reducible apply Follows.ite | split | extract_lets | with_reducible apply Follows.frame

theorem State.busWrite_follows {s0 s : State} {a1 a2 a3 a4} (h : State.Follows s0 s) : State.Follows s0 (State.busWrite s a1 a2 a3 a4) := by
  unfold State.busWrite
  repeat' first | with_reducible assumption | intro _ | with_reducible apply State.event_follows | with_reducible apply State.write64_follows | with_reducible apply State.write32_follows | with_reducible apply foldl_follows | with_reducible apply Follows.ite | split | extract_lets | with_reducible apply Follows.frame

theorem execRegisterWrite_follows {s : State} {a1 a2 a3 a4} : ∃ t, execRegisterWrite a1 a2 a3 a4 s = .next t ∧ State.Follows s t := by
  unfold execRegisterWrite
  refine ⟨_, rfl, ?_⟩
  have h := State.Follows.refl s
  repeat' first | with_reducible assumption | intro _ | with_reducible apply State.busWrite_follows | with_reducible apply foldl_follows | with_reducible apply Follows.ite | split | extract_lets | with_reducible apply Follows.frame

theorem execMisalignedAccess_follows {s : State} {a1 a2 a3 a4 a5} : ∃ t, execMisalignedAccess a1 a2 a3 a4 a5 s = .next t ∧ State.Follows s t := by
  unfold execMisalignedAccess
  refine ⟨_, rfl, ?_⟩
  have h := State.Follows.refl s
  repeat' first | with_reducible assumption | intro _ | with_reducible apply State.busWrite_follows | with_reducible apply State.busRead_follows | with_reducible apply foldl_follows | with_reducible apply Follows.ite | split | extract_lets | with_reducible apply Follows.frame

theorem execReg64LoRead_follows {s : State} {a1 a2} : ∃ t, execReg64LoRead a1 a2 s = .next t ∧ State.Follows s t := by
  unfold execReg64LoRead
  refine ⟨_, rfl, ?_⟩
  have h := State.Follows.refl s
  repeat' first | with_reducible assumption | intro _ | with_reducible apply State.busRead_follows | with_reducible apply foldl_follows | with_reducible apply Follows.ite | split | extract_lets | with_reducible apply Follows.frame

theorem execReg64HiWrite_follows {s : State} {a1 a2 a3} : ∃ t, execReg64HiWrite a1 a2 a3 s = .next t ∧ State.Follows s t := by
  unfold execReg64HiWrite
  refine ⟨_, rfl, ?_⟩
  have h := State.Follows.refl s
  repeat' first | with_reducible assumption | intro _ | with_reducible apply State.busWrite_follows | with_reducible apply foldl_follows | with_reducible apply Follows.ite | split | extract_lets | with_reducible apply Follows.frame

theorem execReg64LoWrite_follows {s : State} {a1 a2 a3} : ∃ t, execReg64LoWrite a1 a2 a3 s = .next t ∧ State.Follows s t := by
  unfold execReg64LoWrite
  refine ⟨_, rfl, ?_⟩
  have h := State.Follows.refl s
  repeat' first | with_reducible assumption | intro _ | with_reducible apply State.busWrite_follows | with_reducible apply foldl_follows | with_reducible apply Follows.ite | split | extract_lets | with_reducible apply Follows.frame

theorem execGatedRegisterAccess_follows {s : State} {a1 a2 a3 a4} : ∃ t, execGatedRegisterAccess a1 a2 a3 a4 s = .next t ∧ State.Follows s t := by
  unfold execGatedRegisterAccess
  refine ⟨_, rfl, ?_⟩
  have h := State.Follows.refl s
  repeat' first | with_reducible assumption | intro _ | with_reducible apply State.busWrite_follows | with_reducible apply State.busRead_follows | with_reducible apply foldl_follows | with_reducible apply Follows.ite | split | extract_lets | with_reducible apply Follows.frame

end Sys2Proof.Machine
end

