-- ==== Sys2Proof/Laws/Boot.lean ====
section
/-! SUPPORT. What each operation of Machine/Boot.lean can do: what follows from a state before it follows after it (Sys2Proof.Machine.State.Follows). -/
namespace Sys2Proof.Machine

theorem State.railMissing_follows {s0 s : State} {a1} (h : State.Follows s0 s) : State.Follows s0 (State.railMissing s a1) := by
  unfold State.railMissing
  repeat' first | with_reducible assumption | intro _ | with_reducible apply State.alarm_follows | with_reducible apply foldl_follows | with_reducible apply Follows.ite | split | extract_lets | with_reducible apply Follows.frame

theorem execHostPcieReset_follows {s : State} : ∃ t, execHostPcieReset s = .next t ∧ State.Follows s t := by
  unfold execHostPcieReset
  refine ⟨_, rfl, ?_⟩
  extract_lets hosts mine t wipe
  have ht : State.Follows s t := foldl_follows (State.Follows.refl s) fun _ _ hx => State.dropIo_follows (State.discardCmd_follows hx)
  exact ⟨ht.queue, ht.sent, ht.drawn, fun g =>
    let k := ht.sound g
    ⟨regsWfFrom_filter k.regs, k.hbm, k.ddr, k.flash, k.buf, (List.length_map ..).trans k.rings, k.chans, k.allow⟩⟩

theorem State.flashCut_follows {s0 s : State} (h : State.Follows s0 s) : State.Follows s0 (State.flashCut s) := by
  unfold State.flashCut
  repeat' first | with_reducible assumption | intro _ | with_reducible apply State.sflLoose_follows | with_reducible apply foldl_follows | with_reducible apply Follows.ite | split | extract_lets | with_reducible apply Follows.frame

theorem State.alarmsAgain_follows {s0 s : State} (h : State.Follows s0 s) : State.Follows s0 (State.alarmsAgain s) := by
  unfold State.alarmsAgain
  repeat' first | with_reducible assumption | intro _ | with_reducible apply State.raiseAlarm_follows | with_reducible apply foldl_follows | with_reducible apply Follows.ite | split | extract_lets | with_reducible apply Follows.frame

theorem State.stageMemory_follows {s0 s : State} {a1} (h : State.Follows s0 s) : State.Follows s0 (State.stageMemory s a1) := by
  unfold State.stageMemory
  repeat' first | with_reducible assumption | intro _ | with_reducible apply State.event_follows | with_reducible apply foldl_follows | with_reducible apply Follows.ite | split | extract_lets | with_reducible apply Follows.frame

theorem State.applyReg_follows {s0 s : State} {a1 a2} (h : State.Follows s0 s) : State.Follows s0 (State.applyReg s a1 a2) := by
  unfold State.applyReg
  extract_lets t
  have ht : State.Follows s0 t := Follows.ite (State.llcWayOff_follows h) (State.write32_follows h)
  exact Follows.frame ht

theorem State.skipEntry_follows {s0 s : State} {a1 a2} (h : State.Follows s0 s) : State.Follows s0 (State.skipEntry s a1 a2) := by
  unfold State.skipEntry
  repeat' first | with_reducible assumption | intro _ | with_reducible apply State.event_follows | with_reducible apply foldl_follows | with_reducible apply Follows.ite | split | extract_lets | with_reducible apply Follows.frame

theorem State.applyEntry_follows {s0 s : State} {a1} (h : State.Follows s0 s) : State.Follows s0 (State.applyEntry s a1) := by
  unfold State.applyEntry
  repeat' first | with_reducible assumption | intro _ | with_reducible apply State.applyReg_follows | with_reducible apply State.skipEntry_follows | with_reducible apply foldl_follows | with_reducible apply Follows.ite | split | extract_lets | with_reducible apply Follows.frame

theorem State.stageConfig_follows {s0 s : State} {a1 a2} (h : State.Follows s0 s) : State.Follows s0 (State.stageConfig s a1 a2) := by
  unfold State.stageConfig
  repeat' first | with_reducible assumption | intro _ | with_reducible apply State.event_follows | with_reducible apply State.applyEntry_follows | with_reducible apply foldl_follows | with_reducible apply Follows.ite | split | extract_lets | with_reducible apply Follows.frame

theorem State.bootCommitted_follows {s0 s : State} {a1} (h : State.Follows s0 s) : State.Follows s0 (State.bootCommitted s a1) := by
  unfold State.bootCommitted
  repeat' first | with_reducible assumption | intro _ | with_reducible apply State.verifySlot_follows | with_reducible apply State.runImage_follows | with_reducible apply foldl_follows | with_reducible refine fst_follows (by assumption) ?_ | with_reducible apply Follows.ite | split | extract_lets | with_reducible apply Follows.frame

theorem State.trialFailed_follows {s0 s : State} {a1} (h : State.Follows s0 s) : State.Follows s0 (State.trialFailed s a1) := by
  unfold State.trialFailed
  repeat' first | with_reducible assumption | intro _ | with_reducible apply State.bump_follows | with_reducible apply State.commitRec_follows | with_reducible apply foldl_follows | with_reducible apply Follows.ite | split | extract_lets | with_reducible apply Follows.frame

theorem State.stageLoad_follows {s0 s : State} {a1} (h : State.Follows s0 s) : State.Follows s0 (State.stageLoad s a1) := by
  unfold State.stageLoad
  repeat' first | with_reducible assumption | intro _ | with_reducible apply State.commitRec_follows | with_reducible apply State.verifySlot_follows | with_reducible apply State.runImage_follows | with_reducible apply State.bootCommitted_follows | with_reducible apply State.trialFailed_follows | with_reducible apply foldl_follows | with_reducible refine fst_follows (by assumption) ?_ | with_reducible apply Follows.ite | split | extract_lets | with_reducible apply Follows.frame

theorem State.bootSeq_follows {s0 s : State} {a1 a2} (h : State.Follows s0 s) : State.Follows s0 (State.bootSeq s a1 a2) := by
  unfold State.bootSeq
  repeat' first | with_reducible assumption | intro _ | with_reducible apply State.evStart_follows | with_reducible apply State.alarmsAgain_follows | with_reducible apply State.stageMemory_follows | with_reducible apply State.stageConfig_follows | with_reducible apply State.stageLoad_follows | with_reducible apply foldl_follows | with_reducible apply Follows.ite | split | extract_lets | with_reducible apply Follows.frame

theorem State.restoreDump_follows {s0 s : State} {a1} (h : State.Follows s0 s) : State.Follows s0 (State.restoreDump s a1) := by
  unfold State.restoreDump
  repeat' first | with_reducible assumption | intro _ | with_reducible apply State.adoptEntry_follows | with_reducible apply State.bumpBy_follows | with_reducible apply State.putJournal_follows | with_reducible apply foldl_follows | with_reducible apply Follows.ite | split | extract_lets | with_reducible apply Follows.frame

theorem State.resetBlocks_follows {s0 s : State} (h : State.Follows s0 s) : State.Follows s0 (State.resetBlocks s) := by
  exact ⟨h.queue, h.sent, h.drawn, fun g =>
    let k := h.sound g
    ⟨regsWfFrom_filter k.regs, rfl, rfl, k.flash, rfl, rfl, rfl, k.allow⟩⟩

theorem execWarmReset_follows {s : State} {a1} : ∃ t, execWarmReset a1 s = .next t ∧ State.Follows s t := by
  unfold execWarmReset
  refine ⟨_, rfl, ?_⟩
  have h := State.Follows.refl s
  repeat' first | with_reducible assumption | intro _ | with_reducible apply State.bump_follows | with_reducible apply State.emit_follows | with_reducible apply State.resetBlocks_follows | with_reducible apply State.evStart_follows | with_reducible apply State.bootSeq_follows | with_reducible apply foldl_follows | with_reducible apply Follows.ite | split | extract_lets | with_reducible apply Follows.frame

theorem execFieldLock_follows {s : State} {a1 a2} : ∃ t, execFieldLock a1 a2 s = .next t ∧ State.Follows s t := by
  unfold execFieldLock
  refine ⟨_, rfl, ?_⟩
  have h := State.Follows.refl s
  repeat' first | with_reducible assumption | intro _ | with_reducible apply State.packet_follows | with_reducible apply State.endSession_follows | with_reducible exact PktRes.follows_waits | with_reducible apply PktRes.follows_done | with_reducible apply PktRes.follows_started | with_reducible apply PktRes.follows_startDone | with_reducible apply PktRes.follows_quiet | with_reducible apply foldl_follows | with_reducible apply Follows.ite | with_reducible apply PktRes.follows_ite | split | extract_lets | with_reducible apply Follows.frame

theorem State.countPower_follows {s0 s : State} {a1 a2} (h : State.Follows s0 s) : State.Follows s0 (State.countPower s a1 a2) := by
  unfold State.countPower
  repeat' first | with_reducible assumption | intro _ | with_reducible apply State.warnOn_follows | with_reducible apply foldl_follows | with_reducible apply Follows.ite | split | extract_lets | with_reducible apply Follows.frame

theorem execFwStatus_follows {s : State} {a1 a2} : ∃ t, execFwStatus a1 a2 s = .next t ∧ State.Follows s t := by
  unfold execFwStatus
  refine ⟨_, rfl, ?_⟩
  have h := State.Follows.refl s
  repeat' first | with_reducible assumption | intro _ | with_reducible apply State.packet_follows | with_reducible exact PktRes.follows_waits | with_reducible apply PktRes.follows_done | with_reducible apply PktRes.follows_started | with_reducible apply PktRes.follows_startDone | with_reducible apply PktRes.follows_quiet | with_reducible apply foldl_follows | with_reducible apply Follows.ite | with_reducible apply PktRes.follows_ite | split | extract_lets | with_reducible apply Follows.frame

theorem execWatchdogFw_follows {s : State} : ∃ t, execWatchdogFw s = .next t ∧ State.Follows s t := by
  unfold execWatchdogFw
  refine ⟨_, rfl, ?_⟩
  have h := State.Follows.refl s
  repeat' first | with_reducible assumption | intro _ | with_reducible apply State.askReset_follows | with_reducible apply foldl_follows | with_reducible apply Follows.ite | split | extract_lets | with_reducible apply Follows.frame

theorem State.resetPower_follows {s0 s : State} {a1} (h : State.Follows s0 s) : State.Follows s0 (State.resetPower s a1) := by
  have hf : State.Follows s0 s.flashCut.resetBlocks := State.resetBlocks_follows (State.flashCut_follows h)
  unfold State.resetPower
  apply State.countPower_follows
  exact ⟨hf.queue, hf.sent, hf.drawn, fun g =>
    let k := hf.sound g
    ⟨regsWfFrom_filter (h.sound g).regs, k.hbm, k.ddr, k.flash, k.buf, k.rings, k.chans, rfl⟩⟩

theorem State.placeFlash_follows {s0 s : State} {a1} (h : State.Follows s0 s) : State.Follows s0 (State.placeFlash s a1) := by
  unfold State.placeFlash
  repeat' first | with_reducible assumption | intro _ | with_reducible apply State.sflPut_follows | with_reducible apply foldl_follows | with_reducible apply Follows.ite | split | extract_lets | with_reducible apply Follows.frame

theorem State.poweredUp_follows {s0 s : State} {a1} (h : State.Follows s0 s) : State.Follows s0 (State.poweredUp s a1) := by
  unfold State.poweredUp
  repeat' first | with_reducible assumption | intro _ | with_reducible apply State.emits_follows | with_reducible apply State.resetPower_follows | with_reducible apply State.placeFlash_follows | with_reducible apply State.railMissing_follows | with_reducible apply foldl_follows | with_reducible apply Follows.ite | split | extract_lets | with_reducible apply Follows.frame

theorem execFwActivate_follows {s : State} {a1 a2 a3} : ∃ t, execFwActivate a1 a2 a3 s = .next t ∧ State.Follows s t := by
  unfold execFwActivate
  refine ⟨_, rfl, State.packet_follows (State.Follows.refl s) ?_⟩
  intro e p t ht
  extract_lets i h major code differs u
  with_reducible apply PktRes.follows_ite
  · exact PktRes.fail_follows ht
  clear_value code i h major differs
  apply PktRes.follows_ite (PktRes.fail_follows ht)
  apply PktRes.follows_ite (PktRes.follows_done ht)
  apply PktRes.follows_ite (PktRes.fail_follows ht)
  apply PktRes.follows_ite (PktRes.fail_follows ht)
  apply PktRes.follows_done
  exact Follows.ite (State.askReset_follows (State.commitRec_follows ht)) (State.commitRec_follows ht)

theorem execFieldSessionExpiry_follows {s : State} : ∃ t, execFieldSessionExpiry s = .next t ∧ State.Follows s t := by
  unfold execFieldSessionExpiry
  refine ⟨_, rfl, ?_⟩
  have h := State.Follows.refl s
  repeat' first | with_reducible assumption | intro _ | with_reducible apply State.endSession_follows | with_reducible apply foldl_follows | with_reducible apply Follows.ite | split | extract_lets | with_reducible apply Follows.frame

theorem State.eraseAgain_follows {s0 s : State} (h : State.Follows s0 s) : State.Follows s0 (State.eraseAgain s) := by
  unfold State.eraseAgain
  repeat' first | with_reducible assumption | intro _ | with_reducible apply State.eraseBlk_follows | with_reducible apply foldl_follows | with_reducible apply Follows.ite | split | extract_lets | with_reducible apply Follows.frame

theorem execPowerOnReset_follows {s : State} {a1} : ∃ t, execPowerOnReset a1 s = .next t ∧ State.Follows s t := by
  unfold execPowerOnReset
  refine ⟨_, rfl, ?_⟩
  have h := State.Follows.refl s
  repeat' first | with_reducible assumption | intro _ | with_reducible apply State.bootSeq_follows | with_reducible apply State.poweredUp_follows | with_reducible apply foldl_follows | with_reducible apply Follows.ite | split | extract_lets | with_reducible apply Follows.frame

theorem execResetHead_follows {s : State} {a1 a2} : ∃ t, execResetHead a1 a2 s = .next t ∧ State.Follows s t := by
  unfold execResetHead
  refine ⟨_, rfl, ?_⟩
  have h := State.Follows.refl s
  repeat' first | with_reducible assumption | intro _ | with_reducible apply State.packet_follows | with_reducible apply PktRes.fail_follows | with_reducible apply State.askReset_follows | with_reducible exact PktRes.follows_waits | with_reducible apply PktRes.follows_done | with_reducible apply PktRes.follows_started | with_reducible apply PktRes.follows_startDone | with_reducible apply PktRes.follows_quiet | with_reducible apply foldl_follows | with_reducible apply Follows.ite | with_reducible apply PktRes.follows_ite | split | extract_lets | with_reducible apply Follows.frame

theorem execWatchdogBoot_follows {s : State} : ∃ t, execWatchdogBoot s = .next t ∧ State.Follows s t := by
  unfold execWatchdogBoot
  refine ⟨_, rfl, ?_⟩
  have h := State.Follows.refl s
  repeat' first | with_reducible assumption | intro _ | with_reducible apply State.askReset_follows | with_reducible apply foldl_follows | with_reducible apply Follows.ite | split | extract_lets | with_reducible apply Follows.frame

theorem State.rebuilt_follows {s0 s : State} {a1} (h : State.Follows s0 s) : State.Follows s0 (State.rebuilt s a1) := by
  unfold State.rebuilt
  repeat' first | with_reducible assumption | intro _ | with_reducible apply State.putJournal_follows | with_reducible apply foldl_follows | with_reducible apply Follows.ite | split | extract_lets | with_reducible apply Follows.frame

theorem execRecoveryGo_follows {s : State} {a1 a2} : ∃ t, execRecoveryGo a1 a2 s = .next t ∧ State.Follows s t := by
  unfold execRecoveryGo
  refine ⟨_, rfl, ?_⟩
  have h := State.Follows.refl s
  repeat' first | with_reducible assumption | intro _ | with_reducible apply State.recover_follows | with_reducible apply foldl_follows | with_reducible apply Follows.ite | split | extract_lets | with_reducible apply Follows.frame

theorem execNonceExpiry_follows {s : State} : ∃ t, execNonceExpiry s = .next t ∧ State.Follows s t := by
  unfold execNonceExpiry
  refine ⟨_, rfl, ?_⟩
  have h := State.Follows.refl s
  repeat' first | with_reducible assumption | intro _ | with_reducible apply foldl_follows | with_reducible apply Follows.ite | split | extract_lets | with_reducible apply Follows.frame

theorem State.eraseSlotFlash_follows {s0 s : State} {a1} (h : State.Follows s0 s) : State.Follows s0 (State.eraseSlotFlash s a1) := by
  unfold State.eraseSlotFlash
  repeat' first | with_reducible assumption | intro _ | with_reducible apply State.bump_follows | with_reducible apply State.sflClear_follows | with_reducible apply foldl_follows | with_reducible apply Follows.ite | split | extract_lets | with_reducible apply Follows.frame

theorem execFwCommit_follows {s : State} {a1 a2} : ∃ t, execFwCommit a1 a2 s = .next t ∧ State.Follows s t := by
  unfold execFwCommit
  refine ⟨_, rfl, ?_⟩
  have h := State.Follows.refl s
  repeat' first | with_reducible assumption | intro _ | with_reducible apply State.packet_follows | with_reducible apply PktRes.fail_follows | with_reducible apply State.commitRec_follows | with_reducible apply State.eraseSlotFlash_follows | with_reducible exact PktRes.follows_waits | with_reducible apply PktRes.follows_done | with_reducible apply PktRes.follows_started | with_reducible apply PktRes.follows_startDone | with_reducible apply PktRes.follows_quiet | with_reducible apply foldl_follows | with_reducible apply Follows.ite | with_reducible apply PktRes.follows_ite | split | extract_lets | with_reducible apply Follows.frame

theorem execGetIdentity_follows {s : State} {a1 a2} : ∃ t, execGetIdentity a1 a2 s = .next t ∧ State.Follows s t := by
  unfold execGetIdentity
  refine ⟨_, rfl, ?_⟩
  have h := State.Follows.refl s
  repeat' first | with_reducible assumption | intro _ | with_reducible apply State.packet_follows | with_reducible exact PktRes.follows_waits | with_reducible apply PktRes.follows_done | with_reducible apply PktRes.follows_started | with_reducible apply PktRes.follows_startDone | with_reducible apply PktRes.follows_quiet | with_reducible apply foldl_follows | with_reducible apply Follows.ite | with_reducible apply PktRes.follows_ite | split | extract_lets | with_reducible apply Follows.frame

theorem execFieldProvision_follows {s : State} {a1 a2} : ∃ t, execFieldProvision a1 a2 s = .next t ∧ State.Follows s t := by
  unfold execFieldProvision
  refine ⟨_, rfl, ?_⟩
  have h := State.Follows.refl s
  repeat' first | with_reducible assumption | intro _ | with_reducible apply State.packet_follows | with_reducible apply PktRes.fail_follows | with_reducible exact PktRes.follows_waits | with_reducible apply PktRes.follows_done | with_reducible apply PktRes.follows_started | with_reducible apply PktRes.follows_startDone | with_reducible apply PktRes.follows_quiet | with_reducible apply foldl_follows | with_reducible apply Follows.ite | with_reducible apply PktRes.follows_ite | split | extract_lets | with_reducible apply Follows.frame

theorem State.cutAgain_follows {s0 s : State} {a1} (h : State.Follows s0 s) : State.Follows s0 (State.cutAgain s a1) := by
  unfold State.cutAgain
  repeat' first | with_reducible assumption | intro _ | with_reducible apply State.missCut_follows | with_reducible refine State.armTimed_follows (by assumption) ?_ | with_reducible apply foldl_follows | with_reducible apply Follows.ite | split | extract_lets | with_reducible apply Follows.frame

theorem State.slotPage_follows {s0 s : State} {a1 a2} (h : State.Follows s0 s) : State.Follows s0 (State.slotPage s a1 a2) := by
  unfold State.slotPage
  repeat' first | with_reducible assumption | intro _ | with_reducible apply State.bump_follows | with_reducible apply State.sflClear_follows | with_reducible apply State.sflPut_follows | with_reducible apply foldl_follows | with_reducible apply Follows.ite | split | extract_lets | with_reducible apply Follows.frame

theorem execFwDownload_follows {s : State} {a1 a2 a3} : ∃ t, execFwDownload a1 a2 a3 s = .next t ∧ State.Follows s t := by
  unfold execFwDownload
  dsimp only
  refine ⟨_, rfl, ?_⟩
  have h := State.Follows.refl s
  repeat' first | with_reducible assumption | intro _ | with_reducible apply State.packet_follows | with_reducible apply PktRes.fail_follows | with_reducible apply State.emit_follows | with_reducible apply State.commitRec_follows | with_reducible apply State.slotPage_follows | with_reducible exact PktRes.follows_waits | with_reducible apply PktRes.follows_done | with_reducible apply PktRes.follows_started | with_reducible apply PktRes.follows_startDone | with_reducible apply PktRes.follows_quiet | with_reducible apply foldl_follows | with_reducible apply Follows.ite | with_reducible apply PktRes.follows_ite | split | with_reducible apply Follows.frame

theorem execFirmwareReady_follows {s : State} : ∃ t, execFirmwareReady s = .next t ∧ State.Follows s t := by
  unfold execFirmwareReady
  refine ⟨_, rfl, ?_⟩
  have h := State.Follows.refl s
  repeat' first | with_reducible assumption | intro _ | with_reducible apply State.loadWorking_follows | with_reducible apply State.meetPeer_follows | with_reducible apply foldl_follows | with_reducible apply Follows.ite | split | extract_lets | with_reducible apply Follows.frame

theorem State.setFails_follows {s0 s : State} {a1} (h : State.Follows s0 s) : State.Follows s0 (State.setFails s a1) := by
  unfold State.setFails
  repeat' first | with_reducible assumption | intro _ | with_reducible apply State.logRecord_follows | with_reducible apply foldl_follows | with_reducible apply Follows.ite | split | extract_lets | with_reducible apply Follows.frame

theorem execFieldChallenge_follows {s : State} {a1 a2} : ∃ t, execFieldChallenge a1 a2 s = .next t ∧ State.Follows s t := by
  unfold execFieldChallenge
  refine ⟨_, rfl, ?_⟩
  have h := State.Follows.refl s
  repeat' first | with_reducible assumption | intro _ | with_reducible apply State.packet_follows | with_reducible apply State.drbgBytes_follows | with_reducible exact PktRes.follows_waits | with_reducible apply PktRes.follows_done | with_reducible apply PktRes.follows_started | with_reducible apply PktRes.follows_startDone | with_reducible apply PktRes.follows_quiet | with_reducible apply foldl_follows | with_reducible refine snd_follows (by assumption) ?_ | with_reducible apply Follows.ite | with_reducible apply PktRes.follows_ite | split | extract_lets | with_reducible apply Follows.frame

theorem State.sessionEvent_follows {s0 s : State} {a1} (h : State.Follows s0 s) : State.Follows s0 (State.sessionEvent s a1) := by
  unfold State.sessionEvent
  repeat' first | with_reducible assumption | intro _ | with_reducible apply State.event_follows | with_reducible apply foldl_follows | with_reducible apply Follows.ite | split | extract_lets | with_reducible apply Follows.frame

theorem execFieldUnlock_follows {s : State} {a1 a2} : ∃ t, execFieldUnlock a1 a2 s = .next t ∧ State.Follows s t := by
  unfold execFieldUnlock
  dsimp only
  refine ⟨_, rfl, ?_⟩
  have h := State.Follows.refl s
  repeat' first | with_reducible assumption | intro _ | with_reducible apply State.packet_follows | with_reducible apply PktRes.fail_follows | with_reducible apply State.setFails_follows | with_reducible apply State.sessionEvent_follows | with_reducible apply State.bump_follows | with_reducible apply State.raiseAlarm_follows | with_reducible exact PktRes.follows_waits | with_reducible apply PktRes.follows_done | with_reducible apply PktRes.follows_started | with_reducible apply PktRes.follows_startDone | with_reducible apply PktRes.follows_quiet | with_reducible apply foldl_follows | with_reducible apply Follows.ite | with_reducible apply PktRes.follows_ite | split | with_reducible apply Follows.frame

theorem execFwBeatTick_follows {s : State} : ∃ t, execFwBeatTick s = .next t ∧ State.Follows s t := by
  unfold execFwBeatTick
  refine ⟨_, rfl, ?_⟩
  have h := State.Follows.refl s
  repeat' first | with_reducible assumption | intro _ | with_reducible apply foldl_follows | with_reducible apply Follows.ite | split | extract_lets | with_reducible apply Follows.frame

theorem State.reloadStored_follows {s0 s : State} {a1} (h : State.Follows s0 s) : State.Follows s0 (State.reloadStored s a1) := by
  unfold State.reloadStored
  repeat' first | with_reducible assumption | intro _ | with_reducible apply State.loadKeys_follows | with_reducible apply foldl_follows | with_reducible apply Follows.ite | split | extract_lets | with_reducible apply Follows.frame

theorem State.rebuildPool_follows {s0 s : State} {a1} (h : State.Follows s0 s) : State.Follows s0 (State.rebuildPool s a1) := by
  unfold State.rebuildPool
  repeat' first | with_reducible assumption | intro _ | with_reducible apply State.journalRow_follows | with_reducible apply State.rebuilt_follows | with_reducible apply State.restoreDump_follows | with_reducible apply State.reloadStored_follows | with_reducible apply State.takeLate_follows | with_reducible apply State.lateTable_follows | with_reducible apply State.loseBrine_follows | with_reducible apply State.dropHarvests_follows | with_reducible apply State.resumeJournal_follows | with_reducible apply State.takeGroups_follows | with_reducible apply State.placeRec_follows | with_reducible apply State.metaScan_follows | with_reducible apply State.reliabilityCheck_follows | with_reducible apply State.poolRoCheck_follows | with_reducible apply State.armPeriods_follows | with_reducible apply State.cutAgain_follows | with_reducible apply State.eraseAgain_follows | with_reducible apply foldl_follows | with_reducible apply Follows.ite | split | extract_lets | with_reducible apply Follows.frame

theorem execResetPin_follows {s : State} : ∃ t, execResetPin s = .next t ∧ State.Follows s t := by
  unfold execResetPin
  refine ⟨_, rfl, ?_⟩
  have h := State.Follows.refl s
  repeat' first | with_reducible assumption | intro _ | with_reducible apply State.askReset_follows | with_reducible apply foldl_follows | with_reducible apply Follows.ite | split | extract_lets | with_reducible apply Follows.frame

theorem execPoolLoad_follows {s : State} {a1} : ∃ t, execPoolLoad a1 s = .next t ∧ State.Follows s t := by
  unfold execPoolLoad
  refine ⟨_, rfl, ?_⟩
  have h := State.Follows.refl s
  repeat' first | with_reducible assumption | intro _ | with_reducible apply State.rebuildPool_follows | with_reducible apply State.startRemirror_follows | with_reducible apply State.replayEnd_follows | with_reducible apply foldl_follows | with_reducible apply Follows.ite | split | extract_lets | with_reducible apply Follows.frame

end Sys2Proof.Machine
end

