-- ==== Sys2Proof/Laws/Keyed.lean ====
section
/-! SUPPORT. Lists that are read by key: what stands under a key after an element is put or dropped. -/
namespace Sys2Proof.Machine

/-- The element that was put is found under its key. -/
theorem findKey_putKey_same {α : Type} (key : α → Nat) (a : α) (l : List α) : findKey key (key a) (putKey key a l) = some a := by
  unfold findKey putKey
  split
  · rename_i h
    induction l with
    | nil => simp at h
    | cons b t ih =>
      simp only [List.map_cons]
      by_cases hb : key b == key a
      · simp [hb]
      · rw [List.any_cons, Bool.or_eq_true] at h
        rw [if_neg hb, List.find?_cons_of_neg (by simpa using hb)]
        exact ih (h.resolve_left hb)
  · rename_i h
    rw [List.find?_append]
    have : l.find? (fun b => key b == key a) = none := by
      rw [List.find?_eq_none]
      intro x hx hk
      exact h (List.any_eq_true.2 ⟨x, hx, hk⟩)
    simp [this]

/-- What stands under another key stays. -/
theorem findKey_putKey_other {α : Type} (key : α → Nat) (a : α) (k : Nat) (l : List α) (h : key a ≠ k) :
    findKey key k (putKey key a l) = findKey key k l := by
  unfold findKey putKey
  split
  · rename_i h0; clear h0
    induction l with
    | nil => rfl
    | cons b t ih =>
      simp only [List.map_cons, List.find?_cons]
      by_cases hb : (key b == key a) = true
      · have h1 : (key a == k) = false := beq_eq_false_iff_ne.2 h
        have h2 : (key b == k) = false := by rw [beq_iff_eq.1 hb]; exact h1
        rw [if_pos hb, h1, h2]; exact ih
      · rw [if_neg hb]
        split
        · rfl
        · exact ih
  · rw [List.find?_append]
    have : (key a == k) = false := beq_eq_false_iff_ne.2 h
    simp [this]

/-- Nothing stands under a dropped key. -/
theorem findKey_dropKey_same {α : Type} (key : α → Nat) (k : Nat) (l : List α) : findKey key k (dropKey key k l) = none := by
  unfold findKey dropKey
  rw [List.find?_eq_none]
  intro x hx hk
  have := (List.mem_filter.1 hx).2
  simp_all

/-- What stands under another key stays. -/
theorem findKey_dropKey_other {α : Type} (key : α → Nat) (k j : Nat) (l : List α) (h : j ≠ k) :
    findKey key j (dropKey key k l) = findKey key j l := by
  unfold findKey dropKey
  induction l with
  | nil => rfl
  | cons b t ih =>
    by_cases hb : key b = k
    · have h1 : (key b != k) = false := by simp [hb]
      have h2 : (key b == j) = false := by rw [hb]; exact beq_eq_false_iff_ne.2 (Ne.symm h)
      rw [List.filter_cons_of_neg (by simp [h1]), List.find?_cons_of_neg (by simp [h2])]; exact ih
    · rw [List.filter_cons_of_pos (by simp [hb])]
      simp only [List.find?_cons]
      split
      · rfl
      · exact ih

end Sys2Proof.Machine
end

