-- ==== Sys2Proof/Laws/Lines.lean ====
section
/-! SUPPORT. Lines of the last-level cache after each of its operations (Machine/Llc.lean). -/
namespace Sys2Proof.Machine

@[simp] theorem Llc.held_put (c : Llc) (x : LlcLine) (a l : Nat) : (c.put x).held a l = c.held a l := rfl
@[simp] theorem Llc.held_drop (c : Llc) (b m a l : Nat) : (c.drop b m).held a l = c.held a l := rfl
@[simp] theorem Llc.held_miss (c : Llc) (a l : Nat) : c.miss.held a l = c.held a l := rfl
@[simp] theorem Llc.held_hit (c : Llc) (x : LlcLine) (a l : Nat) : (c.hit x).held a l = c.held a l := rfl
@[simp] theorem Llc.line?_miss (c : Llc) (a l : Nat) : c.miss.line? a l = c.line? a l := rfl
@[simp] theorem Llc.lines_put (c : Llc) (x : LlcLine) :
    (c.put x).lines = x :: c.lines.filter fun y => !(y.space == x.space && y.line == x.line) := rfl

/-- The line put is the line found at its key. -/
theorem Llc.line?_put (c : Llc) (x : LlcLine) : (c.put x).line? x.space x.line = some x :=
  List.find?_cons_of_pos (by simp)

/-- A line that has been hit has age 0. -/
theorem Llc.line?_hit (c : Llc) (x : LlcLine) : (c.hit x).line? x.space x.line = some { x with age := 0 } :=
  Llc.line?_put { c with hits := c.hits + 1 } { x with age := 0 }

/-- A line found has the key it was looked for by. -/
theorem Llc.line?_key {c : Llc} {a l : Nat} {x : LlcLine} (h : c.line? a l = some x) : x ∈ c.lines ∧ x.space = a ∧ x.line = l := by
  have k := List.find?_some h
  simp only [Bool.and_eq_true, beq_iff_eq] at k
  exact ⟨List.mem_of_find?_eq_some h, k⟩

/-- A line not found has a key that no line has. -/
theorem Llc.line?_none {c : Llc} {a l : Nat} (h : c.line? a l = none) : ∀ x ∈ c.lines, ¬(x.space = a ∧ x.line = l) := by
  intro x hx
  have k := List.find?_eq_none.mp h x hx
  simpa using k

/-- A line that has been dropped is not found. -/
theorem Llc.line?_drop (c : Llc) (a l : Nat) : (c.drop a l).line? a l = none := by
  refine List.find?_eq_none.mpr fun x hx => ?_
  have k := (List.mem_filter.mp hx).2
  intro h
  rw [h] at k
  cases k

theorem Llc.lines_store (c : Llc) (a l n : Nat) : (c.store a l n).lines = c.lines := by
  unfold Llc.store
  split <;> rfl

theorem Llc.line?_store (c : Llc) (a l n b m : Nat) : (c.store a l n).line? b m = c.line? b m := by
  unfold Llc.line?
  rw [Llc.lines_store]

/-- Writes of a line count at that line. -/
theorem Llc.held_store (c : Llc) (a l n : Nat) : (c.store a l n).held a l = c.held a l + n := by
  unfold Llc.store
  split
  · rename_i h; rw [h]; rfl
  · unfold Llc.held
    rw [List.find?_cons_of_pos (by simp)]
    rfl

/-- Writes of a line leave every other line alone. -/
theorem Llc.held_store_other (c : Llc) (a l n b m : Nat) (h : ¬(b = a ∧ m = l)) : (c.store a l n).held b m = c.held b m := by
  unfold Llc.store
  split
  · rfl
  · unfold Llc.held
    rw [List.find?_cons_of_neg (by simp; omega), List.find?_filter]
    congr 3
    funext x
    by_cases k : x.1 = b ∧ x.2.1 = m
    · simp only [k.1, k.2, beq_self_eq_true, Bool.and_self, decide_eq_true_eq]
      simp; omega
    · have : (x.1 == b && x.2.1 == m) = false := by simpa using k
      simp [this]

/-! ### Errors (R401) -/

theorem Llc.check_clean {c : Llc} (x : LlcLine) (h : Config.llcFault c.looks = .clean) : c.check x = ({ c with looks := c.looks + 1 }, some x) := by
  simp only [Llc.check, h]

theorem Llc.check_corrected {c : Llc} (x : LlcLine) (h : Config.llcFault c.looks = .corrected) :
    c.check x = ({ c with looks := c.looks + 1, dataCe := c.dataCe + 1 }, some x) := by
  simp only [Llc.check, h]

theorem Llc.check_tagParity {c : Llc} (x : LlcLine) (h : Config.llcFault c.looks = .tagParity) :
    c.check x = ({ c with looks := c.looks + 1, tagPar := c.tagPar + 1 }.drop x.space x.line, none) := by
  simp only [Llc.check, h]

theorem Llc.check_uncorrectable {c : Llc} (x : LlcLine) (h : Config.llcFault c.looks = .uncorrectable) :
    c.check x = ({ c with looks := c.looks + 1, dataUe := c.dataUe + 1 }.drop x.space x.line, none) := by
  simp only [Llc.check, h]

end Sys2Proof.Machine
end

