-- ==== Sys2Proof/Laws/ModuleCpl.lean ====
section
/-! SUPPORT. What each operation of Machine/ModuleCpl.lean can do: what follows from a state before it follows after it (Sys2Proof.Machine.State.Follows). -/
namespace Sys2Proof.Machine

theorem State.sawFenced_follows {s0 s : State} {a1} (h : State.Follows s0 s) : State.Follows s0 (State.sawFenced s a1) := by
  unfold State.sawFenced
  repeat' first | with_reducible assumption | intro _ | with_reducible apply State.putMod_follows | with_reducible apply State.enterFenced_follows | with_reducible apply foldl_follows | with_reducible apply Follows.ite | split | extract_lets | with_reducible apply Follows.frame

theorem State.gotReservation_follows {s0 s : State} {a1 a2 a3} (h : State.Follows s0 s) : State.Follows s0 (State.gotReservation s a1 a2 a3) := by
  unfold State.gotReservation
  repeat' first | with_reducible assumption | intro _ | with_reducible apply State.putMod_follows | with_reducible apply State.afterUnits_follows | with_reducible apply State.judgeModule_follows | with_reducible apply State.reservationSeen_follows | with_reducible apply foldl_follows | with_reducible apply Follows.ite | split | extract_lets | with_reducible apply Follows.frame

theorem State.reserved_follows {s0 s : State} {a1 a2} (h : State.Follows s0 s) : State.Follows s0 (State.reserved s a1 a2) := by
  unfold State.reserved
  repeat' first | with_reducible assumption | intro _ | with_reducible apply State.registerDone_follows | with_reducible apply State.putMod_follows | with_reducible apply State.askReserve_follows | with_reducible apply foldl_follows | with_reducible apply Follows.ite | split | extract_lets | with_reducible apply Follows.frame

theorem State.columnDone_follows {s0 s : State} {a1 a2} (h : State.Follows s0 s) : State.Follows s0 (State.columnDone s a1 a2) := by
  unfold State.columnDone
  repeat' first | with_reducible assumption | intro _ | with_reducible apply State.putRow_follows | with_reducible apply State.rowDone_follows | with_reducible apply State.rebuildPump_follows | with_reducible apply State.checkEnts_follows | with_reducible apply State.pump_follows | with_reducible apply State.ckptCheck_follows | with_reducible apply foldl_follows | with_reducible apply Follows.ite | split | extract_lets | with_reducible apply Follows.frame

theorem State.programFailed_follows {s0 s : State} {a1 a2 a3} (h : State.Follows s0 s) : State.Follows s0 (State.programFailed s a1 a2 a3) := by
  unfold State.programFailed
  repeat' first | with_reducible assumption | intro _ | with_reducible apply State.putWear_follows | with_reducible apply State.indexAgain_follows | with_reducible apply State.putBlk_follows | with_reducible apply State.voidRow_follows | with_reducible apply foldl_follows | with_reducible apply Follows.ite | split | extract_lets | with_reducible apply Follows.frame

theorem State.rowLost_follows {s0 s : State} {a1} (h : State.Follows s0 s) : State.Follows s0 (State.rowLost s a1) := by
  unfold State.rowLost
  repeat' first | with_reducible assumption | intro _ | with_reducible apply State.voidRow_follows | with_reducible apply foldl_follows | with_reducible apply Follows.ite | split | extract_lets | with_reducible apply Follows.frame

theorem State.readBackDone_follows {s0 s : State} {a1 a2 a3 a4 a5 a6} (h : State.Follows s0 s) : State.Follows s0 (State.readBackDone s a1 a2 a3 a4 a5 a6) := by
  unfold State.readBackDone
  repeat' first | with_reducible assumption | intro _ | with_reducible apply State.columnDone_follows | with_reducible apply State.bump_follows | with_reducible apply State.issue_follows | with_reducible apply State.indexAgain_follows | with_reducible apply State.rowLost_follows | with_reducible apply foldl_follows | with_reducible apply Follows.ite | split | extract_lets | with_reducible apply Follows.frame

theorem State.rootBackDone_follows {s0 s : State} {a1 a2 a3} (h : State.Follows s0 s) : State.Follows s0 (State.rootBackDone s a1 a2 a3) := by
  unfold State.rootBackDone
  repeat' first | with_reducible assumption | intro _ | with_reducible apply State.rootSettled_follows | with_reducible apply State.issue_follows | with_reducible apply State.rootTo_follows | with_reducible apply foldl_follows | with_reducible apply Follows.ite | split | extract_lets | with_reducible apply Follows.frame

theorem State.rebuildBackDone_follows {s0 s : State} {a1 a2 a3 a4} (h : State.Follows s0 s) : State.Follows s0 (State.rebuildBackDone s a1 a2 a3 a4) := by
  unfold State.rebuildBackDone
  repeat' first | with_reducible assumption | intro _ | with_reducible apply State.issue_follows | with_reducible apply State.rebuildCpl_follows | with_reducible apply foldl_follows | with_reducible apply Follows.ite | split | extract_lets | with_reducible apply Follows.frame

theorem State.proxyBack_follows {s0 s : State} {a1 a2 a3} (h : State.Follows s0 s) : State.Follows s0 (State.proxyBack s a1 a2 a3) := by
  unfold State.proxyBack
  repeat' first | with_reducible assumption | intro _ | with_reducible apply State.ptlSend_follows | with_reducible apply foldl_follows | with_reducible apply Follows.ite | split | extract_lets | with_reducible apply Follows.frame

theorem State.cplAct_follows {s0 s : State} {a1 a2 a3 a4} (h : State.Follows s0 s) : State.Follows s0 (State.cplAct s a1 a2 a3 a4) := by
  unfold State.cplAct
  repeat' first | with_reducible assumption | intro _ | with_reducible apply State.afterUnits_follows | with_reducible apply State.gotModRecord_follows | with_reducible apply State.gotDieRecord_follows | with_reducible apply State.gotReservation_follows | with_reducible apply State.reserved_follows | with_reducible apply State.askReserve_follows | with_reducible apply State.preemptRefused_follows | with_reducible apply State.rebuildPump_follows | with_reducible apply State.sweepReads_follows | with_reducible apply State.putMod_follows | with_reducible apply State.noteRetry_follows | with_reducible apply State.replPump_follows | with_reducible apply State.readCpl_follows | with_reducible apply State.columnDone_follows | with_reducible apply State.programFailed_follows | with_reducible apply State.readBackDone_follows | with_reducible apply State.eraseCpl_follows | with_reducible apply State.rootSettled_follows | with_reducible apply State.rootTo_follows | with_reducible apply State.sanDieFailed_follows | with_reducible apply State.rebuildCpl_follows | with_reducible apply State.rootBackDone_follows | with_reducible apply State.rebuildBackDone_follows | with_reducible apply State.proxyBack_follows | with_reducible apply foldl_follows | with_reducible apply Follows.ite | split | extract_lets | with_reducible apply Follows.frame

theorem State.cplInvalid_follows {s0 s : State} {a1} (h : State.Follows s0 s) : State.Follows s0 (State.cplInvalid s a1) := by
  unfold State.cplInvalid
  repeat' first | with_reducible assumption | intro _ | with_reducible apply State.event_follows | with_reducible apply State.reissue_follows | with_reducible apply State.afterUnits_follows | with_reducible apply rowDieCommandTimeout_follows | with_reducible apply State.askReserve_follows | with_reducible apply foldl_follows | with_reducible apply Follows.ite | split | extract_lets | with_reducible apply Follows.frame

theorem State.cplDone_follows {s0 s : State} {a1 a2 a3 a4 a5} (h : State.Follows s0 s) : State.Follows s0 (State.cplDone s a1 a2 a3 a4 a5) := by
  unfold State.cplDone
  repeat' first | with_reducible assumption | intro _ | with_reducible apply State.bump_follows | with_reducible apply State.putCmd_follows | with_reducible apply State.sawFenced_follows | with_reducible apply State.endCmd_follows | with_reducible apply State.cplAct_follows | with_reducible apply State.dieAnswered_follows | with_reducible apply State.cplInvalid_follows | with_reducible apply State.afterUnits_follows | with_reducible apply State.rescueReads_follows | with_reducible apply State.dieOut_follows | with_reducible apply foldl_follows | with_reducible apply Follows.ite | split | extract_lets | with_reducible apply Follows.frame

theorem execProxyCplRx_follows {s : State} {a1 a2 a3} : ∃ t, execProxyCplRx a1 a2 a3 s = .next t ∧ State.Follows s t := by
  unfold execProxyCplRx
  refine ⟨_, rfl, ?_⟩
  have h := State.Follows.refl s
  repeat' first | with_reducible assumption | intro _ | with_reducible apply State.onPtl_follows | with_reducible apply State.cplDone_follows | with_reducible apply foldl_follows | with_reducible apply Follows.ite | split | extract_lets | with_reducible apply Follows.frame

theorem execModuleCplRx_follows {s : State} {a1 a2 a3} : ∃ t, execModuleCplRx a1 a2 a3 s = .next t ∧ State.Follows s t := by
  unfold execModuleCplRx
  refine ⟨_, rfl, ?_⟩
  have h := State.Follows.refl s
  repeat' first | with_reducible assumption | intro _ | with_reducible apply State.cplDone_follows | with_reducible apply foldl_follows | with_reducible apply Follows.ite | split | extract_lets | with_reducible apply Follows.frame

theorem execModuleRdataRx_follows {s : State} {a1 a2 a3 a4} : ∃ t, execModuleRdataRx a1 a2 a3 a4 s = .next t ∧ State.Follows s t := by
  unfold execModuleRdataRx
  refine ⟨_, rfl, ?_⟩
  have h := State.Follows.refl s
  repeat' first | with_reducible assumption | intro _ | with_reducible apply State.putCmd_follows | with_reducible apply foldl_follows | with_reducible apply Follows.ite | split | extract_lets | with_reducible apply Follows.frame

end Sys2Proof.Machine
end

