-- ==== Sys2Proof/Laws/Packets.lean ====
section
/-! SUPPORT. How the shared shapes of commands run: a control packet that may start, a message of the peer in order, an admin command and an I/O command
on a queue that takes it. -/
namespace Sys2Proof.Machine

/-- A packet that may start and passes its checks runs its opcode's rule. -/
theorem State.packet_runs {s : State} {opc n slot : Nat} {e : Entry} (body : Entry → PktRef → State → PktRes) (h : s.CanRun opc n slot e) :
    s.packet opc n slot body = s.ended n slot e (body e (packetRef n slot e) (s.begun n slot e)) := by
  have hq : (if opcodeCfg opc = true then s.cfgReady else some stOk) = some stOk := by
    split
    · exact h.config ‹_›
    · rfl
  unfold State.packet State.ended
  simp only [h.starts, h.checks, hq, h.tail, ne_eq, not_true_eq_false, if_false, if_true]
  rfl

@[simp] theorem State.ended_done (s u : State) (n slot : Nat) (e : Entry) (st : Nat) (res data : Bytes) :
    s.ended n slot e (.done u st res data) = u.replied n slot e st res data := rfl
@[simp] theorem State.ended_fail (s u : State) (n slot : Nat) (e : Entry) (st : Nat) :
    s.ended n slot e (.fail u st) = u.replied n slot e st [] [] := rfl
@[simp] theorem State.ended_started (s u : State) (n slot : Nat) (e : Entry) : s.ended n slot e (.started u) = u.inProgress n slot e := rfl
@[simp] theorem State.ended_startDone (s u : State) (n slot : Nat) (e : Entry) (res data : Bytes) :
    s.ended n slot e (.startDone u res data) = (u.inProgress n slot e).replied n slot e stOk res data := rfl
@[simp] theorem State.ended_quiet (s u : State) (n slot : Nat) (e : Entry) : s.ended n slot e (.quiet u) = u := rfl
@[simp] theorem State.ended_waits (s : State) (n slot : Nat) (e : Entry) : s.ended n slot e .waits = s := rfl

/-- A packet that has placed a configuration record. -/
@[simp] theorem State.ended_cfgDone (s u : State) (n slot : Nat) (e : Entry) (res : Bytes) :
    s.ended n slot e (u.cfgDone (packetRef n slot e) res) = u.cfgEnded n slot e res := by
  unfold State.cfgDone State.cfgEnded
  split <;> rfl

/-- A message in order acts on the whole of its chain. -/
theorem State.onPtl_runs {s : State} {c : Nat} {h : PtlHdr} (payload : Bytes) (f : Bytes → State → State) (o : s.InOrder c h) :
    s.onPtl c h payload f = f (s.whole c h payload) (s.taken c h) := by
  have hn := o.next
  have hm := o.last
  unfold State.onPtl State.ptlAccept
  unfold State.retired at hn
  simp only [hm, ← hn, if_pos, Bool.false_eq_true, if_false]
  simp only [State.whole, State.taken, State.retired, ← hn]

/-- A queue context that is live, of a queue pair that is up, takes a command. -/
theorem State.queue?_live {s : State} {i : Nat} {q : QCtx} (h : s.qctx? i = some q) (hd : q.deleting = none)
    (hu : q.fabric = true → s.qpUp i = true) : s.queue? i = some q := by
  unfold State.queue?
  simp only [h, hd]
  cases hf : q.fabric <;> simp_all

/-- An admin command on an admin queue that takes it runs; while a sanitize runs, only one that R95 names. -/
theorem State.admin_runs {s : State} {e : Sqe} {fab host calm : Bool} {q : QCtx} (body : QCtx → State → State) (h : s.AdminOn e fab host q)
    (hc : s.hq.san.state = .running → calm = true) : s.admin e fab host calm body = body q (s.takeCmd e) := by
  have ht := h.takes
  unfold State.admin
  simp only [State.queue?_live h.queue h.live h.up]
  have hs : (s.takeCmd e).hq.san = s.hq.san := rfl
  rw [hs]
  rw [if_pos (by rcases h.kind with hk | hk <;> simp_all [QCtx.fabric]), if_neg (by
    rintro ⟨a, b⟩
    rw [hc a] at b
    cases b)]

/-- An admin command that R95 does not name ends with Sanitize In Progress while a sanitize runs. -/
theorem State.admin_held {s : State} {e : Sqe} {fab host : Bool} {q : QCtx} (body : QCtx → State → State) (h : s.AdminOn e fab host q)
    (hs : s.hq.san.state = .running) : s.admin e fab host false body = (s.takeCmd e).complete e.q e.cid 0 0x1D (dnrOf (0, 0x1D)) 0 0 := by
  have ht := h.takes
  unfold State.admin
  simp only [State.queue?_live h.queue h.live h.up]
  have hh : (s.takeCmd e).hq.san = s.hq.san := rfl
  rw [hh]
  rw [if_pos (by rcases h.kind with hk | hk <;> simp_all [QCtx.fabric]), if_pos ⟨hs, rfl⟩]

/-- An I/O command that passes the checks of R77 goes through the sluice (R79). -/
theorem State.io_checked {e : Sqe} {q : QCtx} {s : State} (h : s.IoOn e q) (f : IoForm) (opc : Nat) (fill : Cmd → Cmd) (dl : Nat)
    (g : (s.ioTaken e).ioStatus e (fill (s.ioBase e q opc)) f = none) :
    s.io e f opc fill dl =
      match (s.ioTaken e).sluice (fill (s.ioBase e q opc)) (if (s.ioTaken e).lbafOf e.nsid = 0 ∧ (opc = 1 ∨ opc = 2) then dl else 0) with
      | (s, some c) => s.accept c
      | (s, none) => s := by
  unfold State.io
  simp only [State.queue?_live h.queue h.live h.up]
  rw [if_neg (by simp [h.serves]), if_neg (by rcases h.kind with k | k <;> simp [k])]
  simp only [g] <;> rfl

/-- An I/O command that passes the checks and carries no admission deadline goes on to its order and lock (R77, R79). -/
theorem State.io_runs {e : Sqe} {q : QCtx} {s : State} (h : s.IoOn e q) (f : IoForm) (opc : Nat) (fill : Cmd → Cmd) (dl : Nat)
    (g : (s.ioTaken e).ioStatus e (fill (s.ioBase e q opc)) f = none)
    (hd : (if (s.ioTaken e).lbafOf e.nsid = 0 ∧ (opc = 1 ∨ opc = 2) then dl else 0) = 0) :
    s.io e f opc fill dl = ((s.ioTaken e).sluice (fill (s.ioBase e q opc)) 0).1.accept (fill (s.ioBase e q opc)) := by
  rw [State.io_checked h f opc fill dl g, hd]; rfl

/-- The sluice turns a deadline away while the head may not admit any (R79). -/
theorem State.sluice_untimed {s : State} {c : Cmd} {dl : Nat} (h : dl ≠ 0) (ha : s.admitOk = false) :
    s.sluice c dl = ((s.bump R.SLU_TIME_REJ_CNT).complete c.qctx c.cid 7 0xC4 false 0 0, none) := by
  unfold State.sluice
  rw [if_neg h, if_pos (by rw [ha]; decide)]

/-- An I/O command with a deadline that the sluice turns away ends with status 7, 0xC4. -/
theorem State.io_untimed {e : Sqe} {q : QCtx} {s : State} (h : s.IoOn e q) (f : IoForm) (opc : Nat) (fill : Cmd → Cmd) (dl : Nat)
    (g : (s.ioTaken e).ioStatus e (fill (s.ioBase e q opc)) f = none) (hl : (s.ioTaken e).lbafOf e.nsid = 0) (ho : opc = 1 ∨ opc = 2) (hd : dl ≠ 0)
    (ha : (s.ioTaken e).admitOk = false) :
    s.io e f opc fill dl =
      ((s.ioTaken e).bump R.SLU_TIME_REJ_CNT).complete (fill (s.ioBase e q opc)).qctx (fill (s.ioBase e q opc)).cid 7 0xC4 false 0 0 := by
  rw [State.io_checked h f opc fill dl g, if_pos ⟨hl, ho⟩, State.sluice_untimed hd ha]

/-- An I/O command that fails a check of R77 ends with that status. -/
theorem State.io_refused {e : Sqe} {q : QCtx} {s : State} (h : s.IoOn e q) (f : IoForm) (opc : Nat) (fill : Cmd → Cmd) (dl : Nat) (st : Nat × Nat)
    (g : (s.ioTaken e).ioStatus e (fill (s.ioBase e q opc)) f = some st) :
    s.io e f opc fill dl =
      (if st = (0, 0x0F) then (s.ioTaken e).bump R.HQ_LEN_ERR_CNT else s.ioTaken e).complete e.q e.cid st.1 st.2 (dnrOf st) 0 0 := by
  unfold State.io
  simp only [State.queue?_live h.queue h.live h.up]
  rw [if_neg (by simp [h.serves]), if_neg (by rcases h.kind with k | k <;> simp [k])]
  simp only [g]

/-- A command on a queue that does not take it ends with Invalid Command Opcode (R72). -/
theorem State.admin_wrongQueue {s : State} {e : Sqe} {fab host calm : Bool} {q : QCtx} (body : QCtx → State → State)
    (hq : s.queue? e.q = some q) (hk : ¬((q.kind = .fabAdmin ∧ fab = true) ∨ (q.kind = .hostAdmin ∧ host = true))) :
    s.admin e fab host calm body = (s.takeCmd e).complete e.q e.cid 0 1 (dnrOf (0, 1)) 0 0 := by
  unfold State.admin
  simp only [hq]
  rw [if_neg hk]

end Sys2Proof.Machine
end

