-- ==== Sys2Proof/Laws/Records.lean ====
section
/-! SUPPORT. What recording an event may change (Sys2Proof.Machine.State.Records), from the operations that it is made of up to State.event. -/
namespace Sys2Proof.Machine

theorem State.Records.refl (s : State) : State.Records s s := ⟨rfl, fun _ _ => rfl⟩

theorem State.Records.trans {s t u : State} (h : State.Records s t) (g : State.Records t u) : State.Records s u := by
  refine ⟨?_, fun r hr => (g.low r hr).trans (h.low r hr)⟩
  have hs := h.same
  have hg := g.same
  rw [hg, hs]

/-- An update of the parts that recording may change, the registers apart. -/
theorem State.Records.frame {s0 s t : State} (h : State.Records s0 s)
    (e : t = { s with
      evr := t.evr, hq.ctrls := t.hq.ctrls, hq.ctxs := t.hq.ctxs, pair.gated := t.pair.gated, pair.chans := t.pair.chans, xpt := t.xpt
      llc := t.llc, out := t.out }) :
    State.Records s0 t := by
  refine h.trans ⟨?_, fun r _ => ?_⟩
  · rw [e]
  · rw [e]; rfl

theorem State.wr_records {s0 s : State} {r : Reg} {v : DWord} (h : State.Records s0 s) (hr : 0x00A00000 ≤ r.addr) : State.Records s0 (s.wr r v) :=
  h.trans ⟨rfl, fun q hq => RegStore.get_put_other _ _ _ _ (by omega)⟩

theorem State.bumpBy_records {s0 s : State} {r : Reg} {n : Nat} (h : State.Records s0 s) (hr : 0x00A00000 ≤ r.addr) :
    State.Records s0 (s.bumpBy r n) := State.wr_records h hr

theorem State.bump_records {s0 s : State} {r : Reg} (h : State.Records s0 s) (hr : 0x00A00000 ≤ r.addr) : State.Records s0 (s.bump r) :=
  State.bumpBy_records h hr

theorem State.emit_records {s0 s : State} {o : Out} (h : State.Records s0 s) : State.Records s0 (s.emit o) := h.frame rfl

theorem State.putQp_records {s0 s : State} {q : Qp} (h : State.Records s0 s) : State.Records s0 (s.putQp q) := h.frame rfl

theorem R.xpt_p_tx_addr (p : Nat) : 0x00A00000 ≤ (R.XPT_P_TX_PKT_CNT p).addr := by
  simp only [R.XPT_P_TX_PKT_CNT, RegBank.at, Bank.XPT_P_TX_PKT_CNT]; omega

theorem R.evr_drop_addr (c : Nat) : 0x00A00000 ≤ (R.EVR_DROP_CNT c).addr := by
  simp only [R.EVR_DROP_CNT, RegBank.at, Bank.EVR_DROP_CNT]; omega

/-! ### Sending -/

theorem R.xpt_p_miss_addr (p : Nat) : 0x00A00000 ≤ (R.XPT_P_CTX_MISS_CNT p).addr := by
  simp only [R.XPT_P_CTX_MISS_CNT, RegBank.at, Bank.XPT_P_CTX_MISS_CNT]; omega

theorem State.llcAsk_records {s0 s : State} {a r : Nat} {ls : List Nat} (h : State.Records s0 s) : State.Records s0 (s.llcAsk a ls r) := h.frame rfl

theorem State.fetchCtx_records {s0 s : State} {i : Nat} (h : State.Records s0 s) : State.Records s0 (s.fetchCtx i) := by
  unfold State.fetchCtx State.xbump
  split
  · exact h
  · split
    · exact h
    · exact State.llcAsk_records (State.bumpBy_records (State.bumpBy_records (State.putQp_records h) (by decide)) (R.xpt_p_miss_addr _))

theorem State.ethOut_records {s0 s : State} {p k n : Nat} {q : Option Nat} {o : Out} (h : State.Records s0 s) : State.Records s0 (s.ethOut p k q n o) := by
  unfold State.ethOut State.ethSend State.xbump
  dsimp only
  split
  · exact h.frame rfl
  · exact State.emit_records (State.bumpBy_records (State.bumpBy_records h (by decide)) (R.xpt_p_tx_addr _))

theorem State.wire_records {s0 s : State} {q : Qp} {o : SendOp} (h : State.Records s0 s) : State.Records s0 (s.wire q o) := by
  unfold State.wire
  exact State.ethOut_records (State.putQp_records h)

theorem State.sendOp_records {s0 s : State} {i : Nat} {o : SendOp} (h : State.Records s0 s) : State.Records s0 (s.sendOp i o) := by
  unfold State.sendOp
  split
  · exact h
  · dsimp only
    split
    · exact h
    · split
      · exact State.fetchCtx_records (State.putQp_records h)
      · split
        · exact State.putQp_records h
        · exact State.wire_records (State.putQp_records h)

theorem State.sendCapsule_records {s0 s : State} {i : Nat} {k : Option Nat} {b : Bytes} (h : State.Records s0 s) :
    State.Records s0 (s.sendCapsule i k b) := by
  unfold State.sendCapsule
  split <;> exact State.sendOp_records h

theorem State.sendCqe_records {s0 s : State} {i a b c : Nat} {d : Bool} {e g : Nat} (h : State.Records s0 s) :
    State.Records s0 (s.sendCqe i a b c d e g) := by
  unfold State.sendCqe
  split
  · split
    · exact State.sendCapsule_records (h.frame rfl)
    · exact State.emit_records (State.emit_records (h.frame rfl))
  · exact State.sendCapsule_records h

theorem State.transmit_records {s0 s : State} {o : Out} (h : State.Records s0 s) : State.Records s0 (s.transmit o) := by
  unfold State.transmit
  split
  · exact State.sendCqe_records (State.emit_records h)
  · exact State.sendOp_records h
  · exact State.emit_records h

theorem State.deliver_records {s0 s : State} {o : Out} (h : State.Records s0 s) : State.Records s0 (s.deliver o) := by
  unfold State.deliver
  split
  · exact h.frame rfl
  · exact State.transmit_records h

theorem State.complete_records {s0 s : State} {q c a b : Nat} {d : Bool} {e g : Nat} (h : State.Records s0 s) :
    State.Records s0 (s.complete q c a b d e g) := by
  unfold State.complete
  split
  · exact h
  · split
    · split
      · split
        · exact State.deliver_records (State.putQp_records h)
        · exact h
      · exact h
    · exact State.deliver_records h

theorem State.sendAen_records {s0 s : State} {c t i l : Nat} (h : State.Records s0 s) : State.Records s0 (s.sendAen c t i l) := by
  unfold State.sendAen
  split
  · exact h
  · split
    · dsimp only
      split
      · exact State.deliver_records (State.complete_records (h.frame rfl))
      · exact State.deliver_records (h.frame rfl)
    · exact h.frame rfl

theorem State.postAen_records {s0 s : State} {c t i l : Nat} (h : State.Records s0 s) : State.Records s0 (s.postAen c t i l) := by
  unfold State.postAen
  split
  · exact State.sendAen_records (h.frame rfl)
  · split
    · exact h.frame rfl
    · exact State.sendAen_records (h.frame rfl)

theorem State.flushStart_records {s0 s : State} (h : State.Records s0 s) : State.Records s0 s.flushStart := by
  unfold State.flushStart
  repeat' split
  all_goals first | exact h | exact h.frame rfl

theorem State.appendRec_records {s0 s : State} {r : EvRec} (h : State.Records s0 s) : State.Records s0 (s.appendRec r) := by
  unfold State.appendRec
  exact State.bump_records (h.frame rfl) (by decide)

theorem State.notifyRec_records {s0 s : State} {n : Nat} (h : State.Records s0 s) : State.Records s0 (s.notifyRec n) := by
  unfold State.notifyRec
  split
  · dsimp only
    split
    · exact State.postAen_records (h.frame rfl)
    · exact h.frame rfl
  · exact h

theorem State.flushTriggers_records {s0 s : State} {n : Nat} (h : State.Records s0 s) : State.Records s0 (s.flushTriggers n) := by
  have h1 : State.Records s0 (if s.evr.awaitBytes - s.evr.flushBytes ≥ 65536 then s.flushStart else s) := by
    split
    · exact State.flushStart_records h
    · exact h
  unfold State.flushTriggers
  generalize (if s.evr.awaitBytes - s.evr.flushBytes ≥ 65536 then s.flushStart else s) = u at h1
  dsimp only
  repeat' split
  all_goals first | exact h1 | exact State.flushStart_records (h1.frame rfl)

theorem State.evAdmit_records {s0 s : State} {r : EvRec} (h : State.Records s0 s) : State.Records s0 (s.evAdmit r).1 := by
  unfold State.evAdmit
  dsimp only
  split
  · exact State.bump_records h (by decide)
  · exact State.flushTriggers_records (State.notifyRec_records (State.appendRec_records h))

theorem State.evRate_records {s0 s t : State} {c k v : Nat} (h : State.Records s0 s) (e : s.evRate c k v = some t) : State.Records s0 t := by
  unfold State.evRate at e
  split at e
  · cases e; exact h
  · split at e
    · cases e; exact h.frame rfl
    · cases e

theorem State.evFoldInto_records {s0 s : State} {r : EvRec} (h : State.Records s0 s) : State.Records s0 (s.evFoldInto r) := by
  unfold State.evFoldInto
  split
  · exact State.bump_records (h.frame rfl) (by decide)
  · exact State.bump_records (h.frame rfl) (by decide)

theorem State.evCore_records {s0 s : State} {c k v u : Nat} {is : List DWord} {l : Bool} (h : State.Records s0 s) :
    State.Records s0 (s.evCore c k v u is l).1 := by
  unfold State.evCore
  dsimp only
  split
  · split
    · exact State.Records.frame (State.Records.frame (State.bump_records (State.bump_records h (by decide)) (R.evr_drop_addr c)) rfl) rfl
    · split
      · exact State.Records.frame (State.bump_records h (R.evr_drop_addr c)) rfl
      · rename_i e
        have h1 := State.evRate_records h e
        split
        · exact State.bump_records h1 (by decide)
        · exact h1.frame rfl
  · split
    · split
      · exact State.evFoldInto_records h
      · split
        · exact State.Records.frame (State.bump_records h (R.evr_drop_addr c)) rfl
        · rename_i e
          exact State.evAdmit_records (State.evRate_records h e)
    · split
      · exact State.Records.frame (State.bump_records h (R.evr_drop_addr c)) rfl
      · rename_i e
        exact State.evAdmit_records (State.evRate_records h e)

theorem State.setChan_records {s0 s : State} {c : Nat} {ch : PtlChan} (h : State.Records s0 s) : State.Records s0 (s.setChan c ch) := h.frame rfl

theorem State.ptlOne_records {s0 s : State} {c t : Nat} {m : Bool} {p : Bytes} (h : State.Records s0 s) : State.Records s0 (s.ptlOne c t m p) := by
  unfold State.ptlOne
  dsimp only
  split
  · exact State.setChan_records h
  · exact State.emit_records (State.setChan_records h)

theorem State.ptlChain_records {s0 : State} {c t n : Nat} : ∀ {s : State} {p : Bytes}, State.Records s0 s → State.Records s0 (s.ptlChain c t p n) := by
  induction n with
  | zero => intro s p h; exact State.ptlOne_records h
  | succ n ih =>
    intro s p h
    unfold State.ptlChain
    split
    · exact State.ptlOne_records h
    · exact ih (State.ptlOne_records h)

theorem State.control_records {s0 s : State} {n : Nat} {p : Bytes} (h : State.Records s0 s) : State.Records s0 (s.control n p) :=
  State.ptlChain_records h

theorem State.latchAlarm_records {s0 s : State} {b : Nat} (h : State.Records s0 s) : State.Records s0 (s.latchAlarm b) := by
  unfold State.latchAlarm
  split
  · exact h
  · have h1 : State.Records s0 (s.wr R.EVR_ALARM (s.rd R.EVR_ALARM ||| BitVec.ofNat 64 (2 ^ b))) := State.wr_records h (by decide)
    generalize s.wr R.EVR_ALARM (s.rd R.EVR_ALARM ||| BitVec.ofNat 64 (2 ^ b)) = u at h1
    have h2 : State.Records s0 (if u.alarmActive.testBit b then (u.emit (.msix 0)).driveAlert else u) := by
      split
      · exact State.emit_records (State.emit_records h1)
      · exact h1
    dsimp only
    generalize (if u.alarmActive.testBit b then (u.emit (.msix 0)).driveAlert else u) = w at h2
    split
    · exact State.control_records h2
    · exact h2

/-- Recording an event changes nothing but what State.Records names. -/
theorem State.event_records {s0 s : State} {c k v u : Nat} {is : List DWord} {l : Bool} (h : State.Records s0 s) :
    State.Records s0 (s.event c k v u is l) := by
  unfold State.event
  have h1 := State.evCore_records (c := c) (k := k) (v := v) (u := u) (is := is) (l := l) h
  split
  · rename_i e; rw [e] at h1; exact h1
  · rename_i e; rw [e] at h1; exact State.evCore_records (State.latchAlarm_records h1)

end Sys2Proof.Machine
end

