-- ==== Sys2Proof/Laws/Parts.lean ====
section
/-! SUPPORT. What the shared operations do and leave alone, said once, so that proofs cite it and do not unfold them. -/
namespace Sys2Proof.Machine

/-! ### Conditionals and fields of a register -/

theorem nx_pos {c : Prop} [Decidable c] {a b t : State} (h : c) (e : a = t) : (Host.Outcome.next (if c then a else b) : Host.Outcome State Fault Refusal) = .next t := by rw [if_pos h, e]

theorem nx_neg {c : Prop} [Decidable c] {a b t : State} (h : ¬c) (e : b = t) : (Host.Outcome.next (if c then a else b) : Host.Outcome State Fault Refusal) = .next t := by rw [if_neg h, e]

theorem fld_wr (s : State) (r q : Reg) (v : DWord) (h l : Nat) (hq : q.addr ≠ r.addr) : (s.wr r v).fld q h l = s.fld q h l := by
  simp only [State.fld, State.rd, State.wr, RegStore.get_put_other _ _ _ _ hq]

theorem fld_bump (s : State) (r q : Reg) (h l : Nat) (hq : q.addr ≠ r.addr) : (s.bump r).fld q h l = s.fld q h l := fld_wr _ _ _ _ _ _ hq

/-! ### Register accesses (R5-R8, R17-R19) -/

theorem reach_write {s : State} {bar off a size v : Nat} (R : s.Reaches bar off a) (h : busAllowed off size = true) :
    s.busWrite bar off size v = if size = 8 then s.write64 a v else s.write32 a 4 v := by
  obtain ⟨hb, ha, hap, hbuf, hp, hd⟩ := R
  unfold State.busWrite
  rw [ha, h]
  have h2 : ¬(bar = 2 ∨ (bar = 0 ∧ 0x03100000 ≤ off ∧ off < 0x03200000)) := by omega
  rw [if_neg h2]
  rfl

theorem reach_read {s : State} {bar off a size : Nat} (R : s.Reaches bar off a) (h : busAllowed off size = true) :
    s.busRead bar off size = (if size = 8 then s.read64 a else s.read32 a).2.emit (.busRead bar off size (if size = 8 then s.read64 a else s.read32 a).1) := by
  obtain ⟨hb, ha, hap, hbuf, hp, hd⟩ := R
  unfold State.busRead
  rw [ha, h, if_neg (show ¬ bar = 2 by omega), if_neg hap]
  rfl

theorem barOk_of {bar : Nat} (h : bar = 0 ∨ bar = 4) : barOk bar = true := by rcases h with rfl | rfl <;> rfl

theorem al4 {off : Nat} (h : off % 4 = 0) : busAllowed off 4 = true := by simp [busAllowed, h]

theorem al4' {off : Nat} (h : off % 4 = 0) : busAllowed (off+4) 4 = true := by simp [busAllowed]; omega

theorem lowHalf {s : State} {r : Reg} (hr : regAt r.addr = some r) (hw : r.width = 64) (R : s.Reaches bar off r.addr) :
    s.read32 r.addr = ((s.regVal r).1 % 2^32, { (s.regVal r).2 with latch := putKey Prod.fst (r.addr, (s.regVal r).1 / 2 ^ 32) (s.regVal r).2.latch }) := by
  unfold State.read32
  rw [R.powered, R.decoded, R.buffer, hr]
  simp only [Option.isSome_none, Bool.or_false, Bool.false_eq_true, if_false]
  rw [if_pos hw]

theorem hiHalf {s : State} {r : Reg} (hr : regAt r.addr = some r) (hw : r.width = 64) (hn : regAt (r.addr+4) = none) (R : s.Reaches bar off (r.addr+4)) :
    s.read32 (r.addr+4) = match findKey Prod.fst r.addr s.latch with
        | some p => (p.2, { s with latch := dropKey Prod.fst r.addr s.latch })
        | none => ((s.regVal r).1 / 2 ^ 32, (s.regVal r).2) := by
  unfold State.read32
  rw [R.powered, R.decoded, R.buffer, hn]
  simp only [Option.isSome_none, Bool.or_false, Bool.false_eq_true, if_false]
  have h4 : r.addr + 4 - 4 = r.addr := by omega
  rw [h4, hr]
  have hf : (Option.filter (fun x => x.width == 64 && decide (4 ≤ r.addr + 4)) (some r)) = some r := by
    simp [Option.filter, hw]
  rw [hf] <;> rfl

theorem regVal_state (s : State) (r : Reg) : (s.regVal r).2 = { s with free := (s.regVal r).2.free } := by
  unfold State.regVal; split
  · rfl
  · rfl

theorem find_put {l : List (Nat × Nat)} {a b : Nat} : findKey Prod.fst a (putKey Prod.fst (a, b) l) = some (a,b) :=
  findKey_putKey_same Prod.fst (a,b) l

theorem find_drop {l : List (Nat × Nat)} {a : Nat} : findKey Prod.fst a (dropKey Prod.fst a l) = none := findKey_dropKey_same _ _ _

theorem wrReg_plain {u : State} {r : Reg} {w : DWord} (h2 : u.writeLocked r.addr = false) (hp : plainReg r = true) : u.wrReg r w = u.wr r (r.after (u.rd r) w) := by
  simp only [plainReg, Bool.not_eq_true', Bool.or_eq_false_iff, beq_eq_false_iff_ne, ne_eq] at hp
  obtain ⟨⟨⟨⟨⟨⟨⟨p1, p2⟩, p3⟩, p4⟩, p5⟩, p6⟩, p7⟩, p8⟩ := hp
  unfold State.wrReg
  simp only [h2, p1, p2, p3, p4, p5, p6, p7, p8, Bool.false_eq_true, if_false, or_self]
  rfl

/-! ### Resets (R485) -/

theorem mem_loose (s : State) (p : Nat) : (s.sflLoose p).sfl.mem = s.sfl.mem := by
  unfold State.sflLoose; repeat' split
  all_goals rfl

theorem fold_keep {α β : Type} (f : State → α → State) (g : State → β) (h : ∀ s a, g (f s a) = g s) (l : List α) (s : State) : g (l.foldl f s) = g s := by
  induction l generalizing s with
  | nil => rfl
  | cons a t ih => rw [List.foldl_cons, ih, h]

theorem cut_fields {β : Type} (g : State → β) (hg : ∀ (s : State) p, g (s.sflLoose p) = g s) (s : State) : g s.flashCut = g s := by
  unfold State.flashCut
  apply fold_keep (g := g)
  intro s o
  by_cases h : o.op = 1
  · simp only [h, if_true]; exact hg _ _
  · simp only [h, if_false]; exact fold_keep _ g (fun s i => hg s _) _ _

theorem count_rest (s : State) (a b : Bool) (h : s.hq.ctrls = []) : s.countPower a b = { s with ftl := (s.countPower a b).ftl, hq.warned := (s.countPower a b).hq.warned } := by
  cases a
  · rfl
  · unfold State.countPower State.warnOn
    simp only [if_true]
    split
    · rfl
    · simp only [h]; rfl

theorem find_filter {st : RegStore} {p : Nat → Bool} {r : Reg} (h : p r.addr = true) : RegStore.get (st.filter fun x => p x.1) r = RegStore.get st r := by
  unfold RegStore.get
  have : (st.filter fun x => p x.1).find? (fun p => p.1 == r.addr) = st.find? (fun p => p.1 == r.addr) := by
    induction st with
    | nil => rfl
    | cons b t ih =>
      by_cases hb : p b.1
      · rw [List.filter_cons_of_pos (by exact hb), List.find?_cons, List.find?_cons, ih]
      · rw [List.filter_cons_of_neg (by simpa using hb), ih, List.find?_cons_of_neg]
        intro he; exact hb (by rw [beq_iff_eq.1 he]; exact h)
  rw [this]

/-! ### Fabric time -/

theorem measure_rest (off : Int) (s : State) : s.measure off = { s with tide.window := (s.measure off).tide.window, tide.est := (s.measure off).tide.est } := rfl

/-! ### Control rings -/

theorem ring_set (s : State) (n : Nat) (r : Ring) (h : n < s.ctl.rings.length) : (s.setRing n r).ring n = r := by
  simp [State.ring, State.setRing, List.getD_eq_getElem?_getD, h]

/-! ### The event recorder -/

def evg (s : State) := (s.evr.seq, s.evr.awaiting, s.evr.allow, s.evr.area)

theorem fetchCtx_evr (s : State) (i : Nat) : (s.fetchCtx i).evr = s.evr := by
  unfold State.fetchCtx; repeat' split
  all_goals rfl

theorem ethOut_evr (s : State) (p k n : Nat) (q : Option Nat) (o : Out) : (s.ethOut p k q n o).evr = s.evr := by
  unfold State.ethOut; dsimp only; split <;> rfl

theorem sendOp_evr (s : State) (i : Nat) (o : SendOp) : (s.sendOp i o).evr = s.evr := by
  unfold State.sendOp
  split
  · rfl
  · dsimp only
    split
    · rfl
    · split
      · exact fetchCtx_evr _ _
      · split
        · rfl
        · exact ethOut_evr _ _ _ _ _ _

theorem sendCqe_evr (s : State) (i a b c : Nat) (d : Bool) (e g : Nat) : (s.sendCqe i a b c d e g).evr = s.evr := by
  unfold State.sendCqe State.sendCapsule
  repeat' split
  all_goals first | exact sendOp_evr _ _ _ | rfl

theorem transmit_evr (s : State) (o : Out) : (s.transmit o).evr = s.evr := by
  unfold State.transmit; split
  · exact sendCqe_evr _ _ _ _ _ _ _ _
  · exact sendOp_evr _ _ _
  · rfl

theorem deliver_evr (s : State) (o : Out) : (s.deliver o).evr = s.evr := by
  unfold State.deliver; split
  · rfl
  · exact transmit_evr _ _

theorem complete_evr (s : State) (q c a b : Nat) (d : Bool) (e g : Nat) : (s.complete q c a b d e g).evr = s.evr := by
  unfold State.complete
  repeat' split
  all_goals first | exact deliver_evr _ _ | rfl

theorem sendAen_evr (s : State) (c t i l : Nat) : (s.sendAen c t i l).evr = s.evr := by
  unfold State.sendAen; split
  · rfl
  · split
    · dsimp only
      split
      · rw [deliver_evr, complete_evr]
      · rw [deliver_evr]
    · rfl

theorem postAen_evg (s : State) (c t i l : Nat) : evg (s.postAen c t i l) = evg s := by
  unfold State.postAen; split
  · dsimp only; unfold evg; rw [sendAen_evr]
  · split
    · rfl
    · dsimp only; unfold evg; rw [sendAen_evr]

theorem notify_evg (s : State) (n : Nat) : evg (s.notifyRec n) = evg s := by
  unfold State.notifyRec; split
  · dsimp only; split
    · rw [postAen_evg]; rfl
    · rfl
  · rfl

theorem flush_evg (s : State) : evg s.flushStart = evg s := by
  unfold State.flushStart; repeat' split
  all_goals rfl

theorem trig_evg (s : State) (n : Nat) : evg (s.flushTriggers n) = evg s := by
  have h1 : evg (if s.evr.awaitBytes - s.evr.flushBytes ≥ 65536 then s.flushStart else s) = evg s := by
    split
    · exact flush_evg s
    · rfl
  unfold State.flushTriggers
  generalize (if s.evr.awaitBytes - s.evr.flushBytes ≥ 65536 then s.flushStart else s) = u at h1
  dsimp only
  repeat' split
  all_goals first | exact h1 | (rw [flush_evg]; exact h1)

theorem admit_ok (s : State) (r : EvRec) (h : s.evr.awaitBytes + (evFill s.evr.pageFill r.bytes + r.bytes) ≤ evLimit r.sev) :
    (s.evAdmit r).2 = false ∧ evg (s.evAdmit r).1 = ((s.evr.seq + 1) % 2 ^ 32, s.evr.awaiting ++ [{ r with seq := (s.evr.seq + 1) % 2 ^ 32 }], s.evr.allow, s.evr.area) := by
  unfold State.evAdmit
  dsimp only
  rw [if_neg (by omega)]
  refine ⟨rfl, ?_⟩
  dsimp only
  rw [trig_evg, notify_evg]; rfl

theorem event_of {s u : State} {c k v n : Nat} {is : List DWord} {l : Bool} (h : s.evCore c k v n is l = (u, false)) : s.event c k v n is l = u := by
  unfold State.event; rw [h]

theorem pair_of {α β : Type} {p : α × β} {b : β} (h : p.2 = b) : p = (p.1, b) := by cases p; cases h; rfl

/-! ### Byte memories and system flash -/

theorem memRead_filter (d : Byte) (p : Nat → Bool) (m : List Host.Cell) (a : Nat) :
    memRead d (m.filter fun c => p c.1) a = if p a then memRead d m a else d := by
  induction m with
  | nil => simp [memRead]
  | cons c t ih =>
    obtain ⟨b, v⟩ := c
    by_cases h : p b = true
    · rw [List.filter_cons_of_pos (by exact h)]
      by_cases g : a = b
      · subst g; simp [memRead, h]
      · simp [memRead, g, ih]
    · rw [List.filter_cons_of_neg (by exact h), ih]
      by_cases g : a = b
      · subst g; simp [h]
      · simp [memRead, g]

theorem findKey_filter {α : Type} (f : α → Nat) (p : Nat → Bool) (k : Nat) (l : List α) :
    findKey f k (l.filter fun x => p (f x)) = if p k then findKey f k l else none := by
  unfold findKey
  induction l with
  | nil => simp
  | cons x t ih =>
    by_cases h : p (f x) = true
    · rw [List.filter_cons_of_pos (by exact h)]
      by_cases g : f x = k
      · subst g; simp [h]
      · simp [g, ih]
    · rw [List.filter_cons_of_neg (by exact h), ih]
      by_cases g : f x = k
      · subst g; simp [h]
      · simp [g]

theorem logOne_boot (s : State) (p t : Nat) (b : Option Bytes) : (s.logOne p t b).boot = s.boot := by
  unfold State.logOne; cases b <;> rfl

theorem logCopy_boot (s : State) (p : Nat) (c : Nat × Nat) : (s.logCopy p c).boot = s.boot := by
  unfold State.logCopy; dsimp only; split <;> exact logOne_boot _ _ _ _

theorem fold_boot {α : Type} (l : List α) (f : State → α → State) (h : ∀ u a, (f u a).boot = u.boot) (s : State) : (l.foldl f s).boot = s.boot := by
  induction l generalizing s with
  | nil => rfl
  | cons a t ih => rw [List.foldl_cons, ih, h]

theorem logRecord_boot (s : State) (p t : Nat) (b : Option Bytes) : (s.logRecord p t b).boot = s.boot := by
  unfold State.logRecord; dsimp only
  split
  · exact logOne_boot _ _ _ _
  · split
    · refine Eq.trans (b := (List.foldl (fun (s : State) c => s.logCopy p c) (s.logOne p t b) ((State.sflLog (s.logOne p t b) p).cur.filter fun c => c.2 / 64 == ((State.sflLog (s.logOne p t b) p).next / 64 + 1) % 8)).boot) rfl ?_
      rw [fold_boot _ _ (fun u a => logCopy_boot u p a), logOne_boot]
    · rw [fold_boot _ _ (fun u a => logCopy_boot u p a), logOne_boot]

theorem sflLooseAll_boot (e : State) (b : Nat) : (((List.range 64).foldl (fun (u : State) i => u.sflLoose (b * 64 + i)) e)).boot = e.boot :=
  by
  generalize List.range 64 = l
  exact fold_boot l _ (fun u i => (rfl : (u.sflLoose (b * 64 + i)).boot = u.boot)) e

theorem event_boot (s : State) (a b c d : Nat) (i : List DWord) : (s.event a b c d i).boot = s.boot := by
  rw [(State.event_records (State.Records.refl s)).same]

theorem sflRetire_boot (s : State) (b : Nat) : (s.sflRetire b).boot = s.boot := by
  unfold State.sflRetire
  split
  · rfl
  · dsimp only; rw [event_boot, logRecord_boot]; rfl

theorem takeWhile_all (lv : List (Nat × Nat)) (z : ∀ x ∈ lv, x.2 = 0) : lv.takeWhile (fun x => decide (x.2 ≤ 8)) = lv := by
  induction lv with
  | nil => rfl
  | cons a t ih =>
    rw [List.takeWhile_cons_of_pos (by rw [z a (by simp)]; decide), ih (fun x hx => z x (by simp [hx]))]

theorem fold_level (lv : List (Nat × Nat)) (z : ∀ x ∈ lv, x.2 = 0) (s : State) : lv.foldl (fun (s : State) x => s.sflLevel x.1 x.2) s = s := by
  induction lv generalizing s with
  | nil => rfl
  | cons a t ih =>
    rw [List.foldl_cons, ih (fun x hx => z x (by simp [hx])), z a (by simp)]; rfl

/-! ### Memory and the data mover -/

theorem alarm9_records {s0 s : State} {c k u : Nat} {is : List DWord} (h : State.Records s0 s) : State.Records s0 (s.alarm 9 c k u is) :=
  State.event_records (State.latchAlarm_records h)

theorem put_keep (s : State) (ch b v : Nat) : s.setFld (R.DMA_CH_STATUS ch) b b v = { s with regs := (s.setFld (R.DMA_CH_STATUS ch) b b v).regs } := rfl

theorem memAll (m : List Host.Cell) (a b : Nat) (bs : Bytes) (h : Memory.wf 0 m = true) :
    memRead 0 (memWriteAll 0 m a bs) b = if a ≤ b ∧ b < a + bs.length then bs.getD (b - a) 0 else memRead 0 m b := by
  split
  · rename_i g
    have := memRead_writeAll_at (d := 0) a (b - a) bs h (by omega)
    rwa [show a + (b - a) = b by omega] at this
  · rename_i g; exact memRead_writeAll_other _ _ _ _ _ (by omega)

/-! ### Arriving packets -/

theorem qpOf_some {s : State} {qpn : Nat} {q : Qp} (h : s.qpOf qpn = some q) : s.qp? (qpn - 0x10) = some q ∧ 0x10 ≤ qpn ∧ q.st = .connected := by
  unfold State.qpOf at h
  split at h
  · rename_i p hp
    split at h
    · rename_i hc
      cases h; exact ⟨hp, hc.1, hc.2⟩
    · cases h
  · cases h

/-- A packet for an address of this head, with a good ICRC, is counted and acted on (R105). -/
theorem rxNet_ok {s : State} {n : NetIn} (act : State → State) (ha : s.answers n.port n.gid = true) (hi : n.icrcOk = true) :
    s.rxNet n act = act (s.xbump R.XPT_RX_PKT_CNT R.XPT_P_RX_PKT_CNT n.port 1) := by
  unfold State.rxNet
  simp only [ha, hi, Bool.not_true, Bool.false_eq_true, if_false]

theorem rxAny_ok {s : State} {n : NetIn} {qpn : Nat} {q : Qp} (k : XPkt) (ha : s.answers n.port n.gid = true) (hi : n.icrcOk = true)
    (h : s.qpOf qpn = some q) :
    s.rxAny n qpn k = (s.xbump R.XPT_RX_PKT_CNT R.XPT_P_RX_PKT_CNT n.port 1).forQp q k := by
  unfold State.rxAny
  rw [rxNet_ok _ ha hi]
  have h' : (s.xbump R.XPT_RX_PKT_CNT R.XPT_P_RX_PKT_CNT n.port 1).qpOf qpn = some q := h
  simp only [h']

theorem rxAny_cached {s : State} {n : NetIn} {qpn : Nat} {q : Qp} (k : XPkt) (ha : s.answers n.port n.gid = true) (hi : n.icrcOk = true)
    (h : s.qpOf qpn = some q) (hc : q.cached = true) :
    s.rxAny n qpn k = ((s.xbump R.XPT_RX_PKT_CNT R.XPT_P_RX_PKT_CNT n.port 1).putQp { q with used := true }).rxPkt q.idx k := by
  rw [rxAny_ok k ha hi h]
  unfold State.forQp
  rw [if_pos hc]

theorem rxAny_miss {s : State} {n : NetIn} {qpn : Nat} {q : Qp} (k : XPkt) (ha : s.answers n.port n.gid = true) (hi : n.icrcOk = true)
    (h : s.qpOf qpn = some q) (hc : q.cached = false) :
    s.rxAny n qpn k =
      (((s.xbump R.XPT_RX_PKT_CNT R.XPT_P_RX_PKT_CNT n.port 1).putQp { q with missed := q.missed ++ [k] }).fetchCtx q.idx).missFlow q.port := by
  rw [rxAny_ok k ha hi h]
  unfold State.forQp
  rw [if_neg (by rw [hc]; decide)]

/-! ### The brine -/

theorem fold_min_mem (l : List BEnt) (o : Option BEnt) (e : BEnt)
    (h : l.foldl (fun o e => match o with
      | none => some e
      | some (x : BEnt) => if e.jseq < x.jseq then some e else some x) o = some e) : o = some e ∨ e ∈ l := by
  induction l generalizing o with
  | nil => exact .inl h
  | cons a t ih =>
    rcases ih _ h with g | g
    · cases o with
      | none => cases g; exact .inr (by simp)
      | some x =>
        dsimp only at g
        split at g
        · cases g; exact .inr (by simp)
        · cases g; exact .inl rfl
    · exact .inr (by simp [g])

/-! ### Keys -/

theorem kpage_put (s : State) (p : KeyPage) (n : Nat) : (s.putPage p).kpage n = if n = p.no then p else s.kpage n := by
  unfold State.kpage State.putPage
  split
  · rename_i h; subst h
    rw [show findKey KeyPage.no p.no (putKey KeyPage.no p s.keys.pages) = some p from findKey_putKey_same KeyPage.no p _]; rfl
  · rename_i h
    rw [show findKey KeyPage.no n (putKey KeyPage.no p s.keys.pages) = findKey KeyPage.no n s.keys.pages from findKey_putKey_other KeyPage.no p n _ (fun e => h e.symm)]

theorem kslot_put (s : State) (p : KeySlot) : (s.putSlot p).kslot p.no = p := by
  unfold State.kslot State.putSlot
  rw [show findKey KeySlot.no p.no (putKey KeySlot.no p s.keys.slots) = some p from findKey_putKey_same KeySlot.no p _]; rfl

theorem reply_keys (s : State) (n : Nat) (p : RingReply) : (s.reply n p).keys = s.keys := by
  unfold State.reply
  split
  · rfl
  · unfold State.putReply; dsimp only
    repeat' split
    all_goals rfl

theorem settle_keys (s : State) (n k : Nat) : (s.settle n k).keys = s.keys := by
  induction k generalizing s with
  | zero => rfl
  | succ k ih =>
    unfold State.settle
    split
    · rfl
    · rw [ih, reply_keys]; rfl

theorem finish_keys (s : State) (p : PktRef) (st : Nat) (r d : Bytes) : (s.finish p st r d).keys = s.keys := by
  unfold State.finish
  split
  · rfl
  · rw [settle_keys, reply_keys]

theorem endOff_keys (s : State) (o : OffJob) (st : Nat) (r : Bytes) : (s.endOff o st r).keys = { s.keys with offs := s.keys.offs.filter fun x => x.id != o.id } := by
  unfold State.endOff; dsimp only; rw [finish_keys]; split <;> rfl

theorem fold_endOff (l : List OffJob) (s : State) : ∃ os, (l.foldl (fun (s : State) o => s.endOff o 0x070B []) s).keys = { s.keys with offs := os } := by
  induction l generalizing s with
  | nil => exact ⟨s.keys.offs, rfl⟩
  | cons a t ih =>
    obtain ⟨os, h⟩ := ih (s.endOff a 0x070B [])
    exact ⟨os, by rw [List.foldl_cons, h, endOff_keys]⟩

theorem fold_keys {α : Type} (l : List α) (f : State → α → State) (h : ∀ u a, (f u a).keys = u.keys) (s : State) : (l.foldl f s).keys = s.keys := by
  induction l generalizing s with
  | nil => rfl
  | cons a t ih => rw [List.foldl_cons, ih, h]

theorem event_keys (s : State) (a b c d : Nat) (i : List DWord) : (s.event a b c d i).keys = s.keys := by
  rw [(State.event_records (State.Records.refl s)).same]

theorem fillCheck_keys (s : State) : s.fillCheck.keys = s.keys := by
  unfold State.fillCheck
  dsimp only
  repeat' split
  all_goals first | rfl | exact event_keys _ _ _ _ _ _

theorem discardEnt_keys (s : State) (e : BEnt) : (s.discardEnt e).keys = s.keys := fillCheck_keys _

theorem discardCmd_keys (s : State) (i : Nat) : (s.discardCmd i).keys = s.keys := by
  unfold State.discardCmd; dsimp only
  exact fold_keys _ _ discardEnt_keys _

theorem dropIo_keys (s : State) (i : Nat) : (s.dropIo i).keys = s.keys := by
  unfold State.dropIo State.endDetaches; dsimp only
  rw [fold_keys _ (fun (s : State) (d : Nat × PktRef) => s.finish d.2 stOk [] []) (fun u d => finish_keys u d.2 stOk [] [])]
  exact fillCheck_keys _

theorem endSession_keys (s : State) : ∃ n, s.endSession.keys = { s.keys with asserted := n } := by
  unfold State.endSession; dsimp only; split
  · exact ⟨_, rfl⟩
  · exact ⟨s.keys.asserted, rfl⟩

theorem zero_facts (s : State) : s.zeroize.keys.dk = false ∧ s.zeroize.keys.dck = none ∧ s.zeroize.keys.pwk = none ∧ s.zeroize.keys.dumpKey = none ∧ s.zeroize.keys.erased = true ∧
    (∀ p ∈ s.zeroize.keys.pages, p.key1 = [] ∧ p.key2 = [] ∧ p.salt = 0 ∧ (p.state = .empty ∨ p.state = .erased)) ∧
    (∀ k ∈ s.zeroize.keys.slots, k.key = [] ∧ k.inner = [] ∧ k.outer = [] ∧ (k.state = .empty ∨ k.state = .erased)) ∧
    (∀ c ∈ s.zeroize.keys.ctxs, c.saved = true) := by
  refine ⟨rfl, rfl, rfl, rfl, rfl, ?_, ?_, ?_⟩
  · intro p hp
    change p ∈ s.keys.pages.map KeyPage.onAlarm at hp
    obtain ⟨q, _, rfl⟩ := List.mem_map.mp hp
    unfold KeyPage.onAlarm; split
    · rename_i h; exact ⟨rfl, rfl, rfl, .inl h⟩
    · exact ⟨rfl, rfl, rfl, .inr rfl⟩
  · intro p hp
    change p ∈ s.keys.slots.map KeySlot.onAlarm at hp
    obtain ⟨q, _, rfl⟩ := List.mem_map.mp hp
    unfold KeySlot.onAlarm; split
    · rename_i h; exact ⟨rfl, rfl, rfl, .inl h⟩
    · exact ⟨rfl, rfl, rfl, .inr rfl⟩
  · intro c hc
    change c ∈ s.keys.ctxs.filter EngCtx.saved at hc
    exact (List.mem_filter.mp hc).2

theorem raise_keys (s : State) (src : Nat) (own : Bool) : ∃ (u : State) (n : Nat) (os : List OffJob), (s.raiseAlarm src own).keys = { u.zeroize.keys with asserted := n, offs := os } := by
  unfold State.raiseAlarm
  dsimp only
  generalize hz : (State.alarm _ 0 0x12 evcSecurity 0 _) = z
  obtain ⟨os, ho⟩ := fold_endOff z.zeroize.keys.offs z.zeroize
  have hd : ∀ u : State, { u.dropAllIo with pwr.dumping := false }.keys = u.keys := by
    intro u
    show u.dropAllIo.keys = u.keys
    unfold State.dropAllIo; exact fold_keys _ _ (fun v i => by rw [dropIo_keys, discardCmd_keys]) _
  split
  · exact ⟨z, _, os, by rw [hd, ho]⟩
  · obtain ⟨n, hn⟩ := endSession_keys { (z.zeroize.keys.offs.foldl (fun (s : State) o => s.endOff o 0x070B []) z.zeroize).dropAllIo with pwr.dumping := false }
    exact ⟨z, n, os, by rw [hn, hd, ho]⟩

/-! ### What replies leave alone -/

theorem ro_refl (s : State) : s.RingsOnly s := ⟨rfl, fun _ _ _ => rfl⟩

theorem ro_trans {s t u : State} (h : s.RingsOnly t) (g : t.RingsOnly u) : s.RingsOnly u := by
  refine ⟨?_, fun r a b => (g.low r a b).trans (h.low r a b)⟩
  have h1 := h.same
  have g1 := g.same
  rw [h1] at g1
  exact g1

theorem ro_frame {s : State} (rs : RegStore) (q : List Ring) (o : List Out)
    (h : ∀ r : Reg, r.addr ≠ R.CTL_FAIL_CNT.addr → r.addr ≠ R.CTL_RPL_HOLD_CNT.addr → State.rd { s with regs := rs, ctl.rings := q, out := o } r = s.rd r) :
    s.RingsOnly { s with regs := rs, ctl.rings := q, out := o } := ⟨rfl, h⟩

theorem ro_setRing (s : State) (n : Nat) (r : Ring) : s.RingsOnly (s.setRing n r) := ⟨rfl, fun _ _ _ => rfl⟩

theorem ro_emit (s : State) (o : Out) : s.RingsOnly (s.emit o) := ⟨rfl, fun _ _ _ => rfl⟩

theorem ro_emits (s : State) (o : List Out) : s.RingsOnly (s.emits o) := ⟨rfl, fun _ _ _ => rfl⟩

theorem ro_bump (s : State) (r : Reg) (h : r.addr = R.CTL_FAIL_CNT.addr ∨ r.addr = R.CTL_RPL_HOLD_CNT.addr) : s.RingsOnly (s.bump r) := by
  refine ⟨rfl, fun q a b => ?_⟩
  have k : q.addr ≠ r.addr := by rcases h with h | h <;> rw [h] <;> assumption
  exact (by simp only [State.rd, State.bump, State.bumpBy, State.wr, RegStore.get_put_other _ _ _ _ k])

theorem ro_putReply (s : State) (n : Nat) (p : RingReply) : s.RingsOnly (s.putReply n p) := by
  unfold State.putReply
  dsimp only
  refine ro_trans ?_ (ro_setRing _ _ _)
  have a1 : s.RingsOnly (if p.data = [] then s else s.emit (.slotData n p.slot p.data)) := by split; exact ro_refl _; exact ro_emit _ _
  generalize (if p.data = [] then s else s.emit (.slotData n p.slot p.data)) = x at *
  have a2 := ro_trans a1 (ro_emits x [.reply n p.tag p.status p.data.length p.result, .tailWord n (((s.ring n).replyCount + 1) % 2 ^ 16)])
  generalize x.emits _ = y at *
  have a3 : s.RingsOnly (if y.fld (R.CTL_RING_CFG n) 30 30 = 1 then y.emit (.msix (y.fld (R.CTL_RING_CFG n) 10 0)) else y) := by
    split; exact ro_trans a2 (ro_emit _ _); exact a2
  generalize (if y.fld (R.CTL_RING_CFG n) 30 30 = 1 then y.emit (.msix (y.fld (R.CTL_RING_CFG n) 10 0)) else y) = z at *
  split
  · exact ro_trans a3 (ro_bump _ _ (.inl rfl))
  · exact a3

theorem ro_reply (s : State) (n : Nat) (p : RingReply) : s.RingsOnly (s.reply n p) := by
  unfold State.reply
  split
  · exact ro_trans (ro_setRing _ _ _) (ro_bump _ _ (.inr rfl))
  · exact ro_putReply _ _ _

theorem ro_settle (k n : Nat) : ∀ s : State, s.RingsOnly (s.settle n k) := by
  induction k with
  | zero => intro s; exact ro_refl s
  | succ k ih =>
    intro s; unfold State.settle; split
    · exact ro_refl s
    · exact ro_trans (ro_trans (ro_setRing _ _ _) (ro_reply _ _ _)) (ih _)

theorem ro_finish (s : State) (p : PktRef) (st : Nat) (r d : Bytes) : s.RingsOnly (s.finish p st r d) := by
  unfold State.finish; split
  · exact ro_refl s
  · exact ro_trans (ro_reply _ _ _) (ro_settle _ _ _)

theorem ro_packet (s : State) (opc n slot : Nat) (body : Entry → PktRef → State → PktRes)
    (h : ∀ e p u, ∃ st res data, body e p u = .done u st res data) : s.RingsOnly (s.packet opc n slot body) := by
  unfold State.packet; split
  · exact ro_refl s
  · dsimp only; split
    · exact ro_trans (ro_setRing _ _ _) (ro_finish _ _ _ _ _)
    · split
      · exact ro_refl s
      · split
        · exact ro_trans (ro_setRing _ _ _) (ro_finish _ _ _ _ _)
        · rename_i e _ _ _ _ _ _
          obtain ⟨st, res, data, hb⟩ := h e (packetRef n slot e) (s.begun n slot e)
          rw [hb]
          by_cases ht : e.tailOk = true
          · simp only [ht, if_true]
            exact ro_trans (ro_setRing _ _ _) (ro_finish _ _ _ _ _)
          · simp only [ht, if_false, Bool.false_eq_true]
            exact ro_trans (ro_setRing _ _ _) (ro_finish _ _ _ _ _)

/-! ### Serial numbers -/

theorem ser_cases (n a b : Nat) (_h : 1 ≤ n) (ha : a < 2 ^ n) (hb : b < 2 ^ n) :
    (a ≤ b ∧ ((b : Int) - a) % 2 ^ n = b - a ∧ (b + 2 ^ n - a % 2 ^ n) % 2 ^ n = b - a) ∨
    (b < a ∧ ((b : Int) - a) % 2 ^ n = b + 2 ^ n - a ∧ (b + 2 ^ n - a % 2 ^ n) % 2 ^ n = b + 2 ^ n - a) := by
  have hp : ((2 : Int) ^ n) = ((2 ^ n : Nat) : Int) := by simp
  rw [Nat.mod_eq_of_lt ha, hp]
  generalize 2 ^ n = m at *
  by_cases c : a ≤ b
  · refine .inl ⟨c, ?_, ?_⟩
    · rw [Int.emod_eq_of_lt (by omega) (by omega)]
    · rw [show b + m - a = (b - a) + m by omega, Nat.add_mod_right, Nat.mod_eq_of_lt (by omega)]
  · refine .inr ⟨by omega, ?_, ?_⟩
    · rw [show (b : Int) - a = (b + m - a) + m * (-1) by omega, Int.add_mul_emod_self_left, Int.emod_eq_of_lt (by omega) (by omega)]
    · rw [Nat.mod_eq_of_lt (by omega)]

end Sys2Proof.Machine
end

