-- ==== Sys2Proof/Laws/Power.lean ====
section
/-! SUPPORT. What each operation of Machine/Power.lean can do: what follows from a state before it follows after it (Sys2Proof.Machine.State.Follows). -/
namespace Sys2Proof.Machine

theorem State.domainIn_follows {s0 s : State} {a1} (h : State.Follows s0 s) : State.Follows s0 (State.domainIn s a1) := by
  unfold State.domainIn
  repeat' first | with_reducible assumption | intro _ | with_reducible apply State.setUnitState_follows | with_reducible apply State.llcLeave_follows | with_reducible apply State.fillEngine_follows | with_reducible apply foldl_follows | with_reducible apply Follows.ite | split | extract_lets | with_reducible apply Follows.frame

theorem State.critical_follows {s0 s : State} {a1} (h : State.Follows s0 s) : State.Follows s0 (State.critical s a1) := by
  unfold State.critical
  repeat' first | with_reducible assumption | intro _ | with_reducible apply State.fresh_follows | with_reducible apply State.missCmd_follows | with_reducible apply State.dropIo_follows | with_reducible apply State.discardCmd_follows | with_reducible apply State.sendLeave_follows | with_reducible apply State.dumpCheck_follows | with_reducible apply State.flushStart_follows | with_reducible apply State.startDump_follows | with_reducible apply State.anaChanged_follows | with_reducible apply foldl_follows | with_reducible refine snd_follows (by assumption) ?_ | with_reducible apply Follows.ite | split | extract_lets | with_reducible apply Follows.frame

theorem State.tempStep_follows {s0 s : State} {a1 a2} (h : State.Follows s0 s) : State.Follows s0 (State.tempStep s a1 a2) := by
  unfold State.tempStep
  repeat' first | with_reducible assumption | intro _ | with_reducible apply State.event_follows | with_reducible apply State.bump_follows | with_reducible apply State.warnOn_follows | with_reducible apply State.critical_follows | with_reducible apply State.alarm_follows | with_reducible apply foldl_follows | with_reducible apply Follows.ite | split | extract_lets | with_reducible apply Follows.frame

theorem State.eraseSource_follows {s0 s : State} {a1 a2} (h : State.Follows s0 s) : State.Follows s0 (State.eraseSource s a1 a2) := by
  unfold State.eraseSource
  repeat' first | with_reducible assumption | intro _ | with_reducible apply State.raiseAlarm_follows | with_reducible apply foldl_follows | with_reducible apply Follows.ite | split | extract_lets | with_reducible apply Follows.frame

theorem execTempSample_follows {s : State} {a1} : ∃ t, execTempSample a1 s = .next t ∧ State.Follows s t := by
  unfold execTempSample
  refine ⟨_, rfl, ?_⟩
  have h := State.Follows.refl s
  repeat' first | with_reducible assumption | intro _ | with_reducible apply State.tempStep_follows | with_reducible apply State.bump_follows | with_reducible apply State.warnOff_follows | with_reducible apply State.eraseSource_follows | with_reducible apply foldl_follows | with_reducible apply Follows.ite | split | extract_lets | with_reducible apply Follows.frame

theorem execTempBinTick_follows {s : State} : ∃ t, execTempBinTick s = .next t ∧ State.Follows s t := by
  unfold execTempBinTick
  refine ⟨_, rfl, ?_⟩
  have h := State.Follows.refl s
  repeat' first | with_reducible assumption | intro _ | with_reducible apply foldl_follows | with_reducible apply Follows.ite | split | extract_lets | with_reducible apply Follows.frame

theorem State.railStep_follows {s0 s : State} {a1 a2} (h : State.Follows s0 s) : State.Follows s0 (State.railStep s a1 a2) := by
  unfold State.railStep
  repeat' first | with_reducible assumption | intro _ | with_reducible apply State.event_follows | with_reducible apply State.bump_follows | with_reducible apply State.critical_follows | with_reducible apply State.alarm_follows | with_reducible apply foldl_follows | with_reducible apply Follows.ite | split | extract_lets | with_reducible apply Follows.frame

theorem execRailSample_follows {s : State} {a1 a2} : ∃ t, execRailSample a1 a2 s = .next t ∧ State.Follows s t := by
  unfold execRailSample
  refine ⟨_, rfl, ?_⟩
  have h := State.Follows.refl s
  repeat' first | with_reducible assumption | intro _ | with_reducible apply State.railStep_follows | with_reducible apply State.eraseSource_follows | with_reducible apply foldl_follows | with_reducible apply Follows.ite | split | extract_lets | with_reducible apply Follows.frame

theorem State.clearCopies_follows {s0 s : State} {a1} (h : State.Follows s0 s) : State.Follows s0 (State.clearCopies s a1) := by
  have hr : ∀ p, State.Follows s0 { s with regs := s.regs.filter p } := fun p =>
    ⟨h.queue, h.sent, h.drawn, fun g =>
      let k := h.sound g
      ⟨regsWfFrom_filter k.regs, k.hbm, k.ddr, k.flash, k.buf, k.rings, k.chans, k.allow⟩⟩
  unfold State.clearCopies
  repeat' first | with_reducible assumption | with_reducible apply hr | split | extract_lets

theorem execGetCables_follows {s : State} {a1 a2} : ∃ t, execGetCables a1 a2 s = .next t ∧ State.Follows s t := by
  unfold execGetCables
  refine ⟨_, rfl, ?_⟩
  have h := State.Follows.refl s
  repeat' first | with_reducible assumption | intro _ | with_reducible apply State.packet_follows | with_reducible exact PktRes.follows_waits | with_reducible apply PktRes.follows_done | with_reducible apply PktRes.follows_started | with_reducible apply PktRes.follows_startDone | with_reducible apply PktRes.follows_quiet | with_reducible apply foldl_follows | with_reducible apply Follows.ite | with_reducible apply PktRes.follows_ite | split | extract_lets | with_reducible apply Follows.frame

theorem State.clockDown_follows {s0 s : State} {a1} (h : State.Follows s0 s) : State.Follows s0 (State.clockDown s a1) := by
  unfold State.clockDown
  repeat' first | with_reducible assumption | intro _ | with_reducible apply State.eraseSource_follows | with_reducible apply State.ethOff_follows | with_reducible apply State.setUnitState_follows | with_reducible apply State.iclDown_follows | with_reducible apply State.afterUnits_follows | with_reducible apply rowMediaPortDown_follows | with_reducible apply State.referenceLost_follows | with_reducible apply foldl_follows | with_reducible apply Follows.ite | split | extract_lets | with_reducible apply Follows.frame

theorem State.leaveCluster_follows {s0 s : State} {a1} (h : State.Follows s0 s) : State.Follows s0 (State.leaveCluster s a1) := by
  unfold State.leaveCluster
  repeat' first | with_reducible assumption | intro _ | with_reducible apply State.setUnitState_follows | with_reducible apply State.fillEngine_follows | with_reducible apply foldl_follows | with_reducible apply Follows.ite | split | extract_lets | with_reducible apply Follows.frame

theorem State.domainOut_follows {s0 s : State} {a1} {t} (e : State.domainOut s a1 = .ok t) (h : State.Follows s0 s) : State.Follows s0 t := by
  unfold State.domainOut at e
  dsimp only at e
  repeat' first | contradiction | split at e
  all_goals
    injection e with e
    subst e
  all_goals
    first
    | exact State.setUnitState_follows (State.ethOff_follows h)
    | exact State.setUnitState_follows (State.iclDown_follows h)
    | exact State.putMod_follows (State.takeOut_follows h)
    | exact State.putMod_follows h
    | exact State.leaveCluster_follows h
    | exact Follows.frame (State.llcLeave_follows h)
    | exact State.setUnitState_follows h
    | exact h
    | exact Follows.frame h

theorem execSetPowerDomain_follows {s : State} {a1 a2} : ∃ t, execSetPowerDomain a1 a2 s = .next t ∧ State.Follows s t := by
  unfold execSetPowerDomain
  refine ⟨_, rfl, ?_⟩
  have h := State.Follows.refl s
  repeat' first | with_reducible assumption | intro _ | with_reducible apply State.packet_follows | with_reducible apply PktRes.fail_follows | with_reducible apply State.clearCopies_follows | with_reducible apply State.bump_follows | with_reducible refine State.domainOut_follows (by assumption) ?_ | with_reducible apply State.afterUnits_follows | with_reducible exact PktRes.follows_waits | with_reducible apply PktRes.follows_done | with_reducible apply PktRes.follows_started | with_reducible apply PktRes.follows_startDone | with_reducible apply PktRes.follows_quiet | with_reducible apply foldl_follows | with_reducible apply Follows.ite | with_reducible apply PktRes.follows_ite | split | extract_lets | with_reducible apply Follows.frame

theorem State.domainRegs_follows {s0 s : State} {a1} (h : State.Follows s0 s) : State.Follows s0 (State.domainRegs s a1) := by
  unfold State.domainRegs
  repeat' first | with_reducible assumption | intro _ | with_reducible apply State.wr_follows | with_reducible apply State.llcWayOff_follows | with_reducible apply foldl_follows | with_reducible apply Follows.ite | split | extract_lets | with_reducible apply Follows.frame

theorem execPowerDomainReady_follows {s : State} {a1} : ∃ t, execPowerDomainReady a1 s = .next t ∧ State.Follows s t := by
  unfold execPowerDomainReady
  refine ⟨_, rfl, ?_⟩
  have h := State.Follows.refl s
  repeat' first | with_reducible assumption | intro _ | with_reducible apply State.domainRegs_follows | with_reducible apply State.domainIn_follows | with_reducible apply State.finish_follows | with_reducible apply foldl_follows | with_reducible apply Follows.ite | split | extract_lets | with_reducible apply Follows.frame

theorem execDumpComplete_follows {s : State} : ∃ t, execDumpComplete s = .next t ∧ State.Follows s t := by
  unfold execDumpComplete
  refine ⟨_, rfl, ?_⟩
  have h := State.Follows.refl s
  repeat' first | with_reducible assumption | intro _ | with_reducible apply State.dumpCheck_follows | with_reducible apply State.endDump_follows | with_reducible apply foldl_follows | with_reducible apply Follows.ite | split | extract_lets | with_reducible apply Follows.frame

theorem execGetPowerStatus_follows {s : State} {a1 a2} : ∃ t, execGetPowerStatus a1 a2 s = .next t ∧ State.Follows s t := by
  unfold execGetPowerStatus
  refine ⟨_, rfl, ?_⟩
  have h := State.Follows.refl s
  repeat' first | with_reducible assumption | intro _ | with_reducible apply State.packet_follows | with_reducible exact PktRes.follows_waits | with_reducible apply PktRes.follows_done | with_reducible apply PktRes.follows_started | with_reducible apply PktRes.follows_startDone | with_reducible apply PktRes.follows_quiet | with_reducible apply foldl_follows | with_reducible apply Follows.ite | with_reducible apply PktRes.follows_ite | split | extract_lets | with_reducible apply Follows.frame

theorem execRefclkLoss_follows {s : State} {a1 a2} : ∃ t, execRefclkLoss a1 a2 s = .next t ∧ State.Follows s t := by
  unfold execRefclkLoss
  refine ⟨_, rfl, ?_⟩
  have h := State.Follows.refl s
  repeat' first | with_reducible assumption | intro _ | with_reducible apply State.eraseSource_follows | with_reducible apply State.clockDown_follows | with_reducible apply foldl_follows | with_reducible apply Follows.ite | split | extract_lets | with_reducible apply Follows.frame

theorem execPfailAssert_follows {s : State} : ∃ t, execPfailAssert s = .next t ∧ State.Follows s t := by
  unfold execPfailAssert
  refine ⟨_, rfl, ?_⟩
  have h := State.Follows.refl s
  repeat' first | with_reducible assumption | intro _ | with_reducible apply State.bump_follows | with_reducible apply State.endSession_follows | with_reducible apply State.startDump_follows | with_reducible apply State.dumpCheck_follows | with_reducible apply State.saveHealth_follows | with_reducible apply State.flushStart_follows | with_reducible apply State.thaw_follows | with_reducible apply foldl_follows | with_reducible apply Follows.ite | split | extract_lets | with_reducible apply Follows.frame

end Sys2Proof.Machine
end

