-- ==== Sys2Proof/Laws/State.lean ====
section
/-! SUPPORT. What each plain update of the state does to each of its fields. -/
namespace Sys2Proof.Machine

/-! ### State.emit -/

@[simp] theorem State.emit_regs (s : State) (o : Out) : (s.emit o).regs = s.regs := rfl
@[simp] theorem State.emit_latch (s : State) (o : Out) : (s.emit o).latch = s.latch := rfl
@[simp] theorem State.emit_lowPend (s : State) (o : Out) : (s.emit o).lowPend = s.lowPend := rfl
@[simp] theorem State.emit_role (s : State) (o : Out) : (s.emit o).role = s.role := rfl
@[simp] theorem State.emit_tide (s : State) (o : Out) : (s.emit o).tide = s.tide := rfl
@[simp] theorem State.emit_hq (s : State) (o : Out) : (s.emit o).hq = s.hq := rfl
@[simp] theorem State.emit_xpt (s : State) (o : Out) : (s.emit o).xpt = s.xpt := rfl
@[simp] theorem State.emit_brn (s : State) (o : Out) : (s.emit o).brn = s.brn := rfl
@[simp] theorem State.emit_red (s : State) (o : Out) : (s.emit o).red = s.red := rfl
@[simp] theorem State.emit_keys (s : State) (o : Out) : (s.emit o).keys = s.keys := rfl
@[simp] theorem State.emit_med (s : State) (o : Out) : (s.emit o).med = s.med := rfl
@[simp] theorem State.emit_ftl (s : State) (o : Out) : (s.emit o).ftl = s.ftl := rfl
@[simp] theorem State.emit_lnk (s : State) (o : Out) : (s.emit o).lnk = s.lnk := rfl
@[simp] theorem State.emit_snap (s : State) (o : Out) : (s.emit o).snap = s.snap := rfl
@[simp] theorem State.emit_pair (s : State) (o : Out) : (s.emit o).pair = s.pair := rfl
@[simp] theorem State.emit_mem (s : State) (o : Out) : (s.emit o).mem = s.mem := rfl
@[simp] theorem State.emit_llc (s : State) (o : Out) : (s.emit o).llc = s.llc := rfl
@[simp] theorem State.emit_dma (s : State) (o : Out) : (s.emit o).dma = s.dma := rfl
@[simp] theorem State.emit_sfl (s : State) (o : Out) : (s.emit o).sfl = s.sfl := rfl
@[simp] theorem State.emit_evr (s : State) (o : Out) : (s.emit o).evr = s.evr := rfl
@[simp] theorem State.emit_ctl (s : State) (o : Out) : (s.emit o).ctl = s.ctl := rfl
@[simp] theorem State.emit_pool (s : State) (o : Out) : (s.emit o).pool = s.pool := rfl
@[simp] theorem State.emit_boot (s : State) (o : Out) : (s.emit o).boot = s.boot := rfl
@[simp] theorem State.emit_pwr (s : State) (o : Out) : (s.emit o).pwr = s.pwr := rfl
@[simp] theorem State.emit_out (s : State) (o : Out) : (s.emit o).out = s.out ++ [o] := rfl
@[simp] theorem State.emit_free (s : State) (o : Out) : (s.emit o).free = s.free := rfl
@[simp] theorem State.emit_pending (s : State) (o : Out) : (s.emit o).pending = s.pending := rfl

/-! ### State.emits -/

@[simp] theorem State.emits_regs (s : State) (os : List Out) : (s.emits os).regs = s.regs := rfl
@[simp] theorem State.emits_latch (s : State) (os : List Out) : (s.emits os).latch = s.latch := rfl
@[simp] theorem State.emits_lowPend (s : State) (os : List Out) : (s.emits os).lowPend = s.lowPend := rfl
@[simp] theorem State.emits_role (s : State) (os : List Out) : (s.emits os).role = s.role := rfl
@[simp] theorem State.emits_tide (s : State) (os : List Out) : (s.emits os).tide = s.tide := rfl
@[simp] theorem State.emits_hq (s : State) (os : List Out) : (s.emits os).hq = s.hq := rfl
@[simp] theorem State.emits_xpt (s : State) (os : List Out) : (s.emits os).xpt = s.xpt := rfl
@[simp] theorem State.emits_brn (s : State) (os : List Out) : (s.emits os).brn = s.brn := rfl
@[simp] theorem State.emits_red (s : State) (os : List Out) : (s.emits os).red = s.red := rfl
@[simp] theorem State.emits_keys (s : State) (os : List Out) : (s.emits os).keys = s.keys := rfl
@[simp] theorem State.emits_med (s : State) (os : List Out) : (s.emits os).med = s.med := rfl
@[simp] theorem State.emits_ftl (s : State) (os : List Out) : (s.emits os).ftl = s.ftl := rfl
@[simp] theorem State.emits_lnk (s : State) (os : List Out) : (s.emits os).lnk = s.lnk := rfl
@[simp] theorem State.emits_snap (s : State) (os : List Out) : (s.emits os).snap = s.snap := rfl
@[simp] theorem State.emits_pair (s : State) (os : List Out) : (s.emits os).pair = s.pair := rfl
@[simp] theorem State.emits_mem (s : State) (os : List Out) : (s.emits os).mem = s.mem := rfl
@[simp] theorem State.emits_llc (s : State) (os : List Out) : (s.emits os).llc = s.llc := rfl
@[simp] theorem State.emits_dma (s : State) (os : List Out) : (s.emits os).dma = s.dma := rfl
@[simp] theorem State.emits_sfl (s : State) (os : List Out) : (s.emits os).sfl = s.sfl := rfl
@[simp] theorem State.emits_evr (s : State) (os : List Out) : (s.emits os).evr = s.evr := rfl
@[simp] theorem State.emits_ctl (s : State) (os : List Out) : (s.emits os).ctl = s.ctl := rfl
@[simp] theorem State.emits_pool (s : State) (os : List Out) : (s.emits os).pool = s.pool := rfl
@[simp] theorem State.emits_boot (s : State) (os : List Out) : (s.emits os).boot = s.boot := rfl
@[simp] theorem State.emits_pwr (s : State) (os : List Out) : (s.emits os).pwr = s.pwr := rfl
@[simp] theorem State.emits_out (s : State) (os : List Out) : (s.emits os).out = s.out ++ os := rfl
@[simp] theorem State.emits_free (s : State) (os : List Out) : (s.emits os).free = s.free := rfl
@[simp] theorem State.emits_pending (s : State) (os : List Out) : (s.emits os).pending = s.pending := rfl

/-! ### State.wr -/

@[simp] theorem State.wr_regs (s : State) (r : Reg) (v : DWord) : (s.wr r v).regs = s.regs.put r (if r.width = 64 then v else v &&& 0xFFFFFFFF) := rfl
@[simp] theorem State.wr_latch (s : State) (r : Reg) (v : DWord) : (s.wr r v).latch = s.latch := rfl
@[simp] theorem State.wr_lowPend (s : State) (r : Reg) (v : DWord) : (s.wr r v).lowPend = s.lowPend := rfl
@[simp] theorem State.wr_role (s : State) (r : Reg) (v : DWord) : (s.wr r v).role = s.role := rfl
@[simp] theorem State.wr_tide (s : State) (r : Reg) (v : DWord) : (s.wr r v).tide = s.tide := rfl
@[simp] theorem State.wr_hq (s : State) (r : Reg) (v : DWord) : (s.wr r v).hq = s.hq := rfl
@[simp] theorem State.wr_xpt (s : State) (r : Reg) (v : DWord) : (s.wr r v).xpt = s.xpt := rfl
@[simp] theorem State.wr_brn (s : State) (r : Reg) (v : DWord) : (s.wr r v).brn = s.brn := rfl
@[simp] theorem State.wr_red (s : State) (r : Reg) (v : DWord) : (s.wr r v).red = s.red := rfl
@[simp] theorem State.wr_keys (s : State) (r : Reg) (v : DWord) : (s.wr r v).keys = s.keys := rfl
@[simp] theorem State.wr_med (s : State) (r : Reg) (v : DWord) : (s.wr r v).med = s.med := rfl
@[simp] theorem State.wr_ftl (s : State) (r : Reg) (v : DWord) : (s.wr r v).ftl = s.ftl := rfl
@[simp] theorem State.wr_lnk (s : State) (r : Reg) (v : DWord) : (s.wr r v).lnk = s.lnk := rfl
@[simp] theorem State.wr_snap (s : State) (r : Reg) (v : DWord) : (s.wr r v).snap = s.snap := rfl
@[simp] theorem State.wr_pair (s : State) (r : Reg) (v : DWord) : (s.wr r v).pair = s.pair := rfl
@[simp] theorem State.wr_mem (s : State) (r : Reg) (v : DWord) : (s.wr r v).mem = s.mem := rfl
@[simp] theorem State.wr_llc (s : State) (r : Reg) (v : DWord) : (s.wr r v).llc = s.llc := rfl
@[simp] theorem State.wr_dma (s : State) (r : Reg) (v : DWord) : (s.wr r v).dma = s.dma := rfl
@[simp] theorem State.wr_sfl (s : State) (r : Reg) (v : DWord) : (s.wr r v).sfl = s.sfl := rfl
@[simp] theorem State.wr_evr (s : State) (r : Reg) (v : DWord) : (s.wr r v).evr = s.evr := rfl
@[simp] theorem State.wr_ctl (s : State) (r : Reg) (v : DWord) : (s.wr r v).ctl = s.ctl := rfl
@[simp] theorem State.wr_pool (s : State) (r : Reg) (v : DWord) : (s.wr r v).pool = s.pool := rfl
@[simp] theorem State.wr_boot (s : State) (r : Reg) (v : DWord) : (s.wr r v).boot = s.boot := rfl
@[simp] theorem State.wr_pwr (s : State) (r : Reg) (v : DWord) : (s.wr r v).pwr = s.pwr := rfl
@[simp] theorem State.wr_out (s : State) (r : Reg) (v : DWord) : (s.wr r v).out = s.out := rfl
@[simp] theorem State.wr_free (s : State) (r : Reg) (v : DWord) : (s.wr r v).free = s.free := rfl
@[simp] theorem State.wr_pending (s : State) (r : Reg) (v : DWord) : (s.wr r v).pending = s.pending := rfl

/-! ### State.bumpBy -/

@[simp] theorem State.bumpBy_latch (s : State) (r : Reg) (n : Nat) : (s.bumpBy r n).latch = s.latch := rfl
@[simp] theorem State.bumpBy_lowPend (s : State) (r : Reg) (n : Nat) : (s.bumpBy r n).lowPend = s.lowPend := rfl
@[simp] theorem State.bumpBy_role (s : State) (r : Reg) (n : Nat) : (s.bumpBy r n).role = s.role := rfl
@[simp] theorem State.bumpBy_tide (s : State) (r : Reg) (n : Nat) : (s.bumpBy r n).tide = s.tide := rfl
@[simp] theorem State.bumpBy_hq (s : State) (r : Reg) (n : Nat) : (s.bumpBy r n).hq = s.hq := rfl
@[simp] theorem State.bumpBy_xpt (s : State) (r : Reg) (n : Nat) : (s.bumpBy r n).xpt = s.xpt := rfl
@[simp] theorem State.bumpBy_brn (s : State) (r : Reg) (n : Nat) : (s.bumpBy r n).brn = s.brn := rfl
@[simp] theorem State.bumpBy_red (s : State) (r : Reg) (n : Nat) : (s.bumpBy r n).red = s.red := rfl
@[simp] theorem State.bumpBy_keys (s : State) (r : Reg) (n : Nat) : (s.bumpBy r n).keys = s.keys := rfl
@[simp] theorem State.bumpBy_med (s : State) (r : Reg) (n : Nat) : (s.bumpBy r n).med = s.med := rfl
@[simp] theorem State.bumpBy_ftl (s : State) (r : Reg) (n : Nat) : (s.bumpBy r n).ftl = s.ftl := rfl
@[simp] theorem State.bumpBy_lnk (s : State) (r : Reg) (n : Nat) : (s.bumpBy r n).lnk = s.lnk := rfl
@[simp] theorem State.bumpBy_snap (s : State) (r : Reg) (n : Nat) : (s.bumpBy r n).snap = s.snap := rfl
@[simp] theorem State.bumpBy_pair (s : State) (r : Reg) (n : Nat) : (s.bumpBy r n).pair = s.pair := rfl
@[simp] theorem State.bumpBy_mem (s : State) (r : Reg) (n : Nat) : (s.bumpBy r n).mem = s.mem := rfl
@[simp] theorem State.bumpBy_llc (s : State) (r : Reg) (n : Nat) : (s.bumpBy r n).llc = s.llc := rfl
@[simp] theorem State.bumpBy_dma (s : State) (r : Reg) (n : Nat) : (s.bumpBy r n).dma = s.dma := rfl
@[simp] theorem State.bumpBy_sfl (s : State) (r : Reg) (n : Nat) : (s.bumpBy r n).sfl = s.sfl := rfl
@[simp] theorem State.bumpBy_evr (s : State) (r : Reg) (n : Nat) : (s.bumpBy r n).evr = s.evr := rfl
@[simp] theorem State.bumpBy_ctl (s : State) (r : Reg) (n : Nat) : (s.bumpBy r n).ctl = s.ctl := rfl
@[simp] theorem State.bumpBy_pool (s : State) (r : Reg) (n : Nat) : (s.bumpBy r n).pool = s.pool := rfl
@[simp] theorem State.bumpBy_boot (s : State) (r : Reg) (n : Nat) : (s.bumpBy r n).boot = s.boot := rfl
@[simp] theorem State.bumpBy_pwr (s : State) (r : Reg) (n : Nat) : (s.bumpBy r n).pwr = s.pwr := rfl
@[simp] theorem State.bumpBy_out (s : State) (r : Reg) (n : Nat) : (s.bumpBy r n).out = s.out := rfl
@[simp] theorem State.bumpBy_free (s : State) (r : Reg) (n : Nat) : (s.bumpBy r n).free = s.free := rfl
@[simp] theorem State.bumpBy_pending (s : State) (r : Reg) (n : Nat) : (s.bumpBy r n).pending = s.pending := rfl

/-! ### State.bump -/

@[simp] theorem State.bump_latch (s : State) (r : Reg) : (s.bump r).latch = s.latch := rfl
@[simp] theorem State.bump_lowPend (s : State) (r : Reg) : (s.bump r).lowPend = s.lowPend := rfl
@[simp] theorem State.bump_role (s : State) (r : Reg) : (s.bump r).role = s.role := rfl
@[simp] theorem State.bump_tide (s : State) (r : Reg) : (s.bump r).tide = s.tide := rfl
@[simp] theorem State.bump_hq (s : State) (r : Reg) : (s.bump r).hq = s.hq := rfl
@[simp] theorem State.bump_xpt (s : State) (r : Reg) : (s.bump r).xpt = s.xpt := rfl
@[simp] theorem State.bump_brn (s : State) (r : Reg) : (s.bump r).brn = s.brn := rfl
@[simp] theorem State.bump_red (s : State) (r : Reg) : (s.bump r).red = s.red := rfl
@[simp] theorem State.bump_keys (s : State) (r : Reg) : (s.bump r).keys = s.keys := rfl
@[simp] theorem State.bump_med (s : State) (r : Reg) : (s.bump r).med = s.med := rfl
@[simp] theorem State.bump_ftl (s : State) (r : Reg) : (s.bump r).ftl = s.ftl := rfl
@[simp] theorem State.bump_lnk (s : State) (r : Reg) : (s.bump r).lnk = s.lnk := rfl
@[simp] theorem State.bump_snap (s : State) (r : Reg) : (s.bump r).snap = s.snap := rfl
@[simp] theorem State.bump_pair (s : State) (r : Reg) : (s.bump r).pair = s.pair := rfl
@[simp] theorem State.bump_mem (s : State) (r : Reg) : (s.bump r).mem = s.mem := rfl
@[simp] theorem State.bump_llc (s : State) (r : Reg) : (s.bump r).llc = s.llc := rfl
@[simp] theorem State.bump_dma (s : State) (r : Reg) : (s.bump r).dma = s.dma := rfl
@[simp] theorem State.bump_sfl (s : State) (r : Reg) : (s.bump r).sfl = s.sfl := rfl
@[simp] theorem State.bump_evr (s : State) (r : Reg) : (s.bump r).evr = s.evr := rfl
@[simp] theorem State.bump_ctl (s : State) (r : Reg) : (s.bump r).ctl = s.ctl := rfl
@[simp] theorem State.bump_pool (s : State) (r : Reg) : (s.bump r).pool = s.pool := rfl
@[simp] theorem State.bump_boot (s : State) (r : Reg) : (s.bump r).boot = s.boot := rfl
@[simp] theorem State.bump_pwr (s : State) (r : Reg) : (s.bump r).pwr = s.pwr := rfl
@[simp] theorem State.bump_out (s : State) (r : Reg) : (s.bump r).out = s.out := rfl
@[simp] theorem State.bump_free (s : State) (r : Reg) : (s.bump r).free = s.free := rfl
@[simp] theorem State.bump_pending (s : State) (r : Reg) : (s.bump r).pending = s.pending := rfl

/-! ### State.setFld -/

@[simp] theorem State.setFld_latch (s : State) (r : Reg) (hi lo x : Nat) : (s.setFld r hi lo x).latch = s.latch := rfl
@[simp] theorem State.setFld_lowPend (s : State) (r : Reg) (hi lo x : Nat) : (s.setFld r hi lo x).lowPend = s.lowPend := rfl
@[simp] theorem State.setFld_role (s : State) (r : Reg) (hi lo x : Nat) : (s.setFld r hi lo x).role = s.role := rfl
@[simp] theorem State.setFld_tide (s : State) (r : Reg) (hi lo x : Nat) : (s.setFld r hi lo x).tide = s.tide := rfl
@[simp] theorem State.setFld_hq (s : State) (r : Reg) (hi lo x : Nat) : (s.setFld r hi lo x).hq = s.hq := rfl
@[simp] theorem State.setFld_xpt (s : State) (r : Reg) (hi lo x : Nat) : (s.setFld r hi lo x).xpt = s.xpt := rfl
@[simp] theorem State.setFld_brn (s : State) (r : Reg) (hi lo x : Nat) : (s.setFld r hi lo x).brn = s.brn := rfl
@[simp] theorem State.setFld_red (s : State) (r : Reg) (hi lo x : Nat) : (s.setFld r hi lo x).red = s.red := rfl
@[simp] theorem State.setFld_keys (s : State) (r : Reg) (hi lo x : Nat) : (s.setFld r hi lo x).keys = s.keys := rfl
@[simp] theorem State.setFld_med (s : State) (r : Reg) (hi lo x : Nat) : (s.setFld r hi lo x).med = s.med := rfl
@[simp] theorem State.setFld_ftl (s : State) (r : Reg) (hi lo x : Nat) : (s.setFld r hi lo x).ftl = s.ftl := rfl
@[simp] theorem State.setFld_lnk (s : State) (r : Reg) (hi lo x : Nat) : (s.setFld r hi lo x).lnk = s.lnk := rfl
@[simp] theorem State.setFld_snap (s : State) (r : Reg) (hi lo x : Nat) : (s.setFld r hi lo x).snap = s.snap := rfl
@[simp] theorem State.setFld_pair (s : State) (r : Reg) (hi lo x : Nat) : (s.setFld r hi lo x).pair = s.pair := rfl
@[simp] theorem State.setFld_mem (s : State) (r : Reg) (hi lo x : Nat) : (s.setFld r hi lo x).mem = s.mem := rfl
@[simp] theorem State.setFld_llc (s : State) (r : Reg) (hi lo x : Nat) : (s.setFld r hi lo x).llc = s.llc := rfl
@[simp] theorem State.setFld_dma (s : State) (r : Reg) (hi lo x : Nat) : (s.setFld r hi lo x).dma = s.dma := rfl
@[simp] theorem State.setFld_sfl (s : State) (r : Reg) (hi lo x : Nat) : (s.setFld r hi lo x).sfl = s.sfl := rfl
@[simp] theorem State.setFld_evr (s : State) (r : Reg) (hi lo x : Nat) : (s.setFld r hi lo x).evr = s.evr := rfl
@[simp] theorem State.setFld_ctl (s : State) (r : Reg) (hi lo x : Nat) : (s.setFld r hi lo x).ctl = s.ctl := rfl
@[simp] theorem State.setFld_pool (s : State) (r : Reg) (hi lo x : Nat) : (s.setFld r hi lo x).pool = s.pool := rfl
@[simp] theorem State.setFld_boot (s : State) (r : Reg) (hi lo x : Nat) : (s.setFld r hi lo x).boot = s.boot := rfl
@[simp] theorem State.setFld_pwr (s : State) (r : Reg) (hi lo x : Nat) : (s.setFld r hi lo x).pwr = s.pwr := rfl
@[simp] theorem State.setFld_out (s : State) (r : Reg) (hi lo x : Nat) : (s.setFld r hi lo x).out = s.out := rfl
@[simp] theorem State.setFld_free (s : State) (r : Reg) (hi lo x : Nat) : (s.setFld r hi lo x).free = s.free := rfl
@[simp] theorem State.setFld_pending (s : State) (r : Reg) (hi lo x : Nat) : (s.setFld r hi lo x).pending = s.pending := rfl

/-! ### State.setRing -/

@[simp] theorem State.setRing_regs (s : State) (n : Nat) (r : Ring) : (s.setRing n r).regs = s.regs := rfl
@[simp] theorem State.setRing_latch (s : State) (n : Nat) (r : Ring) : (s.setRing n r).latch = s.latch := rfl
@[simp] theorem State.setRing_lowPend (s : State) (n : Nat) (r : Ring) : (s.setRing n r).lowPend = s.lowPend := rfl
@[simp] theorem State.setRing_role (s : State) (n : Nat) (r : Ring) : (s.setRing n r).role = s.role := rfl
@[simp] theorem State.setRing_tide (s : State) (n : Nat) (r : Ring) : (s.setRing n r).tide = s.tide := rfl
@[simp] theorem State.setRing_hq (s : State) (n : Nat) (r : Ring) : (s.setRing n r).hq = s.hq := rfl
@[simp] theorem State.setRing_xpt (s : State) (n : Nat) (r : Ring) : (s.setRing n r).xpt = s.xpt := rfl
@[simp] theorem State.setRing_brn (s : State) (n : Nat) (r : Ring) : (s.setRing n r).brn = s.brn := rfl
@[simp] theorem State.setRing_red (s : State) (n : Nat) (r : Ring) : (s.setRing n r).red = s.red := rfl
@[simp] theorem State.setRing_keys (s : State) (n : Nat) (r : Ring) : (s.setRing n r).keys = s.keys := rfl
@[simp] theorem State.setRing_med (s : State) (n : Nat) (r : Ring) : (s.setRing n r).med = s.med := rfl
@[simp] theorem State.setRing_ftl (s : State) (n : Nat) (r : Ring) : (s.setRing n r).ftl = s.ftl := rfl
@[simp] theorem State.setRing_lnk (s : State) (n : Nat) (r : Ring) : (s.setRing n r).lnk = s.lnk := rfl
@[simp] theorem State.setRing_snap (s : State) (n : Nat) (r : Ring) : (s.setRing n r).snap = s.snap := rfl
@[simp] theorem State.setRing_pair (s : State) (n : Nat) (r : Ring) : (s.setRing n r).pair = s.pair := rfl
@[simp] theorem State.setRing_mem (s : State) (n : Nat) (r : Ring) : (s.setRing n r).mem = s.mem := rfl
@[simp] theorem State.setRing_llc (s : State) (n : Nat) (r : Ring) : (s.setRing n r).llc = s.llc := rfl
@[simp] theorem State.setRing_dma (s : State) (n : Nat) (r : Ring) : (s.setRing n r).dma = s.dma := rfl
@[simp] theorem State.setRing_sfl (s : State) (n : Nat) (r : Ring) : (s.setRing n r).sfl = s.sfl := rfl
@[simp] theorem State.setRing_evr (s : State) (n : Nat) (r : Ring) : (s.setRing n r).evr = s.evr := rfl
@[simp] theorem State.setRing_ctl (s : State) (n : Nat) (r : Ring) : (s.setRing n r).ctl = { s.ctl with rings := s.ctl.rings.set n r } := rfl
@[simp] theorem State.setRing_pool (s : State) (n : Nat) (r : Ring) : (s.setRing n r).pool = s.pool := rfl
@[simp] theorem State.setRing_boot (s : State) (n : Nat) (r : Ring) : (s.setRing n r).boot = s.boot := rfl
@[simp] theorem State.setRing_pwr (s : State) (n : Nat) (r : Ring) : (s.setRing n r).pwr = s.pwr := rfl
@[simp] theorem State.setRing_out (s : State) (n : Nat) (r : Ring) : (s.setRing n r).out = s.out := rfl
@[simp] theorem State.setRing_free (s : State) (n : Nat) (r : Ring) : (s.setRing n r).free = s.free := rfl
@[simp] theorem State.setRing_pending (s : State) (n : Nat) (r : Ring) : (s.setRing n r).pending = s.pending := rfl

/-! ### State.begun -/

@[simp] theorem State.begun_regs (s : State) (n slot : Nat) (e : Entry) : (s.begun n slot e).regs = s.regs := rfl
@[simp] theorem State.begun_latch (s : State) (n slot : Nat) (e : Entry) : (s.begun n slot e).latch = s.latch := rfl
@[simp] theorem State.begun_lowPend (s : State) (n slot : Nat) (e : Entry) : (s.begun n slot e).lowPend = s.lowPend := rfl
@[simp] theorem State.begun_role (s : State) (n slot : Nat) (e : Entry) : (s.begun n slot e).role = s.role := rfl
@[simp] theorem State.begun_tide (s : State) (n slot : Nat) (e : Entry) : (s.begun n slot e).tide = s.tide := rfl
@[simp] theorem State.begun_hq (s : State) (n slot : Nat) (e : Entry) : (s.begun n slot e).hq = s.hq := rfl
@[simp] theorem State.begun_xpt (s : State) (n slot : Nat) (e : Entry) : (s.begun n slot e).xpt = s.xpt := rfl
@[simp] theorem State.begun_brn (s : State) (n slot : Nat) (e : Entry) : (s.begun n slot e).brn = s.brn := rfl
@[simp] theorem State.begun_red (s : State) (n slot : Nat) (e : Entry) : (s.begun n slot e).red = s.red := rfl
@[simp] theorem State.begun_keys (s : State) (n slot : Nat) (e : Entry) : (s.begun n slot e).keys = s.keys := rfl
@[simp] theorem State.begun_med (s : State) (n slot : Nat) (e : Entry) : (s.begun n slot e).med = s.med := rfl
@[simp] theorem State.begun_ftl (s : State) (n slot : Nat) (e : Entry) : (s.begun n slot e).ftl = s.ftl := rfl
@[simp] theorem State.begun_lnk (s : State) (n slot : Nat) (e : Entry) : (s.begun n slot e).lnk = s.lnk := rfl
@[simp] theorem State.begun_snap (s : State) (n slot : Nat) (e : Entry) : (s.begun n slot e).snap = s.snap := rfl
@[simp] theorem State.begun_pair (s : State) (n slot : Nat) (e : Entry) : (s.begun n slot e).pair = s.pair := rfl
@[simp] theorem State.begun_mem (s : State) (n slot : Nat) (e : Entry) : (s.begun n slot e).mem = s.mem := rfl
@[simp] theorem State.begun_llc (s : State) (n slot : Nat) (e : Entry) : (s.begun n slot e).llc = s.llc := rfl
@[simp] theorem State.begun_dma (s : State) (n slot : Nat) (e : Entry) : (s.begun n slot e).dma = s.dma := rfl
@[simp] theorem State.begun_sfl (s : State) (n slot : Nat) (e : Entry) : (s.begun n slot e).sfl = s.sfl := rfl
@[simp] theorem State.begun_evr (s : State) (n slot : Nat) (e : Entry) : (s.begun n slot e).evr = s.evr := rfl
@[simp] theorem State.begun_pool (s : State) (n slot : Nat) (e : Entry) : (s.begun n slot e).pool = s.pool := rfl
@[simp] theorem State.begun_boot (s : State) (n slot : Nat) (e : Entry) : (s.begun n slot e).boot = s.boot := rfl
@[simp] theorem State.begun_pwr (s : State) (n slot : Nat) (e : Entry) : (s.begun n slot e).pwr = s.pwr := rfl
@[simp] theorem State.begun_out (s : State) (n slot : Nat) (e : Entry) : (s.begun n slot e).out = s.out := rfl
@[simp] theorem State.begun_free (s : State) (n slot : Nat) (e : Entry) : (s.begun n slot e).free = s.free := rfl
@[simp] theorem State.begun_pending (s : State) (n slot : Nat) (e : Entry) : (s.begun n slot e).pending = s.pending := rfl

/-! ### State.setChan -/

@[simp] theorem State.setChan_regs (s : State) (c : Nat) (ch : PtlChan) : (s.setChan c ch).regs = s.regs := rfl
@[simp] theorem State.setChan_latch (s : State) (c : Nat) (ch : PtlChan) : (s.setChan c ch).latch = s.latch := rfl
@[simp] theorem State.setChan_lowPend (s : State) (c : Nat) (ch : PtlChan) : (s.setChan c ch).lowPend = s.lowPend := rfl
@[simp] theorem State.setChan_role (s : State) (c : Nat) (ch : PtlChan) : (s.setChan c ch).role = s.role := rfl
@[simp] theorem State.setChan_tide (s : State) (c : Nat) (ch : PtlChan) : (s.setChan c ch).tide = s.tide := rfl
@[simp] theorem State.setChan_hq (s : State) (c : Nat) (ch : PtlChan) : (s.setChan c ch).hq = s.hq := rfl
@[simp] theorem State.setChan_xpt (s : State) (c : Nat) (ch : PtlChan) : (s.setChan c ch).xpt = s.xpt := rfl
@[simp] theorem State.setChan_brn (s : State) (c : Nat) (ch : PtlChan) : (s.setChan c ch).brn = s.brn := rfl
@[simp] theorem State.setChan_red (s : State) (c : Nat) (ch : PtlChan) : (s.setChan c ch).red = s.red := rfl
@[simp] theorem State.setChan_keys (s : State) (c : Nat) (ch : PtlChan) : (s.setChan c ch).keys = s.keys := rfl
@[simp] theorem State.setChan_med (s : State) (c : Nat) (ch : PtlChan) : (s.setChan c ch).med = s.med := rfl
@[simp] theorem State.setChan_ftl (s : State) (c : Nat) (ch : PtlChan) : (s.setChan c ch).ftl = s.ftl := rfl
@[simp] theorem State.setChan_lnk (s : State) (c : Nat) (ch : PtlChan) : (s.setChan c ch).lnk = s.lnk := rfl
@[simp] theorem State.setChan_snap (s : State) (c : Nat) (ch : PtlChan) : (s.setChan c ch).snap = s.snap := rfl
@[simp] theorem State.setChan_pair (s : State) (c : Nat) (ch : PtlChan) : (s.setChan c ch).pair = { s.pair with chans := s.pair.chans.set c ch } := rfl
@[simp] theorem State.setChan_mem (s : State) (c : Nat) (ch : PtlChan) : (s.setChan c ch).mem = s.mem := rfl
@[simp] theorem State.setChan_llc (s : State) (c : Nat) (ch : PtlChan) : (s.setChan c ch).llc = s.llc := rfl
@[simp] theorem State.setChan_dma (s : State) (c : Nat) (ch : PtlChan) : (s.setChan c ch).dma = s.dma := rfl
@[simp] theorem State.setChan_sfl (s : State) (c : Nat) (ch : PtlChan) : (s.setChan c ch).sfl = s.sfl := rfl
@[simp] theorem State.setChan_evr (s : State) (c : Nat) (ch : PtlChan) : (s.setChan c ch).evr = s.evr := rfl
@[simp] theorem State.setChan_ctl (s : State) (c : Nat) (ch : PtlChan) : (s.setChan c ch).ctl = s.ctl := rfl
@[simp] theorem State.setChan_pool (s : State) (c : Nat) (ch : PtlChan) : (s.setChan c ch).pool = s.pool := rfl
@[simp] theorem State.setChan_boot (s : State) (c : Nat) (ch : PtlChan) : (s.setChan c ch).boot = s.boot := rfl
@[simp] theorem State.setChan_pwr (s : State) (c : Nat) (ch : PtlChan) : (s.setChan c ch).pwr = s.pwr := rfl
@[simp] theorem State.setChan_out (s : State) (c : Nat) (ch : PtlChan) : (s.setChan c ch).out = s.out := rfl
@[simp] theorem State.setChan_free (s : State) (c : Nat) (ch : PtlChan) : (s.setChan c ch).free = s.free := rfl
@[simp] theorem State.setChan_pending (s : State) (c : Nat) (ch : PtlChan) : (s.setChan c ch).pending = s.pending := rfl

/-! ### State.putQp -/

@[simp] theorem State.putQp_regs (s : State) (q : Qp) : (s.putQp q).regs = s.regs := rfl
@[simp] theorem State.putQp_latch (s : State) (q : Qp) : (s.putQp q).latch = s.latch := rfl
@[simp] theorem State.putQp_lowPend (s : State) (q : Qp) : (s.putQp q).lowPend = s.lowPend := rfl
@[simp] theorem State.putQp_role (s : State) (q : Qp) : (s.putQp q).role = s.role := rfl
@[simp] theorem State.putQp_tide (s : State) (q : Qp) : (s.putQp q).tide = s.tide := rfl
@[simp] theorem State.putQp_hq (s : State) (q : Qp) : (s.putQp q).hq = s.hq := rfl
@[simp] theorem State.putQp_xpt (s : State) (q : Qp) : (s.putQp q).xpt = { s.xpt with qps := putKey Qp.idx q s.xpt.qps } := rfl
@[simp] theorem State.putQp_brn (s : State) (q : Qp) : (s.putQp q).brn = s.brn := rfl
@[simp] theorem State.putQp_red (s : State) (q : Qp) : (s.putQp q).red = s.red := rfl
@[simp] theorem State.putQp_keys (s : State) (q : Qp) : (s.putQp q).keys = s.keys := rfl
@[simp] theorem State.putQp_med (s : State) (q : Qp) : (s.putQp q).med = s.med := rfl
@[simp] theorem State.putQp_ftl (s : State) (q : Qp) : (s.putQp q).ftl = s.ftl := rfl
@[simp] theorem State.putQp_lnk (s : State) (q : Qp) : (s.putQp q).lnk = s.lnk := rfl
@[simp] theorem State.putQp_snap (s : State) (q : Qp) : (s.putQp q).snap = s.snap := rfl
@[simp] theorem State.putQp_pair (s : State) (q : Qp) : (s.putQp q).pair = s.pair := rfl
@[simp] theorem State.putQp_mem (s : State) (q : Qp) : (s.putQp q).mem = s.mem := rfl
@[simp] theorem State.putQp_llc (s : State) (q : Qp) : (s.putQp q).llc = s.llc := rfl
@[simp] theorem State.putQp_dma (s : State) (q : Qp) : (s.putQp q).dma = s.dma := rfl
@[simp] theorem State.putQp_sfl (s : State) (q : Qp) : (s.putQp q).sfl = s.sfl := rfl
@[simp] theorem State.putQp_evr (s : State) (q : Qp) : (s.putQp q).evr = s.evr := rfl
@[simp] theorem State.putQp_ctl (s : State) (q : Qp) : (s.putQp q).ctl = s.ctl := rfl
@[simp] theorem State.putQp_pool (s : State) (q : Qp) : (s.putQp q).pool = s.pool := rfl
@[simp] theorem State.putQp_boot (s : State) (q : Qp) : (s.putQp q).boot = s.boot := rfl
@[simp] theorem State.putQp_pwr (s : State) (q : Qp) : (s.putQp q).pwr = s.pwr := rfl
@[simp] theorem State.putQp_out (s : State) (q : Qp) : (s.putQp q).out = s.out := rfl
@[simp] theorem State.putQp_free (s : State) (q : Qp) : (s.putQp q).free = s.free := rfl
@[simp] theorem State.putQp_pending (s : State) (q : Qp) : (s.putQp q).pending = s.pending := rfl

/-! ### State.putIo -/

@[simp] theorem State.putIo_regs (s : State) (c : Cmd) : (s.putIo c).regs = s.regs := rfl
@[simp] theorem State.putIo_latch (s : State) (c : Cmd) : (s.putIo c).latch = s.latch := rfl
@[simp] theorem State.putIo_lowPend (s : State) (c : Cmd) : (s.putIo c).lowPend = s.lowPend := rfl
@[simp] theorem State.putIo_role (s : State) (c : Cmd) : (s.putIo c).role = s.role := rfl
@[simp] theorem State.putIo_tide (s : State) (c : Cmd) : (s.putIo c).tide = s.tide := rfl
@[simp] theorem State.putIo_hq (s : State) (c : Cmd) : (s.putIo c).hq = { s.hq with cmds := putKey Cmd.id c s.hq.cmds } := rfl
@[simp] theorem State.putIo_xpt (s : State) (c : Cmd) : (s.putIo c).xpt = s.xpt := rfl
@[simp] theorem State.putIo_brn (s : State) (c : Cmd) : (s.putIo c).brn = s.brn := rfl
@[simp] theorem State.putIo_red (s : State) (c : Cmd) : (s.putIo c).red = s.red := rfl
@[simp] theorem State.putIo_keys (s : State) (c : Cmd) : (s.putIo c).keys = s.keys := rfl
@[simp] theorem State.putIo_med (s : State) (c : Cmd) : (s.putIo c).med = s.med := rfl
@[simp] theorem State.putIo_ftl (s : State) (c : Cmd) : (s.putIo c).ftl = s.ftl := rfl
@[simp] theorem State.putIo_lnk (s : State) (c : Cmd) : (s.putIo c).lnk = s.lnk := rfl
@[simp] theorem State.putIo_snap (s : State) (c : Cmd) : (s.putIo c).snap = s.snap := rfl
@[simp] theorem State.putIo_pair (s : State) (c : Cmd) : (s.putIo c).pair = s.pair := rfl
@[simp] theorem State.putIo_mem (s : State) (c : Cmd) : (s.putIo c).mem = s.mem := rfl
@[simp] theorem State.putIo_llc (s : State) (c : Cmd) : (s.putIo c).llc = s.llc := rfl
@[simp] theorem State.putIo_dma (s : State) (c : Cmd) : (s.putIo c).dma = s.dma := rfl
@[simp] theorem State.putIo_sfl (s : State) (c : Cmd) : (s.putIo c).sfl = s.sfl := rfl
@[simp] theorem State.putIo_evr (s : State) (c : Cmd) : (s.putIo c).evr = s.evr := rfl
@[simp] theorem State.putIo_ctl (s : State) (c : Cmd) : (s.putIo c).ctl = s.ctl := rfl
@[simp] theorem State.putIo_pool (s : State) (c : Cmd) : (s.putIo c).pool = s.pool := rfl
@[simp] theorem State.putIo_boot (s : State) (c : Cmd) : (s.putIo c).boot = s.boot := rfl
@[simp] theorem State.putIo_pwr (s : State) (c : Cmd) : (s.putIo c).pwr = s.pwr := rfl
@[simp] theorem State.putIo_out (s : State) (c : Cmd) : (s.putIo c).out = s.out := rfl
@[simp] theorem State.putIo_free (s : State) (c : Cmd) : (s.putIo c).free = s.free := rfl
@[simp] theorem State.putIo_pending (s : State) (c : Cmd) : (s.putIo c).pending = s.pending := rfl

/-! ### State.putVol -/

@[simp] theorem State.putVol_regs (s : State) (v : Volume) : (s.putVol v).regs = s.regs := rfl
@[simp] theorem State.putVol_latch (s : State) (v : Volume) : (s.putVol v).latch = s.latch := rfl
@[simp] theorem State.putVol_lowPend (s : State) (v : Volume) : (s.putVol v).lowPend = s.lowPend := rfl
@[simp] theorem State.putVol_role (s : State) (v : Volume) : (s.putVol v).role = s.role := rfl
@[simp] theorem State.putVol_tide (s : State) (v : Volume) : (s.putVol v).tide = s.tide := rfl
@[simp] theorem State.putVol_hq (s : State) (v : Volume) : (s.putVol v).hq = s.hq := rfl
@[simp] theorem State.putVol_xpt (s : State) (v : Volume) : (s.putVol v).xpt = s.xpt := rfl
@[simp] theorem State.putVol_brn (s : State) (v : Volume) : (s.putVol v).brn = s.brn := rfl
@[simp] theorem State.putVol_red (s : State) (v : Volume) : (s.putVol v).red = s.red := rfl
@[simp] theorem State.putVol_keys (s : State) (v : Volume) : (s.putVol v).keys = s.keys := rfl
@[simp] theorem State.putVol_med (s : State) (v : Volume) : (s.putVol v).med = s.med := rfl
@[simp] theorem State.putVol_ftl (s : State) (v : Volume) : (s.putVol v).ftl = s.ftl := rfl
@[simp] theorem State.putVol_lnk (s : State) (v : Volume) : (s.putVol v).lnk = s.lnk := rfl
@[simp] theorem State.putVol_snap (s : State) (v : Volume) : (s.putVol v).snap = s.snap := rfl
@[simp] theorem State.putVol_pair (s : State) (v : Volume) : (s.putVol v).pair = s.pair := rfl
@[simp] theorem State.putVol_mem (s : State) (v : Volume) : (s.putVol v).mem = s.mem := rfl
@[simp] theorem State.putVol_llc (s : State) (v : Volume) : (s.putVol v).llc = s.llc := rfl
@[simp] theorem State.putVol_dma (s : State) (v : Volume) : (s.putVol v).dma = s.dma := rfl
@[simp] theorem State.putVol_sfl (s : State) (v : Volume) : (s.putVol v).sfl = s.sfl := rfl
@[simp] theorem State.putVol_evr (s : State) (v : Volume) : (s.putVol v).evr = s.evr := rfl
@[simp] theorem State.putVol_ctl (s : State) (v : Volume) : (s.putVol v).ctl = s.ctl := rfl
@[simp] theorem State.putVol_pool (s : State) (v : Volume) : (s.putVol v).pool = { s.pool with volumes := putKey Volume.nsid v s.pool.volumes } := rfl
@[simp] theorem State.putVol_boot (s : State) (v : Volume) : (s.putVol v).boot = s.boot := rfl
@[simp] theorem State.putVol_pwr (s : State) (v : Volume) : (s.putVol v).pwr = s.pwr := rfl
@[simp] theorem State.putVol_out (s : State) (v : Volume) : (s.putVol v).out = s.out := rfl
@[simp] theorem State.putVol_free (s : State) (v : Volume) : (s.putVol v).free = s.free := rfl
@[simp] theorem State.putVol_pending (s : State) (v : Volume) : (s.putVol v).pending = s.pending := rfl

/-! ### State.putGroup -/

@[simp] theorem State.putGroup_regs (s : State) (g : AnaGroup) : (s.putGroup g).regs = s.regs := rfl
@[simp] theorem State.putGroup_latch (s : State) (g : AnaGroup) : (s.putGroup g).latch = s.latch := rfl
@[simp] theorem State.putGroup_lowPend (s : State) (g : AnaGroup) : (s.putGroup g).lowPend = s.lowPend := rfl
@[simp] theorem State.putGroup_role (s : State) (g : AnaGroup) : (s.putGroup g).role = s.role := rfl
@[simp] theorem State.putGroup_tide (s : State) (g : AnaGroup) : (s.putGroup g).tide = s.tide := rfl
@[simp] theorem State.putGroup_hq (s : State) (g : AnaGroup) : (s.putGroup g).hq = s.hq := rfl
@[simp] theorem State.putGroup_xpt (s : State) (g : AnaGroup) : (s.putGroup g).xpt = s.xpt := rfl
@[simp] theorem State.putGroup_brn (s : State) (g : AnaGroup) : (s.putGroup g).brn = s.brn := rfl
@[simp] theorem State.putGroup_red (s : State) (g : AnaGroup) : (s.putGroup g).red = s.red := rfl
@[simp] theorem State.putGroup_keys (s : State) (g : AnaGroup) : (s.putGroup g).keys = s.keys := rfl
@[simp] theorem State.putGroup_med (s : State) (g : AnaGroup) : (s.putGroup g).med = s.med := rfl
@[simp] theorem State.putGroup_ftl (s : State) (g : AnaGroup) : (s.putGroup g).ftl = s.ftl := rfl
@[simp] theorem State.putGroup_lnk (s : State) (g : AnaGroup) : (s.putGroup g).lnk = s.lnk := rfl
@[simp] theorem State.putGroup_snap (s : State) (g : AnaGroup) : (s.putGroup g).snap = s.snap := rfl
@[simp] theorem State.putGroup_pair (s : State) (g : AnaGroup) : (s.putGroup g).pair = s.pair := rfl
@[simp] theorem State.putGroup_mem (s : State) (g : AnaGroup) : (s.putGroup g).mem = s.mem := rfl
@[simp] theorem State.putGroup_llc (s : State) (g : AnaGroup) : (s.putGroup g).llc = s.llc := rfl
@[simp] theorem State.putGroup_dma (s : State) (g : AnaGroup) : (s.putGroup g).dma = s.dma := rfl
@[simp] theorem State.putGroup_sfl (s : State) (g : AnaGroup) : (s.putGroup g).sfl = s.sfl := rfl
@[simp] theorem State.putGroup_evr (s : State) (g : AnaGroup) : (s.putGroup g).evr = s.evr := rfl
@[simp] theorem State.putGroup_ctl (s : State) (g : AnaGroup) : (s.putGroup g).ctl = s.ctl := rfl
@[simp] theorem State.putGroup_pool (s : State) (g : AnaGroup) : (s.putGroup g).pool = { s.pool with groups := putKey AnaGroup.id g s.pool.groups } := rfl
@[simp] theorem State.putGroup_boot (s : State) (g : AnaGroup) : (s.putGroup g).boot = s.boot := rfl
@[simp] theorem State.putGroup_pwr (s : State) (g : AnaGroup) : (s.putGroup g).pwr = s.pwr := rfl
@[simp] theorem State.putGroup_out (s : State) (g : AnaGroup) : (s.putGroup g).out = s.out := rfl
@[simp] theorem State.putGroup_free (s : State) (g : AnaGroup) : (s.putGroup g).free = s.free := rfl
@[simp] theorem State.putGroup_pending (s : State) (g : AnaGroup) : (s.putGroup g).pending = s.pending := rfl

/-! ### State.putUnit -/

@[simp] theorem State.putUnit_regs (s : State) (d : UnitD) : (s.putUnit d).regs = s.regs := rfl
@[simp] theorem State.putUnit_latch (s : State) (d : UnitD) : (s.putUnit d).latch = s.latch := rfl
@[simp] theorem State.putUnit_lowPend (s : State) (d : UnitD) : (s.putUnit d).lowPend = s.lowPend := rfl
@[simp] theorem State.putUnit_role (s : State) (d : UnitD) : (s.putUnit d).role = s.role := rfl
@[simp] theorem State.putUnit_tide (s : State) (d : UnitD) : (s.putUnit d).tide = s.tide := rfl
@[simp] theorem State.putUnit_hq (s : State) (d : UnitD) : (s.putUnit d).hq = s.hq := rfl
@[simp] theorem State.putUnit_xpt (s : State) (d : UnitD) : (s.putUnit d).xpt = s.xpt := rfl
@[simp] theorem State.putUnit_brn (s : State) (d : UnitD) : (s.putUnit d).brn = s.brn := rfl
@[simp] theorem State.putUnit_red (s : State) (d : UnitD) : (s.putUnit d).red = s.red := rfl
@[simp] theorem State.putUnit_keys (s : State) (d : UnitD) : (s.putUnit d).keys = s.keys := rfl
@[simp] theorem State.putUnit_med (s : State) (d : UnitD) : (s.putUnit d).med = { s.med with units := putKey UnitD.id d s.med.units } := rfl
@[simp] theorem State.putUnit_ftl (s : State) (d : UnitD) : (s.putUnit d).ftl = s.ftl := rfl
@[simp] theorem State.putUnit_lnk (s : State) (d : UnitD) : (s.putUnit d).lnk = s.lnk := rfl
@[simp] theorem State.putUnit_snap (s : State) (d : UnitD) : (s.putUnit d).snap = s.snap := rfl
@[simp] theorem State.putUnit_pair (s : State) (d : UnitD) : (s.putUnit d).pair = s.pair := rfl
@[simp] theorem State.putUnit_mem (s : State) (d : UnitD) : (s.putUnit d).mem = s.mem := rfl
@[simp] theorem State.putUnit_dma (s : State) (d : UnitD) : (s.putUnit d).dma = s.dma := rfl
@[simp] theorem State.putUnit_sfl (s : State) (d : UnitD) : (s.putUnit d).sfl = s.sfl := rfl
@[simp] theorem State.putUnit_evr (s : State) (d : UnitD) : (s.putUnit d).evr = s.evr := rfl
@[simp] theorem State.putUnit_ctl (s : State) (d : UnitD) : (s.putUnit d).ctl = s.ctl := rfl
@[simp] theorem State.putUnit_pool (s : State) (d : UnitD) : (s.putUnit d).pool = s.pool := rfl
@[simp] theorem State.putUnit_boot (s : State) (d : UnitD) : (s.putUnit d).boot = s.boot := rfl
@[simp] theorem State.putUnit_pwr (s : State) (d : UnitD) : (s.putUnit d).pwr = s.pwr := rfl
@[simp] theorem State.putUnit_out (s : State) (d : UnitD) : (s.putUnit d).out = s.out := rfl
@[simp] theorem State.putUnit_free (s : State) (d : UnitD) : (s.putUnit d).free = s.free := rfl
@[simp] theorem State.putUnit_pending (s : State) (d : UnitD) : (s.putUnit d).pending = s.pending := rfl

/-! ### State.putMod -/

@[simp] theorem State.putMod_regs (s : State) (m : Module) : (s.putMod m).regs = s.regs := rfl
@[simp] theorem State.putMod_latch (s : State) (m : Module) : (s.putMod m).latch = s.latch := rfl
@[simp] theorem State.putMod_lowPend (s : State) (m : Module) : (s.putMod m).lowPend = s.lowPend := rfl
@[simp] theorem State.putMod_role (s : State) (m : Module) : (s.putMod m).role = s.role := rfl
@[simp] theorem State.putMod_tide (s : State) (m : Module) : (s.putMod m).tide = s.tide := rfl
@[simp] theorem State.putMod_hq (s : State) (m : Module) : (s.putMod m).hq = s.hq := rfl
@[simp] theorem State.putMod_xpt (s : State) (m : Module) : (s.putMod m).xpt = s.xpt := rfl
@[simp] theorem State.putMod_brn (s : State) (m : Module) : (s.putMod m).brn = s.brn := rfl
@[simp] theorem State.putMod_red (s : State) (m : Module) : (s.putMod m).red = s.red := rfl
@[simp] theorem State.putMod_keys (s : State) (m : Module) : (s.putMod m).keys = s.keys := rfl
@[simp] theorem State.putMod_med (s : State) (m : Module) : (s.putMod m).med = s.med := rfl
@[simp] theorem State.putMod_ftl (s : State) (m : Module) : (s.putMod m).ftl = s.ftl := rfl
@[simp] theorem State.putMod_lnk (s : State) (m : Module) : (s.putMod m).lnk = { s.lnk with mods := putKey Module.port m s.lnk.mods } := rfl
@[simp] theorem State.putMod_snap (s : State) (m : Module) : (s.putMod m).snap = s.snap := rfl
@[simp] theorem State.putMod_pair (s : State) (m : Module) : (s.putMod m).pair = s.pair := rfl
@[simp] theorem State.putMod_mem (s : State) (m : Module) : (s.putMod m).mem = s.mem := rfl
@[simp] theorem State.putMod_llc (s : State) (m : Module) : (s.putMod m).llc = s.llc := rfl
@[simp] theorem State.putMod_dma (s : State) (m : Module) : (s.putMod m).dma = s.dma := rfl
@[simp] theorem State.putMod_sfl (s : State) (m : Module) : (s.putMod m).sfl = s.sfl := rfl
@[simp] theorem State.putMod_evr (s : State) (m : Module) : (s.putMod m).evr = s.evr := rfl
@[simp] theorem State.putMod_ctl (s : State) (m : Module) : (s.putMod m).ctl = s.ctl := rfl
@[simp] theorem State.putMod_pool (s : State) (m : Module) : (s.putMod m).pool = s.pool := rfl
@[simp] theorem State.putMod_boot (s : State) (m : Module) : (s.putMod m).boot = s.boot := rfl
@[simp] theorem State.putMod_pwr (s : State) (m : Module) : (s.putMod m).pwr = s.pwr := rfl
@[simp] theorem State.putMod_out (s : State) (m : Module) : (s.putMod m).out = s.out := rfl
@[simp] theorem State.putMod_free (s : State) (m : Module) : (s.putMod m).free = s.free := rfl
@[simp] theorem State.putMod_pending (s : State) (m : Module) : (s.putMod m).pending = s.pending := rfl

/-! ### State.putMove -/

@[simp] theorem State.putMove_regs (s : State) (m : Move) : (s.putMove m).regs = s.regs := rfl
@[simp] theorem State.putMove_latch (s : State) (m : Move) : (s.putMove m).latch = s.latch := rfl
@[simp] theorem State.putMove_lowPend (s : State) (m : Move) : (s.putMove m).lowPend = s.lowPend := rfl
@[simp] theorem State.putMove_role (s : State) (m : Move) : (s.putMove m).role = s.role := rfl
@[simp] theorem State.putMove_tide (s : State) (m : Move) : (s.putMove m).tide = s.tide := rfl
@[simp] theorem State.putMove_hq (s : State) (m : Move) : (s.putMove m).hq = s.hq := rfl
@[simp] theorem State.putMove_xpt (s : State) (m : Move) : (s.putMove m).xpt = s.xpt := rfl
@[simp] theorem State.putMove_brn (s : State) (m : Move) : (s.putMove m).brn = s.brn := rfl
@[simp] theorem State.putMove_red (s : State) (m : Move) : (s.putMove m).red = s.red := rfl
@[simp] theorem State.putMove_keys (s : State) (m : Move) : (s.putMove m).keys = s.keys := rfl
@[simp] theorem State.putMove_med (s : State) (m : Move) : (s.putMove m).med = s.med := rfl
@[simp] theorem State.putMove_ftl (s : State) (m : Move) : (s.putMove m).ftl = s.ftl := rfl
@[simp] theorem State.putMove_lnk (s : State) (m : Move) : (s.putMove m).lnk = s.lnk := rfl
@[simp] theorem State.putMove_snap (s : State) (m : Move) : (s.putMove m).snap = s.snap := rfl
@[simp] theorem State.putMove_pair (s : State) (m : Move) : (s.putMove m).pair = { s.pair with moves := putKey Move.grp m s.pair.moves } := rfl
@[simp] theorem State.putMove_mem (s : State) (m : Move) : (s.putMove m).mem = s.mem := rfl
@[simp] theorem State.putMove_llc (s : State) (m : Move) : (s.putMove m).llc = s.llc := rfl
@[simp] theorem State.putMove_dma (s : State) (m : Move) : (s.putMove m).dma = s.dma := rfl
@[simp] theorem State.putMove_sfl (s : State) (m : Move) : (s.putMove m).sfl = s.sfl := rfl
@[simp] theorem State.putMove_evr (s : State) (m : Move) : (s.putMove m).evr = s.evr := rfl
@[simp] theorem State.putMove_ctl (s : State) (m : Move) : (s.putMove m).ctl = s.ctl := rfl
@[simp] theorem State.putMove_pool (s : State) (m : Move) : (s.putMove m).pool = s.pool := rfl
@[simp] theorem State.putMove_boot (s : State) (m : Move) : (s.putMove m).boot = s.boot := rfl
@[simp] theorem State.putMove_pwr (s : State) (m : Move) : (s.putMove m).pwr = s.pwr := rfl
@[simp] theorem State.putMove_out (s : State) (m : Move) : (s.putMove m).out = s.out := rfl
@[simp] theorem State.putMove_free (s : State) (m : Move) : (s.putMove m).free = s.free := rfl
@[simp] theorem State.putMove_pending (s : State) (m : Move) : (s.putMove m).pending = s.pending := rfl

/-! ### State.putSession -/

@[simp] theorem State.putSession_regs (s : State) (x : Session) : (s.putSession x).regs = s.regs := rfl
@[simp] theorem State.putSession_latch (s : State) (x : Session) : (s.putSession x).latch = s.latch := rfl
@[simp] theorem State.putSession_lowPend (s : State) (x : Session) : (s.putSession x).lowPend = s.lowPend := rfl
@[simp] theorem State.putSession_role (s : State) (x : Session) : (s.putSession x).role = s.role := rfl
@[simp] theorem State.putSession_tide (s : State) (x : Session) : (s.putSession x).tide = s.tide := rfl
@[simp] theorem State.putSession_hq (s : State) (x : Session) : (s.putSession x).hq = s.hq := rfl
@[simp] theorem State.putSession_xpt (s : State) (x : Session) : (s.putSession x).xpt = s.xpt := rfl
@[simp] theorem State.putSession_brn (s : State) (x : Session) : (s.putSession x).brn = s.brn := rfl
@[simp] theorem State.putSession_red (s : State) (x : Session) : (s.putSession x).red = s.red := rfl
@[simp] theorem State.putSession_keys (s : State) (x : Session) : (s.putSession x).keys = s.keys := rfl
@[simp] theorem State.putSession_med (s : State) (x : Session) : (s.putSession x).med = s.med := rfl
@[simp] theorem State.putSession_ftl (s : State) (x : Session) : (s.putSession x).ftl = s.ftl := rfl
@[simp] theorem State.putSession_lnk (s : State) (x : Session) : (s.putSession x).lnk = s.lnk := rfl
@[simp] theorem State.putSession_snap (s : State) (x : Session) : (s.putSession x).snap = { s.snap with sessions := putKey Session.no x s.snap.sessions } := rfl
@[simp] theorem State.putSession_pair (s : State) (x : Session) : (s.putSession x).pair = s.pair := rfl
@[simp] theorem State.putSession_mem (s : State) (x : Session) : (s.putSession x).mem = s.mem := rfl
@[simp] theorem State.putSession_llc (s : State) (x : Session) : (s.putSession x).llc = s.llc := rfl
@[simp] theorem State.putSession_dma (s : State) (x : Session) : (s.putSession x).dma = s.dma := rfl
@[simp] theorem State.putSession_sfl (s : State) (x : Session) : (s.putSession x).sfl = s.sfl := rfl
@[simp] theorem State.putSession_evr (s : State) (x : Session) : (s.putSession x).evr = s.evr := rfl
@[simp] theorem State.putSession_ctl (s : State) (x : Session) : (s.putSession x).ctl = s.ctl := rfl
@[simp] theorem State.putSession_pool (s : State) (x : Session) : (s.putSession x).pool = s.pool := rfl
@[simp] theorem State.putSession_boot (s : State) (x : Session) : (s.putSession x).boot = s.boot := rfl
@[simp] theorem State.putSession_pwr (s : State) (x : Session) : (s.putSession x).pwr = s.pwr := rfl
@[simp] theorem State.putSession_out (s : State) (x : Session) : (s.putSession x).out = s.out := rfl
@[simp] theorem State.putSession_free (s : State) (x : Session) : (s.putSession x).free = s.free := rfl
@[simp] theorem State.putSession_pending (s : State) (x : Session) : (s.putSession x).pending = s.pending := rfl

/-! ### State.putJournal -/

@[simp] theorem State.putJournal_regs (s : State) (j : Journal) : (s.putJournal j).regs = s.regs := rfl
@[simp] theorem State.putJournal_latch (s : State) (j : Journal) : (s.putJournal j).latch = s.latch := rfl
@[simp] theorem State.putJournal_lowPend (s : State) (j : Journal) : (s.putJournal j).lowPend = s.lowPend := rfl
@[simp] theorem State.putJournal_role (s : State) (j : Journal) : (s.putJournal j).role = s.role := rfl
@[simp] theorem State.putJournal_tide (s : State) (j : Journal) : (s.putJournal j).tide = s.tide := rfl
@[simp] theorem State.putJournal_hq (s : State) (j : Journal) : (s.putJournal j).hq = s.hq := rfl
@[simp] theorem State.putJournal_xpt (s : State) (j : Journal) : (s.putJournal j).xpt = s.xpt := rfl
@[simp] theorem State.putJournal_brn (s : State) (j : Journal) : (s.putJournal j).brn = s.brn := rfl
@[simp] theorem State.putJournal_red (s : State) (j : Journal) : (s.putJournal j).red = s.red := rfl
@[simp] theorem State.putJournal_keys (s : State) (j : Journal) : (s.putJournal j).keys = s.keys := rfl
@[simp] theorem State.putJournal_med (s : State) (j : Journal) : (s.putJournal j).med = s.med := rfl
@[simp] theorem State.putJournal_ftl (s : State) (j : Journal) : (s.putJournal j).ftl = { s.ftl with journals := putKey Journal.role j s.ftl.journals } := rfl
@[simp] theorem State.putJournal_lnk (s : State) (j : Journal) : (s.putJournal j).lnk = s.lnk := rfl
@[simp] theorem State.putJournal_snap (s : State) (j : Journal) : (s.putJournal j).snap = s.snap := rfl
@[simp] theorem State.putJournal_pair (s : State) (j : Journal) : (s.putJournal j).pair = s.pair := rfl
@[simp] theorem State.putJournal_mem (s : State) (j : Journal) : (s.putJournal j).mem = s.mem := rfl
@[simp] theorem State.putJournal_llc (s : State) (j : Journal) : (s.putJournal j).llc = s.llc := rfl
@[simp] theorem State.putJournal_dma (s : State) (j : Journal) : (s.putJournal j).dma = s.dma := rfl
@[simp] theorem State.putJournal_sfl (s : State) (j : Journal) : (s.putJournal j).sfl = s.sfl := rfl
@[simp] theorem State.putJournal_evr (s : State) (j : Journal) : (s.putJournal j).evr = s.evr := rfl
@[simp] theorem State.putJournal_ctl (s : State) (j : Journal) : (s.putJournal j).ctl = s.ctl := rfl
@[simp] theorem State.putJournal_pool (s : State) (j : Journal) : (s.putJournal j).pool = s.pool := rfl
@[simp] theorem State.putJournal_boot (s : State) (j : Journal) : (s.putJournal j).boot = s.boot := rfl
@[simp] theorem State.putJournal_pwr (s : State) (j : Journal) : (s.putJournal j).pwr = s.pwr := rfl
@[simp] theorem State.putJournal_out (s : State) (j : Journal) : (s.putJournal j).out = s.out := rfl
@[simp] theorem State.putJournal_free (s : State) (j : Journal) : (s.putJournal j).free = s.free := rfl
@[simp] theorem State.putJournal_pending (s : State) (j : Journal) : (s.putJournal j).pending = s.pending := rfl

/-! ### State.llcAsk -/

@[simp] theorem State.llcAsk_regs (s : State) (a : Nat) (l : List Nat) (r : Nat) : (s.llcAsk a l r).regs = s.regs := rfl
@[simp] theorem State.llcAsk_latch (s : State) (a : Nat) (l : List Nat) (r : Nat) : (s.llcAsk a l r).latch = s.latch := rfl
@[simp] theorem State.llcAsk_lowPend (s : State) (a : Nat) (l : List Nat) (r : Nat) : (s.llcAsk a l r).lowPend = s.lowPend := rfl
@[simp] theorem State.llcAsk_role (s : State) (a : Nat) (l : List Nat) (r : Nat) : (s.llcAsk a l r).role = s.role := rfl
@[simp] theorem State.llcAsk_tide (s : State) (a : Nat) (l : List Nat) (r : Nat) : (s.llcAsk a l r).tide = s.tide := rfl
@[simp] theorem State.llcAsk_hq (s : State) (a : Nat) (l : List Nat) (r : Nat) : (s.llcAsk a l r).hq = s.hq := rfl
@[simp] theorem State.llcAsk_xpt (s : State) (a : Nat) (l : List Nat) (r : Nat) : (s.llcAsk a l r).xpt = s.xpt := rfl
@[simp] theorem State.llcAsk_brn (s : State) (a : Nat) (l : List Nat) (r : Nat) : (s.llcAsk a l r).brn = s.brn := rfl
@[simp] theorem State.llcAsk_red (s : State) (a : Nat) (l : List Nat) (r : Nat) : (s.llcAsk a l r).red = s.red := rfl
@[simp] theorem State.llcAsk_keys (s : State) (a : Nat) (l : List Nat) (r : Nat) : (s.llcAsk a l r).keys = s.keys := rfl
@[simp] theorem State.llcAsk_med (s : State) (a : Nat) (l : List Nat) (r : Nat) : (s.llcAsk a l r).med = s.med := rfl
@[simp] theorem State.llcAsk_ftl (s : State) (a : Nat) (l : List Nat) (r : Nat) : (s.llcAsk a l r).ftl = s.ftl := rfl
@[simp] theorem State.llcAsk_lnk (s : State) (a : Nat) (l : List Nat) (r : Nat) : (s.llcAsk a l r).lnk = s.lnk := rfl
@[simp] theorem State.llcAsk_snap (s : State) (a : Nat) (l : List Nat) (r : Nat) : (s.llcAsk a l r).snap = s.snap := rfl
@[simp] theorem State.llcAsk_pair (s : State) (a : Nat) (l : List Nat) (r : Nat) : (s.llcAsk a l r).pair = s.pair := rfl
@[simp] theorem State.llcAsk_mem (s : State) (a : Nat) (l : List Nat) (r : Nat) : (s.llcAsk a l r).mem = s.mem := rfl
@[simp] theorem State.llcAsk_dma (s : State) (a : Nat) (l : List Nat) (r : Nat) : (s.llcAsk a l r).dma = s.dma := rfl
@[simp] theorem State.llcAsk_sfl (s : State) (a : Nat) (l : List Nat) (r : Nat) : (s.llcAsk a l r).sfl = s.sfl := rfl
@[simp] theorem State.llcAsk_evr (s : State) (a : Nat) (l : List Nat) (r : Nat) : (s.llcAsk a l r).evr = s.evr := rfl
@[simp] theorem State.llcAsk_ctl (s : State) (a : Nat) (l : List Nat) (r : Nat) : (s.llcAsk a l r).ctl = s.ctl := rfl
@[simp] theorem State.llcAsk_pool (s : State) (a : Nat) (l : List Nat) (r : Nat) : (s.llcAsk a l r).pool = s.pool := rfl
@[simp] theorem State.llcAsk_boot (s : State) (a : Nat) (l : List Nat) (r : Nat) : (s.llcAsk a l r).boot = s.boot := rfl
@[simp] theorem State.llcAsk_pwr (s : State) (a : Nat) (l : List Nat) (r : Nat) : (s.llcAsk a l r).pwr = s.pwr := rfl
@[simp] theorem State.llcAsk_out (s : State) (a : Nat) (l : List Nat) (r : Nat) : (s.llcAsk a l r).out = s.out := rfl
@[simp] theorem State.llcAsk_free (s : State) (a : Nat) (l : List Nat) (r : Nat) : (s.llcAsk a l r).free = s.free := rfl
@[simp] theorem State.llcAsk_pending (s : State) (a : Nat) (l : List Nat) (r : Nat) : (s.llcAsk a l r).pending = s.pending := rfl

/-! ### State.llcArrive -/

@[simp] theorem State.llcArrive_regs (s : State) (a : Nat) (l : List Nat) : (s.llcArrive a l).regs = s.regs := rfl
@[simp] theorem State.llcArrive_latch (s : State) (a : Nat) (l : List Nat) : (s.llcArrive a l).latch = s.latch := rfl
@[simp] theorem State.llcArrive_lowPend (s : State) (a : Nat) (l : List Nat) : (s.llcArrive a l).lowPend = s.lowPend := rfl
@[simp] theorem State.llcArrive_role (s : State) (a : Nat) (l : List Nat) : (s.llcArrive a l).role = s.role := rfl
@[simp] theorem State.llcArrive_tide (s : State) (a : Nat) (l : List Nat) : (s.llcArrive a l).tide = s.tide := rfl
@[simp] theorem State.llcArrive_hq (s : State) (a : Nat) (l : List Nat) : (s.llcArrive a l).hq = s.hq := rfl
@[simp] theorem State.llcArrive_xpt (s : State) (a : Nat) (l : List Nat) : (s.llcArrive a l).xpt = s.xpt := rfl
@[simp] theorem State.llcArrive_brn (s : State) (a : Nat) (l : List Nat) : (s.llcArrive a l).brn = s.brn := rfl
@[simp] theorem State.llcArrive_red (s : State) (a : Nat) (l : List Nat) : (s.llcArrive a l).red = s.red := rfl
@[simp] theorem State.llcArrive_keys (s : State) (a : Nat) (l : List Nat) : (s.llcArrive a l).keys = s.keys := rfl
@[simp] theorem State.llcArrive_med (s : State) (a : Nat) (l : List Nat) : (s.llcArrive a l).med = s.med := rfl
@[simp] theorem State.llcArrive_ftl (s : State) (a : Nat) (l : List Nat) : (s.llcArrive a l).ftl = s.ftl := rfl
@[simp] theorem State.llcArrive_lnk (s : State) (a : Nat) (l : List Nat) : (s.llcArrive a l).lnk = s.lnk := rfl
@[simp] theorem State.llcArrive_snap (s : State) (a : Nat) (l : List Nat) : (s.llcArrive a l).snap = s.snap := rfl
@[simp] theorem State.llcArrive_pair (s : State) (a : Nat) (l : List Nat) : (s.llcArrive a l).pair = s.pair := rfl
@[simp] theorem State.llcArrive_mem (s : State) (a : Nat) (l : List Nat) : (s.llcArrive a l).mem = s.mem := rfl
@[simp] theorem State.llcArrive_dma (s : State) (a : Nat) (l : List Nat) : (s.llcArrive a l).dma = s.dma := rfl
@[simp] theorem State.llcArrive_sfl (s : State) (a : Nat) (l : List Nat) : (s.llcArrive a l).sfl = s.sfl := rfl
@[simp] theorem State.llcArrive_evr (s : State) (a : Nat) (l : List Nat) : (s.llcArrive a l).evr = s.evr := rfl
@[simp] theorem State.llcArrive_ctl (s : State) (a : Nat) (l : List Nat) : (s.llcArrive a l).ctl = s.ctl := rfl
@[simp] theorem State.llcArrive_pool (s : State) (a : Nat) (l : List Nat) : (s.llcArrive a l).pool = s.pool := rfl
@[simp] theorem State.llcArrive_boot (s : State) (a : Nat) (l : List Nat) : (s.llcArrive a l).boot = s.boot := rfl
@[simp] theorem State.llcArrive_pwr (s : State) (a : Nat) (l : List Nat) : (s.llcArrive a l).pwr = s.pwr := rfl
@[simp] theorem State.llcArrive_out (s : State) (a : Nat) (l : List Nat) : (s.llcArrive a l).out = s.out := rfl
@[simp] theorem State.llcArrive_free (s : State) (a : Nat) (l : List Nat) : (s.llcArrive a l).free = s.free := rfl
@[simp] theorem State.llcArrive_pending (s : State) (a : Nat) (l : List Nat) : (s.llcArrive a l).pending = s.pending := rfl

/-! ### State.llcRead -/

@[simp] theorem State.llcRead_regs (s : State) (a l n : Nat) (b : Bool) : (s.llcRead a l n b).regs = s.regs := rfl
@[simp] theorem State.llcRead_latch (s : State) (a l n : Nat) (b : Bool) : (s.llcRead a l n b).latch = s.latch := rfl
@[simp] theorem State.llcRead_lowPend (s : State) (a l n : Nat) (b : Bool) : (s.llcRead a l n b).lowPend = s.lowPend := rfl
@[simp] theorem State.llcRead_role (s : State) (a l n : Nat) (b : Bool) : (s.llcRead a l n b).role = s.role := rfl
@[simp] theorem State.llcRead_tide (s : State) (a l n : Nat) (b : Bool) : (s.llcRead a l n b).tide = s.tide := rfl
@[simp] theorem State.llcRead_hq (s : State) (a l n : Nat) (b : Bool) : (s.llcRead a l n b).hq = s.hq := rfl
@[simp] theorem State.llcRead_xpt (s : State) (a l n : Nat) (b : Bool) : (s.llcRead a l n b).xpt = s.xpt := rfl
@[simp] theorem State.llcRead_brn (s : State) (a l n : Nat) (b : Bool) : (s.llcRead a l n b).brn = s.brn := rfl
@[simp] theorem State.llcRead_red (s : State) (a l n : Nat) (b : Bool) : (s.llcRead a l n b).red = s.red := rfl
@[simp] theorem State.llcRead_keys (s : State) (a l n : Nat) (b : Bool) : (s.llcRead a l n b).keys = s.keys := rfl
@[simp] theorem State.llcRead_med (s : State) (a l n : Nat) (b : Bool) : (s.llcRead a l n b).med = s.med := rfl
@[simp] theorem State.llcRead_ftl (s : State) (a l n : Nat) (b : Bool) : (s.llcRead a l n b).ftl = s.ftl := rfl
@[simp] theorem State.llcRead_lnk (s : State) (a l n : Nat) (b : Bool) : (s.llcRead a l n b).lnk = s.lnk := rfl
@[simp] theorem State.llcRead_snap (s : State) (a l n : Nat) (b : Bool) : (s.llcRead a l n b).snap = s.snap := rfl
@[simp] theorem State.llcRead_pair (s : State) (a l n : Nat) (b : Bool) : (s.llcRead a l n b).pair = s.pair := rfl
@[simp] theorem State.llcRead_mem (s : State) (a l n : Nat) (b : Bool) : (s.llcRead a l n b).mem = s.mem := rfl
@[simp] theorem State.llcRead_dma (s : State) (a l n : Nat) (b : Bool) : (s.llcRead a l n b).dma = s.dma := rfl
@[simp] theorem State.llcRead_sfl (s : State) (a l n : Nat) (b : Bool) : (s.llcRead a l n b).sfl = s.sfl := rfl
@[simp] theorem State.llcRead_evr (s : State) (a l n : Nat) (b : Bool) : (s.llcRead a l n b).evr = s.evr := rfl
@[simp] theorem State.llcRead_ctl (s : State) (a l n : Nat) (b : Bool) : (s.llcRead a l n b).ctl = s.ctl := rfl
@[simp] theorem State.llcRead_pool (s : State) (a l n : Nat) (b : Bool) : (s.llcRead a l n b).pool = s.pool := rfl
@[simp] theorem State.llcRead_boot (s : State) (a l n : Nat) (b : Bool) : (s.llcRead a l n b).boot = s.boot := rfl
@[simp] theorem State.llcRead_pwr (s : State) (a l n : Nat) (b : Bool) : (s.llcRead a l n b).pwr = s.pwr := rfl
@[simp] theorem State.llcRead_out (s : State) (a l n : Nat) (b : Bool) : (s.llcRead a l n b).out = s.out := rfl
@[simp] theorem State.llcRead_free (s : State) (a l n : Nat) (b : Bool) : (s.llcRead a l n b).free = s.free := rfl
@[simp] theorem State.llcRead_pending (s : State) (a l n : Nat) (b : Bool) : (s.llcRead a l n b).pending = s.pending := rfl

/-! ### State.llcWrite -/

@[simp] theorem State.llcWrite_regs (s : State) (a : Nat) (l : List Nat) : (s.llcWrite a l).regs = s.regs := rfl
@[simp] theorem State.llcWrite_latch (s : State) (a : Nat) (l : List Nat) : (s.llcWrite a l).latch = s.latch := rfl
@[simp] theorem State.llcWrite_lowPend (s : State) (a : Nat) (l : List Nat) : (s.llcWrite a l).lowPend = s.lowPend := rfl
@[simp] theorem State.llcWrite_role (s : State) (a : Nat) (l : List Nat) : (s.llcWrite a l).role = s.role := rfl
@[simp] theorem State.llcWrite_tide (s : State) (a : Nat) (l : List Nat) : (s.llcWrite a l).tide = s.tide := rfl
@[simp] theorem State.llcWrite_hq (s : State) (a : Nat) (l : List Nat) : (s.llcWrite a l).hq = s.hq := rfl
@[simp] theorem State.llcWrite_xpt (s : State) (a : Nat) (l : List Nat) : (s.llcWrite a l).xpt = s.xpt := rfl
@[simp] theorem State.llcWrite_brn (s : State) (a : Nat) (l : List Nat) : (s.llcWrite a l).brn = s.brn := rfl
@[simp] theorem State.llcWrite_red (s : State) (a : Nat) (l : List Nat) : (s.llcWrite a l).red = s.red := rfl
@[simp] theorem State.llcWrite_keys (s : State) (a : Nat) (l : List Nat) : (s.llcWrite a l).keys = s.keys := rfl
@[simp] theorem State.llcWrite_med (s : State) (a : Nat) (l : List Nat) : (s.llcWrite a l).med = s.med := rfl
@[simp] theorem State.llcWrite_ftl (s : State) (a : Nat) (l : List Nat) : (s.llcWrite a l).ftl = s.ftl := rfl
@[simp] theorem State.llcWrite_lnk (s : State) (a : Nat) (l : List Nat) : (s.llcWrite a l).lnk = s.lnk := rfl
@[simp] theorem State.llcWrite_snap (s : State) (a : Nat) (l : List Nat) : (s.llcWrite a l).snap = s.snap := rfl
@[simp] theorem State.llcWrite_pair (s : State) (a : Nat) (l : List Nat) : (s.llcWrite a l).pair = s.pair := rfl
@[simp] theorem State.llcWrite_mem (s : State) (a : Nat) (l : List Nat) : (s.llcWrite a l).mem = s.mem := rfl
@[simp] theorem State.llcWrite_dma (s : State) (a : Nat) (l : List Nat) : (s.llcWrite a l).dma = s.dma := rfl
@[simp] theorem State.llcWrite_sfl (s : State) (a : Nat) (l : List Nat) : (s.llcWrite a l).sfl = s.sfl := rfl
@[simp] theorem State.llcWrite_evr (s : State) (a : Nat) (l : List Nat) : (s.llcWrite a l).evr = s.evr := rfl
@[simp] theorem State.llcWrite_ctl (s : State) (a : Nat) (l : List Nat) : (s.llcWrite a l).ctl = s.ctl := rfl
@[simp] theorem State.llcWrite_pool (s : State) (a : Nat) (l : List Nat) : (s.llcWrite a l).pool = s.pool := rfl
@[simp] theorem State.llcWrite_boot (s : State) (a : Nat) (l : List Nat) : (s.llcWrite a l).boot = s.boot := rfl
@[simp] theorem State.llcWrite_pwr (s : State) (a : Nat) (l : List Nat) : (s.llcWrite a l).pwr = s.pwr := rfl
@[simp] theorem State.llcWrite_out (s : State) (a : Nat) (l : List Nat) : (s.llcWrite a l).out = s.out := rfl
@[simp] theorem State.llcWrite_free (s : State) (a : Nat) (l : List Nat) : (s.llcWrite a l).free = s.free := rfl
@[simp] theorem State.llcWrite_pending (s : State) (a : Nat) (l : List Nat) : (s.llcWrite a l).pending = s.pending := rfl

/-! ### State.llcLeave -/

@[simp] theorem State.llcLeave_regs (s : State) (f : LlcLine → Bool) : (s.llcLeave f).regs = s.regs := rfl
@[simp] theorem State.llcLeave_latch (s : State) (f : LlcLine → Bool) : (s.llcLeave f).latch = s.latch := rfl
@[simp] theorem State.llcLeave_lowPend (s : State) (f : LlcLine → Bool) : (s.llcLeave f).lowPend = s.lowPend := rfl
@[simp] theorem State.llcLeave_role (s : State) (f : LlcLine → Bool) : (s.llcLeave f).role = s.role := rfl
@[simp] theorem State.llcLeave_tide (s : State) (f : LlcLine → Bool) : (s.llcLeave f).tide = s.tide := rfl
@[simp] theorem State.llcLeave_hq (s : State) (f : LlcLine → Bool) : (s.llcLeave f).hq = s.hq := rfl
@[simp] theorem State.llcLeave_xpt (s : State) (f : LlcLine → Bool) : (s.llcLeave f).xpt = s.xpt := rfl
@[simp] theorem State.llcLeave_brn (s : State) (f : LlcLine → Bool) : (s.llcLeave f).brn = s.brn := rfl
@[simp] theorem State.llcLeave_red (s : State) (f : LlcLine → Bool) : (s.llcLeave f).red = s.red := rfl
@[simp] theorem State.llcLeave_keys (s : State) (f : LlcLine → Bool) : (s.llcLeave f).keys = s.keys := rfl
@[simp] theorem State.llcLeave_med (s : State) (f : LlcLine → Bool) : (s.llcLeave f).med = s.med := rfl
@[simp] theorem State.llcLeave_ftl (s : State) (f : LlcLine → Bool) : (s.llcLeave f).ftl = s.ftl := rfl
@[simp] theorem State.llcLeave_lnk (s : State) (f : LlcLine → Bool) : (s.llcLeave f).lnk = s.lnk := rfl
@[simp] theorem State.llcLeave_snap (s : State) (f : LlcLine → Bool) : (s.llcLeave f).snap = s.snap := rfl
@[simp] theorem State.llcLeave_pair (s : State) (f : LlcLine → Bool) : (s.llcLeave f).pair = s.pair := rfl
@[simp] theorem State.llcLeave_mem (s : State) (f : LlcLine → Bool) : (s.llcLeave f).mem = s.mem := rfl
@[simp] theorem State.llcLeave_dma (s : State) (f : LlcLine → Bool) : (s.llcLeave f).dma = s.dma := rfl
@[simp] theorem State.llcLeave_sfl (s : State) (f : LlcLine → Bool) : (s.llcLeave f).sfl = s.sfl := rfl
@[simp] theorem State.llcLeave_evr (s : State) (f : LlcLine → Bool) : (s.llcLeave f).evr = s.evr := rfl
@[simp] theorem State.llcLeave_ctl (s : State) (f : LlcLine → Bool) : (s.llcLeave f).ctl = s.ctl := rfl
@[simp] theorem State.llcLeave_pool (s : State) (f : LlcLine → Bool) : (s.llcLeave f).pool = s.pool := rfl
@[simp] theorem State.llcLeave_boot (s : State) (f : LlcLine → Bool) : (s.llcLeave f).boot = s.boot := rfl
@[simp] theorem State.llcLeave_pwr (s : State) (f : LlcLine → Bool) : (s.llcLeave f).pwr = s.pwr := rfl
@[simp] theorem State.llcLeave_out (s : State) (f : LlcLine → Bool) : (s.llcLeave f).out = s.out := rfl
@[simp] theorem State.llcLeave_free (s : State) (f : LlcLine → Bool) : (s.llcLeave f).free = s.free := rfl
@[simp] theorem State.llcLeave_pending (s : State) (f : LlcLine → Bool) : (s.llcLeave f).pending = s.pending := rfl

end Sys2Proof.Machine
end

