-- ==== Sys2Proof/WellFormed.lean ====
section
/-! DEFINITION. What it is for a command to be well formed: every operand lies in the range of the thing it names. -/
namespace Sys2Proof

/-- A number fits in `n` bits. -/
def ltPow (v n : Nat) : Bool := decide (v < 2 ^ n)

/-- A PTP message's fields are in their ranges. -/
def PtpIn.wf (m : PtpIn) : Bool :=
  decide (m.port < 16) && decide (m.sub < 4) && ltPow m.domain 8 && decide (m.transport < 3) && decide (m.mech < 2) && ltPow m.source 80

/-- A BAR that the device has (01_architecture.md R16): 0, 2 or 4. -/
def barWf (bar : Nat) : Bool := bar == 0 || bar == 2 || bar == 4

/-- An SGL descriptor's fields fit (04_host_queues.md R73). -/
def Sgl.wf (d : Sgl) : Bool := ltPow d.addr 64 && ltPow d.len 32 && ltPow d.key 32

/-- A RoCEv2 packet's arrival is well-formed. -/
def NetIn.wf (n : NetIn) : Bool := decide (n.port < 64) && n.gid.length == 16

/-- A submission entry's fields fit. -/
def Sqe.wf (e : Sqe) : Bool :=
  ltPow e.cid 16 && ltPow e.nsid 32 && ltPow e.cdw2 32 && ltPow e.cdw3 32 && ltPow e.cdw10 32 && ltPow e.cdw11 32 && ltPow e.cdw12 32 &&
    ltPow e.cdw13 32 && ltPow e.cdw14 32 && ltPow e.cdw15 32 && e.sgl.all Sgl.wf

/-- A message header's fields fit (15_pair_operation.md R360). -/
def PtlHdr.wf (h : PtlHdr) : Bool := ltPow h.seq 32 && ltPow h.ack 32

/-- Connection parameters fit (05_rdma_transport.md R104). -/
def CmParams.wf (m : CmParams) : Bool :=
  ltPow m.qpn 24 && ltPow m.psn 24 && decide (m.mtu < 3) && decide (m.resources < 256) && decide (m.timeout < 32) && decide (m.retry < 8) &&
    decide (m.rnr < 8) && ltPow m.recvs 16 && ltPow m.recfmt 16 && ltPow m.landKey 32

/-- What a start-up finds fits: the head's number, and one reading per rail (21_startup_security.md R486; 22_power_electrical.md R508). -/
def BootIn.wf (b : BootIn) : Bool := decide (b.head < 2) && decide (b.rails.length ≤ 9) && decide (b.hbm < 16) && decide (b.channels < 256)

/-- What loading the pool finds fits: key pages below 4,096 and key slots below 256 (09_cipher_digest.md R210, R218). -/
def PoolIn.wf (p : PoolIn) : Bool := p.badPages.all (fun x => decide (x < 4096)) && p.badSlots.all (fun x => decide (x < 256))

/-- A command is well formed. -/
def Instr.wf (i : Instr) : Bool :=
  match i with
  | .registerWrite bar off size value => barWf bar && ltPow off 64 && ltPow size 32 && ltPow value 64
  | .reg64LoRead bar off => barWf bar && ltPow off 64
  | .reg64HiRead bar off => barWf bar && ltPow off 64
  | .reg64LoWrite bar off value => barWf bar && ltPow off 64 && ltPow value 64
  | .reg64HiWrite bar off value => barWf bar && ltPow off 64 && ltPow value 64
  | .misalignedAccess bar off size value _ => barWf bar && ltPow off 64 && ltPow size 32 && ltPow value 64
  | .gatedRegisterAccess off size value _ => ltPow off 64 && ltPow size 32 && ltPow value 64
  | .hostDoorbellWrite offset size value entries => ltPow offset 32 && ltPow size 32 && ltPow value 64 && entries.all (fun x => x.length == 64)
  | .powerOnReset b => b.wf
  | .resetPin => true
  | .warmReset b => b.wf
  | .hostPcieReset => true
  | .firmwareReady => true
  | .poolLoad p => p.wf
  | .watchdogFw => true
  | .watchdogBoot => true
  | .fwBeatTick => true
  | .syncRx m offset => m.wf && ltPow offset.natAbs 64
  | .announceRx m rank _ => m.wf && decide (rank.length = 8) && rank.all (ltPow · 80)
  | .referenceLost cause => decide (cause < 256)
  | .ppsInEdge _ => true
  | .peerDelayTimer delays => delays.all (fun x => decide (x.1 < 16))
  | .slewEnd => true
  | .stepApplied => true
  | .holdoverExceeded => true
  | .ppsOutEdge => true
  | .slotAdvance => true
  | .deadlineMissed _ cause rsrc => decide (cause < 256) && decide (rsrc < 256)
  | .timedEventFire => true
  | .farInstantArm => true
  | .harvestBudgetSwitch => true
  | .getLogPage e => e.wf
  | .identify e => e.wf
  | .abort e => e.wf
  | .setFeatures e => e.wf
  | .getFeatures e => e.wf
  | .asynchronousEventRequest e => e.wf
  | .keepAlive e => e.wf
  | .connect e => e.wf
  | .propertyGet e => e.wf
  | .propertySet e => e.wf
  | .disconnect e => e.wf
  | .formatNvm e => e.wf
  | .formatComplete nsid => ltPow nsid 32
  | .sanitize e => e.wf
  | .sanitizeProgress _ => true
  | .sanitizeComplete => true
  | .flush e => e.wf
  | .flushComplete _ => true
  | .write e => e.wf
  | .read e => e.wf
  | .writeZeroes e => e.wf
  | .datasetManagement e => e.wf
  | .verify e => e.wf
  | .rangeLockGrant _ => true
  | .ordRelease _ => true
  | .createHostQueue ring slot => decide (ring < 4) && decide (slot < 256)
  | .deleteHostQueue ring slot => decide (ring < 4) && decide (slot < 256)
  | .cmReqRx n m => n.wf && m.wf
  | .cmRepRx n qpn m => n.wf && ltPow qpn 24 && m.wf
  | .cmRtuRx n qpn => n.wf && ltPow qpn 24
  | .cmRejRx n qpn => n.wf && ltPow qpn 24
  | .cmMraRx n qpn => n.wf && ltPow qpn 24
  | .cmDreqRx n qpn remote => n.wf && ltPow qpn 24 && ltPow remote 24
  | .cmDrepRx n qpn => n.wf && ltPow qpn 24
  | .sendRx n qpn psn _ _ _ payload => n.wf && ltPow qpn 24 && ltPow psn 24 && decide (payload.length ≤ 65535)
  | .rdmaWriteRx n qpn psn _ _ _ va key len payload => n.wf && ltPow qpn 24 && ltPow psn 24 && ltPow va 64 && ltPow key 32 && ltPow len 32 && decide (payload.length ≤ 65535)
  | .ackRx n qpn psn => n.wf && ltPow qpn 24 && ltPow psn 24
  | .seqNakRx n qpn psn => n.wf && ltPow qpn 24 && ltPow psn 24
  | .rnrNakRx n qpn psn timer => n.wf && ltPow qpn 24 && ltPow psn 24 && decide (timer < 32)
  | .fatalNakRx n qpn => n.wf && ltPow qpn 24
  | .readResponseRx n qpn psn _ payload => n.wf && ltPow qpn 24 && ltPow psn 24 && decide (payload.length ≤ 65535)
  | .ackTimeout qpn => ltPow qpn 24
  | .privAckTimeout qpn => ltPow qpn 24
  | .rnrWaitExpiry qpn => ltPow qpn 24
  | .contextFetchDone qpn => ltPow qpn 24
  | .cnpRx n qpn => n.wf && ltPow qpn 24
  | .alphaUpdateTimer qpn => ltPow qpn 24
  | .rateIncreaseTimer qpn => ltPow qpn 24
  | .byteCounterExpiry qpn => ltPow qpn 24
  | .pfcPauseRx port prio _ => decide (port < 64) && decide (prio < 8)
  | .pfcStorm port _ => decide (port < 64)
  | .ethPortDown port => decide (port < 64)
  | .registerMemoryKey ring slot => decide (ring < 4) && decide (slot < 256)
  | .revokeMemoryKey ring slot => decide (ring < 4) && decide (slot < 256)
  | .revokeComplete index => ltPow index 24
  | .revokeLimitExpiry index => ltPow index 24
  | .brineReserveGrant => true
  | .mirrorBacklogRelease => true
  | .mirrorRx h payload => h.wf && decide (payload.length ≤ 65535)
  | .pairAckRx chan ack => decide (chan < 3) && ltPow ack 32
  | .drainTake journal => decide (journal < 2)
  | .remirrorDone => true
  | .acceptBrineLoss ring slot => decide (ring < 4) && decide (slot < 256)
  | .engineSegmentDone _ => true
  | .engineJobWatchdog _ => true
  | .engineCoreFault unit _ => ltPow unit 24
  | .contextSaveDone engine cluster => decide (engine < 5) && decide (cluster < 8)
  | .createDedupDomain ring slot _ => decide (ring < 4) && decide (slot < 256)
  | .deleteDedupDomain ring slot => decide (ring < 4) && decide (slot < 256)
  | .getDedupDomain ring slot => decide (ring < 4) && decide (slot < 256)
  | .setVolumeDomain ring slot => decide (ring < 4) && decide (slot < 256)
  | .compressJob ring slot _ _ => decide (ring < 4) && decide (slot < 256)
  | .decompressJob ring slot _ _ => decide (ring < 4) && decide (slot < 256)
  | .setCodecGeneration ring slot => decide (ring < 4) && decide (slot < 256)
  | .cipherJob ring slot _ _ _ => decide (ring < 4) && decide (slot < 256)
  | .digestJob ring slot _ _ => decide (ring < 4) && decide (slot < 256)
  | .reloadKeys ring slot _ _ _ => decide (ring < 4) && decide (slot < 256)
  | .keyPageCfgWrite page value => decide (page < 4096) && ltPow value 64
  | .keyPageKeyWrite page word value => decide (page < 4096) && decide (word < 17) && ltPow value 64
  | .keyPageCommit page => decide (page < 4096)
  | .keyPageGenerate page _ => decide (page < 4096)
  | .keyPageErase page => decide (page < 4096)
  | .keySlotKeyWrite slot word value => decide (slot < 256) && decide (word < 34) && ltPow value 64
  | .keySlotCommit slot => decide (slot < 256)
  | .keySlotGenerate slot _ => decide (slot < 256)
  | .keySlotErase slot => decide (slot < 256)
  | .forcedAlarm value => ltPow value 64
  | .alarmAssert source _ => decide (source < 5)
  | .getUnit ring slot => decide (ring < 4) && decide (slot < 256)
  | .createPan ring slot _ => decide (ring < 4) && decide (slot < 256)
  | .deletePan ring slot => decide (ring < 4) && decide (slot < 256)
  | .buildDefaultLayout ring slot => decide (ring < 4) && decide (slot < 256)
  | .setUnitService ring slot => decide (ring < 4) && decide (slot < 256)
  | .replaceMember ring slot => decide (ring < 4) && decide (slot < 256)
  | .dieCommandTimeout port tag => decide (port < 32) && ltPow tag 16
  | .bookedReadTimeout _ => true
  | .rebuildPositionEnd pan pos => ltPow pan 32 && decide (pos < 64)
  | .unitStateRecordRx h payload => h.wf && decide (payload.length ≤ 65535)
  | .grantRequestRx h journal _ => h.wf && decide (journal < 2)
  | .grantRx h payload => h.wf && decide (payload.length ≤ 65535)
  | .moduleCplRx port _ _ => decide (port < 32)
  | .harvestStart journal top => decide (journal < 2) && ltPow top 32
  | .harvestCopy top blk => ltPow top 32 && ltPow blk 32
  | .harvestCommit top blk => ltPow top 32 && ltPow blk 32
  | .harvestErase top blk => ltPow top 32 && ltPow blk 32
  | .setHarvestBudget ring slot => decide (ring < 4) && decide (slot < 256)
  | .healthRecordTimer => true
  | .tempBinTick => true
  | .mediaPortUp port width rate _ => decide (port < 32) && decide (width < 17) && decide (rate < 8)
  | .mediaPortDown port => decide (port < 32)
  | .moduleEventRx port code die => decide (port < 32) && decide (code < 256) && ltPow die 16
  | .moduleRdataRx port tag off _ => decide (port < 32) && ltPow tag 16 && ltPow off 64
  | .moduleStatusPoll => true
  | .modulePresenceLost port => decide (port < 32)
  | .moduleBusyRetry port tag => decide (port < 32) && ltPow tag 16
  | .getModuleInfo ring slot => decide (ring < 4) && decide (slot < 256)
  | .proxyCmdRx h payload => h.wf && decide (payload.length ≤ 65535)
  | .proxyCplRx h payload _ => h.wf && decide (payload.length ≤ 65535)
  | .setVolumeGroup ring slot => decide (ring < 4) && decide (slot < 256)
  | .createSnapshot ring slot => decide (ring < 4) && decide (slot < 256)
  | .deleteSnapshot ring slot => decide (ring < 4) && decide (slot < 256)
  | .listSnapshots ring slot => decide (ring < 4) && decide (slot < 256)
  | .cloneSnapshot ring slot => decide (ring < 4) && decide (slot < 256)
  | .getSnapshotSpace ring slot => decide (ring < 4) && decide (slot < 256)
  | .snapshotSpaceScanDone ring slot => decide (ring < 4) && decide (slot < 256)
  | .createReplSession ring slot => decide (ring < 4) && decide (slot < 256)
  | .startReplication ring slot => decide (ring < 4) && decide (slot < 256)
  | .getReplSession ring slot => decide (ring < 4) && decide (slot < 256)
  | .deleteReplSession ring slot => decide (ring < 4) && decide (slot < 256)
  | .replDataRx _ => true
  | .replCommitRx _ => true
  | .replAckRx _ => true
  | .replOpenRx _ => true
  | .replResumeRx _ => true
  | .replReconnectTimer _ => true
  | .cutArmRx h payload => h.wf && decide (payload.length ≤ 65535)
  | .cutCancelRx h payload => h.wf && decide (payload.length ≤ 65535)
  | .iclLinkUp width rate rtt => decide (width < 17) && decide (rate < 8) && ltPow rtt 32
  | .iclLinkDown => true
  | .iclRetrain kind width => decide (kind < 4) && decide (width < 17)
  | .helloTimer => true
  | .helloRx payload _ => decide (payload.length ≤ 65535)
  | .heartbeatTimer => true
  | .heartbeatRx payload => decide (payload.length ≤ 65535)
  | .peerSuspect => true
  | .leaseExpiry => true
  | .peerLost => true
  | .electionPoll => true
  | .electionLeadTimeout => true
  | .electionRetry => true
  | .leaveRx => true
  | .alarmNoticeRx h payload => h.wf && decide (payload.length ≤ 65535)
  | .journalRx h payload => h.wf && decide (payload.length ≤ 65535)
  | .pairNakRx chan ack => decide (chan < 3) && ltPow ack 32
  | .pairResendTimer chan => decide (chan < 3)
  | .pairReservedTypeRx => true
  | .configRecordRx h payload => h.wf && decide (payload.length ≤ 65535)
  | .keyTransferRx h payload => h.wf && decide (payload.length ≤ 65535)
  | .leadSelectionRx h payload => h.wf && decide (payload.length ≤ 65535)
  | .groupMoveStepRx h payload => h.wf && decide (payload.length ≤ 65535)
  | .sanitizeNoticeRx h payload => h.wf && decide (payload.length ≤ 65535)
  | .moveAnaGroup ring slot => decide (ring < 4) && decide (slot < 256)
  | .moveDrainDone grp => ltPow grp 16
  | .moveTimeout grp => ltPow grp 16
  | .setHomeHead ring slot => decide (ring < 4) && decide (slot < 256)
  | .leavePair ring slot => decide (ring < 4) && decide (slot < 256)
  | .rejoinPair ring slot => decide (ring < 4) && decide (slot < 256)
  | .getPairStatus ring slot => decide (ring < 4) && decide (slot < 256)
  | .soloWaitExpiry => true
  | .rejoinSyncDone _ => true
  | .patrolScrub _ => true
  | .memoryUe unit space addr _ => ltPow unit 24 && decide (space < 256) && ltPow addr 64
  | .llcWayOffWrite slice value => decide (slice < 48) && ltPow value 64
  | .llcWayCleanDone slice => decide (slice < 48)
  | .dmaArm ch => decide (ch < 64)
  | .dmaAbort ch => decide (ch < 64)
  | .dmaShadowWrite ch off size value => decide (ch < 64) && ltPow off 64 && ltPow size 32 && ltPow value 64
  | .dmaChunkDone ch off _ => decide (ch < 64) && ltPow off 64
  | .dmaFault ch code => decide (ch < 64) && decide (code < 256)
  | .dmaErrClear ch value => decide (ch < 64) && ltPow value 64
  | .dmaWinCfgWrite n value => decide (n < 16) && ltPow value 64
  | .windowWriteRx h payload => h.wf && decide (payload.length ≤ 65535)
  | .windowReadRx h payload => h.wf && decide (payload.length ≤ 65535)
  | .windowReadReplyRx h payload => h.wf && decide (payload.length ≤ 65535)
  | .sflProgram bank => decide (bank < 8)
  | .sflErase bank => decide (bank < 8)
  | .sflOpDone bank _ => decide (bank < 8)
  | .sflApertureRead off size level => ltPow off 64 && ltPow size 32 && decide (level < 256)
  | .readSystemFlash ring slot levels => decide (ring < 4) && decide (slot < 256) && levels.all (fun x => decide (x < 256))
  | .evrAllowanceRefill => true
  | .evrFlushTimer => true
  | .evrFlushDone => true
  | .evrFreezeExpiry => true
  | .aenWindowExpiry ctrl typ info => ltPow ctrl 16 && decide (typ < 8) && decide (info < 256)
  | .readEvents ring slot => decide (ring < 4) && decide (slot < 256)
  | .freezeEvents ring slot => decide (ring < 4) && decide (slot < 256)
  | .openLogEpoch ring slot => decide (ring < 4) && decide (slot < 256)
  | .ringDoorbell ring value entries => decide (ring < 4) && ltPow value 64 && entries.all (fun x => x.length == 64)
  | .ringEnable ring value => decide (ring < 4) && ltPow value 64
  | .ringDisable ring value => decide (ring < 4) && ltPow value 64
  | .ringDrainDone ring => decide (ring < 4)
  | .rplHeadWrite ring value => decide (ring < 4) && ltPow value 64
  | .nop ring slot => decide (ring < 4) && decide (slot < 256)
  | .createPool ring slot _ => decide (ring < 4) && decide (slot < 256)
  | .createVolume ring slot => decide (ring < 4) && decide (slot < 256)
  | .deleteVolume ring slot => decide (ring < 4) && decide (slot < 256)
  | .attachVolume ring slot => decide (ring < 4) && decide (slot < 256)
  | .getIdentity ring slot => decide (ring < 4) && decide (slot < 256)
  | .resetHead ring slot => decide (ring < 4) && decide (slot < 256)
  | .fwDownload ring slot _ => decide (ring < 4) && decide (slot < 256)
  | .fwActivate ring slot _ => decide (ring < 4) && decide (slot < 256)
  | .fwCommit ring slot => decide (ring < 4) && decide (slot < 256)
  | .fwStatus ring slot => decide (ring < 4) && decide (slot < 256)
  | .recoveryGo _ _ => true
  | .fieldChallenge ring slot => decide (ring < 4) && decide (slot < 256)
  | .fieldUnlock ring slot => decide (ring < 4) && decide (slot < 256)
  | .fieldLock ring slot => decide (ring < 4) && decide (slot < 256)
  | .fieldProvision ring slot => decide (ring < 4) && decide (slot < 256)
  | .fieldSessionExpiry => true
  | .nonceExpiry => true
  | .setPowerDomain ring slot => decide (ring < 4) && decide (slot < 256)
  | .powerDomainReady domain => decide (domain < 96)
  | .getPowerStatus ring slot => decide (ring < 4) && decide (slot < 256)
  | .getCables ring slot => decide (ring < 4) && decide (slot < 256)
  | .railSample values power => decide (values.length ≤ 64) && ltPow power 32
  | .tempSample values => decide (values.length ≤ 64)
  | .pfailAssert => true
  | .dumpComplete => true
  | .refclkLoss clock _ => decide (clock < 12)
  | .setVolumeAdmission ring slot => decide (ring < 4) && decide (slot < 256)
  | .getVolumeAdmission ring slot => decide (ring < 4) && decide (slot < 256)
  | .ethPortUp port line => decide (port < 64) && ltPow line 32
  | .replConnectTimeout _ => true
  | .rdmaReadRequestRx n qpn psn => n.wf && ltPow qpn 24 && ltPow psn 24
  | .llcRehashDone => true

end Sys2Proof
end

