-- ==== Sys2Proof/Tests/Slice0.lean ====
section
/-! SUPPORT. Small tests: ill-formed commands are refused, worked examples of the spec, and for every statement with hypotheses a state and operands that
meet them (`witness_<Statement>`). -/
namespace Sys2Proof.Machine

set_option Elab.async false

/-! ### Small states -/

/-- A head that serves its pool alone: READY, a pool loaded, a field session open with every scope. -/
def up : State :=
  { State.reset with
    boot.stage := 6, boot.sessionOpen := true, boot.scope := 7, ctl.ready := true, pair.state := .solo, pool.loaded := true
    pool.id := List.replicate 16 1, pool.gen := 3, mem.ddrGib := 2048, mem.hbmUp := 15, mem.chUp := 255
    mem.hbmSplit := R.MEM_HBM_SPLIT.reset.toNat, mem.ddrSplit := R.MEM_DDR_SPLIT.reset.toNat }

/-- A head in service with its peer. -/
def paired : State := { up with pair.state := .paired, pair.icl := 2, pair.lease := true }

/-- The packet of an opcode to a target, with its parameters from byte 10 and its PLEN, in slot 0. -/
def pkTo (opc target : Nat) (params : Bytes) : Entry :=
  ⟨0, 0, slice (leBytes 4 opc ++ leBytes 4 target ++ leBytes 2 (((opRow opc).map OpRow.plen).getD 0) ++ params) 0 64⟩

/-- A packet to the device, or to the one unit that its opcode names. -/
def pk (opc : Nat) (params : Bytes) : Entry :=
  pkTo opc (match (opRow opc).map OpRow.target with
    | some (.fixed v) => v
    | _ => 0) params

/-- `s` with a packet fetched on ring 0. -/
def State.got (s : State) (e : Entry) : State :=
  { s with ctl.rings := [{ Ring.reset with state := .running, fetched := [e] }, Ring.reset, Ring.reset, Ring.reset] }

/-- A packet of opcode `opc` fetched on ring 0 starts and passes the common checks. -/
def State.runs (s : State) (opc : Nat) (e : Entry) : Bool :=
  s.startable opc 0 0 == some e && s.entryStatus e == stOk && (!opcodeCfg opc || s.cfgReady == some stOk) && e.tailOk

/-- What `runs` checks is `CanRun`. -/
theorem test_runs_is_can_run {s : State} {opc : Nat} {e : Entry} (h : s.runs opc e = true) : s.CanRun opc 0 0 e := by
  simp only [State.runs, Bool.and_eq_true, Bool.or_eq_true, Bool.not_eq_true', beq_iff_eq] at h
  exact ⟨h.1.1.1, h.1.1.2, fun g => h.1.2.resolve_left (by rw [g]; decide), h.2⟩

/-- A register access reaches the register at `a`. -/
def State.meets (s : State) (bar off a : Nat) : Bool :=
  (bar == 0 || bar == 4) && barAddr bar off == a && !(bar == 0 && decide (0x03100000 ≤ off) && decide (off < 0x03200000)) && !inSflBuf a &&
    s.gatedBy a == none && !s.undecoded a

/-- What `meets` checks is `Reaches`. -/
theorem test_meets_is_reaches {s : State} {bar off a : Nat} (h : s.meets bar off a = true) : s.Reaches bar off a := by
  simp only [State.meets, Bool.and_eq_true, Bool.or_eq_true, Bool.not_eq_true', beq_iff_eq, Bool.and_eq_false_iff, decide_eq_false_iff_not] at h
  obtain ⟨⟨⟨⟨⟨h1, h2⟩, h3⟩, h4⟩, h5⟩, h6⟩ := h
  refine ⟨h1, h2, ?_, h4, h5, h6⟩
  rintro ⟨a, b, c⟩
  rcases h3 with (h3 | h3) | h3
  · rw [a] at h3; exact absurd h3 (by decide)
  · exact h3 b
  · exact h3 c

/-- The header of the first message of a channel. -/
def hdr : PtlHdr := ⟨1, false, 0, false⟩

/-- A message is the next one of its channel and ends its chain. -/
def State.nextOn (s : State) (c : Nat) (h : PtlHdr) : Bool := h.seq == ((s.retired c h).chan c).expect && !h.more

/-- What `nextOn` checks is `InOrder`. -/
theorem test_next_on_is_in_order {s : State} {c : Nat} {h : PtlHdr} (g : s.nextOn c h = true) : s.InOrder c h := by
  simp only [State.nextOn, Bool.and_eq_true, Bool.not_eq_true', beq_iff_eq] at g
  exact ⟨g.1, g.2⟩

/-- An admin queue context takes an admin command. -/
def State.admits (s : State) (e : Sqe) (fab host : Bool) (q : QCtx) : Bool :=
  s.qctx? e.q == some q && (q.kind == .fabAdmin || q.kind == .hostAdmin) && q.deleting == none && (!q.fabric || s.qpUp e.q) && (if q.fabric then fab else host)

/-- What `admits` checks is `AdminOn`. -/
theorem test_admits_is_admin_on {s : State} {e : Sqe} {fab host : Bool} {q : QCtx} (h : s.admits e fab host q = true) :
    s.AdminOn e fab host q := by
  simp only [State.admits, Bool.and_eq_true, Bool.or_eq_true, Bool.not_eq_true', beq_iff_eq] at h
  exact ⟨h.1.1.1.1, h.1.1.1.2, h.1.1.2, fun g => h.1.2.resolve_left (by rw [g]; decide), h.2⟩

/-- An I/O queue context of a serving head takes an I/O command. -/
def State.takes (s : State) (e : Sqe) (q : QCtx) : Bool :=
  s.qctx? e.q == some q && (q.kind == .fabIo || q.kind == .hostIo) && q.deleting == none && (!q.fabric || s.qpUp e.q) && s.serving

/-- What `takes` checks is `IoOn`. -/
theorem test_takes_is_io_on {s : State} {e : Sqe} {q : QCtx} (h : s.takes e q = true) : s.IoOn e q := by
  simp only [State.takes, Bool.and_eq_true, Bool.or_eq_true, Bool.not_eq_true', beq_iff_eq] at h
  exact ⟨h.1.1.1.1, h.1.1.1.2, h.1.1.2, fun g => h.1.2.resolve_left (by rw [g]; decide), h.2⟩

/-! ### Ill-formed commands are refused -/

/-- A submission entry of zeros. -/
def sq0 : Sqe := ⟨0, 0, 0, 0, 0, 0, 0, 0, 0, 0, 0, [], false, []⟩
/-- Connection parameters of zeros. -/
def cm0 : CmParams := ⟨0, 0, 0, 0, 0, 0, 0, 0, 0, none, 0, false⟩
/-- A packet that arrived whole on port 0. -/
def net0 : NetIn := ⟨0, List.replicate 16 0, true, false⟩
/-- A PTP message of the default domain on port 0. -/
def ptp0 : PtpIn := ⟨0, 0, 0, 0, 0, 0⟩
/-- A start-up that finds everything in order. -/
def boot0 : BootIn := ⟨0, [], [], [], 15, 255, 2048, none, [], [], ⟨true, true, true⟩, ⟨true, true, true⟩⟩

theorem test_wf_bus_accesses_are_bounded :
    ((Instr.registerWrite 0 0 4 0).wf && !(Instr.registerWrite 1 0 4 0).wf && !(Instr.registerWrite 0 (2 ^ 64) 4 0).wf &&
      !(Instr.registerWrite 0 0 (2 ^ 32) 0).wf && !(Instr.registerWrite 0 0 4 (2 ^ 64)).wf && !(Instr.reg64LoRead 3 0).wf &&
      !(Instr.reg64HiWrite 0 0 (2 ^ 64)).wf && !(Instr.hostDoorbellWrite (2 ^ 32) 4 0 []).wf && !(Instr.hostDoorbellWrite 0 4 0 [[]]).wf) = true := by decide

theorem test_wf_start_up_is_bounded :
    ((Instr.powerOnReset boot0).wf && !(Instr.powerOnReset { boot0 with head := 2 }).wf && !(Instr.warmReset { boot0 with hbm := 16 }).wf &&
      !(Instr.warmReset { boot0 with channels := 256 }).wf && !(Instr.powerOnReset { boot0 with rails := List.replicate 10 0 }).wf &&
      !(Instr.poolLoad ⟨[], [4096], [], true, [], true⟩).wf && !(Instr.poolLoad ⟨[], [], [256], true, [], true⟩).wf) = true := by decide

theorem test_wf_queue_entries_are_bounded :
    ((Instr.read sq0).wf && !(Instr.read { sq0 with cid := 2 ^ 16 }).wf && !(Instr.write { sq0 with nsid := 2 ^ 32 }).wf &&
      !(Instr.flush { sq0 with cdw10 := 2 ^ 32 }).wf && !(Instr.read { sq0 with sgl := [⟨.keyed, 2 ^ 64, 0, 0⟩] }).wf &&
      !(Instr.formatComplete (2 ^ 32)).wf) = true := by decide

theorem test_wf_packets_name_a_ring_and_a_slot :
    ((Instr.nop 3 255).wf && !(Instr.nop 4 0).wf && !(Instr.nop 0 256).wf && !(Instr.createPan 4 0 []).wf &&
      !(Instr.readSystemFlash 0 0 [256]).wf && !(Instr.ringDoorbell 0 0 [[]]).wf && !(Instr.ringEnable 4 0).wf) = true := by decide

theorem test_wf_transport_is_bounded :
    ((Instr.ackRx net0 0x10 0).wf && !(Instr.ackRx net0 (2 ^ 24) 0).wf && !(Instr.ackRx net0 0x10 (2 ^ 24)).wf &&
      !(Instr.cmReqRx { net0 with port := 64 } cm0).wf && !(Instr.cmReqRx { net0 with gid := [] } cm0).wf &&
      !(Instr.cmReqRx net0 { cm0 with mtu := 3 }).wf && !(Instr.cmReqRx net0 { cm0 with retry := 8 }).wf && !(Instr.rnrNakRx net0 0x10 0 32).wf &&
      !(Instr.pfcPauseRx 0 8 true).wf && !(Instr.sendRx net0 0x10 0 false true true (List.replicate 65536 0)).wf) = true := by
  decide +kernel

theorem test_wf_pair_messages_are_bounded :
    ((Instr.mirrorRx hdr []).wf && !(Instr.mirrorRx { hdr with seq := 2 ^ 32 } []).wf && !(Instr.pairAckRx 3 0).wf && !(Instr.drainTake 2).wf &&
      !(Instr.grantRequestRx hdr 2 0).wf && !(Instr.moveTimeout (2 ^ 16)).wf && !(Instr.iclLinkUp 17 6 0).wf && !(Instr.iclRetrain 4 16).wf &&
      !(Instr.helloRx (List.replicate 65536 0) true).wf) = true := by decide +kernel

theorem test_wf_units_of_the_block_are_bounded :
    (!(Instr.keyPageCommit 4096).wf && !(Instr.keyPageKeyWrite 0 17 0).wf && !(Instr.keySlotKeyWrite 0 34 0).wf && !(Instr.keySlotErase 256).wf &&
      !(Instr.alarmAssert 5 true).wf && !(Instr.engineCoreFault (2 ^ 24) true).wf && !(Instr.contextSaveDone 5 0).wf &&
      !(Instr.dieCommandTimeout 32 0).wf && !(Instr.rebuildPositionEnd 0 64).wf && !(Instr.harvestStart 2 0).wf && !(Instr.mediaPortUp 32 4 5 false).wf &&
      !(Instr.llcWayOffWrite 48 0).wf && !(Instr.dmaArm 64).wf && !(Instr.dmaWinCfgWrite 16 0).wf && !(Instr.sflErase 8).wf &&
      !(Instr.aenWindowExpiry 0 8 0).wf && !(Instr.powerDomainReady 96).wf && !(Instr.refclkLoss 12 true).wf && !(Instr.announceRx { ptp0 with port := 16 } (List.replicate 8 0) true).wf && !(Instr.announceRx ptp0 [] true).wf &&
      !(Instr.syncRx { ptp0 with mech := 2 } 0).wf &&
      !(Instr.referenceLost 256).wf && !(Instr.deadlineMissed 0 256 0).wf && !(Instr.railSample (List.replicate 65 0) 0).wf &&
      !(Instr.peerDelayTimer [(16, 0, true)]).wf && !(Instr.tempSample (List.replicate 65 0)).wf) = true := by decide

theorem test_no_word_spells_a_command : decodeTableWord 64 0x10 = none := by decide

/-! ### Worked examples of the spec -/

/-- 01_architecture.md R22, R23: the example of a die, and a core, a cluster and a domain. -/
theorem test_unit_ids : dieUnit 5 37 = 0x601425 ∧ unitId 4 310 = 0x400136 ∧ unitId 3 0x10 = 0x300010 ∧ unitId 9 0x4F = 0x90004F ∧
    fixedParent 0x400136 = 0x300010 := by decide

/-- 00_scope.md R10: the wrap of a 24-bit sequence. -/
theorem test_serial_numbers : serialAfter 24 0xFFFFFE 3 = true ∧ serialAfter 24 3 0xFFFFFE = false ∧ serialAfter 24 0 0x800000 = false := by decide

/-- 21_startup_security.md R501: the wait doubles from the third failure on. -/
theorem test_lock_minutes : lockMinutes 2 = 0 ∧ lockMinutes 3 = 1 ∧ lockMinutes 5 = 4 ∧ lockMinutes 14 = 1024 := by decide

/-- The check values of the two CRCs over the digits 1 to 9. -/
theorem test_crc_check_values : crc32 ((List.range 9).map fun i => BitVec.ofNat 8 (0x31 + i)) = 0xCBF43926 ∧
    crc32c ((List.range 9).map fun i => BitVec.ofNat 8 (0x31 + i)) = 0xE3069283 := by decide +kernel

/-! ### States and operands that meet the hypotheses of the statements -/

theorem witness_StepRunsTheFrontCommand : ({ up with pending := [.resetPin, .fwBeatTick] } : State).pending = .resetPin :: [.fwBeatTick] := by decide

theorem witness_StepIdlesOnEmptyQueue : State.reset.pending = [] := by decide

theorem witness_EveryStepKeepsSound : step State.reset = .next State.reset ∧ State.reset.Sound :=
  ⟨rfl, ⟨by decide, by decide, by decide, by decide, by decide, by decide, by decide, by decide⟩⟩

theorem witness_MemoryReadsBackWhatWasWritten :
    Memory.wf 0 [] = true ∧ Memory.wf 0xFF [(0, 1), (2 ^ 32 - 1, 0)] = true ∧ regsWfFrom 0 up.regs = true ∧
      (R.DMA_CH_SHADOW_SRC 63).width = 64 ∧ R.TIDE_CFG.addr ≠ (R.DMA_CH_SHADOW_SRC 63).addr := by decide +kernel

theorem witness_SequenceNumbersCompareModulo :
    (1 ≤ 24 ∧ 0xFFFFFF < 2 ^ 24 ∧ ((0 : Int) - 0xFFFFFF) % 2 ^ 24 = 1) ∧ (1 ≤ 1 ∧ ((1 : Int) - 0) % 2 ^ 1 = 2 ^ (1 - 1)) ∧
      ((0x800000 : Int) - 0) % 2 ^ 24 = 2 ^ (24 - 1) ∧ ((0x7FFFFF : Int) - 0) % 2 ^ 24 ≠ 2 ^ (24 - 1) := by decide

theorem witness_RegisterWriteActsByAccessType :
    (regAt R.CMP_CFG.addr = some R.CMP_CFG ∧ R.CMP_CFG.width = 32 ∧ up.meets 0 R.CMP_CFG.addr R.CMP_CFG.addr = true ∧
      R.CMP_CFG.addr % 4 = 0 ∧ ownRow R.CMP_CFG.addr = false ∧ up.writeLocked R.CMP_CFG.addr = false ∧ plainReg R.CMP_CFG = true ∧
      regsWfFrom 0 up.regs = true) ∧
    (let r := R.SFL_B_CMD 7
     regAt r.addr = some r ∧ r.width = 32 ∧ up.meets 0 r.addr r.addr = true ∧ r.addr % 4 = 0 ∧ ownRow r.addr = true) ∧
    (let r := R.DMA_CH_SHADOW_SRC 0
     regAt r.addr = some r ∧ r.width = 64 ∧ up.meets 0 r.addr r.addr = true ∧ r.addr % 8 = 0 ∧ ownRow r.addr = true) ∧
    (let r := R.CTL_RING_CMD_BASE 3
     regAt r.addr = some r ∧ r.width = 64 ∧ up.meets 4 (r.addr - 2 ^ 32) r.addr = true ∧ (r.addr - 2 ^ 32) % 8 = 0 ∧ ownRow r.addr = false ∧
      plainReg r = true) ∧
    (let r := R.MEM_HBM_SPLIT
     let s : State := { up with mem.lock := true }
     regAt r.addr = some r ∧ s.meets 0 r.addr r.addr = true ∧ ownRow r.addr = false ∧ s.writeLocked r.addr = true) := by decide +kernel

theorem witness_RegistersOf64BitsAreReadAndWrittenWhole :
    let r := R.CTL_RING_CMD_BASE 3
    let off := r.addr - 2 ^ 32
    regAt r.addr = some r ∧ r.width = 64 ∧ regAt (r.addr + 4) = none ∧ up.meets 4 off r.addr = true ∧ up.meets 4 (off + 4) (r.addr + 4) = true ∧
      off % 8 = 0 ∧ ownRow r.addr = false ∧ up.writeLocked r.addr = false ∧ plainReg r = true ∧ regsWfFrom 0 up.regs = true ∧
      findKey Prod.fst r.addr up.latch = none ∧ findKey Prod.fst r.addr up.lowPend = none ∧
      findKey Prod.fst r.addr ({ up with latch := [(r.addr, 7)] } : State).latch = some (r.addr, 7) ∧
      findKey Prod.fst r.addr ({ up with lowPend := [(r.addr, 7)] } : State).lowPend = some (r.addr, 7) := by decide +kernel

theorem witness_MisalignedAccessesAreRefused :
    busAllowed 2 4 = false ∧ busAllowed 4 8 = false ∧ busAllowed 0 16 = false ∧
    (let a := barAddr 0 R.TIDE_TIME.addr
     R.TIDE_TIME.addr % 8 = 0 ∧ regAt a = some R.TIDE_TIME ∧ R.TIDE_TIME.width = 64 ∧ up.gatedBy a = none ∧ up.undecoded a = false ∧
      ownRow R.TIDE_TIME.addr = false) ∧
    (let r := R.DMA_CH_SHADOW_SRC 0
     r.addr % 8 = 0 ∧ regAt (barAddr 0 r.addr) = some r ∧ r.width = 64 ∧ up.gatedBy r.addr = none ∧ up.undecoded r.addr = false ∧ ownRow r.addr = true) ∧
    (R.TIDE_CFG.addr % 8 = 0 ∧ ((regAt (barAddr 0 R.TIDE_CFG.addr)).map Reg.width).getD 32 = 32) := by decide +kernel

theorem witness_GatedRegistersReadZeroAndDropWrites :
    let s : State := { up with pwr.off := [3, 18, 19, 50, 51, 62] }
    (s.gatedBy 0x00A10000 = some 3 ∧ s.gatedBy 0x00A10004 = some 3 ∧ s.gatedBy 0x00A10F98 = some 18 ∧ s.gatedBy 0x00A10F9C = some 18) ∧
    (let a := (R.XPT_P_RX_PKT_CNT 15).addr
     a % 8 = 0 ∧ s.gatedBy a = some 18 ∧ s.gatedBy (a + 4) = some 18 ∧ regAt a = some (R.XPT_P_RX_PKT_CNT 15) ∧ (R.XPT_P_RX_PKT_CNT 15).width = 64) ∧
    (let a := (R.LLC_WAY_OFF 46).addr
     a % 8 = 0 ∧ s.gatedBy a = some 62 ∧ s.gatedBy (a + 4) = some 62 ∧ ((regAt a).map Reg.width) = some 32) ∧
    (s.gatedBy (R.LNK_MOD_PWR 0).addr = some 19 ∧ s.gatedBy (R.LNK_MOD_PWR 31).addr = some 50) ∧
    (s.gatedBy (R.LLC_WAY_OFF 0).addr = some 51 ∧ s.gatedBy (R.LLC_WAY_OFF 47).addr = some 62) ∧ gateOf R.TIDE_CFG.addr = none := by decide +kernel

theorem witness_PowerOnAndStartUp :
    poolReg R.TIDE_CFG.addr = false ∧ boot0.hbm % 16 = 15 ∧ ({ boot0 with hbm := 14 } : BootIn).hbm % 16 ≠ 15 ∧
    ({ State.reset with boot.cause := 0 }.evStart 0 true).calRow = none := by decide +kernel

theorem witness_ResetSourcesAskForAWarmReset :
    up.boot.resetReq = none ∧ 4 ≤ up.boot.stage ∧ up.boot.stage ≤ 6 ∧
      ({ up with boot.stage := 4, ctl.ready := false } : State).boot.stage = 4 ∧ ({ up with boot.resetReq := some 4 } : State).boot.resetReq.isSome = true := by
  decide

theorem witness_WarmAndHostResets :
    ({ up with pwr.dumping := true } : State).resetReady = false ∧ up.boot.resetReq = none ∧
    (let s : State := { up with boot.resetReq := some 1 }
     s.boot.resetReq = some 1 ∧ s.resetReady = true ∧ s.boot.stage ≠ 7) ∧
    alwaysOn R.XPT_CFG.addr = false ∧ poolReg R.XPT_CFG.addr = false ∧ alwaysOn R.BOOT_RCV_LEN.addr = true ∧
    (∀ c ∈ up.hq.cmds, ∀ q ∈ up.hq.ctxs, q.fabric = false → q.idx ≠ c.qctx) := by decide +kernel

/-- A journal row of one configuration record, that of a pool. -/
def poolRow : Bytes :=
  let h := [0, 0, 3, 0] ++ leBytes 2 1 ++ leBytes 2 1 ++ leBytes 12 0 ++ leBytes 2 0 ++ leBytes 2 1 ++ leBytes 4 0
  let b := slice Pool.reset.record 0 224
  List.replicate 64 0 ++ h ++ leBytes 4 (crc32c (h ++ b)) ++ b

/-- An entry of the own journal that is staged. -/
def ent1 : BEnt :=
  { id := 1, cmd := none, journal := 0, nsid := 1, recs := [], state := .staged, jseq := 1, time := 0, fua := false, deadline := false, host := false
    chain := [], sdeal := false, ord := false, placed := false }

theorem witness_FirmwareComesUpAndServesThePool :
    (let s : State := { State.reset with boot.stage := 4 }
     s.boot.stage = 4 ∧ s.ctl.ready = false ∧ s.pair.state = .down ∧ s.mem.popErr = false) ∧
    (let s : State := { State.reset with boot.stage := 4, mem.popErr := true }
     s.boot.stage = 4 ∧ s.ctl.ready = false ∧ s.mem.popErr = true) ∧
    (let s : State := { up with boot.stage := 5 }
     s.boot.stage = 5 ∧ s.ctl.ready = true ∧ s.pair.state = .solo ∧ s.pool.loaded = true ∧ s.unreleased = []) ∧
    (let p : PoolIn := ⟨[poolRow], [], [], true, [], true⟩
     let s (x : State) : State := { x with boot.stage := 5, pool.loaded := false }
     let t (x : State) : State :=
       { State.rebuildPool { s x with boot.stage := 5, brn.replaying := true, ftl.indexScan := p.scan } p with brn.expect := [] }
     let e : State := { paired with brn.ents := [ent1] }
     (s up).ctl.ready = true ∧ (s up).pair.state = .solo ∧ (t up).pool.loaded = true ∧ (t up).unreleased = [] ∧
       (s e).pair.state = .paired ∧ (t e).pool.loaded = true ∧ (t e).peerInService = true ∧ (t e).unreleased ≠ []) ∧
    (4 ≤ ({ up with boot.stage := 4 } : State).boot.stage ∧ up.boot.stage ≤ 6) ∧
    (({ up with boot.stage := 3 } : State).boot.stage < 4 ∧ 6 < ({ up with boot.stage := 7 } : State).boot.stage) := by decide +kernel

/-- Fabric time with its reference, in a state. -/
def timed (t : TideSt) : State :=
  { up with tide := { Tide.reset with
      state := t, refPtp := true, ref10m := true, refPps := true, time := 10 ^ 9, activePort := 0, master := some ⟨0, List.replicate 8 5⟩ } }

theorem witness_TheFabricTimeStateMachineFollowsItsTable :
    up.refOk = false ∧ (timed .locked).syncOk ptp0 = true ∧ (timed .locked).syncOk { ptp0 with sub := 1 } = false ∧
    ((timed .locked).ptpOk ptp0 = true ∧ (timed .locked).ptpPort 0 = true ∧ (timed .locked).ptpPort 15 = false ∧ up.tide.master = none ∧
      rankBetter (List.replicate 7 5 ++ [4]) (List.replicate 8 5) = true ∧ rankBetter (List.replicate 8 5) (List.replicate 8 5) = false ∧
      (timed .locked).srcMode = 0 ∧ ((timed .locked).wr R.TIDE_CFG 2).srcMode = 2) ∧
    ((timed .unqualified).refOk = true ∧ (timed .freerun).refOk = true) ∧
    (let s : State := { timed .acquiring with tide.goodEst := 15, tide.window := List.replicate 15 0 }
     s.refOk = true ∧ s.tide.state = .acquiring ∧ 15 ≤ s.tide.goodEst ∧ (s.measure 0).tide.window.length = 16 ∧ (s.measure 0).tide.est ≤ 250) ∧
    (let s : State := { timed .acquiring with tide.window := [0, 0, 0] }
     s.refOk = true ∧ s.tide.state = .acquiring ∧ (s.measure 0).tide.window.length < 16) ∧
    (let s : State := { timed .acquiring with tide.goodSpread := 15, tide.window := List.replicate 15 5000 }
     s.tide.slew = none ∧ s.tide.stepPend = none ∧ 15 ≤ s.tide.goodSpread ∧ (s.measure 5000).tide.window.length = 16 ∧
       spread (s.measure 5000).tide.window ≤ 250 ∧ 250 < (s.measure 5000).tide.est) ∧
    (let s : State := timed .locked
     s.refOk = true ∧ s.tide.state = .locked ∧ (s.measure 0).tide.est ≤ 2000 ∧ 2000 < (s.measure 9000).tide.est ∧ s.tide.badEst < 3 ∧
       3 ≤ ({ s with tide.badEst := 3 } : State).tide.badEst) ∧
    (let s : State := timed .holdover
     s.refOk = true ∧ s.tide.state = .holdover ∧ (2000 : Int).natAbs ≤ 2000 ∧ 2000 < (-2001 : Int).natAbs) ∧
    (up.tide.refPtp = false ∧ (timed .locked).tide.activePort = (timed .locked).fld R.TIDE_CFG 19 16) ∧
    ((timed .locked).refOk = true ∧ ({ timed .acquiring with tide.lockedOnce := true } : State).tide.lockedOnce = true ∧
      (timed .acquiring).tide.lockedOnce = false) ∧
    (let s : State := { timed .holdover with tide.holdE0 := 2001 }
     s.tide.state = .holdover ∧ 2000 < s.errEst) ∧ (timed .holdover).errEst ≤ 2000 := by decide +kernel

theorem witness_FabricTimeDrivesSlotsEventsAndTimers :
    ((timed .locked).tide.state ≠ .freerun ∧ (timed .locked).tide.lastPps ≠ (timed .locked).tide.time / 1000000000) ∧ up.tide.state = .freerun ∧
    (let s : State := { timed .locked with tide.slew := some (-3) }
     s.tide.slew.isSome = true ∧ s.tide.acqCorr = false ∧ ({ s with tide.acqCorr := true } : State).tide.acqCorr = true) ∧
    (let s : State := { timed .acquiring with tide.stepPend := some 5000 }
     s.tide.stepPend = some 5000 ∧ s.admitted = []) ∧
    (let t : Timed := ⟨10 ^ 9, 0, true, .replStart 1⟩
     let s : State := { timed .locked with tide.timed := [t] }
     firstTimed s.dueTimed = some t ∧ s.tide.state ≠ .freerun) ∧
    (let s : State := { timed .locked with ftl.hPending := some (125000, 700) }
     s.ftl.hPending = some (125000, 700) ∧ 125000 ≤ s.tide.time / 8000) ∧
    ((timed .locked).evr.lastRefill < (timed .locked).tide.time / 1000000000 ∧ (timed .locked).evr.drops = []) ∧
    (armOne 5 ([], 0) ⟨40000, 0, false, .replStart 1⟩ = ([⟨40000, 0, true, .replStart 1⟩], 1) ∧
      armOne 4 ([], 0) ⟨40000, 0, false, .replStart 1⟩ = ([⟨40000, 0, false, .replStart 1⟩], 0)) ∧
    (let p : EthPort := ⟨15, true, 400000, [], none, false, 0, []⟩
     let s : State := { up with xpt.ports := [p] }
     15 < 16 ∧ s.xpt.ports.filter (fun p => p.up && decide (p.port < 16)) = [s.eport 15] ∧ (s.eport 15).port = 15) ∧ up.domainOff (3 + 63 % 16) = false := by decide +kernel

theorem witness_RingsPostFetchAndReply :
    let run (r : Ring) : State := { up with ctl.rings := [Ring.reset, Ring.reset, Ring.reset, { r with state := .running }] }
    let p : RingReply := ⟨0, 7, 0, [], [1], true⟩
    ((run Ring.reset).ring 3).state = .running ∧ ((run Ring.reset).ring 3).held = [] ∧ 3 < (run Ring.reset).ctl.rings.length ∧
    (up.ring 0).state ≠ .running ∧ ((run { Ring.reset with fetched := [pk 0x01 []] }).ring 3).owned.contains 0 = true ∧
    (run Ring.reset).rplFull 3 = false ∧ (run { Ring.reset with rplTail := 255 }).rplFull 3 = true ∧
    ((run { Ring.reset with held := [p] }).ring 3).held = [p] ∧
      State.rplFull ((run { Ring.reset with held := [p] }).wrBus (R.CTL_RING_RPL_HEAD 3) (BitVec.ofNat 64 255)) 3 = false := by decide +kernel

theorem witness_RingsDrainBeforeTheyAreDisabled :
    let e := pk 0x01 []
    let drains (r : Ring) : State := { up with ctl.rings := [{ r with state := .draining }, Ring.reset, Ring.reset, Ring.reset] }
    0 < (up.got e).ctl.rings.length ∧ ¬((0 : Nat).testBit 30 = true ∧ 0 % 2048 = 0) ∧ (0 : Nat).testBit 31 = false ∧ (2 ^ 31 : Nat).testBit 31 = true ∧
      ((up.got e).ring 0).state = .running ∧
      ((drains Ring.reset).ring 0).state = .draining ∧ ((drains Ring.reset).ring 0).fetched = [] ∧ ((drains Ring.reset).ring 0).running = [] ∧
      ((drains Ring.reset).ring 0).held = [] ∧ ((drains Ring.reset).ring 0).posted = [] ∧ ((drains { Ring.reset with running := [e] }).ring 0).running ≠ [] ∧
      (up.ring 3).state = .disabled ∧ regsWfFrom 0 up.regs = true := by decide +kernel

theorem witness_ControlPacketsAreCheckedAndAnswered :
    let e := pk 0x01 []
    up.startable 0x01 0 0 = none ∧ (up.got e).startable 0x01 0 0 = some e ∧ (up.got e).runs 0x01 e = true ∧
    (let x := pkTo 0x01 5 []
     (up.got x).startable 0x01 0 0 = some x ∧ (up.got x).entryStatus x ≠ stOk) ∧
    (let x := pk 0x08 []
     let s : State := up.got x
     s.startable 0x08 0 0 = some x ∧ s.entryStatus x = stOk ∧ opcodeCfg 0x08 = true ∧
       ({ s with pair.state := .electing } : State).pair.state = .electing ∧ ({ s with pair.state := .fenced } : State).pair.state = .fenced) ∧
    ((up.got e).ring 0).running.any (fun x => x.slot == 0 && x.no == e.no) = false ∧
    (((up.got e).begun 0 0 e).ring 0).running.any (fun x => x.slot == 0 && x.no == e.no) = true ∧
    (let x := pk 0xA2 []
     let s : State := { up.got x with boot.sessionOpen := false }
     s.startable 0xA2 0 0 = some x ∧ ((opRow 0xA2).map fun o => (o.target.accepts x.target, o.session)) = some (true, true) ∧ unitValid x.target = true ∧ s.ust x.target = .online ∧
       s.boot.sessionOpen = false) ∧
    (let x := pkTo 0xA3 0x900002 []
     let s : State := { up.got x with med.units := [{ blankUnit 0x900002 with state := .failed }] }
     s.startable 0xA3 0 0 = some x ∧ ((opRow 0xA3).map fun o => (o.target.accepts x.target, o.session)) = some (true, false) ∧
       s.ust x.target = .failed) := by decide +kernel

theorem witness_RepliesAndReportsTouchOnlyTheRings : up.peerInService = false ∧ paired.peerInService = true := by decide

/-- A LIVE, persistent XTS key page that no offload job may use. -/
def mediaPage (n : Nat) : KeyPage :=
  { no := n, cfg := 0x41, state := .live, gen := 1, err := 0, key1 := List.replicate 32 1, key2 := List.replicate 32 2, salt := 0, next := 0, resEnd := 0, busy := false }

/-- A volume of ANA group 1. -/
def vol1 : Volume :=
  { nsid := 1, lbaf := 0, attached := true, ana := 1, homeKey := 5, domain := 0, nsze := 4096, mode := 0, flags := 0, clientAllow := 1, budget := 0
    maxInflight := 0, cgroup := 0 }

/-- A head whose pool holds some volumes. -/
def holds (vs : List Volume) : State :=
  { up with
    pool.volumes := vs, pool.groups := [⟨1, 0, 0, false, false⟩, ⟨2, 1, 1, false, false⟩], keys.pages := [mediaPage 0, mediaPage 5, mediaPage 4095] }

/-- A ROOT pan of one member. -/
def root1 : UnitD := { blankUnit 0x702000 with state := .online, scheme := 1, members := [⟨0x700000, false⟩], root := true }

theorem witness_PoolAndVolumePackets :
    (let e := pk 0x08 (leBytes 2 4095)
     let s : State := { (holds []).got e with pool.loaded := false, med.units := [root1] }
     s.runs 0x08 e = true ∧ e.zero 12 2 = true ∧ s.rootPan.isSome = true ∧ s.pool.loaded = false ∧ s.peerHasPool = false ∧ e.num 10 2 ≤ 4095 ∧
       (s.kpage 4095).mediaKey = true ∧ s.pair.state = .solo ∧ ((up.got e).runs 0x08 e = true ∧ (up.got e).rootPan.isNone = true)) ∧
    (let e := pk 0x45 (leBytes 4 65536 ++ [0, 1] ++ leBytes 2 1 ++ leBytes 2 5 ++ leBytes 8 4)
     let s : State := (holds []).got e
     s.runs 0x45 e = true ∧ s.ownsGroup 1 = true ∧ s.pool.loaded = true ∧ e.num 10 4 = 65536 ∧ s.vol? 65536 = none ∧ e.num 14 1 ≤ 1 ∧ e.num 15 1 ≤ 1 ∧
       e.num 18 2 = 5 ∧ (s.kpage 5).mediaKey = true ∧ e.num 20 8 = 4 ∧ s.moving 1 = false ∧ s.pool.volumes.length < 65536 ∧
       s.snap.gone.any (·.nsid == 65536) = false ∧ (s.group 1).owner = s.role ∧ s.ownsGroup 2 = false) ∧
    (let e := pk 0x46 (leBytes 4 1)
     let s (a : Bool) : State := (holds [{ vol1 with attached := a }]).got e
     (s true).runs 0x46 e = true ∧ (s true).vol? 1 = some vol1 ∧ (s true).ownsGroup 1 = true ∧ (s false).runs 0x46 e = true ∧ (s false).moving 1 = false ∧
       (s false).snap.sessions = [] ∧ (up.got e).runs 0x46 e = true ∧ up.vol? 1 = none) ∧
    (let e := pk 0x47 (leBytes 4 1 ++ [1])
     let s (a : Bool) : State := (holds [{ vol1 with attached := a }]).got e
     (s true).runs 0x47 e = true ∧ (s true).vol? 1 = some vol1 ∧ (s true).ownsGroup 1 = true ∧ e.num 14 1 = 1 ∧ e.zero 15 3 = true ∧ (s true).moving 1 = false ∧
       (s true).hq.cmds.any (fun c => c.nsid == 1) = false ∧ (s false).runs 0x47 e = true ∧ (up.got e).runs 0x47 e = true) := by decide +kernel

/-- An event record of severity 2. -/
def rec2 : EvRec := ⟨1, 0x02, 0x01, 2, 0, 1, 0, false, false, false, false, []⟩

theorem witness_EventsAreSequencedFoldedAndLimited :
    let s : State := { up with evr.awaiting := [rec2], evr.awaitBytes := 32 }
    (up.evr.frozen = false ∧ up.foldTarget = none ∧ evExempt 0x10 1 = true ∧ evExempt 0x00 5 = true ∧ evExempt 0x0F 4 = false ∧
      up.evr.awaitBytes + (evFill up.evr.pageFill 64 + 64) ≤ evLimit 1) ∧
    (up.fld (R.EVR_RATE 2) 15 0 ≠ 0 ∧ up.evr.allow[2]? = some (1999 + 1) ∧
      ({ up with evr.allow := List.replicate 21 0 } : State).evr.allow[2]? = some 0) ∧
    (s.foldTarget = some rec2 ∧ rec2.matches 0x02 0x01 2 0 [] = true ∧ rec2.rept < 0xFFFF) ∧
    (let l : EvRec := { rec2 with rept := 0xFFFF }
     ({ s with evr.awaiting := [l] } : State).foldTarget = some l ∧ 0xFFFF ≤ l.rept) ∧
    (({ up with evr.frozen := true } : State).reserveUsed + 64 ≤ 32768) ∧
    (let f : State := { up with evr.awaitBytes := 262144 }
     f.foldTarget = none ∧ evExempt 0x00 5 = true ∧ evLimit 5 < f.evr.awaitBytes + (evFill f.evr.pageFill 64 + 64)) := by decide +kernel

theorem witness_TheRecorderFlushesFreezesAndIsRead :
    let s : State := { up with evr.awaiting := [rec2, { rec2 with seq := 2 }], evr.awaitBytes := 64, evr.seq := 2 }
    s.evr.flushBytes < s.evr.awaitBytes ∧ ({ s with evr.flushing := true, evr.flushRecs := 1 } : State).evr.flushing = true ∧ s.evr.flushing = false ∧
    s.evr.frozen = false ∧ ({ s with evr.frozen := true } : State).evr.frozen = true ∧
    (let f : State := { s with evr.frozen := true }
     f.thaw.evr.nextPage % 128 = 0) ∧
    (let a : AenSlot := ⟨1, 2, 3, 0, true, false, true⟩
     ({ s with evr.aen := [a] } : State).evr.aen = [a] ∧ a.is 1 2 3 = true) ∧
    (let e (since len : Nat) : Entry := pk 0xA0 (leBytes 4 0 ++ leBytes 4 since ++ leBytes 4 len)
     let g (since len : Nat) : State := s.got (e since len)
     (g 0 65536).runs 0xA0 (e 0 65536) = true ∧ (e 0 65536).num 10 1 = 0 ∧ (e 0 65536).num 11 1 = 0 ∧ (e 0 65536).zero 12 2 = true ∧
       64 ≤ (e 0 64).num 18 4 ∧ (e 0 65536).num 18 4 ≤ 65536 ∧ s.bankBusy 4 = false ∧ s.bankBusy 5 = false ∧
       (g 1 64).runs 0xA0 (e 1 64) = true ∧ (s.evr.area.map Prod.snd ++ s.evr.awaiting).head? = some rec2 ∧
       serialAfter 32 ((e 0 64).num 14 4) rec2.seq = true ∧ serialAfter 32 ((e 1 64).num 14 4) rec2.seq = false ∧
       (evTake 65536 (s.evr.awaiting.filter fun r => !serialAfter 32 r.seq 1)).head? = some rec2) ∧
    (let e (v : Nat) : Entry := pk 0xA1 (leBytes 4 v)
     (s.got (e 1)).runs 0xA1 (e 1) = true ∧ (s.got (e 0)).runs 0xA1 (e 0) = true ∧ (e 1).zero 11 3 = true ∧ (e 1).num 10 1 = 1 ∧ (e 0).num 10 1 = 0) ∧
    (let e := pk 0xA2 []
     (s.got e).runs 0xA2 e = true ∧ s.boot.scope.testBit 1 = true ∧ s.evr.slices.length < 64 ∧
       ({ s with boot.scope := 1 } : State).boot.scope.testBit 1 = false ∧
       64 ≤ ({ s with evr.slices := List.replicate 64 (0, []) } : State).evr.slices.length) := by decide +kernel

/-- A head whose bank 0 points at page 64 of the system flash. -/
def sfl64 : State := up.setFld (R.SFL_B_ADDR 0) 31 12 64

theorem witness_SystemFlashProgramsErasesAndReads :
    (0 < 8 ∧ sfl64.halted = false ∧ sfl64.sflRefuse 0 1 = 0 ∧ sfl64.sflRefuse 0 2 = 0 ∧ up.sflRefuse 0 1 ≠ 0 ∧ up.sflRefuse 7 2 ≠ 0 ∧
      ({ up with boot.sessionOpen := false } : State).boot.sessionOpen = false ∧ up.boot.sessionOpen = true ∧ up.boot.scope.testBit 0 = true ∧
      sfl64.fld (R.SFL_B_ADDR 0) 31 12 = 64 ∧ 64 / 0x20000 = 0 ∧ sflReserved 64 = false ∧ sfl64.bankBusy 0 = false ∧
      ({ sfl64 with sfl.ops := [⟨0, 1, 64, []⟩] } : State).bankBusy 0 = true) ∧
    (let s (n : Nat) : State := { up with sfl.ops := [⟨7, n, 64, []⟩] }
     (s 1).sfl.ops.find? (fun o => o.bank == 7) = some ⟨7, 1, 64, []⟩ ∧ (s 2).sfl.ops.find? (fun o => o.bank == 7) = some ⟨7, 2, 64, []⟩ ∧
       (s 1).boot.resetReq = none ∧ findKey Prod.fst (64 / 64) (s 1).sfl.progFails = none) ∧
    (4095 < 4096 ∧ Memory.wf 0xFF up.sfl.mem = true ∧ 4095 / 4096 ≠ 1 ∧ 262144 / 262144 = 1) ∧
    (0x03100000 ≤ 0x031FFFF8 ∧ 0x031FFFF8 + 8 ≤ 0x03200000 ∧ 0x031FFFF8 % 8 = 0 ∧ up.bankBusy (bankOf 0xFFFF8) = false ∧ sflKeys (0xFFFF8 / 4096) = true ∧
      sflKeys 0 = false ∧ ({ up with sfl.ops := [⟨0, 1, 64, []⟩] } : State).bankBusy (bankOf 0) = true) ∧
    (let e (a l : Nat) : Entry := pk 0xD0 (leBytes 4 a ++ leBytes 4 l)
     let s (a l : Nat) : State := up.got (e a l)
     (s 0 0).runs 0xD0 (e 0 0) = true ∧ (e 0 0).num 14 4 < 4 ∧ (s 0 65536).runs 0xD0 (e 0 65536) = true ∧
       ¬(65536 < 4 ∨ 65536 > 65536 ∨ 65536 % 4 ≠ 0 ∨ 0 + 65536 > 2 ^ 32) ∧ sflKeys 0x40 = true ∧ sflReserved 15 = false ∧ sflKeys 15 = false) := by
  decide +kernel

theorem witness_MemoryErrorsAndCacheWays :
    (143 * 2 ^ 30 < 144 * 2 ^ 30 ∧ unitClass 0x800000 = 8 ∧ (up.areaOf 1 0).holds (.whole 0 1) = true ∧
      (up.areaOf 2 0).holds (.context 0) = true ∧ (up.areaOf 2 (4 * 2 ^ 30)).holds .changedPage = true ∧ (up.areaOf 2 (4 * 2 ^ 30)).holds .cleanPage = true ∧
      (up.areaOf 1 (38 * 2 ^ 30)).holds .landing = true) ∧
    (∃ a, a < up.mem.ddrGib * 2 ^ 30 ∧ (up.areaOf 2 a).holds (.whole 0 1) = true) ∧ paired.pair.state = .paired ∧
    (47 < 48 ∧ up.halted = false ∧ up.gatedBy (R.LLC_WAY_OFF 47).addr = none ∧ 2 % 16 / 2 * 2 ≠ (up.llcSlice 47).off ∧
      1 % 16 / 2 * 2 = (up.llcSlice 47).off ∧ (up.llcSlice 47).busy = false ∧
      ({ up with pwr.off := [62] } : State).gatedBy (R.LLC_WAY_OFF 47).addr = some 62) ∧
    (({ up with mem.slices := [⟨47, 2, 4, true⟩] } : State).llcSlice 47).busy = true := by
  refine ⟨by decide +kernel, ⟨0, by decide +kernel⟩, by decide +kernel, by decide +kernel, by decide +kernel⟩

/-- A line of the last-level cache, valid or being filled, that agrees with memory. -/
def llc1 (f : Option LlcFill) : Llc := { Llc.reset with lines := [⟨0, 7, 0, 3, 0, 1, 0, f⟩] }

theorem witness_TheLastLevelCacheAgreesWithMemory :
    (∀ f, (llc1 f).Agrees) ∧
    ((llc1 none).line? 0 8 = none ∧ (llc1 none).line? 0 7 = some ⟨0, 7, 0, 3, 0, 1, 0, none⟩ ∧
      (llc1 (some ⟨3, [2], 1⟩)).line? 0 7 = some ⟨0, 7, 0, 3, 0, 1, 0, some ⟨3, [2], 1⟩⟩) ∧
    (up.mem.rehash = false ∧ ({ up with mem.rehash := true } : State).mem.rehash = true) ∧
    (llcVictim (up.llcSlice 47).ways [] = (some 0, []) ∧
      (∃ aged, llcVictim [0] [⟨0, 7, 0, 3, 0, 1, 0, none⟩] = (some 0, aged) ∧ ([0].find? fun w => [(⟨0, 7, 0, 3, 0, 1, 0, none⟩ : LlcLine)].all fun x => x.way != w) = none)) := by
  refine ⟨fun f => ⟨by simp [llc1], by simp [llc1], ?_⟩, by decide +kernel, by decide +kernel, by decide +kernel, _, rfl, by decide⟩
  intro x hx _
  simp only [llc1, List.mem_singleton] at hx
  subst hx
  rfl

/-- A transfer of 256 bytes on channel 63, from and to the memories that MODE names. -/
def xfer (mode : Nat) : DmaXfer := ⟨63, 0, 4096, 256, mode, 256, 0, [], false⟩

theorem witness_DmaChannelsArmMoveAndEnd :
    let s (mode : Nat) : State := { up with dma := [xfer mode] }
    (63 < 64 ∧ up.halted = false ∧ (up.dmaPut 63 5 true).dmaBit 63 5 = true ∧ up.dmaBit 63 5 = false ∧ 0x20 ≤ 0x34 ∧ 0x34 ≤ 0x37 ∧ 0x34 % 4 = 0) ∧
    (up.xfer? 63 = none ∧ (s 0).xfer? 63 = some (xfer 0) ∧ (xfer 0).open_ 0 = true ∧ (xfer 1).open_ 0 = true) ∧
    (bits (xfer 0).mode 1 0 = 0 ∧ bits (xfer 1).mode 1 0 = 1 ∧ bits (xfer 2).mode 1 0 = 2 ∧ bits (xfer 3).mode 1 0 = 3 ∧ bits (xfer 12).mode 3 2 = 3) ∧
    (up.poisoned 0 0 256 = false ∧ up.poisoned 1 0 256 = false ∧ ({ up with mem.poison := [(0, 0)] } : State).poisoned 0 0 256 = true ∧
      ({ up with mem.poison := [(1, 224)] } : State).poisoned 1 0 256 = true) ∧
    ((4 : Nat).testBit 2 = true ∧ 15 < 16 ∧ (up.rd (R.DMA_WIN_CFG 15)).toNat.testBit 31 = false ∧
      ((up.setFld (R.DMA_WIN_CFG 15) 31 31 1).rd (R.DMA_WIN_CFG 15)).toNat.testBit 31 = true) := by decide +kernel

theorem witness_PeerWindowsPlaceAndAnswer :
    let b (len off : Nat) (d : Bytes) : Bytes := leBytes 2 0 ++ leBytes 2 15 ++ leBytes 4 len ++ leBytes 8 off ++ d
    let w : State := (paired.setFld (R.DMA_WIN_CFG 15) 19 0 1).setFld (R.DMA_WIN_CFG 15) 31 31 1
    (1 ≤ 1 ∧ Memory.wf 0 up.mem.hbm = true ∧ Memory.wf 0 up.mem.ddr = true ∧ paired.nextOn 0 hdr = true ∧
      paired.whole 0 hdr (b 4 8 [1, 2]) = b 4 8 [1, 2] ∧ leAt (b 4 8 [1, 2]) 2 1 = 15 ∧ leAt (b 4 8 [1, 2]) 8 8 = 8 ∧ leAt (b 4 8 [1, 2]) 4 4 = 4) ∧
    (paired.taken 0 hdr).winAddr 15 8 2 = none ∧
    (w.wr (R.DMA_WIN_BASE 15) 0x980000000).winAddr 15 4092 4 = some (0, 0x980000000 + 4092) ∧
      (State.taken (w.wr (R.DMA_WIN_BASE 15) 0x980000000) 0 hdr).winAddr 15 8 2 = some (0, 0x980000008) ∧ w.poisoned 0 0x980000008 4 = false ∧
    (let x : DmaXfer := { xfer 3 with src := 15 * 2 ^ 60 }
     (State.taken { paired with dma := [x] } 0 hdr).dma.find? (fun x => x.awaits 15 0 true) = some x ∧ winOff x.src 15 0 = some 0 ∧
       (State.taken { paired with dma := [x] } 0 hdr).dma.find? (fun x => x.awaits 15 0 false) = some x) ∧
    (let cfg := (w.rd (R.DMA_WIN_CFG 15)).toNat
     cfg.testBit 31 = true ∧ 4092 + 4 ≤ bits cfg 19 0 * 4096 ∧ 4092 + 5 > bits cfg 19 0 * 4096 ∧
       ((up.rd (R.DMA_WIN_CFG 15)).toNat).testBit 31 = false) := by decide +kernel

/-- The admin and the I/O queue context of a host, and of a client. -/
def ctx (i : Nat) (k : QKind) (ctrl qid : Nat) : QCtx :=
  { idx := i, kind := k, ctrl := ctrl, qid := qid, size := 16, sqBase := 0, cqBase := 0, vec := 1, qp := i, sqTail := 0, cqHead := 0, cqTail := 0
    deleting := none, sqHead := 0, phase := true, inv := [] }

/-- A connected queue pair of a client. -/
def qp (i : Nat) : Qp := { newQp i 0 7 4096 16 14 7 7 16 400000 false 0 none with st := .connected }

/-- A controller. -/
def ctl1 (host : Bool) : Controller := { id := 1, host := host, props := [], feats := [(7, 3)], aers := [], backlog := [], kato := false }

/-- A head with volume 1, a controller and the queue contexts 0 (admin) and 1 (I/O) of a client or of a host. -/
def served (host : Bool) : State :=
  { holds [vol1] with
    hq.ctxs := [ctx 0 (if host then .hostAdmin else .fabAdmin) 1 0, ctx 1 (if host then .hostIo else .fabIo) 1 1], hq.ctrls := [ctl1 host]
    xpt.qps := if host then [] else [qp 0, qp 1] }

/-- An I/O command in flight on queue context 1. -/
def cmd1 : Cmd :=
  { id := 9, qctx := 1, cid := 4, opc := 2, nsid := 1, slba := 0, nlb := 4, fua := false, ord := false, sdeal := false, deac := false, stage := .lockWait
    ranges := [], locked := false, deadline := none, waits := [], entries := [], host := false, bytes := 0, need := 0, seqNo := 9, sgl := [], hostData := []
    got := [], missed := none, bookEnd := 0, stall := 0, stallOn := [], pi := 0, tag := 0 }

/-- An entry of a command in the brine, with its sequence. -/
def ent9 : BEnt := { ent1 with id := 3, cmd := some 9, state := .loc, jseq := 5 }

theorem witness_DeadlinesAndAdmission :
    (let c : Cmd := { cmd1 with deadline := some 8000 }
     let s (t : Nat) : State := { served false with hq.cmds := [c], tide.time := t }
     (s 0).io? 9 = some c ∧ 8000 * (s 0).slot < 8000 ∧ 8000 ≤ 8000 * (s 8000).slot ∧ c.missed = none ∧ (s 8000).inJournal 9 = false ∧
       ({ s 8000 with brn.ents := [ent9] } : State).inJournal 9 = true ∧ (s 8000).missFits c 7 13 = true ∧ (s 8000).missFits c 7 14 = false) ∧
    (let e (at_ base urgent : Nat) : Entry := pk 0x5A (leBytes 8 at_ ++ leBytes 2 base ++ leBytes 2 urgent)
     let s (base urgent : Nat) (t : TideSt) : State := { (timed t).got (e (2 * 8000) base urgent) with tide.time := 0 }
     (s 99 200 .locked).runs 0x5A (e 16000 99 200) = true ∧ (e 16000 99 200).num 18 2 < 100 ∧ (s 100 100 .locked).runs 0x5A (e 16000 100 100) = true ∧
       (e 16000 100 100).zero 22 4 = true ∧ (e 16000 100 100).num 20 2 * 256 < 8000 * (s 100 100 .locked).dieShare ∧
       8000 * (s 100 65535 .locked).dieShare ≤ (e 16000 100 65535).num 20 2 * 256 ∧ (s 100 100 .locked).ftl.hPending = none ∧
       (s 100 100 .locked).tide.timed = [] ∧ (s 100 100 .freerun).tide.state = .freerun ∧ (s 100 100 .locked).tide.state ≠ .freerun ∧
       (s 100 100 .locked).slot + 2 ≤ (e 16000 100 100).num 10 8 / 8000 ∧ (e 15999 100 100).num 10 8 / 8000 < (s 100 100 .locked).slot + 2) ∧
    (let e (m : Nat) : Entry := pk 0x58 (leBytes 4 1 ++ leBytes 1 m ++ leBytes 1 0 ++ leBytes 2 4096 ++ leBytes 4 0 ++ leBytes 4 262144)
     let s (v : Volume) (m : Nat) : State := (holds [v]).got (e m)
     (s vol1 0).runs 0x58 (e 0) = true ∧ (s vol1 0).vol? ((e 0).num 10 4) = some vol1 ∧ (s vol1 0).ownsGroup 1 = true ∧ (e 0).num 15 1 ≤ 1 ∧
       (e 0).num 16 2 ≤ 4096 ∧ (e 0).num 22 4 ≤ 262144 ∧ (e 0).zero 26 8 = true ∧ (s vol1 0).moving 1 = false ∧ (e 1).num 14 1 = 1 ∧ 1 < (e 2).num 14 1 ∧
       (s { vol1 with lbaf := 1 } 1).runs 0x58 (e 1) = true ∧ (s { vol1 with mode := 1 } 1).runs 0x58 (e 1) = true ∧ (s vol1 1).runs 0x58 (e 1) = true ∧
       (s vol1 1).deadlineVols.length < 16384 ∧ (s vol1 1).mapFits vol1 = true ∧
       ({ s vol1 1 with mem.hbmSplit := 0, mem.ddrGib := 4, ftl.maps := [⟨1, none, [(0, 0)]⟩] } : State).mapFits vol1 = false ∧ vol1.lbaf ≠ 1 ∧
       (s { vol1 with ana := 2 } 0).runs 0x58 (e 0) = true ∧ (s { vol1 with ana := 2 } 0).ownsGroup 2 = false) ∧
    (let e := pk 0x59 (leBytes 4 1)
     ((holds [vol1]).got e).runs 0x59 e = true ∧ ((holds [vol1]).got e).vol? (e.num 10 4) = some vol1) := by decide +kernel

theorem witness_AdminCommandsAnswer :
    let f := served false
    let h := served true
    let q := ctx 0 .fabAdmin 1 0
    (f.admits sq0 true true q = true ∧ h.admits sq0 true true (ctx 0 .hostAdmin 1 0) = true ∧ bits 0xC1 7 0 ≠ 2 ∧ (0x80C1 : Nat).testBit 15 = true ∧
      (f.logPage 0xC1 0 0 4).isSome = true ∧ f.vol? 1 = some vol1 ∧ vol1.attached = true ∧ bits 1 7 0 = 1 ∧
      f.hq.ctxs.find? (fun x => x.ctrl == 1 && x.qid == 2) = none ∧ f.hq.ctxs.find? (fun x => x.ctrl == 1 && x.qid == 1) = some (ctx 1 .fabIo 1 1) ∧
      ({ f with hq.cmds := [cmd1] } : State).hq.cmds.find? (fun c => c.qctx == 1 && c.cid == 4 && c.early) = some cmd1 ∧ f.ctrlOf q = some (ctl1 false) ∧
      findKey Prod.fst (bits 7 7 0) (ctl1 false).feats = some (7, 3) ∧ (ctl1 false).backlog = []) ∧
    f.admits sq0 true false q = true ∧
    (f.qctx? 1 = some (ctx 1 .fabIo 1 1) ∧ f.qctx? 0 = some q ∧ h.qctx? 0 = some (ctx 0 .hostAdmin 1 0) ∧ h.qctx? 1 = some (ctx 1 .hostIo 1 1) ∧
      f.qpUp 0 = true ∧ f.qpUp 1 = true ∧ (ctx 1 .hostIo 1 1).fabric = false ∧ f.hq.san.state ≠ .running ∧
      ({ f with hq.san.state := .running } : State).hq.san.state = .running ∧ ({ f with xpt.qps := [] } : State).qp? 0 = none ∧
      (ctl1 false).id = 1 ∧ (let c : Controller := { ctl1 false with backlog := [(0, 1, 2)] }
        ({ f with hq.ctrls := [c] } : State).ctrlOf q = some c)) ∧
    (let p := qp 2
     let e : Sqe := { sq0 with q := 2, cdw11 := 31, data := List.replicate 16 0 ++ leBytes 2 0xFFFF }
     let s : State := { f with xpt.qps := [p] }
     s.qp? e.q = some p ∧ s.qctx? e.q = none ∧ p.st = .connected ∧ p.priv = false ∧ e.q < 1048576 ∧ s.hq.ctxs.length < 1048576 ∧ s.fld R.HQ_CFG 0 0 = 0 ∧
       (s.setFld R.HQ_CFG 0 0 1).fld R.HQ_CFG 0 0 ≠ 0 ∧ bits e.cdw10 31 16 = 0 ∧ leAt e.data 16 2 = 0xFFFF ∧ bits e.cdw11 15 0 < 32 ∧
       countOf (fun c => !c.host) s.hq.ctrls < 16384 ∧
       (let i : Sqe := { e with cdw10 := 2 * 65536, data := List.replicate 16 0 ++ leBytes 2 1 }
        bits i.cdw10 31 16 = 2 ∧ findKey Controller.id (leAt i.data 16 2) s.hq.ctrls = some (ctl1 false) ∧ (ctl1 false).host = false ∧
          s.hq.ctxs.any (fun x => x.ctrl == 1 && x.qid == bits i.cdw10 31 16) = false)) := by decide +kernel

theorem witness_FormatAndSanitize :
    let h := served true
    let q := ctx 0 .hostAdmin 1 0
    let e : Sqe := { sq0 with nsid := 1 }
    let san (x : SanState) (fm ause : Bool) : State := { h with hq.san := { Sanitize.reset with state := x, failMode := fm, ause := ause } }
    (h.admits e false true q = true ∧ h.vol? 1 = some vol1 ∧ h.hq.san.state ≠ .running ∧ (san .running false false).hq.san.state = .running ∧
      h.hq.formats.any (·.nsid == 1) = false ∧ anaStatus (h.anaState 1) = none ∧ bits (0x400 : Nat) 11 9 = 2 ∧ 2 < bits (0x600 : Nat) 11 9 ∧
      bits (1 : Nat) 3 0 = 1) ∧
    (let f : FormatRec := ⟨1, 0, 0, none, true⟩
     let s : State := { h with hq.formats := [f] }
     s.hq.formats.find? (·.nsid == 1) = some f ∧ s.vol? 1 = some vol1 ∧ s.hq.cmds.any (fun c => c.nsid == 1) = false ∧
       s.brn.ents.any (fun x => x.nsid == 1 && x.state != .released) = false ∧ s.formatDrained f vol1 = true ∧
       s.formatDrained { f with staged := false } vol1 = false ∧ s.ownsGroup 1 = true ∧ s.ownsGroup 2 = false ∧
       ({ s with hq.cmds := [cmd1] } : State).hq.cmds.any (fun c => c.nsid == 1) = true ∧ s.hq.formats.any (·.nsid == 1) = true) ∧
    ((0 : Nat).testBit 9 = false ∧ bits (4 : Nat) 2 0 = 4 ∧ bits (2 : Nat) 2 0 = 2 ∧ bits (1 : Nat) 2 0 = 1 ∧ bits (7 : Nat) 2 0 = 7 ∧
      (san .failed true true).hq.san.failMode = true ∧ (san .failed true false).hq.san.ause = false) ∧
    (let s : State := { san .running false false with hq.san.prog := 65279 }
     let b (issued : Bool) : State := { s with hq.san.act := 2, hq.san.issued := issued }
     s.hq.san.state = .running ∧ s.hq.san.peer = false ∧ s.admitted = [] ∧ s.hq.san.prog < 65280 ∧ s.hq.san.act ≠ 2 ∧ s.hq.san.dieFailed = false ∧
       (b false).hq.san.issued = false ∧ (b true).sanErased = true ∧
       ({ b true with lnk.cmds := [⟨0, 0, 0, 0x03, 0, [], [], .sanErase, false, false, [], false, false⟩] } : State).sanErased = false ∧
       ({ s with hq.san.dieFailed := true } : State).hq.san.dieFailed = true) := by decide +kernel

theorem witness_IoCommandsAreCheckedOrderedAndRun :
    let s := served false
    let q := ctx 1 .fabIo 1 1
    let e : Sqe := { sq0 with q := 1, nsid := 1, cdw12 := 3, sgl := [⟨.keyed, 0, 16384, 0⟩] }
    let u := s.ioTaken e
    let rd (s : State) (e : Sqe) : Cmd := { (s.ioBase e q 2).oneRun with fua := false }
    let wrt (s : State) (e : Sqe) : Cmd := { (s.ioBase e q 1).oneRun with need := (s.ioBase e q 1).nlb * s.blockBytes e.nsid }
    (s.takes e q = true ∧ u.ioStatus e (rd s e) ⟨true, false, true, false⟩ = none ∧ u.ioStatus e (wrt s e) ⟨true, true, true, false⟩ = none ∧
      u.ioStatus { e with nsid := 2 } (rd s { e with nsid := 2 }) ⟨true, false, true, false⟩ = some (0, 0x0B) ∧
      u.ioStatus { e with nsid := 2 } (wrt s { e with nsid := 2 }) ⟨true, true, true, false⟩ = some (0, 0x0B) ∧
      u.ioStatus { e with sgl := [] } (wrt s { e with sgl := [] }) ⟨true, true, true, false⟩ = some (0, 0x0F) ∧ e.cdw2 + e.cdw3 * 2 ^ 32 = 0 ∧
      u.lbafOf 1 = 0 ∧ u.admitOk = false ∧
      u.ioStatus e { (s.ioBase e q 8).oneRun with deac := false } ⟨false, true, true, false⟩ = none ∧
      u.ioStatus e { (s.ioBase e q 0x0C).oneRun with fua := false } ⟨false, false, false, false⟩ = none) ∧
    (let d : Sqe := { sq0 with q := 1, nsid := 1, cdw11 := 4, data := leBytes 4 0 ++ leBytes 4 8 ++ leBytes 8 0 }
     s.takes d q = true ∧ (s.ioTaken d).ioStatus d { s.ioBase d q 9 with
       slba := 0, nlb := 0, fua := false, sdeal := false, waits := [(0, 8)], ranges := [grainRun 0 8] } ⟨false, false, true, true⟩ = none) ∧
    (s.queue? 1 = some q ∧ s.queue? 0 = some (ctx 0 .fabAdmin 1 0) ∧ s.serving = true ∧ ({ s with pwr.critical := true } : State).serving = false ∧
      ({ s with pwr.critical := true } : State).queue? 1 = some q) ∧
    (cmd1.locked = false ∧ (s.putIo cmd1).ordHeld cmd1 = false ∧ s.mayLock cmd1 = true ∧
      (let o : Cmd := { cmd1 with id := 1, seqNo := 1, ord := true }
       (({ s with hq.cmds := [o] } : State).putIo { cmd1 with stage := .ordWait }).ordHeld { cmd1 with stage := .ordWait } = true)) ∧
    (({ s with hq.cmds := [cmd1] } : State).io? 9 = some cmd1 ∧ cmd1.stage = .lockWait ∧ ({ s with hq.cmds := [cmd1] } : State).mayLock cmd1 = true ∧
      (let o : Cmd := { cmd1 with id := 1, seqNo := 1, opc := 1, locked := true, ranges := [(0, 0)] }
       let c : Cmd := { cmd1 with ranges := [(0, 0)] }
       let x : State := { s with hq.cmds := [o, c] }
       x.mayLock c = false ∧ x.lockHolders c ≠ [] ∧
         (let w : Cmd := { cmd1 with opc := 1, ranges := [(0, 0)] }
          let z : State := s.setFld R.HQ_LOCK_CFG 15 0 32768
          z.mayLock w = false ∧ z.lockHolders w = []))) ∧
    (let f : Sqe := { sq0 with q := 1, nsid := 1 }
     let t := (s.takeCmd f).bump R.HQ_CMD_CNT
     s.takes f q = true ∧ t.flushStatus f = none ∧ t.flushStatus { f with cdw13 := 256 } = some (0, 2) ∧ t.vol? 1 = some vol1 ∧
       t.flushMarks 1 = [(0, (s.journal 0).jseq)]) ∧
    (let j : Journal := { s.journal 0 with jseq := 5, durable := 4 }
     (s.putJournal j).flushMarks 1 = [(0, 5)] ∧ ((s.putJournal j).journal 0).durable < 5) ∧
    (let f : FlushWait := ⟨9, [(0, 0)]⟩
     let g : FlushWait := ⟨9, [(0, 1)]⟩
     let c : Cmd := { cmd1 with opc := 0, stage := .flushWait, waits := [(0, 1)] }
     ({ s with brn.flushes := [f], hq.cmds := [c] } : State).brn.flushes.find? (·.cmd == 9) = some f ∧ ({ s with hq.cmds := [c] } : State).io? 9 = some c ∧
       (f.marks.all fun m => decide ((s.journal m.1).durable ≥ m.2)) = true ∧ (g.marks.all fun m => decide ((s.journal m.1).durable ≥ m.2)) = false) := by
  decide +kernel

theorem witness_HostQueuesAreCreatedRungAndDeleted :
    (let e (k size : Nat) : Entry := pk 0x40 ([BitVec.ofNat 8 k, 0] ++ leBytes 4 size ++ leBytes 8 4096 ++ leBytes 8 4096 ++ leBytes 2 2047)
     let s (k size : Nat) : State := (served true).got (e k size)
     (s 1 65536).runs 0x40 (e 1 65536) = true ∧ (e 1 65536).num 10 1 = 1 ∧ (e 1 65536).zero 11 1 = true ∧ (e 1 65536).num 12 4 = 65536 ∧
       (e 1 65536).num 16 8 % 4096 = 0 ∧ (e 1 65536).num 24 8 % 4096 = 0 ∧ (e 1 65536).num 32 2 = 2047 ∧ (e 1 65536).zero 34 2 = true ∧
       ¬((e 0 4097).num 12 4 ≤ (if (e 0 4097).num 10 1 = 0 then 4096 else 65536)) ∧ (s 0 4096).runs 0x40 (e 0 4096) = true ∧
       (s 0 4096).fld R.HQ_CFG 1 1 = 0 ∧ ((s 0 4096).setFld R.HQ_CFG 1 1 1).fld R.HQ_CFG 1 1 ≠ 0 ∧
       (let z := (s 1 65536).setFld R.HQ_CFG 1 1 1
        z.runs 0x40 (e 1 65536) = true ∧ z.fld R.HQ_CFG 1 1 ≠ 0 ∧ z.freeCtx < 1048576 ∧ z.hq.ctrls.any (·.host) = true) ∧
       (s 0 4096).hq.ctxs.any (fun q => q.kind == .hostAdmin) = true ∧ (s 1 2).freeCtx < 1048576 ∧ (s 1 2).hq.ctrls.any (·.host) = true ∧
       ({ s 0 4096 with hq.ctxs := [] } : State).hq.ctxs.any (fun q => q.kind == .hostAdmin) = false) ∧
    (let e (i : Nat) : Entry := pk 0x41 (leBytes 4 i)
     let s (h : Bool) (i : Nat) : State := (served h).got (e i)
     (s true 1).runs 0x41 (e 1) = true ∧ (s true 1).qctx? ((e 1).num 10 4) = some (ctx 1 .hostIo 1 1) ∧ (s true 0).runs 0x41 (e 0) = true ∧
       (s true 0).qctx? ((e 0).num 10 4) = some (ctx 0 .hostAdmin 1 0) ∧ (s true 0).hq.ctxs.any (fun x => x.kind == .hostIo) = true ∧
       (s false 1).qctx? ((e 1).num 10 4) = some (ctx 1 .fabIo 1 1) ∧ (ctx 1 .fabIo 1 1).fabric = true ∧
       (s true 1).hq.cmds.filter (fun c => c.qctx == 1 && c.early) = [] ∧ (ctx 1 .hostIo 1 1).deleting = none ∧
       (let d : QCtx := { ctx 1 .hostIo 1 1 with deleting := some (packetRef 0 0 (e 1)) }
        ({ s true 1 with hq.ctxs := [d] } : State).qctx? 1 = some d ∧ d.deleting.isSome = true) ∧
       ({ s true 0 with hq.ctxs := [ctx 0 .hostAdmin 1 0] } : State).hq.ctxs.any (fun x => x.kind == .hostIo) = false) ∧
    (8388600 % 8 = 0 ∧ 8388600 < 8388608 ∧ (served true).qctx? (8388600 / 8) = none ∧ (served true).qctx? (8 / 8) = some (ctx 1 .hostIo 1 1) ∧
      (ctx 1 .hostIo 1 1).fabric = false ∧ (ctx 1 .hostIo 1 1).deleting = none ∧ (served false).qctx? (8 / 8) = some (ctx 1 .fabIo 1 1) ∧
      (ctx 1 .fabIo 1 1).fabric = true ∧ (65536 + 16).testBit 16 = true ∧ (ctx 1 .hostIo 1 1).size ≤ bits (65536 + 16) 15 0 ∧
      (2 ^ 48).testBit 48 = true ∧ bits (2 ^ 48) 47 32 < (ctx 1 .hostIo 1 1).size ∧
      (bits (2 ^ 48) 47 32 + (ctx 1 .hostIo 1 1).size - (ctx 1 .hostIo 1 1).cqHead) % (ctx 1 .hostIo 1 1).size ≤ (ctx 1 .hostIo 1 1).posted) := by decide +kernel

/-- A connected queue pair of a client on port 1, expecting sequence 100. -/
def qp1 : Qp := { newQp 0 1 9 4096 16 14 7 7 16 400000 false 0 none with st := .connected, epsn := 100, cached := true }

/-- The same with its context in memory. -/
def qpOut : Qp := { qp1 with cached := false }

/-- A privileged queue pair. -/
def qpPriv : Qp := { qp1 with priv := true }

/-- Port 1, up. -/
def port1 : EthPort := { port := 1, up := true, line := 400000, paused := [], ignoring := none, xoff := false, waiting := 0, queue := [] }

/-- A head with one queue pair on a port that is up and has an address. -/
def rdma (q : Qp) : State := { up with xpt.qps := [q], xpt.ports := [port1], boot.gids := [(1, 0, 0, List.replicate 16 7)] }

/-- A packet that arrived whole for the address of port 1. -/
def net1 : NetIn := ⟨1, List.replicate 16 7, true, false⟩

/-- A read of 4096 bytes and a send of one packet, outstanding from sequence 5 on. -/
def rdOp : SendOp := { kind := .read, psn := 5, pkts := 1, data := [], cmd := 0, addr := 0, key := 0, len := 4096, got := 0, imm := 0 }
def sndOp : SendOp := { rdOp with kind := .send, len := 0 }

theorem witness_ArrivingPacketsFollowTheirSequence :
    (let s := rdma qp1
     s.answers 1 net1.gid = true ∧ s.answers 1 net0.gid = false ∧ s.answers 0 net1.gid = false ∧ net1.icrcOk = true ∧
       ({ net1 with icrcOk := false } : NetIn).icrcOk = false ∧ s.qpOf 0x11 = none ∧ s.qpOf 0x10 = some qp1 ∧ qp1.cached = true ∧
       (rdma qpOut).qpOf 0x10 = some qpOut) ∧
    (let k : XPkt := barePkt .send 100 false
     let d (psn : Nat) : Nat := (psn + 2 ^ 24 - qp1.epsn) % 2 ^ 24
     (rdma qp1).qp? 0 = some qp1 ∧ qp1.st = .connected ∧ k.ce = false ∧ k.kind = .send ∧ d 100 = 0 ∧ 0 < d 101 ∧ d 0x800063 < 0x800000 ∧
       d 0x800064 = 0x800000 ∧ 0x800000 < d 99 ∧ qp1.naked = false ∧ qp1.priv = false ∧ (rdma qpPriv).qp? 0 = some qpPriv ∧ qpPriv.priv = true) ∧
    (qp1.recvs ≤ ({ qp1 with capsules := 16 } : Qp).capsules ∧ qp1.capsules < qp1.recvs ∧ (List.replicate 8256 (0 : Byte)).length ≤ 8256 ∧
      (rdma qp1).qctx? qp1.idx = none ∧ (rdma qpPriv).keyAllows qpPriv 256 0 16 = none) ∧
    (let q : Qp := { qpOut with missed := [barePkt .cnp 0 false] }
     (rdma q).qp? (0x10 - 0x10) = some q ∧ q.cached = false ∧
       (((rdma q).llcArrive 2 (ctxLines q.idx)).cacheCtx q.idx).qp? q.idx = some { q with cached := true, used := true }) ∧
    (let q : Qp := { qp1 with ops := [rdOp, sndOp] }
     qp1.ops.find? (fun o => o.kind == .read) = none ∧ q.ops = [rdOp, sndOp] ∧ rdOp.kind = .read ∧
       (rdOp.psn + rdOp.got / q.mtu) % 2 ^ 24 = 5 ∧ serialAfter 24 5 6 = true ∧ serialAfter 24 5 4 = false ∧
       rdOp.got + (List.replicate 4096 (0 : Byte)).length = rdOp.len ∧ rdOp.got + ([] : Bytes).length ≠ rdOp.len ∧ ([] : Bytes).length ≠ q.mtu) := by
  decide +kernel

theorem witness_RequestersRetireRetryAndSlowDown :
    let q : Qp := { qp1 with ops := [sndOp, { sndOp with psn := 6 }], rnrMax := 3 }
    let p : Qp := { q with priv := true }
    (let s := rdma q
     s.qp? 0 = some q ∧ q.st = .connected ∧ (barePkt .ack 4 false).kind = .ack ∧ (barePkt .ack 4 false).ce = false ∧
       q.ops.filterMap (SendOp.acked q.mtu 4) = q.ops ∧ q.ops.filterMap (SendOp.acked q.mtu 5) = [{ sndOp with psn := 6 }] ∧
       (((s.xbump R.XPT_SEQ_NAK_RX_CNT R.XPT_P_SEQ_NAK_RX_CNT q.port 1).retireOps q 5).qp? 0).map Qp.priv = some false ∧
       ((s.retireOps q 5).qp? 0).map (fun x => (x.priv, x.rnrMax, x.rnrs)) = some (false, 3, 0) ∧ q.rnrs < q.rnrMax ∧
       ({ q with rnrs := 3 } : Qp).rnrMax ≤ ({ q with rnrs := 3 } : Qp).rnrs ∧ q.rnrMax ≠ 7 ∧ qp1.rnrMax = 7) ∧
    (let s := rdma p
     (s.retireOps p 5).qp? 0 = some { p with ops := [{ sndOp with psn := 6 }] } ∧ p.rnrs < (s.retireOps p 5).privLimit ∧
       (s.retireOps p 5).privLimit ≤ ({ p with rnrs := 15 } : Qp).rnrs ∧ p.backoff < (s.xbump R.XPT_TIMEOUT_CNT R.XPT_P_TIMEOUT_CNT 1 1).privLimit ∧
       (s.xbump R.XPT_TIMEOUT_CNT R.XPT_P_TIMEOUT_CNT 1 1).privLimit ≤ ({ p with backoff := 15 } : Qp).backoff) ∧
    (q.rnrWait = false ∧ ({ q with rnrWait := true } : Qp).rnrWait = true ∧ q.priv = false ∧ q.ops ≠ [] ∧ qp1.ops = [] ∧ q.retries < q.retryMax ∧
      ({ q with retries := 7 } : Qp).retryMax ≤ ({ q with retries := 7 } : Qp).retries ∧ (rdma q).qpOf 0x10 = some q ∧
      (rdma { q with rnrWait := true }).qpOf 0x10 = some { q with rnrWait := true } ∧ (rdma p).qpOf 0x10 = some p ∧ p.priv = true ∧ q.cached = true ∧
      qpOut.cached = false) ∧
    (let s := rdma q
     let u := s.xbump R.XPT_CNP_RX_CNT R.XPT_P_CNP_RX_CNT q.port 1
     u.ccOn = true ∧ ((s.setFld R.XPT_CFG 10 10 0).xbump R.XPT_CNP_RX_CNT R.XPT_P_CNP_RX_CNT q.port 1).ccOn = false ∧
       s.fld R.XPT_CC_CFG2 31 24 ≠ 0 ∧ s.fld R.XPT_CC_CFG2 31 24 * 1048576 ≤ ({ q with sent := 2 ^ 28 } : Qp).sent ∧
       q.sent < s.fld R.XPT_CC_CFG2 31 24 * 1048576 ∧
       (let f := s.fld R.XPT_CC_CFG2 23 20
        q.stage < f ∧ f ≤ f ∧ f < 2 * f ∧ 2 * f ≤ 2 * f)) := by decide +kernel

theorem witness_ConnectionsAreMadeAndEnded :
    let m : CmParams := { cm0 with qpn := 0x77, psn := 2 ^ 24 - 1 }
    let c : Qp := { qp1 with st := .connecting }
    let pv : Qp := { c with priv := true, session := some 3 }
    let rx (s : State) : State := (s.xbump R.XPT_RX_PKT_CNT R.XPT_P_RX_PKT_CNT 1 1).ceOnly net1
    ((rdma c).answers 1 net1.gid = true ∧ (rdma c).answers 1 net0.gid = false ∧ net1.icrcOk = true ∧ ({ net1 with icrcOk := false } : NetIn).icrcOk = false) ∧
    ((rx (rdma c)).qp? (0x10 - 0x10) = some c ∧ c.st = .connecting ∧ c.priv = false ∧ c.session = none ∧ (rx (rdma qp1)).qp? 0 = some qp1 ∧
      qp1.st ≠ .connecting ∧ qp1.st ≠ .failed ∧ (rx (rdma pv)).qp? 0 = some pv ∧ pv.priv = true ∧ pv.session = some 3 ∧
      (rx (rdma pv)).snap.sessions.find? (fun x => x.ownQp == some pv.idx) = none ∧
      (rx (rdma { c with st := .failed })).qp? 0 = some { c with st := .failed }) ∧
    (let v (s : State) : State := (rx s).sendCm 1 (cmMsg .drep 9)
     (v (rdma qp1)).qctx? (0x10 - 0x10) = none ∧
       (let x := ctx 0 .fabIo 1 1
        (v { rdma qp1 with hq.ctxs := [x] }).qctx? 0 = some x ∧ x.kind = .fabIo) ∧
       (let x := ctx 0 .fabAdmin 1 0
        (v { rdma qp1 with hq.ctxs := [x] }).qctx? 0 = some x ∧ x.kind = .fabAdmin)) ∧
    (((rdma qp1).eport 1).up = true ∧ ((rdma qp1).eport 0).up = false ∧ (rdma qp1).freeCtx < 1048576 ∧ m.recfmt = 0 ∧ m.session = none ∧
      ({ m with recfmt := 1 } : CmParams).recfmt ≠ 0) ∧
    ((rdma c).qp? 0 = some c ∧ (rdma qp1).qp? 0 = some qp1) := by decide +kernel

/-- A memory key of 4096 bytes of the second memory. -/
def mk0 : MemKey := ⟨65535, 255, false, 1, 2 ^ 32, 4096, 7, 0, 0, none⟩

theorem witness_PortsPauseAndKeysAreRevoked :
    (let s := rdma qp1
     let t := s.putEport { port1 with paused := [3], ignoring := some 2 }
     s.eport 1 = port1 ∧ port1.ignoring ≠ some 7 ∧ port1.paused.contains 3 = false ∧ t.eport 1 = { port1 with paused := [3], ignoring := some 2 } ∧
       (t.eport 1).ignoring = some 2 ∧ (t.eport 1).paused.contains 3 = true ∧ s.fld R.XPT_CFG 31 29 = 3 ∧ t.fld R.XPT_PFC_CFG 31 16 ≠ 0 ∧
       (s.setFld R.XPT_PFC_CFG 31 16 0).fld R.XPT_PFC_CFG 31 16 = 0) ∧
    (let e (sp len : Nat) : Entry := pk 0x42 ([BitVec.ofNat 8 sp, 1] ++ leBytes 2 65535 ++ leBytes 2 0 ++ leBytes 8 0 ++ leBytes 8 len)
     let s : State := up.got (e 2 (2 ^ 36))
     s.runs 0x42 (e 2 (2 ^ 36)) = true ∧ (e 2 (2 ^ 36)).num 10 1 = 2 ∧ (e 2 (2 ^ 36)).num 11 1 = 1 ∧ (e 2 (2 ^ 36)).num 12 2 = 65535 ∧
       (e 2 (2 ^ 36)).zero 14 2 = true ∧ (e 2 (2 ^ 36)).num 16 8 % 4096 = 0 ∧ (e 2 (2 ^ 36)).num 24 8 = 2 ^ 36 ∧
       s.regionOk 2 0 (2 ^ 36) = true ∧ lowestFree (s.xpt.keys.map MemKey.idx) ((s.xpt.keys.map MemKey.idx).length + 1) 0 < 65536 ∧
       (up.got (e 3 4096)).runs 0x42 (e 3 4096) = true ∧ (e 3 4096).num 10 1 > 2) ∧
    (let s (k : MemKey) : State := { up with xpt.keys := [k] }
     let e (t : Nat) : Entry := pk 0x43 (leBytes 4 (65535 * 256 + t))
     ((s mk0).got (e 255)).runs 0x43 (e 255) = true ∧ (s mk0).mkey? ((e 255).num 10 4 / 256) = some mk0 ∧ mk0.tag = (e 255).num 10 4 % 256 ∧
       mk0.tag ≠ (e 254).num 10 4 % 256 ∧ ((s mk0).got (e 254)).runs 0x43 (e 254) = true ∧ mk0.revoking = false ∧
       (s { mk0 with revoking := true }).keyBusy 65535 = false ∧ (s { mk0 with revoking := true }).mkey? 65535 = some { mk0 with revoking := true } ∧
       (let q : Qp := { qp1 with wKey := some (65535, 0, 0, 0) }
        let t : State := { s { mk0 with revoking := true } with xpt.qps := [q] }
        t.keyBusy 65535 = true ∧
          (t.xpt.qps.filter fun q => q.st == .connected && (q.wKey.map Prod.fst).getD 65536 == 65535).map Qp.idx = [0])) := by decide +kernel

/-- An entry of journal 0 with no record, local, of sequence 5. -/
def ent0 : BEnt := { ent9 with cmd := none }

/-- A grain record that writes page 2 of grain 1. -/
def rec1 : BRec := ⟨1, 4, 0, [7], [[]], none⟩

theorem witness_BrineTakesDrainsAndMirrors :
    (let s : State := { up with brn.waiting := [3], brn.ents := [ent0] }
     s.brn.waiting = [3] ∧ s.ent? 3 = some ent0 ∧ s.roomFor 0 0 true = true ∧ s.roomFor (2 ^ 24) 1 true = false) ∧
    up.brn.waiting = [] ∧
    (let f : BEnt := { ent9 with state := .filling, recs := [{ rec1 with pages := List.replicate 512 1 }] }
     let s : State := { up with brn.heldReads := [3], hq.cmds := [cmd1], brn.ents := [f] }
     s.backlog ≤ s.backlogMax ∧ s.brn.heldReads = [3] ∧ s.ent? 3 = some f ∧ f.cmd = some 9 ∧ s.io? 9 = some cmd1 ∧
       (let t := s.setFld R.BRN_MIRROR_BACKLOG 15 0 1
        t.backlogMax < t.backlog)) ∧
    (let s (e : BEnt) : State := { up with brn.ents := [e] }
     (s ent0).heldJournals.contains 1 = false ∧ (s ent0).heldJournals.contains 0 = true ∧ (s ent0).drainNext 0 = some ent0 ∧ ent0.recs = [] ∧ up.drainNext 0 = none ∧
       (s { ent0 with recs := [rec1] }).drainNext 0 = some { ent0 with recs := [rec1] }) ∧
    (let m : Bytes := List.replicate 52 0 ++ leBytes 8 0
     mirrorOk [1] = false ∧ mirrorOk (m ++ leBytes 4 (crc32c m)) = true ∧ paired.nextOn 1 hdr = true) ∧
    (let s : State := { paired with brn.remirror := true, brn.ents := [ent0] }
     let h : PtlMsg := ⟨1, 0x03, false, leBytes 4 1 ++ leBytes 4 1 ++ leBytes 8 5⟩
     paired.brn.remirror = false ∧ s.brn.remirror = true ∧ s.unreleased.all s.mirrored = true ∧
       (let u : State := { s with pair.chans := s.pair.chans.set 1 { s.chan 1 with held := [h] } }
        u.unreleased.all u.mirrored = false) ∧
       (State.stageCheck { s with brn.remirror := false, brn.alone := false }).brn.replaying = false ∧
       (State.stageCheck { s with brn.remirror := false, brn.alone := false }).pair.rejoinStep ≠ 3) ∧
    (let e := pk 0x44 (leBytes 8 77)
     let s (j : Nat) : State := { up.got e with brn.lost := [(0, j)] }
     (up.got e).runs 0x44 e = true ∧ (up.got e).brn.lost = [] ∧ (s 77).runs 0x44 e = true ∧ (s 77).brn.lost ≠ [] ∧ e.num 10 8 = (s 77).lostFrom ∧
       e.num 10 8 ≠ (s 78).lostFrom) := by decide +kernel

/-- A job of an engine on its core. -/
def job (engine core segs : Nat) : Job := ⟨4, engine, some core, 0, .read 1, [1, 2], segs, 0, none⟩

/-- A job of an engine that waits for a core. -/
def waitingJob (id engine : Nat) (why : JobWhy) : Job := ⟨id, engine, none, 0, why, [1, 2], 1, 2 * id, none⟩

/-- R221: an inline segment goes before an offload segment that became ready first. -/
theorem test_inline_before_offload :
    (let s : State := { up with red.jobs := [waitingJob 1 3 (.offload 7), waitingJob 2 3 (.read 1)] }
     (s.nextJob 3).map (fun p => p.1.id) = some 2) := by decide +kernel

/-- R205: OFFLOAD_WEIGHT 0x40 of 256 dispatches go to an offload segment that waits with work of the drain. -/
theorem test_offload_share :
    (let s (saved : Nat) : State := { up with red.jobs := [waitingJob 1 0 (.drain 5 0), waitingJob 2 0 (.offload 7)], red.credit := [(0, saved)] }
     ((s 191).nextJob 0).map (fun p => (p.1.id, p.2)) = some (1, 255) ∧ ((s 192).nextJob 0).map (fun p => (p.1.id, p.2)) = some (2, 0)) := by decide +kernel

/-- R181: a segment whose core failed goes to another core, which the event names; the failed core stays idle. -/
theorem test_reissued_on_another_core :
    (let s : State := { up with red.jobs := [job 0 0 1] }
     ((s.reissueJob (fun c => c == 0) (job 0 0 1)).red.jobs.map Job.core) = [some 1]) := by decide +kernel

/-- R213: an ERASE of a page waits for the segment that runs and then clears BUSY; the job that it belongs to has segments left and ends. -/
theorem test_erase_waits_for_segment :
    (let p : KeyPage := { no := 5, cfg := 0x81, state := .live, gen := 1, err := 0, key1 := [1], key2 := [2], salt := 0, next := 0, resEnd := 0, busy := false }
     let o : OffJob := { id := 7, pkt := ⟨0, 0, 0, 0⟩, opc := 0x64, params := List.replicate 12 0 ++ [5, 0], src := [], aad := [], ctx := [], keyGen := 1, invoc := 0 }
     let s : State := { up with
       keys.pages := [p], keys.offs := [o], red.jobs := [{ waitingJob 1 3 (.offload 7) with core := some 304, segs := 2 }] }
     let t := s.erasePage p
     (t.kpage 5).status = 0x10012 ∧ t.keys.offs = [o] ∧
       (match execEngineSegmentDone 1 t with
        | .next u => (u.kpage 5).status == 0x10000 && u.keys.offs == [] && u.red.jobs == []
        | _ => false) = true) := by decide +kernel

theorem witness_EngineJobsRunAndAreReissued :
    (let s (j : Job) : State := { up with red.jobs := [j] }
     let w := waitingJob 4 3 (.read 1)
     let o : Job := { job 0 0 2 with why := .offload 7 }
     (s (job 3 304 2)).engJob? 4 = some (job 3 304 2) ∧ (job 3 304 2).engine = 3 ∧ (job 2 176 1).engine = 2 ∧ (job 2 176 1).core = some 176 ∧
       (s (job 2 176 1)).engJob? 4 = some (job 2 176 1) ∧ (s w).engJob? 4 = some w ∧ w.core = none ∧ (s w).nextJob 3 = some (w, 0) ∧
       (s w).jobsDue 3 = [w] ∧ up.nextJob 3 = none ∧
       (let f : OffJob := { id := 7, pkt := ⟨0, 0, 0, 0⟩, opc := 0x68, params := [], src := [], aad := [], ctx := [], keyGen := 0, invoc := 0 }
        let t : State := { up with red.jobs := [o], keys.offs := [f] }
        t.engJob? 4 = some o ∧ 1 < o.segs ∧ (t.countSeg o).jobWanted o = true ∧ ((s o).countSeg o).jobWanted o = false)) ∧
    (let u := unitId 4 399
     unitClass u = 4 ∧ unitValid u = true ∧ (up.ust u).serving = true ∧ unitIndex u = 399 ∧ (job 4 399 1).core = some (unitIndex u) ∧ coreCluster 399 = coreCluster (unitIndex u) ∧
       (∀ j ∈ [job 0 0 1], j.core ≠ some (unitIndex u)) ∧
       (({ up with med.units := [{ blankUnit u with state := .failed }] } : State).ust u).serving = false) ∧
    (let l : Job := { waitingJob 4 0 (.read 1) with lost := some (0, [0]) }
     let s : State := { up with red.jobs := [l] }
     s.nextJob 0 = some (l, 0) ∧ (s.coresUp 0).any (fun x => !List.contains [0] x) = true ∧ s.jobRank l = 2) ∧
    (let c : EngCtx := ⟨1, 2, 3, false⟩
     let res := ({ up with keys.ctxs := List.replicate 253 c } : State).keys.ctxs.filter fun c => c.engine == 2 && !c.saved && (2 == 3 || c.cluster == 3)
     252 < res.length ∧ res = c :: List.replicate 252 c ∧ (up.keys.ctxs.filter fun c => c.engine == 3 && !c.saved).length ≤ 4032) ∧
    (let e (comp : Bool) (dst : Nat) : Entry := pk (if comp then 0x68 else 0x69)
       ((if comp then [0, 0, 1, 3] else [0, 0, 0, 0]) ++ [1, 0] ++ leBytes 8 0 ++ leBytes 4 4096 ++ leBytes 8 65536 ++ leBytes 4 dst)
     let s (comp : Bool) (dst : Nat) : State := (up.got (e comp dst)).setFld R.CMP_CFG 0 0 1
     (s true 4096).runs 0x68 (e true 4096) = true ∧ (s false 4096).runs 0x69 (e false 4096) = true ∧ (s true 63).runs 0x68 (e true 63) = true ∧
       cmpFieldsOk (e true 4096) true = true ∧ cmpFieldsOk (e false 4096) false = true ∧ cmpFieldsOk (e true 63) true = false ∧
       (s true 4096).fld R.CMP_CFG 0 0 ≠ 0 ∧ (s true 4096).coresUp (offEngine 0x68) ≠ [] ∧ (s false 4096).coresUp (offEngine 0x69) ≠ [] ∧
       (s true 4096).keys.erased = false ∧ ({ s true 4096 with keys.erased := true } : State).coresUp (offEngine 0x68) ≠ [] ∧ ((e true 4096).num 14 1).testBit 1 = false ∧
       (let f (u : Nat) : UnitD := { blankUnit u with state := .failed }
        ({ s true 4096 with med.units := [f (unitId 2 (offEngine 0x68))] } : State).coresUp (offEngine 0x68) = [])) ∧
    (let e (len : Nat) : Entry := pk 0x64 ([0, 3] ++ leBytes 2 6 ++ leBytes 2 0 ++ leBytes 8 0 ++ leBytes 4 len ++ leBytes 8 16777216)
     let k : KeyPage := { mediaPage 6 with cfg := 0x81 }
     let s (len : Nat) : State := { (up.got (e len)).setFld R.CIP_CFG 0 0 1 with keys.pages := [k] }
     (s 16777216).runs 0x64 (e 16777216) = true ∧ (s 15).runs 0x64 (e 15) = true ∧ cipherFieldsOk (e 15) = false ∧ cipherFieldsOk (e 16) = true ∧
       cipherFieldsOk (e 16777216) = true ∧ (s 16).fld R.CIP_CFG 0 0 ≠ 0 ∧ (s 16).coresUp 3 ≠ [] ∧ (s 16).kpage ((e 16).num 12 2) = k ∧ k.state = .live ∧
       k.offloadOk = true ∧ k.usage = 1 ∧ (e 16).num 10 1 = 0 ∧ ((e 16).num 11 1).testBit 2 = false ∧ ((e 16).num 11 1).testBit 1 = true ∧
       ((e 16).num 11 1).testBit 0 = true ∧ (e 16).num 24 4 = 16 ∧ (up.kpage 6).state ≠ .live) ∧
    (let e (fl : Nat) : Entry := pk 0x65 ([0, BitVec.ofNat 8 fl] ++ leBytes 4 0 ++ leBytes 8 0 ++ leBytes 4 100 ++ leBytes 4 0 ++ leBytes 8 4096)
     let s : State := (up.got (e 3)).setFld R.DIG_CFG 0 0 1
     s.runs 0x65 (e 3) = true ∧ digestFieldsOk (e 3) = true ∧ (up.got (e 16)).runs 0x65 (e 16) = true ∧ digestFieldsOk (e 16) = false ∧
       s.fld R.DIG_CFG 0 0 ≠ 0 ∧ s.coresUp 2 ≠ [] ∧ ((e 3).num 11 1).testBit 3 = false ∧ ((e 3).num 11 1).testBit 2 = false) := by
  refine ⟨?_, ?_, ?_, ?_, ?_, ?_, ?_⟩ <;> decide +kernel

/-- A domain of ANA group 1. -/
def dom1 : Domain := ⟨9, 4, 5, 30, 1⟩

theorem witness_DomainsAndCodecGeneration :
    (let e (ana k : Nat) : Entry := pk 0x60 ([9, 4] ++ leBytes 2 5 ++ [BitVec.ofNat 8 k, 0] ++ leBytes 2 ana)
     let s (ana k : Nat) : State := (holds [vol1]).got (e ana k)
     (s 2 30).runs 0x60 (e 2 30) = true ∧ (s 1 30).runs 0x60 (e 1 30) = true ∧ (e 1 30).num 16 2 = 1 ∧ (s 2 30).ownsGroup 2 = false ∧
       (s 1 30).ownsGroup 1 = true ∧ (e 1 30).num 10 1 = 9 ∧ (e 1 30).num 11 1 = 4 ∧ (e 1 30).num 12 2 = 5 ∧ (e 1 30).num 14 1 = 30 ∧
       (e 1 30).zero 15 1 = true ∧ (s 1 30).dom? 9 = none ∧ ((s 1 30).kslot 4).state = .empty ∧ (s 1 30).domainFits 30 = true ∧
       (s 1 32).domainFits 32 = false ∧ (s 1 32).runs 0x60 (e 1 32) = true ∧ ((s 1 30).kpage 5).mediaKey = true ∧
       (({ s 1 30 with pool.domains := [dom1] } : State).dom? 9).isSome = true ∧
       (({ s 1 30 with keys.slots := [{ up.kslot 4 with state := .erased }] } : State).kslot 4).state ≠ .empty) ∧
    (let e := pk 0x61 [9]
     let s (d : Domain) (v : Volume) : State := { (holds [v]).got e with pool.domains := [d] }
     (s dom1 vol1).runs 0x61 e = true ∧ (s dom1 vol1).dom? (e.num 10 1) = some dom1 ∧ (s dom1 vol1).ownsGroup 1 = true ∧ e.zero 11 3 = true ∧
       (s dom1 vol1).pool.volumes.any (·.domain == 9) = false ∧ (s dom1 { vol1 with domain := 9 }).pool.volumes.any (·.domain == 9) = true) ∧
    (let e := pk 0x62 [9]
     let s (d : Domain) : State := { (holds [vol1]).got e with pool.domains := [d] }
     (s dom1).runs 0x62 e = true ∧ (s dom1).dom? (e.num 10 1) = some dom1 ∧ e.zero 11 3 = true ∧ (s dom1).ownsGroup 1 = true ∧
       (s { dom1 with ana := 2 }).ownsGroup 2 = false) ∧
    (let e (d : Byte) : Entry := pk 0x63 (leBytes 4 1 ++ [d])
     let s (d : Byte) : State := { (holds [vol1]).got (e d) with pool.domains := [dom1, { dom1 with id := 8, ana := 2 }] }
     (s 9).runs 0x63 (e 9) = true ∧ (s 0).runs 0x63 (e 0) = true ∧ (s 8).runs 0x63 (e 8) = true ∧ (s 7).dom? ((e 7).num 14 1) = none ∧
       (s 9).vol? ((e 9).num 10 4) = some vol1 ∧ (s 9).ownsGroup 1 = true ∧ (e 9).zero 15 3 = true ∧ (s 9).dom? ((e 9).num 14 1) = some dom1 ∧
       (s 9).moving 1 = false ∧ (s 9).volMapped 1 = false ∧ (e 0).num 14 1 = 0 ∧ (s 0).dom? 0 = none ∧ (e 8).num 14 1 ≠ 0 ∧
       (s 8).dom? ((e 8).num 14 1) = some { dom1 with id := 8, ana := 2 } ∧ (s 8).ownsGroup 2 = false ∧
       (let i : MapImg := { id := 0, page := 0, ents := [⟨0, 5, 1⟩], share := 1, dirty := false, jseq := 0 }
        ({ s 0 with ftl.maps := [⟨1, none, [(0, 0)]⟩], ftl.imgs := [i] } : State).volMapped 1 = true) ∧
       (let t : State := { s 9 with pool.groups := [⟨1, 0, 0, false, false⟩, ⟨3, 0, 0, false, false⟩], pool.domains := [{ dom1 with ana := 3 }] }
        t.runs 0x63 (e 9) = true ∧ t.dom? 9 = some { dom1 with ana := 3 } ∧ t.ownsGroup 3 = true)) ∧
    (let e (g : Byte) : Entry := pk 0x6A [g]
     ((holds []).got (e 2)).runs 0x6A (e 2) = true ∧ (e 2).num 10 1 = 2 ∧ (e 2).zero 11 3 = true ∧ (e 4).num 10 1 > 3 ∧ up.peerInService = false ∧
       (let h : Hello := ⟨1, 4, 0, 0, 1, 0, 1, 2, 2, 0, [], []⟩
        let s : State := { { paired with pool.volumes := [] }.got (e 3) with pair.hello := some h }
        s.runs 0x6A (e 3) = true ∧ s.peerInService = true ∧ s.pair.hello = some h ∧ h.genMax < (e 3).num 10 1)) := by
  decide +kernel

theorem witness_KeyPagesFollowTheirStateMachine :
    (let p (st : KeySt) (cfg : Nat) : State := { up with keys.pages := [{ mediaPage 4095 with state := st, cfg := cfg }] }
     up.halted = false ∧ (up.kpage 4095).state = .empty ∧ (up.kpage 0).usage = 0 ∧ ((p .loading 1).kpage 4095).state = .loading ∧
       ((p .loading 1).kpage 4095).usage = 1 ∧ ((p .loading 1).kpage 4095).key1 ≠ ((p .loading 1).kpage 4095).key2 ∧
       ((p .loading 2).kpage 4095).usage = 2 ∧ ((p .loading 3).kpage 4095).usage = 0 ∧ ((p .erased 1).kpage 4095).state = .erased ∧
       ((p .live 1).kpage 4095).persist = false) := by decide +kernel

theorem witness_KeySlotsFollowTheirStateMachine :
    let p (st : KeySt) (len : Nat) : State := { up with keys.slots := [{ up.kslot 255 with state := st, len := len, key := List.replicate 128 1 }] }
    up.halted = false ∧ (up.kslot 255).state = .empty ∧ ((p .loading 128).kslot 255).state = .loading ∧ ((p .loading 128).kslot 255).len = 128 ∧
      ((p .loading 1).kslot 255).len = 1 ∧ ((p .loading 129).kslot 255).len = 129 ∧ ((p .live 32).kslot 255).state = .live ∧
      ((p .erased 32).kslot 255).state = .erased := by decide +kernel

theorem witness_AlarmsZeroizeTheKeys :
    up.keys.asserted.testBit 4 = false ∧ ({ up with keys.asserted := 16 } : State).keys.asserted.testBit 4 = true ∧
    (bits 0x4B450001 31 16 = 0x4B45 ∧ (0x4B450001 : Nat).testBit 0 = true ∧ bits 0x4B440001 31 16 ≠ 0x4B45 ∧ (0x4B450000 : Nat).testBit 0 = false) ∧
    (let e := pk 0x66 []
     let s : State := up.got e
     s.runs 0x66 e = true ∧ s.keys.asserted = 0 ∧ s.keys.tamper = false ∧ ({ s with keys.asserted := 1 } : State).runs 0x66 e = true ∧
       ({ s with keys.tamper := true } : State).runs 0x66 e = true ∧
       ((({ s with keys.wasSolo := true } : State).begun 0 0 e).loadWorking.loadKeys [] []).keys.wasSolo = true) := by decide +kernel

/-- A pool whose map area has no room for the one map page there is; the page is clean when `d` is false and of a volume of mode `m`. -/
def fullMap (d : Bool) (m : Nat) : State :=
  let j : Journal := { (holds []).journal 0 with dir := [(0, 7, 0, 4)] }
  { holds [{ vol1 with mode := m }] with
    mem.hbmSplit := 0, mem.ddrGib := 4, ftl.maps := [⟨1, none, [(0, 7)]⟩], ftl.journals := [j]
    ftl.imgs := [{ id := 7, page := 0, ents := [⟨0, 5, 1⟩], share := 1, dirty := d, jseq := 1 }] }

/-- A clean page of a best-effort volume is dropped, a changed one and one of a deadline-mode volume are not (11_flash_translation.md R269). -/
theorem test_map_page_dropped :
    ((fullMap false 0).pageCame (0, 8)).ftl.paged = [(0, 7)] ∧ ((fullMap true 0).pageCame (0, 8)).ftl.paged = [] ∧
      ((fullMap false 1).pageCame (0, 8)).ftl.paged = [] := by
  decide +kernel

/-- A dropped page is read back at the next lookup, in one read of 4,352 bytes that is counted (R269). -/
theorem test_map_page_read_back :
    (let s := ({ fullMap false 0 with ftl.paged := [(0, 7)] } : State).pageIn (0, 7)
     s.ftl.paged = [] ∧ s.rd R.FTL_MAP_MEDIA_CNT = 1 ∧ (s.ftl.reads.map fun j => (sumOf (j.parts.map RPart.crumbs), j.why)) = [(17, .page none 0 7)]) := by
  decide +kernel


/-- A die record with 16384 bytes in a page group, and the dies 0 to 15 of a module with it. -/
def dieR : Bytes := List.replicate 30 0 ++ leBytes 2 1024 ++ leBytes 2 0 ++ [16] ++ List.replicate 29 0
def module16 (n : Nat) : Module :=
  { State.reset.mod n with
    present := true, up := true, discovered := true, record := leBytes 6 0 ++ leBytes 2 16 ++ List.replicate 56 0
    dies := (List.range 16).map fun i => (i, dieR) }

/-- The unit of a module or a die that is there, free and ONLINE. -/
def online (u : Nat) : UnitD := { blankUnit u with state := .online }

/-- A head with four modules of 16 dies. -/
def shelf : State :=
  { up with
    lnk.mods := [0, 1, 2, 3].map module16
    med.units := [0, 1, 2, 3].map (fun n => online (unitId 5 n)) ++ ([0, 1, 2, 3].flatMap fun n => (List.range 16).map fun i => online (dieUnit n i)) }

/-- A head with a PAN of two dies of module 0, the second of them failed. -/
def pan0 : UnitD := { blankUnit (unitId 7 0) with state := .degraded, scheme := 2, m := 2, members := [⟨dieUnit 0 0, false⟩, ⟨dieUnit 0 1, false⟩] }
def mirrored2 : State :=
  { up with
    lnk.mods := [module16 0]
    med.units := [pan0, { online (dieUnit 0 0) with parent := unitId 7 0 }, { online (dieUnit 0 1) with parent := unitId 7 0, pos := 1, state := .failed },
                  online (dieUnit 0 2)] }

theorem witness_UnitsAndPansAreBuiltAndReplaced :
    (let e := pkTo 0x20 (dieUnit 31 1023) []
     (up.got e).runs 0x20 e = true) ∧
    (let e (scheme : Byte) : Entry := pk 0x21 (leBytes 4 0 ++ [scheme, 2] ++ leBytes 2 2 ++ [0, 0] ++ leBytes 8 4096)
     let s := shelf.got (e 2)
     let ents := [dieUnit 0 0, dieUnit 1 0]
     s.runs 0x21 (e 2) = true ∧ (e 2).num 10 4 = 0 ∧ (e 2).num 14 1 = 2 ∧ (e 2).num 18 1 = 0 ∧ (e 2).zero 19 1 = true ∧ (e 2).num 16 2 = 2 ∧
       s.panChecks (unitId 7 0) 2 2 ents false = stOk ∧ s.panChecks (unitId 7 0) 2 3 ents false ≠ stOk ∧
       ents.any (fun x => decide (x ≥ 2 ^ 24)) = false ∧ [2 ^ 24].any (fun x => decide (x ≥ 2 ^ 24)) = true ∧ (e 4).num 14 1 = 4) ∧
    (let e := pkTo 0x22 (unitId 7 0) []
     let s (d : UnitD) : State := { up.got e with med.units := [d] }
     (s (online (unitId 7 0))).runs 0x22 e = true ∧ ((s (online (unitId 7 0))).unit e.target).parent = 0 ∧
       ((s (online (unitId 7 0))).unit 0).root = false ∧ (s { pan0 with parent := unitId 7 1 }).runs 0x22 e = true ∧
       ((s { pan0 with parent := unitId 7 1 }).unit e.target).parent ≠ 0) ∧
    (let e (n : Nat) : Entry := pk 0x23 (leBytes 2 n)
     let s := shelf.got (e 0)
     s.runs 0x23 (e 0) = true ∧ (e 0).num 10 2 = 0 ∧ (e 0).zero 12 2 = true ∧ (s.layout 0).rootPan.isSome = true ∧
       (s.med.units.any fun d => unitClass d.id == 7 && d.state != .absent) = false ∧ (up.layout 64).rootPan = none ∧
       (mirrored2.med.units.any fun d => unitClass d.id == 7 && d.state != .absent) = true ∧ (e 65).num 10 2 = 65) ∧
    (let e (out : Byte) (d : Nat) : Entry := pkTo 0x24 (dieUnit 0 d) [out]
     let s (x : Byte) (d : Nat) : State := mirrored2.got (e x d)
     (s 0 2).runs 0x24 (e 0 2) = true ∧ unitClass (e 0 2).target = 6 ∧ (s 0 2).cfgReady = some stOk ∧ (e 0 2).zero 11 3 = true ∧ (e 0 2).num 10 1 = 0 ∧
       (s 0 2).ust (e 0 2).target = .online ∧ (s 0 2).newlyFailed ((s 0 2).takeOut (e 0 2).target) = false ∧
       (s 0 0).newlyFailed ((s 0 0).takeOut (e 0 0).target) = true ∧ (s 0 0).ust (e 0 0).target = .online ∧
       (s 0 1).ust (e 0 1).target ≠ .online ∧ (e 1 1).num 10 1 = 1 ∧ (s 1 1).runs 0x24 (e 1 1) = true ∧ (s 1 1).ust (e 1 1).target = .failed ∧
       (s 1 1).reachable (dieModule (e 1 1).target) = true ∧ ((s 1 1).mod (dieModule (e 1 1).target)).heldReason = 0) ∧
    (let e (pos new : Nat) : Entry := pkTo 0x25 (unitId 7 0) (leBytes 2 pos ++ leBytes 2 0 ++ leBytes 4 new)
     let s (pos new : Nat) : State := mirrored2.got (e pos new)
     let m (pos : Nat) : Member := (mirrored2.unit (unitId 7 0)).members.getD pos ⟨0, false⟩
     (s 1 (dieUnit 0 2)).runs 0x25 (e 1 (dieUnit 0 2)) = true ∧ (e 1 (dieUnit 0 2)).target = unitId 7 0 ∧ (e 1 (dieUnit 0 2)).zero 12 2 = true ∧
       (e 1 (dieUnit 0 2)).num 10 2 = 1 ∧ (e 1 (dieUnit 0 2)).num 14 4 = dieUnit 0 2 ∧ unitValid (dieUnit 0 2) = true ∧
       mirrored2.posFailed (unitId 7 0) (m 0) = false ∧ mirrored2.posFailed (unitId 7 0) (m 1) = true ∧ unitClass (unitId 5 0) ≠ unitClass (m 1).unit ∧
       mirrored2.ust (dieUnit 0 3) ≠ .online ∧ (mirrored2.unit (dieUnit 0 2)).parent = 0 ∧ mirrored2.dieUsed (dieUnit 0 2) = false ∧
       (let z := (s 1 (dieUnit 0 2)).begun 0 0 (e 1 (dieUnit 0 2))
        (z.above z.depth (unitId 7 0)).contains (dieUnit 0 2) = false ∧
          (let w : State := { z with med.units := z.med.units.map fun d => if d.id = unitId 7 0 then { d with parent := unitId 7 1 } else d }
           (w.above w.depth (unitId 7 0)).contains (unitId 7 1) = true)) ∧
       (mirrored2.unit (dieUnit 0 2)).root = false ∧ mirrored2.ust (dieUnit 0 2) = .online ∧
       (s 1 (dieUnit 0 2)).unitPb (dieUnit 0 2) = (s 1 (dieUnit 0 2)).unitPb (m 1).unit ∧ (e 2 0).num 10 2 = 2) := by decide +kernel

theorem witness_UnitsAndPansAreBuiltAndReplaced_peer :
    let e : Entry := pk 0x23 (leBytes 2 0)
    let s := shelf.got e
    let b := s.begun 0 0 e
    let p : State := { s with pair.state := .paired }
    s.layoutBusy = false ∧ (s.layout 0).peerInService = false ∧ (p.layout 0).peerInService = true ∧ (p.layout 0).rootPan.isSome = true ∧
      ({ b with ctl.cfgWaits := [⟨0, packetRef 0 0 e, []⟩] } : State).layoutBusy = true := by decide +kernel

/-- A command of module 31 in flight. -/
def mc1 (die : Nat) : ModCmd := ⟨31, 65535, die, 1, 0, [], [], .status, false, false, [], false, true⟩

/-- A stripe block that is full of what journal 0 wrote, and a state that holds it under a ROOT pan. -/
def blkFull : Blk := { freeBlk 0 7 with state := .full, scrub := true }
def stripe (b : Blk) (h : List Harvest) : State := { up with med.units := [root1], ftl.blocks := [b], ftl.harvests := h }

theorem witness_MediaRecoversGrantsAndHarvests :
    (let s (c : ModCmd) : State := { shelf with lnk.cmds := [c] }
     (s (mc1 0)).cmdOf 31 65535 = some (mc1 0) ∧ (s (mc1 0xFFFF)).cmdOf 31 65535 = some (mc1 0xFFFF) ∧ (mc1 0).sent = true ∧ (mc1 0xFFFF).die = 0xFFFF ∧
       (mc1 0xFFFF).reissued = false ∧ ({ mc1 0 with sent := false } : ModCmd).sent = false ∧ (mc1 0).die ≠ 0xFFFF ∧
       ((s (mc1 0)).dieMissed (dieUnit 31 0)).2 = 1 ∧ (((s (mc1 0)).dieMissed (dieUnit 31 0)).1.dieMissed (dieUnit 31 0)).2 ≠ 1) ∧
    (let j : ReadJob := ⟨6, .cmd 9 0, 0, true, false, []⟩
     let s (j : ReadJob) : State := { up with ftl.reads := [j] }
     (s j).job? 6 = some j ∧ j.booked = true ∧ (s { j with booked := false }).job? 6 = some { j with booked := false }) ∧
    (let s (sub : Bool) : State := { mirrored2 with med.units := [{ pan0 with members := [⟨dieUnit 0 0, false⟩, ⟨dieUnit 0 2, sub⟩] }] }
     ((s true).unit (unitId 7 0)).members[1]? = some ⟨dieUnit 0 2, true⟩ ∧ ((s false).unit (unitId 7 0)).members[1]? = some ⟨dieUnit 0 2, false⟩ ∧
       (((s true).unit (unitId 7 0)).members.set 1 ⟨dieUnit 0 2, false⟩).any (·.subst) = false ∧ (s true).med.rebuilds = [] ∧
       (let b : Rebuild := ⟨unitId 7 0, 1, dieUnit 0 2, 0, [5]⟩
        ({ s true with med.rebuilds := [b] }.med.rebuilds.any fun b => b.pan == unitId 7 0 && b.pos == 1 &&
          (!b.rows.isEmpty || (s true).rebuildBusy b)) = true)) ∧
    (let b (u : Nat) : Bytes := leBytes 2 0 ++ leBytes 3 u ++ List.replicate 20 0
     paired.nextOn 0 hdr = true ∧ paired.whole 0 hdr (b 1) = b 1 ∧ unitShared (leAt ((b (unitId 1 0)).drop 2) 0 3) = false ∧
       unitShared (leAt ((b (unitId 7 0)).drop 2) 0 3) = true ∧ ({ paired with pool.loaded := false } : State).nextOn 0 hdr = true ∧
       (State.taken { paired with pool.loaded := false } 0 hdr).pool.loaded = false ∧ leAt (b 0) 3 1 = (paired.taken 0 hdr).role ∧
       leAt (b 256) 3 1 ≠ (paired.taken 0 hdr).role) ∧
    (let s : State := { paired with ftl.grantReq := [(0, 4)] }
     0 = s.role ∧ s.isArbiter = true ∧ s.ftl.grantReq.contains (0, 4) = true ∧ ({ s with role := 1 } : State).isArbiter = false ∧ 1 ≠ s.role ∧
       s.peerInService = true ∧ s.nextOn 0 hdr = true ∧ (s.taken 0 hdr).isArbiter = true) ∧
    (let s := stripe blkFull []
     s.heldJournals.contains 0 = true ∧ s.heldJournals.contains 1 = false ∧ s.ftl.harvests = [] ∧ s.victim 0 0 = some blkFull ∧ s.victimClass blkFull ≠ 3 ∧
       up.victim 0 0 = none) ∧
    (let h (n : Nat) : Harvest := ⟨0, 7, 1, n, [], 0, (0, 0)⟩
     let s (n : Nat) : State := stripe { blkFull with state := if n = 4 then .erasePending else .victim } [h n]
     (s 1).harvest? 0 7 = some (h 1) ∧ (s 3).harvest? 0 7 = some (h 3) ∧ (s 4).harvest? 0 7 = some (h 4) ∧ (h 1).step = 1 ∧
       (s 1).recDone (h 1).journal (h 1).mark = true ∧ (s 1).validIn ((s 1).blk 0 7) = [] ∧
       ((s 1).putHarvest { h 1 with step := 2 }).harvest? 0 7 = some { h 1 with step := 2 } ∧ (s 3).copiesDone (h 3) = true ∧ (h 3).copies = [] ∧
       ((s 4).blk 0 7).state = .erasePending ∧ ((s 4).blk 0 7).eraseLeft = [] ∧ (s 4).recDone (h 4).journal (h 4).mark = true ∧ (s 4).readsIn 0 7 = false ∧ (s 4).ust ((s 4).topPan 0) ≠ .readOnly ∧
       ((s 3).blk 0 7).state ≠ .erasePending) := by decide +kernel

/-- A completion of a tag, with its CRC. -/
def cpl (tag : Nat) : Bytes :=
  let b := leBytes 2 tag ++ leBytes 2 0xFFFF ++ leBytes 1 1 ++ List.replicate 23 0
  b ++ leBytes 4 (crc32c b)

theorem witness_ModuleLinkCommandsAndProxy :
    (let s := up.setFld R.LNK_CFG 0 0 1
     31 < 32 ∧ s.domainOff (19 + 31) = false ∧ s.fld R.LNK_CFG 0 0 ≠ 0 ∧ (s.mod 31).up = false ∧ (shelf.mod 2).up = true ∧
       (shelf.setFld R.LNK_CFG 0 0 1).domainOff (19 + 2) = false ∧
       ({ up with pwr.off := [19 + 31] } : State).domainOff (19 + 31) = true) ∧
    (let d (s : State) : State :=
       ((s.bump R.LNK_LINK_DOWN_CNT).putMod { s.mod 2 with up := false, proxied := true }).setUnitState (unitId 1 (16 + 2)) .failed 6
     (d shelf).peerInService = false ∧ (d { shelf with pair.state := .paired, pair.icl := 2, pair.lease := true }).peerInService = true) ∧
    (let s : State := { shelf with lnk.cmds := [mc1 0xFFFF] }
     cplOf [] = none ∧ (cplOf (cpl 65535)).isSome = true ∧ ((cplOf (cpl 65535)).bind fun k => s.answered 31 k false) = some (mc1 0xFFFF) ∧
       ((cplOf (cpl 65534)).bind fun k => s.answered 31 k false) = none ∧ (cplOf (cpl 65534)).isSome = true) ∧
    (let c := mc1 3
     ({ up with lnk.cmds := [c] } : State).cmdOf 31 65535 = some c ∧ c.sent = true ∧ c.viaPeer = false ∧ c.busyWait = false ∧
       ({ up with lnk.cmds := [{ c with busyWait := true }] } : State).cmdOf 31 65535 = some { c with busyWait := true }) ∧
    (let e (sel : Byte) (die : Nat) : Entry := pkTo 0x26 (unitId 5 2) ([sel, 0] ++ leBytes 2 die)
     let s (x : Byte) (die : Nat) : State := shelf.got (e x die)
     (s 0 0).runs 0x26 (e 0 0) = true ∧ (s 1 15).runs 0x26 (e 1 15) = true ∧ (s 1 16).runs 0x26 (e 1 16) = true ∧ (s 3 0).runs 0x26 (e 3 0) = true ∧
       unitIndex (e 0 0).target = 2 ∧ (e 0 0).num 10 1 = 0 ∧ (e 0 0).zero 11 1 = true ∧ (shelf.mod 2).present = true ∧ shelf.reachable 2 = true ∧
       (e 1 15).num 12 2 = 15 ∧ leAt (shelf.mod 2).record 6 2 = 16 ∧ (e 3 0).num 10 1 = 3 ∧ (up.mod 2).present = false ∧
       ({ shelf with lnk.mods := [{ module16 2 with up := false }] } : State).reachable 2 = false) ∧
    (let b (tag : Nat) : Bytes := leBytes 4 31 ++ cpl tag
     let c : ModCmd := { mc1 0xFFFF with viaPeer := true }
     let s : State := { paired with lnk.cmds := [c] }
     s.nextOn 2 hdr = true ∧ s.whole 2 hdr (b 65535) = b 65535 ∧ leAt (b 65535) 0 4 = 31 ∧
       ((cplOf (slice (b 65535) 4 32)).bind fun k => (s.taken 2 hdr).answered 31 k true) = some c ∧ cplOf (slice [] 4 32) = none ∧
       (let f (s : State) : State := State.leadCheck { (s.taken 2 hdr).bump R.PAIR_PROXY_RX_CNT with pair.peerProxy := [2] }
        (f { paired with lnk.mods := [module16 2] }).direct 2 = true ∧ (f paired).direct 2 = false)) := by decide +kernel

/-- The snapshot 3 of volume 1. -/
def epoch1 : Epoch := ⟨3, 1, 1000, 1⟩

/-- A head of one volume, with the packet `e` fetched and fabric time locked. -/
def keeps (v : Volume) (e : Entry) : State :=
  { (holds [v]).got e with tide := { Tide.reset with state := .locked, time := 1000, refPtp := true, ref10m := true, refPps := true } }

theorem witness_SnapshotsAreCutListedAndDropped :
    (let e (g : Nat) : Entry := pk 0x88 (leBytes 4 1 ++ leBytes 2 g)
     (keeps vol1 (e 4095)).runs 0x88 (e 4095) = true ∧ (keeps vol1 (e 0)).runs 0x88 (e 0) = true ∧ (keeps vol1 (e 4096)).runs 0x88 (e 4096) = true ∧
       (keeps vol1 (e 1)).vol? ((e 1).num 10 4) = some vol1 ∧ (keeps vol1 (e 1)).ownsGroup 1 = true ∧ (keeps vol1 (e 1)).ownsGroup 2 = false ∧
       (e 4095).num 14 2 = 4095 ∧ (e 1).zero 16 2 = true ∧ (keeps vol1 (e 1)).moving 1 = false ∧ (e 0).num 14 2 = 0 ∧
       ({ vol1 with cgroup := 2 } : Volume).cgroup ≠ (e 1).num 14 2) ∧
    (let e (at_ : Nat) : Entry := pk 0x89 ([0, 0] ++ leBytes 4 1 ++ leBytes 8 at_)
     let s := keeps vol1 (e 0)
     s.runs 0x89 (e 0) = true ∧ (keeps vol1 (e 16000)).runs 0x89 (e 16000) = true ∧ (e 0).num 10 1 = 0 ∧ (e 0).zero 11 1 = true ∧ (e 0).num 12 4 = 1 ∧
       s.scopeVols 0 1 = [1] ∧ (holds []).scopeVols 0 1 = [] ∧ s.ownsVol 1 = true ∧ (keeps { vol1 with ana := 2 } (e 0)).ownsVol 1 = false ∧
       s.vol? 1 = some vol1 ∧ s.snap.nextId < 2 ^ 32 ∧ s.snapRoom [1] = true ∧
       ({ s with snap.epochs := List.replicate 1023 epoch1 } : State).snapRoom [1] = false ∧ s.tide.state ≠ .freerun ∧ up.tide.state = .freerun ∧
       ¬(16000 / 8000 < s.slot + 2) ∧ 15999 / 8000 < s.slot + 2 ∧ s.tide.timed.length < 256 ∧ s.peerInService = false) ∧
    (let e := pk 0x8A ([0, 0] ++ leBytes 4 1 ++ leBytes 4 3)
     let s : State := { keeps vol1 e with snap.epochs := [epoch1] }
     s.runs 0x8A e = true ∧ e.num 10 1 = 0 ∧ e.zero 11 1 = true ∧ e.zero 20 2 = true ∧ e.num 16 4 = 3 ∧
       (s.scopeVols (e.num 10 1) (e.num 12 4)).filter (fun v => s.snap.epochs.any fun x => x.nsid == v && x.id == e.num 16 4) = [1] ∧
       s.ownsVol 1 = true ∧ s.snapHeld 3 [1] = false ∧
       ({ s with snap.sessions := [{ Session.ofRecord [] with scope := 0, obj := 1, role := 0, base := 3 }] } : State).snapHeld 3 [1] = true) ∧
    (let e (v : Nat) : Entry := pk 0x8B (leBytes 4 v)
     (keeps vol1 (e 1)).runs 0x8B (e 1) = true ∧ (keeps vol1 (e 2)).runs 0x8B (e 2) = true ∧ (keeps vol1 (e 2)).vol? ((e 2).num 10 4) = none ∧
       (keeps vol1 (e 1)).ownsVol ((e 1).num 10 4) = true ∧ (keeps { vol1 with ana := 2 } (e 1)).ownsVol 1 = false) ∧
    (let e := pk 0x8C (leBytes 4 1 ++ leBytes 4 3 ++ leBytes 4 65536)
     let s : State := { keeps vol1 e with snap.epochs := [epoch1] }
     s.runs 0x8C e = true ∧ s.vol? (e.num 10 4) = some vol1 ∧ s.ownsGroup 1 = true ∧
       s.snap.epochs.any (fun x => x.nsid == e.num 10 4 && x.id == e.num 14 4) = true ∧ e.num 18 4 = 65536 ∧ s.vol? 65536 = none ∧ s.moving 1 = false ∧
       s.pool.volumes.length < 65536 ∧ s.snap.gone.any (·.nsid == 65536) = false) ∧
    (let e := pk 0x8D (leBytes 4 1 ++ leBytes 4 0)
     (keeps vol1 e).runs 0x8D e = true ∧ (keeps vol1 e).ownsVol (e.num 10 4) = true ∧ e.num 14 4 = 0) ∧
    (let x : SpaceScan := ⟨packetRef 0 0 (pk 0x8D []), 1, 0, [65536]⟩
     ({ up with snap.scans := [x] } : State).snap.scans.find? (fun x => x.pkt.ring == 0 && x.pkt.slot == 0 && x.counts != []) = some x) ∧
    (let b : Bytes := leBytes 3 0 ++ leBytes 4 8 ++ leBytes 1 0 ++ leBytes 4 1 ++ leBytes 8 16000
     let c : Cut := ⟨8, 0, 1, 16000, none, true, false, false⟩
     paired.nextOn 0 hdr = true ∧ paired.whole 0 hdr b = b ∧ (paired.taken 0 hdr).tide.timed.length < 256 ∧
       (let t : Timed := ⟨0, 0, false, .budget 100 100⟩
        256 ≤ (State.taken { paired with tide.timed := List.replicate 256 t } 0 hdr).tide.timed.length) ∧ findKey Cut.snap (leAt b 3 4) (paired.taken 0 hdr).snap.cuts = none ∧
       (paired.taken 0 hdr).snap.epochs = [] ∧
       findKey Cut.snap (leAt b 3 4) (State.taken { paired with snap.cuts := [c] } 0 hdr).snap.cuts = some c) := by
  refine ⟨?_, ?_, ?_, ?_, ?_, ?_, ?_, ?_⟩ <;> decide +kernel

/-- A LIVE GCM key page of sessions, and the session 7 of volume 1. -/
def gcmPage : KeyPage := { mediaPage 6 with cfg := 0x42, salt := 9 }
def sess (role : Nat) (st : SessSt) : Session :=
  { Session.ofRecord [] with no := 7, role := role, scope := 0, obj := 1, keyPage := 6, port := 1, state := st }

/-- A head with a session, a packet fetched and port 1 up. -/
def sends (x : Session) (e : Entry) : State :=
  { keeps vol1 e with
    snap.sessions := [x], keys.pages := [mediaPage 5, gcmPage], xpt.ports := [port1] }

theorem witness_ReplicationSessionsAreManaged :
    (let e (page : Nat) : Entry := pk 0x90 (leBytes 2 7 ++ [0, 0] ++ leBytes 4 1 ++ leBytes 2 page ++ [15, 63] ++ leBytes 4 0 ++ List.replicate 16 0 ++ leBytes 2 1 ++ leBytes 2 1)
     let s (p : Nat) : State := { sends (sess 0 .idle) (e p) with snap.sessions := [] }
     (s 6).runs 0x90 (e 6) = true ∧ (s 5).runs 0x90 (e 5) = true ∧ (e 6).num 13 1 = 0 ∧ (e 6).num 14 4 = 1 ∧ (s 6).scopeVols 0 1 = [1] ∧ (s 6).ownsVol 1 = true ∧
       (s 6).vol? 1 = some vol1 ∧ (s 6).moving 1 = false ∧ (e 6).num 12 1 = 0 ∧ (e 6).num 18 2 = 6 ∧ (e 6).num 20 1 = 15 ∧ (e 6).num 21 1 = 63 ∧
       (e 6).zero 46 2 = true ∧ ((sends (sess 0 .idle) (e 6)).session? ((e 6).num 10 2)).isSome = true ∧ ((s 6).kpage 6).state = .live ∧
       ((s 6).kpage 6).usage = 2 ∧ ((s 6).kpage 6).persist = true ∧ ((s 7).kpage 7).state ≠ .live ∧ [2].all (s 6).ownsVol = false) ∧
    (let x := sess 0 .idle
     let s := sends x (pk 0x01 [])
     (s.eport x.port).up = true ∧ (up.eport x.port).up = false ∧ s.freeCtx < 1048576 ∧ s.privPairs < 1024 ∧ (s.landingKey 1).isSome = true ∧
       s.landingKey 0 = none ∧ ({ s with mem.hbmSplit := 0 } : State).landingKey 1 = none) ∧
    (let e (at_ : Nat) : Entry := pk 0x91 (leBytes 2 7 ++ leBytes 2 0 ++ leBytes 8 at_)
     let s (t : Nat) : State := sends (sess 0 .idle) (e t)
     (s 16000).runs 0x91 (e 16000) = true ∧ (s 16000).session? ((e 16000).num 10 2) = some (sess 0 .idle) ∧ (s 16000).ownsSession (sess 0 .idle) = true ∧
       (e 16000).zero 12 2 = true ∧ (s 16000).tide.state ≠ .freerun ∧ (s 16000).slot + 2 ≤ (e 16000).num 14 8 / 8000 ∧
       (e 15999).num 14 8 / 8000 < (s 15999).slot + 2 ∧ (s 16000).tide.timed.length < 256 ∧ (sess 1 .idle).role ≠ 0) ∧
    (let e (o : Nat) : Entry := pk o (leBytes 2 7)
     let s (o : Nat) : State := sends (sess 0 .idle) (e o)
     (s 0x92).runs 0x92 (e 0x92) = true ∧ (s 0x93).runs 0x93 (e 0x93) = true ∧ (s 0x92).session? ((e 0x92).num 10 2) = some (sess 0 .idle) ∧
       (s 0x93).session? ((e 0x93).num 10 2) = some (sess 0 .idle) ∧ (e 0x92).zero 12 2 = true ∧ (e 0x93).zero 12 2 = true ∧
       ({ s 0x92 with snap.sessions := [] } : State).session? ((e 0x92).num 10 2) = none) ∧
    (let s (x : Session) : State := sends x (pk 0x01 [])
     (s (sess 0 .suspended)).session? 7 = some (sess 0 .suspended) ∧ (s (sess 0 .suspended)).ownsSession (sess 0 .suspended) = true ∧
       (s (sess 0 .connecting)).session? 7 = some (sess 0 .connecting) ∧ (sess 0 .suspended).state ≠ .connecting) := by decide +kernel

/-- The header of a message without a body: type, flags, items, sequence and snapshot. -/
def replWords (typ flags items seq snap : Nat) : Bytes :=
  let b := leBytes 4 replMagic ++ leBytes 1 typ ++ leBytes 1 flags ++ leBytes 2 items ++ leBytes 4 0 ++ leBytes 4 8 ++ leBytes 8 seq ++ leBytes 4 snap ++
    List.replicate 32 0
  b ++ leBytes 4 (crc32c b)
/-- The message of a header, with the tag that GCM gives it. -/
def replMsg (head : Bytes) : Bytes := head ++ slice (Config.gcmTag gcmPage.key1 (slice head 12 4 ++ slice head 32 8) head []) 0 16

theorem test_slice_length (b : Bytes) (off len : Nat) : (slice b off len).length = len := by
  simp [slice] <;> omega

theorem test_slice_front (a b : Bytes) (off len : Nat) (h : off + len ≤ a.length) : slice (a ++ b) off len = slice a off len := by
  simp only [slice, List.drop_append_of_le_length (show off ≤ a.length by omega)]
  rw [List.take_append_of_le_length (by simp; omega)]

theorem test_leAt_front (a b : Bytes) (off len : Nat) (h : off + len ≤ a.length) : leAt (a ++ b) off len = leAt a off len := by
  simp only [leAt, List.drop_append_of_le_length (show off ≤ a.length by omega)]
  rw [List.take_append_of_le_length (by simp; omega)]

/-- A message opens, whatever GCM computes, where its header is well made and its session has the key page. -/
theorem test_message_opens (head : Bytes) (x : Session) (s : State) (hk : s.kpage x.keyPage = gcmPage)
    (hh : head.length = 64 ∧ leAt head 40 4 = 0 ∧ leAt head 0 4 = replMagic ∧ leAt head 60 4 = crc32c (head.take 60)) :
    s.replOpen x (replMsg head) = some (⟨leAt head 4 1, leAt head 5 1, leAt head 6 2, leAt head 16 8, leAt head 24 4, leAt head 28 4⟩, leAt head 12 4, []) := by
  obtain ⟨hl, hn, hm, hc⟩ := hh
  generalize ht : slice (Config.gcmTag gcmPage.key1 (slice head 12 4 ++ slice head 32 8) head []) 0 16 = tag
  have hlt : tag.length = 16 := by rw [← ht, test_slice_length]
  have hs (off len : Nat) (h : off + len ≤ 64) : slice (replMsg head) off len = slice head off len := test_slice_front _ _ _ _ (by omega)
  have hle (off len : Nat) (h : off + len ≤ 64) : leAt (replMsg head) off len = leAt head off len := test_leAt_front _ _ _ _ (by omega)
  have hw : slice head 0 64 = head := by simp [slice, hl, List.take_of_length_le]
  have hz : slice (replMsg head) 64 0 = [] := by simp [slice]
  have hr : slice (replMsg head) 64 16 = tag := by
    unfold replMsg
    rw [ht]
    simp only [slice]
    rw [List.drop_left' hl, List.take_of_length_le (by omega)]
    simp [hlt]
  have hlen : (replMsg head).length = 80 := by simp [replMsg, hl, test_slice_length]
  unfold State.replOpen
  rw [hk]
  dsimp only
  rw [hle 40 4 (by omega), hn, hs 0 64 (by omega), hw, hs 12 4 (by omega), hs 32 8 (by omega), hz, hr, hle 0 4 (by omega), hle 60 4 (by omega), hlen, ht,
    hle 4 1 (by omega), hle 5 1 (by omega), hle 6 2 (by omega), hle 16 8 (by omega), hle 24 4 (by omega), hle 28 4 (by omega), hle 12 4 (by omega), if_neg]
  · simp [slice]
  · rintro (h | h | h | h)
    · exact h hm
    · exact h hc
    · exact h rfl
    · exact h rfl

/-- The session 7 with a message waiting. -/
def hears (role : Nat) (st : SessSt) (opened : Bool) (msg : Bytes) : Session := { sess role st with opened := opened, arrived := [msg] }

theorem witness_ReplicationMessagesApplyInOrder :
    (let s (x : Session) : State := sends x (pk 0x01 [])
     (s (sess 1 .idle)).session? 7 = some (sess 1 .idle) ∧ (sess 1 .idle).arrived = [] ∧
     (∀ role ∈ [0, 1], ∀ typ ∈ [0, 1, 2, 3, 4, 5],
       let msg : Bytes := leBytes 4 0 ++ leBytes 1 typ
       let x := hears role (if role = 0 then .sending else .idle) true msg
       let y : Session := { x with arrived := [] }
       (s x).session? 7 = some x ∧ x.arrived = msg :: [] ∧ leAt msg 4 1 = typ ∧ x.opened = true ∧ ((s x).putSession y).replOpen y msg = none)) ∧
    (let x : Session := { sess 1 .idle with replica := 4, next := 10 }
     let h (snap q : Nat) : ReplHdr := ⟨1, 0, 1, q, snap, 0⟩
     (h 4 0).snap = x.replica ∧ (h 5 0).snap ≠ x.replica ∧ (h 5 0).seq < x.next ∧ (h 5 10).seq = x.next + x.built.length ∧
       (h 5 11).seq ≠ x.next + x.built.length ∧ x.next ≤ (h 5 11).seq) ∧
    (let x : Session := { sess 0 .sending with sending := 3, sent := [(0, 0)] }
     findKey Prod.fst 0 x.sent = some (0, 0) ∧ (replWords 3 0 0 0 3).length = 64 ∧ leAt (replWords 3 0 0 0 3) 24 4 = x.sending ∧
       (leAt (replWords 3 0 0 0 3) 5 1).testBit 0 = false ∧ (leAt (replWords 3 0 0 0 3) 5 1).testBit 1 = false ∧
       (leAt (replWords 3 1 0 0 3) 5 1).testBit 0 = true ∧ (leAt (replWords 3 2 0 0 3) 5 1).testBit 0 = false ∧
       (leAt (replWords 3 2 0 0 3) 5 1).testBit 1 = true ∧ leAt (replWords 1 0 1 0 3) 6 2 ≠ 0 ∧ gcmPage.salt ≠ 8) := by decide +kernel

/-- A message of each type whose authentication holds, and a session that takes it. -/
theorem witness_ReplicationMessagesOpen (role typ flags items seq snap : Nat) (st : SessSt) (opened : Bool)
    (h : (role, typ, flags, items, seq, snap, st, opened) ∈
      [(1, 1, 0, 1, 0, 3, SessSt.idle, true), (1, 2, 0, 0, 0, 3, .idle, true), (0, 3, 0, 0, 0, 0, .sending, true), (0, 3, 1, 0, 0, 0, .sending, true),
       (0, 3, 2, 0, 0, 0, .sending, true), (0, 4, 0, 0, 0, 0, .connecting, false), (1, 4, 0, 0, 0, 0, .connecting, false),
       (0, 5, 0, 0, 0, 0, .connecting, false), (1, 5, 0, 0, 0, 0, .connecting, false)]) :
    let x := hears role st opened (replMsg (replWords typ flags items seq snap))
    let y : Session := { x with arrived := [] }
    let s := sends x (pk 0x01 [])
    s.session? 7 = some x ∧ x.arrived = replMsg (replWords typ flags items seq snap) :: [] ∧ x.state = st ∧ x.opened = opened ∧ x.role = role ∧
      (s.putSession y).replOpen y (replMsg (replWords typ flags items seq snap)) = some (⟨typ, flags, items, seq, snap, 0⟩, 8, []) := by
  refine ⟨rfl, rfl, rfl, rfl, rfl, ?_⟩
  simp only [List.mem_cons, Prod.mk.injEq, List.not_mem_nil, or_false] at h
  rcases h with h | h | h | h | h | h | h | h | h <;> obtain ⟨rfl, rfl, rfl, rfl, rfl, rfl, rfl, rfl⟩ := h <;>
    exact test_message_opens _ _ _ rfl (by decide +kernel)

/-- The bytes of a HELLO of the peer: role, pair state, part 0x8816, step 0x20, firmware major, generation, pool. -/
def hello (role st major gen : Nat) (pool : Byte) : Bytes :=
  leBytes 1 role ++ leBytes 1 st ++ leBytes 2 0x8816 ++ leBytes 1 0x20 ++ leBytes 1 major ++ leBytes 2 0 ++ leBytes 2 0 ++ leBytes 1 gen ++ leBytes 5 0 ++
    List.replicate 16 pool ++ List.replicate 16 7

theorem witness_TheLinkComesUpAndMeetsThePeer :
    (up.pair.icl = 0 ∧ up.domainOff 2 = false ∧ up.ust iclUnit ≠ .failed ∧ paired.pair.icl ≠ 0 ∧ up.pair.helloSeen = false) ∧
    (let s : State := { up with boot.fwVer := 0x04000000 }
     let h (role st major gen : Nat) (pool : Byte) : Hello := helloOf (hello role st major gen pool)
     (h 0 1 4 3 1).role = s.role ∧ (h 1 1 4 3 1).role ≠ s.role ∧ (h 1 1 4 3 1).part = 0x8816 ∧ (h 1 1 4 3 1).step = 0x20 ∧
       (helloOf (leBytes 1 1)).part ≠ 0x8816 ∧ (h 1 1 5 3 1).fwMajor ≠ bits s.boot.fwVer 31 24 ∧ (h 1 1 4 3 1).fwMajor = bits s.boot.fwVer 31 24 ∧
       allZero (h 1 1 4 3 1).poolId = false ∧ allZero s.pool.id = false ∧ s.pool.loaded = true ∧ (h 1 1 4 3 2).poolId ≠ s.pool.id ∧
       allZero (h 1 1 4 3 0).poolId = true ∧ (h 1 1 4 3 1).poolId = s.pool.id ∧ (h 1 1 4 2 1).genNow = 2 ∧ (h 1 1 4 3 1).genNow = 3 ∧
       (h 1 1 4 1 1).genNow < 2 ∧ 3 < (h 1 1 4 4 1).genNow ∧ s.helloRefuse (h 1 1 4 3 1) true = 0 ∧ s.helloRefuse (h 0 1 4 3 1) true = 1 ∧
       (h 0 1 4 3 1).pairState = 1 ∧ ({ s with pair.state := .pairWait } : State).pair.state = .pairWait) := by decide +kernel

theorem witness_HeartbeatsDetectTheLossOfThePeer :
    (up.pair.icl = 0 ∧ paired.pair.icl ≠ 0 ∧ paired.pair.state = .paired) ∧
    (let p : Bytes := leBytes 8 0 ++ leBytes 1 3 ++ leBytes 7 0 ++ leBytes 8 1 ++ leBytes 8 1
     let lifted (s : State) : State := State.liftGate { s with
       pair.lease := true, pair.peerState := leAt p 8 1, pair.peerDurable := leAt p 16 8, pair.peerShadow := leAt p 24 8, pair.state := .paired }
     (lifted { paired with pair.state := .suspect }).pair.state = .paired ∧ up.pair.gated = [] ∧ up.xpt.qps = [] ∧ leAt p 8 1 = 3 ∧
       (let s : State := { up with pair.rejoinStep := 2 }
        s.pair.state = .solo ∧ s.pair.rejoinStep = 2 ∧ (State.enterPaired { s with pair.rejoinStep := 3 }).pair.state = .paired)) ∧
    (let s : State := { paired with pair.state := .fenced }
     s.pair.autoRejoin = false ∧ s.gateClosed = true ∧ paired.gateClosed = false) ∧
    (paired.peerInService = true ∧ up.peerInService = false ∧ paired.nextOn 0 hdr = true) := by decide +kernel

theorem witness_ElectionsAreDecidedAtTheLead :
    let el (won waiting : Bool) : Election := ⟨0, won, waiting, [(0, 6)]⟩
    let m (own other : RsvSt) : Module := { module16 0 with ownRsv := own, otherRsv := other, ownEpoch := 6 }
    let s (e : Election) (own other : RsvSt) : State := { up with pair.state := .electing, pair.election := some e, lnk.mods := [m own other, module16 1] }
    ((s (el false true) .registered .none).pair.election = some (el false true) ∧ (el true false).leadWon = true ∧ (el false true).waiting = true ∧
      up.pair.election = none) ∧
    (let w : State := { up with pair.state := .pairWait }
     w.pair.state = .pairWait ∧ w.pair.waitSolo = false ∧ up.pair.state ≠ .pairWait) ∧
    (shelf.pair.election = none ∧ shelf.direct 0 = true) ∧
    (((s (el false true) .fenced .none).mod 0).ownRsv = .fenced ∧ (s (el false true) .fenced .none).pair.rejoinStep = 0 ∧
      ((s (el false true) .registered .fenced).mod 0).ownRsv ≠ .fenced ∧ findKey Prod.fst 0 (el false true).asked = some (0, 6) ∧
      (s (el false true) .registered .fenced).preempted (0, 6) = true ∧ (s (el false true) .registered .registered).preempted (0, 6) = false ∧
      findKey Prod.fst 1 (el false true).asked = none ∧ 1 ≠ (el false true).lead ∧
      (∀ a ∈ (el true false).asked, (s (el true false) .registered .fenced).preempted a = true) ∧
      ((s (el true false) .registered .fenced).mod 0).present = true ∧ (s (el true false) .registered .fenced).direct 0 = true) := by decide +kernel

theorem witness_PairMessagesAreTakenInOrder :
    (let h (q : Nat) (more : Bool) : PtlHdr := ⟨q, false, 0, more⟩
     let s (e : Nat) : State := { paired with pair.chans := [{ PtlChan.reset with expect := e }] }
     let ch (e : Nat) (x : PtlHdr) : PtlChan := ((s e).retired 0 x).chan 0
     (h 5 false).seq = (ch 5 (h 5 false)).expect ∧ (h 5 true).more = true ∧ (h 4 false).seq ≠ (ch 5 (h 4 false)).expect ∧
       serialAfter 32 (ch 5 (h 4 false)).expect 4 = false ∧ serialAfter 32 (ch 5 (h 6 false)).expect 6 = true ∧ (ch 5 (h 6 false)).naked = false ∧
       serialAfter 32 (ch (2 ^ 32 - 1) (h 0 false)).expect 0 = true) ∧
    (paired.pair.leadPend = none ∧ paired.ctl.cfgWaits = [] ∧
      ({ paired with pair.leadPend := some (3, 9) } : State).pair.leadPend = some (3, 9) ∧ seqLe 9 9 = true ∧ paired.pair.icl ≠ 0 ∧ up.pair.icl = 0) ∧
    (let t := ((paired.taken 1 hdr).journalRow (paired.taken 1 hdr).following (paired.whole 1 hdr [])).bump R.PAIR_JOURNAL_RX_CNT
     paired.nextOn 1 hdr = true ∧ t.pair.moves = []) ∧
    (let b (x : Nat) : Bytes := leBytes 2 0 ++ leBytes 1 x ++ leBytes 20 0
     paired.nextOn 0 hdr = true ∧ paired.whole 0 hdr (b 1) = b 1 ∧ (paired.taken 0 hdr).pool.loaded = true ∧ 
       (let cf (k : Nat) : Bytes := leBytes 2 0 ++ leBytes 8 1 ++ leBytes 1 k ++ leBytes 1 2 ++ leBytes 20 0
        let t (k : Nat) : State := (paired.taken 0 hdr).applyCfg (1 - (paired.taken 0 hdr).role) (leAt (cf k) 2 8) ((cf k).drop 10)
        paired.whole 0 hdr (cf cfgGen) = cf cfgGen ∧ leAt ((cf cfgGen).drop 10) 0 1 = cfgGen ∧ leAt ((cf cfgVolumeGone).drop 10) 0 1 ≠ cfgPool ∧
          ((t cfgGen).pool.loaded && cfgShared ((cf cfgGen).drop 10)) = true ∧ ((t cfgVolumeGone).pool.loaded && cfgShared ((cf cfgVolumeGone).drop 10)) = false) ∧
       (paired.taken 0 hdr).pair.transferKey = none ∧
       (State.taken { paired with pair.transferKey := some [1] } 0 hdr).pair.transferKey = some [1] ∧ leAt (b 1) 2 1 = 1 ∧ leAt (b 4) 2 1 = 4) := by
  decide +kernel

theorem witness_GroupsMoveBetweenTheHeads :
    (let e (g : Nat) : Entry := pk 0x81 (leBytes 2 g)
     let s (st : PairSt) (g : Nat) : State := { (holds [vol1]).got (e g) with pair.state := st, pair.icl := 2, pair.lease := true }
     (s .paired 1).runs 0x81 (e 1) = true ∧ (s .paired 2).runs 0x81 (e 2) = true ∧ (s .paired 0).runs 0x81 (e 0) = true ∧
       (s .paired 1025).runs 0x81 (e 1025) = true ∧ (s .solo 1).runs 0x81 (e 1) = true ∧ (e 1).num 10 2 = 1 ∧ (e 1).zero 12 2 = true ∧
       (s .paired 1).ownsGroup 1 = true ∧ (s .paired 2).ownsGroup 2 = false ∧ (s .solo 1).ownsGroup 1 = true ∧ (s .paired 1).pairBusy = false ∧
       ({ s .paired 1 with pair.rejoinStep := 1 } : State).pairBusy = true) ∧
    (let e (g h : Nat) : Entry := pk 0x82 (leBytes 2 g ++ leBytes 1 h)
     ((holds [vol1]).got (e 1024 1)).runs 0x82 (e 1024 1) = true ∧ ((holds [vol1]).got (e 0 0)).runs 0x82 (e 0 0) = true ∧ (e 1024 1).num 10 2 = 1024 ∧
       (e 1024 1).num 12 1 = 1 ∧ (e 1024 1).zero 13 1 = true) ∧
    (let e := pk 0x83 []
     let s (st : PairSt) (vs : List Volume) : State := { (holds vs).got e with pair.state := st, pair.icl := 2, pair.lease := true }
     let gs (s : State) : List Nat := ((s.pool.volumes.map Volume.ana).eraseDups).filter s.ownsGroup
     (s .paired []).runs 0x83 e = true ∧ (s .solo []).runs 0x83 e = true ∧ gs (s .paired []) = [] ∧ gs (s .paired [vol1]) = [1] ∧
       (s .paired []).pairBusy = false ∧ (s .paired [vol1]).runs 0x83 e = true) ∧
    (let m (out : Bool) (step : Nat) : Move := ⟨1, step, out, none, (0, 0), false⟩
     let s (x : Move) : State := { holds [vol1] with pair.state := .paired, pair.icl := 2, pair.moves := [x] }
     (s (m true 1)).move? 1 = some (m true 1) ∧ (s (m true 1)).groupDrained 1 = true ∧ (s (m true 1)).pair.leaving = none ∧
       ({ s (m true 1) with hq.cmds := [cmd1] } : State).groupDrained 1 = false ∧ (s (m false 3)).move? 1 = some (m false 3) ∧ up.move? 1 = none ∧
       ((((s (m true 1)).dropMove 1).setChange 1 false).control 0x0007 (moveMsg 1 0 false (0, 0))).pair.leaving = none) ∧
    (let b (step : Nat) : Bytes := leBytes 2 0 ++ leBytes 2 1 ++ leBytes 1 step ++ leBytes 1 0 ++ leBytes 10 0
     let m : Move := ⟨1, 2, true, none, (0, 0), false⟩
     paired.nextOn 0 hdr = true ∧ paired.whole 0 hdr (b 4) = b 4 ∧ leAt (b 4) 2 2 = 1 ∧ leAt (b 4) 4 1 = 4 ∧
       (State.taken { paired with pair.moves := [m] } 0 hdr).move? 1 = some m ∧ (paired.taken 0 hdr).move? 1 = none) := by decide +kernel

theorem witness_AReturningHeadRejoins :
    (let e := pk 0x84 []
     let s (st : PairSt) (refuse peer : Nat) : State := { up.got e with pair.state := st, pair.refuse := refuse, pair.peerState := peer, pair.hello := some (helloOf []) }
     (s .paired 0 0).runs 0x84 e = true ∧ (s .fenced 0 6).runs 0x84 e = true ∧ (s .fenced 3 6).runs 0x84 e = true ∧ (s .paired 0 0).pairBusy = false ∧
       (s .fenced 0 6).pair.hello.isSome = true ∧ (s .fenced 0 6).peerSolo = true ∧ (s .fenced 0 3).peerSolo = false ∧ (s .fenced 0 3).runs 0x84 e = true ∧
       (s .fenced 0 6).keys.erased = false ∧ ({ s .paired 0 0 with pair.rejoinStep := 1 } : State).pairBusy = true) ∧
    (let e := pk 0x80 []
     (up.got e).runs 0x80 e = true ∧ (up.got e).pair.hello = none ∧ ({ up.got e with pair.hello := some (helloOf []) } : State).runs 0x80 e = true) ∧
    (let s (st : PairSt) : State := { up with pair.state := st, pair.rejoinStep := 1 }
     (s .solo).own.durable ≤ (s .solo).pair.peerShadow ∧ ((s .sync).journal (1 - (s .sync).role)).tip ≥ (s .sync).pair.peerDurable ∧
       ({ s .sync with pair.peerDurable := 2 ^ 40 } : State).pair.peerDurable > ((s .sync).journal 1).tip ∧
       (let d : State := (s .solo).putJournal { (s .solo).journal 0 with durable := 9 }
        d.pair.peerShadow < d.own.durable ∧ d.pair.state = .solo)) := by decide +kernel

/-- The first 32 bytes of an image of one body byte, of major version 4. -/
def imgHead : Bytes := leBytes 4 0x43485244 ++ leBytes 2 1 ++ leBytes 2 0x8816 ++ [0x20, 4] ++ leBytes 6 0 ++ leBytes 4 1 ++ leBytes 12 0

/-- Whatever the digest is, an image that carries it verifies. -/
theorem witness_FirmwareImageVerifies (s : State) (body : Nat → Bytes) (rest : Bytes) (h : s.boot.svn = 0) :
    s.imageCode (imgHead ++ (Config.sha2 2 (body 1) ++ rest)) body ⟨true, true, true⟩ = 0 ∧ leAt (imgHead ++ (Config.sha2 2 (body 1) ++ rest)) 9 1 = 4 := by
  have hd : ∀ d : Bytes, d.length = 48 → slice (imgHead ++ (d ++ rest)) 32 48 = d := by
    intro d hd
    have h1 : (imgHead ++ (d ++ rest)).drop 32 = d ++ rest := List.drop_left' rfl
    have h2 : (d ++ rest).take 48 = d := List.take_left' hd
    simp [slice, h1, h2, hd]
  have hl : (Config.sha2 2 (body 1)).length = 48 := by simp [Config.sha2, Config.digestLen]
  generalize hs : Config.sha2 2 (body 1) = d at hl ⊢
  have ha : ∀ o n : Nat, o + n ≤ 32 → leAt (imgHead ++ (d ++ rest)) o n = leAt imgHead o n := by
    intro o n ho
    have h32 : imgHead.length = 32 := by decide
    unfold leAt
    rw [List.drop_append_of_le_length (by omega), List.take_append_of_le_length (by rw [List.length_drop]; omega)]
  unfold State.imageCode
  dsimp only
  rw [hd d hl, ha 0 4 (by decide), ha 4 2 (by decide), ha 6 2 (by decide), ha 8 1 (by decide), ha 9 1 (by decide), ha 13 1 (by decide), ha 14 1 (by decide),
    ha 16 4 (by decide), show leAt imgHead 16 4 = 1 by decide, hs, h]
  exact ⟨by rw [if_neg (by decide), if_neg (by decide), if_neg (by decide), if_neg (by decide), if_neg (fun g => g rfl), if_neg (Nat.not_lt_zero _),
    if_neg (by decide)], by decide⟩

theorem witness_FirmwareIsDownloadedActivatedAndCommitted :
    (let e (o : Nat) (x : Byte) : Entry := pk o [x]
     (up.got (e 0x00 0)).runs 0x00 (e 0x00 0) = true ∧ (up.got (e 0x02 0)).runs 0x02 (e 0x02 0) = true ∧ (up.got (e 0x02 1)).runs 0x02 (e 0x02 1) = true ∧
       (up.got (e 0xC3 0)).runs 0xC3 (e 0xC3 0) = true ∧ (e 0x02 0).zero 11 3 = true) ∧
    (let e (off len : Nat) : Entry := pk 0xC0 (leBytes 4 off ++ leBytes 4 len ++ leBytes 8 4096)
     let d : Bytes := imgHead.take 16 ++ leBytes 4 8192
     let s (off len st : Nat) : State := { up.got (e off len) with boot.slots := { up.boot.slots with stA := st, stB := st } }
     (s 0 4096 5).runs 0xC0 (e 0 4096) = true ∧ (s 0 16777217 5).runs 0xC0 (e 0 16777217) = true ∧ (e 0 4096).num 14 4 % 4096 = 0 ∧
       (s 0 4096 4).boot.slots.st (s 0 4096 4).targetSlot = 4 ∧ (s 0 4096 5).boot.slots.st (s 0 4096 5).targetSlot ≠ 4 ∧
       (s 4096 4096 5).boot.dlActive = false ∧ (s 0x20000000 4096 5).runs 0xC0 (e 0x20000000 4096) = true ∧
       ({ s 0x20000000 4096 5 with boot.dlActive := true, boot.dlNext := 0x20000000 } : State).boot.dlNext = (e 0x20000000 4096).num 10 4 ∧
       (s 0 4096 5).bankBusy (bankOf (slotBase (s 0 4096 5).targetSlot)) = false ∧ (e 0 4096).num 14 4 < leAt (slice d 0 64) 16 4 + 4096) ∧
    (let e := pk 0xC1 [1]
     let s (svn : Nat) : State := { up.got e with boot.svn := svn }
     (s 0).runs 0xC1 e = true ∧ e.num 10 1 = 1 ∧ e.zero 11 3 = true ∧ (s 0).imageCode [] (fun _ => []) ⟨true, true, true⟩ = 1 ∧
       (s 0).imageCode imgHead (fun _ => []) ⟨false, true, true⟩ = 3 ∧ (s 0).pair.state ≠ .paired ∧ (helloOf (hello 1 1 5 3 1)).fwMajor ≠ 4) ∧
    (let e := pk 0xC2 []
     (up.got e).runs 0xC2 e = true ∧ (up.got e).boot.trial = false ∧ ({ up.got e with boot.trial := true } : State).runs 0xC2 e = true) ∧
    (let s : State := { up with boot.stage := 8 }
     s.boot.stage = 8 ∧ leAt imgHead 16 4 + 4096 ≤ 4097) := by decide +kernel

/-- A password's digest, and one that is none. -/
theorem witness_FieldPassword (b : Bytes) : (Config.sha2 2 b == Config.sha2 2 b) = true ∧ (Config.sha2 2 b == []) = false :=
  ⟨by rw [beq_iff_eq], rfl⟩

/-- An unlock packet that carries the keyed digest of a nonce. -/
theorem witness_FieldResponse (k nc : Bytes) :
    let mac := hmac256 k (nc ++ uniqueBytes ++ leBytes 1 3)
    (mac == (pk 0xE1 ([2, 3, 0, 0] ++ mac)).sub 14 32) = true := by
  rw [beq_iff_eq]; rfl

theorem witness_FieldAccessIsCheckedAndEnds :
    (let e := pk 0xE0 []
     (up.got e).runs 0xE0 e = true) ∧
    (let e (m sc : Byte) : Entry := pk 0xE1 [m, sc]
     let s (m sc : Byte) (open_ : Bool) : State := { up.got (e m sc) with boot.sessionOpen := open_, boot.pwd := some [], boot.fkey := some [] }
     (s 1 7 true).runs 0xE1 (e 1 7) = true ∧ (s 2 7 false).runs 0xE1 (e 2 7) = true ∧ (s 0 7 true).runs 0xE1 (e 0 7) = true ∧ (e 1 7).num 10 1 = 1 ∧
       (e 1 7).num 11 1 = 7 ∧ (e 1 7).zero 12 2 = true ∧ (e 1 8).num 11 1 = 8 ∧ (up.got (e 1 7)).boot.pwd = none ∧ (s 1 7 false).lockLeft = 0 ∧
       0 < ({ s 1 7 false with boot.fails := 3 } : State).lockLeft ∧ (s 2 7 false).boot.nonce = none ∧ ((e 1 3).num 11 1).testBit 2 = false ∧
       ((e 1 4).num 11 1).testBit 2 = true) ∧
    (let e (m : Byte) : Entry := pk 0xE3 [m, 0]
     (up.got (e 1)).runs 0xE3 (e 1) = true ∧ (up.got (e 2)).runs 0xE3 (e 2) = true ∧ (up.got (pk 0xE2 [])).runs 0xE2 (pk 0xE2 []) = true ∧
       (e 1).zero 11 1 = true ∧ (up.got (e 1)).boot.pwd = none ∧ (up.got (e 2)).boot.fkey = none ∧
       ({ up with boot.pwd := some [] } : State).boot.pwd.isSome = true) ∧
    up.boot.sessionOpen = true ∧ ({ up with boot.sessionOpen := false } : State).boot.sessionOpen = false := by decide +kernel

theorem witness_PowerDomainsAreSwitched :
    (let e (d : Nat) (x : Byte) : Entry := pkTo 0xA3 (unitId 9 d) [x]
     let s (d : Nat) (x : Byte) (off : List Nat) : State := { up.got (e d x) with pwr.off := off }
     (s 95 1 [95]).runs 0xA3 (e 95 1) = true ∧ (s 89 0 []).runs 0xA3 (e 89 0) = true ∧ (s 1 0 []).runs 0xA3 (e 1 0) = true ∧ unitIndex (e 95 1).target = 95 ∧
       (e 95 1).num 10 1 = 1 ∧ (e 95 1).zero 11 3 = true ∧ (s 95 1 [95]).pwr.waiting = [] ∧ (s 95 1 [95]).pwr.off.contains 95 = true ∧
       (s 3 0 []).runs 0xA3 (e 3 0) = true ∧ (s 3 0 []).pwr.off.contains 3 = false ∧ (s 3 0 []).domainBooked 3 = false ∧ (s 3 0 []).domainLast 3 = false ∧
       (s 95 0 []).domainLast 95 = true ∧ (s 95 0 []).runs 0xA3 (e 95 0) = true ∧ (s 2 0 []).runs 0xA3 (e 2 0) = true ∧ (s 2 0 []).pair.state ≠ .paired ∧
       (up.domainOut 3).isOk = true ∧
       (let m : State := { mirrored2 with med.units := mirrored2.med.units ++ [online (unitId 5 0), online (unitId 1 16)] }
        m.ust (unitId 7 0) = .degraded ∧ (m.domainOut 19).isOk = false) ∧
       (s 3 0 []).pwr.waiting.any (fun w => w.1 == 3) = false ∧
       ({ s 3 0 [] with pwr.waiting := [(3, packetRef 0 0 (e 3 0))] } : State).pwr.waiting.any (fun w => w.1 == 3) = true) ∧
    (let s : State := { up with pwr.notReady := [3] }
     s.pwr.notReady.contains 3 = true ∧ up.pwr.notReady.contains 3 = false ∧
       (State.domainIn { s.domainRegs 3 with pwr.notReady := [] } 3).pwr.waiting = [] ∧
       (let p := packetRef 0 0 (pk 0xA3 [])
        let w : State := { s with pwr.waiting := [(3, p)] }
        (State.domainIn { w.domainRegs 3 with pwr.notReady := [] } 3).pwr.waiting = [(3, p)])) ∧
    (let e (o : Nat) : Entry := pk o []
     (up.got (e 0xA4)).runs 0xA4 (e 0xA4) = true ∧ (up.got (e 0xA5)).runs 0xA5 (e 0xA5) = true) := by decide +kernel

theorem witness_MonitorsStopTheHeadAndPowerFailDumps :
    ((420 : Int) ≤ 420 ∧ (419 : Int) < 420 ∧ (400 : Int) ≤ 420 - 20 ∧ (420 : Int) - 20 < 401) ∧
    (let hot : State := (List.range 64).foldl (fun (x : State) i => x.tempStep i 4000) up
     let cool : State := (List.range 64).foldl (fun (x : State) i => x.tempStep i 0) up
     hot.pwr.tempMon.any TempMon.warn = true ∧ cool.pwr.tempMon.any TempMon.warn = false ∧ cool.pwr.tempMon.any TempMon.thr = false) ∧
    (up.keys.asserted.testBit 2 = false ∧ ({ up with keys.asserted := 4 } : State).keys.asserted.testBit 2 = true) ∧
    (let s (dumping done : Bool) : State := { up with pwr.pfail := true, pwr.dumping := dumping, pwr.dumpDone := done }
     up.pwr.pfail = false ∧ (s true false).pwr.pfail = true ∧ (s true false).pwr.dumping = true ∧ (s true false).evr.flushing = false ∧
       (s true false).pwr.dumpDone = false ∧
       (let d : Dump := ⟨List.replicate 256 1, []⟩
        ({ s true false with brn.dumpRun := some d } : State).brn.dumpRun = some d) ∧ (s false true).pwr.dumping = false ∧ (s false true).pwr.dumpDone = true ∧ up.pwr.holding = false) ∧
    (up.pwr.clockLost.contains 11 = false ∧ ({ up with pwr.clockLost := [11] } : State).pwr.clockLost.contains 11 = true) ∧
    (paired.pwr.critical = false ∧ paired.admitted = [] ∧ paired.hq.cmds = [] ∧ paired.peerInService = true) := by decide +kernel

/-! ### Worked examples of the spec, over states -/

/-- A die record of 65536-byte program units, 1024 units in a block. -/
def dieR64 : Bytes := List.replicate 30 0 ++ leBytes 2 16384 ++ leBytes 2 0 ++ [4] ++ leBytes 1 0 ++ leBytes 2 1024 ++ List.replicate 26 0

/-- The part of the default layout of 32 modules on the way to one grain: the ROOT pan, module pan 0x701003, and the die pans 3 of modules 0 and 10. -/
def layout32 : State :=
  let pan (n : Nat) : UnitD :=
    { blankUnit (unitId 7 (n * 64 + 3)) with state := .online, scheme := 3, m := 1, parent := 0x701003, pos := n, members := (List.range 16).map fun i => ⟨dieUnit n (48 + i), false⟩ }
  { up with
    lnk.mods := [0, 10].map fun n => { State.reset.mod n with present := true, up := true, dies := (List.range 16).map fun i => (48 + i, dieR64) }
    med.units := ([{ blankUnit 0x702000 with state := .online, scheme := 1, members := (List.range 4).map (fun j => ⟨0x701000 + j, false⟩), root := true },
      { blankUnit 0x701003 with state := .online, scheme := 3, m := 2, parent := 0x702000, pos := 3, members := (List.range 16).map fun n => ⟨unitId 7 (n * 64 + 3), false⟩ }, pan 0, pan 10] : List UnitD) ++
      [0, 10].flatMap fun n => (List.range 16).map fun i =>
        { blankUnit (dieUnit n (48 + i)) with state := .online, parent := unitId 7 (n * 64 + 3), pos := i } }

/-- 11_flash_translation.md, the example after R272: die position 54 of module 10, unit 400 of block 1025, crumb 64. -/
theorem test_ploc_resolves : layout32.resolve 0x030D2490BC40 = ⟨0x602836, 1025, 400, 64⟩ ∧ layout32.crumbs 0x701003 = 53760 := by decide +kernel

/-- 02_fabric_time.md, the example of R31 to R33: the estimate reaches 2000 ns after 146.8 s. -/
theorem test_holdover_estimate :
    let s (t : Nat) : State := { timed .holdover with tide.holdE0 := 100, tide.holdA := 1000, tide.holdC := 200, tide.holdSec := 0, tide.time := t }
    (s 146700000000).errEst < 2000 ∧ 2000 ≤ (s 146900000000).errEst := by decide +kernel

/-- 22_power_electrical.md, the example of R516: port 7 shows 477 cm. -/
theorem test_cable_length : ((up.setFld R.PWR_CABLE_CFG 7 0 4).setFld R.PWR_CABLE_CFG 23 16 174).cableCm 27400 false = 477 := by decide +kernel

/-- 05_rdma_transport.md, the example of R119: a cut to 200 Gb/s, and five increases. -/
theorem test_cnp_and_increases :
    let q : Qp := { qp1 with line := 400000, rc := 400000, rt := 400000, alpha := 2 ^ 30 }
    let s : State := rdma q
    let cut : State := s.putQp { q with rc := Nat.max 0 (q.rc * (2 ^ 31 - q.alpha) / 2 ^ 31) }
    let rc (t : State) : Nat := ((t.qp? 0).map Qp.rc).getD 0
    let next (t : State) : State := t.rateUp ((t.qp? 0).getD q)
    rc cut = 200000 ∧ rc (next cut) = 300000 ∧ rc (next (next cut)) = 350000 ∧ rc (next (next (next cut))) = 375000 ∧
      rc (next (next (next (next cut)))) = 387500 ∧ rc (next (next (next (next (next cut))))) = 393750 := by decide +kernel

/-- 16_memory_cache.md, the example after R396: 511 GiB of index area and 80 GiB of filter area; one domain of k = 30, and one of 29 beside it. -/
theorem test_domain_areas :
    up.indexAreas = (80 * 2 ^ 30, 511 * 2 ^ 30) ∧ up.domainFits 30 = true ∧ ({ up with pool.domains := [dom1] } : State).domainFits 30 = false ∧
      ({ up with pool.domains := [dom1] } : State).domainFits 29 = true := by decide +kernel

/-- 05_rdma_transport.md, the example of R115: ten retries and the timer of each. -/
theorem test_private_retry_limit : up.privLimit = 10 := by decide +kernel

/-- 02_fabric_time.md, the example of the tide table: the slot of a time. -/
theorem test_slot_of_time : ({ up with tide.time := 1753000000000000000 } : State).slot = 219125000000000 := by decide +kernel

/-! ### Units, pans and their members (10_media_units_pans.md) -/

/-- 10_media_units_pans.md R238, R239: engine 0 is a FIXED group of 8 clusters and the grain classifier a leaf; clusters and cores have their position. -/
theorem test_engine_tree :
    (blankUnit (unitId 2 0)).members.length = 8 ∧ (blankUnit (unitId 2 0)).scheme = 4 ∧ (blankUnit (unitId 2 5)).scheme = 0 ∧
      (blankUnit (unitId 3 13)).pos = 1 ∧ (blankUnit (unitId 4 399)).pos = 11 ∧ (blankUnit (unitId 4 399)).parent = unitId 3 25 ∧
      up.mlistAt (unitId 3 13) = 26 + 208 := by decide +kernel

/-- R248: a die that comes back into service leaves its pan and is a spare; its old position stays failed. -/
theorem test_returned_die :
    let s := ({ mirrored2 with regs := [((R.MED_CFG).addr, 0)] } : State).leafIn (dieUnit 0 1)
    s.ust (dieUnit 0 1) = .online ∧ s.isSpare (s.unit (dieUnit 0 1)) = true ∧ s.failedCnt (s.unit (unitId 7 0)) = 1 ∧
      (s.held (unitId 7 0)) = [dieUnit 0 0] := by decide +kernel

/-- R253: while AUTO_SUBST is 1 the die that comes back takes the failed position as its substitute, and the pan is rebuilt. -/
theorem test_returned_die_is_substitute :
    let s := ((mirrored2.noSpare (unitId 7 0) 1).dieOut (dieUnit 0 2) 1 .failed).leafIn (dieUnit 0 1)
    s.ust (unitId 7 0) = .rebuilding ∧ (s.unit (unitId 7 0)).members[1]? = some ⟨dieUnit 0 1, true⟩ := by decide +kernel

/-- R240: a module member presents its dies; one of them failing makes the module's position failed, and the module itself stays ONLINE. -/
theorem test_module_member :
    let s := shelf.buildPan (unitId 7 5) 2 2 [unitId 5 0, unitId 5 1] false
    let t := s.dieOut (dieUnit 1 3) 2 .failed
    (s.unit (dieUnit 1 3)).parent = unitId 5 1 ∧ t.ust (unitId 5 1) = .online ∧ t.failedCnt (t.unit (unitId 7 5)) = 1 ∧
      s.isSpare (s.unit (dieUnit 1 3)) = false := by decide +kernel

/-- R257: a unit state record that this head already holds has no further effect. -/
theorem test_record_held : mirrored2.applyUnit (mirrored2.descBytes (unitId 7 0) ++ mirrored2.mlistBytes (unitId 7 0)) = mirrored2 := by decide +kernel

/-! ### Rows, records and index pages (11_flash_translation.md) -/

/-- R285: a block of a die of 4 bits a cell and 1,024 program units holds 256 of them in SLC mode. -/
theorem test_slc_units : recSlcU (leBytes 2 0 ++ [4] ++ List.replicate 33 0 ++ leBytes 2 1024) = 256 := by decide +kernel

/-- R281: the 301st index page lies on the second of two dies, whose index blocks hold 256 and 128 pages. -/
theorem test_index_place : placeIn [256, 128] 300 = (1, 44) := by decide

/-- R279, R280: an entry record of 600 items has two parts, of 511 and 89 items, in 64 and 12 crumbs. -/
theorem test_record_parts :
    let r : JRec := ⟨1, 0, 7, 0, 1, List.replicate 600 ⟨0, 0, 0, 0, 0, 0, 0, 0⟩, [], 0, 1⟩
    r.split.map (fun q => (q.items.length, q.part, q.parts, q.crumbs)) = [(511, 0, 2, 64), (89, 1, 2, 12)] := by decide +kernel

/-- A system flash that is erased but for a calibration copy with `c` where its CRC stands. -/
def calMem (c : Nat) : List Host.Cell :=
  [⟨0, 0x52⟩, ⟨1, 0x4C⟩, ⟨2, 0x41⟩, ⟨3, 0x43⟩, ⟨4, 1⟩, ⟨5, 0⟩, ⟨60, BitVec.ofNat 8 c⟩, ⟨61, BitVec.ofNat 8 (c / 256)⟩,
    ⟨62, BitVec.ofNat 8 (c / 256 / 256)⟩, ⟨63, BitVec.ofNat 8 (c / 256 / 256 / 256)⟩]
def calState (c : Nat) : State := { State.reset with boot.cause := 0, sfl.mem := calMem c }

theorem test_cal_byte (c i : Nat) (h : i < 60 ∨ 64 ≤ i) : (calState c).sflByte i = (calState 0).sflByte i := by
  have e : ∀ c : Nat, (calState c).sflByte i = memRead 0xFF (calMem c) i := fun _ => rfl
  rw [e, e]
  unfold calMem
  simp only [memRead]
  have h0 : i ≠ 60 ∧ i ≠ 61 ∧ i ≠ 62 ∧ i ≠ 63 := by omega
  simp only [h0, if_false]

theorem test_crc_is_32_bits (b : Bytes) : crc32c b < 2 ^ 32 := by
  have h1 : ∀ c : Nat, c < 2 ^ 32 → crcBit 0x82F63B78 c < 2 ^ 32 := by
    intro c h; unfold crcBit; split
    · exact Nat.xor_lt_two_pow (by omega) (by decide)
    · omega
  have h2 : ∀ (l : Bytes) (c : Nat), c < 2 ^ 32 → l.foldl (crcByte 0x82F63B78) c < 2 ^ 32 := by
    intro l
    induction l with
    | nil => intro c h; exact h
    | cons x l ih =>
      intro c h
      have hx : c ^^^ x.toNat < 2 ^ 32 := Nat.xor_lt_two_pow h (by have := x.isLt; omega)
      exact ih _ (h1 _ (h1 _ (h1 _ (h1 _ (h1 _ (h1 _ (h1 _ (h1 _ hx))))))))
  exact Nat.xor_lt_two_pow (h2 b _ (by decide)) (by decide)

theorem test_cal_copy (n : Nat) (hn : 64 ≤ n) : ∃ c, calOk ((calState c).sflBytes 0 n) = true := by
  have hx : ∀ c : Nat, ((calState c).sflBytes 0 n).take 60 = ((calState 0).sflBytes 0 n).take 60 ∧
      ((calState c).sflBytes 0 n).drop 64 = ((calState 0).sflBytes 0 n).drop 64 := by
    intro c
    unfold State.sflBytes
    rw [← List.map_take, ← List.map_take, ← List.map_drop, ← List.map_drop]
    constructor
    · apply List.map_congr_left
      intro i hi
      rw [List.take_range] at hi
      exact test_cal_byte c _ (.inl (by have := List.mem_range.1 hi; omega))
    · apply List.map_congr_left
      intro i hi
      obtain ⟨k, hk, rfl⟩ := List.mem_iff_getElem.1 hi
      simp only [List.getElem_drop, List.getElem_range]
      exact test_cal_byte c _ (.inr (by omega))
  have hr : ∀ (f : Nat → Byte) (a k : Nat), a + k ≤ n → leAt ((List.range n).map f) a k = leNat ((List.range k).map fun i => f (a + i)) := by
    intro f a k ha
    unfold leAt
    congr 1
    apply List.ext_getElem
    · simp; omega
    · intro i h1 h2; simp
  have h4 : ∀ n : Nat, leNat [BitVec.ofNat 8 n, BitVec.ofNat 8 (n / 256), BitVec.ofNat 8 (n / 256 / 256), BitVec.ofNat 8 (n / 256 / 256 / 256)] = n % 2 ^ 32 := by
    intro n; simp only [leNat, BitVec.toNat_ofNat]; omega
  generalize hc' : crc32c (((calState 0).sflBytes 0 n).take 60 ++ List.replicate 4 0 ++ ((calState 0).sflBytes 0 n).drop 64) = c
  have hc : c < 2 ^ 32 := hc' ▸ test_crc_is_32_bits _
  refine ⟨c, ?_⟩
  unfold calOk
  rw [(hx c).1, (hx c).2, hc']
  unfold State.sflBytes
  rw [hr _ 0 4 (by omega), hr _ 4 2 (by omega), hr _ 60 4 (by omega)]
  have e : leNat ((List.range 4).map fun i => (calState c).sflByte (0 + (60 + i))) = c := (h4 c).trans (Nat.mod_eq_of_lt hc)
  have e2 : leNat ((List.range 4).map fun i => (calState c).sflByte (0 + (0 + i))) = 0x43414C52 := by
    show leNat [0x52, 0x4C, 0x41, 0x43] = 0x43414C52
    decide
  have e3 : leNat ((List.range 2).map fun i => (calState c).sflByte (0 + (4 + i))) = 1 := by
    show leNat [1, 0] = 1
    decide
  rw [e, e2, e3]
  simp

/-- A start-up that finds a calibration copy which checks. -/
theorem witness_PowerOnCalibration : ∃ c row, ((calState c).evStart 0 true).calRow = some row := by
  obtain ⟨c, ok⟩ := test_cal_copy 0x10000 (by decide)
  have hs : ((calState c).evStart 0 true).sfl = (calState c).sfl := by
    unfold State.evStart; dsimp only; rw [(State.event_records (State.Records.refl _)).same]; rfl
  have hb : ∀ a n : Nat, ((calState c).evStart 0 true).sflBytes a n = (calState c).sflBytes a n := by
    intro a n; unfold State.sflBytes State.sflByte; rw [hs]
  refine ⟨c, (calState c).sflBytes 0 0x10000, ?_⟩
  unfold State.calRow
  simp only [List.map_cons, Nat.zero_mul, hb]
  rw [List.find?_cons, ok]

/-- A final commit of more than 511 items: two parts, LAST in the second only (R298). -/
theorem test_commit_in_parts :
    ((commitParts 3 9 (List.replicate 512 (1, 2, 3))).map fun b => (leAt b 1 1, leAt b 2 1, leAt b 4 4)) = [(0, 3, 9), (1, 3, 9)] := by decide +kernel

/-- The WDATA of a PROGRAM of 5,000 bytes: two packets, the second with LAST, its offset and its length (R316). -/
theorem test_wdata_packets :
    ((wdataOf { port := 0, tag := 7, die := 2, opc := 2, flags := 0, params := [], data := List.replicate 5000 0, why := .status, reissued := false,
                viaPeer := false, rdata := [], busyWait := false, sent := true }).map fun p => (leAt p 1 1, leAt p 2 2, leAt p 4 2, leAt p 8 4)) =
      [(0, 4096, 7, 0), (1, 904, 7, 4096)] := by decide +kernel

/-- Wear of two dies, 1/2 and 1/4: their mean is 3/8 (R303, R308). -/
theorem test_mean_wear : meanIn 256 [(1, 2), (1, 4)] = 96 := by decide +kernel

end Sys2Proof.Machine
end

section
/-! The register file, the byte memories, serial numbers and register accesses (00_scope.md R4, R5, R7, R8, R10): the rules of reading back, what
an access that reaches a register does, and the statements of the family. -/
namespace Sys2Proof.Machine

/-! ### Reading back -/

/-- A byte of a written string reads as written, every other byte as before, in a memory of any unlisted byte. -/
theorem memRead_writeAll {d : Byte} {m : List Host.Cell} (a b : Nat) (bs : Bytes) (h : Memory.wf d m = true) :
    memRead d (memWriteAll d m a bs) b = if a ≤ b ∧ b < a + bs.length then bs.getD (b - a) d else memRead d m b := by
  split
  · next inside =>
    obtain ⟨i, rfl⟩ := Nat.exists_eq_add_of_le inside.1
    rw [memRead_writeAll_at a i bs h (by omega), Nat.add_sub_cancel_left]
  · next outside => exact memRead_writeAll_other d m a b bs (by omega)

/-- A register reads as written, without the bits above its width. -/
theorem rd_wr_same {s : State} (r : Reg) (v : DWord) (h : regsWfFrom 0 s.regs = true) :
    (s.wr r v).rd r = if r.width = 64 then v else v &&& 0xFFFFFFFF := RegStore.get_put_same r _ h

theorem rd_wr_other (s : State) {r q : Reg} (v : DWord) (h : q.addr ≠ r.addr) : (s.wr r v).rd q = s.rd q :=
  RegStore.get_put_other s.regs r q _ h

/-- Settles O6, by the rules of reading back for one byte, for a string of bytes and for a register. -/
theorem memoryReadsBackWhatWasWritten : Obligations.MemoryReadsBackWhatWasWritten := by
  unfold Obligations.MemoryReadsBackWhatWasWritten
  refine ⟨fun d m a b v hm => ?_, fun d m a b bs hm => memRead_writeAll a b bs hm, fun s r q v hs hw => ⟨?_, rd_wr_other s v⟩⟩
  · split
    · next same => rw [same, memRead_write_same a v hm]
    · next other => exact memRead_write_other d m a b v other
  · rw [rd_wr_same r v hs, if_pos hw]

/-! ### Serial numbers (R10) -/

theorem natCast_two_pow (n : Nat) : ((2 ^ n : Nat) : Int) = 2 ^ n := Int.natCast_pow 2 n

/-- The forward distance from `a` to `b` on a circle of `N` positions, as the model computes it in natural numbers. -/
theorem natCast_distance {N a b : Nat} (ha : a < N) : (((b + N - a % N) % N : Nat) : Int) = ((b : Int) - a) % N := by
  have unwound : ((b + N - a : Nat) : Int) = b - a + N := by omega
  rw [Nat.mod_eq_of_lt ha, Int.natCast_emod, unwound, Int.add_emod_right]

theorem distance_of_le {N a b : Nat} (hab : a ≤ b) (hb : b < N) : ((b : Int) - a) % N = b - a :=
  Int.emod_eq_of_lt (by omega) (by omega)

theorem distance_of_lt {N a b : Nat} (hba : b < a) (ha : a < N) : ((b : Int) - a) % N = b - a + N := by
  rw [← Int.add_emod_right, Int.emod_eq_of_lt (by omega) (by omega)]

/-- The forward distances between two different numbers add up to the whole circle. -/
theorem distance_add_distance {N a b : Nat} (ha : a < N) (hb : b < N) (hab : a ≠ b) :
    ((b : Int) - a) % N + ((a : Int) - b) % N = N := by
  rcases Nat.lt_or_gt_of_ne hab with h | h
  · rw [distance_of_le (Nat.le_of_lt h) hb, distance_of_lt h hb]
    omega
  · rw [distance_of_lt h ha, distance_of_le (Nat.le_of_lt h) ha]
    omega

/-- `serialAfter` tests the forward distance from `a` to `b` modulo 2^n. -/
theorem serialAfter_iff {n a b : Nat} (ha : a < 2 ^ n) :
    serialAfter n a b = true ↔ 1 ≤ ((b : Int) - a) % 2 ^ n ∧ ((b : Int) - a) % 2 ^ n ≤ 2 ^ (n - 1) - 1 := by
  have positive : 0 < 2 ^ (n - 1) := Nat.two_pow_pos _
  rw [← natCast_two_pow n, ← natCast_two_pow (n - 1), ← natCast_distance ha]
  simp only [serialAfter, Bool.and_eq_true, decide_eq_true_eq]
  omega

/-- Settles O7, from the forward distance that `serialAfter` tests and the one in the other direction. -/
theorem sequenceNumbersCompareModulo : Obligations.SequenceNumbersCompareModulo := by
  unfold Obligations.SequenceNumbersCompareModulo
  intro n a b hn ha hb
  have halves : (2 : Int) ^ n = 2 * 2 ^ (n - 1) := by
    rw [← natCast_two_pow n, ← natCast_two_pow (n - 1), ← Nat.two_pow_pred_mul_two hn]
    omega
  have positive : (0 : Int) < 2 ^ (n - 1) := by
    rw [← natCast_two_pow (n - 1)]
    exact Int.natCast_pos.2 (Nat.two_pow_pos _)
  have around (hab : a ≠ b) : ((b : Int) - a) % 2 ^ n + ((a : Int) - b) % 2 ^ n = 2 ^ n := by
    rw [← natCast_two_pow n]
    exact distance_add_distance ha hb hab
  have forth := serialAfter_iff (b := b) ha
  have back := serialAfter_iff (b := a) hb
  refine ⟨forth, fun opposite => ?_, ?_, fun hab notOpposite => ?_, ?_, by decide, by decide⟩
  · have hab : a ≠ b := by
      rintro rfl
      rw [Int.sub_self, Int.zero_emod] at opposite
      omega
    have := around hab
    rw [← Bool.not_eq_true, ← Bool.not_eq_true, forth, back]
    omega
  · rw [← Bool.not_eq_true, serialAfter_iff ha, Int.sub_self, Int.zero_emod]
    omega
  · have := around hab
    have below (x : Int) : 0 ≤ x % 2 ^ n ∧ x % 2 ^ n < 2 ^ n := ⟨Int.emod_nonneg _ (by omega), Int.emod_lt_of_pos _ (by omega)⟩
    have := below (b - a)
    have := below (a - b)
    rw [Bool.eq_iff_iff, Bool.not_eq_true', ← Bool.not_eq_true, forth, back]
    omega
  · rw [seqLe, beq_self_eq_true, Bool.true_or]

/-! ### Register accesses (R5, R7, R8, R17) -/

/-- Whether an access reaches a register depends on the power domains and the start-up stage only (R16, R19). -/
theorem State.Reaches.congr {s t : State} {bar off a : Nat} (h : s.Reaches bar off a) (hp : t.pwr = s.pwr) (hb : t.boot = s.boot) :
    t.Reaches bar off a where
  hasRegs := h.hasRegs
  addr := h.addr
  aperture := h.aperture
  buffer := h.buffer
  powered := by rw [← h.powered]; unfold State.gatedBy; rw [hp]
  decoded := by rw [← h.decoded]; unfold State.undecoded State.halted; rw [hb]

section
variable {s : State} {r : Reg} {bar off size v : Nat}

theorem busAllowed_of_aligned (hsize : size = 4 ∨ size = 8) (hoff : off % size = 0) : busAllowed off size = true := by
  rcases hsize with rfl | rfl <;> simp [busAllowed, hoff]

/-! What each command does once its access reaches a register. -/

theorem exec_registerWrite {a : Nat} (R : s.Reaches bar off a) (h : busAllowed off size = true) :
    exec (.registerWrite bar off size v) s = .next (if size = 8 then s.write64 a v else s.write32 a 4 v) := by
  change execRegisterWrite bar off size v s = _
  rw [execRegisterWrite, if_pos (barOk_of R.hasRegs), reach_write R h]

theorem exec_reg64LoWrite {a : Nat} (R : s.Reaches bar off a) (h : off % 4 = 0) :
    exec (.reg64LoWrite bar off v) s = .next (s.write32 a 4 v) := by
  change execReg64LoWrite bar off v s = _
  rw [execReg64LoWrite, if_pos (barOk_of R.hasRegs), reach_write R (al4 h)]
  rfl

theorem exec_reg64HiWrite {a : Nat} (R : s.Reaches bar off a) (h : off % 4 = 0) :
    exec (.reg64HiWrite bar off v) s = .next (s.write32 a 4 v) := exec_reg64LoWrite R h

theorem exec_reg64LoRead {a : Nat} (R : s.Reaches bar off a) (h : off % 4 = 0) :
    exec (.reg64LoRead bar off) s = .next ((s.read32 a).2.emit (.busRead bar off 4 (s.read32 a).1)) := by
  change execReg64LoRead bar off s = _
  rw [execReg64LoRead, if_pos (barOk_of R.hasRegs), reach_read R (al4 h)]
  rfl

theorem exec_reg64HiRead {a : Nat} (R : s.Reaches bar off a) (h : off % 4 = 0) :
    exec (.reg64HiRead bar off) s = .next ((s.read32 a).2.emit (.busRead bar off 4 (s.read32 a).1)) := exec_reg64LoRead R h

theorem exec_wideRead {a : Nat} (R : s.Reaches bar off a) (h : off % 8 = 0) :
    exec (.misalignedAccess bar off 8 v false) s = .next ((s.read64 a).2.emit (.busRead bar off 8 (s.read64 a).1)) := by
  change execMisalignedAccess bar off 8 v false s = _
  rw [execMisalignedAccess, barOk_of R.hasRegs, reach_read R (busAllowed_of_aligned (.inr rfl) h)]
  rfl

/-! What a read or a write at a register's first byte, or at the high half of a 64-bit one, does to it. -/

theorem write32_at (hr : regAt r.addr = some r) (R : s.Reaches bar off r.addr) :
    s.write32 r.addr size v =
      if ownRow r.addr then s.ownWrite r.addr (v % 2 ^ 32)
      else if r.width = 64 then (if s.writeLocked r.addr then s else s.holdLow r.addr (v % 2 ^ 32))
      else s.wrReg r (BitVec.ofNat 64 (v % 2 ^ 32)) := by
  unfold State.write32
  simp only [R.powered, R.decoded, R.buffer, hr, Bool.false_eq_true, if_false]

theorem write32_high (hr : regAt r.addr = some r) (hw : r.width = 64) (hn : regAt (r.addr + 4) = none)
    (R : s.Reaches bar off (r.addr + 4)) (hown : ownRow r.addr = false) (hlock : s.writeLocked r.addr = false) :
    s.write32 (r.addr + 4) size v = (s.dropLow r.addr).wrReg r (s.joinHigh r.addr v (s.rd r)) := by
  unfold State.write32
  simp only [R.powered, R.decoded, R.buffer, hn, Nat.add_sub_cancel, hr, hown, hlock, Option.filter, hw, Nat.le_add_left, beq_self_eq_true,
    decide_true, Bool.and_self, Bool.false_eq_true, if_false, if_true]

theorem write64_at (hr : regAt r.addr = some r) (hw : r.width = 64) (R : s.Reaches bar off r.addr) :
    s.write64 r.addr v = if ownRow r.addr then s.ownWide r.addr v else (s.dropLow r.addr).wrReg r (BitVec.ofNat 64 v) := by
  unfold State.write64
  simp only [R.powered, R.decoded, hr, Option.filter, hw, beq_self_eq_true, Bool.false_eq_true, if_false, if_true]

theorem read64_at (hr : regAt r.addr = some r) (hw : r.width = 64) (R : s.Reaches bar off r.addr) : s.read64 r.addr = s.regVal r := by
  unfold State.read64
  simp only [R.powered, R.decoded, hr, Option.filter, hw, beq_self_eq_true, Option.isNone_none, Bool.not_false, Bool.and_self, if_true]

/-- The three ways a bus write of the register's own size ends. -/
theorem exec_registerWrite_at (hr : regAt r.addr = some r) (hw : r.width = 32 ∨ r.width = 64) (R : s.Reaches bar off r.addr)
    (hoff : off % (r.width / 8) = 0) :
    exec (.registerWrite bar off (r.width / 8) v) s = .next
      (if ownRow r.addr then (if r.width = 64 then s.ownWide r.addr v else s.ownWrite r.addr (v % 2 ^ 32))
       else (if r.width = 64 then s.dropLow r.addr else s).wrReg r (BitVec.ofNat 64 (v % 2 ^ r.width))) := by
  rw [exec_registerWrite R (busAllowed_of_aligned (by omega) hoff)]
  rcases hw with hw | hw
  · rw [write32_at hr R]
    simp [hw]
  · have wrap : BitVec.ofNat 64 (v % 2 ^ 64) = BitVec.ofNat 64 v := BitVec.eq_of_toNat_eq (by simp)
    rw [write64_at hr hw R]
    simp only [hw, wrap, Nat.reduceDiv, if_true]

/-- A locked register drops the write. -/
theorem wrReg_locked {w : DWord} (h : s.writeLocked r.addr = true) : s.wrReg r w = s := by
  rw [State.wrReg, if_pos h]

end

/-- A write acts on each bit by its access type (R8). -/
theorem Reg.getLsbD_after (r : Reg) (old v : DWord) {k : Nat} (hk : k < 64) :
    (r.after old v).getLsbD k =
      if r.rw.getLsbD k then v.getLsbD k else if r.w1c.getLsbD k && v.getLsbD k then false else old.getLsbD k := by
  simp only [Reg.after, BitVec.getLsbD_or, BitVec.getLsbD_and, BitVec.getLsbD_not, hk, decide_true, Bool.true_and]
  cases r.rw.getLsbD k <;> cases r.w1c.getLsbD k <;> cases v.getLsbD k <;> simp

/-- The bits of a register within its width after it was written. -/
theorem getLsbD_rd_wr {s : State} {r : Reg} (v : DWord) (hs : regsWfFrom 0 s.regs = true) (hw : r.width = 32 ∨ r.width = 64) {k : Nat}
    (hk : k < r.width) : ((s.wr r v).rd r).getLsbD k = v.getLsbD k := by
  rw [rd_wr_same r v hs]
  split
  · rfl
  · have low : k < 32 := by omega
    have mask : (0xFFFFFFFF : DWord) = BitVec.setWidth 64 (BitVec.allOnes 32) := by decide
    rw [mask, BitVec.getLsbD_and, BitVec.getLsbD_setWidth, BitVec.getLsbD_allOnes, decide_eq_true low,
      decide_eq_true (show k < 64 by omega), Bool.and_self, Bool.and_true]

/-- Settles O8: the access comes to `State.wrReg`, which on a plain register is one write of the register file. -/
theorem registerWriteActsByAccessType : Obligations.RegisterWriteActsByAccessType := by
  unfold Obligations.RegisterWriteActsByAccessType
  intro r bar off v s hr hw R hoff
  have ends := exec_registerWrite_at (v := v) hr hw R hoff
  refine ⟨fun hown => ?_, fun hown => ?_⟩
  · rw [ends, if_pos hown]
  rw [hown, if_neg Bool.false_ne_true] at ends
  intro u w
  have sameRegs : u.regs = s.regs := by simp only [u]; split <;> rfl
  have sameLock : u.writeLocked r.addr = s.writeLocked r.addr := by simp only [u]; split <;> rfl
  refine ⟨ends, fun hlock => wrReg_locked (sameLock.trans hlock), fun hlock hplain hs => ?_⟩
  have sameRd (q : Reg) : u.rd q = s.rd q := congrArg (RegStore.get · q) sameRegs
  refine ⟨u.wr r (r.after (u.rd r) w), ?_, rfl, fun k hk => ?_, fun q hq => (rd_wr_other u _ hq).trans (sameRd q)⟩
  · rw [ends, wrReg_plain (sameLock.trans hlock) hplain]
  · have written : w.getLsbD k = v.testBit k := by
      simp only [w, BitVec.getLsbD_ofNat, Nat.testBit_mod_two_pow, hk, decide_true, Bool.true_and, decide_eq_true_eq, Bool.and_eq_right_iff_imp]
      omega
    rw [getLsbD_rd_wr _ (sameRegs ▸ hs) hw hk, Reg.getLsbD_after _ _ _ (by omega), written, sameRd]

/-! ### Halves of 64-bit registers (R7) -/

section
variable {s : State} {r : Reg} {bar off : Nat}

theorem regVal_latch (s : State) (r : Reg) : (s.regVal r).2.latch = s.latch := by rw [regVal_state]

theorem regVal_lowPend (s : State) (r : Reg) : (s.regVal r).2.lowPend = s.lowPend := by rw [regVal_state]

theorem regVal_out (s : State) (r : Reg) : (s.regVal r).2.out = s.out := by rw [regVal_state]

theorem regVal_pwr (s : State) (r : Reg) : (s.regVal r).2.pwr = s.pwr := by rw [regVal_state]

theorem regVal_boot (s : State) (r : Reg) : (s.regVal r).2.boot = s.boot := by rw [regVal_state]

theorem exec_reg64LoRead_at (hr : regAt r.addr = some r) (hw : r.width = 64) (R : s.Reaches bar off r.addr) (hoff : off % 4 = 0) :
    exec (.reg64LoRead bar off) s =
      .next ({ (s.regVal r).2 with latch := putKey Prod.fst (r.addr, (s.regVal r).1 / 2 ^ 32) (s.regVal r).2.latch }.emit
        (.busRead bar off 4 ((s.regVal r).1 % 2 ^ 32))) := by
  rw [exec_reg64LoRead R hoff, lowHalf hr hw R]

theorem exec_reg64HiRead_latched {p : Nat × Nat} (hr : regAt r.addr = some r) (hw : r.width = 64) (hn : regAt (r.addr + 4) = none)
    (R : s.Reaches bar (off + 4) (r.addr + 4)) (hoff : off % 4 = 0) (hp : findKey Prod.fst r.addr s.latch = some p) :
    exec (.reg64HiRead bar (off + 4)) s =
      .next ({ s with latch := dropKey Prod.fst r.addr s.latch }.emit (.busRead bar (off + 4) 4 p.2)) := by
  rw [exec_reg64HiRead R (by omega), hiHalf hr hw hn R, hp]

theorem exec_reg64HiRead_unlatched (hr : regAt r.addr = some r) (hw : r.width = 64) (hn : regAt (r.addr + 4) = none)
    (R : s.Reaches bar (off + 4) (r.addr + 4)) (hoff : off % 4 = 0) (hp : findKey Prod.fst r.addr s.latch = none) :
    exec (.reg64HiRead bar (off + 4)) s = .next ((s.regVal r).2.emit (.busRead bar (off + 4) 4 ((s.regVal r).1 / 2 ^ 32))) := by
  rw [exec_reg64HiRead R (by omega), hiHalf hr hw hn R, hp]

/-- The low half read first, then the high half: together one value, and no latch is left. -/
theorem exec_loRead_hiRead (hr : regAt r.addr = some r) (hw : r.width = 64) (hn : regAt (r.addr + 4) = none)
    (R : s.Reaches bar off r.addr) (R' : s.Reaches bar (off + 4) (r.addr + 4)) (hoff : off % 4 = 0) :
    ∃ t w lo hi, exec (.reg64LoRead bar off) s = .next t ∧ exec (.reg64HiRead bar (off + 4)) t = .next w ∧
      w.out = s.out ++ [.busRead bar off 4 lo, .busRead bar (off + 4) 4 hi] ∧ lo + hi * 2 ^ 32 = (s.regVal r).1 ∧
      findKey Prod.fst r.addr w.latch = none := by
  refine ⟨_, _, _, _, exec_reg64LoRead_at hr hw R hoff,
    exec_reg64HiRead_latched hr hw hn (R'.congr (regVal_pwr s r) (regVal_boot s r)) hoff find_put, ?_, Nat.mod_add_div' _ _, find_drop⟩
  simp only [State.emit_out, regVal_out, List.append_assoc, List.singleton_append]

theorem joinHigh_held {a hi : Nat} {p : Nat × Nat} {cur : DWord} (hp : findKey Prod.fst a s.lowPend = some p) :
    s.joinHigh a hi cur = BitVec.ofNat 64 (hi % 2 ^ 32 * 2 ^ 32 + p.2) := by
  rw [State.joinHigh, hp]

theorem joinHigh_bare {a hi : Nat} {cur : DWord} (hp : findKey Prod.fst a s.lowPend = none) :
    s.joinHigh a hi cur = BitVec.ofNat 64 (hi % 2 ^ 32 * 2 ^ 32 + cur.toNat % 2 ^ 32) := by
  rw [State.joinHigh, hp]

theorem exec_reg64LoWrite_at {lo : Nat} (hr : regAt r.addr = some r) (hw : r.width = 64) (R : s.Reaches bar off r.addr) (hoff : off % 4 = 0)
    (hown : ownRow r.addr = false) (hlock : s.writeLocked r.addr = false) :
    exec (.reg64LoWrite bar off lo) s = .next (s.holdLow r.addr (lo % 2 ^ 32)) := by
  rw [exec_reg64LoWrite R hoff, write32_at hr R, hown, hlock, if_pos hw]
  rfl

theorem exec_reg64HiWrite_at {hi : Nat} (hr : regAt r.addr = some r) (hw : r.width = 64) (hn : regAt (r.addr + 4) = none)
    (R : s.Reaches bar (off + 4) (r.addr + 4)) (hoff : off % 4 = 0) (hown : ownRow r.addr = false) (hlock : s.writeLocked r.addr = false) :
    exec (.reg64HiWrite bar (off + 4) hi) s = .next ((s.dropLow r.addr).wrReg r (s.joinHigh r.addr hi (s.rd r))) := by
  rw [exec_reg64HiWrite R (by omega), write32_high hr hw hn R hown hlock]

/-- The low half written first, then the high half: a plain register takes both, and no low half stays held. -/
theorem exec_loWrite_hiWrite {lo hi : Nat} (hr : regAt r.addr = some r) (hw : r.width = 64) (hn : regAt (r.addr + 4) = none)
    (R : s.Reaches bar off r.addr) (R' : s.Reaches bar (off + 4) (r.addr + 4)) (hoff : off % 4 = 0) (hown : ownRow r.addr = false)
    (hlock : s.writeLocked r.addr = false) (hplain : plainReg r = true) (hs : regsWfFrom 0 s.regs = true) :
    ∃ t u, exec (.reg64LoWrite bar off lo) s = .next t ∧ (∀ q, t.rd q = s.rd q) ∧
      exec (.reg64HiWrite bar (off + 4) hi) t = .next u ∧
      u.rd r = r.after (s.rd r) (BitVec.ofNat 64 (hi % 2 ^ 32 * 2 ^ 32 + lo % 2 ^ 32)) ∧ findKey Prod.fst r.addr u.lowPend = none := by
  have second := exec_reg64HiWrite_at (s := s.holdLow r.addr (lo % 2 ^ 32)) (hi := hi) hr hw hn (R'.congr rfl rfl) hoff hown hlock
  have unlocked : ((s.holdLow r.addr (lo % 2 ^ 32)).dropLow r.addr).writeLocked r.addr = false := hlock
  rw [joinHigh_held find_put, wrReg_plain unlocked hplain] at second
  refine ⟨_, _, exec_reg64LoWrite_at hr hw R hoff hown hlock, fun q => rfl, second, ?_, find_drop⟩
  exact (rd_wr_same r _ hs).trans (if_pos hw)

end

/-- The count of a power-on reset touches only the health record and the warnings, no latched and no held half. -/
theorem countPower_halves {s : State} (lost first : Bool) (h : s.hq.ctrls = []) :
    (s.countPower lost first).latch = s.latch ∧ (s.countPower lost first).lowPend = s.lowPend := by
  rw [count_rest s lost first h]
  exact ⟨rfl, rfl⟩

theorem resetPower_halves (s : State) (h : Nat) : (s.resetPower h).latch = [] ∧ (s.resetPower h).lowPend = [] :=
  countPower_halves _ _ rfl

/-- Settles O9: each half's command as its rule gives it, then the two halves in order, the whole accesses and the resets. -/
theorem registersOf64BitsAreReadAndWrittenWhole : Obligations.RegistersOf64BitsAreReadAndWrittenWhole := by
  unfold Obligations.RegistersOf64BitsAreReadAndWrittenWhole
  refine ⟨?reads, ?writes, ?whole, fun s => ⟨rfl, rfl, resetPower_halves s⟩⟩
  case reads =>
    intro r bar off s hr hw hn R R' hoff
    exact ⟨exec_reg64LoRead_at hr hw R hoff, fun p hp => exec_reg64HiRead_latched hr hw hn R' hoff hp,
      exec_reg64HiRead_unlatched hr hw hn R' hoff, exec_loRead_hiRead hr hw hn R R' hoff⟩
  case writes =>
    intro r bar off lo hi s hr hw hn R R' hoff hown hlock
    have high := exec_reg64HiWrite_at (hi := hi) hr hw hn R' hoff hown hlock
    refine ⟨exec_reg64LoWrite_at hr hw R hoff hown hlock, fun p hp => ?_, fun hp => ?_,
      exec_loWrite_hiWrite hr hw hn R R' hoff hown hlock⟩
    · rw [high, joinHigh_held hp]
      rfl
    · rw [high, joinHigh_bare hp]
      rfl
  case whole =>
    intro r bar off v s hr hw R hoff
    refine ⟨?_, regVal_latch s r, regVal_lowPend s r, fun hown => ?_, find_drop, rfl, fun a ha => findKey_dropKey_other _ _ _ _ ha⟩
    · rw [exec_wideRead R hoff, read64_at hr hw R]
    · have ends := exec_registerWrite_at (v := v) hr (.inr hw) R (by rw [hw]; exact hoff)
      rw [hown, hw] at ends
      exact ends

end Sys2Proof.Machine
end

section
/-! Accesses of the host bus that do not act on one register as it stands (01_architecture.md R17, R19; 22_power_electrical.md R524): an access
that R17 does not allow, a naturally aligned 64-bit access, an access to a power domain that is off, and the statements about them. -/
namespace Sys2Proof.Machine

section
variable {s : State} {r : Reg} {bar off size v a d : Nat}

/-! ### The two commands are a read or a write of the bus -/

theorem barOk_of_bars (h : bar = 0 ∨ bar = 2 ∨ bar = 4) : barOk bar = true := by
  rcases h with rfl | rfl | rfl <;> rfl

theorem exec_misalignedRead (h : barOk bar = true) : exec (.misalignedAccess bar off size v false) s = .next (s.busRead bar off size) := by
  change execMisalignedAccess bar off size v false s = _
  rw [execMisalignedAccess, h]
  rfl

theorem exec_misalignedWrite (h : barOk bar = true) : exec (.misalignedAccess bar off size v true) s = .next (s.busWrite bar off size v) := by
  change execMisalignedAccess bar off size v true s = _
  rw [execMisalignedAccess, h]
  rfl

theorem exec_gatedRead : exec (.gatedRegisterAccess off size v false) s = .next (s.busRead 0 off size) := rfl

theorem exec_gatedWrite : exec (.gatedRegisterAccess off size v true) s = .next (s.busWrite 0 off size v) := rfl

/-! ### What a bus access comes to -/

theorem busRead_refused (h : busAllowed off size = false) : s.busRead bar off size = s.emit (.unsupported bar off size) := by
  rw [State.busRead, h]
  rfl

theorem busWrite_refused (h : busAllowed off size = false) :
    s.busWrite bar off size v = s.event 0x01 evcDropped 3 0x100030 (evAddr (barSpace bar) off ++ evValue size) := by
  rw [State.busWrite, h]
  rfl

/-- The event of a refused write is all that the write leaves. -/
theorem refusedWrite_records (s : State) (bar off size : Nat) :
    s.Records (s.event 0x01 evcDropped 3 0x100030 (evAddr (barSpace bar) off ++ evValue size)) := State.event_records (State.Records.refl s)

/-- The access goes to the register space: not to the doorbells of BAR2 and not to the aperture of the system flash. -/
def ToRegisters (bar off : Nat) : Prop := bar = 4 ∨ (bar = 0 ∧ ¬(0x03100000 ≤ off ∧ off < 0x03200000))

theorem busRead_registers (h : busAllowed off size = true) (inRegs : ToRegisters bar off) :
    s.busRead bar off size =
      let x := if size = 8 then s.read64 (barAddr bar off) else s.read32 (barAddr bar off)
      x.2.emit (.busRead bar off size x.1) := by
  unfold ToRegisters at inRegs
  rw [State.busRead, h, if_neg (show ¬bar = 2 by omega), if_neg (show ¬(bar = 0 ∧ 0x03100000 ≤ off ∧ off < 0x03200000) by omega)]
  rfl

theorem busWrite_registers (h : busAllowed off size = true) (inRegs : ToRegisters bar off) :
    s.busWrite bar off size v = if size = 8 then s.write64 (barAddr bar off) v else s.write32 (barAddr bar off) 4 v := by
  unfold ToRegisters at inRegs
  rw [State.busWrite, h, if_neg (show ¬(bar = 2 ∨ (bar = 0 ∧ 0x03100000 ≤ off ∧ off < 0x03200000)) by omega)]
  rfl

/-! ### A 64-bit access: one register at once, or two halves in order -/

theorem read64_whole (hr : regAt a = some r) (hw : r.width = 64) (hg : s.gatedBy a = none) (hd : s.undecoded a = false) :
    s.read64 a = s.regVal r := by
  simp only [State.read64, hr, hg, hd, Option.filter, hw, beq_self_eq_true, Option.isNone_none, Bool.not_false, Bool.and_self, if_true]

/-- With no 64-bit register that decodes and is powered at its first byte, a 64-bit read reads the lower half, then the upper one. -/
theorem read64_halves (h : ∀ r, regAt a = some r → r.width = 64 → (s.gatedBy a).isSome = true) :
    s.read64 a = ((s.read32 a).1 + ((s.read32 a).2.read32 (a + 4)).1 * 2 ^ 32, ((s.read32 a).2.read32 (a + 4)).2) := by
  have noWhole : (regAt a).filter (fun r => r.width == 64 && (s.gatedBy a).isNone && !s.undecoded a) = none := by
    rw [Option.filter_eq_none_iff]
    intro r hr whole
    simp only [Bool.and_eq_true, beq_iff_eq] at whole
    obtain ⟨⟨wide, powered⟩, -⟩ := whole
    have gated := h r hr wide
    rw [Option.isNone_iff_eq_none.1 powered] at gated
    cases gated
  rw [State.read64, noWhole]

theorem write64_whole (hr : regAt a = some r) (hw : r.width = 64) (hg : s.gatedBy a = none) (hd : s.undecoded a = false) :
    s.write64 a v = if ownRow r.addr then s.ownWide a v else (s.dropLow r.addr).wrReg r (BitVec.ofNat 64 v) := by
  simp only [State.write64, hr, hg, hd, Option.filter, hw, beq_self_eq_true, Bool.false_eq_true, if_false, if_true]

/-- A 64-bit register of a domain that is off: one write is dropped and one event recorded (log 93). -/
theorem write64_gated (hr : regAt a = some r) (hw : r.width = 64) (hg : s.gatedBy a = some d) : s.write64 a v = s.gatedDrop d a 8 := by
  simp only [State.write64, hr, hg, Option.filter, hw, beq_self_eq_true, if_true]

/-- With no 64-bit register at its first byte, a 64-bit write writes the lower half, then the upper one. -/
theorem write64_halves (h : ∀ r, regAt a = some r → r.width = 32) :
    s.write64 a v = (s.write32 a 8 (v % 2 ^ 32)).write32 (a + 4) 8 (v / 2 ^ 32) := by
  have noWhole : (regAt a).filter (fun r => r.width == 64) = none := by
    rw [Option.filter_eq_none_iff]
    intro r hr
    rw [h r hr]
    decide
  rw [State.write64, noWhole]

/-! ### The size and alignment of a doorbell -/

/-- The check that a doorbell makes of its size, alignment and place. -/
theorem doorbell_refused_iff : ((size ≠ 4 ∧ size ≠ 8) ∨ off % size ≠ 0 ∨ off ≥ 8388608) ↔ busAllowed off size = false ∨ 8388608 ≤ off := by
  simp only [busAllowed, Bool.and_eq_false_iff, Bool.or_eq_false_iff, beq_eq_false_iff_ne, or_assoc, ne_eq, ge_iff_le]

theorem exec_hostDoorbell_misaligned {entries : List Bytes} (h : busAllowed off size = false) :
    exec (.hostDoorbellWrite off size v entries) s = .next s := by
  change execHostDoorbellWrite off size v entries s = _
  rw [execHostDoorbellWrite, if_pos (doorbell_refused_iff.2 (.inl h))]

theorem not_refused_of_allowed (h : busAllowed off size = true) (inRange : off < 8388608) :
    ¬((size ≠ 4 ∧ size ≠ 8) ∨ off % size ≠ 0 ∨ off ≥ 8388608) := by
  rw [doorbell_refused_iff, h]
  exact not_or.2 ⟨nofun, Nat.not_le.2 inRange⟩

end

/-- Settles O10: a refused access, then the aligned 64-bit access of one register and of two halves. -/
theorem misalignedAccessesAreRefused : Obligations.MisalignedAccessesAreRefused := by
  unfold Obligations.MisalignedAccessesAreRefused
  intro bar off size v s hbar
  have hok := barOk_of_bars hbar
  refine ⟨fun refused => ?_, fun aligned inRegs => ?_⟩
  · have write : exec (.misalignedAccess bar off size v true) s =
        .next (s.event 0x01 evcDropped 3 0x100030 (evAddr (barSpace bar) off ++ evValue size)) := by
      rw [exec_misalignedWrite hok, busWrite_refused refused]
    have records := refusedWrite_records s bar off size
    refine ⟨?_, write, ⟨_, write, records, records.low R.HQ_DB_DROP_CNT (by decide)⟩, fun _ => exec_hostDoorbell_misaligned refused⟩
    rw [exec_misalignedRead hok, busRead_refused refused]
  · have allowed : busAllowed off 8 = true := busAllowed_of_aligned (.inr rfl) aligned
    have read : exec (.misalignedAccess bar off 8 v false) s =
        .next ((s.read64 (barAddr bar off)).2.emit (.busRead bar off 8 (s.read64 (barAddr bar off)).1)) := by
      rw [exec_misalignedRead hok, busRead_registers allowed inRegs]
      rfl
    have write : exec (.misalignedAccess bar off 8 v true) s = .next (s.write64 (barAddr bar off) v) := by
      rw [exec_misalignedWrite hok, busWrite_registers allowed inRegs]
      rfl
    refine ⟨fun r hr hw powered decoded => ?whole, fun narrow => ?halves⟩
    case whole =>
      rw [read, write, read64_whole hr hw powered decoded, write64_whole hr hw powered decoded]
      exact ⟨rfl, fun own => by rw [if_pos own], fun own => by rw [own]; rfl⟩
    case halves =>
      refine ⟨fun x y t u low high => ?_, by rw [write, write64_halves narrow]⟩
      have none64 (r : Reg) (hr : regAt (barAddr bar off) = some r) (hw : r.width = 64) : (s.gatedBy (barAddr bar off)).isSome = true := by
        have := narrow r hr
        omega
      rw [read, read64_halves none64, low, high]

/-! ### Registers of a power domain that is off (R19) -/

section
variable {s : State} {r : Reg} {off size v a d : Nat}

theorem read32_gated (h : s.gatedBy a = some d) : s.read32 a = (0, s) := by
  rw [State.read32, h]
  rfl

theorem write32_gated (h : s.gatedBy a = some d) : s.write32 a size v = s.gatedDrop d a size := by
  rw [State.write32, h]

theorem gatedDrop_records (s : State) (d a size : Nat) : s.Records (s.gatedDrop d a size) := State.event_records (State.Records.refl s)

/-- Recording the dropped write switches no domain. -/
theorem gatedDrop_gatedBy (s : State) (d a size b : Nat) : (s.gatedDrop d a size).gatedBy b = s.gatedBy b := by
  unfold State.gatedBy
  rw [(gatedDrop_records s d a size).same]

/-- Every register of the table of R524 lies below the aperture of the system flash. -/
theorem lt_of_gatedBy (h : s.gatedBy a = some d) : a < 0x01E801C0 := by
  obtain ⟨hd, -⟩ := Option.filter_eq_some_iff.1 h
  unfold gateOf at hd
  split at hd
  · omega
  split at hd
  · omega
  split at hd
  · omega
  · cases hd

theorem toRegisters_of_gatedBy (h : s.gatedBy off = some d) : ToRegisters 0 off := by
  have := lt_of_gatedBy h
  exact .inr ⟨rfl, by omega⟩

theorem barAddr_of_gatedBy (h : s.gatedBy off = some d) : barAddr 0 off = off := by
  have := lt_of_gatedBy h
  rw [barAddr, if_neg (by decide), if_pos (by omega)]

theorem busRead_gated (h : s.gatedBy off = some d) (aligned : off % 4 = 0) : s.busRead 0 off 4 = s.emit (.busRead 0 off 4 0) := by
  rw [busRead_registers (al4 aligned) (toRegisters_of_gatedBy h), barAddr_of_gatedBy h, if_neg (by decide), read32_gated h]

theorem busWrite_gated (h : s.gatedBy off = some d) (aligned : off % 4 = 0) : s.busWrite 0 off 4 v = s.gatedDrop d off 4 := by
  rw [busWrite_registers (al4 aligned) (toRegisters_of_gatedBy h), barAddr_of_gatedBy h, if_neg (by decide), write32_gated h]

theorem read64_gated (h : s.gatedBy a = some d) (h' : s.gatedBy (a + 4) = some d) : s.read64 a = (0, s) := by
  rw [read64_halves (fun _ _ _ => by rw [h]; rfl), read32_gated h, read32_gated h', Nat.zero_mul]

theorem busRead64_gated (h : s.gatedBy off = some d) (h' : s.gatedBy (off + 4) = some d) (aligned : off % 8 = 0) :
    s.busRead 0 off 8 = s.emit (.busRead 0 off 8 0) := by
  rw [busRead_registers (busAllowed_of_aligned (.inr rfl) aligned) (toRegisters_of_gatedBy h), barAddr_of_gatedBy h, if_pos rfl, read64_gated h h']

theorem busWrite64_gated (h : s.gatedBy off = some d) (aligned : off % 8 = 0) : s.busWrite 0 off 8 v = s.write64 off v := by
  rw [busWrite_registers (busAllowed_of_aligned (.inr rfl) aligned) (toRegisters_of_gatedBy h), barAddr_of_gatedBy h, if_pos rfl]

/-- Two 32-bit registers of one domain that is off: each half's write is dropped and recorded with an event of its own. -/
theorem write64_gatedHalves (h : s.gatedBy a = some d) (h' : s.gatedBy (a + 4) = some d) (narrow : ∀ r, regAt a = some r → r.width = 32) :
    s.write64 a v = (s.gatedDrop d a 8).gatedDrop d (a + 4) 8 := by
  rw [write64_halves narrow, write32_gated h, write32_gated ((gatedDrop_gatedBy s d a 8 _).trans h')]

/-! ### The registers of each domain (R524) -/

theorem gatedBy_iff (h : gateOf a = some d) : s.gatedBy a = some d ↔ s.pwr.off.contains d = true := by
  rw [State.gatedBy, h, Option.filter_some, Option.ite_none_right_eq_some, and_iff_left rfl]

theorem gateOf_port {p o : Nat} (hp : p < 16) (ho : o < 0xA0) : gateOf (0x00A10000 + p * 0x100 + o) = some (3 + p) := by
  rw [gateOf, if_pos (by omega)]
  congr 1
  omega

theorem gateOf_modulePower {n : Nat} (hn : n < 32) : gateOf (R.LNK_MOD_PWR n).addr = some (19 + n) := by
  have addr : (R.LNK_MOD_PWR n).addr = 0x01A00180 + 4 * n := rfl
  rw [addr, gateOf, if_neg (by omega), if_pos (by omega)]
  congr 1
  omega

theorem gateOf_wayOff {i : Nat} (hi : i < 48) : gateOf (R.LLC_WAY_OFF i).addr = some (51 + i / 4) := by
  have addr : (R.LLC_WAY_OFF i).addr = 0x01E80100 + 4 * i := rfl
  rw [addr, gateOf, if_neg (by omega), if_neg (by omega), if_pos (by omega)]
  congr 1
  omega

theorem gatedBy_eq_none (h : gateOf a = none) : s.gatedBy a = none := by
  rw [State.gatedBy, h]
  rfl

end

/-- Settles O11: 32-bit and 64-bit accesses to a domain that is off, then which registers each domain has. -/
theorem gatedRegistersReadZeroAndDropWrites : Obligations.GatedRegistersReadZeroAndDropWrites := by
  unfold Obligations.GatedRegistersReadZeroAndDropWrites
  refine ⟨?narrow, ?wide, fun p o s hp ho => gatedBy_iff (gateOf_port hp ho), fun n s hn => gatedBy_iff (gateOf_modulePower hn),
    fun i s hi => gatedBy_iff (gateOf_wayOff hi), fun a s h => gatedBy_eq_none h⟩
  case narrow =>
    intro off v d s aligned gated
    have write : exec (.gatedRegisterAccess off 4 v true) s = .next (s.gatedDrop d off 4) := by
      rw [exec_gatedWrite, busWrite_gated gated aligned]
    exact ⟨by rw [exec_gatedRead, busRead_gated gated aligned], write, _, write, gatedDrop_records s d off 4⟩
  case wide =>
    intro off v d s aligned gated gated'
    have write : exec (.gatedRegisterAccess off 8 v true) s = .next (s.write64 off v) := by
      rw [exec_gatedWrite, busWrite64_gated gated aligned]
    refine ⟨by rw [exec_gatedRead, busRead64_gated gated gated' aligned], fun r hr hw => ?_, fun narrow t ht => ?_⟩
    · rw [write, write64_gated hr hw gated]
      rfl
    · rw [write, write64_gatedHalves gated gated' narrow, ht]
      rfl

end Sys2Proof.Machine
end

section
/-! Host-side queues (04_host_queues.md R74 to R76; 01_architecture.md R18): what CREATE_HOST_QUEUE, DELETE_HOST_QUEUE and a doorbell come to, and
the statement about them. -/
namespace Sys2Proof.Machine

section
variable {s : State} {n slot : Nat} {e : Entry}

/-! ### CREATE_HOST_QUEUE -/

/-- The fields of a CREATE_HOST_QUEUE packet are ones that R74 allows. -/
def HostQueueFields (e : Entry) : Prop :=
  e.num 10 1 ≤ 1 ∧ e.zero 11 1 = true ∧ 2 ≤ e.num 12 4 ∧ e.num 12 4 ≤ (if e.num 10 1 = 0 then 4096 else 65536) ∧ e.num 16 8 % 4096 = 0 ∧
    e.num 24 8 % 4096 = 0 ∧ 1 ≤ e.num 32 2 ∧ e.num 32 2 ≤ 2047 ∧ e.zero 34 2 = true

/-- A new host-side queue, as the packet describes it. -/
def hostQueue (e : Entry) (idx : Nat) (kind : QKind) (qid : Nat) : QCtx :=
  { idx := idx, kind := kind, ctrl := 65535, qid := qid, size := e.num 12 4, sqBase := e.num 16 8, cqBase := e.num 24 8, vec := e.num 32 2, qp := 0
    sqTail := 0, cqHead := 0, cqTail := 0, deleting := none, sqHead := 0, phase := true, inv := [] }

/-- The lowest free identifier of a host-side I/O queue. -/
def State.freeQid (s : State) : Nat :=
  let used := (s.hq.ctxs.filter fun q => q.kind == .hostIo).map QCtx.qid
  lowestFree used (used.length + 1) 1

/-- The check that the command makes of its fields fails exactly where one of them is not allowed. -/
theorem hostQueueFields_refused_iff (e : Entry) :
    (e.num 10 1 > 1 ∨ (!e.zero 11 1) = true ∨ e.num 12 4 < 2 ∨ e.num 12 4 > (if e.num 10 1 = 0 then 4096 else 65536) ∨ e.num 16 8 % 4096 ≠ 0 ∨
      e.num 24 8 % 4096 ≠ 0 ∨ e.num 32 2 < 1 ∨ e.num 32 2 > 2047 ∨ (!e.zero 34 2) = true) ↔ ¬HostQueueFields e := by
  unfold HostQueueFields
  simp only [Classical.not_and_iff_not_or_not, Bool.not_eq_true', Bool.not_eq_true, Nat.not_le, ne_eq, gt_iff_lt]

theorem exec_createHostQueue_badFields (h : s.CanRun 0x40 n slot e) (bad : ¬HostQueueFields e) :
    exec (.createHostQueue n slot) s = .next ((s.begun n slot e).replied n slot e stInvalidField [] []) := by
  change execCreateHostQueue n slot s = _
  rw [execCreateHostQueue, State.packet_runs _ h]
  dsimp only
  rw [if_pos ((hostQueueFields_refused_iff e).2 bad), State.ended_fail]

/-- A queue joins the contexts, and the host-side controller comes with the first one (R74). -/
def State.addHostQueue (s : State) (q : QCtx) : State :=
  let c : Controller := { id := 65535, host := true, props := [], feats := [], aers := [], backlog := [], kato := false }
  let s := { s with hq.ctxs := s.hq.ctxs ++ [q] }
  if s.hq.ctrls.any (·.host) then s else { s with hq.ctrls := s.hq.ctrls ++ [c] }

theorem addHostQueue_of_host (q : QCtx) (host : s.hq.ctrls.any (·.host) = true) :
    s.addHostQueue q = { s with hq.ctxs := s.hq.ctxs ++ [q] } := if_pos host

/-- The context that CREATE_HOST_QUEUE gives: the lowest free index, and for an I/O queue the lowest free identifier. -/
def State.newHostQueue (s : State) (e : Entry) : QCtx :=
  hostQueue e s.freeCtx (if e.num 10 1 = 0 then .hostAdmin else .hostIo) (if e.num 10 1 = 0 then 0 else s.freeQid)

theorem newHostQueue_io (io : e.num 10 1 = 1) : s.newHostQueue e = hostQueue e s.freeCtx .hostIo s.freeQid := by
  rw [State.newHostQueue, io]
  rfl

theorem newHostQueue_admin (admin : e.num 10 1 = 0) : s.newHostQueue e = hostQueue e s.freeCtx .hostAdmin 0 := by
  rw [State.newHostQueue, admin]
  rfl

/-- With fields that are allowed, the checks follow in their order (log 118): HQ_CFG, a second admin queue, a free context. -/
theorem exec_createHostQueue (h : s.CanRun 0x40 n slot e) (good : HostQueueFields e) :
    exec (.createHostQueue n slot) s = .next (s.ended n slot e
      (if s.fld R.HQ_CFG 1 1 = 0 then .fail (s.begun n slot e) 0x0302
       else if e.num 10 1 = 0 ∧ s.hq.ctxs.any (fun q => q.kind == .hostAdmin) = true then .fail (s.begun n slot e) 0x0300
       else if s.freeCtx ≥ 1048576 then .fail (s.begun n slot e) stNoResource
       else .done ((s.begun n slot e).addHostQueue (s.newHostQueue e)) stOk (leBytes 4 s.freeCtx ++ leBytes 2 (s.newHostQueue e).qid) [])) := by
  change execCreateHostQueue n slot s = _
  rw [execCreateHostQueue, State.packet_runs _ h]
  dsimp only
  rw [if_neg (fun refused => (hostQueueFields_refused_iff e).1 refused good)]
  rfl

/-- With nothing that refuses it, the queue is created. -/
theorem exec_createHostQueue_created (h : s.CanRun 0x40 n slot e) (good : HostQueueFields e) (on : s.fld R.HQ_CFG 1 1 ≠ 0)
    (first : ¬(e.num 10 1 = 0 ∧ s.hq.ctxs.any (fun q => q.kind == .hostAdmin) = true)) (room : s.freeCtx < 1048576)
    (host : s.hq.ctrls.any (·.host) = true) :
    exec (.createHostQueue n slot) s = .next (State.replied
      { s.begun n slot e with hq.ctxs := s.hq.ctxs ++ [s.newHostQueue e] } n slot e stOk
      (leBytes 4 s.freeCtx ++ leBytes 2 (s.newHostQueue e).qid) []) := by
  have added : (s.begun n slot e).addHostQueue (s.newHostQueue e) = _ := addHostQueue_of_host _ host
  rw [exec_createHostQueue h good, if_neg on, if_neg first, if_neg (Nat.not_le.2 room), added]
  rfl

/-! ### DELETE_HOST_QUEUE -/

/-- The state in which a queue is being deleted: its context keeps the packet that asks; with the admin queue go the Asynchronous Event Requests that
are held and the host-side controller (R74). -/
def State.deletionBegun (s : State) (q : QCtx) (p : PktRef) : State :=
  let s := { s with hq.ctxs := putKey QCtx.idx { q with deleting := some p } s.hq.ctxs }
  if q.kind = .hostAdmin then { s.endAers q with hq.ctrls := s.hq.ctrls.filter fun c => !c.host } else s

/-- Past the checks, the commands of the queue that have not passed the range-lock stage are aborted, and the deletion ends once the queue has no
command left. -/
def State.deleteQueue (s : State) (q : QCtx) (p : PktRef) : State :=
  let u := (s.hq.cmds.filter fun c => c.qctx == q.idx && c.early).foldl (fun (s : State) c => s.abortCmd c 8) s
  let x := (u.qctx? q.idx).getD q
  (u.deletionBegun x p).queueGone x.idx

/-- Without such a command nothing is aborted. -/
theorem deleteQueue_calm {q : QCtx} (p : PktRef) (hq : s.qctx? q.idx = some q)
    (calm : s.hq.cmds.filter (fun c => c.qctx == q.idx && c.early) = []) : s.deleteQueue q p = (s.deletionBegun q p).queueGone q.idx := by
  rw [State.deleteQueue, calm]
  dsimp only [List.foldl_nil]
  rw [hq]
  rfl

/-- The checks of DELETE_HOST_QUEUE in their order: a fabrics queue, a deletion that waits already (log 117), an admin queue before the I/O queues. -/
theorem exec_deleteHostQueue {q : QCtx} (h : s.CanRun 0x41 n slot e) (hq : s.qctx? (e.num 10 4) = some q) :
    exec (.deleteHostQueue n slot) s = .next (s.ended n slot e
      (if q.fabric then .fail (s.begun n slot e) stInvalidField
       else if q.deleting.isSome then .fail (s.begun n slot e) stBusy
       else if q.kind = .hostAdmin ∧ s.hq.ctxs.any (fun x => x.kind == .hostIo) = true then .fail (s.begun n slot e) 0x0301
       else .quiet ((s.begun n slot e).deleteQueue q (packetRef n slot e)))) := by
  have found : (s.begun n slot e).qctx? (e.num 10 4) = some q := hq
  change execDeleteHostQueue n slot s = _
  rw [execDeleteHostQueue, State.packet_runs _ h]
  dsimp only
  rw [found]
  rfl

/-- With nothing that refuses it and no command to abort, the deletion begins. -/
theorem exec_deleteHostQueue_begun {q : QCtx} (h : s.CanRun 0x41 n slot e) (hq : s.qctx? (e.num 10 4) = some q) (idx : q.idx = e.num 10 4)
    (host : q.fabric = false) (live : q.deleting = none) (last : ¬(q.kind = .hostAdmin ∧ s.hq.ctxs.any (fun x => x.kind == .hostIo) = true))
    (calm : s.hq.cmds.filter (fun c => c.qctx == q.idx && c.early) = []) :
    exec (.deleteHostQueue n slot) s = .next (((s.begun n slot e).deletionBegun q (packetRef n slot e)).queueGone q.idx) := by
  have found : (s.begun n slot e).qctx? q.idx = some q := (congrArg s.qctx? idx).trans hq
  rw [exec_deleteHostQueue h hq, host, live, if_neg Bool.false_ne_true, if_neg (by decide), if_neg last, State.ended_quiet,
    deleteQueue_calm _ found calm]

/-! ### The doorbells of BAR2 -/

section
variable {offset size value : Nat} {entries : List Bytes} {q : QCtx}

/-- A doorbell of the right size and alignment of no live host-side queue is counted and dropped (R18). -/
theorem exec_hostDoorbell_dropped (allowed : busAllowed offset size = true) (inRange : offset < 8388608)
    (h : ∀ q, s.qctx? (offset / 8) = some q → q.fabric = true ∨ q.deleting.isSome = true) :
    exec (.hostDoorbellWrite offset size value entries) s = .next (s.bump R.HQ_DB_DROP_CNT) := by
  change execHostDoorbellWrite offset size value entries s = _
  rw [execHostDoorbellWrite, if_neg (not_refused_of_allowed allowed inRange)]
  cases hq : s.qctx? (offset / 8) with
  | none => rfl
  | some q =>
    dsimp only
    rw [if_pos (h q hq)]

/-- A doorbell of a live host-side queue acts on the half that it writes, or on both. -/
theorem exec_hostDoorbell (allowed : busAllowed offset size = true) (inRange : offset < 8388608) (hq : s.qctx? (offset / 8) = some q)
    (host : q.fabric = false) (live : q.deleting = none) :
    exec (.hostDoorbellWrite offset size value entries) s = .next (s.doorbell q
      (if offset % 8 = 4 then value % 2 ^ 32 * 2 ^ 32 else value % 2 ^ (8 * size)) (offset % 8 == 0) (size == 8 || offset % 8 == 4) entries) := by
  change execHostDoorbellWrite offset size value entries s = _
  rw [execHostDoorbellWrite, if_neg (not_refused_of_allowed allowed inRange), hq]
  dsimp only
  rw [host, live, if_neg (by decide)]

/-- A tail beyond the end of the queue makes the low half invalid. -/
theorem doorbell_invalidTail (rung : value.testBit 16 = true) (beyond : q.size ≤ bits value 15 0) :
    s.doorbell q value true false entries = s.dbInvalid := by
  have low : true = true ∧ value.testBit 16 = true := ⟨rfl, rung⟩
  have noHigh : ¬(false = true ∧ value.testBit 48 = true) := fun h => Bool.false_ne_true h.1
  rw [State.doorbell, if_neg noHigh, if_pos low, if_pos beyond]

/-- A head within the queue and not past the last posted completion is taken. -/
theorem doorbell_head (rung : value.testBit 48 = true) (within : bits value 47 32 < q.size)
    (posted : (bits value 47 32 + q.size - q.cqHead) % q.size ≤ q.posted) :
    s.doorbell q value false true entries =
      { s with hq.ctxs := mapIf (·.idx == q.idx) (fun x => { x with cqHead := bits value 47 32 }) s.hq.ctxs } := by
  have noLow : ¬(false = true ∧ value.testBit 16 = true) := fun h => Bool.false_ne_true h.1
  have high : true = true ∧ value.testBit 48 = true := ⟨rfl, rung⟩
  rw [State.doorbell, if_neg noLow, if_pos high, if_neg (by omega)]

end
end

/-- Settles O34: each answer of CREATE_HOST_QUEUE and of DELETE_HOST_QUEUE, then the doorbells. -/
theorem hostQueuesAreCreatedRungAndDeleted : Obligations.HostQueuesAreCreatedRungAndDeleted := by
  unfold Obligations.HostQueuesAreCreatedRungAndDeleted
  refine ⟨?created, ?deleted, ?rung⟩
  case created =>
    intro n slot e s h b ok
    refine ⟨exec_createHostQueue_badFields h, fun good off => ?_, fun good on admin second => ?_, fun good on io full => ?_,
      fun good on room host => ⟨fun io => ?_, fun admin first => ?_⟩⟩
    · rw [exec_createHostQueue h good, if_pos off]
      rfl
    · rw [exec_createHostQueue h good, if_neg on, if_pos ⟨admin, second⟩]
      rfl
    · rw [exec_createHostQueue h good, if_neg on, if_neg (by omega), if_pos full]
      rfl
    · rw [exec_createHostQueue_created h good on (by omega) room host, newHostQueue_io io]
      rfl
    · rw [exec_createHostQueue_created h good on (fun second => Bool.false_ne_true (first.symm.trans second.2)) room host, newHostQueue_admin admin]
      rfl
  case deleted =>
    intro n slot e q s h hq b
    refine ⟨fun fabric => ?_, fun host waits => ?_, fun host live admin ios => ?_, fun io live calm idx => ?_, fun admin live last calm idx u hu => ?_⟩
    · rw [exec_deleteHostQueue h hq, if_pos fabric]
      rfl
    · rw [exec_deleteHostQueue h hq, host, if_neg Bool.false_ne_true, if_pos waits]
      rfl
    · rw [exec_deleteHostQueue h hq, host, live, if_neg Bool.false_ne_true, if_neg (by decide), if_pos ⟨admin, ios⟩]
      rfl
    · have notAdmin : q.kind ≠ .hostAdmin := by rw [io]; decide
      rw [exec_deleteHostQueue_begun h hq idx (by rw [QCtx.fabric, io]; rfl) live (fun x => notAdmin x.1) calm, State.deletionBegun, if_neg notAdmin]
      rfl
    · have begun : (s.begun n slot e).deletionBegun q (packetRef n slot e) = { u with hq.ctrls := s.hq.ctrls.filter fun c => !c.host } := by
        rw [State.deletionBegun, if_pos admin, ← hu]
        rfl
      rw [exec_deleteHostQueue_begun h hq idx (by rw [QCtx.fabric, admin]; rfl) live (fun ios => Bool.false_ne_true (last.symm.trans ios.2)) calm, begun]
  case rung =>
    intro offset size value entries s hsize aligned inRange
    have allowed := busAllowed_of_aligned hsize aligned
    refine ⟨fun noQueue => ?_, fun q hq => ⟨fun gone => ?_, fun host live => ?_⟩⟩
    · exact exec_hostDoorbell_dropped allowed inRange fun x hx => nomatch noQueue.symm.trans hx
    · exact exec_hostDoorbell_dropped allowed inRange fun x hx => Option.some.inj (hq.symm.trans hx) ▸ gone
    · refine ⟨fun wide => ?_, fun narrow low => ?_, fun narrow high => ?_, fun v rung beyond => doorbell_invalidTail rung beyond,
        fun v rung within posted => doorbell_head rung within posted⟩
      · subst wide
        rw [exec_hostDoorbell allowed inRange hq host live, aligned]
        rfl
      · subst narrow
        rw [exec_hostDoorbell allowed inRange hq host live, low]
        rfl
      · subst narrow
        rw [exec_hostDoorbell allowed inRange hq host live, high]
        rfl

end Sys2Proof.Machine
end

section
/-! Fabric time (02_fabric_time.md R27 to R42): what SYNC_RX does in each state of R31, how Announce, 1PPS and the loss of a reference move the state
machine, what the passing of fabric time does, and the statements about them. -/
namespace Sys2Proof.Machine

section
variable {s : State} {m : PtpIn} {off : Int}

/-! ### SYNC_RX (R30, R31) -/

theorem exec_syncRx_ignored (h : s.refOk = false ∨ s.syncOk m = false) : exec (.syncRx m off) s = .next s := by
  have ignored : (!(s.refOk && s.syncOk m)) = true := by rcases h with h | h <;> simp [h]
  change execSyncRx m off s = _
  rw [execSyncRx, if_pos ignored]

/-- An offset measured in ACQUIRING, with the consecutive Sync intervals of a good estimate and of a good spread counted (R31). -/
def State.counted (s : State) (off : Int) : State :=
  let s := s.measure off
  let full := decide (s.tide.window.length = 16)
  { s with
    tide.goodEst := if full && decide (s.tide.est ≤ 250) then s.tide.goodEst + 1 else 0
    tide.goodSpread := if full && decide (spread s.tide.window ≤ 250) then s.tide.goodSpread + 1 else 0 }

theorem counted_goodEst_good (full : (s.measure off).tide.window.length = 16) (good : (s.measure off).tide.est ≤ 250) :
    (s.counted off).tide.goodEst = s.tide.goodEst + 1 :=
  if_pos (by simp [full, good])

theorem counted_goodEst_bad (h : (s.measure off).tide.window.length ≠ 16 ∨ 250 < (s.measure off).tide.est) : (s.counted off).tide.goodEst = 0 :=
  if_neg (by simp only [Bool.and_eq_true, decide_eq_true_eq]; omega)

theorem counted_goodSpread_good (full : (s.measure off).tide.window.length = 16) (good : spread (s.measure off).tide.window ≤ 250) :
    (s.counted off).tide.goodSpread = s.tide.goodSpread + 1 :=
  if_pos (by simp [full, good])

theorem counted_goodSpread_bad (h : (s.measure off).tide.window.length ≠ 16 ∨ 250 < spread (s.measure off).tide.window) :
    (s.counted off).tide.goodSpread = 0 :=
  if_neg (by simp only [Bool.and_eq_true, decide_eq_true_eq]; omega)

section
variable (ref : s.refOk = true) (sync : s.syncOk m = true)
include ref sync

/-- In ACQUIRING the counts decide: a lock, a correction of the mean offset, or neither. -/
theorem exec_syncRx_acquiring (st : s.tide.state = .acquiring) :
    exec (.syncRx m off) s = .next (
      let c := s.counted off
      if c.tide.goodEst ≥ 16 then { c with tide.state := .locked, tide.lockedOnce := true, tide.badEst := 0 }
      else if c.tide.goodSpread ≥ 16 ∧ c.tide.slew.isNone ∧ c.tide.stepPend.isNone then
        State.correct { c with tide.goodSpread := 0 } (offSum c.tide.window / 16)
      else c) := by
  change execSyncRx m off s = _
  rw [execSyncRx, ref, sync, st]
  rfl

theorem exec_syncRx_locks (st : s.tide.state = .acquiring) (counts : 16 ≤ (s.counted off).tide.goodEst) :
    exec (.syncRx m off) s = .next { s.counted off with tide.state := .locked, tide.lockedOnce := true, tide.badEst := 0 } := by
  rw [exec_syncRx_acquiring ref sync st]
  exact congrArg _ (if_pos counts)

theorem exec_syncRx_corrects (st : s.tide.state = .acquiring) (bad : (s.counted off).tide.goodEst = 0)
    (counts : 16 ≤ (s.counted off).tide.goodSpread) (noSlew : s.tide.slew = none) (noStep : s.tide.stepPend = none) :
    exec (.syncRx m off) s = .next (State.correct { s.counted off with tide.goodSpread := 0 } (offSum (s.counted off).tide.window / 16)) := by
  have idle : (s.counted off).tide.slew.isNone = true ∧ (s.counted off).tide.stepPend.isNone = true :=
    ⟨congrArg Option.isNone noSlew, congrArg Option.isNone noStep⟩
  rw [exec_syncRx_acquiring ref sync st]
  dsimp only
  rw [if_neg (by omega), if_pos ⟨counts, idle⟩]

theorem exec_syncRx_counts (st : s.tide.state = .acquiring) (badEst : (s.counted off).tide.goodEst = 0)
    (badSpread : (s.counted off).tide.goodSpread = 0) : exec (.syncRx m off) s = .next (s.counted off) := by
  rw [exec_syncRx_acquiring ref sync st]
  dsimp only
  rw [if_neg (by omega), if_neg (by omega)]

/-- In LOCKED the fourth bad estimate in a row leads back to ACQUIRING. -/
theorem exec_syncRx_locked (st : s.tide.state = .locked) :
    exec (.syncRx m off) s = .next (
      let n := if (s.measure off).tide.est > 2000 then s.tide.badEst + 1 else 0
      let c := { s.measure off with tide.badEst := n }
      if n ≥ 4 then { c with tide := { c.tide.acquire with est := if c.tide.window.length = 16 then c.tide.est else 0xFFFFFFFF } } else c) := by
  change execSyncRx m off s = _
  rw [execSyncRx, ref, sync, st]
  rfl

theorem exec_syncRx_locked_good (st : s.tide.state = .locked) (good : (s.measure off).tide.est ≤ 2000) :
    exec (.syncRx m off) s = .next { s.measure off with tide.badEst := 0 } := by
  rw [exec_syncRx_locked ref sync st]
  dsimp only
  rw [if_neg (Nat.not_lt.2 good), if_neg (by decide)]

theorem exec_syncRx_locked_bad (st : s.tide.state = .locked) (bad : 2000 < (s.measure off).tide.est) (few : s.tide.badEst < 3) :
    exec (.syncRx m off) s = .next { s.measure off with tide.badEst := s.tide.badEst + 1 } := by
  rw [exec_syncRx_locked ref sync st]
  dsimp only
  rw [if_pos bad, if_neg (by omega)]

theorem exec_syncRx_locked_lost (st : s.tide.state = .locked) (bad : 2000 < (s.measure off).tide.est) (many : 3 ≤ s.tide.badEst) :
    exec (.syncRx m off) s = .next { s.measure off with tide := { (s.measure off).tide.acquire with
      est := if (s.measure off).tide.window.length = 16 then (s.measure off).tide.est else 0xFFFFFFFF } } := by
  rw [exec_syncRx_locked ref sync st]
  dsimp only
  rw [if_pos bad, if_pos (by omega)]
  rfl

theorem exec_syncRx_holdover_small (st : s.tide.state = .holdover) (small : off.natAbs ≤ 2000) :
    exec (.syncRx m off) s = .next (
      let c := State.measure { s with tide.state := .locked, tide.badEst := 0 } off
      if off = 0 then c else { c with tide.slew := some off, tide.acqCorr := false }) := by
  change execSyncRx m off s = _
  rw [execSyncRx, ref, sync, st]
  exact congrArg _ (if_pos small)

theorem exec_syncRx_holdover_large (st : s.tide.state = .holdover) (large : 2000 < off.natAbs) :
    exec (.syncRx m off) s = .next (State.measure { s with tide := s.tide.acquire } off) := by
  change execSyncRx m off s = _
  rw [execSyncRx, ref, sync, st]
  exact congrArg _ (if_neg (Nat.not_le.2 large))

theorem exec_syncRx_unqualified (st : s.tide.state = .unqualified) :
    exec (.syncRx m off) s = .next (State.measure { s with tide := s.tide.fresh.acquire } off) := by
  change execSyncRx m off s = _
  rw [execSyncRx, ref, sync, st]
  rfl

theorem exec_syncRx_freerun (st : s.tide.state = .freerun) : exec (.syncRx m off) s = .next s := by
  change execSyncRx m off s = _
  rw [execSyncRx, ref, sync, st]
  rfl

end

/-! ### The reference is found (R28, R31) -/

theorem refFound_freerun (st : s.tide.state = .freerun) : s.refFound = State.armPeriods { s with tide := s.tide.fresh.acquire } := by
  rw [State.refFound, st]

theorem refFound_unqualified (st : s.tide.state = .unqualified) : s.refFound = { s with tide := s.tide.fresh.acquire } := by
  rw [State.refFound, st]

theorem refFound_holdover (st : s.tide.state = .holdover) : s.refFound = { s with tide := s.tide.fresh } := by
  rw [State.refFound, st]

section
variable {t : Tide} {x : PtpMaster} {rank : List Nat} {ten : Bool}

/-- The tide with the sender of an Announce message as the selected master, on the port that the message came in on. -/
def Tide.selecting (t : Tide) (m : PtpIn) (rank : List Nat) : Tide :=
  { t with refPtp := true, activePort := m.port, master := some (PtpMaster.mk m.source rank) }

theorem hear_first (unselected : t.master = none) : t.hear m rank = t.selecting m rank := by
  rw [Tide.hear, unselected]
  rfl

theorem hear_elsewhere (selected : t.master = some x) (port : t.activePort ≠ m.port) : t.hear m rank = t := by
  rw [Tide.hear, selected]
  exact if_pos port

theorem hear_taken (selected : t.master = some x) (port : t.activePort = m.port) (wins : x.source = m.source ∨ rankBetter rank x.rank = true) :
    t.hear m rank = t.selecting m rank := by
  rw [Tide.hear, selected]
  dsimp only
  rw [if_neg (not_not_intro port)]
  by_cases same : x.source = m.source
  · rw [if_pos same]
    rfl
  · rw [if_neg same, if_pos (wins.resolve_left same)]
    rfl

theorem hear_kept (selected : t.master = some x) (port : t.activePort = m.port) (other : x.source ≠ m.source) (worse : rankBetter rank x.rank = false) :
    t.hear m rank = t := by
  rw [Tide.hear, selected]
  dsimp only
  rw [if_neg (not_not_intro port), if_neg other, worse, if_neg Bool.false_ne_true]

theorem exec_announceRx_ignored (h : s.ptpOk m = false ∨ s.ptpPort m.port = false) :
    exec (.announceRx m rank ten) s = .next (s.inputs { s.tide with ref10m := s.tide.ref10m || ten }) := by
  have ignored : ¬(s.ptpOk m && s.ptpPort m.port) = true := by rcases h with h | h <;> simp [h]
  change execAnnounceRx m rank ten s = _
  rw [execAnnounceRx]
  dsimp only
  rw [if_neg ignored]

theorem exec_announceRx_heard (ok : s.ptpOk m = true) (port : s.ptpPort m.port = true)
    (heard : Tide.hear { s.tide with ref10m := s.tide.ref10m || ten } m rank = t) : exec (.announceRx m rank ten) s = .next (s.inputs t) := by
  change execAnnounceRx m rank ten s = _
  rw [execAnnounceRx, ok, port, ← heard]
  rfl

end

/-! ### The reference is lost (R28, R31, R34) -/

/-- The tide with other inputs, another port for PTP and another master. -/
def Tide.withInputs (t : Tide) (ptp pps ten : Bool) (port : Nat) (master : Option PtpMaster) : Tide :=
  { t with refPtp := ptp, refPps := pps, ref10m := ten, activePort := port, master := master }

theorem refOk_withInputs_false {ptp pps ten : Bool} (port : Nat) (master : Option PtpMaster)
    (missing : ptp = false ∨ (s.srcMode = 2 ∧ pps = false) ∨ (s.srcMode ≠ 0 ∧ ten = false)) :
    State.refOk { s with tide := s.tide.withInputs ptp pps ten port master } = false := by
  change (ptp && (s.srcMode == 0 || ten) && (s.srcMode != 2 || pps)) = false
  rcases missing with rfl | ⟨mode, rfl⟩ | ⟨mode, rfl⟩
  · rfl
  · simp [mode]
  · simp [mode]

/-- Where the inputs of `u` no longer complete the reference that `s` had, it is lost. -/
def State.lossTo (s u : State) : State := if s.refOk && !u.refOk then u.refLost else u

theorem referenceLost_announce : s.referenceLost 0 = s.lossTo (
    let t (port : Nat) := s.tide.withInputs false s.tide.refPps s.tide.ref10m port none
    if s.tide.activePort = s.fld R.TIDE_CFG 19 16 ∧ s.fld R.TIDE_CFG 24 24 = 1 then { s with tide := t (s.fld R.TIDE_CFG 23 20) }
    else { s with tide := t (s.fld R.TIDE_CFG 19 16) }) := rfl

/-- The loss of a reference that SRC_MODE needs moves the state machine; before that only the inputs, the port and the master have changed. -/
theorem exec_referenceLost {cause : Nat} (ref : s.refOk = true)
    (needed : cause = 0 ∨ (cause = 1 ∧ s.srcMode = 2) ∨ (cause = 2 ∧ s.srcMode ≠ 0)) :
    ∃ ptp pps ten port master,
      exec (.referenceLost cause) s = .next (State.refLost { s with tide := s.tide.withInputs ptp pps ten port master }) := by
  change ∃ ptp pps ten port master, Host.Outcome.next (s.referenceLost cause) = _
  have lost {ptp pps ten : Bool} (port : Nat) (master : Option PtpMaster)
      (missing : ptp = false ∨ (s.srcMode = 2 ∧ pps = false) ∨ (s.srcMode ≠ 0 ∧ ten = false)) :
      s.lossTo { s with tide := s.tide.withInputs ptp pps ten port master } =
        State.refLost { s with tide := s.tide.withInputs ptp pps ten port master } :=
    if_pos (by rw [ref, refOk_withInputs_false port master missing]; rfl)
  rcases needed with rfl | ⟨rfl, mode⟩ | ⟨rfl, mode⟩
  · rw [referenceLost_announce]
    split <;> exact ⟨_, _, _, _, _, congrArg _ (lost _ _ (.inl rfl))⟩
  · exact ⟨s.tide.refPtp, false, s.tide.ref10m, s.tide.activePort, s.tide.master, congrArg _ (lost _ _ (.inr (.inl ⟨mode, rfl⟩)))⟩
  · exact ⟨s.tide.refPtp, s.tide.refPps, false, s.tide.activePort, s.tide.master, congrArg _ (lost _ _ (.inr (.inr ⟨mode, rfl⟩)))⟩

theorem refLost_locked (st : s.tide.state = .locked) :
    s.refLost = { s.bump R.TIDE_HOLDOVER_CNT with tide := { s.tide with
      stepPend := none, state := .holdover, holdE0 := s.tide.est, holdSec := s.tide.time
      holdA := s.fld R.TIDE_HOLD_CFG 15 0, holdC := s.fld R.TIDE_HOLD_CFG 31 16 } } := by
  have sampled (hi lo : Nat) : (s.bump R.TIDE_HOLDOVER_CNT).fld R.TIDE_HOLD_CFG hi lo = s.fld R.TIDE_HOLD_CFG hi lo :=
    fld_bump s _ _ hi lo (by decide)
  rw [State.refLost]
  dsimp only
  rw [st, ← sampled, ← sampled]
  rfl

theorem refLost_unqualified (st : s.tide.state = .acquiring) (before : s.tide.lockedOnce = true) :
    s.refLost = { s with tide.stepPend := none, tide.state := .unqualified, tide.est := 0xFFFFFFFF } := by
  rw [State.refLost]
  dsimp only
  rw [st, before]
  rfl

theorem refLost_freerun (st : s.tide.state = .acquiring) (never : s.tide.lockedOnce = false) :
    s.refLost = State.emit { s with tide.stepPend := none, tide.state := .freerun, tide.est := 0xFFFFFFFF, tide.ppsLevel := false }
      (.pin .ppsOut false) := by
  rw [State.refLost]
  dsimp only
  rw [st, never]
  rfl

/-! ### The end of HOLDOVER (R31) -/

theorem exec_holdoverExceeded (st : s.tide.state = .holdover) (exceeded : 2000 < s.errEst) :
    exec .holdoverExceeded s = .next (State.event { s with tide.state := .unqualified, tide.est := 0xFFFFFFFF }
      0x02 evcState 4 0 (evState 3 4 0 ++ evValue s.errEst)) :=
  congrArg _ (if_pos ⟨st, exceeded⟩)

theorem exec_holdoverExceeded_not (h : s.tide.state ≠ .holdover ∨ s.errEst ≤ 2000) : exec .holdoverExceeded s = .next s :=
  congrArg _ (if_neg fun both => h.elim (absurd both.1) (Nat.not_le.2 both.2))

end

/-- Settles O16: each row of the table of R31, by what its command comes to in that state. -/
theorem theFabricTimeStateMachineFollowsItsTable : Obligations.TheFabricTimeStateMachineFollowsItsTable := by
  unfold Obligations.TheFabricTimeStateMachineFollowsItsTable
  refine ⟨?ignored, ?locks, ?starts, ?corrects, ?locked, ?holdover, ?found, ?unlocked, ?announced, ?pulsed, ?lost, ?exceeded, ?within⟩
  case ignored => exact fun _ _ _ => exec_syncRx_ignored
  case locks =>
    refine fun m off s ref sync st counts => ⟨rfl, fun full good => ?_⟩
    have enough : 16 ≤ (s.counted off).tide.goodEst := by
      rw [counted_goodEst_good full good]
      exact Nat.succ_le_succ counts
    exact ⟨_, exec_syncRx_locks ref sync st enough, rfl, rfl, rfl, rfl, rfl, rfl⟩
  case starts =>
    intro m off s ref sync st short
    have badEst : (s.counted off).tide.goodEst = 0 := counted_goodEst_bad (by omega)
    have badSpread : (s.counted off).tide.goodSpread = 0 := counted_goodSpread_bad (by omega)
    exact ⟨_, exec_syncRx_counts ref sync st badEst badSpread, rfl, st, badEst, badSpread⟩
  case corrects =>
    intro m off s ref sync st noSlew noStep counts full steady bad
    have badEst : (s.counted off).tide.goodEst = 0 := counted_goodEst_bad (.inr bad)
    have enough : 16 ≤ (s.counted off).tide.goodSpread := by
      rw [counted_goodSpread_good full steady]
      exact Nat.succ_le_succ counts
    have counted : { s.counted off with tide.goodSpread := 0 } = { s.measure off with tide.goodEst := 0, tide.goodSpread := 0 } := by
      rw [← badEst]
      rfl
    rw [exec_syncRx_corrects ref sync st badEst enough noSlew noStep, counted]
    rfl
  case locked =>
    exact fun m off s ref sync st => ⟨exec_syncRx_locked_good ref sync st, exec_syncRx_locked_bad ref sync st,
      fun bad many => ⟨_, exec_syncRx_locked_lost ref sync st bad many, rfl, rfl⟩⟩
  case holdover =>
    refine fun m off s ref sync st => ⟨fun small => ?_, fun large => ⟨_, exec_syncRx_holdover_large ref sync st large, rfl, rfl⟩⟩
    refine ⟨_, exec_syncRx_holdover_small ref sync st small, ?_⟩
    by_cases zero : off = 0
    · rw [if_pos zero]
      exact ⟨rfl, rfl, absurd zero⟩
    · rw [if_neg zero]
      exact ⟨rfl, rfl, fun _ => rfl⟩
  case found =>
    intro t s u
    exact ⟨rfl, refFound_freerun (s := u), refFound_unqualified (s := u), refFound_holdover (s := u), rfl⟩
  case unlocked => exact fun m off s ref sync => ⟨exec_syncRx_unqualified ref sync, exec_syncRx_freerun ref sync⟩
  case announced =>
    exact fun m rank ten s => ⟨exec_announceRx_ignored, fun ok port =>
      ⟨fun first => exec_announceRx_heard ok port (hear_first first), fun x selected =>
        ⟨fun elsewhere => exec_announceRx_heard ok port (hear_elsewhere selected elsewhere),
          fun here wins => exec_announceRx_heard ok port (hear_taken selected here wins),
          fun here other worse => exec_announceRx_heard ok port (hear_kept selected here other worse)⟩⟩⟩
  case pulsed => exact fun _ _ => rfl
  case lost =>
    intro cause s ref needed
    obtain ⟨ptp, pps, ten, port, master, lost⟩ := exec_referenceLost ref needed
    rw [lost]
    exact ⟨fun st => ⟨_, congrArg _ (refLost_locked st), rfl, rfl, rfl, rfl, rfl, rfl, rfl, rfl⟩,
      fun st before => ⟨_, congrArg _ (refLost_unqualified st before), rfl, rfl, rfl⟩,
      fun st never => ⟨_, congrArg _ (refLost_freerun st never), rfl, rfl, rfl⟩⟩
  case exceeded => exact fun _ => exec_holdoverExceeded
  case within => exact fun _ => exec_holdoverExceeded_not

section
variable {s : State} {off : Int}

/-! ### PPS_OUT, slews and steps (R29, R34, R41) -/

theorem exec_ppsOutEdge (runs : s.tide.state ≠ .freerun) (due : s.tide.lastPps ≠ s.tide.time / 1000000000) :
    exec .ppsOutEdge s = .next { s with
      tide.lastPps := s.tide.time / 1000000000, tide.ppsLevel := true, out := s.out ++ [.pin .ppsOut true] } :=
  congrArg _ (if_neg (not_or.2 ⟨runs, due⟩))

theorem exec_ppsOutEdge_freerun (st : s.tide.state = .freerun) : exec .ppsOutEdge s = .next s :=
  congrArg _ (if_pos (.inl st))

theorem exec_slewEnd_plain (slews : s.tide.slew.isSome = true) (plain : s.tide.acqCorr = false) :
    exec .slewEnd s = .next { s with tide.slew := none } := by
  change execSlewEnd s = _
  rw [execSlewEnd, Option.isNone_eq_false_iff.2 slews, plain]
  rfl

/-- After the correction of ACQUIRING the window starts anew (R30). -/
theorem exec_slewEnd_correction (slews : s.tide.slew.isSome = true) (correction : s.tide.acqCorr = true) :
    exec .slewEnd s = .next { s with tide := { s.tide with
      slew := none, window := [], goodEst := 0, goodSpread := 0, acqCorr := false
      est := if s.tide.state = .acquiring then 0xFFFFFFFF else s.tide.est } } := by
  change execSlewEnd s = _
  rw [execSlewEnd, Option.isNone_eq_false_iff.2 slews, correction]
  rfl

theorem exec_stepApplied_waits (pend : s.tide.stepPend = some off) (busy : s.admitted ≠ []) : exec .stepApplied s = .next s := by
  change execStepApplied s = _
  rw [execStepApplied, pend]
  exact congrArg _ (if_neg (mt List.isEmpty_iff.1 busy))

theorem exec_stepApplied (pend : s.tide.stepPend = some off) (idle : s.admitted = []) : exec .stepApplied s = .next (s.applyStep off) := by
  change execStepApplied s = _
  rw [execStepApplied, pend]
  exact congrArg _ (if_pos (List.isEmpty_iff.2 idle))

/-- A step back of fabric time, or by nothing, passes no boundary of a second and no timed event. -/
theorem applyStep_back (back : 0 ≤ off) :
    s.applyStep off = State.event (State.layoutH (State.bump
      { s with tide := { s.tide.fresh with
        time := ((s.tide.time : Int) - off).toNat, stepPend := none, acqCorr := false
        est := if s.tide.state = .acquiring then 0xFFFFFFFF else s.tide.est
        lastPps := (((s.tide.time : Int) - off).toNat + 999999999) / 1000000000 - 1 } } R.TIDE_STEP_CNT))
      0x02 evcTime 2 0 (evValueS (-off)) := by
  rw [State.applyStep]
  dsimp only
  rw [if_neg (Int.not_lt.2 back), if_neg fun h => Int.not_lt.2 back h.1]
  rfl

/-! ### Timed events (R40) -/

theorem firstTimed_mem {ts : List Timed} {t : Timed} (h : firstTimed ts = some t) : t ∈ ts := by
  refine List.foldlRecOn (motive := fun o => ∀ t, o = some t → t ∈ ts) ts _ (b := none) nofun (fun o ih x hx t ht => ?_) t h
  cases o with
  | none => exact Option.some.inj ht ▸ hx
  | some y =>
    dsimp only at ht
    split at ht
    · exact Option.some.inj ht ▸ hx
    · exact ih t ht

/-- What fires first is an armed event whose instant has been reached. -/
theorem firstTimed_dueTimed {t : Timed} (h : firstTimed s.dueTimed = some t) : t ∈ s.tide.timed ∧ t.armed = true ∧ t.instant ≤ s.tide.time := by
  have due : t ∈ s.tide.timed.filter fun x => x.armed && decide (x.instant ≤ s.tide.time) := firstTimed_mem h
  simpa only [List.mem_filter, Bool.and_eq_true, decide_eq_true_eq] using due

theorem exec_timedEventFire {t : Timed} (first : firstTimed s.dueTimed = some t) (runs : s.tide.state ≠ .freerun) :
    exec .timedEventFire s = .next (s.fireTimed t false) := by
  change execTimedEventFire s = _
  rw [execTimedEventFire, first]
  exact congrArg _ (if_neg runs)

section
variable {last n : Nat} {ts : List Timed} {x : Timed}

theorem armOne_within (far : x.armed = false) (within : x.instant / 8000 ≤ last) :
    armOne last (ts, n) x = (ts ++ [{ x with armed := true, order := n }], n + 1) := by
  rw [armOne, if_pos (by simp [far, within])]

theorem armOne_other (h : x.armed = true ∨ last < x.instant / 8000) : armOne last (ts, n) x = (ts ++ [x], n) := by
  rw [armOne, if_neg (by rcases h with h | h <;> simp [h])]

end

/-! ### The harvest budget and the event allowances (R294, R443) -/

theorem exec_harvestBudgetSwitch {slot h : Nat} (pend : s.ftl.hPending = some (slot, h)) (due : slot ≤ s.tide.time / 8000) :
    exec .harvestBudgetSwitch s = .next { s with ftl.hNow := h, ftl.hPending := none, ftl.urgent := s.ftl.budgetArmed } := by
  change execHarvestBudgetSwitch s = _
  rw [execHarvestBudgetSwitch, pend]
  exact congrArg _ (if_pos due)

/-- The allowance of a class after `k` boundaries of a second. -/
def State.refilled (s : State) (k c n : Nat) : Nat := Nat.min (s.fld (R.EVR_RATE c) 31 16) (n + k * s.fld (R.EVR_RATE c) 15 0)

/-- Every class's allowance, refilled. -/
def State.allowRefilled (s : State) (k : Nat) : List Nat :=
  ((List.range s.evr.allow.length).zip s.evr.allow).map fun x => s.refilled k x.1 x.2

theorem allowRefilled_getElem? {k c n : Nat} (h : s.evr.allow[c]? = some n) : (s.allowRefilled k)[c]? = some (s.refilled k c n) := by
  have inRange : c < s.evr.allow.length := (List.getElem?_eq_some_iff.1 h).1
  have pair : ((List.range s.evr.allow.length).zip s.evr.allow)[c]? = some (c, n) :=
    List.getElem?_zip_eq_some.2 ⟨List.getElem?_range inRange, h⟩
  rw [State.allowRefilled, List.getElem?_map, pair]
  rfl

/-- With no class that dropped records, the refill appends no SUMMARY. -/
theorem refill_quiet (k : Nat) (quiet : s.evr.drops = []) :
    s.refill k = { s with evr.allow := s.allowRefilled k, evr.drops := [], evr.lastRefill := s.second } := by
  rw [State.refill, quiet]
  rfl

theorem exec_evrAllowanceRefill (due : s.evr.lastRefill < s.tide.time / 1000000000) :
    exec .evrAllowanceRefill s = .next (s.refill (s.tide.time / 1000000000 - s.evr.lastRefill)) :=
  congrArg _ (if_pos due)

/-! ### Ports (R27, R516) -/

/-- The only port that is up measures its peer delay, and its cable is shown. -/
theorem exec_peerDelayTimer {p : EthPort} (ps : Nat) (copper : Bool) (low : p.port < 16)
    (only : s.xpt.ports.filter (fun p => p.up && decide (p.port < 16)) = [p]) :
    exec (.peerDelayTimer [(p.port, ps, copper)]) s = .next (State.cable (s.emit (.ptpDelay p.port)) p.port ps copper) := by
  change execPeerDelayTimer _ s = _
  have measured : [(p.port, ps, copper)].filter (fun d => d.1 < 16 && [p].any fun p => p.port == d.1) = [(p.port, ps, copper)] := by
    simp [low]
  rw [execPeerDelayTimer, only]
  dsimp only
  rw [measured]
  rfl

theorem exec_ethPortUp {port line : Nat} (inRange : port ≤ 63) (on : s.domainOff (3 + port % 16) = false) :
    exec (.ethPortUp port line) s = .next { s with
      xpt.ports := putKey EthPort.port { s.eport port with up := true, line := line, paused := [], ignoring := none, queue := [] } s.xpt.ports } := by
  have up : ¬(port > 63 ∨ s.domainOff (3 + port % 16) = true) := by simp [inRange, on]
  change execEthPortUp port line s = _
  rw [execEthPortUp, if_neg up]
  rfl

end

/-- Settles O17: slots, PPS_OUT and corrections, then timed events, then the switch of the budget, the refill and the ports. -/
theorem fabricTimeDrivesSlotsEventsAndTimers : Obligations.FabricTimeDrivesSlotsEventsAndTimers := by
  unfold Obligations.FabricTimeDrivesSlotsEventsAndTimers
  refine ⟨?slot, ?pps, ?noPps, ?slewed, ?corrected, ?stepWaits, ?stepped, ?fires, ?arms, ?armOne, ?switches, ?refills, ?delays, ?portUp⟩
  case slot => exact fun _ => rfl
  case pps => exact fun _ => exec_ppsOutEdge
  case noPps => exact fun _ => exec_ppsOutEdge_freerun
  case slewed => exact fun _ => exec_slewEnd_plain
  case corrected => exact fun s slews correction => ⟨_, exec_slewEnd_correction slews correction, rfl, rfl, rfl, rfl, rfl⟩
  case stepWaits => exact fun _ _ => exec_stepApplied_waits
  case stepped => exact fun off s pend idle back => (exec_stepApplied pend idle).trans (congrArg _ (applyStep_back back))
  case fires => exact fun t s first runs => ⟨exec_timedEventFire first runs, firstTimed_dueTimed first⟩
  case arms =>
    intro s p armed
    subst armed
    rfl
  case armOne => exact fun last ts n x => ⟨armOne_within, armOne_other⟩
  case switches => exact fun _ _ _ => exec_harvestBudgetSwitch
  case refills =>
    intro s due quiet
    refine ⟨_, exec_evrAllowanceRefill due, ?_⟩
    rw [refill_quiet _ quiet]
    exact ⟨rfl, rfl, fun c n => allowRefilled_getElem?⟩
  case delays =>
    intro ps copper port s low only known
    have delays := exec_peerDelayTimer ps copper (Nat.lt_of_le_of_lt (Nat.le_of_eq known) low) only
    rwa [known] at delays
  case portUp => exact fun _ _ _ => exec_ethPortUp
end Sys2Proof.Machine
end

section
/-! Deadlines and admission (03_sluice.md R64, R65, R68, R69; 12_harvest_health.md R310, R311): what a missed deadline, a new harvest budget and the
admission settings of a volume come to, and the statement about them. -/
namespace Sys2Proof.Machine

section
variable {s : State}

/-! ### A missed deadline (R64, R65) -/

section
variable {c : Cmd} {cmd cause rsrc d : Nat}

theorem exec_deadlineMissed (known : s.io? cmd = some c) (admitted : c.deadline = some d) :
    exec (.deadlineMissed cmd cause rsrc) s = .next
      (if d > 8000 * s.slot ∨ c.missed.isSome ∨ !s.missFits c cause rsrc then s else s.missCmd c rsrc cause) := by
  change execDeadlineMissed cmd cause rsrc s = _
  rw [execDeadlineMissed, known]
  dsimp only
  rw [admitted]

theorem exec_deadlineMissed_early (known : s.io? cmd = some c) (admitted : c.deadline = some d) (early : 8000 * s.slot < d) :
    exec (.deadlineMissed cmd cause rsrc) s = .next s := by
  rw [exec_deadlineMissed known admitted, if_pos (.inl early)]

theorem exec_deadlineMissed_unfit (known : s.io? cmd = some c) (admitted : c.deadline = some d) (unfit : s.missFits c cause rsrc = false) :
    exec (.deadlineMissed cmd cause rsrc) s = .next s := by
  rw [exec_deadlineMissed known admitted, if_pos (.inr (.inr (by rw [unfit]; rfl)))]

theorem exec_deadlineMissed_late (known : s.io? cmd = some c) (admitted : c.deadline = some d) (late : d ≤ 8000 * s.slot)
    (first : c.missed = none) (fits : s.missFits c cause rsrc = true) :
    exec (.deadlineMissed cmd cause rsrc) s = .next (s.missCmd c rsrc cause) := by
  rw [exec_deadlineMissed known admitted, if_neg (by simp [late, first, fits])]

/-- A read, or a write not yet in the journal, ends with the miss status. -/
theorem missCmd_ends (uncommitted : s.inJournal c.id = false) :
    s.missCmd c rsrc cause = (((s.bump (R.SLU_MISS_CNT_N cause)).discardCmd c.id).bump R.SLU_MISS_CNT).endIo c.id 7 0xC1 false
      (missDword false rsrc cause) :=
  if_neg (ne_true_of_eq_false uncommitted)

/-- A write in the journal is marked, loses its bookings and its lock, and runs on. -/
theorem missCmd_marks (committed : s.inJournal c.id = true) :
    s.missCmd c rsrc cause = (((s.bump (R.SLU_MISS_CNT_N cause)).unbook c.id).putIo
      { c with locked := false, missed := some (missDword true rsrc cause) }).checkCmd c.id :=
  if_pos committed

end

/-! ### Instants for timed events (02_fabric_time.md R40) -/

section
variable {instant : Nat} {kind : TimedKind}

theorem armTimed_freerun (st : s.tide.state = .freerun) : s.armTimed instant kind = .error 0x0100 := if_pos st

theorem armTimed_tooSoon (runs : s.tide.state ≠ .freerun) (soon : instant / 8000 < s.slot + 2) : s.armTimed instant kind = .error 0x0101 := by
  rw [State.armTimed, if_neg runs, if_pos soon]

/-- An instant that lies far enough ahead is the one entry of a table that was empty. -/
theorem armTimed_first (runs : s.tide.state ≠ .freerun) (ahead : s.slot + 2 ≤ instant / 8000) (empty : s.tide.timed = []) :
    s.armTimed instant kind = .ok { s with
      tide.timed := [⟨instant, s.tide.nextOrder, decide (instant / 8000 ≤ s.lastSlot), kind⟩], tide.nextOrder := s.tide.nextOrder + 1 } := by
  rw [State.armTimed, if_neg runs, if_neg (Nat.not_lt.2 ahead), empty]
  rfl

end

section
variable {n slot : Nat} {e : Entry}

/-! ### SET_HARVEST_BUDGET (R310, R311) -/

/-- The timed event switches the harvest budget. -/
def TimedKind.isBudget : TimedKind → Bool
  | .budget _ _ => true
  | _ => false

/-- What SET_HARVEST_BUDGET answers once its instant has been accepted or refused. -/
def State.budgetReply (u : State) : Except Nat State → PktRes
  | .error st => .fail u st
  | .ok t => .done t stOk [] []

theorem exec_setHarvestBudget_badFields (h : s.CanRun 0x5A n slot e)
    (bad : e.num 18 2 < 100 ∨ e.num 20 2 < e.num 18 2 ∨ e.zero 22 4 = false) :
    exec (.setHarvestBudget n slot) s = .next ((s.begun n slot e).replied n slot e stInvalidField [] []) := by
  change execSetHarvestBudget n slot s = _
  rw [execSetHarvestBudget, State.packet_runs _ h]
  dsimp only
  rw [if_pos (by simpa using bad), State.ended_fail]

/-- With fields that are allowed, the checks follow in their order: the share of the dies, a switch that is planned already, the instant. -/
theorem exec_setHarvestBudget (h : s.CanRun 0x5A n slot e) (base : 100 ≤ e.num 18 2) (urgent : e.num 18 2 ≤ e.num 20 2)
    (zero : e.zero 22 4 = true) :
    exec (.setHarvestBudget n slot) s = .next (s.ended n slot e
      (if e.num 20 2 * 256 ≥ 8000 * s.dieShare then .fail (s.begun n slot e) 0x0900
       else if s.tide.timed.any (fun t => t.kind.isBudget) = true ∨ s.ftl.hPending.isSome = true then .fail (s.begun n slot e) 0x0901
       else (s.begun n slot e).budgetReply ((s.begun n slot e).armTimed (e.num 10 8) (.budget (e.num 18 2) (e.num 20 2))))) := by
  have allowed : ¬(e.num 18 2 < 100 ∨ e.num 20 2 < e.num 18 2 ∨ (!e.zero 22 4) = true) := by simp [base, urgent, zero]
  change execSetHarvestBudget n slot s = _
  rw [execSetHarvestBudget, State.packet_runs _ h]
  dsimp only
  rw [if_neg allowed]
  rfl

theorem exec_setHarvestBudget_noShare (h : s.CanRun 0x5A n slot e) (base : 100 ≤ e.num 18 2) (urgent : e.num 18 2 ≤ e.num 20 2)
    (zero : e.zero 22 4 = true) (exceeds : 8000 * s.dieShare ≤ e.num 20 2 * 256) :
    exec (.setHarvestBudget n slot) s = .next ((s.begun n slot e).replied n slot e 0x0900 [] []) := by
  rw [exec_setHarvestBudget h base urgent zero, if_pos exceeds, State.ended_fail]

theorem exec_setHarvestBudget_pending (h : s.CanRun 0x5A n slot e) (base : 100 ≤ e.num 18 2) (urgent : e.num 18 2 ≤ e.num 20 2)
    (zero : e.zero 22 4 = true) (within : e.num 20 2 * 256 < 8000 * s.dieShare) (pend : s.ftl.hPending.isSome = true) :
    exec (.setHarvestBudget n slot) s = .next ((s.begun n slot e).replied n slot e 0x0901 [] []) := by
  rw [exec_setHarvestBudget h base urgent zero, if_neg (Nat.not_le.2 within), if_pos (.inr pend), State.ended_fail]

/-- With no timed event and no pending budget, the instant decides. -/
theorem exec_setHarvestBudget_arms (h : s.CanRun 0x5A n slot e) (base : 100 ≤ e.num 18 2) (urgent : e.num 18 2 ≤ e.num 20 2)
    (zero : e.zero 22 4 = true) (within : e.num 20 2 * 256 < 8000 * s.dieShare) (idle : s.ftl.hPending = none) (empty : s.tide.timed = [])
    {r : Except Nat State} (arms : (s.begun n slot e).armTimed (e.num 10 8) (.budget (e.num 18 2) (e.num 20 2)) = r) :
    exec (.setHarvestBudget n slot) s = .next (s.ended n slot e ((s.begun n slot e).budgetReply r)) := by
  rw [exec_setHarvestBudget h base urgent zero, if_neg (Nat.not_le.2 within), if_neg (by simp [idle, empty]), arms]

/-! ### SET_VOLUME_ADMISSION and GET_VOLUME_ADMISSION (R68, R69) -/

section
variable {v : Volume}

/-- The fields of a SET_VOLUME_ADMISSION packet besides its mode are ones that R68 allows. -/
structure AdmissionFields (e : Entry) : Prop where
  flags : e.num 15 1 ≤ 1
  allowMin : 1 ≤ e.num 16 2
  allowMax : e.num 16 2 ≤ 4096
  inflight : e.num 22 4 ≤ 262144
  reserved : e.zero 26 8 = true

/-- The volume with the admission that the packet gives it. -/
def Volume.admission (v : Volume) (e : Entry) : Volume :=
  { v with mode := e.num 14 1, flags := e.num 15 1, clientAllow := e.num 16 2, budget := e.num 18 4, maxInflight := e.num 22 4 }

@[simp] theorem begun_vol? (nsid : Nat) : (s.begun n slot e).vol? nsid = s.vol? nsid := rfl
@[simp] theorem begun_ownsGroup (ana : Nat) : (s.begun n slot e).ownsGroup ana = s.ownsGroup ana := rfl

theorem exec_setVolumeAdmission_notOwner (h : s.CanRun 0x58 n slot e) (known : s.vol? (e.num 10 4) = some v) (other : s.ownsGroup v.ana = false) :
    exec (.setVolumeAdmission n slot) s = .next ((s.begun n slot e).replied n slot e stNotOwner [] []) := by
  change execSetVolumeAdmission n slot s = _
  rw [execSetVolumeAdmission, State.packet_runs _ h]
  dsimp only
  rw [begun_vol?, known]
  dsimp only
  rw [begun_ownsGroup, other, if_pos (by decide), State.ended_fail]

/-- On a volume that this head serves, the checks follow in their order: the fields, a move of the group, then what deadline mode needs. -/
theorem exec_setVolumeAdmission (h : s.CanRun 0x58 n slot e) (known : s.vol? (e.num 10 4) = some v) (owns : s.ownsGroup v.ana = true) :
    exec (.setVolumeAdmission n slot) s = .next (s.ended n slot e
      (if e.num 14 1 > 1 ∨ e.num 15 1 > 1 ∨ e.num 16 2 < 1 ∨ e.num 16 2 > 4096 ∨ e.num 22 4 > 262144 ∨ !e.zero 26 8 then
        .fail (s.begun n slot e) stInvalidField
       else if s.moving v.ana then .fail (s.begun n slot e) stBusy
       else if e.num 14 1 = 1 ∧ v.mode = 0 ∧ v.lbaf = 1 then .fail (s.begun n slot e) 0x0201
       else if e.num 14 1 = 1 ∧ v.mode = 0 ∧ s.deadlineVols.length ≥ 16384 then .fail (s.begun n slot e) 0x0202
       else if e.num 14 1 = 1 ∧ v.mode = 0 ∧ !s.mapFits v then .fail (s.begun n slot e) 0x0200
       else .done ((s.begun n slot e).storeVol (v.admission e)) stOk [] [])) := by
  change execSetVolumeAdmission n slot s = _
  rw [execSetVolumeAdmission, State.packet_runs _ h]
  dsimp only
  rw [begun_vol?, known]
  dsimp only
  rw [begun_ownsGroup, owns, if_neg (by decide)]
  rfl

theorem exec_setVolumeAdmission_badMode (h : s.CanRun 0x58 n slot e) (known : s.vol? (e.num 10 4) = some v) (owns : s.ownsGroup v.ana = true)
    (bad : 1 < e.num 14 1) :
    exec (.setVolumeAdmission n slot) s = .next ((s.begun n slot e).replied n slot e stInvalidField [] []) := by
  rw [exec_setVolumeAdmission h known owns, if_pos (.inl bad), State.ended_fail]

/-- With fields that are allowed and a group that stays, only deadline mode can be refused. -/
theorem exec_setVolumeAdmission_good (h : s.CanRun 0x58 n slot e) (known : s.vol? (e.num 10 4) = some v) (owns : s.ownsGroup v.ana = true)
    (mode : e.num 14 1 ≤ 1) (good : AdmissionFields e) (stays : s.moving v.ana = false) :
    exec (.setVolumeAdmission n slot) s = .next (s.ended n slot e
      (if e.num 14 1 = 1 ∧ v.mode = 0 ∧ v.lbaf = 1 then .fail (s.begun n slot e) 0x0201
       else if e.num 14 1 = 1 ∧ v.mode = 0 ∧ s.deadlineVols.length ≥ 16384 then .fail (s.begun n slot e) 0x0202
       else if e.num 14 1 = 1 ∧ v.mode = 0 ∧ !s.mapFits v then .fail (s.begun n slot e) 0x0200
       else .done ((s.begun n slot e).storeVol (v.admission e)) stOk [] [])) := by
  obtain ⟨flags, allowMin, allowMax, inflight, reserved⟩ := good
  have allowed : ¬(e.num 14 1 > 1 ∨ e.num 15 1 > 1 ∨ e.num 16 2 < 1 ∨ e.num 16 2 > 4096 ∨ e.num 22 4 > 262144 ∨ (!e.zero 26 8) = true) := by
    simp only [reserved, Bool.not_true, Bool.false_eq_true, or_false]
    omega
  rw [exec_setVolumeAdmission h known owns, if_neg allowed, if_neg (ne_true_of_eq_false stays)]

/-- A setting that does not take the volume into deadline mode is stored. -/
theorem exec_setVolumeAdmission_stored (h : s.CanRun 0x58 n slot e) (known : s.vol? (e.num 10 4) = some v) (owns : s.ownsGroup v.ana = true)
    (mode : e.num 14 1 ≤ 1) (good : AdmissionFields e) (stays : s.moving v.ana = false) (keeps : ¬(e.num 14 1 = 1 ∧ v.mode = 0)) :
    exec (.setVolumeAdmission n slot) s = .next (((s.begun n slot e).storeVol (v.admission e)).replied n slot e stOk [] []) := by
  have enters {p : Prop} (x : e.num 14 1 = 1 ∧ v.mode = 0 ∧ p) : False := keeps ⟨x.1, x.2.1⟩
  rw [exec_setVolumeAdmission_good h known owns mode good stays, if_neg enters, if_neg enters, if_neg enters, State.ended_done]

/-- A volume enters deadline mode if its block size, the number of such volumes and the map areas allow it (R47, R69). -/
theorem exec_setVolumeAdmission_enters (h : s.CanRun 0x58 n slot e) (known : s.vol? (e.num 10 4) = some v) (owns : s.ownsGroup v.ana = true)
    (good : AdmissionFields e) (stays : s.moving v.ana = false) (mode : e.num 14 1 = 1) (was : v.mode = 0) :
    exec (.setVolumeAdmission n slot) s = .next (s.ended n slot e
      (if v.lbaf = 1 then .fail (s.begun n slot e) 0x0201
       else if s.deadlineVols.length ≥ 16384 then .fail (s.begun n slot e) 0x0202
       else if s.mapFits v = false then .fail (s.begun n slot e) 0x0200
       else .done ((s.begun n slot e).storeVol (v.admission e)) stOk [] [])) := by
  rw [exec_setVolumeAdmission_good h known owns (Nat.le_of_eq mode) good stays]
  simp only [mode, was, true_and, Bool.not_eq_true']

theorem exec_getVolumeAdmission_notOwner (h : s.CanRun 0x59 n slot e) (known : s.vol? (e.num 10 4) = some v) (other : s.ownsGroup v.ana = false) :
    exec (.getVolumeAdmission n slot) s = .next ((s.begun n slot e).replied n slot e stNotOwner [] []) := by
  change execGetVolumeAdmission n slot s = _
  rw [execGetVolumeAdmission, State.packet_runs _ h]
  dsimp only
  rw [begun_vol?, known]
  dsimp only
  rw [begun_ownsGroup, other, if_pos (by decide), State.ended_fail]

theorem exec_getVolumeAdmission (h : s.CanRun 0x59 n slot e) (known : s.vol? (e.num 10 4) = some v) (owns : s.ownsGroup v.ana = true) :
    exec (.getVolumeAdmission n slot) s = .next ((s.begun n slot e).replied n slot e stOk
      (leBytes 4 v.nsid ++ leBytes 1 v.mode ++ leBytes 1 v.flags ++ leBytes 2 v.clientAllow ++ leBytes 4 v.budget ++ leBytes 4 v.maxInflight ++
        leBytes 4 (countOf (fun c => c.nsid == v.nsid) s.admitted)) []) := by
  change execGetVolumeAdmission n slot s = _
  rw [execGetVolumeAdmission, State.packet_runs _ h]
  dsimp only
  rw [begun_vol?, known]
  dsimp only
  rw [begun_ownsGroup, owns, if_neg (by decide), State.ended_done]
  rfl

end
end
end

/-- Settles O30: the miss, then each answer of SET_HARVEST_BUDGET, SET_VOLUME_ADMISSION and GET_VOLUME_ADMISSION. -/
theorem deadlinesAndAdmission : Obligations.DeadlinesAndAdmission := by
  unfold Obligations.DeadlinesAndAdmission
  refine ⟨?missed, ?budget, ?setAdmission, ?getAdmission⟩
  case missed =>
    intro cmd cause rsrc d c s known admitted
    refine ⟨exec_deadlineMissed_early known admitted, exec_deadlineMissed_unfit known admitted, fun late first fits => ?_⟩
    have missed := exec_deadlineMissed_late known admitted late first fits
    exact ⟨fun uncommitted => missed.trans (congrArg _ (missCmd_ends uncommitted)),
      fun committed => missed.trans (congrArg _ (missCmd_marks committed))⟩
  case budget =>
    intro n slot e s h
    refine ⟨exec_setHarvestBudget_badFields h, fun base urgent zero => ⟨exec_setHarvestBudget_noShare h base urgent zero,
      exec_setHarvestBudget_pending h base urgent zero, fun within idle empty => ?_⟩⟩
    have arms {r : Except Nat State} := exec_setHarvestBudget_arms h base urgent zero within idle empty (r := r)
    exact ⟨fun st => arms (armTimed_freerun st), fun runs soon => arms (armTimed_tooSoon runs soon),
      fun runs ahead => arms (armTimed_first runs ahead empty)⟩
  case setAdmission =>
    intro n slot e v s h known
    refine ⟨exec_setVolumeAdmission_notOwner h known, exec_setVolumeAdmission_badMode h known,
      fun owns flags allowMin allowMax inflight reserved stays => ?_⟩
    have good : AdmissionFields e := ⟨flags, allowMin, allowMax, inflight, reserved⟩
    have stored := exec_setVolumeAdmission_stored h known owns (good := good) (stays := stays)
    have enters := exec_setVolumeAdmission_enters h known owns good stays
    refine ⟨fun mode was small => ?_, fun mode => ?_, fun mode was => ?_,
      fun mode was large => ⟨fun full => ?_, fun room full => ?_, fun room fits => ?_⟩⟩
    · rw [enters mode was, if_pos small, State.ended_fail]
    · rw [stored (by omega) (by omega), Volume.admission, mode]
    · rw [stored (by omega) (by omega), Volume.admission, mode]
    · rw [enters mode was, if_neg large, if_pos full, State.ended_fail]
    · rw [enters mode was, if_neg large, if_neg (Nat.not_le.2 room), if_pos full, State.ended_fail]
    · rw [enters mode was, if_neg large, if_neg (Nat.not_le.2 room), fits, if_neg (by decide), State.ended_done, Volume.admission, mode]
  case getAdmission =>
    exact fun n slot e v s h known => ⟨exec_getVolumeAdmission_notOwner h known, exec_getVolumeAdmission h known⟩

end Sys2Proof.Machine
end

section
/-! Admin commands (04_host_queues.md R71 to R73, R95, R100; 12_harvest_health.md R307, R309; 19_event_recorder.md R454): what each of them comes to on
a queue that takes it, on a queue that does not, and while a sanitize runs, and the statement about them. -/
namespace Sys2Proof.Machine

section
variable {s : State} {e : Sqe} {q : QCtx}

/-- An admin command on a queue that takes it comes to what its body does, unless a sanitize holds it. -/
theorem admin_next {fab host calm : Bool} {body : QCtx → State → State} {t : State} (h : s.AdminOn e fab host q)
    (free : s.hq.san.state = .running → calm = true) (done : body q (s.takeCmd e) = t) :
    (Host.Outcome.next (s.admin e fab host calm body) : Host.Outcome State Fault Refusal) = .next t := by
  rw [State.admin_runs body h free, done]

/-- While a sanitize runs, an admin command that R95 does not name ends with Sanitize In Progress. -/
theorem admin_next_held {fab host : Bool} {body : QCtx → State → State} (h : s.AdminOn e fab host q) (running : s.hq.san.state = .running) :
    (Host.Outcome.next (s.admin e fab host false body) : Host.Outcome State Fault Refusal) =
      .next ((s.takeCmd e).complete e.q e.cid 0 0x1D (dnrOf (0, 0x1D)) 0 0) := by
  rw [State.admin_held body h running]

/-- On a queue that does not take it, an admin command ends with Invalid Command Opcode (R72). -/
theorem admin_next_wrongQueue {fab host calm : Bool} {body : QCtx → State → State} (hq : s.queue? e.q = some q)
    (wrong : ¬((q.kind = .fabAdmin ∧ fab = true) ∨ (q.kind = .hostAdmin ∧ host = true))) :
    (Host.Outcome.next (s.admin e fab host calm body) : Host.Outcome State Fault Refusal) =
      .next ((s.takeCmd e).complete e.q e.cid 0 1 (dnrOf (0, 1)) 0 0) := by
  rw [State.admin_wrongQueue body hq wrong]

/-! ### GET_LOG_PAGE -/

/-- The part of a log page that the command asks for. -/
def State.askedLog (s : State) (e : Sqe) : Option Bytes :=
  s.logPage (bits e.cdw10 7 0) (bits e.cdw10 14 8) (e.cdw12 + e.cdw13 * 2 ^ 32) (4 * (bits e.cdw10 31 16 + 65536 * bits e.cdw11 15 0 + 1))

/-- The health log is asked for of one namespace. -/
def healthOfOne (e : Sqe) : Prop := bits e.cdw10 7 0 = 2 ∧ e.nsid ≠ 0 ∧ e.nsid ≠ 0xFFFFFFFF

/-- The health log is the controller's: of one namespace it is not given (R307). -/
theorem exec_getLogPage_healthOfOne (h : s.AdminOn e true true q) (one : healthOfOne e) :
    exec (.getLogPage e) s = .next ((s.takeCmd e).adminEnd e 0 2 0 0) := by
  refine admin_next h (fun _ => rfl) ?_
  exact if_pos one

theorem exec_getLogPage_noLog (h : s.AdminOn e true true q) (whole : ¬healthOfOne e) (noLog : (s.takeCmd e).askedLog e = none) :
    exec (.getLogPage e) s = .next ((s.takeCmd e).adminEnd e 1 9 0 0) := by
  refine admin_next h (fun _ => rfl) ?_
  rw [State.askedLog] at noLog
  dsimp only
  rw [noLog]
  exact if_neg whole

/-- A log page is returned; without Retain Asynchronous Event it counts as read (R454). -/
theorem exec_getLogPage_log {d : Bytes} (h : s.AdminOn e true true q) (whole : ¬healthOfOne e) (log : (s.takeCmd e).askedLog e = some d) :
    exec (.getLogPage e) s = .next (if e.cdw10.testBit 15 then (s.takeCmd e).adminData e q d
      else ((s.takeCmd e).adminData e q d).logRead q.ctrl (bits e.cdw10 7 0)) := by
  refine admin_next h (fun _ => rfl) ?_
  rw [State.askedLog] at log
  dsimp only
  rw [log]
  exact if_neg whole

/-! ### IDENTIFY -/

theorem exec_identify_namespace {v : Volume} (h : s.AdminOn e true true q) (cns : bits e.cdw10 7 0 = 0) (known : (s.takeCmd e).vol? e.nsid = some v)
    (attached : v.attached = true) : exec (.identify e) s = .next ((s.takeCmd e).adminData e q ((s.takeCmd e).idNamespace v)) := by
  refine admin_next h (fun _ => rfl) ?_
  dsimp only
  rw [cns, known]
  exact congrArg ((s.takeCmd e).adminData e q) (if_pos attached)

theorem exec_identify_controller (h : s.AdminOn e true true q) (cns : bits e.cdw10 7 0 = 1) :
    exec (.identify e) s = .next ((s.takeCmd e).adminData e q ((s.takeCmd e).idController q.ctrl)) := by
  refine admin_next h (fun _ => rfl) ?_
  dsimp only
  rw [cns]
  rfl

/-! ### ABORT -/

/-- The queue that an Abort names. -/
def State.abortQueue (s : State) (e : Sqe) (q : QCtx) : Option QCtx := s.hq.ctxs.find? fun x => x.ctrl == q.ctrl && x.qid == bits e.cdw10 15 0

/-- The command of that queue that an Abort names, where it has not passed the range-lock stage. -/
def State.abortTarget (s : State) (e : Sqe) (x : QCtx) : Option Cmd :=
  s.hq.cmds.find? fun c => c.qctx == x.idx && c.cid == bits e.cdw10 31 16 && c.early

/-- Where an Abort finds no command that it may still end, it succeeds with bit 0 of its result set. -/
theorem exec_abort_missed (h : s.AdminOn e true true q) (calm : s.hq.san.state ≠ .running)
    (missed : ∀ x, (s.takeCmd e).abortQueue e q = some x → (s.takeCmd e).abortTarget e x = none) :
    exec (.abort e) s = .next ((s.takeCmd e).adminEnd e 0 0 1 0) := by
  refine admin_next h (fun running => absurd running calm) ?_
  dsimp only
  cases hx : (s.takeCmd e).abortQueue e q with
  | none =>
    rw [State.abortQueue] at hx
    rw [hx]
  | some x =>
    have noTarget := missed x hx
    rw [State.abortQueue] at hx
    rw [State.abortTarget] at noTarget
    rw [hx]
    dsimp only
    rw [noTarget]

theorem exec_abort_found {x : QCtx} {c : Cmd} (h : s.AdminOn e true true q) (calm : s.hq.san.state ≠ .running)
    (hx : (s.takeCmd e).abortQueue e q = some x) (hc : (s.takeCmd e).abortTarget e x = some c) :
    exec (.abort e) s = .next (((s.takeCmd e).abortCmd c 7).adminEnd e 0 0 0 0) := by
  rw [State.abortQueue] at hx
  rw [State.abortTarget] at hc
  refine admin_next h (fun running => absurd running calm) ?_
  dsimp only
  rw [hx]
  dsimp only
  rw [hc]

/-! ### What the controller of the queue keeps -/

/-- A controller's settings are replaced. -/
def State.putCtrl (s : State) (c : Controller) : State := { s with hq.ctrls := putKey Controller.id c s.hq.ctrls }

section
variable {c : Controller} (known : (s.takeCmd e).ctrlOf q = some c)
include known

theorem exec_setFeatures (h : s.AdminOn e true true q) (calm : s.hq.san.state ≠ .running) :
    exec (.setFeatures e) s = .next (((s.takeCmd e).putCtrl
      { c with feats := putKey Prod.fst (bits e.cdw10 7 0, e.cdw11) c.feats }).adminEnd e 0 0 0 0) := by
  refine admin_next h (fun running => absurd running calm) ?_
  dsimp only
  rw [known]
  rfl

theorem exec_getFeatures_set {f : Nat × Nat} (h : s.AdminOn e true true q) (set : findKey Prod.fst (bits e.cdw10 7 0) c.feats = some f) :
    exec (.getFeatures e) s = .next ((s.takeCmd e).adminEnd e 0 0 f.2 0) := by
  refine admin_next h (fun _ => rfl) ?_
  dsimp only
  rw [known]
  dsimp only
  rw [set]

/-- With no event to post, the request is held. -/
theorem exec_asynchronousEventRequest_held (h : s.AdminOn e true true q) (quiet : c.backlog = []) :
    exec (.asynchronousEventRequest e) s = .next ((s.takeCmd e).putCtrl { c with aers := c.aers ++ [e.cid] }) := by
  refine admin_next h (fun _ => rfl) ?_
  dsimp only
  rw [known]
  dsimp only
  rw [quiet]
  rfl

/-- The first event that waits for a request is posted on it. -/
theorem exec_asynchronousEventRequest_posts {k i l : Nat} {rest : List (Nat × Nat × Nat)} (h : s.AdminOn e true true q)
    (waits : c.backlog = (k, i, l) :: rest) :
    exec (.asynchronousEventRequest e) s = .next (((s.takeCmd e).putCtrl
      { c with aers := c.aers ++ [e.cid], backlog := rest }).sendAen c.id k i l) := by
  refine admin_next h (fun _ => rfl) ?_
  dsimp only
  rw [known]
  dsimp only
  rw [waits]
  rfl

theorem exec_keepAlive (h : s.AdminOn e true false q) (calm : s.hq.san.state ≠ .running) :
    exec (.keepAlive e) s = .next (((s.takeCmd e).putCtrl { c with kato := true }).adminEnd e 0 0 0 0) := by
  refine admin_next h (fun running => absurd running calm) ?_
  dsimp only
  rw [known]
  rfl

theorem exec_propertyGet (h : s.AdminOn e true false q) :
    exec (.propertyGet e) s = .next ((s.takeCmd e).adminEnd e 0 0 (c.prop e.cdw11 % 2 ^ 32) (c.prop e.cdw11 / 2 ^ 32)) := by
  refine admin_next h (fun _ => rfl) ?_
  dsimp only
  rw [known]

theorem exec_propertySet (h : s.AdminOn e true false q) (calm : s.hq.san.state ≠ .running) :
    exec (.propertySet e) s = .next (((s.takeCmd e).putCtrl
      { c with props := putKey Prod.fst (e.cdw11, e.cdw12 + e.cdw13 * 2 ^ 32) c.props }).adminEnd e 0 0 0 0) := by
  refine admin_next h (fun running => absurd running calm) ?_
  dsimp only
  rw [known]
  rfl

end

/-! ### DISCONNECT -/

/-- Disconnect on an I/O queue: refused while a sanitize runs; otherwise it is answered, the commands of the queue end and the queue goes. -/
theorem exec_disconnect_io (hq : s.queue? e.q = some q) (io : q.kind = .fabIo) :
    exec (.disconnect e) s = .next (if s.hq.san.state = .running then (s.takeCmd e).adminEnd e 0 0x1D 0 0 else
      let t := (s.takeCmd e).adminEnd e 0 0 0 0
      let u := (t.hq.cmds.filter fun c => c.qctx == e.q).foldl State.failCmd t
      { u with hq.ctxs := dropKey QCtx.idx e.q u.hq.ctxs }) := by
  change execDisconnect e s = _
  rw [execDisconnect, hq]
  dsimp only
  rw [if_neg (Classical.not_not.2 io)]

theorem exec_disconnect_admin (h : s.AdminOn e true false q) (admin : q.kind = .fabAdmin) (calm : s.hq.san.state ≠ .running) :
    exec (.disconnect e) s = .next ((s.takeCmd e).adminEnd e 0 2 0 0) := by
  have notIo : q.kind ≠ .fabIo := by rw [admin]; decide
  change execDisconnect e s = _
  rw [execDisconnect, State.queue?_live h.queue h.live h.up]
  dsimp only
  rw [if_pos notIo, State.admin_runs _ h fun running => absurd running calm]

/-! ### CONNECT -/

/-- On a queue that stands already Connect is out of sequence, and on a host-side one it is no command (R72; log 138). -/
theorem exec_connect_again (hq : s.queue? e.q = some q) (known : s.qctx? e.q = some q) :
    exec (.connect e) s = .next ((s.takeCmd e).adminEnd e 0 (if q.fabric then 0x0C else 1) 0 0) := by
  have live : ¬((s.queue? e.q).isNone = true) := by
    rw [hq]
    exact Bool.false_ne_true
  change execConnect e s = _
  cases hp : s.qp? e.q <;>
  · rw [execConnect, hp, known]
    dsimp only
    rw [if_neg live]
    cases q.fabric <;> rfl

/-- A Connect arrives on a client queue pair that has no queue yet, and there is a context for one (R73). -/
structure State.Connects (s : State) (e : Sqe) (p : Qp) : Prop where
  pair : s.qp? e.q = some p
  bare : s.qctx? e.q = none
  up : p.st = .connected
  client : p.priv = false
  index : e.q < 1048576
  room : s.hq.ctxs.length < 1048576

theorem State.Connects.isOpen {p : Qp} (h : s.Connects e p) : ¬(p.st ≠ .connected ∨ p.priv = true) := by
  rw [h.up, h.client]
  decide

theorem State.Connects.notFull {p : Qp} (h : s.Connects e p) (on : s.fld R.HQ_CFG 0 0 ≠ 0) :
    ¬(s.fld R.HQ_CFG 0 0 = 0 ∨ e.q ≥ 1048576 ∨ s.hq.ctxs.length ≥ 1048576) := by
  have index := h.index
  have room := h.room
  omega

/-- The queue that a Connect makes. -/
def connectQueue (e : Sqe) (kind : QKind) (ctrl : Nat) : QCtx :=
  { idx := e.q, kind := kind, ctrl := ctrl, qid := bits e.cdw10 31 16, size := bits e.cdw11 15 0 + 1, sqBase := 0, cqBase := 0, vec := 0, qp := e.q
    sqTail := 0, cqHead := 0, cqTail := 0, deleting := none, sqHead := 1 % (bits e.cdw11 15 0 + 1), phase := true, inv := [] }

/-- A sanitize that runs refuses a Connect (R95), and so does FAB_EN = 0 (log 37). -/
theorem exec_connect_refused {p : Qp} (h : s.Connects e p) (refused : s.hq.san.state = .running ∨ s.fld R.HQ_CFG 0 0 = 0) :
    exec (.connect e) s =
      .next (if s.hq.san.state = .running then s.bareReply e.q e.cid 0 0x1D 0 else s.bareReply e.q e.cid 1 0x82 0) := by
  change execConnect e s = _
  rw [execConnect, h.pair, h.bare]
  dsimp only
  rw [if_neg h.isOpen]
  by_cases running : s.hq.san.state = .running
  · rw [if_pos running, if_pos running]
  · rw [if_neg running, if_neg running, if_pos (.inl (refused.resolve_left running))]

/-- Connect to the admin queue makes a controller, under the lowest free identifier (log 25), and its admin queue. -/
theorem exec_connect_admin {p : Qp} (h : s.Connects e p) (calm : s.hq.san.state ≠ .running) (on : s.fld R.HQ_CFG 0 0 ≠ 0)
    (admin : bits e.cdw10 31 16 = 0) (dynamic : leAt e.data 16 2 = 0xFFFF) (size : bits e.cdw11 15 0 < 32)
    (free : countOf (fun c => !c.host) s.hq.ctrls < 16384) :
    exec (.connect e) s = .next (State.complete { s with
      hq.ctrls := s.hq.ctrls ++ [{ id := s.newCtrl, host := false, props := [], feats := [], aers := [], backlog := [], kato := false }]
      hq.ctxs := s.hq.ctxs ++ [connectQueue e .fabAdmin s.newCtrl] } e.q e.cid 0 0 false s.newCtrl 0) := by
  change execConnect e s = _
  rw [execConnect, h.pair, h.bare]
  dsimp only
  rw [if_neg h.isOpen, if_neg calm, if_neg (h.notFull on), if_pos admin, if_neg (by omega)]
  rfl

/-- Connect to an I/O queue of a controller that it has none of that identifier yet. -/
theorem exec_connect_io {p : Qp} {c : Controller} (h : s.Connects e p) (calm : s.hq.san.state ≠ .running) (on : s.fld R.HQ_CFG 0 0 ≠ 0)
    (io : 1 ≤ bits e.cdw10 31 16) (qid : bits e.cdw10 31 16 ≤ 128) (size : bits e.cdw11 15 0 < 1024)
    (known : findKey Controller.id (leAt e.data 16 2) s.hq.ctrls = some c) (fabric : c.host = false)
    (new : s.hq.ctxs.any (fun x => x.ctrl == c.id && x.qid == bits e.cdw10 31 16) = false) :
    exec (.connect e) s = .next (State.complete { s with hq.ctxs := s.hq.ctxs ++ [connectQueue e .fabIo c.id] } e.q e.cid 0 0 false c.id 0) := by
  have good : ¬(c.host = true ∨ bits e.cdw10 31 16 > 128 ∨ bits e.cdw11 15 0 + 1 > 1024 ∨
      s.hq.ctxs.any (fun x => x.ctrl == c.id && x.qid == bits e.cdw10 31 16) = true) := by
    rw [fabric, new]
    simp only [Bool.false_eq_true, false_or, or_false]
    omega
  change execConnect e s = _
  rw [execConnect, h.pair, h.bare]
  dsimp only
  rw [if_neg h.isOpen, if_neg calm, if_neg (h.notFull on), if_neg (by omega), known]
  dsimp only
  rw [if_neg good]
  rfl

end

/-- Settles O31: the commands of both admin queues, those of a fabric's alone, the queues that take none of them, and Connect. -/
theorem adminCommandsAnswer : Obligations.AdminCommandsAnswer := by
  unfold Obligations.AdminCommandsAnswer
  refine ⟨?both, ?fabric, ?queue, ?connect⟩
  case both =>
    rintro e q s h t rfl len page
    refine ⟨fun lid one notAll => exec_getLogPage_healthOfOne h ⟨lid, one, notAll⟩, fun other => ?log,
      fun v cns known attached => exec_identify_namespace h cns known attached, exec_identify_controller h, fun running => ⟨?_, ?_⟩,
      fun calm => ⟨fun noQueue => ?_, fun x hx => ⟨fun missed => ?_, fun c hc => exec_abort_found h calm hx hc⟩⟩, fun c known => ?kept⟩
    case log =>
      have whole : ¬healthOfOne e := fun one => other.elim (· one.1) fun all => all.elim one.2.1 one.2.2
      refine ⟨exec_getLogPage_noLog h whole, fun d log retain => ?_, fun d log read => ?_⟩
      · rw [exec_getLogPage_log h whole log, if_pos retain]
      · rw [exec_getLogPage_log h whole log, read, if_neg Bool.false_ne_true]
    · exact admin_next_held h running
    · exact admin_next_held h running
    · exact exec_abort_missed h calm fun x hx => nomatch noQueue.symm.trans hx
    · exact exec_abort_missed h calm fun y hy => Option.some.inj (hx.symm.trans hy) ▸ missed
    case kept =>
      exact ⟨⟨exec_setFeatures known h, find_put⟩, fun f set => exec_getFeatures_set known h set, exec_asynchronousEventRequest_held known h,
        fun k i l rest waits => exec_asynchronousEventRequest_posts known h waits⟩
  case fabric =>
    rintro e q s h t rfl c known
    exact ⟨exec_keepAlive known h, exec_propertyGet known h, exec_propertySet known h, fun running => ⟨admin_next_held h running,
      admin_next_held h running⟩⟩
  case queue =>
    rintro e q s known live up t rfl
    have hq := State.queue?_live known live up
    refine ⟨fun io => ⟨fun running => ?_, fun calm => ?_⟩, fun admin calm => ?_,
      fun host => ⟨admin_next_wrongQueue hq ?_, admin_next_wrongQueue hq ?_⟩, fun io => ⟨admin_next_wrongQueue hq ?_, admin_next_wrongQueue hq ?_⟩,
      fun admin => ⟨admin_next_wrongQueue hq ?_, admin_next_wrongQueue hq ?_⟩, fun fabric _ => ?_, fun host => ?_⟩
    · rw [exec_disconnect_io hq io, if_pos running]
    · rw [exec_disconnect_io hq io, if_neg calm]
    · exact exec_disconnect_admin ⟨known, .inl admin, live, up, by simp [QCtx.fabric, admin]⟩ admin calm
    · simp [host]
    · simp [host]
    · rcases io with io | io <;> simp [io]
    · rcases io with io | io <;> simp [io]
    · simp [admin]
    · simp [admin]
    · rw [exec_connect_again hq known, fabric]
      rfl
    · rw [exec_connect_again hq known, host]
      rfl
  case connect =>
    intro e p s pair bare up client index room
    have h : s.Connects e p := ⟨pair, bare, up, client, index, room⟩
    refine ⟨fun running => ?_, fun calm off => ?_, fun calm on => ⟨fun admin dynamic size free => ?_, fun c io qid size known fabric new => ?_⟩⟩
    · rw [exec_connect_refused h (.inl running), if_pos running]
    · rw [exec_connect_refused h (.inr off), if_neg calm]
    · have queue : connectQueue e .fabAdmin s.newCtrl = { connectQueue e .fabAdmin s.newCtrl with qid := 0 } := by rw [connectQueue, admin]
      rw [exec_connect_admin h calm on admin dynamic size free, queue]
      rfl
    · exact exec_connect_io h calm on io qid size known fabric new

end Sys2Proof.Machine
end

section
/-! Format and sanitize (04_host_queues.md R92 to R97): what FORMAT_NVM and SANITIZE check and start, how a format takes effect and how a sanitize goes on
and ends, and the statement about them. -/
namespace Sys2Proof.Machine

section
variable {s : State} {e : Sqe} {q : QCtx}

/-! ### FORMAT_NVM -/

/-- A format is recorded, told to the peer and started (R92, R93; log 123). -/
def State.beginFormat (s : State) (f : FormatRec) : State :=
  ((State.noteRecord { s with hq.formats := s.hq.formats ++ [f] } 3).placeCfg (f.record true)).startFormat f.nsid

theorem exec_formatNvm_again {v : Volume} (h : s.AdminOn e false true q) (calm : s.hq.san.state ≠ .running) (known : (s.takeCmd e).vol? e.nsid = some v)
    (again : (s.takeCmd e).hq.formats.any (·.nsid == v.nsid) = true) : exec (.formatNvm e) s = .next ((s.takeCmd e).adminEnd e 0 0x84 0 0) := by
  refine admin_next h (fun running => absurd running calm) ?_
  dsimp only
  rw [known]
  exact if_pos again

/-- On a volume that this head serves and that no format holds, SES and LBAF are checked and the format begins. -/
theorem exec_formatNvm {v : Volume} (h : s.AdminOn e false true q) (calm : s.hq.san.state ≠ .running) (known : (s.takeCmd e).vol? e.nsid = some v)
    (first : (s.takeCmd e).hq.formats.any (·.nsid == v.nsid) = false) (served : anaStatus ((s.takeCmd e).anaState v.ana) = none) :
    exec (.formatNvm e) s = .next (
      if bits e.cdw10 11 9 > 2 then (s.takeCmd e).adminEnd e 0 2 0 0
      else if bits e.cdw10 3 0 > 1 ∨ (bits e.cdw10 3 0 = 1 ∧ v.mode = 1) then (s.takeCmd e).adminEnd e 1 0x0A 0 0
      else (s.takeCmd e).beginFormat ⟨v.nsid, bits e.cdw10 3 0, bits e.cdw10 11 9, some (e.q, e.cid), false⟩) := by
  refine admin_next h (fun running => absurd running calm) ?_
  dsimp only
  rw [known]
  dsimp only
  rw [first, if_neg Bool.false_ne_true, served]
  rfl

/-! ### FORMAT_COMPLETE -/

section
variable {nsid : Nat} {f : FormatRec} {v : Volume}

theorem exec_formatComplete (found : s.hq.formats.find? (·.nsid == nsid) = some f) (known : s.vol? nsid = some v) :
    exec (.formatComplete nsid) s = .next (if s.formatDrained f v then s.endFormat f v else s.startFormat nsid) := by
  change execFormatComplete nsid s = _
  rw [execFormatComplete, found, known]

/-- A format that has started, one of a volume of the peer, and one with commands of the volume in flight does not start. -/
theorem startFormat_held (found : s.hq.formats.find? (·.nsid == nsid) = some f) (known : s.vol? nsid = some v)
    (held : f.staged = true ∨ s.ownsGroup v.ana = false ∨ s.hq.cmds.any (fun c => c.nsid == nsid) = true) : s.startFormat nsid = s := by
  have stays : (f.staged || !s.ownsGroup v.ana || s.hq.cmds.any fun c => c.nsid == nsid) = true := by
    rcases held with h | h | h <;> simp [h]
  rw [State.startFormat, found, known]
  exact if_pos stays

/-- A format whose command is lost and that replaces no key: the volume's grains leave the cache, its LBA format changes, and the format is over. -/
theorem endFormat_keyKept (lost : f.cmd = none) (kept : f.ses = 2 → s.keyAlone v = false) :
    s.endFormat f v =
      let u := State.storeVol { s with mem.cache := s.mem.cache.filter fun x => x.nsid != v.nsid } { v with lbaf := f.lbaf }
      (State.noteRecord { u with hq.formats := u.hq.formats.filter fun x => x.nsid != v.nsid } 3).placeCfg (f.record false) := by
  have noKey : ¬(f.ses = 2 ∧ State.keyAlone { s with mem.cache := s.mem.cache.filter fun x => x.nsid != v.nsid } v = true) :=
    fun ⟨ses, alone⟩ => Bool.false_ne_true ((kept ses).symm.trans alone)
  rw [State.endFormat]
  dsimp only
  rw [if_neg noKey, lost]

end

/-! ### SANITIZE -/

theorem exec_sanitize_reserved (h : s.AdminOn e false true q) (reserved : bits e.cdw10 2 0 ≠ 1 ∧ bits e.cdw10 2 0 ≠ 2 ∧ bits e.cdw10 2 0 ≠ 4) :
    exec (.sanitize e) s = .next ((s.takeCmd e).adminEnd e 0 2 0 0) :=
  admin_next h (fun _ => rfl) (if_pos (.inr reserved))

section
variable (h : s.AdminOn e false true q) (nodas : e.cdw10.testBit 9 = false)
include h nodas

/-- Exit Failure Mode leaves the failure mode of an unrestricted sanitize; after a restricted one it is refused (R97; log 119). -/
theorem exec_sanitize_exit (exit : bits e.cdw10 2 0 = 1) (calm : (s.takeCmd e).hq.san.state ≠ .running) (failed : (s.takeCmd e).hq.san.failMode = true) :
    exec (.sanitize e) s = .next (if (s.takeCmd e).hq.san.ause then
      State.adminEnd (State.tellSanitize { s.takeCmd e with hq.san.failMode := false } 4 (s.takeCmd e).hq.san.act true) e 0 0 0 0
      else (s.takeCmd e).adminEnd e 0 0x1C 0 0) := by
  have inFailure : ¬((s.takeCmd e).hq.san.state = .running ∨ (!(s.takeCmd e).hq.san.failMode) = true) := by
    rw [failed]
    exact not_or.2 ⟨calm, Bool.false_ne_true⟩
  refine admin_next h (fun _ => rfl) ?_
  dsimp only
  rw [nodas, exit, if_neg (by decide), if_pos rfl, if_neg inFailure]

/-- Block Erase and Crypto Erase start a sanitize where none runs (R94, R95). -/
theorem exec_sanitize_start (start : bits e.cdw10 2 0 = 2 ∨ bits e.cdw10 2 0 = 4) :
    exec (.sanitize e) s = .next (if (s.takeCmd e).hq.san.state = .running then (s.takeCmd e).adminEnd e 0 0x1D 0 0
      else ((s.takeCmd e).sanBegin (bits e.cdw10 2 0) (e.cdw10.testBit 3)).adminEnd e 0 0 0 0) := by
  have known : ¬(e.cdw10.testBit 9 = true ∨ (bits e.cdw10 2 0 ≠ 1 ∧ bits e.cdw10 2 0 ≠ 2 ∧ bits e.cdw10 2 0 ≠ 4)) := by
    rw [nodas]
    exact not_or.2 ⟨Bool.false_ne_true, by omega⟩
  have notExit : bits e.cdw10 2 0 ≠ 1 := by omega
  refine admin_next h (fun _ => rfl) ?_
  dsimp only
  rw [if_neg known, if_neg notExit]

end

/-- Only a Block Erase issues erases as it begins. -/
theorem sanBegin_cryptoErase (ause : Bool) : s.sanBegin 4 ause = (s.tellSanitize 1 4 ause).sanStart 4 ause := by
  rw [State.sanBegin]
  exact if_neg fun both => absurd both.1 (by decide)

theorem sanBegin_blockErase (ause : Bool) (calm : ((s.tellSanitize 1 2 ause).sanStart 2 ause).admitted = []) :
    s.sanBegin 2 ause = ((s.tellSanitize 1 2 ause).sanStart 2 ause).sanErases := by
  rw [State.sanBegin, calm]
  exact if_pos ⟨rfl, rfl⟩

/-! ### SANITIZE_PROGRESS and SANITIZE_COMPLETE -/

/-- This head's own sanitize runs, with no admitted command left (R95). -/
structure State.Sanitizes (s : State) : Prop where
  running : s.hq.san.state = .running
  own : s.hq.san.peer = false
  calm : s.admitted = []

/-- A further 1/256 of the work is recorded as done (R96). -/
def State.sanStep (s : State) : State := State.noteRecord { s with hq.san := { s.hq.san with prog := s.hq.san.prog + 256 } } 3

/-- A sanitize goes on by a part: of a Block Erase, the dies that failed in it are marked and the erases of the next part go out (R96, R97). -/
def State.sanAdvance (s : State) (failed : List Nat) : State :=
  let bad := if s.hq.san.act = 2 then failed.filter fun d => unitClass d == 6 && (s.ust d).serving else []
  let u := State.noteRecord { bad.foldl State.sanDieFailed s with hq.san.prog := s.hq.san.prog + 256 } 3
  if s.hq.san.act = 2 then u.sanErases else u

theorem sanAdvance_noErase (fs : List Nat) (other : s.hq.san.act ≠ 2) : s.sanAdvance fs = s.sanStep := by
  unfold State.sanAdvance
  dsimp only
  rw [if_neg other, if_neg other]
  rfl

theorem sanAdvance_blockErase (erase : s.hq.san.act = 2) : s.sanAdvance [] = s.sanStep.sanErases := by
  unfold State.sanAdvance
  dsimp only
  rw [if_pos erase, if_pos erase]
  rfl

section
variable (h : s.Sanitizes)
include h

/-- Nothing of the state keeps the sanitize from going on. -/
theorem State.Sanitizes.notHeld {P : Prop} (more : ¬P) :
    ¬(s.hq.san.state ≠ .running ∨ s.hq.san.peer = true ∨ (!s.admitted.isEmpty) = true ∨ P) := by
  rw [h.running, h.own, h.calm]
  rintro (other | peer | waits | p)
  · exact other rfl
  · exact Bool.false_ne_true peer
  · exact Bool.false_ne_true waits
  · exact more p

/-- SANITIZE_PROGRESS: a Block Erase issues the erases of its present part where they are not out and waits for them; then the sanitize goes on. -/
theorem exec_sanitizeProgress (more : s.hq.san.prog < 65280) (fs : List Nat) :
    exec (.sanitizeProgress fs) s = .next (if s.hq.san.act = 2 ∧ (!s.hq.san.issued) = true then s.sanErases
      else if s.hq.san.act = 2 ∧ (!s.sanErased) = true then s else s.sanAdvance fs) := by
  change execSanitizeProgress fs s = _
  rw [execSanitizeProgress]
  dsimp only
  rw [if_neg (h.notHeld (Nat.not_le.2 more))]
  rfl

/-- The work is done: the pool is wiped, and the end is recorded and told to the peer, as a failure if a die failed an erase (R94, R97). -/
theorem exec_sanitizeComplete (erased : s.hq.san.act = 2 → s.sanErased = true) :
    exec .sanitizeComplete s = .next ((State.noteRecord { s.sanWipe with hq.san := { s.hq.san with
      state := if s.hq.san.dieFailed then .failed else .done, failMode := s.hq.san.dieFailed, prog := 65535, issued := false } } 3).tellSanitize
        (if s.hq.san.dieFailed then 3 else 2) s.hq.san.act s.hq.san.ause) := by
  have ended : ¬(s.hq.san.act = 2 ∧ (!s.sanErased) = true) := fun ⟨erase, erasing⟩ => by
    rw [erased erase] at erasing
    exact Bool.false_ne_true erasing
  change execSanitizeComplete s = _
  rw [execSanitizeComplete]
  dsimp only
  rw [if_neg (h.notHeld ended)]

end
end

/-- Settles O32: each answer of FORMAT_NVM, a format's end, each answer of SANITIZE, and a sanitize's progress and end. -/
theorem formatAndSanitize : Obligations.FormatAndSanitize := by
  unfold Obligations.FormatAndSanitize
  refine ⟨?format, ?formatEnds, ?sanitize, ?sanitizeRuns⟩
  case format =>
    rintro e q s h t rfl v known
    refine ⟨fun running => admin_next_held h running, fun calm again => exec_formatNvm_again h calm known again, fun calm first served =>
      ⟨fun ses => ?_, fun ses lbaf => ?_, fun ses lbaf mode => ?_⟩⟩
    · rw [exec_formatNvm h calm known first served, if_pos ses]
    · rw [exec_formatNvm h calm known first served, if_neg (Nat.not_lt.2 ses), if_pos lbaf]
    · have good : ¬(bits e.cdw10 3 0 > 1 ∨ (bits e.cdw10 3 0 = 1 ∧ v.mode = 1)) :=
        not_or.2 ⟨Nat.not_lt.2 lbaf, fun both => mode both.1 both.2⟩
      rw [exec_formatNvm h calm known first served, if_neg (Nat.not_lt.2 ses), if_neg good]
      rfl
  case formatEnds =>
    intro nsid f v s found known
    refine ⟨fun drains => ?_, startFormat_held found known, fun drained lost kept => ?_⟩
    · rw [exec_formatComplete found known, drains, if_neg Bool.false_ne_true]
    · rw [exec_formatComplete found known, if_pos drained, endFormat_keyKept lost kept]
  case sanitize =>
    rintro e q s h nodas t rfl
    refine ⟨fun start => ⟨fun running => ?_, fun calm u started => ⟨fun crypto => ?_, fun erase noAdmitted => ?_⟩⟩, fun exit calm failed =>
      ⟨fun ause => ?_, fun restricted => ?_⟩, fun reserved => exec_sanitize_reserved h (by omega)⟩
    · rw [exec_sanitize_start h nodas start, if_pos running]
    · rw [exec_sanitize_start h nodas start, if_neg calm, crypto, sanBegin_cryptoErase, ← started, crypto]
    · rw [erase] at started
      rw [exec_sanitize_start h nodas start, if_neg calm, erase, sanBegin_blockErase _ (by rw [started, noAdmitted]), started]
    · rw [exec_sanitize_exit h nodas exit calm failed, if_pos ause]
    · rw [exec_sanitize_exit h nodas exit calm failed, restricted, if_neg Bool.false_ne_true]
  case sanitizeRuns =>
    intro s running own calm
    have h : s.Sanitizes := ⟨running, own, calm⟩
    refine ⟨fun more => ⟨fun other fs => ?_, fun erase unissued fs => ?_, fun erase issued erasing fs => ?_, fun erase issued erased => ?_⟩,
      fun erased => ⟨fun intact => ?_, fun failed => ?_⟩⟩
    · rw [exec_sanitizeProgress h more, if_neg fun both => other both.1, if_neg fun both => other both.1, sanAdvance_noErase fs other]
      rfl
    · rw [exec_sanitizeProgress h more, unissued, if_pos ⟨erase, rfl⟩]
    · rw [exec_sanitizeProgress h more, issued, erasing, if_neg fun both => Bool.false_ne_true both.2, if_pos ⟨erase, rfl⟩]
    · rw [exec_sanitizeProgress h more, issued, erased, if_neg fun both => Bool.false_ne_true both.2, if_neg fun both => Bool.false_ne_true both.2,
        sanAdvance_blockErase erase]
      rfl
    · rw [exec_sanitizeComplete h erased, intact]
      rfl
    · rw [exec_sanitizeComplete h erased, failed]
      rfl

end Sys2Proof.Machine
end

section
/-! I/O commands (04_host_queues.md R77, R79 to R90; 06_brine_write_path.md R144): what the checks of R77 come to, how a command waits for its order and its
range lock and where it goes from there, how a Flush waits and ends, and the statement about them. -/
namespace Sys2Proof.Machine

section
variable {s : State} {e : Sqe} {q : QCtx} {f : IoForm} {opc dl : Nat} {fill : Cmd → Cmd}

/-! ### The checks of R77 -/

/-- A command that fails a check ends with its status. -/
theorem io_next_refused {st : Nat × Nat} (h : s.IoOn e q) (fails : (s.ioTaken e).ioStatus e (fill (s.ioBase e q opc)) f = some st)
    (other : st ≠ (0, 0x0F)) :
    (Host.Outcome.next (s.io e f opc fill dl) : Host.Outcome State Fault Refusal) =
      .next ((s.ioTaken e).complete e.q e.cid st.1 st.2 (dnrOf st) 0 0) := by
  rw [State.io_refused h f opc fill dl st fails, if_neg other]

/-- A wrong data length is counted as well (R78). -/
theorem io_next_badLength (h : s.IoOn e q) (fails : (s.ioTaken e).ioStatus e (fill (s.ioBase e q opc)) f = some (0, 0x0F)) :
    (Host.Outcome.next (s.io e f opc fill dl) : Host.Outcome State Fault Refusal) =
      .next (((s.ioTaken e).bump R.HQ_LEN_ERR_CNT).complete e.q e.cid 0 0x0F (dnrOf (0, 0x0F)) 0 0) := by
  rw [State.io_refused h f opc fill dl _ fails, if_pos rfl]

/-- A command that passes them and has no deadline is counted as best effort and goes on (R79). -/
theorem io_next_accepted (h : s.IoOn e q) (passes : (s.ioTaken e).ioStatus e (fill (s.ioBase e q opc)) f = none)
    (noDeadline : (s.ioTaken e).lbafOf e.nsid = 0 → opc = 1 ∨ opc = 2 → dl = 0) :
    (Host.Outcome.next (s.io e f opc fill dl) : Host.Outcome State Fault Refusal) =
      .next (((s.ioTaken e).bump R.SLU_BE_CNT).accept (fill (s.ioBase e q opc))) := by
  rw [State.io_runs h f opc fill dl passes (ite_eq_right_iff.2 fun both => noDeadline both.1 both.2)]
  rfl

/-- A command with a deadline is turned away while admission is closed (R79). -/
theorem io_next_untimed (h : s.IoOn e q) (passes : (s.ioTaken e).ioStatus e (fill (s.ioBase e q opc)) f = none)
    (plain : (s.ioTaken e).lbafOf e.nsid = 0) (kind : opc = 1 ∨ opc = 2) (deadline : dl ≠ 0) (closed : (s.ioTaken e).admitOk = false) :
    (Host.Outcome.next (s.io e f opc fill dl) : Host.Outcome State Fault Refusal) =
      .next (((s.ioTaken e).bump R.SLU_TIME_REJ_CNT).complete (fill (s.ioBase e q opc)).qctx (fill (s.ioBase e q opc)).cid 7 0xC4 false 0 0) := by
  rw [State.io_untimed h f opc fill dl passes plain kind deadline closed]

/-- A head that serves nothing takes no command. -/
theorem io_next_idle (hq : s.queue? e.q = some q) (idle : s.serving = false) :
    (Host.Outcome.next (s.io e f opc fill dl) : Host.Outcome State Fault Refusal) = .next s := by
  rw [State.io, hq]
  dsimp only
  rw [idle]
  rfl

/-- An admin queue takes no I/O command (R72). -/
theorem io_next_adminQueue (hq : s.queue? e.q = some q) (serves : s.serving = true) (admin : q.kind ≠ .fabIo ∧ q.kind ≠ .hostIo) :
    (Host.Outcome.next (s.io e f opc fill dl) : Host.Outcome State Fault Refusal) =
      .next ((s.takeCmd e).complete e.q e.cid 0 1 (dnrOf (0, 1)) 0 0) := by
  rw [State.io, hq]
  dsimp only
  rw [serves, if_neg (by decide), if_pos admin]

end

section
variable {s : State} {c : Cmd}

/-! ### Order and range lock (R80, R82) -/

theorem accept_behindOrd (held : (s.putIo c).ordHeld c = true) : s.accept c = (s.putIo c).bump R.HQ_ORD_WAIT_CNT := if_pos held

theorem accept_inOrder (free : (s.putIo c).ordHeld c = false) : s.accept c = (s.putIo c).reachLock c :=
  if_neg fun held => Bool.false_ne_true (free.symm.trans held)

theorem reachLock_passes (may : s.mayLock c = true) : s.reachLock c = s.proceed c := if_pos may

/-- A command that may not pass stalls behind the commands that hold its grains, and such a stall is counted (R82, R101). -/
theorem reachLock_stalls (mayNot : s.mayLock c = false) :
    s.reachLock c =
      let u := s.nextSeq.2.putIo { c with stage := .lockWait, stall := s.nextSeq.1, stallOn := (s.lockHolders c).map Cmd.id }
      if s.lockHolders c = [] then u else u.bump R.HQ_LOCK_STALL_CNT := by
  rw [State.reachLock, mayNot, if_neg Bool.false_ne_true]
  change (if (s.lockHolders c).isEmpty = true then _ else _) = _
  simp only [List.isEmpty_iff]
  rfl

/-! ### Where a command goes (R50, R86, R88, R90) -/

theorem proceed_read (kind : c.opc = 2 ∨ c.opc = 0x0C) : s.proceed c = s.startRead c := by
  have notFlush : c.opc ≠ 0 := by omega
  have notStaged : ¬(c.opc = 1 ∨ c.opc = 8 ∨ (c.opc = 9 ∧ (!c.ranges.isEmpty) = true)) := by
    rintro (one | eight | ⟨nine, -⟩) <;> omega
  have notHints : c.opc ≠ 9 := by omega
  rw [State.proceed, if_neg notFlush, if_neg notStaged, if_neg notHints]

theorem proceed_write (kind : c.opc = 1 ∨ c.opc = 8) : s.proceed c = s.stageCmd c := by
  have notFlush : c.opc ≠ 0 := by omega
  rw [State.proceed, if_neg notFlush, if_pos (kind.imp_right .inl)]

/-- A deallocation of no range has nothing to stage (R88; log 35). -/
theorem proceed_deallocate (kind : c.opc = 9) : s.proceed c = if c.ranges = [] then s.endIo c.id 0 0 false else s.stageCmd c := by
  have notFlush : c.opc ≠ 0 := by omega
  rw [State.proceed, if_neg notFlush]
  by_cases nothing : c.ranges = []
  · have notStaged : ¬(c.opc = 1 ∨ c.opc = 8 ∨ (c.opc = 9 ∧ (!c.ranges.isEmpty) = true)) := by
      rw [kind, nothing]
      decide
    rw [if_neg notStaged, if_pos kind, if_pos nothing]
  · have staged : (!c.ranges.isEmpty) = true := by
      simpa using nothing
    rw [if_pos (.inr (.inr ⟨kind, staged⟩)), if_neg nothing]

/-- A Flush whose marks are durable is over, and another one waits for them (R86, R144). -/
theorem proceed_flush (kind : c.opc = 0) :
    s.proceed c = let u := s.putIo { c with stage := .flushWait }
      if u.marksReached c.waits then u.endIo c.id 0 0 false else u := by
  rw [State.proceed, if_pos kind]
  rfl

/-! ### RANGE_LOCK_GRANT and ORD_RELEASE -/

theorem exec_rangeLockGrant {cmd : Nat} (known : s.io? cmd = some c) :
    exec (.rangeLockGrant cmd) s = .next (if c.stage = .lockWait ∧ s.mayLock c = true then s.proceed c else s) := by
  change execRangeLockGrant cmd s = _
  rw [execRangeLockGrant, known]

theorem exec_ordRelease {cmd : Nat} (known : s.io? cmd = some c) :
    exec (.ordRelease cmd) s = .next (if c.stage = .ordWait ∧ (!s.ordHeld c) = true then s.reachLock c else s) := by
  change execOrdRelease cmd s = _
  rw [execOrdRelease, known]

end

/-! ### FLUSH (R86; 06_brine_write_path.md R144) -/

section
variable {s : State} {e : Sqe} {q : QCtx}

theorem exec_flush_idle (hq : s.queue? e.q = some q) (idle : s.serving = false) : exec (.flush e) s = .next s := by
  change execFlush e s = _
  rw [execFlush, hq]
  dsimp only
  rw [idle]
  rfl

theorem exec_flush_adminQueue (hq : s.queue? e.q = some q) (serves : s.serving = true) (admin : q.kind ≠ .fabIo ∧ q.kind ≠ .hostIo) :
    exec (.flush e) s = .next ((s.takeCmd e).complete e.q e.cid 0 1 (dnrOf (0, 1)) 0 0) := by
  change execFlush e s = _
  rw [execFlush, hq]
  dsimp only
  rw [serves, if_neg (by decide), if_pos admin]

/-- The state once a Flush has been taken and counted. -/
def State.flushTaken (s : State) (e : Sqe) : State := (s.takeCmd e).bump R.HQ_CMD_CNT

/-- A Flush seals each journal up to its mark, where that is not durable yet. -/
def State.sealMarks (s : State) (marks : List (Nat × Nat)) : State :=
  marks.foldl (fun (s : State) m => if (s.journal m.1).durable ≥ m.2 then s else s.sealAt m.1 m.2) s

/-- A Flush as the block holds it: it waits for its marks. -/
def State.flushCmd (s : State) (e : Sqe) (q : QCtx) : Cmd :=
  { newCmd s.hq.nextCmd e.q e.cid 0 e.nsid (!q.fabric) with waits := s.flushMarks e.nsid }

/-- A Flush gets its number and its place among those that wait. -/
def State.holdFlush (s : State) (e : Sqe) : State :=
  { s.bump R.SLU_BE_CNT with hq.nextCmd := s.hq.nextCmd + 1, brn.flushes := s.brn.flushes ++ [⟨s.hq.nextCmd, s.flushMarks e.nsid⟩] }

/-- An I/O queue of a head that serves takes the Flush. -/
theorem State.IoOn.notAdmin (h : s.IoOn e q) : ¬(q.kind ≠ .fabIo ∧ q.kind ≠ .hostIo) := fun other => h.kind.elim other.1 other.2

theorem exec_flush_refused {st : Nat × Nat} (h : s.IoOn e q) (fails : (s.flushTaken e).flushStatus e = some st) :
    exec (.flush e) s = .next ((s.flushTaken e).complete e.q e.cid st.1 st.2 (dnrOf st) 0 0) := by
  rw [State.flushTaken] at fails
  change execFlush e s = _
  rw [execFlush, State.queue?_live h.queue h.live h.up]
  dsimp only
  rw [h.serves, if_neg (by decide), if_neg h.notAdmin, fails]
  rfl

theorem exec_flush_accepted (h : s.IoOn e q) (passes : (s.flushTaken e).flushStatus e = none) :
    exec (.flush e) s =
      .next ((((s.flushTaken e).holdFlush e).sealMarks ((s.flushTaken e).flushMarks e.nsid)).accept ((s.flushTaken e).flushCmd e q)) := by
  rw [State.flushTaken] at passes
  change execFlush e s = _
  rw [execFlush, State.queue?_live h.queue h.live h.up]
  dsimp only
  rw [h.serves, if_neg (by decide), if_neg h.notAdmin, passes]
  rfl

/-- A Flush of one volume takes the sequence of its journal, if this head holds that one. -/
theorem flushMarks_one {nsid : Nat} (one : nsid ≠ 0xFFFFFFFF) :
    s.flushMarks nsid =
      if s.heldJournals.contains (s.journalOf nsid) then [(s.journalOf nsid, (s.journal (s.journalOf nsid)).jseq)] else [] := by
  rw [State.flushMarks, if_neg one]
  change (([s.journalOf nsid].filter s.heldJournals.contains).map fun j => (j, (s.journal j).jseq)) = _
  rw [List.filter_cons]
  cases s.heldJournals.contains (s.journalOf nsid) <;> rfl

theorem exec_flushComplete {cmd : Nat} {f : FlushWait} {c : Cmd} (waits : s.brn.flushes.find? (·.cmd == cmd) = some f) (known : s.io? cmd = some c) :
    exec (.flushComplete cmd) s = .next (if c.stage = .flushWait ∧ s.marksReached f.marks = true then s.endIo cmd 0 0 false else s) := by
  change execFlushComplete cmd s = _
  rw [execFlushComplete, waits, known]

end

/-- Settles O33: the checks, the queues that take no I/O command, order and range lock, the work of each opcode, and the Flush. -/
theorem ioCommandsAreCheckedOrderedAndRun : Obligations.IoCommandsAreCheckedOrderedAndRun := by
  unfold Obligations.IoCommandsAreCheckedOrderedAndRun
  refine ⟨?checked, ?notTaken, ?ordered, ?run, ?released, ?flush, ?flushEnds⟩
  case checked =>
    intro e q s h u be rd wrt wz vf dsm
    refine ⟨fun st fails other => ?_, fun st fails other => ?_, fun fails => ?_, fun passes plain => ?_, fun passes plain deadline closed => ?_,
      fun passes plain => ?_, fun passes => ?_, fun passes => ?_, fun passes => ?_⟩
    · exact io_next_refused h (by exact fails) other
    · exact io_next_refused h (by exact fails) other
    · exact io_next_badLength h (by exact fails)
    · exact io_next_accepted h (by exact passes) fun zero _ => plain.resolve_left (Classical.not_not.2 zero)
    · exact io_next_untimed h (by exact passes) plain (.inr rfl) deadline closed
    · exact io_next_accepted h (by exact passes) fun zero _ => plain.resolve_left (Classical.not_not.2 zero)
    · exact io_next_accepted h (by exact passes) fun _ _ => rfl
    · exact io_next_accepted h (by exact passes) fun _ _ => rfl
    · exact io_next_accepted h (by exact passes) fun _ _ => rfl
  case notTaken =>
    refine fun e q s hq => ⟨fun idle => ⟨io_next_idle hq idle, io_next_idle hq idle, exec_flush_idle hq idle⟩, fun serves kind => ?_⟩
    have admin : q.kind ≠ .fabIo ∧ q.kind ≠ .hostIo := by rcases kind with kind | kind <;> simp [kind]
    exact ⟨io_next_adminQueue hq serves admin, io_next_adminQueue hq serves admin, exec_flush_adminQueue hq serves admin,
      io_next_adminQueue hq serves admin, io_next_adminQueue hq serves admin, io_next_adminQueue hq serves admin⟩
  case ordered =>
    refine fun c s => ⟨accept_behindOrd, accept_inOrder, reachLock_passes, ?_⟩
    rintro k t mayNot ⟨⟩
    refine ⟨fun noHolder => ?_, fun holder => ?_⟩
    · rw [reachLock_stalls mayNot, noHolder]
      rfl
    · rw [reachLock_stalls mayNot]
      exact if_neg holder
  case run =>
    refine fun c s => ⟨proceed_read, proceed_write, proceed_deallocate, ?_⟩
    rintro kind u rfl
    refine ⟨fun durable => ?_, fun waits => ?_⟩
    · rw [proceed_flush kind]
      exact if_pos durable
    · rw [proceed_flush kind]
      exact if_neg fun durable => Bool.false_ne_true (waits.symm.trans durable)
  case released =>
    refine fun cmd c s known => ⟨fun stage may => ?_, fun mayNot => ?_, fun stage free => ?_, fun held => ?_⟩
    · rw [exec_rangeLockGrant known, if_pos ⟨stage, may⟩]
    · rw [exec_rangeLockGrant known, mayNot, if_neg fun both => Bool.false_ne_true both.2]
    · rw [exec_ordRelease known, free, if_pos ⟨stage, rfl⟩]
    · rw [exec_ordRelease known, held, if_neg fun both => Bool.false_ne_true both.2]
  case flush =>
    rintro e q s h t rfl
    exact ⟨fun st fails => exec_flush_refused h fails, exec_flush_accepted h, fun v one _ => flushMarks_one one⟩
  case flushEnds =>
    refine fun cmd f c s waits known => ⟨fun stage durable => ?_, fun held => ?_⟩
    · rw [exec_flushComplete waits known]
      exact congrArg Host.Outcome.next (if_pos ⟨stage, durable⟩)
    · rw [exec_flushComplete waits known]
      exact congrArg Host.Outcome.next (if_neg fun both => held.elim (· both.1) fun waits => Bool.false_ne_true (waits.symm.trans both.2))

end Sys2Proof.Machine
end

section
/-! The pair transaction layer (15_pair_operation.md R361 to R364, R367, R368, R373; 04_host_queues.md R95; 10_media_units_pans.md R257): what a message,
an ACK, a NAK and the timer come to on a channel, what each message of the peer does, and the statement about them. -/
namespace Sys2Proof.Machine

section
variable {s : State} {c : Nat} {h : PtlHdr} {p : Bytes}

/-! ### A sequenced message arrives (R362, R363) -/

section
variable {f : Bytes → State → State}

/-- A message in order comes to what it does, once it has been taken. -/
theorem onPtl_next {t : State} (o : s.InOrder c h) (acts : f (s.whole c h p) (s.taken c h) = t) :
    (Host.Outcome.next (s.onPtl c h p f) : Host.Outcome State Fault Refusal) = .next t := by
  rw [State.onPtl_runs p f o, acts]

/-- A fragment in order with more to come is kept and acknowledged, and nothing acts. -/
theorem onPtl_fragment (next : h.seq = ((s.retired c h).chan c).expect) (more : h.more = true) :
    s.onPtl c h p f = ((s.retired c h).setChan c { (s.retired c h).chan c with
      expect := (((s.retired c h).chan c).expect + 1) % 2 ^ 32, naked := false, joined := ((s.retired c h).chan c).joined ++ p }).ptlAnswer c 0x09 := by
  unfold State.retired at next ⊢
  unfold State.onPtl State.ptlAccept
  simp only [more, ← next, if_true]

/-- A message that is not taken does not act. -/
theorem onPtl_notTaken {t : State} (notTaken : s.ptlAccept c h p = (t, none)) : s.onPtl c h p f = t := by
  rw [State.onPtl, notTaken]

/-- A message behind the expected one is answered with ACK (log 105). -/
theorem onPtl_behind (other : h.seq ≠ ((s.retired c h).chan c).expect) (behind : serialAfter 32 ((s.retired c h).chan c).expect h.seq = false) :
    s.onPtl c h p f = (s.retired c h).ptlAnswer c 0x09 :=
  onPtl_notTaken ((if_neg other).trans (if_neg (Bool.not_eq_true _ ▸ behind)))

section
variable (other : h.seq ≠ ((s.retired c h).chan c).expect) (ahead : serialAfter 32 ((s.retired c h).chan c).expect h.seq = true)
include other ahead

/-- The first message ahead of it is answered with NAK, and no further one. -/
theorem onPtl_aheadFirst (first : ((s.retired c h).chan c).naked = false) :
    s.onPtl c h p f = ((s.retired c h).setChan c { (s.retired c h).chan c with naked := true }).ptlAnswer c 0x0A :=
  onPtl_notTaken ((if_neg other).trans ((if_pos ahead).trans (if_neg (Bool.not_eq_true _ ▸ first))))

theorem onPtl_aheadAgain (again : ((s.retired c h).chan c).naked = true) : s.onPtl c h p f = s.retired c h :=
  onPtl_notTaken ((if_neg other).trans ((if_pos ahead).trans (if_pos again)))

end
end

/-! ### ACK, NAK and the timer (R362, R373) -/

/-- The channel once every message up to `ack` has been retired. -/
def State.dropHeld (s : State) (c ack : Nat) : State := s.setChan c { s.chan c with held := (s.chan c).held.filter fun m => !seqLe m.seq ack }

theorem ptlRetire_other (ack : Nat) (other : c ≠ 0) : s.ptlRetire c ack = s.dropHeld c ack := if_neg other

/-- With no packet that waits for the peer, nothing is replied to. -/
theorem endCfgWaits_none {p : CfgWait → Bool} (noWaits : s.ctl.cfgWaits = []) : s.endCfgWaits (s.ctl.cfgWaits.filter p) = s := by
  have same : { s with ctl.cfgWaits := [] } = s := by rw [← noWaits]
  rw [State.endCfgWaits, noWaits]
  exact same

section
variable (ack : Nat) (noWaits : s.ctl.cfgWaits = [])
include noWaits

theorem ptlRetire_noLead (noLead : s.pair.leadPend = none) : s.ptlRetire 0 ack = s.dropHeld 0 ack := by
  have lead : (s.setChan 0 { s.chan 0 with held := (s.chan 0).held.filter fun m => !seqLe m.seq ack }).pair.leadPend = none := noLead
  rw [State.ptlRetire, if_pos rfl]
  dsimp only
  rw [lead]
  exact endCfgWaits_none noWaits

/-- A lead that the peer has acknowledged is in force (R373). -/
theorem ptlRetire_lead {n q : Nat} (lead : s.pair.leadPend = some (n, q)) (acked : seqLe q ack = true) :
    s.ptlRetire 0 ack = { s.dropHeld 0 ack with pair.lead := n, pair.leadPend := none } := by
  have lead : (s.setChan 0 { s.chan 0 with held := (s.chan 0).held.filter fun m => !seqLe m.seq ack }).pair.leadPend = some (n, q) := lead
  rw [State.ptlRetire, if_pos rfl]
  dsimp only
  rw [lead]
  dsimp only
  rw [if_pos acked]
  exact endCfgWaits_none noWaits

end

/-- On channels 0 and 2 an ACK lets owed messages go out, on channel 1 it may stage entries; there is no other sequenced channel. -/
theorem exec_pairAckRx (c ack : Nat) : exec (.pairAckRx c ack) s =
    .next (if c > 2 then s else if c = 1 then (s.ptlRetire c ack).stageCheck else (s.ptlRetire c ack).payAll) := rfl

/-- A NAK acknowledges as well, and everything that is still held goes out again. -/
theorem exec_pairNakRx (c ack : Nat) : exec (.pairNakRx c ack) s =
    .next (if c > 2 then s else
      let t := (s.ptlRetire c ack).ptlResend c ((s.ptlRetire c ack).chan c).held
      if c = 1 then t.stageCheck else t.payAll) := rfl

theorem exec_pairResendTimer (c : Nat) : exec (.pairResendTimer c) s =
    .next (if c > 2 ∨ s.pair.icl = 0 then s else s.ptlResend c (s.chan c).held) := rfl

/-- Only the mirror's channel counts mirror messages that go out again. -/
theorem ptlResend_other (ms : List PtlMsg) (other : c ≠ 1) :
    s.ptlResend c ms = (s.bumpBy R.PAIR_RESEND_CNT ms.length).emits (ms.map (ptlOut s c)) := by
  rw [State.ptlResend, if_neg other]

/-! ### JOURNAL (R367, R368) -/

theorem adoptCheck_noMoves (noMoves : s.pair.moves = []) : s.adoptCheck = s := by
  rw [State.adoptCheck, noMoves]
  rfl

theorem stageCheck_noPeer (alone : s.peerInService = false) : s.stageCheck = s := by
  rw [State.stageCheck, alone]
  rfl

/-- A row in order is applied to the shadow, and no group waits to be adopted. -/
theorem exec_journalRx_noMoves {t : State} (o : s.InOrder 1 h)
    (row : ((s.taken 1 h).journalRow (s.taken 1 h).following (s.whole 1 h p)).bump R.PAIR_JOURNAL_RX_CNT = t) (noMoves : t.pair.moves = []) :
    exec (.journalRx h p) s = .next t.stageCheck := by
  change execJournalRx h p s = _
  rw [execJournalRx, State.onPtl_runs _ _ o]
  rw [row, adoptCheck_noMoves noMoves]

/-! ### CONTROL messages (R364, R373; 04_host_queues.md R95; 10_media_units_pans.md R257) -/

/-- A codec generation leaves the head's role alone. -/
theorem setGen_role (j n g : Nat) : (s.setGen j n g).role = s.role := by
  unfold State.setGen
  dsimp only
  split <;> rfl

section
variable (o : s.InOrder 0 h)
include o

/-- A record that starts no new pool is applied; a shared one goes into the own journal, for whose entries from here on a generation record counts. -/
theorem exec_configRecordRx_known {b : Bytes} {t : State} (whole : s.whole 0 h p = b)
    (known : leAt (b.drop 10) 0 1 ≠ cfgPool ∨ (s.taken 0 h).pool.loaded = true)
    (applied : (s.taken 0 h).applyCfg (1 - (s.taken 0 h).role) (leAt b 2 8) (b.drop 10) = t) :
    exec (.configRecordRx h p) s = .next (if (t.pool.loaded && cfgShared (b.drop 10)) = true then
      (if leAt (b.drop 10) 0 1 = cfgGen then t.setGen t.role t.own.jseq (leAt (b.drop 10) 1 1) else t).placeRec t.role 0x03 0 (b.drop 10) else t) := by
  have notNew : (decide (leAt (b.drop 10) 0 1 = cfgPool) && !(s.taken 0 h).pool.loaded) = false := by
    rcases known with other | loaded
    · rw [decide_eq_false other]
      rfl
    · rw [loaded, Bool.not_true, Bool.and_false]
  refine onPtl_next o ?_
  rw [whole]
  dsimp only
  rw [notNew, applied, if_neg Bool.false_ne_true]
  cases (t.pool.loaded && cfgShared (b.drop 10)) <;> rfl

/-- A key that the transfer key unwraps is held, and stored under the device key (R384). -/
theorem exec_keyTransferRx_unwrapped {k w : Bytes} (key : (s.taken 0 h).pair.transferKey = some k)
    (unwrapped : Config.keyUnwrap k ((s.whole 0 h p).drop 2) = some w) :
    exec (.keyTransferRx h p) s =
      .next { s.taken 0 h with keys.pwk := some w, keys.pwkStored := some (Config.keyWrap Config.deviceKey w) } := by
  refine onPtl_next o ?_
  dsimp only
  rw [key]
  dsimp only
  rw [unwrapped]

/-- Without a transfer key, or with one that does not unwrap it, the message changes nothing. -/
theorem exec_keyTransferRx_notUnwrapped
    (noKey : ∀ k, (s.taken 0 h).pair.transferKey = some k → Config.keyUnwrap k ((s.whole 0 h p).drop 2) = none) :
    exec (.keyTransferRx h p) s = .next (s.taken 0 h) := by
  refine onPtl_next o ?_
  dsimp only
  cases key : (s.taken 0 h).pair.transferKey with
  | none => rfl
  | some k =>
    dsimp only
    rw [noKey k key]

theorem exec_leadSelectionRx : exec (.leadSelectionRx h p) s = .next { s.taken 0 h with pair.lead := leAt (s.whole 0 h p) 2 1 % 32 } :=
  onPtl_next o rfl

end
end

/-- Settles O54: a message's order, what is retired and sent again, then what each message of the peer does. -/
theorem pairMessagesAreTakenInOrder : Obligations.PairMessagesAreTakenInOrder := by
  unfold Obligations.PairMessagesAreTakenInOrder
  refine ⟨?order, ?retired, ?answers, ?journal, ?messages⟩
  case order =>
    exact fun c h p f s => ⟨fun next last => State.onPtl_runs p f ⟨next, last⟩, onPtl_fragment, onPtl_behind, onPtl_aheadFirst, onPtl_aheadAgain⟩
  case retired =>
    refine fun c ack s => ⟨ptlRetire_other ack, ?_, ?_⟩
    · rintro rfl noLead noWaits
      exact ptlRetire_noLead ack noWaits noLead
    · rintro n q rfl lead acked noWaits
      exact ptlRetire_lead ack noWaits lead acked
  case answers =>
    refine fun c ack s => ⟨fun noChannel => ⟨?_, ?_, ?_⟩, fun other => ?_, ?_, fun channel up => ?_, fun down => ?_,
      fun other ms => ptlResend_other ms other, rfl⟩
    · rw [exec_pairAckRx, if_pos noChannel]
    · rw [exec_pairNakRx, if_pos noChannel]
    · rw [exec_pairResendTimer, if_pos (.inl noChannel)]
    · rw [exec_pairAckRx, exec_pairNakRx, if_neg (by omega), if_neg (by omega), if_neg (by omega)]
      exact ⟨rfl, congrArg Host.Outcome.next (if_neg (by omega))⟩
    · rintro rfl
      exact ⟨rfl, rfl⟩
    · rw [exec_pairResendTimer, if_neg (not_or.2 ⟨Nat.not_lt.2 channel, up⟩)]
    · rw [exec_pairResendTimer, if_pos (.inr down)]
  case journal =>
    refine fun h p s o t row => ⟨exec_journalRx_noMoves o row, fun noMoves alone => ?_⟩
    rw [exec_journalRx_noMoves o row noMoves, stageCheck_noPeer alone]
  case messages =>
    rintro h p s o b whole u rfl
    refine ⟨fun known t applied => ⟨fun own => ?_, fun shared other => ?_, fun shared gen v set => ?_⟩, fun noKey => ?_, fun k w key unwrapped => ?_,
      fun k key bad => ?_, ?_, fun started => ?_, fun done => ?_, fun failed => ?_, fun left => ?_⟩
    · rw [exec_configRecordRx_known o whole known applied, own, if_neg Bool.false_ne_true]
    · rw [exec_configRecordRx_known o whole known applied, if_pos shared, if_neg other]
    · rw [exec_configRecordRx_known o whole known applied, if_pos shared, if_pos gen, ← set, setGen_role]
    · exact exec_keyTransferRx_notUnwrapped o fun k key => nomatch noKey.symm.trans key
    · exact exec_keyTransferRx_unwrapped o key (whole ▸ unwrapped)
    · refine exec_keyTransferRx_notUnwrapped o fun x hx => ?_
      rw [whole, ← Option.some.inj (key.symm.trans hx)]
      exact bad
    · rw [exec_leadSelectionRx o, whole]
    · exact onPtl_next o (by rw [whole, started]; rfl)
    · exact onPtl_next o (by rw [whole, done]; rfl)
    · exact onPtl_next o (by rw [whole, failed]; rfl)
    · exact onPtl_next o (by rw [whole, left]; rfl)

end Sys2Proof.Machine
end

section
/-! Arriving RDMA packets (05_rdma_transport.md R103, R105, R107, R110, R111, R114, R123, R126): what a packet that arrives comes to, how its sequence
number sorts a request, what the expected request and a read response do, and the statement about them. -/
namespace Sys2Proof.Machine

/-! ### What sending a packet leaves unchanged (R102, R120) -/

/-- A packet that goes out, or waits for its priority, touches no memory, no host queue and no queue pair. -/
theorem ethOut_frame (s : State) (port prio n : Nat) (qp : Option Nat) (o : Out) :
    (s.ethOut port prio qp n o).mem = s.mem ∧ (s.ethOut port prio qp n o).hq = s.hq ∧ (s.ethOut port prio qp n o).xpt.qps = s.xpt.qps := by
  rw [State.ethOut]
  split <;> exact ⟨rfl, rfl, rfl⟩

theorem sendAck_frame (s : State) (q : Qp) : (s.sendAck q).mem = s.mem ∧ (s.sendAck q).hq = s.hq ∧ (s.sendAck q).xpt.qps = s.xpt.qps :=
  ethOut_frame ..

theorem msgDone_hq (s : State) (q : Qp) : (s.msgDone q).hq = s.hq := (sendAck_frame ..).2.1

section
variable {s : State} {n : NetIn} {q : Qp}

/-! ### A packet reaches its queue pair (R105, R107) -/

theorem rxNet_otherAddress (act : State → State) (other : s.answers n.port n.gid = false) :
    s.rxNet n act = s.xbump R.XPT_RX_PKT_CNT R.XPT_P_RX_PKT_CNT n.port 1 :=
  if_pos (by rw [other]; rfl)

theorem rxNet_badIcrc (act : State → State) (ours : s.answers n.port n.gid = true) (bad : n.icrcOk = false) :
    s.rxNet n act = s.xbump R.XPT_ICRC_ERR_CNT R.XPT_P_ICRC_ERR_CNT n.port 1 := by
  rw [State.rxNet, ours, bad]
  rfl

/-- A packet for no established queue pair counts, with its congestion mark, and does nothing else. -/
theorem rxAny_noQp {qpn : Nat} (k : XPkt) (ours : s.answers n.port n.gid = true) (whole : n.icrcOk = true) (noQp : s.qpOf qpn = none) :
    s.rxAny n qpn k = (s.xbump R.XPT_RX_PKT_CNT R.XPT_P_RX_PKT_CNT n.port 1).ceOnly n := by
  have stillNone : (s.xbump R.XPT_RX_PKT_CNT R.XPT_P_RX_PKT_CNT n.port 1).qpOf qpn = none := noQp
  rw [State.rxAny, rxNet_ok _ ours whole, stillNone]

/-! ### What a packet does to a connected queue pair -/

/-- What a packet without a congestion mark does to a connected queue pair. -/
def State.acted (s : State) (q : Qp) (k : XPkt) : State :=
  match k.kind with
  | .ack => s.retireOps q k.psn
  | .seqNak => s.seqNak q k.psn
  | .rnrNak => s.rnrNak q k.psn
  | .fatalNak => s.failQp q.idx 3
  | .readResp => s.readResp q k.psn k.last k.payload
  | .cnp => s.rateCut q
  | .ackTimer => s.ackTimeout q
  | .rnrTimer => s.rnrEnd q
  | .send | .sendInv | .write | .writeImm | .readReq => s.request q k

theorem rxPkt_acts {i : Nat} {k : XPkt} (known : s.qp? i = some q) (up : q.st = .connected) (unmarked : k.ce = false) : s.rxPkt i k = s.acted q k := by
  rw [State.rxPkt, known]
  dsimp only
  rw [if_neg (not_not_intro up), unmarked, if_neg Bool.false_ne_true, known, State.acted, Option.getD_some]
  cases k.kind <;> rfl

/-- The packet is a request: a SEND, an RDMA WRITE, an RDMA READ or an atomic. -/
def XPkt.IsRequest (k : XPkt) : Prop := k.kind = .send ∨ k.kind = .sendInv ∨ k.kind = .write ∨ k.kind = .writeImm ∨ k.kind = .readReq

theorem acted_request {k : XPkt} (request : k.IsRequest) : s.acted q k = s.request q k := by
  rcases request with kind | kind | kind | kind | kind <;> rw [State.acted, kind]

/-! ### A request is sorted by its sequence number (R110, R111) -/

section
variable {k : XPkt}

/-- How far a request lies ahead of the expected sequence number, around the circle of 2^24. -/
def XPkt.ahead (k : XPkt) (q : Qp) : Nat := (k.psn + 2 ^ 24 - q.epsn) % 2 ^ 24

/-- What the expected request does. -/
def State.expected (s : State) (q : Qp) (k : XPkt) : State :=
  match k.kind with
  | .send | .sendInv => s.expectedSend q k
  | .write | .writeImm => s.expectedWrite q k
  | _ => s.nakInvalid q

theorem expected_send (kind : k.kind = .send ∨ k.kind = .sendInv) : s.expected q k = s.expectedSend q k := by
  rcases kind with kind | kind <;> rw [State.expected, kind]

theorem expected_write (kind : k.kind = .write ∨ k.kind = .writeImm) : s.expected q k = s.expectedWrite q k := by
  rcases kind with kind | kind <;> rw [State.expected, kind]

theorem expected_read (kind : k.kind = .readReq) : s.expected q k = s.nakInvalid q := by
  rw [State.expected, kind]

/-- The four places of a request: the expected one, one ahead, the ambiguous one, a duplicate. -/
theorem request_sorted (s : State) (q : Qp) (k : XPkt) : s.request q k =
    if k.ahead q = 0 then s.expected q k
    else if k.ahead q < 0x800000 then
      if q.priv = true ∨ q.naked = true then s
      else ((s.putQp { q with naked := true }).xbump R.XPT_SEQ_NAK_TX_CNT R.XPT_P_SEQ_NAK_TX_CNT q.port 1).ethCtl q .seqNak q.epsn 0
    else if k.ahead q = 0x800000 then s.xbump R.XPT_PSN_AMBIG_CNT R.XPT_P_PSN_AMBIG_CNT q.port 1
    else (s.xbump R.XPT_DUP_PKT_CNT R.XPT_P_DUP_PKT_CNT q.port 1).sendAck q := rfl

end

/-! ### The expected request (R103, R113, R123, R126) -/

section
variable {k : XPkt}

theorem expectedSend_invalidate (kind : k.kind = .sendInv) : s.expectedSend q k = s.nakInvalid q := if_pos kind

/-- A client's message for which no receive is left is answered with RNR NAK. -/
theorem expectedSend_noReceive (kind : k.kind = .send) (client : q.priv = false) (first : k.first = true) (full : q.recvs ≤ q.capsules) :
    s.expectedSend q k = ((s.putQp { q with naked := false }).xbump R.XPT_RNR_NAK_TX_CNT R.XPT_P_RNR_NAK_TX_CNT q.port 1).ethCtl q .rnrNak q.epsn
      (s.fld R.XPT_RC_CFG 18 14) := by
  have noReceive : (!q.priv && k.first && decide (q.capsules ≥ q.recvs)) = true := by simp [client, first, full]
  rw [State.expectedSend, kind]
  exact if_pos noReceive

/-- A capsule of one packet, of a length that R126 allows, takes a receive and is acknowledged; without a queue nothing else happens. -/
theorem expectedSend_capsule (kind : k.kind = .send) (client : q.priv = false) (first : k.first = true) (last : k.last = true)
    (room : q.capsules < q.recvs) (long : 64 ≤ k.payload.length) (short : k.payload.length ≤ 8256) (noQueue : s.qctx? q.idx = none) :
    s.expectedSend q k = s.msgDone { q with capsules := q.capsules + 1 } := by
  have message : (if k.first = true then [] else q.inMsg) ++ k.payload = k.payload := by rw [first, if_pos rfl, List.nil_append]
  have receive : ¬(!q.priv && k.first && decide (q.capsules ≥ q.recvs)) = true := by simp [room]
  have onePacket : ¬(!k.last && k.payload.length != q.mtu) = true := by simp [last]
  have size : ¬(!q.priv && (decide (k.payload.length > 8256) || (k.last && decide (k.payload.length < 64)))) = true := by simp [long, short]
  have stillNone : (s.msgDone { q with capsules := q.capsules + b2n (!q.priv) }).qctx? q.idx = none := by
    rw [State.qctx?, msgDone_hq]
    exact noQueue
  rw [State.expectedSend, kind]
  dsimp only
  rw [if_neg (by decide), message, if_neg receive, if_neg onePacket, if_neg size, if_pos last, stillNone, client]
  rfl

theorem expectedWrite_client (client : q.priv = false) : s.expectedWrite q k = s.nakInvalid q := if_pos (by rw [client]; rfl)

theorem expectedWrite_noKey (priv : q.priv = true) (first : k.first = true) (noKey : s.keyAllows q k.key k.va k.len = none) :
    s.expectedWrite q k = s.nakAccess q := by
  rw [State.expectedWrite, priv, first, noKey]
  rfl

end

/-! ### The context of a queue pair arrives (R107) -/

section
variable {qpn : Nat}

theorem exec_contextFetchDone_cached (known : s.qp? (qpn - 0x10) = some q) (cached : q.cached = true) : exec (.contextFetchDone qpn) s = .next s := by
  change execContextFetchDone qpn s = _
  rw [execContextFetchDone, known]
  exact congrArg _ (if_pos cached)

/-- With its context in the cache, what waited in the miss buffer is processed in order, and what was held is sent. -/
theorem exec_contextFetchDone {c : State} {p : Qp} (known : s.qp? (qpn - 0x10) = some q) (uncached : q.cached = false)
    (arrives : (s.llcArrive 2 (ctxLines q.idx)).cacheCtx q.idx = c) (still : c.qp? q.idx = some p) :
    exec (.contextFetchDone qpn) s =
      .next (((q.missed.foldl (fun (s : State) k => s.rxPkt q.idx k) (c.putQp { p with missed := [] })).pumpReads q.idx).missFlow q.port) := by
  change execContextFetchDone qpn s = _
  rw [execContextFetchDone, known]
  dsimp only
  rw [uncached, if_neg Bool.false_ne_true, arrives, still]

end

/-! ### Read responses (R114, R126) -/

section
variable {psn : Nat} {last : Bool} {payload : Bytes} {o : SendOp} {rest : List SendOp}

theorem readResp_noRead (noRead : q.ops.find? (fun o => o.kind == .read) = none) :
    s.readResp q psn last payload = s.xbump R.XPT_RD_RESP_DISCARD_CNT R.XPT_P_RD_RESP_DISCARD_CNT q.port 1 := by
  rw [State.readResp, noRead]

/-- Where a read is the oldest message, it is the one that a response is for. -/
theorem oldestRead (ops : q.ops = o :: rest) (kind : o.kind = .read) : q.ops.find? (fun o => o.kind == .read) = some o := by
  rw [ops, List.find?_cons_of_pos (by rw [kind]; rfl)]

/-- A response that is neither the expected one nor ahead of it is counted and discarded. -/
theorem readResp_behind (read : q.ops.find? (fun o => o.kind == .read) = some o) (other : psn ≠ q.firstPsn o)
    (behind : serialAfter 24 (q.firstPsn o) psn = false) :
    s.readResp q psn last payload = s.xbump R.XPT_RD_RESP_DISCARD_CNT R.XPT_P_RD_RESP_DISCARD_CNT q.port 1 := by
  rw [State.readResp, read]
  dsimp only
  rw [if_pos other, behind, if_neg Bool.false_ne_true]

/-- A response in order whose length does not fit fails the queue pair (log 125). -/
theorem readResp_badLength (read : q.ops.find? (fun o => o.kind == .read) = some o) (next : psn = q.firstPsn o)
    (bad : (!last && payload.length != q.mtu) = true ∨ (last && o.got + payload.length != o.len) = true) :
    s.readResp q psn last payload = s.failQp q.idx 1 := by
  rw [State.readResp, read]
  dsimp only
  rw [if_neg (not_not_intro next), if_pos (by rcases bad with bad | bad <;> simp [bad])]

/-- The last response ends the oldest message, which is a read, and its bytes reach the command. -/
theorem readResp_ends (ops : q.ops = o :: rest) (kind : o.kind = .read) (next : psn = q.firstPsn o) (fits : o.got + payload.length = o.len) :
    s.readResp q psn true payload = ((s.putQp { q with ops := rest, retries := 0, rnrs := 0, backoff := 0 }).pumpReads q.idx).readIn
      { o with got := o.len, data := o.data ++ payload } := by
  have goodLength : ¬(!true && payload.length != q.mtu || true && o.got + payload.length != o.len || decide (o.got + payload.length > o.len)) = true := by
    simp [fits]
  rw [State.readResp, oldestRead ops kind]
  dsimp only
  rw [if_neg (not_not_intro next), if_neg goodLength, if_pos rfl, if_pos rfl, ops, fits, List.takeWhile_cons_of_neg (by simp),
    List.dropWhile_cons_of_neg (by simp)]
  rfl

end
end

/-- Settles O35: a packet reaches its queue pair or is counted, its sequence number sorts it, then what the expected request, the context's arrival and
a read response do. -/
theorem arrivingPacketsFollowTheirSequence : Obligations.ArrivingPacketsFollowTheirSequence := by
  unfold Obligations.ArrivingPacketsFollowTheirSequence
  refine ⟨?arrives, ?sorted, ?expected, ?fetched, ?response⟩
  case arrives =>
    intro n qpn psn va key len timer inv first last imm pl s bad rx rows
    have arrives : ∀ c ∈ rows, exec c.1 s = .next (s.rxAny n qpn c.2) := by
      simp only [rows, List.forall_mem_cons]
      exact ⟨rfl, rfl, rfl, rfl, rfl, rfl, rfl, rfl, rfl, List.forall_mem_nil _⟩
    intro c row
    rw [arrives c row]
    refine ⟨fun other => congrArg _ (rxNet_otherAddress _ other), fun ours icrc => congrArg _ (rxNet_badIcrc _ ours icrc),
      fun ours whole noQp => congrArg _ (rxAny_noQp _ ours whole noQp), fun q ours whole known => ⟨fun cached => ?_, fun uncached => ?_⟩⟩
    · exact congrArg _ (rxAny_cached _ ours whole known cached)
    · exact congrArg _ (rxAny_miss _ ours whole known uncached)
  case sorted =>
    intro i q k s known up unmarked
    rw [rxPkt_acts known up unmarked]
    refine ⟨fun request => ?_, fun kind => by rw [State.acted, kind]⟩
    rw [acted_request request, request_sorted]
    refine ⟨fun (expected : k.ahead q = 0) => ?_, fun (beyond : 0 < k.ahead q) (near : k.ahead q < 0x800000) => ?_,
      fun (opposite : k.ahead q = 0x800000) => ?_, fun (behind : 0x800000 < k.ahead q) => ?_⟩
    · rw [if_pos expected]
      exact ⟨expected_send, expected_write, expected_read⟩
    · rw [if_neg (by omega), if_pos near]
      exact ⟨fun naked => if_pos (.inr naked), fun priv => if_pos (.inl priv), fun fresh client => if_neg (by simp [fresh, client])⟩
    · rw [if_neg (by omega), if_neg (by omega), if_pos opposite]
    · rw [if_neg (by omega), if_neg (by omega), if_neg (by omega)]
      exact ⟨rfl, sendAck_frame ..⟩
  case expected =>
    exact fun q k s => ⟨expectedSend_invalidate, expectedSend_noReceive, expectedSend_capsule, expectedWrite_client, expectedWrite_noKey⟩
  case fetched =>
    exact fun qpn q s known => ⟨exec_contextFetchDone_cached known, fun c p => exec_contextFetchDone known⟩
  case response =>
    intro psn last payload q s
    refine ⟨readResp_noRead, fun o rest ops kind => ?_⟩
    have read := oldestRead ops kind
    refine ⟨readResp_behind read, ?_, fun next ended bad => ?_, fun next more bad => ?_⟩
    · rintro next rfl fits
      exact readResp_ends ops kind next fits
    · exact readResp_badLength read next (.inr (by simp [ended, bad]))
    · exact readResp_badLength read next (.inl (by simp [more, bad]))

end Sys2Proof.Machine
end

section
/-! The requester side of the transport and its rates (05_rdma_transport.md R113, R115, R116, R118, R119): what acknowledgements, NAKs and timeouts do to
the messages of a queue pair, how the congestion rules move its rates, and the statement about them. -/
namespace Sys2Proof.Machine

section
variable {s : State} {q : Qp}

/-! ### Acknowledgements and NAKs (R113, R115) -/

section
variable {psn : Nat} {v : State} {p : Qp} {left : List SendOp}

theorem retireOps_same (acked : q.ops.filterMap (SendOp.acked q.mtu psn) = left) (same : left = q.ops) : s.retireOps q psn = s :=
  if_pos (acked.trans same)

/-- An acknowledgement that advances leaves what it does not cover and returns the retry counts to zero. -/
theorem retireOps_advances (acked : q.ops.filterMap (SendOp.acked q.mtu psn) = left) (advances : left ≠ q.ops) :
    s.retireOps q psn = (s.putQp { q with ops := left, retries := 0, rnrs := 0, backoff := 0 }).pumpReads q.idx := by
  rw [State.retireOps, acked]
  exact if_neg advances

/-- A sequence NAK acknowledges what lies before its PSN; only a client queue pair then sends the rest again. -/
theorem seqNak_retired
    (retired : (s.xbump R.XPT_SEQ_NAK_RX_CNT R.XPT_P_SEQ_NAK_RX_CNT q.port 1).retireOps q ((psn + 2 ^ 24 - 1) % 2 ^ 24) = v)
    (still : v.qp? q.idx = some p) : s.seqNak q psn = if p.priv then v else v.retry p psn := by
  rw [State.seqNak, retired, still]

/-- The RNR retries of a queue pair are used up: a privileged one has RETRY_LIMIT, and 7 means unlimited to a client. -/
def State.rnrSpent (s : State) (q : Qp) : Bool := if q.priv then decide (q.rnrs ≥ s.privLimit) else q.rnrMax != 7 && decide (q.rnrs ≥ q.rnrMax)

theorem rnrSpent_priv (priv : q.priv = true) : s.rnrSpent q = decide (q.rnrs ≥ s.privLimit) := if_pos priv

theorem rnrSpent_client (client : q.priv = false) : s.rnrSpent q = (q.rnrMax != 7 && decide (q.rnrs ≥ q.rnrMax)) := if_neg (ne_true_of_eq_false client)

/-- An RNR NAK acknowledges what lies before its PSN, then starts the wait or, with no retry left, fails the queue pair. -/
theorem rnrNak_retired (retired : s.retireOps q ((psn + 2 ^ 24 - 1) % 2 ^ 24) = v) (still : v.qp? q.idx = some p) :
    s.rnrNak q psn = if v.rnrSpent p then v.failQp p.idx 2 else v.putQp { p with rnrs := p.rnrs + 1, rnrWait := true } := by
  rw [State.rnrNak, retired, still]
  rfl

theorem retry_spent (spent : q.retryMax ≤ q.retries) : s.retry q psn = s.failQp q.idx 1 := if_pos spent

theorem retry_again (within : q.retries < q.retryMax) :
    s.retry q psn = (s.putQp { q with retries := q.retries + 1 }).retransmit { q with retries := q.retries + 1 } psn :=
  if_neg (Nat.not_le.2 within)

end

/-! ### The end of an RNR wait and the ACK timer (R113, R115) -/

theorem rnrEnd_waiting (waits : q.rnrWait = true) :
    s.rnrEnd q = ((s.putQp { q with rnrWait := false }).retransmit { q with rnrWait := false } q.oldest).pumpReads q.idx :=
  if_neg (by rw [waits]; decide)

theorem rnrEnd_notWaiting (idle : q.rnrWait = false) : s.rnrEnd q = s := if_pos (by rw [idle]; rfl)

/-- With something unacknowledged and no RNR wait, the timeout counts: a client queue pair uses a retry, a privileged one backs off up to its limit. -/
theorem ackTimeout_counts (unacked : q.ops ≠ []) (noWait : q.rnrWait = false) :
    let t := s.xbump R.XPT_TIMEOUT_CNT R.XPT_P_TIMEOUT_CNT q.port 1
    s.ackTimeout q =
      if q.priv = false then t.retry q q.oldest
      else if t.privLimit ≤ q.backoff then t.failQp q.idx 1
      else (t.putQp { q with backoff := q.backoff + 1 }).retransmit { q with backoff := q.backoff + 1 } q.oldest := by
  rw [State.ackTimeout, if_neg (by simp [unacked, noWait])]
  simp only [Bool.not_eq_true']
  rfl

section
variable {qpn : Nat} {kind : PktKind} {which : Qp → Bool}

theorem timerOf_acts (known : s.qpOf qpn = some q) (due : which q = true) : s.timerOf qpn kind which = s.forQp q (barePkt kind 0 false) := by
  rw [State.timerOf, known]
  exact if_pos due

theorem timerOf_idle (known : s.qpOf qpn = some q) (idle : which q = false) : s.timerOf qpn kind which = s := by
  rw [State.timerOf, known]
  exact if_neg (ne_true_of_eq_false idle)

theorem exec_rnrWaitExpiry (qpn : Nat) (s : State) : exec (.rnrWaitExpiry qpn) s = .next (s.timerOf qpn .rnrTimer fun q => q.rnrWait) := rfl

theorem exec_ackTimeout (qpn : Nat) (s : State) :
    exec (.ackTimeout qpn) s = .next (s.timerOf qpn .ackTimer fun q => !q.priv && !q.ops.isEmpty && !q.rnrWait) := rfl

theorem exec_privAckTimeout (qpn : Nat) (s : State) :
    exec (.privAckTimeout qpn) s = .next (s.timerOf qpn .ackTimer fun q => q.priv && !q.ops.isEmpty && !q.rnrWait) := rfl

end

/-! ### The rates (R118, R119) -/

theorem rateCut_off (off : (s.xbump R.XPT_CNP_RX_CNT R.XPT_P_CNP_RX_CNT q.port 1).ccOn = false) :
    s.rateCut q = s.xbump R.XPT_CNP_RX_CNT R.XPT_P_CNP_RX_CNT q.port 1 :=
  if_pos (by rw [off]; rfl)

theorem rateCut_on (on : (s.xbump R.XPT_CNP_RX_CNT R.XPT_P_CNP_RX_CNT q.port 1).ccOn = true) :
    let u := s.xbump R.XPT_CNP_RX_CNT R.XPT_P_CNP_RX_CNT q.port 1
    s.rateCut q = u.putQp { q with
      rt := q.rc, rc := Nat.max (u.fld R.XPT_CC_CFG2 19 8) (q.rc * (2 ^ 31 - q.alpha) / 2 ^ 31)
      alpha := q.alpha - q.alpha / 2 ^ u.gShift + 2 ^ 30 / 2 ^ u.gShift, stage := 0, sent := 0 } :=
  if_neg (by rw [on]; decide)

/-- The target rate of the next recovery stage: unchanged in the first stages, then raised by RAI_MBPS, then by RHAI_MBPS. -/
def State.nextTarget (s : State) (q : Qp) : Nat :=
  if q.stage + 1 > 2 * s.fld R.XPT_CC_CFG2 23 20 then Nat.min q.line (q.rt + s.fld R.XPT_CC_CFG1 15 0)
  else if q.stage + 1 > s.fld R.XPT_CC_CFG2 23 20 then Nat.min q.line (q.rt + s.fld R.XPT_CC_CFG1 31 16)
  else q.rt

theorem rateUp_eq (s : State) (q : Qp) :
    s.rateUp q = s.putQp { q with stage := q.stage + 1, rt := s.nextTarget q, rc := (s.nextTarget q + q.rc) / 2, sent := 0 } := rfl

theorem nextTarget_fast (fast : q.stage < s.fld R.XPT_CC_CFG2 23 20) : s.nextTarget q = q.rt := by
  rw [State.nextTarget, if_neg (by omega), if_neg (by omega)]

theorem nextTarget_additive (past : s.fld R.XPT_CC_CFG2 23 20 ≤ q.stage) (early : q.stage < 2 * s.fld R.XPT_CC_CFG2 23 20) :
    s.nextTarget q = Nat.min q.line (q.rt + s.fld R.XPT_CC_CFG1 31 16) := by
  rw [State.nextTarget, if_neg (by omega), if_pos (by omega)]

theorem nextTarget_hyper (late : 2 * s.fld R.XPT_CC_CFG2 23 20 ≤ q.stage) :
    s.nextTarget q = Nat.min q.line (q.rt + s.fld R.XPT_CC_CFG1 15 0) := by
  rw [State.nextTarget, if_pos (by omega)]

section
variable {qpn : Nat}

theorem exec_alphaUpdateTimer (known : s.qpOf qpn = some q) :
    exec (.alphaUpdateTimer qpn) s = .next (s.putQp { q with alpha := q.alpha - q.alpha / 2 ^ s.gShift }) := by
  change execAlphaUpdateTimer qpn s = _
  rw [execAlphaUpdateTimer, known]

theorem exec_rateIncreaseTimer (known : s.qpOf qpn = some q) : exec (.rateIncreaseTimer qpn) s = .next (s.rateUp q) := by
  change execRateIncreaseTimer qpn s = _
  rw [execRateIncreaseTimer, known]

theorem exec_byteCounterExpiry (known : s.qpOf qpn = some q) :
    exec (.byteCounterExpiry qpn) s = .next
      (if s.fld R.XPT_CC_CFG2 31 24 * 1048576 = 0 ∨ q.sent < s.fld R.XPT_CC_CFG2 31 24 * 1048576 then s else s.rateUp q) := by
  change execByteCounterExpiry qpn s = _
  rw [execByteCounterExpiry, known]

end
end

/-- Settles O36: what reaches a connected queue pair, what an acknowledgement, a NAK and a timeout do, the timers, then the rates. -/
theorem requestersRetireRetryAndSlowDown : Obligations.RequestersRetireRetryAndSlowDown := by
  unfold Obligations.RequestersRetireRetryAndSlowDown
  refine ⟨?reaches, ?requester, ?timers, ?rates⟩
  case reaches =>
    intro i q k s known up unmarked
    rw [rxPkt_acts known up unmarked, State.acted]
    refine ⟨?_, ?_, ?_, ?_, ?_, ?_, ?_⟩ <;> (intro kind; rw [kind])
  case requester =>
    intro psn q s
    refine ⟨fun left acked => ⟨retireOps_same acked, retireOps_advances acked⟩, fun v p retired still => ?_, fun v p retired still => ?_,
      rnrEnd_waiting, rnrEnd_notWaiting, fun unacked noWait => ?_, retry_spent, retry_again⟩
    · rw [seqNak_retired retired still]
      exact ⟨fun client => if_neg (ne_true_of_eq_false client), fun priv => if_pos priv⟩
    · rw [rnrNak_retired retired still]
      refine ⟨fun client within => ?_, fun client limited spent => ?_, fun priv within => ?_, fun priv spent => ?_⟩
      · rw [rnrSpent_client client, if_neg (by rcases within with within | within <;> simp [within])]
      · rw [rnrSpent_client client, if_pos (by simp [limited, spent])]
      · rw [rnrSpent_priv priv, if_neg (by simp [within])]
      · rw [rnrSpent_priv priv, if_pos (by simp [spent])]
    · rw [ackTimeout_counts unacked noWait]
      refine ⟨fun client => if_pos client, fun priv spent => ?_, fun priv within => ?_⟩
      · rw [if_neg (by rw [priv]; decide), if_pos spent]
      · rw [if_neg (by rw [priv]; decide), if_neg (Nat.not_le.2 within)]
  case timers =>
    intro qpn q s known
    rw [exec_rnrWaitExpiry, exec_ackTimeout, exec_privAckTimeout]
    refine ⟨fun waits => congrArg _ (timerOf_acts known waits), fun idle => congrArg _ (timerOf_idle known idle), fun client unacked noWait => ?_,
      fun idle => ?_, fun priv unacked noWait => ?_, fun idle => ?_, fun k cached => if_pos cached, fun k uncached => if_neg (ne_true_of_eq_false uncached)⟩
    · exact congrArg _ (timerOf_acts known (by simp [client, unacked, noWait]))
    · exact congrArg _ (timerOf_idle known (by rcases idle with idle | idle <;> simp [idle]))
    · exact congrArg _ (timerOf_acts known (by simp [priv, unacked, noWait]))
    · exact congrArg _ (timerOf_idle known (by rcases idle with idle | idle <;> simp [idle]))
  case rates =>
    intro qpn q s
    refine ⟨⟨rateCut_off, rateCut_on⟩, fun known => ⟨exec_alphaUpdateTimer known, exec_rateIncreaseTimer known, fun on sent => ?_, fun few => ?_⟩,
      ?_⟩
    · rw [exec_byteCounterExpiry known, if_neg (by omega)]
    · rw [exec_byteCounterExpiry known, if_pos (.inr few)]
    · rw [rateUp_eq]
      refine ⟨fun fast => ?_, fun past early => ?_, fun late => ?_⟩
      · rw [nextTarget_fast fast]
      · rw [nextTarget_additive past early]
      · rw [nextTarget_hyper late]

end Sys2Proof.Machine
end

section
/-! Connection management (05_rdma_transport.md R104, R106, R116): how a REQ is answered, what REP, RTU, REJ, MRA, DREQ and DREP do once they have
arrived, and the statement about them. -/
namespace Sys2Proof.Machine

section
variable {s u : State} {n : NetIn} {q : Qp}

/-! ### A queue pair is established or disconnected (R104) -/

theorem establish_connecting {i : Nat} (known : s.qp? i = some q) (connecting : q.st = .connecting) :
    s.establish i = (s.putQp { q with st := .connected, rc := q.line, rt := q.line, alpha := 2 ^ 30, stage := 0, sent := 0 }).sessionUp i := by
  rw [State.establish, known]
  exact if_neg (not_not_intro connecting)

theorem establish_other {i : Nat} (known : s.qp? i = some q) (other : q.st ≠ .connecting) : s.establish i = s := by
  rw [State.establish, known]
  exact if_pos other

/-- A queue pair is disconnected: its queue pair ends, and with that of an admin queue its I/O queues and its controller. -/
def State.disconnected (s : State) (idx : Nat) : State :=
  match s.qctx? idx with
  | none => s.endQp idx
  | some x =>
    let s := s.endQp idx
    if x.kind = .fabAdmin then
      let ios := (s.hq.ctxs.filter fun y => y.ctrl == x.ctrl && y.kind == .fabIo).map QCtx.idx
      let s := ios.foldl State.endQp s
      { s with hq.ctrls := dropKey Controller.id x.ctrl s.hq.ctrls }
    else s

theorem disconnected_noQueue {i : Nat} (noQueue : s.qctx? i = none) : s.disconnected i = s.endQp i := by
  rw [State.disconnected, noQueue]

theorem disconnected_io {i : Nat} {x : QCtx} (queue : s.qctx? i = some x) (io : x.kind = .fabIo) : s.disconnected i = s.endQp i := by
  rw [State.disconnected, queue]
  exact if_neg (by rw [io]; decide)

theorem disconnected_admin {i : Nat} {x : QCtx} {t : State} (queue : s.qctx? i = some x) (admin : x.kind = .fabAdmin)
    (ended : (((s.endQp i).hq.ctxs.filter fun y => y.ctrl == x.ctrl && y.kind == .fabIo).map QCtx.idx).foldl State.endQp (s.endQp i) = t) :
    s.disconnected i = { t with hq.ctrls := dropKey Controller.id x.ctrl t.hq.ctrls } := by
  rw [State.disconnected, queue, ← ended]
  exact if_pos admin

/-! ### A REQ is answered (R104, R106) -/

section
variable {port : Nat} {m : CmParams}

/-- A REQ on a port that is down, of an unknown record format or for an unknown session is rejected. -/
theorem acceptReq_refused (bad : (s.eport port).up = false ∨ m.recfmt ≠ 0 ∨ m.session.any (fun k => (s.session? k).isNone) = true) :
    s.acceptReq port m = s.sendCm port (cmMsg .rej m.qpn) :=
  if_pos (bad.imp_left fun down => by rw [down]; rfl)

/-- The queue pair that a client's REQ asks for, on a context. -/
def State.clientQp (s : State) (idx port : Nat) (m : CmParams) : Qp :=
  { newQp idx port m.qpn (mtuOf (Nat.min m.mtu (s.fld R.XPT_CFG 13 12))) (Nat.min m.resources s.ordMax) (Nat.max m.timeout (s.fld R.XPT_RC_CFG 23 19))
      (Nat.min 7 m.retry) (Nat.min 7 m.rnr) m.recvs (s.eport port).line false 0 none with
    epsn := m.psn % 2 ^ 24, v6 := m.v6 }

/-- The REP that answers a REQ with a new queue pair. -/
def repOf (q : Qp) : CmMsg :=
  { cmMsg .rep q.remote with own := q.idx + 0x10, mtu := q.mtu, depth := q.ord, timeout := q.tmo, retry := q.retryMax, rnr := q.rnrMax }

/-- A client's REQ that is well formed takes the lowest free context; without one it is rejected. -/
theorem acceptReq_client (up : (s.eport port).up = true) (format : m.recfmt = 0) (client : m.session = none) :
    s.acceptReq port m =
      if s.freeCtx ≥ 1048576 then s.sendCm port (cmMsg .rej m.qpn)
      else ((s.putQp (s.clientQp s.freeCtx port m)).cacheCtx s.freeCtx).sendCm port (repOf (s.clientQp s.freeCtx port m)) := by
  have wellFormed : ¬((!(s.eport port).up) = true ∨ m.recfmt ≠ 0 ∨ m.session.any (fun k => (s.session? k).isNone) = true) := by
    simp [up, format, client]
  rw [State.acceptReq]
  dsimp only
  rw [if_neg wellFormed, client]
  simp only [Option.bind_none, Option.isSome_none, Bool.false_eq_true, false_and, or_false]
  rfl

end

/-! ### What each message does once it has arrived (R104) -/

section
variable {qpn : Nat} {m : CmParams}

/-- A connection management packet that is whole and for this port acts, once it has been counted. -/
theorem rxCm_ok (act : State → State) (ours : s.answers n.port n.gid = true) (whole : n.icrcOk = true)
    (arrived : (s.xbump R.XPT_RX_PKT_CNT R.XPT_P_RX_PKT_CNT n.port 1).ceOnly n = u) : s.rxCm n act = act u := by
  rw [State.rxCm, rxNet_ok _ ours whole, arrived]

variable (ours : s.answers n.port n.gid = true) (whole : n.icrcOk = true)
  (arrived : (s.xbump R.XPT_RX_PKT_CNT R.XPT_P_RX_PKT_CNT n.port 1).ceOnly n = u)
include ours whole arrived

theorem exec_cmReqRx (m : CmParams) : exec (.cmReqRx n m) s = .next (u.acceptReq n.port m) :=
  congrArg _ (rxCm_ok _ ours whole arrived)

theorem exec_cmMraRx (qpn : Nat) : exec (.cmMraRx n qpn) s = .next u := congrArg _ (rxCm_ok id ours whole arrived)

theorem exec_cmRtuRx (isQp : 0x10 ≤ qpn) : exec (.cmRtuRx n qpn) s = .next ((u.establish (qpn - 0x10)).openSessions) := by
  change execCmRtuRx n qpn s = _
  rw [execCmRtuRx, rxCm_ok _ ours whole arrived]
  exact congrArg _ (if_neg (Nat.not_lt.2 isQp))

theorem exec_cmDreqRx {v : State} {remote : Nat} (answered : u.sendCm n.port (cmMsg .drep remote) = v) :
    exec (.cmDreqRx n qpn remote) s = .next (if qpn < 0x10 then v else v.disconnected (qpn - 0x10)) := by
  rw [← answered]
  exact congrArg _ (rxCm_ok _ ours whole arrived)

section
variable (known : u.qp? (qpn - 0x10) = some q)
include known

/-- A REP for a privileged pair that no session owns completes it with what was negotiated, RTU answers, and it is established. -/
theorem exec_cmRepRx_completes {v : State} (isQp : 0x10 ≤ qpn) (connecting : q.st = .connecting) (priv : q.priv = true)
    (noSession : u.snap.sessions.find? (fun x => x.ownQp == some q.idx) = none)
    (completed : u.putQp { q with
      remote := m.qpn, epsn := m.psn % 2 ^ 24, v6 := m.v6, mtu := mtuOf (Nat.min m.mtu (u.fld R.XPT_CFG 13 12))
      ord := Nat.min m.resources u.ordMax, tmo := Nat.max m.timeout (u.fld R.XPT_RC_CFG 23 19) } = v) :
    exec (.cmRepRx n qpn m) s = .next (((v.sendCm q.port { cmMsg .rtu m.qpn with own := qpn }).establish q.idx).openSessions) := by
  have awaited : ¬(qpn < 0x10 ∨ q.st ≠ .connecting ∨ (!q.priv) = true) := by simp [isQp, connecting, priv]
  have noSession' : v.snap.sessions.find? (fun x => x.ownQp == some q.idx) = none := by rw [← completed]; exact noSession
  change execCmRepRx n qpn m s = _
  rw [execCmRepRx, rxCm_ok _ ours whole arrived, known]
  dsimp only
  rw [if_neg awaited, completed, noSession']

theorem exec_cmRepRx_ignored (other : q.st ≠ .connecting ∨ q.priv = false) : exec (.cmRepRx n qpn m) s = .next u := by
  change execCmRepRx n qpn m s = _
  rw [execCmRepRx, rxCm_ok _ ours whole arrived, known]
  exact congrArg _ (if_pos (.inr (other.imp_right fun client => by rw [client]; rfl)))

/-- A REJ ends what was connecting: a session's attempt suspends it, any other queue pair is dropped. -/
theorem exec_cmRejRx_connecting (isQp : 0x10 ≤ qpn) (connecting : q.st = .connecting) :
    exec (.cmRejRx n qpn) s = .next (q.session.elim (u.dropQp q.idx) fun k => u.suspendSession k 0) := by
  change execCmRejRx n qpn s = _
  rw [execCmRejRx, rxCm_ok _ ours whole arrived, known]
  dsimp only
  rw [if_neg (by simp [isQp, connecting])]
  cases q.session <;> rfl

theorem exec_cmRejRx_ignored (other : q.st ≠ .connecting) : exec (.cmRejRx n qpn) s = .next u := by
  change execCmRejRx n qpn s = _
  rw [execCmRejRx, rxCm_ok _ ours whole arrived, known]
  exact congrArg _ (if_pos (.inr other))

/-- A DREP ends a queue pair that has failed. -/
theorem exec_cmDrepRx (isQp : 0x10 ≤ qpn) : exec (.cmDrepRx n qpn) s = .next (if q.st = .failed then u.reapQp q.idx else u) := by
  change execCmDrepRx n qpn s = _
  rw [execCmDrepRx, rxCm_ok _ ours whole arrived, known]
  simp only [ge_iff_le, isQp, true_and]

end
end
end

/-- Settles O37: the packets that are not for this port or not whole, then what each message does, how a REQ is answered, how a pair is established. -/
theorem connectionsAreMadeAndEnded : Obligations.ConnectionsAreMadeAndEnded := by
  unfold Obligations.ConnectionsAreMadeAndEnded
  refine ⟨?refused, ?messages, ?request, ?established⟩
  case refused =>
    intro n qpn remote m s c message
    have arrives : ∃ act, exec c s = .next (s.rxNet n act) := by
      revert c
      simp only [List.forall_mem_cons]
      exact ⟨⟨_, rfl⟩, ⟨_, rfl⟩, ⟨_, rfl⟩, ⟨_, rfl⟩, ⟨_, rfl⟩, ⟨_, rfl⟩, ⟨_, rfl⟩, List.forall_mem_nil _⟩
    obtain ⟨act, arrives⟩ := arrives
    rw [arrives]
    exact ⟨fun other => congrArg _ (rxNet_otherAddress act other), fun ours bad => congrArg _ (rxNet_badIcrc act ours bad)⟩
  case messages =>
    intro n s ours whole u arrived
    refine ⟨exec_cmReqRx ours whole arrived, exec_cmMraRx ours whole arrived, fun qpn => exec_cmRtuRx ours whole arrived,
      fun qpn m q isQp known => ⟨?_, exec_cmRepRx_ignored ours whole arrived known, ?_, ?_, exec_cmRejRx_ignored ours whole arrived known, ?_, ?_⟩,
      fun qpn remote v answered => ?_⟩
    · exact fun connecting priv noSession v => exec_cmRepRx_completes ours whole arrived known isQp connecting priv noSession
    · intro connecting noSession
      rw [exec_cmRejRx_connecting ours whole arrived known isQp connecting, noSession, Option.elim_none]
    · intro k connecting session
      rw [exec_cmRejRx_connecting ours whole arrived known isQp connecting, session, Option.elim_some]
    · intro failed
      rw [exec_cmDrepRx ours whole arrived known isQp, if_pos failed]
    · intro other
      rw [exec_cmDrepRx ours whole arrived known isQp, if_neg other]
    · rw [exec_cmDreqRx ours whole arrived answered]
      refine ⟨fun isNoQp => ?_, fun isQp noQueue => ?_, fun x isQp queue io => ?_, fun x isQp queue admin t ended => ?_⟩
      · rw [if_pos isNoQp]
      · rw [if_neg (Nat.not_lt.2 isQp), disconnected_noQueue noQueue]
      · rw [if_neg (Nat.not_lt.2 isQp), disconnected_io queue io]
      · rw [if_neg (Nat.not_lt.2 isQp), disconnected_admin queue admin ended]
  case request =>
    intro port m s
    refine ⟨acceptReq_refused, fun up format client => ⟨fun full => ?_, fun room => ?_⟩⟩
    · rw [acceptReq_client up format client, if_pos full]
    · rw [acceptReq_client up format client, if_neg (Nat.not_le.2 room)]
      rfl
  case established =>
    exact fun i q s known => ⟨establish_other known, establish_connecting known⟩

end Sys2Proof.Machine
end

section
/-! Flow control, ports and memory keys (05_rdma_transport.md R116, R120, R122 to R125): what a pause frame, a pause storm and a port that goes down come to,
how a memory key is registered and revoked, and the statement about them. -/
namespace Sys2Proof.Machine

section
variable {s : State}

/-! ### Pauses and storms (R102, R120) -/

section
variable {port prio : Nat} {p : EthPort}

theorem exec_pfcPauseRx (known : s.eport port = p) (pause : Bool) (inRange : prio ≤ 7) (heeded : p.ignoring ≠ some prio) :
    exec (.pfcPauseRx port prio pause) s = .next
      (if pause then s.putEport { p with paused := p.paused.filter (fun x => x != prio) ++ [prio] }
       else (s.putEport { p with paused := p.paused.filter fun x => x != prio }).drainTx port prio) := by
  change execPfcPauseRx port prio pause s = _
  rw [execPfcPauseRx, known]
  exact congrArg _ (if_neg (not_or.2 ⟨Nat.not_lt.2 inRange, heeded⟩))

theorem exec_pfcPauseRx_ignored (known : s.eport port = p) (pause : Bool) (ignored : 7 < prio ∨ p.ignoring = some prio) :
    exec (.pfcPauseRx port prio pause) s = .next s := by
  change execPfcPauseRx port prio pause s = _
  rw [execPfcPauseRx, known]
  exact congrArg _ (if_pos ignored)

theorem ethOut_waits {qp : Option Nat} {k : Nat} {o : Out} (known : s.eport port = p) (paused : p.paused.contains prio = true) :
    s.ethOut port prio qp k o = s.putEport { p with queue := p.queue ++ [⟨prio, qp, k, o⟩] } := by
  rw [State.ethOut, known]
  exact if_pos paused

theorem ethOut_sends {qp : Option Nat} {k : Nat} {o : Out} (known : s.eport port = p) (free : p.paused.contains prio = false) :
    s.ethOut port prio qp k o = (s.xbump R.XPT_TX_PKT_CNT R.XPT_P_TX_PKT_CNT port k).emit o := by
  rw [State.ethOut, known]
  exact if_neg (ne_true_of_eq_false free)

theorem exec_pfcStorm_ended (known : s.eport port = p) : exec (.pfcStorm port true) s = .next (s.putEport { p with ignoring := none }) := by
  rw [← known]
  rfl

theorem exec_pfcStorm_calm (known : s.eport port = p)
    (calm : s.fld R.XPT_PFC_CFG 31 16 = 0 ∨ p.paused.contains (s.fld R.XPT_CFG 31 29) = false) : exec (.pfcStorm port false) s = .next s := by
  change execPfcStorm port false s = _
  rw [execPfcStorm, known]
  exact congrArg _ (if_pos (calm.imp_right fun free => by rw [free]; rfl))

theorem fld_xbump {total q : Reg} {portCnt : Nat → Reg} {k hi lo : Nat} (other : q.addr ≠ total.addr) (otherPort : q.addr ≠ (portCnt (port % 16)).addr) :
    (s.xbump total portCnt port k).fld q hi lo = s.fld q hi lo :=
  (fld_wr _ _ _ _ _ _ otherPort).trans (fld_wr _ _ _ _ _ _ other)

/-- The storm counters are not the setting of the storm limit. -/
theorem fld_stormCounted {k hi lo : Nat} :
    (s.xbump R.XPT_PFC_STORM_CNT R.XPT_P_PFC_STORM_CNT port k).fld R.XPT_PFC_CFG hi lo = s.fld R.XPT_PFC_CFG hi lo := by
  refine fld_xbump (by decide) ?_
  simp only [R.XPT_PFC_CFG, R.XPT_P_PFC_STORM_CNT, RegBank.at, Bank.XPT_PFC_CFG, Bank.XPT_P_PFC_STORM_CNT]
  omega

/-- A storm on a whole port discards what waits, ignores the port's pauses of the priority, counts and is recorded. -/
theorem exec_pfcStorm (known : s.eport port = p) (on : s.fld R.XPT_PFC_CFG 31 16 ≠ 0)
    (paused : p.paused.contains (s.fld R.XPT_CFG 31 29) = true) (whole : port < 16) :
    exec (.pfcStorm port false) s = .next
      (((s.putEport { p with
        paused := p.paused.filter fun x => x != s.fld R.XPT_CFG 31 29, ignoring := some (s.fld R.XPT_CFG 31 29)
        queue := p.queue.filter fun k => k.prio != s.fld R.XPT_CFG 31 29 }).xbump R.XPT_PFC_STORM_CNT R.XPT_P_PFC_STORM_CNT port 1).event
          0x05 evcLimit 3 (unitId 1 port) (evValue (s.fld R.XPT_PFC_CFG 31 16))) := by
  have storm : ¬(s.fld R.XPT_PFC_CFG 31 16 = 0 ∨ (!p.paused.contains (s.fld R.XPT_CFG 31 29)) = true) := by
    rw [paused]
    exact not_or.2 ⟨on, Bool.false_ne_true⟩
  change execPfcStorm port false s = _
  rw [execPfcStorm, known]
  dsimp only
  rw [if_neg Bool.false_ne_true, if_neg storm, if_pos whole, List.append_nil, Nat.mod_eq_of_lt whole, fld_stormCounted]
  rfl

theorem exec_ethPortDown (known : s.eport port = p) :
    exec (.ethPortDown port) s = .next (((s.xpt.qps.filter fun q => q.port == port).map Qp.idx).foldl (fun (s : State) i => s.failQp i 5)
      (s.putEport { p with up := false, paused := [], ignoring := none, queue := [] })) := by
  rw [← known]
  rfl

end

section
variable {n slot : Nat} {e : Entry}

/-! ### REGISTER_MEMORY_KEY (R122, R124) -/

/-- The fields of a REGISTER_MEMORY_KEY packet are ones that R124 allows. -/
def State.KeyFields (s : State) (e : Entry) : Prop :=
  e.num 10 1 ≤ 2 ∧ e.num 11 1 = 1 ∧ e.num 12 2 ≠ 0 ∧ e.zero 14 2 = true ∧ e.num 16 8 % 4096 = 0 ∧ e.num 24 8 % 4096 = 0 ∧
    4096 ≤ e.num 24 8 ∧ e.num 24 8 ≤ 2 ^ 36 ∧ s.regionOk (e.num 10 1) (e.num 16 8) (e.num 24 8) = true

/-- The check that the command makes of its fields fails exactly where one of them is not allowed. -/
theorem keyFields_refused_iff (s : State) (e : Entry) :
    (e.num 10 1 > 2 ∨ e.num 11 1 ≠ 1 ∨ e.num 12 2 = 0 ∨ (!e.zero 14 2) = true ∨ e.num 16 8 % 4096 ≠ 0 ∨ e.num 24 8 % 4096 ≠ 0 ∨
      e.num 24 8 < 4096 ∨ e.num 24 8 > 2 ^ 36 ∨ s.regionOk (e.num 10 1) (e.num 16 8) (e.num 24 8) = false) ↔ ¬s.KeyFields e := by
  unfold State.KeyFields
  simp only [Classical.not_and_iff_not_or_not, Bool.not_eq_true', Bool.not_eq_true, Nat.not_le, ne_eq, gt_iff_lt, Classical.not_not]

/-- The lowest free index of a memory key. -/
def State.freeKey (s : State) : Nat :=
  let used := s.xpt.keys.map MemKey.idx
  lowestFree used (used.length + 1) 0

/-- The tag that a key of an index takes: the one after the last that it had. -/
def State.nextTag (s : State) (i : Nat) : Nat :=
  match findKey Prod.fst i s.xpt.tags with
  | some t => (t.2 + 1) % 256
  | none => 0

/-- The key that a REGISTER_MEMORY_KEY packet registers. -/
def State.newKey (s : State) (e : Entry) : MemKey :=
  ⟨s.freeKey, s.nextTag s.freeKey, false, e.num 10 1, e.num 16 8, e.num 24 8, e.num 12 2, 0, 0, none⟩

theorem newMkey_full {space base len pd : Nat} (full : 65536 ≤ s.freeKey) : s.newMkey space base len pd = (s, none) := if_pos full

theorem newMkey_free (room : s.freeKey < 65536) :
    s.newMkey (e.num 10 1) (e.num 16 8) (e.num 24 8) (e.num 12 2) =
      ({ s.putMkey (s.newKey e) with xpt.tags := putKey Prod.fst (s.freeKey, s.nextTag s.freeKey) s.xpt.tags },
        some (s.freeKey * 256 + s.nextTag s.freeKey)) :=
  if_neg (Nat.not_le.2 room)

theorem exec_registerMemoryKey_badFields (h : s.CanRun 0x42 n slot e) (bad : ¬s.KeyFields e) :
    exec (.registerMemoryKey n slot) s = .next ((s.begun n slot e).replied n slot e stInvalidField [] []) := by
  change execRegisterMemoryKey n slot s = _
  rw [execRegisterMemoryKey, State.packet_runs _ h]
  dsimp only
  rw [if_pos ((keyFields_refused_iff (s.begun n slot e) e).2 bad), State.ended_fail]

theorem exec_registerMemoryKey_full (h : s.CanRun 0x42 n slot e) (good : s.KeyFields e) (full : 65536 ≤ s.freeKey) :
    exec (.registerMemoryKey n slot) s = .next ((s.begun n slot e).replied n slot e stNoResource [] []) := by
  have noIndex : 65536 ≤ (s.begun n slot e).freeKey := full
  change execRegisterMemoryKey n slot s = _
  rw [execRegisterMemoryKey, State.packet_runs _ h]
  dsimp only
  rw [if_neg (fun refused => (keyFields_refused_iff (s.begun n slot e) e).1 refused good), newMkey_full noIndex, State.ended_fail]

theorem exec_registerMemoryKey (h : s.CanRun 0x42 n slot e) (good : s.KeyFields e) (room : s.freeKey < 65536) :
    exec (.registerMemoryKey n slot) s = .next (State.replied { s.begun n slot e with
      xpt.keys := putKey MemKey.idx (s.newKey e) s.xpt.keys
      xpt.tags := putKey Prod.fst (s.freeKey, s.nextTag s.freeKey) s.xpt.tags } n slot e stOk
        (leBytes 4 (s.freeKey * 256 + s.nextTag s.freeKey)) []) := by
  have index : (s.begun n slot e).freeKey < 65536 := room
  change execRegisterMemoryKey n slot s = _
  rw [execRegisterMemoryKey, State.packet_runs _ h]
  dsimp only
  rw [if_neg (fun refused => (keyFields_refused_iff (s.begun n slot e) e).1 refused good), newMkey_free index, State.ended_done]
  rfl

/-! ### REVOKE_MEMORY_KEY (R125) -/

section
variable {k : MemKey}

/-- The checks of REVOKE_MEMORY_KEY in their order: the tag, a revocation that is under way. -/
theorem exec_revokeMemoryKey (h : s.CanRun 0x43 n slot e) (known : s.mkey? (e.num 10 4 / 256) = some k) :
    exec (.revokeMemoryKey n slot) s = .next (s.ended n slot e
      (if k.tag ≠ e.num 10 4 % 256 then .fail (s.begun n slot e) stInvalidField
       else if k.revoking then .fail (s.begun n slot e) stBusy
       else .quiet ((s.begun n slot e).putMkey { k with revoking := true, pkt := some (packetRef n slot e) }))) := by
  have found : (s.begun n slot e).mkey? (e.num 10 4 / 256) = some k := known
  change execRevokeMemoryKey n slot s = _
  rw [execRevokeMemoryKey, State.packet_runs _ h]
  dsimp only
  rw [found]

theorem exec_revokeComplete {i : Nat} (known : s.mkey? i = some k) :
    exec (.revokeComplete i) s = .next (if k.revoking && !s.keyBusy i then s.revokeEnd k else s) := by
  change execRevokeComplete i s = _
  rw [execRevokeComplete, known]

/-- The queue pair has an unfinished write that passed the check of a key. -/
def Qp.writesUnder (q : Qp) (i : Nat) : Bool :=
  match q.wKey with
  | some (k, _) => k == i
  | none => false

theorem writesUnder_eq {i : Nat} (inRange : i < 65536) (q : Qp) : ((q.wKey.map Prod.fst).getD 65536 == i) = q.writesUnder i := by
  rw [Qp.writesUnder]
  cases q.wKey with
  | some w => rfl
  | none => exact beq_eq_false_iff_ne.2 (Nat.ne_of_gt inRange)

theorem exec_revokeLimitExpiry_idle {i : Nat} (known : s.mkey? i = some k) (valid : k.revoking = false) :
    exec (.revokeLimitExpiry i) s = .next s := by
  change execRevokeLimitExpiry i s = _
  rw [execRevokeLimitExpiry, known]
  exact congrArg _ (if_pos (by rw [valid]; rfl))

/-- At the limit of a revocation, every queue pair with an unfinished write of the key fails and is counted. -/
theorem exec_revokeLimitExpiry {i : Nat} {late : List Nat} (known : s.mkey? i = some k) (revoking : k.revoking = true) (inRange : i < 65536)
    (writes : (s.xpt.qps.filter fun q => q.st == .connected && (q.wKey.map Prod.fst).getD 65536 == i).map Qp.idx = late) :
    exec (.revokeLimitExpiry i) s =
      .next (late.foldl (fun (s : State) j => s.failQp j 7) (s.putMkey { k with failed := k.failed + late.length })) := by
  simp only [writesUnder_eq inRange] at writes
  change execRevokeLimitExpiry i s = _
  rw [execRevokeLimitExpiry, known, ← writes]
  exact congrArg _ (if_neg (by rw [revoking]; decide))

end
end
end

/-- Settles O38: pauses, storms and a port that goes down, then how a memory key is registered, and how it is revoked. -/
theorem portsPauseAndKeysAreRevoked : Obligations.PortsPauseAndKeysAreRevoked := by
  unfold Obligations.PortsPauseAndKeysAreRevoked
  refine ⟨?ports, ?registers, ?revokes, ?ends⟩
  case ports =>
    intro port s p known
    exact ⟨fun prio inRange heeded => ⟨exec_pfcPauseRx known true inRange heeded, exec_pfcPauseRx known false inRange heeded⟩,
      fun prio pause => exec_pfcPauseRx_ignored known pause, fun prio qp k o => ⟨ethOut_waits known, ethOut_sends known⟩, exec_pfcStorm_ended known,
      exec_pfcStorm known, exec_pfcStorm_calm known, exec_ethPortDown known⟩
  case registers =>
    exact fun n slot e s h => ⟨exec_registerMemoryKey_badFields h, exec_registerMemoryKey_full h, exec_registerMemoryKey h⟩
  case revokes =>
    intro n slot e k s h known
    rw [exec_revokeMemoryKey h known]
    refine ⟨fun otherTag => ?_, fun tag again => ?_, fun tag first => ?_⟩
    · rw [if_pos otherTag, State.ended_fail]
    · rw [if_neg (not_not_intro tag), if_pos again, State.ended_fail]
    · rw [if_neg (not_not_intro tag), first, if_neg Bool.false_ne_true, State.ended_quiet]
  case ends =>
    intro i k s known
    rw [exec_revokeComplete known]
    refine ⟨fun revoking free => ?_, fun other => ?_, exec_revokeLimitExpiry_idle known,
      fun revoking late writes inRange => exec_revokeLimitExpiry known revoking inRange writes⟩
    · rw [if_pos (by rw [revoking, free]; rfl)]
    · rw [if_neg (by rcases other with valid | busy <;> simp [*])]

end Sys2Proof.Machine
end

section
/-! The brine (06_brine_write_path.md R136, R139, R141, R147, R153 to R155): what happens to the entry that waits for its reservation, to the fetches
that the mirror backlog holds, to the entry that the drain takes, to the mirror's records and to a loss that is accepted, and the statement about them. -/
namespace Sys2Proof.Machine

section
variable {s : State}

/-! ### Reservation and held fetches (R136, R141) -/

section
variable {id : Nat} {e : BEnt}

/-- The first entry that waits is taken up if its pages and its records are free. -/
theorem exec_brineReserveGrant {rest : List Nat} (first : s.brn.waiting = id :: rest) (known : s.ent? id = some e) :
    exec .brineReserveGrant s = .next
      (if s.roomFor (sumOf (e.recs.map BRec.need)) e.recs.length e.deadline then State.runEntry { s with brn.waiting := rest } e else s) := by
  change execBrineReserveGrant s = _
  rw [execBrineReserveGrant, first]
  dsimp only
  rw [known]

theorem exec_brineReserveGrant_noWaiting (empty : s.brn.waiting = []) : exec .brineReserveGrant s = .next s := by
  change execBrineReserveGrant s = _
  rw [execBrineReserveGrant, empty]

theorem exec_mirrorBacklogRelease_full (full : s.backlogMax < s.backlog) : exec .mirrorBacklogRelease s = .next s :=
  congrArg Host.Outcome.next (if_pos full)

/-- The only held fetch goes on once the backlog is within its limit. -/
theorem exec_mirrorBacklogRelease_held {k : Nat} {c : Cmd} (room : s.backlog ≤ s.backlogMax) (held : s.brn.heldReads = [id])
    (known : s.ent? id = some e) (ofCmd : e.cmd = some k) (cmd : s.io? k = some c) :
    exec .mirrorBacklogRelease s = .next (State.fetchData { s with brn.heldReads := [] } c e) := by
  let t : State := { s with brn.heldReads := [] }
  have knownAfter : t.ent? id = some e := known
  have cmdAfter : e.cmd.bind t.io? = some c := by rw [ofCmd]; exact cmd
  have roomAfter : ¬t.backlog > t.backlogMax := Nat.not_lt.2 room
  change execMirrorBacklogRelease s = _
  rw [execMirrorBacklogRelease, if_neg (Nat.not_lt.2 room), held]
  dsimp only [List.foldl_cons, List.foldl_nil]
  rw [knownAfter]
  dsimp only
  rw [cmdAfter]
  exact congrArg Host.Outcome.next (if_neg roomAfter)

end

/-! ### The drain (R147) -/

section
variable {j : Nat} {e : BEnt}

/-- The entries of a journal that stand in its sequence and that the drain has not taken yet. -/
def State.drainable (s : State) (j : Nat) : List BEnt :=
  s.brn.ents.filter fun e => e.journal == j && e.jseq != 0 && (e.state == .loc || e.state == .staged)

theorem mem_drainable : e ∈ s.drainable j ↔ e ∈ s.brn.ents ∧ (e.journal = j ∧ e.jseq ≠ 0) ∧ (e.state = .loc ∨ e.state = .staged) := by
  simp only [State.drainable, List.mem_filter, Bool.and_eq_true, Bool.or_eq_true, beq_iff_eq, bne_iff_ne]

/-- What the drain takes next is one of them; it is staged unless the peer is out of service, and it waits for no map page. -/
theorem drainNext_drainable (next : s.drainNext j = some e) :
    e ∈ s.drainable j ∧ (e.state = .staged ∨ s.peerInService = false) ∧ s.drainWaits e = false := by
  unfold State.drainNext at next
  dsimp only at next
  split at next
  case h_1 x earliest =>
    have chosen : x ∈ s.drainable j := by
      refine List.foldlRecOn (motive := fun o => ∀ t, o = some t → t ∈ s.drainable j) _ _ (b := none) nofun (fun o ih y hy t ht => ?_) x earliest
      cases o with
      | none => exact Option.some.inj ht ▸ hy
      | some z =>
        dsimp only at ht
        split at ht
        · exact Option.some.inj ht ▸ hy
        · exact ih t ht
    obtain ⟨⟨goes, free⟩, same⟩ := Option.ite_none_right_eq_some.1 next
    cases same
    simp only [Bool.not_eq_true'] at goes free
    exact ⟨chosen, goes, free⟩
  case h_2 => cases next

theorem exec_drainTake_notHeld (other : s.heldJournals.contains j = false) : exec (.drainTake j) s = .next s := by
  change execDrainTake j s = _
  rw [execDrainTake, other]
  rfl

theorem exec_drainTake_idle (idle : s.drainNext j = none) : exec (.drainTake j) s = .next s := by
  change execDrainTake j s = _
  rw [execDrainTake, idle]
  exact congrArg _ (ite_self s)

/-- The drain starts the records of the entry that it takes, in their order. -/
theorem exec_drainTake (held : s.heldJournals.contains j = true) (next : s.drainNext j = some e) :
    exec (.drainTake j) s = .next (((((List.range e.recs.length).zip e.recs).foldl
      (fun (t : State) x => t.startRec { e with state := .draining } x.1 x.2) (s.putEnt { e with state := .draining })).pump j).sweepReads) := by
  change execDrainTake j s = _
  rw [execDrainTake, held, if_neg (by decide), next]

end

/-! ### Mirroring (R139, R153, R154) -/

section
variable {h : PtlHdr} {payload : Bytes}

theorem exec_mirrorRx_broken (broken : mirrorOk payload = false) : exec (.mirrorRx h payload) s = .next s := by
  change execMirrorRx h payload s = _
  rw [execMirrorRx, broken]
  rfl

theorem exec_mirrorRx (whole : mirrorOk payload = true) (o : s.InOrder 1 h) :
    exec (.mirrorRx h payload) s = .next (((s.taken 1 h).mirrorIn (s.whole 1 h payload)).stageCheck) := by
  change execMirrorRx h payload s = _
  rw [execMirrorRx, whole, State.onPtl_runs _ _ o]
  rfl

end

/-- Re-mirroring goes on while an unreleased entry is not mirrored. -/
theorem exec_remirrorDone_goesOn (waits : s.brn.remirror = false ∨ s.unreleased.all s.mirrored = false) : exec .remirrorDone s = .next s := by
  refine congrArg Host.Outcome.next (if_pos ?_)
  rcases waits with off | missing
  · rw [off]; rfl
  · rw [missing]; exact Bool.or_true _

/-- With every unreleased entry mirrored it ends; no replay waits for that, and the head is not on its way back to the pair. -/
theorem exec_remirrorDone {t : State} (on : s.brn.remirror = true) (mirrored : s.unreleased.all s.mirrored = true)
    (ends : State.stageCheck { s with brn.remirror := false, brn.alone := false } = t) (noReplay : t.brn.replaying = false)
    (noRejoin : t.pair.rejoinStep ≠ 3) : exec .remirrorDone s = .next t := by
  change execRemirrorDone s = _
  rw [execRemirrorDone, on, mirrored]
  dsimp only
  rw [ends, noReplay]
  exact congrArg _ (if_neg noRejoin)

/-! ### ACCEPT_BRINE_LOSS (R155) -/

/-- The checks of ACCEPT_BRINE_LOSS in their order: a loss to accept, the value that BRN_LOST_FROM shows. -/
theorem exec_acceptBrineLoss {n slot : Nat} {e : Entry} (h : s.CanRun 0x44 n slot e) :
    exec (.acceptBrineLoss n slot) s = .next (s.ended n slot e
      (if s.brn.lost = [] then .fail (s.begun n slot e) 0x0400
       else if e.num 10 8 ≠ s.lostFrom then .fail (s.begun n slot e) 0x0401
       else .done (State.reliabilityCheck { s.begun n slot e with brn.lost := [] }).anaChanged stOk [] [])) := by
  change execAcceptBrineLoss n slot s = _
  rw [execAcceptBrineLoss, State.packet_runs _ h]
  simp only [List.isEmpty_iff]
  rfl

end

/-- Settles O39: the reservation, held fetches, the drain, the mirror, the end of re-mirroring and a loss that is accepted. -/
theorem brineTakesDrainsAndMirrors : Obligations.BrineTakesDrainsAndMirrors := by
  unfold Obligations.BrineTakesDrainsAndMirrors
  refine ⟨?granted, fun s => exec_brineReserveGrant_noWaiting, fun s => exec_mirrorBacklogRelease_full,
    fun id k e c s => exec_mirrorBacklogRelease_held, ?drains, fun h payload s => ⟨exec_mirrorRx_broken, exec_mirrorRx⟩, ?remirrors, ?accepts⟩
  case granted =>
    intro id rest e s first known
    rw [exec_brineReserveGrant first known]
    exact ⟨fun room => by rw [if_pos room], fun full => by rw [full, if_neg Bool.false_ne_true]⟩
  case drains =>
    refine fun j s => ⟨exec_drainTake_notHeld, fun e held next noRecs => ?_, fun e r held next oneRec => ?_, exec_drainTake_idle, fun e next => ?_⟩
    · rw [exec_drainTake held next, noRecs]
      rfl
    · rw [exec_drainTake held next, oneRec]
      rfl
    · obtain ⟨chosen, goes, free⟩ := drainNext_drainable next
      obtain ⟨known, ⟨ofJournal, placed⟩, ready⟩ := mem_drainable.1 chosen
      exact ⟨ofJournal, known, placed, ready, goes, free⟩
  case remirrors =>
    exact fun s => ⟨fun off => exec_remirrorDone_goesOn (.inl off), fun _ missing => exec_remirrorDone_goesOn (.inr missing),
      fun t => exec_remirrorDone⟩
  case accepts =>
    intro n slot e s h
    rw [exec_acceptBrineLoss h]
    refine ⟨fun noLoss => ?_, fun loss other => ?_, fun loss read => ?_⟩
    · rw [if_pos noLoss, State.ended_fail]
    · rw [if_neg loss, if_pos other, State.ended_fail]
    · rw [if_neg loss, if_neg (not_not_intro read), State.ended_done]

end Sys2Proof.Machine
end

section
/-! The engines (07_data_reduction.md R181; 08_compression.md R205; 09_cipher_digest.md R220 to R222, R226, R227, R230): what the end of a segment, a watchdog
and a core fault do to a job, which job a free core is given to, when a context leaves its cluster, and how an offload job is checked and started, and
the statement about them. -/
namespace Sys2Proof.Machine

/-! ### Segments that end (R205, R220) and jobs that lose their core (R181, R230) -/

section
variable {s : State} {i : Nat} {j : Job}

theorem exec_engineSegmentDone_waiting (known : s.engJob? i = some j) (waits : j.core = none) : exec (.engineSegmentDone i) s = .next s := by
  change execEngineSegmentDone i s = _
  rw [execEngineSegmentDone, known]
  dsimp only
  rw [waits]
  rfl

/-- The segment that a job runs ends: the job goes on with its next one while it has one left and something still needs it. -/
theorem exec_engineSegmentDone {c : Nat} (known : s.engJob? i = some j) (runs : j.core = some c) :
    exec (.engineSegmentDone i) s = .next (if j.segs > 1 ∧ (s.countSeg j).jobWanted j = true then (s.countSeg j).nextSeg j
      else ((((s.countSeg j).jobDone j).goErase).sweepReads).replPump) := by
  change execEngineSegmentDone i s = _
  rw [execEngineSegmentDone, known]
  dsimp only
  rw [runs]
  rfl

theorem exec_engineJobWatchdog_waiting (known : s.engJob? i = some j) (waits : j.core = none) : exec (.engineJobWatchdog i) s = .next s := by
  change execEngineJobWatchdog i s = _
  rw [execEngineJobWatchdog, known]
  dsimp only
  rw [waits]
  rfl

theorem exec_engineJobWatchdog {c : Nat} (known : s.engJob? i = some j) (runs : j.core = some c) :
    exec (.engineJobWatchdog i) s = .next (s.countEngine.reissueJob (fun x => some x == j.core) j) := by
  change execEngineJobWatchdog i s = _
  rw [execEngineJobWatchdog, known]
  dsimp only
  rw [runs]
  rfl

theorem countSeg_cipher (cipher : j.engine = 3) : s.countSeg j = (s.bump R.CIP_SEG_CNT).bumpBy R.CIP_BYTE_CNT j.segBytes := if_pos cipher

theorem countSeg_digest (digest : j.engine = 2) : s.countSeg j = (s.bump R.DIG_SEG_CNT).bumpBy R.DIG_BYTE_CNT j.segBytes := by
  rw [State.countSeg, digest, if_neg (by decide), if_pos rfl]

theorem reissueJob_running {c : Nat} (bad : Nat → Bool) (runs : j.core = some c) :
    s.reissueJob bad j = (s.putEngJob { j with core := none, lost := some (c, (s.coresUp j.engine).filter bad) }).fillEngine j.engine := by
  rw [State.reissueJob, runs]

end

/-! ### The job that a free core is given to (R181, R205, R221) -/

section
variable {s : State} {engine : Nat} {j : Job}

theorem fillCores_noneDue (noneDue : s.nextJob engine = none) (n : Nat) : s.fillCores engine n = s := by
  cases n with
  | zero => rfl
  | succ n => rw [State.fillCores, noneDue]

theorem fillEngine_noneDue (noneDue : s.nextJob engine = none) : s.fillEngine engine = s := by
  rw [State.fillEngine, fillCores_noneDue noneDue, ite_self]

/-- The cores that a job may have serve its engine, and while others serve they are not among those that it lost. -/
theorem mem_coresFor {c : Nat} (may : c ∈ s.coresFor j) :
    c ∈ s.coresUp j.engine ∧
      ∀ l, j.lost = some l → (s.coresUp j.engine).any (fun x => !l.2.contains x) = true → l.2.contains c = false := by
  unfold State.coresFor at may
  extract_lets all up here at may
  have kept : c ∈ up → c ∈ all ∧ ∀ l, j.lost = some l → all.any (fun x => !l.2.contains x) = true → l.2.contains c = false := by
    intro inUp
    obtain ⟨serves, notLost⟩ := List.mem_filter.1 inUp
    exact ⟨serves, fun l lost _ => by simpa [lost] using notLost⟩
  split at may
  · exact kept (List.mem_filter.1 may).1
  · split at may
    · exact kept may
    · next noneUp =>
      refine ⟨may, fun l lost others => ?_⟩
      obtain ⟨x, serves, notLost⟩ := List.any_eq_true.1 others
      have inUp : x ∈ up := List.mem_filter.2 ⟨serves, by simpa [lost] using notLost⟩
      simp [List.ne_nil_of_mem inUp] at noneUp

theorem coreFor_mem {c : Nat} (gets : s.coreFor j = some c) : c ∈ s.coresFor j ∧ s.coreIdle c = true :=
  ⟨List.mem_of_find?_eq_some gets, List.find?_some gets⟩

theorem mem_jobsDue (due : j ∈ s.jobsDue engine) : j ∈ s.red.jobs ∧ j.engine = engine ∧ j.core = none ∧ ∃ c, s.coreFor j = some c := by
  obtain ⟨known, waits⟩ := List.mem_filter.1 due
  simp only [Bool.and_eq_true, beq_iff_eq, Option.isNone_iff_eq_none, Option.isSome_iff_exists] at waits
  obtain ⟨⟨⟨ofEngine, noCore⟩, core⟩, -⟩ := waits
  exact ⟨known, ofEngine, noCore, core⟩

theorem jobRank_le_of_jobBefore {a b : Job} (first : s.jobBefore a b = true) : s.jobRank a ≤ s.jobRank b := by
  simp only [State.jobBefore, Bool.or_eq_true, Bool.and_eq_true, decide_eq_true_eq, beq_iff_eq] at first
  omega

theorem jobRank_le_of_not_jobBefore {a b : Job} (behind : ¬s.jobBefore a b = true) : s.jobRank b ≤ s.jobRank a := by
  simp only [State.jobBefore, Bool.or_eq_true, decide_eq_true_eq, not_or] at behind
  omega

/-- A job of a list is of no worse class than any other of it. -/
def State.Leads (s : State) (j : Job) (jobs : List Job) : Prop := j ∈ jobs ∧ ∀ k ∈ jobs, s.jobRank j ≤ s.jobRank k

/-- The job that leads so far, and the one that comes next in the order of becoming ready: the scheduler goes on with one of them. -/
def State.better (s : State) : Option Job → Job → Option Job
  | none, j => some j
  | some b, j => if s.jobBefore j b then some j else some b

theorem better_some (b y : Job) :
    ∃ z, s.better (some b) y = some z ∧ (z = b ∨ z = y) ∧ s.jobRank z ≤ s.jobRank b ∧ s.jobRank z ≤ s.jobRank y := by
  rw [State.better]
  split
  · next first => exact ⟨y, rfl, .inr rfl, jobRank_le_of_jobBefore first, Nat.le_refl _⟩
  · next behind => exact ⟨b, rfl, .inl rfl, Nat.le_refl _, jobRank_le_of_not_jobBefore behind⟩

theorem leads_foldl_better_some {b : Job} {due : List Job} (last : due.foldl s.better (some b) = some j) : s.Leads j (b :: due) := by
  induction due generalizing b with
  | nil =>
    cases last
    simp [State.Leads]
  | cons y ys ih =>
    obtain ⟨z, goesOn, which, leB, leY⟩ := better_some (s := s) b y
    rw [List.foldl_cons, goesOn] at last
    obtain ⟨known, least⟩ := ih last
    have leZ := least z List.mem_cons_self
    refine ⟨by grind, fun k other => ?_⟩
    rcases List.mem_cons.1 other with rfl | other
    · omega
    · rcases List.mem_cons.1 other with rfl | behind
      · omega
      · exact least k (List.mem_cons_of_mem _ behind)

theorem leads_foldl_better {due : List Job} (last : due.foldl s.better none = some j) : s.Leads j due := by
  cases due with
  | nil => cases last
  | cons y ys => exact leads_foldl_better_some last

/-- A job that leads those that are due goes next, but on the compression and decompression engines the share of the offload segments can be due where
no booked job waits. -/
theorem nextJob_leads {saved : Nat} (next : s.nextJob engine = some (j, saved)) :
    s.Leads j (s.jobsDue engine) ∨ (engine ≤ 1 ∧ j ∈ s.jobsDue engine ∧ ∃ b, s.Leads b (s.jobsDue engine) ∧ s.jobRank b = 2) := by
  unfold State.nextJob at next
  extract_lets due share at next
  clear_value share
  split at next
  · cases next
  · next b last =>
    have leads : s.Leads b due := by
      refine leads_foldl_better (Eq.trans ?_ last)
      congr 1
      funext o y
      cases o <;> rfl
    split at next
    · next o offload =>
      split at next
      · next shared =>
        split at next <;> cases next
        · exact .inr ⟨shared.1, List.mem_of_find?_eq_some offload, b, leads, shared.2⟩
        · exact .inl leads
      · cases next
        exact .inl leads
    · cases next
      exact .inl leads

theorem nextJob_mem_jobsDue {saved : Nat} (next : s.nextJob engine = some (j, saved)) : j ∈ s.jobsDue engine := by
  rcases nextJob_leads next with leads | ⟨-, due, -⟩
  · exact leads.1
  · exact due

/-- Booked work goes first on every engine. -/
theorem nextJob_booked {saved : Nat} {k : Job} (next : s.nextJob engine = some (j, saved)) (waits : k ∈ s.jobsDue engine)
    (booked : s.jobRank k = 0) : s.jobRank j = 0 := by
  rcases nextJob_leads next with ⟨-, least⟩ | ⟨-, -, b, ⟨-, least⟩, unbooked⟩ <;> have := least k waits <;> omega

/-- The cipher and digest engines know no share of the offload segments. -/
theorem nextJob_least {saved : Nat} (next : s.nextJob engine = some (j, saved)) (keyed : engine = 2 ∨ engine = 3) :
    ∀ k ∈ s.jobsDue engine, s.jobRank j ≤ s.jobRank k := by
  rcases nextJob_leads next with ⟨-, least⟩ | ⟨reducing, -⟩
  · exact least
  · omega

end

/-! ### A core or a cluster fails (R181, R230) -/

/-- The cores that the failure of a core or of a cluster touches. -/
def coreFails (u c : Nat) : Bool := if unitClass u = 4 then c == unitIndex u else coreCluster c == unitIndex u

section
variable {s : State} {u : Nat} {hard : Bool}

theorem coreFails_core (core : unitClass u = 4) : coreFails u = fun c => c == unitIndex u := funext fun _ => if_pos core

theorem coreFails_cluster (cluster : unitClass u = 3) : coreFails u = fun c => coreCluster c == unitIndex u :=
  funext fun _ => if_neg (by omega)

theorem exec_engineCoreFault_outOfService (out : (s.ust u).serving = false) : exec (.engineCoreFault u hard) s = .next s := by
  change execEngineCoreFault u hard s = _
  rw [execEngineCoreFault, out, if_pos (by simp)]

/-- A core or a cluster that serves fails: every job that runs there is issued again; without one the fault is recorded as corrected. -/
theorem exec_engineCoreFault (kind : unitClass u = 4 ∨ unitClass u = 3) (valid : unitValid u = true) (serves : (s.ust u).serving = true) :
    exec (.engineCoreFault u hard) s = .next (
      let t := (if hard then s.engineOut u else s).countEngine
      let hit := s.red.jobs.filter fun j => j.core.any (coreFails u)
      if hit.isEmpty then t.event 0x08 evcCorrected 3 u [] else hit.foldl (fun (s : State) j => s.reissueJob (coreFails u) j) t) := by
  have notClassifier : u ≠ 0x200005 := by
    rintro rfl
    revert kind
    decide
  have reacts : ¬((!unitValid u || !(unitClass u == 3 || unitClass u == 4 || u == 0x200005) || !(s.ust u).serving) = true) := by
    rcases kind with core | cluster <;> simp [*]
  change execEngineCoreFault u hard s = _
  rw [execEngineCoreFault, if_neg reacts]
  dsimp only
  rw [if_neg notClassifier]
  rfl

/-- The only job of the engines runs on a core that the failure touches. -/
theorem exec_engineCoreFault_reissues {j : Job} {c : Nat} (kind : unitClass u = 4 ∨ unitClass u = 3) (valid : unitValid u = true)
    (serves : (s.ust u).serving = true) (only : s.red.jobs = [j]) (runs : j.core = some c) (touched : coreFails u c = true) :
    exec (.engineCoreFault u false) s = .next (s.countEngine.reissueJob (coreFails u) j) := by
  rw [exec_engineCoreFault kind valid serves]
  simp [only, runs, touched]

theorem exec_engineCoreFault_idle (core : unitClass u = 4) (valid : unitValid u = true) (serves : (s.ust u).serving = true)
    (idle : ∀ j ∈ s.red.jobs, j.core ≠ some (unitIndex u)) :
    exec (.engineCoreFault u hard) s =
      .next ((if hard then s.engineOut u else s).countEngine.event 0x08 evcCorrected 3 u []) := by
  have noJob : (s.red.jobs.filter fun j => j.core.any (coreFails u)) = [] := by
    refine List.filter_eq_nil_iff.2 fun j known => ?_
    rw [coreFails_core core, Option.any_eq_true]
    rintro ⟨c, runs, same⟩
    exact idle j known (runs.trans (congrArg some (beq_iff_eq.1 same)))
  rw [exec_engineCoreFault (.inl core) valid serves]
  dsimp only
  rw [noJob]
  rfl

end

/-! ### Contexts leave their cluster (R222) -/

/-- The contexts of an engine that are resident: of the digest engine, in one of its clusters. -/
def State.residentOn (s : State) (engine cluster : Nat) : List EngCtx :=
  s.keys.ctxs.filter fun c => c.engine == engine && !c.saved && (engine == 3 || c.cluster == cluster)

section
variable {s : State} {engine cluster : Nat}

theorem exec_contextSaveDone_within (within : (s.residentOn engine cluster).length ≤ if engine = 3 then 4032 else 252) :
    exec (.contextSaveDone engine cluster) s = .next s :=
  congrArg Host.Outcome.next (if_pos (.inr within))

/-- Past the limit the least recently scheduled one of them is saved. -/
theorem exec_contextSaveDone {v : EngCtx} {rest : List EngCtx} (keyed : engine = 2 ∨ engine = 3) (first : s.residentOn engine cluster = v :: rest)
    (past : (if engine = 3 then 4032 else 252) < (s.residentOn engine cluster).length) :
    exec (.contextSaveDone engine cluster) s = .next (State.bump { s with
      keys.ctxs := mapIf (fun (c : EngCtx) => c == v) (fun c => { c with saved := true }) s.keys.ctxs }
        (if engine = 2 then R.DIG_SAVE_CNT else R.CIP_SAVE_CNT)) := by
  have full : ¬((engine ≠ 2 ∧ engine ≠ 3) ∨ (s.residentOn engine cluster).length ≤ if engine = 3 then 4032 else 252) := by omega
  refine congrArg Host.Outcome.next ((if_neg full).trans ?_)
  change (match s.residentOn engine cluster with | [] => s | v :: _ => _) = _
  rw [first]

end

/-! ### Offload jobs (R197, R205, R226, R227) -/

section
variable {s : State} {n slot : Nat} {e : Entry}

section
variable {comp : Bool} {src ctx : Bytes}

/-- The job of a compression or decompression packet. -/
def cmpOff (n slot : Nat) (e : Entry) (src ctx : Bytes) : OffJob :=
  ⟨0, packetRef n slot e, e.opcode, e.bytes, slice src 0 (e.num 24 4), [], slice ctx 0 69632, 0, 0⟩

/-- The segments of a compression or decompression job. -/
def cmpSegs (comp : Bool) (e : Entry) (src : Bytes) : Nat :=
  if comp then ceilDiv (slice src 0 (e.num 24 4)).length (if e.num 12 1 = 4 then 8192 else 16384) else ceilDiv (e.num 36 4) 32768

/-- The checks of a compression or decompression job in their order: fields, engine enabled, a core that serves, keys and context, the context's content. -/
theorem exec_cmpJob (h : s.CanRun (if comp then 0x68 else 0x69) n slot e) :
    exec (if comp then .compressJob n slot src ctx else .decompressJob n slot src ctx) s = .next (s.ended n slot e
      (if !cmpFieldsOk e comp then .fail (s.begun n slot e) stInvalidField
       else if s.fld R.CMP_CFG 0 0 = 0 then .refuse (s.begun n slot e) e.opcode 0x060A 0
       else if s.coresUp (offEngine e.opcode) = [] then .fail (s.begun n slot e) stUnitFailed
       else if s.keys.erased ∨ ((e.num 14 1).testBit 1 ∧ (s.begun n slot e).ctxHeld (e.num 40 8)) then .fail (s.begun n slot e) stBusy
       else if (e.num 14 1).testBit 1 ∧ !(cmpOff n slot e src ctx).first ∧ cmpCtxBad e comp (slice ctx 0 69632) then
         .refuse (s.begun n slot e) e.opcode 0x0609 0
       else .quiet ((s.begun n slot e).startOff (cmpOff n slot e src ctx) (cmpSegs comp e src)))) := by
  cases comp
  case true => exact congrArg Host.Outcome.next (State.packet_runs _ h)
  case false => exact congrArg Host.Outcome.next (State.packet_runs _ h)

theorem exec_cmpJob_badFields (h : s.CanRun (if comp then 0x68 else 0x69) n slot e) (bad : cmpFieldsOk e comp = false) :
    exec (if comp then .compressJob n slot src ctx else .decompressJob n slot src ctx) s =
      .next ((s.begun n slot e).replied n slot e stInvalidField [] []) := by
  rw [exec_cmpJob h, bad, if_pos (by decide), State.ended_fail]

section
variable (h : s.CanRun (if comp then 0x68 else 0x69) n slot e) (good : cmpFieldsOk e comp = true) (on : s.fld R.CMP_CFG 0 0 ≠ 0)
include h good on

theorem exec_cmpJob_noCores (noCores : s.coresUp (offEngine e.opcode) = []) :
    exec (if comp then .compressJob n slot src ctx else .decompressJob n slot src ctx) s =
      .next ((s.begun n slot e).replied n slot e stUnitFailed [] []) := by
  rw [exec_cmpJob h, good, if_neg (by decide), if_neg on, if_pos noCores, State.ended_fail]

theorem exec_cmpJob_erased (cores : s.coresUp (offEngine e.opcode) ≠ []) (erased : s.keys.erased = true) :
    exec (if comp then .compressJob n slot src ctx else .decompressJob n slot src ctx) s =
      .next ((s.begun n slot e).replied n slot e stBusy [] []) := by
  rw [exec_cmpJob h, good, if_neg (by decide), if_neg on, if_neg cores, if_pos (.inl erased), State.ended_fail]

/-- A job without a context starts. -/
theorem exec_cmpJob_starts (cores : s.coresUp (offEngine e.opcode) ≠ []) (keyed : s.keys.erased = false)
    (noCtx : (e.num 14 1).testBit 1 = false) :
    exec (if comp then .compressJob n slot src ctx else .decompressJob n slot src ctx) s =
      .next ((s.begun n slot e).startOff (cmpOff n slot e src ctx) (cmpSegs comp e src)) := by
  rw [exec_cmpJob h, good, if_neg (by decide), if_neg on, if_neg cores, if_neg (by simp [keyed, noCtx]), if_neg (by simp [noCtx]),
    State.ended_quiet]

end
end

section
variable {src aad ctx : Bytes}

/-- The job of a cipher packet; the input of GCM decryption ends with the tag. -/
def cipherOff (n slot : Nat) (e : Entry) (src aad ctx : Bytes) (gen : Nat) : OffJob :=
  let o : OffJob := ⟨0, packetRef n slot e, 0x64, e.bytes, slice src 0 (e.num 24 4 + 16), slice aad 0 (e.num 52 2), slice ctx 0 512, gen, 0⟩
  { o with src := if e.num 10 1 = 3 ∧ o.last then o.src else o.src.take (e.num 24 4) }

/-- A cipher job that has passed its checks starts; the first one of a GCM encryption takes an invocation value. -/
def State.startCipher (s : State) (e : Entry) (o : OffJob) : PktRes :=
  if e.num 10 1 = 2 ∧ o.first then
    if (s.takeInvoc (e.num 12 2)).1 ≥ 2 ^ 32 then .refuse s 0x64 0x0704 0
    else .quiet ((s.takeInvoc (e.num 12 2)).2.startOff { o with invoc := (s.takeInvoc (e.num 12 2)).1 } (ceilDiv (e.num 24 4) 4096))
  else .quiet (s.startOff o (ceilDiv (e.num 24 4) 4096))

/-- The checks of a cipher job in their order: fields, engine enabled, a core that serves, the key page, keys and context, the context's content, the
limits of the stream. -/
theorem exec_cipherJob {k : KeyPage} {o : OffJob} (h : s.CanRun 0x64 n slot e) (page : s.kpage (e.num 12 2) = k)
    (job : cipherOff n slot e src aad ctx k.gen = o) :
    exec (.cipherJob n slot src aad ctx) s = .next (s.ended n slot e
      (if !cipherFieldsOk e then .fail (s.begun n slot e) stInvalidField
       else if s.fld R.CIP_CFG 0 0 = 0 then .refuse (s.begun n slot e) 0x64 0x070A 0
       else if s.coresUp 3 = [] then .fail (s.begun n slot e) stUnitFailed
       else if k.state ≠ .live then .refuse (s.begun n slot e) 0x64 0x0700 k.state.code
       else if k.busy then .refuse (s.begun n slot e) 0x64 0x070B 0
       else if !k.offloadOk ∨ k.usage ≠ (if e.num 10 1 ≤ 1 then 1 else 2) then .refuse (s.begun n slot e) 0x64 0x0701 0
       else if s.keys.erased ∨ ((e.num 11 1).testBit 2 ∧ (s.begun n slot e).ctxHeld (e.num 56 8)) then .fail (s.begun n slot e) stBusy
       else if (e.num 11 1).testBit 2 ∧ !o.first ∧ engCtxBad 0 (e.num 10 1) (e.num 12 2) k.gen (slice ctx 0 512) then
         .refuse (s.begun n slot e) 0x64 0x0708 0
       else if (e.num 10 1 ≤ 1 ∧ (o.total + e.num 24 4 > 16777216 ∨ (o.last ∧ o.total + e.num 24 4 < 16))) ∨
           (e.num 10 1 ≥ 2 ∧ o.total + e.num 24 4 > 2 ^ 36 - 32) then .fail (s.begun n slot e) stInvalidField
       else (s.begun n slot e).startCipher e o)) := by
  subst page job
  exact congrArg Host.Outcome.next (State.packet_runs _ h)

theorem exec_cipherJob_badFields (h : s.CanRun 0x64 n slot e) (bad : cipherFieldsOk e = false) :
    exec (.cipherJob n slot src aad ctx) s = .next ((s.begun n slot e).replied n slot e stInvalidField [] []) := by
  rw [exec_cipherJob h rfl rfl, bad, if_pos (by decide), State.ended_fail]

section
variable {k : KeyPage} (h : s.CanRun 0x64 n slot e) (page : s.kpage (e.num 12 2) = k) (good : cipherFieldsOk e = true)
  (on : s.fld R.CIP_CFG 0 0 ≠ 0) (cores : s.coresUp 3 ≠ [])
include h page good on cores

theorem exec_cipherJob_notLive (notLive : k.state ≠ .live) :
    exec (.cipherJob n slot src aad ctx) s = .next (((s.begun n slot e).bump R.CIP_JOB_ERR_CNT).replied n slot e 0x0700
      (leBytes 4 0 ++ leBytes 4 k.state.code) []) := by
  rw [exec_cipherJob h page rfl, good, if_neg (by decide), if_neg on, if_neg cores, if_pos notLive]
  rfl

theorem exec_cipherJob_busy (live : k.state = .live) (busy : k.busy = true) :
    exec (.cipherJob n slot src aad ctx) s = .next (((s.begun n slot e).bump R.CIP_JOB_ERR_CNT).replied n slot e 0x070B
      (leBytes 4 0 ++ leBytes 4 0) []) := by
  rw [exec_cipherJob h page rfl, good, if_neg (by decide), if_neg on, if_neg cores, if_neg (not_not_intro live), if_pos busy]
  rfl

/-- The first job of an XTS encryption, where it needs no context, starts on a LIVE page that allows offload. -/
theorem exec_cipherJob_xts (live : k.state = .live) (free : k.busy = false) (offload : k.offloadOk = true) (xts : k.usage = 1) (op : e.num 10 1 = 0)
    (keyed : s.keys.erased = false) (noCtx : (e.num 11 1).testBit 2 = false)
    (first : (e.num 11 1).testBit 0 = true) (long : 16 ≤ e.num 24 4) (short : e.num 24 4 ≤ 16777216) :
    exec (.cipherJob n slot src aad ctx) s = .next ((s.begun n slot e).startOff ⟨0, packetRef n slot e, 0x64, e.bytes,
      (slice src 0 (e.num 24 4 + 16)).take (e.num 24 4), slice aad 0 (e.num 52 2), slice ctx 0 512, k.gen, 0⟩ (ceilDiv (e.num 24 4) 4096)) := by
  have whole : (cipherOff n slot e src aad ctx k.gen).total = 0 := if_pos first
  rw [exec_cipherJob h page rfl, good, if_neg (by decide), if_neg on, if_neg cores, if_neg (not_not_intro live), if_neg (by simp [free]),
    if_neg (by simp [offload, xts, op]), if_neg (by simp [keyed, noCtx]), if_neg (by simp [noCtx]), if_neg (by omega), State.startCipher, op,
    if_neg (by omega), State.ended_quiet, cipherOff, op]
  rfl

end
end

section
variable {src ctx : Bytes}

/-- The job of a digest packet; one with HMAC is bound to the generation of its key slot. -/
def digestOff (n slot : Nat) (e : Entry) (src ctx : Bytes) (gen : Nat) : OffJob :=
  ⟨0, packetRef n slot e, 0x65, e.bytes, slice src 0 (e.num 24 4), [], slice ctx 0 512, if (e.num 11 1).testBit 3 then gen else 0, 0⟩

/-- The checks of a digest job in their order: fields, engine enabled, a core that serves, for HMAC the key slot, keys and context, the context's content. -/
theorem exec_digestJob {k : KeySlot} {o : OffJob} {mac : Bool} (h : s.CanRun 0x65 n slot e) (key : s.kslot (e.num 12 1) = k)
    (hmac : (e.num 11 1).testBit 3 = mac) (job : digestOff n slot e src ctx k.gen = o) :
    exec (.digestJob n slot src ctx) s = .next (s.ended n slot e
      (if !digestFieldsOk e then .fail (s.begun n slot e) stInvalidField
       else if s.fld R.DIG_CFG 0 0 = 0 then .refuse (s.begun n slot e) 0x65 0x070A 0
       else if s.coresUp 2 = [] then .fail (s.begun n slot e) stUnitFailed
       else if mac ∧ k.state ≠ .live then .refuse (s.begun n slot e) 0x65 0x0700 k.state.code
       else if mac ∧ k.busy = true then .refuse (s.begun n slot e) 0x65 0x070B 0
       else if mac ∧ (!k.offloadOk ∨ k.hash ≠ e.num 10 1) then .refuse (s.begun n slot e) 0x65 0x0701 0
       else if s.keys.erased ∨ ((e.num 11 1).testBit 2 ∧ (s.begun n slot e).ctxHeld (e.num 40 8)) then .fail (s.begun n slot e) stBusy
       else if (e.num 11 1).testBit 2 ∧ !o.first ∧
           engCtxBad 1 (e.num 10 1 + 128 * b2n mac) (if mac then e.num 12 1 else 0) o.keyGen (slice ctx 0 512) then
         .refuse (s.begun n slot e) 0x65 0x0708 0
       else .quiet ((s.begun n slot e).startOff o (ceilDiv (e.num 24 4) 4096)))) := by
  subst key hmac job
  exact congrArg Host.Outcome.next (State.packet_runs _ h)

theorem exec_digestJob_badFields (h : s.CanRun 0x65 n slot e) (bad : digestFieldsOk e = false) :
    exec (.digestJob n slot src ctx) s = .next ((s.begun n slot e).replied n slot e stInvalidField [] []) := by
  rw [exec_digestJob h rfl rfl rfl, bad, if_pos (by decide), State.ended_fail]

/-- A digest without a key and without a context starts. -/
theorem exec_digestJob_plain (h : s.CanRun 0x65 n slot e) (good : digestFieldsOk e = true) (on : s.fld R.DIG_CFG 0 0 ≠ 0) (cores : s.coresUp 2 ≠ [])
    (noMac : (e.num 11 1).testBit 3 = false) (keyed : s.keys.erased = false) (noCtx : (e.num 11 1).testBit 2 = false) :
    exec (.digestJob n slot src ctx) s = .next ((s.begun n slot e).startOff
      ⟨0, packetRef n slot e, 0x65, e.bytes, slice src 0 (e.num 24 4), [], slice ctx 0 512, 0, 0⟩ (ceilDiv (e.num 24 4) 4096)) := by
  have noKey {p : Prop} : ¬(false = true ∧ p) := fun mac => Bool.false_ne_true mac.1
  rw [exec_digestJob h rfl noMac rfl, good, if_neg (by decide), if_neg on, if_neg cores, if_neg noKey, if_neg noKey, if_neg noKey,
    if_neg (by simp [keyed, noCtx]), if_neg (by simp [noCtx]), State.ended_quiet, digestOff, noMac]
  rfl

end
end

/-- Settles O40: segments and watchdogs, the reissue, the order of the scheduler, core faults, contexts, then the offload jobs of each engine. -/
theorem engineJobsRunAndAreReissued : Obligations.EngineJobsRunAndAreReissued := by
  unfold Obligations.EngineJobsRunAndAreReissued
  refine ⟨?segments, fun bad j s c => reissueJob_running bad, fun engine s => fillEngine_noneDue, ?scheduled, ?faults, ?contexts, ?reducing,
    ?ciphers, ?digests⟩
  case segments =>
    intro i j s known
    refine ⟨fun waits => ⟨exec_engineSegmentDone_waiting known waits, exec_engineJobWatchdog_waiting known waits⟩, fun c runs => ?_,
      countSeg_cipher, countSeg_digest⟩
    rw [exec_engineSegmentDone known runs]
    refine ⟨fun more wanted => ?_, fun ends => ?_, exec_engineJobWatchdog known runs⟩
    · rw [if_pos ⟨more, wanted⟩]
    · rw [if_neg]
      rintro ⟨more, wanted⟩
      rcases ends with last | unwanted
      · omega
      · rw [unwanted] at wanted
        cases wanted
  case scheduled =>
    intro engine saved j s next
    obtain ⟨known, rfl, waits, c, gets⟩ := mem_jobsDue (nextJob_mem_jobsDue next)
    obtain ⟨may, idle⟩ := coreFor_mem gets
    exact ⟨known, rfl, waits, ⟨c, gets, (mem_coresFor may).1, idle, (mem_coresFor may).2⟩, fun k => nextJob_booked next, nextJob_least next⟩
  case faults =>
    refine fun u s => ⟨fun core valid serves j only runs => ?_, fun cluster valid serves j c only runs here => ?_, fun core valid serves idle => ?_,
      fun out => ⟨exec_engineCoreFault_outOfService out, exec_engineCoreFault_outOfService out⟩⟩
    · rw [← coreFails_core core]
      exact exec_engineCoreFault_reissues (.inl core) valid serves only runs (by simp [coreFails_core core])
    · rw [← coreFails_cluster cluster]
      exact exec_engineCoreFault_reissues (.inr cluster) valid serves only runs (by simp [coreFails_cluster cluster, here])
    · exact ⟨exec_engineCoreFault_idle core valid serves idle, exec_engineCoreFault_idle core valid serves idle⟩
  case contexts =>
    exact fun engine cluster s keyed => ⟨exec_contextSaveDone_within, fun v rest => exec_contextSaveDone keyed⟩
  case reducing =>
    intro comp n slot src ctx e s h
    refine ⟨exec_cmpJob_badFields h, exec_cmpJob_noCores h, exec_cmpJob_erased h, fun good on cores keyed noCtx => ?_⟩
    have starts := exec_cmpJob_starts (src := src) (ctx := ctx) h good on cores keyed noCtx
    exact ⟨fun compresses => by subst compresses; exact starts, fun decompresses => by subst decompresses; exact starts⟩
  case ciphers =>
    refine fun n slot src aad ctx e s h => ⟨exec_cipherJob_badFields h, fun good on cores => ⟨exec_cipherJob_notLive h rfl good on cores,
      exec_cipherJob_busy h rfl good on cores, fun live free offload xts op keyed noCtx _ => ?_⟩⟩
    exact exec_cipherJob_xts h rfl good on cores live free offload xts op keyed noCtx
  case digests =>
    exact fun n slot src ctx e s h => ⟨exec_digestJob_badFields h, exec_digestJob_plain h⟩

end Sys2Proof.Machine
end

section
/-! Dedup domains (07_data_reduction.md R182 to R185) and the codec generation (08_compression.md R192, R193): the checks of each packet in their order and
what it stores, and the statement about them. -/
namespace Sys2Proof.Machine

section
variable {s : State} {n slot : Nat} {e : Entry}

@[simp] theorem begun_dom? (id : Nat) : (s.begun n slot e).dom? id = s.dom? id := rfl

/-! ### CREATE_DEDUP_DOMAIN (R182, R185) -/

/-- The domain that a CREATE_DEDUP_DOMAIN packet asks for. -/
def domainOf (e : Entry) : Domain := { id := e.num 10 1, slot := e.num 11 1, keyPage := e.num 12 2, k := e.num 14 1, ana := e.num 16 2 }

/-- The checks of CREATE_DEDUP_DOMAIN in their order: the group's owner, the fields, the number, the key slot, the room for the partition, the entropy. -/
theorem exec_createDedupDomain {d : Domain} (h : s.CanRun 0x60 n slot e) (asked : domainOf e = d) (ok : Bool) :
    exec (.createDedupDomain n slot ok) s = .next (s.ended n slot e
      (if 1 ≤ d.ana ∧ d.ana ≤ 1024 ∧ !s.ownsGroup d.ana then .fail (s.begun n slot e) stNotOwner
       else if d.id = 0 ∨ d.keyPage > 4095 ∨ d.k < 16 ∨ d.k > 32 ∨ !e.zero 15 1 ∨ d.ana < 1 ∨ d.ana > 1024 ∨
           !(s.kpage d.keyPage).mediaKey then .fail (s.begun n slot e) stInvalidField
       else if (s.dom? d.id).isSome then .fail (s.begun n slot e) 0x0500
       else if (s.kslot d.slot).state ≠ .empty then .fail (s.begun n slot e) 0x0501
       else if !s.domainFits d.k then .fail (s.begun n slot e) 0x0502
       else if !ok then .fail (s.begun n slot e) stUnitFailed
       else ((((s.begun n slot e).generateSlot { s.kslot d.slot with cfg := 0x41, len := 32 }).putDom d).placeCfg d.record).cfgDone
         (packetRef n slot e) [])) := by
  subst asked
  exact congrArg Host.Outcome.next (State.packet_runs _ h)

theorem exec_createDedupDomain_notOwner {d : Domain} (h : s.CanRun 0x60 n slot e) (asked : domainOf e = d) (lo : 1 ≤ d.ana) (hi : d.ana ≤ 1024)
    (other : s.ownsGroup d.ana = false) (ok : Bool) :
    exec (.createDedupDomain n slot ok) s = .next ((s.begun n slot e).replied n slot e stNotOwner [] []) := by
  rw [exec_createDedupDomain h asked, if_pos ⟨lo, hi, by rw [other]; rfl⟩, State.ended_fail]

/-- The fields of a CREATE_DEDUP_DOMAIN packet are ones that R182 allows, and the head serves the group. -/
structure State.DomainFields (s : State) (e : Entry) (d : Domain) : Prop where
  asked : domainOf e = d
  group : 1 ≤ d.ana
  groupMax : d.ana ≤ 1024
  owns : s.ownsGroup d.ana = true
  number : d.id ≠ 0
  page : d.keyPage ≤ 4095
  size : 16 ≤ d.k
  sizeMax : d.k ≤ 32
  reserved : e.zero 15 1 = true
  mediaKey : (s.kpage d.keyPage).mediaKey = true

section
variable {d : Domain} (h : s.CanRun 0x60 n slot e) (good : s.DomainFields e d)
include h good

/-- With fields that are allowed, what remains is the number, the key slot, the room and the entropy. -/
theorem exec_createDedupDomain_good (ok : Bool) :
    exec (.createDedupDomain n slot ok) s = .next (s.ended n slot e
      (if (s.dom? d.id).isSome then .fail (s.begun n slot e) 0x0500
       else if (s.kslot d.slot).state ≠ .empty then .fail (s.begun n slot e) 0x0501
       else if !s.domainFits d.k then .fail (s.begun n slot e) 0x0502
       else if !ok then .fail (s.begun n slot e) stUnitFailed
       else ((((s.begun n slot e).generateSlot { s.kslot d.slot with cfg := 0x41, len := 32 }).putDom d).placeCfg d.record).cfgDone
         (packetRef n slot e) [])) := by
  obtain ⟨asked, group, groupMax, owns, number, page, size, sizeMax, reserved, mediaKey⟩ := good
  have allowed : ¬(d.id = 0 ∨ d.keyPage > 4095 ∨ d.k < 16 ∨ d.k > 32 ∨ (!e.zero 15 1) = true ∨ d.ana < 1 ∨ d.ana > 1024 ∨
      (!(s.kpage d.keyPage).mediaKey) = true) := by
    simp only [reserved, mediaKey, Bool.not_true, Bool.false_eq_true, or_false, false_or]
    omega
  rw [exec_createDedupDomain h asked, if_neg (by simp [owns]), if_neg allowed]

theorem exec_createDedupDomain_exists (known : (s.dom? d.id).isSome = true) (ok : Bool) :
    exec (.createDedupDomain n slot ok) s = .next ((s.begun n slot e).replied n slot e 0x0500 [] []) := by
  rw [exec_createDedupDomain_good h good, if_pos known, State.ended_fail]

section
variable (new : s.dom? d.id = none)
include new

theorem exec_createDedupDomain_slotTaken (taken : (s.kslot d.slot).state ≠ .empty) (ok : Bool) :
    exec (.createDedupDomain n slot ok) s = .next ((s.begun n slot e).replied n slot e 0x0501 [] []) := by
  rw [exec_createDedupDomain_good h good, new, if_neg (by decide), if_pos taken, State.ended_fail]

theorem exec_createDedupDomain_noRoom (empty : (s.kslot d.slot).state = .empty) (large : s.domainFits d.k = false) (ok : Bool) :
    exec (.createDedupDomain n slot ok) s = .next ((s.begun n slot e).replied n slot e 0x0502 [] []) := by
  rw [exec_createDedupDomain_good h good, new, if_neg (by decide), if_neg (not_not_intro empty), large, if_pos (by decide), State.ended_fail]

theorem exec_createDedupDomain_noEntropy (empty : (s.kslot d.slot).state = .empty) (fits : s.domainFits d.k = true) :
    exec (.createDedupDomain n slot false) s = .next ((s.begun n slot e).replied n slot e stUnitFailed [] []) := by
  rw [exec_createDedupDomain_good h good, new, if_neg (by decide), if_neg (not_not_intro empty), fits, if_neg (by decide), if_pos (by decide),
    State.ended_fail]

/-- The domain's key is generated in its slot, and the domain is stored and placed as a configuration record. -/
theorem exec_createDedupDomain_created (empty : (s.kslot d.slot).state = .empty) (fits : s.domainFits d.k = true) :
    exec (.createDedupDomain n slot true) s = .next
      (((((s.begun n slot e).generateSlot { s.kslot d.slot with cfg := 0x41, len := 32 }).putDom d).placeCfg d.record).cfgEnded n slot e []) := by
  rw [exec_createDedupDomain_good h good, new, if_neg (by decide), if_neg (not_not_intro empty), fits, if_neg (by decide), if_neg (by decide),
    State.ended_cfgDone]

end
end

/-! ### DELETE_DEDUP_DOMAIN and GET_DEDUP_DOMAIN (R183, R185) -/

section
variable {d : Domain}

/-- The checks of DELETE_DEDUP_DOMAIN in their order: the group's owner, the reserved bytes, a volume in the domain. -/
theorem exec_deleteDedupDomain (h : s.CanRun 0x61 n slot e) (known : s.dom? (e.num 10 1) = some d) :
    exec (.deleteDedupDomain n slot) s = .next (s.ended n slot e
      (if !s.ownsGroup d.ana then .fail (s.begun n slot e) stNotOwner
       else if !e.zero 11 3 then .fail (s.begun n slot e) stInvalidField
       else if s.pool.volumes.any (·.domain == d.id) then .fail (s.begun n slot e) 0x0503
       else ((s.begun n slot e).removeDomain d).cfgDone (packetRef n slot e) [])) := by
  change execDeleteDedupDomain n slot s = _
  rw [execDeleteDedupDomain, State.packet_runs _ h, begun_dom?, known]
  rfl

/-- The checks of GET_DEDUP_DOMAIN in their order: the group's owner, the reserved bytes. -/
theorem exec_getDedupDomain (h : s.CanRun 0x62 n slot e) (known : s.dom? (e.num 10 1) = some d) :
    exec (.getDedupDomain n slot) s = .next (s.ended n slot e
      (if !s.ownsGroup d.ana then .fail (s.begun n slot e) stNotOwner
       else if !e.zero 11 3 then .fail (s.begun n slot e) stInvalidField
       else .done (s.begun n slot e) stOk
         (leBytes 1 d.id ++ leBytes 1 d.slot ++ leBytes 2 d.keyPage ++ leBytes 1 d.k ++ [0] ++ leBytes 2 d.ana ++
           leBytes 8 (countOf (fun x => x.dom == d.id) s.red.index) ++
           leBytes 8 (sumOf ((s.ftl.grains.filter fun g => g.domain == d.id).map Grain.refcnt))) [])) := by
  change execGetDedupDomain n slot s = _
  rw [execGetDedupDomain, State.packet_runs _ h]
  dsimp only
  rw [begun_dom?, known]
  rfl

end

/-! ### SET_VOLUME_DOMAIN (R184, R185) -/

section
variable {v : Volume}

/-- The domain that a SET_VOLUME_DOMAIN packet names belongs to a group that this head does not serve. -/
def State.domainElsewhere (s : State) (id : Nat) : Bool := (s.dom? id).any fun d => id != 0 && !s.ownsGroup d.ana

/-- On a volume that this head serves, the checks follow in their order: the owner of the domain's group, the fields, a move of the volume's group, mapped
blocks, the two groups, the volume's home key. -/
theorem exec_setVolumeDomain (h : s.CanRun 0x63 n slot e) (known : s.vol? (e.num 10 4) = some v) (owns : s.ownsGroup v.ana = true)
    (reserved : e.zero 15 3 = true) :
    exec (.setVolumeDomain n slot) s = .next (s.ended n slot e
      (if s.domainElsewhere (e.num 14 1) then .fail (s.begun n slot e) stNotOwner
       else if e.num 14 1 ≠ 0 ∧ (s.dom? (e.num 14 1)).isNone then .fail (s.begun n slot e) stInvalidField
       else if s.moving v.ana then .fail (s.begun n slot e) stBusy
       else if s.volMapped v.nsid then .fail (s.begun n slot e) 0x0504
       else if e.num 14 1 ≠ 0 ∧ ((s.dom? (e.num 14 1)).map Domain.ana).getD 0 ≠ v.ana then .fail (s.begun n slot e) 0x0505
       else if e.num 14 1 = 0 ∧ ((s.kpage v.homeKey).state ≠ .live ∨ (s.kpage v.homeKey).usage ≠ 1) then .fail (s.begun n slot e) stInvalidField
       else ((s.begun n slot e).storeVol { v with domain := e.num 14 1 }).cfgDone (packetRef n slot e) [])) := by
  change execSetVolumeDomain n slot s = _
  rw [execSetVolumeDomain, State.packet_runs _ h]
  dsimp only
  rw [begun_vol?, known]
  dsimp only
  rw [begun_ownsGroup, owns, if_neg (by decide), begun_dom?, reserved, State.domainElsewhere]
  simp only [Bool.not_true, Bool.false_eq_true, false_or]
  cases s.dom? (e.num 14 1) <;> rfl

end

/-! ### SET_CODEC_GENERATION (08_compression.md R193) -/

/-- The peer's HELLO, where one has come, allows a generation. -/
def State.peerEncodes (s : State) (g : Nat) : Bool := s.pair.hello.all fun h => decide (h.genMin ≤ g) && decide (g ≤ h.genMax)

/-- The checks of SET_CODEC_GENERATION in their order: the reserved bytes, what this device encodes, what the peer in service handles. -/
theorem exec_setCodecGeneration (h : s.CanRun 0x6A n slot e) :
    exec (.setCodecGeneration n slot) s = .next (s.ended n slot e
      (if !e.zero 11 3 then .fail (s.begun n slot e) stInvalidField
       else if e.num 10 1 < 2 ∨ e.num 10 1 > 3 then .fail (s.begun n slot e) 0x0600
       else if s.peerInService ∧ !s.peerEncodes (e.num 10 1) then .fail (s.begun n slot e) 0x0601
       else ((State.setGen { s.begun n slot e with pool.gen := e.num 10 1 } s.role s.own.jseq (e.num 10 1)).placeCfg
         (leBytes 1 cfgGen ++ leBytes 1 (e.num 10 1))).cfgDone (packetRef n slot e) [])) := by
  change execSetCodecGeneration n slot s = _
  rw [execSetCodecGeneration, State.packet_runs _ h, State.begun_pair, State.peerEncodes]
  cases s.pair.hello <;> rfl

end

/-- Settles O41: each packet's answers, from its checks in their order. -/
theorem domainsAndCodecGeneration : Obligations.DomainsAndCodecGeneration := by
  unfold Obligations.DomainsAndCodecGeneration
  refine ⟨?creates, ?deletes, ?gets, ?sets, ?generation⟩
  case creates =>
    intro n slot e s h
    refine ⟨exec_createDedupDomain_notOwner h rfl, fun group groupMax owns number page size sizeMax reserved mediaKey => ?_⟩
    have good : s.DomainFields e (domainOf e) := ⟨rfl, group, groupMax, owns, number, page, size, sizeMax, reserved, mediaKey⟩
    exact ⟨exec_createDedupDomain_exists h good, exec_createDedupDomain_slotTaken h good, exec_createDedupDomain_noRoom h good,
      fun new empty fits => ⟨exec_createDedupDomain_noEntropy h good new empty fits, exec_createDedupDomain_created h good new empty fits⟩⟩
  case deletes =>
    intro n slot e d s h known
    rw [exec_deleteDedupDomain h known]
    refine ⟨fun other => ?_, fun owns reserved used => ?_, fun t owns reserved unused placed => ?_⟩
    · rw [other, if_pos (by decide), State.ended_fail]
    · rw [owns, if_neg (by decide), reserved, if_neg (by decide), if_pos used, State.ended_fail]
    · rw [owns, if_neg (by decide), reserved, if_neg (by decide), unused, if_neg (by decide), State.ended_cfgDone, ← placed]
      rfl
  case gets =>
    intro n slot e d s h known
    rw [exec_getDedupDomain h known]
    refine ⟨fun other => ?_, fun owns reserved => ?_⟩
    · rw [other, if_pos (by decide), State.ended_fail]
    · rw [owns, if_neg (by decide), reserved, if_neg (by decide), State.ended_done]
  case sets =>
    intro n slot e v s h known owns reserved
    rw [exec_setVolumeDomain h known owns reserved]
    refine ⟨fun d named domain other => ?_, fun domain unknown => ?_, fun noDomain _ stays mapped => ?_,
      fun d named domain ownsDomain stays unmapped => ⟨fun otherGroup => ?_, fun sameGroup => ?_⟩⟩
    · rw [State.domainElsewhere, named, if_pos (by simp [domain, other]), State.ended_fail]
    · rw [State.domainElsewhere, unknown, Option.any_none, if_neg Bool.false_ne_true, if_pos ⟨domain, rfl⟩, State.ended_fail]
    · rw [State.domainElsewhere, noDomain, if_neg (by simp), if_neg (by simp), stays, if_neg (by decide), if_pos mapped, State.ended_fail]
    · rw [State.domainElsewhere, named, if_neg (by simp [ownsDomain]), if_neg (by simp), stays, if_neg (by decide), unmapped, if_neg (by decide),
        if_pos ⟨domain, otherGroup⟩, State.ended_fail]
    · rw [State.domainElsewhere, named, if_neg (by simp [ownsDomain]), if_neg (by simp), stays, if_neg (by decide), unmapped, if_neg (by decide),
        if_neg (by simp [sameGroup]), if_neg (fun home => domain home.1), State.ended_cfgDone]
  case generation =>
    intro n slot e s h
    rw [exec_setCodecGeneration h]
    refine ⟨fun notZero => ?_, fun zero unknown => ?_, fun zero lo hi agrees => ?_, fun hello zero lo hi serves met beyond => ?_⟩
    · rw [notZero, if_pos (by decide), State.ended_fail]
    · rw [zero, if_neg (by decide), if_pos unknown, State.ended_fail]
    · have handled : ¬(s.peerInService = true ∧ (!s.peerEncodes (e.num 10 1)) = true) := by
        rcases agrees with alone | noHello
        · simp [alone]
        · simp [State.peerEncodes, noHello]
      rw [zero, if_neg (by decide), if_neg (by omega), if_neg handled, State.ended_cfgDone]
    · have refused : s.peerEncodes (e.num 10 1) = false := by simp [State.peerEncodes, met, beyond]
      rw [zero, if_neg (by decide), if_neg (by omega), if_pos ⟨serves, by rw [refused]; rfl⟩, State.ended_fail]

end Sys2Proof.Machine
end

section
/-! Start-up of the firmware and of the pool (21_startup_security.md R486; 09_cipher_digest.md R211; 16_memory_cache.md R390; 20_control_packets.md R469):
what FIRMWARE_READY, POOL_LOAD and the firmware's beat come to, and the statement about them. -/
namespace Sys2Proof.Machine

section
variable {s : State}

/-! ### FIRMWARE_READY (R211, R390, R486) -/

/-- What firmware does first: it is READY and the working keys are loaded (R211). -/
def State.firmwareUp (s : State) : State := { s with ctl.ready := true }.loadWorking

section
variable (started : s.boot.stage = 4) (first : s.ctl.ready = false)
include started first

/-- Firmware that comes up for the first time begins pairing, but not with a memory that breaks a rule (R390). -/
theorem exec_firmwareReady : exec .firmwareReady s = .next
    (if s.mem.popErr ∨ s.pair.state ≠ .down then s.firmwareUp else { s.firmwareUp with pair.state := PairSt.pairWait }.meetPeer) := by
  change execFirmwareReady s = _
  rw [execFirmwareReady, if_neg (by simp [started, first])]
  rfl

theorem exec_firmwareReady_pairs (down : s.pair.state = .down) (kept : s.mem.popErr = false) :
    exec .firmwareReady s = .next { s.firmwareUp with pair.state := PairSt.pairWait }.meetPeer := by
  rw [exec_firmwareReady started first, if_neg (by simp [down, kept])]

theorem exec_firmwareReady_popErr (broken : s.mem.popErr = true) : exec .firmwareReady s = .next s.firmwareUp := by
  rw [exec_firmwareReady started first, if_pos (.inl broken)]

end

/-! ### POOL_LOAD (R486) -/

/-- The head may load its pool: firmware is READY in stage 4 or 5, and the head serves, with its peer or alone. -/
structure State.MayLoad (s : State) : Prop where
  stage : s.boot.stage = 4 ∨ s.boot.stage = 5
  ready : s.ctl.ready = true
  serves : s.pair.state = .paired ∨ s.pair.state = .solo

/-- The head in stage 5, where the records of the pool are replayed. -/
def State.replayBegun (s : State) (p : PoolIn) : State := { s with boot.stage := 5, brn.replaying := true, ftl.indexScan := p.scan }

/-- The head in stage 5 with its pool, which is rebuilt from `p` where none is loaded. -/
def State.poolRead (s : State) (p : PoolIn) : State :=
  { (if s.pool.loaded then s.replayBegun p else (s.replayBegun p).rebuildPool p) with brn.expect := [] }

section
variable {p : PoolIn} {t : State} (may : s.MayLoad) (read : s.poolRead p = t)
include may read

/-- Without a pool the head stays in stage 5; entries that are not released are first mirrored to a peer in service; otherwise the pool is served. -/
theorem exec_poolLoad : exec (.poolLoad p) s = .next
    (if t.pool.loaded = false then { t with brn.replaying := false, ftl.indexScan := false }
     else if t.peerInService = true ∧ t.unreleased ≠ [] then t.startRemirror
     else t.replayEnd) := by
  obtain ⟨stage, ready, serves⟩ := may
  have inStage : (s.boot.stage == 4 || s.boot.stage == 5) = true := by simpa using stage
  have inPair : (s.pair.state == .paired || s.pair.state == .solo) = true := by simpa using serves
  subst read
  change execPoolLoad p s = _
  rw [execPoolLoad, inStage, ready, inPair, if_neg (by decide)]
  change Host.Outcome.next (if (!(s.poolRead p).pool.loaded) = true then { s.poolRead p with brn.replaying := false, ftl.indexScan := false }
    else if ((s.poolRead p).peerInService && !(s.poolRead p).unreleased.isEmpty) = true then (s.poolRead p).startRemirror
    else (s.poolRead p).replayEnd) = _
  simp

theorem exec_poolLoad_none (noPool : t.pool.loaded = false) :
    exec (.poolLoad p) s = .next { t with brn.replaying := false, ftl.indexScan := false } := by
  rw [exec_poolLoad may read, if_pos noPool]

theorem exec_poolLoad_served (loaded : t.pool.loaded = true) (released : t.unreleased = []) : exec (.poolLoad p) s = .next t.replayEnd := by
  rw [exec_poolLoad may read, if_neg (by simp [loaded]), if_neg (by simp [released])]

theorem exec_poolLoad_remirrors (loaded : t.pool.loaded = true) (peer : t.peerInService = true) (held : t.unreleased ≠ []) :
    exec (.poolLoad p) s = .next t.startRemirror := by
  rw [exec_poolLoad may read, if_neg (by simp [loaded]), if_pos ⟨peer, held⟩]

end

theorem poolRead_loaded (p : PoolIn) (loaded : s.pool.loaded = true) : s.poolRead p = { s.replayBegun p with brn.expect := [] } := by
  rw [State.poolRead, if_pos loaded]

theorem poolRead_unloaded (p : PoolIn) (unloaded : s.pool.loaded = false) :
    s.poolRead p = { (s.replayBegun p).rebuildPool p with brn.expect := [] } := by
  rw [State.poolRead, if_neg (by simp [unloaded])]

/-- No row makes no pool. -/
theorem rebuildPool_noRows {p : PoolIn} (unloaded : s.pool.loaded = false) (noRows : p.rows = []) : s.rebuildPool p = s := by
  rw [State.rebuildPool, noRows]
  exact if_pos (by simp [unloaded])

/-- The pool that has been replayed in stage 5 is served in stage 6, under a new dump key. -/
theorem replayEnd_of_stage5 (replay : s.boot.stage = 5) : s.replayEnd = State.askReserves (State.anaChanged (State.newDumpKey { s with
    brn.replaying := false, ftl.indexScan := false, boot.stage := 6 })) s.role := by
  rw [State.replayEnd, if_pos replay]

/-! ### The firmware's beat (R469) -/

theorem exec_fwBeatTick :
    exec .fwBeatTick s = .next (if 4 ≤ s.boot.stage ∧ s.boot.stage ≤ 6 then { s with ctl.beat := (s.ctl.beat + 1) % 2 ^ 64 } else s) := rfl

end

/-- Settles O15: FIRMWARE_READY by whether a memory breaks a rule, POOL_LOAD by what it has read, the beat by the stage. -/
theorem firmwareComesUpAndServesThePool : Obligations.FirmwareComesUpAndServesThePool := by
  unfold Obligations.FirmwareComesUpAndServesThePool
  refine ⟨?pairs, ?popErr, ?again, ?load, ?beat, ?still⟩
  case pairs => exact fun s started first down kept => exec_firmwareReady_pairs started first down kept
  case popErr =>
    intro s started first broken
    exact ⟨s.firmwareUp, exec_firmwareReady_popErr started first broken, rfl, rfl, rfl, rfl⟩
  case again =>
    intro p s stage ready serves loaded released
    rw [exec_poolLoad_served ⟨stage, ready, serves⟩ (poolRead_loaded p loaded) loaded released, replayEnd_of_stage5 rfl]
    rfl
  case load =>
    intro p s stage ready serves unloaded
    have may : s.MayLoad := ⟨stage, ready, serves⟩
    have read := poolRead_unloaded p unloaded
    refine ⟨fun noRows => ?_, exec_poolLoad_served may read, exec_poolLoad_remirrors may read⟩
    rw [rebuildPool_noRows (s := s.replayBegun p) unloaded noRows] at read
    exact exec_poolLoad_none may read unloaded
  case beat => exact fun s from4 to6 => by rw [exec_fwBeatTick, if_pos ⟨from4, to6⟩]
  case still => exact fun s outside => by rw [exec_fwBeatTick, if_neg (by omega)]

end Sys2Proof.Machine
end

section
/-! Key pages (09_cipher_digest.md R210, R212, R213, R216): what each register write and each command comes to in the states of the state machine, what a
commit and an erase leave, and the statement about key pages. -/
namespace Sys2Proof.Machine

/-! ### The states in which a page or slot is written, and its words (R213) -/

theorem KeySt.not_open {st : KeySt} (shut : st = .live ∨ st = .erased) : ¬(st = .empty ∨ st = .loading) := by
  rcases shut with h | h <;> simp [h]

theorem KeySt.not_shut {st : KeySt} (isOpen : st = .empty ∨ st = .loading) : ¬(st = .live ∨ st = .erased) := fun shut => not_open shut isOpen

/-- A key with its word `w`, of four bytes, written. -/
def withWord (key : Bytes) (w value : Nat) : Bytes := key.take (4 * w) ++ leBytes 4 value ++ key.drop (4 * w + 4)

/-- A page as a word finds it: where it is EMPTY, LOADING with zero words. -/
def KeyPage.opened (p : KeyPage) : KeyPage :=
  if p.state = .empty then { p with key1 := List.replicate 32 0, key2 := List.replicate 32 0, salt := 0, state := .loading } else p

/-- A page with a word written: words 0 to 7 are K1, 8 to 15 are K2, word 16 is the salt. -/
def KeyPage.withWord (p : KeyPage) (w value : Nat) : KeyPage :=
  if w = 16 then { p with salt := value % 2 ^ 32 }
  else if w < 8 then { p with key1 := Machine.withWord p.key1 w value }
  else { p with key2 := Machine.withWord p.key2 (w - 8) value }

/-! ### What each access to a page comes to (R212, R213) -/

/-- `s` runs, and its key page `page` is `p`. -/
structure State.HasPage (s : State) (page : Nat) (p : KeyPage) : Prop where
  number : page < 4096
  runs : s.halted = false
  held : s.kpage page = p

section
variable {s : State} {page : Nat} {p : KeyPage}

section
variable (has : s.HasPage page p)
include has

theorem State.HasPage.reached : ¬(page ≥ 4096 ∨ s.halted = true) := by simp [has.number, has.runs]

theorem State.HasPage.wordReached {w : Nat} (word : w ≤ 16) : ¬(page ≥ 4096 ∨ w > 16 ∨ s.halted = true) := by
  simp [has.number, has.runs, word]

theorem exec_keyPageCfgWrite (value : Nat) : exec (.keyPageCfgWrite page value) s = .next
    (if p.state = .empty ∨ p.state = .loading then s.putPage { p with cfg := Nat.land value 0xCF }
     else s.keyDrop 0x200003 (R.CIP_KP_CFG page).addr value) := by
  change execKeyPageCfgWrite page value s = _
  simp only [execKeyPageCfgWrite, has.held, if_neg has.reached]

theorem exec_keyPageKeyWrite_open {w : Nat} (word : w ≤ 16) (isOpen : p.state = .empty ∨ p.state = .loading) (value : Nat) :
    exec (.keyPageKeyWrite page w value) s = .next (s.putPage (p.opened.withWord w value)) := by
  change execKeyPageKeyWrite page w value s = _
  simp only [execKeyPageKeyWrite, has.held, if_neg (has.wordReached word), KeyPage.opened]
  rcases isOpen with h | h <;> rw [h] <;> rfl

theorem exec_keyPageKeyWrite_loading {w : Nat} (word : w ≤ 16) (loading : p.state = .loading) (value : Nat) :
    exec (.keyPageKeyWrite page w value) s = .next (s.putPage (p.withWord w value)) := by
  rw [exec_keyPageKeyWrite_open has word (.inr loading), KeyPage.opened, if_neg (by simp [loading])]

theorem exec_keyPageKeyWrite_shut {w : Nat} (word : w < 16) (shut : p.state = .live ∨ p.state = .erased) (value : Nat) :
    exec (.keyPageKeyWrite page w value) s = .next (s.keyDrop 0x200003 (R.CIP_KP_KEY page w).addr value) := by
  change execKeyPageKeyWrite page w value s = _
  simp only [execKeyPageKeyWrite, has.held, if_neg (has.wordReached (Nat.le_of_lt word)), if_neg (Nat.ne_of_lt word)]
  rcases shut with h | h <;> rw [h]

theorem exec_keyPageCommit : exec (.keyPageCommit page) s = .next
    (if p.state = .empty ∨ p.state = .loading then s.commitPage p else s.keyDrop 0x200003 (R.CIP_KP_CMD page).addr 1) := by
  change execKeyPageCommit page s = _
  simp only [execKeyPageCommit, has.held, if_neg has.reached]

theorem exec_keyPageErase : exec (.keyPageErase page) s = .next
    (if p.state = .live ∨ p.state = .erased then s.erasePage p else s.keyDrop 0x200003 (R.CIP_KP_CMD page).addr 3) := by
  change execKeyPageErase page s = _
  simp only [execKeyPageErase, has.held, if_neg has.reached]

end

/-- A page with the key that GENERATE makes of 68 random bytes: its halves differ (R210), and a GCM page draws its salt too. -/
def KeyPage.generated (p : KeyPage) (b : Bytes) : KeyPage :=
  { p with
    key1 := slice b 0 32
    key2 := if slice b 0 32 = slice b 32 32 then (slice b 32 32).map (~~~ ·) else slice b 32 32
    salt := if p.usage = 2 then leAt b 64 4 else p.salt }

theorem KeyPage.generated_xts {b : Bytes} (xts : p.usage = 1) (differ : slice b 0 32 ≠ slice b 32 32) :
    p.generated b = { p with key1 := slice b 0 32, key2 := slice b 32 32 } := by
  rw [generated, if_neg differ, if_neg (by simp [xts])]

theorem exec_keyPageGenerate (has : s.HasPage page p) (ok : Bool) : exec (.keyPageGenerate page ok) s = .next
    (if p.state = .empty ∨ p.state = .loading then
       if p.usage = 0 then s.refusePage p 2
       else if ok = false then s
       else (s.drbgBytes 68).2.acceptPage (p.generated (s.drbgBytes 68).1)
     else s.keyDrop 0x200003 (R.CIP_KP_CMD page).addr 2) := by
  change execKeyPageGenerate page ok s = _
  simp only [execKeyPageGenerate, has.held, if_neg has.reached, Bool.not_eq_true']
  rfl

/-! ### What COMMIT decides (R213) -/

theorem commitPage_empty (empty : p.state = .empty) : s.commitPage p = s.refusePage p 5 := if_pos empty

section
variable (loading : p.state = .loading)
include loading

theorem commitPage_loading : s.commitPage p =
    if p.usage = 0 then s.refusePage p 2 else if p.usage = 1 ∧ p.key1 = p.key2 then s.refusePage p 1 else s.acceptPage p :=
  if_neg (by simp [loading])

theorem commitPage_accepted (good : p.usage = 2 ∨ p.usage = 1 ∧ p.key1 ≠ p.key2) : s.commitPage p = s.acceptPage p := by
  rw [commitPage_loading loading]
  rcases good with gcm | ⟨xts, differ⟩
  · rw [if_neg (by simp [gcm]), if_neg (by simp [gcm])]
  · rw [if_neg (by simp [xts]), if_neg (by simp [differ])]

end

/-! ### What a commit and an erase leave in the page (R213) -/

theorem refusePage_kpage (err : Nat) : (s.refusePage p err).kpage p.no = { p.zero with state := .empty, err := err } :=
  (kpage_put s _ p.no).trans (if_pos rfl)

section
variable (volatile : p.persist = false)
include volatile

theorem acceptPage_volatile :
    s.acceptPage p = s.putPage { p with state := .live, err := 0, gen := (p.gen + 1) % 65536, next := 0, resEnd := invocBlock } :=
  if_neg (ne_true_of_eq_false volatile)

theorem acceptPage_kpage : (s.acceptPage p).kpage p.no =
    { p with state := .live, err := 0, gen := (p.gen + 1) % 65536, next := 0, resEnd := invocBlock } := by
  rw [acceptPage_volatile volatile]
  exact (kpage_put s _ p.no).trans (if_pos rfl)

theorem acceptPage_kpage_other {n : Nat} (other : n ≠ p.no) : (s.acceptPage p).kpage n = s.kpage n := by
  rw [acceptPage_volatile volatile, kpage_put, if_neg other]

theorem wipePage_volatile : s.wipePage p = s.putPage { p.zero with state := .empty } := by
  rw [State.wipePage, if_neg (by simp [volatile])]

end

/-- The erase of a LIVE page ends its streams; the key is zeroized once no segment runs under it. -/
theorem erasePage_live (live : p.state = .live) : s.erasePage p =
    if (s.eraseJobs 3 p.no).keyRuns 3 p.no then (s.eraseJobs 3 p.no).putPage { p with busy := true } else (s.eraseJobs 3 p.no).wipePage p := by
  rw [State.erasePage, if_pos live]

end

/-- Settles O42: each access by the state of the page, then what a commit and an erase leave in it. -/
theorem keyPagesFollowTheirStateMachine : Obligations.KeyPagesFollowTheirStateMachine := by
  unfold Obligations.KeyPagesFollowTheirStateMachine
  intro page s number runs p held
  have has : s.HasPage page p := ⟨number, runs, held⟩
  refine ⟨?cfg, ?key1, ?key2, ?salt, ?firstSalt, ?shut, ?eraseOpen, ?commitEmpty, ?commitNoUsage, ?commitEqual, ?commitGood, ?generateNoUsage,
    ?generateNoEntropy, ?generateXts, fun err => refusePage_kpage err, ?accepted, fun live => erasePage_live live, wipePage_volatile⟩
  case cfg => exact fun value isOpen => by rw [exec_keyPageCfgWrite has, if_pos isOpen]
  case key1 =>
    intro w value first loading
    rw [exec_keyPageKeyWrite_loading has (by omega) loading, KeyPage.withWord, if_neg (by omega), if_pos first]
    rfl
  case key2 =>
    intro w value lo hi loading
    rw [exec_keyPageKeyWrite_loading has (Nat.le_of_lt hi) loading, KeyPage.withWord, if_neg (Nat.ne_of_lt hi), if_neg (by omega)]
    rfl
  case salt => exact fun value loading => exec_keyPageKeyWrite_loading has (Nat.le_refl 16) loading value
  case firstSalt =>
    intro value empty
    rw [exec_keyPageKeyWrite_open has (Nat.le_refl 16) (.inl empty), KeyPage.opened, if_pos empty]
    rfl
  case shut =>
    intro shut value ok
    have closed := KeySt.not_open shut
    refine ⟨?_, fun w word => exec_keyPageKeyWrite_shut has word shut value, ?_, ?_, ?_⟩
    · rw [exec_keyPageCfgWrite has, if_neg closed]
    · rw [exec_keyPageCommit has, if_neg closed]
    · rw [exec_keyPageGenerate has, if_neg closed]
    · rw [exec_keyPageErase has, if_pos shut]
  case eraseOpen => exact fun isOpen => by rw [exec_keyPageErase has, if_neg (KeySt.not_shut isOpen)]
  case commitEmpty => exact fun empty => by rw [exec_keyPageCommit has, if_pos (.inl empty), commitPage_empty empty]
  case commitNoUsage => exact fun loading noUsage => by rw [exec_keyPageCommit has, if_pos (.inr loading), commitPage_loading loading, if_pos noUsage]
  case commitEqual =>
    intro loading xts equal
    rw [exec_keyPageCommit has, if_pos (.inr loading), commitPage_loading loading, if_neg (by simp [xts]), if_pos ⟨xts, equal⟩]
  case commitGood => exact fun loading good => by rw [exec_keyPageCommit has, if_pos (.inr loading), commitPage_accepted loading good]
  case generateNoUsage => exact fun isOpen noUsage ok => by rw [exec_keyPageGenerate has, if_pos isOpen, if_pos noUsage]
  case generateNoEntropy => exact fun isOpen used => by rw [exec_keyPageGenerate has, if_pos isOpen, if_neg used, if_pos rfl]
  case generateXts =>
    intro b t isOpen xts drawn differ
    rw [exec_keyPageGenerate has, if_pos isOpen, if_neg (by simp [xts]), if_neg (by decide), drawn, KeyPage.generated_xts xts differ]
  case accepted => exact fun volatile => ⟨acceptPage_kpage volatile, fun n other => acceptPage_kpage_other volatile other⟩

end Sys2Proof.Machine
end

section
/-! Key slots (09_cipher_digest.md R213, R218, R219): what each register write and each command comes to in the states of the state machine, what a commit and
an erase leave, and the statement about key slots. -/
namespace Sys2Proof.Machine

/-- A slot with a register written: words 0 to 31 are the key, which is zero before the first of them and LOADING after it, 32 is DIG_KS_CFG, 33 is
DIG_KS_KEYLEN. -/
def KeySlot.withWord (k : KeySlot) (w value : Nat) : KeySlot :=
  if w = 32 then { k with cfg := Nat.land value 0xC3 }
  else if w = 33 then { k with len := value % 256 }
  else { k with key := Machine.withWord (if k.state = .empty then List.replicate 128 0 else k.key) w value, state := .loading }

/-! ### What each access to a slot comes to (R213, R218) -/

/-- `s` runs, and its key slot `slot` is `k`. -/
structure State.HasSlot (s : State) (slot : Nat) (k : KeySlot) : Prop where
  number : slot < 256
  runs : s.halted = false
  held : s.kslot slot = k

section
variable {s : State} {slot : Nat} {k : KeySlot}

theorem KeySlot.lenOk_of_le (lo : 1 ≤ k.len) (hi : k.len ≤ 128) : k.lenOk = true := by simp [lenOk, lo, hi]

theorem KeySlot.not_lenOk (bad : k.len = 0 ∨ 128 < k.len) : k.lenOk = false := by
  simp only [lenOk, Bool.and_eq_false_iff, decide_eq_false_iff_not]
  omega

section
variable (has : s.HasSlot slot k)
include has

theorem State.HasSlot.reached : ¬(slot ≥ 256 ∨ s.halted = true) := by simp [has.number, has.runs]

theorem State.HasSlot.wordReached {w : Nat} (word : w ≤ 33) : ¬(slot ≥ 256 ∨ w > 33 ∨ s.halted = true) := by
  simp [has.number, has.runs, word]

theorem exec_keySlotKeyWrite_open {w : Nat} (word : w ≤ 33) (isOpen : k.state = .empty ∨ k.state = .loading) (value : Nat) :
    exec (.keySlotKeyWrite slot w value) s = .next (s.putSlot (k.withWord w value)) := by
  change execKeySlotKeyWrite slot w value s = _
  simp only [execKeySlotKeyWrite, has.held, if_neg (has.wordReached word), KeySlot.withWord, Machine.withWord, apply_ite s.putSlot]
  rcases isOpen with h | h <;> rw [h]

theorem exec_keySlotKeyWrite_shut {w : Nat} (word : w < 32) (shut : k.state = .live ∨ k.state = .erased) (value : Nat) :
    exec (.keySlotKeyWrite slot w value) s = .next (s.keyDrop 0x200002 (R.DIG_KS_KEY slot w).addr value) := by
  change execKeySlotKeyWrite slot w value s = _
  simp only [execKeySlotKeyWrite, has.held, if_neg (has.wordReached (show w ≤ 33 by omega)), if_neg (Nat.ne_of_lt word), if_neg (show w ≠ 33 by omega)]
  rcases shut with h | h <;> rw [h]

theorem exec_keySlotCommit_empty (empty : k.state = .empty) : exec (.keySlotCommit slot) s = .next (s.refuseSlot k 5) := by
  change execKeySlotCommit slot s = _
  simp only [execKeySlotCommit, has.held, if_neg has.reached, empty]

theorem exec_keySlotCommit_loading (loading : k.state = .loading) : exec (.keySlotCommit slot) s = .next
    (if k.lenOk then s.acceptSlot k (k.key.take k.len) else s.refuseSlot k 1) := by
  change execKeySlotCommit slot s = _
  simp only [execKeySlotCommit, has.held, if_neg has.reached, loading]

theorem exec_keySlotCommit_shut (shut : k.state = .live ∨ k.state = .erased) :
    exec (.keySlotCommit slot) s = .next (s.keyDrop 0x200002 (R.DIG_KS_CMD slot).addr 1) := by
  change execKeySlotCommit slot s = _
  simp only [execKeySlotCommit, has.held, if_neg has.reached]
  rcases shut with h | h <;> rw [h]

theorem exec_keySlotGenerate (ok : Bool) : exec (.keySlotGenerate slot ok) s = .next
    (if k.state = .empty ∨ k.state = .loading then
       if k.lenOk = false then s.refuseSlot k 1 else if ok = false then s else s.generateSlot k
     else s.keyDrop 0x200002 (R.DIG_KS_CMD slot).addr 2) := by
  change execKeySlotGenerate slot ok s = _
  simp only [execKeySlotGenerate, has.held, if_neg has.reached, Bool.not_eq_true']

theorem exec_keySlotErase : exec (.keySlotErase slot) s = .next
    (if k.state = .live ∨ k.state = .erased then s.eraseSlot k else s.keyDrop 0x200002 (R.DIG_KS_CMD slot).addr 3) := by
  change execKeySlotErase slot s = _
  simp only [execKeySlotErase, has.held, if_neg has.reached]

end

theorem generateSlot_of_drbg {b : Bytes} {t : State} (drawn : s.drbgBytes k.len = (b, t)) : s.generateSlot k = t.acceptSlot k b := by
  rw [State.generateSlot, drawn]

/-! ### What a commit and an erase leave in the slot (R213, R219) -/

theorem refuseSlot_kslot (err : Nat) : (s.refuseSlot k err).kslot k.no = { k.zero with state := .empty, err := err } :=
  kslot_put s { k.zero with state := .empty, err := err }

theorem acceptSlot_kslot (volatile : k.persist = false) (key : Bytes) :
    (s.acceptSlot k key).kslot k.no = { k.prepare key with state := .live, err := 0, gen := (k.gen + 1) % 65536 } := by
  have notStored : s.acceptSlot k key = s.putSlot { k.prepare key with state := .live, err := 0, gen := (k.gen + 1) % 65536 } :=
    if_neg (ne_true_of_eq_false volatile)
  rw [notStored]
  exact kslot_put s { k.prepare key with state := .live, err := 0, gen := (k.gen + 1) % 65536 }

/-- The erase of a LIVE slot ends its streams; the key is zeroized once no segment runs under it. -/
theorem eraseSlot_live (live : k.state = .live) : s.eraseSlot k =
    if (s.eraseJobs 2 k.no).keyRuns 2 k.no then (s.eraseJobs 2 k.no).putSlot { k with busy := true } else (s.eraseJobs 2 k.no).wipeSlot k := by
  rw [State.eraseSlot, if_pos live]

end

/-- Settles O43: each access by the state of the slot, then what a commit and an erase leave in it. -/
theorem keySlotsFollowTheirStateMachine : Obligations.KeySlotsFollowTheirStateMachine := by
  unfold Obligations.KeySlotsFollowTheirStateMachine
  intro slot s number runs k held
  have has : s.HasSlot slot k := ⟨number, runs, held⟩
  refine ⟨?settings, ?words, ?shut, ?eraseOpen, fun empty => exec_keySlotCommit_empty has empty, ?commitBad, ?commitGood, ?generateBad, ?generateGood,
    fun live => eraseSlot_live live, fun err => refuseSlot_kslot err, ?accepted⟩
  case settings =>
    exact fun value isOpen => ⟨exec_keySlotKeyWrite_open has (by decide) isOpen value, exec_keySlotKeyWrite_open has (by decide) isOpen value⟩
  case words =>
    intro w value word loading
    rw [exec_keySlotKeyWrite_open has (by omega) (.inr loading), KeySlot.withWord, if_neg (Nat.ne_of_lt word), if_neg (by omega), if_neg (by simp [loading])]
    rfl
  case shut =>
    intro shut value ok
    refine ⟨fun w word => exec_keySlotKeyWrite_shut has word shut value, exec_keySlotCommit_shut has shut, ?_, ?_⟩
    · rw [exec_keySlotGenerate has, if_neg (KeySt.not_open shut)]
    · rw [exec_keySlotErase has, if_pos shut]
  case eraseOpen => exact fun isOpen => by rw [exec_keySlotErase has, if_neg (KeySt.not_shut isOpen)]
  case commitBad =>
    exact fun loading bad => by rw [exec_keySlotCommit_loading has loading, if_neg (ne_true_of_eq_false (KeySlot.not_lenOk bad))]
  case commitGood => exact fun loading lo hi => by rw [exec_keySlotCommit_loading has loading, if_pos (KeySlot.lenOk_of_le lo hi)]
  case generateBad => exact fun isOpen bad ok => by rw [exec_keySlotGenerate has, if_pos isOpen, if_pos (KeySlot.not_lenOk bad)]
  case generateGood =>
    intro isOpen lo hi
    have fits : ¬k.lenOk = false := by simp [KeySlot.lenOk_of_le lo hi]
    refine ⟨?_, fun b t drawn => ?_⟩
    · rw [exec_keySlotGenerate has, if_pos isOpen, if_neg fits, if_pos rfl]
    · rw [exec_keySlotGenerate has, if_pos isOpen, if_neg fits, if_neg (by decide), generateSlot_of_drbg drawn]
  case accepted =>
    intro b volatile t accepted
    subst accepted
    rw [acceptSlot_kslot volatile]
    exact ⟨rfl, rfl, rfl, rfl, rfl⟩

end Sys2Proof.Machine
end

section
/-! Alarms, zeroization and RELOAD_KEYS (09_cipher_digest.md R231, R232, R234): what an alarm source that asserts comes to, what every alarm leaves of the
keys, what RELOAD_KEYS checks and loads, and the statement about them. -/
namespace Sys2Proof.Machine

section
variable {s : State}

/-! ### Alarm sources (R231) -/

section
variable {src : Nat} (known : src ≤ 4)
include known

theorem exec_alarmAssert_holds : exec (.alarmAssert src true) s = .next
    (if s.keys.asserted.testBit src then s
     else State.raiseAlarm { s with keys.asserted := putBits s.keys.asserted src src 1 } src false) := by
  change execAlarmAssert src true s = _
  rw [execAlarmAssert, if_neg (by omega), if_neg (by decide)]

theorem exec_alarmAssert_ceases : exec (.alarmAssert src false) s = .next { s with keys.asserted := putBits s.keys.asserted src src 0 } := by
  change execAlarmAssert src false s = _
  rw [execAlarmAssert, if_neg (by omega), if_pos (by decide)]

end

/-- FORCED asserts by a write with CONFIRM and FORCE to a head that runs. -/
theorem exec_forcedAlarm (value : Nat) : exec (.forcedAlarm value) s = .next
    (if bits value 31 16 = 0x4B45 ∧ value.testBit 0 = true ∧ s.halted = false then s.raiseAlarm 4 false else s) := by
  change execForcedAlarm value s = _
  simp only [execForcedAlarm, Bool.not_eq_true']

/-! ### Zeroization (R232) -/

/-- No key of the device is left: none of the registers of R211, no material in a page or slot, no context that is not saved. -/
def Keys.Zero (k : Keys) : Prop :=
  k.dk = false ∧ k.dck = none ∧ k.pwk = none ∧ k.dumpKey = none ∧ k.erased = true ∧
  (∀ p ∈ k.pages, p.key1 = [] ∧ p.key2 = [] ∧ p.salt = 0 ∧ (p.state = .empty ∨ p.state = .erased)) ∧
  (∀ x ∈ k.slots, x.key = [] ∧ x.inner = [] ∧ x.outer = [] ∧ (x.state = .empty ∨ x.state = .erased)) ∧
  ∀ c ∈ k.ctxs, c.saved = true

theorem zeroize_zero (s : State) : s.zeroize.keys.Zero := zero_facts s

/-- After it zeroized the keys an alarm changes only the sources that assert and the offload jobs, so no key comes back. -/
theorem raiseAlarm_zero (s : State) (src : Nat) (own : Bool) : (s.raiseAlarm src own).keys.Zero := by
  obtain ⟨u, asserted, offs, left⟩ := raise_keys s src own
  rw [left]
  exact zeroize_zero u

/-! ### RELOAD_KEYS (R234) -/

/-- Every stored key has been loaded: what is still ERASED is EMPTY, and the keys are no longer erased. -/
def State.keysBack (t : State) : State :=
  { t with keys.pages := t.keys.pages.map KeyPage.afterReload, keys.slots := t.keys.slots.map KeySlot.afterReload, keys.erased := false }

section
variable {n slot : Nat} {e : Entry} (h : s.CanRun 0x66 n slot e)
include h

/-- The checks of RELOAD_KEYS in their order: a source that holds, tamper, the entropy; where every stored copy unwraps, all keys are loaded. -/
theorem exec_reloadKeys {t : State} (loaded : (s.begun n slot e).loadWorking.loadKeys [] [] = t) (ok : Bool) :
    exec (.reloadKeys n slot [] [] ok) s = .next (s.ended n slot e
      (if s.keys.asserted ≠ 0 then .done (s.begun n slot e) 0x0707 (leBytes 4 0 ++ leBytes 4 s.keys.asserted) []
       else if s.keys.tamper then .fail (s.begun n slot e) 0x0706
       else if ok = false then .fail (s.begun n slot e) stUnitFailed
       else .done (if t.keys.wasSolo then t.keysBack else { t.keysBack with pair.autoRejoin := true }) stOk [] [])) := by
  subst loaded
  change execReloadKeys n slot [] [] ok s = _
  rw [execReloadKeys, State.packet_runs _ h]
  simp only [State.begun_keys, Bool.not_eq_true']
  rfl

theorem exec_reloadKeys_asserted (holds : s.keys.asserted ≠ 0) (ok : Bool) : exec (.reloadKeys n slot [] [] ok) s =
    .next ((s.begun n slot e).replied n slot e 0x0707 (leBytes 4 0 ++ leBytes 4 s.keys.asserted) []) := by
  rw [exec_reloadKeys h rfl, if_pos holds, State.ended_done]

section
variable (quiet : s.keys.asserted = 0)
include quiet

theorem exec_reloadKeys_tamper (tamper : s.keys.tamper = true) (ok : Bool) :
    exec (.reloadKeys n slot [] [] ok) s = .next ((s.begun n slot e).replied n slot e 0x0706 [] []) := by
  rw [exec_reloadKeys h rfl, if_neg (not_not_intro quiet), if_pos tamper, State.ended_fail]

theorem exec_reloadKeys_noEntropy (sealed : s.keys.tamper = false) :
    exec (.reloadKeys n slot [] [] false) s = .next ((s.begun n slot e).replied n slot e stUnitFailed [] []) := by
  rw [exec_reloadKeys h rfl, if_neg (not_not_intro quiet), if_neg (ne_true_of_eq_false sealed), if_pos rfl, State.ended_fail]

theorem exec_reloadKeys_solo {t : State} (sealed : s.keys.tamper = false) (loaded : (s.begun n slot e).loadWorking.loadKeys [] [] = t)
    (solo : t.keys.wasSolo = true) : exec (.reloadKeys n slot [] [] true) s = .next (t.keysBack.replied n slot e stOk [] []) := by
  rw [exec_reloadKeys h loaded, if_neg (not_not_intro quiet), if_neg (ne_true_of_eq_false sealed), if_neg (by decide), if_pos solo, State.ended_done]

end
end
end

/-- Settles O44: the sources, the keys after a zeroization and after every alarm, and the checks of RELOAD_KEYS in their order. -/
theorem alarmsZeroizeTheKeys : Obligations.AlarmsZeroizeTheKeys := by
  unfold Obligations.AlarmsZeroizeTheKeys
  refine ⟨?sources, ?forced, fun s => zeroize_zero s, ?alarm, ?reload⟩
  case sources =>
    intro src s known
    refine ⟨fun asserted => ?_, fun asserts => ?_, exec_alarmAssert_ceases known⟩
    · rw [exec_alarmAssert_holds known, if_pos asserted]
    · rw [exec_alarmAssert_holds known, if_neg (ne_true_of_eq_false asserts)]
  case forced =>
    intro value s
    refine ⟨fun confirm force runs => ?_, fun refused => ?_⟩
    · rw [exec_forcedAlarm, if_pos ⟨confirm, force, runs⟩]
    · have unforced : ¬(bits value 31 16 = 0x4B45 ∧ value.testBit 0 = true ∧ s.halted = false) := by
        rintro ⟨confirm, force, runs⟩
        rcases refused with other | unset | halted
        · exact other confirm
        · exact ne_true_of_eq_false unset force
        · exact ne_true_of_eq_false runs halted
      rw [exec_forcedAlarm, if_neg unforced]
  case alarm =>
    intro src own s t raised
    subst raised
    exact raiseAlarm_zero s src own
  case reload =>
    intro n slot e s h
    exact ⟨exec_reloadKeys_asserted h, fun quiet tamper => exec_reloadKeys_tamper h quiet tamper, exec_reloadKeys_noEntropy h,
      fun quiet sealed t loaded solo => exec_reloadKeys_solo h quiet sealed loaded solo⟩

end Sys2Proof.Machine
end

section
/-! The commands on units and pans (10_media_units_pans.md R246, R258 to R264): the checks of each packet in their order, what it builds, takes out or puts in,
and the statement about them. -/
namespace Sys2Proof.Machine

section
variable {s : State} {n slot : Nat} {e : Entry}

/-- A packet that has placed a configuration record and answers IN_PROGRESS first (R464). -/
@[simp] theorem State.ended_cfgSteps (s u : State) (n slot : Nat) (e : Entry) (res : Bytes) :
    s.ended n slot e (u.cfgSteps (packetRef n slot e) res) =
      if u.peerInService then (u.cfgWait (packetRef n slot e) res).inProgress n slot e else (u.inProgress n slot e).replied n slot e stOk res [] := by
  unfold State.cfgSteps
  split <;> rfl

/-! ### GET_UNIT (R258) -/

/-- The result fields of GET_UNIT: `s` is the state whose descriptors are read. -/
def State.unitResult (s : State) (u : Nat) : Bytes :=
  let d := s.unit u
  n4 u ++ leBytes 1 d.state.code ++ leBytes 1 (leAt (s.descBytes u) 8 1) ++ leBytes 2 (if unitClass u = 5 then 0 else d.members.length) ++
    leBytes 2 (s.failedCnt d) ++ leBytes 2 0 ++ n4 d.parent ++ n4 (if d.rebuildTotal = 0 then 0 else d.rebuildDone * 65536 / d.rebuildTotal) ++ n4 0

theorem exec_getUnit (h : s.CanRun 0x20 n slot e) :
    let b := s.begun n slot e
    exec (.getUnit n slot) s = .next
      ((b.llcRead 2 (descLine e.target) 1 false).replied n slot e stOk (b.unitResult e.target) (b.descBytes e.target ++ b.mlistBytes e.target)) :=
  congrArg Host.Outcome.next (State.packet_runs _ h)

/-! ### Packets that change pans while the peer head takes over a layout (R264; log 141) -/

section
variable {opc : Nat} (body : Entry → PktRef → State → PktRes) (h : s.CanRun opc n slot e)
include h

theorem State.panPacket_busy (busy : (s.begun n slot e).layoutBusy = true) :
    s.panPacket opc n slot body = (s.begun n slot e).replied n slot e stBusy [] [] := by
  rw [State.panPacket, State.packet_runs _ h, if_pos busy, State.ended_fail]

theorem State.panPacket_runs (idle : (s.begun n slot e).layoutBusy = false) :
    s.panPacket opc n slot body = s.ended n slot e (body e (packetRef n slot e) (s.begun n slot e)) := by
  rw [State.panPacket, State.packet_runs _ h, if_neg (ne_true_of_eq_false idle)]

end

/-! ### CREATE_PAN (R259) -/

/-- The fields of a CREATE_PAN packet are ones that R259 allows. -/
def CreatePanFields (e : Entry) : Prop := e.num 10 4 < 0x100000 ∧ 1 ≤ e.num 14 1 ∧ e.num 14 1 ≤ 3 ∧ e.num 18 1 ≤ 1 ∧ e.zero 19 1 = true

theorem createPanFields_refused_iff (e : Entry) :
    (e.num 10 4 ≥ 0x100000 ∨ e.num 14 1 = 0 ∨ e.num 14 1 > 3 ∨ e.num 18 1 > 1 ∨ (!e.zero 19 1) = true) ↔ ¬CreatePanFields e := by
  rw [CreatePanFields]
  cases e.zero 19 1
  · simp
  · simp only [Bool.not_true, Bool.false_eq_true, or_false, and_true]
    omega

/-- The member list of a CREATE_PAN packet, as read from host memory. -/
def panMembers (e : Entry) (mlist : Bytes) : List Nat := (List.range (e.num 16 2)).map fun i => leAt mlist (4 * i) 4

/-- An entry of a member list has its reserved bits set (R239). -/
def badMembers (ms : List Nat) : Bool := ms.any fun x => decide (x ≥ 2 ^ 24)

/-- The member list of a CREATE_PAN packet is read from host memory. -/
def State.listRead (b : State) (e : Entry) : State := b.emit (.hostRead (e.num 20 8) (4 * e.num 16 2))

/-- What R245 says of the pan that a CREATE_PAN packet asks for. -/
def State.createStatus (r : State) (e : Entry) (ms : List Nat) : Nat :=
  r.panChecks (unitId 7 (e.num 10 4)) (e.num 14 1) (e.num 15 1) ms (e.num 18 1 == 1)

/-- The pan that a CREATE_PAN packet asks for is built, and its unit state record is placed. -/
def State.panCreated (r : State) (e : Entry) (ms : List Nat) : State :=
  (r.buildPan (unitId 7 (e.num 10 4)) (e.num 14 1) (e.num 15 1) ms (e.num 18 1 == 1)).placeUnit (unitId 7 (e.num 10 4))

section
variable (h : s.CanRun 0x21 n slot e)
include h

theorem exec_createPan_busy (busy : (s.begun n slot e).layoutBusy = true) (mlist : Bytes) :
    exec (.createPan n slot mlist) s = .next ((s.begun n slot e).replied n slot e stBusy [] []) :=
  congrArg Host.Outcome.next (State.panPacket_busy _ h busy)

section
variable (idle : (s.begun n slot e).layoutBusy = false)
include idle

/-- The checks of CREATE_PAN in their order: the fields, the reserved bits of the list, the rules of R245. -/
theorem exec_createPan {r : State} {ms : List Nat} {mlist : Bytes} (read : (s.begun n slot e).listRead e = r) (asked : panMembers e mlist = ms) :
    exec (.createPan n slot mlist) s = .next (s.ended n slot e
      (if e.num 10 4 ≥ 0x100000 ∨ e.num 14 1 = 0 ∨ e.num 14 1 > 3 ∨ e.num 18 1 > 1 ∨ !e.zero 19 1 then .fail (s.begun n slot e) stInvalidField
       else if badMembers ms then .fail r stInvalidField
       else if r.createStatus e ms ≠ stOk then .fail r (r.createStatus e ms)
       else .done (r.panCreated e ms) stOk [] [])) := by
  subst read asked
  exact congrArg Host.Outcome.next (State.panPacket_runs _ h idle)

theorem exec_createPan_badFields (bad : ¬CreatePanFields e) (mlist : Bytes) :
    exec (.createPan n slot mlist) s = .next ((s.begun n slot e).replied n slot e stInvalidField [] []) := by
  rw [exec_createPan h idle rfl rfl, if_pos ((createPanFields_refused_iff e).2 bad), State.ended_fail]

section
variable {r : State} {ms : List Nat} {mlist : Bytes} (read : (s.begun n slot e).listRead e = r) (asked : panMembers e mlist = ms) (good : CreatePanFields e)
include read asked good

theorem exec_createPan_badList (bad : badMembers ms = true) :
    exec (.createPan n slot mlist) s = .next (r.replied n slot e stInvalidField [] []) := by
  rw [exec_createPan h idle read asked, if_neg (fun refused => (createPanFields_refused_iff e).1 refused good), if_pos bad, State.ended_fail]

section
variable (list : badMembers ms = false)
include list

theorem exec_createPan_refused (refused : r.createStatus e ms ≠ stOk) :
    exec (.createPan n slot mlist) s = .next (r.replied n slot e (r.createStatus e ms) [] []) := by
  rw [exec_createPan h idle read asked, if_neg (fun fields => (createPanFields_refused_iff e).1 fields good), if_neg (ne_true_of_eq_false list),
    if_pos refused, State.ended_fail]

theorem exec_createPan_created (allowed : r.createStatus e ms = stOk) :
    exec (.createPan n slot mlist) s = .next ((r.panCreated e ms).replied n slot e stOk [] []) := by
  rw [exec_createPan h idle read asked, if_neg (fun fields => (createPanFields_refused_iff e).1 fields good), if_neg (ne_true_of_eq_false list),
    if_neg (not_not_intro allowed), State.ended_done]

end
end
end
end

/-! ### DELETE_PAN (R260) -/

/-- The pan is deleted: its members are free, its descriptor is empty, and spares may stand in where one was missing (R248, R253). -/
def State.panDeleted (b : State) (u : Nat) (ms : List Nat) : State :=
  let g := (b.freeMembers u ms).setUnitState u .absent 0
  ((g.putUnit { g.unit u with members := [], scheme := 0, m := 0, root := false, rebuildDone := 0, rebuildTotal := 0 }).placeUnit u).retrySubst

section
variable (h : s.CanRun 0x22 n slot e)
include h

theorem exec_deletePan_busy (busy : (s.begun n slot e).layoutBusy = true) :
    exec (.deletePan n slot) s = .next ((s.begun n slot e).replied n slot e stBusy [] []) :=
  congrArg Host.Outcome.next (State.panPacket_busy _ h busy)

/-- A pan that R260 keeps is in use; any other is deleted. -/
theorem exec_deletePan (idle : (s.begun n slot e).layoutBusy = false) {d : UnitD} (pan : s.unit e.target = d) :
    exec (.deletePan n slot) s = .next (s.ended n slot e
      (if d.parent ≠ 0 ∨ (d.root = true ∧ s.pool.loaded = true) ∨ ((s.unit d.parent).root = true ∧ s.topReferenced d.pos = true) ∨
          (d.root = true ∧ (List.range s.topCount).any s.topReferenced = true) then .fail (s.begun n slot e) 0x0804
       else .done ((s.begun n slot e).panDeleted e.target (d.members.map Member.unit)) stOk [] [])) := by
  subst pan
  exact congrArg Host.Outcome.next (State.panPacket_runs _ h idle)

end

/-! ### BUILD_DEFAULT_LAYOUT (R246, R261) -/

/-- A pan exists. -/
def State.hasPan (s : State) : Bool := s.med.units.any fun d => unitClass d.id == 7 && d.state != .absent

/-- The result fields of BUILD_DEFAULT_LAYOUT: the pans built, the spare dies and the ROOT unit. -/
def State.layoutResult (t : State) : Bytes :=
  n4 (t.med.units.filter fun d => unitClass d.id == 7 && d.state != .absent).length ++
    n4 (t.med.units.filter fun d => unitClass d.id == 6 && d.state == .online && !t.dieUsed d.id).length ++ n4 (unitId 7 0x2000)

section
variable {t : State} (h : s.CanRun 0x23 n slot e) (built : (s.begun n slot e).layout (e.num 10 2) = t)
include h built

/-- The checks of BUILD_DEFAULT_LAYOUT in their order: the fields, a pan that exists, modules that are too few. -/
theorem exec_buildDefaultLayout :
    exec (.buildDefaultLayout n slot) s = .next (s.ended n slot e
      (if e.num 10 2 > 64 ∨ !e.zero 12 2 then .fail (s.begun n slot e) stInvalidField
       else if s.hasPan then .fail (s.begun n slot e) 0x0808
       else if t.rootPan.isNone then .fail (s.begun n slot e) 0x0809
       else t.cfgSteps (packetRef n slot e) t.layoutResult)) := by
  subst built
  exact congrArg Host.Outcome.next (State.packet_runs _ h)

theorem exec_buildDefaultLayout_badFields (bad : 64 < e.num 10 2 ∨ e.zero 12 2 = false) :
    exec (.buildDefaultLayout n slot) s = .next ((s.begun n slot e).replied n slot e stInvalidField [] []) := by
  rw [exec_buildDefaultLayout h built, if_pos (bad.imp_right (by simp)), State.ended_fail]

section
variable (spares : e.num 10 2 ≤ 64) (reserved : e.zero 12 2 = true)
include spares reserved

/-- With fields that R261 allows, what remains is whether a pan exists and whether the layout has a ROOT pan. -/
theorem exec_buildDefaultLayout_good :
    exec (.buildDefaultLayout n slot) s = .next (s.ended n slot e
      (if s.hasPan then .fail (s.begun n slot e) 0x0808
       else if t.rootPan.isNone then .fail (s.begun n slot e) 0x0809
       else t.cfgSteps (packetRef n slot e) t.layoutResult)) := by
  rw [exec_buildDefaultLayout h built, if_neg (by simp [reserved, spares])]

theorem exec_buildDefaultLayout_exists (pan : s.hasPan = true) :
    exec (.buildDefaultLayout n slot) s = .next ((s.begun n slot e).replied n slot e 0x0808 [] []) := by
  rw [exec_buildDefaultLayout_good h built spares reserved, if_pos pan, State.ended_fail]

section
variable (empty : s.hasPan = false)
include empty

theorem exec_buildDefaultLayout_tooFew (few : t.rootPan = none) :
    exec (.buildDefaultLayout n slot) s = .next ((s.begun n slot e).replied n slot e 0x0809 [] []) := by
  rw [exec_buildDefaultLayout_good h built spares reserved, if_neg (ne_true_of_eq_false empty), few, if_pos (by decide), State.ended_fail]

/-- Its final reply waits until the peer head in service holds the layout. -/
theorem exec_buildDefaultLayout_built (root : t.rootPan.isSome = true) :
    exec (.buildDefaultLayout n slot) s = .next
      (if t.peerInService then (t.cfgWait (packetRef n slot e) t.layoutResult).inProgress n slot e
       else (t.inProgress n slot e).replied n slot e stOk t.layoutResult []) := by
  have noRefusal : ¬t.rootPan.isNone = true := by simpa [Option.isSome_iff_ne_none] using root
  rw [exec_buildDefaultLayout_good h built spares reserved, if_neg (ne_true_of_eq_false empty), if_neg noRefusal, State.ended_cfgSteps]

end
end
end

/-! ### SET_UNIT_SERVICE on a die (R262, R264) -/

/-- The checks of SET_UNIT_SERVICE on a die in their order: the action, a layout taken over, the die's state, what would fail with it, the module. -/
theorem exec_setUnitService_die (h : s.CanRun 0x24 n slot e) (die : unitClass e.target = 6) (ready : s.cfgReady = some stOk)
    (reserved : e.zero 11 3 = true) {b : State} (begins : s.begun n slot e = b) :
    exec (.setUnitService n slot) s = .next (s.ended n slot e
      (if e.num 10 1 > 1 then .fail b stInvalidField
       else if b.layoutBusy then .fail b stBusy
       else if e.num 10 1 = 0 then
         if s.ust e.target ≠ .online then .fail b stInvalidField
         else if b.newlyFailed (b.takeOut e.target) then .fail b 0x0806
         else .done (b.takeOut e.target) stOk [] []
       else if s.ust e.target ≠ .offline ∧ s.ust e.target ≠ .failed then .fail b stInvalidField
       else if !s.reachable (dieModule e.target) || (s.mod (dieModule e.target)).heldReason != 0 then .fail b stUnitFailed
       else .done (b.leafIn e.target) stOk [] [])).afterUnits := by
  subst begins
  have ready' : (s.begun n slot e).cfgReady = some stOk := ready
  change execSetUnitService n slot s = _
  rw [execSetUnitService, rowSetUnitService, State.packet_runs _ h]
  have noPort : (unitClass e.target == 1) = false := by rw [die]; rfl
  have otherClass : unitClass e.target ≠ 5 := by rw [die]; decide
  simp only [noPort, ready', reserved, if_pos die, if_neg otherClass, Bool.not_true, Bool.false_eq_true, or_false, Bool.not_false, Bool.true_and,
    false_and, if_false, ne_eq, not_true_eq_false]
  rfl

/-! ### REPLACE_MEMBER (R263) -/

/-- The member that stands at a position of a pan. -/
def State.memberAt (s : State) (u pos : Nat) : Member := (s.unit u).members.getD pos ⟨0, false⟩

/-- The substitute stands at its position and the pan is judged again. -/
def State.memberReplaced (b : State) (u pos new : Nat) : State :=
  let t := (b.assignSubst u pos new).placeUnit new
  (t.setUnitState u (t.panTarget (t.unit u)) 0).placeUnit u

section
variable (h : s.CanRun 0x25 n slot e)
include h

theorem exec_replaceMember_busy (busy : (s.begun n slot e).layoutBusy = true) :
    exec (.replaceMember n slot) s = .next ((s.begun n slot e).replied n slot e stBusy [] []) :=
  congrArg Host.Outcome.next (State.panPacket_busy _ h busy)

section
variable (idle : (s.begun n slot e).layoutBusy = false)
include idle

/-- The checks of REPLACE_MEMBER in their order: the fields, the position, the class, the tree, a serving spare, its fit. -/
theorem exec_replaceMember {b : State} {m : Member} {new : Nat} (begins : s.begun n slot e = b) (stands : s.memberAt e.target (e.num 10 2) = m)
    (named : e.num 14 4 = new) :
    exec (.replaceMember n slot) s = .next (s.ended n slot e
      (if !e.zero 12 2 ∨ e.num 10 2 ≥ (s.unit e.target).members.length ∨ new ≥ 2 ^ 24 ∨ !unitValid new then .fail b stInvalidField
       else if !s.posFailed e.target m then .fail b 0x080A
       else if unitClass new ≠ unitClass m.unit then .fail b 0x0802
       else if new = e.target ∨ (b.above b.depth e.target).contains new = true then .fail b 0x0803
       else if (s.unit new).root = true ∨ s.ust new ≠ .online ∨ (s.unit new).parent ≠ 0 ∨ (unitClass new = 6 ∧ s.dieUsed new) ∨
           (unitClass new = 5 ∧ !s.spareModule (unitIndex new)) then .fail b 0x0801
       else if b.fitsFor new m.unit = false then .fail b 0x0802
       else .done (b.memberReplaced e.target (e.num 10 2) new) stOk [] [])) := by
  subst begins stands named
  exact congrArg Host.Outcome.next (State.panPacket_runs _ h idle)

theorem exec_replaceMember_noPosition (beyond : (s.unit e.target).members.length ≤ e.num 10 2) :
    exec (.replaceMember n slot) s = .next ((s.begun n slot e).replied n slot e stInvalidField [] []) := by
  rw [exec_replaceMember h idle rfl rfl rfl, if_pos (.inr (.inl beyond)), State.ended_fail]

end
end

/-- The fields of a REPLACE_MEMBER packet are ones that R263 allows: it names a position of the pan and a unit. -/
structure State.ReplaceFields (s : State) (e : Entry) (m : Member) (new : Nat) : Prop where
  stands : s.memberAt e.target (e.num 10 2) = m
  named : e.num 14 4 = new
  reserved : e.zero 12 2 = true
  position : e.num 10 2 < (s.unit e.target).members.length
  short : new < 2 ^ 24
  valid : unitValid new = true

section
variable {b : State} {m : Member} {new : Nat} (h : s.CanRun 0x25 n slot e) (idle : (s.begun n slot e).layoutBusy = false)
  (begins : s.begun n slot e = b) (good : s.ReplaceFields e m new)
include h idle begins good

/-- With fields that are allowed, what remains is whether the position failed and whether the new unit may stand there. -/
theorem exec_replaceMember_good :
    exec (.replaceMember n slot) s = .next (s.ended n slot e
      (if !s.posFailed e.target m then .fail b 0x080A
       else if unitClass new ≠ unitClass m.unit then .fail b 0x0802
       else if new = e.target ∨ (b.above b.depth e.target).contains new = true then .fail b 0x0803
       else if (s.unit new).root = true ∨ s.ust new ≠ .online ∨ (s.unit new).parent ≠ 0 ∨ (unitClass new = 6 ∧ s.dieUsed new) ∨
           (unitClass new = 5 ∧ !s.spareModule (unitIndex new)) then .fail b 0x0801
       else if b.fitsFor new m.unit = false then .fail b 0x0802
       else .done (b.memberReplaced e.target (e.num 10 2) new) stOk [] [])) := by
  obtain ⟨stands, named, reserved, position, short, valid⟩ := good
  have allowed : ¬((!e.zero 12 2) = true ∨ e.num 10 2 ≥ (s.unit e.target).members.length ∨ new ≥ 2 ^ 24 ∨ (!unitValid new) = true) := by
    simp only [reserved, valid, Bool.not_true, Bool.false_eq_true, false_or, or_false]
    omega
  rw [exec_replaceMember h idle begins stands named, if_neg allowed]

theorem exec_replaceMember_notFailed (serves : s.posFailed e.target m = false) :
    exec (.replaceMember n slot) s = .next (b.replied n slot e 0x080A [] []) := by
  rw [exec_replaceMember_good h idle begins good, serves, if_pos (by decide), State.ended_fail]

section
variable (failed : s.posFailed e.target m = true)
include failed

theorem exec_replaceMember_otherClass (other : unitClass new ≠ unitClass m.unit) :
    exec (.replaceMember n slot) s = .next (b.replied n slot e 0x0802 [] []) := by
  rw [exec_replaceMember_good h idle begins good, failed, if_neg (by decide), if_pos other, State.ended_fail]

section
variable (kind : unitClass new = unitClass m.unit)
include kind

theorem exec_replaceMember_above (above : new = e.target ∨ (b.above b.depth e.target).contains new = true) :
    exec (.replaceMember n slot) s = .next (b.replied n slot e 0x0803 [] []) := by
  rw [exec_replaceMember_good h idle begins good, failed, if_neg (by decide), if_neg (not_not_intro kind), if_pos above, State.ended_fail]

section
variable (apart : ¬(new = e.target ∨ (b.above b.depth e.target).contains new = true))
include apart

theorem exec_replaceMember_notServing (out : (s.unit new).root = true ∨ s.ust new ≠ .online) :
    exec (.replaceMember n slot) s = .next (b.replied n slot e 0x0801 [] []) := by
  rw [exec_replaceMember_good h idle begins good, failed, if_neg (by decide), if_neg (not_not_intro kind), if_neg apart,
    if_pos (out.imp_right .inl), State.ended_fail]

/-- A spare die of the P_b of the member's dies takes the position. -/
theorem exec_replaceMember_die (die : unitClass new = 6) (noRoot : (s.unit new).root = false) (online : s.ust new = .online)
    (free : (s.unit new).parent = 0) (unused : s.dieUsed new = false) (samePb : b.unitPb new = b.unitPb m.unit) :
    exec (.replaceMember n slot) s = .next ((b.memberReplaced e.target (e.num 10 2) new).replied n slot e stOk [] []) := by
  have fits : b.fitsFor new m.unit = true := by simp [State.fitsFor, die, samePb]
  rw [exec_replaceMember_good h idle begins good, failed, if_neg (by decide), if_neg (not_not_intro kind), if_neg apart,
    if_neg (by simp [noRoot, online, free, unused, die]), fits, if_neg (by decide), State.ended_done]

end
end
end
end
end

/-- Settles O45: each packet's answers, from its checks in their order. -/
theorem unitsAndPansAreBuiltAndReplaced : Obligations.UnitsAndPansAreBuiltAndReplaced := by
  unfold Obligations.UnitsAndPansAreBuiltAndReplaced
  refine ⟨fun n slot e s h => exec_getUnit h, ?creates, ?deletes, ?builds, ?serves, ?replaces⟩
  case creates =>
    intro n slot mlist e s h
    exact ⟨fun busy => exec_createPan_busy h busy mlist, fun idle bad => exec_createPan_badFields h idle bad mlist,
      fun idle good bad => exec_createPan_badList h idle rfl rfl good bad,
      fun idle good list refused => exec_createPan_refused h idle rfl rfl good list refused,
      fun idle good list allowed => exec_createPan_created h idle rfl rfl good list allowed⟩
  case deletes =>
    intro n slot e s h
    refine ⟨exec_deletePan_busy h, fun idle kept => ?_, fun idle free => ?_⟩
    · rw [exec_deletePan h idle rfl, if_pos kept, State.ended_fail]
    · rw [exec_deletePan h idle rfl, if_neg free, State.ended_done]
      rfl
  case builds =>
    intro n slot e s h
    refine ⟨exec_buildDefaultLayout_badFields h rfl, exec_buildDefaultLayout_exists h rfl, exec_buildDefaultLayout_tooFew h rfl,
      fun spares reserved empty root alone => ?_, fun spares reserved empty root paired => ?_⟩
    · exact (exec_buildDefaultLayout_built h rfl spares reserved empty root).trans (congrArg Host.Outcome.next (if_neg (ne_true_of_eq_false alone)))
    · exact (exec_buildDefaultLayout_built h rfl spares reserved empty root).trans (congrArg Host.Outcome.next (if_pos paired))
  case serves =>
    intro n slot e s h die ready reserved
    rw [exec_setUnitService_die h die ready reserved rfl]
    refine ⟨fun busy act => ?_, fun idle out off => ?_, fun idle out online fails => ?_, fun idle out online stands => ?_,
      fun idle back gone reach held => ?_⟩
    · rw [if_neg (Nat.not_lt.2 act), if_pos busy, State.ended_fail]
    · rw [out, if_neg (by decide), if_neg (ne_true_of_eq_false idle), if_pos rfl, if_pos off, State.ended_fail]
    · rw [out, if_neg (by decide), if_neg (ne_true_of_eq_false idle), if_pos rfl, if_neg (not_not_intro online), if_pos fails, State.ended_fail]
    · rw [out, if_neg (by decide), if_neg (ne_true_of_eq_false idle), if_pos rfl, if_neg (not_not_intro online),
        if_neg (ne_true_of_eq_false stands), State.ended_done]
    · have known : ¬(s.ust e.target ≠ .offline ∧ s.ust e.target ≠ .failed) := fun neither => gone.elim neither.1 neither.2
      rw [back, if_neg (by decide), if_neg (ne_true_of_eq_false idle), if_neg (by decide), if_neg known, if_neg (by simp [reach, held]),
        State.ended_done]
  case replaces =>
    intro n slot e s h
    refine ⟨exec_replaceMember_busy h, fun idle beyond => exec_replaceMember_noPosition h idle beyond, fun idle reserved position short valid => ?_⟩
    have good : s.ReplaceFields e (s.memberAt e.target (e.num 10 2)) (e.num 14 4) := ⟨rfl, rfl, reserved, position, short, valid⟩
    refine ⟨exec_replaceMember_notFailed h idle rfl good, exec_replaceMember_otherClass h idle rfl good, exec_replaceMember_above h idle rfl good,
      fun failed kind differs outside => ?_, fun failed die dieMember differs outside noRoot online free unused samePb t taken => ?_⟩
    · exact exec_replaceMember_notServing h idle rfl good failed kind (not_or.2 ⟨differs, ne_true_of_eq_false outside⟩)
    · subst taken
      exact exec_replaceMember_die h idle rfl good failed (die.trans dieMember.symm) (not_or.2 ⟨differs, ne_true_of_eq_false outside⟩) die
        noRoot online free unused samePb

end Sys2Proof.Machine
end

section
/-! Media under way (10_media_units_pans.md R248 to R250, R254, R257; 11_flash_translation.md R274; 12_harvest_health.md R297; 15_pair_operation.md R364): what
a command without an answer, a late booked read, the end of a rebuild, a message about units or grants and each step of a harvest come to, and the statement
about them. -/
namespace Sys2Proof.Machine

section
variable {s : State}

/-! ### Commands and booked reads that get no answer in time (R249, R250) -/

/-- A command without a completion: of a module, it goes out once more; of a die, the first miss sends it again and the second fails the die (R249). -/
theorem exec_dieCommandTimeout {port tag : Nat} {c : ModCmd} (waits : s.cmdOf port tag = some c) :
    exec (.dieCommandTimeout port tag) s = .next (State.afterUnits
      (if !c.sent then s
       else if c.die = 0xFFFF then (if c.reissued then s.endCmd c else s.reissue c)
       else if (s.dieMissed (dieUnit port c.die)).2 = 1 then (s.dieMissed (dieUnit port c.die)).1.reissue c
       else ((s.dieMissed (dieUnit port c.die)).1.dieOut (dieUnit port c.die) 1 .failed).rescueReads)) := by
  change execDieCommandTimeout port tag s = _
  rw [execDieCommandTimeout, rowDieCommandTimeout, waits]

/-- The parts of a read, numbered, that have neither data nor a reconstruction that runs, and are not lost. -/
def ReadJob.late (j : ReadJob) : List (Nat × RPart) :=
  ((List.range j.parts.length).zip j.parts).filter fun x => x.2.got.isNone && !x.2.recon && !x.2.lost

/-- The answer to a part of a read is waited for no longer. -/
def State.partDropped (s : State) (job i : Nat) : State := { s with lnk.cmds := s.lnk.cmds.filter fun c => c.why != Purpose.read job i 0 }

/-- A late part is read through the peer head where this head's own port is down, and reconstructed otherwise (R250). -/
def State.readAgain (job : Nat) (s : State) (x : Nat × RPart) : State :=
  if s.direct (dieModule x.2.die) = false ∧ s.reachable (dieModule x.2.die) = true ∧ (s.ust x.2.die).serving = true then
    (s.partDropped job x.1).readUnit true x.2.die x.2.blk x.2.pu x.2.crumb x.2.crumbs x.2.level (.read job x.1 0)
  else (s.partDropped job x.1).reconstruct job x.1

/-- Which of the two it is does not depend on the command that is dropped. -/
theorem readAgain_of_dropped (job : Nat) : State.readAgain job = fun s x =>
    let t := s.partDropped job x.1
    if !t.direct (dieModule x.2.die) && t.reachable (dieModule x.2.die) && (t.ust x.2.die).serving then
      t.readUnit true x.2.die x.2.blk x.2.pu x.2.crumb x.2.crumbs x.2.level (.read job x.1 0)
    else t.reconstruct job x.1 := by
  funext s x
  refine ite_congr (propext ?_) (fun _ => rfl) (fun _ => rfl)
  change _ ↔ (!s.direct (dieModule x.2.die) && s.reachable (dieModule x.2.die) && (s.ust x.2.die).serving) = true
  rw [Bool.and_eq_true, Bool.and_eq_true, Bool.not_eq_true', and_assoc]

section
variable {job : Nat} {j : ReadJob} (reads : s.job? job = some j)
include reads

theorem exec_bookedReadTimeout_unbooked (unbooked : j.booked = false) : exec (.bookedReadTimeout job) s = .next s.afterUnits := by
  change execBookedReadTimeout job s = _
  simp only [execBookedReadTimeout, rowBookedReadTimeout, reads, unbooked, Bool.not_false, if_true]

theorem exec_bookedReadTimeout_booked (booked : j.booked = true) : exec (.bookedReadTimeout job) s =
    .next (j.late.foldl (State.readAgain job) (s.bumpBy R.MED_SLOW_REISSUE_CNT j.late.length)).afterUnits := by
  change execBookedReadTimeout job s = _
  rw [execBookedReadTimeout, rowBookedReadTimeout, reads]
  dsimp only
  rw [booked, if_neg (by decide), readAgain_of_dropped]
  rfl

end

/-! ### The end of a rebuild (R248, R254) -/

/-- This head still rebuilds a position: rows are left, or one is under way. -/
def State.rebuildRuns (s : State) (pan pos : Nat) : Bool :=
  s.med.rebuilds.any fun b => b.pan == pan && b.pos == pos && (!b.rows.isEmpty || s.rebuildBusy b)

/-- The position counts as failed no longer: its entry loses the SUBST mark, and with the last mark the pan's rebuild is over (R238, R248). -/
def State.markCleared (s : State) (pan pos : Nat) (m : Member) : State :=
  let d := s.unit pan
  let ms := d.members.set pos ⟨m.unit, false⟩
  s.putUnit { d with
    members := ms
    rebuildDone := if ms.any (·.subst) then d.rebuildDone else 0
    rebuildTotal := if ms.any (·.subst) then d.rebuildTotal else 0 }

section
variable {pan pos : Nat} {m : Member} (stands : (s.unit pan).members[pos]? = some m)
include stands

theorem exec_rebuildPositionEnd : exec (.rebuildPositionEnd pan pos) s = .next
    (if !m.subst || s.rebuildRuns pan pos then s
     else ((s.markCleared pan pos m).recount (s.markCleared pan pos m).depth pan).rebuildPump) := by
  change execRebuildPositionEnd pan pos s = _
  simp only [execRebuildPositionEnd, stands]
  rfl

theorem exec_rebuildPositionEnd_unchanged (idle : m.subst = false ∨ s.rebuildRuns pan pos = true) :
    exec (.rebuildPositionEnd pan pos) s = .next s := by
  rw [exec_rebuildPositionEnd stands, if_pos (by rcases idle with h | h <;> simp [h])]

theorem exec_rebuildPositionEnd_over (rebuilt : m.subst = true) (ended : s.rebuildRuns pan pos = false) :
    exec (.rebuildPositionEnd pan pos) s =
      .next ((s.markCleared pan pos m).recount (s.markCleared pan pos m).depth pan).rebuildPump := by
  rw [exec_rebuildPositionEnd stands, if_neg (by simp [rebuilt, ended])]

end

theorem markCleared_last {pan pos : Nat} {m : Member} (last : ((s.unit pan).members.set pos ⟨m.unit, false⟩).any (·.subst) = false) :
    s.markCleared pan pos m = s.putUnit { s.unit pan with
      members := (s.unit pan).members.set pos ⟨m.unit, false⟩, rebuildDone := 0, rebuildTotal := 0 } := by
  simp only [State.markCleared, last, Bool.false_eq_true, if_false]

/-! ### Messages of the peer about units and grants (R257, R274, R364) -/

section
variable {h : PtlHdr} (o : s.InOrder 0 h)
include o

section
variable {payload b : Bytes} (whole : s.whole 0 h payload = b)
include whole

theorem exec_unitStateRecordRx : exec (.unitStateRecordRx h payload) s = .next (State.afterUnits
    (if !unitShared (leAt (b.drop 2) 0 3) then s.taken 0 h
     else (if (s.taken 0 h).pool.loaded then (s.taken 0 h).placeRec (s.taken 0 h).role 0x04 0 (b.drop 2) else s.taken 0 h).applyUnit (b.drop 2))) := by
  subst whole
  change execUnitStateRecordRx h payload s = _
  rw [execUnitStateRecordRx, rowUnitStateRecordRx, State.onPtl_runs _ _ o]

/-- A grant of the arbiter: of the own journal it is recorded, of the other it is noted. -/
theorem exec_grantRx : exec (.grantRx h payload) s = .next
    (if leAt b 3 1 = (s.taken 0 h).role then
       (s.taken 0 h).recordGrant (leAt b 3 1) (leAt b 5 1) (leAt b 4 1) (leAt b 10 4) (leAt b 6 1 == 1)
     else (s.taken 0 h).openBlk (leAt b 3 1) (leAt b 5 1) (leAt b 4 1) (leAt b 10 4) (leAt b 6 1 == 1) false) := by
  subst whole
  change execGrantRx h payload s = _
  rw [execGrantRx, State.onPtl_runs _ _ o]

end

theorem exec_grantRequestRx_peer {j : Nat} (other : j ≠ s.role) (serves : s.peerInService = true) (st : Nat) :
    exec (.grantRequestRx h j st) s = .next
      (if (s.taken 0 h).isArbiter ∧ st < 5 then (s.taken 0 h).grant j st else s.taken 0 h) := by
  change execGrantRequestRx h j st s = _
  rw [execGrantRequestRx, if_pos ⟨other, serves⟩, State.onPtl_runs _ _ o]

end

theorem exec_grantRequestRx_own (h : PtlHdr) (st : Nat) : exec (.grantRequestRx h s.role st) s = .next
    (if s.isArbiter ∧ s.ftl.grantReq.contains (s.role, st) then s.grant s.role st else s) := by
  change execGrantRequestRx h s.role st s = _
  rw [execGrantRequestRx, if_neg (fun other => other.1 rfl)]

/-! ### The steps of a harvest (R297) -/

theorem exec_harvestStart_notHeld {j : Nat} (other : s.heldJournals.contains j = false) (top : Nat) : exec (.harvestStart j top) s = .next s := by
  change execHarvestStart j top s = _
  rw [execHarvestStart, other, Bool.not_false, Bool.true_or, if_pos rfl]

/-- The victim of a harvest is taken, and the start record of its journal is placed (R297, R298). -/
def State.harvestOpened (s : State) (j top : Nat) (b : Blk) : State :=
  ((s.bump R.FTL_HARV_VICTIM_CNT).putBlk { b with state := .victim }).placeRec j 0x07 1 (harvestHead 1 (2 * s.victimClass b) top b.blk)

/-- A harvest begins once its start record stands in the journal, and the record is a seal point. -/
def State.harvestBegun (r : State) (j top blk cls : Nat) : State :=
  State.seal { r with ftl.harvests := r.ftl.harvests ++ [⟨top, blk, cls, 1, [], j, r.lastMark j⟩] } j (r.lastMark j).1

section
variable {j top : Nat} (held : s.heldJournals.contains j = true) (noHarvest : s.ftl.harvests = [])
include held noHarvest

theorem exec_harvestStart_noVictim (empty : s.victim j top = none) : exec (.harvestStart j top) s = .next s := by
  change execHarvestStart j top s = _
  simp only [execHarvestStart, held, noHarvest, empty, List.any_nil, Bool.not_true, Bool.or_false, Bool.false_eq_true, if_false]

theorem exec_harvestStart_begun {b : Blk} (chosen : s.victim j top = some b) (noRefresh : s.victimClass b ≠ 3) :
    exec (.harvestStart j top) s = .next ((s.harvestOpened j top b).harvestBegun j top b.blk (s.victimClass b)) := by
  change execHarvestStart j top s = _
  simp only [execHarvestStart, held, noHarvest, chosen, if_neg noRefresh, List.any_nil, Bool.not_true, Bool.or_false, Bool.false_eq_true, if_false]
  rfl

end

section
variable {top blk : Nat} {h : Harvest} (runs : s.harvest? top blk = some h)
include runs

theorem exec_harvestCopy_early (early : h.step ≠ 1 ∨ s.recDone h.journal h.mark = false) : exec (.harvestCopy top blk) s = .next s := by
  change execHarvestCopy top blk s = _
  simp only [execHarvestCopy, runs, if_pos early]

/-- Every valid frame of the victim is asked for. -/
def State.framesAsked (u : State) (top blk : Nat) (h : Harvest) : State :=
  (u.validIn (u.blk top blk)).foldl (fun s n => s.readGrain (.harvest top blk) n false) (u.putHarvest { h with step := 2 })

theorem exec_harvestCopy_read (step : h.step = 1) (started : s.recDone h.journal h.mark = true) {t : State}
    (asked : (s.contentScan (s.blk top blk)).framesAsked top blk h = t) {k : Harvest} (left : t.harvest? top blk = some k) :
    exec (.harvestCopy top blk) s = .next (t.packCopies k) := by
  change execHarvestCopy top blk s = _
  simp only [State.framesAsked] at asked
  simp only [execHarvestCopy, runs, if_neg (show ¬(h.step ≠ 1 ∨ s.recDone h.journal h.mark = false) by simp [step, started]), asked, left]

theorem exec_harvestCommit_early (early : h.step ≠ 3 ∨ s.copiesDone h = false) : exec (.harvestCommit top blk) s = .next s := by
  change execHarvestCommit top blk s = _
  simp only [execHarvestCommit, runs, if_pos early]

/-- Its final commit stands in the journal: the victim is to be erased once that record is on media. -/
def State.harvestCommitted (r : State) (top blk : Nat) (h : Harvest) : State :=
  ((r.putBlk { r.blk top blk with state := .erasePending }).putHarvest { h with step := 4, mark := r.lastMark h.journal }).seal h.journal
    (r.lastMark h.journal).1

theorem exec_harvestCommit (step : h.step = 3) (copied : s.copiesDone h = true) :
    exec (.harvestCommit top blk) s = .next
      (((h.copies.foldl State.commitItem s).placeParts h.journal 0x07 1 (commitParts top blk h.copies)).harvestCommitted top blk h) := by
  change execHarvestCommit top blk s = _
  simp only [execHarvestCommit, runs, if_neg (show ¬(h.step ≠ 3 ∨ s.copiesDone h = false) by simp [step, copied])]
  rfl

/-- A victim without a valid frame has one commit record, which carries LAST (R298). -/
theorem exec_harvestCommit_noCopies (step : h.step = 3) (copied : s.copiesDone h = true) (noCopies : h.copies = []) :
    exec (.harvestCommit top blk) s = .next ((s.placeParts h.journal 0x07 1 [harvestHead 2 1 top blk ++ []]).harvestCommitted top blk h) := by
  rw [exec_harvestCommit runs step copied, noCopies]
  rfl

theorem exec_harvestErase : exec (.harvestErase top blk) s = .next
    (if (s.blk top blk).state ≠ .erasePending ∨ (s.blk top blk).eraseLeft ≠ [] ∨ (h.step == 4 && s.recDone h.journal h.mark) = false ∨
        s.readsIn top blk ∨ s.ust (s.topPan top) = .readOnly then s
     else s.eraseBlk top blk) := by
  change execHarvestErase top blk s = _
  simp only [execHarvestErase, runs]

/-- A block that is not to be erased yet, or whose final commit is not on media yet, stays as it is. -/
theorem exec_harvestErase_early (early : (s.blk top blk).state ≠ .erasePending ∨ h.step ≠ 4 ∨ s.recDone h.journal h.mark = false) :
    exec (.harvestErase top blk) s = .next s := by
  rw [exec_harvestErase runs]
  rcases early with inUse | step | unwritten
  · rw [if_pos (.inl inUse)]
  · rw [if_pos (.inr (.inr (.inl (by simp [step]))))]
  · rw [if_pos (.inr (.inr (.inl (by simp [unwritten]))))]

theorem exec_harvestErase_ready (pending : (s.blk top blk).state = .erasePending) (whole : (s.blk top blk).eraseLeft = []) (step : h.step = 4)
    (committed : s.recDone h.journal h.mark = true) (unread : s.readsIn top blk = false) (writable : s.ust (s.topPan top) ≠ .readOnly) :
    exec (.harvestErase top blk) s = .next (s.eraseBlk top blk) := by
  rw [exec_harvestErase runs, if_neg (by simp [pending, whole, step, committed, unread, writable])]

end

end

/-- Settles O46: each command's outcome, from the lemmas on it. -/
theorem mediaRecoversGrantsAndHarvests : Obligations.MediaRecoversGrantsAndHarvests := by
  unfold Obligations.MediaRecoversGrantsAndHarvests
  refine ⟨?timeouts, ?booked, ?rebuilt, ?messages, ?requests, ?starts, ?steps⟩
  case timeouts =>
    intro port tag c s waits
    rw [exec_dieCommandTimeout waits]
    refine ⟨fun unsent => ?_, fun sent whole first => ?_, fun t k sent die missed => ⟨fun once => ?_, fun again => ?_⟩⟩
    · rw [unsent, if_pos (by decide)]
    · rw [sent, if_neg (by decide), if_pos whole, first, if_neg (by decide)]
    · rw [sent, if_neg (by decide), if_neg die, missed, if_pos once]
    · rw [sent, if_neg (by decide), if_neg die, missed, if_neg again]
  case booked => exact fun job j s reads => ⟨exec_bookedReadTimeout_unbooked reads, exec_bookedReadTimeout_booked reads⟩
  case rebuilt =>
    intro pan pos m s stands
    refine ⟨fun unmarked => exec_rebuildPositionEnd_unchanged stands (.inl unmarked), fun _ runs => exec_rebuildPositionEnd_unchanged stands (.inr runs),
      fun marked ended last => ?_⟩
    rw [exec_rebuildPositionEnd_over stands marked ended, markCleared_last last]
  case messages =>
    intro h payload s o b whole
    refine ⟨fun headLocal => ?_, fun shared unloaded => ?_, fun own => ?_, fun other => ?_⟩
    · rw [exec_unitStateRecordRx o whole, headLocal, if_pos (by decide)]
    · rw [exec_unitStateRecordRx o whole, shared, if_neg (by decide), if_neg (ne_true_of_eq_false unloaded)]
    · rw [exec_grantRx o whole, if_pos own]
    · rw [exec_grantRx o whole, if_neg other]
  case requests =>
    intro h j st s
    refine ⟨fun own arbiter asked => ?_, fun own other => ?_, fun other serves o stream arbiter => ?_⟩
    · subst own
      rw [exec_grantRequestRx_own, if_pos ⟨arbiter, asked⟩]
    · subst own
      rw [exec_grantRequestRx_own, if_neg (fun both => ne_true_of_eq_false other both.1)]
    · rw [exec_grantRequestRx_peer o other serves, if_pos ⟨arbiter, stream⟩]
  case starts =>
    exact fun j top s => ⟨fun other => exec_harvestStart_notHeld other top, exec_harvestStart_noVictim,
      fun b held noHarvest chosen noRefresh => exec_harvestStart_begun held noHarvest chosen noRefresh⟩
  case steps =>
    intro top blk h s runs
    exact ⟨exec_harvestCopy_early runs, fun step started t asked k left => exec_harvestCopy_read runs step started asked left,
      exec_harvestCommit_early runs, exec_harvestCommit_noCopies runs, exec_harvestErase_early runs, exec_harvestErase_ready runs⟩

end Sys2Proof.Machine
end

section
/-! The event recorder's timers and packets, and the saving of the health record (19_event_recorder.md R445, R446, R448 to R451, R454;
12_harvest_health.md R308): what each command comes to, and the statement about them. -/
namespace Sys2Proof.Machine

section
variable {s : State}

/-! ### Flushes (R445, R446, R448) -/

/-- The records of the flush have been written: to the circular area page by page, and run by run to the retained slices. -/
def State.flushWritten (s : State) : State :=
  let rs := s.evr.awaiting.take s.evr.flushRecs
  (splitEpochs rs []).foldl State.retainRun ((evPages rs [] []).foldl State.evPage s)

/-- The records of the flush leave the buffer, and no flush runs. -/
def State.flushLeft (s : State) : State :=
  { s with
    evr.awaiting := s.evr.awaiting.drop s.evr.flushRecs, evr.awaitBytes := s.evr.awaitBytes - s.evr.flushBytes, evr.flushing := false
    evr.flushRecs := 0, evr.flushBytes := 0, evr.flushPend := false }

theorem exec_evrFlushTimer_due (due : s.evr.flushBytes < s.evr.awaitBytes) : exec .evrFlushTimer s = .next s.flushStart := by
  change execEvrFlushTimer s = _
  rw [execEvrFlushTimer, if_pos due]

theorem exec_evrFlushDone_idle (idle : s.evr.flushing = false) : exec .evrFlushDone s = .next s := by
  change execEvrFlushDone s = _
  rw [execEvrFlushDone, idle, if_pos (by decide)]

/-- A trigger noted while the flush ran starts the next one; without it the end of the flush may be what DUMP_DONE waits for. -/
theorem exec_evrFlushDone_running (running : s.evr.flushing = true) : exec .evrFlushDone s = .next
    (if s.flushWritten.evr.flushPend then s.flushWritten.flushLeft.flushStart else s.flushWritten.flushLeft.dumpCheck) := by
  change execEvrFlushDone s = _
  rw [execEvrFlushDone, running, if_neg (by decide)]
  rfl

/-! ### The thaw (R446, R449) -/

theorem thaw_of_not_frozen (flows : s.evr.frozen = false) : s.thaw = s := by
  rw [State.thaw, flows, if_pos (by decide)]

/-- A thaw between two block pairs of the circular area has no erase to make up for. -/
theorem thaw_at_pair_start {u v : State} (frozen : s.evr.frozen = true)
    (appended : u = s.evr.heldRecs.foldl State.thawRec { s with evr.frozen := false, evr.heldRecs := [], evr.heldBytes := 0, evr.frozenDrops := [] })
    (summed : v = u.event 0x14 0x13 2 0 (s.evr.frozenDrops.flatMap fun c => evCount c (u.rd (R.EVR_DROP_CNT c)).toNat))
    (atStart : v.evr.nextPage % 128 = 0) : s.thaw = v := by
  subst appended summed
  rw [State.thaw, frozen, if_neg (by decide)]
  exact if_pos atStart

/-! ### The end of a coalescing window (R454) -/

/-- The entry of an event goes on after its window: the event leaves if it waits and its log page has been read. -/
theorem exec_aenWindowExpiry_single {ctrl typ info : Nat} {a : AenSlot} (only : s.evr.aen = [a]) (mine : a.is ctrl typ info = true) :
    let u := { s with evr.aen := [{ a with windowOpen := false }] }
    exec (.aenWindowExpiry ctrl typ info) s = .next (if a.waiting && !a.unread then u.postAen ctrl typ info a.lid else u) := by
  have shut : mapIf (fun a => a.is ctrl typ info) (fun a : AenSlot => { a with windowOpen := false }) s.evr.aen = [{ a with windowOpen := false }] := by
    simp [only, mapIf, mine]
  have found : [{ a with windowOpen := false }].find? (·.is ctrl typ info) = some { a with windowOpen := false } := List.find?_cons_of_pos mine
  change execAenWindowExpiry ctrl typ info s = _
  rw [execAenWindowExpiry]
  dsimp only
  rw [shut, State.retryAen, found]
  simp only [Bool.not_false, Bool.and_true]

/-! ### READ_EVENTS (R450, R451) -/

section
variable {n slot : Nat} {e : Entry}

@[simp] theorem begun_bankBusy (bank : Nat) : (s.begun n slot e).bankBusy bank = s.bankBusy bank := rfl

@[simp] theorem begun_evArea (area slice : Nat) : (s.begun n slot e).evArea area slice = s.evArea area slice := rfl

/-- The fields of a READ_EVENTS packet ask for the circular area, and for as many bytes as it may return. -/
structure ReadsCircular (e : Entry) : Prop where
  area : e.num 10 1 = 0
  slice : e.num 11 1 = 0
  reserved : e.zero 12 2 = true
  least : 64 ≤ e.num 18 4
  most : e.num 18 4 ≤ 65536

theorem ReadsCircular.allowed (fields : ReadsCircular e) : ¬(e.num 10 1 > 1 ∨ e.num 11 1 > 63 ∨ (e.num 10 1 = 0 ∧ e.num 11 1 ≠ 0) ∨
    (!e.zero 12 2) = true ∨ e.num 18 4 < 64 ∨ e.num 18 4 > 65536) := by
  obtain ⟨area, slice, reserved, least, most⟩ := fields
  simp [area, slice, reserved, least, most]

theorem isEmpty_of_head? {α : Type} {l : List α} {a : α} (first : l.head? = some a) : l.isEmpty = false :=
  List.isEmpty_eq_false_iff.2 (List.ne_nil_of_mem (List.mem_of_mem_head? first))

section
variable (h : s.CanRun 0xA0 n slot e) (fields : ReadsCircular e) (idle4 : s.bankBusy 4 = false) (idle5 : s.bankBusy 5 = false)
include h fields idle4 idle5

/-- The sequence that is asked for lies before the oldest record. -/
theorem exec_readEvents_gone {o : EvRec} (oldest : (s.evArea 0 0).head? = some o) (gone : serialAfter 32 (e.num 14 4) o.seq = true) :
    exec (.readEvents n slot) s = .next ((s.begun n slot e).replied n slot e 0x0E00 (leBytes 8 0 ++ leBytes 4 o.seq) []) := by
  change execReadEvents n slot s = _
  rw [execReadEvents, State.packet_runs _ h, if_neg fields.allowed, fields.area, fields.slice]
  simp [idle4, idle5, oldest, isEmpty_of_head? oldest, gone]

/-- The records from the sequence that is asked for are returned, as many as the length holds. -/
theorem exec_readEvents_found {o w f l : EvRec} (oldest : (s.evArea 0 0).head? = some o) (newest : (s.evArea 0 0).getLast? = some w)
    (kept : serialAfter 32 (e.num 14 4) o.seq = false) {out : List EvRec}
    (taken : evTake (e.num 18 4) ((s.evArea 0 0).filter fun r => !serialAfter 32 r.seq (e.num 14 4)) = out)
    (first : out.head? = some f) (last : out.getLast? = some l) :
    exec (.readEvents n slot) s = .next ((s.begun n slot e).replied n slot e stOk
      (leBytes 4 f.seq ++ leBytes 4 ((l.seq + 1) % 2 ^ 32) ++ leBytes 4 o.seq ++ leBytes 4 w.seq) (out.flatMap EvRec.toBytes)) := by
  change execReadEvents n slot s = _
  rw [execReadEvents, State.packet_runs _ h, if_neg fields.allowed, fields.area, fields.slice]
  simp [idle4, idle5, oldest, newest, kept, taken, first, last, isEmpty_of_head? first]

end

/-! ### FREEZE_EVENTS and OPEN_LOG_EPOCH (R448, R449, R451) -/

/-- The checks of FREEZE_EVENTS in their order: the fields, then a view that is frozen already, or that is not. -/
theorem exec_freezeEvents (h : s.CanRun 0xA1 n slot e) (reserved : e.zero 11 3 = true) :
    exec (.freezeEvents n slot) s = .next (s.ended n slot e
      (if e.num 10 1 > 1 then .fail (s.begun n slot e) stInvalidField
       else if e.num 10 1 = 1 ∧ s.evr.frozen = true then .fail (s.begun n slot e) 0x0E01
       else if e.num 10 1 = 0 ∧ s.evr.frozen = false then .fail (s.begun n slot e) 0x0E03
       else if e.num 10 1 = 1 then .done { s.begun n slot e with evr.frozen := true } stOk (leBytes 4 s.evr.seq) []
       else .done (s.begun n slot e).thaw stOk (leBytes 4 (s.begun n slot e).thaw.evr.seq) [])) := by
  change execFreezeEvents n slot s = _
  rw [execFreezeEvents, State.packet_runs _ h, reserved]
  simp only [Bool.not_true, Bool.false_eq_true, or_false, State.begun_evr, Bool.not_eq_true',
    apply_ite (fun t : State => PktRes.done t stOk (leBytes 4 t.evr.seq) [])]

/-- With an unused slice left the epoch opens with its EPOCH_OPEN record alone. -/
theorem openEpoch_of_room (room : s.evr.slices.length < 64) (reason : Nat) : s.openEpoch reason =
    State.event { s with evr.epoch := s.evr.epoch + 1, evr.slices := s.evr.slices ++ [(0, [])] } 0x14 0x11 2 0
      (evValue (s.evr.epoch + 1) ++ evValue reason) := by
  rw [State.openEpoch, decide_eq_false (Nat.not_le.2 room)]
  rfl

/-- The checks of OPEN_LOG_EPOCH in their order: the session's scope, then the slices (R500). -/
theorem exec_openLogEpoch (h : s.CanRun 0xA2 n slot e) :
    exec (.openLogEpoch n slot) s = .next (s.ended n slot e
      (if s.boot.scope.testBit 1 = false then .fail (s.begun n slot e) stAccessLocked
       else if 64 ≤ s.evr.slices.length then .fail (s.begun n slot e) 0x0E02
       else .done ((s.begun n slot e).openEpoch 2) stOk [] [])) := by
  change execOpenLogEpoch n slot s = _
  rw [execOpenLogEpoch, State.packet_runs _ h]
  simp only [Bool.not_eq_true', State.begun_boot, State.begun_evr]
  rfl

end
end

/-- Settles O24: flushes, the thaw, the window and each packet's answers, from the lemmas on them. -/
theorem theRecorderFlushesFreezesAndIsRead : Obligations.TheRecorderFlushesFreezesAndIsRead := by
  unfold Obligations.TheRecorderFlushesFreezesAndIsRead
  refine ⟨fun s due => exec_evrFlushTimer_due due, fun s running => exec_evrFlushDone_running running, fun s idle => exec_evrFlushDone_idle idle,
    fun s => rfl, fun s flows => thaw_of_not_frozen flows, fun s u v => thaw_at_pair_start, fun ctrl typ info a s => exec_aenWindowExpiry_single,
    ?read, ?freeze, ?epoch, fun s => rfl⟩
  case read =>
    intro n slot e s h area slice reserved least most idle4 idle5
    have fields : ReadsCircular e := ⟨area, slice, reserved, least, most⟩
    exact ⟨fun o oldest gone => exec_readEvents_gone h fields idle4 idle5 oldest gone,
      fun o w f l oldest newest kept first last => exec_readEvents_found h fields idle4 idle5 oldest newest kept rfl first last⟩
  case freeze =>
    intro n slot e s h reserved
    refine ⟨fun act flows => ?_, fun act frozen => ?_, fun act flows => ?_, fun act frozen => ?_⟩
    · rw [exec_freezeEvents h reserved, if_neg (by omega), if_neg (by simp [flows]), if_neg (by omega), if_pos act, State.ended_done]
    · rw [exec_freezeEvents h reserved, if_neg (by omega), if_pos ⟨act, frozen⟩, State.ended_fail]
    · rw [exec_freezeEvents h reserved, if_neg (by omega), if_neg (by omega), if_pos ⟨act, flows⟩, State.ended_fail]
    · rw [exec_freezeEvents h reserved, if_neg (by omega), if_neg (by omega), if_neg (by simp [frozen]), if_neg (by omega), State.ended_done]
  case epoch =>
    intro n slot e s h
    refine ⟨fun closed => ?_, fun scope full => ?_, fun scope room => ?_⟩
    · rw [exec_openLogEpoch h, if_pos closed, State.ended_fail]
    · rw [exec_openLogEpoch h, if_neg (by simp [scope]), if_pos full, State.ended_fail]
    · rw [exec_openLogEpoch h, if_neg (by simp [scope]), if_neg (Nat.not_le.2 room), State.ended_done,
        openEpoch_of_room (s := s.begun n slot e) room]
      rfl

end Sys2Proof.Machine
end

section
/-! The monitors of rails and temperatures, critical conditions, the power-fail pin, the reference clocks and the minute counts (22_power_electrical.md
R511 to R515; 12_harvest_health.md R307, R308): what each command comes to, and the statement about them. -/
namespace Sys2Proof.Machine

section
variable {s : State}

/-! ### Levels (R512, R513) -/

section
variable {on calmNow : Bool} {calm : Nat}

theorem levelStep_crossed : levelStep on true calmNow calm = (true, 0) := if_pos rfl

theorem levelStep_off : levelStep false false calmNow calm = (false, 0) := by
  rw [levelStep, if_neg (by decide), if_pos (by decide)]

/-- A level that is set and no longer crossed counts the samples within the next lower level, from 0 again after one that is not. -/
theorem levelStep_on : levelStep true false calmNow calm =
    if calmNow = false then (true, 0) else if 999 ≤ calm then (false, 0) else (true, calm + 1) := by
  rw [levelStep, if_neg (by decide), if_neg (by decide)]
  simp only [Bool.not_eq_true', ge_iff_le, Nat.reduceLeDiff]

end

theorem tempLevel_iff {on : Bool} {t thr : Int} : tempLevel on t thr = true ↔ thr ≤ t ∨ on = true ∧ thr - 20 < t := by
  simp [tempLevel]

theorem tempLevel_eq_false_iff {on : Bool} {t thr : Int} : tempLevel on t thr = false ↔ t < thr ∧ (on = true → t ≤ thr - 20) := by
  simp [tempLevel]

/-! ### Samples of the sensors (R513) -/

/-- The readings are stored, and the highest and the lowest of the health record follow them (R308). -/
def State.tempsRead (s : State) (ts : List Int) : State :=
  { s with
    pwr.temps := ts
    ftl.health.tempMax := if s.ftl.health.tempSeen then max s.ftl.health.tempMax (ts.foldl max (ts.headD 0) / 4) else ts.foldl max (ts.headD 0) / 4
    ftl.health.tempMin := if s.ftl.health.tempSeen then min s.ftl.health.tempMin (ts.foldl min (ts.headD 0) / 4) else ts.foldl min (ts.headD 0) / 4
    ftl.health.tempSeen := true }

/-- The throttle follows its level, and is counted where it begins. -/
def State.throttleAt (u : State) (thr : Bool) : State :=
  { (if thr && !u.pwr.throttle then u.bump R.PWR_THROTTLE_CNT else u) with pwr.throttle := thr }

/-- Once every sensor has been judged, the throttle, the warning and the key-erase condition follow the levels of all of them. -/
def State.tempsFollowed (u : State) : State :=
  let v := u.throttleAt (u.pwr.tempMon.any TempMon.thr)
  let w := if v.pwr.tempMon.any TempMon.warn then v else v.warnOff 1
  w.eraseSource 2 (w.pwr.tempMon.any TempMon.erase)

theorem exec_tempSample (vs : List Int) : exec (.tempSample vs) s = .next
    (State.tempsFollowed ((List.range 64).foldl (fun (x : State) i => x.tempStep i (((List.range 64).map fun i => vs.getD i 0).getD i 0))
      (s.tempsRead ((List.range 64).map fun i => vs.getD i 0)))) := by
  change execTempSample vs s = _
  rw [execTempSample]
  refine congrArg Host.Outcome.next ?_
  extract_lets ts hot cold ftl health pwr read judged
  change _ = State.tempsFollowed judged
  clear_value judged
  rfl

/-- Counting a throttle changes no monitor. -/
@[simp] theorem throttleAt_tempMon (thr : Bool) : (s.throttleAt thr).pwr.tempMon = s.pwr.tempMon := by
  rw [State.throttleAt]
  split <;> rfl

theorem tempsFollowed_warn (warns : s.pwr.tempMon.any TempMon.warn = true) :
    s.tempsFollowed = (s.throttleAt (s.pwr.tempMon.any TempMon.thr)).eraseSource 2 (s.pwr.tempMon.any TempMon.erase) := by
  simp only [State.tempsFollowed, throttleAt_tempMon, warns, if_true]

/-- Where no sensor warns or throttles, the warning ends. -/
theorem tempsFollowed_calm (calm : s.pwr.tempMon.any TempMon.warn = false) (cool : s.pwr.tempMon.any TempMon.thr = false) :
    s.tempsFollowed = (State.warnOff { s with pwr.throttle := false } 1).eraseSource 2 (s.pwr.tempMon.any TempMon.erase) := by
  simp only [State.tempsFollowed, throttleAt_tempMon, calm, Bool.false_eq_true, if_false, cool]
  rfl

/-! ### The key-erase conditions (R512, R513) -/

theorem eraseSource_ceases (src : Nat) : s.eraseSource src false = { s with keys.asserted := putBits s.keys.asserted src src 0 } := rfl

theorem eraseSource_holds (src : Nat) : s.eraseSource src true =
    if s.keys.asserted.testBit src then s
    else State.raiseAlarm { s with keys.asserted := putBits s.keys.asserted src src 1 } src false := by
  rw [State.eraseSource, if_neg (by decide)]

/-! ### The power-fail pin and the end of the dump (R511) -/

theorem exec_pfailAssert : exec .pfailAssert s = .next
    (if s.pwr.pfail then s.bump R.PWR_PFAIL_CNT
     else (((State.thaw (State.startDump (State.endSession { s.bump R.PWR_PFAIL_CNT with pwr.pfail := true }))).flushStart).saveHealth).dumpCheck) := rfl

theorem endDump_of_not_dumping (idle : s.pwr.dumping = false) : s.endDump = s := by
  rw [State.endDump]
  split
  · rfl
  · rw [idle, if_pos (by decide)]

/-- The dump `d` has been written: its headers go out last, and it is the one that stands. -/
def State.dumpWritten (s : State) (d : Dump) : State :=
  { (s.emit (.dumpWrite 0 none d.header)).emit (.dumpWrite 1 none d.header) with
    pwr.dumping := false, brn.dump := some d, brn.dumpRun := none, brn.dumped := true, brn.dumpEpoch := leAt d.header 48 8 }

theorem endDump_dumping {d : Dump} (runs : s.brn.dumpRun = some d) (dumping : s.pwr.dumping = true) : s.endDump = s.dumpWritten d := by
  rw [State.endDump, runs]
  dsimp only
  rw [dumping, if_neg (by decide)]
  rfl

/-- DUMP_DONE goes high once neither a dump nor a flush runs any more, in a power failure or in the hold. -/
theorem dumpCheck_ready (ends : s.pwr.pfail = true ∨ s.pwr.holding = true) (dumped : s.pwr.dumping = false) (written : s.brn.dumpRun = none)
    (flushed : s.evr.flushing = false) (low : s.pwr.dumpDone = false) :
    s.dumpCheck = State.emit { s with pwr.dumpDone := true } (.pin .dumpDone true) := by
  rw [State.dumpCheck, if_pos (by simp [ends, dumped, written, flushed, low])]

theorem dumpCheck_unchanged (still : s.pwr.pfail = false ∧ s.pwr.holding = false ∨ s.pwr.dumpDone = true) : s.dumpCheck = s := by
  rw [State.dumpCheck, if_neg (by rcases still with ⟨up, served⟩ | high <;> simp [*])]

theorem exec_dumpComplete : exec .dumpComplete s = .next s.endDump.dumpCheck := rfl

/-! ### Reference clocks (R515) -/

section
variable {clock : Nat}

theorem exec_refclkLoss_unknown (unknown : 11 < clock) (holds : Bool) : exec (.refclkLoss clock holds) s = .next s := by
  change execRefclkLoss clock holds s = _
  rw [execRefclkLoss, if_pos unknown]

section
variable (known : clock ≤ 11)
include known

theorem exec_refclkLoss_lost : exec (.refclkLoss clock true) s = .next
    (if s.pwr.clockLost.contains clock then s else State.clockDown { s with pwr.clockLost := s.pwr.clockLost ++ [clock] } clock) := by
  change execRefclkLoss clock true s = _
  rw [execRefclkLoss, if_neg (Nat.not_lt.2 known), if_neg (by decide)]

theorem exec_refclkLoss_back (notSys : 1 ≤ clock) :
    exec (.refclkLoss clock false) s = .next { s with pwr.clockLost := s.pwr.clockLost.filter (· != clock) } := by
  change execRefclkLoss clock false s = _
  rw [execRefclkLoss, if_neg (Nat.not_lt.2 known), if_pos (by decide), if_neg (by omega)]

end

theorem clockDown_eth (lo : 1 ≤ clock) (hi : clock ≤ 4) :
    s.clockDown clock = ((List.range 4).map fun i => 4 * (clock - 1) + i).foldl State.ethOff s := by
  rw [State.clockDown, if_neg (by omega), if_pos hi]

theorem clockDown_med (lo : 7 ≤ clock) (hi : clock ≤ 10) : s.clockDown clock =
    (((List.range 8).map fun i => 8 * (clock - 7) + i).foldl (fun (x : State) n => rowMediaPortDown n x) s).afterUnits := by
  rw [State.clockDown, if_neg (by omega), if_neg (by omega), if_neg (by omega), if_neg (by omega), if_pos hi]

end

/-! ### Critical conditions (R514) -/

theorem critical_again (stopped : s.pwr.critical = true) (cause : Nat) : s.critical cause = s := by
  rw [State.critical, if_pos stopped]

/-- A head with no command to end, its peer in service, leaves the pair. -/
theorem critical_leaves (serves : s.pwr.critical = false) (unadmitted : s.admitted = []) (noCmds : s.hq.cmds = []) (paired : s.peerInService = true)
    (cause : Nat) : s.critical cause = State.anaChanged { State.sendLeave { s with free := s.free + 1, pwr.critical := true } cause with
      pair.state := PairSt.down } := by
  have drawn : s.fresh = (Config.freeValue s.free, { s with free := s.free + 1 }) := rfl
  have admits : State.admitted { s with free := s.free + 1, pwr.critical := true } = [] := unadmitted
  have serving : State.peerInService { s with free := s.free + 1, pwr.critical := true } = true := paired
  rw [State.critical, if_neg (ne_true_of_eq_false serves), drawn]
  dsimp only
  rw [admits, List.foldl_nil, noCmds, List.filter_nil, List.map_nil, List.foldl_nil, if_pos serving]

end

/-- Settles O60: each sample, the conditions it sets, the pin and the dump's end, the clocks, the stop and the minute counts. -/
theorem monitorsStopTheHeadAndPowerFailDumps : Obligations.MonitorsStopTheHeadAndPowerFailDumps := by
  unfold Obligations.MonitorsStopTheHeadAndPowerFailDumps
  refine ⟨?rails, ?levels, ?temps, ?samples, ?erase, ?dump, ?clocks, ?stop, ?minutes⟩
  case rails =>
    intro vs power s t read u judged
    subst read judged
    rfl
  case levels =>
    intro on calmNow calm
    refine ⟨levelStep_crossed, levelStep_off, levelStep_on, fun last => ?_, fun counting => ?_⟩
    · rw [levelStep_on, if_neg (by decide), if_pos last]
    · rw [levelStep_on, if_neg (by decide), if_neg (Nat.not_le.2 counting)]
  case temps =>
    exact fun on t thr => ⟨fun above => tempLevel_iff.2 (.inl above), fun below => tempLevel_eq_false_iff.2 ⟨below, nofun⟩,
      fun below => tempLevel_eq_false_iff.2 ⟨by omega, fun _ => below⟩, fun above => tempLevel_iff.2 (.inr ⟨rfl, above⟩)⟩
  case samples =>
    intro vs s ts u judged thr throttles
    subst judged throttles
    exact ⟨fun warns => (exec_tempSample vs).trans (congrArg Host.Outcome.next (tempsFollowed_warn warns)),
      fun calm cool => (exec_tempSample vs).trans (congrArg Host.Outcome.next (tempsFollowed_calm calm cool))⟩
  case erase =>
    intro src s
    refine ⟨eraseSource_ceases src, fun asserted => ?_, fun asserts => ?_⟩
    · rw [eraseSource_holds, if_pos asserted]
    · rw [eraseSource_holds, if_neg (ne_true_of_eq_false asserts)]
  case dump =>
    intro s
    refine ⟨fun fails => ?_, fun power => ?_, fun d run dumping flushed low ends => ?_, fun idle still => ?_⟩
    · rw [exec_pfailAssert, if_pos fails]
    · rw [exec_pfailAssert, if_neg (ne_true_of_eq_false power)]
    · rw [exec_dumpComplete, endDump_dumping run dumping, dumpCheck_ready (s := s.dumpWritten d) ends rfl rfl flushed low]
      rfl
    · rw [exec_dumpComplete, endDump_of_not_dumping idle, dumpCheck_unchanged still]
  case clocks =>
    intro clock s
    refine ⟨exec_refclkLoss_unknown, fun known lost => ?_, fun known lost => ?_, fun notSys known => exec_refclkLoss_back known notSys, rfl, rfl, rfl, rfl,
      clockDown_eth, clockDown_med⟩
    · rw [exec_refclkLoss_lost known, if_pos lost]
    · rw [exec_refclkLoss_lost known, if_neg (ne_true_of_eq_false lost)]
  case stop =>
    exact fun cause s => ⟨fun stopped => critical_again stopped cause,
      fun serves unadmitted noCmds paired => critical_leaves serves unadmitted noCmds paired cause⟩
  case minutes =>
    intro s t hot
    subst hot
    rfl

end Sys2Proof.Machine
end

section
/-! What every step keeps (01_architecture.md; 95_what_each_step_holds.md): the queue of waiting commands, the outputs, the free values drawn and the
soundness of the state. -/
namespace Sys2Proof.Machine

/-! ### One command -/

/-- Every command answers a state that follows the one before it, by the law of its own family (Laws/). -/
theorem exec_follows (s : State) : ∀ i : Instr, ∃ t, exec i s = .next t ∧ s.Follows t
  | .registerWrite .. => execRegisterWrite_follows
  | .reg64LoRead .. => execReg64LoRead_follows
  | .reg64HiRead .. => execReg64HiRead_follows
  | .reg64LoWrite .. => execReg64LoWrite_follows
  | .reg64HiWrite .. => execReg64HiWrite_follows
  | .misalignedAccess .. => execMisalignedAccess_follows
  | .gatedRegisterAccess .. => execGatedRegisterAccess_follows
  | .hostDoorbellWrite .. => execHostDoorbellWrite_follows
  | .powerOnReset .. => execPowerOnReset_follows
  | .resetPin => execResetPin_follows
  | .warmReset .. => execWarmReset_follows
  | .hostPcieReset => execHostPcieReset_follows
  | .firmwareReady => execFirmwareReady_follows
  | .poolLoad .. => execPoolLoad_follows
  | .watchdogFw => execWatchdogFw_follows
  | .watchdogBoot => execWatchdogBoot_follows
  | .fwBeatTick => execFwBeatTick_follows
  | .syncRx .. => execSyncRx_follows
  | .announceRx .. => execAnnounceRx_follows
  | .referenceLost .. => execReferenceLost_follows
  | .ppsInEdge .. => execPpsInEdge_follows
  | .peerDelayTimer .. => execPeerDelayTimer_follows
  | .slewEnd => execSlewEnd_follows
  | .stepApplied => execStepApplied_follows
  | .holdoverExceeded => execHoldoverExceeded_follows
  | .ppsOutEdge => execPpsOutEdge_follows
  | .slotAdvance => execSlotAdvance_follows
  | .deadlineMissed .. => execDeadlineMissed_follows
  | .timedEventFire => execTimedEventFire_follows
  | .farInstantArm => execFarInstantArm_follows
  | .harvestBudgetSwitch => execHarvestBudgetSwitch_follows
  | .getLogPage .. => execGetLogPage_follows
  | .identify .. => execIdentify_follows
  | .abort .. => execAbort_follows
  | .setFeatures .. => execSetFeatures_follows
  | .getFeatures .. => execGetFeatures_follows
  | .asynchronousEventRequest .. => execAsynchronousEventRequest_follows
  | .keepAlive .. => execKeepAlive_follows
  | .connect .. => execConnect_follows
  | .propertyGet .. => execPropertyGet_follows
  | .propertySet .. => execPropertySet_follows
  | .disconnect .. => execDisconnect_follows
  | .formatNvm .. => execFormatNvm_follows
  | .formatComplete .. => execFormatComplete_follows
  | .sanitize .. => execSanitize_follows
  | .sanitizeProgress .. => execSanitizeProgress_follows
  | .sanitizeComplete => execSanitizeComplete_follows
  | .flush .. => execFlush_follows
  | .flushComplete .. => execFlushComplete_follows
  | .write .. => execWrite_follows
  | .read .. => execRead_follows
  | .writeZeroes .. => execWriteZeroes_follows
  | .datasetManagement .. => execDatasetManagement_follows
  | .verify .. => execVerify_follows
  | .rangeLockGrant .. => execRangeLockGrant_follows
  | .ordRelease .. => execOrdRelease_follows
  | .createHostQueue .. => execCreateHostQueue_follows
  | .deleteHostQueue .. => execDeleteHostQueue_follows
  | .cmReqRx .. => execCmReqRx_follows
  | .cmRepRx .. => execCmRepRx_follows
  | .cmRtuRx .. => execCmRtuRx_follows
  | .cmRejRx .. => execCmRejRx_follows
  | .cmMraRx _ qpn => execCmMraRx_follows (a2 := qpn)
  | .cmDreqRx .. => execCmDreqRx_follows
  | .cmDrepRx .. => execCmDrepRx_follows
  | .sendRx .. => execSendRx_follows
  | .rdmaWriteRx .. => execRdmaWriteRx_follows
  | .ackRx .. => execAckRx_follows
  | .seqNakRx .. => execSeqNakRx_follows
  | .rnrNakRx .. => execRnrNakRx_follows
  | .fatalNakRx .. => execFatalNakRx_follows
  | .readResponseRx .. => execReadResponseRx_follows
  | .ackTimeout .. => execAckTimeout_follows
  | .privAckTimeout .. => execPrivAckTimeout_follows
  | .rnrWaitExpiry .. => execRnrWaitExpiry_follows
  | .contextFetchDone .. => execContextFetchDone_follows
  | .cnpRx .. => execCnpRx_follows
  | .alphaUpdateTimer .. => execAlphaUpdateTimer_follows
  | .rateIncreaseTimer .. => execRateIncreaseTimer_follows
  | .byteCounterExpiry .. => execByteCounterExpiry_follows
  | .pfcPauseRx .. => execPfcPauseRx_follows
  | .pfcStorm .. => execPfcStorm_follows
  | .ethPortDown .. => execEthPortDown_follows
  | .registerMemoryKey .. => execRegisterMemoryKey_follows
  | .revokeMemoryKey .. => execRevokeMemoryKey_follows
  | .revokeComplete .. => execRevokeComplete_follows
  | .revokeLimitExpiry .. => execRevokeLimitExpiry_follows
  | .brineReserveGrant => execBrineReserveGrant_follows
  | .mirrorBacklogRelease => execMirrorBacklogRelease_follows
  | .mirrorRx .. => execMirrorRx_follows
  | .pairAckRx .. => execPairAckRx_follows
  | .drainTake .. => execDrainTake_follows
  | .remirrorDone => execRemirrorDone_follows
  | .acceptBrineLoss .. => execAcceptBrineLoss_follows
  | .engineSegmentDone .. => execEngineSegmentDone_follows
  | .engineJobWatchdog .. => execEngineJobWatchdog_follows
  | .engineCoreFault .. => execEngineCoreFault_follows
  | .contextSaveDone .. => execContextSaveDone_follows
  | .createDedupDomain .. => execCreateDedupDomain_follows
  | .deleteDedupDomain .. => execDeleteDedupDomain_follows
  | .getDedupDomain .. => execGetDedupDomain_follows
  | .setVolumeDomain .. => execSetVolumeDomain_follows
  | .compressJob .. => execCompressJob_follows
  | .decompressJob .. => execDecompressJob_follows
  | .setCodecGeneration .. => execSetCodecGeneration_follows
  | .cipherJob .. => execCipherJob_follows
  | .digestJob .. => execDigestJob_follows
  | .reloadKeys .. => execReloadKeys_follows
  | .keyPageCfgWrite .. => execKeyPageCfgWrite_follows
  | .keyPageKeyWrite .. => execKeyPageKeyWrite_follows
  | .keyPageCommit .. => execKeyPageCommit_follows
  | .keyPageGenerate .. => execKeyPageGenerate_follows
  | .keyPageErase .. => execKeyPageErase_follows
  | .keySlotKeyWrite .. => execKeySlotKeyWrite_follows
  | .keySlotCommit .. => execKeySlotCommit_follows
  | .keySlotGenerate .. => execKeySlotGenerate_follows
  | .keySlotErase .. => execKeySlotErase_follows
  | .forcedAlarm .. => execForcedAlarm_follows
  | .alarmAssert .. => execAlarmAssert_follows
  | .getUnit .. => execGetUnit_follows
  | .createPan .. => execCreatePan_follows
  | .deletePan .. => execDeletePan_follows
  | .buildDefaultLayout .. => execBuildDefaultLayout_follows
  | .setUnitService .. => execSetUnitService_follows
  | .replaceMember .. => execReplaceMember_follows
  | .dieCommandTimeout .. => execDieCommandTimeout_follows
  | .bookedReadTimeout .. => execBookedReadTimeout_follows
  | .rebuildPositionEnd .. => execRebuildPositionEnd_follows
  | .unitStateRecordRx .. => execUnitStateRecordRx_follows
  | .grantRequestRx .. => execGrantRequestRx_follows
  | .grantRx .. => execGrantRx_follows
  | .moduleCplRx .. => execModuleCplRx_follows
  | .harvestStart .. => execHarvestStart_follows
  | .harvestCopy .. => execHarvestCopy_follows
  | .harvestCommit .. => execHarvestCommit_follows
  | .harvestErase .. => execHarvestErase_follows
  | .setHarvestBudget .. => execSetHarvestBudget_follows
  | .healthRecordTimer => execHealthRecordTimer_follows
  | .tempBinTick => execTempBinTick_follows
  | .mediaPortUp .. => execMediaPortUp_follows
  | .mediaPortDown .. => execMediaPortDown_follows
  | .moduleEventRx .. => execModuleEventRx_follows
  | .moduleRdataRx .. => execModuleRdataRx_follows
  | .moduleStatusPoll => execModuleStatusPoll_follows
  | .modulePresenceLost .. => execModulePresenceLost_follows
  | .moduleBusyRetry .. => execModuleBusyRetry_follows
  | .getModuleInfo .. => execGetModuleInfo_follows
  | .proxyCmdRx .. => execProxyCmdRx_follows
  | .proxyCplRx .. => execProxyCplRx_follows
  | .setVolumeGroup .. => execSetVolumeGroup_follows
  | .createSnapshot .. => execCreateSnapshot_follows
  | .deleteSnapshot .. => execDeleteSnapshot_follows
  | .listSnapshots .. => execListSnapshots_follows
  | .cloneSnapshot .. => execCloneSnapshot_follows
  | .getSnapshotSpace .. => execGetSnapshotSpace_follows
  | .snapshotSpaceScanDone .. => execSnapshotSpaceScanDone_follows
  | .createReplSession .. => execCreateReplSession_follows
  | .startReplication .. => execStartReplication_follows
  | .getReplSession .. => execGetReplSession_follows
  | .deleteReplSession .. => execDeleteReplSession_follows
  | .replDataRx .. => execReplDataRx_follows
  | .replCommitRx .. => execReplCommitRx_follows
  | .replAckRx .. => execReplAckRx_follows
  | .replOpenRx .. => execReplOpenRx_follows
  | .replResumeRx .. => execReplResumeRx_follows
  | .replReconnectTimer .. => execReplReconnectTimer_follows
  | .cutArmRx .. => execCutArmRx_follows
  | .cutCancelRx .. => execCutCancelRx_follows
  | .iclLinkUp .. => execIclLinkUp_follows
  | .iclLinkDown => execIclLinkDown_follows
  | .iclRetrain .. => execIclRetrain_follows
  | .helloTimer => execHelloTimer_follows
  | .helloRx .. => execHelloRx_follows
  | .heartbeatTimer => execHeartbeatTimer_follows
  | .heartbeatRx .. => execHeartbeatRx_follows
  | .peerSuspect => execPeerSuspect_follows
  | .leaseExpiry => execLeaseExpiry_follows
  | .peerLost => execPeerLost_follows
  | .electionPoll => execElectionPoll_follows
  | .electionLeadTimeout => execElectionLeadTimeout_follows
  | .electionRetry => execElectionRetry_follows
  | .leaveRx => execLeaveRx_follows
  | .alarmNoticeRx .. => execAlarmNoticeRx_follows
  | .journalRx .. => execJournalRx_follows
  | .pairNakRx .. => execPairNakRx_follows
  | .pairResendTimer .. => execPairResendTimer_follows
  | .pairReservedTypeRx => execPairReservedTypeRx_follows
  | .configRecordRx .. => execConfigRecordRx_follows
  | .keyTransferRx .. => execKeyTransferRx_follows
  | .leadSelectionRx .. => execLeadSelectionRx_follows
  | .groupMoveStepRx .. => execGroupMoveStepRx_follows
  | .sanitizeNoticeRx .. => execSanitizeNoticeRx_follows
  | .moveAnaGroup .. => execMoveAnaGroup_follows
  | .moveDrainDone .. => execMoveDrainDone_follows
  | .moveTimeout .. => execMoveTimeout_follows
  | .setHomeHead .. => execSetHomeHead_follows
  | .leavePair .. => execLeavePair_follows
  | .rejoinPair .. => execRejoinPair_follows
  | .getPairStatus .. => execGetPairStatus_follows
  | .soloWaitExpiry => execSoloWaitExpiry_follows
  | .rejoinSyncDone .. => execRejoinSyncDone_follows
  | .patrolScrub .. => execPatrolScrub_follows
  | .memoryUe .. => execMemoryUe_follows
  | .llcWayOffWrite .. => execLlcWayOffWrite_follows
  | .llcWayCleanDone .. => execLlcWayCleanDone_follows
  | .dmaArm .. => execDmaArm_follows
  | .dmaAbort .. => execDmaAbort_follows
  | .dmaShadowWrite .. => execDmaShadowWrite_follows
  | .dmaChunkDone .. => execDmaChunkDone_follows
  | .dmaFault .. => execDmaFault_follows
  | .dmaErrClear .. => execDmaErrClear_follows
  | .dmaWinCfgWrite .. => execDmaWinCfgWrite_follows
  | .windowWriteRx .. => execWindowWriteRx_follows
  | .windowReadRx .. => execWindowReadRx_follows
  | .windowReadReplyRx .. => execWindowReadReplyRx_follows
  | .sflProgram .. => execSflProgram_follows
  | .sflErase .. => execSflErase_follows
  | .sflOpDone .. => execSflOpDone_follows
  | .sflApertureRead .. => execSflApertureRead_follows
  | .readSystemFlash .. => execReadSystemFlash_follows
  | .evrAllowanceRefill => execEvrAllowanceRefill_follows
  | .evrFlushTimer => execEvrFlushTimer_follows
  | .evrFlushDone => execEvrFlushDone_follows
  | .evrFreezeExpiry => execEvrFreezeExpiry_follows
  | .aenWindowExpiry .. => execAenWindowExpiry_follows
  | .readEvents .. => execReadEvents_follows
  | .freezeEvents .. => execFreezeEvents_follows
  | .openLogEpoch .. => execOpenLogEpoch_follows
  | .ringDoorbell .. => execRingDoorbell_follows
  | .ringEnable .. => execRingEnable_follows
  | .ringDisable .. => execRingDisable_follows
  | .ringDrainDone .. => execRingDrainDone_follows
  | .rplHeadWrite .. => execRplHeadWrite_follows
  | .nop .. => execNop_follows
  | .createPool .. => execCreatePool_follows
  | .createVolume .. => execCreateVolume_follows
  | .deleteVolume .. => execDeleteVolume_follows
  | .attachVolume .. => execAttachVolume_follows
  | .getIdentity .. => execGetIdentity_follows
  | .resetHead .. => execResetHead_follows
  | .fwDownload .. => execFwDownload_follows
  | .fwActivate .. => execFwActivate_follows
  | .fwCommit .. => execFwCommit_follows
  | .fwStatus .. => execFwStatus_follows
  | .recoveryGo .. => execRecoveryGo_follows
  | .fieldChallenge .. => execFieldChallenge_follows
  | .fieldUnlock .. => execFieldUnlock_follows
  | .fieldLock .. => execFieldLock_follows
  | .fieldProvision .. => execFieldProvision_follows
  | .fieldSessionExpiry => execFieldSessionExpiry_follows
  | .nonceExpiry => execNonceExpiry_follows
  | .setPowerDomain .. => execSetPowerDomain_follows
  | .powerDomainReady .. => execPowerDomainReady_follows
  | .getPowerStatus .. => execGetPowerStatus_follows
  | .getCables .. => execGetCables_follows
  | .railSample .. => execRailSample_follows
  | .tempSample .. => execTempSample_follows
  | .pfailAssert => execPfailAssert_follows
  | .dumpComplete => execDumpComplete_follows
  | .refclkLoss .. => execRefclkLoss_follows
  | .setVolumeAdmission .. => execSetVolumeAdmission_follows
  | .getVolumeAdmission .. => execGetVolumeAdmission_follows
  | .ethPortUp .. => execEthPortUp_follows
  | .replConnectTimeout .. => execReplConnectTimeout_follows
  | .rdmaReadRequestRx .. => execRdmaReadRequestRx_follows
  | .llcRehashDone => execLlcRehashDone_follows

/-- Settles O4: each command by the law of its own. -/
theorem everyCommandAnswers : Obligations.EveryCommandAnswers := by
  unfold Obligations.EveryCommandAnswers
  exact fun i s => exec_follows s i

/-! ### One step -/

theorem step_of_pending {s : State} {c : Instr} {q : List Instr} (waits : s.pending = c :: q) : step s = exec c { s with pending := q } := by
  rw [step, waits]

theorem step_of_idle {s : State} (idle : s.pending = []) : step s = .next s := by
  rw [step, idle]

/-- Settles O1. -/
theorem stepRunsTheFrontCommand : Obligations.StepRunsTheFrontCommand := by
  unfold Obligations.StepRunsTheFrontCommand
  exact fun _ _ _ => step_of_pending

/-- Settles O2. -/
theorem stepIdlesOnEmptyQueue : Obligations.StepIdlesOnEmptyQueue := by
  unfold Obligations.StepIdlesOnEmptyQueue
  exact fun _ => step_of_idle

/-- The state after reset is sound: its stores are empty, its lists have their fixed lengths. -/
theorem sound_reset : State.reset.Sound where
  regs := rfl
  hbm := rfl
  ddr := rfl
  flash := rfl
  buf := rfl
  rings := rfl
  chans := rfl
  allow := rfl

/-- Settles O3. -/
theorem resetIsSound : Obligations.ResetIsSound := by
  unfold Obligations.ResetIsSound
  exact ⟨sound_reset, rfl, rfl, fun _ => rfl⟩

/-- Soundness says nothing of the queue. -/
theorem Sound.dequeued {s : State} (h : s.Sound) (q : List Instr) : State.Sound { s with pending := q } :=
  ⟨h.regs, h.hbm, h.ddr, h.flash, h.buf, h.rings, h.chans, h.allow⟩

/-- Settles O5: an idle step changes nothing, any other is its front command on the rest of the queue. -/
theorem everyStepKeepsSound : Obligations.EveryStepKeepsSound := by
  unfold Obligations.EveryStepKeepsSound
  intro s t steps
  cases waits : s.pending with
  | nil =>
    obtain rfl : s = t := Host.Outcome.next.inj ((step_of_idle waits).symm.trans steps)
    exact ⟨id, waits, List.prefix_rfl, Nat.le_refl _⟩
  | cons c q =>
    obtain ⟨u, answers, follows⟩ := exec_follows { s with pending := q } c
    obtain rfl : u = t := Host.Outcome.next.inj (answers.symm.trans ((step_of_pending waits).symm.trans steps))
    exact ⟨fun sound => follows.sound (Sound.dequeued sound q), follows.queue, follows.sent, follows.drawn⟩

end Sys2Proof.Machine
end

section
/-! The packets about the pool and its volumes (20_control_packets.md R474 to R476): what CREATE_POOL, CREATE_VOLUME, DELETE_VOLUME and ATTACH_VOLUME come
to, and the statement about them. -/
namespace Sys2Proof.Machine

section
variable {s : State} {n slot : Nat} {e : Entry}

/-! ### CREATE_POOL (R474) -/

/-- The checks of CREATE_POOL in their order: the fields, the root pan, a pool that is there already, the key page; the pair's state; the entropy. -/
theorem exec_createPool (h : s.CanRun 0x08 n slot e) (ok : Bool) :
    exec (.createPool n slot ok) s = .next (s.ended n slot e
      (if !e.zero 12 2 ∨ s.rootPan.isNone ∨ s.pool.loaded ∨ s.peerHasPool ∨ e.num 10 2 > 4095 ∨ !(s.kpage (e.num 10 2)).mediaKey then
         .fail (s.begun n slot e) stInvalidField
       else if s.pair.state ≠ .paired ∧ s.pair.state ≠ .solo then .fail (s.begun n slot e) stBusy
       else if !ok then .fail (s.begun n slot e) stUnitFailed
       else .startDone ((((s.begun n slot e).formPool (e.num 10 2)).noteRecord 1).startPool).sharePool
         ((s.begun n slot e).formPool (e.num 10 2)).pool.id [])) :=
  congrArg Host.Outcome.next (State.packet_runs _ h)

/-- A new pool's keys are random bytes of the DRBG, 32 and 16 of them; nothing else changes but the pool and the count of draws. -/
theorem formPool_makes (s : State) (kp : Nat) :
    let t := s.formPool kp
    t.pool.loaded = true ∧ t.pool.mdKey = kp ∧ t.pool.gen = 3 ∧ t.pool.id.length = 16 ∧ t.keys.pwk.map List.length = some 32 ∧
      t.keys.pwkStored = t.keys.pwk.map (Config.keyWrap Config.deviceKey) ∧ t = { s with pool := t.pool, keys := t.keys, free := s.free + 2 } := by
  refine ⟨rfl, rfl, rfl, ?_, congrArg some ?_, rfl, rfl⟩
  · exact (List.length_map _).trans List.length_range
  · exact (List.length_map _).trans List.length_range

/-! ### CREATE_VOLUME (R475) -/

/-- The volume that a CREATE_VOLUME packet asks for. -/
def volumeOf (e : Entry) : Volume :=
  { nsid := e.num 10 4, lbaf := e.num 14 1, attached := e.num 15 1 == 1, ana := e.num 16 2, homeKey := e.num 18 2, domain := 0
    nsze := e.num 20 8, mode := 0, flags := 0, clientAllow := 1, budget := 0, maxInflight := 0, cgroup := 0 }

/-- An empty group that this head takes over with its first volume. -/
def State.takeGroup (s : State) (ana : Nat) : State :=
  if s.groupEmpty ana && (s.group ana).owner != s.role then
    (s.putGroup { s.group ana with owner := s.role }).placeCfg { s.group ana with owner := s.role : AnaGroup }.record
  else s

/-- The checks of CREATE_VOLUME in their order: the group's owner; the fields; a move of the group; the number of volumes; a deletion that is not over. -/
theorem exec_createVolume (h : s.CanRun 0x45 n slot e) {v : Volume} (asked : volumeOf e = v) :
    exec (.createVolume n slot) s = .next (s.ended n slot e
      (if 1 ≤ v.ana ∧ v.ana ≤ 1024 ∧ !s.ownsGroup v.ana then .fail (s.begun n slot e) stNotOwner
       else if !s.pool.loaded ∨ v.nsid < 1 ∨ v.nsid > 65536 ∨ (s.vol? v.nsid).isSome ∨ v.lbaf > 1 ∨ e.num 15 1 > 1 ∨ v.ana < 1 ∨ v.ana > 1024 ∨
           v.homeKey > 4095 ∨ !(s.kpage v.homeKey).mediaKey ∨ v.nsze < 4 ∨ v.nsze > 2 ^ 40 ∨ v.nsze % 4 ≠ 0 then
         .fail (s.begun n slot e) stInvalidField
       else if s.moving v.ana then .fail (s.begun n slot e) stBusy
       else if s.pool.volumes.length ≥ 65536 then .fail (s.begun n slot e) stNoResource
       else if s.snap.gone.any (·.nsid == v.nsid) then .waits
       else
         let t := (((s.begun n slot e).takeGroup v.ana).storeVol v).putMap { nsid := v.nsid, snap := none, pages := [] }
         (if v.attached then t.nsChanged else t).cfgDone (packetRef n slot e) [])) := by
  subst asked
  exact congrArg Host.Outcome.next (State.packet_runs _ h)

theorem takeGroup_own {ana : Nat} (owns : (s.group ana).owner = s.role) : s.takeGroup ana = s := by
  rw [State.takeGroup, owns, bne_self_eq_false, Bool.and_false, if_neg Bool.false_ne_true]

/-- The fields of a CREATE_VOLUME packet are ones that R475 allows. -/
structure State.VolumeFields (s : State) (e : Entry) (v : Volume) : Prop where
  pool : s.pool.loaded = true
  nsid : 1 ≤ v.nsid
  nsidMax : v.nsid ≤ 65536
  new : s.vol? v.nsid = none
  format : v.lbaf ≤ 1
  attach : e.num 15 1 ≤ 1
  group : 1 ≤ v.ana
  groupMax : v.ana ≤ 1024
  page : v.homeKey ≤ 4095
  mediaKey : (s.kpage v.homeKey).mediaKey = true
  size : 4 ≤ v.nsze
  sizeMax : v.nsze ≤ 2 ^ 40
  sizeUnit : v.nsze % 4 = 0

theorem State.VolumeFields.allowed {v : Volume} (good : s.VolumeFields e v) :
    ¬((!s.pool.loaded) = true ∨ v.nsid < 1 ∨ v.nsid > 65536 ∨ (s.vol? v.nsid).isSome = true ∨ v.lbaf > 1 ∨ e.num 15 1 > 1 ∨ v.ana < 1 ∨ v.ana > 1024 ∨
      v.homeKey > 4095 ∨ (!(s.kpage v.homeKey).mediaKey) = true ∨ v.nsze < 4 ∨ v.nsze > 2 ^ 40 ∨ v.nsze % 4 ≠ 0) := by
  obtain ⟨pool, nsid, nsidMax, new, format, attach, group, groupMax, page, mediaKey, size, sizeMax, sizeUnit⟩ := good
  simp only [pool, new, mediaKey, Bool.not_true, Bool.false_eq_true, Option.isSome_none, false_or]
  omega

/-- A new volume in a group that is this head's already is stored with an empty map. -/
theorem exec_createVolume_created (h : s.CanRun 0x45 n slot e) {v : Volume} (asked : volumeOf e = v) (good : s.VolumeFields e v)
    (owns : s.ownsGroup v.ana = true) (stays : s.moving v.ana = false) (room : s.pool.volumes.length < 65536)
    (gone : s.snap.gone.any (·.nsid == v.nsid) = false) (owner : (s.group v.ana).owner = s.role) {t : State}
    (stored : ((s.begun n slot e).storeVol v).putMap { nsid := v.nsid, snap := none, pages := [] } = t) :
    exec (.createVolume n slot) s = .next ((if v.attached then t.nsChanged else t).cfgEnded n slot e []) := by
  have own : ((s.begun n slot e).group v.ana).owner = (s.begun n slot e).role := owner
  rw [exec_createVolume h asked, if_neg (by simp [owns]), if_neg good.allowed, stays, if_neg Bool.false_ne_true, if_neg (Nat.not_le.2 room), gone,
    if_neg Bool.false_ne_true, takeGroup_own own, stored, State.ended_cfgDone]

/-! ### DELETE_VOLUME and ATTACH_VOLUME (R476) -/

theorem exec_deleteVolume_unknown (h : s.CanRun 0x46 n slot e) (unknown : s.vol? (e.num 10 4) = none) :
    exec (.deleteVolume n slot) s = .next ((s.begun n slot e).replied n slot e stInvalidField [] []) := by
  change execDeleteVolume n slot s = _
  rw [execDeleteVolume, State.packet_runs _ h, begun_vol?, unknown]
  rfl

theorem exec_attachVolume_unknown (h : s.CanRun 0x47 n slot e) (unknown : s.vol? (e.num 10 4) = none) :
    exec (.attachVolume n slot) s = .next ((s.begun n slot e).replied n slot e stInvalidField [] []) := by
  change execAttachVolume n slot s = _
  rw [execAttachVolume, State.packet_runs _ h]
  dsimp only
  rw [begun_vol?, unknown]
  rfl

section
variable {v : Volume}

/-- What a volume leaves behind when it is deleted: no epoch, no entry among the volumes, an act that drops its map. -/
def State.volumeGone (s : State) (v : Volume) : State :=
  let t := (s.dropEpochs v.nsid false).placeCfg (leBytes 1 cfgVolumeGone ++ leBytes 4 v.nsid)
  State.placeAct { t with
    pool.volumes := dropKey Volume.nsid v.nsid t.pool.volumes, snap.gone := t.snap.gone ++ [v] } (.drop v.nsid none false)

/-- The checks of DELETE_VOLUME in their order: the group's owner; a move of the group, an attached, grouped or replicated volume. -/
theorem exec_deleteVolume (h : s.CanRun 0x46 n slot e) (known : s.vol? (e.num 10 4) = some v) :
    exec (.deleteVolume n slot) s = .next (s.ended n slot e
      (if !s.ownsGroup v.ana then .fail (s.begun n slot e) stNotOwner
       else if s.moving v.ana ∨ v.attached ∨ v.cgroup ≠ 0 ∨ s.snap.sessions.any (fun x => (s.scopeVols x.scope x.obj).contains v.nsid) then
         .fail (s.begun n slot e) stBusy
       else ((s.begun n slot e).volumeGone v).cfgDone (packetRef n slot e) [])) := by
  change execDeleteVolume n slot s = _
  rw [execDeleteVolume, State.packet_runs _ h, begun_vol?, known]
  rfl

/-- The checks of ATTACH_VOLUME in their order: the group's owner, the fields, a move of the group; then a detach waits for the volume's commands. -/
theorem exec_attachVolume (h : s.CanRun 0x47 n slot e) (known : s.vol? (e.num 10 4) = some v) {b t : State} (begins : s.begun n slot e = b)
    (stored : (if v.attached == (e.num 14 1 == 1) then b else (b.storeVol { v with attached := e.num 14 1 == 1 }).nsChanged) = t) :
    exec (.attachVolume n slot) s = .next (s.ended n slot e
      (if !s.ownsGroup v.ana then .fail b stNotOwner
       else if e.num 14 1 > 1 ∨ !e.zero 15 3 then .fail b stInvalidField
       else if s.moving v.ana then .fail b stBusy
       else if e.num 14 1 = 0 ∧ (t.hq.cmds.any fun c => c.nsid == v.nsid) = true then
         .quiet { t with ctl.detaches := t.ctl.detaches ++ [(v.nsid, packetRef n slot e)] }
       else if v.attached == (e.num 14 1 == 1) then .done t stOk [] []
       else t.cfgDone (packetRef n slot e) [])) := by
  change execAttachVolume n slot s = _
  rw [execAttachVolume, State.packet_runs _ h]
  dsimp only
  rw [begun_vol?, known, ← stored, ← begins]
  rfl

end
end

/-- Settles O22: each packet's answers, from its checks in their order. -/
theorem poolAndVolumePackets : Obligations.PoolAndVolumePackets := by
  unfold Obligations.PoolAndVolumePackets
  refine ⟨?pool, ?creates, ?deletes, ?attaches, fun _ _ _ _ => exec_deleteVolume_unknown, fun _ _ _ _ => exec_attachVolume_unknown⟩
  case pool =>
    intro n slot e s h b
    subst b
    refine ⟨fun bad ok => ?_, fun zero root noPool alone page mediaKey serves => ?_⟩
    · rw [exec_createPool h, if_pos, State.ended_fail]
      rcases bad with bad | bad | bad | bad
      · exact .inl (by rw [bad]; rfl)
      · exact .inr (.inl bad)
      · exact .inr (.inr (.inl bad))
      · exact .inr (.inr (.inr (.inr (.inl bad))))
    · have allowed : ¬((!e.zero 12 2) = true ∨ s.rootPan.isNone = true ∨ s.pool.loaded = true ∨ s.peerHasPool = true ∨ e.num 10 2 > 4095 ∨
          (!(s.kpage (e.num 10 2)).mediaKey) = true) := by
        have known : s.rootPan.isNone = false := by rw [Option.isNone_eq_false_iff]; exact root
        simp only [zero, known, noPool, alone, mediaKey, Bool.not_true, Bool.false_eq_true, false_or, or_false]
        omega
      have inService : ¬(s.pair.state ≠ .paired ∧ s.pair.state ≠ .solo) := fun none => serves.elim none.1 none.2
      obtain ⟨loaded, mdKey, gen, id, pwk, stored, same⟩ := formPool_makes (s.begun n slot e) (e.num 10 2)
      refine ⟨loaded, mdKey, gen, id, pwk, stored, same, ?_, ?_⟩
      · rw [exec_createPool h, if_neg allowed, if_neg inService, if_pos (by decide), State.ended_fail]
      · rw [exec_createPool h, if_neg allowed, if_neg inService, if_neg (by decide), State.ended_startDone]
  case creates =>
    intro n slot e s h b v
    refine ⟨fun group groupMax other => ?_, fun group groupMax owns pool nsid nsidMax new format attach page mediaKey size sizeMax sizeUnit stays room
      gone owner => ?_⟩
    · rw [exec_createVolume h (v := v) rfl, if_pos ⟨group, groupMax, by rw [other]; rfl⟩, State.ended_fail]
    · exact exec_createVolume_created h rfl ⟨pool, nsid, nsidMax, new, format, attach, group, groupMax, page, mediaKey, size, sizeMax, sizeUnit⟩ owns stays
        room gone owner rfl
  case deletes =>
    intro n slot e v s h known owns b
    rw [exec_deleteVolume h known, owns, if_neg (by decide)]
    refine ⟨fun attached => ?_, fun stays detached noGroup noSessions => ?_⟩
    · rw [if_pos (.inr (.inl attached)), State.ended_fail]
    · rw [if_neg (by simp [stays, detached, noGroup, noSessions]), State.ended_cfgDone]
      rfl
  case attaches =>
    intro n slot e v s h known owns act zero stays b
    have asked : ¬(e.num 14 1 > 1 ∨ (!e.zero 15 3) = true) := by
      rw [zero]
      exact not_or.2 ⟨Nat.not_lt.2 act, by decide⟩
    refine ⟨fun same calm => ?_, fun detached attach => ?_⟩
    · have alike : (v.attached == (e.num 14 1 == 1)) = true := beq_iff_eq.2 same
      have idle : (b.hq.cmds.any fun c => c.nsid == v.nsid) = false := calm
      rw [exec_attachVolume h known rfl rfl, owns, if_neg (by decide), if_neg asked, stays, if_neg (by decide), if_pos alike, idle,
        if_neg (fun waits => Bool.false_ne_true waits.2), if_pos alike, State.ended_done]
    · rw [exec_attachVolume h known rfl rfl, owns, if_neg (by decide), if_neg asked, stays, if_neg (by decide), detached, attach,
        if_neg (not_and_of_not_left _ Nat.one_ne_zero), if_neg (by decide), State.ended_cfgDone]
      rfl

end Sys2Proof.Machine
end

section
/-! The media modules' link (13_media_link.md R314 to R335): a port that comes up or goes down, what a module sends, GET_MODULE_INFO, the commands that
go through the peer's ports, and the statement about them. -/
namespace Sys2Proof.Machine

section
variable {s : State} {port : Nat}

/-! ### A port comes up or goes down (R314, R315, R332) -/

theorem exec_mediaPortUp_off {width rate : Nat} {mismatch : Bool} (known : port < 32) (off : s.domainOff (19 + port) = true) :
    exec (.mediaPortUp port width rate mismatch) s = .next (s.putMod { s.mod port with present := true }) :=
  congrArg Host.Outcome.next (if_pos ⟨known, off⟩)

/-- A port whose power domain is on comes up at four lanes and rate 5 only, and asks for the module's record. -/
theorem exec_mediaPortUp {mismatch : Bool} (known : port < 32) (on : s.domainOff (19 + port) = false) (enabled : s.fld R.LNK_CFG 0 0 ≠ 0) :
    exec (.mediaPortUp port 4 5 mismatch) s = .next (if (s.mod port).up = true then s else
      (s.putMod { s.mod port with
        present := true, up := true, heldReason := if mismatch then 1 else 0, discovered := false }).askParam port 0xFFFF 0 (.modRecord 1)) := by
  change execMediaPortUp port 4 5 mismatch s = _
  rw [execMediaPortUp, if_neg (by simp [on])]
  simp only [Nat.not_le.2 known, enabled, ne_eq, not_true_eq_false, false_or]

theorem rowMediaPortDown_down (down : (s.mod port).up = false) : rowMediaPortDown port s = s :=
  if_pos (by rw [down]; rfl)

/-- What a port that goes down leaves: a count, the module without its link, the port's unit FAILED with cause 6. -/
def State.portLost (s : State) (port : Nat) : State :=
  ((s.bump R.LNK_LINK_DOWN_CNT).putMod { s.mod port with up := false, proxied := true }).setUnitState (unitId 1 (16 + port)) .failed 6

theorem rowMediaPortDown_up (up : (s.mod port).up = true) : rowMediaPortDown port s =
    if (s.portLost port).peerInService then (s.lnk.cmds.filter fun c => c.port == port && !c.viaPeer).foldl State.throughPeer (s.portLost port)
    else (s.portLost port).failModule port 5 :=
  if_neg (by rw [up]; decide)

/-! ### What a module sends (R316, R321, R322) -/

theorem exec_moduleCplRx_bad {b : Bytes} (found : List Bytes) (bad : cplOf b = none) : exec (.moduleCplRx port b found) s = .next s := by
  change execModuleCplRx port b found s = _
  rw [execModuleCplRx, bad]

theorem exec_moduleCplRx {b : Bytes} {k : Cpl} (found : List Bytes) (good : cplOf b = some k) : exec (.moduleCplRx port b found) s =
    .next ((s.answered port k false).elim s fun c => s.cplDone c k b true found) := by
  change execModuleCplRx port b found s = _
  rw [execModuleCplRx, good]
  dsimp only
  cases s.answered port k false <;> rfl

section
variable {tag : Nat} {c : ModCmd} (named : s.cmdOf port tag = some c)
include named

/-- Read data belongs to a command of the module's own port that is sent and not told to wait. -/
theorem exec_moduleRdataRx (off : Nat) (data : Bytes) : exec (.moduleRdataRx port tag off data) s =
    .next (if (c.sent && !c.viaPeer && !c.busyWait) = true then
      s.putCmd { c with rdata := slice c.rdata 0 off ++ data ++ c.rdata.drop (off + data.length) } else s) := by
  change execModuleRdataRx port tag off data s = _
  rw [execModuleRdataRx, named]
  cases taken : (c.sent && !c.viaPeer && !c.busyWait) <;> simp only [Option.filter, taken] <;> rfl

theorem exec_moduleBusyRetry : exec (.moduleBusyRetry port tag) s = .next (if c.busyWait = true then
    (s.putCmd { c with busyWait := false, rdata := [] }).sendCmd { c with busyWait := false, rdata := [] } else s) := by
  change execModuleBusyRetry port tag s = _
  rw [execModuleBusyRetry, named]

end

/-! ### GET_MODULE_INFO (R335) -/

/-- The record that GET_MODULE_INFO returns, by its selector: the module's, a die's, the reservation's. -/
def State.moduleInfo (s : State) (port sel die : Nat) : Bytes :=
  match sel with
  | 0 => slice (s.mod port).record 0 64
  | 1 => slice (s.dieRec (dieUnit port die)) 0 64
  | _ => s.rsvRecord port

/-- The checks of GET_MODULE_INFO in their order: the fields, a module that is present, one that can be reached, a die that it has. -/
theorem exec_getModuleInfo {n slot : Nat} {e : Entry} (h : s.CanRun 0x26 n slot e) (target : unitIndex e.target = port) :
    exec (.getModuleInfo n slot) s = .next (s.ended n slot e
      (if e.num 10 1 > 2 ∨ !e.zero 11 1 then .fail (s.begun n slot e) stInvalidField
       else if !(s.mod port).present then .fail (s.begun n slot e) 0x0A00
       else if !s.reachable port then .fail (s.begun n slot e) 0x0A01
       else if e.num 10 1 = 1 ∧ e.num 12 2 ≥ leAt (s.mod port).record 6 2 then .fail (s.begun n slot e) 0x0A02
       else .done (s.begun n slot e) stOk [] ((s.begun n slot e).moduleInfo port (e.num 10 1) (e.num 12 2)))) := by
  subst target
  exact congrArg Host.Outcome.next (State.packet_runs _ h)

/-! ### Commands and completions through the peer (R329, R361) -/

section
variable {h : PtlHdr} {payload b : Bytes} (o : s.InOrder 2 h) (whole : s.whole 2 h payload = b)
include o whole

theorem exec_proxyCplRx (found : List Bytes) : exec (.proxyCplRx h payload found) s =
    .next ((cplOf (slice b 4 32)).elim (s.taken 2 h) fun k => ((s.taken 2 h).answered (leAt b 0 4) k true).elim (s.taken 2 h) fun c =>
      (s.taken 2 h).cplDone { c with rdata := b.drop 36 } k (slice b 4 32) false found) := by
  refine onPtl_next o ?_
  rw [whole]
  cases cplOf (slice b 4 32) with
  | none => rfl
  | some k =>
    dsimp only [Option.elim_some]
    cases (s.taken 2 h).answered (leAt b 0 4) k true <;> rfl

/-- A command that the peer sends through a port of this head is counted, and issued on a port that is directly connected. -/
theorem exec_proxyCmdRx {t : State} (counted : State.leadCheck { (s.taken 2 h).bump R.PAIR_PROXY_RX_CNT with
      pair.peerProxy := if (s.taken 2 h).pair.peerProxy.contains (leAt b 0 4) then (s.taken 2 h).pair.peerProxy
        else (s.taken 2 h).pair.peerProxy ++ [leAt b 0 4] } = t) :
    exec (.proxyCmdRx h payload) s = .next (if t.direct (leAt b 0 4) = true then
      t.issue (leAt b 0 4) (leAt (slice b 4 64) 4 2) (leAt (slice b 4 64) 0 1) (leAt (slice b 4 64) 1 1) (slice (slice b 4 64) 16 40) (b.drop 68)
        (.proxied (leAt (slice b 4 64) 2 2))
    else (t.failModule (leAt b 0 4) 5).afterUnits) := by
  refine onPtl_next o ?_
  rw [whole, ← counted]
  rfl

end
end

/-- Settles O47: the port, what the module sends, the packet's checks in their order, and the peer's proxy messages. -/
theorem moduleLinkCommandsAndProxy : Obligations.ModuleLinkCommandsAndProxy := by
  unfold Obligations.ModuleLinkCommandsAndProxy
  refine ⟨fun port mismatch s known on enabled => ⟨fun down => ?_, fun up => ?_⟩, fun _ _ _ _ _ => exec_mediaPortUp_off, ?down, ?completions, ?data,
    fun s => rfl, ?info, ?proxy⟩
  · rw [exec_mediaPortUp known on enabled, if_neg (ne_true_of_eq_false down)]
  · rw [exec_mediaPortUp known on enabled, if_pos up]
  case down =>
    refine fun port s => ⟨fun down => ?_, fun d up lost => ?_, rfl, fun die => ⟨rfl, rfl, rfl, rfl⟩⟩
    · exact congrArg (fun t : State => Host.Outcome.next t.afterUnits) (rowMediaPortDown_down down)
    · have row := rowMediaPortDown_up up
      rw [show s.portLost port = d from lost] at row
      refine ⟨fun alone => ?_, fun serves => ?_⟩
      · exact congrArg (fun t : State => Host.Outcome.next t.afterUnits) (row.trans (if_neg (ne_true_of_eq_false alone)))
      · exact congrArg (fun t : State => Host.Outcome.next t.afterUnits) (row.trans (if_pos serves))
  case completions =>
    refine fun port b found s => ⟨exec_moduleCplRx_bad found, fun k good unknown => ?_, fun k c good answers => ?_⟩
    · rw [exec_moduleCplRx found good, unknown, Option.elim_none]
    · rw [exec_moduleCplRx found good, answers, Option.elim_some]
  case data =>
    refine fun port tag off data c s named => ⟨fun sent own goes => ?_, fun other => ?_, fun waits => ?_, fun goes => ?_⟩
    · rw [exec_moduleRdataRx named, if_pos (by rw [sent, own, goes]; rfl)]
    · rw [exec_moduleRdataRx named, if_neg]
      rcases other with unsent | peer | waits
      · simp [unsent]
      · simp [peer]
      · simp [waits]
    · rw [exec_moduleBusyRetry named, if_pos waits]
    · rw [exec_moduleBusyRetry named, if_neg (ne_true_of_eq_false goes)]
  case info =>
    intro n slot e s h b p
    rw [exec_getModuleInfo h (port := p) rfl]
    refine ⟨fun bad => ?_, fun sel zero absent => ?_, fun sel zero present cut => ?_, fun zero present reached => ⟨fun sel => ?_, fun sel noDie => ?_,
      fun sel die => ?_⟩⟩
    · rw [if_pos (bad.imp id (by rw [·]; rfl)), State.ended_fail]
    · rw [zero, if_neg (by simpa using sel), absent, if_pos (by decide), State.ended_fail]
    · rw [zero, if_neg (by simpa using sel), present, if_neg (by decide), cut, if_pos (by decide), State.ended_fail]
    · rw [zero, sel, if_neg (by decide), present, if_neg (by decide), reached, if_neg (by decide), if_neg (by simp), State.ended_done]
      rfl
    · rw [zero, sel, if_neg (by decide), present, if_neg (by decide), reached, if_neg (by decide), if_pos ⟨rfl, noDie⟩, State.ended_fail]
    · rw [zero, sel, if_neg (by decide), present, if_neg (by decide), reached, if_neg (by decide), if_neg (fun bad => Nat.not_le.2 die bad.2),
        State.ended_done]
      rfl
  case proxy =>
    intro h payload s o b whole u
    refine ⟨fun k c found good answers => ?_, fun found bad => ?_, fun t counted => ⟨fun direct => ?_, fun cut => ?_⟩⟩
    · rw [exec_proxyCplRx o whole, good, Option.elim_some, show (s.taken 2 h).answered (leAt b 0 4) k true = some c from answers, Option.elim_some]
    · rw [exec_proxyCplRx o whole, bad, Option.elim_none]
    · rw [exec_proxyCmdRx o whole counted, if_pos direct]
    · rw [exec_proxyCmdRx o whole counted, if_neg (ne_true_of_eq_false cut)]

end Sys2Proof.Machine
end

section
/-! Snapshots and their cuts (14_snapshots_replication.md R338 to R346, R355): what each packet comes to, what the peer announces, the end of a space scan,
and the statement about them. -/
namespace Sys2Proof.Machine

section
variable {s : State} {n slot : Nat} {e : Entry}

@[simp] theorem begun_ownsVol (nsid : Nat) : (s.begun n slot e).ownsVol nsid = s.ownsVol nsid := rfl

/-! ### SET_VOLUME_GROUP (R343, R355) -/

/-- The checks of SET_VOLUME_GROUP in their order: the group's owner; the fields; a move; another consistency group; the members of the new one. -/
theorem exec_setVolumeGroup {v : Volume} (h : s.CanRun 0x88 n slot e) (known : s.vol? (e.num 10 4) = some v) :
    exec (.setVolumeGroup n slot) s = .next (s.ended n slot e
      (if !s.ownsGroup v.ana then .fail (s.begun n slot e) stNotOwner
       else if e.num 14 2 > 4095 ∨ !e.zero 16 2 then .fail (s.begun n slot e) stInvalidField
       else if s.moving v.ana then .fail (s.begun n slot e) stBusy
       else if e.num 14 2 ≠ 0 ∧ v.cgroup ≠ 0 ∧ v.cgroup ≠ e.num 14 2 then .fail (s.begun n slot e) 0x0B02
       else if e.num 14 2 ≠ 0 ∧ v.cgroup ≠ e.num 14 2 ∧ countOf (fun x => x.cgroup == e.num 14 2) s.pool.volumes ≥ 256 then
         .fail (s.begun n slot e) 0x0B01
       else ((s.begun n slot e).storeVol { v with cgroup := e.num 14 2 }).cfgDone (packetRef n slot e) [])) := by
  change execSetVolumeGroup n slot s = _
  rw [execSetVolumeGroup, State.packet_runs _ h]
  dsimp only
  rw [begun_vol?, known]
  rfl

/-! ### CREATE_SNAPSHOT (R338, R343, R344, R355) -/

/-- The volume's group is being moved. -/
def State.volMoves (s : State) (nsid : Nat) : Bool :=
  match s.vol? nsid with
  | some v => s.moving v.ana
  | none => false

theorem volMoves_known {nsid : Nat} {v : Volume} (known : s.vol? nsid = some v) : s.volMoves nsid = s.moving v.ana := by
  rw [State.volMoves, known]

/-- How a packet goes on whose cut `c` has been armed, or could not be. -/
def State.cutReply (u : State) (c : Cut) : Except Nat State → PktRes
  | .error st => .fail u st
  | .ok t =>
    let t := { t with snap.nextId := c.snap + 1, snap.cuts := t.snap.cuts ++ [c] }
    .started (if t.peerInService then t.control 0x0004 (cutMsg false c.snap c.scope c.obj c.instant) else t)

/-- The checks of CREATE_SNAPSHOT in their order: the volume's owner; the fields; a move; the limits of R338; then the cut is armed at its instant. -/
theorem exec_createSnapshot (h : s.CanRun 0x89 n slot e) {vols : List Nat} (asked : s.scopeVols (e.num 10 1) (e.num 12 4) = vols) {i : Nat}
    (at_ : (if e.num 16 8 = 0 then (s.slot + 2) * 8000 else e.num 16 8) = i) :
    exec (.createSnapshot n slot) s = .next (s.ended n slot e
      (if e.num 10 1 = 0 ∧ vols ≠ [] ∧ !s.ownsVol (e.num 12 4) then .fail (s.begun n slot e) stNotOwner
       else if e.num 10 1 > 1 ∨ !e.zero 11 1 ∨ vols = [] ∨ s.snap.nextId ≥ 2 ^ 32 then .fail (s.begun n slot e) stInvalidField
       else if vols.any s.volMoves then .fail (s.begun n slot e) stBusy
       else if !s.snapRoom vols then .fail (s.begun n slot e) 0x0B00
       else (s.begun n slot e).cutReply ⟨s.snap.nextId, e.num 10 1, e.num 12 4, i, some (packetRef n slot e), false, false, false⟩
         ((s.begun n slot e).armTimed i (.cut s.snap.nextId (e.num 10 1) (e.num 12 4))))) := by
  subst asked at_
  exact congrArg Host.Outcome.next (State.packet_runs _ h)

/-- A timed event is armed two slots ahead or later, while the table has room (02_fabric_time.md R40). -/
theorem armTimed_ok {instant : Nat} {kind : TimedKind} (runs : s.tide.state ≠ .freerun) (ahead : s.slot + 2 ≤ instant / 8000)
    (room : s.tide.timed.length < 256) : s.armTimed instant kind = .ok { s with
      tide.timed := s.tide.timed ++ [⟨instant, s.tide.nextOrder, decide (instant / 8000 ≤ s.lastSlot), kind⟩]
      tide.nextOrder := s.tide.nextOrder + 1 } := by
  rw [State.armTimed, if_neg runs, if_neg (Nat.not_lt.2 ahead), if_neg (Nat.not_le.2 room)]

/-- A snapshot of one volume that this head serves and whose group is not being moved: what remains is the limits, and the instant. -/
theorem exec_createSnapshot_one (h : s.CanRun 0x89 n slot e) (single : e.num 10 1 = 0) (zero : e.zero 11 1 = true)
    (asked : s.scopeVols 0 (e.num 12 4) = [e.num 12 4]) (owns : s.ownsVol (e.num 12 4) = true) {v : Volume} (known : s.vol? (e.num 12 4) = some v)
    (stays : s.moving v.ana = false) (numbers : s.snap.nextId < 2 ^ 32) {i : Nat}
    (at_ : (if e.num 16 8 = 0 then (s.slot + 2) * 8000 else e.num 16 8) = i) :
    exec (.createSnapshot n slot) s = .next (s.ended n slot e
      (if !s.snapRoom [e.num 12 4] then .fail (s.begun n slot e) 0x0B00
       else (s.begun n slot e).cutReply ⟨s.snap.nextId, 0, e.num 12 4, i, some (packetRef n slot e), false, false, false⟩
         ((s.begun n slot e).armTimed i (.cut s.snap.nextId 0 (e.num 12 4))))) := by
  rw [exec_createSnapshot h (vols := [e.num 12 4]) (by rw [single]; exact asked) at_, single, if_neg (by simp [owns]), if_neg (by simpa [zero] using numbers),
    if_neg (by simp [volMoves_known known, stays])]

/-! ### DELETE_SNAPSHOT (R346) -/

/-- The checks of DELETE_SNAPSHOT in their order: the owner of a volume that has the epoch; the fields; a move; a session that holds it. -/
theorem exec_deleteSnapshot (h : s.CanRun 0x8A n slot e) {vols : List Nat}
    (asked : ((s.scopeVols (e.num 10 1) (e.num 12 4)).filter fun v => s.snap.epochs.any fun x => x.nsid == v && x.id == e.num 16 4) = vols) :
    exec (.deleteSnapshot n slot) s = .next (s.ended n slot e
      (if vols ≠ [] ∧ !vols.any s.ownsVol then .fail (s.begun n slot e) stNotOwner
       else if e.num 10 1 > 1 ∨ !e.zero 11 1 ∨ !e.zero 20 2 ∨ vols = [] then .fail (s.begun n slot e) stInvalidField
       else if vols.any s.volMoves then .fail (s.begun n slot e) stBusy
       else if s.snapHeld (e.num 16 4) vols then .fail (s.begun n slot e) 0x0B04
       else ((s.begun n slot e).dropSnap (e.num 16 4) vols false).cfgDone (packetRef n slot e) [])) := by
  subst asked
  exact congrArg Host.Outcome.next (State.packet_runs _ h)

/-! ### LIST_SNAPSHOTS, CLONE_SNAPSHOT and GET_SNAPSHOT_SPACE (R341, R345, R355) -/

/-- The checks of LIST_SNAPSHOTS in their order: the volume, its owner. -/
theorem exec_listSnapshots (h : s.CanRun 0x8B n slot e) :
    exec (.listSnapshots n slot) s = .next (s.ended n slot e
      (if (s.vol? (e.num 10 4)).isNone then .fail (s.begun n slot e) stInvalidField
       else if !s.ownsVol (e.num 10 4) then .fail (s.begun n slot e) stNotOwner
       else .done (s.begun n slot e) stOk []
         (((s.snap.epochs.filter (·.nsid == e.num 10 4)).mergeSort fun a b => decide (a.id ≤ b.id)).flatMap
           fun x => leBytes 4 x.id ++ leBytes 4 0 ++ leBytes 8 x.instant))) :=
  congrArg Host.Outcome.next (State.packet_runs _ h)

/-- The volume that a clone of `v` becomes. -/
def State.cloneOf (s : State) (v : Volume) (new : Nat) : Volume :=
  { v with
    homeKey := ((s.dom? v.domain).map Domain.keyPage).getD v.homeKey, nsid := new, attached := false, mode := 0, flags := 0, clientAllow := 1
    budget := 0, maxInflight := 0, cgroup := 0 }

/-- The checks of CLONE_SNAPSHOT on a volume that this head serves: the epoch and the new number; a move; the number of volumes; a deletion. -/
theorem exec_cloneSnapshot {v : Volume} (h : s.CanRun 0x8C n slot e) (known : s.vol? (e.num 10 4) = some v) (owns : s.ownsGroup v.ana = true) {c : Volume}
    (clones : s.cloneOf v (e.num 18 4) = c) :
    exec (.cloneSnapshot n slot) s = .next (s.ended n slot e
      (if !s.snap.epochs.any (fun x => x.nsid == e.num 10 4 && x.id == e.num 14 4) ∨ e.num 18 4 < 1 ∨ e.num 18 4 > 65536 ∨
           (s.vol? (e.num 18 4)).isSome then .fail (s.begun n slot e) stInvalidField
       else if s.moving v.ana then .fail (s.begun n slot e) stBusy
       else if s.pool.volumes.length ≥ 65536 then .fail (s.begun n slot e) stNoResource
       else if s.snap.gone.any (·.nsid == e.num 18 4) then .waits
       else ((((s.begun n slot e).putVol c).placeCfg (leBytes 1 cfgClone ++ leBytes 4 (e.num 10 4) ++ leBytes 4 (e.num 14 4) ++ c.record)).placeAct
         (.clone (e.num 10 4) (e.num 14 4) (e.num 18 4))).cfgDone (packetRef n slot e) [])) := by
  subst clones
  change execCloneSnapshot n slot s = _
  rw [execCloneSnapshot, State.packet_runs _ h]
  dsimp only
  rw [begun_vol?, known]
  dsimp only
  rw [begun_ownsGroup, owns, if_neg (by decide)]
  rfl

/-- The checks of GET_SNAPSHOT_SPACE in their order: the volume's owner; the volume and the epoch. -/
theorem exec_getSnapshotSpace (h : s.CanRun 0x8D n slot e) :
    exec (.getSnapshotSpace n slot) s = .next (s.ended n slot e
      (if (s.vol? (e.num 10 4)).isSome ∧ !s.ownsVol (e.num 10 4) then .fail (s.begun n slot e) stNotOwner
       else if (s.vol? (e.num 10 4)).isNone ∨ (e.num 14 4 ≠ 0 ∧ !s.snap.epochs.any fun x => x.nsid == e.num 10 4 && x.id == e.num 14 4) then
         .fail (s.begun n slot e) stInvalidField
       else .started (State.placeAct { s.begun n slot e with
         snap.scans := s.snap.scans ++ [⟨packetRef n slot e, e.num 10 4, e.num 14 4, []⟩] } (.scan (e.num 10 4) (packetRef n slot e))))) :=
  congrArg Host.Outcome.next (State.packet_runs _ h)

end

section
variable {s : State}

theorem exec_snapshotSpaceScanDone (ring slot : Nat) : exec (.snapshotSpaceScanDone ring slot) s =
    .next ((s.snap.scans.find? fun x => x.pkt.ring == ring && x.pkt.slot == slot && x.counts != []).elim s fun x =>
      State.finish { s with snap.scans := s.snap.scans.filter fun y => y.pkt != x.pkt } x.pkt stOk (x.counts.flatMap fun c => leBytes 4 (c / 65536)) []) := by
  change execSnapshotSpaceScanDone ring slot s = _
  rw [execSnapshotSpaceScanDone]
  cases s.snap.scans.find? fun x => x.pkt.ring == ring && x.pkt.slot == slot && x.counts != [] <;> rfl

/-! ### Cuts of the peer (R343, R344) -/

/-- A cut that the peer announces in `b` stands among this head's cuts. -/
def State.cutNoted (u : State) (b : Bytes) : State :=
  { u with
    snap.nextId := Nat.max u.snap.nextId (leAt b 3 4 + 1)
    snap.cuts := putKey Cut.snap ⟨leAt b 3 4, leAt b 7 1, leAt b 8 4, leAt b 12 8, none, true, false, false⟩ u.snap.cuts }

section
variable {h : PtlHdr} {payload b : Bytes} (o : s.InOrder 0 h) (whole : s.whole 0 h payload = b)
include o whole

/-- An announced cut is armed while the table of timed events has room, and missed otherwise. -/
theorem exec_cutArmRx : exec (.cutArmRx h payload) s = .next (if (s.taken 0 h).tide.timed.length ≥ 256 then
      ((s.taken 0 h).cutNoted b).missCut (leAt b 3 4) true
    else { (s.taken 0 h).cutNoted b with
      tide.timed := (s.taken 0 h).tide.timed ++ [⟨leAt b 12 8, (s.taken 0 h).tide.nextOrder, decide (leAt b 12 8 / 8000 ≤ (s.taken 0 h).lastSlot),
        .cut (leAt b 3 4) (leAt b 7 1) (leAt b 8 4)⟩]
      tide.nextOrder := (s.taken 0 h).tide.nextOrder + 1 }) := by
  subst whole
  exact onPtl_next o rfl

theorem exec_cutCancelRx : exec (.cutCancelRx h payload) s =
    .next (if (findKey Cut.snap (leAt b 3 4) (s.taken 0 h).snap.cuts).isSome then (s.taken 0 h).missCut (leAt b 3 4) false
      else if ((((s.taken 0 h).snap.epochs.filter (·.id == leAt b 3 4)).map Epoch.nsid).filter (s.taken 0 h).ownsVol) = [] then s.taken 0 h
      else (s.taken 0 h).dropSnap (leAt b 3 4)
        ((((s.taken 0 h).snap.epochs.filter (·.id == leAt b 3 4)).map Epoch.nsid).filter (s.taken 0 h).ownsVol) false) := by
  subst whole
  exact onPtl_next o rfl

end
end

/-- Settles O48: each packet's answers, from its checks in their order; then the peer's cuts. -/
theorem snapshotsAreCutListedAndDropped : Obligations.SnapshotsAreCutListedAndDropped := by
  unfold Obligations.SnapshotsAreCutListedAndDropped
  refine ⟨?groups, ?creates, ?deletes, ?lists, ?clones, ?space, ?scans, ?peer⟩
  case groups =>
    intro n slot e v s h known b
    rw [exec_setVolumeGroup h known]
    refine ⟨fun other => ?_, fun owns large => ?_, fun owns group zero stays => ⟨fun new old changes => ?_, fun keeps => ?_⟩⟩
    · rw [other, if_pos (by decide), State.ended_fail]
    · rw [owns, if_neg (by decide), if_pos (.inl large), State.ended_fail]
    · rw [owns, if_neg (by decide), if_neg (by simp [zero, group]), stays, if_neg (by decide), if_pos ⟨new, old, changes⟩, State.ended_fail]
    · have unchanged : e.num 14 2 ≠ 0 → v.cgroup = e.num 14 2 := keeps.resolve_left
      rw [owns, if_neg (by decide), if_neg (by simp [zero, group]), stays, if_neg (by decide), if_neg fun c => c.2.2 (unchanged c.1),
        if_neg fun c => c.2.1 (unchanged c.1), State.ended_cfgDone]
  case creates =>
    intro n slot e s h single zero b o vols i
    have asked : s.scopeVols (e.num 10 1) (e.num 12 4) = vols := by rw [single]
    refine ⟨fun none => ?_, fun some other => ?_, fun v one owns known stays numbers => ⟨fun full => ?_, fun room free => ?_, fun room runs soon => ?_,
      fun room runs ahead table alone => ?_⟩⟩
    · rw [exec_createSnapshot h asked rfl, if_neg fun c => c.2.1 none, if_pos (.inr (.inr (.inl none))), State.ended_fail]
    · rw [exec_createSnapshot h asked rfl, if_pos ⟨single, some, by rw [other]; rfl⟩, State.ended_fail]
    · rw [exec_createSnapshot_one h single zero one owns known stays numbers rfl, full, if_pos (by decide), State.ended_fail]
    · rw [exec_createSnapshot_one h single zero one owns known stays numbers rfl, room, if_neg (by decide), armTimed_freerun (s := s.begun n slot e) free]
      rfl
    · rw [exec_createSnapshot_one h single zero one owns known stays numbers rfl, room, if_neg (by decide), armTimed_tooSoon (s := s.begun n slot e) runs soon]
      rfl
    · have unserved : State.peerInService (s.begun n slot e) = false := alone
      rw [exec_createSnapshot_one h single zero one owns known stays numbers rfl, room, if_neg (by decide), armTimed_ok (s := s.begun n slot e) runs ahead table]
      exact congrArg Host.Outcome.next (congrArg (State.inProgress · n slot e) (if_neg (ne_true_of_eq_false unserved)))
  case deletes =>
    intro n slot e s h scope zero zero' b vols
    rw [exec_deleteSnapshot h (vols := vols) rfl]
    refine ⟨fun none => ?_, fun some other => ?_, fun o v one owns known stays => ?_⟩
    · rw [if_neg fun c => c.1 none, if_pos (.inr (.inr (.inr none))), State.ended_fail]
    · rw [if_pos ⟨some, by rw [other]; rfl⟩, State.ended_fail]
    · rw [one, if_neg (by simp [owns]), if_neg (by simp [scope, zero, zero']), if_neg (by simp [volMoves_known known, stays])]
      refine ⟨fun held => ?_, fun free => ?_⟩
      · rw [if_pos held, State.ended_fail]
      · rw [if_neg (ne_true_of_eq_false free), State.ended_cfgDone]
  case lists =>
    intro n slot e s h b
    rw [exec_listSnapshots h]
    refine ⟨fun unknown => ?_, fun known other => ?_, fun known owns => ?_⟩
    · rw [unknown, if_pos (by decide), State.ended_fail]
    · rw [if_neg (by simpa using known), other, if_pos (by decide), State.ended_fail]
    · rw [if_neg (by simpa using known), owns, if_neg (by decide), State.ended_done]
  case clones =>
    intro n slot e v s h known owns b new
    rw [exec_cloneSnapshot h known owns rfl]
    refine ⟨fun noEpoch => ?_, fun epoch lo hi free stays room gone => ?_⟩
    · rw [noEpoch, if_pos (.inl rfl), State.ended_fail]
    · have allowed : ¬((!s.snap.epochs.any fun x => x.nsid == e.num 10 4 && x.id == e.num 14 4) = true ∨ new < 1 ∨ new > 65536 ∨
          (s.vol? new).isSome = true) := by
        simp only [epoch, free, Bool.not_true, Bool.false_eq_true, Option.isSome_none, false_or, or_false]
        omega
      rw [if_neg allowed, stays, if_neg (by decide), if_neg (Nat.not_le.2 room), gone, if_neg (by decide), State.ended_cfgDone]
      rfl
  case space =>
    intro n slot e v s h known b
    rw [exec_getSnapshotSpace h, known]
    refine ⟨fun other => ?_, fun owns whole => ?_⟩
    · rw [other, if_pos ⟨rfl, rfl⟩, State.ended_fail]
    · rw [owns, whole, if_neg (by simp), if_neg (by simp), State.ended_started]
  case scans =>
    refine fun ring slot x s => ⟨fun counted => ?_, fun none => ?_⟩
    · rw [exec_snapshotSpaceScanDone, counted, Option.elim_some]
    · rw [exec_snapshotSpaceScanDone, none, Option.elim_none]
  case peer =>
    intro h payload s o b whole u id
    refine ⟨fun room => ?_, fun full => ?_, fun c known => ?_, fun unknown noEpochs => ?_⟩
    · rw [exec_cutArmRx o whole, if_neg (Nat.not_le.2 room)]
      rfl
    · rw [exec_cutArmRx o whole, if_pos full]
      rfl
    · rw [exec_cutCancelRx o whole, if_pos (Option.isSome_iff_exists.2 ⟨c, known⟩)]
    · have none : (s.taken 0 h).snap.epochs = [] := noEpochs
      rw [exec_cutCancelRx o whole, if_neg (by rw [show findKey Cut.snap (leAt b 3 4) (s.taken 0 h).snap.cuts = Option.none from unknown]; decide), none,
        List.filter_nil, List.map_nil, List.filter_nil, if_pos rfl]

end Sys2Proof.Machine
end

section
/-! Replication sessions (14_snapshots_replication.md R347, R353, R355): their packets, how one connects, their timers, and the statement about them. -/
namespace Sys2Proof.Machine

section
variable {s : State} {n slot : Nat} {e : Entry}

/-! ### CREATE_REPL_SESSION (R347, R355) -/

/-- The session that a CREATE_REPL_SESSION packet asks for. -/
def sessionOf (e : Entry) : Session :=
  { Session.ofRecord [] with
    no := e.num 10 2, role := e.num 12 1, scope := e.num 13 1, obj := e.num 14 4, keyPage := e.num 18 2, port := e.num 20 1, dscp := e.num 21 1
    period := e.num 22 4, gid := e.sub 26 16, remote := e.num 42 2, pd := e.num 44 2, state := .connecting }

/-- The checks of CREATE_REPL_SESSION in their order: the volumes' owner; the fields; a move; the number, or another session of a volume; the key page; the
number of sessions. -/
theorem exec_createReplSession (h : s.CanRun 0x90 n slot e) {vols : List Nat} (asked : s.scopeVols (e.num 13 1) (e.num 14 4) = vols) :
    exec (.createReplSession n slot) s = .next (s.ended n slot e
      (if !vols.all s.ownsVol then .fail (s.begun n slot e) stNotOwner
       else if vols.isEmpty ∨ !sessionFieldsOk e then .fail (s.begun n slot e) stInvalidField
       else if vols.any s.volMoves then .fail (s.begun n slot e) stBusy
       else if (s.session? (e.num 10 2)).isSome ∨ s.snap.sessions.any (fun x => (s.sessionVols x).any vols.contains) then
         .fail (s.begun n slot e) 0x0B05
       else if (s.kpage (e.num 18 2)).state ≠ .live ∨ (s.kpage (e.num 18 2)).usage ≠ 2 ∨ !(s.kpage (e.num 18 2)).persist then
         .fail (s.begun n slot e) 0x0B07
       else if s.snap.sessions.length ≥ 512 then .fail (s.begun n slot e) stNoResource
       else (s.begun n slot e).startSession (packetRef n slot e) (sessionOf e))) := by
  subst asked
  exact congrArg Host.Outcome.next (State.packet_runs _ h)

/-- The packet asks for a session of one volume, which this head serves and whose group is not being moved, with fields that are allowed. -/
structure State.SessionAsked (s : State) (e : Entry) : Prop where
  one : ∃ o v, s.scopeVols (e.num 13 1) (e.num 14 4) = [o] ∧ s.ownsVol o = true ∧ s.vol? o = some v ∧ s.moving v.ana = false
  fields : sessionFieldsOk e = true

/-- With such a packet, what remains is the number, the key page and the number of sessions. -/
theorem exec_createReplSession_asked (h : s.CanRun 0x90 n slot e) (good : s.SessionAsked e) :
    exec (.createReplSession n slot) s = .next (s.ended n slot e
      (if (s.session? (e.num 10 2)).isSome ∨
           s.snap.sessions.any (fun x => (s.sessionVols x).any (s.scopeVols (e.num 13 1) (e.num 14 4)).contains) then .fail (s.begun n slot e) 0x0B05
       else if (s.kpage (e.num 18 2)).state ≠ .live ∨ (s.kpage (e.num 18 2)).usage ≠ 2 ∨ !(s.kpage (e.num 18 2)).persist then
         .fail (s.begun n slot e) 0x0B07
       else if s.snap.sessions.length ≥ 512 then .fail (s.begun n slot e) stNoResource
       else (s.begun n slot e).startSession (packetRef n slot e) (sessionOf e))) := by
  obtain ⟨⟨o, v, one, owns, known, stays⟩, fields⟩ := good
  rw [exec_createReplSession h one, one, if_neg (by simp [owns]), if_neg (by simp [fields]), if_neg (by simp [volMoves_known known, stays])]

theorem session?_of_noSessions (none : s.snap.sessions = []) (no : Nat) : s.session? no = Option.none := by
  rw [State.session?, none]
  rfl

/-- The first session, under a live, persistent key page for replication, is started. -/
theorem exec_createReplSession_first (h : s.CanRun 0x90 n slot e) (good : s.SessionAsked e) (none : s.snap.sessions = [])
    (live : (s.kpage (e.num 18 2)).state = .live) (usage : (s.kpage (e.num 18 2)).usage = 2) (persist : (s.kpage (e.num 18 2)).persist = true) :
    exec (.createReplSession n slot) s =
      .next (s.ended n slot e ((s.begun n slot e).startSession (packetRef n slot e) (sessionOf e))) := by
  rw [exec_createReplSession_asked h good, session?_of_noSessions none, none, if_neg (by simp), if_neg (by simp [live, usage, persist]), if_neg (by simp)]

theorem startSession_noRegion {p : PktRef} {x : Session} (full : s.landingKey x.pd = none) : s.startSession p x = .fail s stNoResource := by
  rw [State.startSession, full]

theorem startSession_ok {p : PktRef} {x : Session} {c : State} {key : Nat} (region : s.landingKey x.pd = some (c, key)) {t : State}
    (connects : (c.storeSession { x with landKey := key }).connectSession { x with landKey := key } = t) :
    s.startSession p x = (t.armPeriod { x with landKey := key } t.tide.time).cfgDone p [] := by
  rw [State.startSession, region, ← connects]

theorem landingKey_zero (s : State) : s.landingKey 0 = none := if_pos rfl

/-! ### Connecting (R353) -/

theorem connectSession_down {x : Session} (down : (s.eport x.port).up = false) :
    s.connectSession x = (s.bump R.REPL_SUSPEND_CNT).putSession { x with state := .suspended } :=
  if_pos (.inl (by rw [down]; rfl))

/-- A session connects where its port is up and a queue pair is free: the pair is made, and its REQ goes out. -/
theorem connectSession_up {x : Session} (up : (s.eport x.port).up = true) (room : s.freeCtx < 1048576) (pairs : s.privPairs < 1024) {q : Qp}
    (made : newQp s.freeCtx x.port 0 (mtuOf (s.fld R.XPT_CFG 13 12)) s.ordMax (s.fld R.XPT_RC_CFG 23 19) 7 7 0 (s.eport x.port).line true x.pd
      (some x.no) = q) :
    s.connectSession x = (((s.putQp q).cacheCtx s.freeCtx).putSession { x with
      state := .connecting, ownQp := some s.freeCtx, ownUp := false, opened := false }).sendCm x.port { cmMsg .req 1 with
        own := q.idx + 0x10, mtu := q.mtu, depth := q.ord, timeout := q.tmo, retry := q.retryMax, rnr := q.rnrMax
        session := some (x.remote, x.no), landKey := x.landKey, gid := x.gid } := by
  subst made
  refine if_neg ?_
  rw [up]
  exact not_or.2 ⟨by decide, not_or.2 ⟨Nat.not_le.2 room, Nat.not_le.2 pairs⟩⟩

/-! ### START_REPLICATION, GET_REPL_SESSION and DELETE_REPL_SESSION (R353, R355) -/

/-- A packet that names no session. -/
theorem pktSession_unknown (unknown : s.session? (e.num 10 2) = none) : (s.begun n slot e).pktSession e = .error stInvalidField := by
  rw [State.pktSession, show (s.begun n slot e).session? (e.num 10 2) = none from unknown]

/-- A packet that names a session that this head runs. -/
theorem pktSession_ok {x : Session} (known : s.session? (e.num 10 2) = some x) (owns : s.ownsSession x = true) (zero : e.zero 12 2 = true) :
    (s.begun n slot e).pktSession e = .ok x := by
  rw [State.pktSession, show (s.begun n slot e).session? (e.num 10 2) = some x from known]
  dsimp only
  rw [show (s.begun n slot e).ownsSession x = true from owns, zero, if_neg (by decide), if_neg (by decide)]

/-- How START_REPLICATION goes on once its timed event has been armed, or could not be. -/
def State.startReply (u : State) (p : PktRef) : Except Nat State → PktRes
  | .error st => .fail u st
  | .ok t => t.cfgDone p []

/-- The end of a deleted session: its queue pairs are closed, and its key, its timed events and its record go. -/
def State.sessionGone (s : State) (x : Session) : State :=
  let c := s.closeSession x
  (State.cancelTimed { c with
    snap.sessions := dropKey Session.no x.no c.snap.sessions
    xpt.keys := dropKey MemKey.idx (x.landKey / 256) c.xpt.keys } (fun k => k == .replPeriod x.no || k == .replStart x.no)).placeCfg
      (leBytes 1 cfgSessionGone ++ leBytes 2 x.no)

section
variable {st : Nat} (refused : (s.begun n slot e).pktSession e = .error st)
include refused

theorem exec_startReplication_refused (h : s.CanRun 0x91 n slot e) :
    exec (.startReplication n slot) s = .next ((s.begun n slot e).replied n slot e st [] []) := by
  change execStartReplication n slot s = _
  rw [execStartReplication, State.packet_runs _ h, refused]
  rfl

theorem exec_getReplSession_refused (h : s.CanRun 0x92 n slot e) :
    exec (.getReplSession n slot) s = .next ((s.begun n slot e).replied n slot e st [] []) := by
  change execGetReplSession n slot s = _
  rw [execGetReplSession, State.packet_runs _ h, refused]
  rfl

theorem exec_deleteReplSession_refused (h : s.CanRun 0x93 n slot e) :
    exec (.deleteReplSession n slot) s = .next ((s.begun n slot e).replied n slot e st [] []) := by
  change execDeleteReplSession n slot s = _
  rw [execDeleteReplSession, State.packet_runs _ h, refused]
  rfl

end

section
variable {x : Session} (names : (s.begun n slot e).pktSession e = .ok x)
include names

theorem exec_startReplication (h : s.CanRun 0x91 n slot e) : exec (.startReplication n slot) s = .next (s.ended n slot e
    (if x.role ≠ 0 ∨ x.state ≠ .idle then .fail (s.begun n slot e) 0x0B06
     else (s.begun n slot e).startReply (packetRef n slot e) ((s.begun n slot e).armTimed (e.num 14 8) (.replStart x.no)))) := by
  change execStartReplication n slot s = _
  rw [execStartReplication, State.packet_runs _ h, names]
  rfl

theorem exec_getReplSession (h : s.CanRun 0x92 n slot e) : exec (.getReplSession n slot) s = .next ((s.begun n slot e).replied n slot e stOk
    (leBytes 1 x.state.code ++ leBytes 1 x.cause ++ leBytes 2 0 ++ leBytes 4 x.base ++ leBytes 4 x.sending ++
      leBytes 8 ((if x.role = 0 then x.acked else x.next) - 1)) []) := by
  change execGetReplSession n slot s = _
  rw [execGetReplSession, State.packet_runs _ h, names]
  rfl

theorem exec_deleteReplSession (h : s.CanRun 0x93 n slot e) :
    exec (.deleteReplSession n slot) s = .next (((s.begun n slot e).sessionGone x).cfgEnded n slot e []) := by
  change execDeleteReplSession n slot s = _
  rw [execDeleteReplSession, State.packet_runs _ h, names]
  dsimp only
  rw [State.ended_cfgDone]
  rfl

end

/-! ### The timers (R353) -/

section
variable {i : Nat} {x : Session} (known : s.session? i = some x)
include known

theorem exec_replReconnectTimer :
    exec (.replReconnectTimer i) s = .next (if x.state = .suspended ∧ s.ownsSession x then s.connectSession x else s) := by
  change execReplReconnectTimer i s = _
  rw [execReplReconnectTimer, known]

theorem exec_replConnectTimeout : exec (.replConnectTimeout i) s = .next (if x.state = .connecting then s.suspendSession i 0 else s) := by
  change execReplConnectTimeout i s = _
  rw [execReplConnectTimeout, known]

end
end

/-- Settles O49: each packet's answers, from its checks in their order; how a session connects; its timers. -/
theorem replicationSessionsAreManaged : Obligations.ReplicationSessionsAreManaged := by
  unfold Obligations.ReplicationSessionsAreManaged
  refine ⟨?creates, landingKey_zero, fun x s => ⟨connectSession_down, fun up room pairs => connectSession_up up room pairs rfl⟩, ?packets, ?unknown, ?timers⟩
  case creates =>
    intro n slot e s h b vols
    refine ⟨fun other => ?_, fun o v one owns known stays role scope page port dscp pd zero => ?_⟩
    · rw [exec_createReplSession h (vols := vols) rfl, other, if_pos (by decide), State.ended_fail]
    · have fields : sessionFieldsOk e = true := by simp [sessionFieldsOk, role, scope, page, port, dscp, pd, zero]
      have good : s.SessionAsked e := ⟨⟨o, v, one, owns, known, stays⟩, fields⟩
      refine ⟨fun taken => ?_, fun none dead => ?_, fun none live usage persist => ?_⟩
      · rw [exec_createReplSession_asked h good, if_pos (.inl taken), State.ended_fail]
      · rw [exec_createReplSession_asked h good, session?_of_noSessions none, none, if_neg (by simp), if_pos (.inl dead), State.ended_fail]
      · intro x
        have asked : sessionOf e = x := by rw [sessionOf, role]
        rw [exec_createReplSession_first h good none live usage persist, asked]
        refine ⟨fun full => ?_, fun c key region t connects => ?_⟩
        · rw [startSession_noRegion full, State.ended_fail]
        · rw [startSession_ok region connects, State.ended_cfgDone]
  case packets =>
    intro n slot e x s known owns zero b
    have names := pktSession_ok (n := n) (slot := slot) known owns zero
    refine ⟨fun h => ?_, exec_getReplSession names, fun h c closed => ?_⟩
    · rw [exec_startReplication names h]
      refine ⟨fun busy => ?_, fun source idle runs soon => ?_, fun source idle runs ahead room => ?_⟩
      · rw [if_pos busy, State.ended_fail]
      · rw [if_neg (by simp [source, idle]), armTimed_tooSoon (s := s.begun n slot e) runs soon]
        rfl
      · rw [if_neg (by simp [source, idle]), armTimed_ok (s := s.begun n slot e) runs ahead room, State.startReply, State.ended_cfgDone]
        rfl
    · rw [exec_deleteReplSession names h, State.sessionGone, show (s.begun n slot e).closeSession x = c from closed]
  case unknown =>
    intro n slot e s unknown
    have refused := pktSession_unknown (n := n) (slot := slot) unknown
    exact ⟨exec_startReplication_refused refused, exec_getReplSession_refused refused, exec_deleteReplSession_refused refused⟩
  case timers =>
    intro i x s known
    rw [exec_replReconnectTimer known, exec_replConnectTimeout known]
    refine ⟨fun suspended owns => ?_, fun other => ?_, fun connecting => ?_, fun other => ?_⟩
    · rw [if_pos ⟨suspended, owns⟩]
    · rw [if_neg]
      rintro ⟨suspended, owns⟩
      exact other.elim (· suspended) fun notOwn => Bool.false_ne_true (notOwn.symm.trans owns)
    · rw [if_pos connecting]
    · rw [if_neg other]

end Sys2Proof.Machine
end

section
/-! Replication messages (14_snapshots_replication.md R350, R351, R353, R354): what each message of a session comes to, and the statement about them. -/
namespace Sys2Proof.Machine

section
variable {i : Nat} {x : Session} {s : State} (known : s.session? i = some x)
include known

/-! ### The oldest message of a session (R349, R351) -/

theorem message_none (nothing : x.arrived = []) (typ : Nat) (act : Session → Bytes → State → State) : s.message i typ act = s := by
  rw [State.message, known]
  dsimp only
  rw [nothing]

section
variable {msg : Bytes} {rest : List Bytes} (first : x.arrived = msg :: rest)
include first

theorem message_other {typ : Nat} (other : leAt msg 4 1 ≠ typ) (act : Session → Bytes → State → State) : s.message i typ act = s := by
  rw [State.message, known]
  dsimp only
  rw [first]
  exact if_pos other

/-- A message of the type that is asked for is taken from the session. -/
theorem message_taken {typ : Nat} (mine : leAt msg 4 1 = typ) (act : Session → Bytes → State → State) :
    s.message i typ act = act { x with arrived := rest } msg (s.putSession { x with arrived := rest }) := by
  rw [State.message, known]
  dsimp only
  rw [first]
  exact if_neg (not_not_intro mine)

/-! ### DATA and COMMIT at the target (R351) -/

section
variable {y : Session} {t : State} (taken : { x with arrived := rest } = y) (left : s.putSession y = t)
include taken left

theorem exec_replDataRx (data : leAt msg 4 1 = 1) : exec (.replDataRx i) s = .next (if x.role ≠ 1 ∨ !x.opened then t else
    (t.replOpen y msg).elim (t.replBad y msg) fun m => if m.1.items = 0 then t else t.replIn y m.1 m.1.items m.2.2) := by
  subst taken left
  change execReplDataRx i s = _
  rw [execReplDataRx, message_taken known first data]
  dsimp only
  cases State.replOpen _ _ msg <;> rfl

theorem exec_replCommitRx (commit : leAt msg 4 1 = 2) : exec (.replCommitRx i) s = .next (if x.role ≠ 1 ∨ !x.opened then t else
    (t.replOpen y msg).elim (t.replBad y msg) fun m => t.replIn y m.1 0 []) := by
  subst taken left
  change execReplCommitRx i s = _
  rw [execReplCommitRx, message_taken known first commit]
  dsimp only
  cases State.replOpen _ _ msg <;> rfl

/-! ### ACK at the source (R349, R351, R353) -/

/-- The source may use an ACK: it is sending, over queue pairs that have been opened. -/
structure Session.Acks (x : Session) : Prop where
  source : x.role = 0
  sending : x.state = .sending
  opened : x.opened = true

section
variable (ack : leAt msg 4 1 = 3) (acks : x.Acks)
include ack acks

/-- An ACK whose authentication fails is counted; a source asks for nothing again. -/
theorem exec_replAckRx_bad (bad : t.replOpen y msg = none) : exec (.replAckRx i) s = .next (t.bump R.REPL_AUTH_FAIL_CNT) := by
  subst taken left
  obtain ⟨source, sending, opened⟩ := acks
  change execReplAckRx i s = _
  rw [execReplAckRx, message_taken known first ack]
  dsimp only
  rw [if_neg (by simp [source, sending, opened]), bad]
  exact congrArg Host.Outcome.next (if_pos source)

section
variable {h : ReplHdr} {salt : Nat} {body : Bytes} (good : t.replOpen y msg = some (h, salt, body)) (mine : h.snap = x.sending)
include good mine

/-- An ACK with neither flag moves the acknowledged mark on. -/
theorem exec_replAckRx_plain (open_ : h.flags.testBit 0 = false) (noGap : h.flags.testBit 1 = false) : exec (.replAckRx i) s =
    .next ((t.putSession { y with
      acked := Nat.max x.acked (h.seq + 1), sent := x.sent.filter fun p => decide (Nat.max x.acked (h.seq + 1) ≤ p.1) }).replGo i) := by
  subst taken left
  obtain ⟨source, sending, opened⟩ := acks
  change execReplAckRx i s = _
  rw [execReplAckRx, message_taken known first ack]
  dsimp only
  rw [if_neg (by simp [source, sending, opened]), good]
  dsimp only
  rw [if_neg (not_not_intro mine), open_, if_neg Bool.false_ne_true, noGap, if_neg Bool.false_ne_true]

/-- A RESEND takes the source back to the message that it names. -/
theorem exec_replAckRx_resend {q k : Nat} (open_ : h.flags.testBit 0 = false) (gap : h.flags.testBit 1 = true)
    (was : findKey Prod.fst h.seq x.sent = some (q, k)) : exec (.replAckRx i) s =
    .next ((t.putSession { y with
      next := q, item := k, built := [], building := none, commitSent := false, sent := x.sent.filter fun p => decide (p.1 < q) }).replGo i) := by
  subst taken left
  obtain ⟨source, sending, opened⟩ := acks
  change execReplAckRx i s = _
  rw [execReplAckRx, message_taken known first ack]
  dsimp only
  rw [if_neg (by simp [source, sending, opened]), good]
  dsimp only
  rw [if_neg (not_not_intro mine), open_, if_neg Bool.false_ne_true, if_pos gap, was]

/-- COMMITTED makes the delta's snapshot the new base; where no epoch stands none is dropped. -/
theorem exec_replAckRx_committed (committed : h.flags.testBit 0 = true) {u : State} (stored : t.storeSession { y with
      state := .idle, base := x.sending, sending := 0, acked := 0, next := 0, item := 0, sent := [], commitSent := false } = u)
    (noEpochs : u.snap.epochs = []) : exec (.replAckRx i) s = .next u := by
  subst taken left
  obtain ⟨source, sending, opened⟩ := acks
  change execReplAckRx i s = _
  rw [execReplAckRx, message_taken known first ack]
  dsimp only
  rw [if_neg (by simp [source, sending, opened]), good]
  dsimp only
  rw [if_neg (not_not_intro mine), if_pos committed, stored, noEpochs]
  simp

end
end

/-! ### OPEN and RESUME (R350, R353, R354) -/

theorem exec_replOpenRx_bad (open_ : leAt msg 4 1 = 4) (bad : t.replOpen y msg = none) :
    exec (.replOpenRx i) s = .next (t.bump R.REPL_AUTH_FAIL_CNT) := by
  subst taken left
  change execReplOpenRx i s = _
  rw [execReplOpenRx, message_taken known first open_]
  dsimp only
  rw [bad]

theorem exec_replResumeRx_bad (resume : leAt msg 4 1 = 5) (bad : t.replOpen y msg = none) :
    exec (.replResumeRx i) s = .next (t.bump R.REPL_AUTH_FAIL_CNT) := by
  subst taken left
  change execReplResumeRx i s = _
  rw [execReplResumeRx, message_taken known first resume]
  dsimp only
  rw [bad]

section
variable {h : ReplHdr} {salt : Nat} {body : Bytes} (good : t.replOpen y msg = some (h, salt, body)) (connects : x.state = .connecting)
include good connects

/-- An OPEN of a connecting session: a source is IDLE with it; a target refuses a salt that is its own, and answers. -/
theorem exec_replOpenRx (open_ : leAt msg 4 1 = 4) : exec (.replOpenRx i) s = .next
    (if x.role = 0 then t.putSession { y with opened := true, state := .idle }
     else if salt = (t.kpage x.keyPage).salt then t.failSession y 0x10
     else (t.putSession { y with opened := true, state := .idle, next := 0, built := [], resends := 0 }).replSend y ⟨4, 0, 0, 0, 0, 0⟩ []) := by
  subst taken left
  change execReplOpenRx i s = _
  rw [execReplOpenRx, message_taken known first open_]
  dsimp only
  rw [good]
  dsimp only
  rw [if_neg (not_not_intro connects)]

/-- A RESUME of a connecting session: a source sends again from its acknowledged mark; a target refuses a salt that is its own, and answers with what it has
applied. -/
theorem exec_replResumeRx (resume : leAt msg 4 1 = 5) : exec (.replResumeRx i) s = .next
    (if x.role = 0 then (t.putSession { y with opened := true, state := .sending, next := x.acked }).replGo i
     else if salt = (t.kpage x.keyPage).salt then t.failSession y 0x10
     else (t.putSession { y with
       opened := true, state := .idle, built := [], resends := 0 }).replSend y ⟨5, 0, 0, x.next - 1, h.snap, h.base⟩ []) := by
  subst taken left
  change execReplResumeRx i s = _
  rw [execReplResumeRx, message_taken known first resume]
  dsimp only
  rw [good]
  dsimp only
  rw [if_neg (not_not_intro connects)]

end
end
end
end

/-! ### The order of messages at the target (R351) -/

section
variable {x : Session} {h : ReplHdr} {items : Nat} {body : Bytes} {s : State}

theorem replIn_committed (done : h.snap = x.replica) :
    s.replIn x h items body = if x.owed.isSome then s else s.replAck x 1 h.seq h.snap := if_pos done

section
variable (runs : h.snap ≠ x.replica)
include runs

theorem replIn_applied (behind : h.seq < x.next) : s.replIn x h items body = s.replAck x 0 (x.next - 1) h.snap := by
  rw [State.replIn, if_neg runs, if_pos behind]

theorem replIn_ahead (notBehind : x.next ≤ h.seq) (ahead : h.seq ≠ x.next + x.built.length) : s.replIn x h items body = s := by
  rw [State.replIn, if_neg runs, if_neg (Nat.not_lt.2 notBehind), if_pos ahead]

theorem replIn_next (next : h.seq = x.next + x.built.length) : s.replIn x h items body =
    (s.putSession { x with built := x.built ++ [(items, h.snap, body)] }).replApply x.no (x.built.length + 1) := by
  rw [State.replIn, if_neg runs, if_neg (by omega), if_neg (not_not_intro next)]

end
end

/-- Settles O50: each message, by what it finds, then the order at the target. -/
theorem replicationMessagesApplyInOrder : Obligations.ReplicationMessagesApplyInOrder := by
  unfold Obligations.ReplicationMessagesApplyInOrder
  refine ⟨fun i x s known => ⟨?nothing, fun msg rest first => ?messages⟩,
    fun x h items body s => ⟨replIn_committed, replIn_applied, replIn_ahead, replIn_next⟩⟩
  case nothing =>
    intro nothing c hc
    simp only [List.mem_cons, List.not_mem_nil, or_false] at hc
    rcases hc with rfl | rfl | rfl | rfl | rfl <;> exact congrArg Host.Outcome.next (message_none known nothing _ _)
  case messages =>
    intro y t
    refine ⟨?other, ?bad, ?data, ?acks, ?unopened, ?opens⟩
    case other =>
      intro c hc other
      simp only [List.mem_cons, List.not_mem_nil, or_false] at hc
      rcases hc with rfl | rfl | rfl | rfl | rfl <;> exact congrArg Host.Outcome.next (message_other known first other _)
    case bad =>
      intro opened bad
      refine ⟨fun target data => ?_, fun target commit => ?_, fun source sending ack => ?_⟩
      · rw [exec_replDataRx known first (y := y) rfl rfl data, if_neg (by simp [target, opened]), show (s.putSession y).replOpen y msg = none from bad,
          Option.elim_none]
      · rw [exec_replCommitRx known first (y := y) rfl rfl commit, if_neg (by simp [target, opened]),
          show (s.putSession y).replOpen y msg = none from bad, Option.elim_none]
      · exact exec_replAckRx_bad known first rfl rfl ack ⟨source, sending, opened⟩ bad
    case data =>
      intro h salt body opened good target
      refine ⟨fun data some => ?_, fun commit => ?_⟩
      · rw [exec_replDataRx known first (y := y) rfl rfl data, if_neg (by simp [target, opened]),
          show (s.putSession y).replOpen y msg = Option.some (h, salt, body) from good, Option.elim_some, if_neg some]
      · rw [exec_replCommitRx known first (y := y) rfl rfl commit, if_neg (by simp [target, opened]),
          show (s.putSession y).replOpen y msg = some (h, salt, body) from good, Option.elim_some]
    case acks =>
      intro h salt body opened good source sending ack mine
      have acks : x.Acks := ⟨source, sending, opened⟩
      exact ⟨exec_replAckRx_plain known first rfl rfl ack acks good mine, fun q k => exec_replAckRx_resend known first rfl rfl ack acks good mine,
        fun committed u => exec_replAckRx_committed known first rfl rfl ack acks good mine committed⟩
    case unopened =>
      exact fun bad => ⟨fun open_ => exec_replOpenRx_bad known first rfl rfl open_ bad, fun resume => exec_replResumeRx_bad known first rfl rfl resume bad⟩
    case opens =>
      intro h salt body good connects
      refine ⟨fun open_ => ?_, fun resume => ?_⟩
      · rw [exec_replOpenRx known first (y := y) rfl rfl good connects open_]
        refine ⟨fun source => ?_, fun target own => ?_, fun target other => ?_⟩
        · rw [if_pos source]
        · rw [if_neg (by simp [target]), if_pos own]
        · rw [if_neg (by simp [target]), if_neg other]
      · rw [exec_replResumeRx known first (y := y) rfl rfl good connects resume]
        refine ⟨fun source => ?_, fun target own => ?_, fun target other => ?_⟩
        · rw [if_pos source]
        · rw [if_neg (by simp [target]), if_pos own]
        · rw [if_neg (by simp [target]), if_neg other]

end Sys2Proof.Machine
end

section
/-! The inter-controller link and HELLO (15_pair_operation.md R358, R359, R365, R366, R383): what each row comes to, and the statement about them. -/
namespace Sys2Proof.Machine

/-- Recording an event leaves the state of the pair as it was. -/
theorem event_pairState (s : State) (c k v u : Nat) (is : List DWord) : (s.event c k v u is).pair.state = s.pair.state := by
  rw [(State.event_records (State.Records.refl s)).same]

/-! ### The link (R358, R359) -/

theorem exec_iclLinkUp_held {w rate rtt : Nat} {s : State} (held : rate ≠ 6 ∨ (w ≠ 16 ∧ w ≠ 8)) :
    exec (.iclLinkUp w rate rtt) s = .next s :=
  congrArg Host.Outcome.next (if_pos (held.imp_right .inl))

theorem exec_iclLinkUp {w rate rtt : Nat} {s : State} (rate6 : rate = 6) (width : w = 16 ∨ w = 8) (down : s.pair.icl = 0) (on : s.domainOff 2 = false)
    (notFailed : s.ust iclUnit ≠ .failed) : exec (.iclLinkUp w rate rtt) s = .next (State.cable { s with
      free := s.free + 1, pair.icl := if w = 16 then 2 else 1, pair.helloSeen := false
      pair.ecdh := (List.range 48).map (Config.drbg s.free) } 16 (rtt / 2) true) := by
  have up : ¬(rate ≠ 6 ∨ (w ≠ 16 ∧ w ≠ 8) ∨ s.pair.icl ≠ 0 ∨ s.domainOff 2 = true) := by
    rintro (slow | ⟨not16, not8⟩ | isUp | off)
    · exact slow rate6
    · exact width.elim not16 not8
    · exact isUp down
    · exact ne_true_of_eq_false on off
  exact congrArg Host.Outcome.next ((if_neg up).trans (if_neg notFailed))

theorem exec_iclRetrain {kind w : Nat} {s : State} (up : s.pair.icl ≠ 0) (low : 1 ≤ kind) (high : kind ≤ 3) (width : w = 16 ∨ w = 8) :
    exec (.iclRetrain kind w) s = .next (State.event { s with pair.icl := if w = 16 then 2 else 1 } 0x0D evcState 3 iclUnit
      (evState s.pair.icl (if w = 16 then 2 else 1) kind)) :=
  congrArg Host.Outcome.next (if_neg (by omega))

/-! ### HELLO goes out until one is received (R365) -/

theorem exec_helloTimer_quiet {s : State} (quiet : s.pair.icl = 0 ∨ s.pair.helloSeen = true) : exec .helloTimer s = .next s :=
  congrArg Host.Outcome.next (if_pos quiet)

theorem exec_helloTimer {s : State} (up : s.pair.icl ≠ 0) (unseen : s.pair.helloSeen = false) :
    exec .helloTimer s = .next (s.emit (.ptl 0x01 0 0 0 0xFF s.helloBytes)) :=
  congrArg Host.Outcome.next ((if_neg (not_or.2 ⟨up, ne_true_of_eq_false unseen⟩)).trans (if_neg up))

/-! ### REFUSE of a HELLO (R366) -/

section
variable {s : State} {h : Hello} (ok : Bool) (role : h.role ≠ s.role)

include role in
theorem helloRefuse_part (other : h.part ≠ 0x8816 ∨ h.step ≠ 0x20) : s.helloRefuse h ok = 2 := by
  rw [State.helloRefuse, if_neg role, if_pos other]

variable (part : h.part = 0x8816) (step : h.step = 0x20)
include role part step

theorem helloRefuse_firmware (other : h.fwMajor ≠ bits s.boot.fwVer 31 24) : s.helloRefuse h ok = 3 := by
  rw [State.helloRefuse, if_neg role, if_neg (by simp [part, step]), if_pos other]

variable (major : h.fwMajor = bits s.boot.fwVer 31 24)
include major

/-- With the same part and firmware, the pool, its generation and the signature decide. -/
theorem helloRefuse_same : s.helloRefuse h ok =
    if !allZero h.poolId && !allZero s.pool.id && s.pool.loaded && h.poolId != s.pool.id then 4
    else if !allZero h.poolId && (h.genNow < 2 || h.genNow > 3) then 5
    else if !ok then 6
    else 0 := by
  rw [State.helloRefuse, if_neg role, if_neg (by simp [part, step]), if_neg (not_not_intro major)]

theorem helloRefuse_pool (theirs : allZero h.poolId = false) (own : allZero s.pool.id = false) (loaded : s.pool.loaded = true)
    (other : h.poolId ≠ s.pool.id) : s.helloRefuse h ok = 4 := by
  rw [helloRefuse_same ok role part step major, if_pos (by simp [theirs, own, loaded, other])]

theorem helloRefuse_noPool (empty : allZero h.poolId = true) : s.helloRefuse h ok = if ok then 0 else 6 := by
  rw [helloRefuse_same ok role part step major, if_neg (by simp [empty]), if_neg (by simp [empty])]
  cases ok <;> rfl

theorem helloRefuse_generation (theirs : allZero h.poolId = false) (same : h.poolId = s.pool.id) (other : h.genNow < 2 ∨ 3 < h.genNow) :
    s.helloRefuse h ok = 5 := by
  rw [helloRefuse_same ok role part step major, if_neg (by simp [same]), if_pos (by simpa [theirs] using other)]

theorem helloRefuse_accepted (same : h.poolId = s.pool.id) (low : 2 ≤ h.genNow) (high : h.genNow ≤ 3) :
    s.helloRefuse h ok = if ok then 0 else 6 := by
  rw [helloRefuse_same ok role part step major, if_neg (by simp [same]),
    if_neg (by simp [Nat.not_lt.2 low, Nat.not_lt.2 high])]
  cases ok <;> rfl

end

/-! ### A HELLO that is received (R366, R383) -/

theorem exec_helloRx_accepted {p : Bytes} {ok : Bool} {s : State} (accepted : s.helloRefuse (helloOf p) ok = 0) :
    exec (.helloRx p ok) s = .next (State.meetPeer { s with
      pair.helloSeen := true, pair.lastHello := some (helloOf p), pair.refuse := 0, pair.hello := some (helloOf p)
      pair.peerState := (helloOf p).pairState
      pair.transferKey := some (Config.transferKey s.pair.ecdh (slice p 48 97)) }) :=
  congrArg Host.Outcome.next (if_neg (not_not_intro accepted))

/-- A HELLO that is refused is recorded; two heads that wait with one role are in ROLE_CONFLICT. -/
theorem exec_helloRx_refused {p : Bytes} {ok : Bool} {s t : State} (refused : s.helloRefuse (helloOf p) ok ≠ 0)
    (told : State.event { s with pair.helloSeen := true, pair.lastHello := some (helloOf p) } 0x0D evcRefused 4 iclUnit
      (evStatus 0 0x0C02 ++ evValue (s.helloRefuse (helloOf p) ok)) = t) :
    exec (.helloRx p ok) s = .next (
      if s.helloRefuse (helloOf p) ok = 1 ∧ s.pair.state = .pairWait ∧ (helloOf p).pairState = 1 then
        { t with pair.refuse := s.helloRefuse (helloOf p) ok, pair.state := .roleConflict }
      else { t with pair.refuse := s.helloRefuse (helloOf p) ok }) := by
  have kept : t.pair.state = s.pair.state := told ▸ event_pairState _ _ _ _ _ _
  subst told
  refine congrArg Host.Outcome.next ((if_pos refused).trans ?_)
  dsimp only
  rw [kept]

/-- Settles O51: each row by the lemma above that names its branch. -/
theorem theLinkComesUpAndMeetsThePeer : Obligations.TheLinkComesUpAndMeetsThePeer := by
  unfold Obligations.TheLinkComesUpAndMeetsThePeer
  refine ⟨?linkUp, ?linkDown, ?retrain, ?timer, ?refuse, ?received⟩
  case linkUp =>
    intro w rate rtt s down on notFailed
    exact ⟨exec_iclLinkUp_held, fun rate6 width => exec_iclLinkUp rate6 width down on notFailed⟩
  case linkDown =>
    intro s
    exact ⟨fun down => congrArg Host.Outcome.next (if_pos down), fun up => congrArg Host.Outcome.next (if_neg up)⟩
  case retrain =>
    intro kind w s up low high width
    exact exec_iclRetrain up low high width
  case timer =>
    intro s
    exact ⟨exec_helloTimer_quiet, exec_helloTimer⟩
  case refuse =>
    intro h ok s
    refine ⟨fun same => if_pos same, helloRefuse_part ok, helloRefuse_firmware ok, fun role part step major => ⟨?_, ?_, ?_, ?_⟩⟩
    · exact helloRefuse_pool ok role part step major
    · exact helloRefuse_noPool ok role part step major
    · exact helloRefuse_generation ok role part step major
    · exact fun _ => helloRefuse_accepted ok role part step major
  case received =>
    intro p ok s
    refine ⟨exec_helloRx_accepted, fun refused t told => ⟨fun why waits conflict => ?_, fun other => ?_⟩⟩
    · rw [exec_helloRx_refused refused told, if_pos ⟨why, waits, conflict⟩]
      rw [show s.helloRefuse (helloOf p) ok = 1 from why]
    · rw [exec_helloRx_refused refused told, if_neg other]

end Sys2Proof.Machine
end

section
/-! Heartbeats, the lease and the loss of the peer (15_pair_operation.md R370, R371, R372; 19_event_recorder.md R453): what each row comes to, and the statement
about them. -/
namespace Sys2Proof.Machine

/-! ### Sending heartbeats (R370, R372) -/

theorem exec_heartbeatTimer_none {s : State} (none_ : s.pair.icl = 0 ∨ s.pair.state = .suspect ∨ s.pair.state = .electing ∨ s.pair.state = .down) :
    exec .heartbeatTimer s = .next s :=
  congrArg Host.Outcome.next (if_pos none_)

theorem exec_heartbeatTimer {s : State} (up : s.pair.icl ≠ 0) (notSuspect : s.pair.state ≠ .suspect) (notElecting : s.pair.state ≠ .electing)
    (notDown : s.pair.state ≠ .down) : exec .heartbeatTimer s = .next ((s.bump R.PAIR_HB_TX_CNT).emit (.ptl 0x02 0 0 0 0xFF
      (leBytes 8 s.tide.time ++ leBytes 1 s.pair.state.code ++ leBytes 7 0 ++ leBytes 8 s.own.durable ++ leBytes 8 (s.journal (1 - s.role)).tip))) :=
  congrArg Host.Outcome.next ((if_neg (by simp [up, notSuspect, notElecting, notDown])).trans (if_neg up))

/-! ### The gate (R371) -/

theorem gateClosed_lease {s : State} (serves : s.pair.state = .paired ∨ s.pair.state = .suspect ∨ s.pair.state = .electing) :
    s.gateClosed = !s.pair.lease := by
  unfold State.gateClosed
  rcases serves with h | h | h <;> rw [h]

theorem gateClosed_fenced {s : State} (fenced : s.pair.state = .fenced) : s.gateClosed = true := by
  unfold State.gateClosed
  rw [fenced]

theorem gateClosed_open {s : State} (apart : s.pair.state = .sync ∨ s.pair.state = .down ∨ s.pair.state = .roleConflict ∨ s.pair.state = .solo) :
    s.gateClosed = false := by
  unfold State.gateClosed
  rcases apart with h | h | h | h <;> rw [h]

/-- With nothing held and no queue pair, lifting the gate changes nothing. -/
theorem liftGate_idle {s : State} (held : s.pair.gated = []) (qps : s.xpt.qps = []) : s.liftGate = s := by
  have kept : { s with pair.gated := [] } = s := by rw [← held]
  unfold State.liftGate
  dsimp only
  rw [held, kept, List.foldl_nil, qps, List.foldl_nil]

/-! ### A heartbeat arrives (R370 to R372, R384) -/

/-- What a heartbeat tells: the lease is renewed, the peer's state and marks are as it says. -/
def State.heard (s : State) (p : Bytes) : State :=
  { s with pair.lease := true, pair.peerState := leAt p 8 1, pair.peerDurable := leAt p 16 8, pair.peerShadow := leAt p 24 8 }

/-- A head that heard a heartbeat lifts its gate where that is open, and looks whether the pair is whole again. -/
def State.afterHeartbeat (s : State) : State := (if s.gateClosed then s else s.liftGate).pairedAgain.rejoinCheck

theorem exec_heartbeatRx (p : Bytes) {s : State} {u : State} (now : s.heard p = u) (notSuspect : s.pair.state ≠ .suspect) :
    exec (.heartbeatRx p) s = .next u.afterHeartbeat := by
  subst now
  change execHeartbeatRx p s = _
  rw [execHeartbeatRx, if_neg notSuspect]
  rfl

theorem exec_heartbeatRx_suspect (p : Bytes) {s : State} (suspect : s.pair.state = .suspect) :
    exec (.heartbeatRx p) s = .next (State.afterHeartbeat { s.heard p with pair.state := .paired }) := by
  change execHeartbeatRx p s = _
  rw [execHeartbeatRx, if_pos suspect]
  rfl

theorem pairedAgain_other {s : State} (other : s.pair.state ≠ .solo) : s.pairedAgain = s := if_neg fun h => other h.1

theorem rejoinCheck_other {s : State} (notWaiting : s.pair.state ≠ .pairWait) (stays : s.pair.state = .fenced → s.pair.autoRejoin = false) :
    s.rejoinCheck = s := by
  have waits : ((s.pair.state == .pairWait && s.pair.waitSolo) || (s.pair.state == .fenced && s.pair.autoRejoin)) = false := by
    by_cases fenced : s.pair.state = .fenced
    · simp [fenced, stays fenced]
    · simp [fenced, notWaiting]
  unfold State.rejoinCheck
  dsimp only
  rw [waits]
  exact if_neg (by simp)

theorem rejoinCheck_paired {s : State} (paired : s.pair.state = .paired) : s.rejoinCheck = s :=
  rejoinCheck_other (by simp [paired]) (by simp [paired])

/-- A PAIRED head lifts its gate, and stays PAIRED. -/
theorem afterHeartbeat_paired {u t : State} (lease : u.pair.lease = true) (paired : u.pair.state = .paired) (lifted : u.liftGate = t)
    (still : t.pair.state = .paired) : u.afterHeartbeat = t := by
  have isOpen : u.gateClosed = false := by rw [gateClosed_lease (.inl paired), lease]; rfl
  rw [State.afterHeartbeat, isOpen, if_neg Bool.false_ne_true, lifted, pairedAgain_other (by simp [still]), rejoinCheck_paired still]

/-- A head that does not serve in the pair, with nothing held, takes no step for a heartbeat. -/
theorem afterHeartbeat_apart {u : State} (apart : u.pair.state = .sync ∨ u.pair.state = .down ∨ u.pair.state = .roleConflict)
    (held : u.pair.gated = []) (qps : u.xpt.qps = []) : u.afterHeartbeat = u := by
  have isOpen : u.gateClosed = false := gateClosed_open (apart.imp_right (Or.imp_right .inl))
  have quiet : u.pair.state ≠ .solo ∧ u.pair.state ≠ .pairWait ∧ u.pair.state ≠ .fenced := by rcases apart with h | h | h <;> simp [h]
  obtain ⟨notSolo, notWaiting, notFenced⟩ := quiet
  rw [State.afterHeartbeat, isOpen, if_neg Bool.false_ne_true, liftGate_idle held qps, pairedAgain_other notSolo,
    rejoinCheck_other notWaiting fun fenced => absurd fenced notFenced]

/-- The survivor is PAIRED again with a returned head that has registered. -/
theorem afterHeartbeat_returned {u t : State} (solo : u.pair.state = .solo) (step : u.pair.rejoinStep = 2) (peer : u.pair.peerState = 3)
    (held : u.pair.gated = []) (qps : u.xpt.qps = []) (entered : State.enterPaired { u with pair.rejoinStep := 3 } = t)
    (still : t.pair.state = .paired) : u.afterHeartbeat = t := by
  have isOpen : u.gateClosed = false := gateClosed_open (by simp [solo])
  have again : u.pairedAgain = t := (if_pos ⟨solo, step, peer⟩).trans entered
  rw [State.afterHeartbeat, isOpen, if_neg Bool.false_ne_true, liftGate_idle held qps, again, rejoinCheck_paired still]

theorem afterHeartbeat_fenced {u : State} (fenced : u.pair.state = .fenced) (stays : u.pair.autoRejoin = false) : u.afterHeartbeat = u := by
  rw [State.afterHeartbeat, if_pos (gateClosed_fenced fenced), pairedAgain_other (by simp [fenced]),
    rejoinCheck_other (by simp [fenced]) fun _ => stays]

/-! ### The loss of the peer (R372) -/

theorem declareLost_alone {s : State} (alone : s.peerInService = false) : s.declareLost = s := if_pos (by rw [alone]; rfl)

/-- Settles O52: each row by the lemma above that names its branch. -/
theorem heartbeatsDetectTheLossOfThePeer : Obligations.HeartbeatsDetectTheLossOfThePeer := by
  unfold Obligations.HeartbeatsDetectTheLossOfThePeer
  refine ⟨?timer, ?received, ?lease, ?gate, ?lost, ?notice⟩
  case timer =>
    intro s
    exact ⟨exec_heartbeatTimer_none, exec_heartbeatTimer⟩
  case received =>
    intro p s u
    refine ⟨?_, ?_, ?_, ?_⟩
    · rintro (paired | suspect) t lifted still
      · have same : { u with pair.state := .paired } = u := by rw [← show u.pair.state = .paired from paired]
        rw [exec_heartbeatRx p (u := u) rfl (by simp [paired]),
          afterHeartbeat_paired (u := u) rfl paired ((congrArg State.liftGate same.symm).trans lifted) still]
      · rw [exec_heartbeatRx_suspect p suspect]
        exact congrArg Host.Outcome.next (afterHeartbeat_paired rfl rfl lifted still)
    · intro apart held qps
      rw [exec_heartbeatRx p (u := u) rfl (by rcases apart with h | h | h <;> simp [h]), afterHeartbeat_apart (u := u) apart held qps]
    · intro solo step peer held qps t entered still
      rw [exec_heartbeatRx p (u := u) rfl (by simp [solo]), afterHeartbeat_returned (u := u) solo step peer held qps entered still]
    · intro fenced stays
      rw [exec_heartbeatRx p (u := u) rfl (by simp [fenced]), afterHeartbeat_fenced (u := u) fenced stays]
  case lease =>
    intro s
    refine ⟨rfl, fun serves => ⟨gateClosed_lease serves, gateClosed_lease serves⟩, fun solo => gateClosed_open (by simp [solo]), gateClosed_fenced⟩
  case gate =>
    intro o s
    exact ⟨fun isOpen => if_neg (ne_true_of_eq_false isOpen), fun closed => if_pos closed⟩
  case lost =>
    intro s
    exact ⟨fun paired => congrArg Host.Outcome.next (if_pos paired), fun other => congrArg Host.Outcome.next (if_neg other), rfl, rfl,
      declareLost_alone⟩
  case notice =>
    intro h p s o b whole t told
    subst whole told
    exact onPtl_next o rfl

end Sys2Proof.Machine
end

section
/-! Elections (15_pair_operation.md R374, R376, R383): what each row comes to while an election runs and without one, what a module's reservation that has been
read leads to, and the statement about them. -/
namespace Sys2Proof.Machine

/-! ### The rows while an election runs (R374) -/

section
variable {e : Election} {s : State} (runs : s.pair.election = some e)
include runs

theorem exec_electionPoll : exec .electionPoll s = .next (if e.leadWon then
    ((e.asked.filter fun a => !s.preempted a).map Prod.fst).foldl State.askReserve s else s.askReserve e.lead) := by
  change execElectionPoll s = _
  rw [execElectionPoll, runs]

theorem exec_electionLeadTimeout : exec .electionLeadTimeout s = .next (if e.waiting then
    s.event 0x0D evcLimit 4 (unitId 5 e.lead) (evValue 100000) else s) := by
  change execElectionLeadTimeout s = _
  rw [execElectionLeadTimeout, runs]

theorem exec_electionRetry : exec .electionRetry s = .next (if e.waiting && !e.leadWon then
    State.sendPreempt { s with lnk.cmds := s.lnk.cmds.filter fun c => !(c.port == e.lead && c.why == Purpose.preempt) } e.lead else s) := by
  change execElectionRetry s = _
  rw [execElectionRetry, runs]

end

section
variable {s : State} (none_ : s.pair.election = none)
include none_

theorem exec_electionPoll_none : exec .electionPoll s = .next s := by
  change execElectionPoll s = _
  rw [execElectionPoll, none_]

theorem exec_electionLeadTimeout_none : exec .electionLeadTimeout s = .next s := by
  change execElectionLeadTimeout s = _
  rw [execElectionLeadTimeout, none_]

theorem exec_electionRetry_none : exec .electionRetry s = .next s := by
  change execElectionRetry s = _
  rw [execElectionRetry, none_]

/-- Outside an election PREEMPT only issues its command. -/
theorem sendPreempt_none {port : Nat} (direct : s.direct port = true) : s.sendPreempt port =
    s.issue port 0xFFFF 0x06 0 (reserveParams 2 (s.newEpoch port) (s.mod port).otherEpoch) [] .preempt := by
  unfold State.sendPreempt
  dsimp only
  have kept : { s with pair.election := none } = s := by rw [← none_]
  rw [none_, Option.map_none, kept, if_pos direct]

end

/-! ### SOLO_WAIT_S is over (R383) -/

theorem exec_soloWaitExpiry {s : State} (waits : s.pair.state = .pairWait) (alone : s.pair.waitSolo = false) : exec .soloWaitExpiry s =
    .next (State.registerAll (State.anaSince { s with pair.soloWaitOver := true, pair.state := .electing, brn.alone := true } s)) :=
  congrArg Host.Outcome.next (if_neg (by simp [waits, alone]))

theorem exec_soloWaitExpiry_other {s : State} (other : s.pair.state ≠ .pairWait ∨ s.pair.waitSolo = true) : exec .soloWaitExpiry s = .next s :=
  congrArg Host.Outcome.next (if_pos other)

/-! ### What a module's reservation shows (R374, R376) -/

theorem reservationSeen_fenced {s : State} {port : Nat} (found : List Bytes) (fenced : (s.mod port).ownRsv = .fenced)
    (step : s.pair.rejoinStep = 0) : s.reservationSeen port found = s.enterFenced :=
  if_pos ⟨fenced, by simp [step]⟩

section
variable {s : State} {e : Election} {port : Nat} (found : List Bytes) (runs : s.pair.election = some e) (notFenced : (s.mod port).ownRsv ≠ .fenced)
include runs notFenced

/-- A module that has been asked: nothing before it shows its PREEMPT; the lead then wins the election, and another confirms it. -/
theorem reservationSeen_asked {a : Nat × Nat} (asked : findKey Prod.fst port e.asked = some a) : s.reservationSeen port found =
    if !s.preempted a then s else if port = e.lead ∧ e.leadWon = false then s.wonLead found else s.confirmCheck found := by
  unfold State.reservationSeen
  dsimp only
  rw [if_neg fun h => notFenced h.1, runs]
  dsimp only
  rw [asked]

/-- A module that has not been asked is preempted only as the lead or once the lead is won. -/
theorem reservationSeen_notAsked (asked : findKey Prod.fst port e.asked = none) : s.reservationSeen port found =
    if port = e.lead ∨ e.leadWon then s.sendPreempt port else s := by
  unfold State.reservationSeen
  dsimp only
  rw [if_neg fun h => notFenced h.1, runs]
  dsimp only
  rw [asked]

end

/-- Once every module that was asked shows its PREEMPT, the takeover begins. -/
theorem confirmCheck_all {s : State} {e : Election} (found : List Bytes) (runs : s.pair.election = some e) (won : e.leadWon = true)
    (all : ∀ a ∈ e.asked, s.preempted a = true) : s.confirmCheck found = s.takeover found := by
  unfold State.confirmCheck
  rw [runs]
  exact if_pos (by rw [won, List.all_eq_true.2 all]; rfl)

/-- A module in place shows its PREEMPT: the own port REGISTERED with the epoch asked for, the other port FENCED. -/
theorem preempted_iff {s : State} {a : Nat × Nat} (present : (s.mod a.1).present = true) (direct : s.direct a.1 = true) :
    s.preempted a = true ↔ (s.mod a.1).ownRsv = .registered ∧ (s.mod a.1).ownEpoch = a.2 ∧ (s.mod a.1).otherRsv = .fenced := by
  simp [State.preempted, present, direct, and_assoc]

/-- Settles O53: the rows with and without an election, and the cases of `reservationSeen`. -/
theorem electionsAreDecidedAtTheLead : Obligations.ElectionsAreDecidedAtTheLead := by
  unfold Obligations.ElectionsAreDecidedAtTheLead
  refine ⟨?running, ?none_, ?wait, ?ask, ?seen⟩
  case running =>
    intro e s runs
    refine ⟨fun won => ?_, fun won => ?_, fun waits => ?_, fun waits => ?_, fun waits won => ?_, fun other => ?_⟩
    · rw [exec_electionPoll runs, won, if_neg Bool.false_ne_true]
    · rw [exec_electionPoll runs, if_pos won]
    · rw [exec_electionLeadTimeout runs, if_pos waits]
    · rw [exec_electionLeadTimeout runs, waits, if_neg Bool.false_ne_true]
    · rw [exec_electionRetry runs, if_pos (by simp [waits, won])]
    · rw [exec_electionRetry runs, if_neg (by rcases other with h | h <;> simp [h])]
  case none_ =>
    intro s none_
    exact ⟨exec_electionPoll_none none_, exec_electionLeadTimeout_none none_, exec_electionRetry_none none_⟩
  case wait =>
    intro s
    exact ⟨exec_soloWaitExpiry, exec_soloWaitExpiry_other⟩
  case ask =>
    intro port s
    exact ⟨rfl, fun none_ => sendPreempt_none none_, rfl, rfl⟩
  case seen =>
    intro port found s
    refine ⟨reservationSeen_fenced found, fun e a runs notFenced asked => ⟨?_, ?_, ?_⟩, fun e runs notFenced asked other notWon => ?_,
      fun e => confirmCheck_all found, fun a => preempted_iff⟩
    · intro shown lead notWon
      rw [reservationSeen_asked found runs notFenced asked, shown, if_neg (by decide), if_pos ⟨lead, notWon⟩]
    · intro notShown
      rw [reservationSeen_asked found runs notFenced asked, notShown, if_pos (by decide)]
    · intro won shown
      rw [reservationSeen_asked found runs notFenced asked, shown, if_neg (by decide), if_neg (by simp [won])]
    · rw [reservationSeen_notAsked found runs notFenced asked, if_neg (by simp [other, notWon])]

end Sys2Proof.Machine
end

section
/-! The way back into the pair (15_pair_operation.md R384, R386): REJOIN_PAIR, GET_PAIR_STATUS and the synchronization of a returning head, and the statement about
them. -/
namespace Sys2Proof.Machine

/-! ### REJOIN_PAIR (R384, R386) -/

theorem exec_rejoinPair {n slot : Nat} {e : Entry} {s : State} (h : s.CanRun 0x84 n slot e) : exec (.rejoinPair n slot) s =
    .next (s.ended n slot e (if s.pairBusy then .fail (s.begun n slot e) 0x0C01
      else if s.pair.refuse ≠ 0 then .done (s.begun n slot e) 0x0C02 (leBytes 4 s.pair.refuse) []
      else if s.pair.state = .paired ∨ s.pair.state = .suspect ∨ s.pair.state = .electing ∨ s.pair.state = .solo then
        .startDone (s.begun n slot e) [] []
      else if s.pair.hello.isSome && s.peerSolo && !s.keys.erased then
        .started { (s.begun n slot e).startRejoin with pair.rejoin := some (packetRef n slot e) }
      else .started { s.begun n slot e with
        pair.rejoin := some (packetRef n slot e), pair.autoRejoin := s.pair.state == .fenced, pair.waitSolo := s.pair.state != .fenced })) :=
  congrArg Host.Outcome.next (State.packet_runs _ h)

/-! ### GET_PAIR_STATUS (R386) -/

/-- The firmware version of the peer's HELLO, zeros before one has come. -/
def State.peerFirmware (s : State) : Nat × Nat :=
  match s.pair.lastHello with
  | some h => (h.fwMajor, h.fwMinor)
  | none => (0, 0)

theorem exec_getPairStatus {n slot : Nat} {e : Entry} {s : State} {fw : Nat × Nat} (h : s.CanRun 0x80 n slot e) (known : s.peerFirmware = fw) :
    exec (.getPairStatus n slot) s = .next ((s.begun n slot e).replied n slot e stOk
      (leBytes 1 s.pair.state.code ++ leBytes 1 s.pair.peerState ++ leBytes 1 s.pair.icl ++ leBytes 1 s.pair.lead ++
      leBytes 1 fw.1 ++ leBytes 1 0 ++ leBytes 2 fw.2 ++ leBytes 8 (s.pair.peerDurable - (s.journal (1 - s.role)).tip)) []) := by
  subst known
  exact congrArg Host.Outcome.next (State.packet_runs _ h)

/-! ### The synchronization of a returning head (R384) -/

/-- The survivor's step: RELEASE goes to every module once the returner's shadow has reached the durable mark. -/
theorem exec_rejoinSyncDone_survivor {rows : List Bytes} {s : State} (solo : s.pair.state = .solo) (step : s.pair.rejoinStep = 1) :
    exec (.rejoinSyncDone rows) s = .next (if s.pair.peerShadow < s.own.durable then s else
      State.ownPorts { s with pair.rejoinStep := 2 } |>.foldl (fun (u : State) n => u.issue n 0xFFFF 0x06 0 (reserveParams 3 0 0) [] .release)
        { s with pair.rejoinStep := 2 }) :=
  congrArg Host.Outcome.next (if_pos ⟨solo, step⟩)

/-- The returner's step: it applies what media hold, and reads the reservations once its shadow has reached the survivor's durable mark. -/
theorem exec_rejoinSyncDone_returner {rows : List Bytes} {s t : State} (sync : s.pair.state = .sync) (step : s.pair.rejoinStep = 1)
    (applied : rows.foldl (fun (u : State) b => u.journalRow true b) s = t) :
    exec (.rejoinSyncDone rows) s = .next (if (t.journal (1 - t.role)).tip < t.pair.peerDurable then t else
      t.ownPorts.foldl State.askReserve { t with pair.rejoinStep := 2 }) := by
  subst applied
  change execRejoinSyncDone rows s = _
  rw [execRejoinSyncDone, if_neg (by simp [sync]), if_pos ⟨sync, by omega⟩, if_pos step]

theorem exec_rejoinSyncDone_other {rows : List Bytes} {s : State} (notSolo : s.pair.state ≠ .solo) (notSync : s.pair.state ≠ .sync) :
    exec (.rejoinSyncDone rows) s = .next s :=
  congrArg Host.Outcome.next ((if_neg fun h => notSolo h.1).trans (if_neg fun h => notSync h.1))

/-- Settles O56: the packets by their rules, the synchronization by the state of the head. -/
theorem aReturningHeadRejoins : Obligations.AReturningHeadRejoins := by
  unfold Obligations.AReturningHeadRejoins
  refine ⟨?rejoin, ?status, ?sync⟩
  case rejoin =>
    intro n slot e s h b
    refine ⟨fun busy => ?_, fun free refused => ?_, fun free accepted => ⟨fun serves => ?_, fun fenced met solo keys => ?_, fun fenced notSolo => ?_⟩⟩
    · rw [exec_rejoinPair h, if_pos busy, State.ended_fail]
    · rw [exec_rejoinPair h, free, if_neg Bool.false_ne_true, if_pos refused, State.ended_done]
    · rw [exec_rejoinPair h, free, if_neg Bool.false_ne_true, if_neg (not_not_intro accepted), if_pos (by rcases serves with h | h <;> simp [h]),
        State.ended_startDone]
    · rw [exec_rejoinPair h, free, if_neg Bool.false_ne_true, if_neg (not_not_intro accepted), if_neg (by simp [fenced]),
        if_pos (by simp [met, solo, keys]), State.ended_started]
    · rw [exec_rejoinPair h, free, if_neg Bool.false_ne_true, if_neg (not_not_intro accepted), if_neg (by simp [fenced]),
        if_neg (by simp [notSolo]), fenced, State.ended_started]
      rfl
  case status =>
    intro n slot e s h
    refine ⟨fun hello met => exec_getPairStatus h (fw := (hello.fwMajor, hello.fwMinor)) ?_, fun unmet => exec_getPairStatus h (fw := (0, 0)) ?_⟩
    · rw [State.peerFirmware, met]
    · rw [State.peerFirmware, unmet]
  case sync =>
    intro rows s
    refine ⟨fun solo step behind => ?_, fun solo step reached t now => ?_, fun sync step t applied => ⟨fun behind => ?_, fun reached => ?_⟩,
      exec_rejoinSyncDone_other⟩
    · rw [exec_rejoinSyncDone_survivor solo step, if_pos behind]
    · subst now
      rw [exec_rejoinSyncDone_survivor solo step, if_neg (Nat.not_lt.2 reached)]
    · rw [exec_rejoinSyncDone_returner sync step applied, if_pos behind]
    · rw [exec_rejoinSyncDone_returner sync step applied, if_neg (Nat.not_lt.2 reached)]

end Sys2Proof.Machine
end

section
/-! Memory errors and the ways of the last-level cache (16_memory_cache.md R391, R402, R403): what each row comes to, and the statement about them. -/
namespace Sys2Proof.Machine

/-! ### Uncorrectable errors (R403) -/

/-- An error at an address of HBM or of installed DDR, in an area that holds what is hit, is counted and alarmed, and then has its outcome. -/
theorem exec_memoryUe {unit space addr : Nat} {hit : MemHit} {s : State}
    (place : space = 1 ∧ addr < 144 * 2 ^ 30 ∨ space = 2 ∧ addr < s.mem.ddrGib * 2 ^ 30) (cls : unitClass unit = 8)
    (holds : (s.areaOf space addr).holds hit = true) : exec (.memoryUe unit space addr hit) s =
    .next (((s.bump (if space = 1 then R.MEM_HBM_UE_CNT else R.MEM_DDR_UE_CNT)).alarm 9 0x0E evcUncorrected unit
      (evAddr space addr ++ evValue (hitRow hit))).ueOutcome space addr hit) :=
  congrArg Host.Outcome.next (if_neg (by
    have inside : (space == 1 && decide (addr < 144 * 2 ^ 30)) || (space == 2 && decide (addr < s.mem.ddrGib * 2 ^ 30)) := by
      simpa only [Bool.or_eq_true, Bool.and_eq_true, beq_iff_eq, decide_eq_true_eq] using place
    simp only [inside, cls, holds]
    decide))

/-- In a pair, a head whose changed page is hit leaves and asks for a reset. -/
theorem changedHit_pair {s : State} (pair : s.pair.state = .paired ∨ s.pair.state = .suspect ∨ s.pair.state = .electing) :
    s.changedHit = State.askReset { s.sendLeave 0x10 with pair.state := .down } 6 := by
  unfold State.changedHit
  rcases pair with h | h | h <;> rw [h]

/-- The alarm of an uncorrectable error leaves the memories and the state of the pair as they were. -/
theorem alarm9_same (s : State) (c k u : Nat) (is : List DWord) :
    (s.alarm 9 c k u is).mem = s.mem ∧ (s.alarm 9 c k u is).pair.state = s.pair.state := by
  have same := (alarm9_records (c := c) (k := k) (u := u) (is := is) (State.Records.refl s)).same
  constructor <;> rw [same]

/-! ### Way groups (R402) -/

section
variable {slice value : Nat} {s : State} (known : slice < 48) (runs : s.halted = false)
include known runs

theorem exec_llcWayOffWrite (powered : s.gatedBy (R.LLC_WAY_OFF slice).addr = none) : exec (.llcWayOffWrite slice value) s =
    .next (if value % 16 / 2 * 2 = (s.llcSlice slice).off ∧ !(s.llcSlice slice).busy then
        s.wrBus (R.LLC_WAY_OFF slice) (BitVec.ofNat 64 value)
      else { s.wrBus (R.LLC_WAY_OFF slice) (BitVec.ofNat 64 value) with
        mem.slices := putKey LlcSlice.idx { s.llcSlice slice with req := value % 16 / 2 * 2, busy := true } s.mem.slices }) := by
  change execLlcWayOffWrite slice value s = _
  rw [execLlcWayOffWrite, runs, if_neg Bool.false_ne_true, powered]
  exact congrArg Host.Outcome.next (if_neg (Nat.not_le.2 known))

theorem exec_llcWayOffWrite_gated {d : Nat} (gated : s.gatedBy (R.LLC_WAY_OFF slice).addr = some d) :
    exec (.llcWayOffWrite slice value) s = .next (s.gatedDrop d (R.LLC_WAY_OFF slice).addr 4) := by
  change execLlcWayOffWrite slice value s = _
  rw [execLlcWayOffWrite, runs, if_neg Bool.false_ne_true, gated]
  exact congrArg Host.Outcome.next (if_pos known)

end

/-- A slice stands under its own number. -/
theorem llcSlice_idx (s : State) (i : Nat) : (s.llcSlice i).idx = i := by
  unfold State.llcSlice
  cases found : findKey LlcSlice.idx i s.mem.slices with
  | none => rfl
  | some x => exact beq_iff_eq.1 (List.find?_some (p := fun y : LlcSlice => y.idx == i) found)

/-- A cleaned slice: its way groups that were asked to be off are off, and the lines in them have left. -/
def State.waysCleaned (s : State) (slice : Nat) : State :=
  let off := s.fld (R.LLC_WAY_OFF slice) 3 1 * 2
  { s with
    llc := s.llc.leave fun l => l.slice == slice && off.testBit (l.way / 4)
    mem.slices := putKey LlcSlice.idx { s.llcSlice slice with off := off, busy := false } s.mem.slices }

theorem exec_llcWayCleanDone {slice : Nat} {s : State} (busy : (s.llcSlice slice).busy = true) :
    exec (.llcWayCleanDone slice) s = .next (s.waysCleaned slice) :=
  congrArg Host.Outcome.next (if_neg (by simp [busy]))

theorem waysCleaned_lines {slice : Nat} {s : State} {x : LlcLine} (held : x ∈ (s.waysCleaned slice).llc.lines) (here : x.slice = slice) :
    (s.fld (R.LLC_WAY_OFF slice) 3 1 * 2).testBit (x.way / 4) = false := by
  have stays := (List.mem_filter.1 held).2
  simpa [here] using stays

theorem waysCleaned_slice (s : State) (slice : Nat) : (s.waysCleaned slice).llcSlice slice =
    { s.llcSlice slice with off := s.fld (R.LLC_WAY_OFF slice) 3 1 * 2, busy := false } := by
  have found := findKey_putKey_same LlcSlice.idx
    { s.llcSlice slice with off := s.fld (R.LLC_WAY_OFF slice) 3 1 * 2, busy := false } s.mem.slices
  rw [llcSlice_idx] at found
  exact congrArg (Option.getD · _) found

theorem waysCleaned_other {slice x : Nat} (s : State) (other : x ≠ slice) : (s.waysCleaned slice).llcSlice x = s.llcSlice x :=
  congrArg (Option.getD · _) (findKey_putKey_other LlcSlice.idx _ x s.mem.slices
    (show (s.llcSlice slice).idx ≠ x from (llcSlice_idx s slice).symm ▸ other.symm))

/-- Settles O26: each row by the lemma above that names its branch. -/
theorem memoryErrorsAndCacheWays : Obligations.MemoryErrorsAndCacheWays := by
  unfold Obligations.MemoryErrorsAndCacheWays
  refine ⟨fun found s => rfl, ?corrected, ?uncorrectable, ?wayOff, ?gated, ?cleaned, fun s => rfl⟩
  case corrected =>
    intro unit addr n s
    refine ⟨?_, rfl, rfl⟩
    change (State.event _ _ _ _ _ _).mem = _
    rw [(State.event_records (State.Records.refl _)).same]
    rfl
  case uncorrectable =>
    intro unit space addr hit s place cls holds c a
    obtain ⟨mem, state⟩ := alarm9_same c 0x0E evcUncorrected unit (evAddr space addr ++ evValue (hitRow hit))
    refine ⟨exec_memoryUe place cls holds, mem, ?_, ?_, ?_, ?_⟩
    · rintro rfl
      rfl
    · rintro rfl
      rfl
    · rintro q rfl
      rfl
    · rintro rfl pair
      exact changedHit_pair (s := a) (state.symm ▸ pair)
  case wayOff =>
    intro slice value s known runs powered r
    refine ⟨fun changed => ?_, fun same idle => ?_⟩
    · rw [exec_llcWayOffWrite known runs powered, if_neg fun h => changed h.1]
    · rw [exec_llcWayOffWrite known runs powered, if_pos ⟨same, by rw [idle]; rfl⟩]
  case gated =>
    intro slice value d s known runs gated
    exact exec_llcWayOffWrite_gated known runs gated
  case cleaned =>
    intro slice s busy
    exact ⟨s.waysCleaned slice, exec_llcWayCleanDone busy, rfl, fun x => waysCleaned_lines, waysCleaned_slice s slice,
      fun x => waysCleaned_other s⟩

end Sys2Proof.Machine
end

section
/-! The last-level cache (16_memory_cache.md R398, R400, R401): what each operation does to the line that it is for, that the cache agrees with memory after it, and
the statement about them. -/
namespace Sys2Proof.Machine

/-! ### The victim (R400) -/

/-- Two lines that differ at most in age. -/
def LlcLine.Aged (x y : LlcLine) : Prop := y = { x with age := y.age }

/-- A line as far as another line may not be like it: its key and its place. -/
def LlcLine.key (x : LlcLine) : Nat × Nat := (x.space, x.line)
def LlcLine.place (x : LlcLine) : Nat × Nat × Nat := (x.slice, x.set, x.way)

/-- Choosing a victim changes the lines of the set in their ages only. -/
theorem llcVictim_aged {ways : List Nat} {held aged : List LlcLine} {o : Option Nat} (chosen : llcVictim ways held = (o, aged)) :
    ∃ f : LlcLine → LlcLine, (∀ x : LlcLine, x.Aged (f x)) ∧ aged = held.map f := by
  have same : ∃ f : LlcLine → LlcLine, (∀ x : LlcLine, x.Aged (f x)) ∧ held = held.map f := ⟨id, fun _ => rfl, (List.map_id held).symm⟩
  unfold llcVictim at chosen
  split at chosen
  · cases chosen
    exact same
  · dsimp only at chosen
    split at chosen
    · cases chosen
      refine ⟨_, fun x => ?_, rfl⟩
      unfold LlcLine.Aged
      split <;> rfl
    · cases chosen
      exact same

theorem llcVictim_free {ways : List Nat} {held : List LlcLine} {w : Nat} (free : ways.find? (fun w => held.all fun x => x.way != w) = some w) :
    llcVictim ways held = (some w, held) := by
  rw [llcVictim, free]

/-- Where no way is invalid, the victim is a line of age 3 that is not being filled. -/
theorem llcVictim_oldest {ways : List Nat} {held aged : List LlcLine} {w : Nat} (full : ways.find? (fun w => held.all fun x => x.way != w) = none)
    (chosen : llcVictim ways held = (some w, aged)) : w ∈ ways ∧ ∃ x ∈ aged, x.way = w ∧ x.fill = none ∧ x.age = 3 := by
  unfold llcVictim at chosen
  rw [full] at chosen
  dsimp only at chosen
  split at chosen
  · obtain ⟨found, rfl⟩ := Prod.mk.inj chosen
    have shown := List.find?_some found
    obtain ⟨x, held, is⟩ := List.any_eq_true.1 shown
    simp only [Bool.and_eq_true, beq_iff_eq, Option.isNone_iff_eq_none] at is
    obtain ⟨⟨way, ⟨settled, _⟩⟩, age⟩ := is
    exact ⟨List.mem_of_find?_eq_some found, x, held, way, settled, age⟩
  · cases chosen

/-! ### What keeps the cache in agreement (R398) -/

/-- Lines that leave take no agreement with them. -/
theorem agrees_filter {c : Llc} (a : c.Agrees) (p : LlcLine → Bool) : Llc.Agrees { c with lines := c.lines.filter p } :=
  ⟨(List.filter_sublist.map _).nodup a.once, (List.filter_sublist.map _).nodup a.apart, fun x held => a.same x (List.mem_filter.1 held).1⟩

/-- A line may be replaced by one of its key, in its place, that has the content of memory, where memory changed at that line alone. -/
theorem put_agrees {c d : Llc} {x y : LlcLine} (a : c.Agrees) (lines : d.lines = c.lines)
    (held : ∀ b m, ¬(b = y.space ∧ m = y.line) → d.held b m = c.held b m) (old : x ∈ c.lines) (key : y.key = x.key) (place : y.place = x.place)
    (content : y.fill = none → y.content = d.held y.space y.line) : (d.put y).Agrees := by
  have rest : ∀ z ∈ d.lines.filter (fun z => !(z.space == y.space && z.line == y.line)), z ∈ c.lines ∧ ¬(z.space = y.space ∧ z.line = y.line) := by
    intro z inRest
    obtain ⟨mem, other⟩ := List.mem_filter.1 inRest
    exact ⟨lines ▸ mem, fun same => by simp [same] at other⟩
  refine ⟨List.nodup_cons.2 ⟨?_, ?_⟩, List.nodup_cons.2 ⟨?_, ?_⟩, ?_⟩
  · intro twice
    obtain ⟨z, inRest, same⟩ := List.mem_map.1 twice
    exact (rest z inRest).2 (Prod.mk.inj same)
  · exact (List.filter_sublist.map _).nodup (lines ▸ a.once)
  · intro twice
    obtain ⟨z, inRest, same⟩ := List.mem_map.1 twice
    obtain ⟨mem, other⟩ := rest z inRest
    have is : z = x := List.inj_on_of_nodup_map a.apart mem old (same.trans place)
    exact other (Prod.mk.inj (is ▸ key.symm))
  · exact (List.filter_sublist.map _).nodup (lines ▸ a.apart)
  · intro z inAll settled
    rcases List.mem_cons.1 inAll with rfl | inRest
    · exact content settled
    · obtain ⟨mem, other⟩ := rest z inRest
      exact (a.same z mem settled).trans (held z.space z.line other).symm

/-- A write of a line that the cache does not hold goes to memory alone. -/
theorem store_agrees {c : Llc} {space line n : Nat} (a : c.Agrees) (absent : c.line? space line = none) : (c.store space line n).Agrees := by
  have lines := c.lines_store space line n
  refine ⟨lines ▸ a.once, lines ▸ a.apart, fun x mem settled => ?_⟩
  rw [lines] at mem
  rw [Llc.held_store_other _ _ _ _ _ _ (Llc.line?_none absent x mem)]
  exact a.same x mem settled

/-- What a hit line or a miss counts does not touch the lines or memory. -/
theorem agrees_congr {c d : Llc} (a : c.Agrees) (lines : d.lines = c.lines) (mem : d.mem = c.mem) : d.Agrees := by
  obtain ⟨once, apart, same⟩ := a
  refine ⟨lines ▸ once, lines ▸ apart, fun x held settled => ?_⟩
  rw [Llc.held, mem]
  exact same x (lines ▸ held) settled

theorem drop_agrees {c d : Llc} (a : c.Agrees) (same : d.lines = c.lines ∧ d.mem = c.mem) (space line : Nat) : (d.drop space line).Agrees :=
  agrees_filter (agrees_congr a same.1 same.2) _

/-! ### A fill begins (R399, R400) -/

/-- The set that a line belongs to. -/
def State.inSet (s : State) (space line : Nat) (x : LlcLine) : Bool := x.slice == (s.llcPlace space line).1 && x.set == (s.llcPlace space line).2

/-- The line that a fill into a way begins with. -/
def State.filling (s : State) (space line reader : Nat) (stream : Bool) (w : Nat) : LlcLine :=
  { space := space, line := line, slice := (s.llcPlace space line).1, set := (s.llcPlace space line).2, way := w, age := 0, content := 0
    fill := some ⟨if stream then 3 else 1, [reader], 0⟩ }

section
variable {c : Llc} {s : State} {space line : Nat} (reader : Nat) (stream : Bool)

section
variable {held : List LlcLine}

theorem begin_some {w : Nat} (victim : llcVictim (s.llcSlice (s.llcPlace space line).1).ways (c.lines.filter (s.inSet space line)) = (some w, held)) :
    c.begin s space line reader stream = { c with lines := s.filling space line reader stream w ::
      (held.filter (fun y => y.way != w) ++ c.lines.filter fun y => !s.inSet space line y) } := by
  unfold Llc.begin
  dsimp only
  rw [show llcVictim _ (c.lines.filter fun x => x.slice == (s.llcPlace space line).1 && x.set == (s.llcPlace space line).2) = (some w, held) from victim]
  rfl

theorem begin_none (victim : llcVictim (s.llcSlice (s.llcPlace space line).1).ways (c.lines.filter (s.inSet space line)) = (none, held)) :
    c.begin s space line reader stream = c := by
  unfold Llc.begin
  dsimp only
  rw [show llcVictim _ (c.lines.filter fun x => x.slice == (s.llcPlace space line).1 && x.set == (s.llcPlace space line).2) = (none, held) from victim]

end

/-- With a way to go into, the line is found as the fill began it. -/
theorem line?_begin {w : Nat} {held : List LlcLine}
    (victim : llcVictim (s.llcSlice (s.llcPlace space line).1).ways (c.lines.filter (s.inSet space line)) = (some w, held)) :
    (c.begin s space line reader stream).line? space line = some (s.filling space line reader stream w) := by
  rw [begin_some reader stream victim]
  exact List.find?_cons_of_pos (by simp [State.filling])

/-- A line that was absent can only be found as its fill began it. -/
theorem line?_begin_fill (absent : c.line? space line = none) {y : LlcLine} (found : (c.begin s space line reader stream).line? space line = some y) :
    y.fill = some ⟨if stream then 3 else 1, [reader], 0⟩ := by
  cases victim : llcVictim (s.llcSlice (s.llcPlace space line).1).ways (c.lines.filter (s.inSet space line)) with
  | mk way held =>
    cases way with
    | none =>
      rw [begin_none reader stream victim, absent] at found
      cases found
    | some w =>
      rw [line?_begin reader stream victim] at found
      cases found
      rfl

/-- A fill of a line that was absent keeps the agreement: it takes the victim's way, and its content is not yet there. -/
theorem begin_agrees (a : c.Agrees) (absent : c.line? space line = none) : (c.begin s space line reader stream).Agrees := by
  cases victim : llcVictim (s.llcSlice (s.llcPlace space line).1).ways (c.lines.filter (s.inSet space line)) with
  | mk way held =>
    cases way with
    | none =>
      rw [begin_none reader stream victim]
      exact a
    | some w =>
      rw [begin_some reader stream victim]
      obtain ⟨f, aged, rfl⟩ := llcVictim_aged victim
      have key : ∀ x, (f x).key = x.key := fun x => by rw [aged x]; rfl
      have place : ∀ x, (f x).place = x.place := fun x => by rw [aged x]; rfl
      have perm : (c.lines.filter (s.inSet space line) ++ c.lines.filter fun y => !s.inSet space line y).Perm c.lines :=
        List.filter_append_perm _ _
      have kept : List.Sublist (((c.lines.filter (s.inSet space line)).map f).filter (fun y => y.way != w) ++
          c.lines.filter fun y => !s.inSet space line y)
          ((c.lines.filter (s.inSet space line)).map f ++ c.lines.filter fun y => !s.inSet space line y) :=
        List.filter_sublist.append_right _
      have from_ : ∀ y ∈ ((c.lines.filter (s.inSet space line)).map f).filter (fun y => y.way != w) ++ c.lines.filter fun y => !s.inSet space line y,
          ∃ x ∈ c.lines, x.Aged y ∧ (y.way ≠ w ∨ s.inSet space line y = false) := by
        intro y mem
        rcases List.mem_append.1 mem with inHeld | inRest
        · obtain ⟨old, other⟩ := List.mem_filter.1 inHeld
          obtain ⟨x, here, rfl⟩ := List.mem_map.1 old
          exact ⟨x, (List.mem_filter.1 here).1, aged x, .inl (by simpa using other)⟩
        · obtain ⟨mem, other⟩ := List.mem_filter.1 inRest
          exact ⟨y, mem, rfl, .inr (by simpa using other)⟩
      refine ⟨List.nodup_cons.2 ⟨?_, ?_⟩, List.nodup_cons.2 ⟨?_, ?_⟩, ?_⟩
      · intro twice
        obtain ⟨y, mem, same⟩ := List.mem_map.1 twice
        obtain ⟨x, old, ages, _⟩ := from_ y mem
        rw [ages] at same
        exact Llc.line?_none absent x old (Prod.mk.inj same)
      · refine (kept.map _).nodup ?_
        rw [List.map_append, List.map_map, show (fun x : LlcLine => (x.space, x.line)) ∘ f = LlcLine.key from funext key]
        exact List.map_append ▸ (perm.map LlcLine.key).nodup_iff.2 a.once
      · intro twice
        obtain ⟨y, mem, same⟩ := List.mem_map.1 twice
        obtain ⟨x, old, ages, other⟩ := from_ y mem
        simp only [State.filling, Prod.mk.injEq] at same
        obtain ⟨slice, set, way⟩ := same
        exact other.elim (fun h => h way) fun h => by simp [State.inSet, slice, set] at h
      · refine (kept.map _).nodup ?_
        rw [List.map_append, List.map_map, show (fun x : LlcLine => (x.slice, x.set, x.way)) ∘ f = LlcLine.place from funext place]
        exact List.map_append ▸ (perm.map LlcLine.place).nodup_iff.2 a.apart
      · intro y mem settled
        rcases List.mem_cons.1 mem with rfl | mem
        · cases settled
        · obtain ⟨x, old, ages, _⟩ := from_ y mem
          rw [ages] at settled ⊢
          exact a.same x old settled

end

/-! ### A line that is found -/

section
variable {c : Llc} {space line : Nat} {x : LlcLine} (found : c.line? space line = some x)
include found

/-- The line put back under its key is found. -/
theorem line?_put_found {d : Llc} {y : LlcLine} (key : y.key = x.key) : (d.put y).line? space line = some y := by
  obtain ⟨_, rfl, rfl⟩ := Llc.line?_key found
  obtain ⟨space, line⟩ := Prod.mk.inj key
  exact space ▸ line ▸ d.line?_put y

theorem arrive_fill {f : LlcFill} (fills : x.fill = some f) : c.arrive space line =
    { c.store space line f.writes with got := f.readers.map fun r => (r, c.held space line) }.put
      { x with age := f.age, content := c.held space line + f.writes, fill := none } := by
  rw [Llc.arrive, found]
  dsimp only
  rw [fills]

theorem write_fill {f : LlcFill} (fills : x.fill = some f) :
    c.write space line = c.miss.put { x with fill := some { f with writes := f.writes + 1 } } := by
  rw [Llc.write, found]
  dsimp only
  rw [fills]

section
variable (settled : x.fill = none)
include settled

/-- A write that finds the line good updates the line and memory. -/
theorem write_stays {d : Llc} (check : c.check x = (d, some x)) :
    c.write space line = (d.store space line 1).hit { x with content := d.held space line + 1 } := by
  rw [Llc.write, found]
  dsimp only
  rw [settled]
  dsimp only
  rw [check]
  dsimp only
  rw [settled]

theorem write_dropped {d : Llc} (check : c.check x = (d, none)) : c.write space line = d.miss.store space line 1 := by
  rw [Llc.write, found]
  dsimp only
  rw [settled]
  dsimp only
  rw [check]

end

section
variable {s : State} (reader : Nat) (stream : Bool) (steady : s.mem.rehash = false)
include steady

theorem ask_fill {f : LlcFill} (fills : x.fill = some f) :
    c.ask s space line reader stream = c.miss.put { x with fill := some { f with readers := f.readers ++ [reader] } } := by
  rw [Llc.ask, steady, if_neg Bool.false_ne_true, found]
  dsimp only
  rw [fills]

theorem ask_stays {d : Llc} (settled : x.fill = none) (check : c.check x = (d, some x)) : c.ask s space line reader stream = d.hit x := by
  rw [Llc.ask, steady, if_neg Bool.false_ne_true, found]
  dsimp only
  rw [settled]
  dsimp only
  rw [check]

theorem ask_dropped {d : Llc} (settled : x.fill = none) (check : c.check x = (d, none)) :
    c.ask s space line reader stream = d.miss.begin s space line reader stream := by
  rw [Llc.ask, steady, if_neg Bool.false_ne_true, found]
  dsimp only
  rw [settled]
  dsimp only
  rw [check]

end

/-- A check that keeps the line changes only counts; one that drops it takes the line away and nothing else. -/
theorem check_cases (a : c.Agrees) : (∃ d, c.check x = (d, some x) ∧ d.lines = c.lines ∧ d.mem = c.mem) ∨
    ∃ d, c.check x = (d, none) ∧ d.Agrees ∧ d.line? space line = none := by
  obtain ⟨_, rfl, rfl⟩ := Llc.line?_key found
  cases fault : Config.llcFault c.looks with
  | clean => exact .inl ⟨_, Llc.check_clean x fault, rfl, rfl⟩
  | corrected => exact .inl ⟨_, Llc.check_corrected x fault, rfl, rfl⟩
  | tagParity =>
    refine .inr ⟨_, Llc.check_tagParity x fault, drop_agrees a ?_ _ _, Llc.line?_drop _ _ _⟩
    exact ⟨rfl, rfl⟩
  | uncorrectable =>
    refine .inr ⟨_, Llc.check_uncorrectable x fault, drop_agrees a ?_ _ _, Llc.line?_drop _ _ _⟩
    exact ⟨rfl, rfl⟩

end

/-! ### Every operation keeps the agreement -/

theorem arrive_agrees {c : Llc} (a : c.Agrees) (space line : Nat) : (c.arrive space line).Agrees := by
  cases found : c.line? space line with
  | none => rw [Llc.arrive, found]; exact a
  | some x =>
    cases fills : x.fill with
    | none => rw [Llc.arrive, found]; dsimp only; rw [fills]; exact a
    | some f =>
      obtain ⟨mem, rfl, rfl⟩ := Llc.line?_key found
      rw [arrive_fill found fills]
      exact put_agrees a (c.lines_store _ _ _) (fun b m other => c.held_store_other _ _ _ b m other) mem rfl rfl
        fun _ => (c.held_store _ _ _).symm

theorem write_agrees {c : Llc} (a : c.Agrees) (space line : Nat) : (c.write space line).Agrees := by
  cases found : c.line? space line with
  | none => rw [Llc.write, found]; exact store_agrees (agrees_congr a rfl rfl) found
  | some x =>
    obtain ⟨mem, rfl, rfl⟩ := Llc.line?_key found
    cases fills : x.fill with
    | some f =>
      rw [write_fill found fills]
      exact put_agrees a rfl (fun _ _ _ => rfl) mem rfl rfl nofun
    | none =>
      rcases check_cases found a with ⟨d, check, lines, memory⟩ | ⟨d, check, agrees, absent⟩
      · rw [write_stays found fills check]
        have b : d.Agrees := agrees_congr a lines memory
        have inPlace : x ∈ d.lines := lines.symm ▸ mem
        exact put_agrees (d := { d.store x.space x.line 1 with hits := (d.store x.space x.line 1).hits + 1 }) b (d.lines_store _ _ _)
          (fun b m other => d.held_store_other _ _ _ b m other) inPlace rfl rfl fun _ => (d.held_store _ _ _).symm
      · rw [write_dropped found fills check]
        exact store_agrees (agrees_congr agrees rfl rfl) absent

theorem ask_agrees {c : Llc} (a : c.Agrees) (s : State) (space line reader : Nat) (stream : Bool) : (c.ask s space line reader stream).Agrees := by
  cases steady : s.mem.rehash with
  | true => rw [Llc.ask, if_pos steady]; exact agrees_congr a rfl rfl
  | false =>
    cases found : c.line? space line with
    | none =>
      rw [Llc.ask, steady, if_neg Bool.false_ne_true, found]
      exact begin_agrees reader stream (agrees_congr a rfl rfl) found
    | some x =>
      obtain ⟨mem, rfl, rfl⟩ := Llc.line?_key found
      cases fills : x.fill with
      | some f =>
        rw [ask_fill found reader stream steady fills]
        exact put_agrees a rfl (fun _ _ _ => rfl) mem rfl rfl nofun
      | none =>
        rcases check_cases found a with ⟨d, check, lines, memory⟩ | ⟨d, check, agrees, absent⟩
        · rw [ask_stays found reader stream steady fills check]
          have b : d.Agrees := agrees_congr a lines memory
          have inPlace : x ∈ d.lines := lines.symm ▸ mem
          exact put_agrees (d := { d with hits := d.hits + 1 }) b rfl (fun _ _ _ => rfl) inPlace rfl rfl (b.same x inPlace)
        · rw [ask_dropped found reader stream steady fills check]
          exact begin_agrees reader stream (agrees_congr agrees rfl rfl) absent

theorem leave_agrees {c : Llc} (a : c.Agrees) (out : LlcLine → Bool) : (c.leave out).Agrees := by
  have arrived : ∀ (l : List LlcLine) (c : Llc), c.Agrees → (l.foldl (fun (c : Llc) x => c.arrive x.space x.line) c).Agrees := by
    intro l
    induction l with
    | nil => exact fun c a => a
    | cons x rest ih => exact fun c a => ih _ (arrive_agrees a _ _)
  exact agrees_filter (arrived _ c a) _

/-! ### What the statement says of each operation -/

theorem write_absent {c : Llc} {space line : Nat} (absent : c.line? space line = none) : (c.write space line).lines = c.lines ∧
    (c.write space line).misses = c.misses + 1 ∧ (c.write space line).held space line = c.held space line + 1 := by
  have is : c.write space line = c.miss.store space line 1 := by rw [Llc.write, absent]
  rw [is]
  exact ⟨Llc.lines_store _ _ _ _, rfl, Llc.held_store _ _ _ _⟩

/-- Settles O27: the agreement operation by operation, then what each branch leaves of its line. -/
theorem theLastLevelCacheAgreesWithMemory : Obligations.TheLastLevelCacheAgreesWithMemory := by
  unfold Obligations.TheLastLevelCacheAgreesWithMemory
  refine ⟨?agrees, ?write, ?ask, ?victim⟩
  case agrees =>
    intro c s space line reader stream out a
    exact ⟨ask_agrees a s space line reader stream, arrive_agrees a space line, write_agrees a space line, leave_agrees a out⟩
  case write =>
    intro c space line
    refine ⟨write_absent, fun x found => ⟨fun f fills => ⟨?_, ?_⟩, fun settled clean => ?_⟩⟩
    · rw [write_fill found fills]
      exact ⟨line?_put_found found rfl, rfl⟩
    · rw [arrive_fill found fills]
      exact ⟨line?_put_found found rfl, c.held_store _ _ _, rfl⟩
    · rw [write_stays found settled (Llc.check_clean x clean)]
      exact ⟨line?_put_found found rfl, Llc.held_store _ _ _ _, rfl⟩
  case ask =>
    intro c s space line reader stream
    refine ⟨fun rehash => if_pos rehash, fun steady absent w held victim => ?_, fun x steady found => ⟨fun f fills => ?_, ?_, ?_, ?_, ?_⟩⟩
    · have is : c.ask s space line reader stream = c.miss.begin s space line reader stream := by
        rw [Llc.ask, steady, if_neg Bool.false_ne_true, absent]
      rw [is]
      refine ⟨?_, _, line?_begin (c := c.miss) reader stream victim, rfl, rfl⟩
      rw [begin_some (c := c.miss) reader stream victim]
      rfl
    · rw [ask_fill found reader stream steady fills]
      exact line?_put_found found rfl
    · intro settled clean
      rw [ask_stays found reader stream steady settled (Llc.check_clean x clean)]
      exact ⟨line?_put_found found rfl, rfl⟩
    · intro settled corrected
      rw [ask_stays found reader stream steady settled (Llc.check_corrected x corrected)]
      exact ⟨line?_put_found found rfl, rfl⟩
    · intro settled parity y
      obtain ⟨_, rfl, rfl⟩ := Llc.line?_key found
      rw [ask_dropped found reader stream steady settled (Llc.check_tagParity x parity)]
      refine fun found => line?_begin_fill reader stream ?_ found
      exact Llc.line?_drop _ _ _
    · intro settled uncorrectable y
      obtain ⟨_, rfl, rfl⟩ := Llc.line?_key found
      rw [ask_dropped found reader stream steady settled (Llc.check_uncorrectable x uncorrectable)]
      refine fun found => line?_begin_fill reader stream ?_ found
      exact Llc.line?_drop _ _ _
  case victim =>
    intro ways held
    exact ⟨fun w => llcVictim_free, fun full w aged => llcVictim_oldest full⟩

end Sys2Proof.Machine
end

section
/-! The DMA channels at their commands (17_dma.md R409, R410, R413, R416, R417): what each row comes to, and the statement about them. -/
namespace Sys2Proof.Machine

/-! ### The shadow registers and arming (R409, R410) -/

/-- An aligned write to the shadow set of a channel is heard. -/
theorem shadow_heard {ch off : Nat} {s : State} (known : ch < 64) (runs : s.halted = false) (low : 0x20 ≤ off) (high : off ≤ 0x37)
    (aligned : off % 4 = 0) : ¬(ch ≥ 64 ∨ off < 0x20 ∨ off > 0x37 ∨ off % 4 ≠ 0 ∨ s.halted = true) := by
  rw [runs]
  simp only [Bool.false_eq_true, or_false]
  omega

theorem exec_dmaShadowWrite_armed {ch off size value : Nat} {s : State} (known : ch < 64) (runs : s.halted = false) (armed : s.dmaBit ch 5 = true)
    (low : 0x20 ≤ off) (high : off ≤ 0x37) (aligned : off % 4 = 0) : exec (.dmaShadowWrite ch off size value) s = .next (s.dmaPut ch 4 true) :=
  congrArg Host.Outcome.next ((if_neg (shadow_heard known runs low high aligned)).trans (if_pos armed))

section
variable {ch : Nat} {s : State} (value : Nat) (known : ch < 64) (runs : s.halted = false) (idle : s.dmaBit ch 5 = false)
include known runs idle

theorem exec_dmaShadowWrite_registers :
    exec (.dmaShadowWrite ch 0x20 8 value) s =
      .next ((s.dropLow (R.DMA_CH_SHADOW_SRC ch).addr).wrBus (R.DMA_CH_SHADOW_SRC ch) (BitVec.ofNat 64 value)) ∧
    exec (.dmaShadowWrite ch 0x28 8 value) s =
      .next ((s.dropLow (R.DMA_CH_SHADOW_DST ch).addr).wrBus (R.DMA_CH_SHADOW_DST ch) (BitVec.ofNat 64 value)) ∧
    exec (.dmaShadowWrite ch 0x30 4 value) s = .next (s.wrBus (R.DMA_CH_SHADOW_LEN ch) (BitVec.ofNat 64 (value % 2 ^ 32))) ∧
    exec (.dmaShadowWrite ch 0x34 4 value) s = .next (s.wrBus (R.DMA_CH_SHADOW_MODE ch) (BitVec.ofNat 64 value)) :=
  have notArmed := ne_true_of_eq_false idle
  ⟨congrArg Host.Outcome.next ((if_neg (shadow_heard known runs (by decide) (by decide) (by decide))).trans (if_neg notArmed)),
    congrArg Host.Outcome.next ((if_neg (shadow_heard known runs (by decide) (by decide) (by decide))).trans (if_neg notArmed)),
    congrArg Host.Outcome.next ((if_neg (shadow_heard known runs (by decide) (by decide) (by decide))).trans (if_neg notArmed)),
    congrArg Host.Outcome.next ((if_neg (shadow_heard known runs (by decide) (by decide) (by decide))).trans (if_neg notArmed))⟩

end

section
variable {ch : Nat} {s : State} (known : ch < 64) (runs : s.halted = false)
include known runs

theorem channel_runs : ¬(ch ≥ 64 ∨ s.halted = true) := not_or.2 ⟨Nat.not_le.2 known, ne_true_of_eq_false runs⟩

theorem exec_dmaArm : exec (.dmaArm ch) s = .next (if s.dmaBit ch 5 then s.dmaPut ch 4 true else (s.dmaPut ch 5 true).dmaHandover ch) :=
  congrArg Host.Outcome.next (if_neg (channel_runs known runs))

theorem exec_dmaAbort : exec (.dmaAbort ch) s =
    .next ((s.xfer? ch).elim (s.dmaPut ch 5 false) fun x => (s.dmaPut ch 5 false).dmaErr ch x.mode 9) := by
  refine congrArg Host.Outcome.next ((if_neg (channel_runs known runs)).trans ?_)
  dsimp only
  rw [show (s.dmaPut ch 5 false).xfer? ch = s.xfer? ch from rfl]
  cases s.xfer? ch <;> rfl

theorem exec_dmaErrClear {value : Nat} (clears : value.testBit 2 = true) : exec (.dmaErrClear ch value) s =
    .next ((State.dmaPut (State.setFld (s.wrBus (R.DMA_CH_STATUS ch) (BitVec.ofNat 64 value)) (R.DMA_CH_STATUS ch) 23 20 0) ch 7 false).dmaHandover ch) := by
  have there : ¬(ch ≥ 64 ∨ (!value.testBit 2) = true ∨ s.halted = true) := by
    rw [runs, clears]
    simpa using known
  exact congrArg Host.Outcome.next ((if_neg there).trans (if_pos clears))

end

theorem exec_dmaWinCfgWrite {n : Nat} (value : Nat) {s : State} (known : n < 16) (runs : s.halted = false) : exec (.dmaWinCfgWrite n value) s =
    .next (if (s.rd (R.DMA_WIN_CFG n)).toNat.testBit 31 then s.setFld (R.DMA_WIN_CFG n) 31 31 (bits value 31 31)
      else s.wrBus (R.DMA_WIN_CFG n) (BitVec.ofNat 64 value)) :=
  congrArg Host.Outcome.next (if_neg (not_or.2 ⟨Nat.not_le.2 known, ne_true_of_eq_false runs⟩))

/-! ### Errors (R411, R416) -/

/-- Ending a transfer with an error takes it from its channel, and changes else only registers and what is sent. -/
theorem dmaErr_changes (s : State) (ch mode code : Nat) : ∃ regs out, s.dmaErr ch mode code = { s with
    dma := dropKey DmaXfer.ch ch s.dma, regs := regs, out := out } := by
  unfold State.dmaErr
  dsimp only
  split
  · exact ⟨_, _, rfl⟩
  · exact ⟨_, _, rfl⟩

theorem dmaErr_frame (s : State) (ch mode code : Nat) : s.dmaErr ch mode code = { s with
    dma := dropKey DmaXfer.ch ch s.dma, regs := (s.dmaErr ch mode code).regs, out := (s.dmaErr ch mode code).out } := by
  obtain ⟨regs, out, is⟩ := dmaErr_changes s ch mode code
  rw [is]

theorem dmaErr_dma (s : State) (ch mode code : Nat) : (s.dmaErr ch mode code).dma = dropKey DmaXfer.ch ch s.dma := by
  rw [dmaErr_frame]

theorem dmaErr_mem (s : State) (ch mode code : Nat) : (s.dmaErr ch mode code).mem = s.mem := by
  rw [dmaErr_frame]

section
variable {ch : Nat} {x : DmaXfer} {s : State} (moves : s.xfer? ch = some x)
include moves

/-- A fault ends the transfer where it has an end of the kind that failed. -/
theorem exec_dmaFault {code : Nat} (fits : ((code == 5 && [bits x.mode 1 0, bits x.mode 3 2].contains 0) ||
    (code == 6 && (bits x.mode 1 0 == 1 || bits x.mode 1 0 == 2)) || (code == 7 && [bits x.mode 1 0, bits x.mode 3 2].contains 3)) = true) :
    exec (.dmaFault ch code) s = .next (s.dmaErr ch x.mode code) := by
  change execDmaFault ch code s = _
  rw [execDmaFault, moves]
  exact congrArg Host.Outcome.next (if_pos fits)

/-! ### Chunks (R413) -/

section
variable {off : Nat} (data : Bytes) (issued : x.open_ off = true)
include issued

theorem exec_dmaChunkDone_host (source : bits x.mode 1 0 = 0) : exec (.dmaChunkDone ch off data) s = .next (s.dmaChunk x off data) := by
  change execDmaChunkDone ch off data s = _
  rw [execDmaChunkDone, moves]
  dsimp only
  rw [issued, if_neg (by decide), source]
  rfl

theorem exec_dmaChunkDone_hbm (source : bits x.mode 1 0 = 1) : exec (.dmaChunkDone ch off data) s =
    .next (if s.poisoned 0 (x.src + off) (x.chunk off) then s.dmaErr ch x.mode 6
      else s.dmaChunk x off (memReadAll 0 s.mem.hbm (x.src + off) (x.chunk off))) := by
  change execDmaChunkDone ch off data s = _
  rw [execDmaChunkDone, moves]
  dsimp only
  rw [issued, if_neg (by decide), source]
  rfl

theorem exec_dmaChunkDone_ddr (source : bits x.mode 1 0 = 2) : exec (.dmaChunkDone ch off data) s =
    .next (if s.poisoned 1 (x.src + off) (x.chunk off) then s.dmaErr ch x.mode 6
      else s.dmaChunk x off (memReadAll 0 s.mem.ddr (x.src + off) (x.chunk off))) := by
  change execDmaChunkDone ch off data s = _
  rw [execDmaChunkDone, moves]
  dsimp only
  rw [issued, if_neg (by decide), source]
  rfl

end
end

/-- Settles O28: each row by the lemma above that names its branch. -/
theorem dmaChannelsArmMoveAndEnd : Obligations.DmaChannelsArmMoveAndEnd := by
  unfold Obligations.DmaChannelsArmMoveAndEnd
  refine ⟨?armed, ?idle, ?arm, ?err, ?chunk, ?fault, ?clear, ?window⟩
  case armed =>
    intro ch off value s known runs armed low high aligned size
    exact exec_dmaShadowWrite_armed known runs armed low high aligned
  case idle =>
    intro ch value s known runs idle
    exact exec_dmaShadowWrite_registers value known runs idle
  case arm =>
    intro ch s known runs
    refine ⟨fun armed => ?_, fun idle => ?_, fun none_ => ?_, fun x moves => ?_⟩
    · rw [exec_dmaArm known runs, if_pos armed]
    · rw [exec_dmaArm known runs, idle, if_neg Bool.false_ne_true]
    · rw [exec_dmaAbort known runs, none_, Option.elim_none]
    · rw [exec_dmaAbort known runs, moves, Option.elim_some]
  case err =>
    intro ch mode code s
    refine ⟨?_, fun c other => ?_, dmaErr_mem s ch mode code, dmaErr_frame s ch mode code⟩
    · rw [State.xfer?, dmaErr_dma, findKey_dropKey_same]
    · rw [State.xfer?, dmaErr_dma, findKey_dropKey_other _ _ _ _ other, State.xfer?]
  case chunk =>
    intro ch off data x s moves issued
    refine ⟨exec_dmaChunkDone_host moves data issued, fun hbm good => ?_, fun ddr good => ?_, fun hbm bad => ?_, fun ddr bad => ?_⟩
    · rw [exec_dmaChunkDone_hbm moves data issued hbm, good, if_neg Bool.false_ne_true]
    · rw [exec_dmaChunkDone_ddr moves data issued ddr, good, if_neg Bool.false_ne_true]
    · rw [exec_dmaChunkDone_hbm moves data issued hbm, if_pos bad]
    · rw [exec_dmaChunkDone_ddr moves data issued ddr, if_pos bad]
  case fault =>
    intro ch x s moves
    refine ⟨fun host => exec_dmaFault moves ?_, fun local_ => exec_dmaFault moves ?_, fun peer => exec_dmaFault moves ?_⟩
    · rcases host with h | h <;> simp [h]
    · rcases local_ with h | h <;> simp [h]
    · rcases peer with h | h <;> simp [h]
  case clear =>
    intro ch value s known runs clears c
    exact exec_dmaErrClear known runs clears
  case window =>
    intro n value s known runs
    refine ⟨fun shut => ?_, fun enabled => ?_⟩
    · rw [exec_dmaWinCfgWrite value known runs, shut, if_neg Bool.false_ne_true]
    · rw [exec_dmaWinCfgWrite value known runs, if_pos enabled]

end Sys2Proof.Machine
end

section
/-! The peer's windows (17_dma.md R408): where a write lands, what an access of the peer and a reply to this head come to, and the statement about them. -/
namespace Sys2Proof.Machine

/-! ### Placing bytes (05_rdma_transport.md R122) -/

theorem place_hbm (s : State) (addr : Nat) (bs : Bytes) (space : Nat) (is : space = 0) :
    (s.place space addr bs).mem.hbm = memWriteAll 0 s.mem.hbm addr bs ∧ (s.place space addr bs).mem.ddr = s.mem.ddr := by
  subst is
  exact ⟨rfl, rfl⟩

theorem place_ddr (s : State) (addr : Nat) (bs : Bytes) (space : Nat) (is : space = 1) :
    (s.place space addr bs).mem.ddr = memWriteAll 0 s.mem.ddr addr bs ∧ (s.place space addr bs).mem.hbm = s.mem.hbm := by
  subst is
  exact ⟨rfl, rfl⟩

/-- Placing bytes in HBM or DDR changes those bytes, and what they held of poison. -/
theorem place_frame (s : State) {space : Nat} (memory : space ≤ 1) (addr : Nat) (bs : Bytes) : s.place space addr bs = { s with
    mem.hbm := (s.place space addr bs).mem.hbm, mem.ddr := (s.place space addr bs).mem.ddr, mem.poison := (s.place space addr bs).mem.poison } := by
  obtain is | is : space = 0 ∨ space = 1 := by omega
  · subst is; rfl
  · subst is; rfl

/-! ### Accesses of the peer (R408) -/

section
variable {h : PtlHdr} {payload b : Bytes} {s : State} (o : s.InOrder 0 h) (whole : s.whole 0 h payload = b)
include o whole

theorem exec_windowWriteRx : exec (.windowWriteRx h payload) s =
    .next (((s.taken 0 h).winAddr (leAt b 2 1) (leAt b 8 8) (b.drop 16).length).elim
      ((s.taken 0 h).control 0x000A (windowReply (leAt b 2 1) (b.drop 16).length (leAt b 8 8) []))
      fun p => (s.taken 0 h).place p.1 p.2 (b.drop 16)) := by
  subst whole
  refine onPtl_next o ?_
  dsimp only
  cases (s.taken 0 h).winAddr _ _ _ <;> rfl

theorem exec_windowReadRx : exec (.windowReadRx h payload) s =
    .next (((s.taken 0 h).winAddr (leAt b 2 1) (leAt b 8 8) (leAt b 4 4)).elim
      ((s.taken 0 h).control 0x000A (windowReply (leAt b 2 1) (leAt b 4 4) (leAt b 8 8) []))
      fun p => (s.taken 0 h).control 0x000A (windowReply (leAt b 2 1) (leAt b 4 4) (leAt b 8 8)
        (if (s.taken 0 h).poisoned p.1 p.2 (leAt b 4 4) then []
          else memReadAll 0 (if p.1 = 0 then (s.taken 0 h).mem.hbm else (s.taken 0 h).mem.ddr) p.2 (leAt b 4 4)))) := by
  subst whole
  refine onPtl_next o ?_
  dsimp only
  cases (s.taken 0 h).winAddr _ _ _ <;> rfl

/-- A reply is for the first transfer that waits for it: without data it ends that with code 8, with data it brings its chunk. -/
theorem exec_windowReadReplyRx {x : DmaXfer} (waits : (s.taken 0 h).dma.find? (fun x => x.awaits (leAt b 2 1) (leAt b 8 8) (b.drop 16 != [])) = some x) :
    exec (.windowReadReplyRx h payload) s = .next (if b.drop 16 = [] then (s.taken 0 h).dmaErr x.ch x.mode 8
      else (winOff x.src (leAt b 2 1) (leAt b 8 8)).elim (s.taken 0 h) fun o => (s.taken 0 h).dmaChunk x o (b.drop 16)) := by
  subst whole
  refine onPtl_next o ?_
  dsimp only
  rw [waits]
  dsimp only
  cases winOff _ _ _ <;> rfl

end

/-! ### Windows (R408) -/

section
variable {n off len : Nat} {s : State}

theorem winAddr_off (shut : (s.rd (R.DMA_WIN_CFG n)).toNat.testBit 31 = false) : s.winAddr n off len = none :=
  if_neg fun h => by simp [shut] at h

theorem winAddr_outside (outside : off + len > bits (s.rd (R.DMA_WIN_CFG n)).toNat 19 0 * 4096) : s.winAddr n off len = none :=
  if_neg fun ⟨_, _, inside, _⟩ => absurd inside (Nat.not_le.2 outside)

end

/-- Settles O29: the placing byte by byte, the accesses and the reply by what each finds. -/
theorem peerWindowsPlaceAndAnswer : Obligations.PeerWindowsPlaceAndAnswer := by
  unfold Obligations.PeerWindowsPlaceAndAnswer
  refine ⟨?place, ?messages, ?windows⟩
  case place =>
    intro space addr bs s memory hbmWf ddrWf
    refine ⟨fun a => ?_, fun a => ?_, place_frame s memory addr bs⟩
    · by_cases is : space = 0
      · rw [(place_hbm s addr bs space is).1, memAll _ _ _ _ hbmWf]
        simp [is]
      · rw [(place_ddr s addr bs space (by omega)).2, if_neg fun h => is h.1]
    · by_cases is : space = 1
      · rw [(place_ddr s addr bs space is).1, memAll _ _ _ _ ddrWf]
        simp [is]
      · rw [(place_hbm s addr bs space (by omega)).2, if_neg fun h => is h.1]
  case messages =>
    intro h payload s o b whole u
    refine ⟨fun p into => ?_, fun outside => ?_, fun p into good => ?_, fun outside => ?_, fun x waits => ⟨fun empty => ?_, fun o' data at_ => ?_⟩⟩
    · rw [exec_windowWriteRx o whole, show (s.taken 0 h).winAddr _ _ _ = _ from into, Option.elim_some]
    · rw [exec_windowWriteRx o whole, show (s.taken 0 h).winAddr _ _ _ = _ from outside, Option.elim_none]
    · rw [exec_windowReadRx o whole, show (s.taken 0 h).winAddr _ _ _ = _ from into, Option.elim_some,
        show (s.taken 0 h).poisoned _ _ _ = _ from good, if_neg Bool.false_ne_true]
    · rw [exec_windowReadRx o whole, show (s.taken 0 h).winAddr _ _ _ = _ from outside, Option.elim_none]
    · rw [exec_windowReadReplyRx o whole waits, if_pos empty]
    · rw [exec_windowReadReplyRx o whole waits, if_neg data, at_, Option.elim_some]
  case windows =>
    intro n off len s known cfg base
    exact ⟨winAddr_off, winAddr_outside, fun enabled inside region => if_pos ⟨known, enabled, inside, region⟩⟩

end Sys2Proof.Machine
end

section
/-! The system flash (18_system_flash.md R424 to R429, R433): its bytes after each operation, what each command and read comes to, and the statement about them. -/
namespace Sys2Proof.Machine

/-! ### The bytes of a page and of a block (R421, R427, R428) -/

/-- A byte that no page of undefined content holds is that of the memory. -/
theorem sflByte_defined {s : State} {a : Nat} (defined : findKey Prod.fst (a / 4096) s.sfl.undef = none) : s.sflByte a = memRead 0xFF s.sfl.mem a := by
  rw [State.sflByte, defined]

/-- A byte is as it was where its page is as defined or undefined as before and memory holds the same there. -/
theorem sflByte_congr {s t : State} {a : Nat} (undef : findKey Prod.fst (a / 4096) t.sfl.undef = findKey Prod.fst (a / 4096) s.sfl.undef)
    (mem : memRead 0xFF t.sfl.mem a = memRead 0xFF s.sfl.mem a) : t.sflByte a = s.sflByte a := by
  unfold State.sflByte
  rw [undef, mem]

theorem sflByte_sflPut_other {s : State} {page a : Nat} {b : Bytes} (other : a / 4096 ≠ page) : (s.sflPut page b).sflByte a = s.sflByte a :=
  sflByte_congr (findKey_dropKey_other _ _ _ _ other) (memRead_writeAll_other _ _ _ _ _ (by rw [test_slice_length]; omega))

theorem sflByte_sflPut_same {s : State} {page i : Nat} {b : Bytes} (inPage : i < 4096) (wf : Memory.wf 0xFF s.sfl.mem = true) :
    (s.sflPut page b).sflByte (page * 4096 + i) = (slice b 0 4096).getD i 0xFF := by
  have here : (page * 4096 + i) / 4096 = page := by omega
  rw [sflByte_defined (here.symm ▸ findKey_dropKey_same _ _ _)]
  exact memRead_writeAll_at _ _ _ wf (by rw [test_slice_length]; exact inPage)

theorem sflByte_sflLoose_other {s : State} {page a : Nat} (other : a / 4096 ≠ page) : (s.sflLoose page).sflByte a = s.sflByte a :=
  sflByte_congr (findKey_putKey_other Prod.fst (page, s.free) _ _ other.symm) rfl

theorem sflByte_sflLoose_same (s : State) (page a : Nat) :
    (s.sflLoose page).sflByte (page * 4096 + a % 4096) = Config.freeByte s.free (a % 4096) := by
  have here : (page * 4096 + a % 4096) / 4096 = page := by omega
  have at_ : (page * 4096 + a % 4096) % 4096 = a % 4096 := by omega
  have found : findKey Prod.fst page (s.sflLoose page).sfl.undef = some (page, s.free) := findKey_putKey_same Prod.fst (page, s.free) _
  rw [State.sflByte, here, found, at_]

/-- What is undefined of an erased flash, and what memory holds of it: of the block nothing. -/
theorem sflClear_reads (s : State) (blk a : Nat) :
    findKey Prod.fst (a / 4096) (s.sflClear blk).sfl.undef = (if a / 262144 ≠ blk then findKey Prod.fst (a / 4096) s.sfl.undef else none) ∧
    memRead 0xFF (s.sflClear blk).sfl.mem a = if a / 262144 ≠ blk then memRead 0xFF s.sfl.mem a else 0xFF := by
  have blockOf : a / 4096 / 64 = a / 262144 := Nat.div_div_eq_div_mul a 4096 64
  constructor
  · refine (findKey_filter Prod.fst (fun p => p / 64 != blk) (a / 4096) s.sfl.undef).trans ?_
    simp [blockOf]
  · refine (memRead_filter 0xFF (fun b => b / 262144 != blk) s.sfl.mem a).trans ?_
    simp

theorem sflByte_sflClear_other {s : State} {blk a : Nat} (other : a / 262144 ≠ blk) : (s.sflClear blk).sflByte a = s.sflByte a := by
  obtain ⟨undef, mem⟩ := sflClear_reads s blk a
  rw [if_pos other] at undef mem
  exact sflByte_congr undef mem

theorem sflByte_sflClear_same {s : State} {blk a : Nat} (same : a / 262144 = blk) : (s.sflClear blk).sflByte a = 0xFF := by
  obtain ⟨undef, mem⟩ := sflClear_reads s blk a
  rw [if_neg (not_not_intro same)] at undef mem
  rw [sflByte_defined undef, mem]

/-! ### Commands (R427) -/

section
variable {bank : Nat} {s : State} (known : bank < 8) (runs : s.halted = false)
include known runs

/-- A command that is not refused occupies its bank. -/
theorem sflCommand_starts {op : Nat} (accepted : s.sflRefuse bank op = 0) : s.sflCommand bank op = { s with
    sfl.ops := s.sfl.ops ++ [{ bank := bank, op := op, page := s.fld (R.SFL_B_ADDR bank) 31 12
                               data := if op = 1 then memReadAll 0 s.sfl.buf (bank * 4096) 4096 else [] }] } := by
  unfold State.sflCommand
  rw [runs, if_neg (by simpa using known)]
  dsimp only
  rw [if_neg (not_not_intro accepted)]

theorem sflCommand_refused {op : Nat} (refused : s.sflRefuse bank op ≠ 0) : s.sflCommand bank op = s.sflEnd bank (s.sflRefuse bank op) := by
  unfold State.sflCommand
  rw [runs, if_neg (by simpa using known)]
  dsimp only
  rw [if_pos refused]

end

theorem sflRefuse_locked {s : State} (bank op : Nat) (locked : s.boot.sessionOpen = false ∨ s.boot.scope.testBit 0 = false) :
    s.sflRefuse bank op = 5 :=
  if_pos (by rcases locked with h | h <;> simp [h])

section
variable {bank : Nat} {s : State} (session : s.boot.sessionOpen = true) (scope : s.boot.scope.testBit 0 = true)
  (inBank : s.fld (R.SFL_B_ADDR bank) 31 12 / 0x20000 = bank) (beyond : 64 ≤ s.fld (R.SFL_B_ADDR bank) 31 12)
  (free : sflReserved (s.fld (R.SFL_B_ADDR bank) 31 12) = false)
include session scope inBank beyond free

/-- In an open session, with a page of the bank that may be written, a busy bank and a programmed page decide. -/
theorem sflRefuse_page (op : Nat) : s.sflRefuse bank op =
    if s.bankBusy bank then 6 else if op = 1 ∧ s.sfl.programmed.contains (s.fld (R.SFL_B_ADDR bank) 31 12) then 3 else 0 := by
  unfold State.sflRefuse
  dsimp only
  rw [session, scope, if_neg (by decide), if_neg (not_not_intro inBank), if_neg (not_or.2 ⟨Nat.not_lt.2 beyond, ne_true_of_eq_false free⟩)]

end

/-! ### An operation ends (R427 to R429) -/

/-- What an operation leaves in the flash leaves the start-up state alone. -/
theorem sflApply_boot (s : State) (o : SflOp) (ok : Bool) : (s.sflApply o ok).boot = s.boot := by
  unfold State.sflApply
  dsimp only
  split
  · split
    · rfl
    · split
      · rw [sflRetire_boot]
        rfl
      · rfl
  · split
    · rfl
    · rw [sflRetire_boot, sflLooseAll_boot]

/-- With no reset waiting, an operation that ends frees its bank, leaves its effect and shows DONE. -/
theorem exec_sflOpDone {bank : Nat} {o : SflOp} {s freed : State} (runs : s.sfl.ops.find? (fun o => o.bank == bank) = some o)
    (noReset : s.boot.resetReq = none) (ok : Bool) (now : { s with sfl.ops := s.sfl.ops.filter fun x => x.bank != bank } = freed) :
    exec (.sflOpDone bank ok) s = .next ((freed.sflApply o ok).sflEnd bank (if ok then 0 else o.op)) := by
  subst now
  have waits : ((State.sflApply { s with sfl.ops := s.sfl.ops.filter fun x => x.bank != bank } o ok).sflEnd bank
      (if ok then 0 else o.op)).boot.resetReq.isSome = false := by
    change (State.sflApply _ o ok).boot.resetReq.isSome = false
    rw [sflApply_boot, show State.boot _ = s.boot from rfl, noReset]
    rfl
  change execSflOpDone bank ok s = _
  rw [execSflOpDone, runs]
  exact congrArg Host.Outcome.next (if_neg (ne_true_of_eq_false waits))

section
variable {o : SflOp} (s : State)

theorem sflApply_programmed (program : o.op = 1) : s.sflApply o true = (s.sflPut o.page o.data).bump R.SFL_PROG_CNT :=
  (if_pos program).trans (if_pos rfl)

theorem sflApply_erased (erase : o.op = 2) : s.sflApply o true = (s.sflClear (o.page / 64)).bump R.SFL_ERASE_CNT :=
  (if_neg (by rw [erase]; decide)).trans (if_pos rfl)

/-- The first program of a block that fails leaves its page undefined and is remembered. -/
theorem sflApply_programFailed (program : o.op = 1) (first : findKey Prod.fst (o.page / 64) s.sfl.progFails = none) : s.sflApply o false =
    { s.sflLoose o.page with sfl.progFails := putKey Prod.fst (o.page / 64, 1) s.sfl.progFails } := by
  unfold State.sflApply
  dsimp only
  rw [if_pos program, if_neg Bool.false_ne_true, first]
  rfl

theorem sflApply_eraseFailed (erase : o.op = 2) : s.sflApply o false =
    ((List.range 64).foldl (fun (u : State) i => u.sflLoose (o.page / 64 * 64 + i)) s).sflRetire (o.page / 64) :=
  (if_neg (by rw [erase]; decide)).trans (if_neg Bool.false_ne_true)

end

/-! ### Reading through the aperture (R424 to R426) -/

/-- The flash address that an offset of the aperture reaches. -/
def State.apertureAddr (s : State) (off : Nat) : Nat := (s.fld R.SFL_WIN_BASE 31 20 * 2 ^ 20 + (off - 0x03100000)) % 2 ^ 32

theorem exec_sflApertureRead {off size level a : Nat} {s : State} (low : 0x03100000 ≤ off) (high : off + size ≤ 0x03200000)
    (word : size = 4 ∨ size = 8) (aligned : off % size = 0) (runs : s.halted = false)
    (reached : s.apertureAddr off = a) : exec (.sflApertureRead off size level) s =
    .next (if s.bankBusy (bankOf (a)) then ((s.setFld R.SFL_STATUS 8 8 1).bump R.SFL_BUS_FAULT_CNT).emit (.abort 0 off size)
      else if sflKeys (a / 4096) then s.emit (.busRead 0 off size 0)
      else if level > 8 then (s.sflUnc (a / 4096)).emit (.abort 0 off size)
      else (s.sflLevel (a / 4096) level).emit (.busRead 0 off size (leNat (s.sflBytes (a) size)))) := by
  subst reached
  have shape : (!(size == 4 || size == 8) || off % size != 0) = false := by
    rcases word with h | h <;> subst h <;> simp [aligned]
  change execSflApertureRead off size level s = _
  rw [execSflApertureRead, if_neg (by omega), shape, if_neg Bool.false_ne_true, runs, if_neg Bool.false_ne_true]
  rfl

/-- A page that decodes at a low threshold set is counted there, and nothing else follows. -/
theorem sflLevel_low {s : State} {page level : Nat} (low : 1 ≤ level) (high : level ≤ 4) :
    s.sflLevel page level = s.bump (R.SFL_RETRY_LVL_CNT level) := by
  unfold State.sflLevel
  dsimp only
  rw [if_neg (by omega), if_pos ⟨low, by omega⟩]

theorem sflLevel_zero (s : State) (page : Nat) : s.sflLevel page 0 = s := rfl

/-! ### READ_SYSTEM_FLASH (R433) -/

/-- The pages of a range. -/
def flashPages (a n : Nat) : List Nat := (List.range ((a + n - 1) / 4096 + 1 - a / 4096)).map (· + a / 4096)

/-- What a read of pages answers, as they decode at the given threshold sets. -/
def State.readPages (s : State) (levels pages : List Nat) (a n : Nat) : PktRes :=
  let lv := (List.range pages.length).zip pages |>.map fun x => (x.2, levels.getD x.1 0)
  let good := lv.takeWhile fun x => decide (x.2 ≤ 8)
  let s := good.foldl (fun (s : State) x => s.sflLevel x.1 x.2) s
  match lv.drop good.length with
  | x :: _ => .done (s.sflUnc x.1) 0x0D01 (leBytes 4 (x.1 * 4096)) []
  | [] => .done s stOk [] (s.sflBytes a n)

theorem exec_readSystemFlash {n slot a l : Nat} {levels pages : List Nat} {e : Entry} {s : State} (h : s.CanRun 0xD0 n slot e)
    (start : e.num 10 4 = a) (length : e.num 14 4 = l) (range : flashPages a l = pages) :
    exec (.readSystemFlash n slot levels) s = .next (s.ended n slot e (
      if l < 4 ∨ l > 65536 ∨ l % 4 ≠ 0 ∨ a + l > 2 ^ 32 then .fail (s.begun n slot e) stInvalidField
      else if pages.any fun p => sflKeys p || sflReserved p then .fail (s.begun n slot e) 0x0D00
      else if pages.any fun p => s.bankBusy (bankOf (p * 4096)) then .waits
      else (s.begun n slot e).readPages levels pages a l)) := by
  subst range length start
  exact congrArg Host.Outcome.next (State.packet_runs _ h)

/-- Pages that decode at the first read are read. -/
theorem readPages_clean (s : State) (pages : List Nat) (a n : Nat) : s.readPages [] pages a n = .done s stOk [] (s.sflBytes a n) := by
  have zero : ∀ x ∈ ((List.range pages.length).zip pages).map (fun x => (x.2, ([] : List Nat).getD x.1 0)), x.2 = 0 := by
    intro x mem
    obtain ⟨y, _, rfl⟩ := List.mem_map.1 mem
    rfl
  unfold State.readPages
  dsimp only
  rw [takeWhile_all _ zero, fold_level _ zero, List.drop_length]

/-- Settles O25: the commands by their refusals, the bytes by the lemmas about each operation, the reads by their branches. -/
theorem systemFlashProgramsErasesAndReads : Obligations.SystemFlashProgramsErasesAndReads := by
  unfold Obligations.SystemFlashProgramsErasesAndReads
  refine ⟨?commands, ?ends, ?bytes, ?aperture, ?packet⟩
  case commands =>
    intro bank s known runs page op
    refine ⟨fun accepted => congrArg Host.Outcome.next (sflCommand_starts known runs accepted),
      fun accepted => congrArg Host.Outcome.next (sflCommand_starts known runs accepted),
      fun refused => congrArg Host.Outcome.next (sflCommand_refused known runs refused),
      fun refused => congrArg Host.Outcome.next (sflCommand_refused known runs refused), fun n => rfl,
      fun n locked => sflRefuse_locked bank n locked, fun session scope inBank beyond free => ⟨fun n busy => ?_, fun idle => ⟨?_, ?_⟩⟩⟩
    · rw [sflRefuse_page session scope inBank beyond free, if_pos busy]
    · rw [sflRefuse_page session scope inBank beyond free, idle, if_neg Bool.false_ne_true, if_neg (by simp)]
    · rw [sflRefuse_page session scope inBank beyond free, idle, if_neg Bool.false_ne_true]
      exact if_congr (and_iff_right rfl) rfl rfl
  case ends =>
    intro bank o s runs noReset e
    refine ⟨fun program => ?_, fun erase => ?_, fun program first => ?_, fun erase => ?_⟩
    · rw [exec_sflOpDone (freed := e) runs noReset _ rfl, sflApply_programmed e program]
      rfl
    · rw [exec_sflOpDone (freed := e) runs noReset _ rfl, sflApply_erased e erase]
      rfl
    · rw [exec_sflOpDone (freed := e) runs noReset _ rfl, sflApply_programFailed e program first, if_neg Bool.false_ne_true, program]
    · rw [exec_sflOpDone (freed := e) runs noReset _ rfl, sflApply_eraseFailed e erase, if_neg Bool.false_ne_true, erase]
  case bytes =>
    intro page a b s
    exact ⟨sflByte_sflPut_other, fun i => sflByte_sflPut_same, sflByte_sflLoose_other, sflByte_sflLoose_same s page a, sflByte_sflClear_other,
      sflByte_sflClear_same⟩
  case aperture =>
    intro off size level s low high word aligned runs a
    refine ⟨fun busy => ?_, fun idle => ⟨fun keys => ?_, fun open_ first => ?_, fun open_ one four => ?_, fun open_ none_ => ?_⟩⟩
    · rw [exec_sflApertureRead (a := a) low high word aligned runs rfl, if_pos busy]
    · rw [exec_sflApertureRead (a := a) low high word aligned runs rfl, idle, if_neg Bool.false_ne_true, if_pos keys]
    · subst first
      rw [exec_sflApertureRead (a := a) low high word aligned runs rfl, idle, if_neg Bool.false_ne_true,
        open_, if_neg Bool.false_ne_true, if_neg (by decide), sflLevel_zero]
    · rw [exec_sflApertureRead (a := a) low high word aligned runs rfl, idle, if_neg Bool.false_ne_true,
        open_, if_neg Bool.false_ne_true, if_neg (by omega), sflLevel_low one four]
    · rw [exec_sflApertureRead (a := a) low high word aligned runs rfl, idle, if_neg Bool.false_ne_true,
        open_, if_neg Bool.false_ne_true, if_pos none_]
  case packet =>
    intro n slot levels e s h a l pages
    have runs := exec_readSystemFlash (levels := levels) (a := a) (l := l) (pages := pages) h rfl rfl rfl
    refine ⟨fun bad => ?_, fun good => ⟨fun closed => ?_, fun open_ busy => ?_, fun open_ idle clean => ?_⟩⟩
    · rw [runs, if_pos bad, State.ended_fail]
    · rw [runs, if_neg good, if_pos closed, State.ended_fail]
    · rw [runs, if_neg good, if_neg (ne_true_of_eq_false open_), if_pos busy, State.ended_waits]
    · subst clean
      rw [runs, if_neg good, if_neg (ne_true_of_eq_false open_), if_neg (ne_true_of_eq_false idle), readPages_clean, State.ended_done]
      rfl

end Sys2Proof.Machine
end

section
/-! How an event reaches the recorder (19_event_recorder.md R441 to R444, R449): the recorder's answer by what it finds, and the statement about it. -/
namespace Sys2Proof.Machine

/-- The record that an occurrence makes (R436). -/
def State.evRecord (s : State) (cls code sev unit : Nat) (items : List DWord) (late : Bool) : EvRec :=
  { seq := 0, cls := cls, code := code, sev := sev, unit := unit, rept := 1, time := s.tide.time, sat := false, held := false
    late := late, timeInvalid := s.tide.state == .freerun, items := items }

/-! ### Rate limiting (R443) -/

section
variable {s : State} {cls code sev : Nat}

theorem evRate_exempt (exempt : evExempt code sev = true) : s.evRate cls code sev = some s :=
  if_pos (by rw [exempt]; rfl)

section
variable (limited : evExempt code sev = false) (rate : s.fld (R.EVR_RATE cls) 15 0 ≠ 0)
include limited rate

theorem evRate_takes {n : Nat} (allowed : s.evr.allow[cls]? = some (n + 1)) :
    s.evRate cls code sev = some { s with evr.allow := s.evr.allow.set cls n } := by
  unfold State.evRate
  rw [limited, if_neg (by simpa using rate), allowed]

theorem evRate_spent (spent : s.evr.allow[cls]? = some 0) : s.evRate cls code sev = none := by
  unfold State.evRate
  rw [limited, if_neg (by simpa using rate), spent]

end
end

/-! ### Room (R444) -/

/-- A record of severity 4 to 6 without room is lost, and that is told. -/
theorem evAdmit_noRoom {s : State} {r : EvRec} (severe : 4 ≤ r.sev)
    (full : evLimit r.sev < s.evr.awaitBytes + (evFill s.evr.pageFill r.bytes + r.bytes)) :
    s.evAdmit r = (s.bump R.EVR_RESERVE_DROP_CNT, true) :=
  (if_pos full).trans (congrArg (Prod.mk _) (decide_eq_true severe))

/-! ### Folding (R442) -/

theorem evFoldInto_counts {s : State} {l : EvRec} (below : l.rept < 0xFFFF) : s.evFoldInto l =
    State.bump { s with evr.awaiting := s.evr.awaiting.dropLast ++ [{ l with rept := l.rept + 1 }] } R.EVR_FOLD_CNT :=
  if_neg (Nat.not_le.2 below)

theorem evFoldInto_saturates {s : State} {l : EvRec} (full : 0xFFFF ≤ l.rept) : s.evFoldInto l =
    State.bump { s with evr.awaiting := s.evr.awaiting.dropLast ++ [{ l with sat := true }] } R.EVR_SAT_LOST_CNT :=
  if_pos full

/-! ### The recorder's answer (R441 to R444, R449) -/

section
variable {s : State} {cls code sev unit : Nat} {items : List DWord} {late : Bool}

section
variable (thawed : s.evr.frozen = false)
include thawed

/-- An occurrence that matches the last record folds into it. -/
theorem evCore_folds {l : EvRec} (last : s.foldTarget = some l) (same : l.matches cls code sev unit items = true) :
    s.evCore cls code sev unit items late = (s.evFoldInto l, false) := by
  unfold State.evCore
  dsimp only
  rw [thawed, if_neg Bool.false_ne_true, last]
  exact if_pos same

section
variable (noLast : s.foldTarget = none)
include noLast

/-- A new record within its allowance asks for room. -/
theorem evCore_admits {u : State} (rated : s.evRate cls code sev = some u) :
    s.evCore cls code sev unit items late = u.evAdmit (s.evRecord cls code sev unit items late) := by
  unfold State.evCore
  dsimp only
  rw [thawed, if_neg Bool.false_ne_true, noLast]
  dsimp only
  rw [rated]
  rfl

/-- A new record beyond its allowance is dropped and counted. -/
theorem evCore_overRate (spent : s.evRate cls code sev = none) : s.evCore cls code sev unit items late =
    ({ s.bump (R.EVR_DROP_CNT cls) with evr.drops := evNoteDrop s.evr.drops cls code unit }, false) := by
  unfold State.evCore
  dsimp only
  rw [thawed, if_neg Bool.false_ne_true, noLast]
  dsimp only
  rw [spent]

end
end

section
variable (frozen : s.evr.frozen = true)
include frozen

/-- What dropping a record of low severity while frozen leaves. -/
theorem evCore_frozenLow (low : sev ≤ 3) : s.evCore cls code sev unit items late = ({ (s.bump R.EVR_FROZEN_DROP_CNT).bump (R.EVR_DROP_CNT cls) with
    evr.drops := evNoteDrop s.evr.drops cls code unit
    evr.frozenDrops := if s.evr.frozenDrops.contains cls then s.evr.frozenDrops else s.evr.frozenDrops ++ [cls] }, false) := by
  unfold State.evCore
  dsimp only
  rw [if_pos frozen, if_pos low]
  rfl

/-- A severe record is held while frozen, where the reserve has room. -/
theorem evCore_held (severe : 4 ≤ sev) (rated : s.evRate cls code sev = some s)
    (room : s.reserveUsed + (s.evRecord cls code sev unit items late).bytes ≤ 32768) : s.evCore cls code sev unit items late = ({ s with
      evr.heldRecs := s.evr.heldRecs ++ [{ s.evRecord cls code sev unit items late with held := true }]
      evr.heldBytes := s.evr.heldBytes + (s.evRecord cls code sev unit items late).bytes }, false) := by
  unfold State.evCore
  dsimp only
  rw [if_pos frozen, if_neg (by omega), rated]
  dsimp only
  exact if_neg (Nat.not_lt.2 room)

end

/-- A record that is admitted is the next in sequence, after those that await their flush. -/
theorem event_admitted {u : State} (thawed : s.evr.frozen = false) (noLast : s.foldTarget = none) (rated : s.evRate cls code sev = some u)
    (room : u.evr.awaitBytes + (evFill u.evr.pageFill (s.evRecord cls code sev unit items late).bytes + (s.evRecord cls code sev unit items late).bytes) ≤
      evLimit sev) : evg (s.event cls code sev unit items late) = ((u.evr.seq + 1) % 2 ^ 32,
      u.evr.awaiting ++ [{ s.evRecord cls code sev unit items late with seq := (u.evr.seq + 1) % 2 ^ 32 }], u.evr.allow, u.evr.area) := by
  obtain ⟨noLoss, after⟩ := admit_ok u (s.evRecord cls code sev unit items late) room
  rw [event_of ((evCore_admits thawed noLast rated).trans (pair_of noLoss)), after]

end

/-- Settles O23: each clause by the recorder's answer in its case. -/
theorem eventsAreSequencedFoldedAndLimited : Obligations.EventsAreSequencedFoldedAndLimited := by
  unfold Obligations.EventsAreSequencedFoldedAndLimited
  intro cls code sev unit items late s r t
  refine ⟨State.event_records (State.Records.refl s), ?exempt, ?limited, ?folded, ?saturated, ?overRate, ?frozenLow, ?held, ?noRoom⟩
  case exempt =>
    intro thawed noLast exempt room
    have after := event_admitted (unit := unit) (items := items) (late := late) thawed noLast (evRate_exempt exempt) room
    simp only [evg, Prod.mk.injEq] at after
    exact after
  case limited =>
    intro n thawed noLast limited rate allowed room
    have after := event_admitted (unit := unit) (items := items) (late := late) thawed noLast (evRate_takes limited rate allowed) room
    simp only [evg, Prod.mk.injEq] at after
    obtain ⟨seq, awaiting, allow, _⟩ := after
    exact ⟨seq, awaiting, allow⟩
  case folded =>
    intro l thawed last same below
    have is : t = _ := event_of ((evCore_folds thawed last same).trans (congrArg (·, false) (evFoldInto_counts below)))
    rw [is]
    exact ⟨rfl, rfl, rfl⟩
  case saturated =>
    intro l thawed last same full
    have is : t = _ := event_of ((evCore_folds thawed last same).trans (congrArg (·, false) (evFoldInto_saturates full)))
    rw [is]
    exact ⟨rfl, rfl⟩
  case overRate =>
    intro thawed noLast limited rate spent
    exact event_of (evCore_overRate thawed noLast (evRate_spent limited rate spent))
  case frozenLow =>
    intro frozen low
    have is : t = _ := event_of (evCore_frozenLow frozen low)
    rw [is]
    refine ⟨rfl, rfl, rfl, ?_, rfl⟩
    dsimp only
    split
    · next mem => exact List.contains_iff_mem.1 mem
    · exact List.mem_append_right _ (List.mem_singleton.2 rfl)
  case held =>
    intro frozen severe exempt room
    exact event_of (evCore_held frozen severe (evRate_exempt exempt) room)
  case noRoom =>
    intro thawed noLast exempt severe full
    have core := (evCore_admits (unit := unit) (items := items) (late := late) thawed noLast (evRate_exempt exempt)).trans (evAdmit_noRoom severe full)
    change s.event cls code sev unit items late = _
    rw [State.event, core]

end Sys2Proof.Machine
end

section
/-! The control rings at work (20_control_packets.md R458, R459, R470): what posting, fetching, replying, enabling and draining come to, and the statements about
them. -/
namespace Sys2Proof.Machine

/-! ### Posting and fetching (R458) -/

section
variable {ring value : Nat} {entries : List Bytes} {s : State} (known : ring ≤ 3)
include known

/-- A doorbell of a running ring posts the entries up to the new tail, where the device owns none of their slots. -/
theorem exec_ringDoorbell {n : Nat} {slots : List Nat} (count : (value % 256 + 256 - (s.ring ring).postedTail) % 256 = n)
    (named : ((List.range n).map fun i => ((s.ring ring).postedTail + i) % 256) = slots) :
    exec (.ringDoorbell ring value entries) s = .next (
      if (s.ring ring).state ≠ .running ∨ !s.ctl.ready ∨ slots.any (s.ring ring).owned.contains = true then s.dropDoorbell ring value
      else State.fetchRing (s.setRing ring { s.ring ring with
        postedTail := value % 256, nextNo := (s.ring ring).nextNo + n
        posted := (s.ring ring).posted ++ (List.range n).map fun i =>
          Entry.mk (((s.ring ring).postedTail + i) % 256) ((s.ring ring).nextNo + i) (slice (entries.getD i []) 0 64) }) ring) := by
  subst count named
  exact congrArg Host.Outcome.next (if_neg (Nat.not_lt.2 known))

end

theorem fetchRing_running {n : Nat} {s : State} (running : (s.ring n).state = .running) (noneHeld : (s.ring n).held = []) :
    s.fetchRing n = State.settle ((s.bumpBy R.CTL_PKT_CNT (s.ring n).posted.length).setRing n { s.ring n with
      posted := [], fetched := (s.ring n).fetched ++ (s.ring n).posted, cmdHead := ((s.ring n).cmdHead + (s.ring n).posted.length) % 256 })
      n (s.ring n).posted.length :=
  if_neg (by simp [running, noneHeld])

theorem fetchRing_held {n : Nat} {s : State} (held : (s.ring n).held ≠ []) : s.fetchRing n = s :=
  if_pos (.inr (by simpa using held))

theorem fetchRing_notRunning {n : Nat} {s : State} (other : (s.ring n).state ≠ .running) : s.fetchRing n = s := if_pos (.inl other)

/-! ### Replies (R459, R460, R464) -/

/-- What a reply sends, and the failure that it counts. -/
def State.replySent (s : State) (n : Nat) (p : RingReply) : State :=
  let s := if p.data = [] then s else s.emit (.slotData n p.slot p.data)
  let s := s.emits [.reply n p.tag p.status p.data.length p.result, .tailWord n (((s.ring n).replyCount + 1) % 2 ^ 16)]
  let s := if (s.fld (R.CTL_RING_CFG n) 30 30) = 1 then s.emit (.msix (s.fld (R.CTL_RING_CFG n) 10 0)) else s
  if p.final ∧ p.status ≠ stOk then s.bump R.CTL_FAIL_CNT else s

section
variable (s : State) (n : Nat) (p : RingReply)

theorem replySent_ctl : (s.replySent n p).ctl = s.ctl := by
  unfold State.replySent
  dsimp only
  split <;> split <;> split <;> rfl

theorem replySent_out : (s.replySent n p).out = s.out ++ (if p.data = [] then [] else [.slotData n p.slot p.data]) ++
    [.reply n p.tag p.status p.data.length p.result, .tailWord n (((s.ring n).replyCount + 1) % 2 ^ 16)] ++
    (if s.fld (R.CTL_RING_CFG n) 30 30 = 1 then [.msix (s.fld (R.CTL_RING_CFG n) 10 0)] else []) := by
  have counted : ∀ (c : Prop) [Decidable c] (u : State), (if c then u.bump R.CTL_FAIL_CNT else u).out = u.out := by
    intro c _ u
    split <;> rfl
  unfold State.replySent
  dsimp only
  rw [counted]
  by_cases empty : p.data = []
  · rw [if_pos empty, if_pos empty, List.append_nil]
    by_cases told : s.fld (R.CTL_RING_CFG n) 30 30 = 1
    · rw [if_pos told]
      exact congrArg State.out (if_pos told)
    · rw [if_neg told, List.append_nil]
      exact congrArg State.out (if_neg told)
  · rw [if_neg empty, if_neg empty]
    by_cases told : s.fld (R.CTL_RING_CFG n) 30 30 = 1
    · rw [if_pos told]
      exact congrArg State.out (if_pos told)
    · rw [if_neg told, List.append_nil]
      exact congrArg State.out (if_neg told)

/-- A ring after a reply. -/
def Ring.replied (r : Ring) (p : RingReply) : Ring :=
  { r with
    rplTail := (r.rplTail + 1) % 256, replyCount := (r.replyCount + 1) % 2 ^ 16
    running := if p.final then r.running.filter (·.slot != p.slot) else r.running }

theorem putReply_eq : s.putReply n p = (s.replySent n p).setRing n ((s.ring n).replied p) := by
  unfold State.putReply State.replySent
  dsimp only
  by_cases empty : p.data = []
  · rw [if_pos empty]
    rfl
  · rw [if_neg empty]
    rfl

theorem putReply_out : (s.putReply n p).out = (s.replySent n p).out := by
  rw [putReply_eq]
  rfl

variable {n} in
theorem putReply_ring (there : n < s.ctl.rings.length) : (s.putReply n p).ring n = (s.ring n).replied p := by
  rw [putReply_eq, ring_set _ _ _ (by rw [replySent_ctl]; exact there)]

variable {s n p}

theorem reply_put (space : s.rplFull n = false) (noneHeld : (s.ring n).held = []) : s.reply n p = s.putReply n p :=
  if_neg (by simp [space, noneHeld])

theorem reply_held (waits : s.rplFull n = true ∨ (s.ring n).held ≠ []) :
    s.reply n p = (s.setRing n { s.ring n with held := (s.ring n).held ++ [p] }).bump R.CTL_RPL_HOLD_CNT :=
  if_pos (by rcases waits with h | h <;> simp [h])

end

/-! ### A new reply head (R459) -/

section
variable {ring value : Nat} {s u : State} (known : ring ≤ 3) (head : s.wrBus (R.CTL_RING_RPL_HEAD ring) (BitVec.ofNat 64 value) = u)
include known head

/-- The replies that are held go out as far as there is room, and the ring is settled and fetched again. -/
theorem exec_rplHeadWrite {v : State} (released : u.releaseHeld ring (u.ring ring).held.length = v) :
    exec (.rplHeadWrite ring value) s = .next ((v.settle ring (v.ring ring).fetched.length).fetchRing ring) := by
  subst released head
  exact congrArg Host.Outcome.next (if_neg (Nat.not_lt.2 known))

end

theorem releaseHeld_none {ring : Nat} {s : State} (noneHeld : (s.ring ring).held = []) :
    s.releaseHeld ring (s.ring ring).held.length = s := by
  rw [noneHeld]
  rfl

theorem releaseHeld_one {ring : Nat} {p : RingReply} {s : State} (held : (s.ring ring).held = [p]) (space : s.rplFull ring = false) :
    s.releaseHeld ring (s.ring ring).held.length = (s.setRing ring { s.ring ring with held := [] }).putReply ring p := by
  rw [held]
  change s.releaseHeld ring 1 = _
  rw [State.releaseHeld, held]
  exact if_neg (ne_true_of_eq_false space)

/-- Settles O18: each clause by the lemma above that names its case. -/
theorem ringsPostFetchAndReply : Obligations.RingsPostFetchAndReply := by
  unfold Obligations.RingsPostFetchAndReply
  refine ⟨?doorbell, fun n s _ => fetchRing_running, fun n s => fetchRing_held, ?reply, fun n p s => reply_held, ?head, ?release⟩
  case doorbell =>
    intro ring value entries s r n slots
    have rings := fun known => exec_ringDoorbell (ring := ring) (value := value) (entries := entries) (s := s) (n := n) (slots := slots) known rfl rfl
    refine ⟨fun known running ready free => ?_, fun known dropped => ?_⟩
    · rw [rings known, if_neg]
      exact not_or.2 ⟨not_not_intro running, not_or.2 ⟨by simp [ready], ne_true_of_eq_false free⟩⟩
    · rw [rings known, if_pos (by simpa using dropped)]
      rfl
  case reply =>
    intro n p s there space noneHeld
    rw [reply_put space noneHeld]
    exact ⟨(putReply_out s n p).trans (replySent_out s n p), putReply_ring s p there, (ro_putReply s n p).same.trans rfl⟩
  case head =>
    intro ring value s known noneHeld u
    exact exec_rplHeadWrite known rfl (releaseHeld_none (s := u) noneHeld)
  case release =>
    intro ring value p s known _ held u space v
    exact exec_rplHeadWrite known rfl (releaseHeld_one (s := u) held space)

/-! ### Enabling, draining and disabling (R470) -/

section
variable {ring value : Nat} {s put : State} (known : ring ≤ 3) (vector : ¬(value.testBit 30 = true ∧ value % 2048 = 0))
  (written : s.wrBus (R.CTL_RING_CFG ring) (BitVec.ofNat 64 value) = put)
include known vector written

theorem ringCfg_drains (off : value.testBit 31 = false) (running : (s.ring ring).state = .running) :
    s.ringCfg ring value = put.setRing ring { s.ring ring with state := .draining, posted := [] } := by
  subst written
  unfold State.ringCfg
  dsimp only
  rw [if_neg (not_or.2 ⟨Nat.not_lt.2 known, vector⟩), off, if_neg Bool.false_ne_true, if_pos running]

omit written in
theorem ringCfg_draining (on : value.testBit 31 = true) (draining : (s.ring ring).state = .draining) : s.ringCfg ring value = s := by
  unfold State.ringCfg
  dsimp only
  rw [if_neg (not_or.2 ⟨Nat.not_lt.2 known, vector⟩), if_pos on, draining]

/-- A ring that is enabled begins with all its indices at 0. -/
theorem ringCfg_enables (on : value.testBit 31 = true) (disabled : (s.ring ring).state = .disabled) : s.ringCfg ring value =
    (put.wr (R.CTL_RING_RPL_HEAD ring) 0).setRing ring { Ring.reset with state := .running, nextNo := (s.ring ring).nextNo } := by
  subst written
  unfold State.ringCfg
  dsimp only
  rw [if_neg (not_or.2 ⟨Nat.not_lt.2 known, vector⟩), if_pos on, disabled]

end

/-- What may start on a ring depends on its fetched and running packets, and on whether it is disabled. -/
theorem startable_congr {s t : State} {n : Nat} (fetched : (t.ring n).fetched = (s.ring n).fetched) (running : (t.ring n).running = (s.ring n).running)
    (enabled : (t.ring n).state ≠ .disabled ∧ (s.ring n).state ≠ .disabled) (opc slot : Nat) : t.startable opc n slot = s.startable opc n slot := by
  obtain ⟨tOn, sOn⟩ := enabled
  unfold State.startable Ring.blocked
  dsimp only
  rw [fetched, running]
  simp [tOn, sOn]

theorem exec_ringDrainDone (ring : Nat) (s : State) : exec (.ringDrainDone ring) s = .next (
    if ring ≤ 3 ∧ (s.ring ring).state = .draining ∧ (s.ring ring).drained = true then s.setRing ring { s.ring ring with state := .disabled } else s) :=
  rfl

/-- A register of 32 bits that is written with 0 reads 0. -/
theorem rd_wr_zero {s : State} (wf : regsWfFrom 0 s.regs = true) (r : Reg) : (s.wr r 0).rd r = 0 := by
  rw [rd_wr_same r 0 wf]
  split <;> rfl

/-- Settles O19: the writes of the configuration by the ring's state, the drain by what the device still owns. -/
theorem ringsDrainBeforeTheyAreDisabled : Obligations.RingsDrainBeforeTheyAreDisabled := by
  unfold Obligations.RingsDrainBeforeTheyAreDisabled
  intro ring value s known there vector put
  refine ⟨?drains, ?starts, ?fetches, ?done, ?waits, ?dropped, ?enables⟩
  case drains =>
    intro off running
    exact congrArg Host.Outcome.next (ringCfg_drains known vector rfl off running)
  case starts =>
    intro running opc slot
    have is := ring_set put ring { s.ring ring with state := .draining, posted := [] } there
    refine startable_congr ?_ ?_ ⟨?_, ?_⟩ opc slot
    · rw [is]
    · rw [is]
    · rw [is]
      exact nofun
    · rw [running]
      exact nofun
  case fetches =>
    intro draining
    exact fetchRing_notRunning (by rw [draining]; exact nofun)
  case done =>
    intro draining fetched running held posted
    rw [exec_ringDrainDone, if_pos ⟨known, draining, by simp [Ring.drained, fetched, running, held, posted]⟩]
  case waits =>
    intro waits
    rw [exec_ringDrainDone, if_neg]
    rintro ⟨_, draining, drained⟩
    simp only [Ring.drained, Bool.and_eq_true, List.isEmpty_iff] at drained
    obtain ⟨⟨⟨fetched, running⟩, held⟩, _⟩ := drained
    rcases waits with h | h | h | h
    · exact h draining
    · exact h fetched
    · exact h running
    · exact h held
  case dropped =>
    intro on draining
    exact congrArg Host.Outcome.next (ringCfg_draining known vector on draining)
  case enables =>
    intro on disabled
    have is := ring_set (put.wr (R.CTL_RING_RPL_HEAD ring) 0) ring { Ring.reset with state := .running, nextNo := (s.ring ring).nextNo } there
    refine ⟨_, congrArg Host.Outcome.next (ringCfg_enables known vector rfl on disabled), ?_⟩
    rw [is]
    exact ⟨rfl, rfl, rfl, rfl, rfl, rfl, rfl, rfl, fun wf => rd_wr_zero (regsWfFrom_put wf (Nat.zero_le _)) _⟩

end Sys2Proof.Machine
end

section
/-! Control packets (20_control_packets.md R458, R462, R464, R471, R473): how each is checked, in order, what answers it, what starting and answering may touch, and
the statements about them. -/
namespace Sys2Proof.Machine

/-! ### What may start (R462, R465) -/

section
variable {s : State} {opc n slot : Nat} {e : Entry} (starts : s.startable opc n slot = some e)
include starts

/-- A packet that may start stands fetched in its slot, is of the opcode, passes the static checks and is not behind an earlier one that it waits for. -/
theorem startable_some : e ∈ (s.ring n).fetched ∧ e.slot = slot ∧ e.opcode = opc ∧ e.staticStatus = stOk ∧ (s.ring n).blocked e = false := by
  unfold State.startable at starts
  dsimp only at starts
  split at starts
  · cases starts
  · next x found =>
    split at starts
    · next fits =>
      cases starts
      have inSlot := List.find?_some found
      simp only [Bool.and_eq_true, beq_iff_eq, Bool.not_eq_true', bne_iff_ne, ne_eq] at fits inSlot
      obtain ⟨⟨⟨opcode, static⟩, free⟩, _⟩ := fits
      exact ⟨List.mem_of_find?_eq_some found, inSlot, opcode, static, free⟩
    · cases starts

/-- An ordered packet that may start comes before all that its ring runs or has fetched. -/
theorem startable_first (ordered : e.ordered = true) : ∀ x ∈ (s.ring n).running ++ (s.ring n).fetched, ¬x.no < e.no := by
  obtain ⟨_, _, _, _, free⟩ := startable_some starts
  intro x mem earlier
  refine ne_true_of_eq_false free ?_
  rw [Ring.blocked, ordered]
  exact List.any_eq_true.2 ⟨x, mem, decide_eq_true earlier⟩

/-! ### The common checks (R462, R473) -/

variable (body : Entry → PktRef → State → PktRes)

/-- A packet whose target or session fails ends with that status. -/
theorem packet_refused (fails : s.entryStatus e ≠ stOk) :
    s.packet opc n slot body = (s.begun n slot e).replied n slot e (s.entryStatus e) [] [] := by
  unfold State.packet
  rw [starts]
  exact if_pos fails

section
variable (passes : s.entryStatus e = stOk) (config : opcodeCfg opc = true)
include passes config

/-- A change of pool configuration waits during a takeover. -/
theorem packet_waits (takeover : s.pair.state = .suspect ∨ s.pair.state = .electing) : s.packet opc n slot body = s := by
  have none_ : s.cfgReady = none := by
    unfold State.cfgReady
    rcases takeover with h | h <;> rw [h]
  unfold State.packet
  rw [starts]
  dsimp only
  rw [if_neg (not_not_intro passes), if_pos config, none_]

/-- A change of pool configuration is refused on a FENCED head. -/
theorem packet_fenced (fenced : s.pair.state = .fenced) :
    s.packet opc n slot body = (s.begun n slot e).replied n slot e (if opc = 0x82 then 0x0C03 else stNotOwner) [] [] := by
  have notOwner : s.cfgReady = some stNotOwner := by
    unfold State.cfgReady
    rw [fenced]
  unfold State.packet
  rw [starts]
  dsimp only
  rw [if_neg (not_not_intro passes), if_pos config, notOwner]
  rfl

end
end

theorem packet_notStartable {s : State} {opc n slot : Nat} (waits : s.startable opc n slot = none) (body : Entry → PktRef → State → PktRes) :
    s.packet opc n slot body = s := by
  unfold State.packet
  rw [waits]

/-! ### The target and the session (R462 steps 4, 5 and 7) -/

section
variable {s : State} {e : Entry} {o : OpRow} (row : opRow e.opcode = some o)
include row

theorem entryStatus_target (bad : o.target.accepts e.target = false) : s.entryStatus e = stInvalidField := by
  unfold State.entryStatus
  rw [row]
  exact if_pos (by simp [bad])

section
variable (good : o.target.accepts e.target = true) (valid : unitValid e.target = true)
include good valid

theorem entryStatus_locked (online : s.ust e.target = .online) (session : o.session = true) (shut : s.boot.sessionOpen = false) :
    s.entryStatus e = stAccessLocked := by
  unfold State.entryStatus
  rw [row]
  dsimp only
  rw [good, valid, online, if_neg (by simp), session, shut]
  rfl

/-- A FAILED target refuses any but the opcodes that are for it; a FENCED head refuses a change of configuration first. -/
theorem entryStatus_failed (failed : s.ust e.target = .failed) (session : o.session = false)
    (other : (e.opcode == 0x20 || e.opcode == 0x24 || e.opcode == 0x22 || e.opcode == 0x26) = false) :
    s.entryStatus e = if o.cfg && s.pair.state == .fenced then stNotOwner else stUnitFailed := by
  unfold State.entryStatus
  rw [row]
  dsimp only
  rw [good, valid, failed, if_neg (by simp), session, other]
  rfl

end
end

/-! ### Answers (R464, R471) -/

theorem replied_running {u : State} {n slot st : Nat} {e : Entry} (res data : Bytes)
    (runs : (u.ring n).running.any (fun x => x.slot == slot && x.no == e.no) = true) : u.replied n slot e st res data =
    (u.reply n ⟨slot, e.tag, st, padResult res, if st = stOk then data else [], true⟩).settle n (u.ring n).fetched.length := by
  change (if _ then _ else _) = _
  rw [if_neg]
  · rfl
  · change ¬(!(u.ring n).running.any (fun x => x.slot == slot && x.no == e.no)) = true
    rw [runs]
    decide

/-- A packet that a reset took away is not answered. -/
theorem replied_gone {u : State} {n slot : Nat} {e : Entry} (st : Nat) (res data : Bytes)
    (gone : (u.ring n).running.any (fun x => x.slot == slot && x.no == e.no) = false) : u.replied n slot e st res data = u := by
  change (if _ then _ else _) = _
  rw [if_pos]
  change (!(u.ring n).running.any (fun x => x.slot == slot && x.no == e.no)) = true
  rw [gone]
  rfl

theorem begun_ring {s : State} {n slot : Nat} {e : Entry} (there : n < s.ctl.rings.length) : (s.begun n slot e).ring n = { s.ring n with
    fetched := (s.ring n).fetched.filter (·.slot != slot), running := (s.ring n).running ++ [e] } := ring_set _ _ _ there

/-- Settles O20: the checks in their order, then the answers. -/
theorem controlPacketsAreCheckedAndAnswered : Obligations.ControlPacketsAreCheckedAndAnswered := by
  unfold Obligations.ControlPacketsAreCheckedAndAnswered
  refine ⟨?checks, ?status, ?answers, ?starts, ?nop⟩
  case checks =>
    intro opc n slot body s
    refine ⟨fun waits => packet_notStartable waits body, fun e starts => ?_, fun e starts => packet_refused starts body,
      fun e starts passes config => ⟨packet_waits starts body passes config, packet_fenced starts body passes config⟩,
      fun e => State.packet_runs body⟩
    obtain ⟨mem, inSlot, opcode, static, _⟩ := startable_some starts
    exact ⟨mem, inSlot, opcode, static, startable_first starts⟩
  case status =>
    intro opc n slot e o s starts row
    obtain ⟨_, _, rfl, _⟩ := startable_some starts
    refine ⟨entryStatus_target row, entryStatus_locked row, fun good valid failed session a b c d => ?_⟩
    exact entryStatus_failed row good valid failed session (by simp [a, b, c, d])
  case answers =>
    intro n slot st e res data u
    exact ⟨replied_running res data, replied_gone st res data⟩
  case starts =>
    intro n slot e s starts there
    obtain ⟨_, inSlot, _⟩ := startable_some starts
    rw [begun_ring there]
    exact ⟨rfl, fun stays => by simp [inSlot] at stays⟩
  case nop =>
    intro n slot e s h
    exact congrArg Host.Outcome.next (State.packet_runs _ h)

/-! ### What answers touch (R458, R464) -/

/-- What a packet's own rule leaves is only an answer. -/
def PktRes.Reports (u : State) (r : PktRes) : Prop := ∃ st res data, r = .done u st res data

section
variable {u : State}

theorem reports_done (st : Nat) (res data : Bytes) : PktRes.Reports u (.done u st res data) := ⟨st, res, data, rfl⟩

theorem reports_fail (st : Nat) : PktRes.Reports u (.fail u st) := ⟨st, [], [], rfl⟩

theorem reports_ite (c : Prop) [Decidable c] {a b : PktRes} (ifTrue : a.Reports u) (ifFalse : b.Reports u) : PktRes.Reports u (if c then a else b) := by
  split
  · exact ifTrue
  · exact ifFalse

end

section
variable (n slot : Nat) (s : State)

/-- A packet whose rule only answers touches the rings, the outputs and two counters. -/
theorem reporting_only {i : Instr} {opc : Nat} {body : Entry → PktRef → State → PktRes} (does : exec i s = .next (s.packet opc n slot body))
    (reports : ∀ e p u, (body e p u).Reports u) : ∃ t, exec i s = .next t ∧ s.RingsOnly t :=
  ⟨_, does, ro_packet s opc n slot body reports⟩

theorem getModuleInfo_only : ∃ t, exec (.getModuleInfo n slot) s = .next t ∧ s.RingsOnly t :=
  reporting_only n slot s rfl fun _ _ _ => reports_ite _ (reports_fail _) (reports_ite _ (reports_fail _) (reports_ite _ (reports_fail _)
    (reports_ite _ (reports_fail _) (reports_done _ _ _))))

theorem getVolumeAdmission_only : ∃ t, exec (.getVolumeAdmission n slot) s = .next t ∧ s.RingsOnly t := by
  refine reporting_only n slot s rfl fun e p u => ?_
  cases u.vol? (e.num 10 4) with
  | none => exact reports_fail _
  | some v => exact reports_ite _ (reports_fail _) (reports_done _ _ _)

theorem getDedupDomain_only : ∃ t, exec (.getDedupDomain n slot) s = .next t ∧ s.RingsOnly t := by
  refine reporting_only n slot s rfl fun e p u => ?_
  cases u.dom? (e.num 10 1) with
  | none => exact reports_fail _
  | some d => exact reports_ite _ (reports_fail _) (reports_ite _ (reports_fail _) (reports_done _ _ _))

theorem listSnapshots_only : ∃ t, exec (.listSnapshots n slot) s = .next t ∧ s.RingsOnly t :=
  reporting_only n slot s rfl fun _ _ _ => reports_ite _ (reports_fail _) (reports_ite _ (reports_fail _) (reports_done _ _ _))

theorem getReplSession_only : ∃ t, exec (.getReplSession n slot) s = .next t ∧ s.RingsOnly t := by
  refine reporting_only n slot s rfl fun e p u => ?_
  cases u.pktSession e with
  | error st => exact reports_fail st
  | ok x => exact reports_done _ _ _

/-! GET_UNIT looks its descriptor up. -/

/-- A change that is of the rings only, but for the cache, is one from the state with the cache as it leaves it. -/
theorem ro_llc {s t : State} {l : Llc} (only : State.RingsOnly { s with llc := l } t) : State.RingsOnly { s with llc := t.llc } t := by
  have left : t.llc = l := by rw [only.same]
  rw [left]
  exact only

/-- A packet whose rule answers after a change of the cache touches the rings, the outputs, two counters and the cache. -/
theorem ro_packet_llc {opc : Nat} {body : Entry → PktRef → State → PktRes}
    (answers : ∀ e p u, ∃ l st res data, body e p u = .done { u with llc := l } st res data) :
    State.RingsOnly { s with llc := (s.packet opc n slot body).llc } (s.packet opc n slot body) := by
  have refused : ∀ (e : Entry) (p : PktRef) (st : Nat), State.RingsOnly { s with llc := ((s.begun n slot e).finish p st [] []).llc }
      ((s.begun n slot e).finish p st [] []) := fun e p st => ro_llc (l := s.llc) (ro_trans (ro_setRing _ _ _) (ro_finish _ _ _ _ _))
  unfold State.packet
  split
  · exact ro_refl s
  · next e _ =>
    dsimp only
    split
    · exact refused _ _ _
    · split
      · exact ro_refl s
      · split
        · exact refused _ _ _
        · obtain ⟨l, st, res, data, answer⟩ := answers e (packetRef n slot e) (s.begun n slot e)
          rw [answer]
          cases e.tailOk with
          | false => exact refused _ _ _
          | true =>
            have begun : State.RingsOnly { s with llc := l } { s.begun n slot e with llc := l } := ⟨rfl, fun _ _ _ => rfl⟩
            exact ro_llc (ro_trans begun (ro_finish _ (packetRef n slot e) st res data))

theorem getUnit_only : ∃ t, exec (.getUnit n slot) s = .next t ∧ State.RingsOnly { s with llc := t.llc } t :=
  ⟨_, rfl, ro_packet_llc n slot s fun _ _ _ => ⟨_, _, _, _, rfl⟩⟩

end

/-- Settles O21: the replies by the frames of their operations, the reporting packets by their rules, which only answer. -/
theorem repliesAndReportsTouchOnlyTheRings : Obligations.RepliesAndReportsTouchOnlyTheRings := by
  unfold Obligations.RepliesAndReportsTouchOnlyTheRings
  refine ⟨?replies, fun n slot s => getUnit_only n slot s, ?reports⟩
  case replies =>
    intro n slot e st result data s
    refine ⟨ro_setRing _ _ _, ro_reply _ _ _, ro_finish _ _ _ _ _, fun alone => ?_, fun peer => ⟨_, if_pos peer⟩⟩
    rw [State.cfgEnded, alone, if_neg Bool.false_ne_true]
    exact ro_finish _ _ _ _ _
  case reports =>
    intro n slot i listed s
    simp only [List.mem_cons, List.not_mem_nil, or_false] at listed
    rcases listed with rfl | rfl | rfl | rfl | rfl | rfl | rfl | rfl | rfl | rfl | rfl
    · exact reporting_only n slot s rfl fun _ _ _ => reports_done _ _ _
    · exact reporting_only n slot s rfl fun _ _ _ => reports_done _ _ _
    · exact getModuleInfo_only n slot s
    · exact getVolumeAdmission_only n slot s
    · exact getDedupDomain_only n slot s
    · exact listSnapshots_only n slot s
    · exact getReplSession_only n slot s
    · exact reporting_only n slot s rfl fun _ _ _ => reports_done _ _ _
    · exact reporting_only n slot s rfl fun _ _ _ => reports_done _ _ _
    · exact reporting_only n slot s rfl fun _ _ _ => reports_done _ _ _
    · exact reporting_only n slot s rfl fun _ _ _ => reports_done _ _ _

end Sys2Proof.Machine
end

section
/-! Resets and start-up (21_startup_security.md R484 to R487): what a power-on and a warm reset leave, what asks for one, how start-up begins, and the statements about
them. -/
namespace Sys2Proof.Machine

/-- A register that a filter of the register file takes out reads its reset value. -/
theorem get_filter_out {st : RegStore} {p : Nat → Bool} {r : Reg} (out_ : p r.addr = false) : RegStore.get (st.filter fun x => p x.1) r = r.reset := by
  have none_ : (st.filter fun x => p x.1).find? (fun x => x.1 == r.addr) = none := by
    refine List.find?_eq_none.2 fun x mem same => ?_
    have kept := (List.mem_filter.1 mem).2
    rw [beq_iff_eq.1 same, out_] at kept
    cases kept
  unfold RegStore.get
  rw [none_]

/-! ### A power-on reset (R485) -/

/-- A power-on reset before its health record is counted. -/
def State.powerCleared (s : State) (head : Nat) : State :=
  { s.flashCut.resetBlocks with
    regs := s.regs.filter fun p => poolReg p.1
    role := head % 2
    tide := Tide.reset
    evr := { Evr.reset with
      area := s.evr.area, nextPage := s.evr.nextPage, epoch := s.evr.epoch, sliceOpen := s.evr.sliceOpen, slices := s.evr.slices }
    keys.tamper := false
    boot := { Boot.reset with
      slots := s.boot.slots, svn := s.boot.svn, fails := s.boot.fails, pwd := s.boot.pwd, fkey := s.boot.fkey, factory := true }
    pwr := { Pwr.reset with clockLost := s.pwr.clockLost } }

/-- With no controller left to tell, counting the power-on reset changes the health record alone. -/
theorem resetPower_eq (s : State) (head : Nat) : ∃ ftl warned, s.resetPower head = { s.powerCleared head with ftl := ftl, hq.warned := warned } :=
  ⟨_, _, count_rest (s.powerCleared head) _ _ rfl⟩

/-- A page that loses its power becomes undefined, and nothing else changes but the free values drawn and the list of programmed pages. -/
theorem flashCut_keeps (s : State) : s.flashCut.out = s.out ∧ s.flashCut.keys = s.keys ∧ s.flashCut.brn.dump = s.brn.dump ∧
    s.flashCut.sfl.mem = s.sfl.mem :=
  ⟨cut_fields State.out (fun _ _ => rfl) s, cut_fields State.keys (fun _ _ => rfl) s, cut_fields (fun u => u.brn.dump) (fun _ _ => rfl) s,
    cut_fields (fun u => u.sfl.mem) mem_loose s⟩

theorem resetPower_rd {s : State} {head : Nat} {r : Reg} (notPool : poolReg r.addr = false) : (s.resetPower head).rd r = r.reset := by
  obtain ⟨ftl, warned, is⟩ := resetPower_eq s head
  rw [is]
  exact get_filter_out (p := poolReg) notPool

/-! ### Start-up (R486, R487) -/

/-- Memory training shows which stacks are up. -/
theorem stageMemory_hbmUp (s : State) (b : BootIn) : (s.stageMemory b).mem.hbmUp = b.hbm % 16 := by
  unfold State.stageMemory
  cases b.popErr with
  | none => rfl
  | some u =>
    change (State.event _ _ _ _ _ _).mem.hbmUp = _
    rw [(State.event_records (State.Records.refl _)).same]

section
variable {b : BootIn} {cause : Nat} {s u : State} (started : State.evStart { s with boot.cause := cause } cause (cause == 0) = u)
include started

theorem bootSeq_unidentified (noCopy : u.calRow = none) : s.bootSeq b cause = { u with boot.unidentified := true, boot.stage := 7 } := by
  unfold State.bootSeq
  rw [started]
  dsimp only
  rw [noCopy]

theorem bootSeq_calibrated {row : Bytes} (copy : u.calRow = some row) {m : State}
    (memory : (({ u with boot.unidentified := false, keys.dk := true }.alarmsAgain).stageConfig b.setA b.setB).stageMemory b = m) :
    s.bootSeq b cause = if b.hbm % 16 ≠ 15 then { m with boot.stage := 7 } else m.stageLoad fun i => if i = 0 then b.slotA else b.slotB := by
  have up : m.mem.hbmUp = b.hbm % 16 := memory ▸ stageMemory_hbmUp _ _
  unfold State.bootSeq
  rw [started]
  dsimp only
  rw [copy, memory, up]

end

/-- Settles O12: the reset by its frame, the start-up by the first step that fails. -/
theorem powerOnAndStartUp : Obligations.PowerOnAndStartUp := by
  unfold Obligations.PowerOnAndStartUp
  refine ⟨⟨fun b s => rfl, fun n s r => resetPower_rd, ?cleared, ?kept⟩, ?startUp⟩
  case cleared =>
    intro n s u
    obtain ⟨ftl, warned, is⟩ := resetPower_eq s n
    have eq : u = _ := is
    rw [eq]
    exact ⟨rfl, rfl, rfl, rfl, rfl, rfl, rfl, rfl, rfl, rfl, rfl, rfl, rfl, rfl, rfl, rfl, rfl, rfl, rfl, rfl, rfl, (flashCut_keeps s).1⟩
  case kept =>
    intro n s u
    obtain ⟨ftl, warned, is⟩ := resetPower_eq s n
    obtain ⟨_, keys, dump, mem⟩ := flashCut_keeps s
    have eq : u = _ := is
    rw [eq]
    exact ⟨rfl, rfl, rfl, rfl, rfl, show s.flashCut.keys.pwkStored = s.keys.pwkStored from congrArg Keys.pwkStored keys, dump,
       fun a => congrArg (memRead 0xFF · a) mem⟩
  case startUp =>
    intro b cause s u
    refine ⟨fun noCopy => ?_, fun row copy => ?_⟩
    · rw [bootSeq_unidentified (u := u) rfl noCopy]
      exact ⟨rfl, rfl⟩
    · intro m
      have runs := bootSeq_calibrated (u := u) (m := m) rfl copy rfl
      refine ⟨fun untrained => ?_, fun trained => ?_⟩
      · rw [runs, if_pos untrained]
      · rw [runs, if_neg (not_not_intro trained)]

/-! ### What asks for a warm reset (R469, R484) -/

/-- A reset that is due keeps its cause. -/
theorem askReset_due {s : State} (due : s.boot.resetReq.isSome = true) (cause : Nat) : s.askReset cause = s := if_pos due

theorem askReset_first {s : State} (none_ : s.boot.resetReq = none) (cause : Nat) : s.askReset cause =
    ((if s.sfl.ops.isEmpty then { s with boot.resetReq := some cause } else State.bump { s with boot.resetReq := some cause } R.SFL_HOLD_CNT).startDump).flushStart :=
  if_neg (by simp [none_])

theorem exec_watchdogFw (s : State) : exec .watchdogFw s = .next (if 4 ≤ s.boot.stage ∧ s.boot.stage ≤ 6 then s.askReset 1 else s) := rfl

theorem exec_watchdogBoot (s : State) : exec .watchdogBoot s = .next (if s.boot.stage = 4 ∧ !s.ctl.ready then s.askReset 2 else s) := rfl

/-- Settles O13: each source by its condition; a reset that is due is asked for no more. -/
theorem resetSourcesAskForAWarmReset : Obligations.ResetSourcesAskForAWarmReset := by
  unfold Obligations.ResetSourcesAskForAWarmReset
  intro s
  refine ⟨fun none_ cause => askReset_first none_ cause, rfl, fun low high => ?firmware, fun stage notReady => ?boot, fun due => ⟨?_, ?_, ?_⟩⟩
  case firmware => rw [exec_watchdogFw, if_pos ⟨low, high⟩]
  case boot => rw [exec_watchdogBoot, if_pos ⟨stage, by rw [notReady]; rfl⟩]
  · exact congrArg Host.Outcome.next (askReset_due due 4)
  · rw [exec_watchdogFw, askReset_due due, ite_self]
  · rw [exec_watchdogBoot, askReset_due due, ite_self]

/-! ### A warm reset (R485) -/

/-- A warm reset waits until one is asked for and nothing holds it. -/
theorem exec_warmReset_waits {b : BootIn} {s : State} (waits : s.resetReady = false ∨ s.boot.resetReq = none) : exec (.warmReset b) s = .next s := by
  change execWarmReset b s = _
  unfold execWarmReset
  cases due : s.boot.resetReq with
  | none => rfl
  | some cause =>
    have held := waits.resolve_right (by rw [due]; exact nofun)
    dsimp only
    rw [held]
    rfl

section
variable {b : BootIn} {cause : Nat} {s u v : State} (due : s.boot.resetReq = some cause) (ready : s.resetReady = true) (notHalted : s.boot.stage ≠ 7)
  (counted : (if cause = 1 ∨ cause = 2 then s.bump R.BOOT_WDT_CNT else s) = u) (told : (if u.pwr.dumpDone then u.emit (.pin .dumpDone false) else u) = v)
include due ready notHalted counted told

theorem exec_warmReset : exec (.warmReset b) s = .next (v.resetBlocks.bootSeq b cause) := by
  have stageU : u.boot.stage = s.boot.stage := by
    rw [← counted]
    split <;> rfl
  have stageV : v.boot.stage = u.boot.stage := by
    rw [← told]
    split <;> rfl
  change execWarmReset b s = _
  unfold execWarmReset
  rw [due]
  dsimp only
  rw [ready, if_neg (by decide), counted, told, if_neg (by rw [stageV, stageU]; exact notHalted)]

end

/-- With no host-side command in flight, a reset of the host's link discards none. -/
theorem hostCommands_none {s : State} (idle : ∀ c ∈ s.hq.cmds, ∀ q ∈ s.hq.ctxs, q.fabric = false → q.idx ≠ c.qctx) :
    (s.hq.cmds.filter fun c => (s.hq.ctxs.filter fun q => !q.fabric).any fun q => q.idx == c.qctx) = [] := by
  refine List.filter_eq_nil_iff.2 fun c mem host => ?_
  obtain ⟨q, known, same⟩ := List.any_eq_true.1 host
  obtain ⟨known, side⟩ := List.mem_filter.1 known
  exact idle c mem q known (by simpa using side) (beq_iff_eq.1 same)

/-- Settles O14: the warm reset by its conditions and its frame, the host's reset by the commands that it finds. -/
theorem warmAndHostResets : Obligations.WarmAndHostResets := by
  unfold Obligations.WarmAndHostResets
  refine ⟨⟨fun b s held => exec_warmReset_waits (.inl held), fun b s none_ => exec_warmReset_waits (.inr none_), ?warm, ?blocks⟩, ?host⟩
  case warm =>
    intro b cause s due ready notHalted u v
    exact exec_warmReset due ready notHalted rfl rfl
  case blocks =>
    intro s u
    refine ⟨fun r off notPool => ?_, fun r on => ?_, rfl, rfl, rfl, rfl, rfl, rfl, rfl, rfl, rfl, rfl, rfl, rfl, rfl, rfl, rfl, rfl, rfl, rfl, rfl, rfl,
      rfl, rfl, rfl, rfl, rfl⟩
    · exact get_filter_out (p := fun a => alwaysOn a || poolReg a) (by simp [off, notPool])
    · exact find_filter (p := fun a => alwaysOn a || poolReg a) (by simp [on])
  case host =>
    intro s idle
    change execHostPcieReset s = _
    unfold execHostPcieReset
    dsimp only
    rw [hostCommands_none idle]
    rfl

end Sys2Proof.Machine
end

section
/-! Firmware and identity (21_startup_security.md R493, R496, R497, R499): what each packet and the recovery come to, and the statement about them. -/
namespace Sys2Proof.Machine

/-! ### FW_DOWNLOAD (R496) -/

/-- What a chunk that may be downloaded writes: its pages, and the slot's record with the first chunk and with the last. -/
def State.downloadedInto (b : State) (addr i off total : Nat) (head d : Bytes) (len : Nat) : PktRes :=
  let s := b.emit (.hostRead addr len)
  let s := if off = 0 then s.commitRec (s.boot.slots.setSt i 1) else s
  let s := (List.range (ceilDiv len 4096)).foldl (fun (s : State) k =>
    s.slotPage ((slotBase i + off) / 4096 + k) ((d.drop (4096 * k)).take 4096)) s
  let s := { s with boot.dlNext := off + len, boot.dlActive := decide (off + len < total) }
  .startDone (if off + len ≥ total then s.commitRec ((s.boot.slots.setSt i 2).setVer i (slotVer head)) else s) [] []

section
variable {n slot off len i total : Nat} {data d head : Bytes} {e : Entry} {s : State} (h : s.CanRun 0xC0 n slot e) (at_ : e.num 10 4 = off)
  (length : e.num 14 4 = len) (target : s.targetSlot = i) (bytes : slice data 0 len = d) (first : (if off = 0 then d else s.slotHeader i) = head)
  (size : leAt head 16 4 + 4096 = total)
include h at_ length target bytes first size

theorem exec_fwDownload : exec (.fwDownload n slot data) s = .next (s.ended n slot e (
    if len < 4096 ∨ len > 16777216 ∨ (len % 4096 ≠ 0 ∧ off + len ≠ total) then .fail (s.begun n slot e) stInvalidField
    else if s.boot.slots.st i = 4 then .fail (s.begun n slot e) stSlotBusy
    else if off ≠ 0 ∧ (!s.boot.dlActive ∨ off ≠ s.boot.dlNext) then .fail (s.begun n slot e) 0x0F01
    else if off + len > 0x20000000 then .fail (s.begun n slot e) 0x0F02
    else if s.bankBusy (bankOf (slotBase i)) then .waits
    else (s.begun n slot e).downloadedInto (e.num 18 8) i off total head d len)) := by
  subst size first bytes target length at_
  exact congrArg Host.Outcome.next (State.packet_runs _ h)

theorem exec_fwDownload_badFields (bad : len < 4096 ∨ 16777216 < len ∨ (len % 4096 ≠ 0 ∧ off + len ≠ total)) :
    exec (.fwDownload n slot data) s = .next ((s.begun n slot e).replied n slot e stInvalidField [] []) := by
  rw [exec_fwDownload h at_ length target bytes first size, if_pos bad, State.ended_fail]

section
variable (low : 4096 ≤ len) (high : len ≤ 16777216) (whole : len % 4096 = 0 ∨ off + len = total)
include low high whole

theorem exec_fwDownload_slotBusy (busy : s.boot.slots.st i = 4) :
    exec (.fwDownload n slot data) s = .next ((s.begun n slot e).replied n slot e 0x0F00 [] []) := by
  rw [exec_fwDownload h at_ length target bytes first size, if_neg (by omega), if_pos busy, State.ended_fail]
  rfl

variable (free : s.boot.slots.st i ≠ 4)
include free

theorem exec_fwDownload_gap (later : off ≠ 0) (gap : s.boot.dlActive = false ∨ off ≠ s.boot.dlNext) :
    exec (.fwDownload n slot data) s = .next ((s.begun n slot e).replied n slot e 0x0F01 [] []) := by
  rw [exec_fwDownload h at_ length target bytes first size, if_neg (by omega), if_neg free, if_pos ⟨later, by simpa using gap⟩, State.ended_fail]

variable (follows : off = 0 ∨ s.boot.dlActive = true ∧ off = s.boot.dlNext)
include follows

theorem exec_fwDownload_inOrder : exec (.fwDownload n slot data) s = .next (s.ended n slot e (
    if off + len > 0x20000000 then .fail (s.begun n slot e) 0x0F02
    else if s.bankBusy (bankOf (slotBase i)) then .waits
    else (s.begun n slot e).downloadedInto (e.num 18 8) i off total head d len)) := by
  have inOrder : ¬(off ≠ 0 ∧ ((!s.boot.dlActive) = true ∨ off ≠ s.boot.dlNext)) := by
    rintro ⟨later, gap⟩
    obtain ⟨active, next⟩ := follows.resolve_left later
    rcases gap with gap | gap
    · rw [active] at gap
      cases gap
    · exact gap next
  rw [exec_fwDownload h at_ length target bytes first size, if_neg (by omega), if_neg free, if_neg inOrder]

end
end

/-- The first chunk of an image that goes on marks the slot, writes its pages and leaves the download active. -/
theorem downloadedInto_first {b w t : State} {addr i total len : Nat} {head d : Bytes} (more : len < total)
    (marked : (b.emit (.hostRead addr len)).commitRec (b.boot.slots.setSt i 1) = w)
    (written : (List.range (ceilDiv len 4096)).foldl (fun (u : State) k => u.slotPage ((slotBase i + 0) / 4096 + k) ((d.drop (4096 * k)).take 4096)) w = t) :
    b.downloadedInto addr i 0 total head d len = .startDone { t with boot.dlNext := 0 + len, boot.dlActive := true } [] [] := by
  subst marked written
  unfold State.downloadedInto
  dsimp only
  rw [if_pos rfl, decide_eq_true (by omega : 0 + len < total), if_neg (by omega)]
  rfl

/-! ### FW_ACTIVATE and FW_COMMIT (R496) -/

/-- The peer in the pair runs firmware of another major version. -/
def State.majorDiffers (s : State) (major : Nat) : Bool :=
  s.pair.state == .paired && match s.pair.hello with
    | some p => p.fwMajor != major
    | none => false

section
variable {n slot i code : Nat} {c : SlotCheck} {head : Bytes} {e : Entry} {s : State} (h : s.CanRun 0xC1 n slot e) (flag : e.num 10 1 ≤ 1)
  (reserved : e.zero 11 3 = true) (target : s.targetSlot = i) (header : s.slotHeader i = head)
  (verdict : s.imageCode head (fun k => s.sflBytes (slotBase i + 4096) k) c = code)
include h flag reserved target header verdict

theorem exec_fwActivate {t : State} (stored : (s.begun n slot e).commitRec { s.boot.slots.setSt i 3 with tries := 1, pref := i } = t) :
    exec (.fwActivate n slot c) s = .next (s.ended n slot e (
      if s.boot.slots.st i = 4 then .fail (s.begun n slot e) stSlotBusy
      else if code ≠ 0 ∧ code ≠ 6 then .done (s.begun n slot e) 0x0F03 (leBytes 4 code) []
      else if code = 6 ∨ leAt head 9 1 ≠ 4 then .fail (s.begun n slot e) 0x0F04
      else if s.majorDiffers (leAt head 9 1) then .fail (s.begun n slot e) 0x0F05
      else .done (if e.num 10 1 = 1 then t.askReset 5 else t) stOk [] [])) := by
  subst stored verdict header target
  have runs : exec (.fwActivate n slot c) s = .next (s.ended n slot e _) := congrArg Host.Outcome.next (State.packet_runs _ h)
  rw [runs]
  exact congrArg (fun r => Host.Outcome.next (s.ended n slot e r)) (if_neg (not_or.2 ⟨Nat.not_lt.2 flag, by rw [reserved]; decide⟩))

end

theorem exec_fwCommit {n slot : Nat} {e : Entry} {s t : State} (h : s.CanRun 0xC2 n slot e)
    (stored : (s.begun n slot e).commitRec ((s.boot.slots.setSt (s.boot.slot % 2) 4).setSt (1 - s.boot.slot % 2) 5) = t) :
    exec (.fwCommit n slot) s = .next (s.ended n slot e (if !s.boot.trial then .fail (s.begun n slot e) 0x0F06
      else .done (State.eraseSlotFlash { t with
        boot.trial := false
        boot.svn := Nat.max t.boot.svn (leAt (t.slotHeader (s.boot.slot % 2)) 13 1) } (1 - s.boot.slot % 2)) stOk [] [])) := by
  subst stored
  exact congrArg Host.Outcome.next (State.packet_runs _ h)

/-! ### Recovery (R497) -/

theorem recover_elsewhere {image : Bytes} {c : SlotCheck} {s : State} (other : s.boot.stage ≠ 8) : s.recover image c = s := if_pos other

/-- In stage 8 an image that is whole is verified, and runs where it verifies. -/
theorem recover_whole {image im head : Bytes} {c : SlotCheck} {s t : State} {n code : Nat} (waits : s.boot.stage = 8)
    (length : (s.rd R.BOOT_RCV_LEN).toNat = n) (read : s.emit (.hostRead (s.rd R.BOOT_RCV_ADDR).toNat n) = t) (bytes : slice image 0 n = im)
    (first : slice im 0 4096 = head) (whole : leAt head 16 4 + 4096 ≤ n) (verdict : t.imageCode head (fun k => slice im 4096 k) c = code) :
    s.recover image c = if code ≠ 0 then { t with boot.failA := code }
      else State.runImage { t with boot.failA := code, boot.recovery := true, boot.trial := false } head false := by
  subst verdict first bytes read length
  unfold State.recover
  dsimp only
  rw [if_neg (not_not_intro waits), if_neg (Nat.not_lt.2 whole)]

/-! ### RESET_HEAD (R499) -/

theorem exec_resetHead {n slot : Nat} {e : Entry} {s : State} (h : s.CanRun 0x02 n slot e) : exec (.resetHead n slot) s =
    .next (s.ended n slot e (if e.num 10 1 ≠ 0 ∨ !e.zero 11 3 then .fail (s.begun n slot e) stInvalidField
      else .done ((s.begun n slot e).askReset 3) stOk [] [])) :=
  congrArg Host.Outcome.next (State.packet_runs _ h)

/-- Settles O57: each packet by its rule, the recovery by its verdict. -/
theorem firmwareIsDownloadedActivatedAndCommitted : Obligations.FirmwareIsDownloadedActivatedAndCommitted := by
  unfold Obligations.FirmwareIsDownloadedActivatedAndCommitted
  refine ⟨?identity, ?download, ?activate, ?commit, ?recovery⟩
  case identity =>
    intro n slot e s
    refine ⟨fun h => congrArg Host.Outcome.next (State.packet_runs _ h), fun h => ⟨fun bad => ?_, fun good reserved => ?_⟩,
      fun h => congrArg Host.Outcome.next (State.packet_runs _ h)⟩
    · rw [exec_resetHead h, if_pos (.inl bad), State.ended_fail]
    · rw [exec_resetHead h, if_neg (by simp [good, reserved]), State.ended_done]
  case download =>
    intro n slot data e s h b off len i d total
    refine ⟨exec_fwDownload_badFields h rfl rfl rfl rfl rfl rfl, fun low high whole => ⟨?_, ?_, ?_, ?_⟩⟩
    · exact exec_fwDownload_slotBusy h rfl rfl rfl rfl rfl rfl low high whole
    · exact exec_fwDownload_gap h rfl rfl rfl rfl rfl rfl low high whole
    · intro free follows beyond
      rw [exec_fwDownload_inOrder (off := off) (len := len) (i := i) h rfl rfl rfl rfl rfl rfl low high whole free follows, if_pos beyond,
        State.ended_fail]
    · intro free start idle more w t marked written
      have inOrder := exec_fwDownload_inOrder (off := off) (len := len) (i := i) (d := d) (total := total) h rfl rfl rfl rfl rfl rfl low high whole free
        (.inl start)
      generalize off = o at start written inOrder ⊢
      subst start
      rw [inOrder, if_neg (by omega), if_neg (ne_true_of_eq_false idle), downloadedInto_first more marked written, State.ended_startDone]
  case activate =>
    intro n slot c e s h flag reserved b i head code verdict
    have runs := fun t => exec_fwActivate (i := i) (head := head) (t := t) h flag reserved rfl rfl verdict
    refine ⟨fun busy => ?_, fun free bad notOld => ?_, fun free old => ?_, fun free good major => ?_, fun p free good major paired met other => ?_,
      fun free good major alone t stored => ?_⟩
    · rw [runs _ rfl, if_pos busy, State.ended_fail]
      rfl
    · rw [runs _ rfl, if_neg free, if_pos ⟨bad, notOld⟩, State.ended_done]
    · rw [runs _ rfl, if_neg free, if_neg fun h => h.2 old, if_pos (.inl old), State.ended_fail]
    · rw [runs _ rfl, if_neg free, if_neg fun h => h.1 good, if_pos (.inr major), State.ended_fail]
    · have differs : s.majorDiffers (leAt head 9 1) = true := by simp [State.majorDiffers, paired, met, major, other]
      rw [runs _ rfl, if_neg free, if_neg fun h => h.1 good, if_neg (by simp [good, major]), if_pos differs, State.ended_fail]
    · have same : s.majorDiffers (leAt head 9 1) = false := by simp [State.majorDiffers, alone]
      rw [runs t stored, if_neg free, if_neg fun h => h.1 good, if_neg (by simp [good, major]), if_neg (ne_true_of_eq_false same), State.ended_done]
  case commit =>
    intro n slot e s h b i
    refine ⟨fun fixed => ?_, fun trial t stored => ?_⟩
    · rw [exec_fwCommit h rfl, fixed, if_pos (by decide), State.ended_fail]
    · rw [exec_fwCommit h stored, trial, if_neg (by decide), State.ended_done]
  case recovery =>
    intro image c s
    refine ⟨fun other => congrArg Host.Outcome.next (recover_elsewhere other), fun waits n length t read => ?_⟩
    intro im head whole code verdict
    have runs : exec (.recoveryGo image c) s = _ := congrArg Host.Outcome.next (recover_whole waits length read rfl rfl whole verdict)
    refine ⟨fun bad => ?_, fun good => ?_⟩
    · rw [runs, if_pos bad]
    · subst good
      rw [runs, if_neg (by decide)]

end Sys2Proof.Machine
end

section
/-! Field access (21_startup_security.md R500, R501, R502): what each packet comes to, what a failed and a good proof leave, and the statement about them. -/
namespace Sys2Proof.Machine

/-! ### FIELD_UNLOCK (R500 to R502) -/

/-- The credential that a method is proved against. -/
def State.credential (s : State) (m : Nat) : Option Bytes := if m = 1 then s.boot.pwd else s.boot.fkey

/-- A method's proof, checked against its credential. -/
def State.proves (s : State) (e : Entry) (m scope : Nat) (k : Bytes) : Bool :=
  if m = 1 then Config.sha2 2 (e.sub 14 32) == k
  else hmac256 k (s.boot.nonce.getD [] ++ uniqueBytes ++ leBytes 1 scope) == e.sub 14 32

/-- Method 2 uses the nonce up. -/
def State.nonceUsed (s : State) (m : Nat) : State := if m = 2 then { s with boot.nonce := none } else s

/-- What a failed proof leaves: it is counted and recorded, and its time is kept. -/
def State.proofFailed (s : State) : State :=
  ((State.setFails { s with boot.lastFail := s.tide.time } (Nat.min 0xFFFFFFFF (s.boot.fails + 1))).bump R.BOOT_AUTH_FAIL_CNT).sessionEvent stAuthFailed

/-- What a good proof leaves: the count is 0 and a session of its scope is open; with the scope's bit 2 the alarm source asserts. -/
def State.proofGood (s : State) (scope : Nat) : State :=
  let s := s.setFails 0
  let s := if scope.testBit 2 then State.raiseAlarm { s with keys.asserted := putBits s.keys.asserted 4 4 1 } 4 true else s
  State.sessionEvent { s with boot.sessionOpen := true, boot.scope := scope } stOk

section
variable {n slot m sc : Nat} {e : Entry} {s : State} (h : s.CanRun 0xE1 n slot e) (method : e.num 10 1 = m) (scope : e.num 11 1 = sc)
include h method scope

theorem exec_fieldUnlock_badFields (bad : m < 1 ∨ 2 < m ∨ 7 < sc) :
    exec (.fieldUnlock n slot) s = .next ((s.begun n slot e).replied n slot e stInvalidField [] []) := by
  subst scope method
  change execFieldUnlock n slot s = _
  rw [execFieldUnlock, State.packet_runs _ h]
  dsimp only
  rw [if_pos (by tauto), State.ended_fail]

variable (small : sc ≤ 7) (reserved : e.zero 12 2 = true) (known : m = 1 ∨ m = 2)
include small reserved known

omit h in
/-- The fields of a packet that asks for one of the two methods are good. -/
theorem fieldUnlock_fields : ¬(e.num 10 1 < 1 ∨ e.num 10 1 > 2 ∨ e.num 11 1 > 7 ∨ (!e.zero 12 2) = true) := by
  rw [method, scope, reserved]
  simp only [Bool.not_true, Bool.false_eq_true, or_false]
  omega

theorem exec_fieldUnlock_open (open_ : s.boot.sessionOpen = true) :
    exec (.fieldUnlock n slot) s = .next ((s.begun n slot e).replied n slot e 0x0F0B [] []) := by
  change execFieldUnlock n slot s = _
  rw [execFieldUnlock, State.packet_runs _ h]
  dsimp only
  rw [if_neg (fieldUnlock_fields method scope small reserved known), State.begun_boot, if_pos open_, State.ended_fail]

variable (shut : s.boot.sessionOpen = false)
include shut

theorem exec_fieldUnlock_unprovisioned (none_ : s.credential m = none) :
    exec (.fieldUnlock n slot) s = .next ((s.begun n slot e).replied n slot e 0x0F09 [] []) := by
  have stored : (if e.num 10 1 = 1 then s.boot.pwd else s.boot.fkey) = none := method ▸ none_
  change execFieldUnlock n slot s = _
  rw [execFieldUnlock, State.packet_runs _ h]
  dsimp only
  rw [if_neg (fieldUnlock_fields method scope small reserved known), State.begun_boot, if_neg (ne_true_of_eq_false shut), stored, State.ended_fail]

/-- With a credential, the lockout, the challenge and the proof decide. -/
theorem exec_fieldUnlock {k : Bytes} (credential : s.credential m = some k) : exec (.fieldUnlock n slot) s = .next (s.ended n slot e (
    if s.lockLeft > 0 then .done (s.begun n slot e) 0x0F08 (leBytes 4 s.lockLeft) []
    else if m = 2 ∧ s.boot.nonce.isNone then .fail (s.begun n slot e) 0x0F07
    else if !s.proves e m sc k then .fail ((s.begun n slot e).nonceUsed m).proofFailed stAuthFailed
    else .done (((s.begun n slot e).nonceUsed m).proofGood sc) stOk [] [])) := by
  have stored : (if e.num 10 1 = 1 then s.boot.pwd else s.boot.fkey) = some k := method ▸ credential
  change execFieldUnlock n slot s = _
  rw [execFieldUnlock, State.packet_runs _ h]
  dsimp only
  rw [if_neg (fieldUnlock_fields method scope small reserved known), State.begun_boot, if_neg (ne_true_of_eq_false shut), stored]
  subst scope method
  rfl

theorem exec_fieldUnlock_locked {k : Bytes} (credential : s.credential m = some k) (locked : 0 < s.lockLeft) :
    exec (.fieldUnlock n slot) s = .next ((s.begun n slot e).replied n slot e 0x0F08 (leBytes 4 s.lockLeft) []) := by
  rw [exec_fieldUnlock h method scope small reserved known shut credential, if_pos locked, State.ended_done]

variable (free : s.lockLeft = 0)
include free

theorem exec_fieldUnlock_unchallenged {k : Bytes} (credential : s.credential m = some k) (second : m = 2) (none_ : s.boot.nonce = none) :
    exec (.fieldUnlock n slot) s = .next ((s.begun n slot e).replied n slot e 0x0F07 [] []) := by
  rw [exec_fieldUnlock h method scope small reserved known shut credential, if_neg (by omega), if_pos ⟨second, by rw [none_]; rfl⟩, State.ended_fail]

/-- Out of the lockout and with what the method needs, the proof decides. -/
theorem exec_fieldUnlock_proof {k : Bytes} (credential : s.credential m = some k) (challenged : m = 2 → s.boot.nonce ≠ none) :
    exec (.fieldUnlock n slot) s = .next (s.ended n slot e (
    if !s.proves e m sc k then .fail ((s.begun n slot e).nonceUsed m).proofFailed stAuthFailed
    else .done (((s.begun n slot e).nonceUsed m).proofGood sc) stOk [] [])) := by
  rw [exec_fieldUnlock h method scope small reserved known shut credential, if_neg (by omega),
    if_neg fun ⟨second, none_⟩ => challenged second (Option.isNone_iff_eq_none.1 none_)]

end

theorem proofGood_plain {s : State} {scope : Nat} (plain : scope.testBit 2 = false) : s.proofGood scope =
    State.sessionEvent { s.setFails 0 with boot.sessionOpen := true, boot.scope := scope } stOk := by
  unfold State.proofGood
  dsimp only
  rw [if_neg (ne_true_of_eq_false plain)]

theorem proofGood_alarm {s t u : State} {scope : Nat} (alarm : scope.testBit 2 = true) (counted : s.setFails 0 = t)
    (raised : State.raiseAlarm { t with keys.asserted := putBits t.keys.asserted 4 4 1 } 4 true = u) : s.proofGood scope =
    State.sessionEvent { u with boot.sessionOpen := true, boot.scope := scope } stOk := by
  subst raised counted
  unfold State.proofGood
  dsimp only
  rw [if_pos alarm]

theorem nonceUsed_other {s : State} {m : Nat} (other : m ≠ 2) : s.nonceUsed m = s := if_neg other

theorem nonceUsed_second {s : State} {m : Nat} (second : m = 2) : s.nonceUsed m = { s with boot.nonce := none } := if_pos second

/-! ### FIELD_PROVISION (R501) -/

theorem exec_fieldProvision {n slot : Nat} {e : Entry} {s : State} (h : s.CanRun 0xE3 n slot e) (reserved : e.zero 11 1 = true)
    (known : e.num 10 1 = 1 ∨ e.num 10 1 = 2) : exec (.fieldProvision n slot) s = .next (s.ended n slot e (
      if (s.credential (e.num 10 1)).isSome then .fail (s.begun n slot e) 0x0F0A
      else if e.num 10 1 = 1 then .done { s.begun n slot e with boot.pwd := some (Config.sha2 2 (e.sub 12 32)) } stOk [] []
      else .done { s.begun n slot e with boot.fkey := some (e.sub 12 32) } stOk [] [])) := by
  change execFieldProvision n slot s = _
  rw [execFieldProvision, State.packet_runs _ h]
  dsimp only
  rw [if_neg]
  · rfl
  · rw [reserved]
    simp only [Bool.not_true, Bool.false_eq_true, or_false]
    omega

/-! ### Lockouts and ends (R501, R502) -/

/-- From the third failure on a lockout lasts twice as long each time, up to 1,024 minutes. -/
theorem lockMinutes_eq (n : Nat) : lockMinutes n = if n < 3 then 0 else Nat.min (2 ^ (n - 3)) 1024 := by
  unfold lockMinutes
  by_cases few : n < 3
  · rw [if_pos few, if_pos few]
  · rw [if_neg few, if_neg few]
    by_cases many : n ≥ 13
    · have long : 2 ^ 10 ≤ 2 ^ (n - 3) := Nat.pow_le_pow_right (by decide) (by omega)
      rw [if_pos many]
      exact (Nat.min_eq_right long).symm
    · rw [if_neg many]

theorem endSession_shut {s : State} (shut : s.boot.sessionOpen = false) : s.endSession = s := if_neg (ne_true_of_eq_false shut)

theorem endSession_open {s : State} (open_ : s.boot.sessionOpen = true) : s.endSession = { s with
    boot.sessionOpen := false, boot.scope := 0, keys.asserted := putBits s.keys.asserted 4 4 0 } := if_pos open_

/-- Settles O58: the unlock by the first check that fails and then by its proof, the other packets by their rules. -/
theorem fieldAccessIsCheckedAndEnds : Obligations.FieldAccessIsCheckedAndEnds := by
  unfold Obligations.FieldAccessIsCheckedAndEnds
  refine ⟨?challenge, ?unlock, ?packets, ?ends, lockMinutes_eq⟩
  case challenge =>
    intro n slot e s h nonce
    exact congrArg Host.Outcome.next (State.packet_runs _ h)
  case unlock =>
    intro n slot e s h b m sc
    refine ⟨exec_fieldUnlock_badFields h rfl rfl, fun small reserved known => ⟨?_, ?_, ?_, ?_, ?_, ?_⟩⟩
    · exact exec_fieldUnlock_open h rfl rfl small reserved known
    · exact exec_fieldUnlock_unprovisioned h rfl rfl small reserved known
    · exact fun k shut => exec_fieldUnlock_locked h rfl rfl small reserved known shut
    · intro k shut second key free none_
      exact exec_fieldUnlock_unchallenged h rfl rfl small reserved known shut free ((if_neg (by omega)).trans key) second none_
    · intro k shut first password free
      have runs := exec_fieldUnlock_proof (m := m) (sc := sc) h rfl rfl small reserved known shut free ((if_pos first).trans password) (by omega)
      have proof : s.proves e m sc k = (Config.sha2 2 (e.sub 14 32) == k) := if_pos first
      rw [proof, nonceUsed_other (by omega)] at runs
      refine ⟨fun wrong => ?_, fun right plain => ?_, fun right alarm t u counted raised => ?_⟩
      · rw [runs, wrong, if_pos (by decide), State.ended_fail]
        rfl
      · rw [runs, right, if_neg (by decide), State.ended_done, proofGood_plain plain]
      · rw [runs, right, if_neg (by decide), State.ended_done, proofGood_alarm alarm counted raised]
    · intro k nc shut second key free nonce right plain
      have runs := exec_fieldUnlock_proof (m := m) (sc := sc) h rfl rfl small reserved known shut free ((if_neg (by omega)).trans key)
        fun _ => by rw [nonce]; exact nofun
      have proof : s.proves e m sc k = true := by
        rw [State.proves, if_neg (by omega), nonce]
        exact right
      rw [runs, proof, if_neg (by decide), State.ended_done, nonceUsed_second second, proofGood_plain plain]
  case packets =>
    intro n slot e s
    refine ⟨fun h => congrArg Host.Outcome.next (State.packet_runs _ h), fun h reserved known => ⟨fun provisioned => ?_, fun first none_ => ?_,
      fun second none_ => ?_⟩⟩
    · rw [exec_fieldProvision h reserved known, State.credential, if_pos provisioned, State.ended_fail]
    · rw [exec_fieldProvision h reserved known, State.credential, if_pos first, none_, if_neg (by decide), if_pos first, State.ended_done]
    · have notFirst : e.num 10 1 ≠ 1 := by omega
      rw [exec_fieldProvision h reserved known, State.credential, if_neg notFirst, none_, if_neg (by decide), if_neg notFirst, State.ended_done]
  case ends =>
    intro s
    exact ⟨rfl, rfl, endSession_shut, endSession_open⟩

end Sys2Proof.Machine
end

section
/-! Power domains (22_power_electrical.md R505, R506, R517): which a packet may switch, what switching off and on leaves, and the statement about them. -/
namespace Sys2Proof.Machine

/-! ### SET_POWER_DOMAIN (R506) -/

/-- What is answered once the units of a domain have left service, or may not. -/
def switchedOff (b : State) (d : Nat) : Except Nat State → PktRes
  | .error st => .fail b st
  | .ok t => .done (State.afterUnits (State.bump { t with pwr.off := t.pwr.off ++ [d] } R.PWR_SWITCH_CNT)) stOk [] []

/-- A domain that is switched on waits to be ready. -/
def State.switchedOn (s : State) (d : Nat) (p : PktRef) : State :=
  let c := (s.bump R.PWR_SWITCH_CNT).clearCopies d
  { c with pwr.off := c.pwr.off.filter (· != d), pwr.notReady := c.pwr.notReady ++ [d], pwr.waiting := c.pwr.waiting ++ [(d, p)] }

section
variable {n slot d act : Nat} {e : Entry} {s : State} (h : s.CanRun 0xA3 n slot e) (target : unitIndex e.target = d) (action : e.num 10 1 = act)
include h target action

theorem exec_setPowerDomain : exec (.setPowerDomain n slot) s = .next (s.ended n slot e (
    if act > 1 ∨ !e.zero 11 3 ∨ d ≤ 1 ∨ (89 ≤ d ∧ d ≤ 94) then .fail (s.begun n slot e) stInvalidField
    else if s.pwr.waiting.any (fun w => w.1 == d) then .fail (s.begun n slot e) stBusy
    else if act = 1 then
      if !s.pwr.off.contains d then .done (s.begun n slot e) stOk [] [] else .quiet ((s.begun n slot e).switchedOn d (packetRef n slot e))
    else if s.pwr.off.contains d then .done (s.begun n slot e) stOk [] []
    else if s.domainBooked d ∨ s.domainLast d ∨ (d = 2 ∧ s.pair.state = .paired) then .fail (s.begun n slot e) stBusy
    else switchedOff (s.begun n slot e) d ((s.begun n slot e).domainOut d))) := by
  subst action target
  exact congrArg Host.Outcome.next (State.packet_runs _ h)

theorem exec_setPowerDomain_badFields (bad : 1 < act ∨ d ≤ 1 ∨ (89 ≤ d ∧ d ≤ 94)) :
    exec (.setPowerDomain n slot) s = .next ((s.begun n slot e).replied n slot e stInvalidField [] []) := by
  rw [exec_setPowerDomain h target action, if_pos (by tauto), State.ended_fail]

/-- A good packet for a domain that no other packet waits for. -/
theorem exec_setPowerDomain_good (known : act ≤ 1) (reserved : e.zero 11 3 = true) (low : 2 ≤ d) (high : d < 89 ∨ 94 < d) :
    exec (.setPowerDomain n slot) s = .next (s.ended n slot e (
    if s.pwr.waiting.any (fun w => w.1 == d) then .fail (s.begun n slot e) stBusy
    else if act = 1 then
      if !s.pwr.off.contains d then .done (s.begun n slot e) stOk [] [] else .quiet ((s.begun n slot e).switchedOn d (packetRef n slot e))
    else if s.pwr.off.contains d then .done (s.begun n slot e) stOk [] []
    else if s.domainBooked d ∨ s.domainLast d ∨ (d = 2 ∧ s.pair.state = .paired) then .fail (s.begun n slot e) stBusy
    else switchedOff (s.begun n slot e) d ((s.begun n slot e).domainOut d))) := by
  have good : ¬(act > 1 ∨ (!e.zero 11 3) = true ∨ d ≤ 1 ∨ (89 ≤ d ∧ d ≤ 94)) := by
    rw [reserved]
    simp only [Bool.not_true, Bool.false_eq_true, false_or]
    omega
  rw [exec_setPowerDomain h target action, if_neg good]

end

/-! ### The units of a domain leave service (R506) -/

section
variable {d : Nat} {s : State}

theorem domainOut_ethernet (low : 3 ≤ d) (high : d ≤ 18) : s.domainOut d = .ok ((s.ethOff (d - 3)).setUnitState (unitId 1 (d - 3)) .offline 0) :=
  if_pos ⟨low, high⟩

theorem domainOut_icl : s.domainOut 2 = .ok (s.iclDown.setUnitState iclUnit .offline 0) := rfl

theorem domainOut_cache (low : 51 ≤ d) (high : d ≤ 62) : s.domainOut d = .ok { s.llcLeave (fun _ => true) with
    mem.rehash := true
    mem.slices := s.mem.slices.filter (fun (x : LlcSlice) => x.idx / 4 != d - 51) } := by
  unfold State.domainOut
  rw [if_neg (by omega), if_neg (by omega), if_neg (by omega), if_pos ⟨low, high⟩]

theorem domainOut_cluster (low : 63 ≤ d) (high : d ≤ 88) : s.domainOut d = .ok (s.leaveCluster (d - 63)) := by
  have cluster : domainCluster d = some (d - 63) := if_pos ⟨low, high⟩
  unfold State.domainOut
  rw [if_neg (by omega), if_neg (by omega), if_neg (by omega), if_neg (by omega), cluster]

end

/-! ### POWER_DOMAIN_READY (R505) -/

theorem exec_powerDomainReady_other {d : Nat} {s : State} (other : s.pwr.notReady.contains d = false) : exec (.powerDomainReady d) s = .next s :=
  congrArg Host.Outcome.next (if_pos (by rw [other]; rfl))

/-- A domain that is ready serves again, and the packets that waited for it are answered. -/
theorem exec_powerDomainReady {d : Nat} {s t u : State} (waits : s.pwr.notReady.contains d = true) (registers : s.domainRegs d = t)
    (serves : State.domainIn { t with pwr.notReady := t.pwr.notReady.filter (· != d) } d = u) : exec (.powerDomainReady d) s =
    .next (((u.pwr.waiting.filter fun w => w.1 == d).map Prod.snd).foldl (fun (s : State) p => s.finish p stOk [] [])
      { u with pwr.waiting := u.pwr.waiting.filter fun w => w.1 != d }) := by
  subst serves registers
  exact congrArg Host.Outcome.next (if_neg (by rw [waits]; decide))

/-- Settles O59: the switching by the first check that holds, the units by their domains, READY by what waits. -/
theorem powerDomainsAreSwitched : Obligations.PowerDomainsAreSwitched := by
  unfold Obligations.PowerDomainsAreSwitched
  refine ⟨?switch, ?out_, ?ready, ?reports⟩
  case switch =>
    intro n slot e s h b d
    refine ⟨exec_setPowerDomain_badFields h rfl rfl, fun known reserved low high => ?_⟩
    have runs := exec_setPowerDomain_good (d := d) h rfl rfl known reserved low high
    refine ⟨fun busy => ?_, fun free => ⟨fun on isOn => ?_, fun on isOff c cleared => ?_, fun off isOff => ?_, fun off isOn busy => ?_,
      fun off isOn notBooked notLast notPaired => ⟨fun st refused => ?_, fun t left => ?_⟩⟩⟩
    · rw [runs, if_pos busy, State.ended_fail]
    · rw [runs, if_neg (ne_true_of_eq_false free), if_pos on, isOn, if_pos (by decide), State.ended_done]
    · subst cleared
      rw [runs, if_neg (ne_true_of_eq_false free), if_pos on, isOff, if_neg (by decide), State.ended_quiet]
      rfl
    · rw [runs, if_neg (ne_true_of_eq_false free), if_neg (by omega), if_pos isOff, State.ended_done]
    · rw [runs, if_neg (ne_true_of_eq_false free), if_neg (by omega), if_neg (ne_true_of_eq_false isOn), if_pos busy, State.ended_fail]
    · rw [runs, if_neg (ne_true_of_eq_false free), if_neg (by omega), if_neg (ne_true_of_eq_false isOn),
        if_neg (by simpa [notBooked, notLast] using notPaired), show State.domainOut _ d = _ from refused]
      rfl
    · rw [runs, if_neg (ne_true_of_eq_false free), if_neg (by omega), if_neg (ne_true_of_eq_false isOn),
        if_neg (by simpa [notBooked, notLast] using notPaired), show State.domainOut _ d = _ from left]
      rfl
  case out_ =>
    intro d s
    exact ⟨domainOut_ethernet, domainOut_icl, domainOut_cache, domainOut_cluster⟩
  case ready =>
    intro d s
    refine ⟨exec_powerDomainReady_other, fun waits t u registers serves => ?_⟩
    have runs := exec_powerDomainReady waits registers serves
    refine ⟨fun none_ => ?_, fun p one => ?_⟩
    · have same : { u with pwr.waiting := [] } = u := by rw [← none_]
      rw [runs, none_]
      exact congrArg Host.Outcome.next same
    · rw [runs, one]
      simp
  case reports =>
    intro n slot e s
    exact ⟨fun h => congrArg Host.Outcome.next (State.packet_runs _ h), fun h => congrArg Host.Outcome.next (State.packet_runs _ h)⟩

end Sys2Proof.Machine
end
